-- ==== Sys2Proof/Word.lean ====
section
/-! DEFINITION. Word types of the block and its plainest arithmetic (R4: little-endian bytes, bit 0 least significant). -/

namespace Sys2Proof

/-- One byte of memory. -/
abbrev Byte := BitVec 8

/-- A scalar register or a management register (R140, R463). -/
abbrev Word := BitVec 64

/-- A vector register (R140). -/
abbrev VReg := BitVec 2048

/-- A predicate register, one bit per byte of a vector register (R140, R148). -/
abbrev PReg := BitVec 256

/-- Bits [hi:lo] of a number. -/
def bits (n hi lo : Nat) : Nat := n / 2 ^ lo % 2 ^ (hi + 1 - lo)

/-- Bit i of a number. -/
def bit (n i : Nat) : Bool := n / 2 ^ i % 2 == 1

/-- The number with bit i set. -/
def setBit (n i : Nat) : Nat := if bit n i then n else n + 2 ^ i

/-- The number with bit i clear. -/
def clearBit (n i : Nat) : Nat := if bit n i then n - 2 ^ i else n

/-- The number of set bits among the lowest `w`. -/
def popcount (w n : Nat) : Nat := (List.range w).countP (bit n)

/-- The set bits among the lowest `w`, ascending. -/
def bitsOf (w n : Nat) : List Nat := (List.range w).filter (bit n)

/-- Quotient rounded up. -/
def ceilDiv (a b : Nat) : Nat := (a + b - 1) / b

/-- A byte string as one little-endian number (R4). -/
def leNat : List Byte → Nat
  | [] => 0
  | b :: bs => b.toNat + 256 * leNat bs

/-- A number as `k` little-endian bytes (R4). -/
def leBytes : Nat → Nat → List Byte
  | 0, _ => []
  | k + 1, n => BitVec.ofNat 8 n :: leBytes k (n / 256)

end Sys2Proof
end

