-- ==== Sys2Proof/Syntax.lean ====
section
/-! DEFINITION. The commands of the block: one constructor of `Instr` for each row of spec/opcode_table.json, with the
operands the spec gives the step. Numbers (identifiers, addresses, lengths) are naturals; register contents are bit
vectors. What is measured, received or decided outside the step is an operand of it. -/

namespace Sys2Proof

/-! ### Shared operand types -/

/-- Table 19-1, the error codes. -/
inductive Err where
  | none | unmapped | permission | partition | bounds | disabled | aborted | timeout | poison | integrity
  | unreachable | format | resource | tense | align
  deriving DecidableEq, Repr

/-- A management path (chapter 20, Access paths and ordering). -/
inductive Path where
  | nelarA | nelarB | mgmt0 | mgmt1 | smbus | jtag
  deriving DecidableEq, Repr

/-- The straps and pins sampled at the release of POR_N (R408, R413). -/
structure Straps where
  mode : Nat
  posX : Nat
  posY : Nat
  posZ : Nat
  deriving DecidableEq, Repr

/-- What the fuses hold (R114, R394, R399, R403). `fused` has bit n set for a fused-off physical tile. -/
structure Fuses where
  serial : Nat
  fwSvn : Nat
  stepping : Nat
  fused : Nat
  rma : Bool
  deriving DecidableEq, Repr

/-- Table 17-6, a register entry of a Stem or an Inflection. -/
structure RegEntry where
  addr : Nat
  lo : Nat
  hi : Nat
  value : Nat
  deriving DecidableEq, Repr

/-- One edge-port entry of the PORTS record (Table 17-5). Role: 0 accelerator, 1 memory, 2 unused. -/
structure PortEntry where
  role : Nat
  bifurcate : Bool
  ideRequired : Bool
  slot : Nat
  farUnit : Nat
  deriving DecidableEq, Repr

/-- The Stem's records (Table 17-5), as Machine/Flash.lean reads them. Optional records are options: MODE as (MODE_ALLOW,
MODE_PUB), DEBUG_AUTH as (SERIAL, LEVEL, SIG). -/
structure Stem where
  regs : List RegEntry
  xFibres : Nat
  yFibres : Nat
  zFibres : Nat
  bx : Nat
  byw : Nat
  bz : Nat
  minPlanes : Nat
  fibreEn : Nat
  ports : List PortEntry
  mempIde : List Bool
  trayTag : Nat
  rackTag : Nat
  rowTag : Nat
  lsmBias : List Nat
  /-- Equalisation of the transmit drivers, by fibre and line in the order of the record (R330). -/
  txeq : List Nat
  /-- Calibration seeds of PTUs 0 to 3 (R276). -/
  ptuSeeds : List (List Byte)
  txnUs : Nat
  drainUs : Nat
  partLo : Nat
  partHi : Nat
  maxSlot : Nat
  maxNear : Nat
  maxFar : Nat
  maxOutstanding : Nat
  mode : Option (Nat × Nat)
  brakeFloorPct : Nat
  capInitW : Nat
  debugAuth : Option (Nat × Nat × Nat)
  digest : Nat
  deriving DecidableEq, Repr

/-- An Inflection section: number, entries, digest (R412). -/
structure Inflection where
  number : Nat
  entries : List RegEntry
  digest : Nat
  deriving DecidableEq, Repr

/-- One flash bank: its bytes from its base on (those it does not list are erased), and whether its reads complete. -/
structure Bank where
  readOk : Bool
  bytes : List Byte
  deriving DecidableEq, Repr

/-- The flash (Table 17-1): two banks and the first 16 KiB of the identity section. -/
structure Flash where
  bank0 : Bank
  bank1 : Bank
  identity : List Byte
  deriving DecidableEq, Repr

/-- A readout of one LSM's registers (Table 13-9). -/
structure LsmReading where
  lsm : Nat
  bias : Nat
  biasMax : Nat
  headroom : Nat
  deriving DecidableEq, Repr

/-- A ring of a trunk fibre: transmit or receive (R311, R313). -/
structure Ring where
  fibre : Nat
  line : Nat
  tx : Bool
  deriving DecidableEq, Repr

/-- Table 13-2, the header and target blocks of a burst: targets as (line, first, prevLseq). -/
structure BurstHeader where
  srcChip : Nat
  plane : Nat
  line : Nat
  mcast : Bool
  bodyM1 : Nat
  frameM1 : Nat
  targets : List (Nat × Bool × Nat)
  deriving DecidableEq, Repr

/-- Table 13-4, a LINK_CTL message, with the chip that sent it and the fibre that carried it. -/
structure LinkCtl where
  src : Nat
  fibre : Nat
  plane : Nat
  kind : Nat
  line : Nat
  vc : Nat
  value0 : Nat
  value1 : Nat
  value2 : Nat
  deriving DecidableEq, Repr

/-- Table 12-2, the Article header. -/
structure Article where
  dest : Nat
  opcode : Nat
  flags : Nat
  partition : Nat
  vc : Nat
  tense : Nat
  tc : Nat
  plane : Nat
  length : Nat
  srcChip : Nat
  srcUnit : Nat
  line : Nat
  lseq : Nat
  tag : Nat
  aux : Nat
  hcrc : Nat
  deriving DecidableEq, Repr

/-- A frame: Article, payload and tail (Tables 12-2, 12-5). -/
structure Frame where
  art : Article
  payload : List Byte
  crc : Nat
  stomp : Nat
  deriving DecidableEq, Repr

/-- A request frame at its local unit: destination FPA, partition, source chip, tag and tense (R285, R291). `port` is
the core port of arrival; `spec` is FLAGS.SPEC. -/
structure HomeReq where
  dest : Nat
  partition : Nat
  src : Nat
  tag : Nat
  tense : Nat
  port : Nat
  spec : Bool
  deriving DecidableEq, Repr

/-- A response frame: the chip it comes from, the request's tag and STATUS. -/
structure Resp where
  src : Nat
  tag : Nat
  status : Err
  deriving DecidableEq, Repr

/-- Table 10-5, a directory exchange, with source chip and request tag. -/
structure DirMsg where
  src : Nat
  tag : Nat
  partition : Nat
  page : Nat
  oldFrame : Nat
  newFrame : Nat
  firstBlock : Nat
  lastBlock : Nat
  heat : Nat
  deriving DecidableEq, Repr

/-- R229, a collective tag with the frame's source chip and partition. -/
structure CollTag where
  src : Nat
  partition : Nat
  group : Nat
  gen : Nat
  inst : Nat
  phase : Nat
  chunk : Nat
  deriving DecidableEq, Repr

/-- A direct aperture request (R341 to R343): edge port, PASID, address, length in bytes, the accelerator's own tag,
whether it is UIO, and whether any byte is enabled. -/
structure Direct where
  port : Nat
  pasid : Option Nat
  addr : Nat
  len : Nat
  tag : Nat
  uio : Bool
  enabled : Bool
  deriving DecidableEq, Repr

/-- A control-region request (R168, R169). -/
structure CtlReq where
  port : Nat
  pasid : Option Nat
  offset : Nat
  len : Nat
  tag : Nat
  posted : Bool
  deriving DecidableEq, Repr

/-- The AtomicOps of PCIe (Table 14-1). -/
inductive PcieAtomic where
  | fetchAdd | swap | cas
  deriving DecidableEq, Repr

/-- Table 15-6, the header of a request, with the path that carried it; `reserved` is true when a reserved bit is 1. -/
structure Hdr where
  path : Path
  chip : Nat
  reqId : Nat
  resp : Bool
  length : Nat
  reserved : Bool
  deriving DecidableEq, Repr

/-- Table 16-2, PART_CREATE. In this and the next bodies `reserved` is true when a reserved field is nonzero. -/
structure PartCreate where
  partition : Nat
  tc : Nat
  queueFirst : Nat
  queueCount : Nat
  ctrFirst : Nat
  ctrCount : Nat
  winFirst : Nat
  winCount : Nat
  slotQuota : Nat
  spillQuota : Nat
  nearQuota : Nat
  farQuota : Nat
  outstanding : Nat
  reserved : Bool
  deriving DecidableEq, Repr

/-- Table 3-5, MAP_INSTALL. -/
structure MapInstall where
  partition : Nat
  perm : Nat
  pinNear : Bool
  pinFar : Bool
  pinHome : Bool
  noReplica : Bool
  staleOk : Bool
  prefer : Nat
  frameMode : Nat
  page : Nat
  frameFpa : Nat
  reserved : Bool
  deriving DecidableEq, Repr

/-- Table 3-6, MAP_WITHDRAW. -/
structure MapWithdraw where
  partition : Nat
  abort : Bool
  firstPage : Nat
  countM1 : Nat
  reserved : Bool
  deriving DecidableEq, Repr

/-- Table 2-6, a window-table entry; members as (chip, slot). -/
structure WinEntry where
  valid : Bool
  perm : Nat
  replicable : Bool
  sideEffect : Bool
  altSide : Bool
  partition : Nat
  suLog2 : Nat
  length : Nat
  devBase : Nat
  members : List (Nat × Nat)
  reserved : Bool
  deriving DecidableEq, Repr

/-- Table 7-1, QUEUE_CREATE. -/
structure QueueCreate where
  queue : Nat
  partition : Nat
  engine : Bool
  sqLog2 : Nat
  cqLog2 : Nat
  timeoutUs : Nat
  sqFva : Nat
  cqFva : Nat
  reserved : Bool
  deriving DecidableEq, Repr

/-- Table 9-1, GROUP_CREATE. -/
structure GroupCreate where
  group : Nat
  partition : Nat
  paired : Bool
  rotWindow : Nat
  slotMask : Nat
  slots : Nat
  queueBase : Nat
  xMask : Nat
  yMask : Nat
  zMask : Nat
  reserved : Bool
  deriving DecidableEq, Repr

/-- Table 17-8, MODE_SELECT. -/
structure ModeSelect where
  mode : Nat
  anyChip : Bool
  target : Nat
  seq : Nat
  inflDigest : Nat
  sig : Nat
  reserved : Bool
  deriving DecidableEq, Repr

/-- Table 16-7, WEIGHT_LOAD. -/
structure WeightLoad where
  partition : Nat
  pkgFva : Nat
  pkgLen : Nat
  dstFva : Nat
  reserved : Bool
  deriving DecidableEq, Repr

/-- What a Nelar receive lane found in training (R364, R365): the payload of its AM; and where its descrambler, its count of blocks since that
AM and their parity stand when the link aligns. -/
structure LaneSeen where
  am : Nat
  scr : Nat
  since : Nat
  bip : Nat
  deriving DecidableEq, Repr

/-- Table 15-5, a flit; `crcOk` says whether its CRC-32C matches. -/
structure Flit where
  fseq : Nat
  ackseq : Nat
  kind : Nat
  credit : Nat
  crcOk : Bool
  payload : List Byte
  deriving DecidableEq, Repr

/-- A tile context: logical tile and context number (R114, R116). -/
structure At where
  tile : Nat
  ctx : Nat
  deriving DecidableEq, Repr

/-- An ECC event that meets an access of the tile (R118). -/
inductive Ecc where
  | none | l1Corrected | storeCorrected | l1CleanUncorrectable | l1DirtyUncorrectable | storeUncorrectable
  deriving DecidableEq, Repr

/-! ### Instruction formats of a tile program (Table 6-2), fields that a row marks as 0 included -/

structure FmtS where
  rd : BitVec 6
  ra : BitVec 6
  rb : BitVec 6
  deriving DecidableEq, Repr
structure FmtI where
  rd : BitVec 6
  ra : BitVec 6
  imm : BitVec 14
  deriving DecidableEq, Repr
structure FmtU where
  rd : BitVec 6
  imm : BitVec 20
  deriving DecidableEq, Repr
structure FmtB where
  ra : BitVec 6
  rb : BitVec 6
  off : BitVec 14
  deriving DecidableEq, Repr
structure FmtM where
  t : BitVec 6
  ra : BitVec 6
  scope : BitVec 2
  sz : BitVec 3
  imm : BitVec 9
  deriving DecidableEq, Repr
structure FmtVM where
  vd : BitVec 5
  ra : BitVec 6
  pg : BitVec 4
  imm : BitVec 11
  deriving DecidableEq, Repr
structure FmtV where
  vd : BitVec 5
  va : BitVec 5
  vb : BitVec 5
  pg : BitVec 4
  fmt : BitVec 4
  deriving DecidableEq, Repr
structure FmtVX where
  v : BitVec 5
  sa : BitVec 6
  sb : BitVec 6
  fmt : BitVec 4
  deriving DecidableEq, Repr
structure FmtX where
  acc : BitVec 3
  ra : BitVec 6
  rb : BitVec 6
  rk : BitVec 6
  fmt : BitVec 4
  s : Bool
  deriving DecidableEq, Repr
structure FmtA where
  rd : BitVec 6
  ra : BitVec 6
  rb : BitVec 6
  op : BitVec 4
  w : BitVec 2
  scope : BitVec 2
  deriving DecidableEq, Repr
structure FmtT where
  reg : BitVec 6
  strm : BitVec 3
  reserved : BitVec 9
  deriving DecidableEq, Repr
structure FmtC where
  rd : BitVec 6
  ra : BitVec 6
  rb : BitVec 6
  scope : BitVec 2
  deriving DecidableEq, Repr

/-- The commands, one constructor per row of spec/opcode_table.json, in the table's order. -/
inductive Instr where
  -- start, pins, power (17, 18, 19, 21)
  | porNRelease (straps : Straps) (fuses : Fuses) (flash : Flash)
  | configurationLock
  | wrstNAssert (flash : Flash)
  | coolOkAssert
  | coolOkDeassert
  | coolOkLossTimeout
  | junctionBrakeTemperature (celsius : Nat)
  | junctionLimitTemperature (celsius : Nat)
  | railOutOfLimits (rail millivolts : Nat)
  | epoNAssert
  | freezeNAssert (stopCycles : List Nat)
  | pwrbrakeNAssert
  | powerSample (watts celsius : Nat) (pwrbrakeLow : Bool)
  | overCapSamples
  | brakeExit
  | fatalError (cause : Nat)
  -- lasers, rings, bursts, hops (13)
  | lsmReady (lsm : Nat)
  | lsmFault (lsm : Nat)
  | lsmRegisterAccessFail (lsm : Nat)
  | biasEvaluation (readings : List LsmReading)
  | lsmRetireWrite (lsm : Nat)
  | coldSearchDone (fibre txLocked rxLocked : Nat)
  | fabricReadyAssert
  | ringLockLoss (ring : Ring)
  | relockDone (ring : Ring) (ok : Bool)
  | lockSupervisorCheck (wrong : List Ring)
  | signalDetect (fibre line : Nat)
  | lockMiss (fibre line : Nat)
  | burstReceive (fibre line : Nat) (symbols : List Nat)
  | burstOpen (fibre line : Nat)
  | keepaliveTimer (fibre line : Nat)
  | powerReportTimer (fibre line power : Nat)
  | hopLost (fibre line : Nat) (hearsOther : Bool)
  | hopUpTimer (fibre line : Nat)
  | ack (m : LinkCtl)
  | nack (m : LinkCtl)
  | credit (m : LinkCtl)
  | creditReq (m : LinkCtl)
  | creditReturn (m : LinkCtl)
  | lendIdleTimeout (fibre line vc : Nat)
  | power (m : LinkCtl)
  | lineAlarm (m : LinkCtl)
  | seqQuery (m : LinkCtl)
  | seqReply (m : LinkCtl)
  | hopDrain (m : LinkCtl)
  | hopDrainDone (m : LinkCtl)
  | hopDown (m : LinkCtl)
  | hopUp (m : LinkCtl)
  | hopUpAck (m : LinkCtl)
  | keepalive (m : LinkCtl)
  | retryTimeout (fibre line : Nat)
  | hopRetryExhausted (fibre line : Nat)
  | optDrainStart (fibre : Nat)
  | optDrainReturn (fibre : Nat)
  | fibreDrainTimeout (fibre : Nat)
  -- switch core (12)
  | frameReceive (fibre line : Nat)
  | bufferEccError (frameId : Nat)
  | frameForward (frameId : Nat)
  | escapeTimeout (frameId : Nat)
  -- requests and responses at local units (04, 05, 07, 09, 10)
  | rd (r : HomeReq) (len : Nat)
  | wr (r : HomeReq) (data : List Byte) (ordered : Bool)
  | atomic (r : HomeReq) (op width operand compare : Nat)
  | inval (r : HomeReq) (writer : Option Nat)
  | ctr (r : HomeReq) (op operand compare : Nat)
  | clause (r : HomeReq) (descriptor : List Byte) (extents : List (Nat × Nat × Nat))
  | rdResp (r : Resp) (data : List Byte) (once : Bool)
  | wrResp (r : Resp)
  | atomicResp (r : Resp) (old : Nat)
  | invalAck (r : Resp)
  | ctrResp (r : Resp) (old : Nat)
  | clauseDone (r : Resp) (chunks segment addr : Nat)
  | dirRegister (m : DirMsg)
  | dirUnregister (m : DirMsg)
  | pmPrepare (m : DirMsg)
  | pmUpdate (m : DirMsg)
  | pmRelease (m : DirMsg)
  | replPlace (m : DirMsg)
  | replInval (m : DirMsg)
  | replDrop (m : DirMsg)
  | rehomeOffer (m : DirMsg)
  | dirResp (op : Nat) (status : Err) (m : DirMsg)
  -- rings (05)
  | req (lineAddr stop : Nat) (ownership : Bool)
  | snp (lineAddr stop : Nat)
  | half (lineAddr : Nat) (ringA : Bool)
  | done (lineAddr : Nat)
  | fin (lineAddr : Nat)
  | retry (lineAddr : Nat)
  | snoopReissue (lineAddr : Nat)
  | holdExpiry (tile lineAddr : Nat)
  -- edge (02, 07, 14)
  | apertureRead (d : Direct)
  | apertureWrite (d : Direct) (data : List Byte)
  | apertureAtomic (d : Direct) (op : PcieAtomic) (operand compare : Nat)
  | doorbell (c : CtlReq) (value : Nat)
  | cqHeadWrite (c : CtlReq) (value : Nat)
  | controlRegionRead (c : CtlReq)
  | controlCounterWrite (c : CtlReq) (value : Nat)
  | controlRegionAtomic (c : CtlReq) (op : PcieAtomic) (operand compare : Nat)
  | edgeDeviceEnumeration (port rate width hdmSize : Nat) (suitable ideOk : Bool)
  | edgeLinkLoss (port : Nat)
  | ideMacFailure (port : Nat)
  | ideKeyRefresh (port : Nat)
  | bisnp (slot offset : Nat)
  | cxlMemCompletion (port tag : Nat) (ok : Bool) (data : List Byte)
  | edgeDisable (port : Nat)
  | edgeEnable (port : Nat)
  | edgeDrainTimeout (port : Nat)
  | edgeCfgAccess (port value : Nat)
  | edgeCfgDone (port : Nat) (ok : Bool)
  | expanderLinkDown (port : Nat)
  | expanderReturnTimeout (port : Nat)
  | gddrTrainingDone (site rate density devices : Nat) (ok : Bool)
  | gddrRetrain (site : Nat) (ok : Bool)
  -- Nelar link (15)
  | nelarLinkActive (link locked : Nat) (lanes : List LaneSeen) (skew turn : Nat)
  | nelarLinkDown (link : Nat)
  | flitReceive (link : Nat) (blocks : List (Nat × Nat))
  | nackFlit (link : Nat) (blocks : List (Nat × Nat))
  | replayTimeout (link : Nat)
  | nelarReplayExhausted (link : Nat)
  | nelarDisable (link : Nat)
  | nelarEnable (link : Nat)
  | nelarDrainTimeout (link : Nat)
  -- messages (03, 07, 09, 15, 16, 17, 18, 20)
  | regRead (h : Hdr) (addr countM1 : Nat) (reserved : Bool)
  | regWrite (h : Hdr) (addr countM1 : Nat) (values : List Nat) (reserved : Bool)
  | registerWrite (path : Path) (addr value : Nat)
  | partCreate (h : Hdr) (b : PartCreate)
  | partDrain (h : Hdr) (partition : Nat) (reserved : Bool)
  | partitionDisabled (partition : Nat)
  | partitionDrainTimeout (partition : Nat)
  | weightLoad (h : Hdr) (b : WeightLoad)
  | attestReq (h : Hdr) (nonce : List Byte) (partition : Nat) (partEn reserved : Bool)
  | mapInstall (h : Hdr) (b : MapInstall)
  | zeroFillDone (frameFpa : Nat)
  | mapWithdraw (h : Hdr) (b : MapWithdraw)
  | withdrawalAcked (withdrawId : Nat)
  | faultReject (h : Hdr) (partition page : Nat) (reserved : Bool)
  | winInstall (h : Hdr) (partition slot : Nat) (abort : Bool) (entry : WinEntry) (reserved : Bool)
  | winRemove (h : Hdr) (partition slot : Nat) (abort reserved : Bool)
  | queueCreate (h : Hdr) (b : QueueCreate)
  | queueDrain (h : Hdr) (queue : Nat) (reserved : Bool)
  | queueDisabled (queue : Nat)
  | queueDrainTimeout (queue : Nat)
  | groupCreate (h : Hdr) (b : GroupCreate)
  | groupReset (h : Hdr) (group partition : Nat) (reserved : Bool)
  | groupDestroy (h : Hdr) (group partition : Nat) (reserved : Bool)
  | modeSelect (h : Hdr) (b : ModeSelect)
  | drainedPoint
  | modeChangeTimeout
  | capSet (h : Hdr) (capW seq : Nat) (reserved : Bool)
  | freezeRead (h : Hdr) (offset length : Nat) (reserved : Bool)
  | udpDatagram (port srcIp srcPort dstIp dstPort : Nat) (payload : List Byte) (fragment : Option (Nat × Nat × Bool))
  | arpRequest (port targetIp senderIp senderMac : Nat)
  | reassemblyTimeout (port srcIp ident : Nat)
  | smbusRegisterWrite (address : Nat) (pecOk : Bool) (addr value : Nat)
  | smbusRegisterRead (address : Nat) (pecOk : Bool) (addr : Nat)
  | extest (cells : Nat)
  | sample (pins : Nat)
  | idcode
  | regrd (addr : Nat)
  | regwr (addr value : Nat)
  | frzaddr (offset : Nat)
  | frzdata
  | bypass (tdi : Bool)
  -- clauses and queues (03, 07)
  | descriptorFetch (queue : Nat)
  | clauseAccept (queue : Nat)
  | pendingTriggerFree (queue : Nat)
  | triggerRelease (clauseId : Nat)
  | queueTimeout (clauseId : Nat)
  | clausePlace (clauseId : Nat)
  | segmentStart (clauseId : Nat)
  | clauseResume (clauseId : Nat)
  | parkTimeout (clauseId : Nat)
  | batchTimeout
  | batchFull
  | chunkComplete (clauseId chunk : Nat)
  | clauseComplete (clauseId : Nat)
  | copy (clauseId : Nat)
  | copy2d (clauseId : Nat)
  | fill (clauseId : Nat)
  | gather (clauseId : Nat)
  | scatter (clauseId : Nat) (order : List Nat)
  | atomicBatch (clauseId : Nat)
  | reduce (clauseId chunk : Nat)
  | allreduce (clauseId chunk : Nat)
  | reduceScatter (clauseId chunk : Nat)
  | allgather (clauseId chunk : Nat)
  | broadcast (clauseId chunk : Nat)
  | alltoall (clauseId chunk : Nat)
  | alltoallv (clauseId chunk : Nat)
  | transform (clauseId : Nat)
  | kernel (clauseId : Nat)
  | fenceClause (clauseId : Nat)
  | counterOp (clauseId : Nat)
  | wait (clauseId : Nat)
  | waitSatisfied (clauseId : Nat)
  | waitTimeout (clauseId : Nat)
  -- collectives (09)
  | slotReservationGrant (partition : Nat)
  | collReadySend (group : Nat)
  | collData (t : CollTag) (data : List Byte)
  | collCheck (t : CollTag) (crc : Nat)
  | collCounts (t : CollTag) (counts : List Nat)
  | collReady (t : CollTag) (digest : Nat)
  | collCheckResult (t : CollTag) (pass : Bool)
  | collCheckExhausted (group peer phase chunk : Nat)
  | collAbort (t : CollTag) (cause origin : Nat)
  | stallTimeout (group : Nat)
  -- Parser (10)
  | epochEnd (planeUse : List Nat)
  | migrationCopyDone (partition page : Nat)
  | migrationQuiesce (partition page : Nat)
  | quiesceTimeout (partition page : Nat)
  | migrationRetry (partition page : Nat)
  | migrationFinish (partition page : Nat)
  -- photonic transform (11)
  | transformStart (unit : Nat)
  | pilotCheck (unit : Nat) (pass : Bool)
  | warmCalibration (unit : Nat)
  | coldCalibrationDone (unit : Nat)
  | carrierLoss (unit : Nat)
  | carrierReturn (unit : Nat)
  | carrierLossTimeout (unit : Nat)
  | ptuDisable (unit : Nat)
  | ptuEnable (unit : Nat)
  | ptuDrainTimeout (unit : Nat)
  -- tiles and transactions (05, 19)
  | tileDisable (phys : Nat)
  | tileEnable (phys : Nat)
  | tileDrainTimeout (phys : Nat)
  | runaheadIssue (c : At) (strm : Nat)
  | transactionTimeout (tag : Nat)
  | faultMarkLost (chip : Nat)
  | faultMarkReachable (chip : Nat)
  -- selector and telemetry registers
  | xlatPmProbeWrite (path : Path) (value : Nat)
  | conjGroupSelWrite (path : Path) (value : Nat)
  | parserProbeWrite (path : Path) (value : Nat)
  | secVlogSelWrite (path : Path) (value : Nat)
  | faultReachSelWrite (path : Path) (value : Nat)
  | faultLogSelWrite (path : Path) (value : Nat)
  | teleSnapHist (mask : Nat)
  | teleSnapPorts
  | teleSnapClearPorts
  | teleHcfgWrite (hist value : Nat)
  | teleSampleTimer
  | teleStreamInterval
  -- tile instruction set (06)
  | add (c : At) (f : FmtS)
  | sub (c : At) (f : FmtS)
  | and (c : At) (f : FmtS)
  | or (c : At) (f : FmtS)
  | xor (c : At) (f : FmtS)
  | shl (c : At) (f : FmtS)
  | shr (c : At) (f : FmtS)
  | sra (c : At) (f : FmtS)
  | mul (c : At) (f : FmtS)
  | mulhu (c : At) (f : FmtS)
  | divu (c : At) (f : FmtS)
  | div (c : At) (f : FmtS)
  | min (c : At) (f : FmtS)
  | max (c : At) (f : FmtS)
  | minu (c : At) (f : FmtS)
  | maxu (c : At) (f : FmtS)
  | slt (c : At) (f : FmtS)
  | sltu (c : At) (f : FmtS)
  | popc (c : At) (f : FmtS)
  | addi (c : At) (f : FmtI)
  | andi (c : At) (f : FmtI)
  | ori (c : At) (f : FmtI)
  | xori (c : At) (f : FmtI)
  | shli (c : At) (f : FmtI)
  | shri (c : At) (f : FmtI)
  | srai (c : At) (f : FmtI)
  | slti (c : At) (f : FmtI)
  | lui (c : At) (f : FmtU)
  | seth (c : At) (f : FmtU)
  | beq (c : At) (f : FmtB)
  | bne (c : At) (f : FmtB)
  | blt (c : At) (f : FmtB)
  | bge (c : At) (f : FmtB)
  | bltu (c : At) (f : FmtB)
  | bgeu (c : At) (f : FmtB)
  | j (c : At) (off : BitVec 26)
  | jal (c : At) (off : BitVec 26)
  | jr (c : At) (f : FmtS)
  | ld (c : At) (f : FmtM) (ecc : Ecc)
  | lds (c : At) (f : FmtM) (ecc : Ecc)
  | st (c : At) (f : FmtM)
  | fence (c : At) (f : FmtM)
  | vld (c : At) (f : FmtVM) (ecc : Ecc)
  | vst (c : At) (f : FmtVM)
  | vadd (c : At) (f : FmtV)
  | vsub (c : At) (f : FmtV)
  | vmul (c : At) (f : FmtV)
  | vfma (c : At) (f : FmtV)
  | vmin (c : At) (f : FmtV)
  | vmax (c : At) (f : FmtV)
  | vabs (c : At) (f : FmtV)
  | vfmaw (c : At) (f : FmtV)
  | vand (c : At) (f : FmtV)
  | vor (c : At) (f : FmtV)
  | vxor (c : At) (f : FmtV)
  | vshl (c : At) (f : FmtV)
  | vshr (c : At) (f : FmtV)
  | vsra (c : At) (f : FmtV)
  | vsel (c : At) (f : FmtV)
  | vmov (c : At) (f : FmtV)
  | vcmp (c : At) (f : FmtV) (cond : BitVec 3)
  | vcvt (c : At) (f : FmtV) (part : BitVec 3)
  | vbcast (c : At) (f : FmtVX)
  | vins (c : At) (f : FmtVX)
  | vext (c : At) (f : FmtVX)
  | vrsum (c : At) (f : FmtVX)
  | vrmax (c : At) (f : FmtVX)
  | vrmin (c : At) (f : FmtVX)
  | vrmaxi (c : At) (f : FmtVX)
  | vrmini (c : At) (f : FmtVX)
  | pand (c : At) (f : FmtV)
  | por (c : At) (f : FmtV)
  | pxor (c : At) (f : FmtV)
  | pnot (c : At) (f : FmtV)
  | pall (c : At) (f : FmtV)
  | pnone (c : At) (f : FmtV)
  | plen (c : At) (f : FmtVX)
  | pcnt (c : At) (f : FmtVX)
  | mma (c : At) (f : FmtX) (ecc : Ecc)
  | mzero (c : At) (f : FmtX)
  | mld (c : At) (f : FmtX) (ecc : Ecc)
  | mst (c : At) (f : FmtX)
  | amo (c : At) (f : FmtA)
  | scfg (c : At) (f : FmtT) (ecc : Ecc)
  | spop (c : At) (f : FmtT) (ecc : Ecc)
  | spops (c : At) (f : FmtT) (ecc : Ecc)
  | sskip (c : At) (f : FmtT)
  | scan (c : At) (f : FmtT)
  | srem (c : At) (f : FmtT)
  | ctrld (c : At) (f : FmtC)
  | ctradd (c : At) (f : FmtC)
  | ctrwait (c : At) (f : FmtC)
  | ctrwaitWake (c : At)
  | waitLimitExpiry (c : At)
  | ctrset (c : At) (f : FmtC)
  | submit (c : At) (f : FmtS) (ecc : Ecc)
  | lex (c : At) (f : FmtI)
  | csrr (c : At) (f : FmtI)
  | csrw (c : At) (f : FmtI)
  | exit (c : At) (f : FmtS)
  | budgetExpiry (c : At)
  -- the rows at the table's end
  | porNAssert
  | expanderLinkReturn (port : Nat) (intact : Bool)
  | lsmPresNChange (lsm : Nat) (absent : Bool)
  | heldDescriptorTimeout (queue : Nat)
  | warmCalibrationDone (unit : Nat)
  | gddr7TransferCompletion (site block : Nat) (write : Bool) (crcFails : Nat) (uncorrectable : Bool)
      (other : Option (List Byte × List Byte))
  | gddr7DeviceFatalError (site : Nat)
  deriving DecidableEq, Repr

end Sys2Proof
end

