-- ==== Sys2Proof/Decode.lean ====
section
/-! DEFINITION. The command that a word spells by the bits of spec/opcode_table.json (no row of that table gives bits, so no
word spells a command), and the instruction of a tile program that a 32-bit word encodes (R146, Tables 6-2 and 6-3). -/

namespace Sys2Proof

/-- No row of the table gives bits: none, whatever the word (the table's "fields" are empty for every row). -/
def decodeTableWord (_nbits _w : Nat) : Option Instr := none

/-- The formats of Table 6-2. -/
inductive TileForm where
  | s | i | u | b | j | m | vm | v | vx | x | a | t | c
  deriving DecidableEq, Repr

/-- A row of Table 6-3: MAJ, FN where it has one, format, mnemonic as the command table spells it. -/
structure TileRow where
  maj : Nat
  fn : Option Nat
  form : TileForm
  name : String
  deriving DecidableEq, Repr

/-- Table 6-3. VCMP's condition and VCVT's part stand in FN. -/
def tileRows : List TileRow :=
  [⟨1, some 0, .s, "ADD"⟩, ⟨1, some 1, .s, "SUB"⟩, ⟨1, some 2, .s, "AND"⟩, ⟨1, some 3, .s, "OR"⟩, ⟨1, some 4, .s, "XOR"⟩,
   ⟨1, some 5, .s, "SHL"⟩, ⟨1, some 6, .s, "SHR"⟩, ⟨1, some 7, .s, "SRA"⟩, ⟨1, some 8, .s, "MUL"⟩,
   ⟨1, some 9, .s, "MULHU"⟩, ⟨1, some 0xa, .s, "DIVU"⟩, ⟨1, some 0xc, .s, "DIV"⟩, ⟨1, some 0xe, .s, "MIN"⟩,
   ⟨1, some 0xf, .s, "MAX"⟩, ⟨1, some 0x10, .s, "MINU"⟩, ⟨1, some 0x11, .s, "MAXU"⟩, ⟨1, some 0x12, .s, "SLT"⟩,
   ⟨1, some 0x13, .s, "SLTU"⟩, ⟨1, some 0x15, .s, "POPC"⟩, ⟨2, none, .i, "ADDI"⟩, ⟨3, none, .i, "ANDI"⟩,
   ⟨4, none, .i, "ORI"⟩, ⟨5, none, .i, "XORI"⟩, ⟨6, none, .i, "SHLI"⟩] ++
  [⟨7, none, .i, "SHRI"⟩, ⟨8, none, .i, "SRAI"⟩, ⟨9, none, .i, "SLTI"⟩, ⟨0xa, none, .u, "LUI"⟩, ⟨0xb, none, .u, "SETH"⟩,
   ⟨0xc, none, .b, "BEQ"⟩, ⟨0xd, none, .b, "BNE"⟩, ⟨0xe, none, .b, "BLT"⟩, ⟨0xf, none, .b, "BGE"⟩,
   ⟨0x10, none, .b, "BLTU"⟩, ⟨0x11, none, .b, "BGEU"⟩, ⟨0x12, none, .j, "J"⟩, ⟨0x13, none, .j, "JAL"⟩,
   ⟨0x14, some 0, .s, "JR"⟩, ⟨0x18, none, .m, "LD"⟩, ⟨0x19, none, .m, "LDS"⟩, ⟨0x1a, none, .m, "ST"⟩,
   ⟨0x1b, none, .m, "FENCE"⟩, ⟨0x1c, none, .vm, "VLD"⟩, ⟨0x1d, none, .vm, "VST"⟩, ⟨0x20, some 0, .v, "VADD"⟩,
   ⟨0x20, some 1, .v, "VSUB"⟩, ⟨0x20, some 2, .v, "VMUL"⟩, ⟨0x20, some 3, .v, "VFMA"⟩] ++
  [⟨0x20, some 4, .v, "VMIN"⟩, ⟨0x20, some 5, .v, "VMAX"⟩, ⟨0x20, some 6, .v, "VABS"⟩, ⟨0x20, some 7, .v, "VFMAW"⟩,
   ⟨0x21, some 0, .v, "VAND"⟩, ⟨0x21, some 1, .v, "VOR"⟩, ⟨0x21, some 2, .v, "VXOR"⟩, ⟨0x21, some 3, .v, "VSHL"⟩,
   ⟨0x21, some 4, .v, "VSHR"⟩, ⟨0x21, some 5, .v, "VSRA"⟩, ⟨0x21, some 6, .v, "VSEL"⟩, ⟨0x21, some 7, .v, "VMOV"⟩,
   ⟨0x22, some 0, .v, "VCMP"⟩, ⟨0x22, some 1, .v, "VCMP"⟩, ⟨0x22, some 2, .v, "VCMP"⟩, ⟨0x22, some 3, .v, "VCMP"⟩,
   ⟨0x22, some 4, .v, "VCMP"⟩, ⟨0x22, some 5, .v, "VCMP"⟩, ⟨0x22, some 6, .v, "VCMP"⟩, ⟨0x23, none, .v, "VCVT"⟩,
   ⟨0x24, some 0, .vx, "VBCAST"⟩, ⟨0x24, some 1, .vx, "VINS"⟩, ⟨0x24, some 2, .vx, "VEXT"⟩, ⟨0x24, some 3, .vx, "VRSUM"⟩] ++
  [⟨0x24, some 4, .vx, "VRMAX"⟩, ⟨0x24, some 5, .vx, "VRMIN"⟩, ⟨0x24, some 6, .vx, "VRMAXI"⟩, ⟨0x24, some 7, .vx, "VRMINI"⟩,
   ⟨0x25, some 0, .v, "PAND"⟩, ⟨0x25, some 1, .v, "POR"⟩, ⟨0x25, some 2, .v, "PXOR"⟩, ⟨0x25, some 3, .v, "PNOT"⟩,
   ⟨0x25, some 4, .v, "PALL"⟩, ⟨0x25, some 5, .v, "PNONE"⟩, ⟨0x26, some 0, .vx, "PLEN"⟩, ⟨0x26, some 1, .vx, "PCNT"⟩,
   ⟨0x28, none, .x, "MMA"⟩, ⟨0x29, none, .x, "MZERO"⟩, ⟨0x2a, none, .x, "MLD"⟩, ⟨0x2b, none, .x, "MST"⟩,
   ⟨0x30, none, .a, "AMO"⟩, ⟨0x34, some 0, .t, "SCFG"⟩, ⟨0x34, some 1, .t, "SPOP"⟩, ⟨0x34, some 2, .t, "SPOPS"⟩,
   ⟨0x34, some 3, .t, "SSKIP"⟩, ⟨0x34, some 4, .t, "SCAN"⟩, ⟨0x34, some 5, .t, "SREM"⟩, ⟨0x38, some 0, .c, "CTRLD"⟩] ++
  [⟨0x38, some 1, .c, "CTRADD"⟩, ⟨0x38, some 2, .c, "CTRWAIT"⟩, ⟨0x38, some 3, .c, "CTRSET"⟩, ⟨0x3a, some 0, .s, "SUBMIT"⟩,
   ⟨0x3c, none, .i, "LEX"⟩, ⟨0x3d, none, .i, "CSRR"⟩, ⟨0x3e, none, .i, "CSRW"⟩, ⟨0x3f, some 0, .s, "EXIT"⟩]

/-- FN of a word in a format that has one. -/
def tileFn (f : TileForm) (w : Nat) : Nat :=
  match f with
  | .v => w % 8
  | .vx => w % 32
  | .c => w / 4 % 64
  | _ => w % 256

/-- Whether a row is that of a word. -/
def TileRow.fits (r : TileRow) (w : Nat) : Bool :=
  r.maj == w / 2 ^ 26 % 64 && (match r.fn with
    | some n => n == tileFn r.form w
    | none => true)

/-- The fields of a word by its format (Table 6-2). -/
inductive TileFields where
  | s (f : FmtS) | i (f : FmtI) | u (f : FmtU) | b (f : FmtB) | j (off : BitVec 26) | m (f : FmtM) | vm (f : FmtVM)
  | v (f : FmtV) | vx (f : FmtVX) | x (f : FmtX) | a (f : FmtA) | t (f : FmtT) | c (f : FmtC)
  deriving DecidableEq, Repr

def tileFields (f : TileForm) (w : BitVec 32) : TileFields :=
  match f with
  | .s => .s { rd := w.extractLsb' 20 6, ra := w.extractLsb' 14 6, rb := w.extractLsb' 8 6 }
  | .i => .i { rd := w.extractLsb' 20 6, ra := w.extractLsb' 14 6, imm := w.extractLsb' 0 14 }
  | .u => .u { rd := w.extractLsb' 20 6, imm := w.extractLsb' 0 20 }
  | .b => .b { ra := w.extractLsb' 20 6, rb := w.extractLsb' 14 6, off := w.extractLsb' 0 14 }
  | .j => .j (w.extractLsb' 0 26)
  | .m => .m { t := w.extractLsb' 20 6, ra := w.extractLsb' 14 6, scope := w.extractLsb' 12 2, sz := w.extractLsb' 9 3,
               imm := w.extractLsb' 0 9 }
  | .vm => .vm { vd := w.extractLsb' 21 5, ra := w.extractLsb' 15 6, pg := w.extractLsb' 11 4, imm := w.extractLsb' 0 11 }
  | .v => .v { vd := w.extractLsb' 21 5, va := w.extractLsb' 16 5, vb := w.extractLsb' 11 5, pg := w.extractLsb' 7 4,
               fmt := w.extractLsb' 3 4 }
  | .vx => .vx { v := w.extractLsb' 21 5, sa := w.extractLsb' 15 6, sb := w.extractLsb' 9 6, fmt := w.extractLsb' 5 4 }
  | .x => .x { acc := w.extractLsb' 23 3, ra := w.extractLsb' 17 6, rb := w.extractLsb' 11 6, rk := w.extractLsb' 5 6,
               fmt := w.extractLsb' 1 4, s := w.getLsbD 0 }
  | .a => .a { rd := w.extractLsb' 20 6, ra := w.extractLsb' 14 6, rb := w.extractLsb' 8 6, op := w.extractLsb' 4 4,
               w := w.extractLsb' 2 2, scope := w.extractLsb' 0 2 }
  | .t => .t { reg := w.extractLsb' 20 6, strm := w.extractLsb' 17 3, reserved := w.extractLsb' 8 9 }
  | .c => .c { rd := w.extractLsb' 20 6, ra := w.extractLsb' 14 6, rb := w.extractLsb' 8 6, scope := w.extractLsb' 0 2 }

/-- The instruction that a word of a tile program encodes: its row and fields; none for a reserved MAJ, or a reserved pair of MAJ
and FN (R146, R147). -/
def decodeTile (w : BitVec 32) : Option (TileRow × TileFields) :=
  (tileRows.find? (fun r => r.fits w.toNat)).map (fun r => (r, tileFields r.form w))

end Sys2Proof
end

