-- ==== Sys2Proof/Config.lean ====
section
/-! DEFINITION. What an implementation or the outside world fixes: free values that no proof can see, and the
cryptographic functions that the spec names and defines elsewhere. -/

namespace Sys2Proof

/-- A fresh free value, indexed by the plain counter State.fresh (log entry 9): the spec leaves the value open. -/
opaque Config.freeNat : Nat → Nat

/-- The 16-bit random number of stochastic rounding outside a tile context (R194, log entry 9). -/
opaque Config.freeRandom : Nat → Nat

/-- The fixed hash of SRC_CHIP, DEST chip and DEST unit that picks the plane of an escape frame (R304). -/
opaque Config.escapeHash : Nat → Nat → Nat → Nat

/-- The unit of the quantum that a traffic class's weight multiplies, less one, in bytes (R302, log entry 136). -/
opaque Config.drrUnit : Nat

/-- The key the DRBG draws at the n-th partition creation (R389). -/
opaque Config.partitionKey : Nat → Nat

/-- SHA-384 of a byte string (R394, R398). -/
opaque Config.sha384 : List Byte → Nat

/-- The attestation public key that a chip derives from its fused secret, by serial number (R394). -/
opaque Config.attestPub : Nat → Nat

/-- The binding public key, by serial number (R394). -/
opaque Config.bindPub : Nat → Nat

/-- SHA-384 of the boot code, which the part fixes (Table 16-8). -/
opaque Config.romDigest : Nat

/-- ECDSA P-384 under the attestation key of the chip with the serial number (R398). -/
opaque Config.ecdsaSign : Nat → List Byte → Nat

/-- The Fulily image root key, which the on-die boot ROM holds (R404). -/
opaque Config.rootKey : Nat

/-- Whether an ECDSA P-384 signature verifies: public key, message, signature (R406, R415). -/
opaque Config.ecdsaVerify : Nat → List Byte → Nat → Bool

/-- The x coordinate of ECDH P-384 between a chip's binding key, by serial number, and a public key (R395). -/
opaque Config.ecdh : Nat → List Byte → List Byte

/-- HKDF-SHA-384: input key, salt, info, length (R389, R395). -/
opaque Config.hkdf : List Byte → List Byte → List Byte → Nat → List Byte

/-- AES-256-GCM decryption: key, IV, associated data, ciphertext, tag; none when the tag fails (R395). -/
opaque Config.gcmOpen : List Byte → List Byte → List Byte → List Byte → List Byte → Option (List Byte)

/-- AES-256-XTS encryption and decryption of one data unit: data key, tweak key, tweak, data (R390). -/
opaque Config.xtsSeal : List Byte → List Byte → List Byte → List Byte → List Byte
opaque Config.xtsOpen : List Byte → List Byte → List Byte → List Byte → List Byte

/-- AES-256-GMAC: key, IV, authenticated data (R391). -/
opaque Config.gmac : List Byte → List Byte → List Byte → List Byte

/-- The analog error of output element i of a photonic vector, in units of 2^-32 of full scale, signed (R273, R274). -/
opaque Config.ptuError : Nat → Nat → Int

/-- What the configuration space of the device on an edge port answers: port, function, register dword (R358). -/
opaque Config.deviceConfig : Nat → Nat → Nat → Nat

/-- The 64-bit word of the freeze image at an offset whose layout the spec leaves open (R438, sections CORE_STATE,
TILE_CTX and ANALOG): freeze number, offset. -/
opaque Config.freezeWord : Nat → Nat → Nat

/-- The registered chips that a directory record lists when it passes to this chip (R252): the spec gives its content no
carrier (log entry 28). -/
opaque Config.passedChips : Nat → List Nat

/-- Those of them that it lists as replica chips (R252, log entry 28). -/
opaque Config.passedReplicas : Nat → List Nat

/-- The failure-domain tags that the Stems of other chips give them: chip, level 0 tray, 1 rack, 2 row (R258, log entry
32). -/
opaque Config.chipTag : Nat → Nat → Nat

end Sys2Proof
end

