-- ==== Sys2Proof/Machine/RegMap.lean ====
section
/-! DEFINITION. The management register map of chapter 20 and of the register tables of the other chapters: every
register with its fields, access types, reset values and ranges (R463 to R466), and one name for each field.
Queue pages (Tables 7-4 to 7-7) stand here too, at addresses above the register space that only the model uses. -/

namespace Sys2Proof.Machine

/-- Table 20-2, the access types. -/
inductive Access where
  | RO | RW | RWL | W1C | WO | RWS | HWU
  deriving DecidableEq, Repr

/-- One field of a register: its bits, access type, reset value (by instance) and range. -/
structure FieldDesc where
  name : String
  hi : Nat
  lo : Nat
  acc : Access
  reset : Nat → Nat
  min : Nat
  max : Nat

/-- One register: the address of instance (i, j) is base + i * s1 + j * s2, for i below n1 and j below n2. -/
structure RegDesc where
  name : String
  base : Nat
  n1 : Nat
  s1 : Nat
  n2 : Nat
  s2 : Nat
  fields : List FieldDesc

/-- One field of one register instance as the state stores it: its key (address * 64 + lowest bit), width and
reset value. -/
structure Fld where
  key : Nat
  width : Nat
  reset : Nat
  deriving DecidableEq, Repr

namespace R

/-- EDGE_PASID.VALID, bits [31:31], RW (Table 2-5, R32). -/
def EDGE_PASID_VALID (i : Nat) (j : Nat) : Fld := ⟨(4751360 + i * 65536 + j * 8) * 64 + 31, 1, 0⟩

/-- EDGE_PASID.PARTITION, bits [27:16], RW (Table 2-5, R32). -/
def EDGE_PASID_PARTITION (i : Nat) (j : Nat) : Fld := ⟨(4751360 + i * 65536 + j * 8) * 64 + 16, 12, 0⟩

/-- EDGE_PASID.VIEW_EN, bits [10:8], RW (Table 2-5, R32). -/
def EDGE_PASID_VIEW_EN (i : Nat) (j : Nat) : Fld := ⟨(4751360 + i * 65536 + j * 8) * 64 + 8, 3, 0⟩

/-- EDGE_PASID.ATOMIC, bits [2:2], RW (Table 2-5, R32). -/
def EDGE_PASID_ATOMIC (i : Nat) (j : Nat) : Fld := ⟨(4751360 + i * 65536 + j * 8) * 64 + 2, 1, 0⟩

/-- EDGE_PASID.WRITE, bits [1:1], RW (Table 2-5, R32). -/
def EDGE_PASID_WRITE (i : Nat) (j : Nat) : Fld := ⟨(4751360 + i * 65536 + j * 8) * 64 + 1, 1, 0⟩

/-- EDGE_PASID.READ, bits [0:0], RW (Table 2-5, R32). -/
def EDGE_PASID_READ (i : Nat) (j : Nat) : Fld := ⟨(4751360 + i * 65536 + j * 8) * 64 + 0, 1, 0⟩

/-- XLAT_APERTURE.BASE, bits [63:54], RWL (Table 2-8, R26). -/
def XLAT_APERTURE_BASE : Fld := ⟨(786432) * 64 + 54, 10, 0⟩

/-- XLAT_PM_STAT.USED, bits [22:0], HWU (Table 2-9, R52). -/
def XLAT_PM_STAT_USED : Fld := ⟨(786440) * 64 + 0, 23, 0⟩

/-- XLAT_PM_FULL.LAST_SET, bits [49:32], HWU (Table 2-10, R52). -/
def XLAT_PM_FULL_LAST_SET : Fld := ⟨(786448) * 64 + 32, 18, 0⟩

/-- XLAT_PM_FULL.COUNT, bits [31:0], W1C (Table 2-10, R52). -/
def XLAT_PM_FULL_COUNT : Fld := ⟨(786448) * 64 + 0, 32, 0⟩

/-- XLAT_PM_PROBE.PARTITION, bits [42:31], WO (Table 2-11, R52). -/
def XLAT_PM_PROBE_PARTITION : Fld := ⟨(786456) * 64 + 31, 12, 0⟩

/-- XLAT_PM_PROBE.FVA_PAGE, bits [30:0], WO (Table 2-11, R52). -/
def XLAT_PM_PROBE_FVA_PAGE : Fld := ⟨(786456) * 64 + 0, 31, 0⟩

/-- XLAT_PM_PROBE_RES.HIT, bits [39:39], RO (Table 2-12, R52). -/
def XLAT_PM_PROBE_RES_HIT : Fld := ⟨(786464) * 64 + 39, 1, 0⟩

/-- XLAT_PM_PROBE_RES.WAY, bits [38:35], RO (Table 2-12, R52). -/
def XLAT_PM_PROBE_RES_WAY : Fld := ⟨(786464) * 64 + 35, 4, 0⟩

/-- XLAT_PM_PROBE_RES.USED, bits [34:30], RO (Table 2-12, R52). -/
def XLAT_PM_PROBE_RES_USED : Fld := ⟨(786464) * 64 + 30, 5, 0⟩

/-- XLAT_PM_PROBE_RES.SET, bits [17:0], RO (Table 2-12, R52). -/
def XLAT_PM_PROBE_RES_SET : Fld := ⟨(786464) * 64 + 0, 18, 0⟩

/-- XLAT_WIN_STAT.USED, bits [16:0], HWU (Table 2-13, R52). -/
def XLAT_WIN_STAT_USED : Fld := ⟨(786472) * 64 + 0, 17, 0⟩

/-- XLAT_FB_CTL.PARK_TIMEOUT, bits [41:32], RWL (Table 3-10, R83). -/
def XLAT_FB_CTL_PARK_TIMEOUT : Fld := ⟨(786480) * 64 + 32, 10, 100⟩

/-- XLAT_FB_CTL.LINK, bits [29:28], RW (Table 3-10, R83). -/
def XLAT_FB_CTL_LINK : Fld := ⟨(786480) * 64 + 28, 2, 0⟩

/-- XLAT_FB_CTL.BATCH_TIMEOUT, bits [25:16], RWL (Table 3-10, R83). -/
def XLAT_FB_CTL_BATCH_TIMEOUT : Fld := ⟨(786480) * 64 + 16, 10, 20⟩

/-- XLAT_FB_CTL.BATCH_MAX, bits [8:0], RWL (Table 3-10, R83). -/
def XLAT_FB_CTL_BATCH_MAX : Fld := ⟨(786480) * 64 + 0, 9, 256⟩

/-- XLAT_FB_STAT.RECORDS, bits [46:32], HWU (Table 3-11, R83). -/
def XLAT_FB_STAT_RECORDS : Fld := ⟨(786488) * 64 + 32, 15, 0⟩

/-- XLAT_FB_STAT.OPEN, bits [24:16], HWU (Table 3-11, R83). -/
def XLAT_FB_STAT_OPEN : Fld := ⟨(786488) * 64 + 16, 9, 0⟩

/-- XLAT_FB_STAT.PARKED, bits [13:0], HWU (Table 3-11, R83). -/
def XLAT_FB_STAT_PARKED : Fld := ⟨(786488) * 64 + 0, 14, 0⟩

/-- XLAT_FB_COUNT.BATCHES, bits [63:32], W1C (Table 3-12, R83). -/
def XLAT_FB_COUNT_BATCHES : Fld := ⟨(786496) * 64 + 32, 32, 0⟩

/-- XLAT_FB_COUNT.TIMEOUTS, bits [31:0], W1C (Table 3-12, R83). -/
def XLAT_FB_COUNT_TIMEOUTS : Fld := ⟨(786496) * 64 + 0, 32, 0⟩

/-- XLAT_DMISS_INFO.COUNT, bits [63:32], W1C (Table 3-13, R83). -/
def XLAT_DMISS_INFO_COUNT : Fld := ⟨(786504) * 64 + 32, 32, 0⟩

/-- XLAT_DMISS_INFO.PARTITION, bits [19:8], HWU (Table 3-13, R83). -/
def XLAT_DMISS_INFO_PARTITION : Fld := ⟨(786504) * 64 + 8, 12, 0⟩

/-- XLAT_DMISS_INFO.PORT, bits [4:0], HWU (Table 3-13, R83). -/
def XLAT_DMISS_INFO_PORT : Fld := ⟨(786504) * 64 + 0, 5, 0⟩

/-- XLAT_DMISS_FVA.FVA, bits [51:0], HWU (Table 3-14, R83). -/
def XLAT_DMISS_FVA_FVA : Fld := ⟨(786512) * 64 + 0, 52, 0⟩

/-- XLAT_WD_STAT.PENDING, bits [42:32], HWU (Table 3-15, R83). -/
def XLAT_WD_STAT_PENDING : Fld := ⟨(786520) * 64 + 32, 11, 0⟩

/-- XLAT_WD_STAT.REFUSED, bits [31:0], W1C (Table 3-15, R83). -/
def XLAT_WD_STAT_REFUSED : Fld := ⟨(786520) * 64 + 0, 32, 0⟩

/-- XLAT_TENSE.PENDING_WD, bits [26:16], HWU (Table 3-16, R83). -/
def XLAT_TENSE_PENDING_WD (i : Nat) : Fld := ⟨(790528 + i * 8) * 64 + 16, 11, 0⟩

/-- XLAT_TENSE.OLDEST_AGE, bits [14:8], HWU (Table 3-16, R83). -/
def XLAT_TENSE_OLDEST_AGE (i : Nat) : Fld := ⟨(790528 + i * 8) * 64 + 8, 7, 0⟩

/-- XLAT_TENSE.TENSE, bits [7:0], HWU (Table 3-16, R83). -/
def XLAT_TENSE_TENSE (i : Nat) : Fld := ⟨(790528 + i * 8) * 64 + 0, 8, 0⟩

/-- TILE_INFO.FUSED, bits [16:16], RO (Table 5-9, R139). -/
def TILE_INFO_FUSED (i : Nat) : Fld := ⟨(1048576 + i * 65536) * 64 + 16, 1, 0⟩

/-- TILE_INFO.LOGICAL, bits [15:8], RO (Table 5-9, R139). -/
def TILE_INFO_LOGICAL (i : Nat) : Fld := ⟨(1048576 + i * 65536) * 64 + 8, 8, 0⟩

/-- TILE_INFO.PHYSICAL, bits [5:0], RO (Table 5-9, R139). -/
def TILE_INFO_PHYSICAL (i : Nat) : Fld := ⟨(1048576 + i * 65536) * 64 + 0, 6, (i)⟩

/-- TILE_CTL.ENABLE, bits [0:0], RW (Table 5-10, R139). -/
def TILE_CTL_ENABLE (i : Nat) : Fld := ⟨(1048584 + i * 65536) * 64 + 0, 1, 1⟩

/-- TILE_STAT.CONTEXTS, bits [34:32], HWU (Table 5-11, R139). -/
def TILE_STAT_CONTEXTS (i : Nat) : Fld := ⟨(1048592 + i * 65536) * 64 + 32, 3, 0⟩

/-- TILE_STAT.STREAMS, bits [25:16], HWU (Table 5-11, R139). -/
def TILE_STAT_STREAMS (i : Nat) : Fld := ⟨(1048592 + i * 65536) * 64 + 16, 10, 0⟩

/-- TILE_STAT.REFUSED, bits [3:3], W1C (Table 5-11, R139). -/
def TILE_STAT_REFUSED (i : Nat) : Fld := ⟨(1048592 + i * 65536) * 64 + 3, 1, 0⟩

/-- TILE_STAT.STATE, bits [2:0], HWU (Table 5-11, R139). -/
def TILE_STAT_STATE (i : Nat) : Fld := ⟨(1048592 + i * 65536) * 64 + 0, 3, 0⟩

/-- TILE_ECC.STORE_UE, bits [63:48], W1C (Table 5-12, R139). -/
def TILE_ECC_STORE_UE (i : Nat) : Fld := ⟨(1048600 + i * 65536) * 64 + 48, 16, 0⟩

/-- TILE_ECC.STORE_CE, bits [47:32], W1C (Table 5-12, R139). -/
def TILE_ECC_STORE_CE (i : Nat) : Fld := ⟨(1048600 + i * 65536) * 64 + 32, 16, 0⟩

/-- TILE_ECC.L1_UE, bits [31:16], W1C (Table 5-12, R139). -/
def TILE_ECC_L1_UE (i : Nat) : Fld := ⟨(1048600 + i * 65536) * 64 + 16, 16, 0⟩

/-- TILE_ECC.L1_CE, bits [15:0], W1C (Table 5-12, R139). -/
def TILE_ECC_L1_CE (i : Nat) : Fld := ⟨(1048600 + i * 65536) * 64 + 0, 16, 0⟩

/-- TILE_EXC.COUNT, bits [63:32], W1C (Table 6-8, R164). -/
def TILE_EXC_COUNT (i : Nat) : Fld := ⟨(1048608 + i * 65536) * 64 + 32, 32, 0⟩

/-- TILE_EXC.LAST_PART, bits [31:20], HWU (Table 6-8, R164). -/
def TILE_EXC_LAST_PART (i : Nat) : Fld := ⟨(1048608 + i * 65536) * 64 + 20, 12, 0⟩

/-- TILE_EXC.LAST_CTX, bits [17:16], HWU (Table 6-8, R164). -/
def TILE_EXC_LAST_CTX (i : Nat) : Fld := ⟨(1048608 + i * 65536) * 64 + 16, 2, 0⟩

/-- TILE_EXC.LAST_CODE, bits [7:0], HWU (Table 6-8, R164). -/
def TILE_EXC_LAST_CODE (i : Nat) : Fld := ⟨(1048608 + i * 65536) * 64 + 0, 8, 0⟩

/-- XLAT_CONTROL.BASE, bits [63:28], RWL (Table 7-3, R168). -/
def XLAT_CONTROL_BASE : Fld := ⟨(786528) * 64 + 28, 36, 0⟩

/-- QPAGE_SQ.HEAD, bits [63:32], HWU (Table 7-4, R169). -/
def QPAGE_SQ_HEAD (i : Nat) : Fld := ⟨(4294967296 + i * 4096) * 64 + 32, 32, 0⟩

/-- QPAGE_SQ.TAIL, bits [31:0], RW (Table 7-4, R169). -/
def QPAGE_SQ_TAIL (i : Nat) : Fld := ⟨(4294967296 + i * 4096) * 64 + 0, 32, 0⟩

/-- QPAGE_CQ.TAIL, bits [63:32], HWU (Table 7-5, R169). -/
def QPAGE_CQ_TAIL (i : Nat) : Fld := ⟨(4294967304 + i * 4096) * 64 + 32, 32, 0⟩

/-- QPAGE_CQ.HEAD, bits [31:0], RW (Table 7-5, R169). -/
def QPAGE_CQ_HEAD (i : Nat) : Fld := ⟨(4294967304 + i * 4096) * 64 + 0, 32, 0⟩

/-- QPAGE_STATUS.LOST, bits [47:32], HWU (Table 7-6, R169). -/
def QPAGE_STATUS_LOST (i : Nat) : Fld := ⟨(4294967312 + i * 4096) * 64 + 32, 16, 0⟩

/-- QPAGE_STATUS.PARTITION, bits [31:20], HWU (Table 7-6, R169). -/
def QPAGE_STATUS_PARTITION (i : Nat) : Fld := ⟨(4294967312 + i * 4096) * 64 + 20, 12, 0⟩

/-- QPAGE_STATUS.FEED, bits [16:16], HWU (Table 7-6, R169). -/
def QPAGE_STATUS_FEED (i : Nat) : Fld := ⟨(4294967312 + i * 4096) * 64 + 16, 1, 0⟩

/-- QPAGE_STATUS.ERR, bits [15:8], HWU (Table 7-6, R169). -/
def QPAGE_STATUS_ERR (i : Nat) : Fld := ⟨(4294967312 + i * 4096) * 64 + 8, 8, 0⟩

/-- QPAGE_STATUS.STATE, bits [1:0], HWU (Table 7-6, R169). -/
def QPAGE_STATUS_STATE (i : Nat) : Fld := ⟨(4294967312 + i * 4096) * 64 + 0, 2, 0⟩

/-- QPAGE_FAULT_FVA.FVA, bits [51:0], HWU (Table 7-7, R169). -/
def QPAGE_FAULT_FVA_FVA (i : Nat) : Fld := ⟨(4294967320 + i * 4096) * 64 + 0, 52, 0⟩

/-- CONJ_CTL.ROT_PTU, bits [35:32], RWL (Table 9-8, R241). -/
def CONJ_CTL_ROT_PTU : Fld := ⟨(917504) * 64 + 32, 4, 0⟩

/-- CONJ_CTL.STALL_US, bits [19:0], RWL (Table 9-8, R241). -/
def CONJ_CTL_STALL_US : Fld := ⟨(917504) * 64 + 0, 20, 5000⟩

/-- CONJ_STAT.INSTANCES, bits [46:32], HWU (Table 9-9, R241). -/
def CONJ_STAT_INSTANCES : Fld := ⟨(917512) * 64 + 32, 15, 0⟩

/-- CONJ_STAT.SPILL_FRAMES, bits [29:16], HWU (Table 9-9, R241). -/
def CONJ_STAT_SPILL_FRAMES : Fld := ⟨(917512) * 64 + 16, 14, 0⟩

/-- CONJ_STAT.FREE, bits [13:0], HWU (Table 9-9, R241). -/
def CONJ_STAT_FREE : Fld := ⟨(917512) * 64 + 0, 14, 12288⟩

/-- CONJ_COUNT.ABORTS, bits [63:32], W1C (Table 9-10, R241). -/
def CONJ_COUNT_ABORTS : Fld := ⟨(917520) * 64 + 32, 32, 0⟩

/-- CONJ_COUNT.CHECK_FAILS, bits [31:0], W1C (Table 9-10, R241). -/
def CONJ_COUNT_CHECK_FAILS : Fld := ⟨(917520) * 64 + 0, 32, 0⟩

/-- CONJ_GROUP_SEL.GROUP, bits [13:0], WO (Table 9-11, R241). -/
def CONJ_GROUP_SEL_GROUP : Fld := ⟨(917528) * 64 + 0, 14, 0⟩

/-- CONJ_GROUP_RES.INSTANCE, bits [63:48], RO (Table 9-12, R241). -/
def CONJ_GROUP_RES_INSTANCE : Fld := ⟨(917536) * 64 + 48, 16, 0⟩

/-- CONJ_GROUP_RES.CAUSE, bits [47:40], RO (Table 9-12, R241). -/
def CONJ_GROUP_RES_CAUSE : Fld := ⟨(917536) * 64 + 40, 8, 0⟩

/-- CONJ_GROUP_RES.GENERATION, bits [39:36], RO (Table 9-12, R241). -/
def CONJ_GROUP_RES_GENERATION : Fld := ⟨(917536) * 64 + 36, 4, 0⟩

/-- CONJ_GROUP_RES.STATE, bits [33:32], RO (Table 9-12, R241). -/
def CONJ_GROUP_RES_STATE : Fld := ⟨(917536) * 64 + 32, 2, 0⟩

/-- CONJ_GROUP_RES.PARTITION, bits [27:16], RO (Table 9-12, R241). -/
def CONJ_GROUP_RES_PARTITION : Fld := ⟨(917536) * 64 + 16, 12, 0⟩

/-- CONJ_GROUP_RES.SLOTS, bits [12:0], RO (Table 9-12, R241). -/
def CONJ_GROUP_RES_SLOTS : Fld := ⟨(917536) * 64 + 0, 13, 0⟩

/-- CONJ_PART.SPILL_USED, bits [61:48], HWU (Table 9-13, R241). -/
def CONJ_PART_SPILL_USED (i : Nat) : Fld := ⟨(950272 + i * 8) * 64 + 48, 14, 0⟩

/-- CONJ_PART.SPILL_QUOTA, bits [45:32], HWU (Table 9-13, R241). -/
def CONJ_PART_SPILL_QUOTA (i : Nat) : Fld := ⟨(950272 + i * 8) * 64 + 32, 14, 0⟩

/-- CONJ_PART.USED, bits [29:16], HWU (Table 9-13, R241). -/
def CONJ_PART_USED (i : Nat) : Fld := ⟨(950272 + i * 8) * 64 + 16, 14, 0⟩

/-- CONJ_PART.QUOTA, bits [13:0], HWU (Table 9-13, R241). -/
def CONJ_PART_QUOTA (i : Nat) : Fld := ⟨(950272 + i * 8) * 64 + 0, 14, 0⟩

/-- PARSER_CTL.RESIDENCY, bits [39:36], RWL (Table 10-7, R263). -/
def PARSER_CTL_RESIDENCY : Fld := ⟨(851968) * 64 + 36, 4, 4⟩

/-- PARSER_CTL.WARMUP, bits [35:32], RWL (Table 10-7, R263). -/
def PARSER_CTL_WARMUP : Fld := ⟨(851968) * 64 + 32, 4, 3⟩

/-- PARSER_CTL.FD_LEVEL, bits [29:28], RWL (Table 10-7, R263). -/
def PARSER_CTL_FD_LEVEL : Fld := ⟨(851968) * 64 + 28, 2, 0⟩

/-- PARSER_CTL.MOVES_MAX, bits [27:20], RW (Table 10-7, R263). -/
def PARSER_CTL_MOVES_MAX : Fld := ⟨(851968) * 64 + 20, 8, 64⟩

/-- PARSER_CTL.EPOCH_MS, bits [13:4], RWL (Table 10-7, R263). -/
def PARSER_CTL_EPOCH_MS : Fld := ⟨(851968) * 64 + 4, 10, 10⟩

/-- PARSER_CTL.REMOTE_EXEC_EN, bits [3:3], RW (Table 10-7, R263). -/
def PARSER_CTL_REMOTE_EXEC_EN : Fld := ⟨(851968) * 64 + 3, 1, 1⟩

/-- PARSER_CTL.REHOME_EN, bits [2:2], RW (Table 10-7, R263). -/
def PARSER_CTL_REHOME_EN : Fld := ⟨(851968) * 64 + 2, 1, 1⟩

/-- PARSER_CTL.REPLICATE_EN, bits [1:1], RW (Table 10-7, R263). -/
def PARSER_CTL_REPLICATE_EN : Fld := ⟨(851968) * 64 + 1, 1, 1⟩

/-- PARSER_CTL.MIGRATE_EN, bits [0:0], RW (Table 10-7, R263). -/
def PARSER_CTL_MIGRATE_EN : Fld := ⟨(851968) * 64 + 0, 1, 1⟩

/-- PARSER_THRESH.REHOME, bits [63:48], RW (Table 10-8, R263). -/
def PARSER_THRESH_REHOME : Fld := ⟨(851976) * 64 + 48, 16, 8192⟩

/-- PARSER_THRESH.REPLICATE, bits [47:32], RW (Table 10-8, R263). -/
def PARSER_THRESH_REPLICATE : Fld := ⟨(851976) * 64 + 32, 16, 2048⟩

/-- PARSER_THRESH.DEMOTE, bits [31:16], RW (Table 10-8, R263). -/
def PARSER_THRESH_DEMOTE : Fld := ⟨(851976) * 64 + 16, 16, 512⟩

/-- PARSER_THRESH.PROMOTE, bits [15:0], RW (Table 10-8, R263). -/
def PARSER_THRESH_PROMOTE : Fld := ⟨(851976) * 64 + 0, 16, 4096⟩

/-- PARSER_LIMITS.PLANE_HI, bits [39:32], RW (Table 10-9, R263). -/
def PARSER_LIMITS_PLANE_HI : Fld := ⟨(851984) * 64 + 32, 8, 85⟩

/-- PARSER_LIMITS.PLANE_LO, bits [31:24], RW (Table 10-9, R263). -/
def PARSER_LIMITS_PLANE_LO : Fld := ⟨(851984) * 64 + 24, 8, 50⟩

/-- PARSER_LIMITS.REMOTE_MIN, bits [23:16], RW (Table 10-9, R263). -/
def PARSER_LIMITS_REMOTE_MIN : Fld := ⟨(851984) * 64 + 16, 8, 4⟩

/-- PARSER_LIMITS.NEAR_RESERVE, bits [15:0], RW (Table 10-9, R263). -/
def PARSER_LIMITS_NEAR_RESERVE : Fld := ⟨(851984) * 64 + 0, 16, 1024⟩

/-- PARSER_STAT.EPOCH, bits [63:32], HWU (Table 10-10, R263). -/
def PARSER_STAT_EPOCH : Fld := ⟨(851992) * 64 + 32, 32, 0⟩

/-- PARSER_STAT.MIGRATING, bits [27:24], HWU (Table 10-10, R263). -/
def PARSER_STAT_MIGRATING : Fld := ⟨(851992) * 64 + 24, 4, 0⟩

/-- PARSER_STAT.SUPPRESSED, bits [16:16], HWU (Table 10-10, R263). -/
def PARSER_STAT_SUPPRESSED : Fld := ⟨(851992) * 64 + 16, 1, 0⟩

/-- PARSER_STAT.DIR_USED, bits [15:0], HWU (Table 10-10, R263). -/
def PARSER_STAT_DIR_USED : Fld := ⟨(851992) * 64 + 0, 16, 0⟩

/-- PARSER_REPL.HELD, bits [46:32], HWU (Table 10-11, R263). -/
def PARSER_REPL_HELD : Fld := ⟨(852000) * 64 + 32, 15, 0⟩

/-- PARSER_REPL.INVALS, bits [31:0], W1C (Table 10-11, R263). -/
def PARSER_REPL_INVALS : Fld := ⟨(852000) * 64 + 0, 32, 0⟩

/-- PARSER_COUNT.MIGRATIONS, bits [63:32], W1C (Table 10-12, R263). -/
def PARSER_COUNT_MIGRATIONS : Fld := ⟨(852008) * 64 + 32, 32, 0⟩

/-- PARSER_COUNT.ABANDONED, bits [31:0], W1C (Table 10-12, R263). -/
def PARSER_COUNT_ABANDONED : Fld := ⟨(852008) * 64 + 0, 32, 0⟩

/-- PARSER_PROBE.PARTITION, bits [42:31], WO (Table 10-13, R263). -/
def PARSER_PROBE_PARTITION : Fld := ⟨(852016) * 64 + 31, 12, 0⟩

/-- PARSER_PROBE.FVA_PAGE, bits [30:0], WO (Table 10-13, R263). -/
def PARSER_PROBE_FVA_PAGE : Fld := ⟨(852016) * 64 + 0, 31, 0⟩

/-- PARSER_PROBE_RES.HEAT, bits [63:48], RO (Table 10-14, R263). -/
def PARSER_PROBE_RES_HEAT : Fld := ⟨(852024) * 64 + 48, 16, 0⟩

/-- PARSER_PROBE_RES.WHEAT, bits [47:32], RO (Table 10-14, R263). -/
def PARSER_PROBE_RES_WHEAT : Fld := ⟨(852024) * 64 + 32, 16, 0⟩

/-- PARSER_PROBE_RES.TOP_CHIP, bits [31:17], RO (Table 10-14, R263). -/
def PARSER_PROBE_RES_TOP_CHIP : Fld := ⟨(852024) * 64 + 17, 15, 0⟩

/-- PARSER_PROBE_RES.HOLD_EPOCHS, bits [16:13], RO (Table 10-14, R263). -/
def PARSER_PROBE_RES_HOLD_EPOCHS : Fld := ⟨(852024) * 64 + 13, 4, 0⟩

/-- PARSER_PROBE_RES.REPLICAS, bits [12:11], RO (Table 10-14, R263). -/
def PARSER_PROBE_RES_REPLICAS : Fld := ⟨(852024) * 64 + 11, 2, 0⟩

/-- PARSER_PROBE_RES.MIGRATING, bits [10:10], RO (Table 10-14, R263). -/
def PARSER_PROBE_RES_MIGRATING : Fld := ⟨(852024) * 64 + 10, 1, 0⟩

/-- PARSER_PROBE_RES.HOME, bits [9:9], RO (Table 10-14, R263). -/
def PARSER_PROBE_RES_HOME : Fld := ⟨(852024) * 64 + 9, 1, 0⟩

/-- PARSER_PROBE_RES.HIT, bits [8:8], RO (Table 10-14, R263). -/
def PARSER_PROBE_RES_HIT : Fld := ⟨(852024) * 64 + 8, 1, 0⟩

/-- PARSER_PLANES.EXCLUDE, bits [63:32], RW (Table 10-15, R263). -/
def PARSER_PLANES_EXCLUDE : Fld := ⟨(852032) * 64 + 32, 32, 0⟩

/-- PARSER_PLANES.BULK, bits [31:0], HWU (Table 10-15, R263). -/
def PARSER_PLANES_BULK : Fld := ⟨(852032) * 64 + 0, 32, 0⟩

/-- PARSER_PART.NEAR_USED, bits [48:32], HWU (Table 10-15, R263). -/
def PARSER_PART_NEAR_USED (i : Nat) : Fld := ⟨(884736 + i * 8) * 64 + 32, 17, 0⟩

/-- PARSER_PART.NO_REMOTE_EXEC, bits [2:2], RW (Table 10-15, R263). -/
def PARSER_PART_NO_REMOTE_EXEC (i : Nat) : Fld := ⟨(884736 + i * 8) * 64 + 2, 1, 0⟩

/-- PARSER_PART.NO_REPLICATE, bits [1:1], RW (Table 10-15, R263). -/
def PARSER_PART_NO_REPLICATE (i : Nat) : Fld := ⟨(884736 + i * 8) * 64 + 1, 1, 0⟩

/-- PARSER_PART.NO_MIGRATE, bits [0:0], RW (Table 10-15, R263). -/
def PARSER_PART_NO_MIGRATE (i : Nat) : Fld := ⟨(884736 + i * 8) * 64 + 0, 1, 0⟩

/-- PTU_CTL.CAL_MS, bits [25:16], RWL (Table 11-5, R283). -/
def PTU_CTL_CAL_MS (i : Nat) : Fld := ⟨(4325376 + i * 65536) * 64 + 16, 10, 100⟩

/-- PTU_CTL.ENABLE, bits [0:0], RW (Table 11-5, R283). -/
def PTU_CTL_ENABLE (i : Nat) : Fld := ⟨(4325376 + i * 65536) * 64 + 0, 1, 1⟩

/-- PTU_STAT.WAITING, bits [31:16], HWU (Table 11-6, R283). -/
def PTU_STAT_WAITING (i : Nat) : Fld := ⟨(4325384 + i * 65536) * 64 + 16, 16, 0⟩

/-- PTU_STAT.CARRIER, bits [7:7], HWU (Table 11-6, R283). -/
def PTU_STAT_CARRIER (i : Nat) : Fld := ⟨(4325384 + i * 65536) * 64 + 7, 1, 0⟩

/-- PTU_STAT.LOADED, bits [6:6], HWU (Table 11-6, R283). -/
def PTU_STAT_LOADED (i : Nat) : Fld := ⟨(4325384 + i * 65536) * 64 + 6, 1, 0⟩

/-- PTU_STAT.MODE, bits [5:5], HWU (Table 11-6, R283). -/
def PTU_STAT_MODE (i : Nat) : Fld := ⟨(4325384 + i * 65536) * 64 + 5, 1, 0⟩

/-- PTU_STAT.ROTATION, bits [4:4], HWU (Table 11-6, R283). -/
def PTU_STAT_ROTATION (i : Nat) : Fld := ⟨(4325384 + i * 65536) * 64 + 4, 1, 0⟩

/-- PTU_STAT.REFUSED, bits [3:3], W1C (Table 11-6, R283). -/
def PTU_STAT_REFUSED (i : Nat) : Fld := ⟨(4325384 + i * 65536) * 64 + 3, 1, 0⟩

/-- PTU_STAT.STATE, bits [2:0], HWU (Table 11-6, R283). -/
def PTU_STAT_STATE (i : Nat) : Fld := ⟨(4325384 + i * 65536) * 64 + 0, 3, 0⟩

/-- PTU_COUNT.PILOT_FAILS, bits [63:32], W1C (Table 11-7, R283). -/
def PTU_COUNT_PILOT_FAILS (i : Nat) : Fld := ⟨(4325392 + i * 65536) * 64 + 32, 32, 0⟩

/-- PTU_COUNT.RECALS, bits [31:0], W1C (Table 11-7, R283). -/
def PTU_COUNT_RECALS (i : Nat) : Fld := ⟨(4325392 + i * 65536) * 64 + 0, 32, 0⟩

/-- PTU_VECTORS.VECTORS, bits [63:0], HWU (Table 11-8, R283). -/
def PTU_VECTORS_VECTORS (i : Nat) : Fld := ⟨(4325400 + i * 65536) * 64 + 0, 64, 0⟩

/-- SWC_CTL.NONMIN_CELLS, bits [63:48], RWL (Table 12-7, R308). -/
def SWC_CTL_NONMIN_CELLS : Fld := ⟨(983040) * 64 + 48, 16, 2048⟩

/-- SWC_CTL.RETRY_MAX, bits [47:40], RWL (Table 12-7, R308). -/
def SWC_CTL_RETRY_MAX : Fld := ⟨(983040) * 64 + 40, 8, 8⟩

/-- SWC_CTL.RETRY_NS, bits [39:24], RWL (Table 12-7, R308). -/
def SWC_CTL_RETRY_NS : Fld := ⟨(983040) * 64 + 24, 16, 4000⟩

/-- SWC_CTL.ESC_WAIT, bits [23:8], RWL (Table 12-7, R308). -/
def SWC_CTL_ESC_WAIT : Fld := ⟨(983040) * 64 + 8, 16, 256⟩

/-- SWC_CTL.NONMIN_EN, bits [1:1], RW (Table 12-7, R308). -/
def SWC_CTL_NONMIN_EN : Fld := ⟨(983040) * 64 + 1, 1, 1⟩

/-- SWC_CTL.ADAPTIVE_EN, bits [0:0], RW (Table 12-7, R308). -/
def SWC_CTL_ADAPTIVE_EN : Fld := ⟨(983040) * 64 + 0, 1, 1⟩

/-- SWC_TC_WEIGHT.WEIGHT_0, bits [7:0], RW (Table 12-7, R308). -/
def SWC_TC_WEIGHT_WEIGHT_0 : Fld := ⟨(983056) * 64 + 0, 8, 1⟩

/-- SWC_TC_WEIGHT.WEIGHT_1, bits [15:8], RW (Table 12-7, R308). -/
def SWC_TC_WEIGHT_WEIGHT_1 : Fld := ⟨(983056) * 64 + 8, 8, 1⟩

/-- SWC_TC_WEIGHT.WEIGHT_2, bits [23:16], RW (Table 12-7, R308). -/
def SWC_TC_WEIGHT_WEIGHT_2 : Fld := ⟨(983056) * 64 + 16, 8, 1⟩

/-- SWC_TC_WEIGHT.WEIGHT_3, bits [31:24], RW (Table 12-7, R308). -/
def SWC_TC_WEIGHT_WEIGHT_3 : Fld := ⟨(983056) * 64 + 24, 8, 1⟩

/-- SWC_TC_WEIGHT.WEIGHT_4, bits [39:32], RW (Table 12-7, R308). -/
def SWC_TC_WEIGHT_WEIGHT_4 : Fld := ⟨(983056) * 64 + 32, 8, 1⟩

/-- SWC_TC_WEIGHT.WEIGHT_5, bits [47:40], RW (Table 12-7, R308). -/
def SWC_TC_WEIGHT_WEIGHT_5 : Fld := ⟨(983056) * 64 + 40, 8, 1⟩

/-- SWC_TC_WEIGHT.WEIGHT_6, bits [55:48], RW (Table 12-7, R308). -/
def SWC_TC_WEIGHT_WEIGHT_6 : Fld := ⟨(983056) * 64 + 48, 8, 1⟩

/-- SWC_TC_WEIGHT.WEIGHT_7, bits [63:56], RW (Table 12-7, R308). -/
def SWC_TC_WEIGHT_WEIGHT_7 : Fld := ⟨(983056) * 64 + 56, 8, 1⟩

/-- SWC_POOL.MIN_SHARED, bits [59:40], W1C (Table 12-8, R308). -/
def SWC_POOL_MIN_SHARED : Fld := ⟨(983048) * 64 + 40, 20, 1048575⟩

/-- SWC_POOL.SHARED_FREE, bits [39:20], HWU (Table 12-8, R308). -/
def SWC_POOL_SHARED_FREE : Fld := ⟨(983048) * 64 + 20, 20, 655360⟩

/-- SWC_POOL.FREE, bits [19:0], HWU (Table 12-8, R308). -/
def SWC_POOL_FREE : Fld := ⟨(983048) * 64 + 0, 20, 655360⟩

/-- SWC_LIMIT.OMAX, bits [51:32], RWL (Table 12-8, R308). -/
def SWC_LIMIT_OMAX (i : Nat) (j : Nat) : Fld := ⟨(987136 + i * 48 + j * 8) * 64 + 32, 20, 65536⟩

/-- SWC_LIMIT.IRES, bits [15:0], RWL (Table 12-8, R308). -/
def SWC_LIMIT_IRES (i : Nat) (j : Nat) : Fld := ⟨(987136 + i * 48 + j * 8) * 64 + 0, 16, 0⟩

/-- SWC_IMAX.IMAX, bits [19:0], RWL (Table 12-8, R308). -/
def SWC_IMAX_IMAX (i : Nat) : Fld := ⟨(995328 + i * 8) * 64 + 0, 20, 65536⟩

/-- SWC_PORT_FRAMES.OUT, bits [63:32], W1C (Table 12-9, R308). -/
def SWC_PORT_FRAMES_OUT (i : Nat) : Fld := ⟨(1015808 + i * 64) * 64 + 32, 32, 0⟩

/-- SWC_PORT_FRAMES.IN, bits [31:0], W1C (Table 12-9, R308). -/
def SWC_PORT_FRAMES_IN (i : Nat) : Fld := ⟨(1015808 + i * 64) * 64 + 0, 32, 0⟩

/-- SWC_PORT_BYTES_IN.BYTES, bits [63:0], W1C (Table 12-9, R308). -/
def SWC_PORT_BYTES_IN_BYTES (i : Nat) : Fld := ⟨(1015816 + i * 64) * 64 + 0, 64, 0⟩

/-- SWC_PORT_BYTES_OUT.BYTES, bits [63:0], W1C (Table 12-9, R308). -/
def SWC_PORT_BYTES_OUT_BYTES (i : Nat) : Fld := ⟨(1015824 + i * 64) * 64 + 0, 64, 0⟩

/-- SWC_PORT_ERR.HCRC, bits [63:48], W1C (Table 12-9, R308). -/
def SWC_PORT_ERR_HCRC (i : Nat) : Fld := ⟨(1015832 + i * 64) * 64 + 48, 16, 0⟩

/-- SWC_PORT_ERR.CRC, bits [47:32], W1C (Table 12-9, R308). -/
def SWC_PORT_ERR_CRC (i : Nat) : Fld := ⟨(1015832 + i * 64) * 64 + 32, 16, 0⟩

/-- SWC_PORT_ERR.STOMP, bits [31:16], W1C (Table 12-9, R308). -/
def SWC_PORT_ERR_STOMP (i : Nat) : Fld := ⟨(1015832 + i * 64) * 64 + 16, 16, 0⟩

/-- SWC_PORT_ERR.CHECK, bits [15:0], W1C (Table 12-9, R308). -/
def SWC_PORT_ERR_CHECK (i : Nat) : Fld := ⟨(1015832 + i * 64) * 64 + 0, 16, 0⟩

/-- SWC_PORT_RETRY.RESENT, bits [63:32], W1C (Table 12-9, R308). -/
def SWC_PORT_RETRY_RESENT (i : Nat) : Fld := ⟨(1015840 + i * 64) * 64 + 32, 32, 0⟩

/-- SWC_PORT_RETRY.NACKED, bits [31:0], W1C (Table 12-9, R308). -/
def SWC_PORT_RETRY_NACKED (i : Nat) : Fld := ⟨(1015840 + i * 64) * 64 + 0, 32, 0⟩

/-- SWC_PORT_DEPTH.PEAK, bits [51:32], W1C (Table 12-9, R308). -/
def SWC_PORT_DEPTH_PEAK (i : Nat) : Fld := ⟨(1015848 + i * 64) * 64 + 32, 20, 0⟩

/-- SWC_PORT_DEPTH.CELLS, bits [19:0], HWU (Table 12-9, R308). -/
def SWC_PORT_DEPTH_CELLS (i : Nat) : Fld := ⟨(1015848 + i * 64) * 64 + 0, 20, 0⟩

/-- SWC_PORT_STALL.CYCLES, bits [63:0], W1C (Table 12-9, R308). -/
def SWC_PORT_STALL_CYCLES (i : Nat) : Fld := ⟨(1015856 + i * 64) * 64 + 0, 64, 0⟩

/-- OPT_CTL.BURST_KIB, bits [54:48], RWL (Table 13-10, R337). -/
def OPT_CTL_BURST_KIB (i : Nat) : Fld := ⟨(6815744 + i * 65536) * 64 + 48, 7, 16⟩

/-- OPT_CTL.KA, bits [45:40], RWL (Table 13-10, R337). -/
def OPT_CTL_KA (i : Nat) : Fld := ⟨(6815744 + i * 65536) * 64 + 40, 6, 20⟩

/-- OPT_CTL.LOSS_US, bits [39:36], RWL (Table 13-10, R337). -/
def OPT_CTL_LOSS_US (i : Nat) : Fld := ⟨(6815744 + i * 65536) * 64 + 36, 4, 8⟩

/-- OPT_CTL.LEND_IDLE_NS, bits [23:8], RWL (Table 13-10, R337). -/
def OPT_CTL_LEND_IDLE_NS (i : Nat) : Fld := ⟨(6815744 + i * 65536) * 64 + 8, 16, 4000⟩

/-- OPT_CTL.DRAIN, bits [0:0], RW (Table 13-10, R337). -/
def OPT_CTL_DRAIN (i : Nat) : Fld := ⟨(6815744 + i * 65536) * 64 + 0, 1, 0⟩

/-- OPT_CREDIT.LEND_MAX, bits [63:48], RWL (Table 13-10, R337). -/
def OPT_CREDIT_LEND_MAX (i : Nat) : Fld := ⟨(6815760 + i * 65536) * 64 + 48, 16, 256⟩

/-- OPT_CREDIT.STANDING_0, bits [7:0], RWL (Table 13-10, R337). -/
def OPT_CREDIT_STANDING_0 (i : Nat) : Fld := ⟨(6815760 + i * 65536) * 64 + 0, 8, 1⟩

/-- OPT_CREDIT.STANDING_1, bits [15:8], RWL (Table 13-10, R337). -/
def OPT_CREDIT_STANDING_1 (i : Nat) : Fld := ⟨(6815760 + i * 65536) * 64 + 8, 8, 1⟩

/-- OPT_CREDIT.STANDING_2, bits [23:16], RWL (Table 13-10, R337). -/
def OPT_CREDIT_STANDING_2 (i : Nat) : Fld := ⟨(6815760 + i * 65536) * 64 + 16, 8, 0⟩

/-- OPT_CREDIT.STANDING_3, bits [31:24], RWL (Table 13-10, R337). -/
def OPT_CREDIT_STANDING_3 (i : Nat) : Fld := ⟨(6815760 + i * 65536) * 64 + 24, 8, 0⟩

/-- OPT_CREDIT.STANDING_4, bits [39:32], RWL (Table 13-10, R337). -/
def OPT_CREDIT_STANDING_4 (i : Nat) : Fld := ⟨(6815760 + i * 65536) * 64 + 32, 8, 0⟩

/-- OPT_CREDIT.STANDING_5, bits [47:40], RWL (Table 13-10, R337). -/
def OPT_CREDIT_STANDING_5 (i : Nat) : Fld := ⟨(6815760 + i * 65536) * 64 + 40, 8, 0⟩

/-- OPT_STAT.HOPS_UP, bits [39:32], HWU (Table 13-11, R337). -/
def OPT_STAT_HOPS_UP (i : Nat) : Fld := ⟨(6815752 + i * 65536) * 64 + 32, 8, 0⟩

/-- OPT_STAT.TX_LOCKED, bits [31:24], HWU (Table 13-11, R337). -/
def OPT_STAT_TX_LOCKED (i : Nat) : Fld := ⟨(6815752 + i * 65536) * 64 + 24, 8, 0⟩

/-- OPT_STAT.RX_LOCKED, bits [23:16], HWU (Table 13-11, R337). -/
def OPT_STAT_RX_LOCKED (i : Nat) : Fld := ⟨(6815752 + i * 65536) * 64 + 16, 8, 0⟩

/-- OPT_STAT.LSM, bits [11:8], HWU (Table 13-11, R337). -/
def OPT_STAT_LSM (i : Nat) : Fld := ⟨(6815752 + i * 65536) * 64 + 8, 4, (i / 4)⟩

/-- OPT_STAT.REFUSED, bits [3:3], W1C (Table 13-11, R337). -/
def OPT_STAT_REFUSED (i : Nat) : Fld := ⟨(6815752 + i * 65536) * 64 + 3, 1, 0⟩

/-- OPT_STAT.STATE, bits [2:0], HWU (Table 13-11, R337). -/
def OPT_STAT_STATE (i : Nat) : Fld := ⟨(6815752 + i * 65536) * 64 + 0, 3, 0⟩

/-- OPT_COUNT.LOCK_MISS, bits [63:48], W1C (Table 13-11, R337). -/
def OPT_COUNT_LOCK_MISS (i : Nat) : Fld := ⟨(6815768 + i * 65536) * 64 + 48, 16, 0⟩

/-- OPT_COUNT.WRONG_LINE, bits [47:32], W1C (Table 13-11, R337). -/
def OPT_COUNT_WRONG_LINE (i : Nat) : Fld := ⟨(6815768 + i * 65536) * 64 + 32, 16, 0⟩

/-- OPT_COUNT.LOSS, bits [31:16], W1C (Table 13-11, R337). -/
def OPT_COUNT_LOSS (i : Nat) : Fld := ⟨(6815768 + i * 65536) * 64 + 16, 16, 0⟩

/-- OPT_COUNT.UNCORR, bits [15:0], W1C (Table 13-11, R337). -/
def OPT_COUNT_UNCORR (i : Nat) : Fld := ⟨(6815768 + i * 65536) * 64 + 0, 16, 0⟩

/-- OPT_FEC.CORRECTED, bits [63:0], W1C (Table 13-11, R337). -/
def OPT_FEC_CORRECTED (i : Nat) : Fld := ⟨(6815776 + i * 65536) * 64 + 0, 64, 0⟩

/-- OPT_TXLINE.MARGIN, bits [63:48], HWU (Table 13-12, R337). -/
def OPT_TXLINE_MARGIN (i : Nat) (j : Nat) : Fld := ⟨(6819840 + i * 65536 + j * 8) * 64 + 48, 16, 0⟩

/-- OPT_TXLINE.HEATER, bits [35:24], HWU (Table 13-12, R337). -/
def OPT_TXLINE_HEATER (i : Nat) (j : Nat) : Fld := ⟨(6819840 + i * 65536 + j * 8) * 64 + 24, 12, 0⟩

/-- OPT_TXLINE.STATE, bits [2:0], HWU (Table 13-12, R337). -/
def OPT_TXLINE_STATE (i : Nat) (j : Nat) : Fld := ⟨(6819840 + i * 65536 + j * 8) * 64 + 0, 3, 0⟩

/-- OPT_RXLINE.POWER, bits [63:48], HWU (Table 13-12, R337). -/
def OPT_RXLINE_POWER (i : Nat) (j : Nat) : Fld := ⟨(6820352 + i * 65536 + j * 8) * 64 + 48, 16, 0⟩

/-- OPT_RXLINE.HEATER, bits [35:24], HWU (Table 13-12, R337). -/
def OPT_RXLINE_HEATER (i : Nat) (j : Nat) : Fld := ⟨(6820352 + i * 65536 + j * 8) * 64 + 24, 12, 0⟩

/-- OPT_RXLINE.STATE, bits [2:0], HWU (Table 13-12, R337). -/
def OPT_RXLINE_STATE (i : Nat) (j : Nat) : Fld := ⟨(6820352 + i * 65536 + j * 8) * 64 + 0, 3, 0⟩

/-- LSM_CTL.RETIRE, bits [0:0], RW (Table 13-13, R337). -/
def LSM_CTL_RETIRE (i : Nat) : Fld := ⟨(8912896 + i * 8) * 64 + 0, 1, 0⟩

/-- LSM_STAT.HEADROOM, bits [63:48], HWU (Table 13-13, R337). -/
def LSM_STAT_HEADROOM (i : Nat) : Fld := ⟨(8913024 + i * 8) * 64 + 48, 16, 0⟩

/-- LSM_STAT.BIAS, bits [41:32], HWU (Table 13-13, R337). -/
def LSM_STAT_BIAS (i : Nat) : Fld := ⟨(8913024 + i * 8) * 64 + 32, 10, 0⟩

/-- LSM_STAT.BIAS_MAX, bits [25:16], HWU (Table 13-13, R337). -/
def LSM_STAT_BIAS_MAX (i : Nat) : Fld := ⟨(8913024 + i * 8) * 64 + 16, 10, 0⟩

/-- LSM_STAT.GROUP, bits [11:8], HWU (Table 13-13, R337). -/
def LSM_STAT_GROUP (i : Nat) : Fld := ⟨(8913024 + i * 8) * 64 + 8, 4, (if i < 8 then i else 15)⟩

/-- LSM_STAT.STATE, bits [2:0], HWU (Table 13-13, R337). -/
def LSM_STAT_STATE (i : Nat) : Fld := ⟨(8913024 + i * 8) * 64 + 0, 3, 0⟩

/-- LSM_CFG.RX_REQ, bits [63:48], RWL (Table 13-13, R337). -/
def LSM_CFG_RX_REQ : Fld := ⟨(8913152) * 64 + 48, 16, 65376⟩

/-- LSM_CFG.MARGIN_LO, bits [47:40], RWL (Table 13-13, R337). -/
def LSM_CFG_MARGIN_LO : Fld := ⟨(8913152) * 64 + 40, 8, 20⟩

/-- LSM_CFG.MARGIN_MIN, bits [39:32], RWL (Table 13-13, R337). -/
def LSM_CFG_MARGIN_MIN : Fld := ⟨(8913152) * 64 + 32, 8, 5⟩

/-- LSM_CFG.EVAL_MS, bits [25:16], RWL (Table 13-13, R337). -/
def LSM_CFG_EVAL_MS : Fld := ⟨(8913152) * 64 + 16, 10, 100⟩

/-- LSM_CFG.BIAS_STEP, bits [7:0], RWL (Table 13-13, R337). -/
def LSM_CFG_BIAS_STEP : Fld := ⟨(8913152) * 64 + 0, 8, 4⟩

/-- EDGE_CTL.ENABLE, bits [0:0], RW (Table 14-6, R358). -/
def EDGE_CTL_ENABLE (i : Nat) : Fld := ⟨(4718592 + i * 65536) * 64 + 0, 1, 1⟩

/-- EDGE_STAT.FRAMES, bits [51:32], HWU (Table 14-6, R358). -/
def EDGE_STAT_FRAMES (i : Nat) : Fld := ⟨(4718600 + i * 65536) * 64 + 32, 20, 0⟩

/-- EDGE_STAT.FAR_UNIT, bits [25:24], HWU (Table 14-6, R358). -/
def EDGE_STAT_FAR_UNIT (i : Nat) : Fld := ⟨(4718600 + i * 65536) * 64 + 24, 2, 0⟩

/-- EDGE_STAT.SLOT, bits [23:20], HWU (Table 14-6, R358). -/
def EDGE_STAT_SLOT (i : Nat) : Fld := ⟨(4718600 + i * 65536) * 64 + 20, 4, 0⟩

/-- EDGE_STAT.ROLE, bits [19:18], HWU (Table 14-6, R358). -/
def EDGE_STAT_ROLE (i : Nat) : Fld := ⟨(4718600 + i * 65536) * 64 + 18, 2, 0⟩

/-- EDGE_STAT.RATE, bits [17:16], HWU (Table 14-6, R358). -/
def EDGE_STAT_RATE (i : Nat) : Fld := ⟨(4718600 + i * 65536) * 64 + 16, 2, 0⟩

/-- EDGE_STAT.WIDTH, bits [15:8], HWU (Table 14-6, R358). -/
def EDGE_STAT_WIDTH (i : Nat) : Fld := ⟨(4718600 + i * 65536) * 64 + 8, 8, 0⟩

/-- EDGE_STAT.IDE, bits [4:4], HWU (Table 14-6, R358). -/
def EDGE_STAT_IDE (i : Nat) : Fld := ⟨(4718600 + i * 65536) * 64 + 4, 1, 0⟩

/-- EDGE_STAT.REFUSED, bits [3:3], W1C (Table 14-6, R358). -/
def EDGE_STAT_REFUSED (i : Nat) : Fld := ⟨(4718600 + i * 65536) * 64 + 3, 1, 0⟩

/-- EDGE_STAT.STATE, bits [2:0], HWU (Table 14-6, R358). -/
def EDGE_STAT_STATE (i : Nat) : Fld := ⟨(4718600 + i * 65536) * 64 + 0, 3, 0⟩

/-- EDGE_ERR.COUNT, bits [63:32], W1C (Table 14-6, R358). -/
def EDGE_ERR_COUNT (i : Nat) : Fld := ⟨(4718608 + i * 65536) * 64 + 32, 32, 0⟩

/-- EDGE_ERR.LAST_PART, bits [31:20], HWU (Table 14-6, R358). -/
def EDGE_ERR_LAST_PART (i : Nat) : Fld := ⟨(4718608 + i * 65536) * 64 + 20, 12, 0⟩

/-- EDGE_ERR.LAST_CODE, bits [15:8], HWU (Table 14-6, R358). -/
def EDGE_ERR_LAST_CODE (i : Nat) : Fld := ⟨(4718608 + i * 65536) * 64 + 8, 8, 0⟩

/-- EDGE_ERR_ADDR.ADDR, bits [63:0], HWU (Table 14-6, R358). -/
def EDGE_ERR_ADDR_ADDR (i : Nat) : Fld := ⟨(4718616 + i * 65536) * 64 + 0, 64, 0⟩

/-- EDGE_CFG_ADDR.WRITE, bits [15:15], WO (Table 14-6, R358). -/
def EDGE_CFG_ADDR_WRITE (i : Nat) : Fld := ⟨(4718624 + i * 65536) * 64 + 15, 1, 0⟩

/-- EDGE_CFG_ADDR.FUNC, bits [14:12], WO (Table 14-6, R358). -/
def EDGE_CFG_ADDR_FUNC (i : Nat) : Fld := ⟨(4718624 + i * 65536) * 64 + 12, 3, 0⟩

/-- EDGE_CFG_ADDR.REG, bits [11:2], WO (Table 14-6, R358). -/
def EDGE_CFG_ADDR_REG (i : Nat) : Fld := ⟨(4718624 + i * 65536) * 64 + 2, 10, 0⟩

/-- EDGE_CFG_DATA.ERR, bits [33:33], HWU (Table 14-6, R358). -/
def EDGE_CFG_DATA_ERR (i : Nat) : Fld := ⟨(4718632 + i * 65536) * 64 + 33, 1, 0⟩

/-- EDGE_CFG_DATA.DONE, bits [32:32], HWU (Table 14-6, R358). -/
def EDGE_CFG_DATA_DONE (i : Nat) : Fld := ⟨(4718632 + i * 65536) * 64 + 32, 1, 1⟩

/-- EDGE_CFG_DATA.DATA, bits [31:0], RW (Table 14-6, R358). -/
def EDGE_CFG_DATA_DATA (i : Nat) : Fld := ⟨(4718632 + i * 65536) * 64 + 0, 32, 0⟩

/-- MEMP_STAT.FRAMES, bits [51:32], HWU (Table 14-7, R358). -/
def MEMP_STAT_FRAMES (i : Nat) : Fld := ⟨(4653056 + i * 8) * 64 + 32, 20, 0⟩

/-- MEMP_STAT.IDE, bits [3:3], HWU (Table 14-7, R358). -/
def MEMP_STAT_IDE (i : Nat) : Fld := ⟨(4653056 + i * 8) * 64 + 3, 1, 0⟩

/-- MEMP_STAT.STATE, bits [2:0], HWU (Table 14-7, R358). -/
def MEMP_STAT_STATE (i : Nat) : Fld := ⟨(4653056 + i * 8) * 64 + 0, 3, 0⟩

/-- GDDR_CFG.DENSITY, bits [19:18], RWL (Table 14-8, R358). -/
def GDDR_CFG_DENSITY : Fld := ⟨(4587520) * 64 + 18, 2, 2⟩

/-- GDDR_CFG.CLAMSHELL, bits [17:17], RWL (Table 14-8, R358). -/
def GDDR_CFG_CLAMSHELL : Fld := ⟨(4587520) * 64 + 17, 1, 1⟩

/-- GDDR_CFG.RETRAIN_MS, bits [15:8], RWL (Table 14-8, R358). -/
def GDDR_CFG_RETRAIN_MS : Fld := ⟨(4587520) * 64 + 8, 8, 100⟩

/-- GDDR_CFG.RATE_FLOOR, bits [3:2], RWL (Table 14-8, R358). -/
def GDDR_CFG_RATE_FLOOR : Fld := ⟨(4587520) * 64 + 2, 2, 3⟩

/-- GDDR_CFG.RATE_CEIL, bits [1:0], RWL (Table 14-8, R358). -/
def GDDR_CFG_RATE_CEIL : Fld := ⟨(4587520) * 64 + 0, 2, 0⟩

/-- GDDR_STAT.POISON, bits [63:48], W1C (Table 14-8, R358). -/
def GDDR_STAT_POISON (i : Nat) : Fld := ⟨(4587776 + i * 8) * 64 + 48, 16, 0⟩

/-- GDDR_STAT.CRC_RETRY, bits [47:32], W1C (Table 14-8, R358). -/
def GDDR_STAT_CRC_RETRY (i : Nat) : Fld := ⟨(4587776 + i * 8) * 64 + 32, 16, 0⟩

/-- GDDR_STAT.FRAMES, bits [31:16], HWU (Table 14-8, R358). -/
def GDDR_STAT_FRAMES (i : Nat) : Fld := ⟨(4587776 + i * 8) * 64 + 16, 16, 0⟩

/-- GDDR_STAT.RATE, bits [3:2], HWU (Table 14-8, R358). -/
def GDDR_STAT_RATE (i : Nat) : Fld := ⟨(4587776 + i * 8) * 64 + 2, 2, 0⟩

/-- GDDR_STAT.STATE, bits [1:0], HWU (Table 14-8, R358). -/
def GDDR_STAT_STATE (i : Nat) : Fld := ⟨(4587776 + i * 8) * 64 + 0, 2, 0⟩

/-- NELAR_CTL.REPLAY_MAX, bits [19:16], RWL (Table 15-11, R381). -/
def NELAR_CTL_REPLAY_MAX (i : Nat) : Fld := ⟨(458752 + i * 32768) * 64 + 16, 4, 8⟩

/-- NELAR_CTL.REPLAY_NS, bits [15:8], RWL (Table 15-11, R381). -/
def NELAR_CTL_REPLAY_NS (i : Nat) : Fld := ⟨(458752 + i * 32768) * 64 + 8, 8, 20⟩

/-- NELAR_CTL.ENABLE, bits [0:0], RW (Table 15-11, R381). -/
def NELAR_CTL_ENABLE (i : Nat) : Fld := ⟨(458752 + i * 32768) * 64 + 0, 1, 1⟩

/-- NELAR_STAT.LANES_LOCKED, bits [39:32], HWU (Table 15-11, R381). -/
def NELAR_STAT_LANES_LOCKED (i : Nat) : Fld := ⟨(458760 + i * 32768) * 64 + 32, 8, 0⟩

/-- NELAR_STAT.SKEW, bits [23:16], HWU (Table 15-11, R381). -/
def NELAR_STAT_SKEW (i : Nat) : Fld := ⟨(458760 + i * 32768) * 64 + 16, 8, 0⟩

/-- NELAR_STAT.FAULT, bits [7:6], HWU (Table 15-11, R381). -/
def NELAR_STAT_FAULT (i : Nat) : Fld := ⟨(458760 + i * 32768) * 64 + 6, 2, 0⟩

/-- NELAR_STAT.REVERSED, bits [5:5], HWU (Table 15-11, R381). -/
def NELAR_STAT_REVERSED (i : Nat) : Fld := ⟨(458760 + i * 32768) * 64 + 5, 1, 0⟩

/-- NELAR_STAT.REFUSED, bits [3:3], W1C (Table 15-11, R381). -/
def NELAR_STAT_REFUSED (i : Nat) : Fld := ⟨(458760 + i * 32768) * 64 + 3, 1, 0⟩

/-- NELAR_STAT.STATE, bits [2:0], HWU (Table 15-11, R381). -/
def NELAR_STAT_STATE (i : Nat) : Fld := ⟨(458760 + i * 32768) * 64 + 0, 3, 0⟩

/-- NELAR_TXEQ.PRESET_0, bits [2:0], RWL (Table 15-11, R381). -/
def NELAR_TXEQ_PRESET_0 (i : Nat) : Fld := ⟨(458768 + i * 32768) * 64 + 0, 3, 3⟩

/-- NELAR_TXEQ.PRESET_1, bits [6:4], RWL (Table 15-11, R381). -/
def NELAR_TXEQ_PRESET_1 (i : Nat) : Fld := ⟨(458768 + i * 32768) * 64 + 4, 3, 3⟩

/-- NELAR_TXEQ.PRESET_2, bits [10:8], RWL (Table 15-11, R381). -/
def NELAR_TXEQ_PRESET_2 (i : Nat) : Fld := ⟨(458768 + i * 32768) * 64 + 8, 3, 3⟩

/-- NELAR_TXEQ.PRESET_3, bits [14:12], RWL (Table 15-11, R381). -/
def NELAR_TXEQ_PRESET_3 (i : Nat) : Fld := ⟨(458768 + i * 32768) * 64 + 12, 3, 3⟩

/-- NELAR_TXEQ.PRESET_4, bits [18:16], RWL (Table 15-11, R381). -/
def NELAR_TXEQ_PRESET_4 (i : Nat) : Fld := ⟨(458768 + i * 32768) * 64 + 16, 3, 3⟩

/-- NELAR_TXEQ.PRESET_5, bits [22:20], RWL (Table 15-11, R381). -/
def NELAR_TXEQ_PRESET_5 (i : Nat) : Fld := ⟨(458768 + i * 32768) * 64 + 20, 3, 3⟩

/-- NELAR_TXEQ.PRESET_6, bits [26:24], RWL (Table 15-11, R381). -/
def NELAR_TXEQ_PRESET_6 (i : Nat) : Fld := ⟨(458768 + i * 32768) * 64 + 24, 3, 3⟩

/-- NELAR_TXEQ.PRESET_7, bits [30:28], RWL (Table 15-11, R381). -/
def NELAR_TXEQ_PRESET_7 (i : Nat) : Fld := ⟨(458768 + i * 32768) * 64 + 28, 3, 3⟩

/-- NELAR_COUNT.REPLAYS, bits [63:48], W1C (Table 15-11, R381). -/
def NELAR_COUNT_REPLAYS (i : Nat) : Fld := ⟨(458776 + i * 32768) * 64 + 48, 16, 0⟩

/-- NELAR_COUNT.CRC_FAIL, bits [47:32], W1C (Table 15-11, R381). -/
def NELAR_COUNT_CRC_FAIL (i : Nat) : Fld := ⟨(458776 + i * 32768) * 64 + 32, 16, 0⟩

/-- NELAR_COUNT.RETRAINS, bits [31:16], W1C (Table 15-11, R381). -/
def NELAR_COUNT_RETRAINS (i : Nat) : Fld := ⟨(458776 + i * 32768) * 64 + 16, 16, 0⟩

/-- NELAR_COUNT.STALE, bits [15:0], W1C (Table 15-11, R381). -/
def NELAR_COUNT_STALE (i : Nat) : Fld := ⟨(458776 + i * 32768) * 64 + 0, 16, 0⟩

/-- NELAR_BIP.BIP_0, bits [7:0], W1C (Table 15-11, R381). -/
def NELAR_BIP_BIP_0 (i : Nat) : Fld := ⟨(458784 + i * 32768) * 64 + 0, 8, 0⟩

/-- NELAR_BIP.BIP_1, bits [15:8], W1C (Table 15-11, R381). -/
def NELAR_BIP_BIP_1 (i : Nat) : Fld := ⟨(458784 + i * 32768) * 64 + 8, 8, 0⟩

/-- NELAR_BIP.BIP_2, bits [23:16], W1C (Table 15-11, R381). -/
def NELAR_BIP_BIP_2 (i : Nat) : Fld := ⟨(458784 + i * 32768) * 64 + 16, 8, 0⟩

/-- NELAR_BIP.BIP_3, bits [31:24], W1C (Table 15-11, R381). -/
def NELAR_BIP_BIP_3 (i : Nat) : Fld := ⟨(458784 + i * 32768) * 64 + 24, 8, 0⟩

/-- NELAR_BIP.BIP_4, bits [39:32], W1C (Table 15-11, R381). -/
def NELAR_BIP_BIP_4 (i : Nat) : Fld := ⟨(458784 + i * 32768) * 64 + 32, 8, 0⟩

/-- NELAR_BIP.BIP_5, bits [47:40], W1C (Table 15-11, R381). -/
def NELAR_BIP_BIP_5 (i : Nat) : Fld := ⟨(458784 + i * 32768) * 64 + 40, 8, 0⟩

/-- NELAR_BIP.BIP_6, bits [55:48], W1C (Table 15-11, R381). -/
def NELAR_BIP_BIP_6 (i : Nat) : Fld := ⟨(458784 + i * 32768) * 64 + 48, 8, 0⟩

/-- NELAR_BIP.BIP_7, bits [63:56], W1C (Table 15-11, R381). -/
def NELAR_BIP_BIP_7 (i : Nat) : Fld := ⟨(458784 + i * 32768) * 64 + 56, 8, 0⟩

/-- NELAR_CHIP.RID_VALID, bits [33:33], HWU (Table 15-11, R381). -/
def NELAR_CHIP_RID_VALID : Fld := ⟨(459008) * 64 + 33, 1, 0⟩

/-- NELAR_CHIP.NOTIFY, bits [32:32], RW (Table 15-11, R381). -/
def NELAR_CHIP_NOTIFY : Fld := ⟨(459008) * 64 + 32, 1, 0⟩

/-- NELAR_CHIP.HIGH_RID, bits [31:0], HWU (Table 15-11, R381). -/
def NELAR_CHIP_HIGH_RID : Fld := ⟨(459008) * 64 + 0, 32, 0⟩

/-- PART_STATE.KEY_EPOCH, bits [63:32], HWU (Table 16-11, R402). -/
def PART_STATE_KEY_EPOCH (i : Nat) : Fld := ⟨(524288 + i * 64) * 64 + 32, 32, 0⟩

/-- PART_STATE.TC, bits [10:8], HWU (Table 16-11, R402). -/
def PART_STATE_TC (i : Nat) : Fld := ⟨(524288 + i * 64) * 64 + 8, 3, 0⟩

/-- PART_STATE.STATE, bits [2:0], HWU (Table 16-11, R402). -/
def PART_STATE_STATE (i : Nat) : Fld := ⟨(524288 + i * 64) * 64 + 0, 3, 0⟩

/-- PART_QUEUES.QUEUE_COUNT, bits [47:32], HWU (Table 16-11, R402). -/
def PART_QUEUES_QUEUE_COUNT (i : Nat) : Fld := ⟨(524296 + i * 64) * 64 + 32, 16, 0⟩

/-- PART_QUEUES.QUEUE_FIRST, bits [14:0], HWU (Table 16-11, R402). -/
def PART_QUEUES_QUEUE_FIRST (i : Nat) : Fld := ⟨(524296 + i * 64) * 64 + 0, 15, 0⟩

/-- PART_COUNTERS.CTR_COUNT, bits [50:32], HWU (Table 16-11, R402). -/
def PART_COUNTERS_CTR_COUNT (i : Nat) : Fld := ⟨(524304 + i * 64) * 64 + 32, 19, 0⟩

/-- PART_COUNTERS.CTR_FIRST, bits [17:0], HWU (Table 16-11, R402). -/
def PART_COUNTERS_CTR_FIRST (i : Nat) : Fld := ⟨(524304 + i * 64) * 64 + 0, 18, 0⟩

/-- PART_WINDOWS.WIN_COUNT, bits [39:32], HWU (Table 16-11, R402). -/
def PART_WINDOWS_WIN_COUNT (i : Nat) : Fld := ⟨(524312 + i * 64) * 64 + 32, 8, 0⟩

/-- PART_WINDOWS.WIN_FIRST, bits [15:0], HWU (Table 16-11, R402). -/
def PART_WINDOWS_WIN_FIRST (i : Nat) : Fld := ⟨(524312 + i * 64) * 64 + 0, 16, 0⟩

/-- PART_MEM_QUOTA.FAR_QUOTA, bits [55:32], HWU (Table 16-11, R402). -/
def PART_MEM_QUOTA_FAR_QUOTA (i : Nat) : Fld := ⟨(524320 + i * 64) * 64 + 32, 24, 0⟩

/-- PART_MEM_QUOTA.NEAR_QUOTA, bits [16:0], HWU (Table 16-11, R402). -/
def PART_MEM_QUOTA_NEAR_QUOTA (i : Nat) : Fld := ⟨(524320 + i * 64) * 64 + 0, 17, 0⟩

/-- PART_OUTSTANDING.QUOTA, bits [48:32], HWU (Table 16-11, R402). -/
def PART_OUTSTANDING_QUOTA (i : Nat) : Fld := ⟨(524328 + i * 64) * 64 + 32, 17, 0⟩

/-- PART_OUTSTANDING.USED, bits [16:0], HWU (Table 16-11, R402). -/
def PART_OUTSTANDING_USED (i : Nat) : Fld := ⟨(524328 + i * 64) * 64 + 0, 17, 0⟩

/-- PART_FAR_USED.USED, bits [23:0], HWU (Table 16-11, R402). -/
def PART_FAR_USED_USED (i : Nat) : Fld := ⟨(524336 + i * 64) * 64 + 0, 24, 0⟩

/-- PART_VLOG.COUNT, bits [63:32], W1C (Table 16-11, R402). -/
def PART_VLOG_COUNT (i : Nat) : Fld := ⟨(524344 + i * 64) * 64 + 32, 32, 0⟩

/-- PART_VLOG.ENTRIES, bits [4:0], HWU (Table 16-11, R402). -/
def PART_VLOG_ENTRIES (i : Nat) : Fld := ⟨(524344 + i * 64) * 64 + 0, 5, 0⟩

/-- SEC_STAT.FW_SVN, bits [63:32], RO (Table 16-12, R403). -/
def SEC_STAT_FW_SVN : Fld := ⟨(262144) * 64 + 32, 32, 0⟩

/-- SEC_STAT.FROZEN, bits [7:7], HWU (Table 16-12, R403). -/
def SEC_STAT_FROZEN : Fld := ⟨(262144) * 64 + 7, 1, 0⟩

/-- SEC_STAT.DEBUG, bits [2:0], RO (Table 16-12, R403). -/
def SEC_STAT_DEBUG : Fld := ⟨(262144) * 64 + 0, 3, 0⟩

/-- SEC_SERIAL.SERIAL, bits [63:0], RO (Table 16-12, R403). -/
def SEC_SERIAL_SERIAL : Fld := ⟨(262152) * 64 + 0, 64, 0⟩

/-- SEC_VLOG_SEL.GLOBAL, bits [28:28], WO (Table 16-12, R403). -/
def SEC_VLOG_SEL_GLOBAL : Fld := ⟨(262160) * 64 + 28, 1, 0⟩

/-- SEC_VLOG_SEL.PARTITION, bits [27:16], WO (Table 16-12, R403). -/
def SEC_VLOG_SEL_PARTITION : Fld := ⟨(262160) * 64 + 16, 12, 0⟩

/-- SEC_VLOG_SEL.INDEX, bits [7:0], WO (Table 16-12, R403). -/
def SEC_VLOG_SEL_INDEX : Fld := ⟨(262160) * 64 + 0, 8, 0⟩

/-- SEC_VLOG_RES0.ADDR, bits [63:0], RO (Table 16-12, R403). -/
def SEC_VLOG_RES0_ADDR : Fld := ⟨(262168) * 64 + 0, 64, 0⟩

/-- SEC_VLOG_RES1.TICK, bits [63:32], RO (Table 16-12, R403). -/
def SEC_VLOG_RES1_TICK : Fld := ⟨(262176) * 64 + 32, 32, 0⟩

/-- SEC_VLOG_RES1.PARTITION, bits [31:20], RO (Table 16-12, R403). -/
def SEC_VLOG_RES1_PARTITION : Fld := ⟨(262176) * 64 + 20, 12, 0⟩

/-- SEC_VLOG_RES1.CODE, bits [19:12], RO (Table 16-12, R403). -/
def SEC_VLOG_RES1_CODE : Fld := ⟨(262176) * 64 + 12, 8, 0⟩

/-- SEC_VLOG_RES1.CLASS, bits [11:8], RO (Table 16-12, R403). -/
def SEC_VLOG_RES1_CLASS : Fld := ⟨(262176) * 64 + 8, 4, 0⟩

/-- SEC_VLOG_RES1.SOURCE, bits [7:0], RO (Table 16-12, R403). -/
def SEC_VLOG_RES1_SOURCE : Fld := ⟨(262176) * 64 + 0, 8, 0⟩

/-- SEC_GLOG.COUNT, bits [63:32], W1C (Table 16-12, R403). -/
def SEC_GLOG_COUNT : Fld := ⟨(262184) * 64 + 32, 32, 0⟩

/-- SEC_GLOG.ENTRIES, bits [8:0], HWU (Table 16-12, R403). -/
def SEC_GLOG_ENTRIES : Fld := ⟨(262184) * 64 + 0, 9, 0⟩

/-- BOOT_STAT.CAUSE1, bits [55:52], HWU (Table 17-11, R420). -/
def BOOT_STAT_CAUSE1 : Fld := ⟨(65536) * 64 + 52, 4, 0⟩

/-- BOOT_STAT.CAUSE0, bits [51:48], HWU (Table 17-11, R420). -/
def BOOT_STAT_CAUSE0 : Fld := ⟨(65536) * 64 + 48, 4, 0⟩

/-- BOOT_STAT.MODE, bits [47:40], HWU (Table 17-11, R420). -/
def BOOT_STAT_MODE : Fld := ⟨(65536) * 64 + 40, 8, 255⟩

/-- BOOT_STAT.MODE_PINS, bits [34:32], HWU (Table 17-11, R420). -/
def BOOT_STAT_MODE_PINS : Fld := ⟨(65536) * 64 + 32, 3, 0⟩

/-- BOOT_STAT.BANK, bits [7:7], HWU (Table 17-11, R420). -/
def BOOT_STAT_BANK : Fld := ⟨(65536) * 64 + 7, 1, 0⟩

/-- BOOT_STAT.FALLBACK, bits [6:6], HWU (Table 17-11, R420). -/
def BOOT_STAT_FALLBACK : Fld := ⟨(65536) * 64 + 6, 1, 0⟩

/-- BOOT_STAT.POS_ERR, bits [5:5], HWU (Table 17-11, R420). -/
def BOOT_STAT_POS_ERR : Fld := ⟨(65536) * 64 + 5, 1, 0⟩

/-- BOOT_STAT.WAIT_COOL, bits [4:4], HWU (Table 17-11, R420). -/
def BOOT_STAT_WAIT_COOL : Fld := ⟨(65536) * 64 + 4, 1, 0⟩

/-- BOOT_STAT.MODE_PENDING, bits [3:3], HWU (Table 17-11, R420). -/
def BOOT_STAT_MODE_PENDING : Fld := ⟨(65536) * 64 + 3, 1, 0⟩

/-- BOOT_STAT.STATE, bits [2:0], HWU (Table 17-11, R420). -/
def BOOT_STAT_STATE : Fld := ⟨(65536) * 64 + 0, 3, 0⟩

/-- BOOT_POS.POS_Z, bits [46:44], HWU (Table 17-11, R420). -/
def BOOT_POS_POS_Z : Fld := ⟨(65544) * 64 + 44, 3, 0⟩

/-- BOOT_POS.POS_Y, bits [43:38], HWU (Table 17-11, R420). -/
def BOOT_POS_POS_Y : Fld := ⟨(65544) * 64 + 38, 6, 0⟩

/-- BOOT_POS.POS_X, bits [37:32], HWU (Table 17-11, R420). -/
def BOOT_POS_POS_X : Fld := ⟨(65544) * 64 + 32, 6, 0⟩

/-- BOOT_POS.CHIP, bits [14:0], HWU (Table 17-11, R420). -/
def BOOT_POS_CHIP : Fld := ⟨(65544) * 64 + 0, 15, 0⟩

/-- BOOT_MODE_SEQ.LAST_SEQ, bits [63:0], HWU (Table 17-11, R420). -/
def BOOT_MODE_SEQ_LAST_SEQ : Fld := ⟨(65552) * 64 + 0, 64, 0⟩

/-- BOOT_MODE_CAUSE.LAST_CAUSE, bits [7:0], HWU (Table 17-11, R420). -/
def BOOT_MODE_CAUSE_LAST_CAUSE : Fld := ⟨(65560) * 64 + 0, 8, 0⟩

/-- BOOT_TIME.READY_TICK, bits [63:32], HWU (Table 17-11, R420). -/
def BOOT_TIME_READY_TICK : Fld := ⟨(65568) * 64 + 32, 32, 0⟩

/-- BOOT_TIME.LOCK_TICK, bits [31:0], HWU (Table 17-11, R420). -/
def BOOT_TIME_LOCK_TICK : Fld := ⟨(65568) * 64 + 0, 32, 0⟩

/-- CLK_STAT.PLL_LOCK, bits [39:36], HWU (Table 18-10, R440). -/
def CLK_STAT_PLL_LOCK : Fld := ⟨(131072) * 64 + 36, 4, 0⟩

/-- CLK_STAT.EDGE_LOCK, bits [35:0], HWU (Table 18-10, R440). -/
def CLK_STAT_EDGE_LOCK : Fld := ⟨(131072) * 64 + 0, 36, 0⟩

/-- CLK_LOCALTICK.TICK, bits [63:0], HWU (Table 18-10, R440). -/
def CLK_LOCALTICK_TICK : Fld := ⟨(131080) * 64 + 0, 64, 0⟩

/-- PWR_CTL.PIN, bits [54:52], RW (Table 18-11, R440). -/
def PWR_CTL_PIN : Fld := ⟨(196608) * 64 + 52, 3, 0⟩

/-- PWR_CTL.PREFER, bits [49:48], RW (Table 18-11, R440). -/
def PWR_CTL_PREFER : Fld := ⟨(196608) * 64 + 48, 2, 0⟩

/-- PWR_CTL.STEP_W, bits [47:40], RWL (Table 18-11, R440). -/
def PWR_CTL_STEP_W : Fld := ⟨(196608) * 64 + 40, 8, 100⟩

/-- PWR_CTL.TJ_BRAKE, bits [39:32], RWL (Table 18-11, R440). -/
def PWR_CTL_TJ_BRAKE : Fld := ⟨(196608) * 64 + 32, 8, 100⟩

/-- PWR_CTL.HYST_US, bits [31:16], RWL (Table 18-11, R440). -/
def PWR_CTL_HYST_US : Fld := ⟨(196608) * 64 + 16, 16, 1000⟩

/-- PWR_CTL.FLOOR_PCT, bits [7:0], RO (Table 18-11, R440). -/
def PWR_CTL_FLOOR_PCT : Fld := ⟨(196608) * 64 + 0, 8, 0⟩

/-- PWR_STAT.MEAS_W, bits [63:48], HWU (Table 18-11, R440). -/
def PWR_STAT_MEAS_W : Fld := ⟨(196616) * 64 + 48, 16, 0⟩

/-- PWR_STAT.CAP_W, bits [47:32], HWU (Table 18-11, R440). -/
def PWR_STAT_CAP_W : Fld := ⟨(196616) * 64 + 32, 16, 0⟩

/-- PWR_STAT.TJ, bits [31:24], HWU (Table 18-11, R440). -/
def PWR_STAT_TJ : Fld := ⟨(196616) * 64 + 24, 8, 0⟩

/-- PWR_STAT.LEVEL, bits [15:10], HWU (Table 18-11, R440). -/
def PWR_STAT_LEVEL : Fld := ⟨(196616) * 64 + 10, 6, 0⟩

/-- PWR_STAT.CAUSE, bits [7:4], HWU (Table 18-11, R440). -/
def PWR_STAT_CAUSE : Fld := ⟨(196616) * 64 + 4, 4, 0⟩

/-- PWR_STAT.BRAKE, bits [0:0], HWU (Table 18-11, R440). -/
def PWR_STAT_BRAKE : Fld := ⟨(196616) * 64 + 0, 1, 0⟩

/-- PWR_CAP_SEQ.LAST_SEQ, bits [63:0], HWU (Table 18-11, R440). -/
def PWR_CAP_SEQ_LAST_SEQ : Fld := ⟨(196624) * 64 + 0, 64, 0⟩

/-- PWR_COUNT.BRAKES, bits [63:32], W1C (Table 18-11, R440). -/
def PWR_COUNT_BRAKES : Fld := ⟨(196632) * 64 + 32, 32, 0⟩

/-- PWR_COUNT.BRAKE_MS, bits [31:0], W1C (Table 18-11, R440). -/
def PWR_COUNT_BRAKE_MS : Fld := ⟨(196632) * 64 + 0, 32, 0⟩

/-- PWR_ENERGY_CHIP.NJ, bits [63:0], HWU (Table 18-11, R440). -/
def PWR_ENERGY_CHIP_NJ : Fld := ⟨(196640) * 64 + 0, 64, 0⟩

/-- PWR_ENERGY_UNATTR.NJ, bits [63:0], HWU (Table 18-11, R440). -/
def PWR_ENERGY_UNATTR_NJ : Fld := ⟨(196648) * 64 + 0, 64, 0⟩

/-- PWR_COEF.COEF, bits [15:0], RWL (Table 18-11, R440). -/
def PWR_COEF_COEF (i : Nat) : Fld := ⟨(196864 + i * 8) * 64 + 0, 16, ([192, 96, 224, 64, 160, 256, 3200, 8192].getD i 0)⟩

/-- PWR_ENERGY.NJ, bits [63:0], HWU (Table 18-11, R440). -/
def PWR_ENERGY_NJ (i : Nat) : Fld := ⟨(229376 + i * 8) * 64 + 0, 64, 0⟩

/-- FAULT_STAT.FATAL_CAUSE, bits [55:48], HWU (Table 19-8, R462). -/
def FAULT_STAT_FATAL_CAUSE : Fld := ⟨(327680) * 64 + 48, 8, 0⟩

/-- FAULT_STAT.EPO_CAUSE, bits [42:40], HWU (Table 19-8, R462). -/
def FAULT_STAT_EPO_CAUSE : Fld := ⟨(327680) * 64 + 40, 3, 0⟩

/-- FAULT_STAT.EVENTS_LOST, bits [33:33], W1C (Table 19-8, R462). -/
def FAULT_STAT_EVENTS_LOST : Fld := ⟨(327680) * 64 + 33, 1, 0⟩

/-- FAULT_STAT.MEM_LOST, bits [32:32], W1C (Table 19-8, R462). -/
def FAULT_STAT_MEM_LOST : Fld := ⟨(327680) * 64 + 32, 1, 0⟩

/-- FAULT_STAT.LOST_CHIPS, bits [30:16], HWU (Table 19-8, R462). -/
def FAULT_STAT_LOST_CHIPS : Fld := ⟨(327680) * 64 + 16, 15, 0⟩

/-- FAULT_STAT.LOG_ENTRIES, bits [10:0], HWU (Table 19-8, R462). -/
def FAULT_STAT_LOG_ENTRIES : Fld := ⟨(327680) * 64 + 0, 11, 0⟩

/-- FAULT_TIMEOUTS.TXN_US, bits [63:32], RO (Table 19-8, R462). -/
def FAULT_TIMEOUTS_TXN_US : Fld := ⟨(327688) * 64 + 32, 32, 0⟩

/-- FAULT_TIMEOUTS.DRAIN_US, bits [31:0], RO (Table 19-8, R462). -/
def FAULT_TIMEOUTS_DRAIN_US : Fld := ⟨(327688) * 64 + 0, 32, 0⟩

/-- FAULT_COUNT.TIMEOUTS, bits [63:32], W1C (Table 19-8, R462). -/
def FAULT_COUNT_TIMEOUTS : Fld := ⟨(327696) * 64 + 32, 32, 0⟩

/-- FAULT_COUNT.LATE, bits [31:0], W1C (Table 19-8, R462). -/
def FAULT_COUNT_LATE : Fld := ⟨(327696) * 64 + 0, 32, 0⟩

/-- FAULT_ECC.CE, bits [63:32], W1C (Table 19-8, R462). -/
def FAULT_ECC_CE : Fld := ⟨(327704) * 64 + 32, 32, 0⟩

/-- FAULT_ECC.ABORTS, bits [31:0], W1C (Table 19-8, R462). -/
def FAULT_ECC_ABORTS : Fld := ⟨(327704) * 64 + 0, 32, 0⟩

/-- FAULT_MARK.OP, bits [16:16], WO (Table 19-8, R462). -/
def FAULT_MARK_OP : Fld := ⟨(327712) * 64 + 16, 1, 0⟩

/-- FAULT_MARK.CHIP, bits [14:0], WO (Table 19-8, R462). -/
def FAULT_MARK_CHIP : Fld := ⟨(327712) * 64 + 0, 15, 0⟩

/-- FAULT_REACH_SEL.CHIP, bits [14:0], WO (Table 19-8, R462). -/
def FAULT_REACH_SEL_CHIP : Fld := ⟨(327720) * 64 + 0, 15, 0⟩

/-- FAULT_REACH_RES.TICK, bits [63:32], RO (Table 19-8, R462). -/
def FAULT_REACH_RES_TICK : Fld := ⟨(327728) * 64 + 32, 32, 0⟩

/-- FAULT_REACH_RES.HOW, bits [3:2], RO (Table 19-8, R462). -/
def FAULT_REACH_RES_HOW : Fld := ⟨(327728) * 64 + 2, 2, 0⟩

/-- FAULT_REACH_RES.STATE, bits [1:0], RO (Table 19-8, R462). -/
def FAULT_REACH_RES_STATE : Fld := ⟨(327728) * 64 + 0, 2, 0⟩

/-- FAULT_LOG_SEL.INDEX, bits [9:0], WO (Table 19-8, R462). -/
def FAULT_LOG_SEL_INDEX : Fld := ⟨(327736) * 64 + 0, 10, 0⟩

/-- FAULT_LOG_RES0.ADDR, bits [63:0], RO (Table 19-8, R462). -/
def FAULT_LOG_RES0_ADDR : Fld := ⟨(327744) * 64 + 0, 64, 0⟩

/-- FAULT_LOG_RES1.TICK, bits [63:32], RO (Table 19-8, R462). -/
def FAULT_LOG_RES1_TICK : Fld := ⟨(327752) * 64 + 32, 32, 0⟩

/-- FAULT_LOG_RES1.PARTITION, bits [31:20], RO (Table 19-8, R462). -/
def FAULT_LOG_RES1_PARTITION : Fld := ⟨(327752) * 64 + 20, 12, 0⟩

/-- FAULT_LOG_RES1.CODE, bits [19:12], RO (Table 19-8, R462). -/
def FAULT_LOG_RES1_CODE : Fld := ⟨(327752) * 64 + 12, 8, 0⟩

/-- FAULT_LOG_RES1.EVENT, bits [11:4], RO (Table 19-8, R462). -/
def FAULT_LOG_RES1_EVENT : Fld := ⟨(327752) * 64 + 4, 8, 0⟩

/-- TELE_CTL.STREAM_MASK, bits [63:48], RW (Table 19-12, R462). -/
def TELE_CTL_STREAM_MASK : Fld := ⟨(393216) * 64 + 48, 16, 0⟩

/-- TELE_CTL.SAMPLE_NS, bits [47:32], RW (Table 19-12, R462). -/
def TELE_CTL_SAMPLE_NS : Fld := ⟨(393216) * 64 + 32, 16, 1000⟩

/-- TELE_CTL.INTERVAL_MS, bits [31:16], RW (Table 19-12, R462). -/
def TELE_CTL_INTERVAL_MS : Fld := ⟨(393216) * 64 + 16, 16, 1000⟩

/-- TELE_CTL.DEST, bits [5:4], RW (Table 19-12, R462). -/
def TELE_CTL_DEST : Fld := ⟨(393216) * 64 + 4, 2, 0⟩

/-- TELE_CTL.EVENTS_EN, bits [1:1], RW (Table 19-12, R462). -/
def TELE_CTL_EVENTS_EN : Fld := ⟨(393216) * 64 + 1, 1, 1⟩

/-- TELE_CTL.STREAM_EN, bits [0:0], RW (Table 19-12, R462). -/
def TELE_CTL_STREAM_EN : Fld := ⟨(393216) * 64 + 0, 1, 0⟩

/-- TELE_SNAP.CLEAR_PORTS, bits [17:17], WO (Table 19-12, R462). -/
def TELE_SNAP_CLEAR_PORTS : Fld := ⟨(393224) * 64 + 17, 1, 0⟩

/-- TELE_SNAP.PORTS, bits [16:16], WO (Table 19-12, R462). -/
def TELE_SNAP_PORTS : Fld := ⟨(393224) * 64 + 16, 1, 0⟩

/-- TELE_SNAP.HIST, bits [15:0], WO (Table 19-12, R462). -/
def TELE_SNAP_HIST : Fld := ⟨(393224) * 64 + 0, 16, 0⟩

/-- TELE_STAT.SEQ, bits [63:32], HWU (Table 19-12, R462). -/
def TELE_STAT_SEQ : Fld := ⟨(393232) * 64 + 32, 32, 0⟩

/-- TELE_STAT.REFUSED, bits [0:0], W1C (Table 19-12, R462). -/
def TELE_STAT_REFUSED : Fld := ⟨(393232) * 64 + 0, 1, 0⟩

/-- TELE_PORT_TICK.TICK, bits [63:0], HWU (Table 19-12, R462). -/
def TELE_PORT_TICK_TICK : Fld := ⟨(393240) * 64 + 0, 64, 0⟩

/-- TELE_HCFG.FILTER_KIND, bits [29:28], RW (Table 19-13, R462). -/
def TELE_HCFG_FILTER_KIND (i : Nat) : Fld := ⟨(397312 + i * 1024) * 64 + 28, 2, 0⟩

/-- TELE_HCFG.FILTER_VALUE, bits [27:16], RW (Table 19-13, R462). -/
def TELE_HCFG_FILTER_VALUE (i : Nat) : Fld := ⟨(397312 + i * 1024) * 64 + 16, 12, 0⟩

/-- TELE_HCFG.SOURCE, bits [5:0], RW (Table 19-13, R462). -/
def TELE_HCFG_SOURCE (i : Nat) : Fld := ⟨(397312 + i * 1024) * 64 + 0, 6, 0⟩

/-- TELE_HCOUNT.COUNT, bits [63:0], HWU (Table 19-13, R462). -/
def TELE_HCOUNT_COUNT (i : Nat) : Fld := ⟨(397320 + i * 1024) * 64 + 0, 64, 0⟩

/-- TELE_HMIN.MIN, bits [63:0], HWU (Table 19-13, R462). -/
def TELE_HMIN_MIN (i : Nat) : Fld := ⟨(397328 + i * 1024) * 64 + 0, 64, 18446744073709551615⟩

/-- TELE_HMAX.MAX, bits [63:0], HWU (Table 19-13, R462). -/
def TELE_HMAX_MAX (i : Nat) : Fld := ⟨(397336 + i * 1024) * 64 + 0, 64, 0⟩

/-- TELE_HTICK.TICK, bits [63:0], HWU (Table 19-13, R462). -/
def TELE_HTICK_TICK (i : Nat) : Fld := ⟨(397344 + i * 1024) * 64 + 0, 64, 0⟩

/-- TELE_HBIN.COUNT, bits [31:0], HWU (Table 19-13, R462). -/
def TELE_HBIN_COUNT (i : Nat) (j : Nat) : Fld := ⟨(397568 + i * 1024 + j * 8) * 64 + 0, 32, 0⟩

/-- GLB_ID.VENDOR, bits [63:48], RO (Table 20-3, R472). -/
def GLB_ID_VENDOR : Fld := ⟨(0) * 64 + 48, 16, 17997⟩

/-- GLB_ID.DEVICE, bits [47:32], RO (Table 20-3, R472). -/
def GLB_ID_DEVICE : Fld := ⟨(0) * 64 + 32, 16, 21255⟩

/-- GLB_ID.STEPPING, bits [31:24], RO (Table 20-3, R472). -/
def GLB_ID_STEPPING : Fld := ⟨(0) * 64 + 24, 8, 0⟩

/-- GLB_ID.LEX_VERSION, bits [23:16], RO (Table 20-3, R472). -/
def GLB_ID_LEX_VERSION : Fld := ⟨(0) * 64 + 16, 8, 1⟩

/-- GLB_STAT.CHIP, bits [46:32], HWU (Table 20-3, R472). -/
def GLB_STAT_CHIP : Fld := ⟨(8) * 64 + 32, 15, 0⟩

/-- GLB_STAT.PLANES, bits [21:16], HWU (Table 20-3, R472). -/
def GLB_STAT_PLANES : Fld := ⟨(8) * 64 + 16, 6, 0⟩

/-- GLB_STAT.FABRIC_READY, bits [7:7], HWU (Table 20-3, R472). -/
def GLB_STAT_FABRIC_READY : Fld := ⟨(8) * 64 + 7, 1, 0⟩

/-- GLB_STAT.FATAL, bits [6:6], HWU (Table 20-3, R472). -/
def GLB_STAT_FATAL : Fld := ⟨(8) * 64 + 6, 1, 0⟩

/-- GLB_STAT.FROZEN, bits [5:5], HWU (Table 20-3, R472). -/
def GLB_STAT_FROZEN : Fld := ⟨(8) * 64 + 5, 1, 0⟩

/-- GLB_STAT.BRAKE, bits [4:4], HWU (Table 20-3, R472). -/
def GLB_STAT_BRAKE : Fld := ⟨(8) * 64 + 4, 1, 0⟩

/-- GLB_STAT.MODE_PENDING, bits [3:3], HWU (Table 20-3, R472). -/
def GLB_STAT_MODE_PENDING : Fld := ⟨(8) * 64 + 3, 1, 0⟩

/-- GLB_STAT.BOOT_STATE, bits [2:0], HWU (Table 20-3, R472). -/
def GLB_STAT_BOOT_STATE : Fld := ⟨(8) * 64 + 0, 3, 0⟩

/-- GLB_LOCK.DENIED, bits [63:32], W1C (Table 20-4, R472). -/
def GLB_LOCK_DENIED : Fld := ⟨(16) * 64 + 32, 32, 0⟩

/-- GLB_LOCK.LOCKED, bits [0:0], HWU (Table 20-4, R472). -/
def GLB_LOCK_LOCKED : Fld := ⟨(16) * 64 + 0, 1, 0⟩

/-- GLB_RSVD.COUNT, bits [63:32], W1C (Table 20-4, R472). -/
def GLB_RSVD_COUNT : Fld := ⟨(24) * 64 + 32, 32, 0⟩

/-- GLB_RSVD.LAST_ADDR, bits [24:0], HWU (Table 20-4, R472). -/
def GLB_RSVD_LAST_ADDR : Fld := ⟨(24) * 64 + 0, 25, 0⟩

/-- GLB_SCRATCH.VALUE, bits [63:0], RWS (Table 20-4, R472). -/
def GLB_SCRATCH_VALUE (i : Nat) : Fld := ⟨(32 + i * 8) * 64 + 0, 64, 0⟩

/-- GLB_MGMT_CTL.UDP_PORT, bits [31:16], RWL (Table 20-5, R472). -/
def GLB_MGMT_CTL_UDP_PORT : Fld := ⟨(64) * 64 + 16, 16, 7460⟩

/-- GLB_MGMT_CTL.EN_1, bits [1:1], RWL (Table 20-5, R472). -/
def GLB_MGMT_CTL_EN_1 : Fld := ⟨(64) * 64 + 1, 1, 1⟩

/-- GLB_MGMT_CTL.EN_0, bits [0:0], RWL (Table 20-5, R472). -/
def GLB_MGMT_CTL_EN_0 : Fld := ⟨(64) * 64 + 0, 1, 1⟩

/-- GLB_MGMT_ADDR.PEER_IP, bits [63:32], RWL (Table 20-5, R472). -/
def GLB_MGMT_ADDR_PEER_IP (i : Nat) : Fld := ⟨(72 + i * 8) * 64 + 32, 32, 0⟩

/-- GLB_MGMT_ADDR.OWN_IP, bits [31:0], RWL (Table 20-5, R472). -/
def GLB_MGMT_ADDR_OWN_IP (i : Nat) : Fld := ⟨(72 + i * 8) * 64 + 0, 32, 0⟩

/-- GLB_MGMT_STAT.DROP_1, bits [63:48], W1C (Table 20-5, R472). -/
def GLB_MGMT_STAT_DROP_1 : Fld := ⟨(88) * 64 + 48, 16, 0⟩

/-- GLB_MGMT_STAT.DROP_0, bits [47:32], W1C (Table 20-5, R472). -/
def GLB_MGMT_STAT_DROP_0 : Fld := ⟨(88) * 64 + 32, 16, 0⟩

/-- GLB_MGMT_STAT.UP_1, bits [3:3], HWU (Table 20-5, R472). -/
def GLB_MGMT_STAT_UP_1 : Fld := ⟨(88) * 64 + 3, 1, 0⟩

/-- GLB_MGMT_STAT.UP_0, bits [2:2], HWU (Table 20-5, R472). -/
def GLB_MGMT_STAT_UP_0 : Fld := ⟨(88) * 64 + 2, 1, 0⟩

/-- TELE_SHADOW_FRAMES.OUT, bits [63:32], RO (Table 12-9, R459). -/
def TELE_SHADOW_FRAMES_OUT (i : Nat) : Fld := ⟨(425984 + i * 64) * 64 + 32, 32, 0⟩

/-- TELE_SHADOW_FRAMES.IN, bits [31:0], RO (Table 12-9, R459). -/
def TELE_SHADOW_FRAMES_IN (i : Nat) : Fld := ⟨(425984 + i * 64) * 64 + 0, 32, 0⟩

/-- TELE_SHADOW_BYTES_IN.BYTES, bits [63:0], RO (Table 12-9, R459). -/
def TELE_SHADOW_BYTES_IN_BYTES (i : Nat) : Fld := ⟨(425992 + i * 64) * 64 + 0, 64, 0⟩

/-- TELE_SHADOW_BYTES_OUT.BYTES, bits [63:0], RO (Table 12-9, R459). -/
def TELE_SHADOW_BYTES_OUT_BYTES (i : Nat) : Fld := ⟨(426000 + i * 64) * 64 + 0, 64, 0⟩

/-- TELE_SHADOW_ERR.HCRC, bits [63:48], RO (Table 12-9, R459). -/
def TELE_SHADOW_ERR_HCRC (i : Nat) : Fld := ⟨(426008 + i * 64) * 64 + 48, 16, 0⟩

/-- TELE_SHADOW_ERR.CRC, bits [47:32], RO (Table 12-9, R459). -/
def TELE_SHADOW_ERR_CRC (i : Nat) : Fld := ⟨(426008 + i * 64) * 64 + 32, 16, 0⟩

/-- TELE_SHADOW_ERR.STOMP, bits [31:16], RO (Table 12-9, R459). -/
def TELE_SHADOW_ERR_STOMP (i : Nat) : Fld := ⟨(426008 + i * 64) * 64 + 16, 16, 0⟩

/-- TELE_SHADOW_ERR.CHECK, bits [15:0], RO (Table 12-9, R459). -/
def TELE_SHADOW_ERR_CHECK (i : Nat) : Fld := ⟨(426008 + i * 64) * 64 + 0, 16, 0⟩

/-- TELE_SHADOW_RETRY.RESENT, bits [63:32], RO (Table 12-9, R459). -/
def TELE_SHADOW_RETRY_RESENT (i : Nat) : Fld := ⟨(426016 + i * 64) * 64 + 32, 32, 0⟩

/-- TELE_SHADOW_RETRY.NACKED, bits [31:0], RO (Table 12-9, R459). -/
def TELE_SHADOW_RETRY_NACKED (i : Nat) : Fld := ⟨(426016 + i * 64) * 64 + 0, 32, 0⟩

/-- TELE_SHADOW_DEPTH.PEAK, bits [51:32], RO (Table 12-9, R459). -/
def TELE_SHADOW_DEPTH_PEAK (i : Nat) : Fld := ⟨(426024 + i * 64) * 64 + 32, 20, 0⟩

/-- TELE_SHADOW_DEPTH.CELLS, bits [19:0], RO (Table 12-9, R459). -/
def TELE_SHADOW_DEPTH_CELLS (i : Nat) : Fld := ⟨(426024 + i * 64) * 64 + 0, 20, 0⟩

/-- TELE_SHADOW_STALL.CYCLES, bits [63:0], RO (Table 12-9, R459). -/
def TELE_SHADOW_STALL_CYCLES (i : Nat) : Fld := ⟨(426032 + i * 64) * 64 + 0, 64, 0⟩

end R

/-- Registers, part 0. -/
def regTable0 : List RegDesc := [
  ⟨"EDGE_PASID", 4751360, 32, 65536, 4096, 8, [⟨"VALID", 31, 31, .RW, fun _ => 0, 0, 1⟩,
    ⟨"PARTITION", 27, 16, .RW, fun _ => 0, 0, 4095⟩,
    ⟨"VIEW_EN", 10, 8, .RW, fun _ => 0, 0, 7⟩,
    ⟨"ATOMIC", 2, 2, .RW, fun _ => 0, 0, 1⟩,
    ⟨"WRITE", 1, 1, .RW, fun _ => 0, 0, 1⟩,
    ⟨"READ", 0, 0, .RW, fun _ => 0, 0, 1⟩]⟩,
  ⟨"XLAT_APERTURE", 786432, 1, 0, 1, 0, [⟨"BASE", 63, 54, .RWL, fun _ => 0, 0, 1023⟩]⟩,
  ⟨"XLAT_PM_STAT", 786440, 1, 0, 1, 0, [⟨"USED", 22, 0, .HWU, fun _ => 0, 0, 8388607⟩]⟩,
  ⟨"XLAT_PM_FULL", 786448, 1, 0, 1, 0, [⟨"LAST_SET", 49, 32, .HWU, fun _ => 0, 0, 262143⟩,
    ⟨"COUNT", 31, 0, .W1C, fun _ => 0, 0, 4294967295⟩]⟩,
  ⟨"XLAT_PM_PROBE", 786456, 1, 0, 1, 0, [⟨"PARTITION", 42, 31, .WO, fun _ => 0, 0, 4095⟩,
    ⟨"FVA_PAGE", 30, 0, .WO, fun _ => 0, 0, 2147483647⟩]⟩,
  ⟨"XLAT_PM_PROBE_RES", 786464, 1, 0, 1, 0, [⟨"HIT", 39, 39, .RO, fun _ => 0, 0, 1⟩,
    ⟨"WAY", 38, 35, .RO, fun _ => 0, 0, 15⟩,
    ⟨"USED", 34, 30, .RO, fun _ => 0, 0, 31⟩,
    ⟨"SET", 17, 0, .RO, fun _ => 0, 0, 262143⟩]⟩,
  ⟨"XLAT_WIN_STAT", 786472, 1, 0, 1, 0, [⟨"USED", 16, 0, .HWU, fun _ => 0, 0, 131071⟩]⟩,
  ⟨"XLAT_FB_CTL", 786480, 1, 0, 1, 0, [⟨"PARK_TIMEOUT", 41, 32, .RWL, fun _ => 100, 1, 1000⟩,
    ⟨"LINK", 29, 28, .RW, fun _ => 0, 0, 3⟩,
    ⟨"BATCH_TIMEOUT", 25, 16, .RWL, fun _ => 20, 1, 1000⟩,
    ⟨"BATCH_MAX", 8, 0, .RWL, fun _ => 256, 1, 256⟩]⟩,
  ⟨"XLAT_FB_STAT", 786488, 1, 0, 1, 0, [⟨"RECORDS", 46, 32, .HWU, fun _ => 0, 0, 32767⟩,
    ⟨"OPEN", 24, 16, .HWU, fun _ => 0, 0, 511⟩,
    ⟨"PARKED", 13, 0, .HWU, fun _ => 0, 0, 16383⟩]⟩,
  ⟨"XLAT_FB_COUNT", 786496, 1, 0, 1, 0, [⟨"BATCHES", 63, 32, .W1C, fun _ => 0, 0, 4294967295⟩,
    ⟨"TIMEOUTS", 31, 0, .W1C, fun _ => 0, 0, 4294967295⟩]⟩,
  ⟨"XLAT_DMISS_INFO", 786504, 1, 0, 1, 0, [⟨"COUNT", 63, 32, .W1C, fun _ => 0, 0, 4294967295⟩,
    ⟨"PARTITION", 19, 8, .HWU, fun _ => 0, 0, 4095⟩,
    ⟨"PORT", 4, 0, .HWU, fun _ => 0, 0, 31⟩]⟩,
  ⟨"XLAT_DMISS_FVA", 786512, 1, 0, 1, 0, [⟨"FVA", 51, 0, .HWU, fun _ => 0, 0, 4503599627370495⟩]⟩]

/-- Registers, part 1. -/
def regTable1 : List RegDesc := [
  ⟨"XLAT_WD_STAT", 786520, 1, 0, 1, 0, [⟨"PENDING", 42, 32, .HWU, fun _ => 0, 0, 2047⟩,
    ⟨"REFUSED", 31, 0, .W1C, fun _ => 0, 0, 4294967295⟩]⟩,
  ⟨"XLAT_TENSE", 790528, 4096, 8, 1, 0, [⟨"PENDING_WD", 26, 16, .HWU, fun _ => 0, 0, 2047⟩,
    ⟨"OLDEST_AGE", 14, 8, .HWU, fun _ => 0, 0, 127⟩,
    ⟨"TENSE", 7, 0, .HWU, fun _ => 0, 0, 255⟩]⟩,
  ⟨"TILE_INFO", 1048576, 50, 65536, 1, 0, [⟨"FUSED", 16, 16, .RO, fun _ => 0, 0, 1⟩,
    ⟨"LOGICAL", 15, 8, .RO, fun _ => 0, 0, 255⟩,
    ⟨"PHYSICAL", 5, 0, .RO, fun i => i, 0, 63⟩]⟩,
  ⟨"TILE_CTL", 1048584, 50, 65536, 1, 0, [⟨"ENABLE", 0, 0, .RW, fun _ => 1, 0, 1⟩]⟩,
  ⟨"TILE_STAT", 1048592, 50, 65536, 1, 0, [⟨"CONTEXTS", 34, 32, .HWU, fun _ => 0, 0, 7⟩,
    ⟨"STREAMS", 25, 16, .HWU, fun _ => 0, 0, 1023⟩,
    ⟨"REFUSED", 3, 3, .W1C, fun _ => 0, 0, 1⟩,
    ⟨"STATE", 2, 0, .HWU, fun _ => 0, 0, 7⟩]⟩,
  ⟨"TILE_ECC", 1048600, 50, 65536, 1, 0, [⟨"STORE_UE", 63, 48, .W1C, fun _ => 0, 0, 65535⟩,
    ⟨"STORE_CE", 47, 32, .W1C, fun _ => 0, 0, 65535⟩,
    ⟨"L1_UE", 31, 16, .W1C, fun _ => 0, 0, 65535⟩,
    ⟨"L1_CE", 15, 0, .W1C, fun _ => 0, 0, 65535⟩]⟩,
  ⟨"TILE_EXC", 1048608, 50, 65536, 1, 0, [⟨"COUNT", 63, 32, .W1C, fun _ => 0, 0, 4294967295⟩,
    ⟨"LAST_PART", 31, 20, .HWU, fun _ => 0, 0, 4095⟩,
    ⟨"LAST_CTX", 17, 16, .HWU, fun _ => 0, 0, 3⟩,
    ⟨"LAST_CODE", 7, 0, .HWU, fun _ => 0, 0, 255⟩]⟩,
  ⟨"XLAT_CONTROL", 786528, 1, 0, 1, 0, [⟨"BASE", 63, 28, .RWL, fun _ => 0, 0, 68719476735⟩]⟩,
  ⟨"QPAGE_SQ", 4294967296, 32768, 4096, 1, 0, [⟨"HEAD", 63, 32, .HWU, fun _ => 0, 0, 4294967295⟩,
    ⟨"TAIL", 31, 0, .RW, fun _ => 0, 0, 4294967295⟩]⟩,
  ⟨"QPAGE_CQ", 4294967304, 32768, 4096, 1, 0, [⟨"TAIL", 63, 32, .HWU, fun _ => 0, 0, 4294967295⟩,
    ⟨"HEAD", 31, 0, .RW, fun _ => 0, 0, 4294967295⟩]⟩,
  ⟨"QPAGE_STATUS", 4294967312, 32768, 4096, 1, 0, [⟨"LOST", 47, 32, .HWU, fun _ => 0, 0, 65535⟩,
    ⟨"PARTITION", 31, 20, .HWU, fun _ => 0, 0, 4095⟩,
    ⟨"FEED", 16, 16, .HWU, fun _ => 0, 0, 1⟩,
    ⟨"ERR", 15, 8, .HWU, fun _ => 0, 0, 255⟩,
    ⟨"STATE", 1, 0, .HWU, fun _ => 0, 0, 3⟩]⟩,
  ⟨"QPAGE_FAULT_FVA", 4294967320, 32768, 4096, 1, 0, [⟨"FVA", 51, 0, .HWU, fun _ => 0, 0, 4503599627370495⟩]⟩]

/-- Registers, part 2. -/
def regTable2 : List RegDesc := [
  ⟨"CONJ_CTL", 917504, 1, 0, 1, 0, [⟨"ROT_PTU", 35, 32, .RWL, fun _ => 0, 0, 15⟩,
    ⟨"STALL_US", 19, 0, .RWL, fun _ => 5000, 100, 1000000⟩]⟩,
  ⟨"CONJ_STAT", 917512, 1, 0, 1, 0, [⟨"INSTANCES", 46, 32, .HWU, fun _ => 0, 0, 32767⟩,
    ⟨"SPILL_FRAMES", 29, 16, .HWU, fun _ => 0, 0, 16383⟩,
    ⟨"FREE", 13, 0, .HWU, fun _ => 12288, 0, 16383⟩]⟩,
  ⟨"CONJ_COUNT", 917520, 1, 0, 1, 0, [⟨"ABORTS", 63, 32, .W1C, fun _ => 0, 0, 4294967295⟩,
    ⟨"CHECK_FAILS", 31, 0, .W1C, fun _ => 0, 0, 4294967295⟩]⟩,
  ⟨"CONJ_GROUP_SEL", 917528, 1, 0, 1, 0, [⟨"GROUP", 13, 0, .WO, fun _ => 0, 0, 16383⟩]⟩,
  ⟨"CONJ_GROUP_RES", 917536, 1, 0, 1, 0, [⟨"INSTANCE", 63, 48, .RO, fun _ => 0, 0, 65535⟩,
    ⟨"CAUSE", 47, 40, .RO, fun _ => 0, 0, 255⟩,
    ⟨"GENERATION", 39, 36, .RO, fun _ => 0, 0, 15⟩,
    ⟨"STATE", 33, 32, .RO, fun _ => 0, 0, 3⟩,
    ⟨"PARTITION", 27, 16, .RO, fun _ => 0, 0, 4095⟩,
    ⟨"SLOTS", 12, 0, .RO, fun _ => 0, 0, 8191⟩]⟩,
  ⟨"CONJ_PART", 950272, 4096, 8, 1, 0, [⟨"SPILL_USED", 61, 48, .HWU, fun _ => 0, 0, 16383⟩,
    ⟨"SPILL_QUOTA", 45, 32, .HWU, fun _ => 0, 0, 16383⟩,
    ⟨"USED", 29, 16, .HWU, fun _ => 0, 0, 16383⟩,
    ⟨"QUOTA", 13, 0, .HWU, fun _ => 0, 0, 16383⟩]⟩,
  ⟨"PARSER_CTL", 851968, 1, 0, 1, 0, [⟨"RESIDENCY", 39, 36, .RWL, fun _ => 4, 1, 15⟩,
    ⟨"WARMUP", 35, 32, .RWL, fun _ => 3, 0, 15⟩,
    ⟨"FD_LEVEL", 29, 28, .RWL, fun _ => 0, 0, 3⟩,
    ⟨"MOVES_MAX", 27, 20, .RW, fun _ => 64, 0, 255⟩,
    ⟨"EPOCH_MS", 13, 4, .RWL, fun _ => 10, 1, 1000⟩,
    ⟨"REMOTE_EXEC_EN", 3, 3, .RW, fun _ => 1, 0, 1⟩,
    ⟨"REHOME_EN", 2, 2, .RW, fun _ => 1, 0, 1⟩,
    ⟨"REPLICATE_EN", 1, 1, .RW, fun _ => 1, 0, 1⟩,
    ⟨"MIGRATE_EN", 0, 0, .RW, fun _ => 1, 0, 1⟩]⟩,
  ⟨"PARSER_THRESH", 851976, 1, 0, 1, 0, [⟨"REHOME", 63, 48, .RW, fun _ => 8192, 0, 65535⟩,
    ⟨"REPLICATE", 47, 32, .RW, fun _ => 2048, 0, 65535⟩,
    ⟨"DEMOTE", 31, 16, .RW, fun _ => 512, 0, 65535⟩,
    ⟨"PROMOTE", 15, 0, .RW, fun _ => 4096, 0, 65535⟩]⟩,
  ⟨"PARSER_LIMITS", 851984, 1, 0, 1, 0, [⟨"PLANE_HI", 39, 32, .RW, fun _ => 85, 1, 100⟩,
    ⟨"PLANE_LO", 31, 24, .RW, fun _ => 50, 0, 99⟩,
    ⟨"REMOTE_MIN", 23, 16, .RW, fun _ => 4, 1, 255⟩,
    ⟨"NEAR_RESERVE", 15, 0, .RW, fun _ => 1024, 0, 65535⟩]⟩,
  ⟨"PARSER_STAT", 851992, 1, 0, 1, 0, [⟨"EPOCH", 63, 32, .HWU, fun _ => 0, 0, 4294967295⟩,
    ⟨"MIGRATING", 27, 24, .HWU, fun _ => 0, 0, 15⟩,
    ⟨"SUPPRESSED", 16, 16, .HWU, fun _ => 0, 0, 1⟩,
    ⟨"DIR_USED", 15, 0, .HWU, fun _ => 0, 0, 65535⟩]⟩,
  ⟨"PARSER_REPL", 852000, 1, 0, 1, 0, [⟨"HELD", 46, 32, .HWU, fun _ => 0, 0, 32767⟩,
    ⟨"INVALS", 31, 0, .W1C, fun _ => 0, 0, 4294967295⟩]⟩,
  ⟨"PARSER_COUNT", 852008, 1, 0, 1, 0, [⟨"MIGRATIONS", 63, 32, .W1C, fun _ => 0, 0, 4294967295⟩,
    ⟨"ABANDONED", 31, 0, .W1C, fun _ => 0, 0, 4294967295⟩]⟩]

/-- Registers, part 3. -/
def regTable3 : List RegDesc := [
  ⟨"PARSER_PROBE", 852016, 1, 0, 1, 0, [⟨"PARTITION", 42, 31, .WO, fun _ => 0, 0, 4095⟩,
    ⟨"FVA_PAGE", 30, 0, .WO, fun _ => 0, 0, 2147483647⟩]⟩,
  ⟨"PARSER_PROBE_RES", 852024, 1, 0, 1, 0, [⟨"HEAT", 63, 48, .RO, fun _ => 0, 0, 65535⟩,
    ⟨"WHEAT", 47, 32, .RO, fun _ => 0, 0, 65535⟩,
    ⟨"TOP_CHIP", 31, 17, .RO, fun _ => 0, 0, 32767⟩,
    ⟨"HOLD_EPOCHS", 16, 13, .RO, fun _ => 0, 0, 15⟩,
    ⟨"REPLICAS", 12, 11, .RO, fun _ => 0, 0, 3⟩,
    ⟨"MIGRATING", 10, 10, .RO, fun _ => 0, 0, 1⟩,
    ⟨"HOME", 9, 9, .RO, fun _ => 0, 0, 1⟩,
    ⟨"HIT", 8, 8, .RO, fun _ => 0, 0, 1⟩]⟩,
  ⟨"PARSER_PLANES", 852032, 1, 0, 1, 0, [⟨"EXCLUDE", 63, 32, .RW, fun _ => 0, 0, 4294967295⟩,
    ⟨"BULK", 31, 0, .HWU, fun _ => 0, 0, 4294967295⟩]⟩,
  ⟨"PARSER_PART", 884736, 4096, 8, 1, 0, [⟨"NEAR_USED", 48, 32, .HWU, fun _ => 0, 0, 131071⟩,
    ⟨"NO_REMOTE_EXEC", 2, 2, .RW, fun _ => 0, 0, 1⟩,
    ⟨"NO_REPLICATE", 1, 1, .RW, fun _ => 0, 0, 1⟩,
    ⟨"NO_MIGRATE", 0, 0, .RW, fun _ => 0, 0, 1⟩]⟩,
  ⟨"PTU_CTL", 4325376, 4, 65536, 1, 0, [⟨"CAL_MS", 25, 16, .RWL, fun _ => 100, 10, 1000⟩,
    ⟨"ENABLE", 0, 0, .RW, fun _ => 1, 0, 1⟩]⟩,
  ⟨"PTU_STAT", 4325384, 4, 65536, 1, 0, [⟨"WAITING", 31, 16, .HWU, fun _ => 0, 0, 65535⟩,
    ⟨"CARRIER", 7, 7, .HWU, fun _ => 0, 0, 1⟩,
    ⟨"LOADED", 6, 6, .HWU, fun _ => 0, 0, 1⟩,
    ⟨"MODE", 5, 5, .HWU, fun _ => 0, 0, 1⟩,
    ⟨"ROTATION", 4, 4, .HWU, fun _ => 0, 0, 1⟩,
    ⟨"REFUSED", 3, 3, .W1C, fun _ => 0, 0, 1⟩,
    ⟨"STATE", 2, 0, .HWU, fun _ => 0, 0, 7⟩]⟩,
  ⟨"PTU_COUNT", 4325392, 4, 65536, 1, 0, [⟨"PILOT_FAILS", 63, 32, .W1C, fun _ => 0, 0, 4294967295⟩,
    ⟨"RECALS", 31, 0, .W1C, fun _ => 0, 0, 4294967295⟩]⟩,
  ⟨"PTU_VECTORS", 4325400, 4, 65536, 1, 0, [⟨"VECTORS", 63, 0, .HWU, fun _ => 0, 0, 18446744073709551615⟩]⟩,
  ⟨"SWC_CTL", 983040, 1, 0, 1, 0, [⟨"NONMIN_CELLS", 63, 48, .RWL, fun _ => 2048, 0, 65535⟩,
    ⟨"RETRY_MAX", 47, 40, .RWL, fun _ => 8, 1, 255⟩,
    ⟨"RETRY_NS", 39, 24, .RWL, fun _ => 4000, 500, 65535⟩,
    ⟨"ESC_WAIT", 23, 8, .RWL, fun _ => 256, 16, 65535⟩,
    ⟨"NONMIN_EN", 1, 1, .RW, fun _ => 1, 0, 1⟩,
    ⟨"ADAPTIVE_EN", 0, 0, .RW, fun _ => 1, 0, 1⟩]⟩,
  ⟨"SWC_TC_WEIGHT", 983056, 1, 0, 1, 0, [⟨"WEIGHT_0", 7, 0, .RW, fun _ => 1, 1, 255⟩,
    ⟨"WEIGHT_1", 15, 8, .RW, fun _ => 1, 1, 255⟩,
    ⟨"WEIGHT_2", 23, 16, .RW, fun _ => 1, 1, 255⟩,
    ⟨"WEIGHT_3", 31, 24, .RW, fun _ => 1, 1, 255⟩,
    ⟨"WEIGHT_4", 39, 32, .RW, fun _ => 1, 1, 255⟩,
    ⟨"WEIGHT_5", 47, 40, .RW, fun _ => 1, 1, 255⟩,
    ⟨"WEIGHT_6", 55, 48, .RW, fun _ => 1, 1, 255⟩,
    ⟨"WEIGHT_7", 63, 56, .RW, fun _ => 1, 1, 255⟩]⟩,
  ⟨"SWC_POOL", 983048, 1, 0, 1, 0, [⟨"MIN_SHARED", 59, 40, .W1C, fun _ => 1048575, 0, 1048575⟩,
    ⟨"SHARED_FREE", 39, 20, .HWU, fun _ => 655360, 0, 1048575⟩,
    ⟨"FREE", 19, 0, .HWU, fun _ => 655360, 0, 1048575⟩]⟩,
  ⟨"SWC_LIMIT", 987136, 144, 48, 6, 8, [⟨"OMAX", 51, 32, .RWL, fun _ => 65536, 17, 655360⟩,
    ⟨"IRES", 15, 0, .RWL, fun _ => 0, 0, 65535⟩]⟩]

/-- Registers, part 4. -/
def regTable4 : List RegDesc := [
  ⟨"SWC_IMAX", 995328, 144, 8, 1, 0, [⟨"IMAX", 19, 0, .RWL, fun _ => 65536, 17, 655360⟩]⟩,
  ⟨"SWC_PORT_FRAMES", 1015808, 144, 64, 1, 0, [⟨"OUT", 63, 32, .W1C, fun _ => 0, 0, 4294967295⟩,
    ⟨"IN", 31, 0, .W1C, fun _ => 0, 0, 4294967295⟩]⟩,
  ⟨"SWC_PORT_BYTES_IN", 1015816, 144, 64, 1, 0, [⟨"BYTES", 63, 0, .W1C, fun _ => 0, 0, 18446744073709551615⟩]⟩,
  ⟨"SWC_PORT_BYTES_OUT", 1015824, 144, 64, 1, 0, [⟨"BYTES", 63, 0, .W1C, fun _ => 0, 0, 18446744073709551615⟩]⟩,
  ⟨"SWC_PORT_ERR", 1015832, 144, 64, 1, 0, [⟨"HCRC", 63, 48, .W1C, fun _ => 0, 0, 65535⟩,
    ⟨"CRC", 47, 32, .W1C, fun _ => 0, 0, 65535⟩,
    ⟨"STOMP", 31, 16, .W1C, fun _ => 0, 0, 65535⟩,
    ⟨"CHECK", 15, 0, .W1C, fun _ => 0, 0, 65535⟩]⟩,
  ⟨"SWC_PORT_RETRY", 1015840, 144, 64, 1, 0, [⟨"RESENT", 63, 32, .W1C, fun _ => 0, 0, 4294967295⟩,
    ⟨"NACKED", 31, 0, .W1C, fun _ => 0, 0, 4294967295⟩]⟩,
  ⟨"SWC_PORT_DEPTH", 1015848, 144, 64, 1, 0, [⟨"PEAK", 51, 32, .W1C, fun _ => 0, 0, 1048575⟩,
    ⟨"CELLS", 19, 0, .HWU, fun _ => 0, 0, 1048575⟩]⟩,
  ⟨"SWC_PORT_STALL", 1015856, 144, 64, 1, 0, [⟨"CYCLES", 63, 0, .W1C, fun _ => 0, 0, 18446744073709551615⟩]⟩,
  ⟨"OPT_CTL", 6815744, 32, 65536, 1, 0, [⟨"BURST_KIB", 54, 48, .RWL, fun _ => 16, 1, 64⟩,
    ⟨"KA", 45, 40, .RWL, fun _ => 20, 5, 50⟩,
    ⟨"LOSS_US", 39, 36, .RWL, fun _ => 8, 4, 8⟩,
    ⟨"LEND_IDLE_NS", 23, 8, .RWL, fun _ => 4000, 500, 65535⟩,
    ⟨"DRAIN", 0, 0, .RW, fun _ => 0, 0, 1⟩]⟩,
  ⟨"OPT_CREDIT", 6815760, 32, 65536, 1, 0, [⟨"LEND_MAX", 63, 48, .RWL, fun _ => 256, 0, 65535⟩,
    ⟨"STANDING_0", 7, 0, .RWL, fun _ => 1, 0, 255⟩,
    ⟨"STANDING_1", 15, 8, .RWL, fun _ => 1, 0, 255⟩,
    ⟨"STANDING_2", 23, 16, .RWL, fun _ => 0, 0, 255⟩,
    ⟨"STANDING_3", 31, 24, .RWL, fun _ => 0, 0, 255⟩,
    ⟨"STANDING_4", 39, 32, .RWL, fun _ => 0, 0, 255⟩,
    ⟨"STANDING_5", 47, 40, .RWL, fun _ => 0, 0, 255⟩]⟩,
  ⟨"OPT_STAT", 6815752, 32, 65536, 1, 0, [⟨"HOPS_UP", 39, 32, .HWU, fun _ => 0, 0, 255⟩,
    ⟨"TX_LOCKED", 31, 24, .HWU, fun _ => 0, 0, 255⟩,
    ⟨"RX_LOCKED", 23, 16, .HWU, fun _ => 0, 0, 255⟩,
    ⟨"LSM", 11, 8, .HWU, fun i => i / 4, 0, 15⟩,
    ⟨"REFUSED", 3, 3, .W1C, fun _ => 0, 0, 1⟩,
    ⟨"STATE", 2, 0, .HWU, fun _ => 0, 0, 7⟩]⟩,
  ⟨"OPT_COUNT", 6815768, 32, 65536, 1, 0, [⟨"LOCK_MISS", 63, 48, .W1C, fun _ => 0, 0, 65535⟩,
    ⟨"WRONG_LINE", 47, 32, .W1C, fun _ => 0, 0, 65535⟩,
    ⟨"LOSS", 31, 16, .W1C, fun _ => 0, 0, 65535⟩,
    ⟨"UNCORR", 15, 0, .W1C, fun _ => 0, 0, 65535⟩]⟩]

/-- Registers, part 5. -/
def regTable5 : List RegDesc := [
  ⟨"OPT_FEC", 6815776, 32, 65536, 1, 0, [⟨"CORRECTED", 63, 0, .W1C, fun _ => 0, 0, 18446744073709551615⟩]⟩,
  ⟨"OPT_TXLINE", 6819840, 32, 65536, 64, 8, [⟨"MARGIN", 63, 48, .HWU, fun _ => 0, 0, 65535⟩,
    ⟨"HEATER", 35, 24, .HWU, fun _ => 0, 0, 4095⟩,
    ⟨"STATE", 2, 0, .HWU, fun _ => 0, 0, 7⟩]⟩,
  ⟨"OPT_RXLINE", 6820352, 32, 65536, 64, 8, [⟨"POWER", 63, 48, .HWU, fun _ => 0, 0, 65535⟩,
    ⟨"HEATER", 35, 24, .HWU, fun _ => 0, 0, 4095⟩,
    ⟨"STATE", 2, 0, .HWU, fun _ => 0, 0, 7⟩]⟩,
  ⟨"LSM_CTL", 8912896, 10, 8, 1, 0, [⟨"RETIRE", 0, 0, .RW, fun _ => 0, 0, 1⟩]⟩,
  ⟨"LSM_STAT", 8913024, 10, 8, 1, 0, [⟨"HEADROOM", 63, 48, .HWU, fun _ => 0, 0, 65535⟩,
    ⟨"BIAS", 41, 32, .HWU, fun _ => 0, 0, 1023⟩,
    ⟨"BIAS_MAX", 25, 16, .HWU, fun _ => 0, 0, 1023⟩,
    ⟨"GROUP", 11, 8, .HWU, fun i => if i < 8 then i else 15, 0, 15⟩,
    ⟨"STATE", 2, 0, .HWU, fun _ => 0, 0, 7⟩]⟩,
  ⟨"LSM_CFG", 8913152, 1, 0, 1, 0, [⟨"RX_REQ", 63, 48, .RWL, fun _ => 65376, 0, 65535⟩,
    ⟨"MARGIN_LO", 47, 40, .RWL, fun _ => 20, 0, 255⟩,
    ⟨"MARGIN_MIN", 39, 32, .RWL, fun _ => 5, 0, 255⟩,
    ⟨"EVAL_MS", 25, 16, .RWL, fun _ => 100, 10, 1000⟩,
    ⟨"BIAS_STEP", 7, 0, .RWL, fun _ => 4, 1, 32⟩]⟩,
  ⟨"EDGE_CTL", 4718592, 32, 65536, 1, 0, [⟨"ENABLE", 0, 0, .RW, fun _ => 1, 0, 1⟩]⟩,
  ⟨"EDGE_STAT", 4718600, 32, 65536, 1, 0, [⟨"FRAMES", 51, 32, .HWU, fun _ => 0, 0, 1048575⟩,
    ⟨"FAR_UNIT", 25, 24, .HWU, fun _ => 0, 0, 3⟩,
    ⟨"SLOT", 23, 20, .HWU, fun _ => 0, 0, 15⟩,
    ⟨"ROLE", 19, 18, .HWU, fun _ => 0, 0, 3⟩,
    ⟨"RATE", 17, 16, .HWU, fun _ => 0, 0, 3⟩,
    ⟨"WIDTH", 15, 8, .HWU, fun _ => 0, 0, 255⟩,
    ⟨"IDE", 4, 4, .HWU, fun _ => 0, 0, 1⟩,
    ⟨"REFUSED", 3, 3, .W1C, fun _ => 0, 0, 1⟩,
    ⟨"STATE", 2, 0, .HWU, fun _ => 0, 0, 7⟩]⟩,
  ⟨"EDGE_ERR", 4718608, 32, 65536, 1, 0, [⟨"COUNT", 63, 32, .W1C, fun _ => 0, 0, 4294967295⟩,
    ⟨"LAST_PART", 31, 20, .HWU, fun _ => 0, 0, 4095⟩,
    ⟨"LAST_CODE", 15, 8, .HWU, fun _ => 0, 0, 255⟩]⟩,
  ⟨"EDGE_ERR_ADDR", 4718616, 32, 65536, 1, 0, [⟨"ADDR", 63, 0, .HWU, fun _ => 0, 0, 18446744073709551615⟩]⟩,
  ⟨"EDGE_CFG_ADDR", 4718624, 32, 65536, 1, 0, [⟨"WRITE", 15, 15, .WO, fun _ => 0, 0, 1⟩,
    ⟨"FUNC", 14, 12, .WO, fun _ => 0, 0, 7⟩,
    ⟨"REG", 11, 2, .WO, fun _ => 0, 0, 1023⟩]⟩,
  ⟨"EDGE_CFG_DATA", 4718632, 32, 65536, 1, 0, [⟨"ERR", 33, 33, .HWU, fun _ => 0, 0, 1⟩,
    ⟨"DONE", 32, 32, .HWU, fun _ => 1, 0, 1⟩,
    ⟨"DATA", 31, 0, .RW, fun _ => 0, 0, 4294967295⟩]⟩]

/-- Registers, part 6. -/
def regTable6 : List RegDesc := [
  ⟨"MEMP_STAT", 4653056, 4, 8, 1, 0, [⟨"FRAMES", 51, 32, .HWU, fun _ => 0, 0, 1048575⟩,
    ⟨"IDE", 3, 3, .HWU, fun _ => 0, 0, 1⟩,
    ⟨"STATE", 2, 0, .HWU, fun _ => 0, 0, 7⟩]⟩,
  ⟨"GDDR_CFG", 4587520, 1, 0, 1, 0, [⟨"DENSITY", 19, 18, .RWL, fun _ => 2, 0, 3⟩,
    ⟨"CLAMSHELL", 17, 17, .RWL, fun _ => 1, 0, 1⟩,
    ⟨"RETRAIN_MS", 15, 8, .RWL, fun _ => 100, 10, 255⟩,
    ⟨"RATE_FLOOR", 3, 2, .RWL, fun _ => 3, 0, 3⟩,
    ⟨"RATE_CEIL", 1, 0, .RWL, fun _ => 0, 0, 3⟩]⟩,
  ⟨"GDDR_STAT", 4587776, 16, 8, 1, 0, [⟨"POISON", 63, 48, .W1C, fun _ => 0, 0, 65535⟩,
    ⟨"CRC_RETRY", 47, 32, .W1C, fun _ => 0, 0, 65535⟩,
    ⟨"FRAMES", 31, 16, .HWU, fun _ => 0, 0, 65535⟩,
    ⟨"RATE", 3, 2, .HWU, fun _ => 0, 0, 3⟩,
    ⟨"STATE", 1, 0, .HWU, fun _ => 0, 0, 3⟩]⟩,
  ⟨"NELAR_CTL", 458752, 2, 32768, 1, 0, [⟨"REPLAY_MAX", 19, 16, .RWL, fun _ => 8, 1, 15⟩,
    ⟨"REPLAY_NS", 15, 8, .RWL, fun _ => 20, 5, 255⟩,
    ⟨"ENABLE", 0, 0, .RW, fun _ => 1, 0, 1⟩]⟩,
  ⟨"NELAR_STAT", 458760, 2, 32768, 1, 0, [⟨"LANES_LOCKED", 39, 32, .HWU, fun _ => 0, 0, 255⟩,
    ⟨"SKEW", 23, 16, .HWU, fun _ => 0, 0, 255⟩,
    ⟨"FAULT", 7, 6, .HWU, fun _ => 0, 0, 3⟩,
    ⟨"REVERSED", 5, 5, .HWU, fun _ => 0, 0, 1⟩,
    ⟨"REFUSED", 3, 3, .W1C, fun _ => 0, 0, 1⟩,
    ⟨"STATE", 2, 0, .HWU, fun _ => 0, 0, 7⟩]⟩,
  ⟨"NELAR_TXEQ", 458768, 2, 32768, 1, 0, [⟨"PRESET_0", 2, 0, .RWL, fun _ => 3, 0, 7⟩,
    ⟨"PRESET_1", 6, 4, .RWL, fun _ => 3, 0, 7⟩,
    ⟨"PRESET_2", 10, 8, .RWL, fun _ => 3, 0, 7⟩,
    ⟨"PRESET_3", 14, 12, .RWL, fun _ => 3, 0, 7⟩,
    ⟨"PRESET_4", 18, 16, .RWL, fun _ => 3, 0, 7⟩,
    ⟨"PRESET_5", 22, 20, .RWL, fun _ => 3, 0, 7⟩,
    ⟨"PRESET_6", 26, 24, .RWL, fun _ => 3, 0, 7⟩,
    ⟨"PRESET_7", 30, 28, .RWL, fun _ => 3, 0, 7⟩]⟩,
  ⟨"NELAR_COUNT", 458776, 2, 32768, 1, 0, [⟨"REPLAYS", 63, 48, .W1C, fun _ => 0, 0, 65535⟩,
    ⟨"CRC_FAIL", 47, 32, .W1C, fun _ => 0, 0, 65535⟩,
    ⟨"RETRAINS", 31, 16, .W1C, fun _ => 0, 0, 65535⟩,
    ⟨"STALE", 15, 0, .W1C, fun _ => 0, 0, 65535⟩]⟩,
  ⟨"NELAR_BIP", 458784, 2, 32768, 1, 0, [⟨"BIP_0", 7, 0, .W1C, fun _ => 0, 0, 255⟩,
    ⟨"BIP_1", 15, 8, .W1C, fun _ => 0, 0, 255⟩,
    ⟨"BIP_2", 23, 16, .W1C, fun _ => 0, 0, 255⟩,
    ⟨"BIP_3", 31, 24, .W1C, fun _ => 0, 0, 255⟩,
    ⟨"BIP_4", 39, 32, .W1C, fun _ => 0, 0, 255⟩,
    ⟨"BIP_5", 47, 40, .W1C, fun _ => 0, 0, 255⟩,
    ⟨"BIP_6", 55, 48, .W1C, fun _ => 0, 0, 255⟩,
    ⟨"BIP_7", 63, 56, .W1C, fun _ => 0, 0, 255⟩]⟩,
  ⟨"NELAR_CHIP", 459008, 1, 0, 1, 0, [⟨"RID_VALID", 33, 33, .HWU, fun _ => 0, 0, 1⟩,
    ⟨"NOTIFY", 32, 32, .RW, fun _ => 0, 0, 1⟩,
    ⟨"HIGH_RID", 31, 0, .HWU, fun _ => 0, 0, 4294967295⟩]⟩,
  ⟨"PART_STATE", 524288, 4096, 64, 1, 0, [⟨"KEY_EPOCH", 63, 32, .HWU, fun _ => 0, 0, 4294967295⟩,
    ⟨"TC", 10, 8, .HWU, fun _ => 0, 0, 7⟩,
    ⟨"STATE", 2, 0, .HWU, fun _ => 0, 0, 7⟩]⟩,
  ⟨"PART_QUEUES", 524296, 4096, 64, 1, 0, [⟨"QUEUE_COUNT", 47, 32, .HWU, fun _ => 0, 0, 65535⟩,
    ⟨"QUEUE_FIRST", 14, 0, .HWU, fun _ => 0, 0, 32767⟩]⟩,
  ⟨"PART_COUNTERS", 524304, 4096, 64, 1, 0, [⟨"CTR_COUNT", 50, 32, .HWU, fun _ => 0, 0, 524287⟩,
    ⟨"CTR_FIRST", 17, 0, .HWU, fun _ => 0, 0, 262143⟩]⟩]

/-- Registers, part 7. -/
def regTable7 : List RegDesc := [
  ⟨"PART_WINDOWS", 524312, 4096, 64, 1, 0, [⟨"WIN_COUNT", 39, 32, .HWU, fun _ => 0, 0, 255⟩,
    ⟨"WIN_FIRST", 15, 0, .HWU, fun _ => 0, 0, 65535⟩]⟩,
  ⟨"PART_MEM_QUOTA", 524320, 4096, 64, 1, 0, [⟨"FAR_QUOTA", 55, 32, .HWU, fun _ => 0, 0, 16777215⟩,
    ⟨"NEAR_QUOTA", 16, 0, .HWU, fun _ => 0, 0, 131071⟩]⟩,
  ⟨"PART_OUTSTANDING", 524328, 4096, 64, 1, 0, [⟨"QUOTA", 48, 32, .HWU, fun _ => 0, 0, 131071⟩,
    ⟨"USED", 16, 0, .HWU, fun _ => 0, 0, 131071⟩]⟩,
  ⟨"PART_FAR_USED", 524336, 4096, 64, 1, 0, [⟨"USED", 23, 0, .HWU, fun _ => 0, 0, 16777215⟩]⟩,
  ⟨"PART_VLOG", 524344, 4096, 64, 1, 0, [⟨"COUNT", 63, 32, .W1C, fun _ => 0, 0, 4294967295⟩,
    ⟨"ENTRIES", 4, 0, .HWU, fun _ => 0, 0, 31⟩]⟩,
  ⟨"SEC_STAT", 262144, 1, 0, 1, 0, [⟨"FW_SVN", 63, 32, .RO, fun _ => 0, 0, 4294967295⟩,
    ⟨"FROZEN", 7, 7, .HWU, fun _ => 0, 0, 1⟩,
    ⟨"DEBUG", 2, 0, .RO, fun _ => 0, 0, 7⟩]⟩,
  ⟨"SEC_SERIAL", 262152, 1, 0, 1, 0, [⟨"SERIAL", 63, 0, .RO, fun _ => 0, 0, 18446744073709551615⟩]⟩,
  ⟨"SEC_VLOG_SEL", 262160, 1, 0, 1, 0, [⟨"GLOBAL", 28, 28, .WO, fun _ => 0, 0, 1⟩,
    ⟨"PARTITION", 27, 16, .WO, fun _ => 0, 0, 4095⟩,
    ⟨"INDEX", 7, 0, .WO, fun _ => 0, 0, 255⟩]⟩,
  ⟨"SEC_VLOG_RES0", 262168, 1, 0, 1, 0, [⟨"ADDR", 63, 0, .RO, fun _ => 0, 0, 18446744073709551615⟩]⟩,
  ⟨"SEC_VLOG_RES1", 262176, 1, 0, 1, 0, [⟨"TICK", 63, 32, .RO, fun _ => 0, 0, 4294967295⟩,
    ⟨"PARTITION", 31, 20, .RO, fun _ => 0, 0, 4095⟩,
    ⟨"CODE", 19, 12, .RO, fun _ => 0, 0, 255⟩,
    ⟨"CLASS", 11, 8, .RO, fun _ => 0, 0, 15⟩,
    ⟨"SOURCE", 7, 0, .RO, fun _ => 0, 0, 255⟩]⟩,
  ⟨"SEC_GLOG", 262184, 1, 0, 1, 0, [⟨"COUNT", 63, 32, .W1C, fun _ => 0, 0, 4294967295⟩,
    ⟨"ENTRIES", 8, 0, .HWU, fun _ => 0, 0, 511⟩]⟩,
  ⟨"BOOT_STAT", 65536, 1, 0, 1, 0, [⟨"CAUSE1", 55, 52, .HWU, fun _ => 0, 0, 15⟩,
    ⟨"CAUSE0", 51, 48, .HWU, fun _ => 0, 0, 15⟩,
    ⟨"MODE", 47, 40, .HWU, fun _ => 255, 0, 255⟩,
    ⟨"MODE_PINS", 34, 32, .HWU, fun _ => 0, 0, 7⟩,
    ⟨"BANK", 7, 7, .HWU, fun _ => 0, 0, 1⟩,
    ⟨"FALLBACK", 6, 6, .HWU, fun _ => 0, 0, 1⟩,
    ⟨"POS_ERR", 5, 5, .HWU, fun _ => 0, 0, 1⟩,
    ⟨"WAIT_COOL", 4, 4, .HWU, fun _ => 0, 0, 1⟩,
    ⟨"MODE_PENDING", 3, 3, .HWU, fun _ => 0, 0, 1⟩,
    ⟨"STATE", 2, 0, .HWU, fun _ => 0, 0, 7⟩]⟩]

/-- Registers, part 8. -/
def regTable8 : List RegDesc := [
  ⟨"BOOT_POS", 65544, 1, 0, 1, 0, [⟨"POS_Z", 46, 44, .HWU, fun _ => 0, 0, 7⟩,
    ⟨"POS_Y", 43, 38, .HWU, fun _ => 0, 0, 63⟩,
    ⟨"POS_X", 37, 32, .HWU, fun _ => 0, 0, 63⟩,
    ⟨"CHIP", 14, 0, .HWU, fun _ => 0, 0, 32767⟩]⟩,
  ⟨"BOOT_MODE_SEQ", 65552, 1, 0, 1, 0, [⟨"LAST_SEQ", 63, 0, .HWU, fun _ => 0, 0, 18446744073709551615⟩]⟩,
  ⟨"BOOT_MODE_CAUSE", 65560, 1, 0, 1, 0, [⟨"LAST_CAUSE", 7, 0, .HWU, fun _ => 0, 0, 255⟩]⟩,
  ⟨"BOOT_TIME", 65568, 1, 0, 1, 0, [⟨"READY_TICK", 63, 32, .HWU, fun _ => 0, 0, 4294967295⟩,
    ⟨"LOCK_TICK", 31, 0, .HWU, fun _ => 0, 0, 4294967295⟩]⟩,
  ⟨"CLK_STAT", 131072, 1, 0, 1, 0, [⟨"PLL_LOCK", 39, 36, .HWU, fun _ => 0, 0, 15⟩,
    ⟨"EDGE_LOCK", 35, 0, .HWU, fun _ => 0, 0, 68719476735⟩]⟩,
  ⟨"CLK_LOCALTICK", 131080, 1, 0, 1, 0, [⟨"TICK", 63, 0, .HWU, fun _ => 0, 0, 18446744073709551615⟩]⟩,
  ⟨"PWR_CTL", 196608, 1, 0, 1, 0, [⟨"PIN", 54, 52, .RW, fun _ => 0, 0, 7⟩,
    ⟨"PREFER", 49, 48, .RW, fun _ => 0, 0, 3⟩,
    ⟨"STEP_W", 47, 40, .RWL, fun _ => 100, 10, 250⟩,
    ⟨"TJ_BRAKE", 39, 32, .RWL, fun _ => 100, 85, 105⟩,
    ⟨"HYST_US", 31, 16, .RWL, fun _ => 1000, 100, 10000⟩,
    ⟨"FLOOR_PCT", 7, 0, .RO, fun _ => 0, 0, 255⟩]⟩,
  ⟨"PWR_STAT", 196616, 1, 0, 1, 0, [⟨"MEAS_W", 63, 48, .HWU, fun _ => 0, 0, 65535⟩,
    ⟨"CAP_W", 47, 32, .HWU, fun _ => 0, 0, 65535⟩,
    ⟨"TJ", 31, 24, .HWU, fun _ => 0, 0, 255⟩,
    ⟨"LEVEL", 15, 10, .HWU, fun _ => 0, 0, 63⟩,
    ⟨"CAUSE", 7, 4, .HWU, fun _ => 0, 0, 15⟩,
    ⟨"BRAKE", 0, 0, .HWU, fun _ => 0, 0, 1⟩]⟩,
  ⟨"PWR_CAP_SEQ", 196624, 1, 0, 1, 0, [⟨"LAST_SEQ", 63, 0, .HWU, fun _ => 0, 0, 18446744073709551615⟩]⟩,
  ⟨"PWR_COUNT", 196632, 1, 0, 1, 0, [⟨"BRAKES", 63, 32, .W1C, fun _ => 0, 0, 4294967295⟩,
    ⟨"BRAKE_MS", 31, 0, .W1C, fun _ => 0, 0, 4294967295⟩]⟩,
  ⟨"PWR_ENERGY_CHIP", 196640, 1, 0, 1, 0, [⟨"NJ", 63, 0, .HWU, fun _ => 0, 0, 18446744073709551615⟩]⟩,
  ⟨"PWR_ENERGY_UNATTR", 196648, 1, 0, 1, 0, [⟨"NJ", 63, 0, .HWU, fun _ => 0, 0, 18446744073709551615⟩]⟩]

/-- Registers, part 9. -/
def regTable9 : List RegDesc := [
  ⟨"PWR_COEF", 196864, 8, 8, 1, 0, [⟨"COEF", 15, 0, .RWL, fun i => [192, 96, 224, 64, 160, 256, 3200, 8192].getD i 0, 0, 65535⟩]⟩,
  ⟨"PWR_ENERGY", 229376, 4096, 8, 1, 0, [⟨"NJ", 63, 0, .HWU, fun _ => 0, 0, 18446744073709551615⟩]⟩,
  ⟨"FAULT_STAT", 327680, 1, 0, 1, 0, [⟨"FATAL_CAUSE", 55, 48, .HWU, fun _ => 0, 0, 255⟩,
    ⟨"EPO_CAUSE", 42, 40, .HWU, fun _ => 0, 0, 7⟩,
    ⟨"EVENTS_LOST", 33, 33, .W1C, fun _ => 0, 0, 1⟩,
    ⟨"MEM_LOST", 32, 32, .W1C, fun _ => 0, 0, 1⟩,
    ⟨"LOST_CHIPS", 30, 16, .HWU, fun _ => 0, 0, 32767⟩,
    ⟨"LOG_ENTRIES", 10, 0, .HWU, fun _ => 0, 0, 2047⟩]⟩,
  ⟨"FAULT_TIMEOUTS", 327688, 1, 0, 1, 0, [⟨"TXN_US", 63, 32, .RO, fun _ => 0, 0, 4294967295⟩,
    ⟨"DRAIN_US", 31, 0, .RO, fun _ => 0, 0, 4294967295⟩]⟩,
  ⟨"FAULT_COUNT", 327696, 1, 0, 1, 0, [⟨"TIMEOUTS", 63, 32, .W1C, fun _ => 0, 0, 4294967295⟩,
    ⟨"LATE", 31, 0, .W1C, fun _ => 0, 0, 4294967295⟩]⟩,
  ⟨"FAULT_ECC", 327704, 1, 0, 1, 0, [⟨"CE", 63, 32, .W1C, fun _ => 0, 0, 4294967295⟩,
    ⟨"ABORTS", 31, 0, .W1C, fun _ => 0, 0, 4294967295⟩]⟩,
  ⟨"FAULT_MARK", 327712, 1, 0, 1, 0, [⟨"OP", 16, 16, .WO, fun _ => 0, 0, 1⟩,
    ⟨"CHIP", 14, 0, .WO, fun _ => 0, 0, 32767⟩]⟩,
  ⟨"FAULT_REACH_SEL", 327720, 1, 0, 1, 0, [⟨"CHIP", 14, 0, .WO, fun _ => 0, 0, 32767⟩]⟩,
  ⟨"FAULT_REACH_RES", 327728, 1, 0, 1, 0, [⟨"TICK", 63, 32, .RO, fun _ => 0, 0, 4294967295⟩,
    ⟨"HOW", 3, 2, .RO, fun _ => 0, 0, 3⟩,
    ⟨"STATE", 1, 0, .RO, fun _ => 0, 0, 3⟩]⟩,
  ⟨"FAULT_LOG_SEL", 327736, 1, 0, 1, 0, [⟨"INDEX", 9, 0, .WO, fun _ => 0, 0, 1023⟩]⟩,
  ⟨"FAULT_LOG_RES0", 327744, 1, 0, 1, 0, [⟨"ADDR", 63, 0, .RO, fun _ => 0, 0, 18446744073709551615⟩]⟩,
  ⟨"FAULT_LOG_RES1", 327752, 1, 0, 1, 0, [⟨"TICK", 63, 32, .RO, fun _ => 0, 0, 4294967295⟩,
    ⟨"PARTITION", 31, 20, .RO, fun _ => 0, 0, 4095⟩,
    ⟨"CODE", 19, 12, .RO, fun _ => 0, 0, 255⟩,
    ⟨"EVENT", 11, 4, .RO, fun _ => 0, 0, 255⟩]⟩]

/-- Registers, part 10. -/
def regTable10 : List RegDesc := [
  ⟨"TELE_CTL", 393216, 1, 0, 1, 0, [⟨"STREAM_MASK", 63, 48, .RW, fun _ => 0, 0, 65535⟩,
    ⟨"SAMPLE_NS", 47, 32, .RW, fun _ => 1000, 100, 65535⟩,
    ⟨"INTERVAL_MS", 31, 16, .RW, fun _ => 1000, 1, 60000⟩,
    ⟨"DEST", 5, 4, .RW, fun _ => 0, 0, 3⟩,
    ⟨"EVENTS_EN", 1, 1, .RW, fun _ => 1, 0, 1⟩,
    ⟨"STREAM_EN", 0, 0, .RW, fun _ => 0, 0, 1⟩]⟩,
  ⟨"TELE_SNAP", 393224, 1, 0, 1, 0, [⟨"CLEAR_PORTS", 17, 17, .WO, fun _ => 0, 0, 1⟩,
    ⟨"PORTS", 16, 16, .WO, fun _ => 0, 0, 1⟩,
    ⟨"HIST", 15, 0, .WO, fun _ => 0, 0, 65535⟩]⟩,
  ⟨"TELE_STAT", 393232, 1, 0, 1, 0, [⟨"SEQ", 63, 32, .HWU, fun _ => 0, 0, 4294967295⟩,
    ⟨"REFUSED", 0, 0, .W1C, fun _ => 0, 0, 1⟩]⟩,
  ⟨"TELE_PORT_TICK", 393240, 1, 0, 1, 0, [⟨"TICK", 63, 0, .HWU, fun _ => 0, 0, 18446744073709551615⟩]⟩,
  ⟨"TELE_HCFG", 397312, 16, 1024, 1, 0, [⟨"FILTER_KIND", 29, 28, .RW, fun _ => 0, 0, 3⟩,
    ⟨"FILTER_VALUE", 27, 16, .RW, fun _ => 0, 0, 4095⟩,
    ⟨"SOURCE", 5, 0, .RW, fun _ => 0, 0, 63⟩]⟩,
  ⟨"TELE_HCOUNT", 397320, 16, 1024, 1, 0, [⟨"COUNT", 63, 0, .HWU, fun _ => 0, 0, 18446744073709551615⟩]⟩,
  ⟨"TELE_HMIN", 397328, 16, 1024, 1, 0, [⟨"MIN", 63, 0, .HWU, fun _ => 18446744073709551615, 0, 18446744073709551615⟩]⟩,
  ⟨"TELE_HMAX", 397336, 16, 1024, 1, 0, [⟨"MAX", 63, 0, .HWU, fun _ => 0, 0, 18446744073709551615⟩]⟩,
  ⟨"TELE_HTICK", 397344, 16, 1024, 1, 0, [⟨"TICK", 63, 0, .HWU, fun _ => 0, 0, 18446744073709551615⟩]⟩,
  ⟨"TELE_HBIN", 397568, 16, 1024, 64, 8, [⟨"COUNT", 31, 0, .HWU, fun _ => 0, 0, 4294967295⟩]⟩,
  ⟨"GLB_ID", 0, 1, 0, 1, 0, [⟨"VENDOR", 63, 48, .RO, fun _ => 17997, 0, 65535⟩,
    ⟨"DEVICE", 47, 32, .RO, fun _ => 21255, 0, 65535⟩,
    ⟨"STEPPING", 31, 24, .RO, fun _ => 0, 0, 255⟩,
    ⟨"LEX_VERSION", 23, 16, .RO, fun _ => 1, 0, 255⟩]⟩,
  ⟨"GLB_STAT", 8, 1, 0, 1, 0, [⟨"CHIP", 46, 32, .HWU, fun _ => 0, 0, 32767⟩,
    ⟨"PLANES", 21, 16, .HWU, fun _ => 0, 0, 63⟩,
    ⟨"FABRIC_READY", 7, 7, .HWU, fun _ => 0, 0, 1⟩,
    ⟨"FATAL", 6, 6, .HWU, fun _ => 0, 0, 1⟩,
    ⟨"FROZEN", 5, 5, .HWU, fun _ => 0, 0, 1⟩,
    ⟨"BRAKE", 4, 4, .HWU, fun _ => 0, 0, 1⟩,
    ⟨"MODE_PENDING", 3, 3, .HWU, fun _ => 0, 0, 1⟩,
    ⟨"BOOT_STATE", 2, 0, .HWU, fun _ => 0, 0, 7⟩]⟩]

/-- Registers, part 11. -/
def regTable11 : List RegDesc := [
  ⟨"GLB_LOCK", 16, 1, 0, 1, 0, [⟨"DENIED", 63, 32, .W1C, fun _ => 0, 0, 4294967295⟩,
    ⟨"LOCKED", 0, 0, .HWU, fun _ => 0, 0, 1⟩]⟩,
  ⟨"GLB_RSVD", 24, 1, 0, 1, 0, [⟨"COUNT", 63, 32, .W1C, fun _ => 0, 0, 4294967295⟩,
    ⟨"LAST_ADDR", 24, 0, .HWU, fun _ => 0, 0, 33554431⟩]⟩,
  ⟨"GLB_SCRATCH", 32, 4, 8, 1, 0, [⟨"VALUE", 63, 0, .RWS, fun _ => 0, 0, 18446744073709551615⟩]⟩,
  ⟨"GLB_MGMT_CTL", 64, 1, 0, 1, 0, [⟨"UDP_PORT", 31, 16, .RWL, fun _ => 7460, 1024, 65535⟩,
    ⟨"EN_1", 1, 1, .RWL, fun _ => 1, 0, 1⟩,
    ⟨"EN_0", 0, 0, .RWL, fun _ => 1, 0, 1⟩]⟩,
  ⟨"GLB_MGMT_ADDR", 72, 2, 8, 1, 0, [⟨"PEER_IP", 63, 32, .RWL, fun _ => 0, 0, 4294967295⟩,
    ⟨"OWN_IP", 31, 0, .RWL, fun _ => 0, 0, 4294967295⟩]⟩,
  ⟨"GLB_MGMT_STAT", 88, 1, 0, 1, 0, [⟨"DROP_1", 63, 48, .W1C, fun _ => 0, 0, 65535⟩,
    ⟨"DROP_0", 47, 32, .W1C, fun _ => 0, 0, 65535⟩,
    ⟨"UP_1", 3, 3, .HWU, fun _ => 0, 0, 1⟩,
    ⟨"UP_0", 2, 2, .HWU, fun _ => 0, 0, 1⟩]⟩,
  ⟨"TELE_SHADOW_FRAMES", 425984, 144, 64, 1, 0, [⟨"OUT", 63, 32, .RO, fun _ => 0, 0, 4294967295⟩,
    ⟨"IN", 31, 0, .RO, fun _ => 0, 0, 4294967295⟩]⟩,
  ⟨"TELE_SHADOW_BYTES_IN", 425992, 144, 64, 1, 0, [⟨"BYTES", 63, 0, .RO, fun _ => 0, 0, 18446744073709551615⟩]⟩,
  ⟨"TELE_SHADOW_BYTES_OUT", 426000, 144, 64, 1, 0, [⟨"BYTES", 63, 0, .RO, fun _ => 0, 0, 18446744073709551615⟩]⟩,
  ⟨"TELE_SHADOW_ERR", 426008, 144, 64, 1, 0, [⟨"HCRC", 63, 48, .RO, fun _ => 0, 0, 65535⟩,
    ⟨"CRC", 47, 32, .RO, fun _ => 0, 0, 65535⟩,
    ⟨"STOMP", 31, 16, .RO, fun _ => 0, 0, 65535⟩,
    ⟨"CHECK", 15, 0, .RO, fun _ => 0, 0, 65535⟩]⟩,
  ⟨"TELE_SHADOW_RETRY", 426016, 144, 64, 1, 0, [⟨"RESENT", 63, 32, .RO, fun _ => 0, 0, 4294967295⟩,
    ⟨"NACKED", 31, 0, .RO, fun _ => 0, 0, 4294967295⟩]⟩,
  ⟨"TELE_SHADOW_DEPTH", 426024, 144, 64, 1, 0, [⟨"PEAK", 51, 32, .RO, fun _ => 0, 0, 1048575⟩,
    ⟨"CELLS", 19, 0, .RO, fun _ => 0, 0, 1048575⟩]⟩]

/-- Registers, part 12. -/
def regTable12 : List RegDesc := [
  ⟨"TELE_SHADOW_STALL", 426032, 144, 64, 1, 0, [⟨"CYCLES", 63, 0, .RO, fun _ => 0, 0, 18446744073709551615⟩]⟩]

/-- Every register of the chip (R463). -/
def regTable : List RegDesc :=
  regTable0 ++ regTable1 ++ regTable2 ++ regTable3 ++ regTable4 ++ regTable5 ++ regTable6 ++ regTable7 ++ regTable8 ++ regTable9 ++ regTable10 ++ regTable11 ++ regTable12

end Sys2Proof.Machine
end

