-- ==== Sys2Proof/Machine/State.lean ====
section
/-! DEFINITION. The state of the block: every register field, memory, table, queue and pin the spec gives Sikalys, the
queue of waiting commands, what the block has driven outward, and the state after reset. Plain data only. -/

namespace Sys2Proof.Machine

/-- A sparse table by key: keys strictly rising, so equal tables are equal data. -/
abbrev Tbl (α : Type) := List (Nat × α)

/-- Why the block stops. No rule of the spec stops it: every error of Table 19-1 is answered and the block goes on, so
no meaning raises one of these. -/
inductive Fault where
  /-- Raised by nothing; the spec gives every failure an answer (safe). -/
  | unreachable
  deriving DecidableEq, Repr

/-- Why a command is refused. -/
inductive Refusal where
  /-- Raised by an arm of exec whose command has no meaning yet (safe). -/
  | notModelled (mnemonic : String)
  deriving DecidableEq, Repr

/-! ### What the block drives outward -/

/-- A message on a Nelar link or a management port (Table 15-6). -/
structure Msg where
  code : Nat
  resp : Bool
  resent : Bool
  reqId : Nat
  body : List Byte
  deriving DecidableEq, Repr

/-- Completion status of a direct request (Table 14-3). -/
inductive Cpl where
  | successful | poisoned | unsupported | abort
  deriving DecidableEq, Repr

/-- A ring message (Table 5-4): code, whether it travels on ring A, line, sender's stop, receiver's stop, and its marks or
granted state. -/
structure RingMsg where
  code : Nat
  ringA : Bool
  line : Nat
  src : Nat
  dst : Nat
  owned : Bool
  held : Bool
  grant : Nat
  deriving DecidableEq, Repr

/-- What leaves the block, in order (log entry 4). -/
inductive Out where
  /-- A completion toward an accelerator: port, its tag, status, error code, data (R344). -/
  | completion (port tag : Nat) (cpl : Cpl) (err : Err) (data : List Byte)
  /-- A flit on a Nelar link (R367). -/
  | flit (link : Nat) (f : Flit)
  /-- 66-bit blocks on the lanes of a Nelar link, in LANE order: sync header, payload as sent (R362, R363). -/
  | nelarBlocks (link : Nat) (blocks : List (Nat × Nat))
  /-- Transmit taps c(-1), c(0), c(+1) of lanes 0 to 7, in 1/32 of full swing (R361). -/
  | nelarTaps (link : Nat) (taps : List (Int × Int × Int))
  /-- A datagram from a management port, and the fragments of its payload that carry it, as offset and length (R470). -/
  | datagram (port dstIp dstPort : Nat) (m : Msg) (pieces : List (Nat × Nat))
  /-- An ARP answer: port, asker's IP and MAC, own IP and MAC (R470). -/
  | arpReply (port toIp toMac ownIp ownMac : Nat)
  /-- A burst on a fibre: target lines, header, link control by type (Table 13-5), frames in order (R319), and the PAM4 symbols
that the slices of those lines drive (R312, R315). -/
  | burst (fibre : Nat) (lines : List Nat) (hdr : BurstHeader) (ctl : List (Nat × LinkCtl)) (frames : List Frame)
      (symbols : List Nat)
  /-- CXL.mem MemRd and MemWr of an edge home agent (R346): a read's bytes. -/
  | memRd (port tag offset len : Nat)
  /-- The 64 B line at an offset, with the bytes enabled. -/
  | memWr (port tag offset : Nat) (bytes : Tbl Byte)
  /-- BIRsp (R347). -/
  | biRsp (slot offset : Nat)
  /-- A ring message (R130 to R132). -/
  | ring (m : RingMsg)
  /-- A line that a tile or a home agent supplies over its data port (R131, R132). -/
  | lineData (lineAddr src dst : Nat)
  /-- SMBus answer: none is a NACK (R471). -/
  | smbus (value : Option Nat)
  /-- What JTAG shifts out (R485). -/
  | jtag (value : Nat)
  /-- A configuration access on an edge port (R358). -/
  | config (port func reg : Nat) (write : Bool) (value : Nat)
  /-- A sideband register write to an LSM (R335). -/
  | lsmWrite (lsm reg value : Nat)
  /-- IDE key exchange on a port (R350). -/
  | ideRekey (port : Nat)
  /-- Programming of a device's HDM decoder 0 (R340, R351). -/
  | hdmDecoder (port size : Nat)
  deriving DecidableEq, Repr

/-! ### Continuations: what a finished access does -/

/-- What an access of a tile context is for. -/
inductive TileCont where
  /-- A scalar load: destination, byte width, sign extension, operand address. -/
  | load (rd : BitVec 6) (bytes : Nat) (signed : Bool) (oaddr : Nat)
  /-- A vector load of the enabled bytes. -/
  | vld (vd : BitVec 5) (mask : PReg) (oaddr : Nat)
  /-- A store, by its store queue entry, which leaves. -/
  | store (entry : Nat)
  /-- An atomic, by its store queue entry: destination register, byte width. -/
  | amo (entry : Nat) (rd : BitVec 6) (bytes : Nat) (oaddr : Nat)
  /-- A counter operation: destination register; for CTRWAIT the threshold. -/
  | ctr (rd : BitVec 6) (threshold : Option Nat)
  /-- The index array of an indexed pattern, by the number of the reading, and whether it is read ahead of its first commit
  (R119). -/
  | indices (pat req : Nat) (ahead : Bool)
  /-- A commit of stream bytes: destination register, whether a vector, bytes beyond the pattern's end. -/
  | pop (pat : Nat) (reg : BitVec 6) (vector : Bool) (pad : Nat) (oaddr : Nat)
  deriving DecidableEq, Repr

/-- What an access of this chip is for; it runs when the access completes. -/
inductive Cont where
  /-- A direct aperture request, by its id in `edge.directs`. -/
  | direct (id : Nat)
  /-- An access that a context's instruction waits for, or a store of it, with the clause it belongs to. -/
  | tile (c : At) (clause : Nat) (k : TileCont)
  /-- A run-ahead line: context, its clause, entry number. -/
  | stream (c : At) (clause entry : Nat)
  /-- A read of a clause at FVA `src` whose bytes go to FVA `dst`, for a chunk. -/
  | clauseRead (id chunk dst src : Nat)
  /-- A write of a clause at an FVA, for a chunk. -/
  | clauseWrite (id chunk fva : Nat)
  /-- An index word of GATHER or SCATTER: element; COEF of a TRANSFORM on tiles. -/
  | clauseIndex (id elem : Nat)
  /-- A list entry of ATOMIC_BATCH: read, then its atomic, then the write back. -/
  | batchEntry (id entry : Nat)
  | batchAtomic (id entry : Nat)
  /-- An increment of ARRIVE. -/
  | arrive (id : Nat)
  /-- The operation of a COUNTER_OP. -/
  | counterOp (id : Nat)
  /-- The program image of a KERNEL. -/
  | program (id : Nat)
  /-- The arrays of a member clause whose pages were unmapped at acceptance (R34, R221, R222). -/
  | arrays (id : Nat)
  /-- The write of a completion record. -/
  | record (queue : Nat)
  /-- A descriptor fetch. -/
  | fetch (queue : Nat)
  /-- Bytes that acceptance needs: KERNEL operand list, COUNTS and DISPLS arrays. -/
  | extra (queue : Nat)
  /-- Bytes of a member's buffer into a chunk of a collective. -/
  | collRead (id chunk : Nat)
  | collWrite (id chunk : Nat)
  /-- The clause sent away for remote execution. -/
  | remoteClause (id : Nat)
  /-- A piece of a WEIGHT_LOAD, by its request: 0 header, 1 entries, 2 a chunk's read, 3 its write (R396). -/
  | weight (id part : Nat)
  /-- COEF of a TRANSFORM for a unit; input bytes of one: a chunk on tiles, or unit and vectors over 2^40. -/
  | coef (unit id : Nat)
  | transformRead (id chunk : Nat)
  /-- A directory request: operation of Table 10-5, and the chip it went to. -/
  | dir (op partition page chip : Nat)
  /-- An INVAL of a line, or a REPL_INVAL, of a home operation to a chip. -/
  | inval (op line chip : Nat)
  | replInval (op chip : Nat)
  /-- A piece of an access that was cut (R91). -/
  | part (gather idx : Nat)
  /-- A fill of a replica, for another continuation's read: frame key, block. -/
  | fill (key block off len : Nat) (k : Cont)
  /-- The response to another chip's request: chip, tag, partition, tense, unit, opcode, SPEC. -/
  | answer (src tag partition tense unit op : Nat) (spec : Bool)
  /-- A fill of a remote line: the tile whose L1 takes it in RS, if one does, the line, and the bytes of it that another
  continuation reads (R124, R127). -/
  | lineFill (tile : Option Nat) (line off len : Nat) (k : Cont)
  /-- The answer to a directory request of operation `op`, once no tile has a copy of the replica's lines (R128, R256). -/
  | dirReply (op : Nat) (m : DirMsg)
  /-- The zero fill of a frame whose lines no tile of any chip has a copy of any more (R128, R357). -/
  | zeroed (frameFpa : Nat)
  /-- A copy of a migrating page's bytes to another chip (R251). -/
  | copied (partition page : Nat)
  /-- BIRsp for a line of a slot, once no copy is left (R347). -/
  | biRsp (slot offset : Nat)
  /-- Nothing waits. -/
  | drop
  deriving DecidableEq, Repr

/-- Who asked a home agent: a frame from another chip, or this chip. -/
inductive Who where
  | frame (src tag partition tense : Nat) (spec : Bool)
  | here (k : Cont)
  deriving DecidableEq, Repr

/-- What a home agent does to a block of bytes. -/
inductive HomeAct where
  | read (len : Nat)
  | write (data : List Byte)
  | atomic (op width operand compare : Nat)
  deriving DecidableEq, Repr

/-! ### The parts of the state -/

/-- Start and identity (chapter 17): what was sampled, fused and loaded, and the mode change under way. -/
structure Boot where
  porN : Bool
  wrstN : Bool
  aonRuns : Bool
  straps : Straps
  fuses : Fuses
  stem : Option Stem
  inflections : List Inflection
  identity : List Byte
  tilefwDigest : Nat
  flashOwnN : Bool
  epo : Bool
  /-- Accepted MODE_SELECT: mode, SEQ, path and request to answer (R416). -/
  modeChange : Option (Nat × Nat × Path × Nat)
  deriving DecidableEq, Repr

/-- The governor and brake (chapter 18). -/
structure Power where
  pwrbrakeN : Bool
  coolOk : Bool
  freezeN : Bool
  epoN : Bool
  /-- Samples in a row more than 5 % above the cap (R429). -/
  overSamples : Nat
  /-- Samples in a row at or below the cap (R431). -/
  underSamples : Nat
  /-- Samples since the last step and since the last raise (R428). -/
  sinceStep : Nat
  sinceRaise : Nat
  /-- Level of the classes that PWR_CTL.PREFER throttles last (R428). -/
  lastLevel : Nat
  /-- Whether the level is still climbing down after brake (R431). -/
  climbing : Bool
  /-- Brake causes that hold now: 1 PIN, 2 STEP, 4 OVER, 8 junction, 16 COOL_OK. -/
  causes : Nat
  /-- Samples spent in brake below one whole millisecond. -/
  brakeSamples : Nat
  /-- Fractions of energy below one nJ, by partition, in 1/128 pJ (R434). -/
  fractions : Tbl Nat
  /-- Energy of the partitions' estimates since the last sample, nJ. -/
  attributed : Nat
  deriving DecidableEq, Repr

/-- Table 2-7, a page-map entry (VALID entries only are listed). -/
structure PmEntry where
  partition : Nat
  page : Nat
  chip : Nat
  unit : Nat
  frame : Nat
  perm : Nat
  pinNear : Bool
  pinFar : Bool
  pinHome : Bool
  noReplica : Bool
  staleOk : Bool
  prefer : Nat
  installTense : Nat
  dirIndex : Nat
  replicated : Bool
  migrating : Bool
  poison : Bool
  deriving DecidableEq, Repr

/-- What holds a frame of this chip (R48, R388). -/
inductive FrameUse where
  | page | replica | target | spill | withheld
  deriving DecidableEq, Repr

/-- A frame that is not free: owner partition (R388) and use. -/
structure FrameRec where
  owner : Nat
  page : Nat
  use : FrameUse
  deriving DecidableEq, Repr

/-- A member of a withdrawal's hold set (R66). -/
inductive Holder where
  | clause (id : Nat)
  | direct (id : Nat)
  | replica (key chip : Nat)
  | weight (id : Nat)
  /-- A migration of the page past its switch. -/
  | move (oldFpa : Nat)
  deriving DecidableEq, Repr

/-- One page of a withdrawal's record: MAPPED, frame FPA, POISONED (Table 3-7). -/
structure WdEntry where
  page : Nat
  mapped : Bool
  frameFpa : Nat
  poisoned : Bool
  dirIndex : Nat
  deriving DecidableEq, Repr

/-- A withdrawal not yet acknowledged (Table 3-1). -/
structure Withdrawal where
  id : Nat
  partition : Nat
  window : Option Nat
  tense : Nat
  entries : List WdEntry
  hold : List Holder
  abort : Bool
  aborted : Nat
  /-- LOCALTICK at acceptance, for WITHDRAW latency (Table 19-9). -/
  tick : Nat
  deriving DecidableEq, Repr

/-- A pending fault record (Table 3-4). -/
structure FaultRec where
  page : Nat
  partition : Nat
  access : Nat
  /-- The record's own number on this chip: clauses wait on it by that number. -/
  serial : Nat
  queue : Nat
  tense : Nat
  firstTick : Nat
  tick : Nat
  deriving DecidableEq, Repr

/-- A MAP_INSTALL accepted and not yet completed (R46, R357). -/
structure Install where
  body : MapInstall
  path : Path
  reqId : Nat
  frameFpa : Nat
  /-- Other requests that match it and wait with it (R46). -/
  also : List (Path × Nat × MapInstall)
  /-- Waiting for the home chip's answer rather than for zero fill. -/
  atHome : Bool
  /-- The fault record that its acceptance resolved (R72); pending again if it fails (log entry 41). -/
  fault : Option FaultRec
  deriving DecidableEq, Repr

/-- Translation (chapters 2 and 3). -/
structure Xlat where
  windows : Tbl WinEntry
  winWithdrawing : List Nat
  pageMap : Tbl PmEntry
  frames : Tbl FrameRec
  /-- Lost memory, in parts of 1 TiB: 8 * unit + part (R351, R453). -/
  lostParts : List Nat
  withdrawals : List Withdrawal
  acked : Tbl (List Byte)
  faults : List FaultRec
  nextFault : Nat
  /-- Records of the open batch, in order of creation; a record may be resolved before it is sent (R24). -/
  openBatch : List FaultRec
  /-- Closed batches waiting for a link: cause and records (R74). -/
  closedBatches : List (Nat × List FaultRec)
  batchSeq : Nat
  installs : List Install
  /-- Frames being zeroed for another chip's MAP_INSTALL: its chip, tag, partition and page (R49, R357). -/
  homeFills : Tbl (Nat × Nat × Nat × Nat)
  deriving DecidableEq, Repr

/-- An extent (R53): FVA, length, FPA, and whether it lies in a window with SIDE_EFFECT (R41). -/
structure Extent where
  fva : Nat
  len : Nat
  fpa : Nat
  side : Bool
  deriving DecidableEq, Repr

/-- How a clause ended before its record (Table 7-14). -/
structure Ending where
  status : Err
  exc : Nat
  segment : Nat
  detail : Nat
  addr : Nat
  deriving DecidableEq, Repr

/-- Where a clause stands. -/
inductive Stage where
  | waiting | parked | running | away | done
  deriving DecidableEq, Repr

/-- An accepted clause (R53 to R62, R173 to R186). -/
structure Clause where
  queue : Nat
  partition : Nat
  /-- The chip and tag of a clause executed for another chip (R260). -/
  origin : Option (Nat × Nat)
  seq : Nat
  desc : List Byte
  /-- KERNEL operand list, or COUNTS and DISPLS arrays (R176, R221). -/
  extra : List Byte
  tense : Nat
  extents : List Extent
  /-- Lead operand length in bytes. -/
  leadLen : Nat
  stage : Stage
  /-- Trigger not yet met (R179). -/
  untriggered : Bool
  /-- The counter has met the threshold since acceptance, so the release stands (R179, R180). -/
  met : Bool
  /-- Pages that the parked segment and the seven after it lack and that have no record for want of room, with the access
  kinds wanted (R60, R72). -/
  lacking : List (Nat × Nat)
  /-- Numbers of the fault records on which the parked segment waits. -/
  waitsOn : List Nat
  /-- LOCALTICK when it parked last (Table 3-4). -/
  parkTick : Nat
  segment : Nat
  /-- Segments translated without a gap from the first; only a KERNEL's accesses ask. -/
  clear : Nat
  /-- Segments whose data has been issued. -/
  issued : Nat
  timed : Bool
  /-- Tiles and contexts, or PTU, that run it. -/
  placed : List At
  ptu : Option Nat
  /-- Pieces under way, by chunk. -/
  flying : Tbl Nat
  /-- Chunks that failed. -/
  failed : List Nat
  counted : List Nat
  chunks : Nat
  /-- Increments of ARRIVE not yet performed. -/
  arriving : Nat
  /-- ARRIVE refused by its chip (R183). -/
  arriveErr : Err
  /-- Index words read so far (GATHER, SCATTER); for a collective and a TRANSFORM, bytes of each lead chunk that have
  their final value, and under 2^42 the output vectors done. -/
  indices : Tbl Nat
  ending : Option Ending
  /-- Withdrawals that cancel it (R67). -/
  cancelled : Bool
  /-- Instance number of a member clause (R211). -/
  inst : Nat
  /-- LOCALTICK at acceptance. -/
  tick : Nat
  deriving DecidableEq, Repr

/-- A submission queue that is not free of use (R166, Table 7-1). Indices and state are in its queue page. -/
structure Queue where
  sqLog2 : Nat
  cqLog2 : Nat
  timeoutUs : Nat
  sqFva : Nat
  cqFva : Nat
  /-- Descriptor fetched and not yet accepted, with its index. -/
  fetched : Option (List Byte × Nat)
  fetching : Bool
  /-- Bytes that acceptance asked for. -/
  extra : Option (Err × List Byte)
  asking : Bool
  /-- Held before acceptance for want of a pending-trigger entry (R179). -/
  held : Bool
  /-- Fetching has ended for good (R171, R186). -/
  noFetch : Bool
  /-- A FENCE or WAIT that stops fetching: clause id. -/
  blocked : Option Nat
  /-- Completion records waiting for ring space, oldest first, with their clause; an empty one takes no slot (R177). -/
  records : List (Nat × List Byte)
  /-- A record whose write is under way. -/
  writing : Bool
  /-- Its drain timeout has expired: a record that finds the ring full is lost (R186). -/
  expired : Bool
  /-- QUEUE_DRAIN requests to answer (R187). -/
  drains : List (Path × Nat)
  deriving DecidableEq, Repr

/-- Clauses, queues and counters (chapter 7). -/
structure Work where
  queues : Tbl Queue
  clauses : Tbl Clause
  nextClause : Nat
  counters : Tbl Nat
  /-- Placement order of clauses waiting for a tile (R261). -/
  waitTile : List Nat
  deriving DecidableEq, Repr

/-- A stream pattern of a context (Table 6-4): descriptor, indices of an indexed pattern once read, bytes committed so
far, and the byte position up to which lines have been issued ahead. -/
structure Pattern where
  desc : List Byte
  indices : Option (List Nat)
  /-- The reading of the index array that is under way. -/
  asked : Option Nat
  pos : Nat
  issued : Nat
  deriving DecidableEq, Repr

/-- A stream entry of a tile (R119, R121): the line, the pattern bytes it covers, and its data once filled. -/
structure StreamEntry where
  ctx : Nat
  pat : Nat
  line : Nat
  first : Nat
  upto : Nat
  filled : Bool
  stale : Bool
  once : Bool
  failed : Bool
  data : List Byte
  deriving DecidableEq, Repr

/-- What a context waits for. -/
inductive CtxMode where
  | free | running
  /-- An access under way. -/
  | access
  /-- CTRWAIT: counter name and threshold, destination. -/
  | ctrwait (name threshold : Nat) (rd : BitVec 6)
  /-- Earlier stores, before the instruction that waits for them (R156). -/
  | stores
  /-- A parked KERNEL stalled at a segment (R145). -/
  | parked
  deriving DecidableEq, Repr

/-- A matrix accumulator: 1,024 32-bit values, unlisted 0, and its kind (R151). -/
structure Acc where
  isInt : Bool
  cells : Tbl Nat
  deriving DecidableEq, Repr

/-- A context of a tile (Table 6-1, R116, R161). Unlisted registers read 0. -/
structure Ctx where
  clause : Nat
  mode : CtxMode
  pc : Nat
  progLen : Nat
  /-- Instruction memory, loaded at launch (R163). -/
  prog : List (BitVec 32)
  s : Tbl Word
  v : Tbl VReg
  p : Tbl PReg
  m : Tbl Acc
  rmode : Nat
  fflags : Nat
  seed : Nat
  waitLimit : Nat
  tsBase : Nat
  tsSize : Nat
  /-- Operands: handle, start FVA, length, writable (Table 7-13). -/
  ops : Tbl (Nat × Nat × Bool)
  /-- The first failure of a store that has left the queue (R156). -/
  storeErr : Err
  patterns : Tbl Pattern
  /-- An acquire or fence not yet performed (R109). -/
  ordering : Bool
  deriving DecidableEq, Repr

/-- An entry of a context's store queue (R122): a committed store or atomic, oldest first in its tile. -/
structure StoreEntry where
  id : Nat
  ctx : Nat
  clause : Nat
  partition : Nat
  /-- FPA runs and the bytes for them. -/
  runs : List (Nat × Nat)
  data : List Byte
  /-- For an atomic: operation, width, operand, compare value, and what its completion does. -/
  amo : Option (Nat × Nat × Nat × Nat × TileCont)
  /-- It has been sent toward its homes. -/
  sent : Bool
  /-- It has left the queue's order: later entries may be sent. -/
  gone : Bool
  deriving DecidableEq, Repr

/-- A tile, by logical number (R114 to R137). STATE, ENABLE and counts are registers. -/
structure Tile where
  ctxs : Tbl Ctx
  store : Tbl Byte
  entries : Tbl StreamEntry
  nextEntry : Nat
  /-- L1 lines: state 1 S, 2 E, 3 M, 4 RS (Table 5-2); unlisted I. -/
  l1 : Tbl Nat
  /-- Bytes of the lines in RS: their homes are on other chips. -/
  copies : Tbl (List Byte)
  held : List Nat
  stores : List StoreEntry
  nextStore : Nat
  deriving DecidableEq, Repr

/-- How far the request that the arbiter serves for a line has come (R130 to R132). -/
inductive RingPhase where
  /-- No snoop issued. -/
  | waiting
  | snooping
  /-- RETRY is on its way; the arbiter has it and waits for the reissue (R126). -/
  | retry | retried
  /-- The home waits for acknowledgements of INVAL and REPL_INVAL (R128). -/
  | acks
  /-- DONE is on its way. -/
  | done
  /-- The home agent holds the line, which no tile had, until acknowledgements come. -/
  | taken
  /-- FIN is on its way. -/
  | fin
  deriving DecidableEq, Repr

/-- A request at the arbiter: requester's stop, whether for ownership, and the access it is for. -/
structure RingReq where
  stop : Nat
  own : Bool
  op : Nat
  deriving DecidableEq, Repr

/-- A line the ring arbiter tracks (R130 to R132). -/
structure RingLine where
  /-- Requests in arrival order; the head is being served. -/
  queue : List RingReq
  phase : RingPhase
  /-- Last stop that the snoop has passed on ring A, and on ring B. -/
  posA : Nat
  posB : Nat
  /-- OWNED and HELD as each ring's snoop carries them. -/
  ownedA : Bool
  ownedB : Bool
  heldA : Bool
  heldB : Bool
  /-- HALF messages that the home has. -/
  halfA : Bool
  halfB : Bool
  /-- A speculative read is under way. -/
  spec : Bool
  deriving DecidableEq, Repr

/-- An access at its home on this chip, as it waits there: for lines, acknowledgements, a locked line, room in a write
table, a link, an earlier write of its source, or the quiescence of its page. -/
structure HeldAccess where
  fpa : Nat
  partition : Nat
  act : HomeAct
  who : Who
  /-- Chip that made the access, and the local tile that wrote, if one did. -/
  asker : Nat
  writer : Option Nat
  /-- The source whose writes keep their order (R92). -/
  order : Option Nat
  /-- It is part of a write of its whole 256 B block. -/
  whole : Bool
  deriving DecidableEq, Repr

/-- An access that waits at its home: for one 128 B line from the rings, or, when no tile has a copy of what it touches,
for acknowledgements alone with its lines held (R128, R133, R256). -/
structure HomeOp where
  acc : HeldAccess
  /-- The core port from which it goes on when its home is another chip. -/
  port : Nat
  /-- Ring stop that asks, the logical tile behind it if one is, and whether for ownership. -/
  stop : Nat
  tile : Option Nat
  own : Bool
  /-- The line asked of the rings, or the lines held without them. -/
  line : Option Nat
  taken : List Nat
  /-- Its REQ has gone, and the arbiter has it. -/
  sent : Bool
  queued : Bool
  /-- Acknowledgements awaited: of INVAL as line and chip, and of REPL_INVAL. -/
  waitInval : List (Nat × Nat)
  waitRepl : List Nat
  deriving DecidableEq, Repr

/-- A CXL.mem request outstanding at an edge home agent (R346). -/
structure MemReq where
  port : Nat
  slot : Nat
  offset : Nat
  act : HomeAct
  who : Who
  write : Bool
  /-- LOCALTICK at its issue (Table 19-9). -/
  tick : Nat
  deriving DecidableEq, Repr

/-- A line of an edge write table (R346): its bytes by offset, whether a MemWr of it is under way, whether newer bytes
wait for the next one, and the writes whose bytes the MemWr under way and the next one carry. -/
structure WLine where
  bytes : Tbl Byte
  sent : Bool
  again : Bool
  writes : List Nat
  nextWrites : List Nat
  deriving DecidableEq, Repr

/-- A write in an edge write table that is answered when its MemWr completes (R87, R136): lines left, what is answered,
and the lines that it keeps locked. -/
structure EdgeWrite where
  left : Nat
  who : Who
  fpa : Nat
  act : HomeAct
  data : List Byte
  err : Err
  locks : List Nat
  deriving DecidableEq, Repr

/-- An access in pieces: pieces left, bytes by piece, first error, what it is for. -/
structure Gather where
  left : Nat
  parts : Tbl (List Byte)
  err : Err
  cont : Cont
  deriving DecidableEq, Repr

/-- On-chip coherence and the home agents (chapters 5 and 14). -/
structure Home where
  tiles : Tbl Tile
  lines : Tbl RingLine
  /-- The arbiter's input queue, and REQs that ring stops hold at insertion (R130): line and request. -/
  ringIn : List (Nat × RingReq)
  ringHeld : List (Nat × RingReq)
  /-- Remote sharers of a 128 B line: chips; most recently used last (R127). -/
  sharers : Tbl (List Nat)
  sharerOrder : List Nat
  ops : Tbl HomeOp
  nextOp : Nat
  /-- Lines locked for an edge atomic (R135). -/
  locked : List Nat
  /-- Poisoned lines and lines of blocks whose tag fails, by memory key over 128 (R118, R355, R391). -/
  poisoned : List Nat
  badTags : List Nat
  /-- Edge write tables: 64 B lines by unit key, with the MemWr under way (R346). -/
  writeTable : Tbl WLine
  edgeWrites : Tbl EdgeWrite
  nextWrite : Nat
  writeQueue : List HeldAccess
  lockWait : List HeldAccess
  /-- Accesses to the frames of an expander whose link is down (R351). -/
  farWait : List HeldAccess
  /-- Writes behind an earlier write of their source to the same home agent (R92). -/
  orderWait : List HeldAccess
  /-- Accesses to a page in quiescence (R22, R251). -/
  quietWait : List HeldAccess
  memReqs : Tbl MemReq
  nextMem : Nat
  gathers : Tbl Gather
  nextGather : Nat
  /-- Accesses of this chip that have completed and whose continuation has not yet run (the model's own). -/
  finished : List (Cont × Err × List Byte)
  deriving DecidableEq, Repr

/-- A direct request in flight (R84, R98, R345). -/
structure DirectRec where
  port : Nat
  slot : Nat
  tag : Nat
  partition : Nat
  addr : Nat
  fpa : Nat
  act : HomeAct
  view : Nat
  tense : Nat
  issued : Bool
  tick : Nat
  deriving DecidableEq, Repr

/-- Edge ports and memory ports (chapter 14). -/
structure Edge where
  directs : Tbl DirectRec
  nextDirect : Nat
  /-- HDM size of each port's device. -/
  hdm : Tbl Nat
  ideDigests : Tbl Nat
  /-- A configuration access under way: write, function, register. -/
  cfg : Tbl (Bool × Nat × Nat)
  expanderDown : List Nat
  deriving DecidableEq, Repr

/-- A frame in the packet buffer (R297 to R300). -/
structure FrameSlot where
  frame : Frame
  inPort : Nat
  /-- Line toward the peer that sent it, on a trunk input. -/
  inLine : Nat
  /-- The VC on which it came, whose account it is charged to; it may have moved to escape since (R298, R304). -/
  inVc : Nat
  shared : Bool
  out : Option Nat
  line : Nat
  seq : Nat
  queued : Bool
  stomped : Bool
  /-- Retry holds on it: hop key. -/
  holds : List Nat
  /-- Lines of a multicast frame still to be sent. -/
  mlines : List Nat
  /-- The LSEQ of a multicast frame, once a burst has carried it. -/
  mseq : Option Nat
  /-- A stomped copy that went on by cut-through: its good copy is charged to the sender's credit (R295). -/
  noCredit : Bool
  deriving DecidableEq, Repr

/-- One hop, by fibre * 64 + line (chapters 12 and 13). -/
structure Hop where
  up : Bool
  lostByLight : Bool
  heard : Bool
  nonce : Nat
  answered : Option Nat
  txNext : Nat
  rxNext : Nat
  nacked : Bool
  closed : Bool
  mTxLast : Option Nat
  mRxLast : Option Nat
  /-- The latest multicast burst of the peer was accepted (R325). -/
  mOpen : Bool
  /-- Credit held for sending, by VC (R320). -/
  credit : Tbl Nat
  /-- Credit handed out to the peer, by VC. -/
  given : Tbl Nat
  /-- Cells that the peer asked for and has not been lent, by VC (R320). -/
  wants : Tbl Nat
  /-- LSEQ of the last multicast frame that the peer has acknowledged since the hop entered service (R325). -/
  mAcked : Option Nat
  /-- Corrected symbols and uncorrectable codewords heard from the peer since the last POWER (Table 13-5). -/
  corrected : Nat
  uncorr : Nat
  resends : Nat
  granted : List Nat
  /-- Sent and unacknowledged: LSEQ and frame, oldest first. -/
  held : List (Nat × Nat)
  /-- LOCALTICK at the last send of each held LSEQ (Table 19-9). -/
  sentAt : Tbl Nat
  /-- Link control that waits for the next burst to the peer: type and message. -/
  ctl : List (Nat × LinkCtl)
  peerDrains : Bool
  drainDone : Bool
  query : Bool
  deriving DecidableEq, Repr

/-- A tracker entry (R301, R307). -/
structure Track where
  dest : Nat
  partition : Nat
  opcode : Nat
  cont : Cont
  spec : Bool
  quarantined : Bool
  len : Nat
  port : Nat
  tick : Nat
  deriving DecidableEq, Repr

/-- A replacement of an LSM (R332, R333). -/
structure Replacement where
  lsm : Nat
  spare : Nat
  /-- Next of the four fibres to move; none before the spare is READY. -/
  next : Option Nat
  failed : Bool
  deriving DecidableEq, Repr

/-- A frame at an input core port that waits for the credit of its reserve (R298): its port, the pinned X plane of an ordered
frame, an output and lines chosen for it already. -/
structure Injection where
  port : Nat
  frame : Frame
  xPlane : Nat
  fixed : Option (Nat × Nat)
  mlines : List Nat
  deriving DecidableEq, Repr

/-- What an accepted burst left for a drop ring's hop (R316, R317): a frame, with whether the burst was multicast; a failure under
step 1 of R290; an uncorrectable codeword, with the frame whose header came before it. -/
inductive Arrival where
  | frame (mcast : Bool) (f : Frame)
  | past (mcast : Bool)
  | lost (mcast : Bool) (cut : Option Frame)
  deriving DecidableEq, Repr

/-- The arbiter of an output core port (R302): the input served last by VC, the flow served last, the bytes each flow may still
send in its turn. -/
structure Arbiter where
  lastIn : Tbl Nat
  turn : Nat
  deficit : Tbl Nat
  deriving DecidableEq, Repr

/-- Trunks and switch core (chapters 12 and 13). -/
structure Fabric where
  frames : Tbl FrameSlot
  nextFrame : Nat
  nextSeq : Nat
  track : Tbl Track
  /-- Frames that wait for the credit of their input's reserve, oldest first. -/
  waitIn : List Injection
  /-- Arbiters by output core port. -/
  arbiters : Tbl Arbiter
  /-- What bursts left to be taken frame by frame, by fibre * 64 + drop ring line. -/
  arrived : Tbl (List Arrival)
  /-- Whose turn a lending pool's next grant is, by (fibre * 8 + VC): the line granted last (R320). -/
  lent : Tbl Nat
  /-- Calibration of rings by the last cold search (R327): heater code and die temperature, by (fibre * 64 + line) * 2, one more for a
  receive ring. -/
  calibration : Tbl (Nat × Nat)
  /-- Requests that wait for a tag, oldest first (R384): partition and what to send. -/
  waitTag : List (Frame × Cont × Nat)
  hops : Tbl Hop
  /-- Multicast LSEQ of each fibre. -/
  mLseq : Tbl Nat
  released : List Nat
  /-- Drop rings whose slice is awake, as fibre * 64 + line (R313). -/
  awake : List Nat
  /-- Fibres in cold search (R327). -/
  searching : List Nat
  /-- LSMs whose replacement found no spare (R334). -/
  noSpare : List Nat
  replacements : List Replacement
  lsmEn : Nat
  lsmPresN : Nat
  lsmReady : Nat
  lsmLit : Bool
  /-- Planes pinned by ordered pairs: source key and home key to planes (R305). -/
  pinned : List (Nat × Nat × Nat × Nat × Nat × Nat)
  /-- Last received power report period per hop. -/
  reports : Tbl (Nat × Nat × Nat)
  fabricReady : Bool
  deriving DecidableEq, Repr

/-- The block coder of a Nelar lane in one direction (R362, R363, R366): scrambler or descrambler state, blocks since the last AM, their
parity, and on the receive side which of the last 64 sync headers were invalid, newest first. -/
structure Lane where
  scr : Nat
  since : Nat
  bip : Nat
  bad : List Bool
  deriving DecidableEq, Repr

/-- One Nelar link (chapter 15). -/
structure Link where
  /-- Lanes in LANE order, and the lane of the next block. -/
  txLanes : List Lane
  txTurn : Nat
  rxLanes : List Lane
  rxTurn : Nat
  /-- START has come; payloads of the blocks of a flit not yet whole. -/
  started : Bool
  blocks : List Nat
  /-- Presets of lanes 0 to 7 that the training in use took (R361). -/
  presets : List Nat
  fseqNext : Nat
  expect : Nat
  nackSent : Bool
  /-- DATA flits not acknowledged: FSEQ, payload. -/
  held : List (Nat × List Byte)
  /-- Payloads waiting for credit. -/
  queue : List (List Byte)
  /-- Messages with flits in `held` or `queue`: message and flits left. -/
  msgs : List (Msg × Nat)
  peerCredit : Nat
  freed : Nat
  rx : List Byte
  replays : Nat
  deriving DecidableEq, Repr

/-- A request whose response waits, or the response sent (R374, R375). -/
structure Held where
  path : Path
  /-- IP address and UDP port of the requester on a management port. -/
  source : Option (Nat × Nat)
  code : Nat
  answer : Option (Nat × List Byte)
  deriving DecidableEq, Repr

/-- A message sent by the runtime that was framed and admitted and whose row has not yet run. -/
structure Waiting where
  path : Path
  reqId : Nat
  code : Nat
  body : List Byte
  deriving DecidableEq, Repr

/-- A reassembly of a fragmented datagram (R470). -/
structure Reassembly where
  port : Nat
  ident : Nat
  srcIp : Nat
  srcPort : Nat
  dstPort : Nat
  parts : Tbl (List Byte)
  total : Option Nat
  deriving DecidableEq, Repr

/-- Nelar links, management ports, SMBus and JTAG (chapters 15, 20, 21). -/
structure Nelar where
  linkA : Link
  linkB : Link
  notices : List Msg
  /-- Messages not formed because the notice store was full: code and body (R377). -/
  owed : List (Nat × List Byte)
  nextOwn : Nat
  requests : Tbl Held
  inbox : List Waiting
  /-- Last requester of each management port: IP and UDP port. -/
  mgmt0 : Option (Nat × Nat)
  mgmt1 : Option (Nat × Nat)
  reassemblies : List Reassembly
  /-- Selector values (for XLAT_PM_PROBE its result), by path code * 16 + register (log entry 35). -/
  selected : Tbl Nat
  frzaddr : Nat
  boundary : Nat
  jtagIr : Nat
  deriving DecidableEq, Repr

/-- The key of a partition and its subkeys (R389); empty when zeroised. -/
structure PartKeys where
  pk : List Byte
  kData : List Byte
  kTweak : List Byte
  kTag : List Byte
  deriving DecidableEq, Repr

/-- The zeroised keys. -/
def PartKeys.none : PartKeys := { pk := [], kData := [], kTweak := [], kTag := [] }

/-- A partition's PART_CREATE body and drain (chapter 16). -/
structure PartRec where
  body : PartCreate
  keys : PartKeys
  drainedOnce : Bool
  drains : List (Path × Nat)
  warmup : Nat
  deriving DecidableEq, Repr

/-- A WEIGHT_LOAD under way (R396, R397): its extents, the package's header and content key, where the payload begins, and
the chunks written. -/
structure Load where
  path : Path
  reqId : Nat
  body : WeightLoad
  tense : Nat
  pkg : List Extent
  dst : List Extent
  header : List Byte
  key : List Byte
  base : Nat
  chunks : Nat
  cancelled : Bool
  deriving DecidableEq, Repr

/-- A violation-log entry (Table 16-12). -/
structure Violation where
  addr : Nat
  tick : Nat
  partition : Nat
  code : Nat
  cls : Nat
  source : Nat
  deriving DecidableEq, Repr

/-- Partitions and logs (chapter 16). -/
structure Security where
  parts : Tbl PartRec
  vlogs : Tbl (List Violation)
  glog : List Violation
  keysDrawn : Nat
  /-- WEIGHT_LOADs under way, by request ID. -/
  loads : Tbl Load
  deriving DecidableEq, Repr

/-- A chunk of a collective instance on this chip (R218, R228, R230). -/
structure CollChunk where
  /-- Partial or result bytes, in FMT or the accumulation format. -/
  data : List Byte
  contributions : Nat
  /-- Peers that have not yet passed its check: chip and resends. -/
  unpassed : List (Nat × Nat)
  /-- Peers to which it goes once their READY has come (R214). -/
  waitReady : List Nat
  /-- Its slots, by number within the instance's reservation (R223). -/
  slots : List Nat
  deriving DecidableEq, Repr

/-- An instance of a group on this chip (R211 to R226). -/
structure Instance where
  number : Nat
  digest : Nat
  members : List Nat
  accepted : List Nat
  reserved : Bool
  /-- Slots of the reservation on the chip, and the frames that hold the rest (R225). -/
  own : Nat
  spill : List Nat
  readySent : Bool
  ready : List Nat
  /-- Descriptor, further bytes and queue of its first member clause. -/
  desc : List Byte
  extra : List Byte
  queue : Nat
  /-- Digests that peers sent in READY (R215). -/
  digests : List Nat
  /-- ALLTOALLV: peers whose COUNTS have come (R222). -/
  counted : List Nat
  /-- Chunks held, by phase * 2^32 + chunk. -/
  chunks : Tbl CollChunk
  /-- Frames held until their CHECK, by source * 2^35 + phase * 2^32 + chunk; 2^60 above, blocks that passed and wait for
  counts (R222). -/
  inFlight : Tbl (List Byte)
  /-- Failed checks of a chunk from a peer, by the key of its frames (R230). -/
  fails : Tbl Nat
  /-- Result bytes for a member whose segment has not started: member clause, offset in DST, chunk, bytes (R58). -/
  later : List (Nat × Nat × Nat × List Byte)
  started : Bool
  deriving DecidableEq, Repr

/-- A collective group entry (Table 9-1); STATE 1 ACTIVE, 2 ABORTED. -/
structure Group where
  body : GroupCreate
  state : Nat
  generation : Nat
  cause : Nat
  /-- Next instance number by slot. -/
  nextInst : Tbl Nat
  inst : List Instance
  deriving DecidableEq, Repr

/-- Collectives (chapter 9). -/
structure Coll where
  groups : Tbl Group
  /-- Generation of FREE entries. -/
  generations : Tbl Nat
  /-- Waiting reservations: partition, group, instance, oldest first. -/
  waiting : List (Nat × Nat × Nat)
  deriving DecidableEq, Repr

/-- A heat record (R244, R245). -/
structure Heat where
  r : Nat
  w : Nat
  c : Nat
  k : Nat
  heat : Nat
  wheat : Nat
  topChip : Nat
  topMaj : Bool
  hold : Nat
  deriving DecidableEq, Repr

/-- A directory record (R253). -/
structure DirRec where
  partition : Nat
  page : Nat
  /-- The frame or window region, as unit * 2^22 + frame number. -/
  frame : Nat
  registered : List Nat
  replicas : List Nat
  /-- Chips that have been asked to place a replica and have not answered. -/
  placing : List Nat
  /-- Epoch of each replica's placement. -/
  placed : Tbl Nat
  deriving DecidableEq, Repr

/-- A migration or rehoming under way (R251). -/
structure Migration where
  partition : Nat
  page : Nat
  oldFpa : Nat
  newFpa : Nat
  /-- Step of Table 10-4, 1 to 7. -/
  step : Nat
  dirty : List Nat
  waiting : List Nat
  started : Nat
  rehome : Option Nat
  refused : Bool
  /-- New accesses to the page are held (step 4). -/
  quiesce : Bool
  /-- Copies to another chip's frame that have not completed. -/
  copying : Nat
  deriving DecidableEq, Repr

/-- A move that the Parser chose at the last epoch end and has not started (R250): the page, the tier it goes to, and the
near frame of a demoted page that it waits for. -/
structure Move where
  partition : Nat
  page : Nat
  near : Bool
  after : Option Nat
  deriving DecidableEq, Repr

/-- A replica this chip holds (R255). -/
structure Replica where
  frameFpa : Nat
  partition : Nat
  page : Nat
  valid : List Nat
  served : Nat
  heat : Nat
  epoch : Nat
  deriving DecidableEq, Repr

/-- The Parser (chapter 10). -/
structure Parser where
  /-- Epoch ends since reset, unbounded: what warm-up and the windows count by, where PARSER_STAT.EPOCH wraps (R246, R248). -/
  epochs : Nat
  heat : Tbl Heat
  dir : Tbl DirRec
  migrations : List Migration
  chosen : List Move
  replicas : Tbl Replica
  /-- Pages this chip holds clauses back for (PM_PREPARE): partition, page. -/
  holding : List (Nat × Nat)
  /-- PM_UPDATEs whose reply waits for this chip's accesses to the old frame: request, old frame, new frame (R251). -/
  updates : List (DirMsg × Nat × Nat)
  /-- Old frames that forward to new ones (R251 step 5). -/
  forward : Tbl Nat
  dropped : Tbl Nat
  /-- Epoch end at which the Parser itself last took a plane out of the mask or into it. -/
  planeEpoch : Tbl Nat
  deriving DecidableEq, Repr

/-- A PTU (chapter 11); STATE, MODE, LOADED and CARRIER are registers. -/
structure Ptu where
  coef : List Byte
  /-- Phase and weight tables, loaded from the Stem's seeds at a cold calibration (R276). -/
  tables : List Byte
  waiting : List Nat
  running : Option Nat
  fetched : Option (Err × List Byte)
  asking : Bool
  /-- Output vectors computed and held for the next pilot check. -/
  heldVecs : Nat
  held : List Byte
  lastFailed : Bool
  /-- H stands in the coefficient store (R278). -/
  rot : Bool
  calibrating : Bool
  carrierLost : Bool
  deriving DecidableEq, Repr

/-- A reachability entry (R447): state 1 REACHABLE, 2 LOST; unlisted NEVER. -/
structure Reach where
  state : Nat
  how : Nat
  tick : Nat
  deriving DecidableEq, Repr

/-- A fault-log entry (Table 19-8). -/
structure FaultEvent where
  event : Nat
  addr : Nat
  tick : Nat
  partition : Nat
  code : Nat
  deriving DecidableEq, Repr

/-- A histogram's live counts (R458). -/
structure Hist where
  bins : Tbl Nat
  count : Nat
  min : Nat
  max : Nat
  deriving DecidableEq, Repr

/-- Faults and telemetry (chapter 19). -/
structure Tele where
  reach : Tbl Reach
  log : List FaultEvent
  hists : Tbl Hist
  deriving DecidableEq, Repr

/-- Freeze (R435 to R439): its number among the free values, the tick, the cycles at which the domains stopped, and the
register fields as they stood; nothing else of the state changes until reset. -/
structure Frozen where
  number : Nat
  tick : Nat
  stopCycles : List Nat
  regs : Tbl Nat
  deriving DecidableEq, Repr

/-- The whole block. -/
structure State where
  /-- Commands waiting, first in first out (the model's own). -/
  pending : List Instr
  /-- Index of the next free value (the model's own, log entry 9). -/
  fresh : Nat
  /-- What the block has driven outward, oldest first (the model's own, log entry 4). -/
  out : List Out
  /-- Register fields, by Fld.key; unlisted fields hold their reset value. -/
  regs : Tbl Nat
  /-- Memory of units 16 to 35 and 48 of this chip, by unit * 2^43 + offset; unlisted bytes read 0 (log entry 2). -/
  mem : Tbl Byte
  boot : Boot
  power : Power
  xlat : Xlat
  work : Work
  home : Home
  edge : Edge
  fabric : Fabric
  nelar : Nelar
  security : Security
  coll : Coll
  parser : Parser
  ptus : Tbl Ptu
  tele : Tele
  frozen : Option Frozen
  deriving DecidableEq, Repr

/-! ### Reset -/

/-- A link after reset (R366 to R369). -/
def Link.reset : Link :=
  { txLanes := [], txTurn := 0, rxLanes := [], rxTurn := 0, started := false, blocks := [], presets := List.replicate 8 3, fseqNext := 0, expect := 0,
    nackSent := false, held := [], queue := [], msgs := [], peerCredit := 0, freed := 0, rx := [], replays := 0 }

/-- Chapter 17's part at power-on: POR_N low, nothing sampled, read or loaded. -/
def Boot.reset : Boot :=
  { porN := false, wrstN := true, aonRuns := false,
    straps := { mode := 0, posX := 0, posY := 0, posZ := 0 },
    fuses := { serial := 0, fwSvn := 0, stepping := 0, fused := 0, rma := false },
    stem := none, inflections := [], identity := [], tilefwDigest := 0, flashOwnN := true, epo := false,
    modeChange := none }

def Power.reset : Power :=
  { pwrbrakeN := true, coolOk := false, freezeN := true, epoN := true, overSamples := 0, underSamples := 0,
    sinceStep := 12, sinceRaise := 1000, lastLevel := 0, climbing := false, causes := 0, brakeSamples := 0, fractions := [],
    attributed := 0 }

def Xlat.reset : Xlat :=
  { windows := [], winWithdrawing := [], pageMap := [], frames := [], lostParts := [], withdrawals := [],
    acked := [], faults := [], nextFault := 0, openBatch := [], closedBatches := [], batchSeq := 0, installs := [],
    homeFills := [] }

def Work.reset : Work :=
  { queues := [], clauses := [], nextClause := 0, counters := [], waitTile := [] }

def Home.reset : Home :=
  { tiles := [], lines := [], ringIn := [], ringHeld := [], sharers := [], sharerOrder := [], ops := [], nextOp := 0,
    locked := [], poisoned := [], badTags := [], writeTable := [], edgeWrites := [], nextWrite := 0,
    writeQueue := [], lockWait := [], farWait := [], orderWait := [], quietWait := [], memReqs := [], nextMem := 0, gathers := [], nextGather := 0,
    finished := [] }

def Edge.reset : Edge :=
  { directs := [], nextDirect := 0, hdm := [], ideDigests := [], cfg := [], expanderDown := [] }

def Fabric.reset : Fabric :=
  { frames := [], nextFrame := 0, nextSeq := 0, track := [], waitIn := [], arbiters := [], arrived := [],
    lent := [], calibration := [], waitTag := [], hops := [], mLseq := [],
    released := [], awake := [], searching := [], noSpare := [], replacements := [], lsmEn := 0, lsmPresN := 0,
    lsmReady := 0, lsmLit := false, pinned := [], reports := [], fabricReady := false }

def Nelar.reset : Nelar :=
  { linkA := Link.reset, linkB := Link.reset, notices := [], owed := [], nextOwn := 0, requests := [], inbox := [], mgmt0 := none,
    mgmt1 := none, reassemblies := [], selected := [], frzaddr := 0, boundary := 0, jtagIr := 0 }

def Security.reset : Security := { parts := [], vlogs := [], glog := [], keysDrawn := 0, loads := [] }

def Coll.reset : Coll := { groups := [], generations := [], waiting := [] }

def Parser.reset : Parser :=
  { epochs := 0, heat := [], dir := [], migrations := [], chosen := [], replicas := [], holding := [], updates := [], forward := [], dropped := [],
    planeEpoch := [] }

def Tele.reset : Tele :=
  { reach := [], log := [], hists := [] }

/-- The machine right after power-on reset: POR_N low, every register field at its reset value, nothing listed in any
table (R417, R465, R479). -/
def State.reset : State :=
  { pending := [], fresh := 0, out := [], regs := [], mem := [], boot := Boot.reset, power := Power.reset,
    xlat := Xlat.reset, work := Work.reset, home := Home.reset, edge := Edge.reset, fabric := Fabric.reset,
    nelar := Nelar.reset, security := Security.reset, coll := Coll.reset, parser := Parser.reset, ptus := [],
    tele := Tele.reset, frozen := none }

end Sys2Proof.Machine
end

