-- ==== Sys2Proof/Machine/Coding.lean ====
section
/-! DEFINITION. Line codes: blocks of the 64b/66b code and its scrambler (R315, R362), the Reed-Solomon code of a burst and its
decoding (R315, R316), PAM4 symbols (R315), the parity of a Nelar lane (R363). -/

namespace Sys2Proof.Machine

/-! ### Packing of fields (R4) -/

/-- Fields of given widths, the first lowest. -/
def packNat : List (Nat × Nat) → Nat
  | [] => 0
  | (w, v) :: r => v % 2 ^ w + 2 ^ w * packNat r

def packWidth : List (Nat × Nat) → Nat
  | [] => 0
  | (w, _) :: r => w + packWidth r

/-- Fields packed into bytes, little-endian. -/
def packBytes (fs : List (Nat × Nat)) : List Byte := leBytes (packWidth fs / 8) (packNat fs)

def b2n (b : Bool) : Nat := if b then 1 else 0

/-! ### Bits -/

/-- The low bits of a number, bit 0 first. -/
def wireBits (n x : Nat) : List Bool := (List.range n).map (bit x)

/-- The number that bits give, first bit least significant. -/
def bitsNat : List Bool → Nat
  | [] => 0
  | b :: r => b2n b + 2 * bitsNat r

/-- The number that bits give, first bit most significant. -/
def bitsMsb (bs : List Bool) : Nat := bs.foldl (fun a b => 2 * a + b2n b) 0

/-- A list cut into runs of some length; the last may be shorter. -/
def runs {α : Type} (n : Nat) : Nat → List α → List (List α)
  | 0, _ => []
  | _, [] => []
  | fuel + 1, l => l.take n :: runs n fuel (l.drop n)

def chop {α : Type} (n : Nat) (l : List α) : List (List α) := runs n l.length l

/-! ### 64b/66b (R315, R362) -/

/-- A block: its two sync header bits in the order sent, and its 64-bit payload. -/
structure Block where
  sync : Bool × Bool
  payload : Nat
  deriving DecidableEq, Repr

def ctlBlock (payload : Nat) : Block := { sync := (true, false), payload := payload }
def dataBlock (payload : Nat) : Block := { sync := (false, true), payload := payload }

/-- One bit through the self-synchronous scrambler 1 + x^39 + x^58, whose state holds the last 58 bits sent, the latest in bit 0
(log entry 138). -/
def scrambleBit (st : Nat) (b : Bool) : Nat × Bool :=
  let o := b != (bit st 38 != bit st 57)
  ((2 * st + b2n o) % 2 ^ 58, o)

/-- One received bit through the descrambler: the state takes the bit as received. -/
def descrambleBit (st : Nat) (b : Bool) : Nat × Bool := ((2 * st + b2n b) % 2 ^ 58, b != (bit st 38 != bit st 57))

def codeBits (f : Nat → Bool → Nat × Bool) : Nat → List Bool → Nat × List Bool
  | st, [] => (st, [])
  | st, b :: r =>
    let x := f st b
    let y := codeBits f x.1 r
    (y.1, x.2 :: y.2)

/-- A payload through the scrambler, and through the descrambler. -/
def scramblePayload (st p : Nat) : Nat × Nat :=
  let r := codeBits scrambleBit st (wireBits 64 p)
  (r.1, bitsNat r.2)

def descramblePayload (st p : Nat) : Nat × Nat :=
  let r := codeBits descrambleBit st (wireBits 64 p)
  (r.1, bitsNat r.2)

/-- Every state bit at one (R315). -/
def onesState : Nat := 2 ^ 58 - 1

def scrambleBlocks : Nat → List Block → List Block
  | _, [] => []
  | st, b :: r =>
    let x := scramblePayload st b.payload
    { b with payload := x.2 } :: scrambleBlocks x.1 r

def descrambleBlocks : Nat → List Block → List Block
  | _, [] => []
  | st, b :: r =>
    let x := descramblePayload st b.payload
    { b with payload := x.2 } :: descrambleBlocks x.1 r

/-- The 66 bits of a block, sync header first. -/
def Block.bits (b : Block) : List Bool := b.sync.1 :: b.sync.2 :: wireBits 64 b.payload

/-- The whole blocks that bits give. -/
def blocksOf (bs : List Bool) : List Block :=
  (chop 66 bs).filterMap (fun r => match r with
    | a :: b :: p => if p.length = 64 then some { sync := (a, b), payload := bitsNat p } else none
    | _ => none)

/-! ### RS(528,506) over GF(2^10) (R315) -/

/-- Twice an element: the field polynomial is x^10 + x^3 + 1. -/
def gfDouble (a : Nat) : Nat := if a < 512 then 2 * a else Nat.xor (2 * a) 0x409

def gfMul (a b : Nat) : Nat :=
  (List.range 10).foldl (fun acc i => if bit b (9 - i) then Nat.xor (gfDouble acc) a else gfDouble acc) 0

def gfPow (a n : Nat) : Nat :=
  (List.range 10).foldl (fun acc i => if bit n (9 - i) then gfMul (gfMul acc acc) a else gfMul acc acc) 1

def gfInv (a : Nat) : Nat := gfPow a 1022

/-- α to a power. -/
def gfAlpha (n : Nat) : Nat := gfPow 2 (n % 1023)

/-- Coefficients added, by position. -/
def xorLists (a b : List Nat) : List Nat := (List.range (Nat.max a.length b.length)).map (fun i =>
  Nat.xor ((a.drop i).headD 0) ((b.drop i).headD 0))

/-- The generator (x - α^0) … (x - α^21), highest coefficient first. -/
def rsGenerator : List Nat :=
  (List.range 22).foldl (fun g i => xorLists (g ++ [0]) (0 :: g.map (gfMul (gfAlpha i)))) [1]

/-- The 22 parity symbols of message symbols. -/
def rsParity (msg : List Nat) : List Nat :=
  let g := rsGenerator.drop 1
  msg.foldl (fun r m =>
    let f := Nat.xor m (r.headD 0)
    xorLists (r.drop 1 ++ [0]) (g.map (gfMul f))) (List.replicate 22 0)

/-- Codewords of message symbols: each takes 506, the last is shortened. -/
def rsEncode (msg : List Nat) : List Nat := (chop 506 msg).flatMap (fun m => m ++ rsParity m)

/-- The value of a polynomial, lowest coefficient first. -/
def polyAt (p : List Nat) (x : Nat) : Nat := p.foldr (fun c acc => Nat.xor c (gfMul acc x)) 0

/-- The 22 syndromes of a received word. -/
def rsSyndromes (w : List Nat) : List Nat :=
  (List.range 22).map (fun j => w.foldl (fun acc c => Nat.xor (gfMul acc (gfAlpha j)) c) 0)

/-- Berlekamp and Massey's search for the error locator: the locator, the one before, its discrepancy, their shift, the length. -/
structure Locator where
  cur : List Nat
  prev : List Nat
  disc : Nat
  shift : Nat
  len : Nat

def Locator.step (syn : List Nat) (c : Locator) (n : Nat) : Locator :=
  let d := (List.range (c.len + 1)).foldl (fun a i =>
    Nat.xor a (gfMul ((c.cur.drop i).headD 0) ((syn.drop (n - i)).headD 0))) 0
  let next := xorLists c.cur (List.replicate c.shift 0 ++ c.prev.map (gfMul (gfMul d (gfInv c.disc))))
  if d = 0 then { c with shift := c.shift + 1 }
  else if 2 * c.len ≤ n then { cur := next, prev := c.cur, disc := d, shift := 1, len := n + 1 - c.len }
  else { c with cur := next, shift := c.shift + 1 }

def rsLocator (syn : List Nat) : Locator :=
  (List.range 22).foldl (Locator.step syn) { cur := [1], prev := [1], disc := 1, shift := 1, len := 0 }

/-- The formal derivative, lowest coefficient first. -/
def polyDeriv (p : List Nat) : List Nat := (p.drop 1).zipIdx.map (fun (c, i) => if i % 2 = 0 then c else 0)

/-- A received word with its errors put right by the locator: each error lies at the degree whose inverse power is a root. -/
def rsFix (w syn : List Nat) (l : Locator) : List Nat × Nat :=
  let omega := (List.range 22).map (fun i => (List.range (i + 1)).foldl (fun a j =>
    Nat.xor a (gfMul ((l.cur.drop j).headD 0) ((syn.drop (i - j)).headD 0))) 0)
  let deriv := polyDeriv l.cur
  let n := w.length
  let fixed := w.zipIdx.map (fun (c, i) =>
    let deg := n - 1 - i
    let x := gfInv (gfAlpha deg)
    if polyAt l.cur x = 0 then (Nat.xor c (gfMul (gfAlpha deg) (gfMul (polyAt omega x) (gfInv (polyAt deriv x)))), 1) else (c, 0))
  (fixed.map Prod.fst, (fixed.map Prod.snd).sum)

/-- Decodes a codeword: the message symbols and how many were corrected, up to 11; none when it is uncorrectable (R316). -/
def rsDecode (w : List Nat) : Option (List Nat × Nat) :=
  let syn := rsSyndromes w
  if w.length < 22 then none
  else if syn.all (· == 0) then some (w.take (w.length - 22), 0)
  else
    let l := rsLocator syn
    let r := rsFix w syn l
    if l.len ≤ 11 ∧ r.2 = l.len ∧ (rsSyndromes r.1).all (· == 0) then some (r.1.take (w.length - 22), r.2) else none

/-! ### PAM4 (R315, step 6) -/

/-- The Gray map, on a pair of bits as a number. -/
def grayOf (p : Nat) : Nat := if p = 2 then 3 else if p = 3 then 2 else p

/-- Five PAM4 symbols of a 10-bit symbol, most significant pair first; the map is its own inverse. -/
def pamOf (x : Nat) : List Nat := (List.range 5).map (fun i => grayOf (x / 4 ^ (4 - i) % 4))

def symbolOf (ps : List Nat) : Nat := ps.foldl (fun a p => 4 * a + grayOf (p % 4)) 0

/-- Bits as 10-bit symbols, most significant bit first, zero bits completing the last. -/
def messageOf (bs : List Bool) : List Nat := (chop 10 bs).map (fun r => bitsMsb (r ++ List.replicate (10 - r.length) false))

/-- The 1,648 preamble symbols (Table 13-1). -/
def preamble : List Nat :=
  (List.replicate 624 [0, 3]).flatten ++ (List.replicate 96 [0, 1, 2, 3]).flatten ++ [3, 3, 3, 3, 0, 0, 0, 0, 3, 3, 0, 0, 3, 0, 3, 0]

/-- The symbols of a burst's blocks after its preamble. -/
def burstSymbols (bs : List Block) : List Nat :=
  (rsEncode (messageOf ((scrambleBlocks onesState bs).flatMap Block.bits))).flatMap pamOf

/-- What a receive slice makes of the symbols that follow the start delimiter: the blocks before the first uncorrectable codeword,
symbols corrected, codewords uncorrectable (R316). -/
def burstBlocks (syms : List Nat) : List Block × Nat × Nat :=
  let ws := (chop 528 ((chop 5 syms).map symbolOf)).map rsDecode
  let good := (ws.takeWhile Option.isSome).filterMap id
  let bits := (good.flatMap Prod.fst).flatMap (fun x => (wireBits 10 x).reverse)
  (descrambleBlocks onesState (blocksOf bits), ((ws.filterMap id).map Prod.snd).sum, ws.countP Option.isNone)

/-! ### CRC-32C (Tables 12-5 and 15-5) -/

/-- One bit of CRC-32C in reflected form. -/
def crc32Step (c : Nat) : Nat := if c % 2 = 1 then Nat.xor (c / 2) 0x82f63b78 else c / 2

/-- CRC-32C of RFC 3720. -/
def crc32c (bs : List Byte) : Nat :=
  Nat.xor (bs.foldl (fun c b => (List.range 8).foldl (fun c _ => crc32Step c) (Nat.xor c b.toNat)) 0xffffffff) 0xffffffff

/-! ### Nelar lanes (R362, R363) -/

def Lane.reset : Lane := { scr := 0, since := 0, bip := 0, bad := [] }

/-- The lane of a number in a list of lanes. -/
def laneAt (ls : List Lane) (i : Nat) : Lane := (ls.drop i).headD Lane.reset

/-- Even parity by bit position modulo 8 since the last AM, over the bits of one more block, sync header first. -/
def Lane.parity (l : Lane) (sync payload : Nat) : Nat :=
  (((bit sync 1 :: bit sync 0 :: wireBits 64 payload).zipIdx).filter Prod.fst).foldl
    (fun a x => Nat.xor a (2 ^ ((66 * l.since + x.2) % 8))) l.bip

/-- Blocks of a lane between two AMs. -/
def amPeriod : Nat := 16384

/-- Table 15-3: the payload of a lane's AM. -/
def amPayload (link lane bip : Nat) : Nat :=
  let b1 := lane % 8 + 8 * (link % 2)
  packNat [(8, 0x78), (8, b1), (8, 255 - b1), (8, bip), (8, 255 - bip), (24, 0x963ac5)]

/-- Whether a block is an AM: TYPE, NLANE and PATTERN match. -/
def isAm (sync payload : Nat) : Bool :=
  sync == 2 && bits payload 7 0 == 0x78 && bits payload 23 16 == 255 - bits payload 15 8 && bits payload 63 40 == 0x963ac5

/-- A block sent on its lane: scrambled, counted, in the parity. -/
def Lane.send (l : Lane) (sync payload : Nat) : Lane × Nat :=
  let x := scramblePayload l.scr payload
  ({ l with scr := x.1, since := l.since + 1, bip := l.parity sync x.2 }, x.2)

/-- One block of the stream: an AM on every lane goes first where one is due. -/
def dealBlock (link : Nat) (k : Link) (b : Nat × Nat) : Link × List (Nat × Nat) :=
  let due := decide (k.txTurn = 0) && decide (amPeriod ≤ (laneAt k.txLanes 0).since)
  let ams := if due then k.txLanes.zipIdx.map (fun (l, i) => (2, amPayload link i l.bip)) else []
  let lanes := if due then k.txLanes.map (fun l => { l with since := 0, bip := 0 }) else k.txLanes
  let x := (laneAt lanes k.txTurn).send b.1 b.2
  ({ k with txLanes := lanes.set k.txTurn x.1, txTurn := (k.txTurn + 1) % 8 }, ams ++ [(b.1, x.2)])

def dealBlocks (link : Nat) (k : Link) : List (Nat × Nat) → Link × List (Nat × Nat)
  | [] => (k, [])
  | b :: r =>
    let x := dealBlock link k b
    let y := dealBlocks link x.1 r
    (y.1, x.2 ++ y.2)

/-- The control block types of Table 15-2. -/
def ctlTypes : List Nat := [0x1e, 0x2d, 0x33, 0x78]

/-- What a received block brings: a whole flit, a parity that differs on a lane, or the end of the link (R366). -/
inductive LaneEvent where
  | flit (bytes : List Byte)
  | bip (lane : Nat)
  | down
  deriving DecidableEq, Repr

/-- A block received on its lane: descrambled, counted, in the parity; whether its sync header is valid. -/
def Lane.receive (l : Lane) (sync payload : Nat) : Lane × Nat :=
  let x := descramblePayload l.scr payload
  let bad := sync == 0 || sync == 3 || (sync == 2 && !ctlTypes.contains (x.2 % 256))
  ({ scr := x.1, since := l.since + 1, bip := l.parity sync payload, bad := (bad :: l.bad).take 64 }, x.2)

/-- One received block, in LANE order. An AM stands where it is due, or the link goes down. After START every other block is part of
a flit (R367). -/
def takeBlock (k : Link) (b : Nat × Nat) : Link × List LaneEvent :=
  let t := k.rxTurn
  let l := laneAt k.rxLanes t
  let k := { k with rxTurn := (t + 1) % 8 }
  if amPeriod ≤ l.since then
    if isAm b.1 b.2 then
      ({ k with rxLanes := k.rxLanes.set t { l with since := 0, bip := 0 } }, if bits b.2 31 24 = l.bip then [] else [.bip t])
    else (k, [.down])
  else
    let x := l.receive b.1 b.2
    let k := { k with rxLanes := k.rxLanes.set t x.1 }
    let down := if 16 ≤ x.1.bad.countP id then [LaneEvent.down] else []
    if !k.started then ({ k with started := b.1 == 2 && x.2 % 256 == 0x33 }, down)
    else if k.blocks.length < 31 then ({ k with blocks := k.blocks ++ [x.2] }, down)
    else ({ k with blocks := [] }, .flit ((k.blocks ++ [x.2]).flatMap (leBytes 8)) :: down)

def takeBlocks (k : Link) : List (Nat × Nat) → Link × List LaneEvent
  | [] => (k, [])
  | b :: r =>
    let x := takeBlock k b
    let y := takeBlocks x.1 r
    (y.1, x.2 ++ y.2)

/-! ### Flits (Table 15-5) -/

/-- The bytes of a flit that its CRC covers. -/
def flitHead (f : Flit) : List Byte :=
  packBytes [(16, f.fseq), (16, f.ackseq), (2, f.kind), (14, 0), (16, f.credit)] ++ f.payload

def flitBytes (f : Flit) : List Byte := flitHead f ++ leBytes 4 (crc32c (flitHead f)) ++ leBytes 4 0

/-- The 32 data blocks of a flit. -/
def flitBlocks (f : Flit) : List (Nat × Nat) := (chop 8 (flitBytes f)).map (fun b => (1, leNat b))

/-- The flit that 256 bytes hold. -/
def flitOf (bs : List Byte) : Flit :=
  let n := leNat (bs.take 8)
  { fseq := bits n 15 0, ackseq := bits n 31 16, kind := bits n 33 32, credit := bits n 63 48,
    crcOk := crc32c (bs.take 248) == leNat ((bs.drop 248).take 4), payload := (bs.drop 8).take 240 }

end Sys2Proof.Machine
end

