-- ==== Sys2Proof/Machine/Ops.lean ====
section
/-! DEFINITION. The shared operations: tables, memory, register fields, field packing, identity, logs, error answers,
messages and their request IDs. Every meaning is written over these. -/

namespace Sys2Proof

/-- Table 19-1, the codes. -/
def Err.code : Err → Nat
  | .none => 0 | .unmapped => 1 | .permission => 2 | .partition => 3 | .bounds => 4 | .disabled => 5 | .aborted => 6
  | .timeout => 7 | .poison => 8 | .integrity => 9 | .unreachable => 10 | .format => 11 | .resource => 12
  | .tense => 13 | .align => 14

def Path.code : Path → Nat
  | .nelarA => 0 | .nelarB => 1 | .mgmt0 => 2 | .mgmt1 => 3 | .smbus => 4 | .jtag => 5

/-- The core port at which requests of a path arrive (Table 12-1). -/
def Path.corePort : Path → Nat
  | .nelarA => 138 | .nelarB => 139 | _ => 140

def Path.isNelar : Path → Bool
  | .nelarA | .nelarB => true
  | _ => false

def Path.isMgmt : Path → Bool
  | .mgmt0 | .mgmt1 => true
  | _ => false

def Path.linkIndex : Path → Nat
  | .nelarB => 1
  | _ => 0

end Sys2Proof

namespace Sys2Proof.Machine

/-! ### Tables -/

/-- The entry at a key. -/
def tget {α : Type} (k : Nat) : Tbl α → Option α
  | [] => none
  | (k', v) :: t => if k' = k then some v else tget k t

/-- The table with the entry at a key set; keys stay rising. -/
def tset {α : Type} (k : Nat) (v : α) : Tbl α → Tbl α
  | [] => [(k, v)]
  | (k', v') :: t =>
    if k < k' then (k, v) :: (k', v') :: t
    else if k = k' then (k, v) :: t
    else (k', v') :: tset k v t

/-- The table with no entry at a key. -/
def terase {α : Type} (k : Nat) : Tbl α → Tbl α
  | [] => []
  | (k', v') :: t => if k' = k then terase k t else (k', v') :: terase k t

/-- The entry changed where there is one. -/
def tmod {α : Type} (k : Nat) (f : α → α) (t : Tbl α) : Tbl α :=
  match tget k t with
  | some v => tset k (f v) t
  | none => t

def tkeys {α : Type} (t : Tbl α) : List Nat := t.map Prod.fst

/-- Keys strictly rising. -/
def sortedKeys {α : Type} : Tbl α → Bool
  | [] => true
  | [_] => true
  | (k, _) :: (k', v') :: t => decide (k < k') && sortedKeys ((k', v') :: t)

/-! ### Memory: units 16 to 35 and 48 of this chip, unit * 2^43 + offset (Tables 2-3, 2-4) -/

/-- The canonical form: addresses strictly rising, no entry equal to what an unlisted address reads as (0). -/
def Memory.wf (m : Tbl Byte) : Bool := sortedKeys m && m.all (fun c => c.2 != 0#8)

/-- One byte of memory; an unlisted byte reads 0 (log entry 2). -/
def memGet (m : Tbl Byte) (a : Nat) : Byte := (tget a m).getD 0#8

/-- Bytes from an address up. -/
def memRead (m : Tbl Byte) (a n : Nat) : List Byte :=
  let w := m.filter (fun c => decide (a ≤ c.1) && decide (c.1 < a + n))
  (List.range n).map (fun i => memGet w (a + i))

/-- The entries that bytes from an address up make. -/
def memBytes (a : Nat) : List Byte → Tbl Byte
  | [] => []
  | b :: bs => if b = 0#8 then memBytes (a + 1) bs else (a, b) :: memBytes (a + 1) bs

/-- Bytes written from an address up. -/
def memWrite (m : Tbl Byte) (a : Nat) (bs : List Byte) : Tbl Byte :=
  let e := a + bs.length
  m.filter (fun c => decide (c.1 < a)) ++ (memBytes a bs ++ m.filter (fun c => decide (e ≤ c.1)))

/-- The memory with n bytes from an address up at 0 (R357). -/
def memClear (m : Tbl Byte) (a n : Nat) : Tbl Byte := m.filter (fun c => !(decide (a ≤ c.1) && decide (c.1 < a + n)))

/-! ### Register fields -/

/-- The value of a register field. -/
def State.get (s : State) (f : Fld) : Nat := (tget f.key s.regs).getD f.reset

/-- The field set; a field at its reset value is unlisted. -/
def State.set (s : State) (f : Fld) (v : Nat) : State :=
  { s with regs := if v % 2 ^ f.width = f.reset then terase f.key s.regs else tset f.key (v % 2 ^ f.width) s.regs }

/-- A counter of the chip: it saturates (R466). -/
def State.count (s : State) (f : Fld) (n : Nat := 1) : State := s.set f (min (s.get f + n) (2 ^ f.width - 1))

/-- A counter that wraps. -/
def State.wrap (s : State) (f : Fld) (n : Nat := 1) : State := s.set f (s.get f + n)

/-- A count that goes down. -/
def State.less (s : State) (f : Fld) (n : Nat := 1) : State := s.set f (s.get f - n)

def State.flag (s : State) (f : Fld) : Bool := s.get f != 0

def State.setFlag (s : State) (f : Fld) (b : Bool) : State := s.set f (if b then 1 else 0)

/-! ### Output and free values -/

/-- Drives something outward (log entry 4). -/
def State.emit (s : State) (o : Out) : State := { s with out := s.out ++ [o] }

/-- The j-th free value of this step (log entry 9). -/
def State.free (s : State) (j : Nat) : Nat := Config.freeNat (s.fresh * 1024 + j)

/-- Advances the index of free values (log entry 9). -/
def State.freshen (s : State) : State := { s with fresh := s.fresh + 1 }

/-! ### Bytes -/

/-- A little-endian number at an offset of a byte string. -/
def fieldAt (bs : List Byte) (off n : Nat) : Nat := leNat ((bs.drop off).take n)

/-- Byte string as a number, most significant byte first, and back (R393). -/
def beBytes (k n : Nat) : List Byte := (leBytes k n).reverse

/-- The first error of a list of checks that holds. -/
def firstErr : List (Bool × Err) → Err
  | [] => .none
  | (b, e) :: r => if b then e else firstErr r

/-! ### Identity, clock, modes -/

def State.chip (s : State) : Nat := s.get R.BOOT_POS_CHIP
def State.tick (s : State) : Nat := s.get R.CLK_LOCALTICK_TICK

/-- One cycle of AONCLK, once it runs (R418, log entry 1). -/
def State.aonTick (s : State) : State := if s.boot.aonRuns then s.wrap R.CLK_LOCALTICK_TICK else s

/-- BOOT_STAT.STATE: 0 ROM, 1 LOADING, 2 LOCKED, 3 READY, 4 BOOT_FAIL (Table 17-11). -/
def State.bootState (s : State) : Nat := s.get R.BOOT_STAT_STATE

/-- Running: the Stem is locked and neither freeze, emergency off nor reset holds the logic (R435, R454). -/
def State.live (s : State) : Bool :=
  s.boot.porN && !s.boot.epo && s.frozen.isNone && (s.bootState == 2 || s.bootState == 3)

/-- Management answers: from step 4 of the start sequence on (Table 17-9), frozen or not, but not in emergency off. -/
def State.manageable (s : State) : Bool := s.boot.porN && !s.boot.epo && decide (1 ≤ s.bootState)

/-! ### Nelar links: message transport (R367 to R371) -/

def State.link (s : State) (l : Nat) : Link := if l = 0 then s.nelar.linkA else s.nelar.linkB

def State.setLink (s : State) (l : Nat) (k : Link) : State :=
  { s with nelar := if l = 0 then { s.nelar with linkA := k } else { s.nelar with linkB := k } }

/-- NELAR_STAT.STATE (Table 15-4): 0 OFF, 1 CLOCK, 2 TRAIN, 3 ALIGN, 4 ACTIVE, 5 DRAINING, 6 DISABLED. -/
def State.linkState (s : State) (l : Nat) : Nat := s.get (R.NELAR_STAT_STATE l)

/-- Table 15-6. -/
def Msg.bytes (chip : Nat) (m : Msg) : List Byte :=
  packBytes [(16, m.code), (1, b2n m.resp), (1, b2n m.resent), (14, 0), (32, m.reqId), (16, m.body.length),
    (15, chip), (1, 0), (32, 0)] ++ m.body

/-- A message as flit payloads of 240 B, the last padded with zeros (R371: a CODE of 0 ends a flit's content). -/
def payloads : Nat → List Byte → List (List Byte)
  | 0, _ => []
  | k + 1, bs => ((bs.take 240) ++ List.replicate (240 - (bs.take 240).length) 0#8) :: payloads k (bs.drop 240)

/-- The flit that carries a payload (Table 15-5); its CRC is good. -/
def Link.flit (k : Link) (kind fseq : Nat) (payload : List Byte) : Flit :=
  { fseq := fseq, ackseq := (k.expect + 65535) % 65536, kind := kind, credit := k.freed, crcOk := true,
    payload := payload }

/-- Sends a flit: its blocks are dealt to the lanes (R362, R367). -/
def State.sendFlit (s : State) (l : Nat) (f : Flit) : State :=
  let r := dealBlocks l (s.link l) (flitBlocks f)
  ((s.setLink l r.1).emit (.flit l f)).emit (.nelarBlocks l r.2)

/-- Table 15-1: c(-1), c(0), c(+1) of a preset. -/
def txPreset (p : Nat) : Int × Int × Int :=
  match p % 8 with
  | 0 => (0, 32, 0)
  | 1 => (0, 28, -4)
  | 2 => (0, 26, -6)
  | 3 => (0, 24, -8)
  | 4 => (-2, 26, -4)
  | 5 => (-2, 24, -6)
  | 6 => (-3, 22, -7)
  | _ => (-4, 20, -8)

/-- A link enters CLOCK: a training begins, with the presets that NELAR_TXEQ names then (R361, R365). -/
def State.enterClock (s : State) (l : Nat) : State :=
  let ps := [R.NELAR_TXEQ_PRESET_0, R.NELAR_TXEQ_PRESET_1, R.NELAR_TXEQ_PRESET_2, R.NELAR_TXEQ_PRESET_3, R.NELAR_TXEQ_PRESET_4,
    R.NELAR_TXEQ_PRESET_5, R.NELAR_TXEQ_PRESET_6, R.NELAR_TXEQ_PRESET_7].map (fun f => s.get (f l))
  ((s.setLink l { s.link l with presets := ps }).set (R.NELAR_STAT_STATE l) 1).emit (.nelarTaps l (ps.map txPreset))

/-- Credit for new DATA flits (R369). -/
def Link.credit (k : Link) : Nat := (512 + k.peerCredit + 65536 - k.fseqNext % 65536) % 65536

/-- Sends queued payloads as new DATA flits while credit lasts. -/
def State.pump (s : State) (l : Nat) : Nat → State
  | 0 => s
  | n + 1 =>
    match (s.link l).queue with
    | [] => s
    | p :: q =>
      if (s.link l).credit = 0 then s
      else
        let k := s.link l
        let s := s.setLink l { k with queue := q, fseqNext := (k.fseqNext + 1) % 65536,
                                      held := k.held ++ [(k.fseqNext, p)] }
        State.pump (s.sendFlit l (k.flit 1 k.fseqNext p)) l n

/-- Puts a message on a link. -/
def State.sendOn (s : State) (l : Nat) (m : Msg) : State :=
  let ps := payloads (ceilDiv (16 + m.body.length) 240) (m.bytes s.chip)
  let k := s.link l
  (s.setLink l { k with queue := k.queue ++ ps, msgs := k.msgs ++ [(m, ps.length)] }).pump l
    (k.queue.length + ps.length)

/-- Bytes in the notice store (R377). -/
def State.storeUsed (s : State) : Nat := (s.nelar.notices.map (fun m => 16 + m.body.length)).sum

def State.storeFull (s : State) : Bool := decide (1048576 ≤ s.storeUsed)

/-- A discarded TELE_STREAM that carries an event or a range sets EVENTS_LOST (R453). -/
def State.teleLost (s : State) (body : List Byte) : State :=
  if fieldAt body 16 1 = 2 ∨ fieldAt body 16 1 = 3 then s.setFlag R.FAULT_STAT_EVENTS_LOST true else s

/-- Keeps a message while both links are down; TELE_STREAM (0x51) is discarded once the store is half full (R377). -/
def State.keepNotice (s : State) (m : Msg) : State :=
  if m.code = 0x51 ∧ 524288 ≤ s.storeUsed then s.teleLost m.body
  else { s with nelar := { s.nelar with notices := s.nelar.notices ++ [m] } }

/-- Sends on a link, else on the other, else keeps the message (R373, R377). -/
def State.sendVia (s : State) (l : Nat) (m : Msg) : State :=
  if s.linkState l = 4 then s.sendOn l m
  else if s.linkState (1 - l) = 4 then s.sendOn (1 - l) m
  else if s.linkState l = 5 ∧ m.resp then s.sendOn l m
  else s.keepNotice m

/-- The fragments of a UDP payload: IPv4 packets of at most 1,500 B with a header of 20 B, the first with the UDP header of 8 B
(R470). -/
def udpPieces (n : Nat) : List (Nat × Nat) :=
  (0, min n 1472) :: (List.range (ceilDiv (n - 1472) 1480)).map (fun i => (1472 + 1480 * i, min 1480 (n - (1472 + 1480 * i))))

/-- Sends from a management port to an address; discarded when the port has none (R470). -/
def State.sendPort (s : State) (p : Nat) (dst : Option (Nat × Nat)) (m : Msg) : State :=
  match dst with
  | some (ip, port) => s.emit (.datagram p ip port m (udpPieces (16 + m.body.length)))
  | none => s

/-- Source of the last accepted request of a management port. -/
def State.requester (s : State) (p : Nat) : Option (Nat × Nat) := if p = 0 then s.nelar.mgmt0 else s.nelar.mgmt1

/-- A response leaves on the path that carried the latest copy of its request, on a management port for its source (R373,
R470). -/
def State.sendRespTo (s : State) (path : Path) (src : Option (Nat × Nat)) (m : Msg) : State :=
  match path with
  | .nelarA => s.sendVia 0 m
  | .nelarB => s.sendVia 1 m
  | .mgmt0 => s.sendPort 0 src m
  | .mgmt1 => s.sendPort 1 src m
  | _ => s

/-- The source of the request that a management path carried last. -/
def State.sourceAt (s : State) (path : Path) : Option (Nat × Nat) :=
  match path with
  | .mgmt0 => s.requester 0
  | .mgmt1 => s.requester 1
  | _ => none

/-- A response at once. -/
def State.sendResp (s : State) (path : Path) (m : Msg) : State := s.sendRespTo path (s.sourceAt path) m

/-- The next number of the chip's own message space (R376). -/
def State.ownId (s : State) : Nat := s.nelar.nextOwn

def State.bumpOwn (s : State) : State :=
  { s with nelar := { s.nelar with nextOwn := (s.nelar.nextOwn + 1) % 2 ^ 32 } }

/-- A message that Sikalys originates, on the link it chooses (R373, R376); while the notice store is full none is formed,
and its cause waits (R377). -/
def State.sendOwnOn (s : State) (l code : Nat) (body : List Byte) : State :=
  if code ≠ 0x51 ∧ s.linkState 0 ≠ 4 ∧ s.linkState 1 ≠ 4 ∧ s.storeFull then
    { s with nelar := { s.nelar with owed := s.nelar.owed ++ [(code, body)] } }
  else s.bumpOwn.sendVia l { code := code, resp := false, resent := false, reqId := s.ownId, body := body }

/-- On the link that NELAR_CHIP.NOTIFY names (R373). -/
def State.sendOwn (s : State) (code : Nat) (body : List Byte) : State :=
  s.sendOwnOn (s.get R.NELAR_CHIP_NOTIFY) code body

/-- TELE_STREAM on the path that TELE_CTL.DEST names (R461). -/
def State.sendTele (s : State) (body : List Byte) : State :=
  let d := s.get R.TELE_CTL_DEST
  if d = 1 ∨ d = 2 then
    let p := d - 1
    let dst := if s.get (R.GLB_MGMT_ADDR_PEER_IP p) = 0 then s.requester p
               else some (s.get (R.GLB_MGMT_ADDR_PEER_IP p), s.get R.GLB_MGMT_CTL_UDP_PORT)
    if dst.isNone then s.teleLost body
    else s.bumpOwn.sendPort p dst { code := 0x51, resp := false, resent := false, reqId := s.ownId, body := body }
  else s.sendOwn 0x51 body

/-- A TELE_STREAM message of some records (Tables 19-10, 19-11). -/
def State.stream (s : State) (records : List (List Byte)) : State :=
  let seq := (s.get R.TELE_STAT_SEQ + 1) % 2 ^ 32
  (s.set R.TELE_STAT_SEQ seq).sendTele
    (packBytes [(32, seq), (16, records.length), (16, 0), (64, s.tick)] ++ records.flatten)

/-! ### Logs -/

/-- FAULT_LOG_RES1 of an entry (Table 19-8). -/
def FaultEvent.res1 (e : FaultEvent) : Nat :=
  packNat [(4, 0), (8, e.event), (8, e.code), (12, e.partition), (32, e.tick)]

/-- Records an event of Table 19-7 in the fault log of 1,024 entries, newest first (R457). -/
def State.recordFault (s : State) (e : FaultEvent) : State :=
  let log := (e :: s.tele.log).take 1024
  { s with tele := { s.tele with log := log } }.set R.FAULT_STAT_LOG_ENTRIES log.length

/-- An event of Table 19-7, now. -/
def State.faultEvent (s : State) (event addr partition code : Nat) : FaultEvent :=
  { event := event, addr := addr, tick := s.tick % 2 ^ 32, partition := partition, code := code }

/-- Records an event in the fault log, and streams it when EVENTS_EN is 1 (R457). -/
def State.logFault (s : State) (event addr partition code : Nat) : State :=
  let e := s.faultEvent event addr partition code
  let s := s.recordFault e
  if s.flag R.TELE_CTL_EVENTS_EN then
    s.stream [packBytes [(8, 2), (8, 0), (16, 24), (32, 0), (64, addr), (64, e.res1)]]
  else s

/-- Records a violation in the global log, and in the requesting partition's log when it is not DISABLED (R400). -/
def State.violate (s : State) (cls : Nat) (partition : Option Nat) (addr : Nat) (e : Err) (source : Nat) : State :=
  let v : Violation := { addr := addr, tick := s.tick % 2 ^ 32, partition := partition.getD 0, code := e.code,
                         cls := cls, source := source }
  let g := (v :: s.security.glog).take 256
  let s := { s with security := { s.security with glog := g } }
  let s := (s.set R.SEC_GLOG_ENTRIES g.length).count R.SEC_GLOG_COUNT
  match partition with
  | none => s
  | some p =>
    if s.get (R.PART_STATE_STATE p) = 0 then s
    else
      let l := (v :: (tget p s.security.vlogs).getD []).take 16
      let s := { s with security := { s.security with vlogs := tset p l s.security.vlogs } }
      (s.set (R.PART_VLOG_ENTRIES p) l.length).count (R.PART_VLOG_COUNT p)

/-! ### Histograms (R458) -/

/-- Whether histogram h counts a value of a source for a core port and a partition. -/
def State.histMatches (s : State) (h src : Nat) (port partition : Option Nat) : Bool :=
  s.get (R.TELE_HCFG_SOURCE h) == src &&
    (match s.get (R.TELE_HCFG_FILTER_KIND h) with
     | 0 => true
     | 1 => port == some (s.get (R.TELE_HCFG_FILTER_VALUE h))
     | 2 => partition == some (s.get (R.TELE_HCFG_FILTER_VALUE h))
     | _ => false)

def Hist.empty : Hist := { bins := [], count := 0, min := 2 ^ 64 - 1, max := 0 }

/-- The bin of a value: 0 for 0, else b with 2^(b-1) ≤ v < 2^b, at most 63. -/
def histBin (v : Nat) : Nat := if v = 0 then 0 else min 63 (Nat.log2 v + 1)

def Hist.add (h : Hist) (v : Nat) : Hist :=
  { bins := tset (histBin v) (Nat.min ((tget (histBin v) h.bins).getD 0 + 1) (2 ^ 32 - 1)) h.bins,
    count := Nat.min (h.count + 1) (2 ^ 64 - 1), min := Nat.min h.min v, max := Nat.max h.max v }

/-- Counts a value of a source in every histogram that selects it. -/
def State.sample (s : State) (src v : Nat) (port partition : Option Nat) : State :=
  (List.range 16).foldl (fun s h =>
    if s.histMatches h src port partition then
      { s with tele := { s.tele with hists := tset h (((tget h s.tele.hists).getD Hist.empty).add v) s.tele.hists } }
    else s) s

/-- Nanoseconds since a LOCALTICK value: one AONCLK cycle is 10 ns (Table 18-1). -/
def State.since (s : State) (tick : Nat) : Nat := (s.tick - tick) * 10

/-! ### Requests of the runtime and their responses (R372 to R375) -/

/-- The age of a request ID: d of R374. -/
def State.ridAge (s : State) (reqId : Nat) : Nat := (s.get R.NELAR_CHIP_HIGH_RID + 2 ^ 32 - reqId % 2 ^ 32) % 2 ^ 32

/-! ### Energy (R434, Table 18-6) -/

/-- Charges eighths of an event to a partition; coefficients have 4 fraction bits, and the fraction of a nJ is carried. -/
def State.chargeEighths (s : State) (p event n : Nat) : State :=
  let t := (tget p s.power.fractions).getD 0 + n * s.get (R.PWR_COEF_COEF event)
  let s := s.wrap (R.PWR_ENERGY_NJ p) (t / 128000)
  { s with power := { s.power with fractions := tset p (t % 128000) s.power.fractions,
                                   attributed := s.power.attributed + t / 128000 } }

/-- Charges n units of an event to a partition. -/
def State.charge (s : State) (p event n : Nat) : State := s.chargeEighths p event (8 * n)

/-- A response body: STATUS, 7 reserved bytes, then what the format adds (R372). -/
def statusBody (e : Err) (more : List Byte := []) : List Byte := packBytes [(8, e.code), (56, 0)] ++ more

/-- The CODE of a response: that of its request, but ATTEST_REQ is answered by ATTEST_REPORT (Table 15-7). -/
def respCode (code : Nat) : Nat := if code = 0x18 then 0x19 else code

/-- Answers a request: the response is held with its ID and sent on the path of the latest copy (R374, R375). -/
def State.answer (s : State) (path : Path) (reqId code : Nat) (body : List Byte) : State :=
  match tget reqId s.nelar.requests with
  | some r =>
    let s := { s with nelar := { s.nelar with
      requests := tset reqId { r with answer := some (code, body) } s.nelar.requests } }
    s.sendRespTo r.path r.source { code := respCode code, resp := true, resent := false, reqId := reqId, body := body }
  | none => s.sendResp path { code := respCode code, resp := true, resent := false, reqId := reqId, body := body }

/-- Answers with a status alone. -/
def State.refuse (s : State) (h : Hdr) (code : Nat) (e : Err) : State := s.answer h.path h.reqId code (statusBody e)

/-- What a code's own response format adds to the status of a refusal (R82, R372, R383, R396, R415, R427): fields without a frame, a
tense, an epoch or a count to tell are free or 0 (log entry 36). -/
def State.refusalRest (s : State) (code : Nat) : List Byte :=
  if code = 0x20 then leBytes 8 (s.free 9)
  else if code = 0x21 ∨ code = 0x24 then packBytes [(8, s.free 0), (16, 0), (40, 0)]
  else if code = 0x22 ∨ code = 0x14 then leBytes 8 0
  else if code = 0x10 then packBytes [(32, s.free 0), (32, 0)]
  else if code = 0x40 then packBytes [(8, s.get R.BOOT_STAT_MODE), (56, 0)]
  else if code = 0x41 then packBytes [(16, s.get R.PWR_STAT_CAP_W), (48, 0)]
  else []

/-- A response to a request that is refused before its own checks and that is not held (R370, R372 step 1, R374). -/
def State.sendRefusal (s : State) (h : Hdr) (code : Nat) (status : List Byte) : State :=
  (s.sendResp h.path { code := respCode code, resp := true, resent := false, reqId := h.reqId,
                       body := status ++ s.refusalRest code }).freshen

/-- The same, held with its ID (R372 steps 3 and 4). -/
def State.refuseEarly (s : State) (h : Hdr) (code : Nat) (e : Err) : State :=
  (s.answer h.path h.reqId code (statusBody e (s.refusalRest code))).freshen

/-- A repeated MAP_WITHDRAW or WIN_REMOVE whose WITHDRAW_ACK has gone out gets it again, with its own REQ_ID and RESENT
(R70). -/
def State.resendAck (s : State) (reqId code : Nat) : State :=
  match tget reqId s.xlat.acked with
  | some b =>
    if code = 0x21 ∨ code = 0x24 then
      s.sendVia (s.get R.NELAR_CHIP_NOTIFY)
        { code := 0x29, resp := false, resent := true, reqId := fieldAt b 0 4, body := b.drop 4 }
    else s
  | none => s

/-- Takes a new request ID into R374: H, RID_VALID, and the latest 65,536 responses. -/
def State.takeRid (s : State) (h : Hdr) (code : Nat) : State :=
  let s := if s.get R.NELAR_CHIP_RID_VALID = 0 ∨ 2 ^ 31 ≤ s.ridAge h.reqId then s.set R.NELAR_CHIP_HIGH_RID h.reqId
           else s
  let s := s.set R.NELAR_CHIP_RID_VALID 1
  let s := { s with xlat := { s.xlat with acked := terase h.reqId s.xlat.acked } }
  { s with nelar := { s.nelar with
      requests := (tset h.reqId { path := h.path, source := s.sourceAt h.path, code := code, answer := none } s.nelar.requests).filter
        (fun r => decide (s.ridAge r.1 < 65536)) } }

/-- Whether a message is the one that FLIT_RECEIVE or UDP_DATAGRAM framed and admitted: its path, ID and code, and a body that `body`
accepts. -/
def Waiting.isFor (w : Waiting) (h : Hdr) (code : Nat) (body : List Byte → Bool) : Bool :=
  decide (w.path = h.path) && decide (w.reqId = h.reqId) && decide (w.code = code) && body w.body

def State.inInbox (s : State) (h : Hdr) (code : Nat) (body : List Byte → Bool) : Bool :=
  s.nelar.inbox.any (fun w => w.isFor h code body)

def State.leaveInbox (s : State) (h : Hdr) (code : Nat) (body : List Byte → Bool) : State :=
  { s with nelar := { s.nelar with inbox := s.nelar.inbox.filter (fun w => !w.isFor h code body) } }

/-- Whether the path carries requests now (Tables 15-4, 17-9; GLB_MGMT_CTL). -/
def State.pathUp (s : State) (p : Path) : Bool :=
  match p with
  | .nelarA => s.live && (s.linkState 0 == 4 || s.linkState 0 == 5)
  | .nelarB => s.live && (s.linkState 1 == 4 || s.linkState 1 == 5)
  | .mgmt0 => s.manageable && s.flag R.GLB_MGMT_CTL_EN_0
  | .mgmt1 => s.manageable && s.flag R.GLB_MGMT_CTL_EN_1
  | _ => false

/-- How the path and the ID of a request meet R370, R374 and steps 1 to 4 of R372. `nelar` and `mgmt` say which paths
Table 15-7 lists for the code; `lengthOk` that LENGTH is what the body format requires. The answer is the state and
whether the request goes on to its own checks. `body` says whether the body of a message that waits decodes to this request (R4). -/
def State.vet (s : State) (h : Hdr) (code : Nat) (nelar mgmt lengthOk : Bool) (body : List Byte → Bool) : State × Bool :=
  if !s.pathUp h.path then (s, false)
  else if s.bootState = 4 ∧ code ≠ 1 ∧ code ≠ 2 then (s, false)
  else if s.inInbox h code body then (s.leaveInbox h code body, true)
  else if h.resp then (s, false)
  else if h.path.isNelar ∧ s.linkState h.path.linkIndex = 5 then
    (s.sendRefusal h code (statusBody .disabled), false)
  else if h.chip ≠ s.chip then (s.sendRefusal h code (statusBody .format), false)
  else
    match s.flag R.NELAR_CHIP_RID_VALID && decide (s.ridAge h.reqId < 65536), tget h.reqId s.nelar.requests with
    | true, some r =>
      let s := { s with nelar := { s.nelar with
        requests := tset h.reqId { r with path := h.path, source := s.sourceAt h.path } s.nelar.requests } }
      match r.answer with
      | some (c, body) =>
        ((s.sendResp h.path { code := respCode c, resp := true, resent := true, reqId := h.reqId, body := body }).resendAck h.reqId
          r.code, false)
      | none => (s, false)
    | _, _ =>
      if s.flag R.NELAR_CHIP_RID_VALID ∧ 65536 ≤ s.ridAge h.reqId ∧ s.ridAge h.reqId < 2 ^ 31 then
        let s := s.count (R.NELAR_COUNT_STALE h.path.linkIndex)
        (s.sendRefusal h code (packBytes [(8, Err.code .resource), (8, 1), (16, 0), (32, s.get R.NELAR_CHIP_HIGH_RID)]), false)
      else
        let s := s.takeRid h code
        if h.reserved ∨ !lengthOk ∨ 16384 < h.length ∨ h.length % 8 ≠ 0 then (s.refuseEarly h code .format, false)
        else if (h.path.isNelar ∧ !nelar) ∨ (h.path.isMgmt ∧ !mgmt) then (s.refuseEarly h code .permission, false)
        else (s, true)

/-- Refuses with the rest of the message's response format. -/
def State.refuseWith (s : State) (h : Hdr) (code : Nat) (e : Err) (more : List Byte) : State :=
  s.answer h.path h.reqId code (statusBody e more)

/-- Runs a request once admitted. -/
def State.request (s : State) (h : Hdr) (code : Nat) (nelar mgmt lengthOk : Bool) (body : List Byte → Bool) (run : State → State) :
    State :=
  match s.vet h code nelar mgmt lengthOk body with
  | (s, true) => if s.frozen.isSome ∧ code ≠ 1 ∧ code ≠ 0x52 then s.refuseEarly h code .disabled else run s
  | (s, false) => s

/-- Refuses with the first check that holds, or runs. -/
def State.checked (s : State) (h : Hdr) (code : Nat) (checks : List (Bool × Err)) (run : State → State) : State :=
  match firstErr checks with
  | .none => run s
  | e => s.refuse h code e

/-- An identity that is its state: the outcome of a meaning. -/
def ok (s : State) : Host.Outcome State Fault Refusal := .next s

/-- Runs a step of the running chip; in reset, in freeze and in emergency off it has no effect (log entry 3). -/
def State.whenLive (s : State) (f : State → State) : State := if s.live then f s else s

end Sys2Proof.Machine
end

