-- ==== Sys2Proof/Machine/Fields.lean ====
section
/-! DEFINITION. Registers by address: the register and field at an address, register entries of a Stem or an Inflection, and
what a write does to a field by its access type (R410, R412, R463 to R466). -/

namespace Sys2Proof.Machine

/-! ### Lookup -/

/-- The instance of a register at an address, if the address is one of its. -/
def RegDesc.at? (d : RegDesc) (a : Nat) : Option (Nat × Nat) :=
  if a < d.base then none
  else
    let off := a - d.base
    let i := if d.s1 = 0 then 0 else off / d.s1
    let rest := if d.s1 = 0 then off else off % d.s1
    let j := if d.s2 = 0 then 0 else rest / d.s2
    let last := if d.s2 = 0 then rest else rest % d.s2
    if i < d.n1 ∧ j < d.n2 ∧ last = 0 then some (i, j) else none

/-- A register with its instance numbers. -/
def findIn (a : Nat) : List RegDesc → Option (RegDesc × Nat × Nat)
  | [] => none
  | d :: r =>
    match d.at? a with
    | some (i, j) => some (d, i, j)
    | none => findIn a r

/-- The register at an address of the register space (Table 20-1). -/
def regAt (a : Nat) : Option (RegDesc × Nat × Nat) := if a < 2 ^ 25 ∧ a % 8 = 0 then findIn a regTable else none

/-- A field of an instance as the state stores it. -/
def FieldDesc.fld (f : FieldDesc) (a i : Nat) : Fld := { key := a * 64 + f.lo, width := f.hi + 1 - f.lo, reset := f.reset i }

/-! ### Entries of Stems and Inflections (Table 17-6) -/

/-- The whole field that an entry names. -/
def entryField (e : RegEntry) : Option (RegDesc × Nat × FieldDesc) :=
  match regAt e.addr with
  | none => none
  | some (d, i, _) => (d.fields.find? (fun f => f.lo == e.lo && f.hi == e.hi)).map (fun f => (d, i, f))

/-- A value within a field's range. -/
def FieldDesc.inRange (f : FieldDesc) (v : Nat) : Bool :=
  decide (v < 2 ^ (f.hi + 1 - f.lo)) && decide (f.min ≤ v) && decide (v ≤ f.max)

/-- R410: an entry of the Stem. -/
def entryStemOk (e : RegEntry) : Bool :=
  match entryField e with
  | some (_, _, f) => (f.acc == .RW || f.acc == .RWL || f.acc == .RWS) && f.inRange e.value
  | none => false

/-- Table 17-7: the fields an Inflection may set. -/
def modeField (reg field : String) (acc : Access) : Bool :=
  if reg == "XLAT_FB_CTL" || reg == "PARSER_CTL" || reg == "PARSER_THRESH" || reg == "PARSER_LIMITS" || reg == "CONJ_CTL" ||
      reg == "SWC_TC_WEIGHT" then true
  else if reg == "PARSER_PLANES" then field == "EXCLUDE"
  else if reg == "SWC_CTL" then field == "NONMIN_CELLS" || field == "ESC_WAIT" || field == "NONMIN_EN" || field == "ADAPTIVE_EN"
  else if reg == "OPT_CTL" then field == "BURST_KIB"
  else if reg == "PTU_CTL" then field == "CAL_MS"
  else if reg == "LSM_CFG" then field == "EVAL_MS" || field == "MARGIN_LO"
  else if reg == "GDDR_CFG" then field == "RETRAIN_MS"
  else if reg == "TELE_CTL" || reg == "TELE_HCFG" then acc == .RW || acc == .RWL
  else if reg == "PWR_CTL" then field == "PREFER" || field == "HYST_US"
  else false

/-- R412: an entry of an Inflection. -/
def entryInflOk (e : RegEntry) : Bool :=
  match entryField e with
  | some (d, _, f) => modeField d.name f.name f.acc && f.inRange e.value
  | none => false

/-- The field of an entry as the state stores it. -/
def entryFld (e : RegEntry) : Option Fld := (entryField e).map (fun x => x.2.2.fld e.addr x.2.1)

/-- Applies entries in order, so a later entry for a field wins (R410, R412). -/
def State.applyEntries (s : State) (es : List RegEntry) : State :=
  es.foldl (fun (s : State) e => match entryFld e with
    | some f => s.set f e.value
    | none => s) s

/-- The value that a field takes from some entries alone, over its reset value. -/
def entryValue (es : List RegEntry) (f : Fld) : Nat :=
  es.foldl (fun v e => if e.addr * 64 + e.lo = f.key then e.value else v) f.reset

/-! ### Writes by access type (Table 20-2) -/

/-- A value brought to the nearest limit of a ranged field (R466). -/
def FieldDesc.clamp (f : FieldDesc) (v : Nat) : Nat := Nat.min f.max (Nat.max f.min v)

/-- What a write of 1 to a W1C field leaves: 0, but for the fields whose table names another action (Tables 12-9, 12-10). -/
def State.cleared (s : State) (reg field : String) (a : Nat) : Nat :=
  if reg == "SWC_POOL" && field == "MIN_SHARED" then 2 ^ 20 - 1
  else if reg == "SWC_PORT_DEPTH" then (tget (a * 64) s.regs).getD 0
  else 0

/-- One field of a register written: its bits of the value, by its type. -/
def State.writeField (s : State) (d : RegDesc) (a i value : Nat) (f : FieldDesc) : State :=
  let v := bits value f.hi f.lo
  match f.acc with
  | .RW | .RWS => s.set (f.fld a i) (f.clamp v)
  | .RWL => if s.flag R.GLB_LOCK_LOCKED then s else s.set (f.fld a i) (f.clamp v)
  | .W1C => if v = 0 then s else s.set (f.fld a i) (s.cleared d.name f.name a)
  | .RO | .WO | .HWU => s

/-- A register written, each field by its type; after the lock a register with an RWL field counts (R414, R465). -/
def State.writeFields (s : State) (d : RegDesc) (a i value : Nat) : State :=
  let s := d.fields.foldl (fun s f => s.writeField d a i value f) s
  if s.flag R.GLB_LOCK_LOCKED ∧ d.fields.any (fun f => f.acc == .RWL) then s.count R.GLB_LOCK_DENIED else s

/-- An access to reserved space is counted (R464). -/
def State.reservedAccess (s : State) (a : Nat) : State := (s.count R.GLB_RSVD_COUNT).set R.GLB_RSVD_LAST_ADDR a

end Sys2Proof.Machine
end

