-- ==== Sys2Proof/Machine/Addr.lean ====
section
/-! DEFINITION. Addresses and translation (chapter 2): FPAs, chip coordinates, windows, the page map, frames and free
lists, and the partition's share of them. -/

namespace Sys2Proof.Machine

/-! ### FPA (Table 2-3) -/

def fpaChip (a : Nat) : Nat := bits a 63 49
def fpaUnit (a : Nat) : Nat := bits a 48 43
def fpaOff (a : Nat) : Nat := bits a 42 0
def mkFpa (chip unit off : Nat) : Nat := chip * 2 ^ 49 + unit * 2 ^ 43 + off % 2 ^ 43

/-- The key of a local unit's byte in State.mem. -/
def memKey (unit off : Nat) : Nat := unit * 2 ^ 43 + off

/-- The key of a local frame: unit * 2^22 + frame number. -/
def frameKey (fpa : Nat) : Nat := fpaUnit fpa * 2 ^ 22 + bits fpa 42 21

/-- The FPA of the frame that holds an FPA. -/
def frameOf (fpa : Nat) : Nat := fpa / 2 ^ 21 * 2 ^ 21

/-! ### Coordinates (R10, R12) -/

/-- Widths of x, y and z in the chip ID. -/
def State.widths (s : State) : Nat × Nat × Nat :=
  match s.boot.stem with
  | some t => (t.bx, t.byw, t.bz)
  | none => (0, 0, 0)

/-- A coordinate of a chip: dimension 0 x, 1 y, 2 z. -/
def State.coord (s : State) (c d : Nat) : Nat :=
  match s.widths with
  | (bx, b, bz) => if d = 0 then c % 2 ^ bx else if d = 1 then c / 2 ^ bx % 2 ^ b else c / 2 ^ (bx + b) % 2 ^ bz

/-- The chip at the coordinate j of dimension d, others as chip c (R10). -/
def State.withCoord (s : State) (c d j : Nat) : Nat :=
  match s.widths with
  | (bx, b, _) =>
    let x := if d = 0 then j else s.coord c 0
    let y := if d = 1 then j else s.coord c 1
    let z := if d = 2 then j else s.coord c 2
    z * 2 ^ (bx + b) + y * 2 ^ bx + x

/-- The dimension of a plane (R11): 0, 1, 2, or 3 for a fibre beyond the counts. -/
def State.planeDim (s : State) (f : Nat) : Nat :=
  match s.boot.stem with
  | some t => if f < t.xFibres then 0 else if f < t.xFibres + t.yFibres then 1
              else if f < t.xFibres + t.yFibres + t.zFibres then 2 else 3
  | none => 3

/-- Ports of the AWGR of a dimension: N of R12. -/
def dimSize (d : Nat) : Nat := if d = 2 then 8 else 64

/-- The line to a coordinate j from coordinate i (R12). -/
def lineTo (d i j : Nat) : Nat := (j + dimSize d - i) % dimSize d

/-- The peer that transmit line k of fibre f reaches. -/
def State.peerOf (s : State) (f k : Nat) : Nat :=
  let d := s.planeDim f
  s.withCoord s.chip d ((s.coord s.chip d + k) % dimSize d)

/-- A direct peer differs in exactly one coordinate, of a dimension that has planes (R447). -/
def State.directDim (s : State) (u : Nat) : Option Nat :=
  let ds := (List.range 3).filter (fun d => s.coord u d != s.coord s.chip d)
  match ds with
  | [d] => if (List.range 32).any (fun f => s.planeDim f == d) then some d else none
  | _ => none

/-- Marked unreachable: LOST, or a direct peer in NEVER (R447). -/
def State.unreachable (s : State) (u : Nat) : Bool :=
  match tget u s.tele.reach with
  | some r => r.state == 2 || (r.state == 0 && (s.directDim u).isSome)
  | none => u != s.chip && (s.directDim u).isSome

/-! ### Page map (R42 to R48) -/

/-- The set of a key (R42). -/
def pmSet (p h : Nat) : Nat := Nat.xor (Nat.xor (bits h 17 0) (bits h 30 18 * 32)) (p * 64) % 2 ^ 18

/-- The entry that maps a page, with its index. -/
def State.pmFind (s : State) (p h : Nat) : Option (Nat × PmEntry) :=
  (List.range 16).findSome? (fun w =>
    match tget (pmSet p h * 16 + w) s.xlat.pageMap with
    | some e => if e.partition = p ∧ e.page = h then some (pmSet p h * 16 + w, e) else none
    | none => none)

/-- Valid ways of the set. -/
def State.pmWays (s : State) (p h : Nat) : Nat :=
  (List.range 16).countP (fun w => (tget (pmSet p h * 16 + w) s.xlat.pageMap).isSome)

def PmEntry.fpa (e : PmEntry) : Nat := mkFpa e.chip e.unit (e.frame * 2 ^ 21)

def State.setPm (s : State) (i : Nat) (e : PmEntry) : State :=
  { s with xlat := { s.xlat with pageMap := tset i e s.xlat.pageMap } }

def State.clearPm (s : State) (i : Nat) : State :=
  { s with xlat := { s.xlat with pageMap := terase i s.xlat.pageMap } }

/-! ### Windows (R35, R40) -/

/-- The FPA of a window offset (R40). -/
def windowFpa (e : WinEntry) (off : Nat) : Nat :=
  let su := 2 ^ e.suLog2
  let n := e.members.length
  let r := off / su / n
  match e.members[off / su % n]? with
  | some (chip, slot) =>
    let chip := if e.altSide ∧ r % 2 = 1 then Nat.xor chip 1 else chip
    mkFpa chip slot (e.devBase + r * su + off % su)
  | none => 0

/-- The permission bit of an operation: 0 read, 1 write, 2 atomic. -/
def permits (perm op : Nat) : Bool := bit perm op

/-- The result of a translation: an error, or an FPA and how many bytes from it lie in one extent. -/
structure Xl where
  err : Err
  fpa : Nat
  run : Nat
  deriving DecidableEq, Repr

/-- The window path of R35, in its order. -/
def State.xlWindow (s : State) (p fva op : Nat) : Xl :=
  let w := bits fva 50 44
  let off := bits fva 43 0
  if s.get (R.PART_WINDOWS_WIN_COUNT p) ≤ w then ⟨.unmapped, 0, 0⟩
  else
    match tget (s.get (R.PART_WINDOWS_WIN_FIRST p) + w) s.xlat.windows with
    | none => ⟨.unmapped, 0, 0⟩
    | some e =>
      if e.partition ≠ p then ⟨.partition, 0, 0⟩
      else if !permits e.perm op then ⟨.permission, 0, 0⟩
      else if e.length ≤ off then ⟨.bounds, 0, 0⟩
      else ⟨.none, windowFpa e off, 2 ^ e.suLog2 - off % 2 ^ e.suLog2⟩

/-- The page path of R47: an unmapped page, then the permission. POISON is not a translation check (R48). -/
def State.xlPage (s : State) (p fva op : Nat) : Xl :=
  match s.pmFind p (fva / 2 ^ 21) with
  | none => ⟨.unmapped, 0, 0⟩
  | some (_, e) =>
    if !permits e.perm op then ⟨.permission, 0, 0⟩
    else ⟨.none, e.fpa + fva % 2 ^ 21, 2 ^ 21 - fva % 2 ^ 21⟩

/-- Translation of one FVA of a partition for an operation (R28, R34). -/
def State.xlate (s : State) (p fva op : Nat) : Xl := if bit fva 51 then s.xlWindow p fva op else s.xlPage p fva op

/-- The partition's state as a check: DISABLED gives ERR_PARTITION, DRAINING ERR_DISABLED (R34). -/
def State.partErr (s : State) (p : Nat) : Err :=
  match s.get (R.PART_STATE_STATE p) with
  | 0 => .partition
  | 1 => .none
  | _ => .disabled

/-- Whether the page of an FVA is poisoned for an operation: a read of a stale-tolerant page that a replica on this
chip holds is served (R48, R259). -/
def State.poisonedPage (s : State) (p fva op : Nat) : Bool :=
  !bit fva 51 &&
    (match s.pmFind p (fva / 2 ^ 21) with
     | some (_, e) => e.poison && !(op == 0 && e.staleOk && (tget (e.fpa / 2 ^ 21) s.parser.replicas).isSome)
     | none => false)

/-- Whether bytes that an extent reaches are poisoned for an operation (R48): by the page's entry while it names the extent's
frame, else by the entry as a withdrawal found it, so that a new entry serves new translations alone (R69). -/
def State.poisonedRun (s : State) (p fva fpa op : Nat) : Bool :=
  !bit fva 51 &&
    (match s.pmFind p (fva / 2 ^ 21) with
     | some (_, e) => decide (e.fpa / 2 ^ 21 = fpa / 2 ^ 21) && s.poisonedPage p fva op
     | none => false) ||
  !bit fva 51 && s.xlat.withdrawals.any (fun w => w.partition == p &&
    w.entries.any (fun e => e.mapped && e.poisoned && e.frameFpa / 2 ^ 21 == fpa / 2 ^ 21))

/-- Whether some run of bytes from an FVA is poisoned. -/
def State.poisonedIn (s : State) (p op : Nat) : Nat → List (Nat × Nat) → Bool
  | _, [] => false
  | fva, r :: rs => s.poisonedRun p fva r.1 op || s.poisonedIn p op (fva + r.2) rs

/-- Whether an FVA lies in a window that run-ahead may not enter (R41). -/
def State.sideEffect (s : State) (p fva : Nat) : Bool :=
  bit fva 51 && (match tget (s.get (R.PART_WINDOWS_WIN_FIRST p) + bits fva 50 44) s.xlat.windows with
    | some e => e.sideEffect
    | none => false)

/-! ### Frames and free lists (R48, R49) -/

/-- Frames that a unit provides: GDDR_STAT.FRAMES, MEMP_STAT.FRAMES, and EDGE_STAT.FRAMES of its memory-role ports, as
ranges of frame numbers (R31, R351, R353). -/
def State.unitRanges (s : State) (u : Nat) : List (Nat × Nat) :=
  if u < 32 then [(0, s.get (R.GDDR_STAT_FRAMES (u - 16)))]
  else
    (0, s.get (R.MEMP_STAT_FRAMES (u - 32))) ::
      (((List.range 32).filter (fun p => s.get (R.EDGE_STAT_ROLE p) == 1 &&
          s.get (R.EDGE_STAT_FAR_UNIT p) == u - 32)).zipIdx.map
        (fun (p, j) => ((j + 1) * 2 ^ 19, s.get (R.EDGE_STAT_FRAMES p))))

/-- Whether a frame number lies in the populated capacity of a unit (R30). -/
def State.populated (s : State) (u n : Nat) : Bool :=
  (s.unitRanges u).any (fun r => decide (r.1 ≤ n) && decide (n < r.1 + r.2))

def State.frameRec (s : State) (k : Nat) : Option FrameRec := tget k s.xlat.frames

/-- Whether a frame number lies in memory that is lost: a slice, or the expander behind 1 TiB of a far unit (R31, R453). -/
def State.isLost (s : State) (u n : Nat) : Bool := s.xlat.lostParts.contains (8 * u + n / 2 ^ 19)

/-- Free: populated, held by nothing, and not lost (R453). -/
def State.isFree (s : State) (u n : Nat) : Bool :=
  s.populated u n && (s.frameRec (u * 2 ^ 22 + n)).isNone && !s.isLost u n

/-- The ranges of a unit that are not lost. -/
def State.liveRanges (s : State) (u : Nat) : List (Nat × Nat) := (s.unitRanges u).filter (fun r => !s.isLost u r.1)

/-- Frames of a unit that are held in memory that is not lost. -/
def State.heldOf (s : State) (u : Nat) : Nat :=
  s.xlat.frames.countP (fun f => f.1 / 2 ^ 22 == u && !s.isLost u (f.1 % 2 ^ 22))

/-- Free frames of a unit. -/
def State.freeCount (s : State) (u : Nat) : Nat := ((s.liveRanges u).map Prod.snd).sum - s.heldOf u

/-- The place of a frame number in the concatenation of ranges. -/
def ordinalOf : List (Nat × Nat) → Nat → Option Nat
  | [], _ => none
  | (a, n) :: r, k => if a ≤ k ∧ k < a + n then some (k - a) else (ordinalOf r k).map (n + ·)

/-- The frame number at a place of the concatenation. -/
def frameAt : List (Nat × Nat) → Nat → Option Nat
  | [], _ => none
  | (a, n) :: r, i => if i < n then some (a + i) else frameAt r (i - n)

/-- The number at a place among those that a rising list leaves out. -/
def nthOutside : Nat → List Nat → Nat
  | n, [] => n
  | n, h :: r => if n < h then n else nthOutside (n + 1) r

/-- One free frame of a unit: which one the free list gives is a free value (log entry 10). -/
def State.pickFree (s : State) (u : Nat) : Option Nat :=
  let rs := s.liveRanges u
  let c := s.freeCount u
  if c = 0 then none
  else
    let held := (s.xlat.frames.filter (fun f => f.1 / 2 ^ 22 == u)).filterMap (fun f => ordinalOf rs (f.1 % 2 ^ 22))
    frameAt rs (nthOutside (s.free 0 % c) held)

/-- The unit that a MAP_INSTALL of FRAME_MODE 1 or 2 draws on (R247). -/
def State.initialUnit (s : State) (mode page p : Nat) : Option Nat :=
  if mode = 1 then
    ((List.range 16).map (fun i => 16 + (page + p + i) % 16)).find? (fun u => decide (0 < s.freeCount u))
  else
    (List.range 4).foldl (fun b k =>
      match b with
      | none => if 0 < s.freeCount (32 + k) then some (32 + k) else none
      | some u => if s.freeCount u < s.freeCount (32 + k) then some (32 + k) else some u) none

/-- Near frames and far frames that count against a partition's quotas (Table 16-3). -/
def State.nearFree (s : State) : Nat := ((List.range 16).map (fun k => s.freeCount (16 + k))).sum

def State.quotaFull (s : State) (p u : Nat) : Bool :=
  if u < 32 then
    decide (s.get (R.PART_MEM_QUOTA_NEAR_QUOTA p) ≤
      s.get (R.PARSER_PART_NEAR_USED p) - s.get (R.CONJ_PART_SPILL_USED p))
  else decide (s.get (R.PART_MEM_QUOTA_FAR_QUOTA p) ≤ s.get (R.PART_FAR_USED_USED p))

/-- Takes a frame for a use: owner, and the partition's counts. -/
def State.takeFrame (s : State) (k : Nat) (r : FrameRec) : State :=
  let s := { s with xlat := { s.xlat with frames := tset k r s.xlat.frames } }
  if k / 2 ^ 22 < 32 then s.wrap (R.PARSER_PART_NEAR_USED r.owner) else s.wrap (R.PART_FAR_USED_USED r.owner)

/-- Returns a frame to its free list; a frame taken by MAP_INSTALL starts with no heat (R245). -/
def State.freeFrame (s : State) (k : Nat) : State :=
  match s.frameRec k with
  | none => s
  | some r =>
    let s := { s with xlat := { s.xlat with frames := terase k s.xlat.frames },
                      parser := { s.parser with heat := terase k s.parser.heat } }
    if k / 2 ^ 22 < 32 then s.less (R.PARSER_PART_NEAR_USED r.owner) else s.less (R.PART_FAR_USED_USED r.owner)

/-- Writes a frame full of zeros, with valid tags (R357). -/
def State.zeroFrame (s : State) (k : Nat) : State :=
  let a := memKey (k / 2 ^ 22) (k % 2 ^ 22 * 2 ^ 21)
  let keep := fun b => !(decide (a / 128 ≤ b) && decide (b < (a + 2 ^ 21) / 128))
  { s with mem := memClear s.mem a (2 ^ 21),
           home := { s.home with poisoned := s.home.poisoned.filter keep, badTags := s.home.badTags.filter keep } }

/-! ### Tense (R63, R64) -/

def State.tense (s : State) (p : Nat) : Nat := s.get (R.XLAT_TENSE_TENSE p)

/-- Translation tenses in flight of a partition: clauses, direct requests and weight loads hold one. A clause run here for
another chip holds a tense of that chip, not of this one. -/
def State.liveTenses (s : State) (p : Nat) : List Nat :=
  (s.work.clauses.filterMap (fun c =>
    if c.2.partition = p ∧ c.2.origin.isNone ∧ c.2.stage ≠ .done ∧ c.2.extents ≠ [] then some c.2.tense else none)) ++
  (s.edge.directs.filterMap (fun d => if d.2.partition = p then some d.2.tense else none)) ++
  (s.security.loads.filterMap (fun l => if l.2.body.partition = p then some l.2.tense else none))

def ageOf (now t : Nat) : Nat := (now + 256 - t) % 256

/-- Age of the oldest in-flight translation (R64, Table 3-16). -/
def State.oldestAge (s : State) (p : Nat) : Nat :=
  (s.liveTenses p).foldl (fun a t => max a (ageOf (s.tense p) t)) 0

/-! ### Partition ranges (R165) -/

def State.ownsCounter (s : State) (p n : Nat) : Bool :=
  decide (s.get (R.PART_COUNTERS_CTR_FIRST p) ≤ n) &&
    decide (n < s.get (R.PART_COUNTERS_CTR_FIRST p) + s.get (R.PART_COUNTERS_CTR_COUNT p))

def State.ownsQueue (s : State) (p q : Nat) : Bool :=
  decide (s.get (R.PART_QUEUES_QUEUE_FIRST p) ≤ q) &&
    decide (q < s.get (R.PART_QUEUES_QUEUE_FIRST p) + s.get (R.PART_QUEUES_QUEUE_COUNT p))

def State.counter (s : State) (n : Nat) : Nat := (tget n s.work.counters).getD 0

def State.setCounter (s : State) (n v : Nat) : State :=
  { s with work := { s.work with
      counters := if v % 2 ^ 64 = 0 then terase n s.work.counters else tset n (v % 2 ^ 64) s.work.counters } }

/-- Partitions that are not DISABLED. -/
def State.liveParts (s : State) : List Nat :=
  (tkeys s.security.parts).filter (fun p => s.get (R.PART_STATE_STATE p) != 0)

/-- Whether two ranges share a number. -/
def overlaps (a n b m : Nat) : Bool := decide (0 < n) && decide (0 < m) && decide (a < b + m) && decide (b < a + n)

end Sys2Proof.Machine
end

