-- ==== Sys2Proof/Machine/Flash.lean ====
section
/-! DEFINITION. The flash (R404 to R412): how a bank's header, directory, Stem, Inflections and tile firmware, and the owner
certificate, read from its bytes. -/

namespace Sys2Proof.Machine

/-- A byte string as a number, its first byte the most significant (R393). -/
def beNat (bs : List Byte) : Nat := leNat bs.reverse

/-- n bytes at an offset; bytes that a flash image does not list are erased. -/
def flashBytes (image : List Byte) (off n : Nat) : List Byte :=
  let x := (image.drop off).take n
  x ++ List.replicate (n - x.length) 0xff#8

def Bank.read (b : Bank) (off n : Nat) : List Byte := flashBytes b.bytes off n

def allZero (bs : List Byte) : Bool := bs.all (· == 0#8)

/-! ### Bank header and directory (Tables 17-2 to 17-4) -/

/-- A directory entry. -/
structure DirEntry where
  type : Nat
  length : Nat
  offset : Nat
  digest : Nat
  reserved : Bool
  deriving DecidableEq, Repr

/-- Table 17-3. -/
def dirEntryOf (b : List Byte) : DirEntry :=
  { type := fieldAt b 0 2, length := fieldAt b 4 4, offset := fieldAt b 8 8, digest := beNat ((b.drop 16).take 48),
    reserved := fieldAt b 2 2 != 0 }

def Bank.header (b : Bank) : List Byte := Bank.read b 0 4096

def Bank.seq (b : Bank) : Nat := fieldAt (Bank.header b) 16 8
def Bank.svn (b : Bank) : Nat := fieldAt (Bank.header b) 12 4

/-- The directory entries in use. -/
def Bank.dir (b : Bank) : List DirEntry :=
  let h := Bank.header b
  (List.range (fieldAt h 24 2)).map (fun i => dirEntryOf ((h.drop (64 + 64 * i)).take 64))

/-- The limit of a section type; none for a type of no section. -/
def sectionLimit (type : Nat) : Option Nat :=
  if type = 1 then some (2 ^ 20) else if type = 2 then some (2 ^ 24)
  else if 0x10 ≤ type ∧ type < 0x18 then some (2 ^ 16) else none

/-- "ONMSTEM1". -/
def bankMagic : List Byte := [0x4f#8, 0x4e#8, 0x4d#8, 0x53#8, 0x54#8, 0x45#8, 0x4d#8, 0x31#8]

/-- Step 2 of R406. -/
def Bank.headerOk (b : Bank) : Bool :=
  let h := Bank.header b
  let n := fieldAt h 24 2
  let d := Bank.dir b
  h.take 8 == bankMagic && fieldAt h 8 4 == 1 && decide (2 ≤ n) && decide (n ≤ 10) && allZero ((h.drop 26).take 6) &&
    allZero ((h.drop 48).take 16) && allZero ((h.drop (64 + 64 * n)).take (4000 - (64 + 64 * n))) &&
    d.all (fun e => !e.reserved && decide (e.offset % 4096 = 0) && decide (4096 ≤ e.offset) &&
      decide (e.offset + e.length ≤ 2 ^ 25) &&
      (match sectionLimit e.type with
       | some l => decide (e.length ≤ l)
       | none => false)) &&
    d.countP (fun e => e.type == 1) == 1 && d.countP (fun e => e.type == 2) == 1 &&
    (List.range 8).all (fun i => decide (d.countP (fun e => e.type == 0x10 + i) ≤ 1)) &&
    decide (d.Pairwise (fun e f => overlaps e.offset e.length f.offset f.length = false))

/-- The bytes of a section. -/
def Bank.body (b : Bank) (e : DirEntry) : List Byte := Bank.read b e.offset e.length

/-- The section of a type. -/
def Bank.section_ (b : Bank) (type : Nat) : Option DirEntry := (Bank.dir b).find? (fun e => e.type == type)

/-- Step 3 of R406: the owner certificate verifies, its OWNER_ID is the bank's, and its key verifies the bank. -/
def Bank.signed (b : Bank) (identity : List Byte) : Bool :=
  let c := flashBytes identity 0x2000 512
  let h := Bank.header b
  fieldAt c 0 4 == 1 && allZero ((c.drop 4).take 12) && allZero ((c.drop 128).take 288) &&
    Config.ecdsaVerify Config.rootKey (c.take 416) (beNat ((c.drop 416).take 96)) &&
    (c.drop 16).take 16 == (h.drop 32).take 16 &&
    Config.ecdsaVerify (beNat ((c.drop 32).take 96)) (h.take 4000) (beNat ((h.drop 4000).take 96))

/-- Step 4 of R406. -/
def Bank.digestsOk (b : Bank) : Bool := (Bank.dir b).all (fun e => Config.sha384 (Bank.body b e) == e.digest)

/-- Step 8 of R406. -/
def Bank.tilefwSigned (b : Bank) : Bool :=
  match (Bank.section_ b 2) with
  | none => false
  | some e =>
    let x := (Bank.body b e)
    decide (96 ≤ x.length) && Config.ecdsaVerify Config.rootKey (x.take (x.length - 96)) (beNat (x.drop (x.length - 96)))

/-! ### Register entries and Inflections (Table 17-6, R412) -/

/-- A register entry of 16 bytes; none when a reserved byte is nonzero or VALUE exceeds its field (R409). -/
def entryOf (b : List Byte) : Option RegEntry :=
  let e : RegEntry := { addr := fieldAt b 0 4, lo := fieldAt b 4 1, hi := fieldAt b 5 1, value := fieldAt b 8 8 }
  if fieldAt b 6 2 = 0 ∧ e.addr % 8 = 0 ∧ e.lo ≤ e.hi ∧ e.hi ≤ 63 ∧ e.value < 2 ^ (e.hi + 1 - e.lo) then some e else none

/-- The entries of some bytes. -/
def entriesOf (b : List Byte) : Option (List RegEntry) :=
  if b.length % 16 = 0 then (chop 16 b).mapM entryOf else none

/-- An INFL section n: its header and entries (R412). -/
def inflectionOf (n : Nat) (digest : Nat) (b : List Byte) : Option Inflection :=
  let k := fieldAt b 8 4
  if 16 ≤ b.length ∧ fieldAt b 0 4 = 1 ∧ fieldAt b 4 1 = n ∧ fieldAt b 5 3 = 0 ∧ fieldAt b 12 4 = 0 ∧ 1 ≤ k ∧ k ≤ 4095 ∧
      b.length = 16 + 16 * k then
    (entriesOf (b.drop 16)).map (fun es => { number := n, entries := es, digest := digest })
  else none

/-- The Inflections of a bank; none when one is not well formed in its layout. -/
def Bank.inflections (b : Bank) : Option (List Inflection) :=
  ((Bank.dir b).filter (fun e => decide (0x10 ≤ e.type))).mapM (fun e => inflectionOf (e.type - 0x10) e.digest (Bank.body b e))

/-! ### The Stem (Table 17-5) -/

/-- The records of a STEM section after its header: type and content; none where a record's header is not of its layout or
bytes are left over. -/
def stemRecords : Nat → List Byte → Option (List (Nat × List Byte))
  | 0, b => if b.isEmpty then some [] else none
  | k + 1, b =>
    let n := fieldAt b 4 4
    if 8 ≤ b.length ∧ fieldAt b 2 2 = 0 ∧ n % 8 = 0 ∧ n ≤ b.length - 8 then
      (stemRecords k (b.drop (8 + n))).map (fun rs => (fieldAt b 0 2, (b.drop 8).take n) :: rs)
    else none

/-- The length that Table 17-5 gives a record; none for REGS, whose length is its own. -/
def recordLength (type : Nat) : Option Nat :=
  if type = 2 then some 16 else if type = 3 then some 144 else if type = 4 then some 16 else if type = 5 then some 69664
  else if type = 6 then some 8 else if type = 7 then some 24 else if type = 8 then some 104 else if type = 9 then some 8
  else if type = 0xa then some 112 else none

/-- An edge-port entry; none when a reserved bit is set. -/
def portEntryOf (b : List Byte) : Option PortEntry :=
  let n := leNat b
  if n / 2 ^ 10 = 0 then
    some { role := bits n 1 0, bifurcate := bit n 2, ideRequired := bit n 3, slot := bits n 7 4, farUnit := bits n 9 8 }
  else none

/-- Reserved bytes of the fixed records are 0 (R409). -/
def recordReserved (type : Nat) (b : List Byte) : Bool :=
  if type = 2 then fieldAt b 7 1 == 0 && fieldAt b 12 4 == 0
  else if type = 4 then fieldAt b 12 4 == 0
  else if type = 5 then fieldAt b 20 12 == 0
  else if type = 7 then fieldAt b 6 2 == 0 && fieldAt b 20 4 == 0
  else if type = 8 then fieldAt b 97 7 == 0
  else if type = 9 then fieldAt b 1 3 == 0
  else if type = 0xa then fieldAt b 9 7 == 0
  else true

/-- A STEM section read by its layout; none when it has another form (R409). -/
def stemOf (digest : Nat) (b : List Byte) : Option Stem :=
  if 16 ≤ b.length ∧ fieldAt b 0 4 = 1 ∧ fieldAt b 4 4 = b.length ∧ fieldAt b 12 4 = 0 ∧ fieldAt b 8 4 ≤ 10 then
    match stemRecords (fieldAt b 8 4) (b.drop 16) with
    | none => none
    | some rs =>
      let at_ := fun t => ((rs.find? (fun r => r.1 == t)).map Prod.snd).getD []
      let has := fun t => rs.any (fun r => r.1 == t)
      let once := (rs.map Prod.fst).dedup.length == rs.length
      let form := rs.all (fun r => decide (1 ≤ r.1) && decide (r.1 ≤ 0xa) && recordReserved r.1 r.2 &&
        (match recordLength r.1 with
         | some n => r.2.length == n
         | none => true))
      if once ∧ form ∧ [1, 2, 3, 4, 5, 6, 7, 9].all has then
        match entriesOf (at_ 1), (chop 4 ((at_ 3).take 128)).mapM portEntryOf with
        | some regs, some ports =>
          let d := at_ 2
          let o := at_ 5
          let u := at_ 7
          some { regs := regs, xFibres := fieldAt d 0 1, yFibres := fieldAt d 1 1, zFibres := fieldAt d 2 1, bx := fieldAt d 3 1,
                 byw := fieldAt d 4 1, bz := fieldAt d 5 1, minPlanes := fieldAt d 6 1, fibreEn := fieldAt d 8 4, ports := ports,
                 mempIde := (chop 4 ((at_ 3).drop 128)).map (fun e => bit (leNat e) 3),
                 trayTag := fieldAt (at_ 4) 0 4, rackTag := fieldAt (at_ 4) 4 4, rowTag := fieldAt (at_ 4) 8 4,
                 lsmBias := (chop 2 (o.take 20)).map leNat, txeq := (chop 2 ((o.drop 32).take 4096)).map leNat,
                 ptuSeeds := chop 16384 (o.drop 4128),
                 txnUs := fieldAt (at_ 6) 0 4, drainUs := fieldAt (at_ 6) 4 4,
                 partLo := fieldAt u 0 2, partHi := fieldAt u 2 2, maxSlot := fieldAt u 4 2, maxNear := fieldAt u 8 4,
                 maxFar := fieldAt u 12 4, maxOutstanding := fieldAt u 16 4,
                 mode := if has 8 then some (fieldAt (at_ 8) 96 1, beNat ((at_ 8).take 96)) else none,
                 brakeFloorPct := fieldAt (at_ 9) 0 1, capInitW := fieldAt (at_ 9) 4 4,
                 debugAuth := if has 0xa then some (fieldAt (at_ 0xa) 0 8, fieldAt (at_ 0xa) 8 1, beNat ((at_ 0xa).drop 16)) else none,
                 digest := digest }
        | _, _ => none
      else none
  else none

/-- The Stem of a bank. -/
def Bank.stem (b : Bank) : Option Stem := (Bank.section_ b 1).bind (fun e => stemOf e.digest (Bank.body b e))

end Sys2Proof.Machine
end

