-- ==== Sys2Proof/Machine/Package.lean ====
section
/-! DEFINITION. The package (chapter 21): signals and balls, rails, operating conditions, fibre positions, and the levels that
the chip drives on its reset pins. -/

namespace Sys2Proof.Machine

/-! ### Balls (R473 to R476) -/

/-- A group of signals. -/
inductive PinGroup where
  | edge (p : Nat)
  | memp (k : Nat)
  | nelar (l : Nat)
  | gddr (s : Nat)
  | misc
  deriving DecidableEq, Repr

/-- Signals of a group (Table 21-1). -/
def PinGroup.count : PinGroup → Nat
  | .edge _ => 64 | .memp _ => 32 | .nelar _ => 36 | .gddr _ => 55 | .misc => 125

/-- Origin row and column, width and row step of a group (Table 21-2). -/
def PinGroup.place : PinGroup → Nat × Nat × Nat × Nat
  | .edge p => (52 + 15 * (p / 8), 22 + 9 * (p % 8), 8, 2)
  | .memp k => (52 + 15 * k, 95, 8, 2)
  | .nelar l => (82 + 15 * l, 104, 6, 2)
  | .gddr s => (4 + 11 * (s / 4), 22 + 18 * (s % 4), 8, 1)
  | .misc => (30, 2, 16, 2)

/-- The groups of the package. -/
def pinGroups : List PinGroup :=
  (List.range 32).map .edge ++ (List.range 4).map .memp ++ (List.range 2).map .nelar ++ (List.range 16).map .gddr ++ [.misc]

/-- Row and column index of signal n of a group (R475). -/
def PinGroup.at_ (g : PinGroup) (n : Nat) : Nat × Nat :=
  match g.place with
  | (r0, c0, w, d) => (r0 + d * (n / w), c0 + n % w)

/-- Signal n of an edge port by lane and kind: 0 TXP, 1 TXN, 2 RXP, 3 RXN (Table 21-1). -/
def laneSignal (lane kind : Nat) : Nat := 4 * lane + kind

/-- The letters of row names. -/
def rowLetters : List Char := "ABCDEFGHJKLMNPTUVWY".toList

/-- The name of a row (R474). -/
def rowName (r : Nat) : List Char :=
  if r < 19 then [(rowLetters[r]?).getD ' '] else [(rowLetters[r / 19 - 1]?).getD ' ', (rowLetters[r % 19]?).getD ' ']

/-- The name of a ball: its row's name and its column number (R474). -/
def ballName (r c : Nat) : List Char × Nat := (rowName r, c + 1)

/-! ### Rails (R476, R477) -/

/-- A rail: recommended and absolute limits in mV, maximum current in A, and the rows and columns of its region. -/
structure Rail where
  low : Nat
  high : Nat
  absLow : Nat
  absHigh : Nat
  amps : Nat
  rows : Nat × Nat
  cols : Nat × Nat
  deriving DecidableEq, Repr

/-- Table 21-3, in its order: VDD_CORE, VDD_SRAM, VDD_SERDES, VDD_PHOT, VDDQ_GDDR, VDD_IO, VDD_AON. -/
def rails : List Rail :=
  [⟨728, 773, 600, 900, 900, (0, 50), (86, 115)⟩, ⟨776, 824, 650, 950, 150, (0, 25), (0, 9)⟩,
   ⟨873, 927, 750, 1050, 120, (112, 115), (22, 109)⟩, ⟨1164, 1236, 1000, 1400, 60, (0, 25), (10, 19)⟩,
   ⟨1164, 1236, 1000, 1400, 30, (44, 50), (22, 83)⟩, ⟨1746, 1854, 1500, 2100, 4, (26, 27), (0, 9)⟩,
   ⟨776, 824, 650, 950, 2, (26, 27), (10, 19)⟩]

/-- Whether a rail's voltage lies outside its absolute limits, at which the rail monitor acts (R455, R477). -/
def railOut (rail mv : Nat) : Bool :=
  match rails[rail]? with
  | some r => decide (mv < r.absLow) || decide (r.absHigh < mv)
  | none => false

/-- What a ball carries: a signal of a group, a rail by its row of Table 21-3, or VSS (R476). -/
inductive Ball where
  | signal (g : PinGroup) (n : Nat)
  | rail (i : Nat)
  | vss
  deriving DecidableEq, Repr

/-- The signal of a group at a ball. -/
def PinGroup.signalAt (g : PinGroup) (r c : Nat) : Option Nat :=
  (List.range g.count).find? (fun n => g.at_ n == (r, c))

/-- The ball at a row and column index (R475, R476). -/
def ballAt (r c : Nat) : Ball :=
  match pinGroups.findSome? (fun g => (g.signalAt r c).map (fun n => (g, n))) with
  | some (g, n) => .signal g n
  | none =>
    match rails.findIdx? (fun x => decide (x.rows.1 ≤ r) && decide (r ≤ x.rows.2) && decide (x.cols.1 ≤ c) && decide (c ≤ x.cols.2)) with
    | some i => if (r + c) % 2 = 0 then .rail i else .vss
    | none => .vss

/-! ### Pins that the chip drives (R473, R479) -/

/-- EDGE_PERST_N of a port: low until the port's role lets it train, in reset and in BOOT_FAIL. -/
def State.edgePerstN (s : State) (p : Nat) : Bool :=
  s.live && s.get (R.EDGE_STAT_ROLE p) != 2 && s.get (R.EDGE_STAT_STATE p) != 0

/-- MEMP_PERST_N of a memory port. -/
def State.mempPerstN (s : State) (k : Nat) : Bool := s.live && s.get (R.MEMP_STAT_STATE k) != 0

/-! ### Conditions and fibre positions (R481, R483, R484) -/

/-- The hottest junction, in thousandths of a degree, that a power in W and an inlet temperature allow at 2.0 L/min (R483). -/
def junctionBound (watts inlet : Nat) : Nat := 1000 * inlet + 40 * watts

/-- Row and position on the trunk connector of a fibre, transmit or receive (Table 21-5). -/
def trunkPosition (fibre : Nat) (tx : Bool) : Nat × Nat := ((if tx then 0 else 2) + fibre / 16, fibre % 16)

end Sys2Proof.Machine
end

