-- ==== Sys2Proof/Machine/Num.lean ====
section
/-! DEFINITION. Number formats (chapter 8): codes, values, rounding, saturation, conversion, block scaling. Every value
is an exact dyadic or a ratio of naturals; a result is rounded once (R193). -/

namespace Sys2Proof.Machine

/-! ### Formats (Table 8-1) -/

/-- Width in bits. -/
def fmtWidth : Nat → Nat
  | 0 | 9 => 64
  | 1 | 10 => 32
  | 2 | 3 | 11 => 16
  | 4 | 5 | 12 | 14 => 8
  | 6 | 7 => 6
  | 8 | 13 => 4
  | _ => 8

/-- Width of an element in a vector register: a 6-bit format counts as 8 bits (R192). -/
def regWidth (c : Nat) : Nat := if c = 6 ∨ c = 7 then 8 else fmtWidth c

def fmtExp : Nat → Nat
  | 0 => 11 | 1 => 8 | 2 => 5 | 3 => 8 | 4 => 4 | 5 => 5 | 6 => 3 | 7 => 2 | 8 => 2 | _ => 0

def fmtMan : Nat → Nat
  | 0 => 52 | 1 => 23 | 2 => 10 | 3 => 7 | 4 => 3 | 5 => 2 | 6 => 2 | 7 => 3 | 8 => 1 | _ => 0

def fmtBias : Nat → Nat
  | 0 => 1023 | 1 => 127 | 2 => 15 | 3 => 127 | 4 => 7 | 5 => 15 | 6 => 3 | 7 => 1 | 8 => 1 | 14 => 127 | _ => 0

def isFloatFmt (c : Nat) : Bool := decide (c ≤ 8)
def isIntFmt (c : Nat) : Bool := decide (9 ≤ c) && decide (c ≤ 13)

/-- Formats with infinities (Table 8-2). -/
def hasInf (c : Nat) : Bool := decide (c ≤ 3) || c == 5

/-- The code of the largest finite magnitude (Table 8-2). -/
def maxCode (c : Nat) : Nat :=
  if hasInf c then (2 ^ fmtExp c - 1) * 2 ^ fmtMan c - 1
  else if c = 4 then 0x7e
  else 2 ^ (fmtExp c + fmtMan c) - 1

/-! ### Values -/

/-- A value: NaN, an infinity, or (-1)^neg * mag * 2^exp; a zero keeps its sign. -/
inductive Num where
  | nan
  | inf (neg : Bool)
  | fin (neg : Bool) (mag : Nat) (exp : Int)
  deriving DecidableEq, Repr

def Num.zero : Num := .fin false 0 0

def Num.ofInt (i : Int) : Num := .fin (decide (i < 0)) i.natAbs 0

/-- The value of a code (Tables 8-1, 8-2). -/
def decodeNum (c n : Nat) : Num :=
  let w := fmtWidth c
  let m := fmtMan c
  if isIntFmt c then
    let v := n % 2 ^ w
    if v < 2 ^ (w - 1) then .fin false v 0 else .fin true (2 ^ w - v) 0
  else if c = 14 then if n % 256 = 255 then .nan else .fin false 1 ((n % 256 : Nat) - 127)
  else
    let neg := bit n (w - 1)
    let e := bits n (w - 2) m
    let f := n % 2 ^ m
    let top := 2 ^ fmtExp c - 1
    if hasInf c ∧ e = top then if f = 0 then .inf neg else .nan
    else if c = 4 ∧ e = top ∧ f = 7 then .nan
    else if e = 0 then .fin neg f (1 - (fmtBias c : Int) - m)
    else .fin neg (2 ^ m + f) ((e : Int) - fmtBias c - m)

/-! ### Rounding (R193 to R195) -/

/-- Sticky flags: invalid, overflow, underflow, inexact, saturated (Table 6-5, FFLAGS). -/
def flInvalid : Nat := 1
def flOverflow : Nat := 2
def flUnderflow : Nat := 4
def flInexact : Nat := 8
def flSaturated : Nat := 16

/-- The natural nearest a / b in a mode of Table 8-3, with the random number r for mode 2. -/
def roundNat (mode r a b : Nat) : Nat :=
  let q := a / b
  let d := a % b
  match mode with
  | 0 => if b < 2 * d ∨ (2 * d = b ∧ q % 2 = 1) then q + 1 else q
  | 1 => q
  | _ => if r < d * 65536 / b then q + 1 else q

/-- a / b * 2^exp as a ratio in units of 2^q. -/
def inUnits (a b : Nat) (exp q : Int) : Nat × Nat :=
  if q ≤ exp then (a * 2 ^ (exp - q).toNat, b) else (a, b * 2 ^ (q - exp).toNat)

/-- Floor of the binary logarithm of a / b * 2^exp, a and b nonzero. -/
def floorLog2 (a b : Nat) (exp : Int) : Int :=
  let l : Int := (Nat.log2 a : Int) - Nat.log2 b
  match inUnits a b 0 l with
  | (x, y) => exp + (if x < y then l - 1 else l)

/-- The code and flags of (-1)^neg * a / b * 2^exp in a format (R195, Table 8-4). -/
def encodeFin (c mode r : Nat) (neg : Bool) (a b : Nat) (exp : Int) : Nat × Nat :=
  let w := fmtWidth c
  if isIntFmt c then
    match inUnits a b exp 0 with
    | (x, y) =>
      let n := roundNat mode r x y
      let lim := if neg then 2 ^ (w - 1) else 2 ^ (w - 1) - 1
      let put := fun v => if neg then (2 ^ w - v) % 2 ^ w else v
      if lim < n then (put lim, flOverflow + flInexact + flSaturated)
      else (put n, if x % y = 0 then 0 else flInexact)
  else
    let m := fmtMan c
    let sign := if neg then 2 ^ (w - 1) else 0
    if a = 0 then (sign, 0)
    else
      let e := floorLog2 a b exp
      let emin : Int := 1 - fmtBias c
      let q := max e emin - m
      match inUnits a b exp q with
      | (x, y) =>
        let n := roundNat mode r x y
        let code := if n < 2 ^ m then n else (q + m + fmtBias c).toNat * 2 ^ m + (n - 2 ^ m)
        if maxCode c < code then
          if c ≤ 3 ∧ mode ≠ 1 then (sign + maxCode c + 1, flOverflow + flInexact)
          else (sign + maxCode c, flOverflow + flInexact + flSaturated)
        else (sign + code, if x % y = 0 then 0 else flInexact + (if e < emin then flUnderflow else 0))

/-- The canonical NaN of a format, or what stands for it (R190, Table 8-4). -/
def nanCode (c : Nat) : Nat :=
  if hasInf c then (2 ^ fmtExp c - 1) * 2 ^ fmtMan c + 2 ^ (fmtMan c - 1)
  else if c = 4 then 0x7f else if c = 14 then 0xff else 0

/-- FP32 to E8M0, with its flags (R198). -/
def encodeE8m0 : Num → Nat × Nat
  | .nan | .inf _ => (0xff, 0)
  | .fin _ a e =>
    if a = 0 then (0, 0)
    else
      let k := 127 + floorLog2 a 1 e
      if k < 0 then (0, flSaturated) else if 254 < k then (254, flSaturated) else (k.toNat, 0)

/-- The code and flags of a value in a format (Table 8-4). -/
def encodeNum (c mode r : Nat) (x : Num) : Nat × Nat :=
  if c = 14 then encodeE8m0 x
  else match x with
  | .nan => (nanCode c, if hasInf c ∨ c = 4 then 0 else flInvalid)
  | .inf neg =>
    if hasInf c then ((if neg then 2 ^ (fmtWidth c - 1) else 0) + (2 ^ fmtExp c - 1) * 2 ^ fmtMan c, 0)
    else if isIntFmt c then
      (if neg then 2 ^ (fmtWidth c - 1) else 2 ^ (fmtWidth c - 1) - 1, flInvalid + flSaturated)
    else ((if neg then 2 ^ (fmtWidth c - 1) else 0) + maxCode c, flInvalid + flSaturated)
  | .fin neg a e => encodeFin c mode r neg a 1 e

/-! ### Arithmetic, exact; the flag says invalid (R190) -/

def Num.neg : Num → Num
  | .nan => .nan
  | .inf n => .inf !n
  | .fin n a e => .fin (!n) a e

/-- The signed integer of a value in units of 2^q, q at most its exponent. -/
def scaledInt (n : Bool) (a : Nat) (e q : Int) : Int :=
  if n then -((a * 2 ^ (e - q).toNat : Nat) : Int) else (a * 2 ^ (e - q).toNat : Nat)

/-- Sum; an exact zero is negative only when both terms are (PRESUMED, log entry 11). -/
def Num.add : Num → Num → Num × Bool
  | .nan, _ | _, .nan => (.nan, false)
  | .inf a, .inf b => if a = b then (.inf a, false) else (.nan, true)
  | .inf a, _ => (.inf a, false)
  | _, .inf b => (.inf b, false)
  | .fin n a e, .fin m b f =>
    let q := min e f
    let t := scaledInt n a e q + scaledInt m b f q
    if t = 0 then (.fin (n && m) 0 0, false) else (.fin (decide (t < 0)) t.natAbs q, false)

def Num.mul : Num → Num → Num × Bool
  | .nan, _ | _, .nan => (.nan, false)
  | .inf a, .inf b => (.inf (a != b), false)
  | .inf a, .fin m b _ => if b = 0 then (.nan, true) else (.inf (a != m), false)
  | .fin n a _, .inf b => if a = 0 then (.nan, true) else (.inf (n != b), false)
  | .fin n a e, .fin m b f => (.fin (n != m) (a * b) (e + f), false)

/-- x + y * z with no intermediate rounding. -/
def Num.fma (x y z : Num) : Num × Bool :=
  match Num.mul y z with
  | (p, i) => match Num.add x p with
    | (s, j) => (s, i || j)

/-- Three-way comparison; none when a NaN takes part. Zeros are equal. -/
def Num.cmp : Num → Num → Option Ordering
  | .nan, _ | _, .nan => none
  | .inf a, .inf b => some (if a = b then .eq else if a then .lt else .gt)
  | .inf a, _ => some (if a then .lt else .gt)
  | _, .inf b => some (if b then .gt else .lt)
  | .fin n a e, .fin m b f =>
    let q := min e f
    some (compare (scaledInt n a e q) (scaledInt m b f q))

def Num.isNan : Num → Bool
  | .nan => true
  | _ => false

def Num.isNeg : Num → Bool
  | .nan => false
  | .inf n => n
  | .fin n _ _ => n

def Num.lt (x y : Num) : Bool := Num.cmp x y == some .lt

/-- Minimum and maximum of Table 8-7: a NaN loses to any number, and -0 is below +0. -/
def Num.redMin (x y : Num) : Num :=
  if x.isNan then y else if y.isNan then x
  else if Num.lt x y || (Num.cmp x y == some .eq && x.isNeg) then x else y

def Num.redMax (x y : Num) : Num :=
  if x.isNan then y else if y.isNan then x
  else if Num.lt y x || (Num.cmp x y == some .eq && !x.isNeg) then x else y

/-! ### Conversion (R196 to R198) -/

/-- Group of a format in Table 8-5. -/
def convGroup : Nat → Nat
  | 0 => 0 | 1 => 1 | 2 => 2 | 3 => 2 | 4 => 3 | 5 => 3 | 6 => 4 | 7 => 4 | 8 => 4 | 9 => 5 | 10 => 6 | 11 => 6
  | 12 => 6 | 13 => 7 | _ => 8

/-- Rows of Table 8-5: bit g set when the pair with destination group g is allowed. -/
def convRow : Nat → Nat
  | 0 => 0b001100011
  | 1 => 0b111111111
  | 2 => 0b011011110
  | 3 => 0b000001110
  | 4 => 0b000010110
  | 5 => 0b001100011
  | 6 => 0b011100111
  | 7 => 0b011000110
  | _ => 0b100000010

/-- Whether Table 8-5 marks a pair Y. -/
def convAllowed (src dst : Nat) : Bool :=
  decide (src ≤ 14) && decide (dst ≤ 14) && bit (convRow (convGroup src)) (convGroup dst)

/-- Converts a code; the same format returns the input bit for bit (R196). -/
def convert (src dst mode r n : Nat) : Nat × Nat :=
  if src = dst then (n, 0) else encodeNum dst mode r (decodeNum src n)

/-- Whether a conversion rounds, and so draws under mode 2: not the same format, not E8M0 (R198), not between integers
(log entry 12). -/
def convRounds (src dst : Nat) : Bool := src != dst && dst != 14 && !(isIntFmt src && isIntFmt dst)

/-! ### Stochastic rounding in a context (R194) -/

def stepSeed (seed : Nat) : Nat :=
  let s0 := if seed = 0 then 0x9e3779b97f4a7c15 else seed
  let s1 := Nat.xor s0 (s0 * 2 ^ 13 % 2 ^ 64)
  let s2 := Nat.xor s1 (s1 / 2 ^ 7)
  Nat.xor s2 (s2 * 2 ^ 17 % 2 ^ 64)

/-- RMODE, SEED and FFLAGS of a context. -/
structure Env where
  rmode : Nat
  seed : Nat
  flags : Nat
  deriving DecidableEq, Repr

/-- The random number of the next rounded element. -/
def Env.draw (e : Env) : Env × Nat :=
  if e.rmode = 2 then ({ e with seed := stepSeed e.seed }, stepSeed e.seed / 2 ^ 48) else (e, 0)

def Env.raise (e : Env) (fl : Nat) : Env := { e with flags := Nat.lor e.flags fl }

/-- Rounds an exact result into a format under RMODE. -/
def Env.round (e : Env) (c : Nat) (x : Num × Bool) : Env × Nat :=
  match e.draw with
  | (e, r) => match encodeNum c e.rmode r x.1 with
    | (v, fl) => (e.raise (Nat.lor fl (if x.2 then flInvalid else 0)), v)

/-- Rounds under RNE with no step of SEED (R193). -/
def Env.rne (e : Env) (c : Nat) (x : Num × Bool) : Env × Nat :=
  match encodeNum c 0 0 x.1 with
  | (v, fl) => (e.raise (Nat.lor fl (if x.2 then flInvalid else 0)), v)

/-- Converts under RMODE. -/
def Env.conv (e : Env) (src dst n : Nat) : Env × Nat :=
  if convRounds src dst then e.round dst (decodeNum src n, false)
  else match convert src dst 0 0 n with
    | (v, fl) => (e.raise fl, v)

/-! ### Packed elements (R191) -/

/-- Element i, w bits wide, of a little-endian number. -/
def elem (w n i : Nat) : Nat := n / 2 ^ (w * i) % 2 ^ w

/-- Elements packed with no gaps. -/
def packElems (w : Nat) : List Nat → Nat
  | [] => 0
  | v :: r => v % 2 ^ w + 2 ^ w * packElems w r

/-- The first n elements of a byte string. -/
def elems (w n : Nat) (bs : List Byte) : List Nat := (List.range n).map (elem w (leNat bs))

/-- Elements as bytes, the unused high bits 0. -/
def elemBytes (w : Nat) (vs : List Nat) : List Byte := leBytes (ceilDiv (w * vs.length) 8) (packElems w vs)

/-! ### Block scaling (R199 to R201) -/

/-- emax of R200. -/
def blockEmax : Nat → Int
  | 4 => 8 | 5 => 15 | 6 => 4 | 7 => 2 | 8 => 2 | _ => 0

/-- Exponent of a block element's own unit: INT8 stands for its integer times 2^-6. -/
def blockShift (c : Nat) : Int := if c = 12 then -6 else 0

/-- x times 2^k. -/
def Num.scale (x : Num) (k : Int) : Num :=
  match x with
  | .fin n a e => .fin n a (e + k)
  | y => y

/-- The value of an element under a scale code (R201). -/
def blockDecode (c scale n : Nat) : Num :=
  if scale = 255 then .nan else (decodeNum c n).scale ((scale : Int) - 127 + blockShift c)

def Num.absMax (xs : List Num) : Num :=
  xs.foldl (fun b x => match x with
    | .fin _ a e => if Num.lt b (.fin false a e) then .fin false a e else b
    | _ => b) Num.zero

/-- Forms a block from values in a mode; `r i` is the random number of element i (R200). -/
def blockEncode (c mode : Nat) (r : Nat → Nat) (xs : List Num) : Nat × List Nat :=
  if xs.any (fun x => match x with | .fin _ _ _ => false | _ => true) then (255, xs.map (fun _ => 0))
  else
    match Num.absMax xs with
    | .fin _ a e =>
      if a = 0 then (0, xs.map (fun _ => 0))
      else
        let k := 127 + floorLog2 a 1 e - blockEmax c
        let scale := if k < 0 then 0 else if 254 < k then 254 else k.toNat
        (scale, xs.zipIdx.map (fun (x, i) =>
          (encodeNum c mode (r i) (x.scale (127 - (scale : Int) - blockShift c))).1))
    | _ => (255, xs.map (fun _ => 0))

end Sys2Proof.Machine
end

