-- ==== Sys2Proof/Machine/Optic.lean ====
section
/-! DEFINITION. The arithmetic of the photonic transform units (chapter 11): coefficients, coding, the detector's result with
its analog error, the same on tiles, and H. -/

namespace Sys2Proof.Machine

/-! ### Coefficients (R267, R268) -/

def coefGain (c : List Byte) : Num := decodeNum 1 (fieldAt c 0 4)

/-- Q[i][j] or w[k][i] as a value. -/
def coefAt (c : List Byte) (r i : Nat) : Num := decodeNum 1 (fieldAt c (64 + 4 * (64 * r + i)) 4)

def numSum (xs : List Num) : Num := xs.foldl (fun a x => (Num.add a x).1) Num.zero

/-- Magnitude at most 2^k. -/
def atMost (x : Num) (k : Int) : Bool :=
  match x with
  | .fin _ a e => !Num.lt (.fin false 1 k) (.fin false a e)
  | _ => false

/-- Whether COEF may be used (R268). -/
def coefOk (bank : Bool) (inputs : Nat) (c : List Byte) : Bool :=
  (match coefGain c with
   | .fin _ a _ => a != 0
   | _ => false) &&
    leNat ((c.drop 4).take 60) == 0 &&
    (if bank then (List.range inputs).all (fun k => (List.range 64).all (fun i => atMost (coefAt c k i) 0))
     else (List.range 64).all (fun i => (List.range 64).all (fun j =>
       atMost (Num.add (numSum ((List.range 64).map (fun k => (Num.mul (coefAt c k i) (coefAt c k j)).1)))
         (if i = j then .fin true 1 0 else Num.zero)).1 (-12))))

/-! ### One output vector -/

/-- The exponent of a vector's scale: ⌈log2 amax⌉; none for a vector of zeros (R272). -/
def vecScale (xs : List Num) : Option Int :=
  match Num.absMax xs with
  | .fin _ a e =>
    if a = 0 then none
    else some (let l := floorLog2 a 1 e
               if Num.cmp (.fin false a e) (.fin false 1 l) == some .eq then l else l + 1)
  | _ => none

/-- The code of an element under a scale: RNE(127 x / s). -/
def vecCode (x : Num) (k : Int) : Int :=
  match x with
  | .fin n a e =>
    match inUnits (127 * a) 1 (e - k) 0 with
    | (p, q) => if n then -((roundNat 0 0 p q : Nat) : Int) else (roundNat 0 0 p q : Nat)
  | _ => 0

/-- Whether a vector holds a NaN or an infinity. -/
def oddVec (xs : List Num) : Bool := xs.any (fun x => match x with
  | .fin _ _ _ => false
  | _ => true)

/-- What a unit or the tiles multiply by: the gain, and Q[i][j] or w[k][i] by row and column (R267). -/
structure Weights where
  bank : Bool
  gain : Num
  at_ : Nat → Nat → Num

/-- The weights that COEF bytes give. -/
def coefWeights (bank : Bool) (c : List Byte) : Weights := { bank := bank, gain := coefGain c, at_ := coefAt c }

/-- H (R233): the sign of element (i, j) over 8. -/
def hWeights : Weights :=
  { bank := false, gain := .fin false 1 0, at_ := fun i j => .fin (popcount 6 (Nat.land i j) % 2 == 1) 1 (-3) }

/-- COEF of H, as a rotation unit's coefficient store holds it (R278). -/
def hCoef : List Byte :=
  leBytes 4 0x3f800000 ++ List.replicate 60 0#8 ++
    (List.range 64).flatMap (fun i => (List.range 64).flatMap (fun j =>
      leBytes 4 (if popcount 6 (Nat.land i j) % 2 = 1 then 0xbe000000 else 0x3e000000)))

/-- The weighted terms of output element i from the inputs' elements, each given as a value by stream and element. -/
def terms (q : Weights) (i : Nat) (x : Nat → Nat → Num) (inputs : Nat) : List Num :=
  if q.bank then (List.range inputs).map (fun k => (Num.mul (q.at_ k i) (x k i)).1)
  else (List.range 64).map (fun j => (Num.mul (q.at_ i j) (x 0 j)).1)

/-- 2^32 times the bound 2^-b(W) on the RMS error of an output element, as a part of full scale, by WINDOW (Table 11-3). -/
def rmsBound (window : Nat) : Nat :=
  match window with
  | 0 => 2 ^ 27
  | 1 => 94906265
  | 2 => 2 ^ 26
  | 3 => 47453132
  | 4 => 2 ^ 25
  | _ => 25429504

/-- The output vectors that take a path of their own (R272): canonical NaNs for a NaN or an infinity among the inputs, +0 for
inputs that are all zero. -/
def plainVector (out : Nat) (xss : List (List Num)) : Option (List Nat) :=
  if xss.any oddVec then some (List.replicate 64 (nanCode out))
  else if (xss.map vecScale).all Option.isNone then some (List.replicate 64 0)
  else none

/-- An output vector through the optics at a window: the exact result on the coded inputs, with an analog error of err / 2^16
times F * 2^-b(W) on each element, converted under RNE (R272, R273). R273 bounds the error in distribution alone, so err is a
free value (log entry 24). -/
def opticVector (q : Weights) (window out : Nat) (err : Nat → Int) (xss : List (List Num)) : List Nat :=
  match plainVector out xss with
  | some ys => ys
  | none =>
    let ks := xss.map vecScale
    let x := fun k i => match (ks.drop k).headD none with
      | some e => (Num.ofInt (vecCode (((xss.drop k).headD []).drop i |>.headD Num.zero) e)).scale e
      | none => Num.zero
    let full := numSum (ks.map (fun k => match k with
      | some e => Num.fin false 1 (if q.bank then e else e + 3)
      | none => Num.zero))
    let f := match q.gain with
      | .fin _ a e => (Num.mul (.fin false a e) full).1
      | _ => Num.zero
    (List.range 64).map (fun i =>
      let y := (Num.mul q.gain (numSum (terms q i x xss.length))).1
      -- The codes carry a factor 127 that the division at the end takes out.
      let y := (Num.add y (((Num.mul (Num.ofInt (127 * err i * rmsBound window)) f).1).scale (-48))).1
      match y with
      | .fin n a e => (encodeFin out 0 0 n a 127 e).1
      | _ => nanCode out)

/-- An output vector on tiles: FP32 FMAs in ascending order, then G, then FMT_OUT, each rounded under RNE (R278, log
entry 25). -/
def tileVector (q : Weights) (out : Nat) (xss : List (List Num)) : List Nat :=
  match plainVector out xss with
  | some ys => ys
  | none =>
    (List.range 64).map (fun i =>
      let x := fun k j => ((xss.drop k).headD []).drop j |>.headD Num.zero
      let acc := if q.bank then (List.range xss.length).foldl (fun a k =>
          (encodeNum 1 0 0 (Num.fma (decodeNum 1 a) (q.at_ k i) (x k i)).1).1) 0
        else (List.range 64).foldl (fun a j =>
          (encodeNum 1 0 0 (Num.fma (decodeNum 1 a) (q.at_ i j) (x 0 j)).1).1) 0
      (convert 1 out 0 0 (encodeNum 1 0 0 (Num.mul q.gain (decodeNum 1 acc)).1).1).1)

/-! ### Units -/

def Ptu.reset : Ptu :=
  { coef := [], tables := [], waiting := [], running := none, fetched := none, asking := false, heldVecs := 0, held := [],
    lastFailed := false, rot := false, calibrating := false, carrierLost := false }

def State.ptu (s : State) (u : Nat) : Ptu := (tget u s.ptus).getD Ptu.reset

/-- A unit that begins cold calibration, with its tables from the Stem's seeds (R276) and what its coefficient store holds. -/
def State.coldPtu (s : State) (u : Nat) (coef : List Byte) : Ptu :=
  { Ptu.reset with coef := coef, tables := (s.boot.stem.bind (fun t => t.ptuSeeds[u]?)).getD [] }

def State.setPtu (s : State) (u : Nat) (p : Ptu) : State := { s with ptus := tset u p s.ptus }

def State.modPtu (s : State) (u : Nat) (f : Ptu → Ptu) : State := s.setPtu u (f (s.ptu u))

/-- PTU_STAT.STATE (Table 11-4). -/
def State.ptuState (s : State) (u : Nat) : Nat := s.get (R.PTU_STAT_STATE u)

end Sys2Proof.Machine
end

