-- ==== Sys2Proof/Machine/Fab.lean ====
section
/-! DEFINITION. Frames (chapter 12): the Article and its checks, routing, the shared buffer and its cells, the tracker of
outstanding requests, and responses. -/

namespace Sys2Proof.Machine

/-! ### Checks over bytes (R289, Tables 12-5 and 15-5) -/

/-- One bit of CRC-16, polynomial 0x1021. -/
def crc16Step (c : Nat) (b : Bool) : Nat :=
  if bit c 15 != b then Nat.xor (c * 2 % 65536) 0x1021 else c * 2 % 65536

/-- CRC-16 over bytes, most significant bit of each first, initial value 0xFFFF. -/
def crc16 (bs : List Byte) : Nat :=
  bs.foldl (fun c b => (List.range 8).foldl (fun c i => crc16Step c (bit b.toNat (7 - i))) c) 0xffff

/-! ### The Article (Table 12-2) -/

/-- The fields in layout order, reserved fields 0. -/
def articleFields (a : Article) : List (Nat × Nat) :=
  [(64, a.dest), (8, a.opcode), (8, a.flags), (12, a.partition), (3, a.vc), (1, 0), (8, a.tense), (3, a.tc),
   (5, a.plane), (13, a.length), (3, 0), (15, a.srcChip), (1, 0), (6, a.srcUnit), (2, 0), (6, a.line), (2, 0),
   (24, a.lseq), (17, a.tag), (7, 0), (32, a.aux), (16, a.hcrc)]

/-- The 32 bytes of an Article. -/
def articleBytes (a : Article) : List Byte := packBytes (articleFields a)

/-- The Article that 32 bytes hold. -/
def articleOf (bs : List Byte) : Article :=
  let n := leNat bs
  { dest := bits n 63 0, opcode := bits n 71 64, flags := bits n 79 72, partition := bits n 91 80, vc := bits n 94 92,
    tense := bits n 103 96, tc := bits n 106 104, plane := bits n 111 107, length := bits n 124 112,
    srcChip := bits n 142 128, srcUnit := bits n 149 144, line := bits n 157 152, lseq := bits n 183 160,
    tag := bits n 200 184, aux := bits n 239 208, hcrc := bits n 255 240 }

/-- The HCRC of an Article. -/
def articleHcrc (a : Article) : Nat := crc16 ((articleBytes a).take 30)

/-- The CRC of a frame's tail. -/
def frameCrc (a : Article) (payload : List Byte) : Nat := crc32c (articleBytes a ++ payload)

/-- A frame as sent on a hop: HCRC and CRC computed anew (R289). -/
def sealFrame (a : Article) (payload : List Byte) (stomp : Nat) : Frame :=
  let a := { a with hcrc := articleHcrc a }
  { art := a, payload := payload, crc := frameCrc a payload, stomp := stomp }

/-- FLAGS bits (Table 12-3). -/
def flMcast : Nat := 0
def flOrd : Nat := 1
def flNonmin : Nat := 2
def flRetx : Nat := 3
def flSpec : Nat := 4

/-- Class of an opcode (Table 12-4): 0 request, 1 response, 2 management, 3 reserved code. -/
def opClass (op : Nat) : Nat :=
  if 1 ≤ op ∧ op ≤ 7 then 0
  else if 8 ≤ op ∧ op ≤ 0xe then 1
  else if op = 0x10 ∨ op = 0x11 ∨ op = 0x12 then 0
  else if op = 0x13 ∨ op = 0x14 then 1
  else if op = 0x15 ∨ op = 0x30 then 2
  else 3

/-- VCs on which an opcode may travel (Table 12-4). -/
def opVcs (op : Nat) (ord : Bool) : List Nat :=
  if op = 2 then (if ord then [4] else [2, 4])
  else if op = 3 then (if ord then [4] else [0, 4])
  else if op = 1 ∨ (4 ≤ op ∧ op ≤ 7) then [0, 4]
  else if op = 8 then [1, 2, 5]
  else if 9 ≤ op ∧ op ≤ 0xe then [1, 5]
  else if op = 0x10 ∨ op = 0x11 ∨ op = 0x12 then [2, 4]
  else if op = 0x13 ∨ op = 0x14 then [1, 5]
  else if op = 0x15 ∨ op = 0x30 then [3]
  else []

/-- Cells of a frame of LENGTH bytes (R289). -/
def cellsOf (len : Nat) : Nat := ceilDiv (40 + len) 256

/-- Whether step 3 of R290 passes a frame received on a fibre by a drop ring. -/
def frameForm (a : Article) (fibre line : Nat) : Bool :=
  decide (a.plane = fibre) && (bit a.flags flMcast || decide (a.line = line)) &&
    decide (opClass a.opcode < 3) && decide (a.length ≤ 4096) && (opVcs a.opcode (bit a.flags flOrd)).contains a.vc

/-! ### Hops and planes -/

/-- The key of a hop. -/
def hopKey (fibre line : Nat) : Nat := fibre * 64 + line

def Hop.reset : Hop :=
  { up := false, lostByLight := false, heard := false, nonce := 0, answered := none, txNext := 0, rxNext := 0,
    nacked := false, closed := false, mTxLast := none, mRxLast := none, mOpen := false, credit := [], given := [], wants := [],
    mAcked := none, corrected := 0, uncorr := 0, resends := 0, granted := [], held := [], sentAt := [], ctl := [], peerDrains := false, drainDone := false, query := false }

def State.hop (s : State) (k : Nat) : Hop := (tget k s.fabric.hops).getD Hop.reset

def State.setHop (s : State) (k : Nat) (h : Hop) : State :=
  { s with fabric := { s.fabric with hops := tset k h s.fabric.hops } }

def State.modHop (s : State) (k : Nat) (f : Hop → Hop) : State := s.setHop k (f (s.hop k))

/-- Lines of a plane that carry frames: 1 to 63, or 1 to 7 on a Z plane (R12). -/
def State.usedLines (s : State) (f : Nat) : List Nat :=
  match s.planeDim f with
  | 0 | 1 => (List.range 63).map (· + 1)
  | 2 => (List.range 7).map (· + 1)
  | _ => []

/-- OPT_STAT.STATE: 0 OFF, 1 SEARCHING, 2 ACTIVE, 3 DRAINING, 4 DISABLED, 5 FAILED. -/
def State.fibre (s : State) (f : Nat) : Nat := s.get (R.OPT_STAT_STATE f)

/-- A plane that routing may choose: its fibre is ACTIVE (R303, R336). -/
def State.planeLocked (s : State) (f : Nat) : Bool := s.fibre f == 2

/-- The line of a plane toward a chip that differs in the plane's dimension. -/
def State.lineToward (s : State) (f dst : Nat) : Nat :=
  lineTo (s.planeDim f) (s.coord s.chip (s.planeDim f)) (s.coord dst (s.planeDim f))

/-- Whether a hop may be chosen for new frames. -/
def State.hopOpen (s : State) (f line : Nat) : Bool :=
  s.planeLocked f && (s.hop (hopKey f line)).up && !(s.hop (hopKey f line)).peerDrains

/-- Cells queued for an output core port. -/
def State.queuedCells (s : State) (port : Nat) : Nat :=
  (s.fabric.frames.map (fun e =>
    if e.2.queued ∧ e.2.out = some port then cellsOf e.2.frame.art.length else 0)).sum

/-- Cells queued for an output and a VC. -/
def State.queuedCellsVc (s : State) (port vc : Nat) : Nat :=
  (s.fabric.frames.map (fun e =>
    if e.2.queued ∧ e.2.out = some port ∧ e.2.frame.art.vc = vc then cellsOf e.2.frame.art.length else 0)).sum

/-- Credit held for a hop and VC. -/
def State.creditOf (s : State) (k vc : Nat) : Nat := (tget vc (s.hop k).credit).getD 0

/-! ### Routing (R303 to R305) -/

/-- The fewest queued cells first, then the lowest plane; candidates without credit last. -/
def State.bestPlane (s : State) (len vc : Nat) (cands : List (Nat × Nat)) : Option (Nat × Nat) :=
  let cost := fun (c : Nat × Nat) =>
    (if s.creditOf (hopKey c.1 c.2) vc < cellsOf len then 2 ^ 40 else 0) + s.queuedCells (32 + c.1) * 64 + c.1
  cands.foldl (fun b c => match b with
    | none => some c
    | some d => if cost c < cost d then some c else some d) none

/-- Minimal candidates toward a chip: every open plane of a dimension still to cross, bulk frames within the mask; an unreachable next
hop is none (R262, R292, R303). -/
def State.minimalHops (s : State) (dst : Nat) (vc : Nat) : List (Nat × Nat) :=
  (List.range 32).filterMap (fun f =>
    let d := s.planeDim f
    let u := s.peerOf f (s.lineToward f dst)
    if d < 3 ∧ s.coord dst d ≠ s.coord s.chip d ∧ s.hopOpen f (s.lineToward f dst) ∧
        (vc ≠ 2 ∨ bit (s.get R.PARSER_PLANES_BULK) f) ∧ (u = dst ∨ !s.unreachable u) then
      some (f, s.lineToward f dst)
    else none)

/-- The first dimension still to cross. -/
def State.nextDim (s : State) (dst : Nat) : Option Nat :=
  (List.range 3).find? (fun d => s.coord dst d != s.coord s.chip d)

/-- Planes of a dimension that are locked. -/
def State.lockedPlanes (s : State) (d : Nat) : List Nat :=
  (List.range 32).filter (fun f => s.planeDim f == d && s.planeLocked f)

/-- The escape route's hop (R304): the hash chooses among the planes whose hop toward the destination is open. -/
def State.escapeHop (s : State) (a : Article) : Option (Nat × Nat) :=
  match s.nextDim (fpaChip a.dest) with
  | none => none
  | some d =>
    let ps := (s.lockedPlanes d).filter (fun f => s.hopOpen f (s.lineToward f (fpaChip a.dest)))
    match (ps.drop (Config.escapeHash a.srcChip (fpaChip a.dest) (fpaUnit a.dest) % ps.length)).head? with
    | some f => some (f, s.lineToward f (fpaChip a.dest))
    | none => none

/-- A pinned plane, which its pair keeps using while the fibre drains (R336); where it is down, the next locked plane of the dimension,
ascending and wrapping (R305). -/
def State.pinnedPlane (s : State) (d pin dst : Nat) : Option Nat :=
  let line := fun f => s.lineToward f dst
  ((List.range 32).map (fun i => (pin + i) % 32)).find? (fun f => s.planeDim f == d &&
    (s.hopOpen f (line f) || (f == pin && (s.fibre f == 2 || s.fibre f == 3) && (s.hop (hopKey f (line f))).up)))

/-- The hop of an ordered frame: dimension order, on its pinned planes; X from the source's record (R305). -/
def State.orderedHop (s : State) (a : Article) (xPlane : Nat) : Option (Nat × Nat) :=
  match s.nextDim (fpaChip a.dest) with
  | none => none
  | some d =>
    let pin := if d = 0 then xPlane else if d = 1 then bits a.aux 4 0 else bits a.aux 9 5
    match s.pinnedPlane d pin (fpaChip a.dest) with
    | some f => some (f, s.lineToward f (fpaChip a.dest))
    | none => none

/-- A non-minimal hop: an open hop of a remaining dimension to a coordinate other than its own and the destination's;
which one is a free value (R303). -/
def State.nonminHop (s : State) (dst vc : Nat) : Option (Nat × Nat) :=
  let c := (List.range 32).flatMap (fun f =>
    let d := s.planeDim f
    if d < 3 ∧ s.coord dst d ≠ s.coord s.chip d ∧ (vc ≠ 2 ∨ bit (s.get R.PARSER_PLANES_BULK) f) then
      (s.usedLines f).filterMap (fun l =>
        if s.hopOpen f l ∧ l ≠ s.lineToward f dst ∧ !s.unreachable (s.peerOf f l) then some (f, l) else none)
    else [])
  (c.drop (s.free 1 % c.length)).head?

/-- A chunk of a DIRECT phase or its CHECK: it takes minimal routes alone (Table 9-3, log entry 123). -/
def directPhase (a : Article) : Bool := (a.opcode == 0x10 || a.opcode == 0x11) && bits a.dest 34 32 == 7

/-- The hop of a frame on VC0, VC1 or VC2, with whether it is non-minimal (R303). -/
def State.adaptiveHop (s : State) (a : Article) : Option (Nat × Nat × Bool) :=
  let dst := fpaChip a.dest
  if s.get R.SWC_CTL_ADAPTIVE_EN = 0 then (s.escapeHop a).map (fun h => (h.1, h.2, false))
  else
    let cands := s.minimalHops dst a.vc
    let crowded := cands.all (fun c => decide (s.get R.SWC_CTL_NONMIN_CELLS < s.queuedCells (32 + c.1)))
    if !bit a.flags flNonmin ∧ !directPhase a ∧ s.flag R.SWC_CTL_NONMIN_EN ∧ crowded ∧ cands ≠ [] ∧
        s.free 0 % 2 = 1 ∧ (s.nonminHop dst a.vc).isSome then
      (s.nonminHop dst a.vc).map (fun h => (h.1, h.2, true))
    else (s.bestPlane a.length a.vc cands).map (fun h => (h.1, h.2, false))

/-- The core port of a unit of this chip (R291, Table 12-1); none for a reserved unit. -/
def State.unitPort (s : State) (u : Nat) : Option Nat :=
  if u < 16 then
    (List.range 32).find? (fun p =>
      s.get (R.EDGE_STAT_ROLE p) == 0 && s.get (R.EDGE_STAT_SLOT p) == u && s.get (R.EDGE_STAT_STATE p) == 2)
  else if u < 32 then some (64 + (u - 16))
  else if u < 36 then some (80 + (u - 32))
  else if u = 48 ∨ u = 49 then some 136
  else if u = 50 then some 137
  else if u = 63 then some 140
  else none

/-- The core port of a frame for this chip. INVAL and DIR concern the chip's caches and Parser, not the memory behind the
unit their DEST names, so a unit that is absent here does not refuse them (log entry 42). -/
def State.framePort (s : State) (a : Article) : Option Nat :=
  if a.opcode = 4 ∨ a.opcode = 6 then some ((s.unitPort (fpaUnit a.dest)).getD 136) else s.unitPort (fpaUnit a.dest)

/-- Where a lookup sends a frame: output core port, line of a trunk output, and NONMIN (R291). -/
def State.lookup (s : State) (a : Article) (xPlane : Nat) : Option (Nat × Nat × Bool) :=
  if fpaChip a.dest = s.chip then (s.framePort a).map (fun p => (p, 0, false))
  else if a.vc = 4 ∧ bit a.flags flOrd then (s.orderedHop a xPlane).map (fun h => (32 + h.1, h.2, false))
  else if a.vc = 4 ∨ a.vc = 5 ∨ a.vc = 3 then (s.escapeHop a).map (fun h => (32 + h.1, h.2, false))
  else (s.adaptiveHop a).map (fun h => (32 + h.1, h.2.1, h.2.2))

/-! ### The shared buffer (R297 to R300) -/

/-- Charges a frame to its input, to the shared pool when R298 allows, and stores it. -/
def State.storeFrame (s : State) (f : Frame) (inPort : Nat) (out : Option (Nat × Nat)) (mlines : List Nat) : State :=
  let n := cellsOf f.art.length
  let shared := decide (n ≤ s.get R.SWC_POOL_SHARED_FREE) &&
    decide (s.get (R.SWC_PORT_DEPTH_CELLS inPort) + n ≤ s.get (R.SWC_IMAX_IMAX inPort)) &&
    (match out with
     | some (p, _) => decide (s.queuedCellsVc p f.art.vc + n ≤ s.get (R.SWC_LIMIT_OMAX p f.art.vc))
     | none => true)
  let slot : FrameSlot :=
    { frame := f, inPort := inPort, inLine := 0, inVc := f.art.vc, shared := shared, out := out.map Prod.fst, line := (out.map Prod.snd).getD 0,
      seq := s.fabric.nextSeq, queued := true, stomped := false, holds := [], mlines := mlines,
      mseq := none, noCredit := false }
  let s := { s with fabric := { s.fabric with frames := tset s.fabric.nextFrame slot s.fabric.frames,
                                               nextFrame := s.fabric.nextFrame + 1, nextSeq := s.fabric.nextSeq + 1 } }
  let s := if opClass f.art.opcode = 2 then s else s.charge f.art.partition 1 (40 + f.art.length)
  let s := s.less R.SWC_POOL_FREE n
  let s := if shared then
      let s := s.less R.SWC_POOL_SHARED_FREE n
      s.set R.SWC_POOL_MIN_SHARED (min (s.get R.SWC_POOL_MIN_SHARED) (s.get R.SWC_POOL_SHARED_FREE))
    else s
  let s := s.wrap (R.SWC_PORT_DEPTH_CELLS inPort) n
  let s := s.set (R.SWC_PORT_DEPTH_PEAK inPort)
    (max (s.get (R.SWC_PORT_DEPTH_PEAK inPort)) (s.get (R.SWC_PORT_DEPTH_CELLS inPort)))
  (s.count (R.SWC_PORT_FRAMES_IN inPort)).count (R.SWC_PORT_BYTES_IN_BYTES inPort) f.art.length

/-- A LINK_CTL message waits for the next burst to the peer of a hop (R322, Tables 13-4 and 13-5). -/
def State.sendCtl (s : State) (k ty kind line vc v0 v1 v2 : Nat) : State :=
  s.modHop k (fun h => { h with ctl := h.ctl ++
    [(ty, { src := s.chip, fibre := k / 64, plane := k / 64, kind := kind, line := line, vc := vc, value0 := v0, value1 := v1,
            value2 := v2 })] })

/-- The account of a trunk input gets credit back: a CREDIT message for the chip that sent the frame (R298, R320). -/
def State.giveCredit (s : State) (inPort srcLine vc n : Nat) : State :=
  if 32 ≤ inPort ∧ inPort < 64 then
    let k := hopKey (inPort - 32) srcLine
    (s.modHop k (fun h => { h with given := tset vc ((tget vc h.given).getD 0 + n) h.given })).sendCtl k 3 0 0 vc n 0 0
  else s

/-- Cells of an input's frames of a VC that are charged to its reserve (R298). -/
def State.reserveUsed (s : State) (port vc : Nat) : Nat :=
  (s.fabric.frames.map (fun (e : Nat × FrameSlot) =>
    if e.2.inPort = port ∧ !e.2.shared ∧ e.2.inVc = vc then cellsOf e.2.frame.art.length else 0)).sum

/-- Whether an injecting unit has the credit for a frame: it started with IRES cells and gets them back as they are freed (R298). -/
def State.hasCredit (s : State) (x : Injection) : Bool :=
  decide (s.reserveUsed x.port x.frame.art.vc + cellsOf x.frame.art.length ≤ s.get (R.SWC_LIMIT_IRES x.port x.frame.art.vc))

/-- Takes a frame in at its core port, under the output chosen for it or its lookup. -/
def State.admitFrame (s : State) (x : Injection) : State :=
  match x.fixed with
  | some o => (s.storeFrame x.frame x.port (some o) x.mlines).freshen
  | none =>
    let a := x.frame.art
    match s.lookup a x.xPlane with
    | some (p, l, nm) =>
      (s.storeFrame (sealFrame { a with flags := if nm then setBit a.flags flNonmin else a.flags } x.frame.payload 0) x.port
        (some (p, l)) x.mlines).freshen
    | none => (s.storeFrame x.frame x.port none x.mlines).freshen

/-- A unit offers a frame: it waits behind earlier ones of its port and VC, and for credit; a sender never sends without (R298). -/
def State.offerFrame (s : State) (x : Injection) : State :=
  if s.fabric.waitIn.any (fun w => w.port == x.port && w.frame.art.vc == x.frame.art.vc) || !s.hasCredit x then
    { s with fabric := { s.fabric with waitIn := s.fabric.waitIn ++ [x] } }
  else s.admitFrame x

/-- Takes waiting frames in, oldest first, while there is credit. -/
def State.takeIn : List Injection → State → State
  | [], s => s
  | x :: r, s =>
    if s.hasCredit x then State.takeIn r ({ s with fabric := { s.fabric with waitIn := s.fabric.waitIn.erase x } }.admitFrame x)
    else s

/-- The waiting frames of an input port and VC, once cells of its reserve are free. -/
def State.pumpIn (s : State) (port vc : Nat) : State :=
  State.takeIn (s.fabric.waitIn.filter (fun w => w.port == port && w.frame.art.vc == vc)) s

/-- Frees a frame's cells when no queue and no retry hold names it (R300). -/
def State.dropIfFree (s : State) (id : Nat) : State :=
  match tget id s.fabric.frames with
  | none => s
  | some slot =>
    if slot.queued ∨ slot.holds ≠ [] ∨ slot.mlines ≠ [] then s
    else
      let n := cellsOf slot.frame.art.length
      let s := { s with fabric := { s.fabric with frames := terase id s.fabric.frames } }
      let s := s.wrap R.SWC_POOL_FREE n
      let s := if slot.shared then s.wrap R.SWC_POOL_SHARED_FREE n
               else if slot.noCredit then s
               else s.giveCredit slot.inPort slot.inLine slot.inVc n
      let s := s.less (R.SWC_PORT_DEPTH_CELLS slot.inPort) n
      if slot.shared then s else s.pumpIn slot.inPort slot.inVc

def State.modSlot (s : State) (id : Nat) (f : FrameSlot → FrameSlot) : State :=
  { s with fabric := { s.fabric with frames := tmod id f s.fabric.frames } }

/-- Takes a frame out of every queue and hold and frees it. -/
def State.removeFrame (s : State) (id : Nat) : State :=
  (s.modSlot id (fun e => { e with queued := false, holds := [], mlines := [] })).dropIfFree id

/-! ### Sending -/

/-- The traffic class of a partition (R302). -/
def State.tcOf (s : State) (p : Nat) : Nat := s.get (R.PART_STATE_TC p)

/-- An Article that this chip builds, with no hop fields. -/
def State.article (s : State) (dest op flags partition vc tense srcUnit tag aux len : Nat) : Article :=
  { dest := dest, opcode := op, flags := flags, partition := partition, vc := vc, tense := tense,
    tc := if opClass op = 2 then 7 else s.tcOf partition, plane := 0, length := len, srcChip := s.chip,
    srcUnit := srcUnit, line := 0, lseq := 0, tag := tag, aux := aux, hcrc := 0 }

/-- Puts a frame for another chip at an input core port; one whose destination is marked unreachable goes nowhere (R292). -/
def State.inject (s : State) (inPort : Nat) (a : Article) (payload : List Byte) (xPlane : Nat := 0) : State :=
  if s.unreachable (fpaChip a.dest) then s
  else s.offerFrame { port := inPort, frame := sealFrame a payload 0, xPlane := xPlane, fixed := none, mlines := [] }

/-- Records a completed access of this chip; its continuation runs when the step settles. -/
def State.finish (s : State) (k : Cont) (e : Err) (data : List Byte) : State :=
  { s with home := { s.home with finished := s.home.finished ++ [(k, e, data)] } }

/-- The lowest key from n that a table does not list. -/
def firstGap {α : Type} (n : Nat) : Tbl α → Nat
  | [] => n
  | (k, _) :: t => if k = n then firstGap (n + 1) t else n

/-- The continuation that a piece or a line fill serves in the end. -/
def State.rootOf (s : State) : Nat → Cont → Cont
  | 0, k => k
  | n + 1, k =>
    match k with
    | .part g _ => match tget g s.home.gathers with
      | some x => State.rootOf s n x.cont
      | none => k
    | .fill _ _ _ _ k' => State.rootOf s n k'
    | .lineFill _ _ _ _ k' => State.rootOf s n k'
    | _ => k

/-- The source of R84 behind a write or atomic: an accelerator slot, or a tile context. -/
def State.sourceOf (s : State) (k : Cont) : Option Nat :=
  match s.rootOf 8 k with
  | .direct id => (tget id s.edge.directs).map DirectRec.slot
  | .tile c _ (.store _) => some (100 + c.tile * 4 + c.ctx)
  | .tile c _ (.amo _ _ _ _) => some (100 + c.tile * 4 + c.ctx)
  | _ => none

/-- SRC_UNIT of a request from a core port: the slot of an edge port, 63 for the Parser, 50 for tiles and the clause engine
(Table 12-2). -/
def State.srcUnit (s : State) (port : Nat) : Nat :=
  if port < 32 then s.get (R.EDGE_STAT_SLOT port) else if port = 140 then 63 else 50

/-- The planes an ordered frame of a pair uses: those of its unacknowledged frames, else the least queued of each
dimension (R305). -/
def State.pinnedFor (s : State) (src home : Nat) : Nat × Nat × Nat :=
  match s.fabric.pinned.find? (fun e => e.1 == src && e.2.1 == home) with
  | some (_, _, _, x, y, z) => (x, y, z)
  | none =>
    let least := fun d => (((s.lockedPlanes d).foldl (fun (b : Option Nat) f => match b with
      | none => some f
      | some g => if s.queuedCells (32 + f) < s.queuedCells (32 + g) then some f else some g) none).getD 0)
    (least 0, least 1, least 2)

def State.pin (s : State) (src home : Nat) (x y z : Nat) : State :=
  let old := (s.fabric.pinned.find? (fun e => e.1 == src && e.2.1 == home)).map (fun e => e.2.2.1)
  let rest := s.fabric.pinned.filter (fun e => !(e.1 == src && e.2.1 == home))
  { s with fabric := { s.fabric with pinned := rest ++ [(src, home, old.getD 0 + 1, x, y, z)] } }

def State.unpin (s : State) (src home : Nat) : State :=
  { s with fabric := { s.fabric with pinned := s.fabric.pinned.filterMap (fun (a, b, n, x, y, z) =>
      if a = src ∧ b = home then (if n ≤ 1 then none else some (a, b, n - 1, x, y, z)) else some (a, b, n, x, y, z)) } }

/-- Opcodes whose requests the chip makes for itself; a partition's quota does not hold them back (log entry 13). -/
def chipTraffic (op : Nat) : Bool := op == 4 || op == 6

/-- Sends a request under a tracker tag that is free (R301). -/
def State.sendTagged (s : State) (f : Frame) (k : Cont) (port : Nat) : State :=
  let a := f.art
  let tag := firstGap 0 s.fabric.track
  let e : Track := { dest := a.dest, partition := a.partition, opcode := a.opcode, cont := k,
                     spec := bit a.flags flSpec, quarantined := false, len := a.length, port := port, tick := s.tick }
  let s := { s with fabric := { s.fabric with track := tset tag e s.fabric.track } }
  let s := s.wrap (R.PART_OUTSTANDING_USED a.partition)
  let home := a.dest / 2 ^ 43
  match s.sourceOf k, bit a.flags flOrd with
  | some src, true =>
    match s.pinnedFor src home with
    | (x, y, z) => (s.pin src home x y z).inject port { a with tag := tag, aux := y + 32 * z } f.payload x
  | _, _ => s.inject port { a with tag := tag } f.payload

/-- Whether a request of a partition finds a tag (R384). -/
def State.tagFree (s : State) (a : Article) : Bool :=
  decide (s.fabric.track.length < 131072) &&
    (chipTraffic a.opcode || decide (s.get (R.PART_OUTSTANDING_USED a.partition) < s.get (R.PART_OUTSTANDING_QUOTA a.partition)))

/-- Sends a request to another chip: ERR_UNREACHABLE at once when the chip is marked so (R16), a wait when its partition
has no tag left (R384). -/
def State.sendRequest (s : State) (a : Article) (payload : List Byte) (k : Cont) (port : Nat) : State :=
  if s.unreachable (fpaChip a.dest) then s.finish k .unreachable []
  else if s.fabric.waitTag.any (fun w => w.1.art.partition == a.partition) || !s.tagFree a then
    { s with fabric := { s.fabric with waitTag := s.fabric.waitTag ++ [(sealFrame a payload 0, k, port)] } }
  else s.sendTagged (sealFrame a payload 0) k port

/-- Gives a freed tag to the oldest request that waits and may have one. -/
def State.grantTag (s : State) : State :=
  match s.fabric.waitTag.find? (fun w => s.tagFree w.1.art) with
  | none => s
  | some (f, k, port) =>
    let s := { s with fabric := { s.fabric with
      waitTag := s.fabric.waitTag.eraseP (fun w => s.tagFree w.1.art) } }
    s.sendTagged f k port

/-- Frees a tracker entry. -/
def State.freeTag (s : State) (tag : Nat) : State :=
  match tget tag s.fabric.track with
  | none => s
  | some t =>
    let s := { s with fabric := { s.fabric with track := terase tag s.fabric.track } }
    let s := s.less (R.PART_OUTSTANDING_USED t.partition)
    let s := match s.sourceOf t.cont with
      | some src => s.unpin src (t.dest / 2 ^ 43)
      | none => s
    s.grantTag

/-- A response for an outstanding tag: a quarantined tag is freed and the response discarded (R307); otherwise the
access completes. Only a response of the request's kind counts. It may come from another chip than the one asked: a chip
that found the destination unreachable (R292), or the new home of a page that moved (R251). -/
def State.respond (s : State) (r : Resp) (op : Nat) (data : List Byte) : State :=
  match tget r.tag s.fabric.track with
  | none => s
  | some t =>
    if t.opcode + 7 ≠ op then s
    else if t.quarantined then (s.freeTag r.tag).count R.FAULT_COUNT_LATE
    else (s.freeTag r.tag).finish t.cont r.status data

/-- A response frame toward the chip that asked (Table 12-4); VC 2 for bulk reads (log entry 14). `once` marks a line fill
served as ONCE (R127, log entry 117). -/
def State.sendResponse (s : State) (dst tag partition tense op : Nat) (e : Err) (unit : Nat) (payload : List Byte)
    (spec : Bool) (once : Bool := false) : State :=
  let vc := if op = 8 ∧ 256 < payload.length then 2 else 1
  let a := s.article (mkFpa dst 50 0) op (if spec then 2 ^ flSpec else 0) partition vc tense unit tag
    (e.code + if once then 256 else 0) payload.length
  s.inject ((s.unitPort unit).getD 136) a payload

end Sys2Proof.Machine
end

