-- ==== Sys2Proof/Machine/Lines.lean ====
section
/-! DEFINITION. Tiles by number, L1 lines and stream entries, the stops and messages of the coherence rings, and the
accesses that take lines through the ring arbiter (R114, R124 to R133, Tables 5-2 to 5-4). -/

namespace Sys2Proof.Machine

/-! ### Tiles -/

/-- The physical tile of a logical one (R114). -/
def State.phys (s : State) (l : Nat) : Nat :=
  (((List.range 50).filter (fun n => !bit s.boot.fuses.fused n)).drop l).headD 63

/-- The logical tile of a physical one. -/
def State.logical (s : State) (n : Nat) : Option Nat :=
  if n < 50 ∧ !bit s.boot.fuses.fused n then some ((List.range n).countP (fun i => !bit s.boot.fuses.fused i)) else none

def Tile.empty : Tile :=
  { ctxs := [], store := [], entries := [], nextEntry := 0, l1 := [], copies := [], held := [], stores := [], nextStore := 0 }

def State.tile (s : State) (l : Nat) : Tile := (tget l s.home.tiles).getD Tile.empty

def State.setTile (s : State) (l : Nat) (t : Tile) : State :=
  { s with home := { s.home with tiles := tset l t s.home.tiles } }

def State.modTiles (s : State) (f : Nat → Tile → Tile) : State :=
  { s with home := { s.home with tiles := s.home.tiles.map (fun t => (t.1, f t.1 t.2)) } }

/-- A tile whose stream entries of some lines are STALE (R121). -/
def Tile.stale (t : Tile) (ls : List Nat) : Tile :=
  { t with entries := t.entries.map (fun e => (e.1, if ls.contains e.2.line then { e.2 with stale := true } else e.2)) }

/-- A tile without some lines: L1 states to I, stream entries STALE, holds ended (R121, R128). -/
def Tile.drop (t : Tile) (ls : List Nat) : Tile :=
  { t.stale ls with l1 := t.l1.filter (fun e => !ls.contains e.1), copies := t.copies.filter (fun e => !ls.contains e.1),
                    held := t.held.filter (fun l => !ls.contains l) }

/-- Whether a tile has a copy of a line: in its L1, or in a stream entry that is not STALE. -/
def Tile.has (t : Tile) (l : Nat) : Bool :=
  (tget l t.l1).isSome || t.entries.any (fun e => e.2.line == l && !e.2.stale)

/-- Whether a tile has a line in E or M. -/
def Tile.owns (t : Tile) (l : Nat) : Bool := tget l t.l1 == some 2 || tget l t.l1 == some 3

/-- The 128 B line of an FPA. -/
def lineOf (fpa : Nat) : Nat := fpa / 128

/-- The lines a range of bytes touches. -/
def linesOf (fpa len : Nat) : List Nat :=
  (List.range (if len = 0 then 0 else (fpa + len - 1) / 128 + 1 - fpa / 128)).map (fpa / 128 + ·)

/-- Removes lines from every L1 and stream entry of the chip but the writer's L1 (R128). -/
def State.snoopOut (s : State) (ls : List Nat) (writer : Option Nat) : State :=
  s.modTiles (fun n t => if writer = some n then t.stale ls else t.drop ls)

/-- A fill of a line that is on its way keeps no copy in the L1 of a tile, or of any. -/
def unfill (ls : List Nat) (only : Option Nat) (k : Cont) : Cont :=
  match k with
  | .lineFill (some t) line off len k' =>
    if ls.contains line ∧ (only = none ∨ only = some t) then .lineFill none line off len k' else k
  | _ => k

def State.spoilLines (s : State) (ls : List Nat) (only : Option Nat) : State :=
  { s with fabric := { s.fabric with
      track := s.fabric.track.map (fun (t : Nat × Track) => (t.1, { t.2 with cont := unfill ls only t.2.cont })),
      waitTag := s.fabric.waitTag.map (fun w => (w.1, unfill ls only w.2.1, w.2.2)) } }

/-! ### Stops and messages -/

/-- The physical tile at a ring stop (Table 5-3). -/
def stopTile (stop : Nat) : Option Nat :=
  if 1 ≤ stop ∧ stop ≤ 25 then some (stop - 1) else if 44 ≤ stop ∧ stop ≤ 68 then some (stop - 19) else none

/-- The stop of a physical tile. -/
def tileStop (n : Nat) : Nat := if n < 25 then n + 1 else n + 19

/-- The stop of the home agent of a unit of this chip. -/
def homeStop (unit : Nat) : Nat :=
  if unit < 16 then 71 + unit else if unit < 32 then 26 + (unit - 16) else if unit < 34 then 42 + (unit - 32) else 69 + (unit - 34)

/-- The stop of the home agent of a line. -/
def lineStop (line : Nat) : Nat := homeStop (line * 128 / 2 ^ 43 % 64)

/-- The ring with fewer hops between two stops; ring A when they are equal (R130). -/
def onRingA (src dst : Nat) : Bool := decide ((dst + 87 - src) % 87 ≤ (src + 87 - dst) % 87)

/-- A message to one stop, on the ring with fewer hops. -/
def State.ringMsg (s : State) (code line src dst : Nat) (owned held : Bool) (grant : Nat) : State :=
  s.emit (.ring { code := code, ringA := onRingA src dst, line := line, src := src, dst := dst, owned := owned, held := held,
                  grant := grant })

def RingLine.fresh : RingLine :=
  { queue := [], phase := .waiting, posA := 0, posB := 87, ownedA := false, ownedB := false, heldA := false, heldB := false,
    halfA := false, halfB := false, spec := false }

def State.setLine (s : State) (l : Nat) (r : RingLine) : State :=
  { s with home := { s.home with lines := tset l r s.home.lines } }

/-- The arbiter issues the snoop of the head request of a line on both rings, when none is outstanding (R130, R131). -/
def State.issueSnoop (s : State) (l : Nat) : State :=
  match tget l s.home.lines with
  | some r =>
    match r.queue with
    | q :: _ =>
      if r.phase = .waiting then
        let m := fun (a : Bool) => Out.ring { code := 1, ringA := a, line := l, src := 0, dst := q.stop, owned := false,
                                              held := false, grant := 0 }
        ((s.setLine l { RingLine.fresh with queue := r.queue, phase := .snooping }).emit (m true)).emit (m false)
      else s
    | [] => s
  | none => s

/-- A request enters the line table: at its line's end, or on a line of its own while fewer than 256 are tracked. -/
def State.enterLine (s : State) (l : Nat) (q : RingReq) : Option State :=
  match tget l s.home.lines with
  | some r => some (s.setLine l { r with queue := r.queue ++ [q] })
  | none =>
    if s.home.lines.length < 256 then some ((s.setLine l { RingLine.fresh with queue := [q] }).issueSnoop l) else none

/-- A request at the arbiter: the line table, else the input queue of 64, else it is held at its stop (R130). -/
def State.arbitrate (s : State) (l : Nat) (q : RingReq) : State :=
  let full := (tget l s.home.lines).isNone && decide (256 ≤ s.home.lines.length)
  if s.home.ringHeld ≠ [] ∨ (64 ≤ s.home.ringIn.length ∧ (full ∨ s.home.ringIn ≠ [])) then
    { s with home := { s.home with ringHeld := s.home.ringHeld ++ [(l, q)] } }
  else if s.home.ringIn ≠ [] then { s with home := { s.home with ringIn := s.home.ringIn ++ [(l, q)] } }
  else (s.enterLine l q).getD { s with home := { s.home with ringIn := [(l, q)] } }

/-- Requests of the input queue enter the line table while it has room, and held ones the queue. -/
def State.admitRing (s : State) : Nat → State
  | 0 => s
  | n + 1 =>
    match s.home.ringIn with
    | [] => s
    | (l, q) :: r =>
      match ({ s with home := { s.home with ringIn := r ++ s.home.ringHeld.take 1,
                                            ringHeld := s.home.ringHeld.drop 1 } }).enterLine l q with
      | some s => s.admitRing n
      | none => s

/-- The arbiter releases a line: the next request of the line is snooped, and waiting ones enter the table. -/
def State.releaseLine (s : State) (l : Nat) : State :=
  match tget l s.home.lines with
  | none => s
  | some r =>
    let s := match r.queue.drop 1 with
      | [] => { s with home := { s.home with lines := terase l s.home.lines } }
      | q => (s.setLine l { RingLine.fresh with queue := q }).issueSnoop l
    s.admitRing (s.home.ringIn.length + s.home.ringHeld.length)

/-! ### Accesses that wait -/

/-- Whether some access or ring request holds a line. -/
def State.lineBusy (s : State) (l : Nat) : Bool :=
  (tget l s.home.lines).isSome || s.home.ops.any (fun (o : Nat × HomeOp) => o.2.line == some l)

/-- Whether an access from outside the tiles finds nothing to take in the L1s: a write no copy, a read no line in E or M
(log entry 116). -/
def State.lineClear (s : State) (write : Bool) (l : Nat) : Bool :=
  !s.lineBusy l && s.home.tiles.all (fun (t : Nat × Tile) => if write then !t.2.has l else !t.2.owns l)

def State.modOp (s : State) (id : Nat) (f : HomeOp → HomeOp) : State :=
  { s with home := { s.home with ops := tmod id f s.home.ops } }

/-- Opens a waiting access. -/
def State.openOp (s : State) (o : HomeOp) : State :=
  { s with home := { s.home with ops := tset s.home.nextOp o s.home.ops, nextOp := s.home.nextOp + 1 } }

/-- Home-initiated requests of a home agent under way, or its atomics among them (R133, R135). -/
def State.opLoad (s : State) (stop : Nat) (atomics : Bool) : Nat :=
  s.home.ops.countP (fun (o : Nat × HomeOp) => o.2.sent && o.2.tile.isNone && o.2.stop == stop &&
    (!atomics || (match o.2.acc.act with | .atomic _ _ _ _ => true | _ => false)))

/-- Whether a request may be sent: a home agent has at most 128 outstanding, and 64 locks for atomics. -/
def State.mayStart (s : State) (o : HomeOp) : Bool :=
  o.tile.isSome || (decide (s.opLoad o.stop false < 128) &&
    (match o.acc.act with | .atomic _ _ _ _ => decide (s.opLoad o.stop true < 64) | _ => true))

/-- Sends the REQs of a stop that wait, oldest first, as far as its limits allow (R130, R133). -/
def State.pumpReqs (s : State) (stop : Nat) : State :=
  (s.home.ops.foldl (fun (a : State × Bool) (id, o) =>
    match o.line with
    | some l =>
      if o.stop = stop ∧ !o.sent then
        if a.2 ∧ a.1.mayStart o then
          ((a.1.modOp id (fun o => { o with sent := true })).ringMsg 0 l stop 0 o.own false 0, true)
        else (a.1, false)
      else a
    | none => a) (s, true)).1

/-- Opens an access that asks the rings for a line. -/
def State.askLine (s : State) (o : HomeOp) : State := (s.openOp o).pumpReqs o.stop

/-- Holds lines that no tile has and no request names, without the rings. -/
def State.takeLines (s : State) (id : Nat) (stop : Nat) (ls : List Nat) : State :=
  ls.foldl (fun s l => s.setLine l { RingLine.fresh with queue := [⟨stop, true, id⟩], phase := .taken }) s

/-- The state that DONE grants a tile: M for ownership; S when another copy of the line may exist on the die, on a sharer
chip or in a replica, or the line lies in a replica's frame; else E. -/
def State.grantOf (s : State) (line requester : Nat) (own : Bool) : Nat :=
  if own then 3
  else if s.home.tiles.any (fun (t : Nat × Tile) => (stopTile requester).bind s.logical != some t.1 && t.2.has line) ||
      (tget (line % 2 ^ 42) s.home.sharers).isSome ||
      s.parser.dir.any (fun (d : Nat × DirRec) => d.2.frame == frameKey (line * 128) && !d.2.replicas.isEmpty) ||
      s.parser.replicas.any (fun (r : Nat × Replica) => r.2.frameFpa / 2 ^ 21 == line * 128 / 2 ^ 21) then 1 else 2

end Sys2Proof.Machine
end

