-- ==== Sys2Proof/Machine/Access.lean ====
section
/-! DEFINITION. Home agents (chapters 4, 5, 14, 16): what a read, a write or an atomic does at its home, the removal of
copies before a write, the edge write table, and how this chip issues an access wherever its home is. -/

namespace Sys2Proof.Machine

/-! ### Atomics (Tables 5-6, 5-7, R136) -/

/-- Whether Table 5-6 gives an operation a width in bytes. -/
def atomicWidth (op width : Nat) : Bool :=
  if op = 2 then width == 4 || width == 8 || width == 16
  else if op = 10 then width == 4
  else if op = 11 then width == 8
  else decide (op < 10) && (width == 4 || width == 8)

/-- The value an atomic writes, from the old value (Table 5-6). -/
def atomicNew (op width operand compare old : Nat) : Nat :=
  let m := 2 ^ (8 * width)
  let x := operand % m
  let sx := fun (v : Nat) => if v < m / 2 then (v : Int) else (v : Int) - m
  match op with
  | 0 => (old + x) % m
  | 1 => x
  | 2 => if old = compare % m then x else old
  | 3 => Nat.land old x
  | 4 => Nat.lor old x
  | 5 => Nat.xor old x
  | 6 => if sx x < sx old then x else old
  | 7 => if sx old < sx x then x else old
  | 8 => min old x
  | 9 => max old x
  | 10 => (encodeNum 1 0 0 (Num.add (decodeNum 1 old) (decodeNum 1 x)).1).1
  | 11 => (encodeNum 0 0 0 (Num.add (decodeNum 0 old) (decodeNum 0 x)).1).1
  | _ => old

/-! ### Heat (R244) -/

def Heat.zero : Heat :=
  { r := 0, w := 0, c := 0, k := 0, heat := 0, wheat := 0, topChip := 0, topMaj := false, hold := 0 }

/-- One 256 B block read or written by chip q. -/
def Heat.touch (h : Heat) (write : Bool) (q : Nat) : Heat :=
  if (if write then h.w else h.r) = 65535 then h
  else
    let h := if write then { h with w := h.w + 1 } else { h with r := h.r + 1 }
    if h.c = q then { h with k := h.k + 1 }
    else if h.k = 0 then { h with c := q, k := 1 }
    else { h with k := h.k - 1 }

/-- 256 B blocks that a range touches. -/
def blocksIn (off len : Nat) : Nat := if len = 0 then 0 else (off + len - 1) / 256 + 1 - off / 256

/-- Whether a 2 MiB region of a slot belongs to a member of a REPLICABLE window (R244). -/
def State.replicable (s : State) (slot off : Nat) : Bool :=
  s.xlat.windows.any (fun w => w.2.replicable &&
    (w.2.members.any (fun m => m.2 == slot && (m.1 == s.chip || (w.2.altSide && Nat.xor m.1 1 == s.chip)))) &&
    decide (w.2.devBase / 2 ^ 21 ≤ off / 2 ^ 21) &&
    decide (off / 2 ^ 21 ≤ (w.2.devBase + w.2.length / w.2.members.length - 1) / 2 ^ 21))

/-- Counts an access in the heat record of its frame or region. -/
def State.heatOf (s : State) (fpa len : Nat) (write : Bool) (q : Nat) : State :=
  let key := fpa % 2 ^ 49 / 2 ^ 21
  if 16 ≤ fpaUnit fpa ∨ s.replicable (fpaUnit fpa) (fpaOff fpa) then
    let h := (List.range (blocksIn (fpaOff fpa) len)).foldl (fun h _ => h.touch write q)
      ((tget key s.parser.heat).getD Heat.zero)
    { s with parser := { s.parser with heat := tset key h s.parser.heat } }
  else s

/-! ### Memory of units 16 to 35: poison, tags, bytes (R355, R356, R390, R391) -/

/-- Keys of the 256 B blocks, and of the 128 B lines, of a range of a unit's bytes. -/
def blockKeys (unit off len : Nat) : List Nat :=
  (List.range (blocksIn off len)).map (memKey unit off / 256 + ·)

def lineKeys (unit off len : Nat) : List Nat := linesOf (memKey unit off) len

def State.anyPoison (s : State) (ks : List Nat) : Bool := ks.any s.home.poisoned.contains

def State.anyBadTag (s : State) (ks : List Nat) : Bool := ks.any s.home.badTags.contains

/-- Marks lines poisoned. -/
def State.poisonLines (s : State) (ks : List Nat) : State :=
  { s with home := { s.home with poisoned := ks.filter (fun k => !s.home.poisoned.contains k) ++ s.home.poisoned } }

/-- Marks a 256 B block poisoned. -/
def State.poisonBlock (s : State) (k : Nat) : State := s.poisonLines [2 * k, 2 * k + 1]

/-- Reads bytes at the home: a poisoned line, then a tag that fails (R391). A run-ahead read logs nothing (R109). -/
def State.homeRead (s : State) (fpa len p : Nat) (spec : Bool) : State × Err × List Byte :=
  let ks := lineKeys (fpaUnit fpa) (fpaOff fpa) len
  if s.anyPoison ks then (s, .poison, [])
  else if s.anyBadTag ks then
    (if spec then s else s.violate 3 (some p) (fpa / 256 * 256) .integrity 255, .integrity, [])
  else (s, .none, memRead s.mem (memKey (fpaUnit fpa) (fpaOff fpa)) len)

/-- Blocks that a range covers whole. -/
def wholeBlocks (unit off len : Nat) : List Nat :=
  (blockKeys unit off len).filter (fun k => decide (memKey unit off ≤ k * 256) && decide (k * 256 + 256 ≤ memKey unit off + len))

/-- Writes bytes at the home. A whole block clears poison and a bad tag; a part of one reads, checks and merges
(R355, R390). `whole`: the bytes are part of a write of their whole block. -/
def State.homeWrite (s : State) (fpa : Nat) (data : List Byte) (p : Nat) (whole : Bool) : State × Err :=
  let u := fpaUnit fpa
  let off := fpaOff fpa
  let ks := lineKeys u off data.length
  let full := ks.filter (fun l => whole || (wholeBlocks u off data.length).contains (l / 2))
  let part := ks.filter (fun l => !full.contains l)
  if s.anyPoison part then (s, .poison)
  else if s.anyBadTag part then (s.violate 3 (some p) (fpa / 256 * 256) .integrity 255, .integrity)
  else
    ({ s with mem := memWrite s.mem (memKey u off) data,
              home := { s.home with poisoned := s.home.poisoned.filter (fun k => !full.contains k),
                                    badTags := s.home.badTags.filter (fun k => !full.contains k) } }, .none)

/-- Bytes an action touches. -/
def HomeAct.len : HomeAct → Nat
  | .read n => n
  | .write d => d.length
  | .atomic _ w _ _ => w

def HomeAct.isWrite : HomeAct → Bool
  | .read _ => false
  | _ => true

/-- The first two cases of R136. -/
def atomicForm (fpa : Nat) : HomeAct → Err
  | .atomic op w _ _ => if !atomicWidth op w then .format else if fpa % w ≠ 0 then .align else .none
  | _ => .none

/-- Performs an action on units 16 to 35: an atomic returns the old value (R134). -/
def State.homeDo (s : State) (fpa p : Nat) (act : HomeAct) (whole spec : Bool) : State × Err × List Byte :=
  match act with
  | .read n => s.homeRead fpa n p spec
  | .write d => match s.homeWrite fpa d p whole with
    | (s, e) => (s, e, [])
  | .atomic op w x c =>
    match s.homeRead fpa w p false with
    | (s, .none, old) =>
      match s.homeWrite fpa (leBytes w (atomicNew op w x c (leNat old))) p false with
      | (s, e) => (s, e, old)
    | (s, e, _) => (s, e, [])

/-! ### Who asked, and answers -/

/-- The opcode of the response to an action. -/
def HomeAct.respOp : HomeAct → Nat
  | .read _ => 8
  | .write _ => 9
  | .atomic _ _ _ _ => 0xa

/-- A read of one whole line by another chip: a fill (R127). -/
def lineFill (fpa : Nat) (act : HomeAct) (who : Who) : Bool :=
  match act, who with
  | .read 128, .frame _ _ _ _ _ => decide (fpa % 128 = 0)
  | _, _ => false

/-- Remote sharers of a line of this chip. -/
def State.lineSharers (s : State) (l : Nat) : List Nat := (tget (l % 2 ^ 42) s.home.sharers).getD []

/-- Answers whoever asked a home agent. A fill that the sharer table does not record goes as ONCE (R127). -/
def State.reply (s : State) (fpa : Nat) (who : Who) (act : HomeAct) (e : Err) (data : List Byte) : State :=
  match who with
  | .here k => s.finish k e data
  | .frame src tag p t spec =>
    s.sendResponse src tag p t act.respOp e (fpaUnit fpa) (if e = .none then data else []) spec
      (lineFill fpa act who && !(s.lineSharers (fpa / 128)).contains src)

/-- The chip and tag of the request frame behind an access. -/
def State.asking (s : State) (who : Who) : Option (Nat × Nat) :=
  match who with
  | .frame src tag _ _ _ => some (src, tag)
  | .here k => match s.rootOf 8 k with
    | .answer src tag _ _ _ _ _ => some (src, tag)
    | _ => none

/-- Whether an access is a run-ahead read (R109). -/
def State.isSpec (s : State) (who : Who) : Bool :=
  match who with
  | .frame _ _ _ _ spec => spec
  | .here k => match s.rootOf 8 k with
    | .answer _ _ _ _ _ _ spec => spec
    | .stream _ _ _ => true
    | .tile _ _ (.indices _ _ ahead) => ahead
    | _ => false

/-- The continuation that answers whoever asked. -/
def Who.cont (who : Who) (fpa : Nat) (act : HomeAct) : Cont :=
  match who with
  | .here k => k
  | .frame src tag p t spec => .answer src tag p t (fpaUnit fpa) act.respOp spec

/-! ### Removal of copies before a write (R128, R256) -/

/-- Remote sharers of the lines of a range, by line. -/
def State.sharersOf (s : State) (fpa len : Nat) : List (Nat × Nat) :=
  (linesOf (fpa % 2 ^ 49) len).flatMap (fun l => (s.lineSharers l).map (fun c => (l, c)))

/-- The directory record of a local frame or window region. -/
def State.dirOf (s : State) (fpa : Nat) : Option (Nat × DirRec) := s.parser.dir.find? (fun d => d.2.frame == frameKey fpa)

/-- Sends an INVAL for a line to a chip (VC0). AUX names the request of that chip whose own write removes the line, if it
is one, so that the tile that wrote keeps its copy (R128, log entry 118). -/
def State.sendInval (s : State) (op line chip p : Nat) (writer : Option (Nat × Nat)) : State :=
  let tag := match writer with
    | some (c, t) => if c = chip then t + 1 else 0
    | none => 0
  let a := s.article (chip * 2 ^ 49 + line * 128) 4 0 p 0 (s.tense p) (line * 128 / 2 ^ 43) 0 tag 0
  s.sendRequest a [] (.inval op line chip) ((s.unitPort (line * 128 / 2 ^ 43)).getD 136)

/-- Table 10-5 as bytes. -/
def dirBytes (op : Nat) (status : Err) (m : DirMsg) : List Byte :=
  packBytes [(8, op), (8, status.code), (12, m.partition), (4, 0), (31, m.page), (1, 0), (64, m.oldFrame),
    (64, m.newFrame), (9, m.firstBlock), (7, 0), (9, m.lastBlock), (7, 0), (16, m.heat), (16, 0)]

/-- Sends a directory request to a chip (VC0). -/
def State.sendDir (s : State) (op dst : Nat) (m : DirMsg) (k : Cont) : State :=
  let a := s.article (dst * 2 ^ 49 + m.oldFrame % 2 ^ 49) 6 0 m.partition 0 (s.tense m.partition)
    (fpaUnit m.oldFrame) 0 0 32
  s.sendRequest a (dirBytes op .none m) k 140

/-- A directory request's fields. -/
def dirMsg (partition page old new first last heat : Nat) : DirMsg :=
  { src := 0, tag := 0, partition := partition, page := page, oldFrame := old, newFrame := new, firstBlock := first,
    lastBlock := last, heat := heat }

/-- Sends REPL_INVAL for the 4 KiB blocks of a range to a holder, and counts it. -/
def State.sendReplInval (s : State) (op fpa len chip p page : Nat) : State :=
  let m := dirMsg p page (frameOf fpa) 0 (fpa % 2 ^ 21 / 4096) ((fpa % 2 ^ 21 + len - 1) / 4096) 0
  (s.count R.PARSER_REPL_INVALS).sendDir 7 chip m (.replInval op chip)

/-- Forgets the remote sharers of lines, but a chip that wrote and whose tile keeps its copy (R128). -/
def State.clearSharers (s : State) (ls : List Nat) (keep : Option Nat) : State :=
  let sh := s.home.sharers.filterMap (fun (e : Nat × List Nat) =>
    if ls.contains e.1 then
      match e.2.filter (fun c => keep == some c) with
      | [] => none
      | cs => some (e.1, cs)
    else some e)
  { s with home := { s.home with sharers := sh, sharerOrder := s.home.sharerOrder.filter (fun l => (tget l sh).isSome) } }

/-- Marks 4 KiB blocks of a migrating page written (R251, step 1). -/
def State.trackDirty (s : State) (fpa len : Nat) : State :=
  { s with parser := { s.parser with migrations := s.parser.migrations.map (fun m =>
      if frameOf m.oldFpa = frameOf fpa ∧ m.step < 5 then
        let a := fpa % 2 ^ 21 / 4096
        let b := (fpa % 2 ^ 21 + len - 1) / 4096
        { m with dirty := (m.dirty ++ (List.range (b + 1 - a)).map (a + ·)).dedup }
      else m) } }

/-! ### Edge home agents (R346 to R348, R487) -/

/-- Ports that the Stem gives a slot, and those that are ACTIVE. -/
def State.slotPorts (s : State) (slot : Nat) : List Nat :=
  (List.range 32).filter (fun p => s.get (R.EDGE_STAT_ROLE p) == 0 && s.get (R.EDGE_STAT_SLOT p) == slot &&
    (match s.boot.stem with
     | some t => (match t.ports[p]? with | some e => e.role == 0 | none => false)
     | none => false))

def State.activePorts (s : State) (slot : Nat) : List Nat :=
  (s.slotPorts slot).filter (fun p => s.get (R.EDGE_STAT_STATE p) == 2)

/-- The HDM size of a slot: that of its lowest-numbered ACTIVE port (R340). -/
def State.hdmSize (s : State) (slot : Nat) : Nat :=
  match s.activePorts slot with
  | p :: _ => (tget p s.edge.hdm).getD 0
  | [] => 0

/-- R487, then R40: why a fabric request to a slot cannot be served. -/
def State.slotErr (s : State) (slot off len : Nat) : Err :=
  if s.slotPorts slot = [] then .bounds
  else if s.activePorts slot = [] then
    if (s.slotPorts slot).any (fun p => s.get (R.EDGE_STAT_STATE p) == 3 || s.get (R.EDGE_STAT_STATE p) == 4) then
      .disabled
    else .unreachable
  else if s.hdmSize slot < off + len then .bounds else .none

/-- The ACTIVE port for an offset: bits [63:8] modulo their number. -/
def State.memPort (s : State) (slot off : Nat) : Nat :=
  let ps := s.activePorts slot
  ((ps.drop (off / 256 % ps.length)).head?).getD 0

/-- Issues a MemRd for a read or for the first half of an atomic. -/
def State.issueMem (s : State) (slot off : Nat) (act : HomeAct) (who : Who) : State :=
  let port := s.memPort slot off
  let tag := s.home.nextMem
  let r : MemReq := { port := port, slot := slot, offset := off, act := act, who := who, write := false, tick := s.tick }
  { s with home := { s.home with memReqs := tset tag r s.home.memReqs, nextMem := tag + 1 } }.emit
    (.memRd port tag off act.len)

/-- The 64 B lines of a range of a slot. -/
def edgeLines (slot off len : Nat) : List Nat :=
  (List.range (if len = 0 then 0 else (off + len - 1) / 64 + 1 - off / 64)).map (memKey slot off / 64 + ·)

def WLine.empty : WLine := { bytes := [], sent := false, again := false, writes := [], nextWrites := [] }

def State.wline (s : State) (l : Nat) : WLine := (tget l s.home.writeTable).getD WLine.empty

def State.setWline (s : State) (l : Nat) (w : WLine) : State :=
  { s with home := { s.home with writeTable := tset l w s.home.writeTable } }

/-- Sends the MemWr of a line unless one is under way (R346), on an ACTIVE port; without one the line stays (see failSlots). -/
def State.pumpLine (s : State) (l : Nat) : State :=
  match tget l s.home.writeTable with
  | none => s
  | some w =>
    if w.sent ∨ s.activePorts (l * 64 / 2 ^ 43) = [] then s
    else
      let slot := l * 64 / 2 ^ 43
      let off := l * 64 % 2 ^ 43
      let tag := s.home.nextMem
      let port := s.memPort slot off
      let r : MemReq := { port := port, slot := slot, offset := off, act := .write (w.bytes.map Prod.snd),
                          who := .here .drop, write := true, tick := s.tick }
      let s := s.setWline l { w with sent := true, again := false, writes := w.writes ++ w.nextWrites, nextWrites := [] }
      { s with home := { s.home with memReqs := tset tag r s.home.memReqs, nextMem := tag + 1 } }.emit
        (.memWr port tag off w.bytes)

/-- Enters bytes into the write table, performed from then on; `id` is the write that waits for its MemWr, if one does. -/
def State.tableWrite (s : State) (slot off : Nat) (data : List Byte) (id : Option Nat) : State :=
  let s := data.zipIdx.foldl (fun s (b, i) =>
    let a := memKey slot (off + i)
    let l := a / 64
    s.setWline l { s.wline l with bytes := tset (a % 64) b (s.wline l).bytes, again := true }) s
  (edgeLines slot off data.length).foldl (fun s l =>
    (s.setWline l { s.wline l with nextWrites := (s.wline l).nextWrites ++ id.toList }).pumpLine l) s

/-- Bytes of a range that the write table holds, over bytes read from the device. -/
def State.overlay (s : State) (slot off : Nat) (data : List Byte) : List Byte :=
  data.zipIdx.map (fun (b, i) =>
    let a := memKey slot (off + i)
    match tget (a / 64) s.home.writeTable with
    | some w => (tget (a % 64) w.bytes).getD b
    | none => b)

/-- Whether the write table holds every byte of a range. -/
def State.inTable (s : State) (slot off len : Nat) : Bool :=
  (List.range len).all (fun i =>
    let a := memKey slot (off + i)
    match tget (a / 64) s.home.writeTable with
    | some w => (tget (a % 64) w.bytes).isSome
    | none => false)

/-- Whether the write table has room for the lines of a range (4,096 lines). -/
def State.tableRoom (s : State) (slot off len : Nat) : Bool :=
  let own := s.home.writeTable.countP (fun w => w.1 * 64 / 2 ^ 43 == slot)
  let new := (edgeLines slot off len).countP (fun l => (tget l s.home.writeTable).isNone)
  decide (own + new ≤ 4096)

/-- A write or the second half of an atomic that is answered when its MemWr completes; `data` is the answer. -/
def State.openWrite (s : State) (fpa : Nat) (act : HomeAct) (who : Who) (bytes data : List Byte) (locks : List Nat) : State :=
  let id := s.home.nextWrite
  let w : EdgeWrite := { left := (edgeLines (fpaUnit fpa) (fpaOff fpa) bytes.length).length, who := who, fpa := fpa, act := act,
                         data := data, err := .none, locks := locks }
  ({ s with home := { s.home with edgeWrites := tset id w s.home.edgeWrites, nextWrite := id + 1 } }).tableWrite (fpaUnit fpa)
    (fpaOff fpa) bytes (some id)

/-- Whether a write is answered once it is in the write table: a direct request of this chip's edge. Any other may stand
behind a counter step or a completion record, which wait for the MemWr (R87). -/
def State.answersEarly (s : State) (who : Who) : Bool :=
  match who with
  | .here k => match s.rootOf 8 k with
    | .direct _ => true
    | _ => false
  | .frame _ _ _ _ _ => false

/-- Lines of a slot whose poison a write ends: those it covers whole (R118). -/
def State.cleanLines (s : State) (fpa len : Nat) : State :=
  let k := memKey (fpaUnit fpa) (fpaOff fpa)
  { s with home := { s.home with
      poisoned := s.home.poisoned.filter (fun l => !(decide (k ≤ l * 128) && decide (l * 128 + 128 ≤ k + len))) } }

/-- Puts a write into the write table. -/
def State.enterWrite (s : State) (fpa : Nat) (act : HomeAct) (who : Who) (d : List Byte) : State :=
  let s := s.cleanLines fpa d.length
  if s.answersEarly who then (s.tableWrite (fpaUnit fpa) (fpaOff fpa) d none).reply fpa who act .none []
  else s.openWrite fpa act who d [] []

/-- An access at an edge home agent. -/
def State.edgeAct (s : State) (a : HeldAccess) : State :=
  let slot := fpaUnit a.fpa
  let off := fpaOff a.fpa
  match s.slotErr slot off a.act.len with
  | .none =>
    if (edgeLines slot off a.act.len).any s.home.locked.contains then
      { s with home := { s.home with lockWait := s.home.lockWait ++ [a] } }
    else match a.act with
    | .read n =>
      if s.anyPoison (lineKeys slot off n) then s.reply a.fpa a.who a.act .poison []
      else if s.inTable slot off n then s.reply a.fpa a.who a.act .none (s.overlay slot off (List.replicate n 0#8))
      else s.issueMem slot off a.act a.who
    | .write d =>
      if !s.home.writeQueue.isEmpty || !s.tableRoom slot off d.length then
        { s with home := { s.home with writeQueue := s.home.writeQueue ++ [a] } }
      else s.enterWrite a.fpa a.act a.who d
    | .atomic _ w _ _ =>
      if s.anyPoison (lineKeys slot off w) then s.reply a.fpa a.who a.act .poison []
      -- 64 locks of the home agent (R135).
      else if 64 ≤ s.home.locked.countP (fun l => l * 64 / 2 ^ 43 == slot) then
        { s with home := { s.home with lockWait := s.home.lockWait ++ [a] } }
      else
        let s := { s with home := { s.home with locked := s.home.locked ++ edgeLines slot off w } }
        s.issueMem slot off a.act a.who
  | e => s.reply a.fpa a.who a.act e []

/-- Writes that waited for room in a write table, oldest first. -/
def State.pumpWrites (s : State) : Nat → State
  | 0 => s
  | n + 1 =>
    match s.home.writeQueue with
    | [] => s
    | w :: q =>
      match w.act with
      | .write d =>
        if s.tableRoom (fpaUnit w.fpa) (fpaOff w.fpa) d.length then
          (({ s with home := { s.home with writeQueue := q } }).enterWrite w.fpa w.act w.who d).pumpWrites n
        else s
      | _ => { s with home := { s.home with writeQueue := q } }.pumpWrites n

/-- Releases locked lines: the accesses that waited for a lock act in arrival order (R135). -/
def State.unlock (s : State) (ls : List Nat) : State :=
  let w := s.home.lockWait
  let s := { s with home := { s.home with locked := s.home.locked.filter (fun l => !ls.contains l), lockWait := [] } }
  w.foldl State.edgeAct s

/-- The MemWr of a line has completed for a write: when no line is left the write is answered and its locks end. -/
def State.writeIn (s : State) (e : Err) (id : Nat) : State :=
  match tget id s.home.edgeWrites with
  | none => s
  | some w =>
    let err := if w.err = .none then e else w.err
    if w.left ≤ 1 then
      let s := { s with home := { s.home with edgeWrites := terase id s.home.edgeWrites } }
      let s := s.reply w.fpa w.who w.act err (if err = .none then w.data else [])
      if w.locks = [] then s else s.unlock w.locks
    else { s with home := { s.home with edgeWrites := tset id { w with left := w.left - 1, err := err } s.home.edgeWrites } }

/-- Drops a line of a write table: the writes whose bytes it held end with a code (R348, R349). -/
def State.dropLine (s : State) (l : Nat) (e : Err) : State :=
  match tget l s.home.writeTable with
  | none => s
  | some w =>
    (w.writes ++ w.nextWrites).foldl (fun s id => s.writeIn e id)
      { s with home := { s.home with writeTable := terase l s.home.writeTable } }

/-- Slots without an ACTIVE port: lines whose MemWr has not gone, and writes that wait for room, end with the code of R487
(DESIGN CHOICE, log entry 133: the spec gives no rule for a write performed in the table whose MemWr no port may carry). -/
def State.failSlots (s : State) : State :=
  let dead := s.home.writeTable.filter (fun w => !w.2.sent && (s.activePorts (w.1 * 64 / 2 ^ 43)).isEmpty)
  let s := dead.foldl (fun s w => s.dropLine w.1 (s.slotErr (w.1 * 64 / 2 ^ 43) 0 1)) s
  s.home.writeQueue.foldl State.edgeAct { s with home := { s.home with writeQueue := [] } }

/-! ### One access at its home on this chip -/

/-- The port behind a far-tier FPA: 32 + k for the expander of memory port k, or the edge port (R31). -/
def State.farPort (s : State) (fpa : Nat) : Nat :=
  let k := fpaUnit fpa - 32
  let j := fpaOff fpa / 2 ^ 40
  if j = 0 then 32 + k
  else (((List.range 32).filter (fun p => s.get (R.EDGE_STAT_ROLE p) == 1 && s.get (R.EDGE_STAT_FAR_UNIT p) == k)).drop (j - 1)).headD 36

/-- Charges the bytes of an access at its home (Table 18-6). -/
def State.chargeHome (s : State) (fpa p n : Nat) : State :=
  if fpaUnit fpa < 16 then s.charge p 0 n
  else if fpaUnit fpa < 32 then s.charge p 4 n
  else (s.charge p 5 n).charge p 0 n

/-- Acts on memory of units 16 to 35, or waits while the link of its expander is down (R351). -/
def State.unitAct (s : State) (a : HeldAccess) : State :=
  if 32 ≤ fpaUnit a.fpa ∧ s.edge.expanderDown.contains (s.farPort a.fpa) then
    { s with home := { s.home with farWait := s.home.farWait ++ [a] } }
  else match s.homeDo a.fpa a.partition a.act a.whole (s.isSpec a.who) with
    | (s, e, data) => s.reply a.fpa a.who a.act e data

/-- Performs an access once no copy is left (R128): lines leave the die but the writer's, sharers are forgotten. -/
def State.perform (s : State) (a : HeldAccess) : State :=
  let s := if a.act.isWrite then
      ((s.snoopOut (linesOf a.fpa a.act.len) a.writer).clearSharers (linesOf (a.fpa % 2 ^ 49) a.act.len)
        ((s.asking a.who).map Prod.fst)).trackDirty a.fpa a.act.len
    else s
  if fpaUnit a.fpa < 16 then s.edgeAct a else s.unitAct a

/-- Records a chip as sharer of a line, most recently used. -/
def State.addSharer (s : State) (line chip : Nat) : State :=
  let cs := s.lineSharers line
  { s with home := { s.home with
      sharers := tset line (if cs.contains chip then cs else cs ++ [chip]) s.home.sharers,
      sharerOrder := s.home.sharerOrder.filter (· != line) ++ [line] } }

/-- The least recently used entry of a full sharer table, when a fill of a line needs one (R127). -/
def State.reclaimFor (s : State) (line : Nat) : Option Nat :=
  if (tget line s.home.sharers).isSome then none
  else
    let own := s.home.sharerOrder.filter (fun l => l * 128 / 2 ^ 43 == line * 128 / 2 ^ 43)
    if 32768 ≤ own.length then own.head? else none

/-- Why a request may not reach bytes of units 16 to 35: not populated, lost, not the owner's (R30, R351, R388). -/
def State.frameErr (s : State) (fpa p : Nat) : Err :=
  if !s.populated (fpaUnit fpa) (bits fpa 42 21) then
    (if s.isLost (fpaUnit fpa) (bits fpa 42 21) then .poison else .bounds)
  else match s.frameRec (frameKey fpa) with
    | some r => if r.owner ≠ p then .partition else if s.isLost (fpaUnit fpa) (bits fpa 42 21) then .poison else .none
    | none => .partition

/-- The error that a home agent gives an access before it acts on it; an access to another partition's frame is logged
unless it is a run-ahead read (R109, R388). -/
def State.homeCheck (s : State) (a : HeldAccess) : State × Err :=
  let form := atomicForm a.fpa a.act
  let slot := s.slotErr (fpaUnit a.fpa) (fpaOff a.fpa) a.act.len
  if fpaUnit a.fpa < 16 ∧ form = .none ∧ slot ≠ .none then (s, slot)
  else if 16 ≤ fpaUnit a.fpa ∧ s.frameErr a.fpa a.partition ≠ .none then
    (if s.frameErr a.fpa a.partition = .partition ∧ !s.isSpec a.who then
       s.violate 2 (some a.partition) a.fpa .partition ((s.unitPort (fpaUnit a.fpa)).getD 255)
     else s, s.frameErr a.fpa a.partition)
  else (s, form)

/-- A waiting access with nothing asked yet. -/
def HeldAccess.op (a : HeldAccess) (stop port : Nat) : HomeOp :=
  { acc := a, port := port, stop := stop, tile := none, own := a.act.isWrite, line := none, taken := [], sent := false,
    queued := false, waitInval := [], waitRepl := [] }

/-- Sends INVAL to the sharers of an access's lines and REPL_INVAL to the holders of replicas, and to chips that may have placed
one and whose answer is on its way, and records whom it waits for (R99, R128, R256). -/
def State.askCopies (s : State) (id : Nat) : State :=
  match tget id s.home.ops with
  | none => s
  | some o =>
    let len := max 1 o.acc.act.len
    let invals := s.sharersOf o.acc.fpa len
    let dir := s.dirOf o.acc.fpa
    -- A device's back-invalidation does not reach replicas (R347, R257).
    let repls := match o.acc.who with
      | .here (.biRsp _ _) => []
      | _ => (dir.map (fun d => d.2.replicas ++ d.2.placing)).getD []
    let page := (dir.map (fun d => d.2.page)).getD 0
    let s := s.modOp id (fun o => { o with waitInval := invals, waitRepl := repls })
    let s := invals.foldl (fun s (l, c) => s.sendInval id l c o.acc.partition (s.asking o.acc.who)) s
    repls.foldl (fun s c => s.sendReplInval id o.acc.fpa len c o.acc.partition (page % 2 ^ 31)) s

/-- Whether a write has remote copies to remove first. -/
def State.hasCopies (s : State) (fpa len : Nat) : Bool :=
  s.sharersOf fpa len != [] || (match s.dirOf fpa with
    | some (_, d) => d.replicas != [] || d.placing != []
    | none => false)

/-- Serves an access whose lines no tile has: a fill is granted while its line has room for a sharer and is ONCE beyond; one
that needs an entry of a full table waits for the reclaim's acknowledgements (R127). -/
def State.serve (s : State) (a : HeldAccess) : State :=
  match a.who with
  | .frame src _ _ _ _ =>
    if lineFill a.fpa a.act a.who then
      let line := a.fpa % 2 ^ 49 / 128
      match s.reclaimFor line with
      | some old =>
        let id := s.home.nextOp
        let ws := (s.lineSharers old).map (fun c => (old, c))
        let s := s.openOp { a.op (homeStop (fpaUnit a.fpa)) 137 with waitInval := ws }
        (ws.foldl (fun s (l, c) => s.sendInval id l c a.partition none) s).clearSharers [old] none
      | none =>
        let s := if (s.lineSharers line).contains src ∨ (s.lineSharers line).length < 4 then s.addSharer line src else s
        s.perform a
    else s.perform a
  | .here _ => s.perform a

/-- The pieces of a range by line. -/
def linePieces (fpa len : Nat) : List (Nat × Nat) :=
  (linesOf fpa len).map (fun l => (max fpa (l * 128), min (fpa + len) (l * 128 + 128) - max fpa (l * 128)))

/-- The part of an action on a piece of its range. -/
def HomeAct.piece (act : HomeAct) (off n : Nat) : HomeAct :=
  match act with
  | .read _ => .read n
  | .write d => .write ((d.drop off).take n)
  | a => a

/-- Whether an earlier write of the same source to the same home agent is not yet performed (R92). -/
def State.orderBusy (s : State) (order : Option Nat) (unit : Nat) : Bool :=
  match order with
  | none => false
  | some k =>
    let hit := fun (a : HeldAccess) => a.act.isWrite && a.order == some k && fpaUnit a.fpa == unit
    s.home.ops.any (fun (o : Nat × HomeOp) => hit o.2.acc) ||
      s.home.farWait.any hit || s.home.lockWait.any hit || s.home.writeQueue.any hit || s.home.orderWait.any hit ||
      s.home.memReqs.any (fun (r : Nat × MemReq) => r.2.slot == unit && !r.2.write && r.2.act.isWrite &&
        (match r.2.who with
         | .here c => s.sourceOf c == some k
         | .frame src _ _ _ _ => k == 2 ^ 20 + src))

/-- Takes the lines of an access (R128, R133): at once where no tile has a copy and no other access names them, with their
lines held while acknowledgements are awaited; else line by line through the rings. -/
def State.takeAndServe (s : State) (a : HeldAccess) : State :=
  let len := a.act.len
  let w := a.act.isWrite
  let ls := linesOf a.fpa len
  let stop := homeStop (fpaUnit a.fpa)
  let copies := w && s.hasCopies a.fpa len
  if ls.all (s.lineClear w) ∧ !copies then s.serve a
  else if ls.all (s.lineClear w) ∧ s.home.lines.length + ls.length ≤ 256 then
    let id := s.home.nextOp
    ((s.openOp { a.op stop 137 with taken := ls }).takeLines id stop ls).askCopies id
  else
    let ps := linePieces a.fpa len
    let full := wholeBlocks (fpaUnit a.fpa) (fpaOff a.fpa) len
    match ps with
    | [_] => s.askLine { a.op stop 137 with line := ls.head? }
    | _ =>
      let g := s.home.nextGather
      let s := { s with home := { s.home with
        gathers := tset g { left := ps.length, parts := [], err := .none, cont := a.who.cont a.fpa a.act } s.home.gathers,
        nextGather := g + 1 } }
      ps.zipIdx.foldl (fun s (q, i) =>
        let b : HeldAccess := { a with
          fpa := q.1, act := a.act.piece (q.1 - a.fpa) q.2, who := .here (.part g i),
          whole := full.contains (memKey (fpaUnit q.1) (fpaOff q.1) / 256) }
        if s.lineClear w (q.1 / 128) ∧ !(w && s.hasCopies q.1 q.2) then s.serve b
        else s.askLine { b.op stop 137 with line := some (q.1 / 128) }) s

/-- Removes every copy of a line of this chip's memory, on the die and on sharer chips, then goes on: nothing is stored (R128,
R133, R347). -/
def State.removeLine (s : State) (fpa p : Nat) (k : Cont) : State :=
  let a : HeldAccess := { fpa := fpa, partition := p, act := .write [], who := .here k, asker := s.chip, writer := none,
                          order := none, whole := false }
  let l := fpa / 128
  let stop := homeStop (fpaUnit fpa)
  if s.lineClear true l ∧ s.sharersOf fpa 1 = [] then s.finish k .none []
  else if s.lineClear true l ∧ s.home.lines.length < 256 then
    let id := s.home.nextOp
    ((s.openOp { a.op stop 137 with taken := [l] }).takeLines id stop [l]).askCopies id
  else s.askLine { a.op stop 137 with line := some l }

/-- An access at its home agent on this chip, after forwarding: checks, the order of its source, its lines, the action. -/
def State.homeAct (s : State) (a : HeldAccess) : State :=
  match s.homeCheck a with
  | (s, .none) =>
    if a.act.isWrite ∧ s.orderBusy a.order (fpaUnit a.fpa) then
      { s with home := { s.home with orderWait := s.home.orderWait ++ [a] } }
    else ((s.heatOf a.fpa a.act.len a.act.isWrite a.asker).chargeHome a.fpa a.partition a.act.len).takeAndServe a
  | (s, e) => s.reply a.fpa a.who a.act e []

/-- Writes that waited for an earlier write of their source, oldest first. -/
def State.pumpOrder (s : State) : State :=
  s.home.orderWait.foldl State.homeAct { s with home := { s.home with orderWait := [] } }

/-- Whether new accesses to a frame are held: its page is in quiescence (R22, R251). -/
def State.inQuiet (s : State) (fpa : Nat) : Bool :=
  decide (16 ≤ fpaUnit fpa) && s.parser.migrations.any (fun m => m.quiesce && m.step == 4 && frameOf m.oldFpa == frameOf fpa)

/-- The new frame that an access to a frame of this chip is forwarded to (R251). -/
def State.forwardOf (s : State) (fpa : Nat) : Option Nat :=
  if 16 ≤ fpaUnit fpa then tget (frameKey fpa) s.parser.forward else none

/-- The payload of an ATOMIC or CTR frame (log entry 15). -/
def atomicBytes (op width operand compare : Nat) : List Byte :=
  packBytes [(8, op), (8, width), (48, 0), (128, operand), (128, compare)]

/-- The opcode and payload of a request for an action. -/
def HomeAct.request : HomeAct → Nat × List Byte
  | .read n => (1, leBytes 2 n)
  | .write d => (2, d)
  | .atomic o w x c => (3, atomicBytes o w x c)

/-- An access that reaches a frame of this chip: held while its page is in quiescence, forwarded while a migration of it is in
steps 5 to 7 (R251). -/
def State.atHome (s : State) (a : HeldAccess) : State :=
  if s.inQuiet a.fpa then { s with home := { s.home with quietWait := s.home.quietWait ++ [a] } }
  else match s.forwardOf a.fpa with
  | none => s.homeAct a
  | some new =>
    let dst := new + a.fpa % 2 ^ 21
    if fpaChip dst = s.chip then s.homeAct { a with fpa := dst }
    else
      match a.act.request with
      | (op, payload) =>
        let ord := op ≠ 1
        match a.who with
        | .here k => s.sendRequest (s.article dst op (if ord then 2 ^ flOrd else 0) a.partition (if ord then 4 else 0)
            (s.tense a.partition) 50 0 0 payload.length) payload k 137
        | .frame src tag q t spec =>
          let f := s.article dst op ((if spec then 2 ^ flSpec else 0) + (if ord then 2 ^ flOrd else 0)) q (if ord then 4 else 0) t 50
            tag 0 payload.length
          s.inject ((s.unitPort (fpaUnit a.fpa)).getD 136) { f with srcChip := src } payload

/-- Releases the accesses that a page's quiescence held. -/
def State.endQuiet (s : State) : State :=
  s.home.quietWait.foldl State.atHome { s with home := { s.home with quietWait := [] } }

/-! ### What a tile's own access does at its home -/

/-- The replica on this chip that serves reads of an FPA of another chip (R255). -/
def State.replicaOf (s : State) (fpa : Nat) : Option Replica := tget (fpa / 2 ^ 21) s.parser.replicas

/-- Where the bytes of an FPA lie on this chip: at their home, or in a replica's frame; none for a remote line (R124). -/
def State.localFpa (s : State) (fpa : Nat) : Option Nat :=
  if fpaChip fpa = s.chip then some fpa
  else (s.replicaOf fpa).map (fun r => r.frameFpa + fpa % 2 ^ 21)

/-! ### Issuing an access from this chip -/

def State.setReplica (s : State) (key : Nat) (r : Replica) : State :=
  { s with parser := { s.parser with replicas := tset key r s.parser.replicas } }

/-- Bytes of a replica frame. -/
def State.replicaRead (s : State) (r : Replica) (fpa len : Nat) : List Byte :=
  memRead s.mem (memKey (fpaUnit r.frameFpa) (fpaOff r.frameFpa + fpa % 2 ^ 21)) len

/-- An access of this chip to its own home agents. -/
def State.hereAccess (s : State) (fpa p : Nat) (act : HomeAct) (k : Cont) (writer order : Option Nat) : HeldAccess :=
  { fpa := fpa, partition := p, act := act, who := .here k, asker := s.chip, writer := writer, order := order, whole := false }

/-- Sends a request for an action to the home of an FPA on another chip. -/
def State.sendAct (s : State) (fpa : Nat) (act : HomeAct) (p : Nat) (k : Cont) (port : Nat) (ordered spec : Bool) : State :=
  match act.request with
  | (op, payload) =>
    let flags := (if spec then 2 ^ flSpec else 0) + (if ordered then 2 ^ flOrd else 0)
    let vc := if ordered then 4 else if op = 2 then 2 else 0
    s.sendRequest (s.article fpa op flags p vc (s.tense p) (s.srcUnit port) 0 0 payload.length) payload k port

/-- Reads bytes that lie in one 4 KiB block, wherever their home is: at a home of this chip, from a replica, or by RD
(R255). A replica of a lost page serves its valid blocks alone (R259). -/
def State.issueRead (s : State) (fpa len p : Nat) (k : Cont) (port : Nat) (spec : Bool) : State :=
  if fpaChip fpa = s.chip then
    s.atHome (s.hereAccess fpa p (.read len) k none none)
  else
    match s.replicaOf fpa with
    | some r =>
      if r.valid.contains (fpa % 2 ^ 21 / 4096) then
        let s := s.setReplica (fpa / 2 ^ 21) { r with served := min 65535 (r.served + blocksIn (fpaOff fpa) len) }
        (s.charge p 4 len).finish k .none (s.replicaRead r fpa len)
      else if s.unreachable (fpaChip fpa) then s.finish k .poison []
      else s.sendAct (fpa / 4096 * 4096) (.read 4096) p (.fill (fpa / 2 ^ 21) (fpa % 2 ^ 21 / 4096) (fpa % 4096) len k) port
        false spec
    | none => s.sendAct fpa (.read len) p k port false spec

/-- Writes bytes; a source of R84 sends ordered frames (R305). -/
def State.issueWrite (s : State) (fpa : Nat) (data : List Byte) (p : Nat) (k : Cont) (port : Nat) (ordered : Bool)
    (writer : Option Nat) : State :=
  if fpaChip fpa = s.chip then
    s.atHome (s.hereAccess fpa p (.write data) k writer (if ordered then s.sourceOf k else none))
  else s.sendAct fpa (.write data) p k port ordered false

def State.issueAtomic (s : State) (fpa op width operand compare p : Nat) (k : Cont) (port : Nat) (ordered : Bool) : State :=
  if fpaChip fpa = s.chip then
    s.atHome (s.hereAccess fpa p (.atomic op width operand compare) k none (if ordered then s.sourceOf k else none))
  else s.sendAct fpa (.atomic op width operand compare) p k port ordered false

/-- Cuts a run of bytes at 4 KiB boundaries. -/
def cut4k : Nat → Nat → Nat → List (Nat × Nat)
  | 0, _, _ => []
  | n + 1, fpa, len =>
    if len = 0 then []
    else
      let k := min len (4096 - fpa % 4096)
      (fpa, k) :: cut4k n (fpa + k) (len - k)

def cutRuns (rs : List (Nat × Nat)) : List (Nat × Nat) := rs.flatMap (fun r => cut4k (r.2 / 4096 + 2) r.1 r.2)

/-- Opens an access in pieces. -/
def State.openGather (s : State) (n : Nat) (k : Cont) : State :=
  { s with home := { s.home with
      gathers := tset s.home.nextGather { left := n, parts := [], err := .none, cont := k } s.home.gathers,
      nextGather := s.home.nextGather + 1 } }

/-- Reads runs of bytes in order, in pieces of one 4 KiB block. -/
def State.readRuns (s : State) (rs : List (Nat × Nat)) (p : Nat) (k : Cont) (port : Nat) (spec : Bool) : State :=
  match cutRuns rs with
  | [] => s.finish k .none []
  | [(a, n)] => s.issueRead a n p k port spec
  | ps =>
    let g := s.home.nextGather
    ps.zipIdx.foldl (fun s (r, i) => s.issueRead r.1 r.2 p (.part g i) port spec) (s.openGather ps.length k)

/-- Writes bytes over runs in order. -/
def State.writeRuns (s : State) (rs : List (Nat × Nat)) (data : List Byte) (p : Nat) (k : Cont) (port : Nat)
    (ordered : Bool) (writer : Option Nat) : State :=
  match cutRuns rs with
  | [] => s.finish k .none []
  | [(a, _)] => s.issueWrite a data p k port ordered writer
  | ps =>
    let g := s.home.nextGather
    (ps.zipIdx.foldl (fun (sd : State × List Byte) (r, i) =>
      (sd.1.issueWrite r.1 (sd.2.take r.2) p (.part g i) port ordered writer, sd.2.drop r.2))
      (s.openGather ps.length k, data)).1

/-- A piece has completed. -/
def State.partDone (s : State) (g idx : Nat) (e : Err) (data : List Byte) : State :=
  match tget g s.home.gathers with
  | none => s
  | some x =>
    let x := { x with left := x.left - 1, parts := tset idx data x.parts, err := if x.err = .none then e else x.err }
    if x.left = 0 then
      ({ s with home := { s.home with gathers := terase g s.home.gathers } }).finish x.cont x.err
        (x.parts.flatMap Prod.snd)
    else { s with home := { s.home with gathers := tset g x s.home.gathers } }

/-- A 4 KiB block came for a replica: it is filled unless REPL_INVAL met it (its key then names no
replica), and the waiting read gets its bytes (R255). -/
def State.fillDone (s : State) (key block off len : Nat) (k : Cont) (e : Err) (data : List Byte) : State :=
  if e ≠ .none then s.finish k e []
  else
    match tget key s.parser.replicas with
    | none => s.finish k .none ((data.drop off).take len)
    | some r =>
      let s := s.setReplica key { r with valid := if r.valid.contains block then r.valid else block :: r.valid }
      let s := s.charge r.partition 4 4096
      let s := { s with mem := memWrite s.mem (memKey (fpaUnit r.frameFpa) (fpaOff r.frameFpa + block * 4096)) data }
      s.finish k .none ((data.drop off).take len)

/-- Performs a waiting access: a tile's read of a replica's line goes on from the replica. -/
def State.performOp (s : State) (o : HomeOp) : State :=
  let a := o.acc
  match a.act, a.who with
  -- Nothing is stored: the line has left the die and its sharers (R347).
  | .write [], .here k => (s.clearSharers [a.fpa % 2 ^ 49 / 128] none).finish k .none []
  | .read n, .here k =>
    if fpaChip a.fpa ≠ s.chip then s.issueRead a.fpa n a.partition k o.port (s.isSpec a.who) else s.serve a
  | _, _ => s.serve a

/-- The home grants a ring request: the line's data unless a tile sent it, then DONE (R132). -/
def State.grantLine (s : State) (l : Nat) : State :=
  match tget l s.home.lines with
  | none => s
  | some r =>
    match r.queue with
    | [] => s
    | q :: _ =>
      let owned := r.ownedA || r.ownedB
      let s := s.setLine l { r with spec := false, phase := .done }
      let s := if owned then s else s.emit (.lineData l (lineStop l) q.stop)
      s.ringMsg 3 l (lineStop l) q.stop owned false (s.grantOf l q.stop q.own)

/-- A waiting access goes on once every chip it waits for has answered (R129): a ring request is granted; an access that held
its lines without the rings is performed. -/
def State.opReady (s : State) (id : Nat) : State :=
  match tget id s.home.ops with
  | none => s
  | some o =>
    if o.waitInval = [] ∧ o.waitRepl = [] then
      match o.line with
      | some l => s.grantLine l
      | none =>
        let s := { s with home := { s.home with ops := terase id s.home.ops } }
        let s := s.performOp o
        (o.taken.foldl State.releaseLine s).pumpOrder
    else s

def State.invalDone (s : State) (id line chip : Nat) : State :=
  (s.modOp id (fun o => { o with waitInval := o.waitInval.filter (· != (line, chip)) })).opReady id

def State.replDone (s : State) (id chip : Nat) : State :=
  (s.modOp id (fun o => { o with waitRepl := o.waitRepl.filter (· != chip) })).opReady id

/-- A CXL.mem completion at an edge home agent (R346, R136). The code of a failed one is the device's poison (R355). -/
def State.memDone (s : State) (tag : Nat) (ok : Bool) (data : List Byte) : State :=
  match tget tag s.home.memReqs with
  | none => s
  | some r =>
    let s := { s with home := { s.home with memReqs := terase tag s.home.memReqs } }
    let s := s.sample 3 (s.since r.tick) (some r.port) none
    let fpa := mkFpa s.chip r.slot r.offset
    let l := memKey r.slot r.offset / 64
    let e : Err := if ok then .none else .poison
    match r.write, r.act with
    | false, .read n => s.reply fpa r.who r.act e (if ok then s.overlay r.slot r.offset (data.take n) else [])
    | false, .atomic op w x c =>
      let locks := edgeLines r.slot r.offset w
      if ok then
        let old := s.overlay r.slot r.offset (data.take w)
        (s.openWrite fpa r.act r.who (leBytes w (atomicNew op w x c (leNat old))) old locks).failSlots.pumpOrder
      else ((s.unlock locks).reply fpa r.who r.act e []).pumpOrder
    | _, _ =>
      match tget l s.home.writeTable with
      | none => s
      | some w =>
        -- Writes whose bytes this MemWr held are answered; a line with newer bytes is sent again.
        let s := if w.again then s.setWline l { w with sent := false, writes := [] }
          else { s with home := { s.home with writeTable := terase l s.home.writeTable } }
        let s := w.writes.foldl (fun s id => s.writeIn e id) (s.pumpLine l)
        ((s.pumpWrites s.home.writeQueue.length).failSlots).pumpOrder

end Sys2Proof.Machine
end

