-- ==== Sys2Proof/Machine/Flags.lean ====
section
/-! DEFINITION. The flags of a context (FFLAGS, R206) and the register files of Table 6-1. -/

namespace Sys2Proof.Machine

/-- RMODE, SEED and FFLAGS as one environment of rounding. -/
def Ctx.env (x : Ctx) : Env := { rmode := x.rmode, seed := x.seed, flags := x.fflags }

/-- SEED advanced and flags ORed (R194, R206). -/
def Ctx.withEnv (x : Ctx) (e : Env) : Ctx := { x with seed := e.seed, fflags := e.flags }

/-- A scalar register; s0 reads 0. -/
def Ctx.sreg (x : Ctx) (r : BitVec 6) : Word := if r = 0 then 0 else (tget r.toNat x.s).getD 0

/-- Writes a scalar register; s0 ignores it. -/
def Ctx.setS (x : Ctx) (r : BitVec 6) (v : Word) : Ctx := if r = 0 then x else { x with s := tset r.toNat v x.s }

/-- A vector register. -/
def Ctx.vreg (x : Ctx) (r : BitVec 5) : VReg := (tget r.toNat x.v).getD 0

def Ctx.setV (x : Ctx) (r : BitVec 5) (v : VReg) : Ctx := { x with v := tset r.toNat v x.v }

/-- A predicate register; p0 reads all ones. -/
def Ctx.preg (x : Ctx) (r : BitVec 4) : PReg := if r = 0 then BitVec.allOnes 256 else (tget r.toNat x.p).getD 0

/-- Writes a predicate register; p0 ignores it. -/
def Ctx.setP (x : Ctx) (r : BitVec 4) (v : PReg) : Ctx := if r = 0 then x else { x with p := tset r.toNat v x.p }

/-- A matrix accumulator: FP32 at 0 until written (R151). -/
def Ctx.acc (x : Ctx) (r : BitVec 3) : Acc := (tget r.toNat x.m).getD { isInt := false, cells := [] }

def Ctx.setAcc (x : Ctx) (r : BitVec 3) (a : Acc) : Ctx := { x with m := tset r.toNat a x.m }

/-- The next instruction in program order. -/
def Ctx.advance (x : Ctx) : Ctx := { x with pc := x.pc + 1 }

end Sys2Proof.Machine
end

