-- ==== Sys2Proof/Machine/Operands.lean ====
section
/-! DEFINITION. How a tile instruction runs (chapter 6): the gate on its context, exceptions, operand addresses, the tile
store, and the elements and predicates of vector registers. -/

namespace Sys2Proof.Machine

/-! ### Contexts -/

def State.ctx (s : State) (c : At) : Option Ctx := tget c.ctx (s.tile c.tile).ctxs

def State.setCtx (s : State) (c : At) (x : Ctx) : State :=
  s.setTile c.tile { s.tile c.tile with ctxs := tset c.ctx x (s.tile c.tile).ctxs }

/-- The ring FVA of a submission slot. -/
def Queue.slotFva (q : Queue) (i : Nat) : Nat := q.sqFva + i % 2 ^ q.sqLog2 * 64

def State.clauseAt (s : State) (id : Nat) : Option Clause := tget id s.work.clauses

def State.setClause (s : State) (id : Nat) (k : Clause) : State :=
  { s with work := { s.work with clauses := tset id k s.work.clauses } }

def State.modClause (s : State) (id : Nat) (f : Clause → Clause) : State :=
  { s with work := { s.work with clauses := tmod id f s.work.clauses } }

/-- The tile whose L1 a fill of a remote line is for. -/
def Cont.fillOf : Cont → Option Nat
  | .lineFill t _ _ _ _ => t
  | _ => none

/-- Whether a tile has a request at the rings or a fill on its way. -/
def State.tileAsks (s : State) (l : Nat) : Bool :=
  let stop := tileStop (s.phys l)
  s.home.ops.any (fun (o : Nat × HomeOp) => o.2.tile == some l) ||
    s.home.lines.any (fun (e : Nat × RingLine) => e.2.queue.any (fun q => q.stop == stop)) ||
    (s.home.ringIn ++ s.home.ringHeld).any (fun q => q.2.stop == stop) ||
    s.fabric.track.any (fun (t : Nat × Track) => t.2.cont.fillOf == some l) ||
    s.fabric.waitTag.any (fun w => w.2.1.fillOf == some l)

/-- A tile in DRAINING on which nothing runs, and of which no entry, store or ring request is left, reads DISABLED with every
L1 line invalid (R137). -/
def State.restTile (s : State) (l : Nat) : State :=
  let n := s.phys l
  let t := s.tile l
  if s.get (R.TILE_STAT_STATE n) = 1 ∧ t.ctxs = [] ∧ t.entries = [] ∧ t.stores = [] ∧ !s.tileAsks l then
    (s.setTile l { t with l1 := [], copies := [], held := [] }).set (R.TILE_STAT_STATE n) 2
  else s

/-- A context ends: its registers, patterns, stream entries and tile-store range are free again; run-ahead is cancelled
(R123). Stores in its queue are still performed (R162). -/
def State.endCtx (s : State) (c : At) : State :=
  (s.setTile c.tile { s.tile c.tile with ctxs := terase c.ctx (s.tile c.tile).ctxs,
                                         entries := (s.tile c.tile).entries.filter (fun e => e.2.ctx != c.ctx) }).restTile
    c.tile

/-- Ends a clause with a code unless it already has one. -/
def Clause.endWith (k : Clause) (e : Ending) : Clause :=
  { k with ending := match k.ending with
      | some x => some x
      | none => some e }

/-- An exception (R162): the context ends, the clause takes the code of Table 6-6, TILE_EXC records it. `oaddr` is the operand
address recorded; for an exception that has none the spec names no value, and the callers give 0, or the counter name for one
that is malformed (DESIGN CHOICE, log entry 119). -/
def State.exception (s : State) (c : At) (x : Ctx) (code oaddr : Nat) (e : Err) : State :=
  let n := s.phys c.tile
  let part := ((s.clauseAt x.clause).map Clause.partition).getD 0
  let s := s.count (R.TILE_EXC_COUNT n)
  let s := ((s.set (R.TILE_EXC_LAST_PART n) part).set (R.TILE_EXC_LAST_CTX n) c.ctx).set (R.TILE_EXC_LAST_CODE n) code
  let s := s.modClause x.clause (fun k =>
    k.endWith { status := e, exc := code, segment := 2 ^ 32 - 1, detail := x.pc, addr := oaddr })
  s.endCtx c

def eIllegal : Nat := 1
def eAddress : Nat := 2
def eAlign : Nat := 3
def ePerm : Nat := 4
def eAccess : Nat := 5
def eStore : Nat := 6
def eStream : Nat := 7
def eWait : Nat := 8
def eBudget : Nat := 9
def eTilestore : Nat := 10

/-- The context that runs now: the chip runs and the context is ready (R116). -/
def State.running (s : State) (c : At) : Option Ctx :=
  if s.live then
    match s.ctx c with
    | some x => if x.mode = .running then some x else none
    | none => none
  else none

/-- Whether the word of the program at the context's index encodes no instruction (R146). A context without a loaded program, and
an index past it, hold no word. -/
def Ctx.reserved (x : Ctx) : Bool :=
  match x.prog[x.pc]? with
  | some w => (decodeTile w).isNone
  | none => false

/-- The context that an instruction runs in, if it may run now. -/
def State.ready (s : State) (c : At) : Option Ctx :=
  match s.running c with
  | some x => if x.reserved then none else some x
  | none => none

/-- Runs an instruction in its context; E_ILLEGAL when its word is not legal, or when the program holds a reserved word where the
context stands (R146). A context that is not ready runs nothing (log entry 3). -/
def State.inCtx (s : State) (c : At) (legal : Bool) (f : Ctx → State → State) : State :=
  match s.running c with
  | some x => if legal && !x.reserved then f x s else s.exception c x eIllegal 0 .format
  | none => s

/-- An instruction that changes registers alone. -/
def State.regs1 (s : State) (c : At) (legal : Bool) (f : Ctx → Ctx) : State :=
  s.inCtx c legal (fun x s => s.setCtx c (f x).advance)

/-- An instruction that writes one scalar register. -/
def State.scalar (s : State) (c : At) (rd : BitVec 6) (f : Ctx → Word) : State :=
  s.regs1 c true (fun x => x.setS rd (f x))

/-- A transfer of control; a target outside the program raises E_ILLEGAL (Table 6-3). -/
def State.jumpTo (s : State) (c : At) (x : Ctx) (target : Int) : State :=
  if 0 ≤ target ∧ target < (x.progLen : Int) then s.setCtx c { x with pc := target.toNat }
  else s.exception c x eIllegal 0 .format

def State.branch (s : State) (c : At) (f : FmtB) (taken : Word → Word → Bool) : State :=
  s.inCtx c true (fun x s =>
    if taken (x.sreg f.ra) (x.sreg f.rb) then s.jumpTo c x ((x.pc : Int) + f.off.toInt) else s.setCtx c x.advance)

/-! ### Operand addresses (R142, R143) -/

def oaHandle (a : Nat) : Nat := a / 2 ^ 59 % 32
def oaOffset (a : Nat) : Nat := a % 2 ^ 59

/-- Whether bytes of an operand address may be reached: handle 16 within the range, 0 to 15 within a present operand. -/
def Ctx.reaches (x : Ctx) (a n : Nat) : Bool :=
  if oaHandle a = 16 then decide (oaOffset a + n ≤ x.tsSize)
  else match tget (oaHandle a) x.ops with
    | some (_, len, _) => decide (oaHandle a < 16) && decide (oaOffset a + n ≤ len)
    | none => false

/-- Whether bytes at a distance from an operand address may be reached: the handle is that of the address. -/
def Ctx.reachesFrom (x : Ctx) (a off n : Nat) : Bool :=
  decide (oaOffset a + off + n ≤ 2 ^ 59) && x.reaches (a + off) n

/-- Whether an operand may be written (R143). -/
def Ctx.writable (x : Ctx) (a : Nat) : Bool :=
  match tget (oaHandle a) x.ops with
  | some (_, _, w) => w
  | none => false

/-- The FVA of an operand address in a handle below 16. -/
def Ctx.fva (x : Ctx) (a : Nat) : Nat :=
  match tget (oaHandle a) x.ops with
  | some (start, _, _) => start + oaOffset a
  | none => 0

/-- Bytes of the tile store: the tile's, from the context's range (R117). -/
def State.tsRead (s : State) (c : At) (x : Ctx) (off n : Nat) : List Byte :=
  memRead (s.tile c.tile).store (x.tsBase + off) n

def State.tsWrite (s : State) (c : At) (x : Ctx) (off : Nat) (bs : List Byte) : State :=
  s.setTile c.tile { s.tile c.tile with store := memWrite (s.tile c.tile).store (x.tsBase + off) bs }

/-- The FPA runs of bytes of a clause, from its extents; none where an extent is lacking (R53, R145). -/
def fvaRuns (es : List Extent) : Nat → Nat → Nat → Option (List (Nat × Nat))
  | 0, _, n => if n = 0 then some [] else none
  | fuel + 1, fva, n =>
    if n = 0 then some []
    else match es.find? (fun e => decide (e.fva ≤ fva) && decide (fva < e.fva + e.len)) with
      | none => none
      | some e =>
        let m := min n (e.fva + e.len - fva)
        match fvaRuns es fuel (fva + m) (n - m) with
        | some r => some ((e.fpa + (fva - e.fva), m) :: r)
        | none => none

/-- The runs of a clause's bytes. -/
def Clause.runs (k : Clause) (fva n : Nat) : Option (List (Nat × Nat)) := fvaRuns k.extents (k.extents.length + 1) fva n

/-- The lead offset at which a handle starts: each lower operand rounded up to 2 MiB (R174). -/
def Ctx.leadBase (x : Ctx) (h : Nat) : Nat :=
  ((x.ops.filter (fun o => decide (o.1 < h))).map (fun o => ceilDiv o.2.2.1 (2 ^ 21) * 2 ^ 21)).sum

/-- Starts the segments up to that of an access (R145). -/
def State.touchSegment (s : State) (x : Ctx) (a n : Nat) : State :=
  let k := (x.leadBase (oaHandle a) + oaOffset a + (n - 1)) / 2 ^ 21
  s.modClause x.clause (fun c => { c with segment := max c.segment (k + 1), timed := true })

/-- Whether bytes of an operand address lie beyond the segments translated (R145). -/
def Ctx.beyond (x : Ctx) (k : Clause) (a n : Nat) : Bool :=
  decide (k.clear * 2 ^ 21 ≤ x.leadBase (oaHandle a) + oaOffset a + (n - 1))

/-- The context stalls at a segment that is not translated (R145). -/
def State.stall (s : State) (c : At) (x : Ctx) : State := s.setCtx c { x with mode := .parked }

/-- The core port of a tile's data port. -/
def tilePort (c : At) : Nat := 84 + c.tile

/-- The runs behind an access to memory, or the reason it does not happen: E_ADDRESS, or a stall. -/
inductive Reach1 where
  | fault (code : Nat) (e : Err)
  | stall
  | runs (partition : Nat) (rs : List (Nat × Nat))
  deriving DecidableEq, Repr

def State.reach (s : State) (x : Ctx) (a n : Nat) : Reach1 :=
  if !x.reaches a n then .fault eAddress .bounds
  else match s.clauseAt x.clause with
    | none => .stall
    | some k =>
      if x.beyond k a n then .stall
      else match k.runs (x.fva a) n with
        | some rs => .runs k.partition rs
        | none => .stall

/-! ### Vector registers (R148, R191, R192) -/

/-- Elements of a format in a register. -/
def lanesOf (c : Nat) : Nat := 2048 / regWidth c

def laneGet (c : Nat) (v : VReg) (i : Nat) : Nat := elem (regWidth c) v.toNat i

def lanesTo (c : Nat) (xs : List Nat) : VReg := BitVec.ofNat 2048 (packElems (regWidth c) xs)

/-- Byte of an element's lowest bit. -/
def lowByte (c i : Nat) : Nat := regWidth c * i / 8

/-- An element is enabled when the predicate bit of its lowest byte is set (R148). -/
def laneOn (c : Nat) (p : PReg) (i : Nat) : Bool := p.getLsbD (lowByte c i)

/-- Bytes that an instruction writes: enabled, and in an enabled element (R148, log entry 16). -/
def byteOn (c : Nat) (p : PReg) (j : Nat) : Bool :=
  p.getLsbD j && p.getLsbD (j * 8 / regWidth c * regWidth c / 8)

/-- A mask of 0xFF bytes. -/
def byteMask (on : Nat → Bool) : VReg :=
  BitVec.ofNat 2048 (packElems 8 ((List.range 256).map (fun j => if on j then 255 else 0)))

/-- New bytes where the mask is set, old ones elsewhere. -/
def blend (mask new old : VReg) : VReg := (new &&& mask) ||| (old &&& ~~~mask)

/-- Elements computed in ascending lane order over the enabled ones; a disabled lane gives 0, which the blend drops. -/
def mapLanes (c : Nat) (p : PReg) (e : Env) (g : Nat → Env → Env × Nat) : Env × List Nat :=
  (List.range (lanesOf c)).foldl (fun (acc : Env × List Nat) i =>
    if laneOn c p i then
      match g i acc.1 with
      | (e, v) => (e, acc.2 ++ [v])
    else (acc.1, acc.2 ++ [0])) (e, [])

/-- Formats of the vector unit (R148). -/
def vecFmt (c : Nat) : Bool := decide (c ≤ 5) || (decide (9 ≤ c) && decide (c ≤ 12))

/-- INT64 to INT8. -/
def vecInt (c : Nat) : Bool := decide (9 ≤ c) && decide (c ≤ 12)

/-- A vector instruction: writes VD under PG lane by lane, with the flags and seed that rounding leaves; the step
supplies free values by lane (log entry 17). -/
def State.vector (s : State) (c : At) (f : FmtV) (legal : Bool) (g : (Nat → Nat) → Ctx → Nat → Env → Env × Nat) : State :=
  s.inCtx c legal (fun x s =>
    let fm := f.fmt.toNat
    let p := x.preg f.pg
    let free := s.free
    match mapLanes fm p x.env (g free x) with
    | (e, vs) =>
      (s.setCtx c ((x.withEnv e).setV f.vd (blend (byteMask (byteOn fm p)) (lanesTo fm vs) (x.vreg f.vd))).advance).freshen)

end Sys2Proof.Machine
end

