-- ==== Sys2Proof/Machine/Counters.lean ====
section
/-! DEFINITION. Arrival counters (R157, R165, R179, R183): names, operations, and the triggers that a change meets. -/

namespace Sys2Proof.Machine

/-- Whether a counter name has its fixed bits at 0 (R157). -/
def nameOk (n : Nat) : Bool := bits n 48 18 == 0

def nameChip (n : Nat) : Nat := bits n 63 49
def nameIndex (n : Nat) : Nat := bits n 17 0

/-- The FPA of a counter: unit 49, at 8 times its index. -/
def counterFpa (chip index : Nat) : Nat := mkFpa chip 49 (8 * index)

/-- Descriptor header fields (Table 7-8). -/
def descOp (d : List Byte) : Nat := fieldAt d 0 1
def descExt (d : List Byte) : Bool := bit (fieldAt d 1 1) 0
def descCmplErr (d : List Byte) : Bool := bit (fieldAt d 1 1) 1
def descSpillOk (d : List Byte) : Bool := bit (fieldAt d 1 1) 2
def descTrigEn (d : List Byte) : Bool := bit (fieldAt d 1 1) 3
def descArriveEn (d : List Byte) : Bool := bit (fieldAt d 1 1) 4
def descTag (d : List Byte) : Nat := fieldAt d 4 4
def descArrive (d : List Byte) : Nat := fieldAt d 8 8
def descTrigger (d : List Byte) : Nat := fieldAt d 16 8
def descThreshold (d : List Byte) : Nat := fieldAt d 24 8

/-- Whether a counter value meets what a clause waits for: its trigger, or the counter of a WAIT. -/
def Clause.metBy (k : Clause) (chip n v : Nat) : Bool :=
  (k.untriggered && descTrigger k.desc == chip * 2 ^ 49 + n && decide (descThreshold k.desc ≤ v)) ||
    (descOp k.desc == 0x42 && fieldAt k.desc 32 8 == chip * 2 ^ 49 + n && decide (fieldAt k.desc 40 8 ≤ v))

/-- A counter takes a value; the clauses whose threshold it meets stay released (R179). -/
def State.putCounter (s : State) (n v : Nat) : State :=
  let s := s.setCounter n v
  { s with work := { s.work with clauses := s.work.clauses.map (fun c =>
      (c.1, if c.2.metBy s.chip n (v % 2 ^ 64) then { c.2 with met := true } else c.2)) } }

/-- An operation on a counter of this chip: 0 load, 1 add, 3 set; the old value and the state. -/
def State.counterOp (s : State) (n op x : Nat) : State × Nat :=
  let old := s.counter n
  match op with
  | 1 => (s.putCounter n (old + x), old)
  | 3 => (s.putCounter n x, old)
  | _ => (s, old)

/-- An operation on a counter by its name: here, or by CTR; a counter of this chip outside the partition's range is a
CONTROL violation (R157, R183). -/
def State.issueCounter (s : State) (name op x p : Nat) (k : Cont) (port : Nat) : State :=
  if nameChip name = s.chip then
    if s.ownsCounter p (nameIndex name) then
      match s.counterOp (nameIndex name) op x with
      | (s, old) => s.finish k .none (leBytes 8 old)
    else (s.violate 4 (some p) name .partition 255).finish k .partition []
  else
    s.sendRequest (s.article (counterFpa (nameChip name) (nameIndex name)) 5 0 p 0 (s.tense p) 50 0 0 40)
      (atomicBytes op 8 x 0) k port

end Sys2Proof.Machine
end

