-- ==== Sys2Proof/Machine/Descr.lean ====
section
/-! DEFINITION. Clause descriptors (chapters 7, 9, 11): bodies and their limits, operands, segments, chunks and the pieces
of data that each chunk moves; the geometry of a collective group. -/

namespace Sys2Proof

/-! ### Collective groups (R209, R210) -/

/-- Set bits of a mask below n, ascending. -/
def maskBits (m n : Nat) : List Nat := (List.range n).filter (bit m)

def GroupCreate.xs (g : GroupCreate) : List Nat := maskBits g.xMask 64
def GroupCreate.ys (g : GroupCreate) : List Nat := maskBits g.yMask 64
def GroupCreate.zs (g : GroupCreate) : List Nat := maskBits g.zMask 8
def GroupCreate.slotList (g : GroupCreate) : List Nat := maskBits g.slotMask 16

/-- Chip indices: G of R216. -/
def GroupCreate.chips (g : GroupCreate) : Nat := g.xs.length * g.ys.length * g.zs.length

/-- Members: N of R209. -/
def GroupCreate.members (g : GroupCreate) : Nat := g.chips * g.slotList.length

/-- Size of a group in a dimension. -/
def GroupCreate.size (g : GroupCreate) (d : Nat) : Nat :=
  if d = 0 then g.xs.length else if d = 1 then g.ys.length else g.zs.length

/-- Position of a chip index in a dimension. -/
def GroupCreate.posOf (g : GroupCreate) (c d : Nat) : Nat :=
  if d = 0 then c % g.xs.length else if d = 1 then c / g.xs.length % g.ys.length
  else c / g.xs.length / g.ys.length

/-- The chip index with another position in one dimension. -/
def GroupCreate.withPos (g : GroupCreate) (c d p : Nat) : Nat :=
  let x := if d = 0 then p else g.posOf c 0
  let y := if d = 1 then p else g.posOf c 1
  let z := if d = 2 then p else g.posOf c 2
  (z * g.ys.length + y) * g.xs.length + x

/-- Whether a queue delivers member clauses of a group. -/
def GroupCreate.queueOk (g : GroupCreate) (q : Nat) : Bool :=
  decide (g.queueBase ≤ q) && bit g.slotMask (q - g.queueBase) && decide (q - g.queueBase < 16)

end Sys2Proof

namespace Sys2Proof.Machine

/-- The side of a chip: odd x in a paired group. -/
def State.side (s : State) (g : GroupCreate) (c : Nat) : Nat := if g.paired then s.coord c 0 % 2 else 0

/-- The coordinate of a chip in the group's X_MASK. -/
def State.groupX (s : State) (g : GroupCreate) (c : Nat) : Nat := s.coord c 0 - s.side g c

/-- Whether a chip is a member chip (R209). -/
def State.isMember (s : State) (g : GroupCreate) (c : Nat) : Bool :=
  bit g.xMask (s.groupX g c) && bit g.yMask (s.coord c 1) && bit g.zMask (s.coord c 2)

/-- Positions of a chip's x, y and z among the set bits (R210). -/
def State.groupPos (s : State) (g : GroupCreate) (c : Nat) : Nat × Nat × Nat :=
  (g.xs.countP (fun v => decide (v < s.groupX g c)), g.ys.countP (fun v => decide (v < s.coord c 1)),
    g.zs.countP (fun v => decide (v < s.coord c 2)))

/-- The chip index (R210). -/
def State.chipIndex (s : State) (g : GroupCreate) (c : Nat) : Nat :=
  match s.groupPos g c with
  | (xi, yi, zi) => (zi * g.ys.length + yi) * g.xs.length + xi

/-- The chip of an index on this chip's side. -/
def State.chipAt (s : State) (g : GroupCreate) (i : Nat) : Nat :=
  let x := (g.xs.drop (i % g.xs.length)).headD 0 + s.side g s.chip
  let y := (g.ys.drop (i / g.xs.length % g.ys.length)).headD 0
  let z := (g.zs.drop (i / g.xs.length / g.ys.length)).headD 0
  s.withCoord (s.withCoord (s.withCoord s.chip 0 x) 1 y) 2 z

/-- The rank of slot a on a chip (R210). -/
def State.rank (s : State) (g : GroupCreate) (c a : Nat) : Nat :=
  s.chipIndex g c * g.slotList.length + g.slotList.countP (fun v => decide (v < a))

/-- Other member chips of this chip's side, in index order. -/
def State.groupPeers (s : State) (g : GroupCreate) : List Nat :=
  ((List.range g.chips).map (s.chipAt g)).filter (· != s.chip)

/-- Peers of this chip in one dimension of the group (R217). -/
def State.dimPeers (s : State) (g : GroupCreate) (d : Nat) : List Nat :=
  (s.groupPeers g).filter (fun c => (List.range 3).all (fun e => e == d || s.coord c e == s.coord s.chip e))

def State.group (s : State) (n : Nat) : Option Group := tget n s.coll.groups

/-! ### Descriptor fields -/

/-- The form of an opcode (Table 7-9): whether 128 B; none for a reserved code. -/
def opForm (op : Nat) : Option Bool :=
  if op = 1 ∨ op = 2 ∨ op = 3 ∨ op = 6 ∨ op = 0x40 ∨ op = 0x41 ∨ op = 0x42 then some false
  else if op = 4 ∨ op = 5 ∨ (0x10 ≤ op ∧ op ≤ 0x16) ∨ op = 0x20 ∨ op = 0x30 then some true
  else none

def isColl (op : Nat) : Bool := decide (0x10 ≤ op) && decide (op ≤ 0x16)

/-- Bytes of a range all 0. -/
def zeros (d : List Byte) (off n : Nat) : Bool := fieldAt d off n == 0

def fva52 (d : List Byte) (off : Nat) : Bool := decide (fieldAt d off 8 < 2 ^ 52)

-- Collective bodies (Table 7-11).
def cSrc (d : List Byte) : Nat := fieldAt d 32 8
def cDst (d : List Byte) : Nat := fieldAt d 40 8
def cCount (d : List Byte) : Nat := fieldAt d 48 8
def cGroup (d : List Byte) : Nat := fieldAt d 56 2 % 2 ^ 14
def cRoot (d : List Byte) : Nat := fieldAt d 60 4
def cRedOp (d : List Byte) : Nat := fieldAt d 64 1 % 16
def cFmt (d : List Byte) : Nat := fieldAt d 64 1 / 16
def cTfmt (d : List Byte) : Nat := fieldAt d 65 1 % 16
def cRotate (d : List Byte) : Bool := bit (fieldAt d 65 1) 4
def cRmode (d : List Byte) : Nat := fieldAt d 65 1 / 32 % 4
def cCounts (d : List Byte) : Nat := fieldAt d 72 8
def cDispls (d : List Byte) : Nat := fieldAt d 80 8

-- TRANSFORM bodies.
def tVectors (d : List Byte) : Nat := fieldAt d 48 8
def tCoef (d : List Byte) : Nat := fieldAt d 56 8
def tBank (d : List Byte) : Bool := bit (fieldAt d 64 1) 0
def tWindow (d : List Byte) : Nat := fieldAt d 64 1 / 2 % 8
def tIn (d : List Byte) : Nat := fieldAt d 64 1 / 16
def tOut (d : List Byte) : Nat := fieldAt d 65 1 % 16
def tInputs (d : List Byte) : Nat := fieldAt d 65 1 / 16 + 1
def tStride (d : List Byte) : Nat := fieldAt d 72 8
def tCoefLen (d : List Byte) : Nat := if tBank d then 64 + 256 * tInputs d else 16448

/-- Bytes of one element of a byte-wide format. -/
def fmtBytes (c : Nat) : Nat := fmtWidth c / 8

/-- The accumulation format of a collective format (Tables 8-6 and 9-4). -/
def accFmt (c : Nat) : Nat :=
  if c = 0 then 0 else if c ≤ 5 then 1 else if c = 9 then 9 else 10

/-- Formats of a collective (R205). -/
def collFmt (c : Nat) : Bool := decide (c ≤ 5) || (decide (9 ≤ c) && decide (c ≤ 12))

/-- A block-scaled transport format (R205). -/
def blockScaled (f t : Nat) : Bool := decide (1 ≤ f) && decide (f ≤ 3) && decide (4 ≤ t) && decide (t ≤ 8)

def collFmts (f t : Nat) : Bool := collFmt f && (t == f || t == accFmt f || blockScaled f t)

/-- RED_OP against FMT (R204): AVG is for floats, the bitwise operators for integers. -/
def redOpOk (op red f : Nat) : Bool :=
  if op = 0x10 ∨ op = 0x11 ∨ op = 0x12 then
    decide (red ≤ 2) || (red == 3 && decide (f ≤ 5)) || (decide (4 ≤ red) && decide (red ≤ 6) && isIntFmt f)
  else red == 0

/-! ### Step 1 of R175, but for the group of a collective -/

/-- Reserved fields and limits of a body (Tables 7-10 and 7-11, R192, R204, R205, R233, R270). -/
def bodyOk (d : List Byte) : Bool :=
  match descOp d with
  | 1 => fva52 d 32 && fva52 d 40 && decide (1 ≤ fieldAt d 48 8) && decide (fieldAt d 48 8 ≤ 2 ^ 44) && zeros d 56 8
  | 2 => fva52 d 32 && fva52 d 40 && !zeros d 48 4 && !zeros d 52 3 && decide (fieldAt d 48 4 ≤ fieldAt d 60 4)
  | 3 => fva52 d 32 && decide (1 ≤ fieldAt d 40 8) && decide (fieldAt d 40 8 ≤ 2 ^ 44) && zeros d 56 8
  | 4 | 5 => fva52 d 32 && fva52 d 40 && fva52 d 48 && !zeros d 56 4 && !zeros d 60 4 && zeros d 72 56
  | 6 => fva52 d 32 && decide (1 ≤ fieldAt d 40 4) && decide (fieldAt d 40 4 ≤ 2 ^ 24) && zeros d 44 20
  | 0x20 =>
    fva52 d 32 && fva52 d 40 && fva52 d 56 && zeros d 66 6 && zeros d 80 48 && decide (tWindow d ≤ 5) &&
      (decide (1 ≤ tIn d) && (decide (tIn d ≤ 5) || tIn d == 12)) && (decide (1 ≤ tOut d) && decide (tOut d ≤ 5)) &&
      decide (1 ≤ tVectors d) && decide (tVectors d * 64 * fmtBytes (tOut d) ≤ 2 ^ 44) &&
      (if tBank d then decide (tVectors d * 64 * fmtBytes (tIn d) ≤ tStride d)
       else tInputs d == 1 && tStride d == 0)
  | 0x30 =>
    fva52 d 32 && fva52 d 48 && decide (1 ≤ fieldAt d 40 2) && decide (fieldAt d 40 2 ≤ 16384) &&
      decide (1 ≤ fieldAt d 42 1) && decide (fieldAt d 42 1 ≤ 32) && decide (fieldAt d 43 1 ≤ 16) && zeros d 56 8 &&
      decide (fieldAt d 32 8 % 4 = 0)
  | 0x40 => decide (2 ≤ fieldAt d 32 1) && decide (fieldAt d 32 1 ≤ 3) && zeros d 33 31
  | 0x41 => decide (fieldAt d 48 1 ≤ 1) && zeros d 49 15 && nameOk (fieldAt d 32 8)
  | 0x42 => zeros d 48 16 && !descTrigEn d && nameOk (fieldAt d 32 8)
  | op =>
    if isColl op then
      fva52 d 32 && fva52 d 40 && fva52 d 72 && fva52 d 80 && zeros d 58 2 && decide (fieldAt d 57 1 < 64) &&
        decide (fieldAt d 65 1 < 128) && zeros d 66 6 && zeros d 88 40 && collFmts (cFmt d) (cTfmt d) &&
        redOpOk op (cRedOp d) (cFmt d) && decide (cRmode d ≤ 2) && decide (1 ≤ cCount d) &&
        (op == 0x10 || op == 0x14 || cRoot d == 0) && (!cRotate d || blockScaled (cFmt d) (cTfmt d)) &&
        (op == 0x12 || op == 0x13 || op == 0x16 || cCounts d == 0) && (op == 0x16 || cDispls d == 0)
    else false

/-- The header and the body (R6, R173, R175 step 1). -/
def descOk (d : List Byte) (chip : Nat) : Bool :=
  opForm (descOp d) == some (descExt d) && decide (fieldAt d 1 1 < 32) && zeros d 2 2 &&
    (!descSpillOk d || isColl (descOp d)) &&
    (if descTrigEn d then nameOk (descTrigger d) && nameChip (descTrigger d) == chip
     else descTrigger d == 0 && descThreshold d == 0) &&
    (if descArriveEn d then nameOk (descArrive d) else descArrive d == 0) && bodyOk d &&
    (descOp d != 0x42 || nameChip (fieldAt d 32 8) == chip)

/-- A COEF, SRC or DST that is not aligned (R270). -/
def alignErr (d : List Byte) : Bool :=
  descOp d == 0x20 && (tCoef d % 64 != 0 || cSrc d % fmtBytes (tIn d) != 0 || cDst d % fmtBytes (tOut d) != 0)

/-- Where acceptance reads more bytes: KERNEL operand list, or COUNTS and DISPLS (R176, R221, R222). -/
def extraReads (d : List Byte) (members : Nat) : List (Nat × Nat) :=
  match descOp d with
  | 0x30 => if zeros d 43 1 then [] else [(fieldAt d 48 8, 16 * fieldAt d 43 1)]
  | 0x12 | 0x13 => if cCounts d = 0 then [] else [(cCounts d, 8 * members)]
  | 0x16 => [(cCounts d, 16 * members), (cDispls d, 8 * members)]
  | _ => []

/-- Whether a member clause waits for the pages of its arrays: they are read when it resumes (R34, R61, log entry 130). -/
def lacksArrays (d extra : List Byte) (members : Nat) : Bool :=
  isColl (descOp d) && decide (extra.length < ((extraReads d members).map Prod.snd).sum)

/-- Operand-list entries in handle order (Table 7-13): start, length, writable. -/
def kernelOps (extra : List Byte) (n : Nat) : List (Nat × Nat × Bool) :=
  (List.range n).map (fun h =>
    (fieldAt extra (16 * h) 8, fieldAt extra (16 * h + 8) 8 % 2 ^ 45, bit (fieldAt extra (16 * h + 13) 1) 5))

/-- Limits and reserved fields of the operand list. -/
def kernelOpsOk (extra : List Byte) (n : Nat) : Bool :=
  (List.range n).all (fun h =>
    fva52 extra (16 * h) && decide (fieldAt extra (16 * h + 8) 8 % 2 ^ 45 ≤ 2 ^ 44) &&
      decide (fieldAt extra (16 * h + 13) 1 < 64) && zeros extra (16 * h + 14) 2)

/-! ### What a clause knows of its collective -/

/-- The blocks of a collective's buffers: for each rank, the elements of its block (R221). -/
def blockCounts (d extra : List Byte) (members : Nat) : List Nat :=
  if cCounts d ≠ 0 ∧ (descOp d = 0x12 ∨ descOp d = 0x13) then
    (List.range members).map (fun r => fieldAt extra (8 * r) 8)
  else List.replicate members (cCount d)

/-- Where a rank's block begins, in elements. -/
def blockStart (cs : List Nat) (r : Nat) : Nat := (cs.take r).sum

/-- What a member clause is: its members, its rank, and its side of a paired tray. -/
structure Role where
  members : Nat
  rank : Nat
  paired : Bool
  side : Nat
  deriving DecidableEq, Repr

/-- A block cut to the side's chunks (R212): offset within the block and length. -/
def Role.cut (r : Role) (len : Nat) : Nat × Nat :=
  if r.paired then
    let c := ceilDiv len 4096
    let h := ceilDiv c 2
    if r.side = 0 then (0, min len (4096 * h)) else (4096 * h, len - 4096 * h)
  else (0, len)

/-- One buffer of a collective as blocks: (start in bytes, length in bytes). -/
def srcBlocks (d extra : List Byte) (r : Role) : List (Nat × Nat) :=
  let w := fmtBytes (cFmt d)
  match descOp d with
  | 0x10 | 0x11 => [(0, cCount d * w)]
  | 0x12 => (List.range r.members).map (fun q =>
      (blockStart (blockCounts d extra r.members) q * w, ((blockCounts d extra r.members).drop q).headD 0 * w))
  | 0x13 => [(0, ((blockCounts d extra r.members).drop r.rank).headD 0 * w)]
  | 0x14 => if r.rank = cRoot d then [(0, cCount d * w)] else []
  | 0x15 => (List.range r.members).map (fun q => (q * cCount d * w, cCount d * w))
  | 0x16 => (List.range r.members).map (fun q => (fieldAt extra (16 * r.members + 8 * q) 8 * w, fieldAt extra (8 * q) 8 * w))
  | _ => []

def dstBlocks (d extra : List Byte) (r : Role) : List (Nat × Nat) :=
  let w := fmtBytes (cFmt d)
  match descOp d with
  | 0x10 => if r.rank = cRoot d then [(0, cCount d * w)] else []
  | 0x11 | 0x14 => [(0, cCount d * w)]
  | 0x12 => [(0, ((blockCounts d extra r.members).drop r.rank).headD 0 * w)]
  | 0x13 => (List.range r.members).map (fun q =>
      (blockStart (blockCounts d extra r.members) q * w, ((blockCounts d extra r.members).drop q).headD 0 * w))
  | 0x15 => (List.range r.members).map (fun q => (q * cCount d * w, cCount d * w))
  | 0x16 => [(0, cCount d * w)]
  | _ => []

/-- Whether the counts that a member of an ALLTOALLV receives have all come: one byte after the arrays says so. -/
def countsKnown (extra : List Byte) (members : Nat) : Bool := decide (24 * members < extra.length)

/-- The blocks of the lead operand (Table 7-9). Those of an ALLTOALLV have their places once the counts have come (R222). -/
def leadBlocks (d extra : List Byte) (r : Role) : List (Nat × Nat) :=
  if descOp d = 0x16 ∧ countsKnown extra r.members then
    let w := fmtBytes (cFmt d)
    let got := fun q => fieldAt extra (8 * (r.members + q)) 8
    (List.range r.members).map (fun q => (((List.range q).map got).sum * w, got q * w))
  else if dstBlocks d extra r = [] then srcBlocks d extra r
  else dstBlocks d extra r

/-- A buffer's bytes on this side. -/
def Role.bytes (r : Role) (bs : List (Nat × Nat)) : List (Nat × Nat) :=
  (bs.map (fun b => (b.1 + (r.cut b.2).1, (r.cut b.2).2))).filter (fun b => b.2 != 0)

/-! ### Operands -/

/-- A range of FVAs and the permissions it needs: 0 read, 1 write, 2 atomic. -/
structure Range where
  fva : Nat
  len : Nat
  ops : List Nat
  deriving DecidableEq, Repr

/-- Where SRC of an ALLTOALLV ends: the highest DISPLS[r] + COUNTS[r] (R222). -/
def sendEnd (d extra : List Byte) (r : Role) : Nat := ((srcBlocks d extra r).map (fun b => b.1 + b.2)).foldl max 0

/-- Every operand of a clause whole: the range check against the top of the FVA space (R54). -/
def operands (d extra : List Byte) (r : Role) : List Range :=
  match descOp d with
  | 1 => [⟨cSrc d, fieldAt d 48 8, [0]⟩, ⟨cDst d, fieldAt d 48 8, [1]⟩]
  | 2 =>
    let n := fieldAt d 52 3
    [⟨cSrc d, (n - 1) * fieldAt d 56 4 + fieldAt d 48 4, [0]⟩, ⟨cDst d, (n - 1) * fieldAt d 60 4 + fieldAt d 48 4, [1]⟩]
  | 3 => [⟨fieldAt d 32 8, fieldAt d 40 8, [1]⟩]
  | 4 => [⟨fieldAt d 32 8, fieldAt d 56 4 * fieldAt d 60 4, [1]⟩, ⟨fieldAt d 40 8, fieldAt d 64 8, [0]⟩,
          ⟨fieldAt d 48 8, 4 * fieldAt d 56 4, [0]⟩]
  | 5 => [⟨fieldAt d 40 8, fieldAt d 56 4 * fieldAt d 60 4, [0]⟩, ⟨fieldAt d 32 8, fieldAt d 64 8, [1]⟩,
          ⟨fieldAt d 48 8, 4 * fieldAt d 56 4, [0]⟩]
  | 6 => [⟨fieldAt d 32 8, 64 * fieldAt d 40 4, [0, 1]⟩]
  | 0x20 =>
    ((List.range (tInputs d)).map (fun k => Range.mk (cSrc d + k * tStride d) (tVectors d * 64 * fmtBytes (tIn d)) [0])) ++
      [⟨cDst d, tVectors d * 64 * fmtBytes (tOut d), [1]⟩, ⟨tCoef d, tCoefLen d, [0]⟩]
  | 0x30 =>
    ((kernelOps extra (fieldAt d 43 1)).filter (fun o => o.2.1 != 0)).map
      (fun o => Range.mk o.1 o.2.1 (if o.2.2 then [0, 1] else [0])) ++ [⟨fieldAt d 32 8, 4 * fieldAt d 40 2, [0]⟩]
  | op =>
    if lacksArrays d extra r.members then
      ((extraReads d r.members).filter (fun a => a.2 != 0)).map (fun a =>
        Range.mk a.1 a.2 (if op = 0x16 ∧ a.1 = cCounts d then [0, 1] else [0]))
    else if op = 0x16 then
      [⟨cSrc d, sendEnd d extra r, [0]⟩, ⟨cDst d, cCount d * fmtBytes (cFmt d), [1]⟩, ⟨cCounts d, 16 * r.members, [0, 1]⟩].filter
        (fun x => x.len != 0)
    else if isColl op then
      ((r.bytes (srcBlocks d extra r)).map (fun b => Range.mk (cSrc d + b.1) b.2 [0])) ++
        ((r.bytes (dstBlocks d extra r)).map (fun b => Range.mk (cDst d + b.1) b.2 [1]))
    else []

/-- Bytes of the lead operand (R56, Table 7-9). -/
def leadLen (d extra : List Byte) (r : Role) : Nat :=
  match descOp d with
  | 1 => fieldAt d 48 8
  | 2 => (fieldAt d 52 3 - 1) * fieldAt d 60 4 + fieldAt d 48 4
  | 3 => fieldAt d 40 8
  | 4 | 5 => fieldAt d 56 4 * fieldAt d 60 4
  | 6 => 64 * fieldAt d 40 4
  | 0x20 => tVectors d * 64 * fmtBytes (tOut d)
  | 0x30 =>
    ((kernelOps extra (fieldAt d 43 1)).foldl (fun (a : Nat × Nat) o =>
      (a.1 + ceilDiv o.2.1 (2 ^ 21) * 2 ^ 21, if o.2.1 = 0 then a.2 else a.1 + o.2.1)) (0, 0)).2
  | op =>
    if isColl op then
      let dst := dstBlocks d extra r
      ((if dst = [] then srcBlocks d extra r else dst).map (fun b => b.1 + b.2)).foldl max 0
    else 0

/-- FVA of the first byte of the lead operand; 0 for a clause without one. -/
def leadFva (d extra : List Byte) (r : Role) : Nat :=
  let op := descOp d
  if op = 1 ∨ op = 2 ∨ op = 0x20 then cDst d
  else if isColl op then (if dstBlocks d extra r = [] then cSrc d else cDst d)
  else ((operands d extra r).head?.map Range.fva).getD 0

/-- The part of a range at lead offsets lo to hi - 1, when its byte o has lead offset base + o. -/
def Range.slice (x : Range) (base lo hi : Nat) : List Range :=
  let a := max lo base
  let b := min hi (base + x.len)
  if a < b then [{ x with fva := x.fva + (a - base), len := b - a }] else []

/-- Rows of COPY2D whose 2D tile starts in a segment (R57): (row, lead offset). -/
def rows2D (d : List Byte) (seg : Nat) : List Nat :=
  let t := fieldAt d 55 1 + 1
  (List.range (fieldAt d 52 3)).filter (fun r => decide (r / t * t * fieldAt d 60 4 / 2 ^ 21 = seg))

/-- The lead offset that the first byte of a block of SRC feeds: in this member's DST, or in the DST of the member that
receives it (R56, log entry 22). -/
def feedOffset (d extra : List Byte) (r : Role) (start : Nat) : Nat :=
  match descOp d with
  | 0x12 => 0
  | 0x13 => (((dstBlocks d extra r).drop r.rank).headD (0, 0)).1
  | 0x15 => r.rank * cCount d * fmtBytes (cFmt d)
  | _ => start

/-- What segment k touches (R56, R57; log entry 22 for the operands whose bytes have no lead offset). -/
def segRanges (d extra : List Byte) (r : Role) (seg : Nat) : List Range :=
  let lo := seg * 2 ^ 21
  let hi := lo + 2 ^ 21
  match descOp d with
  | 1 => (operands d extra r).flatMap (fun x => x.slice 0 lo hi)
  | 2 =>
    (rows2D d seg).flatMap (fun i =>
      [⟨cSrc d + i * fieldAt d 56 4, fieldAt d 48 4, [0]⟩, ⟨cDst d + i * fieldAt d 60 4, fieldAt d 48 4, [1]⟩])
  | 3 | 6 => (operands d extra r).flatMap (fun x => x.slice 0 lo hi)
  | 4 | 5 =>
    let el := fieldAt d 60 4
    match operands d extra r with
    | [a, b, ix] =>
      -- The elements whose first byte lies in the segment (log entry 29).
      let e0 := ceilDiv lo el
      let e1 := ceilDiv (min hi a.len) el
      a.slice 0 (e0 * el) (e1 * el) ++ [b] ++ ix.slice 0 (4 * e0) (4 * e1)
    | _ => []
  | 0x20 =>
    let wi := 64 * fmtBytes (tIn d)
    let wo := 64 * fmtBytes (tOut d)
    let v0 := lo / wo
    let v1 := min (tVectors d) (ceilDiv hi wo)
    ((List.range (tInputs d)).map (fun k => Range.mk (cSrc d + k * tStride d + v0 * wi) ((v1 - v0) * wi) [0])) ++
      (Range.mk (cDst d) (tVectors d * wo) [1]).slice 0 lo hi ++ [⟨tCoef d, tCoefLen d, [0]⟩]
  | 0x30 =>
    ((kernelOps extra (fieldAt d 43 1)).foldl (fun (a : Nat × List Range) o =>
      (a.1 + ceilDiv o.2.1 (2 ^ 21) * 2 ^ 21,
        a.2 ++ (Range.mk o.1 o.2.1 (if o.2.2 then [0, 1] else [0])).slice a.1 lo hi)) (0, [])).2 ++
      (if seg = 0 then [⟨fieldAt d 32 8, 4 * fieldAt d 40 2, [0]⟩] else [])
  | op =>
    if lacksArrays d extra r.members then (if seg = 0 then operands d extra r else [])
    else if op = 0x16 then
      (Range.mk (cDst d) (cCount d * fmtBytes (cFmt d)) [1]).slice 0 lo hi ++
        (if seg = 0 then (operands d extra r).filter (fun x => x.fva != cDst d || x.ops != [1]) else [])
    else if isColl op then
      let hiSrc := if ceilDiv (leadLen d extra r) (2 ^ 21) ≤ seg + 1 then 2 ^ 64 else hi
      ((r.bytes (dstBlocks d extra r)).flatMap (fun b => (Range.mk (cDst d + b.1) b.2 [1]).slice b.1 lo hi)) ++
        ((srcBlocks d extra r).zipIdx.flatMap (fun (b, _) =>
          let c := r.cut b.2
          (Range.mk (cSrc d + b.1 + c.1) c.2 [0]).slice (feedOffset d extra r b.1 + c.1) lo hiSrc))
    else []

/-- Segments of a clause (R56). -/
def segments (lead : Nat) : Nat := max 1 (ceilDiv lead (2 ^ 21))

/-- The lead offsets of COPY2D row bytes that chunk k holds: (row, first byte in the row, length). -/
def rowsIn (d : List Byte) (k : Nat) : List (Nat × Nat × Nat) :=
  let p := fieldAt d 60 4
  let n := fieldAt d 48 4
  let lo := 4096 * k
  let first := (lo + 1 - n) / p
  (((List.range (4096 / p + 3)).map (first + ·)).filter (fun i => decide (i < fieldAt d 52 3))).filterMap (fun i =>
    let a := max lo (i * p)
    let b := min (lo + 4096) (i * p + n)
    if a < b then some (i, a - i * p, b - a) else none)

/-- The first byte of some blocks in a chunk of lead offsets. -/
def firstTouched (bs : List (Nat × Nat)) (k : Nat) : Option Nat :=
  ((bs.filter (fun b => b.2 != 0 && decide (b.1 < 4096 * k + 4096) && decide (4096 * k < b.1 + b.2))).map
    (fun b => max b.1 (4096 * k))).min?

/-- Whether chunk k exists (R182). Where blocks of a collective do not begin at multiples of 4 KiB both sides of a tray may
touch one chunk: the side that handles its first byte counts it (R212, log entry 121). -/
def chunkExists (d extra : List Byte) (r : Role) (k : Nat) : Bool :=
  let op := descOp d
  if op = 0x30 ∨ op = 0x40 ∨ op = 0x41 ∨ op = 0x42 then k == 0
  else if op = 2 then !(rowsIn d k).isEmpty
  else if isColl op then
    match firstTouched (leadBlocks d extra r) k with
    | some a => (r.bytes (leadBlocks d extra r)).any (fun b => decide (b.1 ≤ a) && decide (a < b.1 + b.2))
    | none => false
  else decide (4096 * k < leadLen d extra r)

/-- Chunks that exist. -/
def chunkList (d extra : List Byte) (r : Role) : List Nat :=
  let n := if descOp d = 0x30 then 1 else max 1 (ceilDiv (leadLen d extra r) 4096)
  (List.range n).filter (chunkExists d extra r)

/-- Moves of a segment of COPY and COPY2D: (chunk, source FVA, destination FVA, length). -/
def copyMoves (d : List Byte) (seg : Nat) : List (Nat × Nat × Nat × Nat) :=
  if descOp d = 1 then
    ((List.range 512).map (seg * 512 + ·)).filterMap (fun k =>
      let n := min 4096 (fieldAt d 48 8 - 4096 * k)
      if n = 0 then none else some (k, cSrc d + 4096 * k, cDst d + 4096 * k, n))
  else
    let rows := rows2D d seg
    let lo := (rows.headD 0) * fieldAt d 60 4 / 4096
    let hi := ((rows.getLast?.getD 0) * fieldAt d 60 4 + fieldAt d 48 4) / 4096
    ((List.range (hi + 1 - lo)).map (lo + ·)).flatMap (fun k =>
      ((rowsIn d k).filter (fun q => rows.contains q.1)).map (fun (i, o, n) =>
        (k, cSrc d + i * fieldAt d 56 4 + o, cDst d + i * fieldAt d 60 4 + o, n)))

/-- Segments that hold bytes of a chunk. -/
def chunkSegs (d : List Byte) (k : Nat) : List Nat :=
  if descOp d = 2 then (rowsIn d k).map (fun q =>
    let t := fieldAt d 55 1 + 1
    q.1 / t * t * fieldAt d 60 4 / 2 ^ 21)
  else if descOp d = 0x30 then []
  else if descOp d = 4 ∨ descOp d = 5 then
    let el := fieldAt d 60 4
    let last := min (fieldAt d 56 4 * el) (4096 * k + 4096) - 1
    (List.range (last / el * el / 2 ^ 21 + 1 - 4096 * k / el * el / 2 ^ 21)).map (4096 * k / el * el / 2 ^ 21 + ·)
  else [k / 512]

end Sys2Proof.Machine
end

