-- ==== Sys2Proof/Machine/Work.lean ====
section
/-! DEFINITION. The life of a clause (chapters 3 and 7): translation, fault records and batches, parking, chunks and
arrival, endings, completion records, queue drains, and the hold sets of withdrawals. -/

namespace Sys2Proof.Machine

/-! ### Clauses -/

/-- What a member clause is (R209 to R212); a default for any other clause. -/
def State.roleFor (s : State) (d : List Byte) (queue : Nat) : Role :=
  if isColl (descOp d) then
    match s.group (cGroup d) with
    | some g => { members := g.body.members, rank := s.rank g.body s.chip (queue - g.body.queueBase),
                  paired := g.body.paired, side := s.side g.body s.chip }
    | none => { members := 0, rank := 0, paired := false, side := 0 }
  else { members := 0, rank := 0, paired := false, side := 0 }

def State.role (s : State) (k : Clause) : Role := s.roleFor k.desc k.queue

/-- Segments of a clause. -/
def Clause.segs (k : Clause) : Nat := segments k.leadLen

/-- What a segment of a clause touches. -/
def State.segTouch (s : State) (k : Clause) (seg : Nat) : List Range := segRanges k.desc k.extra (s.role k) seg

/-- The clauses of a queue, oldest first. -/
def State.queueClauses (s : State) (q : Nat) : List (Nat × Clause) :=
  s.work.clauses.filter (fun c => c.2.queue == q && c.2.origin.isNone)

/-- A clause that has neither ended nor completed. -/
def Clause.open_ (k : Clause) : Bool := k.ending.isNone && k.stage != .done

/-! ### Translation (R53, R54) -/

/-- What translation found: the first failing check by its place in R34 and then by address, extents, and unmapped pool
pages with the kinds of access wanted. -/
structure Xres where
  bad : Option (Nat × Nat × Err)
  extents : List Extent
  lacking : List (Nat × Nat)
  deriving DecidableEq, Repr

/-- The place of a check in R34 and R35. -/
def checkRank (e : Err) : Nat :=
  match e with
  | .unmapped => 1
  | .partition => 2
  | .permission => 3
  | _ => 4

def Xres.worse (x : Xres) (fva : Nat) (e : Err) : Xres :=
  match x.bad with
  | some (r, a, _) => if checkRank e < r ∨ (checkRank e = r ∧ fva < a) then { x with bad := some (checkRank e, fva, e) } else x
  | none => { x with bad := some (checkRank e, fva, e) }

def accessBits (ops : List Nat) : Nat := ops.foldl (fun n o => Nat.lor n (2 ^ o)) 0

def addLack (page bits : Nat) : List (Nat × Nat) → List (Nat × Nat)
  | [] => [(page, bits)]
  | (p, b) :: r => if p = page then (p, Nat.lor b bits) :: r else (p, b) :: addLack page bits r

/-- Translates a range piece by piece. -/
def State.xlPieces (s : State) (p : Nat) (ops : List Nat) : Nat → Nat → Nat → Xres → Xres
  | 0, _, _, x => x
  | fuel + 1, fva, len, x =>
    if len = 0 then x
    else
      let page := 2 ^ 21 - fva % 2 ^ 21
      let rs := ops.map (s.xlate p fva)
      match rs.find? (fun r => r.err != .none) with
      | some r =>
        let n := min len page
        if r.err = .unmapped ∧ !bit fva 51 then
          s.xlPieces p ops fuel (fva + n) (len - n) { x with lacking := addLack (fva / 2 ^ 21) (accessBits ops) x.lacking }
        else s.xlPieces p ops fuel (fva + n) (len - n) (x.worse fva r.err)
      | none =>
        let r := rs.headD ⟨.none, 0, page⟩
        let n := max 1 (min len r.run)
        s.xlPieces p ops fuel (fva + n) (len - n)
          { x with extents := x.extents ++ [{ fva := fva, len := n, fpa := r.fpa, side := s.sideEffect p fva }] }

/-- Translates every byte of some ranges. -/
def State.xlRanges (s : State) (p : Nat) (rs : List Range) : Xres :=
  rs.foldl (fun x r => s.xlPieces p r.ops (r.len / 4096 + 2) r.fva r.len x) { bad := none, extents := [], lacking := [] }

/-- An operand that starts in the FVA space and runs past its top (R54). -/
def topErr (rs : List Range) : Option Nat :=
  (rs.find? (fun r => decide (2 ^ 52 < r.fva + r.len))).map Range.fva

/-- A window check of R35.2 that fails is a violation (R400). -/
def State.logWindow (s : State) (p fva : Nat) (e : Err) : State :=
  if e = .partition ∧ bit fva 51 then s.violate 7 (some p) fva .partition 137 else s

/-- Segments from one on, as ranges. -/
def State.fromSeg (s : State) (k : Clause) (seg : Nat) : List Range :=
  (List.range (k.segs - seg)).flatMap (fun i => s.segTouch k (seg + i))

/-- Whether every byte of some ranges lies in an extent. -/
def Clause.covers (k : Clause) (rs : List Range) : Bool := rs.all (fun r => (k.runs r.fva r.len).isSome)

/-- Segments of a KERNEL translated without a gap from the first. -/
def State.clearSegs (s : State) (k : Clause) : Nat :=
  if descOp k.desc = 0x30 then
    ((List.range k.segs).find? (fun i => !k.covers (s.segTouch k i))).getD k.segs
  else 0

/-! ### Fault records (R72, R73) -/

def FaultRec.is (f : FaultRec) (p page : Nat) : Bool := f.partition == p && f.page == page

/-- The pending record of a page. -/
def State.pendingFault (s : State) (p page : Nat) : Option FaultRec := s.xlat.faults.find? (·.is p page)

/-- Changes every record, pending or in a batch not yet sent. -/
def State.mapRecords (s : State) (f : FaultRec → FaultRec) : State :=
  { s with xlat := { s.xlat with faults := s.xlat.faults.map f, openBatch := s.xlat.openBatch.map f,
                                 closedBatches := s.xlat.closedBatches.map (fun b => (b.1, b.2.map f)) } }

/-- The LOCALTICK at which the first waiter of a page parked: this clause, or one that also had no record for it. -/
def State.firstParked (s : State) (p page tick : Nat) : Nat :=
  s.work.clauses.foldl (fun t (c : Nat × Clause) =>
    if c.2.stage = .parked ∧ c.2.partition = p ∧ c.2.lacking.any (fun l => l.1 == page) then min t c.2.parkTick else t) tick

/-- A parked segment of a clause waits on a page: on its pending record, on a new one, or without one for want of room. -/
def State.waitOn (s : State) (id p page kinds queue : Nat) : State :=
  match s.pendingFault p page with
  | some f =>
    (s.mapRecords (fun g => if g.serial = f.serial then { g with access := Nat.lor g.access kinds } else g)).modClause id
      (fun k => { k with waitsOn := f.serial :: k.waitsOn })
  | none =>
    if 16384 ≤ s.xlat.faults.length then s.modClause id (fun k => { k with lacking := k.lacking ++ [(page, kinds)] })
    else
      let n := s.xlat.nextFault
      let f : FaultRec := { page := page, partition := p, access := kinds, serial := n, queue := queue, tense := s.tense p,
                            firstTick := s.firstParked p page (((s.clauseAt id).map Clause.parkTick).getD s.tick) % 2 ^ 32,
                            tick := s.tick }
      let s := { s with xlat := { s.xlat with faults := s.xlat.faults ++ [f], openBatch := s.xlat.openBatch ++ [f],
                                              nextFault := n + 1 } }
      s.modClause id (fun k => { k with waitsOn := n :: k.waitsOn })

/-- Records that parked clauses could not have for want of room are made (R72). -/
def State.makeWaiting (s : State) : State :=
  s.work.clauses.foldl (fun s (id, k) =>
    if k.stage = .parked ∧ k.lacking ≠ [] then
      k.lacking.foldl (fun s (page, kinds) =>
        if (s.pmFind k.partition page).isSome then s else s.waitOn id k.partition page kinds k.queue)
        (s.modClause id (fun k => { k with lacking := [] }))
    else s) s

/-- A record is resolved (R75): its resolution time is sampled, and records that waited for room are made. -/
def State.resolveFault (s : State) (p page : Nat) : State :=
  match s.pendingFault p page with
  | none => s
  | some f =>
    let s := { s with xlat := { s.xlat with faults := s.xlat.faults.filter (fun g => !g.is p page) } }
    (s.sample 6 (s.since f.tick) none (some p)).makeWaiting

/-- A record that the acceptance of a MAP_INSTALL resolved is pending again, since the install failed: joined with a record
that was made meanwhile, or, where its place has gone to another record, with its waiters back among those that have none
for want of room (R72, log entry 41). -/
def State.restoreFault (s : State) (f : FaultRec) : State :=
  match s.pendingFault f.partition f.page with
  | none =>
    if 16384 ≤ s.xlat.faults.length then
      { s with work := { s.work with clauses := s.work.clauses.map (fun (c : Nat × Clause) =>
          (c.1, if c.2.waitsOn.contains f.serial then
              { c.2 with waitsOn := c.2.waitsOn.filter (· != f.serial), lacking := c.2.lacking ++ [(f.page, f.access)] } else c.2)) } }
    else { s with xlat := { s.xlat with faults := s.xlat.faults ++ [f] } }
  | some g =>
    let s := s.mapRecords (fun h => if h.serial = g.serial then { h with access := Nat.lor h.access f.access } else h)
    { s with work := { s.work with clauses := s.work.clauses.map (fun (c : Nat × Clause) =>
        (c.1, if c.2.waitsOn.contains f.serial ∧ !c.2.waitsOn.contains g.serial then
            { c.2 with waitsOn := g.serial :: c.2.waitsOn } else c.2)) } }

/-- Parked segments that wait on a record. -/
def State.waiters (s : State) (f : FaultRec) : Nat :=
  s.work.clauses.countP (fun (c : Nat × Clause) => c.2.stage == .parked && c.2.ending.isNone && c.2.waitsOn.contains f.serial)

/-- A record as bytes (Table 3-4), with the waiters of this moment. -/
def State.faultBytes (s : State) (f : FaultRec) : List Byte :=
  packBytes [(31, f.page), (1, 0), (12, f.partition), (3, f.access), (1, 0), (14, s.waiters f), (2, 0), (15, f.queue),
    (1, 0), (8, f.tense), (8, 0), (32, f.firstTick)]

/-- The link that carries fault batches (R74). -/
def State.batchLink (s : State) : Nat := if s.get R.XLAT_FB_CTL_LINK = 1 then 1 else 0

/-- Sends a closed batch (Table 3-3). -/
def State.sendBatch (s : State) (cause : Nat) (fs : List FaultRec) : State :=
  let body := packBytes [(9, fs.length), (7, 0), (8, cause), (8, 0), (32, s.xlat.batchSeq), (15, s.chip), (1, 0), (48, 0)] ++
    fs.flatMap s.faultBytes
  let s := { s with xlat := { s.xlat with batchSeq := (s.xlat.batchSeq + 1) % 2 ^ 32 } }
  ((s.sendOwnOn s.batchLink 0x28 body).count R.XLAT_FB_COUNT_BATCHES).sample 12 fs.length none none

/-- Closes the open batch: sent when a link is up, else kept in order (R74). -/
def State.closeBatch (s : State) (cause : Nat) : State :=
  let n := s.get R.XLAT_FB_CTL_BATCH_MAX
  let fs := s.xlat.openBatch.take n
  if fs = [] then s
  else
    let s := { s with xlat := { s.xlat with openBatch := s.xlat.openBatch.drop n } }
    if s.linkState 0 = 4 ∨ s.linkState 1 = 4 then s.sendBatch cause fs
    else { s with xlat := { s.xlat with closedBatches := s.xlat.closedBatches ++ [(cause, fs)] } }

/-- Batches that waited for a link are sent in order. -/
def State.flushBatches (s : State) : State :=
  let bs := s.xlat.closedBatches
  bs.foldl (fun s (c, fs) => s.sendBatch c fs) { s with xlat := { s.xlat with closedBatches := [] } }

/-! ### Endings -/

/-- The contexts that a clause holds are free again. -/
def State.giveTiles (s : State) (k : Clause) : State := k.placed.foldl State.endCtx s

/-- A clause takes no more part in waiting: fault records, the list for tiles, and PTU lists. -/
def State.unwait (s : State) (id : Nat) : State :=
  let s := { s with work := { s.work with waitTile := s.work.waitTile.filter (· != id) } }
  let s := { s with ptus := s.ptus.map (fun (u : Nat × Ptu) => (u.1, { u.2 with waiting := u.2.waiting.filter (· != id) })) }
  s.modClause id (fun k => { k with waitsOn := [], lacking := [], untriggered := false,
                                    stage := if k.stage = Stage.parked then Stage.running else k.stage })

/-- A clause ends with a code; accesses in flight are let finish (R58, R442). A second ending changes nothing. -/
def State.endClause (s : State) (id : Nat) (e : Ending) : State :=
  match s.clauseAt id with
  | none => s
  | some k =>
    if k.ending.isSome ∨ k.stage = .done then s
    else ((s.giveTiles k).unwait id).modClause id (fun k => { k.endWith e with placed := [] })

/-- An ending that names no exception. -/
def ending (e : Err) (seg addr : Nat) : Ending := { status := e, exc := 0, segment := seg, detail := 0, addr := addr }

def noSeg : Nat := 2 ^ 32 - 1

/-- A drain timeout ends a clause: ERR_ABORTED, counted once, and a DRAIN_ABORT event for the first byte of each extent it
held; for the first byte of its lead operand when it holds none (R137, R186, R446, log entry 122). -/
def State.abortClause (s : State) (id : Nat) : State :=
  match s.clauseAt id with
  | none => s
  | some k =>
    if k.ending.isSome ∨ k.stage = .done then s
    else
      let s := s.endClause id (ending .aborted (if k.timed then k.segment - 1 else noSeg) 0)
      let at_ := if k.extents = [] then [leadFva k.desc k.extra (s.role k)] else k.extents.map Extent.fva
      (at_.foldl (fun s a => s.logFault 1 a k.partition 6) s).count R.FAULT_ECC_ABORTS

/-- The clause that a continuation belongs to. -/
def contClause : Cont → Option Nat
  | .tile _ id _ => some id
  | .stream _ id _ => some id
  | .clauseRead id _ _ _ => some id
  | .clauseWrite id _ _ => some id
  | .clauseIndex id _ => some id
  | .batchEntry id _ => some id
  | .batchAtomic id _ => some id
  | .arrive id => some id
  | .counterOp id => some id
  | .program id => some id
  | .arrays id => some id
  | .collRead id _ => some id
  | .collWrite id _ => some id
  | .remoteClause id => some id
  | .transformRead id _ => some id
  | _ => none

/-- A drain timeout ends requests that wait for their responses: each ends with ERR_ABORTED and its tag is quarantined, so that
its own transaction timeout logs nothing (R307, R442, R446). -/
def State.abortTags (s : State) (sel : Track → Bool) : State :=
  (s.fabric.track.filter (fun (t : Nat × Track) => sel t.2 && !t.2.quarantined)).foldl (fun (s : State) t =>
    ({ s with fabric := { s.fabric with track := tset t.1 { t.2 with quarantined := true } s.fabric.track } }).finish
      t.2.cont .aborted []) s

/-- Requests of a partition that wait for a tag end with it (Table 16-4). -/
def State.endWaitTags (s : State) (p : Nat) : State :=
  let ws := s.fabric.waitTag.filter (fun w => w.1.art.partition == p)
  ws.foldl (fun (s : State) w => s.finish w.2.1 .aborted [])
    { s with fabric := { s.fabric with waitTag := s.fabric.waitTag.filter (fun w => w.1.art.partition != p) } }

/-! ### Queues -/

def State.queue (s : State) (q : Nat) : Option Queue := tget q s.work.queues

def State.modQueue (s : State) (q : Nat) (f : Queue → Queue) : State :=
  { s with work := { s.work with queues := tmod q f s.work.queues } }

/-! ### Pieces of a clause's data -/

/-- One more piece of a chunk is under way. -/
def State.pieceOut (s : State) (id chunk : Nat) : State :=
  s.modClause id (fun k => { k with flying := tset chunk ((tget chunk k.flying).getD 0 + 1) k.flying })

/-- A piece of a chunk has ended. A failure ends the clause at its segment (R58). -/
def State.pieceIn (s : State) (id chunk : Nat) (e : Err) (seg addr : Nat) : State :=
  let s := s.modClause id (fun k =>
    { k with flying := match tget chunk k.flying with
               | some (n + 2) => tset chunk (n + 1) k.flying
               | _ => terase chunk k.flying,
             failed := if e = .none then k.failed else chunk :: k.failed })
  if e = .none then s else s.endClause id (ending e seg addr)

/-- The core port that a clause's accesses use: that of its first tile, or the clause queues'. -/
def Clause.port (k : Clause) : Nat :=
  match k.placed with
  | c :: _ => tilePort c
  | [] => 137

/-- Reads bytes of a clause at an FVA, for a continuation; a poisoned page among them fails here (R48, R58, R69). -/
def State.clauseFetch (s : State) (k : Clause) (fva n : Nat) (c : Cont) : State :=
  match k.runs fva n with
  | some rs =>
    if s.poisonedIn k.partition 0 fva rs then s.finish c .poison [] else s.readRuns rs k.partition c k.port false
  | none => s.finish c .unmapped []

/-- Writes bytes of a clause at an FVA. -/
def State.clauseStore (s : State) (k : Clause) (fva : Nat) (data : List Byte) (c : Cont) : State :=
  match k.runs fva data.length with
  | some rs =>
    if s.poisonedIn k.partition 1 fva rs then s.finish c .poison [] else s.writeRuns rs data k.partition c k.port false none
  | none => s.finish c .unmapped []

/-- The segment of a chunk. -/
def Clause.segOf (k : Clause) (chunk : Nat) : Nat := (chunkSegs k.desc chunk).headD 0

/-- Whether every piece of a chunk has been issued and has ended well. -/
def Clause.chunkReady (k : Clause) (chunk : Nat) : Bool :=
  !k.failed.contains chunk && !k.counted.contains chunk && (tget chunk k.flying).isNone &&
    (if descOp k.desc = 0x30 then (match k.ending with | some e => e.status == .none | none => false) && k.flying.isEmpty
     else (chunkSegs k.desc chunk).all (fun g => decide (g < k.issued)))

/-- Bytes of a lead chunk that this side of a member handles. -/
def State.leadBytes (s : State) (k : Clause) (c : Nat) : Nat :=
  (((s.role k).bytes (leadBlocks k.desc k.extra (s.role k))).map
    (fun b => min (b.1 + b.2) (4096 * c + 4096) - max b.1 (4096 * c))).sum

/-- Every chunk that exists has counted; for a member clause, every byte of its lead operand that its side handles has its
final value too. -/
def State.allCounted (s : State) (k : Clause) : Bool :=
  (chunkList k.desc k.extra (s.role k)).all k.counted.contains &&
    (!isColl (descOp k.desc) ||
      (List.range (ceilDiv k.leadLen 4096)).all (fun c => (tget c k.indices).getD 0 == s.leadBytes k c))

/-- A chunk counts: CHUNKS, and one increment of ARRIVE (R182, R183). -/
def State.countChunk (s : State) (id chunk : Nat) : State :=
  match s.clauseAt id with
  | none => s
  | some k =>
    let s := s.modClause id (fun k => { k with chunks := k.chunks + 1, counted := chunk :: k.counted })
    if descArriveEn k.desc ∧ k.arriveErr = .none then
      (s.modClause id (fun k => { k with arriving := k.arriving + 1 })).issueCounter (descArrive k.desc) 1 1 k.partition
        (.arrive id) 137
    else s

/-- An increment has been performed, refused by its chip, or lost (R183). -/
def State.arriveDone (s : State) (id : Nat) (e : Err) : State :=
  s.modClause id (fun k => { k with arriving := k.arriving - 1, arriveErr := if k.arriveErr = .none then e else k.arriveErr })

end Sys2Proof.Machine
end

