-- ==== Sys2Proof/Machine/Coll.lean ====
section
/-! DEFINITION. Collectives (chapter 9): instances and slots, the phases of a chunk, its wire form and checks, multicast,
counts, and aborts. -/

namespace Sys2Proof.Machine

/-! ### Elements -/

/-- Combines two elements in the accumulation format, rounding in the applicable mode (Tables 8-6, 8-7). -/
def combine (op acc mode r x y : Nat) : Nat :=
  let a := decodeNum acc x
  let b := decodeNum acc y
  match op with
  | 0 | 3 => if isIntFmt acc then (x + y) % 2 ^ fmtWidth acc else (encodeNum acc mode r (Num.add a b).1).1
  | 1 => (encodeNum acc 0 0 (Num.redMin a b)).1
  | 2 => (encodeNum acc 0 0 (Num.redMax a b)).1
  | 4 => Nat.land x y
  | 5 => Nat.lor x y
  | _ => Nat.xor x y

/-- Division by the member count, rounded once (Table 8-7, AVG); a NaN becomes the canonical one (R190). -/
def divideBy (acc mode r n x : Nat) : Nat :=
  match decodeNum acc x with
  | .fin neg a e => (encodeFin acc mode r neg a n e).1
  | .nan => nanCode acc
  | _ => x

/-- A random number of R194 for an element of this step. -/
def State.random (s : State) (i : Nat) : Nat := Config.freeRandom (s.fresh * 8192 + i) % 65536

/-- One rotation by H in FP32 on tiles: each output is the sum of plus and minus x / 8, in ascending order, each sum rounded in
the clause's mode (R193, R233, log entry 24). -/
def rotate64 (mode : Nat) (rnd : Nat → Nat) (xs : List Nat) : List Nat :=
  (List.range 64).map (fun i =>
    ((xs.zipIdx.foldl (fun acc (x, j) =>
      let v := (decodeNum 1 x).scale (-3)
      let v := if popcount 6 (Nat.land i j) % 2 = 1 then v.neg else v
      (encodeNum 1 mode (rnd (64 * i + j)) (Num.add (decodeNum 1 acc) v).1).1) 0)))

/-- A unit to which rotation goes: assigned, ACTIVE, and with H programmed (R234). -/
def State.rotationUnit (s : State) : Option Nat :=
  (List.range 4).find? (fun u => bit (s.get R.CONJ_CTL_ROT_PTU) u && s.ptuState u == 2 && (s.ptu u).rot)

/-- The vectors of 64 of a chunk's elements, those beyond the end zeros (R233). -/
def vectors64 (xs : List Nat) : List (List Nat) :=
  (List.range (ceilDiv xs.length 64)).map (fun v =>
    ((xs.drop (64 * v)).take 64) ++ List.replicate (64 - ((xs.drop (64 * v)).take 64).length) 0)

/-- Rotates FP32 codes by H in whole vectors: on an assigned unit in mesh mode, at the window of the group, with the unit's
coding and analog error (R272, R273, R279); else on tiles (R234). -/
def State.rotate (s : State) (window mode : Nat) (xs : List Nat) : List Nat :=
  (vectors64 xs).zipIdx.flatMap (fun (x, v) =>
    match s.rotationUnit with
    | none => rotate64 mode (fun i => s.random (4096 * v + i)) x
    | some _ => opticVector hWeights window 1 (fun i => Config.ptuError s.fresh (64 * v + i)) [x.map (decodeNum 1)])

/-- The vectors of n elements that a rotation unit has taken wait for its next pilot check (R277, R279). -/
def State.rotated (s : State) (rot : Bool) (n : Nat) : State :=
  match rot, s.rotationUnit with
  | true, some u => s.modPtu u (fun p => { p with heldVecs := p.heldVecs + ceilDiv n 64 })
  | _, _ => s

/-! ### Wire form (R232) -/

/-- Elements in the accumulation format as TFMT bytes. -/
def State.toWire (s : State) (d : List Byte) (xs : List Nat) : List Byte :=
  let acc := accFmt (cFmt d)
  let t := cTfmt d
  if blockScaled (cFmt d) t then
    let n := ceilDiv xs.length 32
    let bs := (List.range n).map (fun b =>
      blockEncode t (cRmode d) (fun i => s.random (32 * b + i))
        ((((xs.drop (32 * b)).take 32).map (decodeNum acc)) ++
          List.replicate (32 - ((xs.drop (32 * b)).take 32).length) Num.zero))
    elemBytes (fmtWidth t) ((bs.flatMap Prod.snd).take xs.length) ++ bs.map (fun b => BitVec.ofNat 8 b.1)
  else elemBytes (fmtWidth t) (xs.zipIdx.map (fun (x, i) => (convert acc t (cRmode d) (s.random i) x).1))

/-- Bytes of the wire form of n elements. -/
def wireLen (d : List Byte) (n : Nat) : Nat :=
  ceilDiv (fmtWidth (cTfmt d) * n) 8 + (if blockScaled (cFmt d) (cTfmt d) then ceilDiv n 32 else 0)

/-- TFMT bytes as n elements in the accumulation format. -/
def fromWire (d : List Byte) (n : Nat) (bs : List Byte) : List Nat :=
  let acc := accFmt (cFmt d)
  let t := cTfmt d
  let xs := elems (fmtWidth t) n bs
  if blockScaled (cFmt d) t then
    let sc := bs.drop (ceilDiv (fmtWidth t * n) 8)
    xs.zipIdx.map (fun (x, i) => (encodeNum acc 0 0 (blockDecode t ((sc.drop (i / 32)).headD 0).toNat x)).1)
  else xs.map (fun x => (convert t acc 0 0 x).1)

/-! ### Chunks of a collective -/

/-- Chunks of one side over some blocks: block, offset in the buffer, length (R212). -/
def Role.chunks (r : Role) (bs : List (Nat × Nat)) : List (Nat × Nat × Nat) :=
  bs.zipIdx.flatMap (fun (b, i) =>
    let c := r.cut b.2
    (List.range (ceilDiv c.2 4096)).map (fun k => (i, b.1 + c.1 + 4096 * k, min 4096 (c.2 - 4096 * k))))

/-- The blocks over which a collective's chunks are numbered: the whole vector, or one per rank. -/
def numberedBlocks (d extra : List Byte) (r : Role) : List (Nat × Nat) :=
  let w := fmtBytes (cFmt d)
  match descOp d with
  | 0x12 | 0x13 => (List.range r.members).map (fun q =>
      (blockStart (blockCounts d extra r.members) q * w, ((blockCounts d extra r.members).drop q).headD 0 * w))
  | 0x15 | 0x16 => srcBlocks d extra r
  | _ => [(0, cCount d * w)]

/-- Chunk q of the side: rank or 0, offset, length. For ALLTOALL the number is (source * ns + destination) * 2^24 + index
within the block, ranks counted on their chips (log entry 23). -/
def chunkAt (d extra : List Byte) (r : Role) (q : Nat) : Option (Nat × Nat × Nat) :=
  (r.chunks (numberedBlocks d extra r))[q]?

/-- The chip index that owns chunk q (R216). -/
def chunkOwner (d extra : List Byte) (r : Role) (g : GroupCreate) (q : Nat) : Nat :=
  let n := (r.chunks (numberedBlocks d extra r)).length
  if descOp d = 0x12 ∨ descOp d = 0x13 then
    ((chunkAt d extra r q).map Prod.fst).getD 0 / g.slotList.length
  else if descOp d = 0x14 then cRoot d / g.slotList.length
  else ((List.range g.chips).find? (fun c => decide (c * n / g.chips ≤ q) && decide (q < (c + 1) * n / g.chips))).getD 0

/-- Whether an opcode reduces. -/
def reduces (op : Nat) : Bool := decide (0x10 ≤ op) && decide (op ≤ 0x12)

/-- Dimensions of the all-gather phases in order, with their codes (Table 9-3). -/
def agOrder (op : Nat) : List (Nat × Nat) :=
  if op = 0x11 then [(2, 4), (1, 5), (0, 6)]
  else if op = 0x13 ∨ op = 0x14 then [(0, 6), (1, 5), (2, 4)]
  else []

/-! ### Instances -/

def chunkKey (phase q : Nat) : Nat := phase * 2 ^ 32 + q

/-- The key under which a chunk is held: blocks for different chips may bear one number, so DIRECT names the chip too. -/
def heldKey (phase q dst : Nat) : Nat := (if phase = 7 then dst * 2 ^ 35 else 0) + chunkKey phase q

def State.setGroup (s : State) (n : Nat) (g : Group) : State :=
  { s with coll := { s.coll with groups := tset n g s.coll.groups } }

def State.instance_ (s : State) (n num : Nat) : Option Instance :=
  (s.group n).bind (fun g => g.inst.find? (fun i => i.number == num))

def State.modInstance (s : State) (n num : Nat) (f : Instance → Instance) : State :=
  match s.group n with
  | some g => s.setGroup n { g with inst := g.inst.map (fun i => if i.number = num then f i else i) }
  | none => s

def Instance.empty (num : Nat) : Instance :=
  { number := num, digest := 0, members := [], accepted := [], reserved := false, own := 0, spill := [], readySent := false,
    ready := [], desc := [], extra := [], queue := 0, digests := [], counted := [], chunks := [], inFlight := [], fails := [],
    later := [], started := false }

/-- The instance, made when it is first heard of; instances stand in ascending order. -/
def State.openInstance (s : State) (n num : Nat) : State :=
  match s.group n with
  | none => s
  | some g =>
    if g.inst.any (fun i => i.number == num) then s
    else
      let below := g.inst.filter (fun i => decide (i.number < num))
      let above := g.inst.filter (fun i => decide (num < i.number))
      s.setGroup n { g with inst := below ++ [Instance.empty num] ++ above }

/-- The instance that may run now: the lowest (R213). -/
def Group.current (g : Group) : Option Instance := g.inst.head?

/-- Gives back an instance's slots and spill frames (R225, R238). -/
def State.freeSlots (s : State) (g : Group) (i : Instance) : State :=
  if i.reserved then
    let p := g.body.partition
    let own := i.own
    let s := s.less (R.CONJ_PART_USED p) own
    let s := s.wrap R.CONJ_STAT_FREE own
    let s := s.less (R.CONJ_PART_SPILL_USED p) i.spill.length
    let s := s.less R.CONJ_STAT_SPILL_FRAMES i.spill.length
    i.spill.foldl State.freeFrame s
  else { s with coll := { s.coll with waiting := s.coll.waiting.filter (fun w =>
      !(w.2.1 == g.body.group && w.2.2 == i.number)) } }

/-! ### Slots of chunks (R223 to R225, R230) -/

/-- Slots that a chunk takes while it is reduced (Table 9-4). -/
def accSlots (f : Nat) : Nat := fmtBytes (accFmt f) / fmtBytes f

/-- Numbers of the slots in use. -/
def Instance.slotsUsed (i : Instance) : List Nat := i.chunks.flatMap (fun c => c.2.slots)

/-- The lowest n free slots of a reservation of some size. -/
def Instance.takeSlots (i : Instance) (size n : Nat) : Option (List Nat) :=
  let free := ((List.range size).filter (fun j => !i.slotsUsed.contains j)).take n
  if free.length = n then some free else none

/-- The data of a chunk in spilled slots lies in the instance's frames: each combine costs a near-tier read and a near-tier
write of 4 KiB (R225). -/
def State.spillData (s : State) (i : Instance) (p : Nat) (c : CollChunk) (combined : Bool) : State :=
  c.slots.zipIdx.foldl (fun s (j, n) =>
    if j < i.own then s
    else match (i.spill.drop ((j - i.own) / 512)).head? with
      | some k =>
        let a := memKey (k / 2 ^ 22) (k % 2 ^ 22 * 2 ^ 21) + 4096 * ((j - i.own) % 512)
        ({ s with mem := memWrite s.mem a ((c.data.drop (4096 * n)).take 4096) }).charge p 4 (if combined then 8192 else 4096)
      | none => s) s

/-- A chunk is held with new contents; `combined`: a contribution was added to what it held. -/
def State.putChunk (s : State) (g : Group) (num key : Nat) (c : CollChunk) (combined : Bool) : State :=
  match s.instance_ g.body.group num with
  | none => s
  | some i =>
    (s.modInstance g.body.group num (fun i => { i with chunks := tset key c i.chunks })).spillData i g.body.partition c combined

def CollChunk.empty (slots : List Nat) : CollChunk :=
  { data := [], contributions := 0, unpassed := [], waitReady := [], slots := slots }

/-- Whether two keys name one chunk in all-gather phases. -/
def sameCopy (a b : Nat) : Bool := a % 2 ^ 32 == b % 2 ^ 32 && decide (4 ≤ a / 2 ^ 32) && decide (a / 2 ^ 32 ≤ 6) && decide (4 ≤ b / 2 ^ 32) && decide (b / 2 ^ 32 ≤ 6)

/-- A chunk is held no more: its slots are free, or go to the same chunk where another all-gather phase still holds it. -/
def dropChunk (key : Nat) (cs : Tbl CollChunk) : Tbl CollChunk :=
  match tget key cs with
  | none => cs
  | some c =>
    let rest := terase key cs
    match rest.find? (fun e => sameCopy e.1 key && e.2.slots.isEmpty) with
    | some (k, e) => tset k { e with slots := c.slots } rest
    | none => rest

def State.dropChunk (s : State) (g : Group) (num key : Nat) : State :=
  s.modInstance g.body.group num (fun i => { i with chunks := Machine.dropChunk key i.chunks })

/-- Slots for a chunk that is held anew; an all-gather phase shares those of the same chunk in another. -/
def Instance.slotsFor (i : Instance) (size key n : Nat) : List Nat :=
  if i.chunks.any (fun e => sameCopy e.1 key) then [] else (i.takeSlots size n).getD []

/-- Takes the slots of a chunk for LOCAL before its first read; LOCAL leaves half of the reservation to the later phases (R224,
log entry 124). -/
def State.openLocal (s : State) (g : Group) (num key n : Nat) : Option State :=
  match s.instance_ g.body.group num with
  | none => none
  | some i =>
    if (tget key i.chunks).isSome then some s
    else if g.body.slots / 2 < ((i.chunks.filter (fun c => c.1 / 2 ^ 32 % 8 == 0)).flatMap (fun c => c.2.slots)).length + n then none
    else (i.takeSlots g.body.slots n).map (fun js => s.putChunk g num key (CollChunk.empty js) false)

/-- The instance has completed on this chip: every member clause has left flight and every chunk sent has passed. -/
def State.instanceDone (s : State) (i : Instance) : Bool :=
  i.readySent && i.members.all (fun id => match s.clauseAt id with
      | some k => k.stage == .done
      | none => true) &&
    i.chunks.all (fun c => c.2.unpassed.isEmpty && c.2.waitReady.isEmpty)

/-- Removes instances that have completed. -/
def State.closeInstances (s : State) (n : Nat) : State :=
  match s.group n with
  | none => s
  | some g =>
    match g.current with
    | some i =>
      if g.state = 1 ∧ s.instanceDone i then
        ((s.freeSlots g i).less R.CONJ_STAT_INSTANCES (if i.started then 1 else 0)).setGroup n
          { g with inst := g.inst.filter (fun j => j.number != i.number) }
      else s
    | none => s

/-! ### Frames of a collective (R229, R288, Table 9-6) -/

/-- The Article of a collective frame; for a multicast one DEST names this chip. -/
def State.collArticle (s : State) (g : Group) (op dst num phase q len : Nat) (mcast : Bool) : Article :=
  let vc := if op = 0x15 then 3 else if op = 0x13 ∨ op = 0x14 then 1 else 2
  s.article (mkFpa dst 48 (q % 2 ^ 32 + phase * 2 ^ 32 + g.generation * 2 ^ 35)) op (if mcast then 2 ^ flMcast else 0)
    g.body.partition vc (s.tense g.body.partition) 48 0 (g.body.group + num % 2 ^ 16 * 2 ^ 14) len

/-- Sends a frame to one chip. -/
def State.collSend (s : State) (g : Group) (op dst num phase q : Nat) (payload : List Byte) : State :=
  s.inject 136 (s.collArticle g op dst num phase q payload.length false) payload

/-- Planes of a dimension that a multicast on a channel may use: locked, and for bulk traffic in the BULK mask (R262). -/
def State.mcastPlanes (s : State) (dim vc : Nat) : List Nat :=
  (s.lockedPlanes dim).filter (fun f => vc != 2 || bit (s.get R.PARSER_PLANES_BULK) f)

/-- Sends frames to peers of one dimension: each is one multicast frame on a plane for each 16 lines (R231). -/
def State.collMcast (s : State) (g : Group) (num phase q dim : Nat) (peers : List Nat) (frames : List (Nat × List Byte)) : State :=
  (List.range (ceilDiv peers.length 16)).foldl (fun s i =>
    let ps := (peers.drop (16 * i)).take 16
    frames.foldl (fun s (op, payload) =>
      let a := s.collArticle g op s.chip num phase q payload.length true
      let planes := s.mcastPlanes dim a.vc
      match (planes.drop (i % max 1 planes.length)).head? with
      | none => s
      | some f => s.offerFrame { port := 136, frame := sealFrame a payload 0, xPlane := 0, fixed := some (32 + f, 0),
                                 mlines := ps.map (s.lineToward f) }) s) s

/-- The data frames of a chunk, then its CHECK (R228). -/
def chunkFrames (data : List Byte) : List (List Byte) :=
  (List.range (ceilDiv data.length 4096)).map (fun i => (data.drop (4096 * i)).take 4096)

def checkBytes (data : List Byte) : List Byte := packBytes [(32, crc32c data), (96, 0)]

/-- A chunk's data frames and its CHECK. -/
def wireFrames (data : List Byte) : List (Nat × List Byte) := (chunkFrames data).map (fun p => (0x10, p)) ++ [(0x11, checkBytes data)]

/-- Sends a chunk to one chip: every frame of it, and its CHECK last, on the plane and line chosen for the first (R228). -/
def State.sendChunk (s : State) (g : Group) (dst num phase q : Nat) (data : List Byte) : State :=
  if s.unreachable dst then s
  else
    let out := s.lookup (s.collArticle g 0x10 dst num phase q (min 4096 data.length) false) 0
    ((wireFrames data).foldl (fun s (op, payload) =>
      let a := s.collArticle g op dst num phase q payload.length false
      match out with
      | some (p, l, nm) =>
        s.offerFrame { port := 136, frame := sealFrame { a with flags := if nm then setBit a.flags flNonmin else a.flags } payload 0,
                       xPlane := 0, fixed := some (p, l), mlines := [] }
      | none => s.offerFrame { port := 136, frame := sealFrame a payload 0, xPlane := 0, fixed := none, mlines := [] }) s).freshen

/-- The dimension of an all-gather phase. -/
def agDim (phase : Nat) : Option Nat := if 4 ≤ phase ∧ phase ≤ 6 then some (6 - phase) else none

/-- Sends a held chunk to chips whose READY has come: in an all-gather phase by multicast (R231). -/
def State.sendHeld (s : State) (g : Group) (num phase q : Nat) (dsts : List Nat) (data : List Byte) : State :=
  match agDim phase with
  | some d => s.collMcast g num phase q d dsts (wireFrames data)
  | none => dsts.foldl (fun s x => s.sendChunk g x num phase q data) s

/-- Sends a chunk to some chips and retains it until each has passed its check (R230). It waits until every one of them has
sent READY (R214), so that a multicast goes once per plane used (R231). -/
def State.sendTo (s : State) (g : Group) (num phase q : Nat) (dsts : List Nat) (data : List Byte) : State :=
  match s.instance_ g.body.group num with
  | none => s
  | some i =>
    let key := heldKey phase q (dsts.headD 0)
    let all := dsts.all i.ready.contains
    let old := (tget key i.chunks).getD (CollChunk.empty (i.slotsFor g.body.slots key (ceilDiv data.length 4096)))
    let c : CollChunk := { old with data := data, unpassed := old.unpassed ++ (if all then dsts.map (·, 0) else []),
                                    waitReady := old.waitReady ++ (if all then [] else dsts) }
    let s := s.putChunk g num key c false
    if all then s.sendHeld g num phase q dsts data else s

/-! ### Writing results (R220) -/

/-- Bytes of the lead operand that now hold their final value, by chunk. -/
def State.leadDone (s : State) (id off len : Nat) : State :=
  let a := off / 4096
  let n := if len = 0 then 0 else (off + len - 1) / 4096 + 1 - a
  (List.range n).foldl (fun s i =>
    let c := a + i
    let m := min (off + len) (4096 * c + 4096) - max off (4096 * c)
    s.modClause id (fun k => { k with indices := tset c ((tget c k.indices).getD 0 + m) k.indices })) s

/-- Whether a chunk of a member clause may count. -/
def State.collReady (s : State) (k : Clause) (c : Nat) : Bool :=
  !k.counted.contains c && decide (0 < s.leadBytes k c) && decide ((tget c k.indices).getD 0 = s.leadBytes k c)

/-- Where chunk q of a collective lies in a member's DST; none where the member does not receive it. -/
def State.dstPlace (s : State) (k : Clause) (q : Nat) : Option (Nat × Nat) :=
  let r := s.role k
  match chunkAt k.desc k.extra r q with
  | none => none
  | some (blk, off, len) =>
    match descOp k.desc with
    | 0x10 => if r.rank = cRoot k.desc then some (off, len) else none
    | 0x12 =>
      if blk = r.rank then some (off - ((numberedBlocks k.desc k.extra r).drop blk |>.headD (0, 0)).1, len) else none
    | 0x11 | 0x13 | 0x14 => some (off, len)
    | _ => none

/-- Writes result bytes at an offset of a member's DST, or keeps them until its segment has started (R58). -/
def State.memberStore (s : State) (g : Group) (num id off tag : Nat) (bytes : List Byte) : State :=
  match s.clauseAt id with
  | none => s
  | some k =>
    if k.ending.isSome then s
    else if (off + bytes.length - 1) / 2 ^ 21 < k.segment then
      (s.pieceOut id (off / 4096)).clauseStore k (cDst k.desc + off) bytes (.collWrite id tag)
    else s.modInstance g.body.group num (fun i => { i with later := i.later ++ [(id, off, tag, bytes)] })

/-- Result bytes that waited for a segment of a member are written once it has started. -/
def State.flushLater (s : State) (id : Nat) : State :=
  match s.clauseAt id with
  | none => s
  | some k => match s.group (cGroup k.desc), s.instance_ (cGroup k.desc) k.inst with
    | some g, some i =>
      let mine := i.later.filter (fun l => l.1 == id)
      mine.foldl (fun s (_, off, tag, bytes) => s.memberStore g k.inst id off tag bytes)
        (s.modInstance g.body.group k.inst (fun i => { i with later := i.later.filter (fun l => l.1 != id) }))
    | _, _ => s

/-- A copy whose bytes travel in FMT: returned bit for bit (R196). -/
def plainCopy (d : List Byte) : Bool := !(decide (0x10 ≤ descOp d) && decide (descOp d ≤ 0x12)) && cTfmt d == cFmt d

/-- Elements of a vector in the rotated domain: whole vectors of 64 (R233). -/
def rotLen (d : List Byte) (n : Nat) : Nat := if cRotate d then 64 * ceilDiv n 64 else n

/-- Result bytes in FMT of n elements that are in the accumulation format, rotated back where the clause rotates (R233). -/
def State.finalBytes (s : State) (g : Group) (d : List Byte) (n : Nat) (xs : List Nat) : List Byte :=
  let xs := if cRotate d then (s.rotate g.body.rotWindow (cRmode d) xs).take n else xs
  elemBytes (fmtWidth (cFmt d)) (xs.zipIdx.map (fun (x, j) => (convert (accFmt (cFmt d)) (cFmt d) (cRmode d) (s.random j) x).1))

/-- Writes the result bytes of chunk q to every local member. -/
def State.writeResult (s : State) (g : Group) (i : Instance) (q : Nat) (bytes : List Byte) : State :=
  i.members.foldl (fun s id =>
    match s.clauseAt id with
    | none => s
    | some k =>
      match s.dstPlace k q with
      | none => s
      | some (off, len) => s.memberStore g i.number id off q (bytes.take len)) s

/-! ### The phases of a chunk (R216 to R218) -/

/-- Elements of chunk q in FMT. -/
def State.chunkElems (s : State) (i : Instance) (q : Nat) : Nat :=
  ((chunkAt i.desc i.extra (s.roleFor i.desc i.queue) q).map (fun c => c.2.2)).getD 0 / fmtBytes (cFmt i.desc)

/-- Writes the elements of chunk q, in the accumulation format. -/
def State.writeElems (s : State) (g : Group) (i : Instance) (q : Nat) (xs : List Nat) : State :=
  let n := s.chunkElems i q
  ((s.writeResult g i q (s.finalBytes g i.desc n xs)).freshen).rotated (cRotate i.desc) n

/-- Writes chunk q from its wire form. -/
def State.writeWire (s : State) (g : Group) (i : Instance) (q : Nat) (wire : List Byte) : State :=
  if plainCopy i.desc then s.writeResult g i q wire
  else s.writeElems g i q (fromWire i.desc (rotLen i.desc (s.chunkElems i q)) wire)

/-- A chip holds a chunk of the result: it sends it on in the dimensions still to come, and writes it. -/
def State.gather (s : State) (g : Group) (num q : Nat) (rest : List (Nat × Nat)) (wire : List Byte) : State :=
  let s := rest.foldl (fun s (d, ph) =>
    let ps := s.dimPeers g.body d
    if ps = [] then s else s.sendTo g num ph q ps wire) s
  match s.instance_ g.body.group num with
  | some i => s.writeWire g i q wire
  | none => s

/-- The owner holds the whole sum of chunk q: AVG, then what Table 9-3 gives next. -/
def State.ownerHas (s : State) (g : Group) (num q : Nat) (xs : List Nat) : State :=
  match s.instance_ g.body.group num with
  | none => s
  | some i =>
    let d := i.desc
    let acc := accFmt (cFmt d)
    let xs := if cRedOp d = 3 then xs.zipIdx.map (fun (x, j) => divideBy acc (cRmode d) (s.random j) g.body.members x) else xs
    let s := s.freshen
    let op := descOp d
    if op = 0x12 then s.writeElems g i q xs
    else if op = 0x10 then
      let root := s.chipAt g.body (cRoot d / g.body.slotList.length)
      if root = s.chip then s.writeElems g i q xs
      else s.freshen.sendTo g num 7 q [root] (s.toWire d xs)
    else s.freshen.gather g num q (agOrder op) (s.toWire d xs)

/-- The running partial of a chunk under a key takes in a contribution: the first initialises it (R218). The result, and how
many contributions it has. -/
def State.combineIn (s : State) (g : Group) (num key slots : Nat) (xs : List Nat) : State × List Nat × Nat :=
  match s.instance_ g.body.group num with
  | none => (s, xs, 0)
  | some i =>
    let acc := accFmt (cFmt i.desc)
    let w := fmtWidth acc
    let c := (tget key i.chunks).getD (CollChunk.empty (i.slotsFor g.body.slots key slots))
    let first := c.contributions == 0
    let new := if first then xs
      else ((elems w xs.length c.data).zip xs).zipIdx.map (fun ((a, b), j) =>
        combine (cRedOp i.desc) acc (cRmode i.desc) (s.random j) a b)
    let c := { c with data := elemBytes w new, contributions := c.contributions + 1 }
    ((s.putChunk g num key c (!first)).freshen, new, c.contributions)

/-- A chip's partial of chunk q has taken in every contribution of the phases below `dim`: it goes to the chip that keeps
it in the next dimension, or waits there for the others. -/
def State.reduceOn (s : State) (g : Group) (num q : Nat) : Nat → Nat → List Nat → State
  | 0, _, xs => s.ownerHas g num q xs
  | fuel + 1, dim, xs =>
    match s.instance_ g.body.group num with
    | none => s
    | some i =>
      if 3 ≤ dim then s.ownerHas g num q xs
      else if g.body.size dim = 1 then s.reduceOn g num q fuel (dim + 1) xs
      else
        let r := s.roleFor i.desc i.queue
        let me := s.chipIndex g.body s.chip
        let pos := g.body.posOf (chunkOwner i.desc i.extra r g.body q) dim
        if pos = g.body.posOf me dim then
          let key := chunkKey (dim + 1) q
          match s.combineIn g num key (accSlots (cFmt i.desc)) xs with
          | (s, new, n) =>
            if n = g.body.size dim then (s.dropChunk g num key).reduceOn g num q fuel (dim + 1) new else s
        else s.freshen.sendTo g num (dim + 1) q [s.chipAt g.body (g.body.withPos me dim pos)] (s.toWire i.desc xs)

/-- LOCAL of a reduction: a local member's chunk, combined into the chunk's slots (R218). -/
def State.localIn (s : State) (g : Group) (num q : Nat) (xs : List Nat) : State :=
  match s.instance_ g.body.group num with
  | none => s
  | some i =>
    let key := chunkKey 0 q
    match s.combineIn g num key (accSlots (cFmt i.desc)) xs with
    | (s, new, n) =>
      if n = g.body.slotList.length then (s.dropChunk g num key).reduceOn g num q 4 0 new else s

/-! ### Aborts (R236 to R238) -/

/-- ABORT_NOTICE of kind 0 (Table 15-10). -/
def State.abortNotice (s : State) (g : Group) (num cause : Nat) : State :=
  s.sendOwn 0x50 (packBytes [(8, 0), (8, cause), (15, s.chip), (1, 0), (12, g.body.partition), (4, 0), (14, g.body.group),
    (2, 0), (32, num), (15, 0), (1, 0), (11, 0), (4, 0), (1, 0)])

/-- Every other member chip that differs from this one in one dimension alone: on the other side of a paired tray too (R209,
R237). -/
def State.abortPeers (s : State) (g : GroupCreate) (d : Nat) : List Nat :=
  ((List.range (if d = 2 then 8 else 64)).map (s.withCoord s.chip d)).filter (fun c =>
    c != s.chip && s.coord c d != s.coord s.chip d && s.isMember g c)

/-- Marks a group ABORTED for the first time: its peers are told, its member clauses end, its slots are released. -/
def State.abortGroup (s : State) (n num cause origin : Nat) : State :=
  match s.group n with
  | none => s
  | some g =>
    if g.state ≠ 1 then s
    else
      let s := s.count R.CONJ_COUNT_ABORTS
      let body := packBytes [(8, cause), (8, 0), (15, origin), (97, 0)]
      let s := (List.range 3).foldl (fun s d =>
        let ps := (s.abortPeers g.body d).dedup
        if ps = [] then s else s.collMcast g num 0 0 d ps [(0x15, body)]) s
      let s := g.inst.foldl (fun s i => s.freeSlots g i) s
      let s := g.inst.foldl (fun s i => s.less R.CONJ_STAT_INSTANCES (if i.started then 1 else 0)) s
      let ids := g.inst.flatMap Instance.members
      let s := s.setGroup n { g with state := 2, cause := cause, inst := [] }
      let s := ids.foldl (fun s id => s.endClause id (ending .aborted noSeg 0)) s
      if origin = s.chip then s.abortNotice g num cause else s

/-- A member clause has failed: its instance aborts with the clause's code (R211, R236). -/
def State.memberFailed (s : State) (k : Clause) : State :=
  if isColl (descOp k.desc) then
    match k.ending with
    | some e => if e.status = .none then s else s.abortGroup (cGroup k.desc) k.inst e.status.code s.chip
    | none => s
  else s

/-! ### Acceptance and slots (R211, R224, R225) -/

/-- The next instance number of a slot is taken. -/
def State.takeInstance (s : State) (n slot : Nat) : State × Nat :=
  match s.group n with
  | none => (s, 0)
  | some g =>
    let k := (tget slot g.nextInst).getD 0
    (s.setGroup n { g with nextInst := tset slot (k + 1) g.nextInst }, k)

/-- An accepted member clause joins its instance; the first asks for slots. -/
def State.joinInstance (s : State) (n num slot id : Nat) (d extra : List Byte) (queue : Nat) : State :=
  let s := s.openInstance n num
  match s.instance_ n num, s.group n with
  | some i, some g =>
    let first := i.members.isEmpty
    let s := s.modInstance n num (fun i => { i with
      members := i.members ++ [id], accepted := i.accepted ++ [slot],
      desc := if first then d else i.desc, extra := if first then extra else i.extra,
      queue := if first then queue else i.queue })
    if first then
      { s with coll := { s.coll with waiting := s.coll.waiting ++ [(g.body.partition, n, num)] } }
    else s
  | _, _ => s

/-- Grants the oldest waiting reservation of a partition when its quota and the free slots allow it; with SPILL_OK on every
local member clause the near tier gives what remains, in whole frames (R225). -/
def State.grantSlots (s : State) (p : Nat) : State :=
  match s.coll.waiting.find? (fun w => w.1 == p) with
  | none => s
  | some (_, n, num) =>
    match s.group n, s.instance_ n num with
    | some g, some i =>
      let want := g.body.slots
      let room := min (s.get (R.CONJ_PART_QUOTA p) - s.get (R.CONJ_PART_USED p)) (s.get R.CONJ_STAT_FREE)
      let spillOk := decide (i.accepted.length = g.body.slotList.length) &&
        i.members.all (fun id => match s.clauseAt id with
          | some k => descSpillOk k.desc
          | none => false)
      let need := if want ≤ room then 0 else ceilDiv (want - room) 512
      let may := need == 0 || (spillOk &&
        decide (s.get (R.CONJ_PART_SPILL_USED p) + need ≤ s.get (R.CONJ_PART_SPILL_QUOTA p)) && decide (need ≤ s.nearFree))
      if may then
        let frames := (List.range need).foldl (fun (a : State × List Nat) j =>
          match ((List.range 16).map (fun u => 16 + (j + u) % 16)).find? (fun u => decide (0 < a.1.freeCount u)) with
          | some u => match a.1.pickFree u with
            | some f => (a.1.takeFrame (u * 2 ^ 22 + f) { owner := p, page := 0, use := .spill }, a.2 ++ [u * 2 ^ 22 + f])
            | none => a
          | none => a) (s, [])
        let s := frames.1.freshen
          let own := min want room
        let s := (s.wrap (R.CONJ_PART_USED p) own).less R.CONJ_STAT_FREE own
        let s := (s.wrap (R.CONJ_PART_SPILL_USED p) need).wrap R.CONJ_STAT_SPILL_FRAMES need
        let s := s.modInstance n num (fun i => { i with reserved := true, own := own, spill := frames.2 })
        { s with coll := { s.coll with waiting := s.coll.waiting.filter (fun w => !(w.2.1 == n && w.2.2 == num)) } }
      else s
    | _, _ => { s with coll := { s.coll with waiting := s.coll.waiting.filter (fun w => !(w.2.1 == n && w.2.2 == num)) } }

/-! ### READY (R214, R215) -/

/-- The instance digest: CRC-32C over the fields that must agree and over the CRC-32C of an equal array. -/
def digestOf (d extra : List Byte) : Nat :=
  let arr := if cCounts d ≠ 0 ∧ (descOp d = 0x12 ∨ descOp d = 0x13) then leBytes 4 (crc32c extra) else []
  crc32c (leBytes 1 (descOp d) ++ leBytes 8 (cCount d) ++ leBytes 4 (cRoot d) ++ leBytes 1 (cRedOp d) ++
    leBytes 1 (cFmt d) ++ leBytes 1 (cTfmt d) ++ leBytes 1 (b2n (cRotate d)) ++ leBytes 1 (cRmode d) ++ arr)

/-- Whether a chip sends a chunk with an owner to another in some phase of an opcode (R217, Table 9-3), by chip indices. In a
reduce-scatter phase it matches the owner in the phases before; in an all-gather phase, in that one and those that follow. -/
def flows (g : GroupCreate) (op root owner a b : Nat) : Bool :=
  let only := fun d => (List.range 3).all (fun e => e == d || g.posOf a e == g.posOf b e) && g.posOf a d != g.posOf b d
  let ag := (agOrder op).map Prod.fst
  (reduces op && (List.range 3).any (fun d => only d && g.posOf b d == g.posOf owner d &&
      (List.range d).all (fun e => g.posOf a e == g.posOf owner e))) ||
    ag.any (fun d => only d && (ag.dropWhile (· != d)).all (fun e => g.posOf a e == g.posOf owner e)) ||
    (op == 0x10 && a == owner && b == root && a != b) ||
    ((op == 0x15 || op == 0x16) && a != b)

/-- Chip indices that own some chunk of this side. -/
def ownersOf (d extra : List Byte) (r : Role) (g : GroupCreate) : List Nat :=
  (List.range g.chips).filter (fun c => (List.range (r.chunks (numberedBlocks d extra r)).length).any (fun q =>
    chunkOwner d extra r g q == c))

/-- Chips from which this chip will receive in an instance (R214). -/
def State.senders (s : State) (g : Group) (i : Instance) : List Nat :=
  let r := s.roleFor i.desc i.queue
  let me := s.chipIndex g.body s.chip
  let root := cRoot i.desc / g.body.slotList.length
  (s.groupPeers g.body).filter (fun c => (ownersOf i.desc i.extra r g.body).any (fun o =>
    flows g.body (descOp i.desc) root o (s.chipIndex g.body c) me))

/-- COUNTS for a peer: for each local source rank its count to each rank there (Table 9-6). -/
def State.countsFor (s : State) (g : Group) (i : Instance) (peer : Nat) : List Nat :=
  let ns := g.body.slotList.length
  let base := s.chipIndex g.body peer * ns
  (g.body.slotList).flatMap (fun a =>
    let k := i.members.findSome? (fun id => match s.clauseAt id with
      | some k => if k.queue = g.body.queueBase + a then some k else none
      | none => none)
    (List.range ns).map (fun j => match k with
      | some k => fieldAt k.extra (8 * (base + j)) 8
      | none => 0))

/-- Bytes of a string from an offset replaced. -/
def putBytes (bs : List Byte) (off : Nat) (new : List Byte) : List Byte :=
  bs.take off ++ new ++ bs.drop (off + new.length)

/-- Counts that a chip's ranks send to the local members: written as the last N entries of each member's COUNTS array
(R222). -/
def State.takeCounts (s : State) (g : Group) (num src : Nat) (counts : List Nat) : State :=
  let ns := g.body.slotList.length
  let base := s.chipIndex g.body src * ns
  match s.instance_ g.body.group num with
  | none => s
  | some i =>
    let s := s.modInstance g.body.group num (fun i => { i with counted := i.counted ++ [src] })
    i.members.foldl (fun s id =>
      match s.clauseAt id with
      | none => s
      | some k =>
        let j := (s.role k).rank % ns
        (List.range ns).foldl (fun s si =>
          let v := (counts.drop (si * ns + j)).headD 0
          let off := 8 * (g.body.members + base + si)
          let s := s.modClause id (fun k => { k with extra := putBytes k.extra off (leBytes 8 v) })
          s.clauseStore k (cCounts k.desc + off) (leBytes 8 v) .drop) s) s

/-- Whether a local member's total, of the counts that have come, exceeds its capacity. -/
def State.overCount (s : State) (g : Group) (i : Instance) : Bool :=
  let ns := g.body.slotList.length
  i.members.any (fun id => match s.clauseAt id with
    | some k => decide (cCount k.desc < ((List.range g.body.members).map (fun r =>
        if i.counted.contains (s.chipAt g.body (r / ns)) then fieldAt k.extra (8 * (g.body.members + r)) 8 else 0)).sum)
    | none => false)

/-- Once the counts of every member chip have come, the local members know the places of their blocks (R222). -/
def State.settleCounts (s : State) (g : Group) (num : Nat) : State :=
  match s.instance_ g.body.group num with
  | none => s
  | some i =>
    if ((List.range g.body.chips).map (s.chipAt g.body)).all i.counted.contains then
      i.members.foldl (fun s id => s.modClause id (fun k =>
        if countsKnown k.extra g.body.members then k else { k with extra := k.extra ++ [1#8] })) s
    else s

/-- Counts have come: the instance aborts with ERR_BOUNDS when a member's total exceeds its capacity (R222). -/
def State.checkCounts (s : State) (g : Group) (num : Nat) : State :=
  match s.instance_ g.body.group num with
  | none => s
  | some i => if s.overCount g i then s.abortGroup g.body.group num (Err.bounds).code s.chip else s.settleCounts g num

/-- Sends READY for the current instance once R214 allows it and no mode change is under way (R416). -/
def State.readyOut (s : State) (n : Nat) : State :=
  match s.group n with
  | none => s
  | some g =>
    match g.current with
    | none => s
    | some i =>
      if g.state ≠ 1 ∨ s.boot.modeChange.isSome ∨ i.readySent ∨ !i.reserved ∨ i.accepted.length ≠ g.body.slotList.length ∨
          i.members.any (fun id => match s.clauseAt id with
            | some k => lacksArrays k.desc k.extra g.body.members
            | none => false) then s
      else
        let ds := i.members.filterMap (fun id => (s.clauseAt id).map (fun k => digestOf k.desc k.extra))
        let dg := ds.headD 0
        if ds.any (· != dg) ∨ i.digests.any (· != dg) then s.abortGroup n i.number (Err.format).code s.chip
        else
          let s := s.modInstance n i.number (fun i => { i with digest := dg, readySent := true, started := true })
          let s := s.wrap R.CONJ_STAT_INSTANCES
          let s := (s.senders g i).foldl (fun s c =>
            s.collSend g 0x13 c i.number 0 0 (packBytes [(32, dg), (96, 0)])) s
          if descOp i.desc = 0x16 then
            -- This chip's own ranks, and the peers whose READY is already here.
            let s := i.ready.foldl (fun s c => s.collSend g 0x12 c i.number 0 0 ((s.countsFor g i c).flatMap (leBytes 8))) s
            (s.takeCounts g i.number s.chip (s.countsFor g i s.chip)).checkCounts g i.number
          else s

/-- READY from a peer: the digests must agree, and what waited for it goes out. -/
def State.readyIn (s : State) (n num src digest : Nat) : State :=
  match s.group n with
  | none => s
  | some g =>
    let s := s.openInstance n num
    match s.instance_ n num with
    | none => s
    | some i =>
      if i.readySent ∧ i.digest ≠ digest then s.abortGroup n num (Err.format).code s.chip
      else
        let s := s.modInstance n num (fun i => { i with ready := i.ready ++ [src], digests := i.digests ++ [digest] })
        let s := if i.readySent ∧ descOp i.desc = 0x16 then
            s.collSend g 0x12 src num 0 0 ((s.countsFor g i src).flatMap (leBytes 8))
          else s
        -- What waited for the last READY goes out.
        i.chunks.foldl (fun s (key, c) =>
          if c.waitReady ≠ [] ∧ c.waitReady.all (fun x => x == src || i.ready.contains x) then
            let s := s.modInstance n num (fun i => { i with chunks := tmod key (fun c =>
              { c with waitReady := [], unpassed := c.unpassed ++ c.waitReady.map (·, 0) }) i.chunks })
            s.sendHeld g num (key / 2 ^ 32 % 8) (key % 2 ^ 32) c.waitReady c.data
          else s) s

/-! ### Blocks of ALLTOALL and ALLTOALLV -/

/-- The number of a chunk from local source si to rank j of its chip (log entry 23). -/
def blockNumber (ns si j idx : Nat) : Nat := (si * ns + j) * 2 ^ 24 + idx

/-- Where a block from a rank begins in a member's DST, and its length, in bytes; none while counts are missing. -/
def blockPlace (g : Group) (k : Clause) (rank : Nat) : Option (Nat × Nat) :=
  let w := fmtBytes (cFmt k.desc)
  if descOp k.desc = 0x15 then some (rank * cCount k.desc * w, cCount k.desc * w)
  else if countsKnown k.extra g.body.members then
    let at_ := fun r => fieldAt k.extra (8 * (g.body.members + r)) 8
    some (((List.range rank).map at_).sum * w, at_ rank * w)
  else none

/-- A chunk of a block has arrived: it is written to the member it is for, once its place is known. -/
def State.placeBlock (s : State) (g : Group) (num src q : Nat) (data : List Byte) : State :=
  match s.instance_ g.body.group num with
  | none => s
  | some i =>
    let ns := g.body.slotList.length
    let pair := q / 2 ^ 24
    let idx := q % 2 ^ 24
    let rank := s.chipIndex g.body src * ns + pair / ns
    let me := s.chipIndex g.body s.chip * ns + pair % ns
    match i.members.find? (fun id => match s.clauseAt id with
        | some k => (s.role k).rank == me
        | none => false) with
    | none => s
    | some id =>
      match s.clauseAt id with
      | none => s
      | some k =>
        match blockPlace g k rank with
        | none => s.modInstance g.body.group num (fun i => { i with
            inFlight := tset (2 ^ 60 + src * 2 ^ 35 + chunkKey 7 q) data i.inFlight })
        | some (start, len) =>
          let c := (s.role k).cut len
          let off := start + c.1 + 4096 * idx
          let n := min 4096 (c.2 - 4096 * idx)
          let e := n / fmtBytes (cFmt i.desc)
          let bytes := if plainCopy i.desc then data.take n
            else s.finalBytes g i.desc e (fromWire i.desc (rotLen i.desc e) data)
          -- The continuation names the offset so that its completion can count the bytes.
          ((s.memberStore g num id off (2 ^ 40 + off * 8192 + n) bytes).freshen).rotated (cRotate i.desc) e

/-! ### A chunk that has come whole (R227, R228) -/

/-- A chunk passed its check: it is combined, held, sent on or written. -/
def State.chunkIn (s : State) (g : Group) (num src phase q : Nat) (data : List Byte) : State :=
  match s.instance_ g.body.group num with
  | none => s
  | some i =>
    let d := i.desc
    if phase = 7 ∧ (descOp d = 0x15 ∨ descOp d = 0x16) then s.placeBlock g num src q data
    else if phase = 7 then s.writeWire g i q data
    else if 1 ≤ phase ∧ phase ≤ 3 then
      -- A partial of a peer: it takes its place in this chip's running partial of the phase.
      let dim := phase - 1
      s.reduceOn g num q 4 dim (fromWire d (rotLen d (s.chunkElems i q)) data)
    else
      let rest := ((agOrder (descOp d)).dropWhile (fun x => x.2 != phase)).drop 1
      s.gather g num q rest data

/-- Slots that a chunk from a peer needs beyond those it has: for a partial not yet begun, or for a copy to send on. -/
def State.slotsWanted (s : State) (g : Group) (i : Instance) (phase q : Nat) : Nat :=
  if 1 ≤ phase ∧ phase ≤ 3 then (if (tget (chunkKey phase q) i.chunks).isSome then 0 else accSlots (cFmt i.desc))
  else
    let rest := ((agOrder (descOp i.desc)).dropWhile (fun x => x.2 != phase)).drop 1
    if phase ≠ 7 ∧ rest.any (fun x => s.dimPeers g.body x.1 != []) then 1 else 0

/-- A chunk that passed its check is taken in, or stays in the packet buffer while no slot is free for it: the instance runs
within its reservation, and is slower for it (R224). -/
def State.chunkArrives (s : State) (g : Group) (num src phase q : Nat) (data : List Byte) : State :=
  match s.instance_ g.body.group num with
  | none => s
  | some i =>
    if (i.takeSlots g.body.slots (s.slotsWanted g i phase q)).isSome then s.chunkIn g num src phase q data
    else s.modInstance g.body.group num (fun i => { i with
      inFlight := tset (2 ^ 61 + src * 2 ^ 35 + chunkKey phase q) data i.inFlight })

/-- Chunks that waited for slots are taken in, as far as there are slots. -/
def State.resumeChunks (s : State) (g : Group) (num : Nat) : State :=
  match s.instance_ g.body.group num with
  | none => s
  | some i =>
    let held := i.inFlight.filter (fun (e : Nat × List Byte) => decide (2 ^ 61 ≤ e.1))
    held.foldl (fun s (key, data) =>
      let k := key - 2 ^ 61
      (s.modInstance g.body.group num (fun i => { i with inFlight := terase key i.inFlight })).chunkArrives g num (k / 2 ^ 35)
        (k / 2 ^ 32 % 8) (k % 2 ^ 32) data) s

/-- A chunk of a member that its SRC gives, in the accumulation format and rotated where the clause rotates. -/
def State.localElems (s : State) (g : Group) (d : List Byte) (data : List Byte) : List Nat :=
  let f := cFmt d
  let xs := (elems (fmtWidth f) (data.length / fmtBytes f) data).map (fun x => (convert f (accFmt f) 0 0 x).1)
  if cRotate d then s.rotate g.body.rotWindow (cRmode d) xs else xs

/-- The key of a chunk in LOCAL: for a block, its chip and its number there. -/
def State.localKey (s : State) (g : Group) (k : Clause) (q : Nat) : Nat :=
  if descOp k.desc = 0x15 ∨ descOp k.desc = 0x16 then
    let ns := g.body.slotList.length
    let rank := q / 2 ^ 24
    s.chipAt g.body (rank / ns) * 2 ^ 35 + blockNumber ns ((s.role k).rank % ns) (rank % ns) (q % 2 ^ 24)
  else chunkKey 0 q

/-- The chunk's bytes of a member, read: a contribution to a reduction, a chunk to gather, or a block to send. -/
def State.collRead (s : State) (id q : Nat) (e : Err) (data : List Byte) : State :=
  match s.clauseAt id with
  | none => s
  | some k =>
    match s.group (cGroup k.desc) with
    | none => s.pieceIn id (2 ^ 41) .none 0 0
    | some g =>
      if e ≠ .none then
        let s := s.pieceIn id (2 ^ 41) e (k.segment - 1) (cSrc k.desc)
        match s.clauseAt id with
        | some k => s.memberFailed k
        | none => s
      else
        let d := k.desc
        let s := s.pieceIn id (2 ^ 41) .none 0 0
        let wire := if plainCopy d then data else s.toWire d (s.localElems g d data)
        let s' := s.freshen.rotated (cRotate d) (data.length / fmtBytes (cFmt d))
        if reduces (descOp d) then (s'.localIn g k.inst q (s.localElems g d data)).resumeChunks g k.inst
        else
          let s := s'.dropChunk g k.inst (s'.localKey g k q)
          if descOp d = 0x15 ∨ descOp d = 0x16 then
            let ns := g.body.slotList.length
            let rank := q / 2 ^ 24
            let dst := s.chipAt g.body (rank / ns)
            let num := blockNumber ns ((s.role k).rank % ns) (rank % ns) (q % 2 ^ 24)
            if dst = s.chip then s.placeBlock g k.inst s.chip num wire else s.sendTo g k.inst 7 num [dst] wire
          else s.gather g k.inst q (agOrder (descOp d)) wire

/-- For members whose lead operand is SRC: chunk q counts once its contribution has passed at the next chip, or, on the
root's chip, once it is taken in (R220). -/
def State.sentPassed (s : State) (g : Group) (num q : Nat) : State :=
  match s.instance_ g.body.group num with
  | none => s
  | some i =>
    if descOp i.desc = 0x10 then
      i.members.foldl (fun s id => match s.clauseAt id with
        | some k =>
          if dstBlocks k.desc k.extra (s.role k) = [] then
            match chunkAt k.desc k.extra (s.role k) q with
            | some (_, off, len) => s.leadDone id off len
            | none => s
          else s
        | none => s) s
    else s

/-- A write of a result chunk has completed: its bytes are final. -/
def State.collWritten (s : State) (id q : Nat) (e : Err) : State :=
  match s.clauseAt id with
  | none => s
  | some k =>
    match s.group (cGroup k.desc) with
    | none => s
    | some g =>
      let (off, len) := if 2 ^ 40 ≤ q then ((q - 2 ^ 40) / 8192, (q - 2 ^ 40) % 8192)
        else (s.dstPlace k q).getD (0, 0)
      let s := s.pieceIn id (off / 4096) e (k.segment - 1) (cDst k.desc + off)
      if e = .none then
        let s := s.leadDone id off len
        if q < 2 ^ 40 ∧ chunkOwner k.desc k.extra (s.role k) g.body q = s.chipIndex g.body s.chip then
          s.sentPassed g k.inst q
        else s
      else match s.clauseAt id with
        | some k => s.memberFailed k
        | none => s

end Sys2Proof.Machine
end

