-- ==== Sys2Proof/Machine/Records.lean ====
section
/-! DEFINITION. Completion records and queue drains (R177, R186), and the refusal of a fetched descriptor. -/

namespace Sys2Proof.Machine

/-- A completion record (Table 7-14); PHASE is set as it is written. -/
def recordBytes (tag : Nat) (e : Err) (op exc seq seg chunks detail addr : Nat) : List Byte :=
  packBytes [(32, tag), (8, e.code), (8, op), (4, exc), (4, 0), (8, 0), (32, seq), (32, seg), (32, chunks), (32, detail),
    (64, addr)]

def withPhase (bs : List Byte) (phase : Nat) : List Byte :=
  bs.zipIdx.map (fun (b, i) => if i = 6 then b ||| BitVec.ofNat 8 (128 * phase) else b)

/-- A clause leaves flight. -/
def State.dropClause (s : State) (id : Nat) : State :=
  { s with work := { s.work with clauses := terase id s.work.clauses } }

/-- Writes the oldest waiting record when the ring has room; records that take no slot leave at once. After the drain timeout
a record that finds the ring full is discarded and counted (R186). -/
def State.pumpRecords (s : State) (q : Nat) : Nat → State
  | 0 => s
  | n + 1 =>
    match s.queue q with
    | none => s
    | some r =>
      match r.records with
      | [] => s
      | (id, bs) :: rest =>
        if r.writing then s
        else if bs = [] then ((s.modQueue q (fun r => { r with records := rest })).dropClause id).pumpRecords q n
        else
          let tail := s.get (R.QPAGE_CQ_TAIL q)
          let used := (tail + 2 ^ 32 - s.get (R.QPAGE_CQ_HEAD q)) % 2 ^ 32
          if 2 ^ r.cqLog2 ≤ used then
            (if r.expired then
              (((s.modQueue q (fun r => { r with records := rest })).dropClause id).count (R.QPAGE_STATUS_LOST q)).pumpRecords q n
            else s)
          else
            let p := s.get (R.QPAGE_STATUS_PARTITION q)
            let fva := r.cqFva + tail % 2 ^ r.cqLog2 * 32
            let x := s.xlate p fva 1
            let s := s.modQueue q (fun r => { r with writing := true })
            if x.err ≠ .none then (s.logWindow p fva x.err).finish (.record q) x.err []
            else if s.poisonedPage p fva 1 then s.finish (.record q) .poison []
            else s.issueWrite x.fpa (withPhase bs (1 - tail / 2 ^ r.cqLog2 % 2)) p (.record q) 137 false none

/-- A record waits for its turn on the ring. -/
def State.addRecord (s : State) (q id : Nat) (bs : List Byte) : State :=
  let s := s.modQueue q (fun r => { r with records := r.records ++ [(id, bs)] })
  s.pumpRecords q (((s.queue q).map (fun r => r.records.length)).getD 0)

/-- Completes the descriptor that a queue holds fetched with a code, and nothing more of it happens. -/
def State.refuseFetched (s : State) (q : Nat) (e : Err) (addr : Nat) (always : Bool) : State :=
  match s.queue q with
  | none => s
  | some r =>
    match r.fetched with
    | none => s
    | some (d, idx) =>
      let s := s.modQueue q (fun r => { r with fetched := none, fetching := false, extra := none, asking := false, held := false })
      let bs := recordBytes (descTag d) e (descOp d) 0 idx noSeg 0 0 addr
      s.addRecord q (2 ^ 64) (if e = .none ∧ !always then [] else bs)

/-- The slot of a group that a queue delivers for, when the queue is one of its queues. -/
def State.slotOf (s : State) (d : List Byte) (q p : Nat) : Option Nat :=
  if isColl (descOp d) then
    match s.group (cGroup d) with
    | some g => if g.body.queueOk q ∧ g.body.partition = p then some (q - g.body.queueBase) else none
    | none => none
  else none

/-- Refuses the fetched descriptor; a member clause takes its instance number, and the instance aborts (R211). -/
def State.refuseClause (s : State) (q : Nat) (d : List Byte) (e : Err) (addr : Nat) : State :=
  let s := s.refuseFetched q e addr true
  match s.slotOf d q (s.get (R.QPAGE_STATUS_PARTITION q)) with
  | none => s
  | some a =>
    match s.takeInstance (cGroup d) a with
    | (s, n) => if e = .aborted then s else s.abortGroup (cGroup d) n e.code s.chip

/-- Puts a queue in DRAINING (R186); a held descriptor completes at once. -/
def State.drainQueue (s : State) (q : Nat) (e : Err) : State :=
  if s.get (R.QPAGE_STATUS_STATE q) = 1 then
    let s := (s.set (R.QPAGE_STATUS_STATE q) 2).set (R.QPAGE_STATUS_ERR q) e.code
    match s.queue q with
    | some r => match r.held, r.fetched with
      | true, some (d, _) => s.refuseClause q d .disabled 0
      | _, _ => s
    | none => s
  else s

/-- A record's write has completed, or failed (R177). -/
def State.recordDone (s : State) (q : Nat) (e : Err) : State :=
  match s.queue q with
  | none => s
  | some r =>
    match r.records with
    | [] => s
    | (id, _) :: rest =>
      let s := (s.modQueue q (fun r => { r with records := rest, writing := false })).dropClause id
      let s := if e = .none then s.wrap (R.QPAGE_CQ_TAIL q)
        else
          let s := s.count (R.QPAGE_STATUS_LOST q)
          if s.get (R.QPAGE_STATUS_STATE q) = 1 then
            (s.set (R.QPAGE_FAULT_FVA_FVA q) (r.cqFva + s.get (R.QPAGE_CQ_TAIL q) % 2 ^ r.cqLog2 * 32)).drainQueue q e
          else s
      s.pumpRecords q (rest.length + 1)

end Sys2Proof.Machine
end

