-- ==== Sys2Proof/Machine/Ptu.lean ====
section
/-! DEFINITION. Photonic transform units (chapter 11): a clause's vectors on units and on tiles, waiting lists, pilot checks, and
a unit's states. -/

namespace Sys2Proof.Machine

/-! ### A clause's vectors -/

/-- Output vectors done, and those of the segments started. -/
def Clause.vecsDone (k : Clause) : Nat := (tget (2 ^ 42) k.indices).getD 0

def Clause.vecsOpen (k : Clause) : Nat := min (tVectors k.desc) (k.segment * 2 ^ 21 / (64 * fmtBytes (tOut k.desc)))

/-- The streams' vectors j of n, from their bytes. -/
def inputVectors (d : List Byte) (n : Nat) (data : List Byte) (j : Nat) : List (List Num) :=
  let w := 64 * fmtBytes (tIn d)
  (List.range (tInputs d)).map (fun i =>
    (elems (fmtWidth (tIn d)) 64 ((data.drop ((i * n + j) * w)).take w)).map (decodeNum (tIn d)))

/-- Reads the input of n vectors from v, stream by stream, for a continuation. -/
def State.fetchVectors (s : State) (k : Clause) (v n : Nat) (c : Cont) : State :=
  let w := 64 * fmtBytes (tIn k.desc)
  match (List.range (tInputs k.desc)).mapM (fun i =>
      (k.runs (cSrc k.desc + i * tStride k.desc + v * w) (n * w)).map (fun rs => (cSrc k.desc + i * tStride k.desc + v * w, rs))) with
  | some rs =>
    if rs.any (fun r => s.poisonedIn k.partition 0 r.1 r.2) then s.finish c .poison []
    else s.readRuns (rs.flatMap Prod.snd) k.partition c k.port false
  | none => s.finish c .unmapped []

/-- Writes output bytes from vector v on, chunk by chunk (R271). -/
def State.writeVectors (s : State) (id : Nat) (v : Nat) (bytes : List Byte) : State :=
  match s.clauseAt id with
  | none => s
  | some k =>
    let off := v * 64 * fmtBytes (tOut k.desc)
    let n := if bytes = [] then 0 else (off + bytes.length - 1) / 4096 + 1 - off / 4096
    (List.range n).foldl (fun s i =>
      let c := off / 4096 + i
      let a := max off (4096 * c)
      let b := min (off + bytes.length) (4096 * c + 4096)
      ((s.leadDone id a (b - a)).pieceOut id c).clauseStore k (cDst k.desc + a) ((bytes.drop (a - off)).take (b - a))
        (.clauseWrite id c (cDst k.desc + a))) s

/-- Whether a chunk of a TRANSFORM may count. -/
def Clause.vecReady (k : Clause) (c : Nat) : Bool :=
  !k.failed.contains c && !k.counted.contains c && (tget c k.flying).isNone &&
    decide ((tget c k.indices).getD 0 = min 4096 (k.leadLen - 4096 * c)) && decide (4096 * c < k.leadLen)

/-! ### Units -/

/-- Eligible: ACTIVE and not for rotation (R278). -/
def State.eligible (s : State) (u : Nat) : Bool := s.ptuState u == 2 && !bit (s.get R.CONJ_CTL_ROT_PTU) u

/-- COEF bytes that lie in this chip's own memory, for the choice of a unit (log entry 26). -/
def State.peekCoef (s : State) (k : Clause) : Option (List Byte) :=
  match k.runs (tCoef k.desc) (tCoefLen k.desc) with
  | some rs =>
    if rs.all (fun r => fpaChip r.1 == s.chip && decide (16 ≤ fpaUnit r.1)) then
      some (rs.flatMap (fun r => memRead s.mem (memKey (fpaUnit r.1) (fpaOff r.1)) r.2))
    else none
  | none => none

/-- The unit that a clause goes to (R278). -/
def State.chooseUnit (s : State) (k : Clause) : Option Nat :=
  let us := (List.range 4).filter s.eligible
  let c := s.peekCoef k
  match us.find? (fun u => c.isSome && c == some (s.ptu u).coef && s.get (R.PTU_STAT_MODE u) == b2n (tBank k.desc) &&
      s.flag (R.PTU_STAT_LOADED u)) with
  | some u => some u
  | none => us.foldl (fun b u => match b with
    | none => some u
    | some v => if (s.ptu u).waiting.length < (s.ptu v).waiting.length then some u else some v) none

/-- Reads the next vectors of the running clause: up to a pilot check, within the segments started. -/
def State.ptuNext (s : State) (u : Nat) : State :=
  let p := s.ptu u
  match p.running with
  | none => s
  | some id =>
    match s.clauseAt id with
    | none => s.modPtu u (fun p => { p with running := none })
    | some k =>
      if k.ending.isSome then s.modPtu u (fun p => { p with running := none, heldVecs := 0, held := [] })
      else if p.asking ∨ p.calibrating ∨ p.carrierLost ∨ p.heldVecs ≠ 0 then s
      else if tVectors k.desc ≤ k.vecsDone then s.modPtu u (fun p => { p with running := none })
      else
        let n := min 256 (k.vecsOpen - k.vecsDone)
        if n = 0 then s
        else (s.modPtu u (fun p => { p with asking := true })).fetchVectors k k.vecsDone n
            (.transformRead id (2 ^ 40 * (u + 1) + n))

/-- A clause fails before or while it runs, with a code of its own. -/
def State.transformFails (s : State) (id : Nat) (e : Err) (seg addr : Nat) : State := s.endClause id (ending e seg addr)

/-- The head of a unit's list runs on it: the unit holds its COEF, which stays the clause's for as long as it runs (R266,
R269). -/
def State.seatOn (s : State) (u id : Nat) (k : Clause) (coef : List Byte) : State :=
  let s := s.modClause id (fun k => { k with extra := coef })
  let s := s.modPtu u (fun p => { p with waiting := p.waiting.drop 1, running := some id, coef := coef, rot := false })
  ((s.set (R.PTU_STAT_MODE u) (b2n (tBank k.desc))).set (R.PTU_STAT_LOADED u) 1).ptuNext u

/-- COEF has come for the head of a unit's list (R268); bytes for a clause that stands there no more are dropped. -/
def State.coefDone (s : State) (u id : Nat) (e : Err) (data : List Byte) : State :=
  if (s.ptu u).waiting.head? ≠ some id then s
  else
    let s := s.modPtu u (fun p => { p with asking := false })
    match s.clauseAt id with
    | none => s.modPtu u (fun p => { p with waiting := p.waiting.drop 1 })
    | some k =>
      let drop := fun (s : State) => s.modPtu u (fun p => { p with waiting := p.waiting.filter (· != id) })
      if e ≠ .none then drop (s.transformFails id e 0 (tCoef k.desc))
      else if !coefOk (tBank k.desc) (tInputs k.desc) data then drop (s.transformFails id .format noSeg 0)
      else s.seatOn u id k data

/-- Input vectors have come: on a unit they are computed and held for the pilot check; on tiles they are written. -/
def State.transformDone (s : State) (id chunk : Nat) (e : Err) (data : List Byte) : State :=
  match s.clauseAt id with
  | none => { s with ptus := s.ptus.map (fun (u : Nat × Ptu) => (u.1, if u.2.running = some id then { u.2 with asking := false } else u.2)) }
  | some k =>
    let d := k.desc
    let out := fun (ys : List (List Nat)) => elemBytes (fmtWidth (tOut d)) ys.flatten
    if 2 ^ 40 ≤ chunk then
      -- Vectors that a unit asked for: dropped when the clause runs on it no more.
      let u := chunk / 2 ^ 40 - 1
      let n := chunk % 2 ^ 40
      let s := if (s.ptu u).running = some id then s.modPtu u (fun p => { p with asking := false }) else s
      if k.ptu ≠ some u then s
      else if e ≠ .none then (s.transformFails id e (k.vecsDone * 64 * fmtBytes (tOut d) / 2 ^ 21) (cSrc d)).ptuNext u
      else if (s.ptu u).running ≠ some id ∨ (s.ptu u).carrierLost ∨ (s.ptu u).calibrating then s
      else
        let ys := (List.range n).map (fun j => opticVector (coefWeights (tBank d) (s.ptu u).coef) (tWindow d) (tOut d)
          (fun i => Config.ptuError s.fresh (64 * j + i)) (inputVectors d n data j))
        -- One output vector costs 0.625 of coefficient 7 (Table 18-6).
        ((s.chargeEighths k.partition 7 (5 * n)).modPtu u (fun p => { p with heldVecs := n, held := out ys })).freshen
    else
      let per := 4096 / (64 * fmtBytes (tOut d))
      let n := min per (tVectors d - chunk * per)
      let s := s.pieceIn id chunk e (chunk / 512) (cSrc d)
      if e ≠ .none then s
      else s.writeVectors id (chunk * per) (out ((List.range n).map (fun j =>
        tileVector (coefWeights (tBank d) k.extra) (tOut d) (inputVectors d n data j))))

/-- COEF has come for a TRANSFORM on tiles: its chunks of the segments started are read. -/
def State.tileTransform (s : State) (id : Nat) : State :=
  match s.clauseAt id with
  | none => s
  | some k =>
    if k.extra = [] ∨ k.ending.isSome then s
    else
      let per := 4096 / (64 * fmtBytes (tOut k.desc))
      let cs := ((List.range ((k.segment - k.issued) * 512)).map (k.issued * 512 + ·)).filter
        (fun c => decide (c * per < tVectors k.desc) && decide (k.vecsDone ≤ c * per))
      let s := s.modClause id (fun k => { k with issued := k.segment })
      cs.foldl (fun s c =>
        (s.pieceOut id c).fetchVectors k (c * per) (min per (tVectors k.desc - c * per)) (.transformRead id c)) s

def State.tileCoef (s : State) (id : Nat) (e : Err) (data : List Byte) : State :=
  match s.clauseAt id with
  | none => s
  | some k =>
    let s := s.pieceIn id (2 ^ 41) .none 0 0
    if e ≠ .none then s.transformFails id e 0 (tCoef k.desc)
    else if !coefOk (tBank k.desc) (tInputs k.desc) data then s.transformFails id .format noSeg 0
    else (s.modClause id (fun k => { k with extra := data })).tileTransform id

/-- A clause that a unit gives up goes to another eligible unit, or to tiles, with the COEF it has read (R266, R280). -/
def State.moveClause (s : State) (id : Nat) : State :=
  match s.clauseAt id with
  | none => s
  | some k =>
    let k := { k with ptu := none }
    let s := s.setClause id k
    match s.chooseUnit k with
    | some u => (s.setClause id { k with ptu := some u }).modPtu u (fun p => { p with waiting := p.waiting ++ [id] })
    | none =>
      -- On tiles the unfinished chunks are read again from the first that no unit has written.
      s.setClause id { k with issued := k.vecsDone * 64 * fmtBytes (tOut k.desc) / 2 ^ 21, stage := .waiting }

/-- A unit leaves service: FAILED, its clauses move, PTU_FAULT is logged (R277, R280). -/
def State.ptuFail (s : State) (u : Nat) : State :=
  let p := s.ptu u
  let ids := p.running.toList ++ p.waiting
  let s := s.set (R.PTU_STAT_STATE u) 5
  let s := s.setPtu u { Ptu.reset with coef := p.coef, tables := p.tables }
  let s := ids.foldl State.moveClause s
  s.logFault 8 u 0 0

/-- H is programmed into a unit: mesh mode, its coefficient store holds H (R234, R278). -/
def State.loadH (s : State) (u : Nat) : State :=
  ((s.set (R.PTU_STAT_MODE u) 0).set (R.PTU_STAT_LOADED u) 1).modPtu u (fun p => { p with coef := hCoef, rot := true })

/-- A unit gives up a running clause that has ended; a DRAINING unit without work reads DISABLED (R281); an ACTIVE one that
CONJ_CTL.ROT_PTU assigns takes H (R278). -/
def State.restPtu (s : State) (u : Nat) : State :=
  let p := s.ptu u
  let gone : Bool := match p.running with
    | some id => (match s.clauseAt id with
      | some k => k.ending.isSome
      | none => true)
    | none => false
  let s := if gone ∧ !p.asking then s.modPtu u (fun p => { p with running := none, heldVecs := 0, held := [] }) else s
  let p := s.ptu u
  if p.running = none ∧ p.waiting = [] ∧ !p.asking then
    if s.ptuState u = 3 then s.set (R.PTU_STAT_STATE u) 4
    else if s.ptuState u = 2 ∧ bit (s.get R.CONJ_CTL_ROT_PTU) u ∧ !p.rot then s.loadH u
    else s
  else s

def State.restPtus (s : State) : State := (List.range 4).foldl State.restPtu s

/-- Starts a warm calibration: it counts, and the unit's clause pauses (R276). -/
def State.warm (s : State) (u : Nat) : State :=
  (s.count (R.PTU_COUNT_RECALS u)).modPtu u (fun p => { p with calibrating := true })

end Sys2Proof.Machine
end

