-- ==== Sys2Proof/Machine/Place.lean ====
section
/-! DEFINITION. Placement (chapters 2, 3 and 10): the directory, installs at a home, replicas, migrations, withdrawals,
and what the responses of Table 10-5 do. -/

namespace Sys2Proof.Machine

/-! ### Hold sets and cancellation (R66, R67) -/

/-- Whether a clause holds an extent in a range of FVAs. -/
def Clause.holds (k : Clause) (lo hi : Nat) : Bool :=
  k.extents.any (fun e => decide (e.fva < hi) && decide (lo < e.fva + e.len))

/-- Whether a member of a hold set has not yet let go. DESIGN CHOICE (log entry 125): a clause that parks and discards its extents
in the range (R59) stays a member until it is done; R66 names no earlier moment. -/
def State.holding (s : State) (h : Holder) : Bool :=
  match h with
  | .clause id => match s.clauseAt id with
    | some k => k.stage != .done
    | none => false
  | .direct id => (tget id s.edge.directs).isSome
  | .replica key chip => s.parser.dir.any (fun d => d.2.frame == key && (d.2.replicas ++ d.2.placing).contains chip)
  | .weight id => (tget id s.security.loads).isSome
  | .move old => s.parser.migrations.any (fun m => m.oldFpa == old)

/-- Whether every byte that a collective's started segments give is final. -/
def State.collSettled (s : State) (k : Clause) : Bool :=
  (List.range (k.segment * 512)).all (fun c => s.leadBytes k c == 0 || (tget c k.indices).getD 0 == s.leadBytes k c)

/-- Whether nothing of the segments that have started runs any more. -/
def State.segsQuiet (s : State) (k : Clause) : Bool :=
  k.flying.isEmpty &&
    (if descOp k.desc = 0x20 ∧ k.ptu.isSome then decide (k.vecsDone = k.vecsOpen)
     else if isColl (descOp k.desc) then s.collSettled k
     else decide (k.segment = k.issued))

/-- At a segment boundary, with a segment still to start: waiting, parked, between segments, or a KERNEL not started,
stalled or in CTRWAIT (R67, R145). A clause that another chip runs is at none that this chip sees: it ends there. -/
def State.atBoundary (s : State) (k : Clause) : Bool :=
  if k.stage = .away then false
  else if descOp k.desc = 0x30 then
    k.placed.all (fun c => match s.ctx c with
      | some x => match x.mode with
        | .parked => true
        | .ctrwait _ _ _ => true
        | _ => !k.timed
      | none => true)
  else decide (k.segment < k.segs) && s.segsQuiet k

/-- A clause ends with ERR_TENSE for the withdrawals with ABORT that hold it; each counts it (R68, Table 3-7). -/
def State.tenseEnd (s : State) (id seg : Nat) : State :=
  let s := s.endClause id (ending .tense seg 0)
  { s with xlat := { s.xlat with withdrawals := s.xlat.withdrawals.map (fun w =>
      if w.abort ∧ w.hold.contains (.clause id) then { w with aborted := w.aborted + 1 } else w) } }

/-- Cancels a clause at a boundary: ERR_TENSE; its completed segments stand. -/
def State.cancel (s : State) (id : Nat) : State :=
  match s.clauseAt id with
  | none => s
  | some k =>
    if k.ending.isSome ∨ k.stage = .done then s
    else if s.atBoundary k then s.tenseEnd id (if k.timed then k.segment else noSeg)
    else s.modClause id (fun k => { k with cancelled := true })

/-! ### Parking (R59 to R62) -/

def State.parkedCount (s : State) : Nat := s.work.clauses.countP (fun c => c.2.stage == .parked)

/-- The parts of extents that lie in some ranges. -/
def keepExtents (rs : List Range) (es : List Extent) : List Extent :=
  es.flatMap (fun e => (rs.flatMap (fun r =>
    let a := max e.fva r.fva
    let b := min (e.fva + e.len) (r.fva + r.len)
    if a < b then [{ e with fva := a, len := b - a, fpa := e.fpa + (a - e.fva) }] else [])).dedup)

/-- A parked clause other than a KERNEL gives up its tiles once its running segments have completed (R59). -/
def State.giveQuiet (s : State) (id : Nat) : State :=
  match s.clauseAt id with
  | some k =>
    if k.stage = .parked ∧ k.placed ≠ [] ∧ descOp k.desc ≠ 0x30 ∧ s.segsQuiet k then
      (s.giveTiles k).modClause id (fun k => { k with placed := [] })
    else s
  | none => s

def State.giveParked (s : State) : State := s.work.clauses.foldl (fun s (c : Nat × Clause) => s.giveQuiet c.1) s

/-- ATOMIC_BATCH: whether the clause's last extent is the target of the entry that runs. -/
def Clause.atTarget (k : Clause) : Bool := tget (2 ^ 45) k.indices == some 2

/-- Parks a clause at its next segment: the parts of its extents in earlier segments alone stay (R59). -/
def State.park (s : State) (id : Nat) : State :=
  match s.clauseAt id with
  | none => s
  | some k =>
    if 8192 ≤ s.parkedCount then s.endClause id (ending .resource (if k.timed then k.segment else noSeg) 0)
    else
      let want := s.xlRanges k.partition ((List.range (min 8 (k.segs - k.segment))).flatMap (fun i => s.segTouch k (k.segment + i)))
      let s := s.modClause id (fun k => { k with
        stage := .parked, clear := k.segment, lacking := [], waitsOn := [], parkTick := s.tick,
        extents := keepExtents ((List.range k.segment).flatMap (s.segTouch k)) k.extents ++
          (if k.atTarget then k.extents.getLast?.toList else []) })
      (want.lacking.foldl (fun s (page, kinds) => s.waitOn id k.partition page kinds k.queue) s).giveQuiet id

/-- Translates the segments of a parked clause again, which go by the new extents (R61). -/
def State.retranslate (s : State) (id : Nat) : State :=
  match s.clauseAt id with
  | none => s
  | some k =>
    let x := s.xlRanges k.partition (s.fromSeg k k.segment)
    match x.bad with
    | some (_, a, e) => (s.logWindow k.partition a e).endClause id (ending e k.segment a)
    | none =>
      let k' := { k with extents := x.extents ++ k.extents, tense := s.tense k.partition, waitsOn := [], lacking := [] }
      let k' := { k' with clear := s.clearSegs k' }
      let k' := { k' with stage := if descOp k.desc = 0x30 ∧ k.placed ≠ [] then .running else .waiting }
      let s := s.setClause id k'
      if k'.covers (s.segTouch k k.segment) then
        -- A KERNEL's stalled context continues.
        k.placed.foldl (fun s c => match s.ctx c with
          | some x => if x.mode = .parked then s.setCtx c { x with mode := .running } else s
          | none => s) s
      else s.park id

/-! ### The directory (R50, R253) -/

def noDir : Nat := 65535

/-- Records that a directory entry takes: one, and one for each further 32 registered chips past 24. -/
def DirRec.records (d : DirRec) : Nat := 1 + ceilDiv (d.registered.length - 24) 32

def State.dirUsed (s : State) : Nat := (s.parser.dir.map (fun (d : Nat × DirRec) => d.2.records)).sum

/-- Whether this chip homes a frame for an entry. -/
def State.homed (s : State) (e : PmEntry) : Bool := e.chip == s.chip

/-- Changes the entry of a page. -/
def State.modPm (s : State) (p page : Nat) (f : PmEntry → PmEntry) : State :=
  match s.pmFind p page with
  | some (i, e) => s.setPm i (f e)
  | none => s

/-- Changes the entry of a page when this chip is its home and the frame is its own. -/
def State.modHome (s : State) (p page frame : Nat) (f : PmEntry → PmEntry) : State :=
  s.modPm p page (fun e => if e.chip = s.chip ∧ frameKey e.fpa = frame then f e else e)

def State.setDirRec (s : State) (i : Nat) (d : DirRec) : State :=
  { s with parser := { s.parser with dir := tset i d s.parser.dir } }

/-- A record gives itself up when neither a registered chip nor a replica remains. -/
def State.pruneDir (s : State) (i : Nat) : State :=
  match tget i s.parser.dir with
  | none => s
  | some d =>
    if d.registered = [] ∧ d.replicas = [] ∧ d.placing = [] then
      ({ s with parser := { s.parser with dir := terase i s.parser.dir } }).modHome d.partition d.page d.frame
        (fun e => { e with dirIndex := noDir })
    else s

/-- The record of a frame, taken when there is none; none when the pool is full. -/
def State.takeDir (s : State) (p page frame : Nat) : Option (State × Nat × DirRec) :=
  match s.parser.dir.find? (fun d => d.2.frame == frame) with
  | some (i, d) => some (s, i, d)
  | none =>
    if 65535 ≤ s.dirUsed then none
    else
      let i := firstGap 0 s.parser.dir
      let d : DirRec := { partition := p, page := page, frame := frame, registered := [], replicas := [], placing := [], placed := [] }
      some ((s.setDirRec i d).modHome p page frame (fun e => { e with dirIndex := i }), i, d)

/-- Registers a chip for a frame; none when no record is free. -/
def State.register (s : State) (p page frame c : Nat) : Option State :=
  match s.takeDir p page frame with
  | none => none
  | some (s', i, d) =>
    if d.registered.contains c then some s'
    else
      let d := { d with registered := d.registered ++ [c] }
      let s' := s'.setDirRec i d
      if 65535 < s'.dirUsed then none else some s'

/-- Whether a withdrawal not yet acknowledged withholds a frame of this chip. -/
def State.withheld (s : State) (frame : Nat) : Bool :=
  s.xlat.withdrawals.any (fun w => w.entries.any (fun e =>
    e.mapped && fpaChip e.frameFpa == s.chip && frameKey e.frameFpa == frame))

/-- Frees a home frame once no valid entry for it remains on any registered chip (R50). -/
def State.maybeFree (s : State) (frame : Nat) : State :=
  match s.frameRec frame with
  | none => s
  | some r =>
    let mine : Bool := match s.pmFind r.owner r.page with
      | some (_, e) => e.chip == s.chip && frameKey e.fpa == frame
      | none => false
    let regd : Bool := s.parser.dir.any (fun d => d.2.frame == frame && !d.2.registered.isEmpty)
    if mine ∨ regd ∨ s.withheld frame ∨ (r.use ≠ .page ∧ r.use ≠ .withheld) then s
    else if s.isLost (frame / 2 ^ 22) (frame % 2 ^ 22) then s
    else s.freeFrame frame

/-- A chip's registration ends. -/
def State.unregister (s : State) (frame c : Nat) : State :=
  match s.parser.dir.find? (fun d => d.2.frame == frame) with
  | none => s
  | some (i, d) =>
    ((s.setDirRec i { d with registered := d.registered.filter (· != c) }).pruneDir i).maybeFree frame

/-- Sends REPL_DROP for a replica of a frame of this chip (R256); `own`: by the Parser's own decision. -/
def State.sendDrop (s : State) (d : DirRec) (c : Nat) (own : Bool) : State :=
  s.sendDir 8 c (dirMsg d.partition (d.page % 2 ^ 31) (s.chip * 2 ^ 49 + d.frame * 2 ^ 21) 0 0 0 0)
    (.dir (if own then 0x18 else 8) d.partition d.frame c)

def State.dropReplicas (s : State) (frame : Nat) : State :=
  match s.parser.dir.find? (fun d => d.2.frame == frame) with
  | none => s
  | some (_, d) => (d.replicas ++ d.placing).dedup.foldl (fun s c => s.sendDrop d c false) s

/-- The key of a dropped replica among those whose holder gets no new one: the page, wherever it lies, or the region, and the
chip (R248). -/
def dropKey (p page frame c : Nat) : Nat :=
  (if page = 2 ^ 31 then 2 ^ 44 + frame else p * 2 ^ 31 + page) * 2 ^ 15 + c

/-- A replica has been dropped, or its holder lost: it leaves the record. Where the Parser itself decided so, its hysteresis
window begins (R248). -/
def State.replicaGone (s : State) (frame c : Nat) (own : Bool) : State :=
  match s.parser.dir.find? (fun d => d.2.frame == frame) with
  | none => s
  | some (i, d) =>
    if d.replicas.contains c ∨ d.placing.contains c then
      let d' := { d with replicas := d.replicas.filter (· != c), placing := d.placing.filter (· != c), placed := terase c d.placed }
      let s := s.setDirRec i d'
      let s := if own then
          { s with parser := { s.parser with dropped := tset (dropKey d.partition d.page d.frame c) s.parser.epochs s.parser.dropped } }
        else s
      let s := if d'.replicas = [] then s.modHome d.partition d.page frame (fun e => { e with replicated := false }) else s
      s.pruneDir i
    else s

/-! ### Replicas on their holder (R254 to R256) -/

/-- No tile keeps a line of a frame that is given up. -/
def State.dropFrame (s : State) (fpa : Nat) : State :=
  let other := fun (l : Nat) => l * 128 / 2 ^ 21 != fpa / 2 ^ 21
  s.modTiles (fun _ t => { t with
    l1 := t.l1.filter (fun e => other e.1), copies := t.copies.filter (fun e => other e.1), held := t.held.filter other,
    entries := t.entries.map (fun e => (e.1, if other e.2.line then e.2 else { e.2 with stale := true })) })

/-- A replica of this chip serves no read any more. -/
def State.forgetReplica (s : State) (key : Nat) (r : Replica) : State :=
  { s with parser := { s.parser with replicas := terase key s.parser.replicas } }.modPm r.partition r.page (fun e =>
    if e.fpa / 2 ^ 21 = key then { e with replicated := false } else e)

/-- Frees a replica this chip holds. -/
def State.freeReplica (s : State) (key : Nat) : State :=
  match tget key s.parser.replicas with
  | none => s
  | some r => ((s.forgetReplica key r).dropFrame r.frameFpa).freeFrame (frameKey r.frameFpa)

/-- This chip drops a replica that it holds and tells the page's home (R256, log entry 33). -/
def State.dropHeld (s : State) (key : Nat) (r : Replica) : State :=
  (s.freeReplica key).sendDir 8 (key / 2 ^ 28) (dirMsg r.partition (r.page % 2 ^ 31) (key * 2 ^ 21) 0 0 0 0) .drop

/-- Fills of a replica's blocks that are in flight return their data and set no valid bit (R255). -/
def spoil (key a b : Nat) (k : Cont) : Cont :=
  match k with
  | .fill key' blk off len k' => if key' = key ∧ a ≤ blk ∧ blk ≤ b then .fill (2 ^ 64) blk off len k' else k
  | _ => k

def State.spoilFills (s : State) (key a b : Nat) : State :=
  { s with fabric := { s.fabric with
      track := s.fabric.track.map (fun (t : Nat × Track) => (t.1, { t.2 with cont := spoil key a b t.2.cont })),
      waitTag := s.fabric.waitTag.map (fun w => (w.1, spoil key a b w.2.1, w.2.2)) } }

/-- One free near frame; which slice and which frame is a free value (log entry 10). -/
def State.nearPick (s : State) : Option Nat :=
  let us := ((List.range 16).map (16 + ·)).filter (fun u => decide (0 < s.freeCount u))
  match (us.drop (s.free 1 % us.length)).head? with
  | none => none
  | some u => (s.pickFree u).map (fun f => u * 2 ^ 22 + f)

/-- A free far frame, from the unit with the most (R247). -/
def State.farPick (s : State) (p : Nat) : Option Nat :=
  match s.initialUnit 2 0 p with
  | none => none
  | some u => (s.pickFree u).map (fun f => u * 2 ^ 22 + f)

def keyFpa (chip k : Nat) : Nat := chip * 2 ^ 49 + k * 2 ^ 21

/-! ### Installs (R45 to R50, R79) -/

/-- Whether a request equals an entry or a pending install in what it fixes (R46). -/
def installSame (a b : MapInstall) : Bool :=
  a.partition == b.partition && a.page == b.page && a.perm == b.perm && a.pinNear == b.pinNear &&
    a.pinFar == b.pinFar && a.pinHome == b.pinHome && a.noReplica == b.noReplica && a.staleOk == b.staleOk &&
    a.prefer == b.prefer

def PmEntry.sameAs (e : PmEntry) (b : MapInstall) : Bool :=
  e.partition == b.partition && e.page == b.page && e.perm == b.perm && e.pinNear == b.pinNear &&
    e.pinFar == b.pinFar && e.pinHome == b.pinHome && e.noReplica == b.noReplica && e.staleOk == b.staleOk &&
    e.prefer == b.prefer && (b.frameMode != 0 || b.frameFpa == e.fpa)

/-- Step 1 of R79. -/
def mapFormat (b : MapInstall) : Bool :=
  b.reserved || bit b.page 30 || b.frameMode == 3 || ((b.frameMode == 1 || b.frameMode == 2) && b.frameFpa % 2 ^ 49 != 0) ||
    (b.frameMode == 0 && b.frameFpa % 2 ^ 21 != 0) ||
    (b.frameMode == 0 && (decide (fpaUnit b.frameFpa < 16) || decide (36 ≤ fpaUnit b.frameFpa))) || (b.pinNear && b.pinFar)

/-- Entries of a set with the installs that will take one. DESIGN CHOICE (log entry 126): an install accepted and not yet completed
counts toward the 16 of R43 and toward XLAT_PM_FULL; the spec counts it as an entry in R46 alone. -/
def State.setLoad (s : State) (p page : Nat) : Nat :=
  s.pmWays p page + s.xlat.installs.countP (fun i => pmSet i.body.partition i.body.page == pmSet p page)

/-- A frame of this chip for a page: the error, or the frame and whether it was taken free (R30, R49, Table 16-3). `mode`
0 names a frame. -/
def State.homeFrame (s : State) (p page mode fpa : Nat) (other : Bool) : Err × Nat × Bool :=
  if mode = 0 then
    if !s.populated (fpaUnit fpa) (bits fpa 42 21) then (.bounds, 0, false)
    else if (s.frameRec (frameKey fpa)).isNone ∧ !s.isLost (fpaUnit fpa) (bits fpa 42 21) then
      if s.quotaFull p (fpaUnit fpa) then (.resource, 0, false) else (.none, frameKey fpa, true)
    else match s.pmFind p page with
      | some (_, e) => if other ∧ e.chip = s.chip ∧ e.fpa = mkFpa s.chip (fpaUnit fpa) (fpaOff fpa) then (.none, frameKey fpa, false)
                       else (.resource, 0, false)
      | none => (.resource, 0, false)
  else if other ∧ (s.pmFind p page).isSome then (.resource, 0, false)
  else match s.initialUnit mode page p with
    | none => (.resource, 0, false)
    | some u =>
      if s.quotaFull p u then (.resource, 0, false)
      else match s.pickFree u with
        | some f => (.none, u * 2 ^ 22 + f, true)
        | none => (.resource, 0, false)

/-- The lowest free way of a page's set. -/
def State.freeWay (s : State) (p page : Nat) : Option Nat :=
  ((List.range 16).map (fun w => pmSet p page * 16 + w)).find? (fun i => (tget i s.xlat.pageMap).isNone)

/-- Writes an entry (R45). -/
def State.writeEntry (s : State) (b : MapInstall) (fpa : Nat) : State :=
  match s.freeWay b.partition b.page with
  | none => s
  | some i =>
    let dir := if fpaChip fpa = s.chip then
        (s.parser.dir.find? (fun d => d.2.frame == frameKey fpa)).elim noDir Prod.fst
      else 0
    s.setPm i { partition := b.partition, page := b.page, chip := fpaChip fpa, unit := fpaUnit fpa,
                frame := bits fpa 42 21, perm := b.perm, pinNear := b.pinNear, pinFar := b.pinFar, pinHome := b.pinHome,
                noReplica := b.noReplica, staleOk := b.staleOk, prefer := b.prefer,
                installTense := s.tense b.partition, dirIndex := dir, replicated := false, migrating := false,
                poison := false }

/-- Answers a MAP_INSTALL (Table 3-9); FRAME_FPA of a refusal is free (log entry 36). -/
def State.answerInstall (s : State) (path : Path) (reqId : Nat) (e : Err) (fpa : Nat) : State :=
  (s.answer path reqId 0x20 (statusBody e (packBytes [(64, if e = .none then fpa else s.free 9)]))).freshen

/-- What OLD_FRAME of a DIR_REGISTER holds: the frame, or the home chip and FRAME_MODE where the frame is left open (log
entry 27). -/
def registerFrame (b : MapInstall) : Nat := if b.frameMode = 0 then b.frameFpa else b.frameFpa / 2 ^ 49 * 2 ^ 49 + b.frameMode

def newInstall (b : MapInstall) (path : Path) (reqId fpa : Nat) (atHome : Bool) (f : Option FaultRec) : Install :=
  { body := b, path := path, reqId := reqId, frameFpa := fpa, also := [], atHome := atHome, fault := f }

/-- Steps 2 and 3 of R79, once the format is right. -/
def State.tryInstall (s : State) (b : MapInstall) (path : Path) (reqId : Nat) : State :=
  let no := fun (e : Err) => s.answerInstall path reqId e 0
  match s.partErr b.partition with
  | .none =>
    match s.pmFind b.partition b.page, s.xlat.installs.find? (fun i => i.body.partition == b.partition && i.body.page == b.page) with
    | some (_, e), _ => if e.sameAs b then s.answerInstall path reqId .none e.fpa else no .resource
    | none, some i =>
      if installSame i.body b ∧ (b.frameMode ≠ 0 ∨ (i.frameFpa = b.frameFpa ∧ i.frameFpa ≠ 0)) then
        { s with xlat := { s.xlat with installs := s.xlat.installs.map (fun j =>
            if j.body.partition = b.partition ∧ j.body.page = b.page then { j with also := j.also ++ [(path, reqId, b)] }
            else j) } }
      else no .resource
    | none, none =>
      if 16 ≤ s.setLoad b.partition b.page then
        ((s.count R.XLAT_PM_FULL_COUNT).set R.XLAT_PM_FULL_LAST_SET (pmSet b.partition b.page)).answerInstall path reqId
          .resource 0
      else if fpaChip b.frameFpa = s.chip then
        match s.homeFrame b.partition b.page b.frameMode b.frameFpa false with
        | (.none, k, _) =>
          let s := s.takeFrame k { owner := b.partition, page := b.page, use := .page }
          let i := newInstall b path reqId (keyFpa s.chip k) false (s.pendingFault b.partition b.page)
          (({ s with xlat := { s.xlat with installs := s.xlat.installs ++ [i] } }).resolveFault b.partition b.page).freshen
        | (e, _, _) => no e
      else if s.unreachable (fpaChip b.frameFpa) then no .unreachable
      else
        let i := newInstall b path reqId (if b.frameMode = 0 then b.frameFpa else 0) true (s.pendingFault b.partition b.page)
        let s := ({ s with xlat := { s.xlat with installs := s.xlat.installs ++ [i] } }).resolveFault b.partition b.page
        s.sendDir 1 (fpaChip b.frameFpa) (dirMsg b.partition b.page (registerFrame b) 0 0 0 0)
          (.dir 1 b.partition b.page (fpaChip b.frameFpa))
  | e => no e

/-- A MAP_INSTALL completes: the entry is written, a fault record of its key made since it was accepted is resolved (R75),
the requests that wait with it are answered, or checked anew when it fails (R46). -/
def State.endInstall (s : State) (p page : Nat) (e : Err) (fpa : Nat) : State :=
  match s.xlat.installs.find? (fun i => i.body.partition == p && i.body.page == page) with
  | none => s
  | some i =>
    let s := { s with xlat := { s.xlat with
      installs := s.xlat.installs.filter (fun j => !(j.body.partition == p && j.body.page == page)) } }
    if e = .none then
      let s := ((s.writeEntry i.body fpa).resolveFault p page).answerInstall i.path i.reqId .none fpa
      i.also.foldl (fun s (path, r, _) => s.answerInstall path r .none fpa) s
    else
      let s := (i.fault.elim s s.restoreFault).answerInstall i.path i.reqId e 0
      i.also.foldl (fun s (path, r, b) => s.tryInstall b path r) s

/-- A response frame of the directory exchange: bit 7 of OP set, STATUS filled in (R253). -/
def State.dirAnswer (s : State) (m : DirMsg) (op : Nat) (e : Err) (old new : Nat) : State :=
  let body := dirBytes (op + 128) e { m with oldFrame := old, newFrame := new }
  s.sendResponse m.src m.tag m.partition (s.tense m.partition) 0xd .none (fpaUnit m.oldFrame) body false

/-- DIR_REGISTER at the home (R49, R50, R79): the frame, its zero fill, the registration. -/
def State.registerAtHome (s : State) (m : DirMsg) : State :=
  let mode := m.oldFrame % 2 ^ 21
  let no := fun (e : Err) => s.dirAnswer m 1 e m.oldFrame 0
  match s.partErr m.partition with
  | .none =>
    match s.homeFrame m.partition m.page mode m.oldFrame true with
    | (.none, k, new) =>
      let s1 := if new then (s.takeFrame k { owner := m.partition, page := m.page, use := .page }).freshen else s
      match s1.register m.partition m.page k m.src with
      | none => no .resource
      | some s2 =>
        if new then { s2 with xlat := { s2.xlat with
            homeFills := tset k (m.src, m.tag, m.partition, m.page) s2.xlat.homeFills } }
        else s2.dirAnswer m 1 .none (keyFpa s.chip k) 0
    | (e, _, _) => no e
  | e => no e

/-- Lines of a run of this chip's memory, from a line on, that some tile of it may have a copy of. -/
def State.tileLines (s : State) (first n : Nat) : List Nat :=
  let held := s.home.tiles.flatMap (fun (t : Nat × Tile) =>
    tkeys t.2.l1 ++ (t.2.entries.filter (fun e => !e.2.stale)).map (fun (e : Nat × StreamEntry) => e.2.line))
  ((held ++ tkeys s.home.lines).filter (fun l => decide (first ≤ l) && decide (l < first + n))).dedup

/-- Removes the copies of lines through the rings and from their sharers, then goes on (R128, R133). -/
def State.removeLines (s : State) (ls : List Nat) (p : Nat) (k : Cont) : State :=
  match ls with
  | [] => s.finish k .none []
  | _ =>
    let g := s.home.nextGather
    ls.zipIdx.foldl (fun s (l, i) => s.removeLine (l * 128) p (.part g i)) (s.openGather ls.length k)

/-- The zero fill of a frame has ended (R357): its install completes, here or for the chip that asked. -/
def State.frameZeroed (s : State) (frameFpa : Nat) : State :=
  let k := frameKey frameFpa
  match tget k s.xlat.homeFills with
  | some (src, tag, p, page) =>
    let s := { s with xlat := { s.xlat with homeFills := terase k s.xlat.homeFills } }
    ((s.zeroFrame k).dirAnswer { dirMsg p page frameFpa 0 0 0 0 with src := src, tag := tag } 1 .none frameFpa 0)
  | none =>
    match s.xlat.installs.find? (fun i => !i.atHome && i.frameFpa == frameFpa) with
    | some i => (s.zeroFrame k).endInstall i.body.partition i.body.page .none frameFpa
    | none => s

/-- A frame has been filled with zeros: copies of its old bytes leave every L1 before its install completes. -/
def State.filled (s : State) (frameFpa : Nat) : State :=
  let first := frameFpa / 128
  let shared := ((tkeys s.home.sharers).filter (fun l =>
    decide (first % 2 ^ 42 ≤ l) && decide (l < first % 2 ^ 42 + 16384))).map (fun l => first / 2 ^ 42 * 2 ^ 42 + l)
  let owner := ((s.frameRec (frameKey frameFpa)).map FrameRec.owner).getD 0
  if (tget (frameKey frameFpa) s.xlat.homeFills).isNone ∧ s.xlat.installs.all (fun i => i.atHome || i.frameFpa != frameFpa) then s
  else s.removeLines (s.tileLines first 16384 ++ shared).dedup owner (.zeroed frameFpa)

/-! ### Migrations (R251) -/

def Migration.is (m : Migration) (p page : Nat) : Bool := m.partition == p && m.page == page

def State.migration (s : State) (p page : Nat) : Option Migration := s.parser.migrations.find? (·.is p page)

def State.modMig (s : State) (p page : Nat) (f : Migration → Migration) : State :=
  { s with parser := { s.parser with migrations := s.parser.migrations.map (fun m => if m.is p page then f m else m) } }

/-- Registered chips of a migrating page. -/
def State.regsOf (s : State) (m : Migration) : List Nat :=
  match s.parser.dir.find? (fun d => d.2.frame == frameKey m.oldFpa ||
      (fpaChip m.newFpa == s.chip && d.2.frame == frameKey m.newFpa)) with
  | some (_, d) => d.registered
  | none => []

/-- Sends one operation of Table 10-5 to every registered chip of a migration. -/
def State.tellRegs (s : State) (m : Migration) (op : Nat) (heat : Nat) (wait : Bool) : State :=
  (s.regsOf m).foldl (fun s c =>
    s.sendDir op c (dirMsg m.partition m.page m.oldFpa (if op = 4 then m.newFpa else 0) 0 0 heat)
      (if wait then .dir op m.partition m.page c else .drop)) s

/-- Gives back the frame that another chip took for a rehoming. DESIGN CHOICE (log entry 134): PM_RELEASE, which the retry of step 3
sends too, keeps the offered frame; DIR_UNREGISTER of it, whose record there names this chip, frees it. -/
def State.giveBackOffer (s : State) (c p page newFpa : Nat) : State :=
  s.sendDir 2 c (dirMsg p page newFpa 0 0 0 0) .drop

/-- Abandons a migration: PM_RELEASE, the target frame free, the page in place, held accesses released (R51, R251). -/
def State.abandon (s : State) (p page : Nat) : State :=
  match s.migration p page with
  | none => s
  | some m =>
    if 5 ≤ m.step then s
    else
      let s := { s with parser := { s.parser with migrations := s.parser.migrations.filter (fun n => !n.is p page) } }
      let s := if 1 ≤ m.step then s.tellRegs m 5 0 false else s
      let s := if fpaChip m.newFpa = s.chip then s.freeFrame (frameKey m.newFpa)
        else match m.rehome with
          | some c => if 1 ≤ m.step then s.giveBackOffer c p page m.newFpa else s
          | none => s
      let s := s.modHome p page (frameKey m.oldFpa) (fun e => { e with migrating := false })
      (s.count R.PARSER_COUNT_ABANDONED).endQuiet

/-- Copies a run of bytes to the new frame: poison goes with the bytes; another chip's frame is written by WR. -/
def State.copyRun (s : State) (m : Migration) (off len : Nat) : State :=
  let u := fpaUnit m.oldFpa
  let a := memKey u (fpaOff m.oldFpa + off)
  let data := memRead s.mem a len
  if fpaChip m.newFpa = s.chip then
    let b := memKey (fpaUnit m.newFpa) (fpaOff m.newFpa + off)
    let move := fun (l : List Nat) => l.filter (fun k => !(decide (b / 128 ≤ k) && decide (k < (b + len) / 128))) ++
      (l.filter (fun k => decide (a / 128 ≤ k) && decide (k < (a + len) / 128))).map (fun k => k - a / 128 + b / 128)
    { s with mem := memWrite (memClear s.mem b len) b data,
             home := { s.home with poisoned := move s.home.poisoned, badTags := move s.home.badTags } }
  else
    (s.modMig m.partition m.page (fun n => { n with copying := n.copying + 1 })).issueWrite (m.newFpa + off) data m.partition
      (.copied m.partition m.page) 140 false none

/-- The whole page. -/
def State.copyPage (s : State) (m : Migration) : State :=
  (List.range 512).foldl (fun s i => s.copyRun m (4096 * i) 4096) s

/-- A step of a migration is not taken while brake holds or the partition drains (R249, Table 16-4). -/
def State.mayMove (s : State) (p : Nat) : Bool := !s.flag R.PWR_STAT_BRAKE && s.get (R.PART_STATE_STATE p) == 1

/-- Step 3: PM_PREPARE goes to each registered chip. -/
def State.prepare (s : State) (p page : Nat) : State :=
  match s.migration p page with
  | none => s
  | some m =>
    let s := s.modMig p page (fun n => { n with step := if s.regsOf m = [] then 4 else 3, waiting := s.regsOf m, refused := false })
    s.tellRegs m 3 0 true

/-- A PM_PREPARE reply. An unreachable registered chip ends the migration (R50, log entry 127). -/
def State.prepared (s : State) (p page c : Nat) (e : Err) : State :=
  match s.migration p page with
  | none => s
  | some m =>
    if m.step ≠ 3 ∨ !m.waiting.contains c then s
    else
      let m' := { m with waiting := m.waiting.filter (· != c), refused := m.refused || e != .none }
      if e = .unreachable then s.abandon p page
      else if m'.waiting ≠ [] then s.modMig p page (fun _ => m')
      else if m'.refused then (s.modMig p page (fun _ => m')).tellRegs m' 5 0 false
      else s.modMig p page (fun _ => { m' with step := 4 })

/-- Whether this chip's clauses hold no extent in a frame. -/
def State.noExtent (s : State) (frameFpa : Nat) : Bool :=
  s.work.clauses.all (fun (c : Nat × Clause) =>
    c.2.stage == .done || c.2.extents.all (fun e => frameOf e.fpa != frameOf frameFpa)) &&
    s.security.loads.all (fun (l : Nat × Load) => (l.2.pkg ++ l.2.dst).all (fun e => frameOf e.fpa != frameOf frameFpa))

/-- Whether no access that has reached the home agent is in flight there for a frame (R22). -/
def State.quiet (s : State) (frameFpa : Nat) : Bool :=
  let out := fun (a : HeldAccess) => frameOf a.fpa != frameOf frameFpa
  s.home.ops.all (fun (o : Nat × HomeOp) => out o.2.acc) && s.home.farWait.all out && s.home.orderWait.all out

/-- Steps 5 and 6: the entry switches, forwarding begins, held accesses go on to the new frame, PM_UPDATE goes out. -/
def State.switch (s : State) (p page : Nat) : State :=
  match s.migration p page with
  | none => s
  | some m =>
    let heat := ((tget (frameKey m.oldFpa) s.parser.heat).getD Heat.zero)
    let s := s.modHome p page (frameKey m.oldFpa) (fun e =>
      { e with chip := fpaChip m.newFpa, unit := fpaUnit m.newFpa, frame := bits m.newFpa 42 21 })
    let s := { s with parser := { s.parser with forward := tset (frameKey m.oldFpa) m.newFpa s.parser.forward } }
    let s := if fpaChip m.newFpa = s.chip then
        let k := frameKey m.newFpa
        let s := { s with xlat := { s.xlat with frames := tmod k (fun r => { r with use := .page }) s.xlat.frames } }
        -- From here the record is that of the new frame.
        let s := { s with parser := { s.parser with dir := s.parser.dir.map (fun (d : Nat × DirRec) =>
          (d.1, if d.2.frame = frameKey m.oldFpa then { d.2 with frame := k } else d.2)) } }
        { s with parser := { s.parser with heat := tset k { Heat.zero with heat := heat.heat, wheat := heat.wheat, c := heat.c } s.parser.heat } }
      else s
    let s := s.modMig p page (fun n => { n with step := 6, quiesce := false, waiting := s.regsOf m })
    (s.tellRegs m 4 heat.heat true).endQuiet

/-- Step 4 (R251): new accesses to the page are held; once none is in flight at the old home agent and no clause holds an extent in
the frame, the written blocks are copied again, and when every copy has been performed the entry switches (R107). -/
def State.moveOn (s : State) (p page : Nat) : State :=
  match s.migration p page with
  | none => s
  | some m =>
    if m.step ≠ 4 ∨ !m.quiesce then s
    else if !s.mayMove p then s.abandon p page
    else if !s.quiet m.oldFpa ∨ !s.noExtent m.oldFpa then s
    else
      let s := m.dirty.foldl (fun s b => s.copyRun m (4096 * b) 4096) (s.modMig p page (fun n => { n with dirty := [] }))
      match s.migration p page with
      | some m => if m.copying = 0 then s.switch p page else s
      | none => s

def State.moveAll (s : State) : State :=
  (s.parser.migrations.filter (fun m => m.quiesce)).foldl (fun s m => s.moveOn m.partition m.page) s

/-- A copy to another chip's frame has been performed; one that failed ends the migration (R251). -/
def State.copied (s : State) (p page : Nat) (e : Err) : State :=
  let s := s.modMig p page (fun n => { n with copying := n.copying - 1 })
  if e = .none then s else s.abandon p page

/-- Step 7: forwarding ends, the old frame is free, MIGRATING clears. -/
def State.finishMove (s : State) (p page : Nat) : State :=
  match s.migration p page with
  | none => s
  | some m =>
    let old := frameKey m.oldFpa
    let new := frameKey m.newFpa
    let s := { s with parser := { s.parser with migrations := s.parser.migrations.filter (fun n => !n.is p page),
                                                forward := terase old s.parser.forward,
                                                heat := terase old s.parser.heat } }
    let s := if fpaChip m.newFpa = s.chip then
        let s := { s with parser := { s.parser with
          heat := tmod new (fun h => { h with hold := s.get R.PARSER_CTL_RESIDENCY }) s.parser.heat } }
        s.modPm p page (fun e => { e with migrating := false })
      else
        -- The record passes to the new home; this chip keeps its entry as a registered chip (R252).
        let s := { s with parser := { s.parser with dir := s.parser.dir.filter (fun d => d.2.frame != old) } }
        s.modPm p page (fun e => { e with migrating := false, dirIndex := 0, replicated := false })
    ((s.dropFrame m.oldFpa).freeFrame old).count R.PARSER_COUNT_MIGRATIONS

/-- A PM_UPDATE reply; an unreachable chip counts as having replied, and its registration ends. -/
def State.updated (s : State) (p page c : Nat) (e : Err) : State :=
  match s.migration p page with
  | none => s
  | some m =>
    let s := s.modMig p page (fun n => { n with waiting := n.waiting.filter (· != c) })
    if e = .unreachable then s.unregister (if fpaChip m.newFpa = s.chip then frameKey m.newFpa else frameKey m.oldFpa) c else s

/-- A response of the directory exchange has come back (or ended with an error). -/
def State.dirDone (s : State) (op p page c : Nat) (e : Err) (data : List Byte) : State :=
  match op with
  | 1 =>
    -- A request that ended while the home was asked (R357) gives its registration back.
    if e = .none ∧ !s.xlat.installs.any (fun i => i.body.partition == p && i.body.page == page) then
      s.sendDir 2 c (dirMsg p page (fieldAt data 8 8) 0 0 0 0) .drop
    else s.endInstall p page e (fieldAt data 8 8)
  | 3 => s.prepared p page c e
  | 4 => s.updated p page c e
  | 6 =>
    -- `page` is the frame of the page or region; the record was taken when REPL_PLACE went (R253, log entry 128).
    match s.parser.dir.find? (fun d => d.2.frame == page && d.2.placing.contains c) with
    | some (i, d) =>
      let d := { d with placing := d.placing.filter (· != c) }
      if e ≠ .none then (s.setDirRec i d).pruneDir i
      else
        (s.setDirRec i { d with replicas := d.replicas ++ [c], placed := tset c s.parser.epochs d.placed }).modHome
          d.partition d.page page (fun e => { e with replicated := true })
    | none => s
  | 8 => s.replicaGone page c false
  | 0x18 => s.replicaGone page c true
  | 9 =>
    if e ≠ .none then
      { s with parser := { s.parser with migrations := s.parser.migrations.filter (fun n => !(n.is p page && n.step == 0)) } }
    else match s.migration p page with
      | some m =>
        if m.step = 0 ∧ m.rehome = some c then
          -- The offer was taken: step 1.
          let m := { m with newFpa := fieldAt data 16 8, step := 1 }
          ((s.modMig p page (fun _ => m)).modHome p page (frameKey m.oldFpa) (fun e => { e with migrating := true })).copyPage m
        else s.giveBackOffer c p page (fieldAt data 16 8)
      | none => s.giveBackOffer c p page (fieldAt data 16 8)
  | _ => s

/-- The tiles have no copy of a replica's lines any more: the request that asked for it is answered. A dropped replica's frame,
named by `newFrame`, is free from here (R255, R256). -/
def State.dirReplied (s : State) (op : Nat) (m : DirMsg) : State :=
  let s := if op = 8 then s.freeFrame (frameKey m.newFrame) else s
  s.dirAnswer m op .none m.oldFrame 0

/-! ### Requests of the exchange at this chip -/

/-- R291 and R388 for directory traffic: a DISABLED partition is refused; REPL_DROP, DIR_UNREGISTER and PM_RELEASE of a
DRAINING one are served, since drains and pending withdrawals need them (Table 16-4). -/
def State.dirErr (s : State) (m : DirMsg) (op : Nat) : Err :=
  match s.get (R.PART_STATE_STATE m.partition) with
  | 0 => .partition
  | 1 => .none
  | _ => if op = 1 ∨ op = 6 ∨ op = 9 then .disabled else .none

/-- Runs a directory request that passes its checks. -/
def State.dirRequest (s : State) (m : DirMsg) (op : Nat) (f : State → State) : State :=
  match s.dirErr m op with
  | .none => f s
  | .partition => (s.violate 1 (some m.partition) m.oldFrame .partition 140).dirAnswer m op .partition m.oldFrame 0
  | e => s.dirAnswer m op e m.oldFrame 0

/-- A frame of this chip that belongs to another partition, or is free (R388). -/
def State.notOwner (s : State) (m : DirMsg) : Bool :=
  decide (16 ≤ fpaUnit m.oldFrame) &&
    (match s.frameRec (frameKey m.oldFrame) with
     | some r => r.owner != m.partition
     | none => true)

/-- Runs a request about a frame of this chip for its owner alone. -/
def State.ownerOnly (s : State) (m : DirMsg) (op : Nat) (f : State → State) : State :=
  if s.notOwner m then (s.violate 2 (some m.partition) m.oldFrame .partition 140).dirAnswer m op .partition m.oldFrame 0
  else f s

/-- Whether an access of this chip to a frame is in flight. -/
def State.inFlightTo (s : State) (frameFpa : Nat) : Bool :=
  s.fabric.track.any (fun (t : Nat × Track) => t.2.opcode ≤ 3 && frameOf t.2.dest == frameOf frameFpa) ||
    s.fabric.waitTag.any (fun w => w.1.art.opcode ≤ 3 && frameOf w.1.art.dest == frameOf frameFpa) ||
    s.edge.directs.any (fun (d : Nat × DirectRec) => frameOf d.2.fpa == frameOf frameFpa)

/-- PM_UPDATEs whose old frame no access of this chip reaches any more are answered. -/
def State.answerUpdates (s : State) : State :=
  s.parser.updates.foldl (fun s (m, old, new) =>
    if s.inFlightTo old then s
    else
      let s := { s with parser := { s.parser with updates := s.parser.updates.filter (fun u => u != (m, old, new)) } }
      s.dirAnswer m 4 .none old new) s

/-- Entry, replica key and holds after PM_UPDATE; a new home takes the frame it offered and the record. -/
def State.takeUpdate (s : State) (m : DirMsg) : State :=
  let s := s.modPm m.partition m.page (fun e =>
    { e with chip := fpaChip m.newFrame, unit := fpaUnit m.newFrame, frame := bits m.newFrame 42 21 })
  let s := match tget (m.oldFrame / 2 ^ 21) s.parser.replicas with
    | some r => { s with parser := { s.parser with
        replicas := tset (m.newFrame / 2 ^ 21) r (terase (m.oldFrame / 2 ^ 21) s.parser.replicas) } }
    | none => s
  let s := { s with parser := { s.parser with holding := s.parser.holding.filter (· != (m.partition, m.page)) } }
  if fpaChip m.newFrame = s.chip then
    let k := frameKey m.newFrame
    let s := { s with xlat := { s.xlat with frames := tmod k (fun r => { r with use := .page }) s.xlat.frames } }
    -- A replica on the new home ends; other registered chips, and the replicas among them, are what the record that passes
    -- lists (R252, log entry 28).
    let s := s.freeReplica (m.newFrame / 2 ^ 21)
    let chips := ((m.src :: Config.passedChips s.fresh).filter (· != s.chip)).dedup
    let reps := (chips.filter (Config.passedReplicas s.fresh).contains).take 3
    let s := match s.takeDir m.partition m.page k with
      | some (s, i, d) => (s.setDirRec i { d with registered := chips, replicas := reps }).modHome m.partition m.page k
          (fun e => { e with replicated := e.replicated || reps != [] })
      | none => s
    let s := { s with parser := { s.parser with
      heat := tset k { Heat.zero with heat := m.heat, wheat := s.free 0 % 65536, hold := s.get R.PARSER_CTL_RESIDENCY } s.parser.heat } }
    s.freshen
  else s

/-! ### Withdrawals (R65 to R71) -/

/-- R64: an in-flight translation of age 127, or 1,024 withdrawals pending. -/
def State.withdrawBusy (s : State) (p : Nat) : Bool :=
  s.oldestAge p ≥ 127 || 1024 ≤ s.xlat.withdrawals.length

/-- The tense of a withdrawal; every clause of the hold set is cancelled when ABORT is 1. -/
def State.openWithdrawal (s : State) (w : Withdrawal) : State :=
  let s := { s with xlat := { s.xlat with withdrawals := s.xlat.withdrawals ++ [w] } }
  if w.abort then
    w.hold.foldl (fun s h => match h with
      | .clause id => s.cancel id
      | .weight id => { s with security := { s.security with
          loads := tmod id (fun l => { l with cancelled := true }) s.security.loads } }
      | _ => s) s
  else s

/-- Clauses and direct requests of a partition that hold a range of FVAs. -/
def State.holders (s : State) (p lo hi : Nat) : List Holder :=
  (s.work.clauses.filterMap (fun (c : Nat × Clause) =>
    if c.2.partition = p ∧ c.2.origin.isNone ∧ c.2.stage ≠ .done ∧ c.2.holds lo hi then some (Holder.clause c.1) else none)) ++
  (s.edge.directs.filterMap (fun (d : Nat × DirectRec) =>
    if d.2.partition = p ∧ d.2.addr < hi ∧ lo < d.2.addr + d.2.act.len then some (Holder.direct d.1) else none)) ++
  (s.security.loads.filterMap (fun (l : Nat × Load) =>
    if l.2.body.partition = p ∧ (l.2.pkg ++ l.2.dst).any (fun e => decide (e.fva < hi) && decide (lo < e.fva + e.len)) then
      some (Holder.weight l.1) else none))

/-- One page leaves translation: its entry as it stood, with the replicas and the migration to wait for. DESIGN CHOICE (log entry
129): a migration past its switch (steps 5 to 7) is not undone; it runs to its end, and the withdrawal waits for it. -/
def State.withdrawPage (s : State) (p page : Nat) : State × WdEntry × List Holder :=
  match s.pmFind p page with
  | none => (s, { page := page, mapped := false, frameFpa := 0, poisoned := false, dirIndex := 0 }, [])
  | some (i, e) =>
    -- The entry of a migration past its switch holds the new frame already.
    let s := s.abandon p page
    let w : WdEntry := { page := page, mapped := true, frameFpa := e.fpa, poisoned := e.poison, dirIndex := e.dirIndex }
    let reps := if e.chip = s.chip then
        (match s.parser.dir.find? (fun d => d.2.frame == frameKey e.fpa) with
         | some (_, d) => d.replicas ++ d.placing
         | none => [])
      else []
    let moves := (s.parser.migrations.filter (·.is p page)).map (fun m => Holder.move m.oldFpa)
    let s := s.clearPm i
    let s := if e.chip = s.chip then
        let k := frameKey e.fpa
        (({ s with xlat := { s.xlat with frames := tmod k (fun r => { r with use := .withheld }) s.xlat.frames } }).dropReplicas k)
      else s
    (s, w, reps.map (Holder.replica (frameKey e.fpa)) ++ moves)

/-- The regions of a window that lie on this chip, as frame keys. -/
def State.windowRegions (s : State) (e : WinEntry) : List Nat :=
  (s.parser.dir.filter (fun (d : Nat × DirRec) =>
    d.2.page == 2 ^ 31 && e.members.any (fun m =>
      m.2 == d.2.frame / 2 ^ 22 && (m.1 == s.chip || (e.altSide && Nat.xor m.1 1 == s.chip))) &&
      decide (e.devBase / 2 ^ 21 ≤ d.2.frame % 2 ^ 22) &&
      decide (d.2.frame % 2 ^ 22 ≤ (e.devBase + e.length / e.members.length - 1) / 2 ^ 21))).map
    (fun (d : Nat × DirRec) => d.2.frame)

/-- ACKED (Table 3-1): registrations end or frames are freed, then WITHDRAW_ACK (Table 3-7). -/
def State.ackWithdrawal (s : State) (w : Withdrawal) : State :=
  let s := { s with xlat := { s.xlat with withdrawals := s.xlat.withdrawals.filter (fun v => v.id != w.id) } }
  let r := w.entries.foldl (fun (a : State × List (List Byte)) e =>
    if w.window.isSome then
      let i := w.window.getD 0
      let s := { a.1 with xlat := { a.1.xlat with winWithdrawing := a.1.xlat.winWithdrawing.filter (· != i) } }
      (s, a.2 ++ [packBytes [(1, b2n e.mapped), (1, b2n e.mapped), (46, 0), (16, i)]])
    else if !e.mapped then (a.1, a.2 ++ [leBytes 8 0])
    else if fpaChip e.frameFpa = a.1.chip then
      let s := a.1.maybeFree (frameKey e.frameFpa)
      let freed := (s.frameRec (frameKey e.frameFpa)).isNone
      (s, a.2 ++ [packBytes [(1, 1), (1, b2n freed), (1, b2n e.poisoned), (18, 0), (43, e.frameFpa / 2 ^ 21)]])
    else
      let s := a.1.sendDir 2 (fpaChip e.frameFpa) (dirMsg w.partition e.page e.frameFpa 0 0 0 0) .drop
      (s, a.2 ++ [packBytes [(1, 1), (1, 0), (1, b2n e.poisoned), (18, 0), (43, e.frameFpa / 2 ^ 21)]])) (s, [])
  let s := r.1
  let body := packBytes [(32, w.id), (12, w.partition), (4, 0), (8, w.tense), (8, w.entries.length - 1), (32, w.aborted),
    (32, 0)] ++ r.2.flatten
  let s := s.sample 7 (s.since w.tick) none (some w.partition)
  let s := s.less (R.XLAT_TENSE_PENDING_WD w.partition)
  -- The message is kept so that a repeated request gets it again (R70).
  let s := { s with xlat := { s.xlat with acked := tset w.id (leBytes 4 s.ownId ++ body) s.xlat.acked } }
  s.sendOwn 0x29 body

end Sys2Proof.Machine
end

