-- ==== Sys2Proof/Machine/Clauses.lean ====
section
/-! DEFINITION. Descriptors and clauses (chapters 3, 7, 9, 10): fetching, acceptance, placement on chips and tiles,
segments, the data movement of each opcode, completion, and the timeouts of waiting clauses. -/

namespace Sys2Proof.Machine

/-! ### Fetching (R171) -/

/-- Bytes of the descriptor form that a header asks for. -/
def descLen (d : List Byte) : Nat := if descExt d then 128 else 64

def State.sqCount (s : State) (q : Nat) : Nat :=
  (s.get (R.QPAGE_SQ_TAIL q) + 2 ^ 32 - s.get (R.QPAGE_SQ_HEAD q)) % 2 ^ 32

/-- A fetch failed: the FVA is recorded, a drain starts, and the queue fetches nothing more. -/
def State.fetchFailed (s : State) (q fva : Nat) (e : Err) : State :=
  let s := s.modQueue q (fun r => { r with fetched := none, fetching := false, noFetch := true })
  if s.get (R.QPAGE_STATUS_STATE q) = 1 then (s.set (R.QPAGE_FAULT_FVA_FVA q) fva).drainQueue q e
  else s

/-- Reads one slot of a submission ring; a window check of R35 that fails is logged with it. -/
def State.fetchSlot (s : State) (q : Nat) (r : Queue) (i : Nat) : State :=
  let p := s.get (R.QPAGE_STATUS_PARTITION q)
  let fva := r.slotFva i
  let x := s.xlate p fva 0
  let s := s.modQueue q (fun r => { r with fetching := true })
  if x.err ≠ .none then (s.logWindow p fva x.err).finish (.fetch q) x.err []
  else if s.poisonedPage p fva 0 then s.finish (.fetch q) .poison []
  else s.issueRead x.fpa 64 p (.fetch q) 137 false

/-- Whether a queue may fetch now; a mode change under way pauses every fetch (R416). -/
def State.mayFetch (s : State) (q : Nat) (r : Queue) : Bool :=
  let st := s.get (R.QPAGE_STATUS_STATE q)
  (st == 1 || st == 2) && s.boot.modeChange.isNone && !r.noFetch && !r.fetching && r.fetched.isNone && !r.held && r.blocked.isNone &&
    decide (0 < s.sqCount q)

def State.fetchDescriptor (s : State) (q : Nat) : State :=
  match s.queue q with
  | some r => if s.mayFetch q r then s.fetchSlot q r (s.get (R.QPAGE_SQ_HEAD q)) else s
  | none => s

/-- A slot has been read. A 128 B descriptor whose second slot is not yet below TAIL is read again later. Where the second slot's
fetch fails HEAD stays at the first slot, while QPAGE_FAULT_FVA names the second (DESIGN CHOICE, log entry 131: R171 leaves HEAD
open there). -/
def State.fetchDone (s : State) (q : Nat) (e : Err) (data : List Byte) : State :=
  match s.queue q with
  | none => s
  | some r =>
    let head := s.get (R.QPAGE_SQ_HEAD q)
    match r.fetched with
    | none =>
      if e ≠ .none then s.fetchFailed q (r.slotFva head) e
      else if !descExt data then
        (s.modQueue q (fun r => { r with fetching := false, fetched := some (data, head) })).wrap (R.QPAGE_SQ_HEAD q)
      else if s.sqCount q < 2 then s.modQueue q (fun r => { r with fetching := false })
      else (s.modQueue q (fun r => { r with fetched := some (data, head) })).fetchSlot q r (head + 1)
    | some (d, idx) =>
      if e ≠ .none then s.fetchFailed q (r.slotFva (idx + 1)) e
      else (s.modQueue q (fun r => { r with fetching := false, fetched := some (d ++ data, idx) })).wrap (R.QPAGE_SQ_HEAD q) 2

/-! ### Acceptance (R175) -/

/-- The check of a member clause against its group: step 1 (R211). -/
def State.memberForm (s : State) (d : List Byte) (q : Nat) : Bool :=
  !isColl (descOp d) ||
    (match s.group (cGroup d) with
     | some g => g.body.queueOk q && decide (cRoot d < g.body.members)
     | none => true)

/-- Counters of this chip that a descriptor names, in the order of R175 step 2. -/
def localNames (chip : Nat) (d : List Byte) : List Nat :=
  (if descTrigEn d then [descTrigger d] else []) ++ (if descOp d = 0x42 then [fieldAt d 32 8] else []) ++
    (if descArriveEn d ∧ nameChip (descArrive d) = chip then [descArrive d] else [])

/-- Steps 1 and 2 of R175. -/
def State.earlyErr (s : State) (d : List Byte) (q p : Nat) : Err :=
  if !descOk d s.chip ∨ !s.memberForm d q then .format
  else if alignErr d then .align
  else if (localNames s.chip d).any (fun n => !s.ownsCounter p (nameIndex n)) then .partition
  else if isColl (descOp d) then
    match s.group (cGroup d) with
    | some g => if g.body.partition ≠ p then .partition else if g.state = 2 then .aborted else .none
    | none => .partition
  else .none

/-- Members of the group a descriptor names. -/
def State.membersOf (s : State) (d : List Byte) : Nat := ((s.group (cGroup d)).map (fun g => g.body.members)).getD 0

/-- Ranges whose bytes acceptance translates, each once; COPY2D touches its rows alone. -/
def State.clauseRanges (s : State) (d extra : List Byte) (q : Nat) : List Range :=
  if descOp d = 2 then (List.range (segments (leadLen d extra (s.roleFor d q)))).flatMap (segRanges d extra (s.roleFor d q))
  else operands d extra (s.roleFor d q)

/-- A tile that takes clauses: enabled and ACTIVE. -/
def State.tileOpen (s : State) (l : Nat) : Bool :=
  s.get (R.TILE_CTL_ENABLE (s.phys l)) == 1 && s.get (R.TILE_STAT_STATE (s.phys l)) == 0

def State.anyTile (s : State) : Bool := (List.range 48).any s.tileOpen

/-- Pending-trigger entries in use (R179). -/
def State.pendingTriggers (s : State) : Nat := s.work.clauses.countP (fun c => c.2.untriggered)

/-- The opcodes that run on tiles, or on a PTU. -/
def needsTile (op : Nat) : Bool := op != 0x40 && op != 0x41 && op != 0x42

/-- Bytes that a clause moves over trunks when chip x runs it (R260). -/
def State.trunkBytes (s : State) (p : Nat) (rs : List Range) (x : Nat) : Nat :=
  (rs.map (fun r => r.ops.length *
    (((s.xlRanges p [r]).extents.filter (fun e => fpaChip e.fpa != x)).map Extent.len).sum)).sum

/-- The chip that moves the fewest bytes: this one when none moves fewer, then the lowest. -/
def State.bestChip (s : State) (p : Nat) (rs : List Range) (es : List Extent) : Nat × Nat :=
  ((es.map (fun e => fpaChip e.fpa)).dedup.foldl (fun (b : Nat × Nat) c =>
    let n := s.trunkBytes p rs c
    if n < b.2 ∨ (n = b.2 ∧ b.1 ≠ s.chip ∧ c < b.1) then (c, n) else b) (s.chip, s.trunkBytes p rs s.chip))

/-- Whether warm-up has ended on the chip and for a partition (R246). -/
def State.warmedUp (s : State) (p : Nat) : Bool :=
  decide (s.get R.PARSER_CTL_WARMUP ≤ s.parser.epochs) &&
    (match tget p s.security.parts with
     | some r => decide (s.get R.PARSER_CTL_WARMUP ≤ r.warmup)
     | none => false)

/-- A clause's payload on its way to another chip (log entry 30): descriptor, further bytes, extents. -/
def clausePayload (k : Clause) : List Byte :=
  k.desc ++ k.extra ++ k.extents.flatMap (fun e => packBytes [(64, e.fva), (63, e.len), (1, b2n e.side), (64, e.fpa)])

/-- Sends a clause to the chip that R260 prefers; whether that chip has a tile free is a free value. Three kinds stay here (log
entry 30): one whose payload no single frame can carry, one with segments still to translate, since the frame gives the other
chip extents once (R55), and ATOMIC_BATCH, whose targets this chip alone can translate (R55, log entry 21). -/
def State.maybeRemote (s : State) (id : Nat) : State :=
  match s.clauseAt id with
  | none => s
  | some k =>
    let p := k.partition
    if !needsTile (descOp k.desc) ∨ isColl (descOp k.desc) ∨ k.origin.isSome ∨ k.stage ≠ .waiting ∨ k.untriggered ∨
        descOp k.desc = 6 ∨ s.get R.PARSER_CTL_REMOTE_EXEC_EN = 0 ∨ s.flag (R.PARSER_PART_NO_REMOTE_EXEC p) ∨ !s.warmedUp p ∨
        !k.covers (s.fromSeg k 0) ∨ 4096 < (clausePayload k).length then s
    else
      let rs := s.clauseRanges k.desc k.extra k.queue
      match s.bestChip p rs k.extents with
      | (c, n) =>
        if c = s.chip ∨ s.unreachable c ∨ s.trunkBytes p rs s.chip < n + s.get R.PARSER_LIMITS_REMOTE_MIN * 2 ^ 20 ∨
            s.free 2 % 2 = 0 then s
        else
          let s := (s.modClause id (fun k => { k with stage := .away, timed := true })).freshen
          s.sendRequest (s.article (mkFpa c 50 0) 7 0 p 0 k.tense 50 0 0 (clausePayload k).length) (clausePayload k)
            (.remoteClause id) 137

/-- What acceptance read, as the clause keeps it: the entries of an ALLTOALLV's COUNTS that its peers' counts will fill begin as
0 (R222). -/
def heldExtra (d extra : List Byte) (members : Nat) : List Byte :=
  if descOp d = 0x16 ∧ !lacksArrays d extra members then putBytes extra (8 * members) (List.replicate (8 * members) 0#8) else extra

/-- Step 4 and the making of the clause. DESIGN CHOICE (log entry 132): accepted clauses have no limit of their own here; R171's
pause for want of room gives no number, and the queues' own limits stand. -/
def State.acceptNow (s : State) (q : Nat) (d extra : List Byte) (idx : Nat) : State :=
  let p := s.get (R.QPAGE_STATUS_PARTITION q)
  let role := s.roleFor d q
  let extra := heldExtra d extra role.members
  match topErr (operands d extra role) with
  | some a => s.refuseClause q d .bounds a
  | none =>
    let x := s.xlRanges p (s.clauseRanges d extra q)
    match x.bad with
    | some (_, a, e) => (s.logWindow p a e).refuseClause q d e a
    | none =>
      if !s.anyTile then s.refuseClause q d .disabled 0
      else
        let id := s.work.nextClause
        let wait := descTrigEn d && decide (s.counter (nameIndex (descTrigger d)) < descThreshold d)
        let slot := s.slotOf d q p
        match (match slot with
          | some a => s.takeInstance (cGroup d) a
          | none => (s, 0)) with
        | (s, n) =>
          let k : Clause :=
            { queue := q, partition := p, origin := none, seq := idx, desc := d, extra := extra, tense := s.tense p,
              extents := x.extents, leadLen := leadLen d extra role, stage := .waiting, untriggered := wait, met := false,
              lacking := [], waitsOn := [], parkTick := 0, segment := 0, clear := 0, issued := 0, timed := false, placed := [],
              ptu := none, flying := [], failed := [], counted := [], chunks := 0, arriving := 0, arriveErr := .none,
              indices := [], ending := none, cancelled := false, inst := n, tick := s.tick }
          let k := { k with clear := s.clearSegs k }
          let s := { s with work := { s.work with clauses := tset id k s.work.clauses, nextClause := id + 1 } }
          let stops := descOp d = 0x40 ∨ descOp d = 0x42
          let s := s.modQueue q (fun r =>
            { r with fetched := none, extra := none, asking := false, held := false,
                     blocked := if stops then some id else r.blocked })
          let s := match slot with
            | some a => (s.joinInstance (cGroup d) n a id d extra q).readyOut (cGroup d)
            | none => s
          if k.covers (s.segTouch k 0) then s.maybeRemote id else s.park id

/-- Reads some ranges of FVAs for a continuation under a partition's present map; a failing check answers with its code and the
address as data, and `lacks` says what becomes of unmapped pool pages. -/
def State.readNow (s : State) (p : Nat) (rs : List (Nat × Nat)) (c : Cont) (lacks : Nat → State → State) : State :=
  let rs := rs.map (fun r => Range.mk r.1 r.2 [0])
  match topErr rs with
  | some a => s.finish c .bounds (leBytes 8 a)
  | none =>
    let x := s.xlRanges p rs
    match x.bad, x.lacking with
    | some (_, a, e), _ => (s.logWindow p a e).finish c e (leBytes 8 a)
    | none, (page, _) :: _ => lacks (max (page * 2 ^ 21) ((rs.head?.map Range.fva).getD 0)) s
    | none, [] =>
      match x.extents.find? (fun e => s.poisonedPage p e.fva 0) with
      | some e => s.finish c .poison (leBytes 8 e.fva)
      | none => s.readRuns (x.extents.map (fun e => (e.fpa, e.len))) p c 137 false

/-- Reads the bytes that step 3 asks for. An unmapped page refuses a KERNEL by its operand list; a member clause goes on without
its arrays, and parks (R34). -/
def State.askExtra (s : State) (q p : Nat) (rs : List (Nat × Nat)) (coll : Bool) : State :=
  (s.modQueue q (fun r => { r with asking := true })).readNow p rs (.extra q) (fun a s =>
    if coll then s.finish (.extra q) .none [] else s.finish (.extra q) .unmapped (leBytes 8 a))

/-- Whether a clause touches a page that this chip holds for a migration (PM_PREPARE, Table 10-4). -/
def State.touchesHeld (s : State) (d extra : List Byte) (q p : Nat) : Bool :=
  s.parser.holding.any (fun h => h.1 == p && (s.clauseRanges d extra q).any (fun r =>
    decide (r.fva < (h.2 + 1) * 2 ^ 21) && decide (h.2 * 2 ^ 21 < r.fva + r.len)))

/-- A clause that must wait for its trigger needs a pending-trigger entry (R179). -/
def State.acceptHeld (s : State) (q : Nat) (d extra : List Byte) (idx : Nat) : State :=
  if s.touchesHeld d extra q (s.get (R.QPAGE_STATUS_PARTITION q)) then
    s.modQueue q (fun r => { r with extra := some (.none, extra) })
  else if descTrigEn d ∧ s.counter (nameIndex (descTrigger d)) < descThreshold d ∧ 16384 ≤ s.pendingTriggers then
    s.modQueue q (fun r => { r with held := true, extra := some (.none, extra) })
  else s.acceptNow q d extra idx

/-- Examines the descriptor that a queue has fetched. -/
def State.accept (s : State) (q : Nat) : State :=
  match s.queue q with
  | none => s
  | some r =>
    match r.fetched with
    | none => s
    | some (d, idx) =>
      if r.asking ∨ r.fetching ∨ r.held ∨ d.length ≠ descLen d then s
      else if s.get (R.QPAGE_STATUS_STATE q) = 2 then s.refuseClause q d .disabled 0
      else
        let p := s.get (R.QPAGE_STATUS_PARTITION q)
        match s.earlyErr d q p with
        | .none =>
          let rs := extraReads d (s.membersOf d)
          match r.extra with
          | none => if rs ≠ [] ∧ (rs.map Prod.snd).sum ≠ 0 then s.askExtra q p rs (isColl (descOp d))
                    else s.acceptHeld q d [] idx
          | some (.none, bs) =>
            if descOp d = 0x30 ∧ !kernelOpsOk bs (fieldAt d 43 1) then s.refuseClause q d .format 0
            else s.acceptHeld q d bs idx
          | some (e, a) => s.refuseClause q d e (if a = [] then (rs.map Prod.fst).headD 0 else leNat a)
        | e => s.refuseClause q d e 0

/-- The bytes that acceptance asked for have come. -/
def State.extraDone (s : State) (q : Nat) (e : Err) (data : List Byte) : State :=
  (s.modQueue q (fun r => { r with extra := some (e, data), asking := false })).accept q

/-- A pending-trigger entry is free: the held descriptor is accepted (R179). -/
def State.acceptHeldNow (s : State) (q : Nat) : State :=
  match s.queue q with
  | some r => if r.held ∧ s.pendingTriggers < 16384 then (s.modQueue q (fun r => { r with held := false })).accept q else s
  | none => s

/-! ### Triggers -/

def State.trigger (s : State) (id : Nat) : State :=
  match s.clauseAt id with
  | none => s
  | some k =>
    if k.untriggered ∧ k.ending.isNone ∧
        (k.met ∨ descThreshold k.desc ≤ s.counter (nameIndex (descTrigger k.desc))) then
      (s.modClause id (fun k => { k with untriggered := false })).maybeRemote id
    else s

/-! ### Placement on tiles (R261) -/

/-- Bytes of tile store that a clause asks for. -/
def Clause.tsBytes (k : Clause) : Nat := if descOp k.desc = 0x30 then fieldAt k.desc 42 1 * 65536 else 0

/-- The lowest free range of a tile's store. -/
def Tile.room (t : Tile) (n : Nat) : Option Nat :=
  ((List.range 32).map (· * 65536)).find? (fun b => decide (b + n ≤ 2097152) &&
    t.ctxs.all (fun (c : Nat × Ctx) => decide (c.2.tsBase + c.2.tsSize ≤ b) || decide (b + n ≤ c.2.tsBase) || n == 0 || c.2.tsSize == 0))

/-- A tile's free context, if it takes a clause. -/
def State.takes (s : State) (l n : Nat) : Option (Nat × Nat) :=
  if s.tileOpen l then
    match (List.range 4).find? (fun c => (tget c (s.tile l).ctxs).isNone), (s.tile l).room n with
    | some c, some b => some (c, b)
    | _, _ => none
  else none

/-- A fresh context (R117, Table 6-5): every register 0, its store range 0, no program yet. -/
def newCtx (id : Nat) (k : Clause) (base : Nat) : Ctx :=
  { clause := id, mode := .access, pc := 0, progLen := fieldAt k.desc 40 2, prog := [], s := [], v := [], p := [], m := [], rmode := 0,
    fflags := 0, seed := 0, waitLimit := 2000, tsBase := base, tsSize := k.tsBytes,
    ops := if descOp k.desc = 0x30 then
        ((kernelOps k.extra (fieldAt k.desc 43 1)).zipIdx.filter (fun o => o.1.2.1 != 0)).map (fun o => (o.2, o.1))
      else [],
    storeErr := .none, patterns := [], ordering := false }

def State.putCtx (s : State) (id : Nat) (k : Clause) (l c base : Nat) : State :=
  let t := s.tile l
  let s := s.setTile l { t with store := memClear t.store base k.tsBytes, ctxs := tset c (newCtx id k base) t.ctxs }
  s.modClause id (fun k => { k with placed := k.placed ++ [⟨l, c⟩], stage := .running })

/-- Whether a clause's segments spread over every tile that qualifies. -/
def spreads (op : Nat) : Bool := op == 1 || op == 2 || op == 3 || isColl op

def State.place (s : State) (id : Nat) : State :=
  match s.clauseAt id with
  | none => s
  | some k =>
    if k.stage ≠ .waiting ∨ k.untriggered ∨ k.ending.isSome ∨ k.ptu.isSome ∨ !needsTile (descOp k.desc) then s
    else
      let n := k.tsBytes
      let us := (List.range 48).filterMap (fun l => (s.takes l n).map (fun cb => (l, cb)))
      if us = [] ∨ (s.work.waitTile.headD id ≠ id) then
        if s.work.waitTile.contains id then s
        else { s with work := { s.work with waitTile := s.work.waitTile ++ [id] } }
      else
        let s := { s with work := { s.work with waitTile := s.work.waitTile.filter (· != id) } }
        if spreads (descOp k.desc) then us.foldl (fun s (l, c, b) => s.putCtx id k l c b) s
        else
          let best := us.foldl (fun (b : Option (Nat × Nat × Nat)) u => match b with
            | none => some u
            | some v => if (s.tile u.1).ctxs.length < (s.tile v.1).ctxs.length then some u else some v) none
          match best with
          | some (l, c, b) => s.putCtx id k l c b
          | none => s

/-! ### Segments (R56, R59) -/

/-- Whether a member clause's instance may run: its slots are reserved and it is the chip's current one (R213, R224). -/
def State.instanceRuns (s : State) (k : Clause) : Bool :=
  match s.group (cGroup k.desc) with
  | some g => match g.current with
    | some i => i.number == k.inst && i.reserved
    | none => false
  | none => false

/-- Whether a clause has what its next segment starts on. -/
def State.seated (s : State) (id : Nat) (k : Clause) : Bool :=
  match k.ptu with
  | some u => (s.ptu u).running == some id
  | none => !k.placed.isEmpty && k.stage == .running && (!isColl (descOp k.desc) || s.instanceRuns k)

/-- Starts the next segment of a clause, or parks the clause at it. A KERNEL's segments start with its accesses. -/
def State.startSegment (s : State) (id : Nat) : State :=
  match s.clauseAt id with
  | none => s
  | some k =>
    if k.ending.isSome ∨ k.untriggered ∨ (k.stage ≠ .running ∧ k.stage ≠ .waiting) ∨ k.segs ≤ k.segment ∨
        descOp k.desc = 0x30 ∨ !s.seated id k ∨ lacksArrays k.desc k.extra (s.role k).members then s
    else if k.cancelled then s.cancel id
    else if k.covers (s.segTouch k k.segment) then
      let s := s.modClause id (fun k => { k with segment := k.segment + 1, timed := true, stage := .running })
      match k.ptu with
      | some u => s.ptuNext u
      | none =>
        if descOp k.desc = 0x20 then s.tileTransform id
        else if isColl (descOp k.desc) then s.flushLater id
        else s
    else s.park id

/-- Translates a parked clause again; a failure takes the instance of a member with it, and a clause of which no segment has
started goes where R260 sends it, now that its translation has ended. -/
def State.resumeNow (s : State) (id : Nat) : State :=
  let s := s.retranslate id
  match s.clauseAt id with
  | some k => if k.ending.isSome then s.memberFailed k else if k.timed then s else s.maybeRemote id
  | none => s

/-- Resumes a parked clause when every page of its parked segment is mapped (R61); a member clause that has no arrays yet reads
them first (log entry 130). -/
def State.resume (s : State) (id : Nat) : State :=
  match s.clauseAt id with
  | none => s
  | some k =>
    if k.stage = .parked ∧ k.ending.isNone ∧ (s.xlRanges k.partition (s.segTouch k k.segment)).lacking = [] then
      let m := (s.role k).members
      if lacksArrays k.desc k.extra m then
        (s.modClause id (fun k => { k with stage := .waiting })).readNow k.partition (extraReads k.desc m) (.arrays id)
          (fun _ s => s.park id)
      else s.resumeNow id
    else s

/-- The arrays of a member clause have been read: its operands are known, and translated (R221, R222). -/
def State.arraysDone (s : State) (id : Nat) (e : Err) (data : List Byte) : State :=
  match s.clauseAt id with
  | none => s
  | some k =>
    if k.ending.isSome then s
    else
      let r := s.role k
      let extra := heldExtra k.desc data r.members
      let fail := fun (e : Err) (a : Nat) =>
        let s := s.endClause id (ending e k.segment a)
        match s.clauseAt id with
        | some k => s.memberFailed k
        | none => s
      if e ≠ .none then fail e (if data = [] then cCounts k.desc else leNat data)
      else match topErr (operands k.desc extra r) with
        | some a => fail .bounds a
        | none =>
          let s := s.modClause id (fun k => { k with extra := extra, leadLen := leadLen k.desc extra r, extents := [] })
          let s := s.modInstance (cGroup k.desc) k.inst (fun i => if i.queue = k.queue then { i with extra := extra } else i)
          (s.resumeNow id).readyOut (cGroup k.desc)

/-! ### Ends by time -/

/-- A clause ends with a code of its own; a member clause takes its instance with it. -/
def State.endWithCode (s : State) (id : Nat) (e : Err) (seg addr : Nat) : State :=
  let s := s.endClause id (ending e seg addr)
  match s.clauseAt id with
  | some k => s.memberFailed k
  | none => s

def Clause.seg? (k : Clause) : Nat := if k.timed then k.segment else noSeg

/-- PARK_TIMEOUT: the clause, and every clause parked on a record of its that is still unresolved (R62). -/
def State.parkExpired (s : State) (id : Nat) : State :=
  match s.clauseAt id with
  | none => s
  | some k =>
    if k.stage ≠ .parked ∨ k.ending.isSome then s
    else
      let recs := k.waitsOn.filter (fun n => s.xlat.faults.any (fun f => f.serial == n))
      let ids := id :: (s.work.clauses.filterMap (fun (c : Nat × Clause) =>
        if c.1 ≠ id ∧ c.2.stage = .parked ∧ c.2.partition = k.partition ∧ c.2.ending.isNone ∧
            c.2.waitsOn.any recs.contains then some c.1 else none))
      ids.foldl (fun s i => match s.clauseAt i with
        | some k => (s.count R.XLAT_FB_COUNT_TIMEOUTS).endWithCode i .timeout k.seg? 0
        | none => s) s

/-- The queue timeout of a clause not yet started (R486): ERR_RESOURCE for a member clause whose instance waits for slots (R226),
else ERR_TIMEOUT. -/
def State.queueExpired (s : State) (id : Nat) : State :=
  match s.clauseAt id with
  | none => s
  | some k =>
    if k.timed ∨ k.ending.isSome ∨ k.stage = .parked ∨ k.stage = .done ∨ descOp k.desc = 0x40 ∨ descOp k.desc = 0x42 then s
    else
      let slots := isColl (descOp k.desc) &&
        (match s.instance_ (cGroup k.desc) k.inst with
         | some i => !i.reserved
         | none => false)
      s.endWithCode id (if slots then .resource else .timeout) noSeg 0

/-! ### Data movement -/

/-- Segments started whose data has not been issued. -/
def Clause.newSegs (k : Clause) : List Nat := (List.range (k.segment - k.issued)).map (k.issued + ·)

/-- Runs a clause's data step when it has the opcode; segments that started before the clause parked run too (R59). -/
def State.dataStep (s : State) (id op : Nat) (f : Clause → State → State) : State :=
  match s.clauseAt id with
  | some k =>
    if descOp k.desc = op ∧ k.ending.isNone ∧ k.issued < k.segment ∧ (k.stage = .running ∨ k.stage = .parked) then
      f k (s.modClause id (fun k => { k with issued := k.segment }))
    else s
  | none => s

/-- COPY and COPY2D: a read for each piece; its bytes are written when it comes. -/
def State.copyData (s : State) (id : Nat) (k : Clause) : State :=
  (k.newSegs.flatMap (copyMoves k.desc)).foldl (fun s (c, src, dst, n) =>
    (s.pieceOut id c).clauseFetch k src n (.clauseRead id c dst src)) s

/-- FILL: the pattern repeats every 8 bytes from DST. -/
def State.fillData (s : State) (id : Nat) (k : Clause) : State :=
  let dst := fieldAt k.desc 32 8
  let n := fieldAt k.desc 40 8
  let pat := (k.desc.drop 48).take 8
  (k.newSegs.flatMap (fun g => ((List.range 512).map (g * 512 + ·)).filter (fun c => decide (4096 * c < n)))).foldl
    (fun s c =>
      let m := min 4096 (n - 4096 * c)
      (s.pieceOut id c).clauseStore k (dst + 4096 * c) (((List.replicate 512 pat).flatten).take m)
        (.clauseWrite id c (dst + 4096 * c))) s

/-- Elements whose first byte lies in a segment. -/
def segElems (d : List Byte) (g : Nat) : List Nat :=
  let el := fieldAt d 60 4
  let e0 := ceilDiv (g * 2 ^ 21) el
  let e1 := min (fieldAt d 56 4) (ceilDiv ((g + 1) * 2 ^ 21) el)
  (List.range (e1 - e0)).map (e0 + ·)

/-- Chunks that a range of lead offsets touches, with the part of it in each: (chunk, offset, length). -/
def chunkParts (off len : Nat) : List (Nat × Nat × Nat) :=
  (List.range (if len = 0 then 0 else (off + len - 1) / 4096 + 1 - off / 4096)).map (fun i =>
    let c := off / 4096 + i
    let a := max off (4096 * c)
    (c, a, min (off + len) (4096 * c + 4096) - a))

/-- GATHER and SCATTER: the index word of each element is read first. -/
def State.indexData (s : State) (id : Nat) (k : Clause) (es : List Nat) : State :=
  let el := fieldAt k.desc 60 4
  es.foldl (fun s e =>
    let s := (chunkParts (e * el) el).foldl (fun s q => s.pieceOut id q.1) s
    s.clauseFetch k (fieldAt k.desc 48 8 + 4 * e) 4 (.clauseIndex id e)) s

/-- SCATTER issues its elements in the order that decides which of colliding ones stays. -/
def scatterOrder (order es : List Nat) : List Nat := (order.filter es.contains).dedup ++ es.filter (fun e => !order.contains e)

/-- An index word has come: its element is moved, or its segment fails (ERR_BOUNDS past TABLE_LEN). -/
def State.indexDone (s : State) (id e : Nat) (err : Err) (data : List Byte) : State :=
  match s.clauseAt id with
  | none => s
  | some k =>
    let d := k.desc
    let el := fieldAt d 60 4
    let seg := e * el / 2 ^ 21
    let i := leNat data
    let fva := fieldAt d 48 8 + 4 * e
    let bad := fun (s : State) (x : Err) (a : Nat) =>
      (chunkParts (e * el) el).foldl (fun s q => s.pieceIn id q.1 x seg a) s
    let table := if descOp d = 4 then fieldAt d 40 8 else fieldAt d 32 8
    if err ≠ .none then bad s err fva
    else if fieldAt d 64 8 < i * el + el then bad s .bounds (table + i * el)
    else (chunkParts (e * el) el).foldl (fun s (c, a, n) =>
      let o := a - e * el
      let src := if descOp d = 4 then table + i * el + o else fieldAt d 40 8 + a
      let dst := if descOp d = 4 then fieldAt d 32 8 + a else table + i * el + o
      s.clauseFetch k src n (.clauseRead id c dst src)) s

/-- Source bytes have come: they go to their destination. -/
def State.clauseReadDone (s : State) (id chunk dst src : Nat) (e : Err) (data : List Byte) : State :=
  match s.clauseAt id with
  | none => s
  | some k =>
    if e ≠ .none then s.pieceIn id chunk e (k.segOf chunk) src
    else s.clauseStore k dst data (.clauseWrite id chunk dst)

def State.clauseWriteDone (s : State) (id chunk fva : Nat) (e : Err) : State :=
  match s.clauseAt id with
  | none => s
  | some k => s.pieceIn id chunk e (k.segOf chunk) fva

/-! ### ATOMIC_BATCH (Table 7-12) -/

/-- The next entry whose atomic has not been issued stands under this key, and errors of entries above it. -/
def batchNext : Nat := 2 ^ 44

def Clause.batchPos (k : Clause) : Nat := (tget batchNext k.indices).getD 0

/-- Entries of the segments issued. -/
def Clause.batchEnd (k : Clause) : Nat := min (fieldAt k.desc 40 4) (k.issued * 32768)

/-- Reads the next entry; entries go one after another, so those that name one location keep list order. -/
def State.batchStep (s : State) (id : Nat) : State :=
  match s.clauseAt id with
  | none => s
  | some k =>
    if k.ending.isSome ∨ k.batchEnd ≤ k.batchPos ∨ (tget (2 ^ 45) k.indices).isSome then s
    else
      let e := k.batchPos
      let s := s.modClause id (fun k => { k with indices := tset (2 ^ 45) 1 (tset batchNext (e + 1) k.indices) })
      (s.pieceOut id (e / 64)).clauseFetch k (fieldAt k.desc 32 8 + 64 * e) 64 (.batchEntry id e)

/-- The entry's chain ends, and its target's extent with it; the next begins. -/
def State.batchNextEntry (s : State) (id : Nat) : State :=
  (s.modClause id (fun k => { k with indices := terase (2 ^ 45) k.indices,
                                     extents := if k.atTarget then k.extents.dropLast else k.extents })).batchStep id

/-- Writes STATUS, and RESULT after an atomic, back into the entry. -/
def State.batchWrite (s : State) (id e : Nat) (err : Err) (old : List Byte) : State :=
  match s.clauseAt id with
  | none => s
  | some k =>
    let a := fieldAt k.desc 32 8 + 64 * e
    let s := if err = .none then s
      else s.modClause id (fun k => { k with indices := tset (batchNext + 1 + e) err.code k.indices,
                                             failed := (e / 64) :: k.failed })
    let s := (s.pieceOut id (e / 64)).clauseStore k (a + 10) [BitVec.ofNat 8 err.code] (.clauseWrite id (e / 64) (a + 10))
    let s := if err = .none then
        (s.pieceOut id (e / 64)).clauseStore k (a + 48) (old ++ List.replicate (16 - old.length) 0#8)
          (.clauseWrite id (e / 64) (a + 48))
      else s
    (s.pieceIn id (e / 64) .none 0 0).batchNextEntry id

/-- Why an entry is not performed: its fields, its form, its translation for an atomic by the submitting chip's map as the entry is
read (log entry 21). -/
def State.batchErr (s : State) (p : Nat) (b : List Byte) : Err :=
  let op := fieldAt b 8 1
  let w := fieldAt b 9 1
  let a := fieldAt b 0 8
  if 2 < w ∨ 2 ^ 52 ≤ a ∨ !zeros b 11 5 ∨ (op ≠ 2 ∧ !zeros b 32 16) ∨ !atomicWidth op (2 ^ (w + 2)) then .format
  else if a % 2 ^ (w + 2) ≠ 0 then .align
  else
    let x := s.xlate p a 2
    if x.err ≠ .none then x.err
    else if s.poisonedPage p a 2 then .poison
    else .none

def State.batchEntryDone (s : State) (id e : Nat) (err : Err) (b : List Byte) : State :=
  match s.clauseAt id with
  | none => s
  | some k =>
    if err ≠ .none then
      (s.pieceIn id (e / 64) err (e / 32768) (fieldAt k.desc 32 8 + 64 * e))
    else
      match s.batchErr k.partition b with
      | .none =>
        let a := fieldAt b 0 8
        let w := 2 ^ (fieldAt b 9 1 + 2)
        let fpa := (s.xlate k.partition a 2).fpa
        -- The clause holds the target until its atomic is performed, so that a withdrawal waits for it (R66).
        (s.modClause id (fun k => { k with indices := tset (2 ^ 45) 2 k.indices,
                                           extents := k.extents ++ [{ fva := a, len := w, fpa := fpa, side := false }] })).issueAtomic
          fpa (fieldAt b 8 1) w (fieldAt b 16 16) (fieldAt b 32 16) k.partition (.batchAtomic id e) k.port false
      | x => (s.logWindow k.partition (fieldAt b 0 8) x).batchWrite id e x []

/-- The code and the FVA of the first failing entry in list order. -/
def Clause.batchFailure (k : Clause) : Option (Nat × Nat) :=
  (k.indices.find? (fun (i : Nat × Nat) => decide (batchNext < i.1) && i.1 != 2 ^ 45)).map (fun i =>
    (i.1 - batchNext - 1, i.2))

def errOf (c : Nat) : Err :=
  match c with
  | 0 => .none | 1 => .unmapped | 2 => .permission | 3 => .partition | 4 => .bounds | 5 => .disabled | 6 => .aborted
  | 7 => .timeout | 8 => .poison | 9 => .integrity | 10 => .unreachable | 11 => .format | 12 => .resource
  | 13 => .tense | _ => .align

/-! ### Collectives: a member's chunk is read (R216 to R222) -/

/-- Where chunk q of a member lies in its SRC; none for a chunk it does not give. -/
def State.srcPlace (s : State) (k : Clause) (q : Nat) : Option (Nat × Nat) :=
  let r := s.role k
  let d := k.desc
  if descOp d = 0x15 ∨ descOp d = 0x16 then
    match (srcBlocks d k.extra r).drop (q / 2 ^ 24) with
    | (off, len) :: _ =>
      let c := r.cut len
      let a := 4096 * (q % 2 ^ 24)
      if a < c.2 then some (off + c.1 + a, min 4096 (c.2 - a)) else none
    | [] => none
  else match chunkAt d k.extra r q with
    | none => none
    | some (blk, off, len) =>
      if descOp d = 0x13 then
        (if blk = r.rank then some (off - ((numberedBlocks d k.extra r).drop blk |>.headD (0, 0)).1, len) else none)
      else if descOp d = 0x14 then (if r.rank = cRoot d then some (off, len) else none)
      else some (off, len)

/-- The parts of a member's collective, by chip index: the chunks that its SRC gives to each, ascending (R216). -/
def State.localParts (s : State) (g : GroupCreate) (k : Clause) : List (List Nat) :=
  let r := s.role k
  (List.range g.chips).map (fun c =>
    (if descOp k.desc = 0x15 ∨ descOp k.desc = 0x16 then
      (srcBlocks k.desc k.extra r).zipIdx.flatMap (fun (b, rank) =>
        if rank / g.slotList.length = c then (List.range (ceilDiv (r.cut b.2).2 4096)).map (rank * 2 ^ 24 + ·) else [])
    else (List.range (r.chunks (numberedBlocks k.desc k.extra r)).length).filter (fun q =>
      chunkOwner k.desc k.extra r g q == c)).filter (fun q => (s.srcPlace k q).isSome))

/-- Elements of some lists in turn: the first of each, then the second of each. -/
def interleave (xss : List (List Nat)) : List Nat :=
  (List.range ((xss.map List.length).foldl max 0)).flatMap (fun j => xss.filterMap (fun xs => xs[j]?))

/-- The order of a member's reads in LOCAL: chunk 0 of each part, then chunk 1 of each part (R219). -/
def State.localOrder (s : State) (k : Clause) : List Nat :=
  match s.group (cGroup k.desc) with
  | some g => interleave (s.localParts g.body k)
  | none => []

/-- The chunk of a member that LOCAL reads next. -/
def State.localNext (s : State) (k : Clause) : Option Nat :=
  (s.localOrder k).find? (fun q => (tget (2 ^ 46 + q) k.indices).isNone)

/-- Whether the segments of a member that have started touch some bytes of its SRC. -/
def State.srcStarted (s : State) (k : Clause) (fva n : Nat) : Bool :=
  [fva, fva + n - 1].all (fun a => (List.range k.segment).any (fun g => (s.segTouch k g).any (fun r =>
    r.ops.contains 0 && decide (r.fva ≤ a) && decide (a < r.fva + r.len))))

/-- Reads chunk q of a member clause for its collective, once: when R219 comes to it, its segment has started, the instance has
sent READY, and slots are free for it (R224). -/
def State.collChunk (s : State) (id op q : Nat) : State :=
  match s.clauseAt id with
  | none => s
  | some k =>
    if descOp k.desc ≠ op ∨ k.ending.isSome ∨ !k.timed ∨ !s.instanceRuns k ∨ s.localNext k ≠ some q then s
    else match s.group (cGroup k.desc), s.instance_ (cGroup k.desc) k.inst, s.srcPlace k q with
      | some g, some i, some (off, n) =>
        if !i.readySent ∨ !s.srcStarted k (cSrc k.desc + off) n then s
        else match s.openLocal g k.inst (s.localKey g k q) (if reduces op then accSlots (cFmt k.desc) else 1) with
          | none => s
          | some s =>
            let s := s.modClause id (fun k => { k with indices := tset (2 ^ 46 + q) 1 k.indices, issued := k.segment })
            (s.pieceOut id (2 ^ 41)).clauseFetch k (cSrc k.desc + off) n (.collRead id q)
      | _, _, _ => s

/-! ### Programs (R163, Table 6-7) -/

/-- The instruction words of an image. -/
def words32 (bs : List Byte) : List (BitVec 32) :=
  (List.range (bs.length / 4)).map (fun i => BitVec.ofNat 32 (leNat ((bs.drop (4 * i)).take 4)))

/-- Loads a KERNEL's program image into the instruction memory of its context. -/
def State.loadProgram (s : State) (id : Nat) (k : Clause) : State :=
  (s.pieceOut id (2 ^ 41)).clauseFetch k (fieldAt k.desc 32 8) (4 * fieldAt k.desc 40 2) (.program id)

/-- The image has come: the context starts at index 0 (R141). -/
def State.programDone (s : State) (id : Nat) (e : Err) (data : List Byte) : State :=
  match s.clauseAt id with
  | none => s
  | some k =>
    let s := s.pieceIn id (2 ^ 41) e noSeg (fieldAt k.desc 32 8)
    if e ≠ .none then s
    else k.placed.foldl (fun (s : State) c => match s.ctx c with
      | some x => if x.clause = id then s.setCtx c { x with prog := words32 data, mode := .running } else s
      | none => s) s

/-! ### Clauses without memory operands -/

/-- Runs one of FENCE, COUNTER_OP and WAIT that has not yet done its work. -/
def State.once (s : State) (id op : Nat) (f : Clause → State → State) : State :=
  match s.clauseAt id with
  | some k =>
    if descOp k.desc = op ∧ k.ending.isNone ∧ k.issued = 0 ∧ !k.untriggered ∧ k.stage ≠ .done then f k s else s
  | none => s

def Clause.worked (k : Clause) : Clause := { k with segment := 1, issued := 1, timed := true, stage := .running }

/-- Whether every earlier clause of the queue has completed. -/
def State.fenceMet (s : State) (id : Nat) (k : Clause) : Bool :=
  (s.queueClauses k.queue).all (fun c => decide (id ≤ c.1) || c.2.stage == .done)

def State.waitMet (s : State) (k : Clause) : Bool :=
  k.met || decide (fieldAt k.desc 40 8 ≤ s.counter (nameIndex (fieldAt k.desc 32 8)))

/-! ### Completion (R177, R182) -/

/-- Whether a chunk's writes are performed, by opcode. -/
def State.chunkDone (s : State) (k : Clause) (c : Nat) : Bool :=
  if isColl (descOp k.desc) then s.collReady k c
  else if descOp k.desc = 0x20 then k.vecReady c && (tget c k.flying).isNone
  else k.chunkReady c

def State.completeChunk (s : State) (id c : Nat) : State :=
  match s.clauseAt id with
  | some k =>
    if k.stage = .done ∨ k.stage = .away ∨ !chunkExists k.desc k.extra (s.role k) c ∨ !s.chunkDone k c then s
    else s.countChunk id c
  | none => s

/-- Whether a clause of a collective has given all that it gives; another clause gives nothing (R218). -/
def State.given (s : State) (k : Clause) : Bool := !isColl (descOp k.desc) || (k.timed && (s.localNext k).isNone)

/-- How a clause that runs no more has ended; none while work of it remains. -/
def State.finalEnding (s : State) (k : Clause) : Option Ending :=
  match k.ending with
  | some e =>
    if e.status = .none ∧ descOp k.desc = 0x30 ∧ !k.counted.contains 0 ∧ k.origin.isNone ∧ k.stage ≠ .away then none
    else some { e with status := if e.status = .none then k.arriveErr else e.status }
  | none =>
    if s.allCounted k ∧ s.given k then some { status := k.arriveErr, exc := 0, segment := noSeg, detail := 0, addr := 0 }
    else if descOp k.desc = 6 ∧ k.segs ≤ k.issued ∧ fieldAt k.desc 40 4 ≤ k.batchPos ∧
        (tget (2 ^ 45) k.indices).isNone ∧ (chunkList k.desc k.extra (s.role k)).all (fun c =>
          k.counted.contains c || k.failed.contains c) then
      k.batchFailure.map (fun (e, c) =>
        { status := errOf c, exc := 0, segment := e / 32768, detail := 0, addr := fieldAt k.desc 32 8 + 64 * e })
    else none

/-- A clause completes: its tiles and extents are given up, its record waits for its turn. -/
def State.complete (s : State) (id : Nat) : State :=
  match s.clauseAt id with
  | none => s
  | some k =>
    if k.stage = .done ∨ k.flying ≠ [] ∨ k.arriving ≠ 0 then s
    else match s.finalEnding k with
      | none => s
      | some e =>
        let s := (s.giveTiles k).unwait id
        let s := s.sample 4 (s.since k.tick) none (some k.partition)
        match k.origin with
        | some (src, tag) =>
          let body := packBytes [(32, k.chunks), (32, e.segment), (64, e.addr), (8, e.exc), (24, 0), (32, e.detail)]
          (s.dropClause id).sendResponse src tag k.partition k.tense 0xe e.status 50 body false
        | none =>
          let s := s.modClause id (fun k => { k with stage := .done, extents := [], placed := [], ending := some e })
          let s := s.modQueue k.queue (fun r => { r with blocked := if r.blocked = some id then none else r.blocked })
          let bs := recordBytes (descTag k.desc) e.status (descOp k.desc) e.exc k.seq e.segment k.chunks e.detail e.addr
          let s := s.addRecord k.queue id (if e.status = .none ∧ descCmplErr k.desc then [] else bs)
          if isColl (descOp k.desc) then
            let s := s.memberFailed { k with ending := some e }
            s.closeInstances (cGroup k.desc)
          else s

/-- The chip that ran a clause reports its end (R55, R260). -/
def State.remoteDone (s : State) (id : Nat) (e : Err) (data : List Byte) : State :=
  match s.clauseAt id with
  | none => s
  | some k =>
    if k.stage ≠ .away then s
    else
      let x : Ending := { status := e, exc := fieldAt data 16 1, segment := if data = [] then noSeg else fieldAt data 4 4,
                          detail := fieldAt data 20 4, addr := fieldAt data 8 8 }
      s.modClause id (fun k => { k with chunks := fieldAt data 0 4, ending := some x, stage := .running, counted := [0] })

/-! ### Queues that drain -/

/-- The queue reads DISABLED when fetching has ended, no clause is in flight and no record waits (R186). -/
def State.queueEmpty (s : State) (q : Nat) : Bool :=
  match s.queue q with
  | some r =>
    (r.noFetch || s.get (R.QPAGE_SQ_HEAD q) == s.get (R.QPAGE_SQ_TAIL q)) && !r.fetching && r.fetched.isNone &&
      r.records.isEmpty && (s.queueClauses q).isEmpty
  | none => false

def State.disableQueue (s : State) (q : Nat) : State :=
  if s.get (R.QPAGE_STATUS_STATE q) = 2 ∧ s.queueEmpty q then
    let ds := ((s.queue q).map Queue.drains).getD []
    let s := s.set (R.QPAGE_STATUS_STATE q) 0
    let s := { s with work := { s.work with queues := terase q s.work.queues } }
    ds.foldl (fun s (path, r) => s.answer path r 0x31 (statusBody .none)) s
  else s

/-- The drain timeout of a queue: accepted clauses end with ERR_ABORTED; records that wait are lost, and so are later ones that
find the ring full. -/
def State.queueDrainExpired (s : State) (q : Nat) : State :=
  if s.get (R.QPAGE_STATUS_STATE q) = 2 then
    let s := s.modQueue q (fun r => { r with noFetch := true, expired := true })
    let lost := (((s.queue q).map Queue.records).getD []).countP (fun r => r.2 != [])
    let ids := (((s.queue q).map Queue.records).getD []).map Prod.fst
    let keep := ((s.queue q).map Queue.writing).getD false
    let mine := (s.queueClauses q).map (fun (c : Nat × Clause) => c.1)
    let s := (s.queueClauses q).foldl (fun s (id, _) =>
      let s := s.abortClause id
      match s.clauseAt id with
      | some k => s.memberFailed k
      | none => s) s
    let s := s.abortTags (fun t => (contClause (s.rootOf 64 t.cont)).elim false (fun id => mine.contains id))
    -- A record whose write is under way is not waiting for ring space.
    let s := s.modQueue q (fun r => { r with records := if keep then r.records.take 1 else [] })
    let s := (if keep then ids.drop 1 else ids).foldl State.dropClause s
    s.count (R.QPAGE_STATUS_LOST q) (if keep then lost - 1 else lost)
  else s

end Sys2Proof.Machine
end

