-- ==== Sys2Proof/Machine/Edge.lean ====
section
/-! DEFINITION. Edge ports and memory tiers (chapters 2, 7, 14): direct requests and their order, the control region, the
life of ports, expanders and channel sites, and lost memory. -/

namespace Sys2Proof.Machine

/-! ### Completions toward an accelerator (R344, Table 14-3) -/

def cplOf (isRead : Bool) (e : Err) : Cpl :=
  match e with
  | .none => .successful
  | .unmapped | .partition | .bounds | .format => .unsupported
  | .poison | .integrity => if isRead then .poisoned else .abort
  | _ => .abort

/-- Records the code of a completion that is not Successful. -/
def State.edgeErr (s : State) (port p addr : Nat) (e : Err) : State :=
  let s := (s.count (R.EDGE_ERR_COUNT port)).set (R.EDGE_ERR_LAST_PART port) p
  (s.set (R.EDGE_ERR_LAST_CODE port) e.code).set (R.EDGE_ERR_ADDR_ADDR port) addr

/-- Whether a completion can be delivered: the port's link is up. -/
def State.edgeUp (s : State) (port : Nat) : Bool :=
  s.get (R.EDGE_STAT_STATE port) == 2 || s.get (R.EDGE_STAT_STATE port) == 3 || s.get (R.EDGE_STAT_STATE port) == 4

/-- Completions of a direct request: read data in pieces of at most 256 B, in address order (R342). -/
def State.completeDirect (s : State) (port tag p addr : Nat) (isRead : Bool) (e : Err) (data : List Byte) : State :=
  let c := cplOf isRead e
  let s := if c = .successful ∨ c = .poisoned then s else s.edgeErr port p addr e
  if !s.edgeUp port then s
  else if isRead ∧ c = .successful then
    (List.range (max 1 (ceilDiv data.length 256))).foldl (fun s i =>
      s.emit (.completion port tag c e ((data.drop (256 * i)).take 256))) s
  else s.emit (.completion port tag c e (if c = .successful then data else []))

/-- A posted request that fails is dropped and recorded; any other completes with its code. -/
def State.turnAway (s : State) (port tag p addr : Nat) (isRead posted : Bool) (e : Err) : State :=
  if posted then s.edgeErr port p addr e else s.completeDirect port tag p addr isRead e []

/-! ### Direct requests (R32 to R35, R84, R98, R342) -/

def DirectRec.isRead (d : DirectRec) : Bool :=
  match d.act with
  | .read _ => true
  | _ => false

def DirectRec.isAtomic (d : DirectRec) : Bool :=
  match d.act with
  | .atomic _ _ _ _ => true
  | _ => false

/-- The request address of a direct request. -/
def State.directAddr (s : State) (d : DirectRec) : Nat := s.get R.XLAT_APERTURE_BASE * 2 ^ 54 + d.view * 2 ^ 52 + d.addr

/-- Whether an earlier request of the source holds back a later one: a load or atomic of view 1 or 2 holds all, a store
or atomic of view 1 or 2 waits for all (R98), and requests to the same bytes keep their order (R90 to R92). -/
def holdsBack (a b : DirectRec) : Bool :=
  (a.view != 0 && (a.isRead || a.isAtomic)) || (b.view != 0 && !b.isRead) ||
    (decide (a.fpa < b.fpa + b.act.len) && decide (b.fpa < a.fpa + a.act.len))

/-- Whether a request of a slot may be performed now. -/
def State.mayIssue (s : State) (id : Nat) (d : DirectRec) : Bool :=
  !d.issued && s.edge.directs.all (fun (e : Nat × DirectRec) => decide (id ≤ e.1) || e.2.slot != d.slot || !holdsBack e.2 d)

/-- Performs a request. -/
def State.issueDirect (s : State) (id : Nat) (d : DirectRec) : State :=
  let s := { s with edge := { s.edge with directs := tset id { d with issued := true } s.edge.directs } }
  match d.act with
  | .read n => s.issueRead d.fpa n d.partition (.direct id) d.port false
  | .write bs => s.issueWrite d.fpa bs d.partition (.direct id) d.port true none
  | .atomic op w x c => s.issueAtomic d.fpa op w x c d.partition (.direct id) d.port true

/-- Performs what may now go, oldest first. -/
def State.pumpDirects (s : State) : State :=
  s.edge.directs.foldl (fun s (id, _) =>
    match tget id s.edge.directs with
    | some d => if s.mayIssue id d then s.issueDirect id d else s
    | none => s) s

/-- A direct request has completed. -/
def State.directDone (s : State) (id : Nat) (e : Err) (data : List Byte) : State :=
  match tget id s.edge.directs with
  | none => s
  | some d =>
    let s := { s with edge := { s.edge with directs := terase id s.edge.directs } }
    let s := s.sample (if d.isRead then 1 else 2) (s.since d.tick) (some d.port) (some d.partition)
    let s := s.completeDirect d.port d.tag d.partition (s.directAddr d) d.isRead e (if e = .none then data else [])
    s.pumpDirects

/-- The operation bit of an action: 0 read, 1 write, 2 atomic. -/
def HomeAct.op : HomeAct → Nat
  | .read _ => 0
  | .write _ => 1
  | .atomic _ _ _ _ => 2

/-- The PASID entry's permission for an operation. -/
def State.pasidMay (s : State) (port n op : Nat) : Bool :=
  if op = 0 then s.flag (R.EDGE_PASID_READ port n)
  else if op = 1 then s.flag (R.EDGE_PASID_WRITE port n)
  else s.flag (R.EDGE_PASID_ATOMIC port n)

/-- Whether a PASID names a valid entry (R32). -/
def State.pasidOk (s : State) (port pasid : Nat) : Bool :=
  decide (pasid < 4096) && s.flag (R.EDGE_PASID_VALID port (pasid % 4096))

/-- The old frame of a page that has just moved, while earlier accesses of the source to it are in flight (R251). -/
def State.sourceFrame (s : State) (slot fpa : Nat) : Nat :=
  match s.parser.updates.find? (fun u => u.2.2 == frameOf fpa && s.edge.directs.any (fun (d : Nat × DirectRec) =>
      d.2.slot == slot && frameOf d.2.fpa == u.2.1)) with
  | some (_, old, _) => old + fpa % 2 ^ 21
  | none => fpa

/-- The checks of R34 on an aperture request that has passed its form checks, then the form of an AtomicOp (R136). -/
def State.checkDirect (s : State) (d : Direct) (act : HomeAct) : State :=
  let n := d.pasid.getD 0
  let isRead := match act with
    | .read _ => true
    | _ => false
  let no := fun (s : State) (p : Nat) (e : Err) => s.completeDirect d.port d.tag p d.addr isRead e []
  if !s.pasidOk d.port n then no (s.violate 1 none d.addr .partition d.port) 0 .partition
  else
    let p := s.get (R.EDGE_PASID_PARTITION d.port n)
    let view := bits d.addr 53 52
    let fva := bits d.addr 51 0
    match s.partErr p with
    | .none =>
      if view = 3 then no s p .format
      else if !bit (s.get (R.EDGE_PASID_VIEW_EN d.port n)) view ∨ !s.pasidMay d.port n act.op then no s p .permission
      else
        let x := s.xlate p fva act.op
        match x.err with
        | .none =>
          if atomicForm fva act ≠ .none then no s p (atomicForm fva act)
          else if s.poisonedPage p fva act.op then no s p .poison
          else
            let slot := s.get (R.EDGE_STAT_SLOT d.port)
            let r : DirectRec := { port := d.port, slot := slot, tag := d.tag, partition := p, addr := fva,
                                   fpa := s.sourceFrame slot x.fpa, act := act, view := view, tense := s.tense p,
                                   issued := false, tick := s.tick }
            let id := s.edge.nextDirect
            let s := s.charge p 0 act.len
            ({ s with edge := { s.edge with directs := tset id r s.edge.directs, nextDirect := id + 1 } }).pumpDirects
        | .unmapped =>
          if bit fva 51 then no s p .unmapped
          else
            let s := (s.count R.XLAT_DMISS_INFO_COUNT).set R.XLAT_DMISS_INFO_PARTITION p
            no ((s.set R.XLAT_DMISS_INFO_PORT d.port).set R.XLAT_DMISS_FVA_FVA fva) p .unmapped
        | e => no (s.logWindow p fva e) p e
    | e => no s p e

/-- The port's own state, then Table 14-2 and the form checks of R342. A request on a port without a link does not exist; one
beyond the port's 512 outstanding is not admitted: it stays with the accelerator, and nothing changes here. -/
def State.aperture (s : State) (d : Direct) (act : HomeAct) : State :=
  let isRead := match act with
    | .read _ => true
    | _ => false
  let posted := !d.uio && act.op == 1
  if s.get (R.EDGE_STAT_ROLE d.port) ≠ 0 then s
  else
    let st := s.get (R.EDGE_STAT_STATE d.port)
    if st = 3 ∨ st = 4 then s.turnAway d.port d.tag 0 d.addr isRead posted .disabled
    else if st ≠ 2 then s
    else if 512 ≤ s.edge.directs.countP (fun (e : Nat × DirectRec) => e.2.port == d.port) then s
    else if bits d.addr 63 54 ≠ s.get R.XLAT_APERTURE_BASE then s.turnAway d.port d.tag 0 d.addr isRead posted .unmapped
    else if !d.uio then s.turnAway d.port d.tag 0 d.addr isRead posted .format
    else if !d.enabled ∨ d.len = 0 ∨ 4096 < d.len ∨ 4096 < d.addr % 4096 + d.len then
      s.completeDirect d.port d.tag 0 d.addr isRead .format []
    else s.checkDirect d act

/-! ### The control region (R168 to R172) -/

/-- What an offset of the control region names. -/
inductive CtlObject where
  | queue (q reg : Nat)
  | counter (n : Nat)
  | none
  deriving DecidableEq, Repr

def ctlObject (off : Nat) : CtlObject :=
  if off < 0x08000000 then .queue (off / 4096) (off % 4096)
  else if off < 0x08200000 then .counter ((off - 0x08000000) / 8)
  else .none

/-- A queue page register; reserved offsets read 0. -/
def State.qpage (s : State) (q reg : Nat) : Nat :=
  match reg with
  | 0 => s.get (R.QPAGE_SQ_HEAD q) * 2 ^ 32 + s.get (R.QPAGE_SQ_TAIL q)
  | 8 => s.get (R.QPAGE_CQ_TAIL q) * 2 ^ 32 + s.get (R.QPAGE_CQ_HEAD q)
  | 16 => packNat [(2, s.get (R.QPAGE_STATUS_STATE q)), (6, 0), (8, s.get (R.QPAGE_STATUS_ERR q)),
      (1, s.get (R.QPAGE_STATUS_FEED q)), (3, 0), (12, s.get (R.QPAGE_STATUS_PARTITION q)), (16, s.get (R.QPAGE_STATUS_LOST q))]
  | 24 => s.get (R.QPAGE_FAULT_FVA_FVA q)
  | _ => 0

/-- A write of QPAGE_SQ.TAIL (R170). -/
def State.ringDoorbell (s : State) (q v : Nat) : State :=
  match s.queue q with
  | none => s
  | some r =>
    if (v + 2 ^ 32 - s.get (R.QPAGE_SQ_HEAD q)) % 2 ^ 32 ≤ 2 ^ r.sqLog2 then s.set (R.QPAGE_SQ_TAIL q) v
    else s.drainQueue q .bounds

/-- A write of QPAGE_CQ.HEAD (R170): records that wait for room are written. -/
def State.writeCqHead (s : State) (q h : Nat) : State :=
  match s.queue q with
  | none => s
  | some r =>
    if (s.get (R.QPAGE_CQ_TAIL q) + 2 ^ 32 - h) % 2 ^ 32 ≤ 2 ^ r.cqLog2 then
      (s.set (R.QPAGE_CQ_HEAD q) h).pumpRecords q (r.records.length + 1)
    else s.drainQueue q .bounds

/-- Writes a queue-page register: only TAIL of SQ and HEAD of CQ take values. -/
def State.qpageWrite (s : State) (q reg v : Nat) : State :=
  if reg = 0 then s.ringDoorbell q (v % 2 ^ 32) else if reg = 8 then s.writeCqHead q (v % 2 ^ 32) else s

/-- R169 and R172 in order: the partition, or the first code; `write` for a write or AtomicOp. -/
def State.ctlCheck (s : State) (c : CtlReq) (write : Bool) : Err × Nat :=
  let n := c.pasid.getD 0
  let p := s.get (R.EDGE_PASID_PARTITION c.port (n % 4096))
  if c.len ≠ 8 then (.format, 0)
  else if c.offset % 8 ≠ 0 then (.align, 0)
  else if !s.pasidOk c.port n ∨ s.get (R.PART_STATE_STATE p) = 0 then (.partition, 0)
  else match ctlObject c.offset with
    | .none => (.bounds, p)
    | .queue q reg =>
      if !s.ownsQueue p q then (.partition, p)
      else if s.get (R.PART_STATE_STATE p) = 2 then (.disabled, p)
      else if write ∧ s.get (R.QPAGE_STATUS_STATE q) = 0 then (.disabled, p)
      else if write ∧ reg = 0 ∧ s.get (R.QPAGE_STATUS_FEED q) = 1 then (.permission, p)
      else (.none, p)
    | .counter k =>
      if !s.ownsCounter p k then (.partition, p)
      else if s.get (R.PART_STATE_STATE p) = 2 then (.disabled, p) else (.none, p)

/-- The address that a control-region request carried. -/
def State.ctlAddr (s : State) (c : CtlReq) : Nat := s.get R.XLAT_CONTROL_BASE * 2 ^ 28 + c.offset

/-- Runs a control-region request that passes its checks. -/
def State.control (s : State) (c : CtlReq) (write isRead : Bool) (f : Nat → State → State) : State :=
  if s.get (R.EDGE_STAT_ROLE c.port) ≠ 0 then s
  else
    let st := s.get (R.EDGE_STAT_STATE c.port)
    if st = 3 ∨ st = 4 then s.turnAway c.port c.tag 0 (s.ctlAddr c) isRead c.posted .disabled
    else if st ≠ 2 then s
    else match s.ctlCheck c write with
      | (.none, p) => f p s
      | (e, p) =>
        let n := c.pasid.getD 0
        let own := s.pasidOk c.port n && s.get (R.PART_STATE_STATE (s.get (R.EDGE_PASID_PARTITION c.port (n % 4096)))) != 0
        let s := if e = .partition then s.violate 4 (if own then some p else none) (s.ctlAddr c) .partition c.port else s
        s.turnAway c.port c.tag p (s.ctlAddr c) isRead c.posted e

/-- The value that an object of the region reads. -/
def State.ctlValue (s : State) (c : CtlReq) : Nat :=
  match ctlObject c.offset with
  | .queue q reg => s.qpage q reg
  | .counter k => s.counter k
  | .none => 0

def State.ctlStore (s : State) (c : CtlReq) (v : Nat) : State :=
  match ctlObject c.offset with
  | .queue q reg => s.qpageWrite q reg v
  | .counter k => s.putCounter k v
  | .none => s

/-- Answers a request that succeeded; a posted write has no completion. -/
def State.ctlDone (s : State) (c : CtlReq) (data : List Byte) : State :=
  if c.posted then s else s.emit (.completion c.port c.tag .successful .none data)

/-- The operation of Table 5-6 that an AtomicOp of PCIe is. -/
def pcieCode (o : PcieAtomic) : Nat :=
  match o with
  | .fetchAdd => 0
  | .swap => 1
  | .cas => 2

def State.ctlRead (s : State) (c : CtlReq) : State :=
  s.control c false true (fun _ s => s.ctlDone c (leBytes 8 (s.ctlValue c)))

def State.ctlWrite (s : State) (c : CtlReq) (v : Nat) : State :=
  s.control c true false (fun _ s => (s.ctlStore c v).ctlDone c [])

def State.ctlAtomic (s : State) (c : CtlReq) (op : PcieAtomic) (x y : Nat) : State :=
  s.control { c with posted := false } true false (fun _ s =>
    let old := s.ctlValue c
    (s.ctlStore c (atomicNew (pcieCode op) 8 x y old)).ctlDone { c with posted := false } (leBytes 8 old))

/-- A request to the control region that came as a memory request of the aperture's kinds (Table 14-2). -/
def State.asControl (s : State) (d : Direct) : Option CtlReq :=
  if d.addr / 2 ^ 28 = s.get R.XLAT_CONTROL_BASE ∧ bits d.addr 63 54 ≠ s.get R.XLAT_APERTURE_BASE then
    some { port := d.port, pasid := d.pasid, offset := d.addr % 2 ^ 28, len := d.len, tag := d.tag,
           posted := !d.uio }
  else none

/-! ### Ports, expanders and sites (R339 to R355) -/

/-- Frames of a capacity in bytes (R351, R353). -/
def framesOf (c : Nat) : Nat := (c - ceilDiv (ceilDiv c 32) (2 ^ 21) * 2 ^ 21) / 2 ^ 21

/-- Runs again what waited for an expander: intact, or with its memory lost. -/
def State.wakeFar (s : State) (port : Nat) (lost : Bool) : State :=
  let w := s.home.farWait.filter (fun a => s.farPort a.fpa == port)
  let s := { s with home := { s.home with farWait := s.home.farWait.filter (fun a => s.farPort a.fpa != port) } }
  (w.foldl (fun s a => if lost then s.reply a.fpa a.who a.act .poison [] else s.unitAct a) s).pumpOrder

/-- Consecutive pages of one partition merged into ranges: partition, first page, count (R451). -/
def mergePages : List (Nat × Nat) → List (Nat × Nat × Nat)
  | [] => []
  | (p, h) :: r =>
    match mergePages r with
    | (q, g, n) :: t => if q = p ∧ g = h + 1 then (p, h, n + 1) :: t else (p, h, 1) :: (q, g, n) :: t
    | [] => [(p, h, 1)]

def insertPage (x : Nat × Nat) : List (Nat × Nat) → List (Nat × Nat)
  | [] => [x]
  | y :: r => if x.1 < y.1 ∨ (x.1 = y.1 ∧ x.2 < y.2) then x :: y :: r else y :: insertPage x r

/-- Ranges of a list of pages, by partition and then by page. -/
def pageRanges (ps : List (Nat × Nat)) : List (Nat × Nat × Nat) :=
  mergePages (ps.foldr insertPage [])

/-- A range of pages (Table 15-10): partition, first page, count. -/
def rangeBytes (r : Nat × Nat × Nat) : List Byte :=
  packBytes [(12, r.1), (20, 0), (31, r.2.1), (1, 0), (32, r.2.2), (32, 0)]

/-- A RANGE record of TELE_STREAM (Table 19-11). -/
def rangeRecord (r : Nat × Nat × Nat) : List Byte := packBytes [(8, 3), (8, 0), (16, 24), (32, 0)] ++ rangeBytes r

/-- RANGE records, at most 680 in a message of 16,384 B (R461), when EVENTS_EN is 1. -/
def State.streamRanges (s : State) (rs : List (Nat × Nat × Nat)) : State :=
  if s.flag R.TELE_CTL_EVENTS_EN then
    (List.range (ceilDiv rs.length 680)).foldl (fun s i => s.stream (((rs.drop (680 * i)).take 680).map rangeRecord)) s
  else s

/-- Memory of this chip is lost (R453): entries POISON, replicas dropped, MEM_LOST, RANGE records. `gone` says which
frames. -/
def State.loseMemory (s : State) (unit : Nat) (gone : Nat → Bool) : State :=
  let hit := fun (e : PmEntry) => e.chip == s.chip && e.unit == unit && gone e.frame
  let ps := (s.xlat.pageMap.filter (fun (e : Nat × PmEntry) => hit e.2)).map (fun (e : Nat × PmEntry) => (e.2.partition, e.2.page))
  let s := { s with xlat := { s.xlat with pageMap := s.xlat.pageMap.map (fun (e : Nat × PmEntry) =>
      (e.1, if hit e.2 then { e.2 with poison := true } else e.2)) } }
  let ks := (s.parser.dir.filter (fun (d : Nat × DirRec) => d.2.frame / 2 ^ 22 == unit && gone (d.2.frame % 2 ^ 22))).map
    (fun (d : Nat × DirRec) => d.2.frame)
  let s := ks.foldl State.dropReplicas s
  let s := (s.setFlag R.FAULT_STAT_MEM_LOST true).logFault 11 unit 0 0
  s.streamRanges (pageRanges ps)

/-- A slice, or the 1 TiB of a far unit behind one expander, is lost. -/
def State.loseUnit (s : State) (unit part : Nat) : State :=
  let s := { s with xlat := { s.xlat with lostParts := if s.xlat.lostParts.contains (8 * unit + part) then s.xlat.lostParts
                                                     else (8 * unit + part) :: s.xlat.lostParts } }
  s.loseMemory unit (fun n => n / 2 ^ 19 == part)

/-- Reissues CXL.mem requests of a lost port on the slot's other ports, or ends them (R348). -/
def State.reissue (s : State) (port : Nat) : State :=
  let rs := s.home.memReqs.filter (fun (r : Nat × MemReq) => r.2.port == port)
  rs.foldl (fun s (tag, r) =>
    if s.activePorts r.slot = [] then
      let s := { s with home := { s.home with memReqs := terase tag s.home.memReqs } }
      let fpa := mkFpa s.chip r.slot r.offset
      if r.write then s.dropLine (memKey r.slot r.offset / 64) .unreachable
      else
        let s := match r.act with
          | .atomic _ w _ _ => s.unlock (edgeLines r.slot r.offset w)
          | _ => s
        s.reply fpa r.who r.act .unreachable []
    else
      let np := s.memPort r.slot r.offset
      let s := { s with home := { s.home with memReqs := tset tag { r with port := np } s.home.memReqs } }
      if r.write then
        s.emit (.memWr np tag r.offset ((tget (memKey r.slot r.offset / 64) s.home.writeTable).map WLine.bytes |>.getD []))
      else s.emit (.memRd np tag r.offset r.act.len)) s

/-- A port's link goes down: FAILED, its requests are issued again or end (R348). -/
def State.edgeLost (s : State) (port : Nat) : State :=
  let st := s.get (R.EDGE_STAT_STATE port)
  if st ≠ 2 ∧ st ≠ 3 then s
  else
    let s := (s.set (R.EDGE_STAT_STATE port) 5).set (R.EDGE_STAT_RATE port) 0
    let s := (s.set (R.EDGE_STAT_WIDTH port) 0).set (R.EDGE_STAT_IDE port) 0
    ((s.logFault 9 port 0 0).reissue port).failSlots.pumpOrder

/-- Whether nothing received on or issued on a port remains (R349). -/
def State.edgeEmpty (s : State) (port : Nat) : Bool :=
  s.edge.directs.all (fun (d : Nat × DirectRec) => d.2.port != port) &&
    s.home.memReqs.all (fun (r : Nat × MemReq) => r.2.port != port)

/-- Ports in DRAINING that have nothing left read DISABLED. -/
def State.settleEdges (s : State) : State :=
  (List.range 32).foldl (fun s p =>
    if s.get (R.EDGE_STAT_STATE p) = 3 ∧ s.edgeEmpty p then s.set (R.EDGE_STAT_STATE p) 4 else s) s

/-- EDGE_CTL.ENABLE written (R349). -/
def State.edgeEnable (s : State) (port : Nat) (on : Bool) : State :=
  let st := s.get (R.EDGE_STAT_STATE port)
  if on then
    if st = 4 then (s.set (R.EDGE_CTL_ENABLE port) 1).set (R.EDGE_STAT_STATE port) 1
    else s.set (R.EDGE_STAT_REFUSED port) 1
  else if s.get (R.EDGE_STAT_ROLE port) = 1 then s.set (R.EDGE_STAT_REFUSED port) 1
  else
    let s := s.set (R.EDGE_CTL_ENABLE port) 0
    if s.get (R.EDGE_STAT_ROLE port) = 0 ∧ (st = 1 ∨ st = 2 ∨ st = 5) then (s.set (R.EDGE_STAT_STATE port) 3).failSlots.pumpOrder
    else s

/-- The drain timeout of a port: what remains ends with ERR_ABORTED and is logged (R349, R446). -/
def State.edgeDrainExpired (s : State) (port : Nat) : State :=
  if s.get (R.EDGE_STAT_STATE port) ≠ 3 then s
  else
    let ds := s.edge.directs.filter (fun (d : Nat × DirectRec) => d.2.port == port)
    let s := ds.foldl (fun s (id, d) =>
      let s := (s.logFault 1 d.addr d.partition 6).count R.FAULT_ECC_ABORTS
      s.directDone id .aborted []) s
    let ms := s.home.memReqs.filter (fun (r : Nat × MemReq) => r.2.port == port)
    State.pumpOrder (ms.foldl (fun s (tag, r) =>
      let s := { s with home := { s.home with memReqs := terase tag s.home.memReqs } }
      let s := (s.logFault 1 (mkFpa s.chip r.slot r.offset) 0 6).count R.FAULT_ECC_ABORTS
      if r.write then s.dropLine (memKey r.slot r.offset / 64) .aborted
      else
        let s := match r.act with
          | .atomic _ w _ _ => s.unlock (edgeLines r.slot r.offset w)
          | _ => s
        s.reply (mkFpa s.chip r.slot r.offset) r.who r.act .aborted []) s)

/-- Registers of a device that Sikalys owns: whether a configuration write names one is a free value (R340, log entry 31). -/
def State.ownedRegister (s : State) : Bool := s.free 0 % 2 == 1

end Sys2Proof.Machine
end

