-- ==== Sys2Proof/Machine/TileMem.lean ====
section
/-! DEFINITION. Loads, stores, fences and atomics of a tile program (R142 to R144, R155, R156), and what their completion
does to the context. -/

namespace Sys2Proof.Machine

/-- A tile's L1 loses a line. -/
def State.dropL1 (s : State) (tile line : Nat) : State :=
  let t := s.tile tile
  s.setTile tile { t with l1 := terase line t.l1, copies := terase line t.copies, held := t.held.filter (· != line) }

/-- ECC events in the tile (R118): what is counted; a clean L1 line leaves the L1 and is fetched again, a modified one is
written back poisoned. `fpa` is where the bytes lie. -/
def State.tileEcc (s : State) (c : At) (fpa : Option Nat) (e : Ecc) : State :=
  let n := s.phys c.tile
  match e with
  | .none => s
  | .l1Corrected => s.count (R.TILE_ECC_L1_CE n)
  | .storeCorrected => s.count (R.TILE_ECC_STORE_CE n)
  | .storeUncorrectable => s.count (R.TILE_ECC_STORE_UE n)
  | .l1CleanUncorrectable =>
    match fpa with
    | some a => (s.dropL1 c.tile (((s.localFpa a).getD a) / 128)).count (R.TILE_ECC_L1_UE n)
    | none => s.count (R.TILE_ECC_L1_UE n)
  | .l1DirtyUncorrectable =>
    match fpa with
    | some a =>
      let modified := decide (fpaChip a = s.chip) && tget (a / 128) (s.tile c.tile).l1 == some 3
      let s := (s.dropL1 c.tile (((s.localFpa a).getD a) / 128)).count (R.TILE_ECC_L1_UE n)
      if modified then s.poisonLines [a % 2 ^ 49 / 128] else s
    | none => s.count (R.TILE_ECC_L1_UE n)

/-- A read of the tile store at an operand address, with its ECC event: E_TILESTORE for an uncorrectable one (R118, R162). -/
def State.tsGuard (s : State) (c : At) (x : Ctx) (a : Nat) (ecc : Ecc) (f : State → State) : State :=
  let s := s.tileEcc c none ecc
  if ecc = .storeUncorrectable then s.exception c x eTilestore a .poison else f s

/-- The context waits for an access. -/
def Ctx.waiting (x : Ctx) (acquire : Bool) : Ctx := { x with mode := .access, ordering := acquire }

/-! ### Lines of a tile (R124 to R133) -/

/-- Reads bytes of one line for a tile (R124): from its L1; a miss asks the rings for a local line, and the home of a remote
one for the whole line. A BULK read travels over the data port and leaves the L1 alone (R119). -/
def State.tileRead (s : State) (c : At) (p fpa n : Nat) (k : Cont) (spec bulk : Bool) : State :=
  let t := s.tile c.tile
  match s.localFpa fpa with
  | some a =>
    let acc := s.hereAccess fpa p (.read n) k none none
    let o : HomeOp := { acc.op (tileStop (s.phys c.tile)) (tilePort c) with
      tile := some c.tile, own := false, line := some (a / 128) }
    if fpaChip fpa ≠ s.chip then
      if bulk ∨ (tget (a / 128) t.l1).isSome then s.issueRead fpa n p k (tilePort c) spec else s.askLine o
    else if (tget (a / 128) t.l1).isSome then s.perform acc
    else if bulk ∨ s.inQuiet fpa ∨ (s.forwardOf fpa).isSome then s.issueRead fpa n p k (tilePort c) spec
    else match s.homeCheck acc with
      | (s, .none) => ((s.heatOf fpa n false s.chip).chargeHome fpa p n).askLine o
      | (s, e) => s.reply fpa acc.who acc.act e []
  | none =>
    match tget (fpa / 128) t.copies with
    | some bs => s.finish k .none ((bs.drop (fpa % 128)).take n)
    | none =>
      s.sendAct (fpa / 128 * 128) (.read 128) p (.lineFill (if bulk then none else some c.tile) (fpa / 128) (fpa % 128) n k)
        (tilePort c) false spec

/-- Reads runs of bytes for a tile, line by line. -/
def State.tileReads (s : State) (c : At) (p : Nat) (rs : List (Nat × Nat)) (k : Cont) (spec bulk : Bool) : State :=
  match rs.flatMap (fun r => linePieces r.1 r.2) with
  | [] => s.finish k .none []
  | [(a, n)] => s.tileRead c p a n k spec bulk
  | ps =>
    let g := s.home.nextGather
    ps.zipIdx.foldl (fun s (r, i) => s.tileRead c p r.1 r.2 (.part g i) spec bulk) (s.openGather ps.length k)

/-- A remote line came (R121, R127): the L1 that asked holds it in RS with its bytes, and whoever reads it gets its part. -/
def State.lineFilled (s : State) (tile : Option Nat) (line off len : Nat) (k : Cont) (e : Err) (data : List Byte) : State :=
  if e ≠ .none then s.finish k e []
  else
    let s := match tile with
      | some l =>
        let t := s.tile l
        s.setTile l { t with l1 := tset line 4 t.l1, copies := tset line data t.copies }
      | none => s
    s.finish k .none ((data.drop off).take len)

/-- Puts written bytes into a copy of a line. -/
def patchBytes (old : List Byte) (off : Nat) (new : List Byte) : List Byte := old.take off ++ new ++ old.drop (off + new.length)

/-- Writes bytes of one line for a tile (R122): a line of this chip's memory is won in M through the ring unless the tile has
it in E or M; a remote line is written through, with the copy in the L1. -/
def State.tileWrite (s : State) (c : At) (p fpa : Nat) (data : List Byte) (k : Cont) : State :=
  let t := s.tile c.tile
  let l := fpa / 128
  if fpaChip fpa = s.chip then
    let acc := s.hereAccess fpa p (.write data) k (some c.tile) none
    if s.inQuiet fpa ∨ (s.forwardOf fpa).isSome then s.issueWrite fpa data p k (tilePort c) true (some c.tile)
    else match s.homeCheck acc with
      | (s, .none) =>
        if t.owns l then (s.setTile c.tile { t with l1 := tset l 3 t.l1 }).perform acc
        else ((s.heatOf fpa data.length true s.chip).chargeHome fpa p data.length).askLine
          { acc.op (tileStop (s.phys c.tile)) (tilePort c) with tile := some c.tile, own := true, line := some l }
      | (s, e) => s.reply fpa acc.who acc.act e []
  else
    let s := s.setTile c.tile { (t.stale [l]) with copies := tmod l (fun bs => patchBytes bs (fpa % 128) data) t.copies }
    (s.spoilLines [l] (some c.tile)).issueWrite fpa data p k (tilePort c) true (some c.tile)

/-- Writes bytes over runs for a tile, line by line. -/
def State.tileWrites (s : State) (c : At) (p : Nat) (rs : List (Nat × Nat)) (data : List Byte) (k : Cont) : State :=
  match rs.flatMap (fun r => linePieces r.1 r.2) with
  | [] => s.finish k .none []
  | [(a, _)] => s.tileWrite c p a data k
  | ps =>
    let g := s.home.nextGather
    (ps.zipIdx.foldl (fun (sd : State × List Byte) (r, i) =>
      (sd.1.tileWrite c p r.1 (sd.2.take r.2) (.part g i), sd.2.drop r.2)) (s.openGather ps.length k, data)).1

/-! ### The store queue (R122, R156) -/

/-- The entries of a context's store queue. -/
def State.ownStores (s : State) (c : At) (clause : Nat) : List (Nat × StoreEntry) :=
  (s.tile c.tile).stores.filterMap (fun e => if e.ctx = c.ctx ∧ e.clause = clause then some (e.id, e) else none)

/-- Whether some bytes of a queued store lie in runs that are read (R90). -/
def State.storesTo (s : State) (c : At) (clause : Nat) (rs : List (Nat × Nat)) : Bool :=
  (s.ownStores c clause).any (fun e => e.2.runs.any (fun a => rs.any (fun b =>
    decide (a.1 < b.1 + b.2) && decide (b.1 < a.1 + a.2))))

def State.modStore (s : State) (tile id : Nat) (f : StoreEntry → StoreEntry) : State :=
  let t := s.tile tile
  s.setTile tile { t with stores := t.stores.map (fun e => if e.id = id then f e else e) }

/-- Whether an entry's bytes lie on other chips alone: it leaves the queue when it is sent, since ordered frames keep the order
of a source toward a home (R92, R305). -/
def StoreEntry.remote (s : State) (e : StoreEntry) : Bool := e.amo.isNone && e.runs.all (fun r => fpaChip r.1 != s.chip)

/-- Sends one entry toward its homes. -/
def State.sendStore (s : State) (tile : Nat) (e : StoreEntry) : State :=
  let c : At := ⟨tile, e.ctx⟩
  let s := s.modStore tile e.id (fun e => { e with sent := true, gone := e.remote s })
  match e.amo with
  | some (op, w, x, y, k) =>
    s.issueAtomic ((e.runs.head?.map Prod.fst).getD 0) op w x y e.partition (.tile c e.clause k) (tilePort c) true
  | none => s.tileWrites c e.partition e.runs e.data (.tile c e.clause (.store e.id))

/-- Sends what the store queues of a tile may send: each context's entries in program order, one once those before it have
left. -/
def State.pumpStores (s : State) (tile : Nat) : State :=
  (s.tile tile).stores.foldl (fun s e =>
    let before := (s.tile tile).stores.takeWhile (fun f => f.id != e.id)
    if !e.sent ∧ before.all (fun f => f.ctx != e.ctx || f.clause != e.clause || f.gone) then s.sendStore tile e else s) s

/-- A committed store or atomic enters the store queue; its clause has one more access under way (R102), and stream entries of
the tile that cover its bytes are STALE (R154). -/
def State.queueStore (s : State) (c : At) (x : Ctx) (p : Nat) (rs : List (Nat × Nat)) (data : List Byte)
    (amo : Option (Nat × Nat × Nat × Nat × TileCont)) : State :=
  let t := (s.tile c.tile).stale (rs.flatMap (fun r => linesOf (((s.localFpa r.1).getD r.1)) r.2))
  let e : StoreEntry := { id := t.nextStore, ctx := c.ctx, clause := x.clause, partition := p, runs := rs, data := data,
                          amo := amo, sent := false, gone := false }
  let s := s.setTile c.tile { t with stores := t.stores ++ [e], nextStore := t.nextStore + 1 }
  (s.modClause x.clause (fun k => { k with flying := tset (2 ^ 40) ((tget (2 ^ 40) k.flying).getD 0 + 1) k.flying })).pumpStores
    c.tile

/-- Whether a context's store queue is full (64 entries). -/
def State.storesFull (s : State) (c : At) (x : Ctx) : Bool := decide (64 ≤ (s.ownStores c x.clause).length)

/-- An instruction that waits for every earlier store (R156): it runs when none is left and none failed; E_STORE with the
first code otherwise. `acquire`: reads that follow it wait for it too (R109). -/
def State.afterStores (s : State) (c : At) (x : Ctx) (acquire : Bool) (f : State → State) : State :=
  if s.ownStores c x.clause ≠ [] then s.setCtx c { x with mode := .stores, ordering := acquire }
  else if x.storeErr ≠ .none then s.exception c x eStore 0 x.storeErr
  else f s

/-- Reads runs of bytes for a context's instruction, once its own queued stores to them are performed (R90). -/
def State.loadRuns (s : State) (c : At) (x : Ctx) (p : Nat) (rs : List (Nat × Nat)) (k : TileCont) (acquire : Bool) : State :=
  (s.setCtx c (x.waiting acquire)).tileReads c p rs (.tile c x.clause k) false false

/-- A load of n bytes into a scalar register. A scoped load that fails both checks raises E_ALIGN before E_ADDRESS: the spec
gives no order (DESIGN CHOICE, log entry 120). -/
def State.load (s : State) (c : At) (x : Ctx) (f : FmtM) (signed : Bool) (ecc : Ecc) : State :=
  let n := 2 ^ f.sz.toNat
  let a := (x.sreg f.ra + f.imm.signExtend 64 * BitVec.ofNat 64 n).toNat
  if oaHandle a = 16 then
    if !x.reaches a n then s.exception c x eAddress a .bounds
    else s.tsGuard c x a ecc (fun s =>
      let v := BitVec.ofNat (8 * n) (leNat (s.tsRead c x (oaOffset a) n))
      s.setCtx c (x.setS f.t (if signed then v.signExtend 64 else v.zeroExtend 64)).advance)
  else if f.scope ≠ 0 ∧ a % n ≠ 0 then s.exception c x eAlign a .align
  else match s.reach x a n with
    | .fault code e => s.exception c x code a e
    | .stall => s.stall c x
    | .runs p rs =>
      if s.storesTo c x.clause rs then s.setCtx c { x with mode := .stores }
      else if s.poisonedIn p 0 (x.fva a) rs then s.exception c x eAccess a .poison
      else
        ((s.touchSegment x a n).tileEcc c (rs.head?.map Prod.fst) ecc).loadRuns c x p rs (.load f.t n signed a) (f.scope != 0)

/-- LD: zero-extended; SZ above 3 is E_ILLEGAL. -/
def runLd (c : At) (f : FmtM) (ecc : Ecc) (s : State) : State :=
  s.inCtx c (decide (f.sz.toNat ≤ 3)) (fun x s => s.load c x f false ecc)

/-- LDS: sign-extended. -/
def runLds (c : At) (f : FmtM) (ecc : Ecc) (s : State) : State :=
  s.inCtx c (decide (f.sz.toNat ≤ 3)) (fun x s => s.load c x f true ecc)

/-- The runs behind pieces of an operand, as (distance, length); none where an extent is lacking. -/
def Clause.pieceRuns (k : Clause) (x : Ctx) (a : Nat) (ps : List (Nat × Nat)) : Option (List (List (Nat × Nat))) :=
  ps.mapM (fun q => if x.beyond k (a + q.1) q.2 then none else k.runs (x.fva (a + q.1)) q.2)

/-- Whether a page behind pieces of an operand is poisoned for an operation (R48). -/
def State.poisonedPieces (s : State) (x : Ctx) (p op a : Nat) (ps : List (Nat × Nat)) (rss : List (List (Nat × Nat))) : Bool :=
  (ps.zip rss).any (fun q => s.poisonedIn p op (x.fva (a + q.1.1)) q.2)

/-- A store of bytes at an operand address outside the tile store. -/
def State.storeTo (s : State) (c : At) (x : Ctx) (a : Nat) (pieces : List (Nat × List Byte)) : State :=
  let ps := pieces.map (fun q => (q.1, q.2.length))
  if ps.any (fun q => !x.reachesFrom a q.1 q.2) then s.exception c x eAddress a .bounds
  else if !x.writable a then s.exception c x ePerm a .permission
  else if s.storesFull c x then s.setCtx c { x with mode := .stores }
  else
    match s.clauseAt x.clause with
    | none => s
    | some k =>
      match k.pieceRuns x a ps with
      | none => s.stall c x
      | some rss =>
        if s.poisonedPieces x k.partition 1 a ps rss then
          s.setCtx c { x with storeErr := (if x.storeErr = Err.none then Err.poison else x.storeErr) : Ctx }.advance
        else
          let s := ps.foldl (fun s q => s.touchSegment x (a + q.1) q.2) s
          (s.setCtx c x.advance).queueStore c x k.partition rss.flatten (pieces.flatMap Prod.snd) none

/-- ST: the low 2^SZ bytes of T; a release at SCOPE waits for earlier stores. -/
def runSt (c : At) (f : FmtM) (s : State) : State :=
  s.inCtx c (decide (f.sz.toNat ≤ 3)) (fun x s =>
    let n := 2 ^ f.sz.toNat
    let a := (x.sreg f.ra + f.imm.signExtend 64 * BitVec.ofNat 64 n).toNat
    let data := leBytes n (x.sreg f.t).toNat
    if oaHandle a = 16 then
      if !x.reaches a n then s.exception c x eAddress a .bounds
      else (s.tsWrite c x (oaOffset a) data).setCtx c x.advance
    else if f.scope ≠ 0 then
      if a % n ≠ 0 then s.exception c x eAlign a .align
      else s.afterStores c x false (fun s => s.storeTo c x a [(0, data)])
    else s.storeTo c x a [(0, data)])

/-- FENCE: SCOPE nonzero, every other field 0; it waits for earlier accesses. -/
def runFence (c : At) (f : FmtM) (s : State) : State :=
  s.inCtx c (f.scope != 0 && f.t == 0 && f.ra == 0 && f.sz == 0 && f.imm == 0) (fun x s =>
    s.afterStores c x true (fun s => s.setCtx c { x with ordering := false }.advance))

/-- The address of VLD and VST. -/
def Ctx.vaddr (x : Ctx) (f : FmtVM) : Nat := (x.sreg f.ra + f.imm.signExtend 64 * 256).toNat

/-- Enabled bytes as runs: offset and length. -/
def byteRuns (on : Nat → Bool) : Nat → List (Nat × Nat)
  | 0 => []
  | n + 1 =>
    let r := byteRuns on n
    if on n then
      match r.getLast? with
      | some (o, l) => if o + l = n then r.dropLast ++ [(o, l + 1)] else r ++ [(n, 1)]
      | none => [(n, 1)]
    else r

/-- Puts bytes at the enabled places of a vector, in order. -/
def scatterBytes (on : Nat → Bool) (old : VReg) (data : List Byte) : VReg :=
  let r := (List.range 256).foldl (fun (acc : List Nat × List Byte) j =>
    if on j then (acc.1 ++ [(acc.2.headD 0).toNat], acc.2.tail) else (acc.1 ++ [elem 8 old.toNat j], acc.2)) ([], data)
  BitVec.ofNat 2048 (packElems 8 r.1)

/-- VLD: the bytes that PG enables; disabled bytes are neither read nor checked. -/
def runVld (c : At) (f : FmtVM) (ecc : Ecc) (s : State) : State :=
  s.inCtx c true (fun x s =>
    let a := x.vaddr f
    let p := x.preg f.pg
    let on := fun j => p.getLsbD j
    let rs := byteRuns on 256
    if rs.any (fun r => !x.reachesFrom a r.1 r.2) then s.exception c x eAddress a .bounds
    else if oaHandle a = 16 then s.tsGuard c x a ecc (fun s =>
      s.setCtx c (x.setV f.vd (scatterBytes on (x.vreg f.vd)
        (rs.flatMap (fun r => s.tsRead c x (oaOffset a + r.1) r.2)))).advance)
    else match s.clauseAt x.clause with
      | none => s
      | some k =>
        match k.pieceRuns x a rs with
        | none => s.stall c x
        | some rss =>
          if s.storesTo c x.clause rss.flatten then s.setCtx c { x with mode := .stores }
          else if s.poisonedPieces x k.partition 0 a rs rss then s.exception c x eAccess a .poison
          else
            let s := rs.foldl (fun s r => s.touchSegment x (a + r.1) r.2) s
            (s.tileEcc c (rss.flatten.head?.map Prod.fst) ecc).loadRuns c x k.partition rss.flatten (.vld f.vd p a) false)

/-- VST: the bytes that PG enables. -/
def runVst (c : At) (f : FmtVM) (s : State) : State :=
  s.inCtx c true (fun x s =>
    let a := x.vaddr f
    let v := (x.vreg f.vd).toNat
    let rs := byteRuns (fun j => (x.preg f.pg).getLsbD j) 256
    let pieces := rs.map (fun r => (r.1, (List.range r.2).map (fun j => BitVec.ofNat 8 (elem 8 v (r.1 + j)))))
    if pieces = [] then s.setCtx c x.advance
    else if oaHandle a = 16 then
      if rs.any (fun r => !x.reachesFrom a r.1 r.2) then s.exception c x eAddress a .bounds
      else (pieces.foldl (fun s q => s.tsWrite c x (oaOffset a + q.1) q.2) s).setCtx c x.advance
    else s.storeTo c x a pieces)

/-- A register pair or a single register as a number. -/
def Ctx.wide (x : Ctx) (r : BitVec 6) (bytes : Nat) : Nat :=
  if bytes = 16 then (x.sreg r).toNat + 2 ^ 64 * (x.sreg (r + 1)).toNat else (x.sreg r).toNat

def Ctx.setWide (x : Ctx) (r : BitVec 6) (bytes v : Nat) : Ctx :=
  if bytes = 16 then (x.setS r (BitVec.ofNat 64 v)).setS (r + 1) (BitVec.ofNat 64 (v / 2 ^ 64))
  else x.setS r (BitVec.ofNat 64 v)

/-- AMO (R155): OP and W of Table 5-6, then alignment, then the address. It goes through the store queue (R122), and the
context waits for the old value. -/
def runAmo (c : At) (f : FmtA) (s : State) : State :=
  let w := 4 * 2 ^ f.w.toNat
  s.inCtx c (atomicWidth f.op.toNat w && (w != 16 || (f.rd.toNat % 2 == 0 && f.rb.toNat % 2 == 0))) (fun x s =>
    let a := (x.sreg f.ra).toNat
    let go := fun (s : State) =>
      match s.reach x a w with
      | .fault code e => s.exception c x code a e
      | .stall => s.stall c x
      | .runs p rs =>
        if !x.writable a then s.exception c x ePerm a .permission
        else if (s.xlate p (x.fva a) 2).err = .permission then s.exception c x eAccess a .permission
        else if s.poisonedIn p 2 (x.fva a) rs then s.exception c x eAccess a .poison
        else if s.storesFull c x then s.setCtx c { x with mode := .stores }
        else
          ((s.touchSegment x a w).setCtx c (x.waiting (f.scope != 0))).queueStore c x p rs []
            (some (f.op.toNat, w, x.wide f.rb w, x.wide f.rd w,
              .amo (s.tile c.tile).nextStore f.rd w a))
    if a % w ≠ 0 then s.exception c x eAlign a .align
    else if oaHandle a = 16 then s.exception c x eAddress a .bounds
    else if f.scope ≠ 0 then s.afterStores c x true go else go s)

/-- A context that waited runs again, past the instruction. -/
def Ctx.resume (x : Ctx) : Ctx := { x with mode := .running, ordering := false }.advance

/-- An entry leaves the store queue: the clause has one access less under way, later entries may go, and an instruction of the
context that waits for stores is tried again. -/
def State.storeOut (s : State) (c : At) (clause entry : Nat) : State :=
  let s := s.modClause clause (fun k =>
    { k with flying := match tget (2 ^ 40) k.flying with
        | some (n + 2) => tset (2 ^ 40) (n + 1) k.flying
        | _ => terase (2 ^ 40) k.flying })
  let s := s.setTile c.tile { s.tile c.tile with stores := (s.tile c.tile).stores.filter (fun e => e.id != entry) }
  let s := match s.ctx c with
    | some x => if x.clause = clause ∧ x.mode = CtxMode.stores then s.setCtx c { x with mode := CtxMode.running } else s
    | none => s
  (s.pumpStores c.tile).restTile c.tile

/-- A store of a context has completed; its first failure is kept (R156). -/
def State.storeDone (s : State) (c : At) (clause entry : Nat) (e : Err) : State :=
  let s := match s.ctx c with
    | some x =>
      if x.clause = clause then s.setCtx c { x with storeErr := if x.storeErr = Err.none then e else x.storeErr } else s
    | none => s
  s.storeOut c clause entry

/-- The context of an access that has completed, when it still runs the clause. -/
def State.withCtx (s : State) (c : At) (clause : Nat) (f : Ctx → State → State) : State :=
  match s.ctx c with
  | some x => if x.clause = clause then f x s else s
  | none => s

/-- A context's access has completed: registers take their values, or E_ACCESS. -/
def State.tileDone (s : State) (c : At) (clause : Nat) (k : TileCont) (e : Err) (data : List Byte) : State :=
  match k with
  | .store entry => s.storeDone c clause entry e
  | .load rd n signed a => s.withCtx c clause (fun x s =>
      if e ≠ .none then s.exception c x eAccess a e
      else
        let v := BitVec.ofNat (8 * n) (leNat data)
        s.setCtx c (x.setS rd (if signed then v.signExtend 64 else v.zeroExtend 64)).resume)
  | .vld vd mask a => s.withCtx c clause (fun x s =>
      if e ≠ .none then s.exception c x eAccess a e
      else s.setCtx c (x.setV vd (scatterBytes (fun j => mask.getLsbD j) (x.vreg vd) data)).resume)
  | .amo entry rd n a =>
    (s.withCtx c clause (fun x s =>
      if e ≠ .none then s.exception c x eAccess a e
      else s.setCtx c (x.setWide rd n (leNat data)).resume)).storeOut c clause entry
  | .ctr rd none => s.withCtx c clause (fun x s =>
      if e ≠ .none then s.exception c x eAccess 0 e
      else s.setCtx c (x.setS rd (BitVec.ofNat 64 (leNat data))).resume)
  | .ctr rd (some t) => s.withCtx c clause (fun x s =>
      if e ≠ .none then s.exception c x eAccess 0 e
      else if t ≤ leNat data then s.setCtx c (x.setS rd (BitVec.ofNat 64 (leNat data))).resume
      else s)
  | .indices pat req ahead => s.withCtx c clause (fun x s =>
      -- Only the reading that the pattern asked for counts; one that failed ahead leaves nothing (R119, R123).
      match tget pat x.patterns with
      | none => s
      | some q =>
        if q.asked ≠ some req then s
        else
          let q := { q with asked := none, indices := if e = .none then some (elems 32 (data.length / 4) data) else none }
          if e ≠ .none ∧ !ahead then s.exception c x eAccess (fieldAt q.desc 24 8) e
          else s.setCtx c { x with mode := if ahead then x.mode else .running, patterns := tset pat q x.patterns })
  | .pop pat reg vector pad a => s.withCtx c clause (fun x s =>
      if e ≠ .none then s.exception c x eAccess a e
      else
        let bs := data ++ List.replicate pad 0#8
        let x := if vector then x.setV (reg.truncate 5) (BitVec.ofNat 2048 (leNat bs))
                 else x.setS reg (BitVec.ofNat 64 (leNat bs))
        let pos := ((tget pat x.patterns).map Pattern.pos).getD 0 + data.length
        let s := s.setCtx c { x with patterns := tmod pat (fun q => { q with pos := pos }) x.patterns }.resume
        s.setTile c.tile { s.tile c.tile with entries := (s.tile c.tile).entries.filter (fun n =>
          !(n.2.ctx == c.ctx && n.2.pat == pat && decide (n.2.upto ≤ pos))) })

end Sys2Proof.Machine
end

