-- ==== Sys2Proof/Machine/TileCtr.lean ====
section
/-! DEFINITION. Counters, submission, Lexicon, context registers and the end of a context (R157 to R162; Table 6-3, MAJ
0x38 to 0x3F). -/

namespace Sys2Proof.Machine

/-- A counter instruction's operation by name (R157): E_ADDRESS for a bad name. `acquire`: later reads wait for it (R109). -/
def State.ctrInstr (s : State) (c : At) (x : Ctx) (f : FmtC) (op : Nat) (threshold : Option Nat) (acquire : Bool) : State :=
  let name := (x.sreg f.ra).toNat
  let p := ((s.clauseAt x.clause).map Clause.partition).getD 0
  if !nameOk name then s.exception c x eAddress name .bounds
  else
    let mode := match threshold with
      | some t => CtxMode.ctrwait name t f.rd
      | none => CtxMode.access
    (s.setCtx c { x with mode := mode, ordering := acquire }).issueCounter name op (x.sreg f.rb).toNat p
      (.tile c x.clause (.ctr f.rd threshold)) (tilePort c)

/-- CTRLD. -/
def runCtrld (c : At) (f : FmtC) (s : State) : State :=
  s.inCtx c true (fun x s => s.ctrInstr c x f 0 none (f.scope != 0))

/-- CTRADD: waits for earlier stores, then adds RB, wrapping. -/
def runCtradd (c : At) (f : FmtC) (s : State) : State :=
  s.inCtx c true (fun x s => s.afterStores c x false (fun s => s.ctrInstr c x f 1 none false))

/-- CTRWAIT: until the counter reaches RB, unsigned (R158). -/
def runCtrwait (c : At) (f : FmtC) (s : State) : State :=
  s.inCtx c true (fun x s => s.ctrInstr c x f 0 (some (x.sreg f.rb).toNat) (f.scope != 0))

/-- CTRSET: waits for earlier stores. -/
def runCtrset (c : At) (f : FmtC) (s : State) : State :=
  s.inCtx c true (fun x s => s.afterStores c x false (fun s => s.ctrInstr c x f 3 none false))

/-- CTRWAIT_WAKE (R158): the counter is read again for a context that waits on it. -/
def runCtrwaitWake (c : At) (s : State) : State :=
  s.whenLive (fun s =>
    match s.ctx c with
    | some x =>
      match x.mode with
      | .ctrwait name t rd =>
        s.issueCounter name 0 0 (((s.clauseAt x.clause).map Clause.partition).getD 0)
          (.tile c x.clause (.ctr rd (some t))) (tilePort c)
      | _ => s
    | none => s)

/-- WAIT_LIMIT_EXPIRY (R158): E_WAIT. -/
def execWaitLimitExpiry (c : At) (s : State) : Host.Outcome State Fault Refusal :=
  ok (s.whenLive (fun s =>
    match s.ctx c with
    | some x =>
      match x.mode with
      | .ctrwait _ _ _ => s.exception c x eWait 0 .timeout
      | _ => s
    | none => s))

/-- BUDGET_EXPIRY (R162): E_BUDGET for a context whose KERNEL descriptor carries a budget. -/
def execBudgetExpiry (c : At) (s : State) : Host.Outcome State Fault Refusal :=
  ok (s.whenLive (fun s =>
    match s.ctx c with
    | some x =>
      match s.clauseAt x.clause with
      | some k => if fieldAt k.desc 44 4 ≠ 0 then s.exception c x eBudget 0 .timeout else s
      | none => s
    | none => s))

/-- What SUBMIT answers (R160, R172), in this order: partition, state and feed, room. -/
def State.submitStatus (s : State) (p q slots : Nat) : Err :=
  if !s.ownsQueue p q then .partition
  else if s.get (R.QPAGE_STATUS_STATE q) ≠ 1 ∨ s.get (R.QPAGE_STATUS_FEED q) = 0 then .disabled
  else match tget q s.work.queues with
    | none => .disabled
    | some r =>
      let used := (s.get (R.QPAGE_SQ_TAIL q) + 2 ^ 32 - s.get (R.QPAGE_SQ_HEAD q)) % 2 ^ 32
      if 2 ^ r.sqLog2 < used + slots then .resource else .none

/-- Writes bytes at an FVA of a partition, as a chip access whose outcome nothing waits for. -/
def State.pokeFva (s : State) (p fva : Nat) (bs : List Byte) : State :=
  let x := s.xlate p fva 1
  if x.err = .none then s.issueWrite x.fpa bs p .drop 137 false none else s

/-- SUBMIT: a release at FABRIC scope; the descriptor goes to the slot at TAIL and TAIL advances in one step. -/
def runSubmit (c : At) (f : FmtS) (ecc : Ecc) (s : State) : State :=
  s.inCtx c true (fun x s =>
    let a := (x.sreg f.ra).toNat
    if a % 64 ≠ 0 then s.exception c x eAlign a .align
    else if oaHandle a ≠ 16 ∨ !x.reaches a 64 then s.exception c x eAddress a .bounds
    else s.afterStores c x false (fun s => s.tsGuard c x a ecc (fun s =>
      let ext := descExt (s.tsRead c x (oaOffset a) 64)
      if ext ∧ !x.reaches a 128 then s.exception c x eAddress a .bounds
      else
        let q := (x.sreg f.rb).toNat % 2 ^ 15
        let p := ((s.clauseAt x.clause).map Clause.partition).getD 0
        let slots := if ext then 2 else 1
        let e := s.submitStatus p q slots
        let s := s.setCtx c (x.setS f.rd (BitVec.ofNat 64 e.code)).advance
        match e, tget q s.work.queues with
        | .none, some r =>
          let tail := s.get (R.QPAGE_SQ_TAIL q)
          let s := (List.range slots).foldl (fun s i =>
            s.pokeFva p (r.slotFva (tail + i)) (s.tsRead c x (oaOffset a + 64 * i) 64)) s
          s.set (R.QPAGE_SQ_TAIL q) ((tail + slots) % 2 ^ 32)
        | _, _ => s)))

/-- The Lexicon (Table 5-8); entries 32 to 255 read 0. -/
def lexicon (n : Nat) : Nat :=
  ([1, 48, 2048, 32, 8, 64, 32, 16, 4, 2097152, 262144, 128, 512, 32, 64, 0x7fff, 0xfff, 32768, 262144, 16384, 8192,
    12288, 4096, 16384, 4, 3, 4096, 131072, 65536, 4194304, 2097152, 2097152].drop n).headD 0

/-- LEX; RA is 0. The spec states no result for IMM14 above 255: a free value (log entry 17). -/
def execLex (c : At) (f : FmtI) (s : State) : Host.Outcome State Fault Refusal :=
  ok (s.inCtx c (f.ra == 0) (fun x s =>
    let v := if f.imm.toNat < 256 then lexicon f.imm.toNat else s.free 0
    (s.setCtx c (x.setS f.rd (BitVec.ofNat 64 v)).advance).freshen))

/-- A context register's value (Table 6-5); none for an unlisted number. -/
def State.csr (s : State) (c : At) (x : Ctx) (n : Nat) : Option Nat :=
  let d := ((s.clauseAt x.clause).map Clause.desc).getD []
  if n = 0 then some (c.tile * 256 + c.ctx)
  else if n = 1 then some s.chip
  else if n = 2 then some (((s.clauseAt x.clause).map Clause.partition).getD 0)
  else if n = 3 then some x.rmode
  else if n = 4 then some x.fflags
  else if n = 5 then some x.seed
  else if n = 6 then some s.tick
  else if n = 7 then some x.waitLimit
  else if n = 8 then some x.tsSize
  else if 16 ≤ n ∧ n < 32 then
    some (match tget (n - 16) x.ops with
      | some (_, len, _) => len
      | none => 0)
  else if 32 ≤ n ∧ n < 40 then some (fieldAt d (64 + 8 * (n - 32)) 8)
  else none

/-- CSRR; RA is 0; an unlisted number raises E_ILLEGAL (R161). -/
def execCsrr (c : At) (f : FmtI) (s : State) : Host.Outcome State Fault Refusal :=
  ok (s.inCtx c (f.ra == 0) (fun x s =>
    match s.csr c x f.imm.toNat with
    | some v => s.setCtx c (x.setS f.rd (BitVec.ofNat 64 v)).advance
    | none => s.exception c x eIllegal 0 .format))

/-- CSRW; RD is 0; an out-of-range value sets the nearest limit (R161). -/
def execCsrw (c : At) (f : FmtI) (s : State) : Host.Outcome State Fault Refusal :=
  ok (s.inCtx c (f.rd == 0) (fun x s =>
    let v := (x.sreg f.ra).toNat
    match f.imm.toNat with
    | 3 => s.setCtx c { x with rmode := min v 2 }.advance
    | 4 => s.setCtx c { x with fflags := min v 31 }.advance
    | 5 => s.setCtx c { x with seed := v }.advance
    | 7 => s.setCtx c { x with waitLimit := max 1 (min v 1000000) }.advance
    | _ => s.exception c x eIllegal 0 .format))

/-- EXIT: waits for earlier stores, ends the context, and gives the user status (R160). -/
def execExit (c : At) (f : FmtS) (s : State) : Host.Outcome State Fault Refusal :=
  ok (s.inCtx c true (fun x s => s.afterStores c x false (fun s =>
    let e : Ending :=
      { status := .none, exc := 0, segment := 2 ^ 32 - 1, detail := (x.sreg f.ra).toNat % 2 ^ 32, addr := 0 }
    (s.modClause x.clause (fun k => k.endWith e)).endCtx c)))

end Sys2Proof.Machine
end

