-- ==== Sys2Proof/Machine/TileStream.lean ====
section
/-! DEFINITION. Stream patterns and the access engine (R109, R119 to R123, R152 to R154; Tables 6-3 and 6-4). -/

namespace Sys2Proof.Machine

/-! ### Pattern descriptors (Table 6-4) -/

def patBase (d : List Byte) : Nat := fieldAt d 0 8
def patStride0 (d : List Byte) : Nat := fieldAt d 8 8
def patStride1 (d : List Byte) : Nat := fieldAt d 16 8
def patIndex (d : List Byte) : Nat := fieldAt d 24 8
def patRun (d : List Byte) : Nat := fieldAt d 32 4
def patCount0 (d : List Byte) : Nat := fieldAt d 36 4
def patCount1 (d : List Byte) : Nat := fieldAt d 40 4
def patKind (d : List Byte) : Nat := fieldAt d 44 1 % 8
def patBulk (d : List Byte) : Bool := bit (fieldAt d 44 1) 3
def patDepth (d : List Byte) : Nat := fieldAt d 45 1 + 1

/-- A descriptor that E_ILLEGAL does not meet: KIND known, reserved fields 0, and a field that Table 6-4 fixes for its
kind at that value; it fixes none for STRIDE0 of kind 0 (log entry 20). -/
def patOk (d : List Byte) : Bool :=
  decide (patKind d < 4) && decide (fieldAt d 44 1 < 16) && decide (leNat (d.drop 46) = 0) &&
    decide (patRun d ≠ 0) &&
    (patKind d == 2 || (patStride1 d == 0 && patCount1 d == 1)) &&
    (patKind d == 3 || patIndex d == 0) && (patKind d != 0 || patCount0 d == 1)

/-- Bytes of a pattern in all. -/
def patBytes (d : List Byte) : Nat := patRun d * patCount0 d * patCount1 d

/-- The operand address of run r, counted over rows (R152). -/
def Pattern.runAddr (q : Pattern) (r : Nat) : Nat :=
  let d := q.desc
  let i := r / patCount0 d
  let j := r % patCount0 d
  let step := if patKind d = 3 then ((q.indices.getD []).drop j).headD 0 else j
  (patBase d + i * patStride1 d + step * patStride0 d) % 2 ^ 64

/-- Bytes not yet committed. -/
def Pattern.left (q : Pattern) : Nat := patBytes q.desc - q.pos

/-- The next n bytes from a position, as (operand address, length) by run. -/
def Pattern.pieces (q : Pattern) : Nat → Nat → Nat → List (Nat × Nat)
  | 0, _, _ => []
  | fuel + 1, pos, n =>
    if n = 0 then []
    else
      let run := patRun q.desc
      let m := min n (run - pos % run)
      ((q.runAddr (pos / run) + pos % run) % 2 ^ 64, m) :: q.pieces fuel (pos + m) (n - m)

/-- Whether the index array is wanted and not yet read. -/
def Pattern.needsIndices (q : Pattern) : Bool := patKind q.desc == 3 && q.indices.isNone

/-! ### Instructions -/

/-- A stream instruction: reserved bits 0 (R146), the pattern configured (R153). -/
def State.streamOp (s : State) (c : At) (f : FmtT) (legal : Bool) (g : Ctx → Pattern → State → State) : State :=
  s.inCtx c (legal && f.reserved == 0) (fun x s =>
    match tget f.strm.toNat x.patterns with
    | some q => g x q s
    | none => s.exception c x eStream 0 .bounds)

/-- Cancels a pattern: its entries are freed (R123). -/
def State.cancelPattern (s : State) (c : At) (pat : Nat) : State :=
  s.setTile c.tile { s.tile c.tile with entries := (s.tile c.tile).entries.filter (fun e =>
    !(e.2.ctx == c.ctx && e.2.pat == pat)) }

/-- SCFG: the descriptor lies in the tile store at 64 B; an index array in the tile store is read at once. -/
def execScfg (c : At) (f : FmtT) (ecc : Ecc) (s : State) : Host.Outcome State Fault Refusal :=
  ok (s.inCtx c (f.reserved == 0) (fun x s =>
    let a := (x.sreg f.reg).toNat
    if a % 64 ≠ 0 then s.exception c x eAlign a .align
    else if oaHandle a ≠ 16 ∨ !x.reaches a 64 then s.exception c x eAddress a .bounds
    else s.tsGuard c x a ecc (fun s =>
      let d := s.tsRead c x (oaOffset a) 64
      if !patOk d then s.exception c x eIllegal 0 .format
      else
        let ix := patIndex d
        let n := patCount0 d
        let idx := if patKind d = 3 ∧ oaHandle ix = 16 ∧ x.reaches ix (4 * n) then
            some (elems 32 n (s.tsRead c x (oaOffset ix) (4 * n)))
          else none
        let q : Pattern := { desc := d, indices := idx, asked := none, pos := 0, issued := 0 }
        (s.cancelPattern c f.strm.toNat).setCtx c { x with patterns := tset f.strm.toNat q x.patterns }.advance)))

/-- The extents behind runs lie in no window with SIDE_EFFECT (R41). -/
def Clause.plain (k : Clause) (fva n : Nat) : Bool :=
  k.extents.all (fun e => !e.side || decide (e.fva + e.len ≤ fva) || decide (fva + n ≤ e.fva))

/-- Reads an index array that lies in memory (R119): for a commit, which waits and is tried again, or ahead of it, where a
failure leaves nothing. -/
def State.fetchIndices (s : State) (c : At) (x : Ctx) (pat : Nat) (q : Pattern) (ahead : Bool) : State :=
  let a := patIndex q.desc
  let n := 4 * patCount0 q.desc
  let id := (s.tile c.tile).nextEntry
  if oaHandle a = 16 ∧ x.reaches a n then
    s.setCtx c { x with patterns := tset pat { q with indices := some (elems 32 (patCount0 q.desc)
      (s.tsRead c x (oaOffset a) n)) } x.patterns }
  else match s.reach x a n with
    | .fault code e => if ahead then s else s.exception c x code a e
    | .stall => if ahead then s else s.stall c x
    | .runs p rs =>
      let plain := match s.clauseAt x.clause with
        | some k => k.plain (x.fva a) n
        | none => false
      if ahead ∧ (!plain ∨ s.poisonedIn p 0 (x.fva a) rs) then s
      else if s.poisonedIn p 0 (x.fva a) rs then s.exception c x eAccess a .poison
      else if !ahead ∧ s.storesTo c x.clause rs then s.setCtx c { x with mode := .stores }
      else
        let s := s.setTile c.tile { s.tile c.tile with nextEntry := id + 1 }
        let x := { x with mode := if ahead then x.mode else .access, patterns := tset pat { q with asked := some id } x.patterns }
        ((s.touchSegment x a n).setCtx c x).readRuns rs p (.tile c x.clause (.indices pat id ahead)) (tilePort c) ahead

/-- The line of an FPA as the caches name it: at its home, or in a replica's frame (R124). -/
def State.cacheLine (s : State) (fpa : Nat) : Nat := ((s.localFpa fpa).getD fpa) / 128

/-- Bytes that valid stream entries of the pattern hold for a range (R121). -/
def State.entryBytes (s : State) (c : At) (pat fpa n : Nat) : Option (List Byte) :=
  (List.range n).mapM (fun i =>
    let a := fpa + i
    ((s.tile c.tile).entries.find? (fun e => e.2.ctx == c.ctx && e.2.pat == pat && e.2.line == s.cacheLine a && e.2.filled &&
      !e.2.stale && !e.2.once && !e.2.failed)).bind (fun e => e.2.data[a % 128]?))

/-- Commits pieces of a pattern: from the tile store, from valid entries, or by a read issued now. -/
def State.commitPieces (s : State) (c : At) (x : Ctx) (pat : Nat) (q : Pattern) (ps : List (Nat × Nat)) (k : TileCont) : State :=
  let g := s.home.nextGather
  let s := (s.setCtx c (x.waiting false)).openGather ps.length (.tile c x.clause k)
  ps.zipIdx.foldl (fun s (o, i) =>
    if oaHandle o.1 = 16 then s.finish (.part g i) .none (s.tsRead c x (oaOffset o.1) o.2)
    else match s.reach x o.1 o.2 with
      | .runs p rs =>
        match rs.mapM (fun r => s.entryBytes c pat r.1 r.2) with
        | some bss => s.finish (.part g i) .none bss.flatten
        | none =>
          if s.poisonedIn p 0 (x.fva o.1) rs then s.finish (.part g i) .poison []
          else (s.touchSegment x o.1 o.2).tileReads c p rs (.part g i) false (patBulk q.desc)
      | _ => s.finish (.part g i) .bounds []) s

/-- Whether an operand address piece reads bytes that a queued store of the context writes (R90). -/
def State.pieceStored (s : State) (c : At) (x : Ctx) (o : Nat × Nat) : Bool :=
  oaHandle o.1 != 16 && (match s.reach x o.1 o.2 with
    | .runs _ rs => s.storesTo c x.clause rs
    | _ => false)

/-- SPOP and SPOPS: the next bytes, with 0 beyond the pattern's end; E_STREAM when none is left (R153). -/
def State.pop (s : State) (c : At) (f : FmtT) (x : Ctx) (q : Pattern) (n : Nat) (vector : Bool) (ecc : Ecc) : State :=
  if q.left = 0 then s.exception c x eStream 0 .bounds
  else if q.needsIndices then s.fetchIndices c x f.strm.toNat q false
  else
    let m := min n q.left
    let ps := q.pieces (n + 1) q.pos m
    let inStore := ps.any (fun p => oaHandle p.1 == 16)
    match ps.find? (fun p => !x.reaches p.1 p.2) with
    | some p => s.exception c x eAddress p.1 .bounds
    | none =>
      let a := (ps.head?.map Prod.fst).getD 0
      if ps.any (fun p => oaHandle p.1 != 16 && s.reach x p.1 p.2 == .stall) then s.stall c x
      else if ps.any (s.pieceStored c x) then s.setCtx c { x with mode := .stores }
      else
        let go := fun (s : State) => s.commitPieces c x f.strm.toNat q ps (.pop f.strm.toNat f.reg vector (n - m) a)
        if inStore then s.tsGuard c x a ecc go else go (s.tileEcc c none ecc)

/-- SPOP: 256 B into vector REG[4:0]; REG[5] is 0. -/
def runSpop (c : At) (f : FmtT) (ecc : Ecc) (s : State) : State :=
  s.streamOp c f (decide (f.reg.toNat < 32)) (fun x q s => s.pop c f x q 256 true ecc)

/-- SPOPS: 8 B into scalar REG. -/
def runSpops (c : At) (f : FmtT) (ecc : Ecc) (s : State) : State :=
  s.streamOp c f true (fun x q s => s.pop c f x q 8 false ecc)

/-- SSKIP: commits the next REG bytes without reading them; a run whose address fails R142 raises E_ADDRESS (R153). -/
def runSskip (c : At) (f : FmtT) (s : State) : State :=
  s.streamOp c f true (fun x q s =>
    if q.left = 0 then s.exception c x eStream 0 .bounds
    else if q.needsIndices then s.fetchIndices c x f.strm.toNat q false
    else
      let m := min (x.sreg f.reg).toNat q.left
      match (q.pieces (m + 1) q.pos m).find? (fun p => !x.reaches p.1 p.2) with
      | some p => s.exception c x eAddress p.1 .bounds
      | none =>
        let pos := q.pos + m
        let s := s.setTile c.tile { s.tile c.tile with entries := (s.tile c.tile).entries.filter (fun e =>
          !(e.2.ctx == c.ctx && e.2.pat == f.strm.toNat && decide (e.2.upto ≤ pos))) }
        s.setCtx c { x with patterns := tset f.strm.toNat { q with pos := pos, issued := max q.issued pos } x.patterns }.advance)

/-- SCAN: cancels the pattern; REG is 0. -/
def execScan (c : At) (f : FmtT) (s : State) : Host.Outcome State Fault Refusal :=
  ok (s.streamOp c f (f.reg == 0) (fun x _ s =>
    (s.cancelPattern c f.strm.toNat).setCtx c { x with patterns := terase f.strm.toNat x.patterns }.advance))

/-- SREM: bytes remaining. -/
def execSrem (c : At) (f : FmtT) (s : State) : Host.Outcome State Fault Refusal :=
  ok (s.streamOp c f true (fun x q s => s.setCtx c (x.setS f.reg (BitVec.ofNat 64 q.left)).advance))

/-! ### The engine (R109, R120) -/

/-- Entries of a tile, of a context, and of a pattern. -/
def State.entryCount (s : State) (c : At) (pat : Option Nat) : Nat :=
  (s.tile c.tile).entries.countP (fun e => e.2.ctx == c.ctx && (pat.isNone || pat == some e.2.pat))

/-- The piece of a pattern at a position that lies in one run and one line: its operand address and length. -/
def Pattern.lineStep (q : Pattern) (x : Ctx) (pos : Nat) : Nat × Nat :=
  let run := patRun q.desc
  let a := (q.runAddr (pos / run) + pos % run) % 2 ^ 64
  (a, min (min (run - pos % run) (128 - x.fva a % 128)) (patBytes q.desc - pos))

/-- The position up to which the bytes of a pattern from one on lie in a line of FVAs: one entry serves them all. -/
def Pattern.lineEnd (q : Pattern) (x : Ctx) (handle line : Nat) : Nat → Nat → Nat
  | 0, pos => pos
  | n + 1, pos =>
    match q.lineStep x pos with
    | (a, m) => if m ≠ 0 ∧ oaHandle a = handle ∧ x.reaches a m ∧ x.fva a / 128 = line then q.lineEnd x handle line n (pos + m)
                else pos

/-- Whether the engine may issue for a pattern (R109, R120): not behind an acquire or fence, within the pattern, its depth in
lines, and the shares of the context and of the tile. -/
def State.mayRunAhead (s : State) (c : At) (x : Ctx) (strm : Nat) (q : Pattern) : Bool :=
  !x.ordering && decide (max q.issued q.pos < patBytes q.desc) && decide (s.entryCount c (some strm) < patDepth q.desc) &&
    decide (s.entryCount c none < 256) && decide ((s.tile c.tile).entries.length < 512)

/-- The next line of a pattern is issued into an entry of its own. -/
def State.issueLine (s : State) (c : At) (x : Ctx) (strm : Nat) (q : Pattern) : State :=
  let at_ := max q.issued q.pos
  match q.lineStep x at_, s.clauseAt x.clause with
  | (a, n), some k =>
    if oaHandle a = 16 then s.setCtx c { x with patterns := tset strm { q with issued := at_ + n } x.patterns }
    else match s.reach x a n with
      | .runs p ((fpa, m) :: r) =>
        if !k.plain (x.fva a) n then s
        else
          let upto := q.lineEnd x (oaHandle a) (x.fva a / 128) 128 at_
          let e : StreamEntry := { ctx := c.ctx, pat := strm, line := s.cacheLine fpa, first := at_, upto := upto,
                                   filled := false, stale := false, once := false, failed := false, data := [] }
          let t := s.tile c.tile
          let s := s.setTile c.tile { t with entries := tset t.nextEntry e t.entries, nextEntry := t.nextEntry + 1 }
          let s := s.setCtx c { x with patterns := tset strm { q with issued := upto } x.patterns }
          let s := s.touchSegment x a n
          if s.poisonedIn p 0 (x.fva a) ((fpa, m) :: r) then s.finish (.stream c x.clause t.nextEntry) .poison []
          else s.tileRead c p (fpa / 128 * 128) 128 (.stream c x.clause t.nextEntry) true (patBulk q.desc)
      | _ => s
  | _, none => s

/-- RUNAHEAD_ISSUE (R109, R119, R120): the index array of a pattern that still wants it, else the pattern's next line, unless
one of the stops holds. -/
def runRunaheadIssue (c : At) (strm : Nat) (s : State) : State :=
  s.whenLive (fun s =>
    match s.ctx c with
    | none => s
    | some x =>
      match tget strm x.patterns with
      | none => s
      | some q =>
        if !s.mayRunAhead c x strm q then s
        else if q.needsIndices then (if q.asked.isSome then s else s.fetchIndices c x strm q true)
        else s.issueLine c x strm q)

/-- A run-ahead line came, or failed: it fills its entry, or marks it FAILED and nothing else; without its entry it is
discarded (R123). -/
def State.streamDone (s : State) (c : At) (clause id : Nat) (e : Err) (data : List Byte) : State :=
  match s.ctx c with
  | none => s
  | some x =>
    if x.clause ≠ clause then s
    else s.setTile c.tile { s.tile c.tile with entries := tmod id (fun n =>
      if e = .none then { n with filled := true, data := data } else { n with failed := true }) (s.tile c.tile).entries }

/-- A remote line came as ONCE (R127): no L1 keeps it, and a stream entry that it fills is not valid. -/
def State.onceFill (s : State) (tag : Nat) : State :=
  match tget tag s.fabric.track with
  | none => s
  | some t =>
    match t.cont with
    | .lineFill _ line off len k =>
      let s := { s with fabric := { s.fabric with
        track := tset tag { t with cont := .lineFill none line off len k } s.fabric.track } }
      match k with
      | .stream c _ id => s.setTile c.tile { s.tile c.tile with
          entries := tmod id (fun e => { e with once := true }) (s.tile c.tile).entries }
      | _ => s
    | _ => s

end Sys2Proof.Machine
end

