-- ==== Sys2Proof/Machine/Weight.lean ====
section
/-! DEFINITION. Weight packages (R395 to R397): a WEIGHT_LOAD reads the package's header and entries, unwraps the content key,
then reads, opens and writes its chunks in order. -/

namespace Sys2Proof.Machine

/-- A weight load's chunk of ciphertext: 64 KiB of plaintext and its 16 B tag. -/
def chunkBytes : Nat := 65536

/-- The bytes of plaintext in chunk c of a payload. -/
def chunkLen (payload c : Nat) : Nat := Nat.min chunkBytes (payload - chunkBytes * c)

/-- Fields of a package header (Table 16-6). -/
def wkRecipients (h : List Byte) : Nat := fieldAt h 4 2
def wkPayload (h : List Byte) : Nat := fieldAt h 32 8
def wkChunks (h : List Byte) : Nat := ceilDiv (wkPayload h) chunkBytes
/-- P0 of R395. -/
def wkBase (h : List Byte) : Nat := ceilDiv (160 + 64 * wkRecipients h) 4096 * 4096
/-- PKG_LEN of R395. -/
def wkLength (h : List Byte) : Nat :=
  wkBase h + (chunkBytes + 16) * (wkChunks h - 1) + chunkLen (wkPayload h) (wkChunks h - 1) + 16

/-- The form of a header (step 4 of R396): FORMAT, RECIPIENTS, reserved bytes, PAYLOAD_LEN and PKG_LEN. -/
def wkFormOk (h : List Byte) (pkgLen : Nat) : Bool :=
  fieldAt h 0 4 == 1 && decide (1 ≤ wkRecipients h) && decide (wkRecipients h ≤ 1024) && fieldAt h 6 2 == 0 && fieldAt h 28 4 == 0 &&
    fieldAt h 144 16 == 0 && decide (1 ≤ wkPayload h) && decide (wkPayload h ≤ 2 ^ 44) && wkLength h == pkgLen

/-- The chip's DEVICE_ID (R394). -/
def State.deviceId (s : State) : List Byte :=
  (beBytes 48 (Config.sha384 (beBytes 96 (Config.bindPub s.boot.fuses.serial)))).take 16

/-- The content key that an entry of a package gives this chip (R395): none when no entry names it; some none when the
unwrap fails. -/
def State.unwrapKey (s : State) (header entries : List Byte) : Option (Option (List Byte)) :=
  let es := (List.range (wkRecipients header)).map (fun i => (entries.drop (64 * i)).take 64)
  match es.find? (fun e => e.take 16 == s.deviceId) with
  | none => none
  | some e =>
    let z := Config.ecdh s.boot.fuses.serial ((header.drop 40).take 96)
    let kek := Config.hkdf z ((header.drop 8).take 16) s.deviceId 32
    some (Config.gcmOpen kek (List.replicate 12 0#8) (header.take 160) ((e.drop 16).take 32) ((e.drop 48).take 16))

/-- A load ends: the response carries CHUNKS; ERR_TENSE counts for the withdrawals that cancelled it (R397). -/
def State.endLoad (s : State) (id : Nat) (e : Err) : State :=
  match tget id s.security.loads with
  | none => s
  | some l =>
    let s := { s with security := { s.security with loads := terase id s.security.loads } }
    let s := if e = .tense then
        { s with xlat := { s.xlat with withdrawals := s.xlat.withdrawals.map (fun w =>
            if w.abort ∧ w.hold.contains (.weight id) then { w with aborted := w.aborted + 1 } else w) } }
      else s
    s.answer l.path l.reqId 0x14 (statusBody e (packBytes [(32, l.chunks), (32, 0)]))

/-- A load ends with a violation of class WEIGHT (steps 5 and 7 of R396). -/
def State.weightFails (s : State) (id : Nat) (l : Load) (e : Err) : State :=
  (s.violate 6 (some l.body.partition) l.body.pkgFva e l.path.corePort).endLoad id e

/-- Reads a range of the package for a piece of a load. -/
def State.weightRead (s : State) (id part : Nat) (l : Load) (off len : Nat) : State :=
  let a := l.body.pkgFva + off
  let p := l.body.partition
  match fvaRuns l.pkg (l.pkg.length + 1) a len with
  | some rs =>
    if s.poisonedIn p 0 a rs then s.finish (.weight id part) .poison [] else s.readRuns rs p (.weight id part) 137 false
  | none => s.finish (.weight id part) .unmapped []

/-- The next chunk, or the end; a cancellation falls between pages (R397). -/
def State.nextChunk (s : State) (id : Nat) (l : Load) : State :=
  if l.chunks = wkChunks l.header then s.endLoad id .none
  else if l.cancelled ∧ l.chunks % 32 = 0 then s.endLoad id .tense
  else s.weightRead id 2 l (l.base + (chunkBytes + 16) * l.chunks) (chunkLen (wkPayload l.header) l.chunks + 16)

/-- The pages that a load writes, and the first failing check of step 6. -/
def State.weightPages (s : State) (b : WeightLoad) (payload : Nat) : Err × List Extent :=
  let pages := (List.range (ceilDiv payload (2 ^ 21))).map (fun i => b.dstFva / 2 ^ 21 + i)
  let es := pages.map (fun h => (h, s.pmFind b.partition h))
  let e := firstErr [
    (es.any (fun x => x.2.isNone), .unmapped),
    (es.any (fun x => match x.2 with
      | some (_, e) => !permits e.perm 1
      | none => false), .permission),
    (es.any (fun x => match x.2 with
      | some (_, e) => e.chip != s.chip
      | none => false), .bounds)]
  (e, es.filterMap (fun x => x.2.map (fun y => { fva := x.1 * 2 ^ 21, len := 2 ^ 21, fpa := y.2.fpa, side := false })))

/-- Steps 5 and 6 of R396, then the first chunk. -/
def State.weightKeyed (s : State) (id : Nat) (l : Load) (entries : List Byte) : State :=
  if (entries.drop (64 * wkRecipients l.header)).any (· != 0#8) then s.endLoad id .format
  else if s.get R.SEC_STAT_FW_SVN < fieldAt l.header 24 4 then s.weightFails id l .permission
  else match s.unwrapKey l.header entries with
    | none => s.weightFails id l .permission
    | some none => s.weightFails id l .integrity
    | some (some ck) =>
      match s.weightPages l.body (wkPayload l.header) with
      | (.none, dst) =>
        let l := { l with key := ck, dst := dst }
        ({ s with security := { s.security with loads := tset id l s.security.loads } }).nextChunk id l
      | (e, _) => s.endLoad id e

/-- A chunk has been read: its tag is checked before any byte is written (step 7 of R396). -/
def State.weightChunk (s : State) (id : Nat) (l : Load) (data : List Byte) : State :=
  let n := data.length - 16
  match Config.gcmOpen l.key ((l.header.drop 136).take 8 ++ leBytes 4 l.chunks) (l.header.take 160) (data.take n) (data.drop n) with
  | none => s.weightFails id l .integrity
  | some pt =>
    let a := l.body.dstFva + chunkBytes * l.chunks
    match fvaRuns l.dst (l.dst.length + 1) a n with
    | some rs =>
      if s.poisonedIn l.body.partition 1 a rs then s.endLoad id .poison
      else s.writeRuns rs (pt.take n) l.body.partition (.weight id 3) 137 false none
    | none => s.endLoad id .unmapped

/-- A piece of a load has completed. -/
def State.weightDone (s : State) (id part : Nat) (e : Err) (data : List Byte) : State :=
  match tget id s.security.loads with
  | none => s
  | some l =>
    if e ≠ .none then s.endLoad id e
    else match part with
      | 0 =>
        if wkFormOk data l.body.pkgLen then
          let l := { l with header := data, base := wkBase data }
          ({ s with security := { s.security with loads := tset id l s.security.loads } }).weightRead id 1 l 160 (wkBase data - 160)
        else s.endLoad id .format
      | 1 => s.weightKeyed id l data
      | 2 => s.weightChunk id l data
      | _ =>
        let l := { l with chunks := l.chunks + 1 }
        ({ s with security := { s.security with loads := tset id l s.security.loads } }).nextChunk id l

/-- Steps 1 to 3 of R396. -/
def State.weightErr (s : State) (b : WeightLoad) : Err :=
  firstErr [
    (b.reserved || bit b.dstFva 51 || decide (b.pkgLen < 4096), .format),
    (b.dstFva % 2 ^ 21 != 0, .align),
    (s.partErr b.partition == .disabled, .disabled),
    (s.partErr b.partition == .partition, .partition),
    (s.get R.SEC_STAT_DEBUG != 0, .permission)]

/-- Step 4 of R396: the package is translated and its header read. -/
def State.startLoad (s : State) (h : Hdr) (b : WeightLoad) : State :=
  let no := fun (s : State) (e : Err) => s.refuseWith h 0x14 e (leBytes 8 0)
  let r : Range := ⟨b.pkgFva, b.pkgLen, [0]⟩
  if (topErr [r]).isSome then no s .bounds
  else
    let x := s.xlRanges b.partition [r]
    match x.bad, x.lacking with
    | some (_, a, e), _ => no (s.logWindow b.partition a e) e
    | none, _ :: _ => no s .unmapped
    | none, [] =>
      let id := h.path.code * 2 ^ 64 + h.reqId
      let l : Load := { path := h.path, reqId := h.reqId, body := b, tense := s.tense b.partition, pkg := x.extents, dst := [], header := [],
                        key := [], base := 0, chunks := 0, cancelled := false }
      ({ s with security := { s.security with loads := tset id l s.security.loads } }).weightRead id 0 l 0 160

end Sys2Proof.Machine
end

