-- ==== Sys2Proof/Machine/Settle.lean ====
section
/-! DEFINITION. Settling: what the completion of an access does, by what the access was for, until no completed access of
this chip is left within the step (log entry 8). -/

namespace Sys2Proof.Machine

/-- Cancelled clauses that have reached a segment boundary end (R67). -/
def State.cancelDue (s : State) : State :=
  (s.work.clauses.filter (fun (c : Nat × Clause) => c.2.cancelled && c.2.ending.isNone)).foldl (fun s c => s.cancel c.1) s

/-- Ordinary data traffic of a completed access: its continuation. -/
def State.continue (s : State) (k : Cont) (e : Err) (data : List Byte) : State :=
  match k with
  | .direct id => s.directDone id e data
  | .tile c clause t => s.tileDone c clause t e data
  | .stream c clause n => s.streamDone c clause n e data
  | .clauseRead id chunk dst src => s.clauseReadDone id chunk dst src e data
  | .clauseWrite id chunk fva => s.clauseWriteDone id chunk fva e
  | .clauseIndex id n => if n = 2 ^ 41 then s.tileCoef id e data else s.indexDone id n e data
  | .batchEntry id n => s.batchEntryDone id n e data
  | .batchAtomic id n => s.batchWrite id n e data
  | .arrive id => s.arriveDone id e
  | .counterOp id => s.pieceIn id 0 e 0 0
  | .record q => s.recordDone q e
  | .fetch q => s.fetchDone q e data
  | .extra q => s.extraDone q e data
  | .collRead id chunk => s.collRead id chunk e data
  | .collWrite id chunk => s.collWritten id chunk e
  | .remoteClause id => s.remoteDone id e data
  | .weight id part => s.weightDone id part e data
  | .coef u id => s.coefDone u id e data
  | .program id => s.programDone id e data
  | .arrays id => s.arraysDone id e data
  | .transformRead id chunk => s.transformDone id chunk e data
  | .dir op p page c => s.dirDone op p page c e data
  | .inval op l c => s.invalDone op l c
  | .replInval op c => s.replDone op c
  | .part g i => s.partDone g i e data
  | .fill key block off len k' => s.fillDone key block off len k' e data
  | .answer src tag p t unit op spec => s.sendResponse src tag p t op e unit (if e = .none then data else []) spec
  | .lineFill tile line off len k' => s.lineFilled tile line off len k' e data
  | .dirReply op m => s.dirReplied op m
  | .zeroed fpa => s.frameZeroed fpa
  | .copied p page => s.copied p page e
  | .biRsp slot off => s.emit (.biRsp slot off)
  | .drop => s

/-- Runs the continuations of completed accesses, oldest first. -/
def State.drain : Nat → State → State
  | 0, s => s
  | n + 1, s =>
    match s.home.finished with
    | [] => s
    | (k, e, data) :: r => State.drain n (({ s with home := { s.home with finished := r } }).continue k e data)

/-- What follows when accesses have completed: parked clauses give up their tiles, cancelled ones end, migrations in quiescence go
on, PM_UPDATEs are answered, drained ports and units read DISABLED. -/
def State.tidy (s : State) : State := s.giveParked.cancelDue.moveAll.answerUpdates.settleEdges.restPtus

def State.settleLoop : Nat → State → State
  | 0, s => s
  | n + 1, s => if s.home.finished = [] then s else State.settleLoop n (State.drain (2 ^ 20) s).tidy

/-- The state once every completed access of the step has had its effect. -/
def State.settle (s : State) : State := State.settleLoop (2 ^ 20) s

/-- The outcome of a meaning that may complete accesses. -/
def settled (s : State) : Host.Outcome State Fault Refusal := .next s.settle

end Sys2Proof.Machine
end

