-- ==== Sys2Proof/Machine/ClauseRows.lean ====
section
/-! DEFINITION. The rows of clauses and queues (chapters 3, 7 and 9): fetching, acceptance, triggers, placement, segments,
parking, batches, the data step of each opcode, chunks and completion. -/

namespace Sys2Proof.Machine

/-- A row of clause work on the running chip, with what its completed accesses do. -/
def worked (s : State) (f : State → State) : Host.Outcome State Fault Refusal := settled (s.whenLive f)

/-- DESCRIPTOR_FETCH (R171). -/
def execDescriptorFetch (queue : Nat) (s : State) : Host.Outcome State Fault Refusal :=
  worked s (fun s => s.fetchDescriptor queue)

/-- CLAUSE_ACCEPT (R175). -/
def execClauseAccept (queue : Nat) (s : State) : Host.Outcome State Fault Refusal := worked s (fun s => s.accept queue)

/-- PENDING_TRIGGER_FREE (R179). -/
def execPendingTriggerFree (queue : Nat) (s : State) : Host.Outcome State Fault Refusal :=
  worked s (fun s => s.acceptHeldNow queue)

/-- TRIGGER_RELEASE (R179). -/
def execTriggerRelease (clauseId : Nat) (s : State) : Host.Outcome State Fault Refusal :=
  worked s (fun s => s.trigger clauseId)

/-- QUEUE_TIMEOUT (R486, R226). -/
def execQueueTimeout (clauseId : Nat) (s : State) : Host.Outcome State Fault Refusal :=
  worked s (fun s => s.queueExpired clauseId)

/-- CLAUSE_PLACE (R261). -/
def execClausePlace (clauseId : Nat) (s : State) : Host.Outcome State Fault Refusal := worked s (fun s => s.place clauseId)

/-- SEGMENT_START (R56, R59). -/
def execSegmentStart (clauseId : Nat) (s : State) : Host.Outcome State Fault Refusal :=
  worked s (fun s => s.startSegment clauseId)

/-- CLAUSE_RESUME (R61). -/
def execClauseResume (clauseId : Nat) (s : State) : Host.Outcome State Fault Refusal := worked s (fun s => s.resume clauseId)

/-- PARK_TIMEOUT (R62). -/
def execParkTimeout (clauseId : Nat) (s : State) : Host.Outcome State Fault Refusal :=
  worked s (fun s => s.parkExpired clauseId)

/-- BATCH_TIMEOUT: the open batch goes with CAUSE 1 (R73). -/
def execBatchTimeout (s : State) : Host.Outcome State Fault Refusal := ok (s.whenLive (fun s => s.closeBatch 1))

/-- BATCH_FULL: a batch of BATCH_MAX records goes with CAUSE 0 (R73). -/
def execBatchFull (s : State) : Host.Outcome State Fault Refusal :=
  ok (s.whenLive (fun s => if s.get R.XLAT_FB_CTL_BATCH_MAX ≤ s.xlat.openBatch.length then s.closeBatch 0 else s))

/-- CHUNK_COMPLETE (R182). -/
def execChunkComplete (clauseId chunk : Nat) (s : State) : Host.Outcome State Fault Refusal :=
  worked s (fun s => s.completeChunk clauseId chunk)

/-- CLAUSE_COMPLETE (R177). -/
def execClauseComplete (clauseId : Nat) (s : State) : Host.Outcome State Fault Refusal :=
  worked s (fun s => s.complete clauseId)

/-- COPY (R174). -/
def execCopy (clauseId : Nat) (s : State) : Host.Outcome State Fault Refusal :=
  worked s (fun s => s.dataStep clauseId 1 (fun k s => s.copyData clauseId k))

/-- COPY2D (R57, Table 7-10). -/
def execCopy2d (clauseId : Nat) (s : State) : Host.Outcome State Fault Refusal :=
  worked s (fun s => s.dataStep clauseId 2 (fun k s => s.copyData clauseId k))

/-- FILL (R174). -/
def execFill (clauseId : Nat) (s : State) : Host.Outcome State Fault Refusal :=
  worked s (fun s => s.dataStep clauseId 3 (fun k s => s.fillData clauseId k))

/-- GATHER (R174). -/
def execGather (clauseId : Nat) (s : State) : Host.Outcome State Fault Refusal :=
  worked s (fun s => s.dataStep clauseId 4 (fun k s => s.indexData clauseId k (k.newSegs.flatMap (segElems k.desc))))

/-- SCATTER; `order` is the order in which colliding elements land (R174). -/
def execScatter (clauseId : Nat) (order : List Nat) (s : State) : Host.Outcome State Fault Refusal :=
  worked s (fun s => s.dataStep clauseId 5 (fun k s =>
    s.indexData clauseId k (scatterOrder order (k.newSegs.flatMap (segElems k.desc)))))

/-- ATOMIC_BATCH (Table 7-12). -/
def execAtomicBatch (clauseId : Nat) (s : State) : Host.Outcome State Fault Refusal :=
  worked s (fun s => s.dataStep clauseId 6 (fun _ s => s.batchStep clauseId))

/-- REDUCE (R217). -/
def execReduce (clauseId chunk : Nat) (s : State) : Host.Outcome State Fault Refusal :=
  worked s (fun s => s.collChunk clauseId 0x10 chunk)

/-- ALLREDUCE (R217). -/
def execAllreduce (clauseId chunk : Nat) (s : State) : Host.Outcome State Fault Refusal :=
  worked s (fun s => s.collChunk clauseId 0x11 chunk)

/-- REDUCE_SCATTER (R217). -/
def execReduceScatter (clauseId chunk : Nat) (s : State) : Host.Outcome State Fault Refusal :=
  worked s (fun s => s.collChunk clauseId 0x12 chunk)

/-- ALLGATHER (R217). -/
def execAllgather (clauseId chunk : Nat) (s : State) : Host.Outcome State Fault Refusal :=
  worked s (fun s => s.collChunk clauseId 0x13 chunk)

/-- BROADCAST (R217). -/
def execBroadcast (clauseId chunk : Nat) (s : State) : Host.Outcome State Fault Refusal :=
  worked s (fun s => s.collChunk clauseId 0x14 chunk)

/-- ALLTOALL (R217). -/
def execAlltoall (clauseId chunk : Nat) (s : State) : Host.Outcome State Fault Refusal :=
  worked s (fun s => s.collChunk clauseId 0x15 chunk)

/-- ALLTOALLV (R222). -/
def execAlltoallv (clauseId chunk : Nat) (s : State) : Host.Outcome State Fault Refusal :=
  worked s (fun s => s.collChunk clauseId 0x16 chunk)

/-- Schedules a TRANSFORM: on an eligible unit's list, or on tiles, which read COEF first (R278). -/
def State.schedule (s : State) (id : Nat) (k : Clause) : State :=
  if k.stage ≠ .waiting ∨ k.untriggered ∨ k.ptu.isSome ∨ k.extra ≠ [] ∨ !k.flying.isEmpty then
    -- On tiles: COEF is read once the clause stands on one.
    if k.ptu.isNone ∧ k.placed ≠ [] ∧ k.extra = [] ∧ k.flying.isEmpty ∧ k.stage = .running then
      (s.pieceOut id (2 ^ 41)).clauseFetch k (tCoef k.desc) (tCoefLen k.desc) (.clauseIndex id (2 ^ 41))
    else s
  else match s.chooseUnit k with
    | some u => (s.modClause id (fun k => { k with ptu := some u })).modPtu u (fun p => { p with waiting := p.waiting ++ [id] })
    | none => s.place id

/-- TRANSFORM (R278). -/
def execTransform (clauseId : Nat) (s : State) : Host.Outcome State Fault Refusal :=
  worked s (fun s => match s.clauseAt clauseId with
    | some k => if descOp k.desc = 0x20 ∧ k.ending.isNone then s.schedule clauseId k else s
    | none => s)

/-- KERNEL: the program image is loaded into the context that the clause was placed on, which then runs it (R117, R145, Table
6-7). -/
def execKernel (clauseId : Nat) (s : State) : Host.Outcome State Fault Refusal :=
  worked s (fun s => match s.clauseAt clauseId with
    | some k =>
      if descOp k.desc = 0x30 ∧ k.ending.isNone ∧ k.issued = 0 ∧ k.stage = .running ∧ k.placed ≠ [] then
        (s.modClause clauseId (fun k => { k with issued := 1, timed := true })).loadProgram clauseId k
      else s
    | none => s)

/-- The one chunk of a clause without operands counts, and the clause completes. -/
def State.finishOnce (s : State) (id : Nat) : State :=
  (((s.modClause id Clause.worked).completeChunk id 0).settle).complete id

/-- FENCE (R178). -/
def execFenceClause (clauseId : Nat) (s : State) : Host.Outcome State Fault Refusal :=
  worked s (fun s => s.once clauseId 0x40 (fun k s => if s.fenceMet clauseId k then s.finishOnce clauseId else s))

/-- COUNTER_OP (R184): ADD or SET on the counter, wherever it lies. -/
def execCounterOp (clauseId : Nat) (s : State) : Host.Outcome State Fault Refusal :=
  worked s (fun s => s.once clauseId 0x41 (fun k s =>
    ((s.modClause clauseId Clause.worked).pieceOut clauseId 0).issueCounter (fieldAt k.desc 32 8)
      (if bit (fieldAt k.desc 48 1) 0 then 3 else 1) (fieldAt k.desc 40 8) k.partition (.counterOp clauseId) 137))

/-- WAIT (R180): a counter that already meets the threshold completes it. -/
def execWait (clauseId : Nat) (s : State) : Host.Outcome State Fault Refusal :=
  worked s (fun s => s.once clauseId 0x42 (fun k s => if s.waitMet k then s.finishOnce clauseId else s))

/-- WAIT_SATISFIED (R180). -/
def execWaitSatisfied (clauseId : Nat) (s : State) : Host.Outcome State Fault Refusal :=
  worked s (fun s => s.once clauseId 0x42 (fun k s => if s.waitMet k then s.finishOnce clauseId else s))

/-- WAIT_TIMEOUT: ERR_TIMEOUT, and the queue drains with it (R180). -/
def execWaitTimeout (clauseId : Nat) (s : State) : Host.Outcome State Fault Refusal :=
  worked s (fun s => s.once clauseId 0x42 (fun k s =>
    if k.met then s
    else ((s.endWithCode clauseId .timeout noSeg 0).drainQueue k.queue .timeout).complete clauseId))

/-- HELD_DESCRIPTOR_TIMEOUT: ERR_RESOURCE, and fetching goes on (R179). -/
def execHeldDescriptorTimeout (queue : Nat) (s : State) : Host.Outcome State Fault Refusal :=
  worked s (fun s => match s.queue queue with
    | some r =>
      match r.held, r.fetched with
      | true, some (d, _) => s.refuseClause queue d .resource 0
      | _, _ => s
    | none => s)

end Sys2Proof.Machine
end

