-- ==== Sys2Proof/Machine/PtuRows.lean ====
section
/-! DEFINITION. The rows of the photonic transform units (chapter 11): clause start, pilot checks, calibration, carrier,
enable and drain. -/

namespace Sys2Proof.Machine

/-- A unit serves its list: ACTIVE or DRAINING, with its carrier, and not calibrating. -/
def State.ptuServes (s : State) (u : Nat) : Bool :=
  decide (u < 4) && (s.ptuState u == 2 || s.ptuState u == 3) && !(s.ptu u).calibrating && !(s.ptu u).carrierLost

/-- TRANSFORM_START: COEF of the head of the list is read once (R268); it is checked and programmed as it comes. -/
def execTransformStart (unit : Nat) (s : State) : Host.Outcome State Fault Refusal :=
  worked s (fun s =>
    let s := s.restPtu unit
    let p := s.ptu unit
    if !s.ptuServes unit ∨ p.running.isSome ∨ p.asking then s
    else match p.waiting with
      | [] => s
      | id :: _ => match s.clauseAt id with
        | none => s.modPtu unit (fun p => { p with waiting := p.waiting.drop 1 })
        | some k =>
          if k.stage = .parked then s
          else if k.extra ≠ [] then s.seatOn unit id k k.extra
          else (s.modPtu unit (fun p => { p with asking := true })).clauseFetch k (tCoef k.desc) (tCoefLen k.desc) (.coef unit id))

/-- Vectors that a passing pilot releases: written to DST, counted. -/
def State.release_ (s : State) (u : Nat) : State :=
  let p := s.ptu u
  let n := p.heldVecs
  let s := (s.wrap (R.PTU_VECTORS_VECTORS u) n).modPtu u (fun p => { p with heldVecs := 0, held := [], lastFailed := false })
  match p.running with
  | none => s
  | some id => match s.clauseAt id with
    | none => s.ptuNext u
    | some k =>
      let s := s.writeVectors id k.vecsDone p.held
      (s.modClause id (fun k => { k with indices := tset (2 ^ 42) (k.vecsDone + n) k.indices })).ptuNext u

/-- PILOT_CHECK (R277). -/
def execPilotCheck (unit : Nat) (pass : Bool) (s : State) : Host.Outcome State Fault Refusal :=
  worked s (fun s =>
    if !s.ptuServes unit then s
    else if pass then (s.release_ unit).restPtu unit
    else
      let p := s.ptu unit
      let s := (s.count (R.PTU_COUNT_PILOT_FAILS unit)).modPtu unit (fun p =>
        { p with heldVecs := if p.running = none then p.heldVecs else 0, held := [], lastFailed := true })
      if p.lastFailed then s.ptuFail unit else s.warm unit)

/-- WARM_CALIBRATION (R276). -/
def execWarmCalibration (unit : Nat) (s : State) : Host.Outcome State Fault Refusal :=
  ok (s.whenLive (fun s => if s.ptuServes unit then s.warm unit else s))

/-- WARM_CALIBRATION_DONE: the paused clause, or the discarded vectors, go on (R276). -/
def execWarmCalibrationDone (unit : Nat) (s : State) : Host.Outcome State Fault Refusal :=
  worked s (fun s =>
    if (s.ptu unit).calibrating then ((s.modPtu unit (fun p => { p with calibrating := false })).ptuNext unit).restPtu unit else s)

/-- COLD_CALIBRATION_DONE (R276); a rotation unit then holds H in mesh mode (R278). -/
def execColdCalibrationDone (unit : Nat) (s : State) : Host.Outcome State Fault Refusal :=
  ok (s.whenLive (fun s =>
    if unit < 4 ∧ s.ptuState unit = 1 then
      let s := s.set (R.PTU_STAT_STATE unit) 2
      s.restPtu unit
    else s))

/-- CARRIER_LOSS: the feed stops and unchecked vectors are discarded (R280). -/
def execCarrierLoss (unit : Nat) (s : State) : Host.Outcome State Fault Refusal :=
  ok (s.whenLive (fun s =>
    if unit < 4 ∧ 1 ≤ s.ptuState unit ∧ s.ptuState unit ≤ 3 then
      (s.set (R.PTU_STAT_CARRIER unit) 0).modPtu unit (fun p =>
        { p with heldVecs := if p.running = none then p.heldVecs else 0, held := [], carrierLost := true })
    else s))

/-- CARRIER_RETURN: a warm calibration, then the unit resumes (R280). -/
def execCarrierReturn (unit : Nat) (s : State) : Host.Outcome State Fault Refusal :=
  ok (s.whenLive (fun s =>
    if unit < 4 ∧ (s.ptu unit).carrierLost then
      let s := (s.set (R.PTU_STAT_CARRIER unit) 1).modPtu unit (fun p => { p with carrierLost := false })
      if s.ptuState unit = 2 ∨ s.ptuState unit = 3 then s.warm unit else s
    else s))

/-- CARRIER_LOSS_TIMEOUT: the work moves, the unit leaves service, the event is logged (R280). -/
def execCarrierLossTimeout (unit : Nat) (s : State) : Host.Outcome State Fault Refusal :=
  worked s (fun s => if unit < 4 ∧ (s.ptu unit).carrierLost ∧ s.ptuState unit ≤ 3 then s.ptuFail unit else s)

/-- A write of PTU_CTL.ENABLE (R281). -/
def State.enablePtu (s : State) (u : Nat) (on : Bool) : State :=
  let st := s.ptuState u
  if on then
    if st = 3 then s.set (R.PTU_STAT_REFUSED u) 1
    else
      let s := s.set (R.PTU_CTL_ENABLE u) 1
      if st = 4 then (s.set (R.PTU_STAT_STATE u) 1).setPtu u (s.coldPtu u (s.ptu u).coef) else s
  else
    let s := s.set (R.PTU_CTL_ENABLE u) 0
    if st = 1 ∨ st = 2 then (s.set (R.PTU_STAT_STATE u) 3).restPtu u
    else if st = 5 then s.set (R.PTU_STAT_STATE u) 4
    else s

/-- PTU_DISABLE: 0 to PTU_CTL.ENABLE (R281). -/
def execPtuDisable (unit : Nat) (s : State) : Host.Outcome State Fault Refusal :=
  ok (s.whenLive (fun s => if unit < 4 then s.enablePtu unit false else s))

/-- PTU_ENABLE: 1 to PTU_CTL.ENABLE (R281). -/
def execPtuEnable (unit : Nat) (s : State) : Host.Outcome State Fault Refusal :=
  ok (s.whenLive (fun s => if unit < 4 then s.enablePtu unit true else s))

/-- PTU_DRAIN_TIMEOUT: the clauses that remain end with ERR_ABORTED (R281, R446). -/
def execPtuDrainTimeout (unit : Nat) (s : State) : Host.Outcome State Fault Refusal :=
  worked s (fun s =>
    if unit < 4 ∧ s.ptuState unit = 3 then
      let p := s.ptu unit
      let s := (p.running.toList ++ p.waiting).foldl State.abortClause s
      (s.modPtu unit (fun p => { p with running := none, waiting := [], heldVecs := 0, held := [], calibrating := false,
                                        carrierLost := false })).restPtu unit
    else s)

end Sys2Proof.Machine
end

