-- ==== Sys2Proof/Machine/Loss.lean ====
section
/-! DEFINITION. Loss and return of other chips (R447 to R452): reachability entries and what a mark does. -/

namespace Sys2Proof.Machine

/-- STATE of a chip's entry: 0 NEVER, 1 REACHABLE, 2 LOST. -/
def State.reachState (s : State) (u : Nat) : Nat := ((tget u s.tele.reach).map Reach.state).getD 0

def State.setReach (s : State) (u st how : Nat) : State :=
  { s with tele := { s.tele with reach := tset u { state := st, how := how, tick := s.tick % 2 ^ 32 } s.tele.reach } }

/-- NEVER becomes REACHABLE when a burst or a frame of a chip arrives (Table 19-4). -/
def State.heardFrom (s : State) (u : Nat) : State :=
  if u ≠ s.chip ∧ s.reachState u = 0 then s.setReach u 1 0 else s

/-- The hops to a direct peer, as fibre and line. -/
def State.hopsTo (s : State) (u : Nat) : List (Nat × Nat) :=
  match s.directDim u with
  | none => []
  | some d => ((List.range 32).filter (fun f => s.planeDim f == d)).map (fun f => (f, s.lineToward f u))

def State.anyHopUp (s : State) (u : Nat) : Bool := (s.hopsTo u).any (fun h => (s.hop (hopKey h.1 h.2)).up)

/-- The payload of a response to a request that goes no further: a directory exchange returns its fields with STATUS filled in
(Table 10-5), every other none. -/
def bouncePayload (a : Article) (payload : List Byte) (e : Err) : List Byte :=
  match a.opcode, payload with
  | 6, op :: _ :: r => BitVec.ofNat 8 (op.toNat + 128) :: BitVec.ofNat 8 e.code :: r
  | _, _ => []

/-- Answers a request that goes no further with a code (R291, R292, R295); its sender is another chip, or this one, whose
transaction ends. A response ends silently. -/
def State.bounce (s : State) (x : Frame) (e : Err) : State :=
  let a := x.art
  if 1 ≤ a.opcode ∧ a.opcode ≤ 7 then
    if a.srcChip = s.chip then s.respond { src := s.chip, tag := a.tag, status := e } (a.opcode + 7) []
    else s.sendResponse a.srcChip a.tag a.partition a.tense (a.opcode + 7) (if a.opcode = 6 then .none else e) (fpaUnit a.dest)
      (bouncePayload a x.payload e) (bit a.flags flSpec)
  else s

/-- Frees the frames of the buffer whose destination is a chip marked unreachable; a request of another chip is answered
(R292). -/
def State.freeFramesTo (s : State) (u : Nat) : State :=
  let s := { s with fabric := { s.fabric with waitIn := s.fabric.waitIn.filter (fun w => fpaChip w.frame.art.dest != u) } }
  (s.fabric.frames.filter (fun (e : Nat × FrameSlot) => fpaChip e.2.frame.art.dest == u && !bit e.2.frame.art.flags flMcast)).foldl
    (fun s e =>
      let s := s.removeFrame e.1
      if e.2.frame.art.srcChip = s.chip then s else s.bounce e.2.frame .unreachable) s

/-- Frames granted to a hop and not yet sent go back to their queues under a new lookup. -/
def State.requeue (s : State) (k : Nat) (ids : List Nat) : State :=
  ids.foldl (fun s id =>
    match tget id s.fabric.frames with
    | none => s
    | some e =>
      -- A multicast frame does not go to that peer any more; an ordered one keeps its pinned plane where it can.
      if bit e.frame.art.flags flMcast then
        (s.modSlot id (fun e => { e with holds := e.holds.filter (· != k), mlines := e.mlines.filter (· != k % 64) })).dropIfFree id
      else
      let o := s.lookup e.frame.art ((e.out.map (· - 32)).getD 0)
      s.modSlot id (fun e => { e with queued := true, holds := e.holds.filter (· != k), out := o.map Prod.fst,
                                      line := (o.map (fun x => x.2.1)).getD 0 })) s

/-- With no hop left to a peer: its held and granted frames that go on elsewhere take a new lookup (R292). -/
def State.strand (s : State) (k : Nat) : State :=
  let h := s.hop k
  let s := s.modHop k (fun h => { h with granted := [], held := [], sentAt := [] })
  s.requeue k (h.held.map Prod.snd ++ h.granted)

/-- Ends the outstanding requests to a chip with ERR_UNREACHABLE; quarantined tags are free again (R307, R450). -/
def State.endTags (s : State) (u : Nat) : State :=
  let s := (s.fabric.track.filter (fun (t : Nat × Track) => fpaChip t.2.dest == u)).foldl (fun s t =>
    if t.2.quarantined then s.freeTag t.1 else (s.freeTag t.1).finish t.2.cont .unreachable []) s
  let w := s.fabric.waitTag.filter (fun w => fpaChip w.1.art.dest == u)
  let s := { s with fabric := { s.fabric with waitTag := s.fabric.waitTag.filter (fun w => fpaChip w.1.art.dest != u) } }
  w.foldl (fun s w => s.finish w.2.1 .unreachable []) s

/-- L1 lines and stream entries homed on a chip go, and its sharer records (R129). -/
def State.dropHomedOn (s : State) (u : Nat) : State :=
  { s with home := { s.home with
      tiles := s.home.tiles.map (fun (t : Nat × Tile) =>
        (t.1, t.2.drop (((tkeys t.2.l1) ++ t.2.entries.map (fun (e : Nat × StreamEntry) => e.2.line)).filter
          (fun l => l * 128 / 2 ^ 49 == u)))),
      sharers := (s.home.sharers.map (fun (e : Nat × List Nat) => (e.1, e.2.filter (· != u)))).filter (fun e => e.2 != []) } }

/-- Replicas of pages homed on a chip: kept only for a page with STALE_OK (R259). -/
def State.keepStale (s : State) (u : Nat) : State :=
  (s.parser.replicas.filter (fun (r : Nat × Replica) => r.1 / 2 ^ 28 == u)).foldl (fun s r =>
    match s.pmFind r.2.partition r.2.page with
    | some (_, e) => if e.staleOk ∧ e.fpa / 2 ^ 21 = r.1 then s else s.freeReplica r.1
    | none => s.freeReplica r.1) s

/-- Directory registrations and replica records of a chip end (R450); a migration whose page it is registered for, or to which it
goes, is abandoned before its switch (R50). -/
def State.endRecords (s : State) (u : Nat) : State :=
  let s := (s.parser.migrations.filter (fun m => decide (m.step < 5) && (fpaChip m.newFpa == u || (s.regsOf m).contains u))).foldl
    (fun s m => s.abandon m.partition m.page) s
  (s.parser.dir.map (fun (d : Nat × DirRec) => d.2)).foldl (fun s d =>
    let s := s.replicaGone d.frame u false
    if d.registered.contains u then s.unregister d.frame u else s) s

/-- ABORT_NOTICE of kind 1 (R451, Table 15-10): at most 1,023 ranges in one notice. -/
def State.lostNotice (s : State) (u : Nat) (rs : List (Nat × Nat × Nat)) : State :=
  let n := max 1 (ceilDiv rs.length 1023)
  (List.range n).foldl (fun s i =>
    let part := (rs.drop (1023 * i)).take 1023
    s.sendOwn 0x50 (packBytes [(8, 1), (8, Err.code .unreachable), (15, s.chip), (1, 0), (12, 0), (4, 0), (14, 0), (2, 0),
      (32, 0), (15, u), (1, 0), (11, part.length), (4, 0), (1, b2n (decide (i + 1 < n)))] ++ part.flatMap rangeBytes)) s

/-- Groups with an instance here in which a chip is a member are marked ABORTED (R236, R450). -/
def State.abortGroupsWith (s : State) (u : Nat) : State :=
  (s.coll.groups.filter (fun (g : Nat × Group) => g.2.state == 1 && s.isMember g.2.body u && g.2.inst != [])).foldl (fun s g =>
    s.abortGroup g.1 ((g.2.inst.head?.map Instance.number).getD 0) (Err.code .unreachable) s.chip) s

/-- Marks a chip LOST: how is 0 direct loss, 1 relayed loss, 2 FAULT_MARK (R450, R451). -/
def State.markLost (s : State) (u how : Nat) : State :=
  if u = s.chip ∨ s.reachState u = 2 ∨ (s.reachState u = 0 ∧ how ≠ 2) then s
  else
    let s := (s.setReach u 2 how).wrap R.FAULT_STAT_LOST_CHIPS
    let hit := fun (e : PmEntry) => e.chip == u && !e.poison
    let ps := (s.xlat.pageMap.filter (fun (e : Nat × PmEntry) => hit e.2)).map (fun (e : Nat × PmEntry) => (e.2.partition, e.2.page))
    let s := { s with xlat := { s.xlat with pageMap := s.xlat.pageMap.map (fun (e : Nat × PmEntry) =>
        (e.1, if hit e.2 then { e.2 with poison := true } else e.2)) } }
    let s := ((s.keepStale u).dropHomedOn u).endTags u
    let s := ((s.endRecords u).freeFramesTo u).abortGroupsWith u
    let s := (s.hopsTo u).foldl (fun s h => if (s.hop (hopKey h.1 h.2)).up then s else s.strand (hopKey h.1 h.2)) s
    let s := s.logFault 2 (u + how * 2 ^ 16) 0 0
    if how = 0 ∨ ps ≠ [] then s.lostNotice u (pageRanges ps) else s

/-- LOST becomes REACHABLE: a hop entered service, or FAULT_MARK with OP 1 (R452). -/
def State.markBack (s : State) (u : Nat) : State :=
  if s.reachState u = 2 then
    ((s.setReach u 1 (((tget u s.tele.reach).map Reach.how).getD 0)).less R.FAULT_STAT_LOST_CHIPS).logFault 3 u 0 0
  else s

/-- Relayed loss (R449): a response with ERR_UNREACHABLE from a chip other than the destination. -/
def State.relayedLoss (s : State) (u src : Nat) : State :=
  if src = u ∨ s.reachState u ≠ 1 ∨ s.anyHopUp u then s else s.markLost u 1

/-- Whether a hop to a peer went down by loss of light on an ACTIVE fibre that still hears another chip (R448). -/
def State.directLoss (s : State) (u f : Nat) : State :=
  if s.reachState u = 1 ∧ !s.anyHopUp u ∧ s.fibre f = 2 ∧ (s.hop (hopKey f (s.lineToward f u))).lostByLight then s.markLost u 0
  else s

end Sys2Proof.Machine
end

