-- ==== Sys2Proof/Machine/Trunk.lean ====
section
/-! DEFINITION. Hops, fibres and lasers (chapters 12 and 13): sequence spaces and retry holds, bursts, hops that go down and
come up, drains, replacements of LSMs. -/

namespace Sys2Proof.Machine

/-! ### Geometry -/

/-- The chip that a drop ring hears (R313). -/
def State.hearsFrom (s : State) (f line : Nat) : Nat :=
  let d := s.planeDim f
  s.withCoord s.chip d ((s.coord s.chip d + dimSize d - line % dimSize d) % dimSize d)

/-- The drop ring of the reverse direction of a transmit line, and back. -/
def State.backLine (s : State) (f line : Nat) : Nat := (dimSize (s.planeDim f) - line % dimSize (s.planeDim f)) % dimSize (s.planeDim f)

/-- The hop behind a drop ring. -/
def State.rxHop (s : State) (f line : Nat) : Nat := hopKey f (s.backLine f line)

/-- The hop that a message concerns: its plane toward its author. -/
def State.msgHop (s : State) (m : LinkCtl) : Nat := hopKey m.plane (s.lineToward m.plane m.src)

/-- The peer of a hop. -/
def State.hopPeer (s : State) (k : Nat) : Nat := s.peerOf (k / 64) (k % 64)

/-- Another hop in service to the same peer. -/
def State.otherHop (s : State) (k : Nat) : Option Nat :=
  ((s.hopsTo (s.hopPeer k)).map (fun h => hopKey h.1 h.2)).find? (fun j => j != k && (s.hop j).up)

/-- Standing credit of a VC (R320). -/
def State.standing (s : State) (f vc : Nat) : Nat :=
  match vc with
  | 0 => s.get (R.OPT_CREDIT_STANDING_0 f)
  | 1 => s.get (R.OPT_CREDIT_STANDING_1 f)
  | 2 => s.get (R.OPT_CREDIT_STANDING_2 f)
  | 3 => s.get (R.OPT_CREDIT_STANDING_3 f)
  | 4 => s.get (R.OPT_CREDIT_STANDING_4 f)
  | _ => s.get (R.OPT_CREDIT_STANDING_5 f)

def State.standingAll (s : State) (f : Nat) : Tbl Nat := (List.range 6).map (fun v => (v, s.standing f v))

/-- A ring locked to its line: in service or down. -/
def State.txLocked (s : State) (f l : Nat) : Bool := s.get (R.OPT_TXLINE_STATE f l) == 2 || s.get (R.OPT_TXLINE_STATE f l) == 4
def State.rxLocked (s : State) (f l : Nat) : Bool := s.get (R.OPT_RXLINE_STATE f l) == 2 || s.get (R.OPT_RXLINE_STATE f l) == 4

/-- Planes whose rings are locked: ACTIVE, DRAINING or DISABLED (R15, R336). -/
def State.lockedCount (s : State) : Nat := (List.range 32).countP (fun f => s.fibre f == 2 || s.fibre f == 3 || s.fibre f == 4)

/-- FABRIC_READY falls when too few planes are locked (R17). -/
def State.readyCheck (s : State) : State :=
  match s.boot.stem with
  | some t => if s.lockedCount < t.minPlanes then { s with fabric := { s.fabric with fabricReady := false } } else s
  | none => s

/-- A plane leaves the bulk mask (R262). -/
def State.leaveBulk (s : State) (f : Nat) : State := s.set R.PARSER_PLANES_BULK (clearBit (s.get R.PARSER_PLANES_BULK) f)

/-! ### Retry holds (R294) -/

/-- LSEQ of a multicast frame stands in the held list with this much added. -/
def mSpace : Nat := 2 ^ 24

/-- A held frame has been acknowledged on a hop. -/
def State.release (s : State) (k lseq id : Nat) : State :=
  let sent := (tget lseq (s.hop k).sentAt).getD s.tick
  let s := s.modHop k (fun h => { h with held := h.held.filter (· != (lseq, id)), sentAt := terase lseq h.sentAt, resends := 0,
                                         mAcked := if mSpace ≤ lseq then some (lseq % mSpace) else h.mAcked })
  let s := (s.modSlot id (fun e => { e with holds := e.holds.filter (· != k) })).dropIfFree id
  s.sample 5 (s.since sent) (some (32 + k / 64)) none

/-- Held frames of a space that lie before a named LSEQ, modulo 2^24. In the multicast space 0 names the first frame as long as the
peer has acknowledged none. -/
def State.before (s : State) (k kind lseq : Nat) : List (Nat × Nat) :=
  if kind = 1 ∧ lseq = 0 ∧ (s.hop k).mAcked.isNone then []
  else (s.hop k).held.filter (fun h => decide (mSpace ≤ h.1) == (kind == 1) &&
    decide (0 < (lseq + mSpace - h.1 % mSpace) % mSpace) && decide ((lseq + mSpace - h.1 % mSpace) % mSpace ≤ 2 ^ 23))

/-- A cumulative acknowledgement of a space: everything held up to the named LSEQ; an LSEQ that is not held acknowledges
nothing. -/
def State.ackUpTo (s : State) (k kind lseq : Nat) : State :=
  let mine := (s.hop k).held.filter (fun h => decide (mSpace ≤ h.1) == (kind == 1))
  let key := lseq % mSpace + mSpace * kind
  if mine.any (fun h => h.1 == key) then
    ((mine.takeWhile (fun h => h.1 != key)) ++ (mine.filter (fun h => h.1 == key))).foldl (fun s h => s.release k h.1 h.2) s
  else s

/-! ### Arbitration of an output (R297, R302) -/

/-- Queue of R297: for VC4 one per accelerator slot, whose ports count as one input. -/
def State.voqInput (s : State) (e : FrameSlot) : Nat :=
  if e.frame.art.vc = 4 ∧ e.inPort < 32 then 200 + s.get (R.EDGE_STAT_SLOT e.inPort) else e.inPort

/-- Whether a frame is at the head of its queue. -/
def State.atHead (s : State) (e : FrameSlot) : Bool :=
  s.fabric.frames.all (fun (o : Nat × FrameSlot) => !o.2.queued || decide (e.seq ≤ o.2.seq) || o.2.out != e.out ||
    o.2.frame.art.vc != e.frame.art.vc || s.voqInput o.2 != s.voqInput e)

/-- The hops that a frame queued for a fibre goes to. -/
def FrameSlot.hops (e : FrameSlot) (f : Nat) : List Nat := if e.mlines = [] then [hopKey f e.line] else e.mlines.map (hopKey f)

/-- Whether a frame may leave now: at the head of its queue, toward a local unit or hops in service with credit for all of it
(R293). -/
def State.canGo (s : State) (e : FrameSlot) : Bool :=
  e.queued && s.atHead e && (match e.out with
    | none => false
    | some p => decide (p < 32) || decide (64 ≤ p) ||
        (e.hops (p - 32)).all (fun k => (s.hop k).up && decide (cellsOf e.frame.art.length ≤ s.creditOf k e.frame.art.vc)))

/-- VC3, VC5, VC4 and VC1 go first, in that order. -/
def vcRank (vc : Nat) : Nat := match vc with
  | 3 => 0
  | 5 => 1
  | 4 => 2
  | 1 => 3
  | _ => 4

/-- The flow of a frame on VC0 or VC2: its VC and traffic class (log entry 136). -/
def flowOf (a : Article) : Nat := a.vc * 8 + a.tc

/-- The weight of a traffic class. -/
def State.tcWeight (s : State) (tc : Nat) : Nat :=
  match tc with
  | 0 => s.get R.SWC_TC_WEIGHT_WEIGHT_0
  | 1 => s.get R.SWC_TC_WEIGHT_WEIGHT_1
  | 2 => s.get R.SWC_TC_WEIGHT_WEIGHT_2
  | 3 => s.get R.SWC_TC_WEIGHT_WEIGHT_3
  | 4 => s.get R.SWC_TC_WEIGHT_WEIGHT_4
  | 5 => s.get R.SWC_TC_WEIGHT_WEIGHT_5
  | 6 => s.get R.SWC_TC_WEIGHT_WEIGHT_6
  | _ => s.get R.SWC_TC_WEIGHT_WEIGHT_7

/-- A flow's turn in the round robin: the flow, the bytes of its head, the rounds it needs, its place in the present round. -/
structure FlowTurn where
  flow : Nat
  bytes : Nat
  rounds : Nat
  place : Nat

/-- Bytes a flow gains in a round (log entry 136). -/
def State.quantum (s : State) (flow : Nat) : Nat := s.tcWeight (flow % 8) * (Config.drrUnit + 1)

/-- The turns of the flows that have a frame to send, given as flow and bytes: the present flow goes on while its deficit covers its
head. -/
def State.flowTurns (s : State) (a : Arbiter) (flows : List (Nat × Nat)) : List FlowTurn :=
  let cyc := flows.filter (fun f => decide (a.turn ≤ f.1)) ++ flows.filter (fun f => decide (f.1 < a.turn))
  cyc.zipIdx.map (fun (f, i) =>
    let r := ceilDiv (f.2 - (tget f.1 a.deficit).getD 0) (s.quantum f.1)
    { flow := f.1, bytes := f.2, rounds := r, place := if f.1 = a.turn ∧ 0 < r then cyc.length else i })

/-- The flow that sends next: the fewest rounds, then the earliest place. -/
def firstTurn : List FlowTurn → Option FlowTurn
  | [] => none
  | x :: r => match firstTurn r with
    | none => some x
    | some y => if x.rounds < y.rounds ∨ (x.rounds = y.rounds ∧ x.place ≤ y.place) then some x else some y

/-- The arbiter after a flow's head has gone: every flow has the quanta of the rounds that passed. -/
def State.afterTurn (s : State) (a : Arbiter) (ts : List FlowTurn) (x : FlowTurn) : Arbiter :=
  let visits := fun (t : FlowTurn) => if x.rounds = 0 then 0 else if t.place ≤ x.place then x.rounds else x.rounds - 1
  { a with turn := x.flow, deficit := ts.foldl (fun d t =>
      tset t.flow ((tget t.flow a.deficit).getD 0 + visits t * s.quantum t.flow - (if t.flow = x.flow then t.bytes else 0)) d) [] }

/-- The next of some frames of one VC, inputs taking turns. -/
def State.nextOf (s : State) (a : Arbiter) (vc : Nat) (c : List (Nat × FrameSlot)) : Option (Nat × FrameSlot) :=
  let after := ((tget vc a.lastIn).getD 0) + 1
  let place := fun (e : FrameSlot) => (s.voqInput e + 1024 - after) % 1024
  c.foldl (fun b e => match b with
    | none => some e
    | some x => if place e.2 < place x.2 then some e else some x) none

def Arbiter.fresh : Arbiter := { lastIn := [], turn := 0, deficit := [] }

/-- Flows of some frames, ascending, with the bytes of the frame that each would send. -/
def State.flows (s : State) (a : Arbiter) (c : List (Nat × FrameSlot)) : List (Nat × Nat) :=
  (List.range 24).filterMap (fun f =>
    (s.nextOf a (f / 8) (c.filter (fun e => flowOf e.2.frame.art == f))).map (fun e => (f, 40 + e.2.frame.art.length)))

/-- The frame that an output grants next among those that pass a test, and its arbiter then. -/
def State.granted (s : State) (p : Nat) (test : FrameSlot → Bool) : Option (Nat × Arbiter) :=
  let a := (tget p s.fabric.arbiters).getD Arbiter.fresh
  let c := s.fabric.frames.filter (fun (e : Nat × FrameSlot) => e.2.out == some p && test e.2 && s.canGo e.2)
  let took := fun (a : Arbiter) (e : Nat × FrameSlot) =>
    (e.1, { a with lastIn := tset e.2.frame.art.vc (s.voqInput e.2) a.lastIn })
  match [3, 5, 4, 1].find? (fun v => c.any (fun e => e.2.frame.art.vc == v)) with
  | some v => (s.nextOf a v (c.filter (fun e => e.2.frame.art.vc == v))).map (took a)
  | none =>
    let ts := s.flowTurns a (s.flows a c)
    match firstTurn ts with
    | none => none
    | some x => (s.nextOf a (x.flow / 8) (c.filter (fun e => flowOf e.2.frame.art == x.flow))).map (took (s.afterTurn a ts x))

/-- Spends credit on a hop. -/
def State.spend (s : State) (k vc n : Nat) : State :=
  s.modHop k (fun h => { h with credit := tset vc ((tget vc h.credit).getD 0 - n) h.credit })

/-- A granted frame leaves its queue for its hops, held there until it is acknowledged (R294). -/
def State.grantTo (s : State) (id : Nat) (ks : List Nat) (vc n : Nat) : State :=
  let s := ks.foldl (fun s k => (s.spend k vc n).modHop k (fun h => { h with granted := h.granted ++ [id] })) s
  s.modSlot id (fun e => { e with queued := false, holds := ks })

/-- The frame that an output grants leaves: to a local unit, or to its hops. -/
def State.leave (s : State) (p id : Nat) (a : Arbiter) : State :=
  let s := { s with fabric := { s.fabric with arbiters := tset p a s.fabric.arbiters } }
  match tget id s.fabric.frames with
  | none => s
  | some e =>
    let n := e.frame.art.length
    if p < 32 ∨ 64 ≤ p then ((s.count (R.SWC_PORT_FRAMES_OUT p)).count (R.SWC_PORT_BYTES_OUT_BYTES p) n).removeFrame id
    else s.grantTo id (e.hops (p - 32)) e.frame.art.vc (cellsOf n)

/-! ### Bursts (R314 to R319) -/

def frameBlocks (f : Frame) : Nat := ceilDiv (40 + f.art.length) 8

/-- A frame as it goes: Article, payload, tail (R289). -/
def frameBytes (x : Frame) : List Byte :=
  articleBytes x.art ++ x.payload ++ leBytes 4 x.crc ++ [BitVec.ofNat 8 x.stomp, 0#8, 0#8, 0#8]

/-- Bytes as data blocks, the last completed with zero bytes (R317). -/
def byteBlocks (bs : List Byte) : List Block := (chop 8 bs).map (fun b => dataBlock (leNat b))

/-- Table 13-2: the header block and the target blocks. -/
def headerBlocks (h : BurstHeader) : List Block :=
  ctlBlock (packNat [(8, 0x96), (15, h.srcChip), (5, h.plane), (6, h.line), (1, b2n h.mcast), (3, 0), (13, h.bodyM1), (13, h.frameM1)]) ::
    h.targets.map (fun t => ctlBlock (packNat [(8, 0xa5), (6, t.1), (1, b2n t.2.1), (1, 0), (24, t.2.2), (24, 0)]))

/-- The blocks of a burst: header, targets, frames, fill to 64 (R314, R317). -/
def burstOf (h : BurstHeader) (frames : List Frame) : List Block :=
  let body := frames.flatMap (fun x => byteBlocks (frameBytes x))
  headerBlocks h ++ body ++ List.replicate (h.bodyM1 + 1 - body.length) (dataBlock 0)

/-- Table 13-4: a LINK_CTL message of a type. -/
def ctlMessage (x : Nat × LinkCtl) : List Byte :=
  let m := x.2
  packBytes [(8, x.1), (5, m.plane), (1, m.kind), (2, 0), (6, m.line), (2, 0), (3, m.vc), (5, 0), (32, m.value0), (32, m.value1),
    (32, m.value2)]

/-- LINK_CTL frames: 1 to 16 messages each (R322); their SRC_UNIT is 63 (log entry 138). -/
def State.ctlFrames (s : State) (f l : Nat) (ctl : List (Nat × LinkCtl)) : List Frame :=
  (chop 16 ctl).map (fun ms =>
    let a : Article := { dest := 0, opcode := 0x30, flags := 0, partition := 0, vc := 3, tense := 0, tc := 7, plane := f,
                         length := 16 * ms.length, srcChip := s.chip, srcUnit := 63, line := l, lseq := 0, tag := 0, aux := 0, hcrc := 0 }
    sealFrame a (ms.flatMap ctlMessage) 0)

/-- Drives a burst; each byte of a partition's frame is charged (Table 18-6). -/
def State.sendBurst (s : State) (f : Nat) (lines : List Nat) (targets : List (Nat × Bool × Nat)) (ctl : List (Nat × LinkCtl))
    (frames : List Frame) : State :=
  let all := s.ctlFrames f (lines.headD 0) ctl ++ frames
  let n := (all.map frameBlocks).sum
  let mcast := decide (targets ≠ [])
  let hdr : BurstHeader :=
    { srcChip := s.chip, plane := f, line := if mcast then targets.length - 1 else lines.headD 0, mcast := mcast,
      bodyM1 := max 64 n - 1, frameM1 := n - 1, targets := targets }
  let s := frames.foldl (fun s x =>
    let s := (s.count (R.SWC_PORT_FRAMES_OUT (32 + f))).count (R.SWC_PORT_BYTES_OUT_BYTES (32 + f)) x.art.length
    if opClass x.art.opcode = 2 then s
    else (s.charge x.art.partition 2 (40 + x.art.length)).charge x.art.partition 3 (40 + x.art.length)) s
  s.emit (.burst f lines hdr ctl frames (preamble ++ burstSymbols (burstOf hdr all)))

/-- Blocks of a body of OPT_CTL.BURST_KIB. -/
def State.burstRoom (s : State) (f : Nat) : Nat := s.get (R.OPT_CTL_BURST_KIB f) * 128

/-- Blocks of the LINK_CTL frames: 16 messages to a frame. -/
def ctlBlocks (n : Nat) : Nat := if n = 0 then 0 else n / 16 * 37 + (if n % 16 = 0 then 0 else ceilDiv (40 + 16 * (n % 16)) 8)

/-- Link control that waits for a peer, on any of its hops, up to what one body holds; it leaves the lists. -/
def State.takeCtl (s : State) (u room : Nat) : State × List (Nat × LinkCtl) :=
  (s.hopsTo u).foldl (fun a h =>
    let k := hopKey h.1 h.2
    let n := room / 37 * 16 - a.2.length
    (a.1.modHop k (fun h => { h with ctl := h.ctl.drop n }), a.2 ++ (a.1.hop k).ctl.take n)) (s, [])

/-- A frame as it goes on a hop (R289). -/
def onHop (x : Frame) (f line lseq : Nat) (retx : Bool) : Frame :=
  let fl := if retx then setBit x.art.flags flRetx else clearBit x.art.flags flRetx
  sealFrame { x.art with plane := f, line := line, lseq := lseq % mSpace, flags := fl } x.payload x.stomp

/-- The longest prefix of some frames that fits a number of blocks. -/
def fitBurst : Nat → List (Nat × FrameSlot) → List (Nat × FrameSlot)
  | _, [] => []
  | room, x :: r => if frameBlocks x.2.frame ≤ room then x :: fitBurst (room - frameBlocks x.2.frame) r else []

/-- The frames of a burst; one that alone is longer than BURST_KIB goes by itself (log entry 139). -/
def burstFrames (room : Nat) (xs : List (Nat × FrameSlot)) (alone : Bool) : List (Nat × FrameSlot) :=
  match fitBurst room xs with
  | [] => if alone then xs.take 1 else []
  | ys => ys

def State.slots (s : State) (ids : List Nat) : List (Nat × FrameSlot) :=
  ids.filterMap (fun id => (tget id s.fabric.frames).map (fun e => (id, e)))

def sameLines (a b : List Nat) : Bool := a.all b.contains && b.all a.contains

/-- The throttle level of a class, by its bit of PWR_CTL.PIN: 0 trunks, 1 edge, 2 tiles. PREFER 1 throttles tiles first, 2 edge and
trunks; a pinned class is not throttled outside brake (R428, R430, R433). -/
def State.classLevel (s : State) (c : Nat) : Nat :=
  let last := (s.get R.PWR_CTL_PREFER == 1 && c != 2) || (s.get R.PWR_CTL_PREFER == 2 && c == 2)
  if bit (s.get R.PWR_CTL_PIN) c ∧ !s.flag R.PWR_STAT_BRAKE then 0
  else if last ∧ !s.flag R.PWR_STAT_BRAKE then s.power.lastLevel else s.get R.PWR_STAT_LEVEL

def State.trunkLevel (s : State) : Nat := s.classLevel 0

/-- Slices that a fibre may drive at once (R311): at most 8 in brake, and what the throttle level of the trunk class leaves, rounded
up (R428). -/
def State.slices (s : State) : Nat :=
  let n := ceilDiv (16 * (64 - s.trunkLevel)) 64
  if s.flag R.PWR_STAT_BRAKE then min 8 n else n

/-- Sends one unicast frame's LSEQ: held until it is acknowledged. -/
def State.number (s : State) (k id : Nat) : State × Nat :=
  let q := (s.hop k).txNext
  (s.modHop k (fun h => { h with txNext := (q + 1) % mSpace, held := h.held ++ [(q, id)], sentAt := tset q s.tick h.sentAt,
                                 granted := h.granted.filter (· != id) }), q)

/-- Every frame queued for a peer and plane that holds credit is granted, in grant order (R319). -/
def State.takeQueued (s : State) (f l : Nat) : Nat → State
  | 0 => s
  | n + 1 =>
    match s.granted (32 + f) (fun e => if e.mlines = [] then e.line == l else e.mlines.contains l) with
    | some (id, a) => (s.leave (32 + f) id a).takeQueued f l n
    | none => s

/-- A unicast burst to the peer of a hop: link control, then the granted frames in order (R319, R322). -/
def State.openUnicast (s : State) (k : Nat) (ctl : List (Nat × LinkCtl)) : State :=
  let f := k / 64
  let l := k % 64
  let xs := burstFrames (s.burstRoom f - ctlBlocks ctl.length)
    ((s.slots (s.hop k).granted).filter (fun x => x.2.mlines == [])) ctl.isEmpty
  let r := xs.foldl (fun (a : State × List Frame) x =>
    match a.1.number k x.1 with
    | (s, q) => (s, a.2 ++ [onHop x.2.frame f l q false])) (s, [])
  if ctl = [] ∧ r.2 = [] then s else r.1.sendBurst f [l] [] ctl r.2

/-- One multicast frame goes to some of its lines: its LSEQ is its plane's next, once. -/
def State.numberMcast (s : State) (f : Nat) (lines : List Nat) (id : Nat) (e : FrameSlot) : State × Nat :=
  let q := e.mseq.getD ((tget f s.fabric.mLseq).getD 0)
  let s := if e.mseq.isSome then s
    else { s with fabric := { s.fabric with mLseq := tset f ((q + 1) % mSpace) s.fabric.mLseq } }
  let s := lines.foldl (fun s l => s.modHop (hopKey f l) (fun h =>
    { h with mTxLast := some q, held := h.held ++ [(q + mSpace, id)], sentAt := tset (q + mSpace) s.tick h.sentAt,
             granted := h.granted.filter (· != id) })) s
  (s.modSlot id (fun e => { e with mlines := e.mlines.filter (fun l => !lines.contains l), mseq := some q }), q)

/-- A multicast burst of the frames granted with one set of target lines (R231, R312, R325); one slice drives each line, and
lines that find none take a later burst. -/
def State.openMulticast (s : State) (k : Nat) (all : List Nat) : State :=
  let f := k / 64
  let lines := (k % 64 :: all.filter (· != k % 64)).take (max 1 s.slices)
  let xs := burstFrames (s.burstRoom f)
    ((s.slots (s.hop k).granted).filter (fun x => x.2.mlines != [] && sameLines x.2.mlines all)) true
  let targets := lines.map (fun l => (l, (s.hop (hopKey f l)).mTxLast.isNone, ((s.hop (hopKey f l)).mTxLast).getD 0))
  let r := xs.foldl (fun (a : State × List Frame) x =>
    match a.1.numberMcast f lines x.1 x.2 with
    | (s, q) => (s, a.2 ++ [onHop x.2.frame f 0 q false])) (s, [])
  if r.2 = [] then s else r.1.sendBurst f lines targets [] r.2

/-- Opens a burst to a line (R319). -/
def State.openBurst (s : State) (f l : Nat) : State :=
  let k := hopKey f l
  if !(s.hop k).up ∨ (s.fibre f ≠ 2 ∧ s.fibre f ≠ 3) then s
  else
    let s := s.takeQueued f l s.fabric.frames.length
    match s.takeCtl (s.peerOf f l) (s.burstRoom f), (s.slots (s.hop k).granted).head? with
    | (s', []), some x => if x.2.mlines = [] then s'.openUnicast k [] else s.openMulticast k x.2.mlines
    | (s', ctl), _ => s'.openUnicast k ctl

/-- Frames to send again, cut into bursts: at most a body's blocks, and in the multicast space consecutive LSEQs (R325). -/
def joinBursts (room : Nat) (consecutive : Bool) (bursts : List (List (Nat × FrameSlot))) (x : Nat × FrameSlot) :
    List (List (Nat × FrameSlot)) :=
  match bursts.getLast? with
  | some b =>
    let fits := decide ((b.map (fun y => frameBlocks y.2.frame)).sum + frameBlocks x.2.frame ≤ room)
    let next := b.getLast?.any (fun y => (y.1 + 1) % mSpace == x.1 % mSpace)
    if fits ∧ (next ∨ !consecutive) then bursts.dropLast ++ [b ++ [x]] else bursts ++ [[x]]
  | none => [[x]]

/-- Sends every held frame of a space again, in order, with RETX at 1 (R294). Multicast frames go to this peer's line alone; each burst
names the LSEQ before its first frame, or is FIRST (R325). -/
def State.resendHeld (s : State) (k kind : Nat) (prev : Option Nat) : State :=
  let f := k / 64
  let l := k % 64
  let mine := (s.hop k).held.filter (fun h => decide (mSpace ≤ h.1) == (kind == 1))
  let xs := mine.filterMap (fun h => (tget h.2 s.fabric.frames).map (fun e => (h.1, e)))
  if xs = [] ∨ !(s.hop k).up then s
  else
    let s := s.modHop k (fun h => { h with sentAt := mine.foldl (fun t m => tset m.1 s.tick t) h.sentAt, resends := h.resends + 1 })
    let s := s.count (R.SWC_PORT_RETRY_RESENT (32 + f)) xs.length
    ((xs.foldl (joinBursts (s.burstRoom f) (kind == 1)) []).foldl (fun (a : State × Option Nat) b =>
      let frames := b.map (fun x => onHop x.2.frame f (if kind = 1 then 0 else l) x.1 true)
      let target := if kind = 1 then [(l, a.2.isNone, a.2.getD 0)] else []
      (a.1.sendBurst f [l] target [] frames, b.getLast?.map (fun x => x.1 % mSpace))) (s, prev)).1

/-- Sends again from the LSEQ that a NACK names: what lies before it has been accepted and is freed. -/
def State.resend (s : State) (k kind lseq : Nat) : State :=
  let prev := if lseq = 0 ∧ (s.hop k).mAcked.isNone then none else some ((lseq + mSpace - 1) % mSpace)
  ((s.before k kind lseq).foldl (fun s h => s.release k h.1 h.2) s).resendHeld k kind prev

/-! ### Hops that go down (R296, R324) -/

def State.isMcast (s : State) (id : Nat) : Bool := ((tget id s.fabric.frames).map (fun e => bit e.frame.art.flags flMcast)).getD false

/-- Asks the peer of a down hop, by another plane, what it expects next in each space that has frames left there (R296). -/
def State.queryHop (s : State) (k : Nat) : State :=
  let m := s.isMcast
  let ask := fun (s : State) (kind : Nat) => (s.modHop k (fun h => { h with query := true })).sendCtl k 8 kind 0 0 0 0 0
  if (s.hop k).up ∨ (s.otherHop k).isNone then s
  else
    let s := if (s.hop k).held.any (fun h => decide (h.1 < mSpace)) ∨ (s.hop k).granted.any (fun i => !m i) then ask s 0 else s
    if (s.hop k).held.any (fun h => decide (mSpace ≤ h.1)) ∨ (s.hop k).granted.any m then ask s 1 else s

/-- A hop becomes down at this chip. -/
def State.hopDown (s : State) (k : Nat) : State :=
  if !(s.hop k).up then s
  else
    let f := k / 64
    let l := k % 64
    let s := (s.modHop k (fun h => { h with up := false, answered := none, resends := 0, peerDrains := false })).less (R.OPT_STAT_HOPS_UP f)
    let s := if s.get (R.OPT_TXLINE_STATE f l) = 2 then s.set (R.OPT_TXLINE_STATE f l) 4 else s
    let b := s.backLine f l
    let s := if s.get (R.OPT_RXLINE_STATE f b) = 2 then s.set (R.OPT_RXLINE_STATE f b) 4 else s
    match s.otherHop k with
    | some _ => (s.sendCtl k 0xc 0 0 0 0 0 0).queryHop k
    | none => s

/-- A copy of a multicast frame for one peer, granted to a hop (R231). -/
def State.unicastCopy (s : State) (j id : Nat) : State :=
  match tget id s.fabric.frames with
  | none => s
  | some e =>
    let a := { e.frame.art with dest := mkFpa (s.hopPeer j) 48 (fpaOff e.frame.art.dest), flags := clearBit e.frame.art.flags flMcast }
    let n := s.fabric.nextFrame
    let s := s.storeFrame (sealFrame a e.frame.payload 0) e.inPort (some (32 + j / 64, j % 64)) []
    (s.modSlot n (fun e => { e with queued := false, holds := [j] })).modHop j (fun h => { h with granted := h.granted ++ [n] })

/-- SEQ_REPLY (R296): held frames of the space below the LSEQ are freed; the rest, and what was granted, go first on another
plane, multicast frames by unicast. -/
def State.moveHeld (s : State) (k kind lseq : Nat) : State :=
  match s.otherHop k with
  | none => s
  | some j =>
    let s := (s.before k kind lseq).foldl (fun s h => s.release k h.1 h.2) s
    let rest := ((s.hop k).held.filter (fun h => decide (mSpace ≤ h.1) == (kind == 1))).map Prod.snd
    let also := (s.hop k).granted.filter (fun i => s.isMcast i == (kind == 1))
    let s := s.modHop k (fun h => { h with held := h.held.filter (fun x => !(rest.contains x.2)), query := false,
                                           granted := h.granted.filter (fun i => !also.contains i) })
    if kind = 1 then
      (rest ++ also).foldl (fun s id =>
        (s.unicastCopy j id).modSlot id (fun e => { e with holds := e.holds.filter (· != k), mlines := e.mlines.filter (· != k % 64) }) |>.dropIfFree id) s
    else
      let s := (rest ++ also).foldl (fun s id => s.modSlot id (fun e =>
        { e with holds := j :: e.holds.filter (· != k), out := some (32 + j / 64), line := j % 64 })) s
      s.modHop j (fun h => { h with granted := rest ++ also ++ h.granted })

/-! ### Fibres (R333, R336) -/

/-- Lines of a plane with a peer that is not this chip. -/
def State.planeHops (s : State) (f : Nat) : List Nat := (s.usedLines f).map (hopKey f)

/-- Whether the Stem enables a fibre. -/
def State.fibreEnabled (s : State) (f : Nat) : Bool := s.boot.stem.any (fun t => bit t.fibreEn f)

/-- A fibre enters FAILED: logged, out of the bulk mask, its hops down. One whose LSM fails before it is lit has failed too (R15). -/
def State.failFibre (s : State) (f : Nat) : State :=
  if s.fibre f = 5 ∨ (s.fibre f = 0 ∧ !s.fibreEnabled f) then s
  else
    let s := (s.planeHops f).foldl State.hopDown s
    let s := ((s.set (R.OPT_STAT_STATE f) 5).leaveBulk f).logFault 5 f 0 0
    { s with fabric := { s.fabric with released := s.fabric.released.filter (· != f) } }.readyCheck

/-- Whether a fibre in DRAINING holds nothing and its peers have finished. -/
def State.fibreEmpty (s : State) (f : Nat) : Bool :=
  s.fabric.frames.all (fun (e : Nat × FrameSlot) => !(e.2.queued && e.2.out == some (32 + f)) && e.2.holds.all (fun k => k / 64 != f)) &&
    s.fabric.arrived.all (fun (a : Nat × List Arrival) => a.1 / 64 != f || a.2.isEmpty) &&
    (s.planeHops f).all (fun k => !(s.hop k).up || (s.hop k).drainDone)

/-- The replacement that a fibre is part of, with the fibre as its next. -/
def State.movingFibre (s : State) (f : Nat) : Option Replacement :=
  s.fabric.replacements.find? (fun r => r.next.any (fun j => s.get (R.LSM_STAT_GROUP r.lsm) * 4 + j == f))

/-- The switch of a fibre flips to a spare (R331, R332): its rings must lock again. -/
def State.flipSwitch (s : State) (f spare : Nat) : State :=
  let s := ((s.set (R.OPT_STAT_LSM f) spare).set (R.OPT_STAT_TX_LOCKED f) 0).set (R.OPT_STAT_RX_LOCKED f) 0
  (s.usedLines f).foldl (fun s l => (s.set (R.OPT_TXLINE_STATE f l) 3).set (R.OPT_RXLINE_STATE f l) 3) s

/-- A drained fibre reads DISABLED; a replacement then flips its switch (R332, R336). -/
def State.drainCheck (s : State) (f : Nat) : State :=
  if s.fibre f = 3 ∧ s.fibreEmpty f then
    let s := (s.planeHops f).foldl (fun s k =>
      if (s.hop k).up then (s.modHop k (fun h => { h with up := false, answered := none, drainDone := false, peerDrains := false })).less (R.OPT_STAT_HOPS_UP f)
      else s) s
    let s := (s.usedLines f).foldl (fun s l =>
      let s := if s.get (R.OPT_TXLINE_STATE f l) = 2 then s.set (R.OPT_TXLINE_STATE f l) 4 else s
      if s.get (R.OPT_RXLINE_STATE f l) = 2 then s.set (R.OPT_RXLINE_STATE f l) 4 else s) s
    let s := s.set (R.OPT_STAT_STATE f) 4
    match s.movingFibre f with
    | some r => s.flipSwitch f r.spare
    | none => s
  else s

/-- Starts the drain of an ACTIVE fibre (R336). -/
def State.fibreDrain (s : State) (f : Nat) : State :=
  if s.fibre f = 2 then
    let s := (s.set (R.OPT_STAT_STATE f) 3).leaveBulk f
    let s := (s.planeHops f).foldl (fun s k =>
      if (s.hop k).up then (s.modHop k (fun h => { h with drainDone := false })).sendCtl k 0xa 0 0 0 0 0 0 else s) s
    s.drainCheck f
  else s

/-- OPT_CTL.DRAIN written (R336). -/
def State.writeDrain (s : State) (f : Nat) (on : Bool) : State :=
  if on then (s.set (R.OPT_CTL_DRAIN f) 1).fibreDrain f
  else if s.fibre f = 3 then s.set (R.OPT_STAT_REFUSED f) 1
  else
    let s := s.set (R.OPT_CTL_DRAIN f) 0
    if s.fibre f = 4 ∧ !s.fabric.released.contains f then { s with fabric := { s.fabric with released := s.fabric.released ++ [f] } } else s

/-- A peer that drains learns that this chip holds nothing for it (R336). -/
def State.drainReport (s : State) (k : Nat) : State :=
  let h := s.hop k
  let f := k / 64
  let l := k % 64
  if h.peerDrains ∧ h.held = [] ∧ h.granted = [] ∧
      s.fabric.frames.all (fun (e : Nat × FrameSlot) => !(e.2.queued && e.2.out == some (32 + f) && e.2.line == l)) then
    s.sendCtl k 0xb 0 0 0 0 0 0
  else s

/-! ### Replacements of LSMs (R332 to R334) -/

/-- A free, present spare: the lowest that serves no group and is off. -/
def State.freeSpare (s : State) : Option Nat :=
  [8, 9].find? (fun n => s.get (R.LSM_STAT_GROUP n) == 15 && s.get (R.LSM_STAT_STATE n) == 1 && !bit s.fabric.lsmPresN n &&
    s.fabric.replacements.all (fun r => r.spare != n))

/-- Drives LSM_EN[n] high where R335 allows it. -/
def State.enableLsm (s : State) (n mode : Nat) : State :=
  if s.power.coolOk ∧ !bit s.fabric.lsmPresN n then
    { s with fabric := { s.fabric with lsmEn := setBit s.fabric.lsmEn n } }.emit (.lsmWrite n 2 mode)
  else s

def State.disableLsm (s : State) (n : Nat) : State :=
  { s with fabric := { s.fabric with lsmEn := clearBit s.fabric.lsmEn n, lsmReady := clearBit s.fabric.lsmReady n } }

/-- Starts a replacement, or raises the alarm of R334. -/
def State.replaceLsm (s : State) (l : Nat) (failed : Bool) : State :=
  if s.fabric.replacements.any (fun r => r.lsm == l) then s
  else match s.freeSpare with
    | some n =>
      let r : Replacement := { lsm := l, spare := n, next := none, failed := failed }
      let s := { s with fabric := { s.fabric with replacements := s.fabric.replacements ++ [r],
                                                   noSpare := s.fabric.noSpare.filter (· != l) } }
      let s := if failed then s else s.set (R.LSM_STAT_STATE l) 4
      (s.set (R.LSM_STAT_STATE n) 2).enableLsm n 2
    | none =>
      if s.fabric.noSpare.contains l then s
      else { s with fabric := { s.fabric with noSpare := s.fabric.noSpare ++ [l] } }.logFault 6 l 0 0

/-- Fibres join the cold searches: at most 8 run at once, the others wait their turn (R327). -/
def State.searchNow (s : State) : List Nat := s.fabric.searching.take 8

def State.search (s : State) (fs : List Nat) : State :=
  let s := { s with fabric := { s.fabric with searching := s.fabric.searching ++ fs.filter (fun f => !s.fabric.searching.contains f) } }
  s.searchNow.foldl (fun s f => if s.fibre f = 0 then s.set (R.OPT_STAT_STATE f) 1 else s) s

/-- The lasers are lit (R15): every group with an enabled fibre has an LSM that has been READY, or all its fibres have failed. -/
def State.lightCheck (s : State) : State :=
  let lit := (List.range 8).all (fun g =>
    (List.range 4).all (fun j => !s.fibreEnabled (4 * g + j) || s.fibre (4 * g + j) == 5) ||
    (List.range 10).any (fun n => bit s.fabric.lsmReady n && (s.get (R.LSM_STAT_GROUP n) == g ||
      s.fabric.replacements.any (fun r => r.spare == n && s.get (R.LSM_STAT_GROUP r.lsm) == g))))
  { s with fabric := { s.fabric with lsmLit := s.fabric.lsmLit || lit } }

/-- A replacement takes its next fibre, or ends. -/
def State.nextFibre (s : State) (r : Replacement) : Nat → State
  | 0 => s
  | fuel + 1 =>
    let g := s.get (R.LSM_STAT_GROUP r.lsm)
    let put := fun (s : State) (r' : Replacement) =>
      { s with fabric := { s.fabric with replacements := s.fabric.replacements.map (fun (x : Replacement) => if x.lsm = r.lsm then r' else x) } }
    match r.next with
    | none => s
    | some j =>
      if 4 ≤ j then
        let s := { s with fabric := { s.fabric with replacements := s.fabric.replacements.filter (fun x => x.lsm != r.lsm) } }
        let s := (s.disableLsm r.lsm).set (R.LSM_STAT_STATE r.lsm) (if r.failed then 6 else 5)
        let s := (s.set (R.LSM_STAT_GROUP r.lsm) 15).set (R.LSM_STAT_GROUP r.spare) g
        (s.set (R.LSM_STAT_STATE r.spare) 3).logFault 7 (r.lsm + 16 * r.spare) 0 0
      else
        let f := 4 * g + j
        if s.fibre f = 2 then (put s r).fibreDrain f
        else if s.fibre f = 3 then put s r
        else if s.fibre f = 4 ∨ s.fibre f = 5 then (put s r).flipSwitch f r.spare
        else (s.set (R.OPT_STAT_LSM f) r.spare).nextFibre { r with next := some (j + 1) } fuel

/-- The spare of a replacement is READY: fibres move one at a time, or after a fault all flip and search at once (R333). -/
def State.spareReady (s : State) (n : Nat) : State :=
  match s.fabric.replacements.find? (fun r => r.spare == n && r.next.isNone) with
  | none => s
  | some r =>
    let g := s.get (R.LSM_STAT_GROUP r.lsm)
    if r.failed then
      let fs := ((List.range 4).map (fun j => 4 * g + j)).filter (fun f => s.fibre f != 0)
      (fs.foldl (fun s f => s.flipSwitch f n) s).search fs
    else
      let r' := { r with next := some 0 }
      let s := { s with fabric := { s.fabric with replacements := s.fabric.replacements.map (fun (x : Replacement) =>
        if x.lsm = r.lsm then r' else x) } }
      s.nextFibre r' 5

/-- A replacement after a fault ends once no fibre of the group is in cold search. -/
def State.endFailed (s : State) : State :=
  s.fabric.replacements.foldl (fun s r =>
    let g := s.get (R.LSM_STAT_GROUP r.lsm)
    if r.failed ∧ bit s.fabric.lsmReady r.spare ∧
        (List.range 4).all (fun j => s.fibre (4 * g + j) == 0 || (s.get (R.OPT_STAT_LSM (4 * g + j)) == r.spare &&
          (s.fibre (4 * g + j) != 5 || s.fabric.released.contains (4 * g + j)))) then s.nextFibre { r with next := some 4 } 5
    else s) s

/-- An LSM fails: its fibres enter FAILED and a replacement starts (R333). -/
def State.lsmFails (s : State) (n : Nat) : State :=
  let st := s.get (R.LSM_STAT_STATE n)
  if st = 0 ∨ st = 5 ∨ st = 6 then s
  else
    let old := s.fabric.replacements.find? (fun r => r.spare == n)
    let g := s.get (R.LSM_STAT_GROUP n)
    let mine := (List.range 32).filter (fun f => s.get (R.OPT_STAT_LSM f) == n)
    let s := (s.disableLsm n).set (R.LSM_STAT_STATE n) 6
    let s := mine.foldl State.failFibre s
    match old with
    | some r =>
      -- The spare itself failed: the replacement starts again with another one.
      let s := { s with fabric := { s.fabric with replacements := s.fabric.replacements.filter (fun x => x.lsm != r.lsm) } }
      s.replaceLsm r.lsm (r.failed || mine != [])
    | none =>
      if 8 ≤ n ∧ g = 15 then s
      else
        let s := { s with fabric := { s.fabric with replacements := s.fabric.replacements.map (fun (x : Replacement) => if x.lsm = n then { x with failed := true } else x) } }
        s.replaceLsm n true

/-! ### Hops that come up (R324) -/

/-- A hop enters service at this chip. -/
def State.hopEnters (s : State) (k : Nat) : State :=
  let f := k / 64
  let l := k % 64
  -- Frames that R296 could move nowhere go first in the new sequence space (log entry 142).
  let left := (s.hop k).held.map Prod.snd ++ (s.hop k).granted
  let s := s.modHop k (fun h => { h with up := true, lostByLight := false, txNext := 0, mTxLast := none, mAcked := none, credit := s.standingAll f,
                                         held := [], sentAt := [], granted := left.filter (fun i => !s.isMcast i),
                                         resends := 0, peerDrains := false, drainDone := false, query := false })
  let s := (left.filter s.isMcast).foldl (fun s i => (s.unicastCopy k i).modSlot i (fun e =>
    { e with holds := e.holds.filter (· != k), mlines := e.mlines.filter (· != l) }) |>.dropIfFree i) s
  let s := ((s.hopsTo (s.hopPeer k)).map (fun h => hopKey h.1 h.2)).foldl (fun s j => if j = k then s else s.queryHop j) s
  let s := (s.wrap (R.OPT_STAT_HOPS_UP f)).set (R.OPT_TXLINE_STATE f l) 2
  let s := (s.set (R.OPT_RXLINE_STATE f (s.backLine f l)) 2).markBack (s.hopPeer k)
  if s.fabric.released.contains f then
    let s := { s with fabric := { s.fabric with released := s.fabric.released.filter (· != f) } }.set (R.OPT_STAT_STATE f) 2
    match s.movingFibre f with
    | some r => s.nextFibre { r with next := r.next.map (· + 1) } 5
    | none => s
  else s

/-- A flipped fibre whose rings have all locked is released (R324, R332); one that software drained stays DISABLED, and its
replacement goes on. -/
def State.relocked (s : State) (f : Nat) : State :=
  match s.movingFibre f with
  | none => s
  | some r =>
    if (s.fibre f ≠ 4 ∧ s.fibre f ≠ 5) ∨ s.get (R.OPT_STAT_LSM f) ≠ r.spare ∨ s.fabric.released.contains f ∨
        !(s.usedLines f).all (fun l => s.txLocked f l && s.rxLocked f l) then s
    else if s.fibre f = 4 ∧ s.flag (R.OPT_CTL_DRAIN f) then s.nextFibre { r with next := r.next.map (· + 1) } 5
    else { s with fabric := { s.fabric with released := s.fabric.released ++ [f] } }

/-! ### Lending (R320) -/

/-- Cells of a peer's frames that are charged to the reserve of a trunk input. -/
def State.chargedTo (s : State) (k vc : Nat) : Nat :=
  (s.fabric.frames.map (fun (e : Nat × FrameSlot) =>
    if e.2.inPort = 32 + k / 64 ∧ e.2.inLine = k % 64 ∧ !e.2.shared ∧ !e.2.noCredit ∧ e.2.inVc = vc then cellsOf e.2.frame.art.length
    else 0)).sum

/-- The lending pool of a trunk input: its reserve less every peer's standing credit and less what peers hold above it. -/
def State.lendPool (s : State) (f vc : Nat) : Nat :=
  s.get (R.SWC_LIMIT_IRES (32 + f) vc) -
    ((s.planeHops f).map (fun k => max (s.standing f vc) ((tget vc (s.hop k).given).getD 0 + s.chargedTo k vc))).sum

/-- Grants to the peers that ask, in turn after the one served last, up to what each asked for and to STANDING plus LEND_MAX. -/
def State.lend (s : State) (f vc : Nat) : State :=
  let from_ := (tget (f * 8 + vc) s.fabric.lent).getD 0
  let ls := s.usedLines f
  (ls.filter (fun l => decide (from_ < l)) ++ ls.filter (fun l => decide (l ≤ from_))).foldl (fun s l =>
    let k := hopKey f l
    let want := (tget vc (s.hop k).wants).getD 0
    let has := (tget vc (s.hop k).given).getD 0
    let s := if want ≤ has then s.modHop k (fun h => { h with wants := terase vc h.wants }) else s
    let n := min (min (want - has) (s.standing f vc + s.get (R.OPT_CREDIT_LEND_MAX f) - has)) (s.lendPool f vc)
    if n = 0 then s
    else
      let s := { s with fabric := { s.fabric with lent := tset (f * 8 + vc) l s.fabric.lent } }
      let s := s.modHop k (fun h => { h with given := tset vc (has + n) h.given,
                                             wants := if want ≤ has + n then terase vc h.wants else h.wants })
      s.sendCtl k 3 0 0 vc n 0 0) s

/-- The receive side of a hop is reset by HOP_UP. -/
def State.resetReceive (s : State) (k : Nat) : State :=
  s.modHop k (fun h => { h with rxNext := 0, nacked := false, closed := false, mRxLast := none, mOpen := false, wants := [],
                                given := s.standingAll (k / 64) })

end Sys2Proof.Machine
end

