-- ==== Sys2Proof/Machine/SwitchRows.lean ====
section
/-! DEFINITION. The switch core's commands (chapter 12): receipt of a frame, forwarding, escape, buffer errors. -/

namespace Sys2Proof.Machine

/-- Sends a NACK that names the LSEQ expected next (R294). -/
def State.nackHop (s : State) (k kind lseq : Nat) : State :=
  ((s.modHop k (fun h => { h with nacked := true })).sendCtl k 2 kind 0 0 lseq 0 0).count (R.SWC_PORT_RETRY_NACKED (32 + k / 64))

def State.ackHop (s : State) (k kind lseq : Nat) : State := s.sendCtl k 1 kind 0 0 lseq 0 0

/-- Stores a frame from a trunk (R298): its credit goes back at once from the shared pool. -/
def State.buffer (s : State) (fibre inLine : Nat) (x : Frame) (out : Option (Nat × Nat)) : State :=
  let id := s.fabric.nextFrame
  let n := cellsOf x.art.length
  let s := (s.storeFrame x (32 + fibre) out []).modSlot id (fun e => { e with inLine := inLine })
  match tget id s.fabric.frames with
  | some e =>
    let k := hopKey fibre inLine
    let s := s.modHop k (fun h => { h with given := tset x.art.vc ((tget x.art.vc h.given).getD 0 - n) h.given })
    if e.shared then s.giveCredit (32 + fibre) inLine x.art.vc n else s
  | none => s

/-- A frame that this chip takes in and does not keep is counted, and its sender gets its credit back. -/
def State.notKept (s : State) (fibre k : Nat) (a : Article) : State :=
  ((s.count (R.SWC_PORT_FRAMES_IN (32 + fibre))).count (R.SWC_PORT_BYTES_IN_BYTES (32 + fibre)) a.length).sendCtl k 3 0 0 a.vc
    (cellsOf a.length) 0 0

/-- The output of a frame that goes on, with NONMIN set in its FLAGS where it takes such a hop. -/
def State.lookupFrame (s : State) (x : Frame) : Frame × Option (Nat × Nat) :=
  let a := { x.art with flags := clearBit x.art.flags flRetx }
  match s.lookup a 0 with
  | some (p, l, nm) => ({ x with art := { a with flags := if nm then setBit a.flags flNonmin else a.flags } }, some (p, l))
  | none => ({ x with art := a }, none)

/-- Steps 4 and 5 of R290 for a frame in sequence: lookup, then the tail. A unit of a slot without an ACTIVE port answers as R487
says. -/
def State.acceptFrame (s : State) (fibre k : Nat) (x : Frame) : State :=
  let port := 32 + fibre
  let a := x.art
  if x.stomp ≠ 0 then (s.count (R.SWC_PORT_ERR_STOMP port)).notKept fibre k a
  else if fpaChip a.dest ≠ s.chip ∧ s.unreachable (fpaChip a.dest) then (s.notKept fibre k a).bounce x .unreachable
  else if fpaChip a.dest = s.chip ∧ (s.framePort a).isNone then
    let e := s.slotErr (fpaUnit a.dest) (fpaOff a.dest) 0
    (s.notKept fibre k a).bounce x (if 16 ≤ fpaUnit a.dest then .format else if e = .none then .unreachable else e)
  else
    match s.lookupFrame x with
    | (x, out) => (s.buffer fibre (k % 64) x out).freshen

/-- A frame that is lost on this hop after its header was sound may have begun to leave (cut-through, R293): then it goes on stomped
(R295). Whether it had begun is a free value. -/
def State.cutThrough (s : State) (fibre k : Nat) (x : Frame) : State :=
  match s.lookupFrame { x with stomp := 0x5a } with
  | (x, some (p, l)) =>
    if p < 32 ∨ 64 ≤ p ∨ s.free 2 % 2 = 0 ∨ s.unreachable (fpaChip x.art.dest) then s
    else
      let id := s.fabric.nextFrame
      let s' := ((s.storeFrame x (32 + fibre) (some (p, l)) []).modSlot id
        (fun e => { e with inLine := k % 64, stomped := true, noCredit := true })).freshen
      match s'.granted p (fun _ => true) with
      | some (i, a) => if i = id then s'.leave p id a else s
      | none => s
  | _ => s

/-- Step 3 of R290 and R288 for a multicast frame. -/
def State.mcastForm (s : State) (a : Article) (fibre line : Nat) : Bool :=
  frameForm a fibre line && (a.opcode == 0x10 || a.opcode == 0x11 || a.opcode == 0x15) && a.line == 0 && fpaChip a.dest == a.srcChip &&
    (match s.group (a.aux % 2 ^ 14) with
     | some g => s.isMember g.body s.chip
     | none => false)

/-- The LSEQ after the last multicast frame accepted, or 0. -/
def Hop.mExpect (h : Hop) : Nat := (h.mRxLast.map (fun x => (x + 1) % mSpace)).getD 0

/-- Whether an arrival came in a multicast burst. -/
def Arrival.ofMcast : Arrival → Bool
  | .frame m _ => m
  | .past m => m
  | .lost m _ => m

/-- Multicast frames that a broken chain leaves behind are discarded (R325). -/
def State.dropMcast (s : State) (ring : Nat) : State :=
  { s with fabric := { s.fabric with arrived := tmod ring (List.filter (fun x => !x.ofMcast)) s.fabric.arrived } }

/-- A multicast frame that fails: the rest of its subsequence is discarded, and NACK names the LSEQ expected. -/
def State.mcastFails (s : State) (ring k : Nat) : State :=
  ((s.dropMcast ring).modHop k (fun h => { h with mOpen := false })).nackHop k 1 (s.hop k).mExpect

/-- A frame of an accepted multicast burst (R288, R290). One that step 3 refuses gets no acknowledgement (log entry 140); frames
after it are a gap. -/
def State.acceptMcast (s : State) (fibre ring k : Nat) (x : Frame) : State :=
  let a := x.art
  if !s.mcastForm a fibre (ring % 64) then
    let s := s.count (R.SWC_PORT_ERR_CHECK (32 + fibre))
    if ((tget ring s.fabric.arrived).getD []).any Arrival.ofMcast then s.mcastFails ring k else s
  else if frameCrc a x.payload ≠ x.crc ∧ x.stomp = 0 then (s.count (R.SWC_PORT_ERR_CRC (32 + fibre))).mcastFails ring k
  else
    let s := ((s.modHop k (fun h => { h with mRxLast := some a.lseq })).ackHop k 1 a.lseq).heardFrom a.srcChip
    if x.stomp ≠ 0 then (s.count (R.SWC_PORT_ERR_STOMP (32 + fibre))).notKept fibre k a
    else s.buffer fibre (k % 64) x (some (136, 0))

/-- A unicast frame, by the steps of R290 from the second on. -/
def State.acceptUnicast (s : State) (fibre line k : Nat) (x : Frame) : State :=
  let port := 32 + fibre
  let a := x.art
  let h := s.hop k
  if h.closed then s
  else if a.lseq ≠ h.rxNext then
    if (h.rxNext + mSpace - a.lseq % mSpace) % mSpace < 2 ^ 23 then s.ackHop k 0 ((h.rxNext + mSpace - 1) % mSpace)
    else if h.nacked then s else s.nackHop k 0 h.rxNext
  else if !frameForm a fibre line then s.count (R.SWC_PORT_ERR_CHECK port)
  else if frameCrc a x.payload ≠ x.crc ∧ x.stomp = 0 then ((s.count (R.SWC_PORT_ERR_CRC port)).nackHop k 0 h.rxNext).cutThrough fibre k x
  else
    let s := (s.modHop k (fun h => { h with rxNext := (h.rxNext + 1) % mSpace, nacked := false })).ackHop k 0 a.lseq
    (s.heardFrom a.srcChip).acceptFrame fibre k x

/-- A failure under step 1 of R290: a resend is requested, once until it comes. -/
def State.askAgain (s : State) (ring k : Nat) (mcast : Bool) : State :=
  if mcast then s.mcastFails ring k else if (s.hop k).nacked then s else s.nackHop k 0 (s.hop k).rxNext

/-- FRAME_RECEIVE (R290): the next frame of the bursts that a drop ring accepted. A LINK_CTL frame's messages are commands of their
own (log entry 3); any other frame takes the steps of R290 in order. -/
def execFrameReceive (fibre line : Nat) (s : State) : Host.Outcome State Fault Refusal :=
  settled (s.whenLive (fun s =>
    let ring := hopKey fibre line
    let k := s.rxHop fibre line
    match (tget ring s.fabric.arrived).getD [] with
    | [] => s
    | x :: r =>
      let s := { s with fabric := { s.fabric with arrived := if r = [] then terase ring s.fabric.arrived else tset ring r s.fabric.arrived } }
      (match x with
       | .past m => (s.count (R.SWC_PORT_ERR_HCRC (32 + fibre))).askAgain ring k m
       | .lost m cut =>
         let s := s.askAgain ring k m
         (match m, cut with
          | false, some f => if f.art.lseq = (s.hop k).rxNext ∧ frameForm f.art fibre line then s.cutThrough fibre k f else s
          | _, _ => s)
       | .frame m f =>
         if f.art.opcode = 0x30 then
           if frameForm f.art fibre line ∧ frameCrc f.art f.payload = f.crc then s else s.count (R.SWC_PORT_ERR_CHECK (32 + fibre))
         else if m then s.acceptMcast fibre ring k f
         else if bit f.art.flags flMcast then s.count (R.SWC_PORT_ERR_CHECK (32 + fibre))
         else s.acceptUnicast fibre line k f).drainCheck fibre))

/-- Asks for credit that the head frame lacks (R320), unless that message waits already, and counts the stall of its output. -/
def State.askCredit (s : State) (k vc n : Nat) : State :=
  let s := s.count (R.SWC_PORT_STALL_CYCLES (32 + k / 64))
  if (s.hop k).ctl.any (fun c => c.1 == 4 && c.2.vc == vc) then s else s.sendCtl k 4 0 0 vc n 0 0

/-- A queued frame takes a new lookup when its output or its next hop is gone; an ordered one keeps its plane where it can. -/
def State.relook (s : State) (id : Nat) (e : FrameSlot) : State :=
  match s.lookup e.frame.art ((e.out.map (· - 32)).getD 0) with
  | some (p, l, nm) => (s.modSlot id (fun e => { e with out := some p, line := l, frame := { e.frame with art := { e.frame.art with
      flags := if nm then setBit e.frame.art.flags flNonmin else e.frame.art.flags } } })).freshen
  | none => s.modSlot id (fun e => { e with out := none })

/-- Lines of a queued multicast frame whose hop is down: their peers get it by unicast on another plane (R231). -/
def State.dropLines (s : State) (id p : Nat) (e : FrameSlot) : State :=
  let down := e.mlines.filter (fun l => !(s.hop (hopKey (p - 32) l)).up)
  if e.mlines = [] ∨ down = [] then s
  else
    let s := down.foldl (fun s l => match s.otherHop (hopKey (p - 32) l) with
      | some j => s.unicastCopy j id
      | none => s) s
    let left := e.mlines.filter (fun l => !down.contains l)
    (s.modSlot id (fun e => { e with mlines := left, queued := e.queued && left != [] })).dropIfFree id

/-- FRAME_FORWARD (R293): the frame that its output grants leaves: to a local unit, or granted to its hops with credit for all of it;
it waits while the output grants another or the next hop lacks credit. -/
def execFrameForward (frameId : Nat) (s : State) : Host.Outcome State Fault Refusal :=
  settled (s.whenLive (fun s =>
    match tget frameId s.fabric.frames with
    | none => s
    | some e =>
      let a := e.frame.art
      let mcast := bit a.flags flMcast
      if !e.queued then s
      else if !mcast ∧ fpaChip a.dest ≠ s.chip ∧ s.unreachable (fpaChip a.dest) then
        (s.removeFrame frameId).bounce e.frame .unreachable
      else if !s.atHead e then s
      else match e.out with
        | none => s.relook frameId e
        | some p =>
          let s := s.dropLines frameId p e
          let trunk := decide (32 ≤ p ∧ p < 64)
          let k := hopKey (p - 32) e.line
          let u := s.hopPeer k
          let ks := if trunk then ((tget frameId s.fabric.frames).map (fun e => e.hops (p - 32))).getD [] else []
          if trunk ∧ !mcast ∧ (!(s.hop k).up ∨ (u ≠ fpaChip a.dest ∧ s.unreachable u)) then s.relook frameId e
          else match ks.find? (fun k => decide (s.creditOf k a.vc < cellsOf a.length)) with
          | some k => s.askCredit k a.vc (cellsOf a.length)
          | none =>
            match s.granted p (fun _ => true) with
            | some (i, arb) => if i = frameId then ks.foldl State.drainReport (s.leave p frameId arb) else s
            | none => s))

/-- ESCAPE_TIMEOUT (R304): an adaptive frame at the head of its queue moves to its escape VC and route. -/
def execEscapeTimeout (frameId : Nat) (s : State) : Host.Outcome State Fault Refusal :=
  ok (s.whenLive (fun s =>
    match tget frameId s.fabric.frames with
    | none => s
    | some e =>
      let a := e.frame.art
      if !e.queued ∨ 2 < a.vc ∨ !s.atHead e ∨ fpaChip a.dest = s.chip ∨ e.mlines ≠ [] then s
      else
        let vc := if opClass a.opcode = 1 then 5 else 4
        let h := s.escapeHop a
        s.modSlot frameId (fun e => { e with frame := { e.frame with art := { a with vc := vc } }, out := h.map (fun x => 32 + x.1),
                                             line := (h.map Prod.snd).getD 0 })))

/-- BUFFER_ECC_ERROR (R295): a frame under way to its next hop is stomped; one that has not left is freed, a request with
ERR_POISON. -/
def execBufferEccError (frameId : Nat) (s : State) : Host.Outcome State Fault Refusal :=
  settled (s.whenLive (fun s =>
    match tget frameId s.fabric.frames with
    | none => s
    | some e =>
      if e.queued then (s.removeFrame frameId).bounce e.frame .poison
      else s.modSlot frameId (fun e => { e with stomped := true, frame := { e.frame with stomp := 0x5a } })))

end Sys2Proof.Machine
end

