-- ==== Sys2Proof/Machine/TrunkRows.lean ====
section
/-! DEFINITION. The commands of trunks, link control and lasers (chapter 13). -/

namespace Sys2Proof.Machine

/-! ### Lasers -/

/-- LSM_READY (R335): after fast start its enabled fibres go to cold search; after soak a replacement begins to move. -/
def execLsmReady (lsm : Nat) (s : State) : Host.Outcome State Fault Refusal :=
  ok (s.whenLive (fun s =>
    if !bit s.fabric.lsmEn lsm ∨ bit s.fabric.lsmReady lsm then s
    else
      let s := { s with fabric := { s.fabric with lsmReady := setBit s.fabric.lsmReady lsm } }
      if 8 ≤ lsm ∧ s.get (R.LSM_STAT_GROUP lsm) = 15 then (s.spareReady lsm).lightCheck
      else
        let s := if s.get (R.LSM_STAT_STATE lsm) = 1 then s.set (R.LSM_STAT_STATE lsm) 3 else s
        let fs := ((List.range 4).map (4 * lsm + ·)).filter (fun f =>
          s.fibre f == 0 && (match s.boot.stem with | some t => bit t.fibreEn f | none => false))
        (s.search fs).lightCheck))

/-- LSM_FAULT (R333). -/
def execLsmFault (lsm : Nat) (s : State) : Host.Outcome State Fault Refusal := ok (s.whenLive (fun s => (s.lsmFails lsm).lightCheck))

/-- LSM_REGISTER_ACCESS_FAIL (R335): counts as FAULT. -/
def execLsmRegisterAccessFail (lsm : Nat) (s : State) : Host.Outcome State Fault Refusal :=
  ok (s.whenLive (fun s => (s.lsmFails lsm).lightCheck))

/-- The lowest margin among the in-service lines that an LSM feeds, in 0.1 dB, of reports younger than two intervals. -/
def State.lowestMargin (s : State) (n : Nat) : Option Int :=
  let age := 2 * s.get R.LSM_CFG_EVAL_MS * 100000
  let ms := (List.range 32).flatMap (fun f =>
    if s.get (R.OPT_STAT_LSM f) = n then
      (s.usedLines f).filterMap (fun l =>
        match tget (hopKey f l) s.fabric.reports with
        | some (tick, _, _) =>
          if s.get (R.OPT_TXLINE_STATE f l) = 2 ∧ s.tick - tick < age then
            some ((BitVec.ofNat 16 (s.get (R.OPT_TXLINE_MARGIN f l))).toInt)
          else none
        | none => none)
    else [])
  ms.foldl (fun b m => match b with
    | none => some m
    | some x => some (min x m)) none

/-- Lines below MARGIN_MIN of an LSM without a spare are DEGRADED; a fibre of such lines alone fails (R334). -/
def State.degrade (s : State) (n : Nat) : State :=
  if !s.fabric.noSpare.contains n then s
  else
    ((List.range 32).filter (fun f => s.get (R.OPT_STAT_LSM f) == n && s.fibre f == 2)).foldl (fun s f =>
      let s := (s.usedLines f).foldl (fun s l =>
        if s.get (R.OPT_TXLINE_STATE f l) = 2 ∧
            (BitVec.ofNat 16 (s.get (R.OPT_TXLINE_MARGIN f l))).toInt < (s.get R.LSM_CFG_MARGIN_MIN : Int) ∧
            (tget (hopKey f l) s.fabric.reports).isSome then
          (s.hopDown (hopKey f l)).set (R.OPT_TXLINE_STATE f l) 5
        else s) s
      if (s.usedLines f).all (fun l => s.get (R.OPT_TXLINE_STATE f l) == 5) then s.failFibre f else s) s

/-- BIAS_EVALUATION (R330, R332): readings are stored, a low margin raises the bias, a spent LSM starts a replacement. -/
def execBiasEvaluation (readings : List LsmReading) (s : State) : Host.Outcome State Fault Refusal :=
  ok (s.whenLive (fun s => readings.foldl (fun s r =>
    let n := r.lsm
    let s := (s.set (R.LSM_STAT_BIAS n) r.bias).set (R.LSM_STAT_BIAS_MAX n) r.biasMax
    let s := s.set (R.LSM_STAT_HEADROOM n) r.headroom
    let st := s.get (R.LSM_STAT_STATE n)
    if st ≠ 3 ∧ st ≠ 4 then s
    else
      let m := s.lowestMargin n
      let s := if m.any (fun m => decide (m < (s.get R.LSM_CFG_MARGIN_LO : Int))) ∧ r.bias < r.biasMax then
          let b := min r.biasMax (r.bias + s.get R.LSM_CFG_BIAS_STEP)
          (s.set (R.LSM_STAT_BIAS n) b).emit (.lsmWrite n 3 b)
        else s
      let worn := decide (9 * r.biasMax ≤ 10 * r.bias) || m.any (fun m => decide (10 * m + (r.headroom : Int) < 150))
      let s := if st = 3 ∧ s.get (R.LSM_STAT_GROUP n) < 8 ∧ worn then s.replaceLsm n false else s
      s.degrade n) s))

/-- LSM_CTL_n.RETIRE written with 1 (R332). -/
def State.retire (s : State) (n : Nat) : State :=
  if 8 ≤ n ∨ s.get (R.LSM_STAT_STATE n) = 5 then s
  else
    let s := s.set (R.LSM_CTL_RETIRE n) 1
    if s.get (R.LSM_STAT_STATE n) = 3 then s.replaceLsm n false else s

/-- LSM_RETIRE_WRITE (R332). -/
def execLsmRetireWrite (lsm : Nat) (s : State) : Host.Outcome State Fault Refusal := ok (s.whenLive (fun s => s.retire lsm))

/-- LSM_PRES_N_CHANGE (R335): an absent LSM loses LSM_EN, and one that feeds fibres its monitored output with it (R333); a present
one may be enabled again. -/
def execLsmPresNChange (lsm : Nat) (absent : Bool) (s : State) : Host.Outcome State Fault Refusal :=
  let s := { s with fabric := { s.fabric with lsmPresN := if absent then setBit s.fabric.lsmPresN lsm else clearBit s.fabric.lsmPresN lsm } }
  ok (if absent then
      let s := s.disableLsm lsm
      if !s.live then s
      else if s.get (R.LSM_STAT_STATE lsm) = 1 then s.set (R.LSM_STAT_STATE lsm) 0
      else if s.get (R.LSM_STAT_GROUP lsm) ≠ 15 ∨ s.fabric.replacements.any (fun r => r.spare == lsm) then (s.lsmFails lsm).lightCheck
      else if s.get (R.LSM_STAT_STATE lsm) = 2 then s.set (R.LSM_STAT_STATE lsm) 0
      else s
    else if s.live ∧ s.get (R.LSM_STAT_STATE lsm) = 0 then
      let s := s.set (R.LSM_STAT_STATE lsm) 1
      if lsm < 8 then s.enableLsm lsm 1 else s
    else s)

/-! ### Ring lock -/

/-- A ring's calibration: the heater code of its line and the die temperature at which the search found it, a reading and so a free
value (R327). -/
def State.calibrate (s : State) (key code : Nat) : State :=
  { s with fabric := { s.fabric with calibration := tset key (code, s.free 128) s.fabric.calibration } }

/-- The rings of a line after a cold search: found ones are locked and calibrated, others go on searching; heater codes are measured.
A ring that was locked already keeps its line. -/
def State.searched (s : State) (f txLocked rxLocked l : Nat) : State :=
  let s := if s.txLocked f l ∨ s.get (R.OPT_TXLINE_STATE f l) = 5 then s
    else
      let s := (s.set (R.OPT_TXLINE_STATE f l) (if bit txLocked l then 4 else 1)).set (R.OPT_TXLINE_HEATER f l) (s.free (2 * l))
      if bit txLocked l then s.calibrate (hopKey f l * 2) (s.get (R.OPT_TXLINE_HEATER f l)) else s
  if s.rxLocked f l then s
  else
    let s := (s.set (R.OPT_RXLINE_STATE f l) (if bit rxLocked l then 4 else 1)).set (R.OPT_RXLINE_HEATER f l) (s.free (2 * l + 1))
    if bit rxLocked l then s.calibrate (hopKey f l * 2 + 1) (s.get (R.OPT_RXLINE_HEATER f l)) else s

/-- What the end of a fibre's cold search makes of the fibre. -/
def State.endSearch (s : State) (f : Nat) : State :=
  let s := (s.set (R.OPT_STAT_TX_LOCKED f) ((s.usedLines f).countP (s.txLocked f))).set
    (R.OPT_STAT_RX_LOCKED f) ((s.usedLines f).countP (s.rxLocked f))
  if s.fibre f = 1 ∧ (s.usedLines f).all (fun l => s.txLocked f l && s.rxLocked f l) then
    let s := s.set (R.OPT_STAT_STATE f) 2
    if bit (s.get R.PARSER_PLANES_EXCLUDE) f then s else s.set R.PARSER_PLANES_BULK (setBit (s.get R.PARSER_PLANES_BULK) f)
  else if s.fibre f = 1 then (s.set (R.OPT_STAT_STATE f) 5).logFault 5 f 0 0
  else if s.fibre f = 5 then
    let rel := if s.fabric.released.contains f then s.fabric.released else s.fabric.released ++ [f]
    State.endFailed { s with fabric := { s.fabric with released := rel } }
  else s.relocked f

/-- Rings of a fibre that a search has not found: the search goes on, unless the fibre has just failed for want of them. -/
def State.stillSearching (s : State) (f : Nat) : Bool :=
  (s.usedLines f).any (fun l => s.get (R.OPT_TXLINE_STATE f l) == 1 || s.get (R.OPT_RXLINE_STATE f l) == 1)

/-- COLD_SEARCH_DONE (R327, R328): of a fibre, or of its rings that failed a relock. Heater codes are free values. -/
def execColdSearchDone (fibre txLocked rxLocked : Nat) (s : State) : Host.Outcome State Fault Refusal :=
  ok (s.whenLive (fun s =>
    if !s.searchNow.contains fibre then s
    else
      let first := s.fibre fibre == 1
      let s := { s with fabric := { s.fabric with searching := s.fabric.searching.filter (· != fibre) } }
      let s := ((s.usedLines fibre).foldl (fun s l => s.searched fibre txLocked rxLocked l) s).freshen.endSearch fibre
      (s.search (if !first && s.stillSearching fibre then [fibre] else [])).lightCheck))

/-- FABRIC_READY_ASSERT (R15): Stem locked, lasers lit, every enabled fibre searched, enough planes locked. A
fibre that has FAILED keeps nothing waiting (log entry 141). -/
def execFabricReadyAssert (s : State) : Host.Outcome State Fault Refusal :=
  ok (s.whenLive (fun s =>
    match s.boot.stem with
    | none => s
    | some t =>
      let done := (List.range 32).all (fun f => !bit t.fibreEn f || (s.fibre f != 0 && s.fibre f != 1))
      if s.fabric.lsmLit ∧ done ∧ t.minPlanes ≤ s.lockedCount ∧ !s.fabric.fabricReady then
        let s := { s with fabric := { s.fabric with fabricReady := true } }
        if s.bootState = 2 then (s.set R.BOOT_STAT_STATE 3).set R.BOOT_TIME_READY_TICK s.tick else s
      else s))

/-- A ring leaves lock: its hop goes down and a relock begins (R328). -/
def State.unlockRing (s : State) (r : Ring) : State :=
  let f := r.fibre
  let k := if r.tx then hopKey f r.line else s.rxHop f r.line
  if r.tx then
    if s.txLocked f r.line then ((s.hopDown k).set (R.OPT_TXLINE_STATE f r.line) 3).less (R.OPT_STAT_TX_LOCKED f) else s
  else if s.rxLocked f r.line then ((s.hopDown k).set (R.OPT_RXLINE_STATE f r.line) 3).less (R.OPT_STAT_RX_LOCKED f) else s

/-- RING_LOCK_LOSS (R328, R17). -/
def execRingLockLoss (ring : Ring) (s : State) : Host.Outcome State Fault Refusal :=
  ok (s.whenLive (fun s => (s.unlockRing ring).readyCheck))

/-- RELOCK_DONE (R328): lock is restored, or the ring goes to cold search. -/
def execRelockDone (ring : Ring) (ok_ : Bool) (s : State) : Host.Outcome State Fault Refusal :=
  ok (s.whenLive (fun s =>
    let f := ring.fibre
    let fld := if ring.tx then R.OPT_TXLINE_STATE f ring.line else R.OPT_RXLINE_STATE f ring.line
    if s.get fld ≠ 3 then s
    else if !ok_ then (s.set fld 1).search [f]
    else ((s.set fld 4).wrap (if ring.tx then R.OPT_STAT_TX_LOCKED f else R.OPT_STAT_RX_LOCKED f)).relocked f))

/-- A ring found on another line is counted, taken out of service and relocked (R329). -/
def State.wrongRing (s : State) (r : Ring) : State := (s.count (R.OPT_COUNT_WRONG_LINE r.fibre)).unlockRing r

/-- LOCK_SUPERVISOR_CHECK (R329). -/
def execLockSupervisorCheck (wrong : List Ring) (s : State) : Host.Outcome State Fault Refusal :=
  ok (s.whenLive (fun s => (wrong.foldl (fun s r =>
    if (if r.tx then s.txLocked r.fibre r.line else s.rxLocked r.fibre r.line) then s.wrongRing r else s) s).readyCheck))

/-! ### Bursts -/

/-- SIGNAL_DETECT (R313): the drop ring's slice wakes. -/
def execSignalDetect (fibre line : Nat) (s : State) : Host.Outcome State Fault Refusal :=
  ok (s.whenLive (fun s =>
    let k := hopKey fibre line
    if s.fabric.awake.contains k then s else { s with fabric := { s.fabric with awake := s.fabric.awake ++ [k] } }))

def State.sleep (s : State) (k : Nat) : State := { s with fabric := { s.fabric with awake := s.fabric.awake.filter (· != k) } }

/-- LOCK_MISS (R313): the burst is discarded and counted. -/
def execLockMiss (fibre line : Nat) (s : State) : Host.Outcome State Fault Refusal :=
  ok (s.whenLive (fun s => (s.sleep (hopKey fibre line)).count (R.OPT_COUNT_LOCK_MISS fibre)))

/-- Table 13-2: what a header block says, without its target blocks. -/
def headerAt (p : Nat) : BurstHeader :=
  { srcChip := bits p 22 8, plane := bits p 27 23, line := bits p 33 28, mcast := bit p 34, bodyM1 := bits p 50 38,
    frameM1 := bits p 63 51, targets := [] }

def targetAt (p : Nat) : Nat × Bool × Nat := (bits p 13 8, bit p 14, bits p 39 16)

/-- The header of some blocks and the payloads of its body; none where they are not of Table 13-1's form (log entry 137). -/
def burstForm (bs : List Block) : Option (BurstHeader × List Nat) :=
  match bs with
  | [] => none
  | b :: r =>
    let h := headerAt b.payload
    let n := if h.mcast then h.line + 1 else 0
    let ts := r.take n
    let body := (r.drop n).take (h.bodyM1 + 1)
    if b.sync = (true, false) ∧ b.payload % 256 = 0x96 ∧ ts.length = n ∧ ts.all (fun t => t.sync == (true, false) && t.payload % 256 == 0xa5) ∧
        body.all (fun d => d.sync == (false, true)) ∧ h.frameM1 ≤ h.bodyM1 then
      some ({ h with targets := ts.map (fun t => targetAt t.payload) }, body.map Block.payload)
    else none

/-- A frame that some bytes hold after its Article (R289). -/
def bodyFrame (a : Article) (bs : List Byte) : Frame :=
  { art := a, payload := (bs.drop 32).take a.length, crc := leNat ((bs.drop (32 + a.length)).take 4),
    stomp := ((bs.drop (36 + a.length)).headD 0#8).toNat }

/-- The frames of a body (R317), with the blocks that its header gives to frames and those that came before an uncorrectable codeword.
A failing HCRC, or a frame that runs past, ends it. -/
def framesIn (mcast : Bool) : Nat → Nat → List Nat → List Arrival
  | 0, _, _ => []
  | fuel + 1, left, ps =>
    if left = 0 then []
    else
      let a := articleOf ((ps.take 4).flatMap (leBytes 8))
      let n := ceilDiv (40 + a.length) 8
      let bytes := (ps.take n).flatMap (leBytes 8)
      if ps.length < min 4 left then [.lost mcast none]
      else if left < 4 ∨ articleHcrc a ≠ a.hcrc ∨ left < n then [.past mcast]
      else if ps.length < n then
        [.lost mcast (some { (bodyFrame a bytes) with payload := (bytes.drop 32).take a.length ++ List.replicate (32 + a.length - bytes.length) 0#8 })]
      else .frame mcast (bodyFrame a bytes) :: framesIn mcast fuel (left - n) (ps.drop n)

/-- The LSEQ of the last multicast frame that a drop ring has accepted, those included that wait for FRAME_RECEIVE. -/
def State.lastMcast (s : State) (ring k : Nat) : Option Nat :=
  ((tget ring s.fabric.arrived).getD []).foldl (fun b x => match x with
    | .frame true f => if f.art.opcode = 0x30 then b else some f.art.lseq
    | _ => b) (s.hop k).mRxLast

/-- An accepted burst: the peer is heard; losses on the fibre are tested again (R447, R448); the frames of a multicast burst are
taken when FIRST or PREV_LSEQ agrees, else NACK goes (R325). -/
def State.hearBurst (s : State) (fibre line : Nat) (hdr : BurstHeader) (xs : List Arrival) : State :=
  let ring := hopKey fibre line
  let u := s.hearsFrom fibre line
  let k := s.rxHop fibre line
  let s := (s.modHop k (fun h => { h with heard := true })).heardFrom u
  let s := (s.usedLines fibre).foldl (fun s l => if s.peerOf fibre l = u then s else s.directLoss (s.peerOf fibre l) fibre) s
  let take := fun (s : State) =>
    if xs = [] then s
    else { s with fabric := { s.fabric with arrived := tset ring ((tget ring s.fabric.arrived).getD [] ++ xs) s.fabric.arrived } }
  if !hdr.mcast then take s
  else match hdr.targets.find? (fun t => t.1 == line) with
    | none => s
    | some (_, first, prev) =>
      let last := s.lastMcast ring k
      if (first ∧ last.isNone) ∨ (!first ∧ last = some prev) then take (s.modHop k (fun h => { h with mOpen := true }))
      else (s.modHop k (fun h => { h with mOpen := false })).nackHop k 1 ((last.map (fun x => (x + 1) % mSpace)).getD 0)

/-- BURST_RECEIVE (R316 to R318, R329): the symbols after the start delimiter are decoded and the header is checked; an accepted burst
leaves its frames to be taken one by one. A burst in which not even the header could be decoded asks for a resend. -/
def execBurstReceive (fibre line : Nat) (symbols : List Nat) (s : State) : Host.Outcome State Fault Refusal :=
  settled (s.whenLive (fun s =>
    let k := s.rxHop fibre line
    let r := burstBlocks symbols
    let s := ((s.sleep (hopKey fibre line)).count (R.OPT_FEC_CORRECTED fibre) r.2.1).count (R.OPT_COUNT_UNCORR fibre) r.2.2
    let s := s.modHop k (fun h => { h with corrected := h.corrected + r.2.1, uncorr := h.uncorr + r.2.2 })
    let check := fun (s : State) => s.count (R.SWC_PORT_ERR_CHECK (32 + fibre))
    match burstForm r.1 with
    | none => if r.1 = [] ∧ 0 < r.2.2 then s.askAgain (hopKey fibre line) k false else check s
    | some (hdr, body) =>
      if hdr.plane ≠ fibre then check s
      else if !hdr.mcast ∧ hdr.line ≠ line then
        let s := check s
        let d := s.planeDim fibre
        if (s.coord hdr.srcChip d + hdr.line) % dimSize d = s.coord s.chip d then
          (s.wrongRing { fibre := fibre, line := line, tx := false }).readyCheck
        else s.sendCtl (hopKey fibre (s.lineToward fibre hdr.srcChip)) 7 0 line 0 hdr.line 0 0
      else if hdr.mcast ∧ !hdr.targets.any (fun t => t.1 == line) then check s
      else
        let framed := hdr.frameM1 + 1
        s.hearBurst fibre line hdr (framesIn hdr.mcast framed framed (body.take framed))))

/-- BURST_OPEN (R319). Bursts of one fibre run side by side on its slices; which lines have one open, and so pass their turn, is the
command's LINE (log entry 143). -/
def execBurstOpen (fibre line : Nat) (s : State) : Host.Outcome State Fault Refusal :=
  ok (s.whenLive (fun s => s.openBurst fibre line))

/-- Messages that their author repeats until they are answered (R322): HOP_DRAIN and the query of a hop that went down. -/
def State.repeatCtl (s : State) (k : Nat) : State :=
  let s := if s.fibre (k / 64) = 3 ∧ !(s.hop k).drainDone ∧ !(s.hop k).ctl.any (fun c => c.1 == 0xa) then s.sendCtl k 0xa 0 0 0 0 0 0 else s
  ((s.hopsTo (s.hopPeer k)).map (fun h => hopKey h.1 h.2)).foldl (fun s j =>
    if (s.hop j).query ∧ !(s.hop j).ctl.any (fun c => c.1 == 8) then s.queryHop j else s) s

/-- KEEPALIVE_TIMER (R323): a burst to the peer; it carries KEEPALIVE when nothing else goes. -/
def execKeepaliveTimer (fibre line : Nat) (s : State) : Host.Outcome State Fault Refusal :=
  ok (s.whenLive (fun s =>
    if (s.hop (hopKey fibre line)).up then
      let t := (s.repeatCtl (hopKey fibre line)).openBurst fibre line
      if t.out.length = s.out.length then (t.sendCtl (hopKey fibre line) 0xf 0 0 0 0 0 0).openBurst fibre line else t
    else s))

/-- POWER_REPORT_TIMER (R323, Table 13-5): POWER to the source that a drop ring hears, with what was counted since the last report;
the margin is what is left over LSM_CFG.RX_REQ (R330). -/
def execPowerReportTimer (fibre line power : Nat) (s : State) : Host.Outcome State Fault Refusal :=
  ok (s.whenLive (fun s =>
    let k := s.rxHop fibre line
    let h := s.hop k
    let margin := (power + 2 ^ 16 - s.get R.LSM_CFG_RX_REQ) % 2 ^ 16
    ((s.set (R.OPT_RXLINE_POWER fibre line) power).modHop k (fun h => { h with corrected := 0, uncorr := 0 })).sendCtl k 6 0 line 0
      (power % 2 ^ 16 + margin * 2 ^ 16) (min h.corrected (2 ^ 32 - 1)) (min h.uncorr (2 ^ 32 - 1))))

/-- HOP_LOST (R323, R448): the hop is down by loss of light. -/
def execHopLost (fibre line : Nat) (hearsOther : Bool) (s : State) : Host.Outcome State Fault Refusal :=
  settled (s.whenLive (fun s =>
    let k := s.rxHop fibre line
    if s.get (R.OPT_RXLINE_STATE fibre line) ≠ 2 then s
    else
      let s := (s.hopDown k).modHop k (fun h => { h with lostByLight := true, heard := false })
      let s := (s.set (R.OPT_RXLINE_STATE fibre line) 4).count (R.OPT_COUNT_LOSS fibre)
      let s := if hearsOther then s.directLoss (s.hearsFrom fibre line) fibre else s
      (if s.reachState (s.hearsFrom fibre line) = 2 then (s.hopsTo (s.hearsFrom fibre line)).foldl (fun s h => s.strand (hopKey h.1 h.2)) s
       else s).readyCheck))

/-- HOP_UP or HOP_UP_ACK with a nonce. -/
def upMsg (chip f nonce : Nat) : LinkCtl :=
  { src := chip, fibre := f, plane := f, kind := 0, line := 0, vc := 0, value0 := nonce, value1 := 0, value2 := 0 }

/-- HOP_UP_TIMER (R324): HOP_UP with a new nonce on a locked, down hop of an ACTIVE or released fibre. -/
def execHopUpTimer (fibre line : Nat) (s : State) : Host.Outcome State Fault Refusal :=
  ok (s.whenLive (fun s =>
    let k := hopKey fibre line
    if (s.hop k).up ∨ s.get (R.OPT_TXLINE_STATE fibre line) ≠ 4 ∨ !s.rxLocked fibre (s.backLine fibre line) ∨
        (s.fibre fibre ≠ 2 ∧ !s.fabric.released.contains fibre) then s
    else
      let nonce := ((s.hop k).nonce + 1) % 2 ^ 32
      let s := s.modHop k (fun h => { h with nonce := nonce })
      s.sendBurst fibre [line] [] [(0xd, upMsg s.chip fibre nonce)] []))

/-! ### Link control (R322, Table 13-5) -/

/-- A message shows that its author is alive on the fibre that carried it. -/
def State.ctlHeard (s : State) (m : LinkCtl) : State :=
  (s.modHop (hopKey m.fibre (s.lineToward m.fibre m.src)) (fun h => { h with heard := true })).heardFrom m.src

/-- Runs a message. -/
def State.linkCtl (s : State) (m : LinkCtl) (f : Nat → State → State) : State :=
  s.whenLive (fun s => f (s.msgHop m) (s.ctlHeard m))

/-- ACK (R294). -/
def execAck (m : LinkCtl) (s : State) : Host.Outcome State Fault Refusal :=
  ok (s.linkCtl m (fun k s => ((s.ackUpTo k (m.kind % 2) m.value0).drainReport k).drainCheck m.plane))

/-- NACK (R294, R325): what it shows accepted is freed, the rest is sent again. -/
def execNack (m : LinkCtl) (s : State) : Host.Outcome State Fault Refusal :=
  ok (s.linkCtl m (fun k s => ((s.resend k (m.kind % 2) (m.value0 % mSpace)).drainReport k).drainCheck m.plane))

/-- CREDIT (R320). -/
def execCredit (m : LinkCtl) (s : State) : Host.Outcome State Fault Refusal :=
  ok (s.linkCtl m (fun k s => s.modHop k (fun h =>
    { h with credit := tset m.vc ((tget m.vc h.credit).getD 0 + m.value0) h.credit })))

/-- CREDIT_REQ (R320): grants from the lending pool, to the peers that ask in turn. -/
def execCreditReq (m : LinkCtl) (s : State) : Host.Outcome State Fault Refusal :=
  ok (s.linkCtl m (fun k s => (s.modHop k (fun h => { h with wants := tset m.vc m.value0 h.wants })).lend m.plane m.vc))

/-- CREDIT_RETURN (R320). -/
def execCreditReturn (m : LinkCtl) (s : State) : Host.Outcome State Fault Refusal :=
  ok (s.linkCtl m (fun k s => (s.modHop k (fun h =>
    { h with given := tset m.vc ((tget m.vc h.given).getD 0 - m.value0) h.given })).lend m.plane m.vc))

/-- LEND_IDLE_TIMEOUT (R320): credit above standing goes back. -/
def execLendIdleTimeout (fibre line vc : Nat) (s : State) : Host.Outcome State Fault Refusal :=
  ok (s.whenLive (fun s =>
    let k := hopKey fibre line
    let n := s.creditOf k vc - s.standing fibre vc
    if n = 0 ∨ !(s.hop k).up then s
    else (s.spend k vc n).sendCtl k 5 0 0 vc n 0 0))

/-- POWER (R330): the margin of the reported line. -/
def execPower (m : LinkCtl) (s : State) : Host.Outcome State Fault Refusal :=
  ok (s.linkCtl m (fun _ s =>
    let s := s.set (R.OPT_TXLINE_MARGIN m.plane m.line) (m.value0 / 2 ^ 16)
    { s with fabric := { s.fabric with reports := tset (hopKey m.plane m.line) (s.tick, m.value1, m.value2) s.fabric.reports } }))

/-- LINE_ALARM (R329): VALUE0 names the transmit ring. -/
def execLineAlarm (m : LinkCtl) (s : State) : Host.Outcome State Fault Refusal :=
  ok (s.linkCtl m (fun _ s =>
    if s.txLocked m.plane (m.value0 % 64) then
      (s.wrongRing { fibre := m.plane, line := m.value0 % 64, tx := true }).readyCheck
    else s))

/-- SEQ_QUERY (R296): the next LSEQ expected; nothing more is accepted on the hop. -/
def execSeqQuery (m : LinkCtl) (s : State) : Host.Outcome State Fault Refusal :=
  ok (s.linkCtl m (fun k s =>
    let h := s.hop k
    let v := if m.kind % 2 = 0 then h.rxNext else (h.mRxLast.map (fun x => (x + 1) % mSpace)).getD 0
    (s.modHop k (fun h => { h with closed := true, mOpen := false })).sendCtl k 9 (m.kind % 2) 0 0 v 0 0))

/-- SEQ_REPLY (R296). -/
def execSeqReply (m : LinkCtl) (s : State) : Host.Outcome State Fault Refusal :=
  ok (s.linkCtl m (fun k s =>
    if (s.hop k).up ∨ !(s.hop k).query then s else (s.moveHeld k (m.kind % 2) m.value0).drainCheck m.plane))

/-- HOP_DRAIN (R336): the peer drains the plane. -/
def execHopDrain (m : LinkCtl) (s : State) : Host.Outcome State Fault Refusal :=
  ok (s.linkCtl m (fun k s => (s.modHop k (fun h => { h with peerDrains := true })).drainReport k))

/-- HOP_DRAIN_DONE (R336). -/
def execHopDrainDone (m : LinkCtl) (s : State) : Host.Outcome State Fault Refusal :=
  ok (s.linkCtl m (fun k s => (s.modHop k (fun h => { h with drainDone := true })).drainCheck m.plane))

/-- HOP_DOWN (R324). -/
def execHopDown (m : LinkCtl) (s : State) : Host.Outcome State Fault Refusal :=
  ok (s.linkCtl m (fun k s => (s.hopDown k).drainCheck m.plane))

/-- HOP_UP (R324): the receive state is reset, unless this nonce has been answered, and HOP_UP_ACK goes. -/
def execHopUp (m : LinkCtl) (s : State) : Host.Outcome State Fault Refusal :=
  ok (s.linkCtl m (fun k s =>
    let s := if (s.hop k).answered = some m.value0 then s
      else (s.resetReceive k).modHop k (fun h => { h with answered := some m.value0 })
    s.sendBurst m.plane [k % 64] [] [(0xe, upMsg s.chip m.plane m.value0)] []))

/-- HOP_UP_ACK (R324): for the latest nonce the hop enters service. -/
def execHopUpAck (m : LinkCtl) (s : State) : Host.Outcome State Fault Refusal :=
  ok (s.linkCtl m (fun k s => if (s.hop k).up ∨ (s.hop k).nonce ≠ m.value0 ∨ (s.hop k).nonce = 0 then s else s.hopEnters k))

/-- KEEPALIVE (R323). -/
def execKeepalive (m : LinkCtl) (s : State) : Host.Outcome State Fault Refusal := ok (s.linkCtl m (fun _ s => s))

/-- RETRY_TIMEOUT (R294): the oldest unacknowledged frame of a space whose acknowledgement is late, and those after it, are sent
again. -/
def execRetryTimeout (fibre line : Nat) (s : State) : Host.Outcome State Fault Refusal :=
  ok (s.whenLive (fun s =>
    let k := hopKey fibre line
    match (s.hop k).held with
    | [] => s
    | (q, _) :: _ =>
      let late := fun (s : State) (q : Nat) => decide (s.get R.SWC_CTL_RETRY_NS ≤ s.since ((tget q (s.hop k).sentAt).getD s.tick))
      let s := s.resendHeld k (q / mSpace) (s.hop k).mAcked
      match (s.hop k).held.find? (fun h => h.1 / mSpace != q / mSpace) with
      | some (q', _) => if late s q' then s.resendHeld k (q' / mSpace) (s.hop k).mAcked else s
      | none => s))

/-- HOP_RETRY_EXHAUSTED (R296): the hop is declared down. -/
def execHopRetryExhausted (fibre line : Nat) (s : State) : Host.Outcome State Fault Refusal :=
  ok (s.whenLive (fun s =>
    let k := hopKey fibre line
    if (s.hop k).held = [] ∨ (s.hop k).resends < s.get R.SWC_CTL_RETRY_MAX then s else (s.hopDown k).drainCheck fibre))

/-! ### Drains (R336) -/

/-- OPT_DRAIN_START. -/
def execOptDrainStart (fibre : Nat) (s : State) : Host.Outcome State Fault Refusal :=
  ok (s.whenLive (fun s => s.writeDrain fibre true))

/-- OPT_DRAIN_RETURN. -/
def execOptDrainReturn (fibre : Nat) (s : State) : Host.Outcome State Fault Refusal :=
  ok (s.whenLive (fun s => s.writeDrain fibre false))

/-- FIBRE_DRAIN_TIMEOUT: what remains moves to another plane, or ends with ERR_ABORTED. -/
def execFibreDrainTimeout (fibre : Nat) (s : State) : Host.Outcome State Fault Refusal :=
  settled (s.whenLive (fun s =>
    if s.fibre fibre ≠ 3 then s
    else
      let s := (s.planeHops fibre).foldl (fun s k =>
        let other := s.otherHop k
        let s := s.hopDown k
        match other with
        | some _ => s
        | none =>
          let queued := s.fabric.frames.filter (fun (e : Nat × FrameSlot) =>
            e.2.queued && e.2.out == some (32 + fibre) && e.2.mlines.isEmpty && e.2.line == k % 64)
          let ids := (s.hop k).held.map Prod.snd ++ (s.hop k).granted ++ queued.map Prod.fst
          let s := s.modHop k (fun h => { h with held := [], granted := [], sentAt := [] })
          ids.foldl (fun s id => match tget id s.fabric.frames with
            | none => s
            | some e =>
              let a := e.frame.art
              if bit a.flags flMcast then
                (s.modSlot id (fun e => { e with holds := e.holds.filter (· != k), mlines := e.mlines.filter (· != k % 64) })).dropIfFree id
              else
              let s := s.removeFrame id
              if opClass a.opcode = 0 then
                (((s.logFault 1 a.dest a.partition 6).count R.FAULT_ECC_ABORTS).bounce e.frame .aborted)
              else s) s) s
      let s := (s.fabric.frames.filter (fun (e : Nat × FrameSlot) => e.2.queued && e.2.out == some (32 + fibre))).foldl
        (fun s e => if e.2.mlines = [] then s.relook e.1 e.2 else s.dropLines e.1 (32 + fibre) e.2) s
      s.drainCheck fibre))

end Sys2Proof.Machine
end

