-- ==== Sys2Proof/Machine/Boot.lean ====
section
/-! DEFINITION. Start, reset, lock, freeze and emergency off (chapters 16 to 19 and 21): the checks of a flash bank, the start
sequence of Table 17-9, and what each kind of reset keeps. -/

namespace Sys2Proof.Machine

/-! ### The Stem's own checks (R406 to R412) -/

/-- Dimension of a plane: 0 X, 1 Y, 2 Z, 3 none. -/
def stemDim (t : Stem) (f : Nat) : Nat :=
  if f < t.xFibres then 0 else if f < t.xFibres + t.yFibres then 1 else if f < t.xFibres + t.yFibres + t.zFibres then 2 else 3

/-- Table 17-5, DIMENSIONS. -/
def stemDims (t : Stem) : Bool :=
  decide (t.xFibres + t.yFibres + t.zFibres ≤ 32) && decide (t.bx ≤ 6) && decide (t.byw ≤ 6) && decide (t.bz ≤ 3) &&
    (t.bx == 0) == (t.xFibres == 0) && (t.byw == 0) == (t.yFibres == 0) && (t.bz == 0) == (t.zFibres == 0) &&
    decide (1 ≤ t.minPlanes) && decide (t.minPlanes ≤ 32) && decide (t.fibreEn < 2 ^ 32) &&
    decide (t.minPlanes ≤ popcount 32 t.fibreEn)

/-- Numbers of the accelerator ports of a slot. -/
def slotPortsOf (t : Stem) (a : Nat) : List Nat :=
  (List.range 32).filter (fun p => match t.ports[p]? with
    | some e => e.role == 0 && e.slot == a
    | none => false)

def consecutive : List Nat → Bool
  | a :: b :: r => a + 1 == b && consecutive (b :: r)
  | _ => true

/-- Table 17-5, PORTS; R31 and R339. -/
def stemPorts (t : Stem) : Bool :=
  t.ports.length == 32 && t.mempIde.length == 4 &&
    t.ports.all (fun e => decide (e.role < 3) && decide (e.slot < 16) && decide (e.farUnit < 4) && !(e.role == 1 && e.bifurcate)) &&
    (List.range 16).all (fun a =>
      let ps := slotPortsOf t a
      consecutive ps && (ps.all (fun p => ((t.ports[p]?).map PortEntry.bifurcate).getD false) ||
        ps.all (fun p => !((t.ports[p]?).map PortEntry.bifurcate).getD false))) &&
    (List.range 4).all (fun k => decide (t.ports.countP (fun e => e.role == 1 && e.farUnit == k) ≤ 7))

/-- Table 17-5, OPTICS, TIMEOUTS, BOUNDS, POWER, DOMAINS and DEBUG_AUTH, whose one LEVEL is 1. -/
def stemLimits (t : Stem) : Bool :=
  t.lsmBias.all (fun b => decide (b ≤ 1023)) && t.debugAuth.all (fun d => d.2.1 == 1) &&
    decide (50 ≤ t.txnUs) && decide (t.txnUs ≤ 1000000) && decide (100 ≤ t.drainUs) && decide (t.drainUs ≤ 1000000) &&
    decide (t.partLo ≤ t.partHi) && decide (t.partHi ≤ 4095) && decide (t.maxSlot < 2 ^ 16) && decide (t.maxNear < 2 ^ 32) &&
    decide (t.maxFar < 2 ^ 32) && decide (t.maxOutstanding < 2 ^ 32) && decide (40 ≤ t.brakeFloorPct) &&
    decide (t.brakeFloorPct ≤ 60) && decide (t.capInitW ≤ 1050) && decide (t.trayTag < 2 ^ 32) && decide (t.rackTag < 2 ^ 32) &&
    decide (t.rowTag < 2 ^ 32)

/-- The control region does not overlap the aperture (R26, R168). -/
def stemRegions (t : Stem) : Bool :=
  let ap := entryValue t.regs R.XLAT_APERTURE_BASE * 2 ^ 54
  let ct := entryValue t.regs R.XLAT_CONTROL_BASE * 2 ^ 28
  !overlaps ap (2 ^ 54) ct (2 ^ 28)

/-- Input reserves and credit (R299, R321). -/
def stemReserves (t : Stem) : Bool :=
  let ires := fun p v => entryValue t.regs (R.SWC_LIMIT_IRES p v)
  let stand := fun f v => entryValue t.regs (match v with
    | 0 => R.OPT_CREDIT_STANDING_0 f
    | 1 => R.OPT_CREDIT_STANDING_1 f
    | 2 => R.OPT_CREDIT_STANDING_2 f
    | 3 => R.OPT_CREDIT_STANDING_3 f
    | 4 => R.OPT_CREDIT_STANDING_4 f
    | _ => R.OPT_CREDIT_STANDING_5 f)
  (List.range 64).all (fun p => (List.range 6).all (fun v => decide (17 ≤ ires p v))) &&
    (List.range 144).all (fun p => (List.range 6).all (fun v => decide (17 ≤ entryValue t.regs (R.SWC_LIMIT_OMAX p v)))) &&
    decide (((List.range 144).map (fun p => ((List.range 6).map (fun v => ires p v)).sum)).sum ≤ 589824) &&
    (List.range 32).all (fun f =>
      let n := if stemDim t f = 2 then 7 else 63
      stemDim t f == 3 || (List.range 6).all (fun v => decide (n * stand f v + (if v = 0 then 0 else 17) ≤ ires (32 + f) v)))

/-- A well-formed Stem, its layout apart (R409; stemOf). -/
def stemOk (t : Stem) : Bool :=
  stemDims t && stemPorts t && stemLimits t && t.regs.all entryStemOk && stemRegions t && stemReserves t

/-- A well-formed Inflection, its layout apart (R412; inflectionOf). -/
def inflectionOk (i : Inflection) : Bool :=
  i.entries.all entryInflOk

/-- The code of a bank check: 1 for a bank that passes (R406). -/
def bankCode (identity : List Byte) (b : Bank) (fwSvn : Nat) : Nat :=
  if !b.readOk then 2
  else if !Bank.headerOk b then 3
  else if !Bank.signed b identity then 4
  else if !Bank.digestsOk b then 5
  else if Bank.svn b < fwSvn then 6
  else if !(Bank.stem b).any stemOk then 7
  else if !(Bank.inflections b).any (fun is => is.all inflectionOk) then 8
  else if !Bank.tilefwSigned b then 9
  else 1

/-- The preferred bank: the newer of those that pass steps 1 and 2 (R407). -/
def preferredBank (f : Flash) : Nat :=
  let ok0 := f.bank0.readOk && Bank.headerOk f.bank0
  let ok1 := f.bank1.readOk && Bank.headerOk f.bank1
  if ok1 && (!ok0 || decide (Bank.seq f.bank0 < Bank.seq f.bank1)) then 1 else 0

def flashBank (f : Flash) (n : Nat) : Bank := if n = 0 then f.bank0 else f.bank1

/-- The result of a bank's checks. -/
def flashCode (f : Flash) (n fwSvn : Nat) : Nat := bankCode f.identity (flashBank f n) fwSvn

/-- The bank from which the start goes on: the preferred one, else the other (R407). -/
def startBank (f : Flash) (fwSvn : Nat) : Option Nat :=
  let a := preferredBank f
  if flashCode f a fwSvn = 1 then some a else if flashCode f (1 - a) fwSvn = 1 then some (1 - a) else none

/-! ### Resets -/

/-- Keys of the fields that a warm reset keeps (R418, R465): scratch, LAST_SEQs, KEY_EPOCHs, SEC_GLOG, FROZEN, and the fault
log's fields. -/
def keptKey (k : Nat) : Bool :=
  let one := fun (f : Fld) => k == f.key
  (List.range 4).any (fun i => one (R.GLB_SCRATCH_VALUE i)) || one R.BOOT_MODE_SEQ_LAST_SEQ || one R.PWR_CAP_SEQ_LAST_SEQ ||
    one R.SEC_GLOG_COUNT || one R.SEC_GLOG_ENTRIES || one R.SEC_STAT_FROZEN || one R.FAULT_STAT_LOG_ENTRIES ||
    one R.FAULT_STAT_FATAL_CAUSE || one R.FAULT_STAT_EPO_CAUSE ||
    (decide ((R.PART_STATE_KEY_EPOCH 0).key ≤ k) && decide (k ≤ (R.PART_STATE_KEY_EPOCH 4095).key) &&
      (k - (R.PART_STATE_KEY_EPOCH 0).key) % ((R.PART_STATE_KEY_EPOCH 1).key - (R.PART_STATE_KEY_EPOCH 0).key) == 0)

/-- The chip in reset with its fields of some keys kept, its pins as they are, and the model's own queue, output and free
values. -/
def State.inReset (s : State) (keep : Nat → Bool) : State :=
  { State.reset with
      pending := s.pending, fresh := s.fresh, out := s.out, regs := s.regs.filter (fun (r : Nat × Nat) => keep r.1),
      power := { Power.reset with pwrbrakeN := s.power.pwrbrakeN, coolOk := s.power.coolOk },
      fabric := { Fabric.reset with lsmPresN := s.fabric.lsmPresN },
      security := { Security.reset with keysDrawn := s.security.keysDrawn } }

/-- What a warm reset and emergency off keep, beside register fields: straps, fuses and the two logs (R401, R418, R457). -/
def State.warmKept (s : State) (keep : Nat → Bool) : State :=
  let r := s.inReset keep
  { r with boot := { r.boot with porN := s.boot.porN, aonRuns := s.boot.aonRuns, straps := s.boot.straps, fuses := s.boot.fuses },
           security := { r.security with glog := s.security.glog }, tele := { r.tele with log := s.tele.log } }

/-! ### The start sequence (Table 17-9) -/

/-- Steps 2 to 4: AONCLK runs, LOCALTICK starts from 0, the fuses are read, tile fusing is applied, the identity section is
copied, the management ports answer. -/
def State.startUp (s : State) (flash : Flash) : State :=
  let p := s.boot.straps
  let fu := s.boot.fuses
  let s := { s with boot := { s.boot with aonRuns := true, identity := flash.identity.take 16384, flashOwnN := false } }
  let s := (s.set R.BOOT_STAT_MODE_PINS p.mode).set R.BOOT_POS_POS_X p.posX
  let s := (s.set R.BOOT_POS_POS_Y p.posY).set R.BOOT_POS_POS_Z p.posZ
  let s := (s.set R.SEC_SERIAL_SERIAL fu.serial).set R.SEC_STAT_FW_SVN fu.fwSvn
  let s := (s.set R.GLB_ID_STEPPING fu.stepping).set R.SEC_STAT_DEBUG (if fu.rma then 2 else 0)
  let s := (List.range 50).foldl (fun (s : State) n =>
    if bit fu.fused n then
      ((s.set (R.TILE_INFO_FUSED n) 1).set (R.TILE_INFO_LOGICAL n) 255).set (R.TILE_STAT_STATE n) 3
    else s.set (R.TILE_INFO_LOGICAL n) ((List.range n).countP (fun i => !bit fu.fused i))) s
  let s := (s.set R.CLK_STAT_PLL_LOCK 8).set R.GLB_MGMT_STAT_UP_0 1
  (s.set R.GLB_MGMT_STAT_UP_1 1).set R.BOOT_STAT_STATE 1

/-- The start fails: BOOT_FAIL (R405, R417). -/
def State.bootFail (s : State) : State :=
  { s with boot := { s.boot with stem := none, inflections := [], flashOwnN := true } }.set R.BOOT_STAT_STATE 4

/-- A strap at or above 2 to the power of its width (R408). -/
def posError (p : Straps) (t : Stem) : Bool :=
  decide (2 ^ t.bx ≤ p.posX) || decide (2 ^ t.byw ≤ p.posY) || decide (2 ^ t.bz ≤ p.posZ)

/-- A debug authorisation that holds for this part (R399, R409). -/
def debugOn (fu : Fuses) (t : Stem) : Bool :=
  match t.debugAuth with
  | some (serial, level, sig) => serial == fu.serial &&
      Config.ecdsaVerify Config.rootKey (leBytes 8 serial ++ leBytes 8 level) sig
  | none => false

/-- Steps 5 and 6: the banks are checked, the preferred first, and the position (R406 to R408). -/
def State.loadBank (s : State) (flash : Flash) : State :=
  let a := preferredBank flash
  let ca := flashCode flash a s.boot.fuses.fwSvn
  let cb := if ca = 1 then 0 else flashCode flash (1 - a) s.boot.fuses.fwSvn
  let s := (s.set R.BOOT_STAT_CAUSE0 (if a = 0 then ca else cb)).set R.BOOT_STAT_CAUSE1 (if a = 0 then cb else ca)
  match startBank flash s.boot.fuses.fwSvn with
  | none => s.bootFail
  | some n =>
    let b := flashBank flash n
    let s := (s.set R.BOOT_STAT_BANK n).set R.BOOT_STAT_FALLBACK (if n = a then 0 else 1)
    match Bank.stem b with
    | none => s.bootFail
    | some t =>
      let p := s.boot.straps
      if posError p t then (s.set R.BOOT_STAT_POS_ERR 1).bootFail
      else
        let s := s.set R.BOOT_POS_CHIP (p.posX + p.posY * 2 ^ t.bx + p.posZ * 2 ^ (t.bx + t.byw))
        let s := if !s.boot.fuses.rma && debugOn s.boot.fuses t then s.set R.SEC_STAT_DEBUG 1 else s
        { s with boot := { s.boot with
            stem := some t, inflections := (Bank.inflections b).getD [],
            tilefwDigest := ((Bank.section_ b 2).map DirEntry.digest).getD 0 } }

/-- POR_N_RELEASE (R408, R413, R417): steps 1 to 6 of the start sequence. -/
def execPorNRelease (straps : Straps) (fuses : Fuses) (flash : Flash) (s : State) : Host.Outcome State Fault Refusal :=
  ok (if s.boot.porN then s
    else
      let s := { s with boot := { s.boot with porN := true, straps := straps, fuses := fuses } }
      (s.startUp flash).loadBank flash)

/-- POR_N_ASSERT (R389, R479): everything returns to its power-on state. -/
def execPorNAssert (s : State) : Host.Outcome State Fault Refusal := ok (s.inReset (fun _ => false))

/-- WRST_N_ASSERT (R418): steps 2 to 6 again, with what a warm reset keeps. -/
def execWrstNAssert (flash : Flash) (s : State) : Host.Outcome State Fault Refusal :=
  ok (if s.boot.porN then ((s.warmKept keptKey).startUp flash).loadBank flash else s)

/-- The Inflection that a number selects. -/
def State.inflection (s : State) (n : Nat) : Option Inflection := s.boot.inflections.find? (fun i => i.number == n)

/-- Lasers light in fast start with the Stem's bias, and the PTUs that OFF are begin cold calibration (R276, R330, R335). -/
def State.light (s : State) : State :=
  let s := s.set R.BOOT_STAT_WAIT_COOL (if s.power.coolOk then 0 else 1)
  if !s.power.coolOk then s
  else
    let s := (List.range 10).foldl (fun (s : State) n =>
      let st := s.get (R.LSM_STAT_STATE n)
      if bit s.fabric.lsmEn n then s
      else if st = 2 then s.enableLsm n 2
      else if st = 4 ∨ (st = 1 ∧ s.get (R.LSM_STAT_GROUP n) ≠ 15) then
        (s.enableLsm n 1).emit (.lsmWrite n 3 (s.get (R.LSM_STAT_BIAS n)))
      else s) s
    (List.range 4).foldl (fun (s : State) u =>
      if s.get (R.PTU_STAT_STATE u) = 0 then
        if s.flag (R.PTU_CTL_ENABLE u) then
          ((s.set (R.PTU_STAT_STATE u) 1).setFlag (R.PTU_STAT_CARRIER u) (!bit s.fabric.lsmPresN (2 * u))).setPtu u (s.coldPtu u [])
        else s.set (R.PTU_STAT_STATE u) 4
      else s) s

/-- What the lock takes from the Stem's records into status registers (Tables 14-6, 18-11, 19-8; R31, R330, R339). -/
def State.stemFields (s : State) (t : Stem) : State :=
  let s := (s.set R.PWR_CTL_FLOOR_PCT t.brakeFloorPct).set R.PWR_STAT_CAP_W (max t.capInitW (ceilDiv (t.brakeFloorPct * 1050) 100))
  let s := (s.set R.FAULT_TIMEOUTS_TXN_US t.txnUs).set R.FAULT_TIMEOUTS_DRAIN_US t.drainUs
  let s := (List.range 32).foldl (fun (s : State) p =>
    match t.ports[p]? with
    | none => s
    | some e =>
      let s := (s.set (R.EDGE_STAT_ROLE p) e.role).set (R.EDGE_STAT_SLOT p) (if e.role = 0 then e.slot else 0)
      s.set (R.EDGE_STAT_FAR_UNIT p) (if e.role = 1 then e.farUnit else 0)) s
  (List.range 10).foldl (fun (s : State) n =>
    if bit s.fabric.lsmPresN n then s
    else (s.set (R.LSM_STAT_STATE n) 1).set (R.LSM_STAT_BIAS n) ((t.lsmBias[n]?).getD 0)) s

/-- Links, ports and sites begin to train; functions that are not enabled stay out of service (R340, R354, R365). -/
def State.startTraining (s : State) : State :=
  let s := [0, 1].foldl (fun (s : State) l => if s.flag (R.NELAR_CTL_ENABLE l) then s.enterClock l else s) s
  let s := (List.range 32).foldl (fun (s : State) p =>
    if s.get (R.EDGE_STAT_ROLE p) = 2 then s
    else if s.flag (R.EDGE_CTL_ENABLE p) then s.set (R.EDGE_STAT_STATE p) 1 else s.set (R.EDGE_STAT_STATE p) 4) s
  let s := (List.range 4).foldl (fun (s : State) k => s.set (R.MEMP_STAT_STATE k) 1) s
  let s := (List.range 16).foldl (fun (s : State) k => s.set (R.GDDR_STAT_STATE k) 1) s
  (List.range 50).foldl (fun (s : State) n =>
    if s.get (R.TILE_STAT_STATE n) = 0 ∧ !s.flag (R.TILE_CTL_ENABLE n) then s.set (R.TILE_STAT_STATE n) 2 else s) s

/-- Cells of all input reserves (R298). -/
def State.reserved (s : State) : Nat :=
  ((List.range 144).map (fun p => ((List.range 6).map (fun v => s.get (R.SWC_LIMIT_IRES p v))).sum)).sum

/-- Step 7 (R405, R413, R468): Stem REGS, then the Inflection, then the lock. -/
def State.lock (s : State) (t : Stem) : State :=
  let s := s.applyEntries t.regs
  let s := match s.inflection s.boot.straps.mode with
    | some i => (s.applyEntries i.entries).set R.BOOT_STAT_MODE i.number
    | none => s.set R.BOOT_STAT_MODE 255
  let s := (s.set R.CLK_STAT_PLL_LOCK 15).set R.CLK_STAT_EDGE_LOCK (2 ^ 36 - 1)
  let s := s.stemFields t
  let free := 655360 - s.reserved
  let s := (s.set R.SWC_POOL_SHARED_FREE free).set R.SWC_POOL_MIN_SHARED free
  let s := ((s.set R.GLB_LOCK_LOCKED 1).set R.BOOT_TIME_LOCK_TICK s.tick).set R.BOOT_STAT_STATE 2
  ({ s with boot := { s.boot with flashOwnN := true } }).startTraining.light

/-- CONFIGURATION_LOCK (R468). -/
def execConfigurationLock (s : State) : Host.Outcome State Fault Refusal :=
  ok (match s.boot.stem with
    | some t => if s.boot.porN ∧ !s.boot.epo ∧ s.frozen.isNone ∧ s.bootState = 1 then s.lock t else s
    | none => s)

/-! ### Freeze and emergency off -/

/-- A Nelar link at the freeze: it goes down at once and sends nothing (R366, R436). -/
def State.quietLink (s : State) (l : Nat) : State :=
  if 1 ≤ s.linkState l ∧ s.linkState l ≤ 5 then
    ((s.count (R.NELAR_COUNT_RETRAINS l)).set (R.NELAR_STAT_STATE l) 1).set (R.NELAR_STAT_LANES_LOCKED l) 0
  else s

/-- The freeze (R435, R436): every logic clock stops, the fabric state is lost to the fabric, a mode change is abandoned. -/
def State.freeze (s : State) (stopCycles : List Nat) : State :=
  let s := (s.quietLink 0).quietLink 1
  let s := (s.set R.SEC_STAT_FROZEN 1).set R.BOOT_STAT_MODE_PENDING 0
  let f : Frozen := { number := s.fresh, tick := s.tick, stopCycles := stopCycles.take 8, regs := s.regs }
  ({ s with boot := { s.boot with modeChange := none }, fabric := { s.fabric with fabricReady := false }, frozen := some f }).freshen

/-- FREEZE_N_ASSERT (R435). -/
def execFreezeNAssert (stopCycles : List Nat) (s : State) : Host.Outcome State Fault Refusal :=
  let s := { s with power := { s.power with freezeN := false } }
  ok (if s.boot.porN ∧ s.boot.aonRuns ∧ !s.boot.epo ∧ s.frozen.isNone then s.freeze stopCycles else s)

/-- FATAL_ERROR (R444): the cause is recorded and logged, and the chip freezes itself; nothing is sent (R436). The cycles at
which the domains stop are free values. -/
def execFatalError (cause : Nat) (s : State) : Host.Outcome State Fault Refusal :=
  ok (if s.boot.porN ∧ s.boot.aonRuns ∧ !s.boot.epo ∧ s.frozen.isNone then
      let s := (s.set R.FAULT_STAT_FATAL_CAUSE cause).set R.GLB_STAT_FATAL 1
      let s := s.recordFault (s.faultEvent 13 (s.get R.FAULT_STAT_FATAL_CAUSE) 0 0)
      let s := if cause = 3 then s.set R.CLK_STAT_PLL_LOCK (clearBit (s.get R.CLK_STAT_PLL_LOCK) 0) else s
      s.freeze ((List.range 8).map (fun i => s.free i % 2 ^ 32))
    else s)

/-- FAULT_STAT and LOCALTICK run on in emergency off (R454). -/
def epoKey (k : Nat) : Bool :=
  keptKey k || k == R.CLK_LOCALTICK_TICK.key || k == R.FAULT_STAT_EVENTS_LOST.key || k == R.FAULT_STAT_MEM_LOST.key ||
    k == R.FAULT_STAT_LOST_CHIPS.key

/-- The emergency-off action (R454, R455): all logic but AONCLK and FAULT_STAT is held in reset until the next reset. The
cause is a bit of EPO_CAUSE: 1 EPO_N, 2 cooling, 4 junction or rail. -/
def State.emergencyOff (s : State) (cause : Nat) : State :=
  if s.boot.porN ∧ s.boot.aonRuns ∧ !s.boot.epo then
    let s := s.warmKept epoKey
    let s := { s with boot := { s.boot with epo := true } }.set R.FAULT_STAT_EPO_CAUSE cause
    s.recordFault (s.faultEvent 14 cause 0 0)
  else s

/-- EPO_N_ASSERT (R454). -/
def execEpoNAssert (s : State) : Host.Outcome State Fault Refusal :=
  let s := s.emergencyOff 1
  ok { s with power := { s.power with epoN := false } }

/-- COOL_OK_LOSS_TIMEOUT (R455): COOL_OK has been deasserted for 1 s. -/
def execCoolOkLossTimeout (s : State) : Host.Outcome State Fault Refusal :=
  ok (if s.power.coolOk then s else s.emergencyOff 2)

/-- RAIL_OUT_OF_LIMITS (R455): the rail monitor reads a rail, by its row of Table 21-3, in mV. -/
def execRailOutOfLimits (rail millivolts : Nat) (s : State) : Host.Outcome State Fault Refusal :=
  ok (if railOut rail millivolts then s.emergencyOff 4 else s)

end Sys2Proof.Machine
end

