-- ==== Sys2Proof/Machine/CollRows.lean ====
section
/-! DEFINITION. The rows of collectives (chapter 9): slot grants, READY, data, checks, counts, aborts and the stall timeout. -/

namespace Sys2Proof.Machine

/-- The instance number that the low 16 bits of a collective tag name: the first such number from the running one on
(R229). -/
def Group.tagged (g : Group) (low : Nat) : Nat :=
  let base := match g.current with
    | some i => i.number
    | none => ((g.nextInst.map (fun (e : Nat × Nat) => e.2)).min?).getD 0
  base + (low % 2 ^ 16 + 2 ^ 16 - base % 2 ^ 16) % 2 ^ 16

/-- DEST of a collective frame at the chip that receives it (R229, Table 12-4). -/
def CollTag.dest (t : CollTag) (chip : Nat) : Nat := mkFpa chip 48 (t.chunk % 2 ^ 32 + t.phase * 2 ^ 32 + t.gen * 2 ^ 35)

/-- Takes in a collective frame: discarded for a FREE or ABORTED entry or another generation; another partition's entry is a
violation, with the frame's DEST and the collectives' core port (R229, Table 16-10). -/
def State.collIn (s : State) (t : CollTag) (f : Group → Nat → State → State) : State :=
  match s.group t.group with
  | none => s
  | some g =>
    if g.generation ≠ t.gen then s
    else if g.body.partition ≠ t.partition then s.violate 5 (some t.partition) (CollTag.dest t s.chip) .partition 136
    else if g.state ≠ 1 then s
    else f g (g.tagged t.inst) s

/-- SLOT_RESERVATION_GRANT (R224, R225). -/
def execSlotReservationGrant (partition : Nat) (s : State) : Host.Outcome State Fault Refusal :=
  ok (s.whenLive (fun s => s.grantSlots partition))

/-- COLL_READY_SEND (R214). -/
def execCollReadySend (group : Nat) (s : State) : Host.Outcome State Fault Refusal := worked s (fun s => s.readyOut group)

/-- The key of a chunk's frames from a chip. -/
def CollTag.key (t : CollTag) : Nat := t.src * 2 ^ 35 + chunkKey t.phase t.chunk

/-- COLL_DATA: the frame is held until its CHECK (R228). -/
def execCollData (t : CollTag) (data : List Byte) (s : State) : Host.Outcome State Fault Refusal :=
  ok (s.whenLive (fun s => s.collIn t (fun _ num s => s.modInstance t.group num (fun i =>
    { i with inFlight := tset (CollTag.key t) (((tget (CollTag.key t) i.inFlight).getD []) ++ data) i.inFlight }))))

/-- CHECK_RESULT to the sender of a chunk (Table 9-6). -/
def State.checkResult (s : State) (g : Group) (t : CollTag) (num : Nat) (pass : Bool) : State :=
  s.collSend g 0x14 t.src num t.phase t.chunk (packBytes [(1, b2n pass), (127, 0)])

/-- COLL_CHECK (R227, R228). -/
def execCollCheck (t : CollTag) (crc : Nat) (s : State) : Host.Outcome State Fault Refusal :=
  worked s (fun s => s.collIn t (fun g num s =>
    match s.instance_ t.group num with
    | none => s
    | some i =>
      let data := (tget (CollTag.key t) i.inFlight).getD []
      let s := s.modInstance t.group num (fun i => { i with inFlight := terase (CollTag.key t) i.inFlight })
      if crc32c data = crc then
        let s := s.modInstance t.group num (fun i => { i with fails := terase (CollTag.key t) i.fails })
        (s.checkResult g t num true).chunkArrives g num t.src t.phase t.chunk data
      else
        let s := s.modInstance t.group num (fun i => { i with
          fails := tset (CollTag.key t) ((tget (CollTag.key t) i.fails).getD 0 + 1) i.fails })
        (s.count R.CONJ_COUNT_CHECK_FAILS).checkResult g t num false))

/-- Blocks that waited for counts take their places. -/
def State.placeHeld (s : State) (g : Group) (num : Nat) : State :=
  match s.instance_ g.body.group num with
  | none => s
  | some i =>
    let waits := fun (k : Nat) => decide (2 ^ 60 ≤ k) && decide (k < 2 ^ 61)
    let held := i.inFlight.filter (fun (e : Nat × List Byte) => waits e.1)
    let s := s.modInstance g.body.group num (fun i => { i with inFlight := i.inFlight.filter (fun e => !waits e.1) })
    held.foldl (fun s (key, data) => s.placeBlock g num ((key - 2 ^ 60) / 2 ^ 35) (key % 2 ^ 32) data) s

/-- COLL_COUNTS (R222). -/
def execCollCounts (t : CollTag) (counts : List Nat) (s : State) : Host.Outcome State Fault Refusal :=
  worked s (fun s => s.collIn t (fun g num s =>
    ((s.takeCounts g num t.src counts).checkCounts g num).placeHeld g num))

/-- COLL_READY (R215). -/
def execCollReady (t : CollTag) (digest : Nat) (s : State) : Host.Outcome State Fault Refusal :=
  ok (s.whenLive (fun s => s.collIn t (fun _ num s => s.readyIn t.group num t.src digest)))

/-- A check result: a pass releases the chunk; a failure sends it again to that receiver, three times at most (R230). -/
def State.chunkResult (s : State) (g : Group) (num : Nat) (t : CollTag) (pass : Bool) : State :=
  match s.instance_ t.group num with
  | none => s
  | some i =>
    let key := heldKey t.phase t.chunk t.src
    match tget key i.chunks with
    | none => s
    | some c =>
      match c.unpassed.find? (fun u => u.1 == t.src) with
      | none => s
      | some (_, n) =>
        if pass then
          let c := { c with unpassed := c.unpassed.filter (fun u => u.1 != t.src) }
          let s := if c.unpassed = [] ∧ c.waitReady = [] then s.dropChunk g num key
            else s.modInstance t.group num (fun i => { i with chunks := tset key c i.chunks })
          let s := if t.phase ≤ 3 ∨ t.phase = 7 then s.sentPassed g num t.chunk else s
          (s.resumeChunks g num).closeInstances t.group
        else if 3 ≤ n then s
        else
          let s := s.modInstance t.group num (fun i => { i with chunks := tset key { c with
            unpassed := c.unpassed.map (fun u => if u.1 = t.src then (u.1, u.2 + 1) else u) } i.chunks })
          s.sendChunk g t.src num t.phase t.chunk c.data

/-- COLL_CHECK_RESULT (R230). -/
def execCollCheckResult (t : CollTag) (pass : Bool) (s : State) : Host.Outcome State Fault Refusal :=
  ok (s.whenLive (fun s => s.collIn t (fun g num s => s.chunkResult g num t pass)))

/-- The running instance of an ACTIVE group aborts with a cause of this chip. -/
def State.abortHere (s : State) (group : Nat) (e : Err) : State :=
  match s.group group with
  | some g => match g.current with
    | some i => s.abortGroup group i.number e.code s.chip
    | none => s
  | none => s

/-- Whether a chunk from a peer and its three resends have all failed their check here (R230). -/
def State.resendsFailed (s : State) (group peer phase chunk : Nat) : Bool :=
  match (s.group group).bind Group.current with
  | some i => decide (4 ≤ (tget (peer * 2 ^ 35 + chunkKey phase chunk) i.fails).getD 0)
  | none => false

/-- COLL_CHECK_EXHAUSTED: the third resend of a chunk from a peer failed here (R230, Table 9-5). -/
def execCollCheckExhausted (group peer phase chunk : Nat) (s : State) : Host.Outcome State Fault Refusal :=
  worked s (fun s => if s.resendsFailed group peer phase chunk then s.abortHere group .integrity else s)

/-- COLL_ABORT (R237). -/
def execCollAbort (t : CollTag) (cause origin : Nat) (s : State) : Host.Outcome State Fault Refusal :=
  ok (s.whenLive (fun s => s.collIn t (fun _ num s => s.abortGroup t.group num cause origin)))

/-- STALL_TIMEOUT: an instance with a released local member clause stands still (Table 9-5). -/
def execStallTimeout (group : Nat) (s : State) : Host.Outcome State Fault Refusal :=
  ok (s.whenLive (fun s => match s.group group with
    | some g => match g.current with
      | some i =>
        if i.members.any (fun id => match s.clauseAt id with
            | some k => !k.untriggered && k.ending.isNone
            | none => false) then s.abortGroup group i.number (Err.timeout).code s.chip
        else s
      | none => s
    | none => s))

end Sys2Proof.Machine
end

