-- ==== Sys2Proof/Machine/Epoch.lean ====
section
/-! DEFINITION. Epoch ends (R243 to R262): heat, the moves, rehomings and replicas that the Parser chooses, and the bulk
plane mask. -/

namespace Sys2Proof.Machine

/-! ### Heat (R245) -/

/-- Table 10-2, and the start of the next epoch. -/
def Heat.ended (h : Heat) : Heat :=
  { h with heat := min 65535 (h.heat / 2 + h.r + h.w), wheat := min 65535 (h.wheat / 2 + h.w), topChip := h.c,
           topMaj := decide (h.r + h.w ≤ 2 * h.k) && decide (0 < h.r + h.w), r := 0, w := 0, k := 0 }

def State.pageHeat (s : State) (frame : Nat) : Heat := (tget frame s.parser.heat).getD Heat.zero

/-- WHEAT × 64 ≤ HEAT. -/
def Heat.readMostly (h : Heat) : Bool := decide (h.wheat * 64 ≤ h.heat)

/-! ### Moves (R249, R250) -/

/-- Ascending by a key; equal keys keep their order. -/
def insertBy {α : Type} (key : α → Nat) (x : α) : List α → List α
  | [] => [x]
  | y :: r => if key x < key y then x :: y :: r else y :: insertBy key x r

def sortBy {α : Type} (key : α → Nat) (l : List α) : List α := l.foldl (fun acc x => insertBy key x acc) []

/-- A partition's moves may start: ACTIVE, past its warm-up, NO_MIGRATE at 0. -/
def State.partMoves (s : State) (p : Nat) : Bool :=
  s.get (R.PART_STATE_STATE p) == 1 && !s.flag (R.PARSER_PART_NO_MIGRATE p) &&
    (match tget p s.security.parts with
     | some r => decide (s.get R.PARSER_CTL_WARMUP < r.warmup)
     | none => false)

/-- Pages homed here that a move may concern. -/
def State.homePages (s : State) : List PmEntry :=
  (s.xlat.pageMap.map (fun (e : Nat × PmEntry) => e.2)).filter (fun e =>
    e.chip == s.chip && !e.migrating && !e.poison && s.partMoves e.partition && (s.migration e.partition e.page).isNone)

def State.resident (s : State) (e : PmEntry) : Bool := decide (0 < (s.pageHeat (frameKey e.fpa)).hold)

def PmEntry.far (e : PmEntry) : Bool := decide (32 ≤ e.unit)

def PmEntry.pinned (e : PmEntry) : Bool := e.pinNear || e.pinFar

/-- PROMOTE for a page (Table 10-3, rank 5). -/
def State.promoteAt (s : State) (e : PmEntry) : Nat :=
  let n := s.get R.PARSER_THRESH_PROMOTE
  if e.prefer = 1 then n / 2 else if e.prefer = 2 then 2 * n else n

def State.demoteAt (s : State) : Nat := min (s.get R.PARSER_THRESH_DEMOTE) (s.get R.PARSER_THRESH_PROMOTE / 2)

/-- Near pages that may be demoted, first the ones with PREFER_FAR, then coldest first. -/
def State.coldPages (s : State) (ps : List PmEntry) : List PmEntry :=
  sortBy (fun e => (s.pageHeat (frameKey e.fpa)).heat + (if e.prefer = 2 then 0 else 65536))
    (ps.filter (fun e => !e.far && !e.pinned && !s.resident e && decide ((s.pageHeat (frameKey e.fpa)).heat < s.demoteAt)))

/-- What a choice of moves has planned: the moves, near frames left, near frames planned by partition, victims. -/
structure Plan where
  moves : List Move
  free : Nat
  used : List Nat
  victims : List Nat

def PmEntry.move (e : PmEntry) (near : Bool) (after : Option Nat) : Move :=
  { partition := e.partition, page := e.page, near := near, after := after }

/-- Steps 2 and 3 of R250 for one listed page. -/
def State.planPromote (s : State) (cold : List PmEntry) (x : Plan) (e : PmEntry) : Plan :=
  let p := e.partition
  let quota := s.get (R.PARSER_PART_NEAR_USED p) - s.get (R.CONJ_PART_SPILL_USED p) + x.used.count p <
    s.get (R.PART_MEM_QUOTA_NEAR_QUOTA p)
  if 0 < x.free ∧ quota ∧ s.get R.PARSER_LIMITS_NEAR_RESERVE + 1 ≤ x.free then
    { x with moves := x.moves ++ [e.move true none], free := x.free - 1, used := p :: x.used }
  else match cold.find? (fun c => c.partition == p && !x.victims.contains (frameKey c.fpa)) with
    | some c => { x with moves := x.moves ++ [c.move false none, e.move true (some (frameKey c.fpa))],
                         victims := frameKey c.fpa :: x.victims }
    | none => x

/-- Step 4 of R250. -/
def State.planReserve (s : State) (cold : List PmEntry) (x : Plan) : Plan :=
  cold.foldl (fun x c =>
    if x.free < s.get R.PARSER_LIMITS_NEAR_RESERVE ∧ !x.victims.contains (frameKey c.fpa) then
      { x with moves := x.moves ++ [c.move false none], free := x.free + 1, victims := frameKey c.fpa :: x.victims }
    else x) x

/-- The moves that an epoch end chooses: pinned pages in the other tier, promotions by descending HEAT with the demotions
they need, then the reserve. -/
def State.chooseMoves (s : State) : List Move :=
  let ps := s.homePages
  let pins := (ps.filter (fun e => (e.pinNear && e.far) || (e.pinFar && !e.far))).map (fun e => e.move e.pinNear none)
  let cold := s.coldPages ps
  let hot := sortBy (fun e => 65536 - (s.pageHeat (frameKey e.fpa)).heat)
    (ps.filter (fun e => e.far && !e.pinned && !s.resident e && decide (s.promoteAt e ≤ (s.pageHeat (frameKey e.fpa)).heat)))
  let near := pins.filter Move.near
  let x : Plan := { moves := pins, free := s.nearFree - near.length, used := near.map Move.partition, victims := [] }
  ((s.planReserve cold (hot.foldl (s.planPromote cold) x)).moves).take (s.get R.PARSER_CTL_MOVES_MAX)

/-- The frame that a chosen move takes: none when there is none now. A promotion that is no pin's leaves NEAR_RESERVE near
frames free (R250). -/
def State.moveFrame (s : State) (m : Move) (pin : Bool) : Option Nat :=
  if m.near then
    if s.quotaFull m.partition 16 then none
    else match m.after with
      | some k => if s.isFree (k / 2 ^ 22) (k % 2 ^ 22) then some k else none
      | none => if pin ∨ s.get R.PARSER_LIMITS_NEAR_RESERVE + 1 ≤ s.nearFree then s.nearPick else none
  else if s.quotaFull m.partition 32 then none else s.farPick m.partition

/-- Step 1 of Table 10-4, and the copy. -/
def State.startMove (s : State) (e : PmEntry) (k : Nat) : State :=
  let s := s.takeFrame k { owner := e.partition, page := e.page, use := .target }
  let m : Migration := { partition := e.partition, page := e.page, oldFpa := e.fpa, newFpa := keyFpa s.chip k, step := 1,
                         dirty := [], waiting := [], started := s.parser.epochs, rehome := none, refused := false,
                         quiesce := false, copying := 0 }
  let s := { s with parser := { s.parser with migrations := s.parser.migrations ++ [m] } }
  (((s.modPm e.partition e.page (fun e => { e with migrating := true })).copyPage m)).freshen

/-- Starts chosen moves in order, at most 8 under way at once and none while a mode change is (R416); one that waits for a
frame of a demoted page keeps its place. -/
def State.pumpMoves (s : State) : State :=
  if s.boot.modeChange.isSome then s else
  s.parser.chosen.foldl (fun (s : State) m =>
    if 8 ≤ s.parser.migrations.length then s
    else
      let drop := fun (s : State) => { s with parser := { s.parser with chosen := s.parser.chosen.filter (· != m) } }
      if !s.mayMove m.partition ∨ !s.flag R.PARSER_CTL_MIGRATE_EN ∨ s.flag (R.PARSER_PART_NO_MIGRATE m.partition) then drop s
      else match s.pmFind m.partition m.page with
        | none => drop s
        | some (_, e) =>
          if e.chip ≠ s.chip ∨ e.migrating ∨ e.poison ∨ e.far ≠ m.near then drop s
          else match s.moveFrame m e.pinNear with
            | some k => (drop s).startMove e k
            | none => if m.after.isSome then s else drop s) s

/-! ### Rehoming (R252) -/

/-- Registered chips of a page's record. -/
def State.recordOf (s : State) (frame : Nat) : Option DirRec :=
  (s.parser.dir.find? (fun d => d.2.frame == frame)).map (fun (d : Nat × DirRec) => d.2)

def State.rehomes (s : State) (e : PmEntry) : Bool :=
  let h := s.pageHeat (frameKey e.fpa)
  let n := s.get R.PARSER_THRESH_REHOME
  s.flag R.PARSER_CTL_REHOME_EN && decide ((if e.prefer = 3 then n / 2 else n) ≤ h.heat) && h.topMaj && h.topChip != s.chip &&
    !h.readMostly && !e.pinHome && !s.resident e && !s.unreachable h.topChip &&
    (match s.recordOf (frameKey e.fpa) with
     | some d => d.registered.contains h.topChip
     | none => false)

/-- Sends REHOME_OFFER to the chip that asks most. -/
def State.offerHome (s : State) (e : PmEntry) : State :=
  let h := s.pageHeat (frameKey e.fpa)
  let m : Migration := { partition := e.partition, page := e.page, oldFpa := e.fpa, newFpa := 0, step := 0, dirty := [],
                         waiting := [], started := s.parser.epochs, rehome := some h.topChip, refused := false,
                         quiesce := false, copying := 0 }
  let s := { s with parser := { s.parser with migrations := s.parser.migrations ++ [m] } }
  s.sendDir 9 h.topChip (dirMsg e.partition e.page e.fpa 0 0 0 h.heat) (.dir 9 e.partition e.page h.topChip)

def State.offerHomes (s : State) (left : Nat) : State :=
  (((s.homePages.filter (fun e => !s.parser.chosen.any (fun m => m.partition == e.partition && m.page == e.page))).filter
    s.rehomes).take left).foldl (fun (s : State) e => if s.parser.migrations.length < 8 then s.offerHome e else s) s

/-! ### Replicas (R254 to R258) -/

/-- The tag of a chip at FD_LEVEL: this chip's from its Stem, another's a free value (R258, log entry 32). -/
def State.domainTag (s : State) (c : Nat) : Nat :=
  let l := min 2 (s.get R.PARSER_CTL_FD_LEVEL)
  if c = s.chip then
    match s.boot.stem with
    | some t => if l = 0 then t.trayTag else if l = 1 then t.rackTag else t.rowTag
    | none => 0
  else Config.chipTag c l

/-- Whether a chip may take a replica by the failure-domain rule. -/
def State.domainOk (s : State) (replicas : List Nat) (c : Nat) : Bool :=
  (s.chip :: replicas).all (fun d => s.domainTag d != s.domainTag c)

/-- Conditions of R254 on the record: the top requester holds none yet, fewer than 3 with those being placed, none dropped
within the window. -/
def State.mayReplicate (s : State) (p page frame : Nat) (h : Heat) (d : Option DirRec) : Bool :=
  let reps := (d.map (fun d => d.replicas ++ d.placing)).getD []
  s.flag R.PARSER_CTL_REPLICATE_EN && !s.flag (R.PARSER_PART_NO_REPLICATE p) &&
    decide (s.get R.PARSER_THRESH_REPLICATE ≤ h.heat) && h.readMostly && h.topMaj && h.topChip != s.chip &&
    !s.unreachable h.topChip && !reps.contains h.topChip && decide (reps.length < 3) && s.domainOk reps h.topChip &&
    (match tget (dropKey p page frame h.topChip) s.parser.dropped with
     | some n => decide (n + s.get R.PARSER_CTL_RESIDENCY < s.parser.epochs)
     | none => true)

/-- Whether the Parser's page work for a partition may start: ACTIVE, no brake, past its warm-up. -/
def State.partPlaces (s : State) (p : Nat) : Bool :=
  s.mayMove p && (match tget p s.security.parts with
    | some r => decide (s.get R.PARSER_CTL_WARMUP < r.warmup)
    | none => false)

/-- REPL_PLACE for a page's frame or a window region, `page` 2^31. DESIGN CHOICE (log entry 128): the record is taken as the
request goes, and the chip that has not answered yet counts in it; with no record free no replica is placed (R253). -/
def State.placeReplica (s : State) (p page frame : Nat) (h : Heat) : State :=
  match s.takeDir p page frame with
  | none => s
  | some (s, i, d) =>
    (s.setDirRec i { d with placing := d.placing ++ [h.topChip] }).sendDir 6 h.topChip
      (dirMsg p (page % 2 ^ 31) (keyFpa s.chip frame) 0 0 0 0) (.dir 6 p frame h.topChip)

/-- The REPLICABLE window that covers a region of a slot of this chip (R257). -/
def State.regionWindow (s : State) (frame : Nat) : Option WinEntry :=
  (s.xlat.windows.find? (fun (w : Nat × WinEntry) =>
    w.2.replicable && !s.xlat.winWithdrawing.contains w.1 &&
      w.2.members.any (fun m => m.2 == frame / 2 ^ 22 && (m.1 == s.chip || (w.2.altSide && Nat.xor m.1 1 == s.chip))) &&
      decide (w.2.devBase / 2 ^ 21 ≤ frame % 2 ^ 22) &&
      decide (frame % 2 ^ 22 ≤ (w.2.devBase + w.2.length / w.2.members.length - 1) / 2 ^ 21))).map
    (fun (w : Nat × WinEntry) => w.2)

/-- Replica placement at an epoch end: pages, then window regions. -/
def State.placeReplicas (s : State) : State :=
  let pages := (s.xlat.pageMap.map (fun (e : Nat × PmEntry) => e.2)).filter (fun e => e.chip == s.chip)
  let s := pages.foldl (fun (s : State) e =>
    let k := frameKey e.fpa
    let h := s.pageHeat k
    let d := s.recordOf k
    if s.partPlaces e.partition ∧ !e.noReplica ∧ !e.poison ∧ s.mayReplicate e.partition e.page k h d ∧
        ((d.map DirRec.registered).getD []).contains h.topChip then s.placeReplica e.partition e.page k h
    else s) s
  (s.parser.heat.filter (fun (x : Nat × Heat) => decide (x.1 / 2 ^ 22 < 16))).foldl (fun (s : State) x =>
    match s.regionWindow x.1 with
    | some w => if s.partPlaces w.partition ∧ s.mayReplicate w.partition (2 ^ 31) x.1 x.2 (s.recordOf x.1) then
        s.placeReplica w.partition (2 ^ 31) x.1 x.2
      else s
    | none => s) s

/-- Replicas that the home drops: written too often after residency, or replication taken back (R256). -/
def State.dropWritten (s : State) : State :=
  (s.parser.dir.map (fun (d : Nat × DirRec) => d.2)).foldl (fun (s : State) d =>
    let barred := match s.pmFind d.partition d.page with
      | some (_, e) => e.noReplica && e.chip == s.chip && frameKey e.fpa == d.frame
      | none => false
    let force : Bool := !s.flag R.PARSER_CTL_REPLICATE_EN || s.flag (R.PARSER_PART_NO_REPLICATE d.partition) || barred
    let h := s.pageHeat d.frame
    d.replicas.foldl (fun (s : State) c =>
      if force then s.sendDrop d c false
      else if !h.readMostly ∧ ((tget c d.placed).getD 0) + s.get R.PARSER_CTL_RESIDENCY < s.parser.epochs then s.sendDrop d c true
      else s) s) s

/-- Replicas that this chip drops for want of use; their homes learn of it (R256, log entry 33). -/
def State.dropUnused (s : State) : State :=
  s.parser.replicas.foldl (fun (s : State) (key, r) =>
    let heat := min 65535 (r.heat / 2 + r.served)
    if heat < s.get R.PARSER_THRESH_DEMOTE ∧ r.epoch + s.get R.PARSER_CTL_RESIDENCY < s.parser.epochs then
      s.dropHeld key r
    else { s with parser := { s.parser with replicas := tset key { r with heat := heat, served := 0 } s.parser.replicas } }) s

/-! ### Bulk planes (R262) -/

/-- Whether a plane stays in the mask by its use. -/
def State.planeFits (s : State) (use : List Nat) (ps : List Nat) (f : Nat) : Bool :=
  let at_ := fun g => (use.drop g).headD 0
  !(decide (s.get R.PARSER_LIMITS_PLANE_HI < at_ f) &&
      ps.any (fun g => g != f && decide (at_ g < s.get R.PARSER_LIMITS_PLANE_LO)))

/-- The mask of one dimension: with none left, the least used of the planes that no window holds out, or of all. DESIGN CHOICE
(log entry 135): brake takes the same slices from every plane (R311), so the planes' uses compare as before and no plane leaves for
it; the planes in the mask carry what their slices allow (R249, rank 2). -/
def State.dimMask (s : State) (use : List Nat) (warm : Bool) (d : Nat) : List Nat :=
  let ps := s.lockedPlanes d
  let cand := ps.filter (fun f => !bit (s.get R.PARSER_PLANES_EXCLUDE) f)
  let inMask := fun f => bit (s.get R.PARSER_PLANES_BULK) f
  let held := fun f => match tget f s.parser.planeEpoch with
    | some n => decide (s.parser.epochs ≤ n + s.get R.PARSER_CTL_RESIDENCY)
    | none => false
  let keep := cand.filter (fun f => warm || (if held f then inMask f else s.planeFits use ps f))
  if keep = [] then
    let open_ := cand.filter (fun f => !held f)
    match sortBy (fun f => (use.drop f).headD 0) (if open_ = [] then cand else open_) with
    | f :: _ => [f]
    | [] => []
  else keep

/-- PARSER_PLANES.BULK anew, with the epoch at which the Parser itself took each plane out or in: a plane that warm-up, EXCLUDE, a
failure or a drain moves starts no window (R248, R249). -/
def State.newPlanes (s : State) (use : List Nat) (warm : Bool) : State :=
  let fs := (List.range 3).flatMap (s.dimMask use warm)
  let old := s.get R.PARSER_PLANES_BULK
  let own := fun f => !warm && !bit (s.get R.PARSER_PLANES_EXCLUDE) f && (List.range 3).any (fun d => (s.lockedPlanes d).contains f)
  let changed := (List.range 32).filter (fun f => bit old f != fs.contains f && own f)
  let s := { s with parser := { s.parser with
    planeEpoch := changed.foldl (fun t f => tset f s.parser.epochs t) s.parser.planeEpoch } }
  s.set R.PARSER_PLANES_BULK ((fs.map (fun f => 2 ^ f)).sum)

/-! ### The epoch end -/

/-- Counts, heat, and migrations that took too long (R243, R245, R251). -/
def State.closeEpoch (s : State) : State :=
  let s := s.wrap R.PARSER_STAT_EPOCH
  let s := { s with parser := { s.parser with epochs := s.parser.epochs + 1, heat := s.parser.heat.map (fun (h : Nat × Heat) => (h.1, h.2.ended)), chosen := [] },
                    security := { s.security with parts := s.security.parts.map (fun (r : Nat × PartRec) =>
                      (r.1, { r.2 with warmup := min (r.2.warmup + 1) 16 })) } }
  (s.parser.migrations.filter (fun m => decide (m.step < 5) && decide (m.started < s.parser.epochs))).foldl
    (fun (s : State) m => s.abandon m.partition m.page) s

/-- Epoch ends until the Parser may move a page again go down by one (R248). -/
def State.ageHolds (s : State) (held : List Nat) : State :=
  { s with parser := { s.parser with heat := s.parser.heat.map (fun (h : Nat × Heat) =>
      (h.1, if held.contains h.1 then { h.2 with hold := h.2.hold - 1 } else h.2)) } }

/-- EPOCH_END. -/
def State.epochEnd (s : State) (use : List Nat) : State :=
  let s := s.closeEpoch
  let warm := decide (s.parser.epochs ≤ s.get R.PARSER_CTL_WARMUP)
  let held := tkeys s.parser.heat
  let s := if warm ∨ s.flag R.PWR_STAT_BRAKE ∨ s.boot.modeChange.isSome then s
    else
      let ms := if s.flag R.PARSER_CTL_MIGRATE_EN then s.chooseMoves else []
      let s := ({ s with parser := { s.parser with chosen := ms } }).pumpMoves
      (s.offerHomes (s.get R.PARSER_CTL_MOVES_MAX - ms.length)).placeReplicas
  ((s.dropWritten.dropUnused).ageHolds held).newPlanes use warm

end Sys2Proof.Machine
end

