-- ==== Sys2Proof/Machine/DirRows.lean ====
section
/-! DEFINITION. The rows of the directory exchange and of migrations (chapter 10). -/

namespace Sys2Proof.Machine

/-- A directory request of another chip, checked and served. -/
def State.dirServe (s : State) (m : DirMsg) (op : Nat) (f : State → State) : Host.Outcome State Fault Refusal :=
  settled (s.whenLive (fun s => s.dirRequest m op f))

/-- DIR_REGISTER (R49, R50). -/
def execDirRegister (m : DirMsg) (s : State) : Host.Outcome State Fault Refusal := s.dirServe m 1 (fun s => s.registerAtHome m)

/-- A frame offered for a rehoming is free once the chip that asked for it is registered no more (log entry 134). -/
def State.dropOffer (s : State) (frame : Nat) : State :=
  match s.frameRec frame with
  | some r => if r.use = .target ∧ (s.recordOf frame).isNone ∧ s.parser.migrations.all (fun g => frameKey g.newFpa != frame ||
      fpaChip g.newFpa != s.chip) then s.freeFrame frame else s
  | none => s

/-- DIR_UNREGISTER (R50). -/
def execDirUnregister (m : DirMsg) (s : State) : Host.Outcome State Fault Refusal :=
  s.dirServe m 2 (fun s => s.ownerOnly m 2 (fun s =>
    ((s.unregister (frameKey m.oldFrame) m.src).dropOffer (frameKey m.oldFrame)).dirAnswer m 2 .none m.oldFrame 0))

/-- PM_PREPARE (Table 10-4, step 3). -/
def execPmPrepare (m : DirMsg) (s : State) : Host.Outcome State Fault Refusal :=
  s.dirServe m 3 (fun s =>
    if s.noExtent m.oldFrame then
      let hold := (m.partition, m.page)
      { s with parser := { s.parser with
        holding := if s.parser.holding.contains hold then s.parser.holding else s.parser.holding ++ [hold] } }.dirAnswer m 3 .none
        m.oldFrame 0
    else s.dirAnswer m 3 .resource m.oldFrame 0)

/-- PM_UPDATE (Table 10-4, step 6): the reply waits for accesses in flight to the old frame. -/
def execPmUpdate (m : DirMsg) (s : State) : Host.Outcome State Fault Refusal :=
  s.dirServe m 4 (fun s =>
    let s := s.takeUpdate m
    ({ s with parser := { s.parser with updates := s.parser.updates ++ [(m, frameOf m.oldFrame, frameOf m.newFrame)] } }).answerUpdates)

/-- PM_RELEASE: held clauses go on (R251). -/
def execPmRelease (m : DirMsg) (s : State) : Host.Outcome State Fault Refusal :=
  s.dirServe m 5 (fun s =>
    { s with parser := { s.parser with holding := s.parser.holding.filter (· != (m.partition, m.page)) } }.dirAnswer m 5 .none
      m.oldFrame 0)

/-- REPL_PLACE: a near frame of this chip and a replica entry, or ERR_RESOURCE (R254). -/
def execReplPlace (m : DirMsg) (s : State) : Host.Outcome State Fault Refusal :=
  s.dirServe m 6 (fun s =>
    let key := m.oldFrame / 2 ^ 21
    let page := if fpaUnit m.oldFrame < 16 then 2 ^ 31 else m.page
    if (tget key s.parser.replicas).isSome ∨ 16384 ≤ s.parser.replicas.length ∨ s.quotaFull m.partition 16 then
      s.dirAnswer m 6 .resource m.oldFrame 0
    else match s.nearPick with
      | none => s.dirAnswer m 6 .resource m.oldFrame 0
      | some k =>
        let s := s.takeFrame k { owner := m.partition, page := page, use := .replica }
        let r : Replica := { frameFpa := keyFpa s.chip k, partition := m.partition, page := page, valid := [], served := 0,
                             heat := 0, epoch := s.parser.epochs }
        let s := ({ s with parser := { s.parser with replicas := tset key r s.parser.replicas } }).freshen
        (s.modPm m.partition page (fun e => if e.fpa / 2 ^ 21 = key then { e with replicated := true } else e)).dirAnswer m 6
          .none m.oldFrame 0)

/-- Removes the tiles' copies of a replica's blocks, then answers the request (R128, R256). -/
def State.emptyReplica (s : State) (r : Replica) (first last op : Nat) (m : DirMsg) : State :=
  s.removeLines (s.tileLines (r.frameFpa / 128 + first * 32) ((last + 1 - first) * 32)) r.partition (.dirReply op m)

/-- REPL_INVAL: the valid bits of the blocks clear, fills in flight set none, the tiles' copies go, then the response (R255,
R256). -/
def execReplInval (m : DirMsg) (s : State) : Host.Outcome State Fault Refusal :=
  s.dirServe m 7 (fun s =>
    let key := m.oldFrame / 2 ^ 21
    match tget key s.parser.replicas with
    | none => (s.spoilFills key m.firstBlock m.lastBlock).dirAnswer m 7 .none m.oldFrame 0
    | some r =>
      let s := s.setReplica key { r with
        valid := r.valid.filter (fun b => !(decide (m.firstBlock ≤ b) && decide (b ≤ m.lastBlock))) }
      (s.spoilFills key m.firstBlock m.lastBlock).emptyReplica r m.firstBlock m.lastBlock 7 m)

/-- REPL_DROP: the holder frees frame and entry before it responds (R256); at the home it ends the record of a replica that
its holder gave up (log entry 33). -/
def execReplDrop (m : DirMsg) (s : State) : Host.Outcome State Fault Refusal :=
  s.dirServe m 8 (fun s =>
    if fpaChip m.oldFrame = s.chip then
      -- The holder's Parser dropped it for want of use (R256): the window of R248 begins.
      s.ownerOnly m 8 (fun s => (s.replicaGone (frameKey m.oldFrame) m.src true).dirAnswer m 8 .none m.oldFrame 0)
    else
      let key := m.oldFrame / 2 ^ 21
      match tget key s.parser.replicas with
      | none => (s.spoilFills key 0 511).dirAnswer m 8 .none m.oldFrame 0
      | some r =>
        let s := (s.forgetReplica key r).spoilFills key 0 511
        s.emptyReplica r 0 511 8 { m with newFrame := r.frameFpa })

/-- REHOME_OFFER: a frame in the page's tier and a directory record, or ERR_RESOURCE (R252). -/
def execRehomeOffer (m : DirMsg) (s : State) : Host.Outcome State Fault Refusal :=
  s.dirServe m 9 (fun s =>
    let far := decide (32 ≤ fpaUnit m.oldFrame)
    let no := s.dirAnswer m 9 .resource m.oldFrame 0
    if 65535 ≤ s.dirUsed ∨ s.quotaFull m.partition (if far then 32 else 16) then no
    else match if far then s.farPick m.partition else s.nearPick with
      | none => no
      | some k =>
        let s := s.takeFrame k { owner := m.partition, page := m.page, use := .target }
        let d : DirRec := { partition := m.partition, page := m.page, frame := k, registered := [m.src], replicas := [],
                            placing := [], placed := [] }
        (s.setDirRec (firstGap 0 s.parser.dir) d).freshen.dirAnswer m 9 .none m.oldFrame (keyFpa s.chip k))

/-- DIR_RESP: the answer to a request of this chip (R253). -/
def execDirResp (_op : Nat) (status : Err) (m : DirMsg) (s : State) : Host.Outcome State Fault Refusal :=
  settled (s.whenLive (fun s =>
    let r : Resp := { src := m.src, tag := m.tag, status := status }
    match tget m.tag s.fabric.track with
    | some t => if t.opcode = 6 ∧ status = .unreachable then (s.respond r 0xd (dirBytes 0 status m)).relayedLoss (fpaChip t.dest) m.src
                else s.respond r 0xd (dirBytes 0 status m)
    | none => s.respond r 0xd (dirBytes 0 status m)))

/-- EPOCH_END (R243 to R262). -/
def execEpochEnd (planeUse : List Nat) (s : State) : Host.Outcome State Fault Refusal :=
  settled (s.whenLive (fun s => s.epochEnd planeUse))

/-- A step of a migration: abandoned under brake or when its partition drains (R249, Table 16-4). -/
def State.migStep (s : State) (p page : Nat) (f : Migration → State → State) : Host.Outcome State Fault Refusal :=
  settled (s.whenLive (fun s => match s.migration p page with
    | none => s
    | some m => if m.step < 5 ∧ !s.mayMove p then (s.abandon p page).pumpMoves else f m s))

/-- MIGRATION_COPY_DONE: PM_PREPARE goes out (step 3). -/
def execMigrationCopyDone (partition page : Nat) (s : State) : Host.Outcome State Fault Refusal :=
  s.migStep partition page (fun m s => if m.step = 1 then s.prepare partition page else s)

/-- MIGRATION_QUIESCE: step 4 begins: new accesses at the old home agent are held; the switch follows as soon as no clause here
holds the frame, nothing is in flight at its home agent and the written blocks are copied. -/
def execMigrationQuiesce (partition page : Nat) (s : State) : Host.Outcome State Fault Refusal :=
  s.migStep partition page (fun m s =>
    if m.step = 4 ∧ !m.refused then (s.modMig partition page (fun n => { n with quiesce := true })).moveOn partition page else s)

/-- QUIESCE_TIMEOUT: the hold is released until the retry (step 4). -/
def execQuiesceTimeout (partition page : Nat) (s : State) : Host.Outcome State Fault Refusal :=
  s.migStep partition page (fun m s =>
    if m.step = 4 then (s.modMig partition page (fun n => { n with quiesce := false, refused := true })).endQuiet else s)

/-- MIGRATION_RETRY: step 3 goes out again, or step 4 is tried again. -/
def execMigrationRetry (partition page : Nat) (s : State) : Host.Outcome State Fault Refusal :=
  s.migStep partition page (fun m s =>
    if m.step = 3 ∧ m.refused ∧ m.waiting = [] then s.prepare partition page
    else if m.step = 4 then s.modMig partition page (fun n => { n with refused := false })
    else s)

/-- MIGRATION_FINISH: step 7. -/
def execMigrationFinish (partition page : Nat) (s : State) : Host.Outcome State Fault Refusal :=
  s.migStep partition page (fun m s =>
    if m.step = 6 ∧ m.waiting = [] then (s.finishMove partition page).pumpMoves else s)

end Sys2Proof.Machine
end

