-- ==== Sys2Proof/Machine/Keys.lean ====
section
/-! DEFINITION. Keys and encryption of the memory tiers (R389 to R391): the keys of a partition, and the ciphertext and tag
that a memory device holds for a block. State.mem holds the plaintext (log entry 147). -/

namespace Sys2Proof.Machine

/-- A byte string of ASCII text (R393). -/
def ascii (t : String) : List Byte := t.toList.map (fun c => BitVec.ofNat 8 c.toNat)

/-- The keys of a partition from what the DRBG draws (R389). -/
def PartKeys.derive (pk : List Byte) : PartKeys :=
  { pk := pk, kData := Config.hkdf pk [] (ascii "xts-d") 32, kTweak := Config.hkdf pk [] (ascii "xts-t") 32,
    kTag := Config.hkdf pk [] (ascii "tag") 32 }

/-- The keys of the partition that owns the frame of a block. -/
def State.blockKeysOf (s : State) (block : Nat) : Option (Nat × PartKeys) :=
  match tget (block / 2 ^ 13) s.xlat.frames with
  | none => none
  | some f => (tget f.owner s.security.parts).map (fun r => (f.owner, r.keys))

/-- The XTS tweak of a block: the FPA of its first byte as a 128-bit number (R390). -/
def blockTweak (chip block : Nat) : List Byte := leBytes 16 (chip * 2 ^ 49 + block * 256)

/-- The tag of a block's ciphertext (R391). -/
def blockTag (ks : PartKeys) (chip block p : Nat) (cipher : List Byte) : List Byte :=
  (Config.gmac ks.kTag (leBytes 8 (chip * 2 ^ 49 + block * 256) ++ leBytes 2 p ++ leBytes 2 0) cipher).take 8

/-- The ciphertext and the tag that a memory device holds for a block as the home agent wrote it (R390, R391). -/
def State.stored (s : State) (block : Nat) : Option (List Byte × List Byte) :=
  (s.blockKeysOf block).map (fun x =>
    let c := Config.xtsSeal x.2.kData x.2.kTweak (blockTweak s.chip block) (memRead s.mem (block * 256) 256)
    (c, blockTag x.2 s.chip block x.1 c))

/-- A device returns a block's ciphertext and tag. What was stored changes nothing; else a tag that fits gives the bytes
that the ciphertext opens to, and one that does not is a bad tag of the block (R391, R392). -/
def State.returned (s : State) (block : Nat) (cipher tag : List Byte) : State :=
  match s.blockKeysOf block with
  | none => s
  | some (p, ks) =>
    if s.stored block = some (cipher, tag) then s
    else if blockTag ks s.chip block p cipher = tag then
      { s with mem := memWrite s.mem (block * 256) (Config.xtsOpen ks.kData ks.kTweak (blockTweak s.chip block) cipher) }
    else
      let lines := [2 * block, 2 * block + 1]
      { s with home := { s.home with badTags := lines.filter (fun l => !s.home.badTags.contains l) ++ s.home.badTags } }

end Sys2Proof.Machine
end

