-- ==== Sys2Proof/Machine/EdgeRows.lean ====
section
/-! DEFINITION. The rows of edge ports and memory tiers (chapters 2, 7 and 14). -/

namespace Sys2Proof.Machine

/-- A row of an edge port, with what its completed accesses do. -/
def edgeRow (s : State) (f : State → State) : Host.Outcome State Fault Refusal := settled (s.whenLive f)

/-- APERTURE_READ (R34, R342). -/
def execApertureRead (d : Direct) (s : State) : Host.Outcome State Fault Refusal :=
  edgeRow s (fun s => match s.asControl d with
    | some c => s.ctlRead c
    | none => s.aperture d (.read d.len))

/-- APERTURE_WRITE (R34, R342). -/
def execApertureWrite (d : Direct) (data : List Byte) (s : State) : Host.Outcome State Fault Refusal :=
  edgeRow s (fun s => match s.asControl d with
    | some c => s.ctlWrite c (leNat data)
    | none => s.aperture d (.write data))

/-- APERTURE_ATOMIC (R343). -/
def execApertureAtomic (d : Direct) (op : PcieAtomic) (operand compare : Nat) (s : State) :
    Host.Outcome State Fault Refusal :=
  edgeRow s (fun s => match s.asControl d with
    | some c => s.ctlAtomic c op operand compare
    | none => s.aperture d (.atomic (pcieCode op) d.len operand compare))

/-- DOORBELL: a write of QPAGE_SQ.TAIL (R170). -/
def execDoorbell (c : CtlReq) (value : Nat) (s : State) : Host.Outcome State Fault Refusal :=
  edgeRow s (fun s => s.ctlWrite c value)

/-- CQ_HEAD_WRITE: a write of QPAGE_CQ.HEAD (R170). -/
def execCqHeadWrite (c : CtlReq) (value : Nat) (s : State) : Host.Outcome State Fault Refusal :=
  edgeRow s (fun s => s.ctlWrite c value)

/-- CONTROL_REGION_READ (R169). -/
def execControlRegionRead (c : CtlReq) (s : State) : Host.Outcome State Fault Refusal := edgeRow s (fun s => s.ctlRead c)

/-- CONTROL_COUNTER_WRITE (R169, Table 7-15). -/
def execControlCounterWrite (c : CtlReq) (value : Nat) (s : State) : Host.Outcome State Fault Refusal :=
  edgeRow s (fun s => s.ctlWrite c value)

/-- CONTROL_REGION_ATOMIC (R169). -/
def execControlRegionAtomic (c : CtlReq) (op : PcieAtomic) (operand compare : Nat) (s : State) :
    Host.Outcome State Fault Refusal :=
  edgeRow s (fun s => s.ctlAtomic c op operand compare)

/-! ### Links of ports -/

/-- The Stem's IDE_REQUIRED for an edge port, or for memory port k as 32 + k. -/
def State.ideRequired (s : State) (port : Nat) : Bool :=
  match s.boot.stem with
  | none => false
  | some t => if port < 32 then ((t.ports[port]?).map PortEntry.ideRequired).getD false else (t.mempIde[port - 32]?).getD false

/-- The unit of a memory port, or of a memory-role edge port. -/
def State.farUnitOf (s : State) (port : Nat) : Nat :=
  if port < 32 then 32 + s.get (R.EDGE_STAT_FAR_UNIT port) else port

/-- The 1 TiB part of its unit that a port serves: 0 for the memory port, j + 1 for the j-th edge port (R31). -/
def State.farPart (s : State) (port : Nat) : Nat :=
  if port < 32 then
    1 + (List.range port).countP (fun p => s.get (R.EDGE_STAT_ROLE p) == 1 &&
      s.get (R.EDGE_STAT_FAR_UNIT p) == s.get (R.EDGE_STAT_FAR_UNIT port))
  else 0

/-- A port that faces an expander: a memory port, or an edge port of memory role. -/
def State.isFarPort (s : State) (port : Nat) : Bool :=
  decide (32 ≤ port) && decide (port < 36) || decide (port < 32) && s.get (R.EDGE_STAT_ROLE port) == 1

/-- The state of a port in EDGE_STAT's codes; memory port code 3 is FAILED. -/
def State.portState (s : State) (port : Nat) : Nat :=
  if port < 32 then s.get (R.EDGE_STAT_STATE port)
  else if s.get (R.MEMP_STAT_STATE (port - 32)) = 3 then 5 else s.get (R.MEMP_STAT_STATE (port - 32))

/-- Sets the state of a port: 2 ACTIVE or 5 FAILED; FAILED is logged (Table 19-7). -/
def State.setPort (s : State) (port st : Nat) : State :=
  let s := if port < 32 then s.set (R.EDGE_STAT_STATE port) st
           else s.set (R.MEMP_STAT_STATE (port - 32)) (if st = 5 then 3 else st)
  if st = 5 then s.logFault 9 port 0 0 else s

def State.portIde (s : State) (port : Nat) : Bool :=
  if port < 32 then s.flag (R.EDGE_STAT_IDE port) else s.flag (R.MEMP_STAT_IDE (port - 32))

/-- IDE is set up: the streams are active, and the device's measurement digest, which the spec leaves to the device, is
recorded (R350). -/
def State.startIde (s : State) (port : Nat) : State :=
  if s.ideRequired port then
    let s := if port < 32 then s.set (R.EDGE_STAT_IDE port) 1 else s.set (R.MEMP_STAT_IDE (port - 32)) 1
    ({ s with edge := { s.edge with ideDigests := tset port (s.free 0 % 2 ^ 384) s.edge.ideDigests } }).freshen
  else s

/-- Whether a trained device may enter service (R340, R350, R351). -/
def State.deviceFits (s : State) (port rate width size : Nat) (suitable ideOk : Bool) : Bool :=
  decide (1 ≤ rate) && decide (8 ≤ width) && suitable && (ideOk || !s.ideRequired port) &&
    (if s.isFarPort port then decide (0 < size) && size % 2 ^ 28 == 0 && decide (size ≤ 2 ^ 40) else decide (0 < size))

/-- EDGE_DEVICE_ENUMERATION: an accelerator (R340) or an expander (R351). `rate` is coded as EDGE_STAT.RATE. -/
def execEdgeDeviceEnumeration (port rate width hdmSize : Nat) (suitable ideOk : Bool) (s : State) :
    Host.Outcome State Fault Refusal :=
  ok (s.whenLive (fun s =>
    let st := s.portState port
    let far := s.isFarPort port
    if 36 ≤ port ∨ (port < 32 ∧ s.get (R.EDGE_STAT_ROLE port) = 2) ∨ !(st == 1 || (st == 5 && !far)) then s
    else if !s.deviceFits port rate width hdmSize suitable ideOk then s.setPort port 5
    else
      let s := if port < 32 then (s.set (R.EDGE_STAT_RATE port) rate).set (R.EDGE_STAT_WIDTH port) width else s
      let s := (s.emit (.hdmDecoder port hdmSize)).startIde port
      let s := if far then
          (if port < 32 then s.set (R.EDGE_STAT_FRAMES port) (framesOf hdmSize)
           else s.set (R.MEMP_STAT_FRAMES (port - 32)) (framesOf hdmSize))
        else { s with edge := { s.edge with hdm := tset port hdmSize s.edge.hdm } }
      s.setPort port 2))

/-- An expander's port becomes FAILED for the rest of the run: its memory is lost (R351, R453). -/
def State.failExpander (s : State) (port : Nat) : State :=
  let s := { s with edge := { s.edge with expanderDown := s.edge.expanderDown.filter (· != port) } }
  ((s.setPort port 5).loseUnit (s.farUnitOf port) (s.farPart port)).wakeFar port true

/-- The link of an expander goes down: requests to it wait (R351). -/
def State.expanderDown (s : State) (port : Nat) : State :=
  if s.isFarPort port ∧ s.portState port = 2 ∧ !s.edge.expanderDown.contains port then
    { s with edge := { s.edge with expanderDown := s.edge.expanderDown ++ [port] } }
  else s

/-- EDGE_LINK_LOSS (R348). -/
def execEdgeLinkLoss (port : Nat) (s : State) : Host.Outcome State Fault Refusal :=
  edgeRow s (fun s => if port < 32 ∧ s.get (R.EDGE_STAT_ROLE port) = 0 then s.edgeLost port else s)

/-- IDE_MAC_FAILURE: the link goes down (R350). -/
def execIdeMacFailure (port : Nat) (s : State) : Host.Outcome State Fault Refusal :=
  edgeRow s (fun s => if 36 ≤ port ∨ !s.portIde port then s
    else if s.isFarPort port then s.expanderDown port else s.edgeLost port)

/-- IDE_KEY_REFRESH (R350). -/
def execIdeKeyRefresh (port : Nat) (s : State) : Host.Outcome State Fault Refusal :=
  ok (s.whenLive (fun s => if port < 36 ∧ s.portIde port then s.emit (.ideRekey port) else s))

/-- BISNP: the line leaves every L1, stream entry and remote sharer, then BIRsp (R347). -/
def execBisnp (slot offset : Nat) (s : State) : Host.Outcome State Fault Refusal :=
  edgeRow s (fun s =>
    let fpa := mkFpa s.chip slot offset
    s.removeLine fpa 0 (.biRsp slot offset))

/-- CXL_MEM_COMPLETION (R346). -/
def execCxlMemCompletion (port tag : Nat) (ok : Bool) (data : List Byte) (s : State) : Host.Outcome State Fault Refusal :=
  edgeRow s (fun s => match tget tag s.home.memReqs with
    | some r => if r.port = port then (s.memDone tag ok data).settleEdges else s
    | none => s)

/-- EDGE_DISABLE: 0 to EDGE_CTL.ENABLE (R349). -/
def execEdgeDisable (port : Nat) (s : State) : Host.Outcome State Fault Refusal :=
  edgeRow s (fun s => if port < 32 then (s.edgeEnable port false).settleEdges else s)

/-- EDGE_ENABLE: 1 to EDGE_CTL.ENABLE (R349). -/
def execEdgeEnable (port : Nat) (s : State) : Host.Outcome State Fault Refusal :=
  ok (s.whenLive (fun s => if port < 32 then s.edgeEnable port true else s))

/-- EDGE_DRAIN_TIMEOUT (R349, R446). -/
def execEdgeDrainTimeout (port : Nat) (s : State) : Host.Outcome State Fault Refusal :=
  edgeRow s (fun s => if port < 32 then (s.edgeDrainExpired port).settle.settleEdges else s)

/-- A write of EDGE_CFG_ADDR starts a configuration access, or is refused (R340, R358). -/
def State.startCfg (s : State) (port v : Nat) : State :=
  let write := bit v 15
  let func := bits v 14 12
  let reg := bits v 11 2
  if write ∧ s.ownedRegister then ((s.set (R.EDGE_CFG_DATA_ERR port) 1).set (R.EDGE_CFG_DATA_DONE port) 1).freshen
  else
    let s := ((s.set (R.EDGE_CFG_DATA_ERR port) 0).set (R.EDGE_CFG_DATA_DONE port) 0).freshen
    let s := { s with edge := { s.edge with cfg := tset port (write, func, reg) s.edge.cfg } }
    s.emit (.config port func reg write (if write then s.get (R.EDGE_CFG_DATA_DATA port) else 0))

/-- EDGE_CFG_ACCESS (R358). -/
def execEdgeCfgAccess (port value : Nat) (s : State) : Host.Outcome State Fault Refusal :=
  ok (s.whenLive (fun s => if port < 32 then s.startCfg port value else s))

/-- EDGE_CFG_DONE (R358). -/
def execEdgeCfgDone (port : Nat) (ok : Bool) (s : State) : Host.Outcome State Fault Refusal :=
  .next (s.whenLive (fun s => match tget port s.edge.cfg with
    | none => s
    | some (write, func, reg) =>
      let s := { s with edge := { s.edge with cfg := terase port s.edge.cfg } }
      let s := s.set (R.EDGE_CFG_DATA_DONE port) 1
      if !ok then s.set (R.EDGE_CFG_DATA_ERR port) 1
      else if write then s
      else s.set (R.EDGE_CFG_DATA_DATA port) (Config.deviceConfig port func reg)))

/-- EXPANDER_LINK_DOWN (R351). -/
def execExpanderLinkDown (port : Nat) (s : State) : Host.Outcome State Fault Refusal :=
  ok (s.whenLive (fun s => s.expanderDown port))

/-- EXPANDER_LINK_RETURN: service resumes when the media is intact, else the unit is lost (R351). -/
def execExpanderLinkReturn (port : Nat) (intact : Bool) (s : State) : Host.Outcome State Fault Refusal :=
  edgeRow s (fun s =>
    if s.edge.expanderDown.contains port then
      if intact then
        ({ s with edge := { s.edge with expanderDown := s.edge.expanderDown.filter (· != port) } }).wakeFar port false
      else s.failExpander port
    else s)

/-- EXPANDER_RETURN_TIMEOUT (R351, R453). -/
def execExpanderReturnTimeout (port : Nat) (s : State) : Host.Outcome State Fault Refusal :=
  edgeRow s (fun s => if s.edge.expanderDown.contains port then s.failExpander port else s)

/-! ### GDDR7 sites -/

/-- Bytes of a site: GDDR_CFG.DENSITY, of one device or of two in clamshell (R352). -/
def State.siteBytes (s : State) : Nat :=
  (s.get R.GDDR_CFG_DENSITY + 2) * 2 ^ 30 * (s.get R.GDDR_CFG_CLAMSHELL + 1)

/-- A site becomes FAILED (R354, Table 19-7). -/
def State.siteFailed (s : State) (site : Nat) : State := (s.set (R.GDDR_STAT_STATE site) 3).logFault 10 site 0 0

/-- GDDR_TRAINING_DONE: ACTIVE at a rate, with its frames, or FAILED; every ACTIVE site runs at the lowest rate (R352 to
R354). -/
def execGddrTrainingDone (site rate density devices : Nat) (ok : Bool) (s : State) : Host.Outcome State Fault Refusal :=
  .next (s.whenLive (fun s =>
    if 16 ≤ site ∨ s.get (R.GDDR_STAT_STATE site) ≠ 1 then s
    else if !ok ∨ density ≠ s.get R.GDDR_CFG_DENSITY ∨ devices ≠ s.get R.GDDR_CFG_CLAMSHELL + 1 then s.siteFailed site
    -- A rate below RATE_FLOOR is a failure at RATE_FLOOR; a rate code above RATE_CEIL's is never tried.
    else if s.get R.GDDR_CFG_RATE_FLOOR < rate then s.siteFailed site
    else
      let rate := max rate (s.get R.GDDR_CFG_RATE_CEIL)
      let s := (s.set (R.GDDR_STAT_STATE site) 2).set (R.GDDR_STAT_FRAMES site) (framesOf s.siteBytes)
      let act := (List.range 16).filter (fun t => s.get (R.GDDR_STAT_STATE t) == 2)
      let low := (act.map (fun t => if t = site then rate else s.get (R.GDDR_STAT_RATE t))).foldl max 0
      act.foldl (fun (s : State) t => s.set (R.GDDR_STAT_RATE t) low) s))

/-- A site that fails during a run: its slice is lost (R453). -/
def State.siteLost (s : State) (site : Nat) : State :=
  if site < 16 ∧ s.get (R.GDDR_STAT_STATE site) = 2 then (s.siteFailed site).loseUnit (16 + site) 0 else s

/-- GDDR_RETRAIN: accesses wait at most 2 us; a site that fails at RATE_FLOOR is lost (R355, R453). -/
def execGddrRetrain (site : Nat) (ok : Bool) (s : State) : Host.Outcome State Fault Refusal :=
  .next (s.whenLive (fun s => if ok then s else s.siteLost site))

/-- GDDR7_TRANSFER_COMPLETION: failed EDC CRCs are retried four times; then, or on an uncorrectable error, the 256 B block
is poisoned (R355). A read may return other bytes than were stored: ciphertext and tag (R391, R392). -/
def execGddr7TransferCompletion (site block : Nat) (write : Bool) (crcFails : Nat) (uncorrectable : Bool)
    (other : Option (List Byte × List Byte)) (s : State) : Host.Outcome State Fault Refusal :=
  ok (s.whenLive (fun s =>
    if 16 ≤ site ∨ s.get (R.GDDR_STAT_STATE site) ≠ 2 then s
    else
      let s := s.count (R.GDDR_STAT_CRC_RETRY site) (min crcFails 4)
      if 4 < crcFails ∨ uncorrectable then
        (s.poisonBlock (memKey (16 + site) 0 / 256 + block)).count (R.GDDR_STAT_POISON site)
      else match other with
        | some (cipher, tag) => if write then s else s.returned (memKey (16 + site) 0 / 256 + block) cipher tag
        | none => s))

/-- GDDR7_DEVICE_FATAL_ERROR (R453). -/
def execGddr7DeviceFatalError (site : Nat) (s : State) : Host.Outcome State Fault Refusal :=
  ok (s.whenLive (fun s => s.siteLost site))

end Sys2Proof.Machine
end

