-- ==== Sys2Proof/Machine/Bodies.lean ====
section
/-! DEFINITION. Request bodies (R4, R6): what the bytes of a request that FLIT_RECEIVE or UDP_DATAGRAM framed spell. Each body is read as
one little-endian number; `reserved` is true when a reserved field is nonzero. -/

namespace Sys2Proof.Machine

/-- Whether some bits of a number, given as high and low ends, are not all 0. -/
def anyBits (n : Nat) (rs : List (Nat × Nat)) : Bool := rs.any (fun r => bits n r.1 r.2 != 0)

/-- Table 15-8: ADDR and COUNT_M1. -/
def regBody (b : List Byte) : Nat × Nat × Bool := (fieldAt b 0 8, fieldAt b 8 1, fieldAt b 9 7 != 0)

/-- Table 15-8: the values of a REG_WRITE. -/
def regValues (b : List Byte) : List Nat := (chop 8 (b.drop 16)).map leNat

/-- Table 16-2. -/
def partCreateOf (b : List Byte) : PartCreate :=
  let n := leNat b
  { partition := bits n 11 0, tc := bits n 14 12, queueFirst := bits n 46 32, queueCount := bits n 63 48, ctrFirst := bits n 81 64,
    ctrCount := bits n 114 96, winFirst := bits n 143 128, winCount := bits n 151 144, slotQuota := bits n 173 160,
    spillQuota := bits n 189 176, nearQuota := bits n 208 192, farQuota := bits n 247 224, outstanding := bits n 272 256,
    reserved := anyBits n [(15, 15), (31, 16), (47, 47), (95, 82), (127, 115), (159, 152), (175, 174), (191, 190), (223, 209), (255, 248),
                           (511, 273)] }

/-- PART_DRAIN (R384): PARTITION, then reserved bits. -/
def partDrainOf (b : List Byte) : Nat × Bool := (bits (leNat b) 11 0, anyBits (leNat b) [(63, 12)])

/-- Table 16-7. -/
def weightLoadOf (b : List Byte) : WeightLoad :=
  { partition := bits (leNat b) 11 0, pkgFva := fieldAt b 8 8, pkgLen := fieldAt b 16 8, dstFva := fieldAt b 24 8,
    reserved := anyBits (leNat b) [(63, 12)] }

/-- ATTEST_REQ (R398): NONCE, PARTITION, PART_EN. -/
def attestOf (b : List Byte) : List Byte × Nat × Bool × Bool :=
  let n := fieldAt b 32 8
  (b.take 32, bits n 11 0, bit n 12, anyBits n [(63, 13)])

/-- Table 3-5. -/
def mapInstallOf (b : List Byte) : MapInstall :=
  let n := leNat b
  { partition := bits n 11 0, perm := bits n 18 16, pinNear := bit n 19, pinFar := bit n 20, pinHome := bit n 21, noReplica := bit n 22,
    staleOk := bit n 23, prefer := bits n 25 24, frameMode := bits n 27 26, page := bits n 62 32, frameFpa := bits n 127 64,
    reserved := anyBits n [(15, 12), (31, 28), (63, 63)] }

/-- Table 3-6. -/
def mapWithdrawOf (b : List Byte) : MapWithdraw :=
  let n := leNat b
  { partition := bits n 11 0, abort := bit n 16, firstPage := bits n 62 32, countM1 := bits n 71 64,
    reserved := anyBits n [(15, 12), (31, 17), (63, 63), (127, 72)] }

/-- Table 3-8. -/
def faultRejectOf (b : List Byte) : Nat × Nat × Bool :=
  let n := leNat b
  (bits n 11 0, bits n 62 32, anyBits n [(31, 12), (63, 63)])

/-- Table 2-6. -/
def winEntryOf (b : List Byte) : WinEntry :=
  let n := leNat b
  let count := bits n 35 32 + 1
  { valid := bit n 0, perm := bits n 3 1, replicable := bit n 4, sideEffect := bit n 5, altSide := bit n 6, partition := bits n 19 8,
    suLog2 := bits n 28 24, length := bits n 108 64, devBase := bits n 170 128,
    members := (List.range count).map (fun i => (bits n (206 + 20 * i) (192 + 20 * i), bits n (210 + 20 * i) (207 + 20 * i))),
    reserved := anyBits n [(7, 7), (23, 20), (31, 29), (39, 36), (63, 40), (127, 109), (191, 171)] ||
      (List.range count).any (fun i => bit n (211 + 20 * i)) || n / 2 ^ (192 + 20 * count) % 2 ^ (320 - 20 * count) != 0 }

/-- Table 15-9: PARTITION, SLOT, ABORT. -/
def winBody (b : List Byte) : Nat × Nat × Bool × Bool :=
  let n := fieldAt b 0 8
  (bits n 11 0, bits n 22 16, bit n 23, anyBits n [(15, 12), (63, 24)])

/-- Table 7-1. -/
def queueCreateOf (b : List Byte) : QueueCreate :=
  let n := leNat b
  { queue := bits n 14 0, partition := bits n 27 16, engine := bit n 28, sqLog2 := bits n 35 32, cqLog2 := bits n 39 36,
    timeoutUs := bits n 59 40, sqFva := bits n 127 64, cqFva := bits n 191 128,
    reserved := anyBits n [(15, 15), (31, 29), (63, 60), (255, 192)] }

/-- Table 7-2; the body is 8 B (log entry 93). -/
def queueDrainOf (b : List Byte) : Nat × Bool := (bits (leNat b) 14 0, anyBits (leNat b) [(63, 15)])

/-- Table 9-1. -/
def groupCreateOf (b : List Byte) : GroupCreate :=
  let n := leNat b
  { group := bits n 13 0, partition := bits n 27 16, paired := bit n 28, rotWindow := bits n 31 29, slotMask := bits n 47 32,
    slots := bits n 60 48, queueBase := bits n 78 64, xMask := bits n 191 128, yMask := bits n 255 192, zMask := bits n 263 256,
    reserved := anyBits n [(15, 14), (63, 61), (79, 79), (127, 80), (383, 264)] }

/-- Table 9-7; the body is 8 B (log entry 93). -/
def groupBody (b : List Byte) : Nat × Nat × Bool :=
  let n := leNat b
  (bits n 13 0, bits n 27 16, anyBits n [(15, 14), (63, 28)])

/-- Table 17-8, whose SIG only its checker reads. -/
def modeSelectOf (b : List Byte) : ModeSelect :=
  let n := leNat b
  { mode := bits n 7 0, anyChip := bit n 8, target := bits n 30 16, seq := bits n 127 64, inflDigest := leNat ((b.drop 16).take 48).reverse,
    sig := leNat ((b.drop 64).take 96).reverse, reserved := anyBits n [(15, 9), (31, 31), (63, 32)] }

/-- Table 18-3: CAP_W, SEQ. -/
def capSetOf (b : List Byte) : Nat × Nat × Bool := (fieldAt b 0 2, fieldAt b 8 8, fieldAt b 2 6 != 0)

/-- FREEZE_READ (R439): OFFSET, LENGTH. -/
def freezeReadOf (b : List Byte) : Nat × Nat × Bool := (fieldAt b 0 8, fieldAt b 8 4, fieldAt b 12 4 != 0)

end Sys2Proof.Machine
end

