-- ==== Sys2Proof/Machine/Nelar.lean ====
section
/-! DEFINITION. The Nelar host link (chapter 15): flits and retry, link state, framing and admission of messages, what moves when
a link goes down. -/

namespace Sys2Proof.Machine

/-! ### Framing and admission (R371, R372, Table 15-7) -/

/-- Table 15-7, the requests of the runtime: whether the Nelar links and the management ports carry the code, and the body's
length. A REG_WRITE's length follows from its COUNT_M1. -/
def requestForm (code : Nat) (body : List Byte) : Option (Bool × Bool × Nat) :=
  match code with
  | 0x01 => some (true, true, 16)
  | 0x02 => some (true, true, 16 + 8 * (fieldAt body 8 1 + 1))
  | 0x10 => some (true, false, 64)
  | 0x11 => some (true, false, 8)
  | 0x14 => some (true, false, 32)
  | 0x18 => some (true, true, 40)
  | 0x20 => some (true, false, 16)
  | 0x21 => some (true, false, 16)
  | 0x22 => some (true, false, 8)
  | 0x23 => some (true, false, 72)
  | 0x24 => some (true, false, 8)
  | 0x30 => some (true, false, 32)
  | 0x31 => some (true, false, 8)
  | 0x38 => some (true, false, 48)
  | 0x39 => some (true, false, 8)
  | 0x3A => some (true, false, 8)
  | 0x40 => some (true, true, 160)
  | 0x41 => some (true, true, 16)
  | 0x52 => some (false, true, 16)
  | _ => none

/-- The header of a message (Table 15-6) as it arrives on a path. -/
def headerOf (path : Path) (bs : List Byte) : Hdr :=
  { path := path, chip := fieldAt bs 10 2 % 2 ^ 15, reqId := fieldAt bs 4 4, resp := bit (fieldAt bs 2 2) 0,
    length := fieldAt bs 8 2,
    reserved := decide (4 ≤ fieldAt bs 2 2) || decide (2 ^ 15 ≤ fieldAt bs 10 2) || fieldAt bs 12 4 != 0 }

/-- A whole message has come: R372 and R374 apply; one that goes on waits for its own row. -/
def State.takeMessage (s : State) (path : Path) (bs : List Byte) : State :=
  let h := headerOf path bs
  let code := fieldAt bs 0 2
  let form := requestForm code (bs.drop 16)
  let fits := match form with
    | some (_, _, n) => h.length == n
    | none => false
  match s.vet h code ((form.map (fun f => f.1)).getD true) ((form.map (fun f => f.2.1)).getD true) fits
      (fun _ => false) with
  | (s, true) =>
    { s with nelar := { s.nelar with inbox := s.nelar.inbox ++ [{ path := path, reqId := h.reqId, code := code, body := bs.drop 16 }] } }
  | (s, false) => s

/-- Bytes of the flit in which the oldest unread byte lies. -/
def flitRest (n : Nat) : Nat := if n = 0 then 0 else (n - 1) % 240 + 1

/-- Reads the messages that the stream holds whole. A CODE of 0 ends the content of its flit (R371). -/
def State.parse (s : State) (l : Nat) : Nat → State
  | 0 => s
  | fuel + 1 =>
    let k := s.link l
    let n := k.rx.length
    if n < 2 then s
    else if fieldAt k.rx 0 2 = 0 then
      State.parse (s.setLink l { k with rx := k.rx.drop (flitRest n) }) l fuel
    else if n < 16 ∨ n < 16 + fieldAt k.rx 8 2 then s
    else
      let m := k.rx.take (16 + fieldAt k.rx 8 2)
      let s := s.setLink l { k with rx := k.rx.drop m.length }
      State.parse (s.takeMessage (if l = 0 then .nelarA else .nelarB) m) l fuel

/-- CREDIT: flits whose every message byte has been taken into processing (R369). -/
def State.countFreed (s : State) (l : Nat) : State :=
  let k := s.link l
  s.setLink l { k with freed := (k.expect + 65536 - ceilDiv k.rx.length 240) % 65536 }

/-! ### Acknowledgement and replay (R368) -/

/-- Takes a number of acknowledged flits off the messages in flight, oldest first. -/
def ackMsgs : Nat → List (Msg × Nat) → List (Msg × Nat)
  | _, [] => []
  | n, (m, k) :: r => if k ≤ n then ackMsgs (n - k) r else (m, k - n) :: r

/-- ACKSEQ: every held flit up to it is acknowledged. -/
def State.takeAck (s : State) (l ack : Nat) : State :=
  let k := s.link l
  if k.held.any (fun h => h.1 == ack) then
    let rest := (k.held.dropWhile (fun h => h.1 != ack)).drop 1
    s.setLink l { k with held := rest, msgs := ackMsgs (k.held.length - rest.length) k.msgs, replays := 0 }
  else s

/-- Sends every held flit again, in order, unless REPLAY_MAX replays have passed without progress. -/
def State.replay (s : State) (l : Nat) : State :=
  let k := s.link l
  if k.held = [] ∨ s.get (R.NELAR_CTL_REPLAY_MAX l) ≤ k.replays then s
  else
    let s := (s.setLink l { k with replays := k.replays + 1 }).count (R.NELAR_COUNT_REPLAYS l)
    k.held.foldl (fun s h => s.sendFlit l ((s.link l).flit 1 h.1 h.2)) s

/-! ### Link state (R365, R366, R370, R377) -/

def State.carries (s : State) (l : Nat) : Bool := s.linkState l == 4 || s.linkState l == 5

/-- A DRAINING link that holds no DATA flit and no begun message reads DISABLED (R370). -/
def State.restLink (s : State) (l : Nat) : State :=
  let k := s.link l
  if s.linkState l = 5 ∧ k.held = [] ∧ k.queue = [] ∧ k.msgs = [] ∧ k.rx = [] then s.set (R.NELAR_STAT_STATE l) 6 else s

/-- Messages sent again on the other link, or kept, with RESENT at 1 (R377). -/
def State.moveMsgs (s : State) (l : Nat) (ms : List Msg) : State :=
  ms.foldl (fun s m => s.sendVia (1 - l) { m with resent := true }) s

/-- A link goes down (R366): it returns to CLOCK; a link that drained is DISABLED. What it had not had acknowledged moves. -/
def State.linkDown (s : State) (l : Nat) : State :=
  if s.linkState l = 0 ∨ 6 ≤ s.linkState l then s
  else
    let ms := (s.link l).msgs.map Prod.fst
    let drained := s.linkState l == 5
    let s := s.setLink l { Link.reset with presets := (s.link l).presets }
    let s := if drained then s.set (R.NELAR_STAT_STATE l) 6 else s.enterClock l
    let s := (s.count (R.NELAR_COUNT_RETRAINS l)).set (R.NELAR_STAT_LANES_LOCKED l) 0
    (s.logFault 12 l 0 0).moveMsgs l ms

/-- Messages whose first flit has not been sent, from the back of a list, with flits still in the queue. -/
def unbegun : Nat → List (Msg × Nat) → List Msg
  | _, [] => []
  | q, (m, k) :: r => if k ≤ q ∧ k = ceilDiv (16 + m.body.length) 240 then unbegun (q - k) r ++ [m] else []

/-- 0 to NELAR_CTL.ENABLE (R370): an ACTIVE link drains, and messages not begun go on the other link; a link that does not
carry flits is DISABLED at once. -/
def State.drainLink (s : State) (l : Nat) : State :=
  let s := s.set (R.NELAR_CTL_ENABLE l) 0
  if s.linkState l = 4 then
    let k := s.link l
    let ms := unbegun k.queue.length k.msgs.reverse
    let n := (ms.map (fun m => ceilDiv (16 + m.body.length) 240)).sum
    let s := (s.setLink l { k with queue := k.queue.take (k.queue.length - n),
                                   msgs := k.msgs.take (k.msgs.length - ms.length) }).set (R.NELAR_STAT_STATE l) 5
    (ms.foldl (fun s m => s.sendVia (1 - l) m) s).restLink l
  else if 1 ≤ s.linkState l ∧ s.linkState l ≤ 3 then s.set (R.NELAR_STAT_STATE l) 6
  else s

/-- 1 to NELAR_CTL.ENABLE (R370). -/
def State.enableLink (s : State) (l : Nat) : State :=
  if s.linkState l = 5 then s.set (R.NELAR_STAT_REFUSED l) 1
  else
    let s := s.set (R.NELAR_CTL_ENABLE l) 1
    if s.linkState l = 6 ∨ (s.linkState l = 0 ∧ s.flag R.GLB_LOCK_LOCKED) then s.enterClock l else s

def State.writeLink (s : State) (l : Nat) (on : Bool) : State := if on then s.enableLink l else s.drainLink l

/-- Kept notices leave in order, then what was not formed for want of room, then closed batches (R74, R377). -/
def State.flushNotices (s : State) (l : Nat) : State :=
  let ms := s.nelar.notices
  let os := s.nelar.owed
  let s := { s with nelar := { s.nelar with notices := [], owed := [] } }
  let s := ms.foldl (fun s m => s.sendOn l m) s
  (os.foldl (fun s (o : Nat × List Byte) => s.sendOwn o.1 o.2) s).flushBatches

/-! ### The rows -/

/-- The lanes that a transmitter brings to its first flit: what the blocks of TRAIN and ALIGN left in them is no rule of the spec, so it
is free (log entry 144). -/
def State.freeLanes (s : State) : List Lane × Nat :=
  let turn := s.free 16 % 8
  let since := s.free 17 % amPeriod
  ((List.range 8).map (fun i => { scr := s.free i % 2 ^ 58, since := since + (if i < turn then 1 else 0), bip := s.free (8 + i) % 256,
                                  bad := [] }), turn)

/-- The cause that keeps a link in ALIGN (R364, NELAR_STAT.FAULT): 1 lane order, 2 LINK bit, 3 skew; 0 none. -/
def alignFault (link skew : Nat) (lanes : List LaneSeen) : Nat :=
  let order := lanes.map (fun l => bits l.am 10 8)
  if order ≠ List.range 8 ∧ order ≠ (List.range 8).reverse then 1
  else if lanes.any (fun l => bits l.am 11 11 != link) then 2
  else if 16 < skew then 3
  else 0

/-- NELAR_LINK_ACTIVE (R361, R364, R365): a link whose lanes do not all lock stays in TRAIN; one whose AMs do not align stays in ALIGN,
with the cause (log entry 145). Otherwise START goes and flits may follow. -/
def execNelarLinkActive (link locked : Nat) (lanes : List LaneSeen) (skew turn : Nat) (s : State) : Host.Outcome State Fault Refusal :=
  ok (s.whenLive (fun s =>
    if s.linkState link = 0 ∨ 4 ≤ s.linkState link ∨ 2 ≤ link then s
    else
      let s := s.set (R.NELAR_STAT_LANES_LOCKED link) locked
      if locked % 256 ≠ 255 ∨ lanes.length ≠ 8 then s.set (R.NELAR_STAT_STATE link) 2
      else if !lanes.all (fun l => isAm 2 l.am) then s.set (R.NELAR_STAT_STATE link) 3
      else
        let reversed := lanes.map (fun l => bits l.am 10 8) == (List.range 8).reverse
        let s := (s.set (R.NELAR_STAT_SKEW link) (min skew 16)).setFlag (R.NELAR_STAT_REVERSED link) reversed
        let cause := alignFault link skew lanes
        let s := s.set (R.NELAR_STAT_FAULT link) cause
        if cause ≠ 0 then s.set (R.NELAR_STAT_STATE link) 3
        else
          let rx := (if reversed then lanes.reverse else lanes).map (fun l =>
            { scr := l.scr % 2 ^ 58, since := l.since, bip := l.bip, bad := [] : Lane })
          let tx := s.freeLanes
          let k := { Link.reset with presets := (s.link link).presets, txLanes := tx.1, txTurn := tx.2, rxLanes := rx, rxTurn := turn % 8 }
          let r := dealBlocks link k [(2, 0x33)]
          (((s.set (R.NELAR_STAT_STATE link) 4).setLink link r.1).emit (.nelarBlocks link r.2)).freshen.flushNotices link))

/-- NELAR_LINK_DOWN (R366, R377). -/
def execNelarLinkDown (link : Nat) (s : State) : Host.Outcome State Fault Refusal :=
  ok (s.whenLive (fun s => if link < 2 then s.linkDown link else s))

/-- A flit whose CRC holds and whose KIND is not reserved (R367 to R369). -/
def State.takeFlit (s : State) (l : Nat) (f : Flit) : State :=
  let s := s.takeAck l f.ackseq
  let s := s.setLink l { s.link l with peerCredit := f.credit }
  let s :=
    if f.kind = 1 then
      let k := s.link l
      if f.fseq = k.expect then
        ((s.setLink l { k with expect := (k.expect + 1) % 65536, nackSent := false, rx := k.rx ++ f.payload }).parse l
          (k.rx.length + f.payload.length)).countFreed l
      else if k.nackSent then s
      else (s.setLink l { k with nackSent := true }).sendFlit l (k.flit 2 0 (List.replicate 240 0#8))
    else if f.kind = 2 then s.replay l
    else s
  (s.pump l (s.link l).queue.length).restLink l

/-- BIP mismatches of a receive lane (R363). -/
def State.countBip (s : State) (l lane : Nat) : State :=
  match lane with
  | 0 => s.count (R.NELAR_BIP_BIP_0 l)
  | 1 => s.count (R.NELAR_BIP_BIP_1 l)
  | 2 => s.count (R.NELAR_BIP_BIP_2 l)
  | 3 => s.count (R.NELAR_BIP_BIP_3 l)
  | 4 => s.count (R.NELAR_BIP_BIP_4 l)
  | 5 => s.count (R.NELAR_BIP_BIP_5 l)
  | 6 => s.count (R.NELAR_BIP_BIP_6 l)
  | _ => s.count (R.NELAR_BIP_BIP_7 l)

/-- A flit arrives: one whose CRC fails, or of KIND 3, is discarded with every field in it (R368). -/
def State.flitIn (s : State) (l : Nat) (f : Flit) : State :=
  if 2 ≤ l ∨ !s.carries l then s
  else if !f.crcOk then s.count (R.NELAR_COUNT_CRC_FAIL l)
  else if 3 ≤ f.kind then s
  else s.takeFlit l f

/-- What received blocks bring, in order: flits, parity mismatches by receive lane, and the end of the link (R363, R366). -/
def State.laneEvents (s : State) (l : Nat) (es : List LaneEvent) : State :=
  es.foldl (fun s e => match e with
    | .flit bs => s.flitIn l (flitOf bs)
    | .bip i => s.countBip l (if s.flag (R.NELAR_STAT_REVERSED l) then 7 - i else i)
    | .down => if s.carries l then s.linkDown l else s) s

/-- Blocks arrive on the lanes of an ACTIVE or DRAINING link. -/
def State.blocksIn (s : State) (l : Nat) (bs : List (Nat × Nat)) : State :=
  if 2 ≤ l ∨ !s.carries l then s
  else
    let r := takeBlocks (s.link l) bs
    (s.setLink l r.1).laneEvents l r.2

/-- FLIT_RECEIVE (R362 to R364, R367 to R369): the 66-bit blocks of a flit, in LANE order. -/
def execFlitReceive (link : Nat) (blocks : List (Nat × Nat)) (s : State) : Host.Outcome State Fault Refusal :=
  ok (s.whenLive (fun s => s.blocksIn link blocks))

/-- NACK_FLIT (R368): the same rules; a NACK is the flit of KIND 2. -/
def execNackFlit (link : Nat) (blocks : List (Nat × Nat)) (s : State) : Host.Outcome State Fault Refusal :=
  ok (s.whenLive (fun s => s.blocksIn link blocks))

/-- REPLAY_TIMEOUT (R368). -/
def execReplayTimeout (link : Nat) (s : State) : Host.Outcome State Fault Refusal :=
  ok (s.whenLive (fun s => if link < 2 ∧ s.carries link then s.replay link else s))

/-- NELAR_REPLAY_EXHAUSTED (R366, R368). -/
def execNelarReplayExhausted (link : Nat) (s : State) : Host.Outcome State Fault Refusal :=
  ok (s.whenLive (fun s =>
    if link < 2 ∧ s.carries link ∧ s.get (R.NELAR_CTL_REPLAY_MAX link) ≤ (s.link link).replays then s.linkDown link else s))

/-- NELAR_DISABLE (R370). -/
def execNelarDisable (link : Nat) (s : State) : Host.Outcome State Fault Refusal :=
  ok (s.whenLive (fun s => if link < 2 then s.writeLink link false else s))

/-- NELAR_ENABLE (R370). -/
def execNelarEnable (link : Nat) (s : State) : Host.Outcome State Fault Refusal :=
  ok (s.whenLive (fun s => if link < 2 then s.writeLink link true else s))

/-- NELAR_DRAIN_TIMEOUT (R370, R377, R446): unacknowledged messages move, and the link reads DISABLED. -/
def execNelarDrainTimeout (link : Nat) (s : State) : Host.Outcome State Fault Refusal :=
  ok (s.whenLive (fun s =>
    if link < 2 ∧ s.linkState link = 5 then
      let ms := (s.link link).msgs.map Prod.fst
      ((s.setLink link { Link.reset with presets := (s.link link).presets }).set (R.NELAR_STAT_STATE link) 6).moveMsgs link ms
    else s))

end Sys2Proof.Machine
end

