-- ==== Sys2Proof/Machine/Tele.lean ====
section
/-! DEFINITION. Telemetry (R458 to R461): histogram snapshots, port snapshots, sampling and streaming. -/

namespace Sys2Proof.Machine

/-- Runs a register action while management answers and the chip is not frozen (R437, R468, log entry 3). -/
def State.whenManaged (s : State) (f : State → State) : State := if s.manageable && s.frozen.isNone then f s else s

/-- A histogram's live counts. -/
def State.hist (s : State) (h : Nat) : Hist := (tget h s.tele.hists).getD Hist.empty

/-- The live counts of a histogram become empty (R458). -/
def State.emptyHist (s : State) (h : Nat) : State := { s with tele := { s.tele with hists := terase h s.tele.hists } }

/-- Bins of a histogram. -/
def Hist.binList (x : Hist) : List Nat := (List.range 64).map (fun b => (tget b x.bins).getD 0)

/-- A snapshot of one histogram: its counts go to its snapshot registers and its live counts are empty (R459). -/
def State.snapHist (s : State) (h : Nat) : State :=
  let x := s.hist h
  let s := ((s.set (R.TELE_HCOUNT_COUNT h) x.count).set (R.TELE_HMIN_MIN h) x.min).set (R.TELE_HMAX_MAX h) x.max
  let s := s.set (R.TELE_HTICK_TICK h) s.tick
  let s := (List.range 64).foldl (fun (s : State) b => s.set (R.TELE_HBIN_COUNT h b) ((tget b x.bins).getD 0)) s
  s.emptyHist h

/-- TELE_SNAP.HIST (R459, R460): histograms in STREAM_MASK are left alone, whatever STREAM_EN says (log entry 149). -/
def State.snapHists (s : State) (mask : Nat) : State :=
  let stream := s.get R.TELE_CTL_STREAM_MASK
  let s := if Nat.land (mask % 2 ^ 16) stream ≠ 0 then s.set R.TELE_STAT_REFUSED 1 else s
  (bitsOf 16 mask).foldl (fun (s : State) h => if bit stream h then s else s.snapHist h) s

/-- The counters of Table 12-9, with their places in the port shadow. -/
def portFields : List ((Nat → Fld) × (Nat → Fld)) :=
  [(R.SWC_PORT_FRAMES_OUT, R.TELE_SHADOW_FRAMES_OUT), (R.SWC_PORT_FRAMES_IN, R.TELE_SHADOW_FRAMES_IN),
   (R.SWC_PORT_BYTES_IN_BYTES, R.TELE_SHADOW_BYTES_IN_BYTES), (R.SWC_PORT_BYTES_OUT_BYTES, R.TELE_SHADOW_BYTES_OUT_BYTES),
   (R.SWC_PORT_ERR_HCRC, R.TELE_SHADOW_ERR_HCRC), (R.SWC_PORT_ERR_CRC, R.TELE_SHADOW_ERR_CRC),
   (R.SWC_PORT_ERR_STOMP, R.TELE_SHADOW_ERR_STOMP), (R.SWC_PORT_ERR_CHECK, R.TELE_SHADOW_ERR_CHECK),
   (R.SWC_PORT_RETRY_RESENT, R.TELE_SHADOW_RETRY_RESENT), (R.SWC_PORT_RETRY_NACKED, R.TELE_SHADOW_RETRY_NACKED),
   (R.SWC_PORT_DEPTH_PEAK, R.TELE_SHADOW_DEPTH_PEAK), (R.SWC_PORT_DEPTH_CELLS, R.TELE_SHADOW_DEPTH_CELLS),
   (R.SWC_PORT_STALL_CYCLES, R.TELE_SHADOW_STALL_CYCLES)]

/-- Copies the counters of one port to the shadow. -/
def State.shadowPort (s : State) (p : Nat) : State :=
  portFields.foldl (fun (s : State) x => s.set (x.2 p) (s.get (x.1 p))) s

/-- Clears the live counters of one port; PEAK takes CELLS (R459). -/
def State.clearPort (s : State) (p : Nat) : State :=
  let cells := s.get (R.SWC_PORT_DEPTH_CELLS p)
  let s := portFields.foldl (fun (s : State) x => s.set (x.1 p) 0) s
  (s.set (R.SWC_PORT_DEPTH_PEAK p) cells).set (R.SWC_PORT_DEPTH_CELLS p) cells

/-- TELE_SNAP.PORTS (R459). -/
def State.snapPorts (s : State) : State := ((List.range 144).foldl State.shadowPort s).set R.TELE_PORT_TICK_TICK s.tick

/-- TELE_SNAP.PORTS with CLEAR_PORTS (R459). -/
def State.snapClearPorts (s : State) : State := (List.range 144).foldl State.clearPort s.snapPorts

/-- TELE_SNAP written: its fields act together (R459). -/
def State.writeSnap (s : State) (v : Nat) : State :=
  let s := s.snapHists (bits v 15 0)
  if bit v 16 then (if bit v 17 then s.snapClearPorts else s.snapPorts) else s

/-- TELE_HCFG_h written (R458): its fields take the value and the live counts become empty. -/
def State.writeHcfg (s : State) (h v : Nat) : State :=
  let a := 0x61000 + 0x400 * h
  match regAt a with
  | some (d, i, _) => (s.writeFields d a i v).emptyHist h
  | none => s

/-- TELE_SNAP_HIST (R459). -/
def execTeleSnapHist (mask : Nat) (s : State) : Host.Outcome State Fault Refusal :=
  ok (s.whenManaged (fun s => s.snapHists mask))

/-- TELE_SNAP_PORTS (R459). -/
def execTeleSnapPorts (s : State) : Host.Outcome State Fault Refusal := ok (s.whenManaged State.snapPorts)

/-- TELE_SNAP_CLEAR_PORTS (R459). -/
def execTeleSnapClearPorts (s : State) : Host.Outcome State Fault Refusal := ok (s.whenManaged State.snapClearPorts)

/-- TELE_HCFG_WRITE (R458). -/
def execTeleHcfgWrite (hist value : Nat) (s : State) : Host.Outcome State Fault Refusal :=
  ok (s.whenManaged (fun s => if hist < 16 then s.writeHcfg hist value else s))

/-- The sampled sources 8 to 11 (Table 19-9). -/
def State.sampleAll (s : State) : State :=
  let s := (List.range 144).foldl (fun (s : State) p => s.sample 8 (s.queuedCells p) (some p) none) s
  let ires := ((List.range 144).map (fun p => ((List.range 6).map (fun v => s.get (R.SWC_LIMIT_IRES p v))).sum)).sum
  let s := s.sample 9 (655360 - ires - s.get R.SWC_POOL_SHARED_FREE) none none
  let s := s.sample 10 (12288 - s.get R.CONJ_STAT_FREE) none none
  s.sample 11 s.parkedCount none none

/-- TELE_SAMPLE_TIMER (R458). -/
def execTeleSampleTimer (s : State) : Host.Outcome State Fault Refusal := ok (s.whenLive State.sampleAll)

/-- The HIST record of a histogram (Table 19-11). -/
def State.histRecord (s : State) (h : Nat) : List Byte :=
  let x := s.hist h
  packBytes [(8, 1), (8, h), (16, 296), (32, 0), (6, s.get (R.TELE_HCFG_SOURCE h)), (10, 0),
    (12, s.get (R.TELE_HCFG_FILTER_VALUE h)), (2, s.get (R.TELE_HCFG_FILTER_KIND h)), (34, 0),
    (64, x.count), (64, x.min), (64, x.max)] ++ x.binList.flatMap (leBytes 4)

/-- Snapshots the streamed histograms and sends them in one message (R460, R461). -/
def State.streamHists (s : State) : State :=
  let hs := bitsOf 16 (s.get R.TELE_CTL_STREAM_MASK)
  if !s.flag R.TELE_CTL_STREAM_EN ∨ hs = [] then s
  else
    let records := hs.map s.histRecord
    (hs.foldl State.snapHist s).stream records

/-- TELE_STREAM_INTERVAL (R460). -/
def execTeleStreamInterval (s : State) : Host.Outcome State Fault Refusal := ok (s.whenLive State.streamHists)

end Sys2Proof.Machine
end

