-- ==== Sys2Proof/Machine/Select.lean ====
section
/-! DEFINITION. Selector and result registers (R52, R241, R263, R401, R457, R462): a write to a selector decides what the next
reads of its result return on the same management path. Where the spec gives a field of a result no value, it is free
(log entry 35). -/

namespace Sys2Proof.Machine

/-- Keeps what a selector write leaves for a path: at 0 the result of XLAT_PM_PROBE, which is taken at the write (R52); for
the others the selector's value: 1 CONJ_GROUP_SEL, 2 PARSER_PROBE, 3 SEC_VLOG_SEL, 5 FAULT_REACH_SEL, 6 FAULT_LOG_SEL. -/
def State.latch (s : State) (path : Path) (reg v : Nat) : State :=
  { s with nelar := { s.nelar with selected := tset (path.code * 16 + reg) (v % 2 ^ 64) s.nelar.selected } }

/-- XLAT_PM_PROBE written (R52, Table 2-12): the page map as it stands at the write. -/
def State.probePm (s : State) (path : Path) (v : Nat) : State :=
  let p := bits v 42 31
  let h := bits v 30 0
  let set := pmSet p h
  let hit := s.pmFind p h
  let way := match hit with
    | some (i, _) => i % 16
    | none => s.free 0
  (s.latch path 0 (packNat [(18, set), (12, 0), (5, s.pmWays p h), (4, way), (1, b2n hit.isSome)])).freshen

/-- CONJ_GROUP_RES (R241, Table 9-12); the instance is the next of the slot that has come furthest. -/
def State.groupResult (s : State) (v : Nat) : Nat :=
  let n := bits v 13 0
  match s.group n with
  | some g => packNat [(13, g.body.slots), (3, 0), (12, g.body.partition), (4, 0), (2, g.state), (2, 0), (4, g.generation),
      (8, if g.state = 2 then g.cause else 0), (16, (g.nextInst.map (fun (x : Nat × Nat) => x.2)).foldl Nat.max 0)]
  | none => packNat [(13, s.free 0), (3, 0), (12, s.free 1), (4, 0), (2, 0), (2, 0),
      (4, (tget n s.coll.generations).getD 0), (8, 0), (16, s.free 2)]

/-- PARSER_PROBE_RES (R263, Table 10-14); on a chip that is not the page's home bits [63:10] are free. -/
def State.parserResult (s : State) (v : Nat) : Nat :=
  let p := bits v 42 31
  let page := bits v 30 0
  let e := s.pmFind p page
  let hit := b2n e.isSome
  match e with
  | some (_, e) =>
    if e.chip = s.chip then
      let x := (tget (frameKey e.fpa) s.parser.heat).getD Heat.zero
      let reps := match tget e.dirIndex s.parser.dir with
        | some d => d.replicas.length
        | none => 0
      packNat [(8, 0), (1, hit), (1, 1), (1, b2n (s.migration p page).isSome), (2, reps), (4, x.hold), (15, x.topChip),
        (16, x.wheat), (16, x.heat)]
    else packNat [(8, 0), (1, hit), (1, 0), (54, s.free 0)]
  | none => packNat [(8, 0), (1, 0), (1, 0), (54, s.free 0)]

/-- SEC_VLOG_RES0 and SEC_VLOG_RES1 (R401, Table 16-12). -/
def State.vlogResult (s : State) (v : Nat) : Nat × Nat :=
  let log := if bit v 28 then s.security.glog else (tget (bits v 27 16) s.security.vlogs).getD []
  match log[bits v 7 0]? with
  | some x => (x.addr, packNat [(8, x.source), (4, x.cls), (8, x.code), (12, x.partition), (32, x.tick)])
  | none => (s.free 0, s.free 1)

/-- FAULT_REACH_RES (R462, Table 19-8). -/
def State.reachResult (s : State) (v : Nat) : Nat :=
  match tget (bits v 14 0) s.tele.reach with
  | some r => packNat [(2, r.state), (2, r.how), (28, 0), (32, r.tick)]
  | none => 0

/-- FAULT_LOG_RES0 and FAULT_LOG_RES1 (R457, Table 19-8). -/
def State.logResult (s : State) (v : Nat) : Nat × Nat :=
  match s.tele.log[bits v 9 0]? with
  | some e => (e.addr, e.res1)
  | none => (s.free 0, s.free 1)

/-- What a path reads from result register `reg`: 0 PM_PROBE_RES, 1 CONJ_GROUP_RES, 2 PARSER_PROBE_RES, 3 and 4
SEC_VLOG_RES, 5 FAULT_REACH_RES, 6 and 7 FAULT_LOG_RES: the selected entry as it stands at the read; 0 before the path has
written the selector. -/
def State.selected (s : State) (path : Path) (reg : Nat) : Nat :=
  match tget (path.code * 16 + (if reg = 4 then 3 else if reg = 7 then 6 else reg)) s.nelar.selected with
  | none => 0
  | some v =>
    (if reg = 0 then v else if reg = 1 then s.groupResult v else if reg = 2 then s.parserResult v
    else if reg = 3 then (s.vlogResult v).1 else if reg = 4 then (s.vlogResult v).2 else if reg = 5 then s.reachResult v
    else if reg = 6 then (s.logResult v).1 else (s.logResult v).2) % 2 ^ 64

/-- XLAT_PM_PROBE_WRITE (R52). -/
def execXlatPmProbeWrite (path : Path) (value : Nat) (s : State) : Host.Outcome State Fault Refusal :=
  ok (s.whenManaged (fun s => s.probePm path value))

/-- CONJ_GROUP_SEL_WRITE (R241). -/
def execConjGroupSelWrite (path : Path) (value : Nat) (s : State) : Host.Outcome State Fault Refusal :=
  ok (s.whenManaged (fun s => s.latch path 1 value))

/-- PARSER_PROBE_WRITE (R263). -/
def execParserProbeWrite (path : Path) (value : Nat) (s : State) : Host.Outcome State Fault Refusal :=
  ok (s.whenManaged (fun s => s.latch path 2 value))

/-- SEC_VLOG_SEL_WRITE (R401). -/
def execSecVlogSelWrite (path : Path) (value : Nat) (s : State) : Host.Outcome State Fault Refusal :=
  ok (s.whenManaged (fun s => s.latch path 3 value))

/-- FAULT_REACH_SEL_WRITE (R462). -/
def execFaultReachSelWrite (path : Path) (value : Nat) (s : State) : Host.Outcome State Fault Refusal :=
  ok (s.whenManaged (fun s => s.latch path 5 value))

/-- FAULT_LOG_SEL_WRITE (R457). -/
def execFaultLogSelWrite (path : Path) (value : Nat) (s : State) : Host.Outcome State Fault Refusal :=
  ok (s.whenManaged (fun s => s.latch path 6 value))

end Sys2Proof.Machine
end

