-- ==== Sys2Proof/Machine/TileRows.lean ====
section
/-! DEFINITION. Taking a tile out of service and back (R137, R162), the transaction timeout (R445, R345), and the marks of
FAULT_MARK (R447, R452). -/

namespace Sys2Proof.Machine

/-! ### Tiles -/

/-- The contexts of a tile as places. -/
def State.ctxsOf (s : State) (l : Nat) : List At := (tkeys (s.tile l).ctxs).map (fun n => ⟨l, n⟩)

/-- A clause placed on a tile and not yet started leaves it; one that has no other context returns to the Parser and waits
to be placed (R137, R261). -/
def State.returnClause (s : State) (l : Nat) (c : At) : State :=
  match s.ctx c with
  | none => s
  | some x =>
    match s.clauseAt x.clause with
    | none => s
    | some k =>
      if k.timed ∨ k.ending.isSome then s
      else
        let left := k.placed.filter (fun p => p.tile != l)
        let s := s.endCtx c
        let s := s.modClause x.clause (fun k =>
          { k with placed := left, stage := if left = [] then .waiting else k.stage })
        if left = [] then { s with work := { s.work with waitTile := s.work.waitTile ++ [x.clause] } } else s

/-- A write of 0 to TILE_CTL.ENABLE (R137). -/
def State.tileDown (s : State) (n : Nat) : State :=
  match s.logical n with
  | none => s
  | some l =>
    let s := s.set (R.TILE_CTL_ENABLE n) 0
    if s.get (R.TILE_STAT_STATE n) = 0 then
      ((s.ctxsOf l).foldl (fun s c => s.returnClause l c) (s.set (R.TILE_STAT_STATE n) 1)).restTile l
    else s

/-- A write of 1 to TILE_CTL.ENABLE (R137): only a DISABLED tile returns. -/
def State.tileUp (s : State) (n : Nat) : State :=
  match s.logical n with
  | none => s
  | some _ =>
    if s.get (R.TILE_STAT_STATE n) = 2 then
      (s.set (R.TILE_CTL_ENABLE n) 1).set (R.TILE_STAT_STATE n) 0
    else s.set (R.TILE_STAT_REFUSED n) 1

/-- TILE_CTL.ENABLE written; a fused tile ignores it (R115). -/
def State.enableTile (s : State) (n : Nat) (on : Bool) : State := if on then s.tileUp n else s.tileDown n

/-- TILE_DISABLE (R137). -/
def execTileDisable (phys : Nat) (s : State) : Host.Outcome State Fault Refusal :=
  settled (s.whenLive (fun s => s.enableTile phys false))

/-- TILE_ENABLE (R137). -/
def execTileEnable (phys : Nat) (s : State) : Host.Outcome State Fault Refusal :=
  settled (s.whenLive (fun s => s.enableTile phys true))

/-- The drain timeout of a tile: each remaining context ends its clause with ERR_ABORTED (R137, R162). -/
def State.tileExpired (s : State) (n : Nat) : State :=
  match s.logical n with
  | none => s
  | some l =>
    if s.get (R.TILE_STAT_STATE n) ≠ 1 then s
    else
      let ids := (s.tile l).ctxs.map (fun (x : Nat × Ctx) => x.2.clause)
      let s := ids.foldl (fun s id => s.abortClause id) s
      ((s.ctxsOf l).foldl (fun s c => s.endCtx c) s).restTile l

/-- TILE_DRAIN_TIMEOUT (R137, R162, R446). -/
def execTileDrainTimeout (phys : Nat) (s : State) : Host.Outcome State Fault Refusal :=
  settled (s.whenLive (fun s => s.tileExpired phys))

/-! ### The transaction timeout -/

/-- The direct request that an access serves, through the pieces and fills that it waits for. -/
def State.directOf (s : State) (n : Nat) (k : Cont) : Option Nat :=
  match s.rootOf n k with
  | .direct id => some id
  | _ => none

/-- Quarantines the tags whose requests serve a direct request that has ended (R307). -/
def State.quarantineFor (s : State) (id : Nat) : State :=
  { s with fabric := { s.fabric with track := s.fabric.track.map (fun (t : Nat × Track) =>
      (t.1, if s.directOf 64 t.2.cont = some id then { t.2 with quarantined := true } else t.2)) } }

/-- A tracker entry at its transaction timeout (R445); a run-ahead read leaves no trace in the counts and the log (R109, R111). -/
def State.tagExpired (s : State) (tag : Nat) : State :=
  match tget tag s.fabric.track with
  | none => s
  | some t =>
    if t.quarantined then s
    else
      let s := { s with fabric := { s.fabric with track := tset tag { t with quarantined := true } s.fabric.track } }
      (if t.spec then s else (s.count R.FAULT_COUNT_TIMEOUTS).logFault 4 t.dest t.partition (Err.code .timeout)).finish t.cont
        .timeout []

/-- A direct request at its transaction timeout, whether issued or still held (R345). -/
def State.directExpired (s : State) (id : Nat) : State :=
  match tget id s.edge.directs with
  | none => s
  | some d =>
    let s := s.quarantineFor id
    ((s.count R.FAULT_COUNT_TIMEOUTS).logFault 4 d.fpa d.partition (Err.code .timeout)).directDone id .timeout []

/-- TRANSACTION_TIMEOUT (R445, R345). A number below 131,072 is a tracker tag; 131,072 + n names direct request n, which
may hold no tag yet (log entry 34). -/
def execTransactionTimeout (tag : Nat) (s : State) : Host.Outcome State Fault Refusal :=
  settled (s.whenLive (fun s => if tag < 131072 then s.tagExpired tag else s.directExpired (tag - 131072)))

/-! ### FAULT_MARK -/

/-- FAULT_MARK written: OP 0 marks a chip LOST, OP 1 marks it REACHABLE; this chip is never marked (R447, R452, R462). -/
def State.faultMark (s : State) (u : Nat) (back : Bool) : State :=
  if u = s.chip then s else if back then s.markBack u else s.markLost u 2

/-- FAULT_MARK_LOST (R447, R450). -/
def execFaultMarkLost (chip : Nat) (s : State) : Host.Outcome State Fault Refusal :=
  settled (s.whenLive (fun s => s.faultMark (chip % 2 ^ 15) false))

/-- FAULT_MARK_REACHABLE (R447, R452). -/
def execFaultMarkReachable (chip : Nat) (s : State) : Host.Outcome State Fault Refusal :=
  settled (s.whenLive (fun s => s.faultMark (chip % 2 ^ 15) true))

end Sys2Proof.Machine
end

