-- ==== Sys2Proof/Machine/Regs.lean ====
section
/-! DEFINITION. Register access (R378, R463 to R468): what a read of each address returns, what a write does, and the
requests and paths that reach the register space. -/

namespace Sys2Proof.Machine

/-! ### Reading -/

/-- The result registers, by their numbers in `State.latch`. -/
def resultNumber (reg : String) : Option Nat :=
  if reg == "XLAT_PM_PROBE_RES" then some 0 else if reg == "CONJ_GROUP_RES" then some 1
  else if reg == "PARSER_PROBE_RES" then some 2 else if reg == "SEC_VLOG_RES0" then some 3
  else if reg == "SEC_VLOG_RES1" then some 4 else if reg == "FAULT_REACH_RES" then some 5
  else if reg == "FAULT_LOG_RES0" then some 6 else if reg == "FAULT_LOG_RES1" then some 7 else none

/-- Contexts of a physical tile that run clauses, and its stream entries (Table 5-11). -/
def State.tileCount (s : State) (n : Nat) (streams : Bool) : Nat :=
  match s.logical n with
  | some l => if streams then (s.tile l).entries.length else (s.tile l).ctxs.length
  | none => 0

/-- Fields of GLB_STAT (Table 20-3). -/
def State.glbStat (s : State) (field : String) : Option Nat :=
  if field == "CHIP" then some s.chip
  else if field == "PLANES" then some s.lockedCount
  else if field == "FABRIC_READY" then some (b2n s.fabric.fabricReady)
  else if field == "FROZEN" then some (b2n s.frozen.isSome)
  else if field == "BRAKE" then some (s.get R.PWR_STAT_BRAKE)
  else if field == "MODE_PENDING" then some (s.get R.BOOT_STAT_MODE_PENDING)
  else if field == "BOOT_STATE" then some s.bootState
  else none

/-- Fields of the translation registers that count tables (Tables 2-9, 2-13, 3-11, 3-15, 3-16). -/
def State.xlatStat (s : State) (reg field : String) (i : Nat) : Option Nat :=
  if reg == "XLAT_PM_STAT" && field == "USED" then some s.xlat.pageMap.length
  else if reg == "XLAT_WIN_STAT" && field == "USED" then some s.xlat.windows.length
  else if reg == "XLAT_FB_STAT" && field == "RECORDS" then some s.xlat.faults.length
  else if reg == "XLAT_FB_STAT" && field == "OPEN" then some s.xlat.openBatch.length
  else if reg == "XLAT_FB_STAT" && field == "PARKED" then some s.parkedCount
  else if reg == "XLAT_WD_STAT" && field == "PENDING" then some s.xlat.withdrawals.length
  else if reg == "XLAT_TENSE" && field == "OLDEST_AGE" then
    some (((s.liveTenses i).map (fun t => ageOf (s.tense i) t)).foldl Nat.max 0)
  else none

/-- Fields that count or copy other state; the others are kept as they are written. -/
def State.derived (s : State) (reg field : String) (i : Nat) : Option Nat :=
  if reg == "GLB_STAT" then s.glbStat field
  else if reg == "TILE_STAT" && field == "CONTEXTS" then some (s.tileCount i false)
  else if reg == "TILE_STAT" && field == "STREAMS" then some (s.tileCount i true)
  else if reg == "PARSER_STAT" && field == "MIGRATING" then some s.parser.migrations.length
  else if reg == "PARSER_STAT" && field == "SUPPRESSED" then some (s.get R.PWR_STAT_BRAKE)
  else if reg == "PARSER_STAT" && field == "DIR_USED" then some s.dirUsed
  else if reg == "PARSER_REPL" && field == "HELD" then some s.parser.replicas.length
  else if reg == "PTU_STAT" && field == "WAITING" then some (s.ptu i).waiting.length
  else if reg == "PTU_STAT" && field == "ROTATION" then some (b2n (bit (s.get R.CONJ_CTL_ROT_PTU) i))
  else s.xlatStat reg field i

/-- What a field reads as (Table 20-2): a WO field reads 0. -/
def State.fieldValue (s : State) (d : RegDesc) (a i : Nat) (f : FieldDesc) : Nat :=
  if f.acc = .WO then 0
  else ((s.derived d.name f.name i).getD (s.get (f.fld a i))) % 2 ^ (f.hi + 1 - f.lo)

/-- The bits of a register's fields; the others read 0 (R5). -/
def RegDesc.mask (d : RegDesc) : Nat := (d.fields.map (fun f => (2 ^ (f.hi + 1 - f.lo) - 1) * 2 ^ f.lo)).sum

/-- An address of a fused tile's register other than TILE_INFO and TILE_STAT (R115, R464). -/
def State.fusedAt (s : State) (a : Nat) : Bool :=
  decide (0x100000 ≤ a) && decide (a < 0x420000) && bit s.boot.fuses.fused ((a - 0x100000) / 2 ^ 16) &&
    a % 2 ^ 16 != 0 && a % 2 ^ 16 != 0x10

/-- An address of the Lexicon (R138). -/
def lexiconAt (a : Nat) : Bool := decide (0x1000 ≤ a) && decide (a < 0x1800)

/-- An address of the identity copy (R420). -/
def identityAt (a : Nat) : Bool := decide (0x18000 ≤ a) && decide (a < 0x1C000)

/-- Reserved space (R464). -/
def State.reservedAt (s : State) (a : Nat) : Bool :=
  s.fusedAt a || ((regAt a).isNone && !lexiconAt a && !identityAt a)

/-- What a read of an address returns on a path. -/
def State.regValue (s : State) (path : Path) (a : Nat) : Nat :=
  if s.fusedAt a then 0
  else match regAt a with
    | some (d, i, _) =>
      match resultNumber d.name with
      | some n => s.selected path n &&& RegDesc.mask d
      | none => (d.fields.map (fun f => s.fieldValue d a i f * 2 ^ f.lo)).sum
    | none =>
      if lexiconAt a then lexicon ((a - 0x1000) / 8)
      else if identityAt a then fieldAt s.boot.identity (a - 0x18000) 8
      else 0

/-- A result register of a selector pair. -/
def resultAt (a : Nat) : Bool := (regAt a).elim false (fun r => (resultNumber r.1.name).isSome)

/-- One read: its value, the count of an access to reserved space, and the free values a result register drew. -/
def State.readReg (s : State) (path : Path) (a : Nat) : State × Nat :=
  (if s.reservedAt a then s.reservedAccess a else if resultAt a then s.freshen else s, s.regValue path a)

/-- Reads in ascending order, one at a time (R467). -/
def State.readRegs (s : State) (path : Path) (a : Nat) : Nat → State × List Nat
  | 0 => (s, [])
  | n + 1 =>
    let r := s.readReg path a
    let t := State.readRegs r.1 path (a + 8) n
    (t.1, r.2 :: t.2)

/-! ### Writing -/

/-- Fields whose write is an action that may refuse it: the action itself sets the field. -/
def actionField (reg field : String) : Bool :=
  ((reg == "TILE_CTL" || reg == "EDGE_CTL" || reg == "NELAR_CTL" || reg == "PTU_CTL") && field == "ENABLE") ||
    (reg == "OPT_CTL" && field == "DRAIN") || (reg == "LSM_CTL" && field == "RETIRE")

/-- The action that a write to a register starts. -/
def State.regAction (s : State) (path : Path) (reg : String) (i v : Nat) : State :=
  if reg == "TILE_CTL" then s.enableTile i (bit v 0)
  else if reg == "EDGE_CTL" then s.edgeEnable i (bit v 0)
  else if reg == "NELAR_CTL" then s.writeLink i (bit v 0)
  else if reg == "PTU_CTL" then s.enablePtu i (bit v 0)
  else if reg == "OPT_CTL" then s.writeDrain i (bit v 0)
  else if reg == "LSM_CTL" then (if bit v 0 then s.retire i else s.set (R.LSM_CTL_RETIRE i) 0)
  else if reg == "EDGE_CFG_ADDR" then s.startCfg i v
  else if reg == "FAULT_MARK" then s.faultMark (bits v 14 0) (bit v 16)
  else if reg == "TELE_SNAP" then s.writeSnap v
  else if reg == "TELE_HCFG" then s.emptyHist i
  else if reg == "XLAT_PM_PROBE" then s.probePm path v
  else if reg == "CONJ_GROUP_SEL" then s.latch path 1 v
  else if reg == "PARSER_PROBE" then s.latch path 2 v
  else if reg == "SEC_VLOG_SEL" then s.latch path 3 v
  else if reg == "FAULT_REACH_SEL" then s.latch path 5 v
  else if reg == "FAULT_LOG_SEL" then s.latch path 6 v
  else s

/-- One write: each field by its type, then the action of the register (R465). -/
def State.writeReg (s : State) (path : Path) (a v : Nat) : State :=
  if s.reservedAt a then s.reservedAccess a
  else match regAt a with
    | some (d, i, _) =>
      let plain := { d with fields := d.fields.filter (fun f => !actionField d.name f.name) }
      (s.writeFields plain a i v).regAction path d.name i v
    | none => s

/-- Writes in ascending order, one at a time (R467, R378). -/
def State.writeRegs (s : State) (path : Path) (a : Nat) : List Nat → State
  | [] => s
  | v :: vs => State.writeRegs (s.writeReg path a v) path (a + 8) vs

/-! ### REG_READ, REG_WRITE and a single write -/

/-- The checks of R378. -/
def regErr (addr countM1 : Nat) (reserved : Bool) : Err :=
  firstErr [(reserved || decide (63 < countM1), .format), (addr % 8 != 0, .align),
    (decide (2 ^ 25 < addr + 8 * (countM1 + 1)), .bounds)]

/-- Whether every register from an address on lies in the SEC or the BOOT block (R437). -/
def readableFrozen (addr countM1 : Nat) : Bool :=
  let last := addr + 8 * countM1
  (decide (0x10000 ≤ addr) && decide (last < 0x20000)) || (decide (0x40000 ≤ addr) && decide (last < 0x50000))

/-- A REG_READ that is admitted (R378, R437). -/
def State.serveRead (s : State) (h : Hdr) (addr countM1 : Nat) (reserved : Bool) : State :=
  match regErr addr countM1 reserved with
  | .none =>
    if s.frozen.isSome ∧ !readableFrozen addr countM1 then s.refuse h 1 .disabled
    else
      let r := s.readRegs h.path addr (countM1 + 1)
      r.1.refuseWith h 1 .none (r.2.flatMap (leBytes 8))
  | e => s.refuse h 1 e

/-- REG_READ (R378, R437, R467). -/
def execRegRead (h : Hdr) (addr countM1 : Nat) (reserved : Bool) (s : State) : Host.Outcome State Fault Refusal :=
  ok (s.request h 1 true true (h.length == 16) (fun x => regBody x == (addr, countM1, reserved)) (fun s => s.serveRead h addr countM1 reserved))

/-- REG_WRITE (R378, R414, R465, R467). -/
def execRegWrite (h : Hdr) (addr countM1 : Nat) (values : List Nat) (reserved : Bool) (s : State) :
    Host.Outcome State Fault Refusal :=
  settled (s.request h 2 true true (h.length == 16 + 8 * (countM1 + 1))
      (fun x => regBody x == (addr, countM1, reserved) && regValues x == values) (fun s =>
    match regErr addr countM1 reserved with
    | .none => (s.writeRegs h.path addr (values.take (countM1 + 1))).refuse h 2 .none
    | e => s.refuse h 2 e))

/-- REGISTER_WRITE (R414, R465, R466): one register on one path. -/
def execRegisterWrite (path : Path) (addr value : Nat) (s : State) : Host.Outcome State Fault Refusal :=
  settled (s.whenManaged (fun s => if addr % 8 = 0 ∧ addr < 2 ^ 25 then s.writeReg path addr value else s))

end Sys2Proof.Machine
end

