-- ==== Sys2Proof/Machine/Freeze.lean ====
section
/-! DEFINITION. The freeze image (R438, R439; Tables 18-8, 18-9) and its reading by FREEZE_READ. -/

namespace Sys2Proof.Machine

/-- IMAGE_LEN (R438). -/
def imageLen : Nat := 470286336

/-- The header's first 80 bytes (Table 18-9). -/
def State.freezeHeader (s : State) (f : Frozen) : List Byte :=
  [0x4F#8, 0x4E#8, 0x4D#8, 0x46#8, 0x52#8, 0x5A#8, 0x30#8, 0x31#8] ++
    packBytes [(32, 1), (15, s.chip), (17, 0), (64, s.get R.SEC_SERIAL_SERIAL), (8, s.get R.SEC_STAT_DEBUG), (56, 0),
      (64, f.tick), (64, imageLen)] ++
    (List.range 8).flatMap (fun i => leBytes 4 ((f.stopCycles[i]?).getD 0))

/-- Table 2-7, a page-map entry as 128 bits; DIR_INDEX is reserved off the home chip. -/
def pmEntryNat (chip : Nat) (e : PmEntry) : Nat :=
  packNat [(16, if e.chip = chip then e.dirIndex else 0), (4, 0), (2, e.prefer), (8, e.installTense), (1, b2n e.pinNear),
    (1, b2n e.pinFar), (1, b2n e.pinHome), (1, b2n e.noReplica), (1, b2n e.staleOk), (3, e.perm), (22, e.frame), (6, e.unit),
    (15, e.chip), (31, e.page), (12, e.partition), (1, b2n e.replicated), (1, b2n e.migrating), (1, b2n e.poison), (1, 1)]

/-- Table 2-6, a window-table entry as 512 bits. -/
def winEntryNat (e : WinEntry) : Nat :=
  packNat ([(1, b2n e.valid), (3, e.perm), (1, b2n e.replicable), (1, b2n e.sideEffect), (1, b2n e.altSide), (1, 0),
    (12, e.partition), (4, 0), (5, e.suLog2), (3, 0), (4, e.members.length - 1), (4, 0), (24, 0), (45, e.length), (19, 0),
    (43, e.devBase), (21, 0)] ++ e.members.map (fun m => (20, m.1 % 2 ^ 15 + 2 ^ 15 * (m.2 % 16))))

/-- A register of the REGS section: as it stood at the freeze. A result register has one value for each path; the image's is
free (log entry 39). -/
def State.frozenReg (s : State) (f : Frozen) (off a : Nat) : Nat :=
  match regAt a with
  | some (d, _, _) =>
    if (resultNumber d.name).isSome then Config.freezeWord f.number off &&& RegDesc.mask d else { s with regs := f.regs }.regValue .jtag a
  | none => s.regValue .jtag a

/-- A word of a data section: 0 in LOCKED (Table 16-9). -/
def State.dataWord (s : State) (f : Frozen) (off : Nat) : Nat :=
  if s.get R.SEC_STAT_DEBUG = 0 then 0
  else if 0x15000000 ≤ off ∧ off < 0x1B400000 then
    let o := off - 0x15000000
    match s.logical (o / 2 ^ 21) with
    | some l => leNat (memRead (s.tile l).store (o % 2 ^ 21) 8)
    | none => 0
  else if 0x1B400000 ≤ off ∧ bit s.boot.fuses.fused ((off - 0x1B400000) / 2 ^ 18) then 0
  else Config.freezeWord f.number off % 2 ^ 64

/-- The 8 bytes of the image at an offset, a multiple of 8 (Table 18-8); what its layout leaves open is free. -/
def State.imageWord (s : State) (f : Frozen) (off : Nat) : Nat :=
  if off < 0x1000 then fieldAt (s.freezeHeader f) off 8
  else if 0x100000 ≤ off ∧ off < 0x2100000 then s.frozenReg f off (off - 0x100000)
  else if 0x2100000 ≤ off ∧ off < 0x6100000 then
    let o := off - 0x2100000
    bits (((tget (o / 16) s.xlat.pageMap).map (pmEntryNat s.chip)).getD 0) (8 * (o % 16) + 63) (8 * (o % 16))
  else if 0x6100000 ≤ off ∧ off < 0x6500000 then
    let o := off - 0x6100000
    bits (((tget (o / 64) s.xlat.windows).map winEntryNat).getD 0) (8 * (o % 64) + 63) (8 * (o % 64))
  else if 0x8000000 ≤ off then s.dataWord f off
  else Config.freezeWord f.number off % 2 ^ 64

/-- Words of the image from an offset up. -/
def State.imageWords (s : State) (f : Frozen) (off n : Nat) : List Byte :=
  (List.range n).flatMap (fun i => leBytes 8 (s.imageWord f (off + 8 * i)))

/-- The checks of R6, R437 and R439, in that order (R372). -/
def State.freezeErr (s : State) (offset length : Nat) (reserved : Bool) : Err :=
  firstErr [
    (reserved || offset % 8 != 0 || length % 8 != 0 || decide (length < 8) || decide (16376 < length), .format),
    (s.frozen.isNone, .disabled),
    (decide (imageLen < offset + length), .bounds)]

/-- FREEZE_READ (R437 to R439). -/
def execFreezeRead (h : Hdr) (offset length : Nat) (reserved : Bool) (s : State) : Host.Outcome State Fault Refusal :=
  ok (s.request h 0x52 false true (h.length == 16) (fun b => freezeReadOf b == (offset, length, reserved)) (fun s =>
    match s.freezeErr offset length reserved, s.frozen with
    | .none, some f => s.refuseWith h 0x52 .none (s.imageWords f offset (length / 8))
    | e, _ => s.refuse h 0x52 e))

end Sys2Proof.Machine
end

