-- ==== Sys2Proof/Machine/HomeRows.lean ====
section
/-! DEFINITION. Requests that reach a local unit of this chip, and responses to its own (chapters 4, 5, 7, 10, 12). -/

namespace Sys2Proof.Machine

/-- Answers a request frame. -/
def State.answerReq (s : State) (r : HomeReq) (op : Nat) (e : Err) (payload : List Byte) : State :=
  s.sendResponse r.src r.tag r.partition r.tense op e (fpaUnit r.dest) payload r.spec

/-- R291 and Table 16-4: a request that names a DISABLED partition is refused and logged, one of a DRAINING partition gets
ERR_DISABLED. A request whose DEST names another chip is delivered to no unit of this one (R20). -/
def State.unitRequest (s : State) (r : HomeReq) (op : Nat) (f : State → State) : State :=
  s.whenLive (fun s =>
    if fpaChip r.dest ≠ s.chip then s
    else match s.partErr r.partition with
    | .none => f s
    | .partition => (s.violate 1 (some r.partition) r.dest .partition r.port).answerReq r op .partition []
    | e => s.answerReq r op e [])

/-- A data request at its home; a unit that holds no bytes answers ERR_FORMAT. Ordered frames of a chip are performed in the order
in which they come (R92, R305). -/
def State.dataRequest (s : State) (r : HomeReq) (op : Nat) (formOk ordered : Bool) (act : HomeAct) : State :=
  s.unitRequest r op (fun s =>
    if 36 ≤ fpaUnit r.dest ∨ !formOk then s.answerReq r op .format []
    else s.atHome { fpa := r.dest, partition := r.partition, act := act, who := .frame r.src r.tag r.partition r.tense r.spec,
                    asker := r.src, writer := none, order := if ordered then some (2 ^ 20 + r.src) else none, whole := false })

/-- RD (R291). -/
def execRd (r : HomeReq) (len : Nat) (s : State) : Host.Outcome State Fault Refusal :=
  settled (s.dataRequest r 8 (decide (len ≤ 4096)) false (.read len))

/-- WR (R291): an ordered one is performed after the earlier ones of its chip (R92, R305). -/
def execWr (r : HomeReq) (data : List Byte) (ordered : Bool) (s : State) : Host.Outcome State Fault Refusal :=
  settled (s.dataRequest r 9 (decide (data.length ≤ 4096)) ordered (.write data))

/-- A counter request from another chip: 8 B, aligned, owned by the partition (R136, R183). -/
def State.counterRequest (s : State) (r : HomeReq) (op : Nat) (aligned : Bool) (f : Nat → State → State × Nat) : State :=
  if !aligned then s.answerReq r op .align []
  else if !s.ownsCounter r.partition (fpaOff r.dest / 8) then
    (s.violate 4 (some r.partition) r.dest .partition r.port).answerReq r op .partition []
  else
    match f (fpaOff r.dest / 8) s with
    | (s, old) => s.answerReq r op .none (leBytes 8 old)

/-- ATOMIC (R134 to R136): at a home agent, or at the counters of unit 49. -/
def execAtomic (r : HomeReq) (op width operand compare : Nat) (s : State) : Host.Outcome State Fault Refusal :=
  settled (if fpaUnit r.dest = 49 then
      s.unitRequest r 0xa (fun s =>
        if width ≠ 8 ∨ !atomicWidth op 8 then s.answerReq r 0xa .format []
        else s.counterRequest r 0xa (decide (fpaOff r.dest % 8 = 0)) (fun n s =>
          (s.putCounter n (atomicNew op 8 operand compare (s.counter n)), s.counter n)))
    else s.dataRequest r 0xa true true (.atomic op width operand compare))

/-- The tile whose own write an INVAL names, by the tag of that write's request (R128, log entry 118). -/
def State.writerTile (s : State) (tag : Nat) : Option Nat :=
  match tget tag s.fabric.track with
  | some t => match s.rootOf 8 t.cont with
    | .tile c _ _ => some c.tile
    | _ => none
  | none => none

/-- INVAL (R128): the line, whose home is the chip that sent it, leaves every L1 and stream entry of the chip but the L1 of the
tile that wrote it, fills of it on their way keep no copy, then the acknowledgement goes. -/
def execInval (r : HomeReq) (writer : Option Nat) (s : State) : Host.Outcome State Fault Refusal :=
  settled (s.unitRequest r 0xb (fun s =>
    let l := (r.src * 2 ^ 49 + r.dest % 2 ^ 49) / 128
    ((s.snoopOut [l] (writer.bind s.writerTile)).spoilLines [l] none).answerReq r 0xb .none []))

/-- CTR (R157, R183): load, add, compare-free set on a counter of this chip. -/
def execCtr (r : HomeReq) (op operand _compare : Nat) (s : State) : Host.Outcome State Fault Refusal :=
  settled (s.unitRequest r 0xc (fun s =>
    if fpaUnit r.dest ≠ 49 ∨ !(op == 0 || op == 1 || op == 3) then s.answerReq r 0xc .format []
    else s.counterRequest r 0xc (decide (fpaOff r.dest % 8 = 0)) (fun n s => s.counterOp n op operand)))

/-- CLAUSE (R260): a clause of another chip, with its extents; ERR_DISABLED when no tile takes clauses. -/
def execClause (r : HomeReq) (descriptor : List Byte) (extents : List (Nat × Nat × Nat)) (s : State) :
    Host.Outcome State Fault Refusal :=
  settled (s.unitRequest r 0xe (fun s =>
    if fpaUnit r.dest ≠ 50 then s.answerReq r 0xe .format []
    else if !s.anyTile then s.answerReq r 0xe .disabled []
    else
      let d := descriptor.take (descLen descriptor)
      let extra := descriptor.drop (descLen descriptor)
      let k : Clause :=
        { queue := 2 ^ 16, partition := r.partition, origin := some (r.src, r.tag), seq := 0, desc := d, extra := extra,
          tense := r.tense, extents := extents.map (fun e =>
            { fva := e.1, len := e.2.1 % 2 ^ 63, fpa := e.2.2, side := decide (2 ^ 63 ≤ e.2.1) }),
          leadLen := leadLen d extra (s.roleFor d (2 ^ 16)), stage := .waiting, untriggered := false, met := false,
          lacking := [], waitsOn := [], parkTick := 0, segment := 0, clear := 0, issued := 0, timed := false, placed := [], ptu := none,
          flying := [], failed := [], counted := [], chunks := 0, arriving := 0, arriveErr := .none, indices := [],
          ending := none, cancelled := false, inst := 0, tick := s.tick }
      let k := { k with clear := s.clearSegs k }
      { s with work := { s.work with clauses := tset s.work.nextClause k s.work.clauses,
                                     nextClause := s.work.nextClause + 1 } }))

/-- A response completes the request of its tag (R307). -/
def State.response (s : State) (r : Resp) (op : Nat) (data : List Byte) : State :=
  s.whenLive (fun s =>
    match tget r.tag s.fabric.track with
    | some t => if t.opcode + 7 = op ∧ r.status = .unreachable then (s.respond r op data).relayedLoss (fpaChip t.dest) r.src
                else s.respond r op data
    | none => s.respond r op data)

/-- RD_RESP (R255); `once` as the frame marks it (R127). -/
def execRdResp (r : Resp) (data : List Byte) (once : Bool) (s : State) : Host.Outcome State Fault Refusal :=
  settled (((if once then s.onceFill r.tag else s)).response r 8 data)

/-- WR_RESP (R156). -/
def execWrResp (r : Resp) (s : State) : Host.Outcome State Fault Refusal := settled (s.response r 9 [])

/-- ATOMIC_RESP (R105). -/
def execAtomicResp (r : Resp) (old : Nat) (s : State) : Host.Outcome State Fault Refusal :=
  settled (s.response r 0xa (leBytes 16 old))

/-- INVAL_ACK (R128). -/
def execInvalAck (r : Resp) (s : State) : Host.Outcome State Fault Refusal := settled (s.response r 0xb [])

/-- CTR_RESP (R159). -/
def execCtrResp (r : Resp) (old : Nat) (s : State) : Host.Outcome State Fault Refusal :=
  settled (s.response r 0xc (leBytes 8 old))

/-- CLAUSE_DONE (R55, R260; log entry 30). -/
def execClauseDone (r : Resp) (chunks segment addr : Nat) (s : State) : Host.Outcome State Fault Refusal :=
  settled (s.response r 0xe (packBytes [(32, chunks), (32, segment), (64, addr), (8, 0), (24, 0), (32, 0)]))

end Sys2Proof.Machine
end

