-- ==== Sys2Proof/Machine/Maps.lean ====
section
/-! DEFINITION. Map and window requests of the runtime (R38, R39, R65 to R82, R379): install, withdraw, reject, and the
events that end them. -/

namespace Sys2Proof.Machine

/-! ### MAP_INSTALL -/

/-- MAP_INSTALL (R79). -/
def execMapInstall (h : Hdr) (b : MapInstall) (s : State) : Host.Outcome State Fault Refusal :=
  settled (s.request h 0x20 true false (h.length == 16) (fun x => mapInstallOf x == b) (fun s =>
    if mapFormat b then s.answerInstall h.path h.reqId .format 0 else s.tryInstall b h.path h.reqId))

/-- ZERO_FILL_DONE (R357, R75). -/
def execZeroFillDone (frameFpa : Nat) (s : State) : Host.Outcome State Fault Refusal :=
  settled (s.whenLive (fun s => s.filled frameFpa))

/-! ### Withdrawals -/

/-- A withdrawal's response: NEW_TENSE and MAPPED_COUNT (Table 3-9); NEW_TENSE of a refusal is free (log entry 36). -/
def State.answerWithdraw (s : State) (h : Hdr) (code : Nat) (e : Err) (tense mapped : Nat) : State :=
  (s.refuseWith h code e (packBytes [(8, if e = .none then tense else s.free 0), (16, mapped), (40, 0)])).freshen

/-- The tense advances and the withdrawal opens with its hold set; the response goes out (R63, R66, Table 3-1). -/
def State.acceptWithdrawal (s : State) (h : Hdr) (code p : Nat) (window : Option Nat) (abort : Bool) (entries : List WdEntry)
    (hold : List Holder) : State :=
  let s := (s.wrap (R.XLAT_TENSE_TENSE p)).wrap (R.XLAT_TENSE_PENDING_WD p)
  let s := s.answerWithdraw h code .none (s.tense p) (entries.countP (fun e => e.mapped))
  s.openWithdrawal { id := h.reqId, partition := p, window := window, tense := s.tense p, entries := entries, hold := hold,
                     abort := abort, aborted := 0, tick := s.tick }

/-- R64 refuses: counted. -/
def State.refuseBusy (s : State) (h : Hdr) (code : Nat) : State :=
  (s.count R.XLAT_WD_STAT_REFUSED).answerWithdraw h code .resource 0 0

/-- Every page of a range leaves translation (R65): the state, the entries and the replicas to wait for. -/
def State.withdrawRange (s : State) (p first : Nat) : Nat → State × List WdEntry × List Holder
  | 0 => (s, [], [])
  | n + 1 =>
    let (s, es, hs) := State.withdrawRange s p first n
    let (s, e, h) := s.withdrawPage p (first + n)
    (s, es ++ [e], hs ++ h)

/-- The format check of R80. -/
def withdrawFormat (b : MapWithdraw) : Bool :=
  b.reserved || bit (b.firstPage + b.countM1) 30 || decide (2 ^ 31 - 1 < b.firstPage + b.countM1)

/-- A MAP_WITHDRAW that passes its checks (R65, R66). -/
def State.mapWithdraw (s : State) (h : Hdr) (b : MapWithdraw) : State :=
  let r := s.withdrawRange b.partition b.firstPage (b.countM1 + 1)
  let lo := b.firstPage * 2 ^ 21
  r.1.acceptWithdrawal h 0x21 b.partition none b.abort r.2.1
    (s.holders b.partition lo (lo + (b.countM1 + 1) * 2 ^ 21) ++ r.2.2)

/-- MAP_WITHDRAW (R65, R80). -/
def execMapWithdraw (h : Hdr) (b : MapWithdraw) (s : State) : Host.Outcome State Fault Refusal :=
  settled (s.request h 0x21 true false (h.length == 16) (fun x => mapWithdrawOf x == b) (fun s =>
    if withdrawFormat b then s.answerWithdraw h 0x21 .format 0 0
    else if s.partErr b.partition = .partition then s.answerWithdraw h 0x21 .partition 0 0
    else if s.withdrawBusy b.partition then s.refuseBusy h 0x21
    else s.mapWithdraw h b))

/-- Whether a new message may be formed now (R377). -/
def State.canSend (s : State) : Bool := s.linkState 0 == 4 || s.linkState 1 == 4 || !s.storeFull

/-- WITHDRAWAL_ACKED (R66, Table 3-1): once the hold set is empty, and the notice store has room. -/
def execWithdrawalAcked (withdrawId : Nat) (s : State) : Host.Outcome State Fault Refusal :=
  settled (s.whenLive (fun s =>
    match s.xlat.withdrawals.find? (fun w => w.id == withdrawId) with
    | some w => if w.hold.any s.holding ∨ !s.canSend then s else s.ackWithdrawal w
    | none => s))

/-! ### FAULT_REJECT -/

/-- The lowest FVA that a clause's parked segment touches within a page; a free value where it touches none (log entry 37). -/
def State.lowestIn (s : State) (k : Clause) (page : Nat) : Nat :=
  match ((s.segTouch k k.segment).filterMap (fun r =>
      let a := Nat.max r.fva (page * 2 ^ 21)
      if a < r.fva + r.len ∧ a < (page + 1) * 2 ^ 21 then some a else none)).min? with
  | some a => a
  | none => s.free 0 % 2 ^ 52

/-- A pending record resolved by rejection: the clauses parked on it end (R23, R75). -/
def State.rejectFault (s : State) (h : Hdr) (p page : Nat) : State :=
  let ids := match s.pendingFault p page with
    | some f => (s.work.clauses.filter (fun (c : Nat × Clause) => c.2.stage == Stage.parked && c.2.ending.isNone &&
        c.2.waitsOn.contains f.serial)).map (fun (c : Nat × Clause) => c.1)
    | none => []
  let s := ids.foldl (fun (s : State) id => match s.clauseAt id with
    | some k => s.endClause id (ending .unmapped k.segment (s.lowestIn k page))
    | none => s) s
  ((s.resolveFault p page).freshen).refuseWith h 0x22 .none (packBytes [(14, ids.length), (50, 0)])

/-- FAULT_REJECT (R75, R82). -/
def execFaultReject (h : Hdr) (partition page : Nat) (reserved : Bool) (s : State) : Host.Outcome State Fault Refusal :=
  settled (s.request h 0x22 true false (h.length == 8) (fun x => faultRejectOf x == (partition, page, reserved)) (fun s =>
    let no := fun (e : Err) => s.refuseWith h 0x22 e (leBytes 8 0)
    if reserved then no .format
    else if s.partErr partition = .partition then no .partition
    else s.rejectFault h partition page))

/-! ### Windows -/

/-- The ERR_FORMAT cases of R38. -/
def winFormat (e : WinEntry) : Bool :=
  let n := e.members.length
  !e.valid || decide (e.suLog2 < 12) || decide (30 < e.suLog2) || e.length == 0 || decide (2 ^ 44 < e.length) ||
    e.length % (n * 2 ^ e.suLog2) != 0 || e.devBase % 2 ^ e.suLog2 != 0 || decide (2 ^ 43 < e.devBase + e.length / n) ||
    decide (¬ e.members.Nodup) || (e.altSide && e.members.any (fun m => m.1 % 2 == 1))

/-- The window-table entry of a slot. -/
def State.winIndex (s : State) (p slot : Nat) : Nat := s.get (R.PART_WINDOWS_WIN_FIRST p) + slot

/-- Whether a WIN_REMOVE of an entry waits for its WITHDRAW_ACK (R38). -/
def State.winRemoving (s : State) (i : Nat) : Bool :=
  s.xlat.winWithdrawing.contains i || s.xlat.withdrawals.any (fun w => w.window == some i)

/-- The checks of R379 for WIN_INSTALL, in order. -/
def State.winInstallErr (s : State) (p slot : Nat) (abort : Bool) (e : WinEntry) (reserved : Bool) : Err :=
  if reserved ∨ abort ∨ e.reserved ∨ winFormat e then .format
  else match s.partErr p with
    | .none =>
      if s.get (R.PART_WINDOWS_WIN_COUNT p) ≤ slot then .bounds
      else if e.partition ≠ p then .partition
      else if s.winRemoving (s.winIndex p slot) then .resource
      else match tget (s.winIndex p slot) s.xlat.windows with
        | some x => if x = e then .none else .resource
        | none => .none
    | x => x

/-- WIN_INSTALL (R38, R379); an identical entry is written over itself. -/
def execWinInstall (h : Hdr) (partition slot : Nat) (abort : Bool) (entry : WinEntry) (reserved : Bool) (s : State) :
    Host.Outcome State Fault Refusal :=
  settled (s.request h 0x23 true false (h.length == 72)
      (fun x => winBody x == (partition, slot, abort, reserved) && winEntryOf (x.drop 8) == entry) (fun s =>
    let e := s.winInstallErr partition slot abort entry reserved
    let s := if e = .none then
        { s with xlat := { s.xlat with windows := tset (s.winIndex partition slot) entry s.xlat.windows } }
      else s
    s.refuse h 0x23 e))

/-- A WIN_REMOVE that passes its checks (R39, R66, R257). -/
def State.winRemove (s : State) (h : Hdr) (p slot : Nat) (abort : Bool) : State :=
  let i := s.winIndex p slot
  let lo := 2 ^ 51 + slot * 2 ^ 44
  let own := s.holders p lo (lo + 2 ^ 44)
  match tget i s.xlat.windows with
  | none =>
    s.acceptWithdrawal h 0x24 p (some i) abort [{ page := 0, mapped := false, frameFpa := 0, poisoned := false, dirIndex := 0 }] own
  | some e =>
    let keys := if e.replicable then s.windowRegions e else []
    let reps := keys.flatMap (fun k => match s.parser.dir.find? (fun (d : Nat × DirRec) => d.2.frame == k) with
      | some (_, d) => (d.replicas ++ d.placing).dedup.map (Holder.replica k)
      | none => [])
    let s := keys.foldl State.dropReplicas s
    let s := { s with xlat := { s.xlat with windows := terase i s.xlat.windows, winWithdrawing := i :: s.xlat.winWithdrawing } }
    s.acceptWithdrawal h 0x24 p (some i) abort [{ page := 0, mapped := true, frameFpa := 0, poisoned := false, dirIndex := 0 }]
      (own ++ reps)

/-- WIN_REMOVE (R39, R379). -/
def execWinRemove (h : Hdr) (partition slot : Nat) (abort reserved : Bool) (s : State) : Host.Outcome State Fault Refusal :=
  settled (s.request h 0x24 true false (h.length == 8) (fun x => winBody x == (partition, slot, abort, reserved)) (fun s =>
    if reserved then s.answerWithdraw h 0x24 .format 0 0
    else if s.partErr partition = .partition then s.answerWithdraw h 0x24 .partition 0 0
    else if s.get (R.PART_WINDOWS_WIN_COUNT partition) ≤ slot then s.answerWithdraw h 0x24 .bounds 0 0
    else if s.withdrawBusy partition then s.refuseBusy h 0x24
    else s.winRemove h partition slot abort))

end Sys2Proof.Machine
end

