-- ==== Sys2Proof/Machine/Mgmt.lean ====
section
/-! DEFINITION. The management ports, SMBus and JTAG (R470, R471, R485; Table 21-6). -/

namespace Sys2Proof.Machine

/-! ### Management ports -/

/-- An IPv4 address from its octets. -/
def ipOf (a b c d : Nat) : Nat := a * 2 ^ 24 + b * 2 ^ 16 + c * 2 ^ 8 + d

/-- The port's own address (R470). -/
def State.ownIp (s : State) (p : Nat) : Nat :=
  let ip := s.get (R.GLB_MGMT_ADDR_OWN_IP p)
  let n := s.get R.SEC_SERIAL_SERIAL
  if ip = 0 then ipOf 169 254 (1 + bits n 15 8 % 254) (1 + bits n 7 0 % 254) else ip

/-- The port's MAC address: 02-0p, then SERIAL bits [31:0]. -/
def State.ownMac (s : State) (p : Nat) : Nat := 0x02 * 2 ^ 40 + p * 2 ^ 32 + s.get R.SEC_SERIAL_SERIAL % 2 ^ 32

/-- Whether a port answers. -/
def State.portUp (s : State) (p : Nat) : Bool := s.pathUp (if p = 0 then .mgmt0 else .mgmt1)

/-- A dropped datagram is counted. -/
def State.dropDatagram (s : State) (p : Nat) : State :=
  s.count (if p = 0 then R.GLB_MGMT_STAT_DROP_0 else R.GLB_MGMT_STAT_DROP_1)

/-- The source of the request that a port carried last. -/
def State.setRequester (s : State) (p : Nat) (src : Option (Nat × Nat)) : State :=
  { s with nelar := if p = 0 then { s.nelar with mgmt0 := src } else { s.nelar with mgmt1 := src } }

/-- A whole datagram: one message, answered to its source; a request that takes no part in R374 is not one accepted. -/
def State.takeDatagram (s : State) (p srcIp srcPort : Nat) (payload : List Byte) : State :=
  let path : Path := if p = 0 then .mgmt0 else .mgmt1
  if payload.length ≠ 16 + fieldAt payload 8 2 then s.dropDatagram p
  else
    let before := s.requester p
    let t := (s.setRequester p (some (srcIp, srcPort))).takeMessage path payload
    let h := headerOf path payload
    if h.chip = s.chip ∧ !h.resp ∧ (tget h.reqId t.nelar.requests).isSome then t else t.setRequester p before

/-- Whether fragments cover a payload from its start without a gap: the end they reach. -/
def fragEnd : Nat → Tbl (List Byte) → Nat
  | n, [] => n
  | n, (off, bs) :: r => if off ≤ n then fragEnd (Nat.max n (off + bs.length)) r else n

/-- The payload that fragments give. -/
def fragBytes (parts : Tbl (List Byte)) : List Byte :=
  parts.foldl (fun acc (x : Nat × List Byte) => acc.take x.1 ++ x.2 ++ acc.drop (x.1 + x.2.length)) []

/-- Whether a reassembly is the one of a port, a source and an identification. -/
def Reassembly.is (r : Reassembly) (port srcIp ident : Nat) : Bool := r.port == port && r.srcIp == srcIp && r.ident == ident

def State.eraseReassembly (s : State) (port srcIp ident : Nat) : State :=
  { s with nelar := { s.nelar with reassemblies := s.nelar.reassemblies.filter (fun r => !r.is port srcIp ident) } }

/-- A fragment (ident, offset in the payload, more follow) joins its reassembly; a whole payload is taken (R470). -/
def State.takeFragment (s : State) (p srcIp srcPort dstPort : Nat) (payload : List Byte) (ident off : Nat) (more : Bool) :
    State :=
  let old := s.nelar.reassemblies.find? (fun r => r.is p srcIp ident)
  if old.isNone ∧ 8 ≤ s.nelar.reassemblies.countP (fun r => r.port == p) then s.dropDatagram p
  else
    let r : Reassembly := old.getD { port := p, ident := ident, srcIp := srcIp, srcPort := srcPort, dstPort := dstPort, parts := [],
                                     total := none }
    let total := if more then r.total else some (off + payload.length)
    let parts := tset off payload r.parts
    let s := s.eraseReassembly p srcIp ident
    if 16400 < off + payload.length then s.dropDatagram p
    else if total = some (fragEnd 0 parts) then s.takeDatagram p r.srcIp r.srcPort (fragBytes parts)
    else { s with nelar := { s.nelar with reassemblies := s.nelar.reassemblies ++ [{ r with parts := parts, total := total }] } }

/-- A datagram to the port's own address and UDP_PORT (R470). -/
def State.takeUdp (s : State) (p srcIp srcPort dstIp dstPort : Nat) (payload : List Byte)
    (fragment : Option (Nat × Nat × Bool)) : State :=
  if !s.portUp p ∨ dstIp ≠ s.ownIp p ∨ dstPort ≠ s.get R.GLB_MGMT_CTL_UDP_PORT then s
  else match fragment with
    | none => s.takeDatagram p srcIp srcPort payload
    | some (ident, off, more) => s.takeFragment p srcIp srcPort dstPort payload ident off more

/-- UDP_DATAGRAM (R470). -/
def execUdpDatagram (port srcIp srcPort dstIp dstPort : Nat) (payload : List Byte) (fragment : Option (Nat × Nat × Bool))
    (s : State) : Host.Outcome State Fault Refusal :=
  ok (if port < 2 then s.takeUdp port srcIp srcPort dstIp dstPort payload fragment else s)

/-- ARP_REQUEST (R470). -/
def execArpRequest (port targetIp senderIp senderMac : Nat) (s : State) : Host.Outcome State Fault Refusal :=
  ok (if port < 2 ∧ s.portUp port ∧ targetIp = s.ownIp port then
      s.emit (.arpReply port senderIp senderMac (s.ownIp port) (s.ownMac port))
    else s)

/-- REASSEMBLY_TIMEOUT (R470). -/
def execReassemblyTimeout (port srcIp ident : Nat) (s : State) : Host.Outcome State Fault Refusal :=
  ok (if s.manageable ∧ s.nelar.reassemblies.any (fun r => r.is port srcIp ident) then
      (s.eraseReassembly port srcIp ident).dropDatagram port
    else s)

/-! ### SMBus -/

/-- Whether the interface answers at an address: 0x58 + POS_X[0] (R471). -/
def State.smbusHere (s : State) (address : Nat) : Bool := s.manageable && address == 0x58 + s.boot.straps.posX % 2

/-- A transaction that gets a NACK. -/
def smbusBad (pecOk : Bool) (addr : Nat) : Bool := !pecOk || addr % 8 != 0 || decide (2 ^ 25 ≤ addr)

/-- SMBUS_REGISTER_WRITE (R471, R437). -/
def execSmbusRegisterWrite (address : Nat) (pecOk : Bool) (addr value : Nat) (s : State) : Host.Outcome State Fault Refusal :=
  settled (if !s.smbusHere address then s
    else if smbusBad pecOk addr ∨ s.frozen.isSome then s.emit (.smbus none)
    else s.writeReg .smbus addr value)

/-- SMBUS_REGISTER_READ (R471, R437). -/
def execSmbusRegisterRead (address : Nat) (pecOk : Bool) (addr : Nat) (s : State) : Host.Outcome State Fault Refusal :=
  ok (if !s.smbusHere address then s
    else if smbusBad pecOk addr ∨ (s.frozen.isSome ∧ !readableFrozen addr 0) then s.emit (.smbus none)
    else
      let r := s.readReg .smbus addr
      r.1.emit (.smbus (some r.2)))

/-! ### JTAG -/

/-- Whether the test access port works: out of reset and of emergency off (R454, R479). -/
def State.tapUp (s : State) : Bool := s.boot.porN && !s.boot.epo

/-- A JTAG instruction loaded. -/
def State.loadIr (s : State) (code : Nat) : State := { s with nelar := { s.nelar with jtagIr := code } }

/-- Runs a JTAG row. -/
def State.tap (s : State) (f : State → State) : State := if s.tapUp then f s else s

/-- BYPASS: the 1-bit register passes TDI. -/
def State.bypassBit (s : State) (tdi : Nat) : State := (s.loadIr 0xFF).emit (.jtag tdi)

/-- EXTEST (R485): only in BOOT_FAIL; BYPASS otherwise. -/
def execExtest (cells : Nat) (s : State) : Host.Outcome State Fault Refusal :=
  ok (s.tap (fun s =>
    if s.bootState = 4 then { s.loadIr 0 with nelar := { (s.loadIr 0).nelar with boundary := cells } }
    else s.bypassBit (cells % 2)))

/-- SAMPLE (R485): the boundary cells take what the pins hold, which shifts out. -/
def execSample (pins : Nat) (s : State) : Host.Outcome State Fault Refusal :=
  ok (s.tap (fun s =>
    let s := s.loadIr 1
    { s with nelar := { s.nelar with boundary := pins } }.emit (.jtag pins)))

/-- IDCODE (R485). -/
def execIdcode (s : State) : Host.Outcome State Fault Refusal := ok (s.tap (fun s => (s.loadIr 2).emit (.jtag 0x1530749B)))

/-- Whether a register access by JTAG sets ERR (R485, R437). -/
def State.jtagErr (s : State) (addr : Nat) (write : Bool) : Bool :=
  s.get R.SEC_STAT_DEBUG == 0 || addr % 8 != 0 || decide (2 ^ 25 ≤ addr) ||
    (s.frozen.isSome && (write || !readableFrozen addr 0))

/-- The 98-bit data register: BUSY 0, ERR, ADDR, VALUE. -/
def jtagWord (err : Bool) (addr value : Nat) : Nat := packNat [(64, value), (32, addr), (1, b2n err), (1, 0)]

/-- REGRD (R485): the result that the next Capture-DR returns. -/
def execRegrd (addr : Nat) (s : State) : Host.Outcome State Fault Refusal :=
  ok (s.tap (fun s =>
    let s := s.loadIr 0x10
    if s.jtagErr addr false then (s.emit (.jtag (jtagWord true addr (s.free 0)))).freshen
    else
      let r := s.readReg .jtag addr
      r.1.emit (.jtag (jtagWord false addr r.2))))

/-- REGWR (R485). -/
def execRegwr (addr value : Nat) (s : State) : Host.Outcome State Fault Refusal :=
  settled (s.tap (fun s =>
    let s := s.loadIr 0x11
    if s.jtagErr addr true then s.emit (.jtag (jtagWord true addr value))
    else (s.writeReg .jtag addr value).emit (.jtag (jtagWord false addr value))))

/-- FRZADDR (R485): an offset that is no multiple of 8 sets a free one (log entry 40). -/
def execFrzaddr (offset : Nat) (s : State) : Host.Outcome State Fault Refusal :=
  ok (s.tap (fun s =>
    let o := if offset % 8 = 0 then offset % 2 ^ 63 else 8 * (s.free 0 % 2 ^ 60)
    let s := (s.loadIr 0x20).freshen
    { s with nelar := { s.nelar with frzaddr := o } }.emit (.jtag (packNat [(63, o), (1, b2n s.frozen.isSome)]))))

/-- FRZDATA (R485). -/
def execFrzdata (s : State) : Host.Outcome State Fault Refusal :=
  ok (s.tap (fun s =>
    let o := s.nelar.frzaddr
    let v := match s.frozen with
      | some f => if o < imageLen then s.imageWord f o else 0
      | none => 0
    let s := s.loadIr 0x21
    { s with nelar := { s.nelar with frzaddr := (o + 8) % 2 ^ 63 } }.emit (.jtag v)))

/-- BYPASS (R485). -/
def execBypass (tdi : Bool) (s : State) : Host.Outcome State Fault Refusal := ok (s.tap (fun s => s.bypassBit (b2n tdi)))

end Sys2Proof.Machine
end

