-- ==== Sys2Proof/Machine/Modes.lean ====
section
/-! DEFINITION. Mode changes (R413, R415, R416). -/

namespace Sys2Proof.Machine

/-- Bytes 0 to 63 of a MODE_SELECT body, which SIG signs (Table 17-8). -/
def signedMode (b : ModeSelect) : List Byte :=
  packBytes [(8, b.mode), (1, b2n b.anyChip), (7, 0), (15, b.target), (33, 0), (64, b.seq)] ++ beBytes 48 b.inflDigest

/-- A refusal of MODE_SELECT: its code and cause. -/
def State.modeErr (s : State) (b : ModeSelect) : Option (Err × Nat) :=
  let stem := s.boot.stem.bind Stem.mode
  let allow := (stem.map (fun m => m.1)).getD 0
  let infl := s.inflection b.mode
  if b.reserved then some (.format, 0)
  else if !stem.any (fun m => Config.ecdsaVerify m.2 (signedMode b) b.sig) then some (.permission, 1)
  else if !b.anyChip ∧ b.target ≠ s.chip then some (.permission, 2)
  else if b.mode ≠ 255 ∧ (8 ≤ b.mode ∨ !bit allow b.mode ∨ infl.isNone) then some (.permission, 3)
  else if b.seq ≤ s.get R.BOOT_MODE_SEQ_LAST_SEQ then some (.permission, 4)
  else if b.inflDigest ≠ (if b.mode = 255 then 0 else (infl.map Inflection.digest).getD 0) then some (.integrity, 5)
  else if s.boot.modeChange.isSome then some (.resource, 6)
  else none

/-- The response body: STATUS, 7 reserved bytes, the active MODE, 7 reserved bytes. -/
def State.modeBody (s : State) (e : Err) : List Byte :=
  statusBody e (packBytes [(8, s.get R.BOOT_STAT_MODE), (56, 0)])

/-- Records a cause of refusal; R6 has none. -/
def State.modeCause (s : State) (cause : Nat) : State := if cause = 0 then s else s.set R.BOOT_MODE_CAUSE_LAST_CAUSE cause

/-- A MODE_SELECT that is admitted. -/
def State.selectMode (s : State) (h : Hdr) (b : ModeSelect) : State :=
  match s.modeErr b with
  | some (e, cause) => (s.modeCause cause).answer h.path h.reqId 0x40 (s.modeBody e)
  | none =>
    if b.mode = s.get R.BOOT_STAT_MODE then
      (s.set R.BOOT_MODE_SEQ_LAST_SEQ b.seq).answer h.path h.reqId 0x40 (s.modeBody .none)
    else
      { s with boot := { s.boot with modeChange := some (b.mode, b.seq, h.path, h.reqId) } }.set R.BOOT_STAT_MODE_PENDING 1

/-- MODE_SELECT (R415). -/
def execModeSelect (h : Hdr) (b : ModeSelect) (s : State) : Host.Outcome State Fault Refusal :=
  ok (s.request h 0x40 true true (h.length == 160) (fun x => modeSelectOf x == b) (fun s => s.selectMode h b))

/-- Whether a clause has a segment running; KERNEL contexts and collectives have their own rules. -/
def Clause.segmentRuns (k : Clause) : Bool :=
  k.stage == .running && k.timed && descOp k.desc != 1 && !(decide (0x10 ≤ descOp k.desc) && decide (descOp k.desc < 0x20))

/-- A withdrawal in CANCELLING (Table 3-1): a clause of its hold set has not yet ended. -/
def State.cancelling (s : State) (w : Withdrawal) : Bool :=
  w.abort && w.hold.any (fun x => match x with
    | .clause id => ((s.clauseAt id).map (fun k => k.ending.isNone)).getD false
    | .weight id => (tget id s.security.loads).isSome
    | _ => false)

/-- A drained point (stage 2 of R416); a WEIGHT_LOAD counts as a clause whose segments run (R397). -/
def State.isDrained (s : State) : Bool :=
  !s.work.clauses.any (fun (c : Nat × Clause) => c.2.segmentRuns) &&
    !s.coll.groups.any (fun (g : Nat × Group) => g.2.inst.any (fun i => i.readySent)) &&
    s.security.loads.isEmpty && s.parser.migrations.isEmpty && !s.xlat.withdrawals.any s.cancelling

/-- Entries of an Inflection; none for the Stem alone. -/
def State.modeEntries (s : State) (m : Nat) : List RegEntry := ((s.inflection m).map Inflection.entries).getD []

/-- Fields that entries name return to their Stem values. -/
def State.restoreStem (s : State) (es : List RegEntry) : State :=
  match s.boot.stem with
  | none => s
  | some t => es.foldl (fun (s : State) e => match entryFld e with
    | some f => s.set f (entryValue t.regs f)
    | none => s) s

/-- Live counts of the histograms whose TELE_HCFG entries name are empty (R458). -/
def State.emptyNamed (s : State) (es : List RegEntry) : State :=
  es.foldl (fun (s : State) e =>
    if 0x61000 ≤ e.addr ∧ e.addr < 0x65000 ∧ e.addr % 0x400 = 0 then s.emptyHist ((e.addr - 0x61000) / 0x400) else s) s

/-- R413: from the active mode to another. -/
def State.applyMode (s : State) (m : Nat) : State :=
  let old := s.modeEntries (s.get R.BOOT_STAT_MODE)
  let new := s.modeEntries m
  (((s.restoreStem (old ++ new)).applyEntries new).emptyNamed (old ++ new)).set R.BOOT_STAT_MODE m

/-- The activities of stage 1 resume (R416). -/
def State.endChange (s : State) : State :=
  let s := { s with boot := { s.boot with modeChange := none } }.set R.BOOT_STAT_MODE_PENDING 0
  ((tkeys s.coll.groups).foldl (fun (s : State) g => s.readyOut g) s).pumpMoves

/-- DRAINED_POINT (R416): the open batch leaves, the new mode applies, LAST_SEQ takes SEQ. -/
def execDrainedPoint (s : State) : Host.Outcome State Fault Refusal :=
  settled (s.whenLive (fun s =>
    match s.boot.modeChange with
    | none => s
    | some (m, seq, path, reqId) =>
      if !s.isDrained then s
      else
        let s := (((s.closeBatch 2).applyMode m).set R.BOOT_MODE_SEQ_LAST_SEQ seq).endChange
        s.answer path reqId 0x40 (s.modeBody .none)))

/-- MODE_CHANGE_TIMEOUT (R416). -/
def execModeChangeTimeout (s : State) : Host.Outcome State Fault Refusal :=
  settled (s.whenLive (fun s =>
    match s.boot.modeChange with
    | none => s
    | some (_, _, path, reqId) =>
      let s := (s.modeCause 7).endChange
      s.answer path reqId 0x40 (s.modeBody .resource)))

end Sys2Proof.Machine
end

