-- ==== Sys2Proof/Machine/Queues.lean ====
section
/-! DEFINITION. Queue and group requests of the runtime (R167, R186, R187, R208, R239) and the events of a queue's drain. -/

namespace Sys2Proof.Machine

/-! ### Queues -/

/-- The refusals of R167, in order. -/
def State.queueCreateErr (s : State) (b : QueueCreate) : Err :=
  firstErr [
    (b.reserved, .format),
    (decide (b.sqLog2 < 4) || decide (15 < b.sqLog2) || decide (b.cqLog2 < 4) || decide (15 < b.cqLog2), .format),
    (decide (b.timeoutUs < 50) || decide (1000000 < b.timeoutUs), .format),
    (s.partErr b.partition == .partition, .partition),
    (s.partErr b.partition == .disabled, .disabled),
    (!s.ownsQueue b.partition b.queue, .partition),
    (s.get (R.QPAGE_STATUS_STATE b.queue) != 0, .resource),
    (b.sqFva % (64 * 2 ^ b.sqLog2) != 0 || b.cqFva % (32 * 2 ^ b.cqLog2) != 0, .align)]

/-- A queue that has just been created. -/
def Queue.new (b : QueueCreate) : Queue :=
  { sqLog2 := b.sqLog2, cqLog2 := b.cqLog2, timeoutUs := b.timeoutUs, sqFva := b.sqFva, cqFva := b.cqFva,
    fetched := none, fetching := false, extra := none, asking := false, held := false, noFetch := false, blocked := none,
    records := [], writing := false, expired := false, drains := [] }

/-- Creates a queue: indices 0, ACTIVE, its owner and FEED; LOST and the fault FVA keep what the last drain left. -/
def State.createQueue (s : State) (b : QueueCreate) : State :=
  let q := b.queue
  let s := ((s.set (R.QPAGE_SQ_HEAD q) 0).set (R.QPAGE_SQ_TAIL q) 0).set (R.QPAGE_CQ_TAIL q) 0
  let s := ((s.set (R.QPAGE_CQ_HEAD q) 0).set (R.QPAGE_STATUS_PARTITION q) b.partition).setFlag (R.QPAGE_STATUS_FEED q) b.engine
  let s := (s.set (R.QPAGE_STATUS_ERR q) 0).set (R.QPAGE_STATUS_STATE q) 1
  { s with work := { s.work with queues := tset q (Queue.new b) s.work.queues } }

/-- QUEUE_CREATE (R167). -/
def execQueueCreate (h : Hdr) (b : QueueCreate) (s : State) : Host.Outcome State Fault Refusal :=
  ok (s.request h 0x30 true false (h.length == 32) (fun x => queueCreateOf x == b) (fun s =>
    match s.queueCreateErr b with
    | .none => (s.createQueue b).refuse h 0x30 .none
    | e => s.refuse h 0x30 e))

/-- A queue that is not DISABLED drains, and the request waits for DISABLED; a DISABLED queue answers at once (R187). -/
def State.askDrain (s : State) (h : Hdr) (q : Nat) : State :=
  if s.get (R.QPAGE_STATUS_STATE q) = 0 then s.refuse h 0x31 .none
  else (s.drainQueue q .none).modQueue q (fun r => { r with drains := r.drains ++ [(h.path, h.reqId)] })

/-- QUEUE_DRAIN (R187). -/
def execQueueDrain (h : Hdr) (queue : Nat) (reserved : Bool) (s : State) : Host.Outcome State Fault Refusal :=
  settled (s.request h 0x31 true false (h.length == 8) (fun x => queueDrainOf x == (queue, reserved)) (fun s =>
    if reserved then s.refuse h 0x31 .format else s.askDrain h queue))

/-- QUEUE_DISABLED (R186). -/
def execQueueDisabled (queue : Nat) (s : State) : Host.Outcome State Fault Refusal :=
  settled (s.whenLive (fun s => s.disableQueue queue))

/-- QUEUE_DRAIN_TIMEOUT (R186, R446). -/
def execQueueDrainTimeout (queue : Nat) (s : State) : Host.Outcome State Fault Refusal :=
  settled (s.whenLive (fun s => s.queueDrainExpired queue))

/-! ### Groups -/

/-- Whether a mask has a bit at or above 2 to the power of a dimension's width. -/
def maskTooWide (mask width : Nat) : Bool := decide (2 ^ 2 ^ width ≤ mask)

/-- The ERR_FORMAT rows of Table 9-2, with R6 (log entry 38). -/
def State.groupFormat (s : State) (b : GroupCreate) : Bool :=
  let (bx, byw, bz) := s.widths
  b.reserved || decide (b.slots < 16) || decide (4096 < b.slots) || decide (5 < b.rotWindow) || b.slotMask == 0 ||
    b.xMask == 0 || b.yMask == 0 || b.zMask == 0 || maskTooWide b.xMask bx || maskTooWide b.yMask byw || maskTooWide b.zMask bz ||
    (b.paired && (List.range 32).any (fun i => bit b.xMask (2 * i + 1))) || !s.isMember b s.chip

/-- The queue range row of Table 9-2. -/
def State.groupQueuesBad (s : State) (b : GroupCreate) : Bool :=
  (bitsOf 16 b.slotMask).any (fun a => decide (32767 < b.queueBase + a) || !s.ownsQueue b.partition (b.queueBase + a))

/-- The refusals of GROUP_CREATE: the format rows, the partition's state, another body, the queue range (Table 9-2, Table
16-4, log entry 38). -/
def State.groupCreateErr (s : State) (b : GroupCreate) : Err :=
  firstErr [
    (s.groupFormat b, .format),
    (s.partErr b.partition == .partition, .partition),
    (s.partErr b.partition == .disabled, .disabled),
    (match s.group b.group with
     | some g => g.body != b
     | none => false, .resource),
    (s.groupQueuesBad b, .partition)]

/-- A FREE entry becomes ACTIVE; an entry with the same body stays as it is (R208). -/
def State.createGroup (s : State) (b : GroupCreate) : State :=
  match s.group b.group with
  | some _ => s
  | none => s.setGroup b.group { body := b, state := 1, generation := (tget b.group s.coll.generations).getD 0, cause := 0,
                                 nextInst := [], inst := [] }

/-- GROUP_CREATE (R208). -/
def execGroupCreate (h : Hdr) (b : GroupCreate) (s : State) : Host.Outcome State Fault Refusal :=
  ok (s.request h 0x38 true false (h.length == 48) (fun x => groupCreateOf x == b) (fun s =>
    match s.groupCreateErr b with
    | .none => (s.createGroup b).refuse h 0x38 .none
    | e => s.refuse h 0x38 e))

/-- Whether a member clause of a group is in flight here, or a chunk or slot of it held (R239, R55). -/
def State.groupBusy (s : State) (n : Nat) (g : Group) : Bool :=
  s.work.clauses.any (fun (c : Nat × Clause) => isColl (descOp c.2.desc) && cGroup c.2.desc == n &&
    c.2.partition == g.body.partition && g.body.queueOk c.2.queue) ||
    g.inst.any (fun i => i.reserved || !i.chunks.isEmpty || !i.inFlight.isEmpty)

/-- The refusals that GROUP_RESET and GROUP_DESTROY share for an entry that is not FREE. -/
def State.groupErr (s : State) (n p : Nat) (g : Group) : Err :=
  if g.body.partition ≠ p then .partition else if s.groupBusy n g then .resource else .none

/-- A group reset: ACTIVE, instance counts 0, the next generation (R239). -/
def State.resetGroup (s : State) (n : Nat) (g : Group) : State :=
  s.setGroup n { g with state := 1, cause := 0, generation := (g.generation + 1) % 16, nextInst := [], inst := [] }

/-- A group set FREE; its generation stays (R239). -/
def State.freeGroup (s : State) (n : Nat) (g : Group) : State :=
  { s with coll := { s.coll with groups := terase n s.coll.groups, generations := tset n g.generation s.coll.generations } }

/-- GROUP_RESET (R239). -/
def execGroupReset (h : Hdr) (group partition : Nat) (reserved : Bool) (s : State) : Host.Outcome State Fault Refusal :=
  ok (s.request h 0x39 true false (h.length == 8) (fun x => groupBody x == (group, partition, reserved)) (fun s =>
    if reserved then s.refuse h 0x39 .format
    else match s.group group with
      | none => s.refuse h 0x39 .partition
      | some g => match s.groupErr group partition g with
        | .none => (s.resetGroup group g).refuse h 0x39 .none
        | e => s.refuse h 0x39 e))

/-- GROUP_DESTROY (R239). -/
def execGroupDestroy (h : Hdr) (group partition : Nat) (reserved : Bool) (s : State) : Host.Outcome State Fault Refusal :=
  ok (s.request h 0x3A true false (h.length == 8) (fun x => groupBody x == (group, partition, reserved)) (fun s =>
    if reserved then s.refuse h 0x3A .format
    else match s.group group with
      | none => s.refuse h 0x3A .none
      | some g => match s.groupErr group partition g with
        | .none => (s.freeGroup group g).refuse h 0x3A .none
        | e => s.refuse h 0x3A e))

end Sys2Proof.Machine
end

