-- ==== Sys2Proof/Machine/Parts.lean ====
section
/-! DEFINITION. Partitions: creation, drain and its end (R382 to R389, R411), weight loads (R396) and attestation (R398). -/

namespace Sys2Proof.Machine

/-! ### PART_CREATE -/

/-- Step 1 of R383. -/
def partFormat (b : PartCreate) : Bool :=
  b.reserved || b.tc == 7 || decide (32768 < b.queueCount) || decide (262144 < b.ctrCount) || decide (128 < b.winCount) ||
    decide (12288 < b.slotQuota) || b.outstanding == 0 || decide (131072 < b.outstanding)

/-- The Stem's bounds (R411). -/
def State.partBounds (s : State) (b : PartCreate) : Bool :=
  match s.boot.stem with
  | some t => decide (b.partition < t.partLo) || decide (t.partHi < b.partition) || decide (t.maxSlot < b.slotQuota) ||
      decide (t.maxNear < b.nearQuota) || decide (t.maxFar < b.farQuota) || decide (t.maxOutstanding < b.outstanding)
  | none => true

/-- Ranges past the end, ranges of another live partition, and the sum of slot quotas (R36, R165, R224). -/
def State.partTaken (s : State) (b : PartCreate) : Bool :=
  let live := s.liveParts
  (decide (0 < b.queueCount) && decide (32768 < b.queueFirst + b.queueCount)) ||
    (decide (0 < b.ctrCount) && decide (262144 < b.ctrFirst + b.ctrCount)) ||
    (decide (0 < b.winCount) && decide (65536 < b.winFirst + b.winCount)) ||
    live.any (fun p => overlaps b.queueFirst b.queueCount (s.get (R.PART_QUEUES_QUEUE_FIRST p)) (s.get (R.PART_QUEUES_QUEUE_COUNT p)) ||
      overlaps b.ctrFirst b.ctrCount (s.get (R.PART_COUNTERS_CTR_FIRST p)) (s.get (R.PART_COUNTERS_CTR_COUNT p)) ||
      overlaps b.winFirst b.winCount (s.get (R.PART_WINDOWS_WIN_FIRST p)) (s.get (R.PART_WINDOWS_WIN_COUNT p))) ||
    decide (12288 < b.slotQuota + (live.map (fun p => s.get (R.CONJ_PART_QUOTA p))).sum)

/-- The checks of R383, with R411 between its steps 1 and 2. -/
def State.partCreateErr (s : State) (b : PartCreate) : Err :=
  firstErr [(partFormat b, .format), (s.partBounds b, .permission), (s.get (R.PART_STATE_STATE b.partition) != 0, .resource),
    (s.partTaken b, .resource)]

/-- The ranges and quotas of a partition. -/
def State.setRanges (s : State) (b : PartCreate) : State :=
  let p := b.partition
  let s := ((s.set (R.PART_STATE_TC p) b.tc).set (R.PART_QUEUES_QUEUE_FIRST p) b.queueFirst).set (R.PART_QUEUES_QUEUE_COUNT p)
    b.queueCount
  let s := (s.set (R.PART_COUNTERS_CTR_FIRST p) b.ctrFirst).set (R.PART_COUNTERS_CTR_COUNT p) b.ctrCount
  let s := (s.set (R.PART_WINDOWS_WIN_FIRST p) b.winFirst).set (R.PART_WINDOWS_WIN_COUNT p) b.winCount
  let s := (s.set (R.CONJ_PART_QUOTA p) b.slotQuota).set (R.CONJ_PART_SPILL_QUOTA p) b.spillQuota
  let s := (s.set (R.PART_MEM_QUOTA_NEAR_QUOTA p) b.nearQuota).set (R.PART_MEM_QUOTA_FAR_QUOTA p) b.farQuota
  s.set (R.PART_OUTSTANDING_QUOTA p) b.outstanding

/-- Counters of a range set to 0 (R165). -/
def State.zeroCounters (s : State) (first n : Nat) : State :=
  let kept := s.work.counters.filter (fun c => !(decide (first ≤ c.1) && decide (c.1 < first + n)))
  { s with work := { s.work with counters := kept } }

/-- A partition created (R383): keys, epoch, ranges, tense, counters, energy (R434), log, warm-up, ACTIVE. -/
def State.createPart (s : State) (b : PartCreate) : State :=
  let p := b.partition
  let r : PartRec := { body := b, keys := PartKeys.derive (leBytes 32 (Config.partitionKey s.security.keysDrawn)), drainedOnce := false, drains := [],
                       warmup := 0 }
  let s := { s with security := { s.security with
      parts := tset p r s.security.parts, vlogs := terase p s.security.vlogs, keysDrawn := s.security.keysDrawn + 1 } }
  let s := ((s.wrap (R.PART_STATE_KEY_EPOCH p)).setRanges b).set (R.XLAT_TENSE_TENSE p) 0
  let s := s.zeroCounters b.ctrFirst b.ctrCount
  let s := { s.set (R.PWR_ENERGY_NJ p) 0 with power := { s.power with fractions := terase p s.power.fractions } }
  ((s.set (R.PART_VLOG_ENTRIES p) 0).set (R.PART_VLOG_COUNT p) 0).set (R.PART_STATE_STATE p) 1

/-- The response of PART_CREATE; KEY_EPOCH of a refusal is free (log entry 36). -/
def State.answerCreate (s : State) (h : Hdr) (p : Nat) (e : Err) : State :=
  (s.refuseWith h 0x10 e (packBytes [(32, if e = .none then s.get (R.PART_STATE_KEY_EPOCH p) else s.free 0), (32, 0)])).freshen

/-- PART_CREATE (R383, R411). -/
def execPartCreate (h : Hdr) (b : PartCreate) (s : State) : Host.Outcome State Fault Refusal :=
  ok (s.request h 0x10 true false (h.length == 64) (fun x => partCreateOf x == b) (fun s =>
    match s.partCreateErr b with
    | .none => (s.createPart b).answerCreate h b.partition .none
    | e => s.answerCreate h b.partition e))

/-! ### PART_DRAIN -/

def State.modPart (s : State) (p : Nat) (f : PartRec → PartRec) : State :=
  { s with security := { s.security with parts := tmod p f s.security.parts } }

/-- The queues of a partition. -/
def State.partQueues (s : State) (p : Nat) : List Nat := (tkeys s.work.queues).filter (s.ownsQueue p)

/-- A partition enters DRAINING: its queues drain, and replicas of its pages drop, those it has here too (Table 16-4, R256). -/
def State.drainPart (s : State) (p : Nat) : State :=
  let s := s.set (R.PART_STATE_STATE p) 2
  let s := (s.partQueues p).foldl (fun (s : State) q => s.drainQueue q .none) s
  let s := (s.parser.replicas.filter (fun (r : Nat × Replica) => r.2.partition == p)).foldl
    (fun (s : State) r => s.dropHeld r.1 r.2) s
  ((s.parser.dir.filter (fun (d : Nat × DirRec) => d.2.partition == p)).map (fun (d : Nat × DirRec) => d.2.frame)).foldl
    State.dropReplicas s

/-- A PART_DRAIN that passes R6 (R385). -/
def State.askPartDrain (s : State) (h : Hdr) (p : Nat) : State :=
  if s.get (R.PART_STATE_STATE p) = 0 then
    s.refuse h 0x11 (if ((tget p s.security.parts).map PartRec.drainedOnce).getD false then .none else .partition)
  else
    let s := if s.get (R.PART_STATE_STATE p) = 1 then s.drainPart p else s
    s.modPart p (fun r => { r with drains := r.drains ++ [(h.path, h.reqId)] })

/-- PART_DRAIN (R385). -/
def execPartDrain (h : Hdr) (partition : Nat) (reserved : Bool) (s : State) : Host.Outcome State Fault Refusal :=
  settled (s.request h 0x11 true false (h.length == 8) (fun x => partDrainOf x == (partition, reserved)) (fun s =>
    if reserved then s.refuse h 0x11 .format else s.askPartDrain h partition))

/-! ### PARTITION_DISABLED -/

def Who.ofPart (p : Nat) : Who → Bool
  | .frame _ _ q _ _ => q == p
  | .here _ => false

/-- Accesses that wait at home agents, list by list. -/
def Home.waiting (h : Home) : List HeldAccess := h.lockWait ++ h.farWait ++ h.writeQueue ++ h.orderWait ++ h.quietWait

/-- Keeps the waiting accesses that satisfy a test. -/
def State.keepWaiting (s : State) (f : HeldAccess → Bool) : State :=
  { s with home := { s.home with
      lockWait := s.home.lockWait.filter f, farWait := s.home.farWait.filter f, writeQueue := s.home.writeQueue.filter f,
      orderWait := s.home.orderWait.filter f, quietWait := s.home.quietWait.filter f } }

/-- Whether no transaction of a partition exists on the chip (R382). A frame in the packet buffer is none by itself: a request of
this chip has its tag, a response has ended its access here, and a unit takes an arriving request when it leaves (R291). -/
def State.partEmpty (s : State) (p : Nat) : Bool :=
  s.work.clauses.all (fun (c : Nat × Clause) => c.2.partition != p) && (s.partQueues p).isEmpty &&
    s.edge.directs.all (fun (d : Nat × DirectRec) => d.2.partition != p) &&
    s.xlat.withdrawals.all (fun w => w.partition != p) && s.xlat.installs.all (fun i => i.body.partition != p) &&
    s.xlat.homeFills.all (fun f => f.2.2.2.1 != p) && s.security.loads.all (fun (l : Nat × Load) => l.2.body.partition != p) &&
    s.home.ops.all (fun (o : Nat × HomeOp) => o.2.acc.partition != p || o.2.acc.who == .here .drop) &&
    s.home.memReqs.all (fun (r : Nat × MemReq) => !r.2.who.ofPart p) && s.home.waiting.all (fun a => a.partition != p) &&
    s.fabric.track.all (fun (t : Nat × Track) => t.2.partition != p || t.2.quarantined) &&
    s.fabric.waitTag.all (fun w => w.1.art.partition != p) &&
    s.parser.migrations.all (fun m => m.partition != p) && s.parser.updates.all (fun u => u.1.partition != p)

/-- Every page-map and window-table entry of a partition cleared; homes of other chips are told (R386). -/
def State.clearMaps (s : State) (p : Nat) : State :=
  let mine := s.xlat.pageMap.filter (fun (e : Nat × PmEntry) => e.2.partition == p)
  let s := { s with xlat := { s.xlat with
      pageMap := s.xlat.pageMap.filter (fun (e : Nat × PmEntry) => e.2.partition != p),
      windows := s.xlat.windows.filter (fun (w : Nat × WinEntry) => w.2.partition != p) } }
  mine.foldl (fun (s : State) (e : Nat × PmEntry) =>
    if e.2.chip = s.chip then s
    else s.sendDir 2 e.2.chip (dirMsg p e.2.page e.2.fpa 0 0 0 0) .drop) s

/-- Every frame held for a partition returns to its free list; directory records, replicas and holds of it end (R386). -/
def State.clearFrames (s : State) (p : Nat) : State :=
  let keys := (s.xlat.frames.filter (fun (f : Nat × FrameRec) => f.2.owner == p)).map (fun (f : Nat × FrameRec) => f.1)
  let s := { s with parser := { s.parser with
      dir := s.parser.dir.filter (fun (d : Nat × DirRec) => d.2.partition != p),
      replicas := s.parser.replicas.filter (fun (r : Nat × Replica) => r.2.partition != p),
      holding := s.parser.holding.filter (fun x => x.1 != p),
      chosen := s.parser.chosen.filter (fun m => m.partition != p) } }
  keys.foldl State.freeFrame s

/-- Groups set FREE and pending fault records dropped, those of the open batch too (R386). -/
def State.clearRecords (s : State) (p : Nat) : State :=
  let s := (s.coll.groups.filter (fun (g : Nat × Group) => g.2.body.partition == p)).foldl
    (fun (s : State) g => s.freeGroup g.1 g.2) s
  -- Records that other partitions' clauses lacked for want of room are made (R72).
  ({ s with xlat := { s.xlat with faults := s.xlat.faults.filter (fun f => f.partition != p),
                                  openBatch := s.xlat.openBatch.filter (fun f => f.partition != p) } }).makeWaiting

/-- VALID cleared in every PASID entry that names a partition (R386). -/
def State.clearPasids (s : State) (p : Nat) : State :=
  let base := (R.EDGE_PASID_VALID 0 0).key
  let top := (R.EDGE_PASID_VALID 31 4095).key
  let ks := (s.regs.filter (fun r => decide (base ≤ r.1) && decide (r.1 ≤ top) && (r.1 - base) % 64 == 0 && r.2 == 1)).map
    (fun r => (r.1 - base) / 64 / 8)
  ks.foldl (fun (s : State) k =>
    let i := k / 8192
    let j := k % 8192
    if j < 4096 ∧ s.get (R.EDGE_PASID_PARTITION i j) = p then s.set (R.EDGE_PASID_VALID i j) 0 else s) s

/-- Quotas released (R386). -/
def State.clearQuotas (s : State) (p : Nat) : State :=
  let s := (s.set (R.CONJ_PART_QUOTA p) 0).set (R.CONJ_PART_SPILL_QUOTA p) 0
  ((s.set (R.PART_MEM_QUOTA_NEAR_QUOTA p) 0).set (R.PART_MEM_QUOTA_FAR_QUOTA p) 0).set (R.PART_OUTSTANDING_QUOTA p) 0

/-- The partition reads DISABLED, its keys zeroised, and its drains are answered (R385, R386). -/
def State.disablePart (s : State) (p : Nat) : State :=
  let ds := ((tget p s.security.parts).map PartRec.drains).getD []
  let s := ((((s.clearMaps p).clearFrames p).clearRecords p).clearPasids p).clearQuotas p
  let s := s.zeroCounters (s.get (R.PART_COUNTERS_CTR_FIRST p)) (s.get (R.PART_COUNTERS_CTR_COUNT p))
  let s := (s.set (R.PART_STATE_STATE p) 0).modPart p (fun r => { r with keys := PartKeys.none, drainedOnce := true, drains := [] })
  ds.foldl (fun (s : State) d => s.answer d.1 d.2 0x11 (statusBody .none)) s

/-- PARTITION_DISABLED (R382, R386). -/
def execPartitionDisabled (partition : Nat) (s : State) : Host.Outcome State Fault Refusal :=
  settled (s.whenLive (fun s =>
    if s.get (R.PART_STATE_STATE partition) = 2 ∧ s.partEmpty partition then s.disablePart partition else s))

/-! ### The drain timeout (R446, Table 16-4) -/

/-- A transaction ended by a drain timeout is logged and counted. -/
def State.logAbort (s : State) (addr p : Nat) : State :=
  (s.logFault 1 addr p (Err.code .aborted)).count R.FAULT_ECC_ABORTS

/-- Direct requests of a partition end. -/
def State.abortDirects (s : State) (p : Nat) : State :=
  (s.edge.directs.filter (fun (d : Nat × DirectRec) => d.2.partition == p)).foldl
    (fun (s : State) d => (s.logAbort d.2.addr p).directDone d.1 .aborted []) s

/-- Clauses of a partition end, wherever they stand; a collective's instance aborts (Table 9-5). -/
def State.abortClauses (s : State) (p : Nat) : State :=
  (s.work.clauses.filter (fun (c : Nat × Clause) => c.2.partition == p)).foldl (fun (s : State) c =>
    let s := s.abortClause c.1
    match s.clauseAt c.1 with
    | some k => s.memberFailed k
    | none => s) s

/-- MAP_INSTALLs of a partition end, and frames still being zeroed return (R357). -/
def State.abortInstalls (s : State) (p : Nat) : State :=
  let s := (s.xlat.installs.filter (fun i => i.body.partition == p)).foldl (fun (s : State) i =>
    let s := s.logAbort (i.body.page * 2 ^ 21) p
    let s := if i.atHome then s else s.freeFrame (frameKey i.frameFpa)
    -- The requests that wait with it end too: the partition drains.
    s.endInstall p i.body.page .aborted 0) s
  (s.xlat.homeFills.filter (fun f => f.2.2.2.1 == p)).foldl (fun (s : State) f =>
    let s := { s with xlat := { s.xlat with homeFills := terase f.1 s.xlat.homeFills } }
    let fpa := keyFpa s.chip f.1
    let s := s.logAbort fpa p
    let s := s.dirAnswer { dirMsg p f.2.2.2.2 fpa 0 0 0 0 with src := f.2.1, tag := f.2.2.1 } 1 .aborted fpa 0
    s.unregister f.1 f.2.1) s

/-- A waiting access that is taken away, with its lines: one that holds lines without the rings gives them back; one that
the rings carry lets them end with nothing done. -/
def State.dropOp (s : State) (id : Nat) (o : HomeOp) : State :=
  match o.line with
  | some _ => s.modOp id (fun o => { o with acc := { o.acc with act := .write [], who := .here .drop } })
  | none => o.taken.foldl State.releaseLine { s with home := { s.home with ops := terase id s.home.ops } }

/-- An access of a partition ends at its home; a request frame's is logged, this chip's own are logged with their
requester. -/
def State.abortAccess (s : State) (p : Nat) (a : HeldAccess) : State :=
  let s := match a.who with
    | .frame _ _ _ _ _ => s.logAbort a.fpa p
    | .here _ => s
  s.reply a.fpa a.who a.act .aborted []

/-- Weight loads, and accesses that wait at a home agent here. -/
def State.abortHome (s : State) (p : Nat) : State :=
  let s := (s.security.loads.filter (fun (l : Nat × Load) => l.2.body.partition == p)).foldl
    (fun (s : State) l => (s.logAbort l.2.body.dstFva p).endLoad l.1 .aborted) s
  let s := (s.home.ops.filter (fun (o : Nat × HomeOp) => o.2.acc.partition == p && o.2.acc.who != .here .drop)).foldl
    (fun (s : State) o => (s.dropOp o.1 o.2).abortAccess p o.2.acc) s
  let waits := s.home.waiting.filter (fun a => a.partition == p)
  ((waits.foldl (fun (s : State) a => s.abortAccess p a) (s.keepWaiting (fun a => a.partition != p))).failSlots).pumpOrder

/-- Moves of a partition's pages that have not switched are abandoned. -/
def State.abortMoves (s : State) (p : Nat) : State :=
  (s.parser.migrations.filter (fun m => m.partition == p)).foldl (fun (s : State) m => s.abandon p m.page) s

/-- PARTITION_DRAIN_TIMEOUT (R446, Table 16-4, R76). -/
def execPartitionDrainTimeout (partition : Nat) (s : State) : Host.Outcome State Fault Refusal :=
  settled (s.whenLive (fun s =>
    if s.get (R.PART_STATE_STATE partition) = 2 then
      let s := ((((s.abortDirects partition).abortClauses partition).abortInstalls partition).abortHome partition).abortMoves
        partition
      (s.abortTags (fun t => t.partition == partition)).endWaitTags partition
    else s))

/-! ### WEIGHT_LOAD -/

/-- WEIGHT_LOAD (R396). -/
def execWeightLoad (h : Hdr) (b : WeightLoad) (s : State) : Host.Outcome State Fault Refusal :=
  settled (s.request h 0x14 true false (h.length == 32) (fun x => weightLoadOf x == b) (fun s =>
    match s.weightErr b with
    | .none => s.startLoad h b
    | e => s.refuseWith h 0x14 e (leBytes 8 0)))

/-! ### Attestation -/

/-- PART_CREATE's body in its wire form (Table 16-2). -/
def partBytes (b : PartCreate) : List Byte :=
  packBytes [(12, b.partition), (3, b.tc), (1, 0), (16, 0), (15, b.queueFirst), (1, 0), (16, b.queueCount), (18, b.ctrFirst),
    (14, 0), (19, b.ctrCount), (13, 0), (16, b.winFirst), (8, b.winCount), (8, 0), (14, b.slotQuota), (2, 0),
    (14, b.spillQuota), (2, 0), (17, b.nearQuota), (15, 0), (24, b.farQuota), (8, 0), (17, b.outstanding), (15, 0), (224, 0)]

/-- IDE_MASK of Table 16-8. -/
def State.ideMask (s : State) : Nat :=
  packNat (((List.range 32).map (fun p => (1, s.get (R.EDGE_STAT_IDE p)))) ++ (List.range 4).map (fun k => (1, s.get (R.MEMP_STAT_IDE k))))

/-- The 36 measurement digests in port order (R350). -/
def State.ideBytes (s : State) : List Byte :=
  (List.range 36).flatMap (fun p => if bit s.ideMask p then beBytes 48 ((tget p s.edge.ideDigests).getD 0) else leBytes 48 0)

/-- The PASID entries that name a partition: each port in order, n (2 B) then the entry (8 B). -/
def State.pasidBytes (s : State) (p : Nat) : List Byte :=
  (List.range 32).flatMap (fun i => (List.range 4096).flatMap (fun n =>
    if s.flag (R.EDGE_PASID_VALID i n) ∧ s.get (R.EDGE_PASID_PARTITION i n) = p then
      leBytes 2 n ++ packBytes [(1, s.get (R.EDGE_PASID_READ i n)), (1, s.get (R.EDGE_PASID_WRITE i n)),
        (1, s.get (R.EDGE_PASID_ATOMIC i n)), (5, 0), (3, s.get (R.EDGE_PASID_VIEW_EN i n)), (5, 0), (12, p), (3, 0), (1, 1), (32, 0)]
    else []))

/-- Report bytes 520 to 639: a partition's part (Table 16-8). -/
def State.reportPart (s : State) (p : Nat) : List Byte :=
  let st := s.get (R.PART_STATE_STATE p)
  let body := if st = 0 then leBytes 64 0 else
    match tget p s.security.parts with
    | some r => partBytes r.body
    | none => leBytes 64 0
  packBytes [(12, p), (3, st), (17, 0), (32, s.get (R.PART_STATE_KEY_EPOCH p))] ++ body ++
    beBytes 48 (Config.sha384 (s.pasidBytes p))

/-- Report bytes 0 to 639 (Table 16-8). -/
def State.reportBody (s : State) (nonce : List Byte) (p : Option Nat) : List Byte :=
  let serial := s.boot.fuses.serial
  let mode := s.get R.BOOT_STAT_MODE
  packBytes [(32, 1), (15, s.chip), (17, 0)] ++ nonce ++ s.deviceId ++ leBytes 8 serial ++ beBytes 96 (Config.attestPub serial) ++
    beBytes 96 (Config.bindPub serial) ++ beBytes 48 Config.romDigest ++
    beBytes 48 ((s.boot.stem.map Stem.digest).getD 0) ++
    beBytes 48 (((s.boot.inflections.find? (fun i => i.number == mode)).map Inflection.digest).getD 0) ++
    beBytes 48 s.boot.tilefwDigest ++
    packBytes [(32, s.boot.fuses.fwSvn), (8, s.get R.BOOT_STAT_BANK), (8, mode), (8, s.get R.SEC_STAT_DEBUG),
      (1, s.get R.SEC_STAT_FROZEN), (1, s.get R.BOOT_STAT_FALLBACK), (6, 0), (64, s.boot.fuses.fused), (64, s.ideMask)] ++
    beBytes 48 (Config.sha384 s.ideBytes) ++
    (match p with
     | some p => s.reportPart p
     | none => leBytes 120 0)

/-- ATTEST_REPORT's report: the body and its signature. -/
def State.report (s : State) (nonce : List Byte) (p : Option Nat) : List Byte :=
  let body := s.reportBody nonce p
  body ++ beBytes 96 (Config.ecdsaSign s.boot.fuses.serial body)

/-- ATTEST_REQ (R398). -/
def execAttestReq (h : Hdr) (nonce : List Byte) (partition : Nat) (partEn reserved : Bool) (s : State) :
    Host.Outcome State Fault Refusal :=
  ok (s.request h 0x18 true true (h.length == 40) (fun x => attestOf x == (nonce, partition, partEn, reserved)) (fun s =>
    if reserved then s.refuse h 0x18 .format
    else s.refuseWith h 0x18 .none (s.report nonce (if partEn then some partition else none))))

end Sys2Proof.Machine
end

