-- ==== Sys2Proof/Machine/Power.lean ====
section
/-! DEFINITION. Power (chapter 18): the governor, brake, COOL_OK and the junction, CAP_SET. -/

namespace Sys2Proof.Machine

/-! ### Brake (R429, R430) -/

/-- PWR_STAT.CAUSE of the causes that hold: bit 0 PIN, 1 STEP, 2 OVER, 3 THERMAL or COOL_OK. -/
def causeField (c : Nat) : Nat := c % 8 + 8 * b2n (bit c 3 || bit c 4)

/-- Adds a cause; outside brake it enters it: the level becomes at least 32, every cause present is recorded (R429, R430). -/
def State.brake (s : State) (cause : Nat) : State :=
  let causes := s.power.causes ||| cause
  let s := { s with power := { s.power with causes := causes } }
  if s.flag R.PWR_STAT_BRAKE then s
  else
    let s := ((s.set R.PWR_STAT_BRAKE 1).set R.PWR_STAT_CAUSE (causeField causes)).count R.PWR_COUNT_BRAKES
    let s := s.set R.PWR_STAT_LEVEL (max 32 (s.get R.PWR_STAT_LEVEL))
    { s with power := { s.power with underSamples := 0, climbing := false } }

/-- A cause no longer holds. -/
def State.unbrake (s : State) (cause : Nat) : State :=
  { s with power := { s.power with causes := s.power.causes - (s.power.causes &&& cause) } }

/-- The junction is read (R429, R432, R455): brake at TJ_BRAKE, emergency off at 110 degrees. -/
def State.readJunction (s : State) (celsius : Nat) : State :=
  let s := s.set R.PWR_STAT_TJ celsius
  if 110 ≤ celsius then s.emergencyOff 4
  else if s.get R.PWR_CTL_TJ_BRAKE ≤ celsius then s.brake 8
  else s.unbrake 8

/-- PWRBRAKE_N_ASSERT (R429). -/
def execPwrbrakeNAssert (s : State) : Host.Outcome State Fault Refusal :=
  let s := { s with power := { s.power with pwrbrakeN := false } }
  ok (s.whenLive (fun s => s.brake 1))

/-- COOL_OK_ASSERT (R14, R335, R417): the lasers may light; the brake cause clears. -/
def execCoolOkAssert (s : State) : Host.Outcome State Fault Refusal :=
  let s := { s with power := { s.power with coolOk := true } }
  ok (s.whenLive (fun s => (s.unbrake 16).light))

/-- COOL_OK_DEASSERT (R335, R429): every LSM is disabled, and brake is entered. -/
def execCoolOkDeassert (s : State) : Host.Outcome State Fault Refusal :=
  let s := { s with power := { s.power with coolOk := false }, fabric := { s.fabric with lsmEn := 0, lsmReady := 0, lsmLit := false } }
  ok (s.whenLive (fun s =>
    let s := (List.range 10).foldl (fun (s : State) n =>
      if s.get (R.LSM_STAT_STATE n) = 3 then s.set (R.LSM_STAT_STATE n) 1 else s) s
    s.brake 16))

/-- JUNCTION_BRAKE_TEMPERATURE (R429). -/
def execJunctionBrakeTemperature (celsius : Nat) (s : State) : Host.Outcome State Fault Refusal :=
  ok (s.whenLive (fun s => s.readJunction celsius))

/-- JUNCTION_LIMIT_TEMPERATURE (R432, R455): also on a frozen chip. -/
def execJunctionLimitTemperature (celsius : Nat) (s : State) : Host.Outcome State Fault Refusal :=
  ok (if 110 ≤ celsius then s.emergencyOff 4 else s.whenLive (fun s => s.readJunction celsius))

/-! ### Samples (R426, R428 to R431, R434) -/

/-- Energy of a sample: 10 us of the measured power, in nJ; what no partition's estimate covers is unattributed (R434). -/
def State.meter (s : State) (watts : Nat) : State :=
  let nj := watts * 10000
  let s := s.wrap R.PWR_ENERGY_CHIP_NJ nj
  let s := s.set R.PWR_ENERGY_UNATTR_NJ (s.get R.PWR_ENERGY_UNATTR_NJ + nj - s.power.attributed)
  { s with power := { s.power with attributed := 0 } }

/-- The brake floor in hundredths of a watt (R427). -/
def State.floorCw (s : State) : Nat := s.get R.PWR_CTL_FLOOR_PCT * 1050

/-- Sample counters: over the cap by more than 5 %, at or below the cap, since the last step and the last raise, in brake. -/
def State.tallySample (s : State) (watts : Nat) : State :=
  let cap := s.get R.PWR_STAT_CAP_W
  let p := s.power
  let b := if s.flag R.PWR_STAT_BRAKE then p.brakeSamples + 1 else p.brakeSamples
  let s := if s.flag R.PWR_STAT_BRAKE ∧ b = 100 then s.count R.PWR_COUNT_BRAKE_MS else s
  { s with power := { p with
      overSamples := if 105 * cap < 100 * watts then min (p.overSamples + 1) 50 else 0,
      underSamples := if watts ≤ cap then min (p.underSamples + 1) 100 else 0,
      sinceStep := min (p.sinceStep + 1) 12, sinceRaise := min (p.sinceRaise + 1) 1000, brakeSamples := b % 100 } }

/-- Brake causes by their level at a sample: PWRBRAKE_N, a cap still more than STEP_W below the power, the over-cap run. -/
def State.sampleCauses (s : State) (watts : Nat) (pinLow : Bool) : State :=
  let s := { s with power := { s.power with pwrbrakeN := !pinLow } }
  let s := if pinLow then s.brake 1 else s.unbrake 1
  let s := if watts ≤ s.get R.PWR_STAT_CAP_W + s.get R.PWR_CTL_STEP_W then s.unbrake 2 else s
  if s.power.overSamples = 50 then s.brake 4 else if s.power.overSamples = 0 then s.unbrake 4 else s

/-- Whether PWR_CTL.PREFER throttles some classes last. -/
def State.prefers (s : State) : Bool := s.get R.PWR_CTL_PREFER == 1 || s.get R.PWR_CTL_PREFER == 2

/-- One step up or down. With PREFER the classes throttled last step only while PWR_STAT.LEVEL, which is that of the others, is 63;
their level is the model's own (R428, log entry 148). -/
def State.levelStep (s : State) (up : Bool) : State :=
  let l := s.get R.PWR_STAT_LEVEL
  let last := if s.prefers then s.power.lastLevel else 0
  let onLast := s.prefers && (if up then l == 63 else decide (0 < last))
  let s := if onLast then s else s.set R.PWR_STAT_LEVEL (if up then l + 1 else l - 1)
  { s with power := { s.power with
      sinceStep := 0, sinceRaise := if up then 0 else s.power.sinceRaise,
      lastLevel := if !onLast then last else if up then last + 1 else last - 1 } }

/-- The governor outside brake (R428); after a brake the climb down ignores HYST_US (R431). -/
def State.govern (s : State) (watts : Nat) : State :=
  let cap := s.get R.PWR_STAT_CAP_W
  let l := s.get R.PWR_STAT_LEVEL
  let may := s.power.sinceStep == 12
  if cap < watts then
    let s := { s with power := { s.power with climbing := false } }
    if may ∧ (l < 63 ∨ (s.prefers ∧ s.power.lastLevel < 63)) then s.levelStep true else s
  else if 100 * watts < 98 * cap ∧ (0 < l ∨ (s.prefers ∧ 0 < s.power.lastLevel)) then
    if may ∧ (s.power.climbing ∨ s.get R.PWR_CTL_HYST_US ≤ 10 * s.power.sinceRaise) then s.levelStep false else s
  else { s with power := { s.power with climbing := false } }

/-- The governor in brake: one step up at every sample above the brake floor (R430). -/
def State.governBrake (s : State) (watts : Nat) : State :=
  if s.floorCw < 100 * watts ∧ s.get R.PWR_STAT_LEVEL < 63 then
    { s.set R.PWR_STAT_LEVEL (s.get R.PWR_STAT_LEVEL + 1) with power := { s.power with sinceStep := 0 } }
  else s

/-- POWER_SAMPLE (R426, R428). A sample at which brake is entered leaves the level at the entry's. -/
def execPowerSample (watts celsius : Nat) (pwrbrakeLow : Bool) (s : State) : Host.Outcome State Fault Refusal :=
  ok (s.whenLive (fun s =>
    let was := s.flag R.PWR_STAT_BRAKE
    let s := ((s.set R.PWR_STAT_MEAS_W watts).meter watts).tallySample watts
    let s := (s.sampleCauses watts pwrbrakeLow).readJunction celsius
    if !s.live then s
    else if was then s.governBrake watts
    else if s.flag R.PWR_STAT_BRAKE then s
    else s.govern watts))

/-- OVER_CAP_SAMPLES (R429): fifty consecutive samples lay more than 5 % above the cap. -/
def execOverCapSamples (s : State) : Host.Outcome State Fault Refusal :=
  ok (s.whenLive (fun s => { s with power := { s.power with overSamples := 50 } }.brake 4))

/-- BRAKE_EXIT (R431): no cause is left and 100 samples lay at or below the cap; the level climbs down. -/
def execBrakeExit (s : State) : Host.Outcome State Fault Refusal :=
  ok (s.whenLive (fun s =>
    if s.flag R.PWR_STAT_BRAKE ∧ s.power.causes = 0 ∧ s.power.underSamples = 100 then
      { s.set R.PWR_STAT_BRAKE 0 with power := { s.power with climbing := true } }
    else s))

/-- A new cap; one lowered more than STEP_W below the latest measured power is a brake cause (R429). -/
def State.setCap (s : State) (capW : Nat) : State :=
  let lower := decide (capW < s.get R.PWR_STAT_CAP_W) && decide (capW + s.get R.PWR_CTL_STEP_W < s.get R.PWR_STAT_MEAS_W)
  let s := s.set R.PWR_STAT_CAP_W capW
  if lower then s.brake 2 else s

/-- CAP_SET (R427, R429): a body of 16 B; the response gives the cap in force. -/
def execCapSet (h : Hdr) (capW seq : Nat) (reserved : Bool) (s : State) : Host.Outcome State Fault Refusal :=
  ok (s.request h 0x41 true true (h.length == 16) (fun x => capSetOf x == (capW, seq, reserved)) (fun s =>
    let e := firstErr [(reserved, .format), (decide (1050 < capW) || decide (100 * capW < s.floorCw), .bounds),
      (decide (seq ≤ s.get R.PWR_CAP_SEQ_LAST_SEQ), .permission)]
    let s := if e = .none then (s.set R.PWR_CAP_SEQ_LAST_SEQ seq).setCap capW else s
    s.answer h.path h.reqId 0x41 (statusBody e (packBytes [(16, s.get R.PWR_STAT_CAP_W), (48, 0)]))))

end Sys2Proof.Machine
end

