-- ==== Sys2Proof/Machine/Ring.lean ====
section
/-! DEFINITION. The rows of the coherence rings and their arbiter (R125, R126, R130 to R133, Tables 5-2 to 5-4). -/

namespace Sys2Proof.Machine

/-- The line's table entry and the request at its head, for a row that acts on it. -/
def State.onLine (s : State) (l : Nat) (f : RingLine → RingReq → State → State) : State :=
  s.whenLive (fun s => match tget l s.home.lines with
    | some r => match r.queue with
      | q :: _ => f r q s
      | [] => s
    | none => s)

/-- REQ (R130): it takes its place by line. A REQ that no access of the model sent asks for the line alone. -/
def execReq (lineAddr stop : Nat) (ownership : Bool) (s : State) : Host.Outcome State Fault Refusal :=
  ok (s.whenLive (fun s =>
    if stop = 0 ∨ 87 ≤ stop ∨ (stopTile stop).any (bit s.boot.fuses.fused) then s
    else match s.home.ops.find? (fun (o : Nat × HomeOp) => o.2.line == some lineAddr && o.2.stop == stop &&
        o.2.own == ownership && o.2.sent && !o.2.queued) with
      | some (id, _) => (s.modOp id (fun o => { o with queued := true })).arbitrate lineAddr ⟨stop, ownership, id⟩
      | none =>
        let a := s.hereAccess (lineAddr * 128) 0 (.write []) .drop none none
        let o : HomeOp := { a.op stop 137 with
          tile := (stopTile stop).bind s.logical, own := ownership, line := some lineAddr, sent := true, queued := true }
        (s.openOp o).arbitrate lineAddr ⟨stop, ownership, s.home.nextOp⟩))

/-- What a snoop meets at a tile (Table 5-2): a held line answers HELD and stays; E and M supply the line; an ownership
snoop takes it. Every stream entry of the line is STALE (R121). -/
def State.snoopTile (s : State) (line tile stop : Nat) (q : RingReq) : State × Bool × Bool :=
  let t := s.tile tile
  if t.held.contains line then (s, false, true)
  else
    let t' := if q.own then t.drop [line]
              else { t.stale [line] with l1 := tmod line (fun st => if st = 4 then 4 else 1) t.l1 }
    let s := s.setTile tile t'
    if t.owns line then (s.emit (.lineData line stop q.stop), true, false) else (s, false, false)

/-- What a snoop meets at a stop: nothing at the requester's own, a speculative read at the home when OWNED is clear, a tile
otherwise (R131). `owned` is the mark that the snoop carries. -/
def State.snoopStop (s : State) (line stop : Nat) (q : RingReq) (owned : Bool) : State × Bool × Bool × Bool :=
  if stop = q.stop then (s, false, false, false)
  else if stop = lineStop line then (s, false, false, !owned)
  else match (stopTile stop).bind s.logical with
    | some l => match s.snoopTile line l stop q with
      | (s, o, h) => (s, o, h, false)
    | none => (s, false, false, false)

/-- SNP passes a stop (R131): on ring A the stops 1 to 43 in order, on ring B 86 down to 44. The last stop of a half sends
HALF to the home. -/
def execSnp (lineAddr stop : Nat) (s : State) : Host.Outcome State Fault Refusal :=
  ok (s.onLine lineAddr (fun r q s =>
    if r.phase ≠ .snooping then s
    else if stop ≤ 43 ∧ stop = r.posA + 1 then
      match s.snoopStop lineAddr stop q r.ownedA with
      | (s, o, h, sp) =>
        let s := s.setLine lineAddr { r with posA := stop, ownedA := r.ownedA || o, heldA := r.heldA || h, spec := r.spec || sp }
        if stop = 43 then s.ringMsg 2 lineAddr 43 (lineStop lineAddr) (r.ownedA || o) (r.heldA || h) 0 else s
    else if 44 ≤ stop ∧ stop + 1 = r.posB then
      match s.snoopStop lineAddr stop q r.ownedB with
      | (s, o, h, sp) =>
        let s := s.setLine lineAddr { r with posB := stop, ownedB := r.ownedB || o, heldB := r.heldB || h, spec := r.spec || sp }
        if stop = 44 then s.ringMsg 2 lineAddr 44 (lineStop lineAddr) (r.ownedB || o) (r.heldB || h) 0 else s
    else s))

/-- HALF (R132): with both in, the home sends RETRY, or, once remote copies are gone (R128), DONE with or without data. -/
def execHalf (lineAddr : Nat) (ringA : Bool) (s : State) : Host.Outcome State Fault Refusal :=
  settled (s.onLine lineAddr (fun r q s =>
    if r.phase ≠ .snooping ∨ (if ringA then r.posA ≠ 43 else r.posB ≠ 44) then s
    else
      let r := if ringA then { r with halfA := true } else { r with halfB := true }
      if !(r.halfA && r.halfB) then s.setLine lineAddr r
      else if r.heldA || r.heldB then
        (s.setLine lineAddr { r with phase := .retry, spec := false }).ringMsg 5 lineAddr (lineStop lineAddr) 0 false true 0
      else if q.own ∧ (tget q.op s.home.ops).isSome then
        ((s.setLine lineAddr { r with phase := .acks }).askCopies q.op).opReady q.op
      else (s.setLine lineAddr r).grantLine lineAddr))

/-- What DONE does at a tile: its L1 has the line in the granted state, and a line won for a store is held (R125). -/
def State.winLine (s : State) (line tile grant : Nat) (own : Bool) : State :=
  let t := s.tile tile
  let had := t.owns line
  s.setTile tile { t with l1 := tset line grant t.l1,
                          held := if own && !had then line :: t.held.filter (· != line) else t.held }

/-- DONE (R132): the requester takes its state, performs the access that asked, and FIN goes to the arbiter. -/
def execDone (lineAddr : Nat) (s : State) : Host.Outcome State Fault Refusal :=
  settled (s.onLine lineAddr (fun r q s =>
    if r.phase ≠ .done then s
    else
      let g := s.grantOf lineAddr q.stop q.own
      let s := match (stopTile q.stop).bind s.logical with
        | some l => s.winLine lineAddr l g q.own
        | none => s
      let s := (s.setLine lineAddr { r with phase := .fin }).ringMsg 4 lineAddr q.stop 0 false false 0
      match tget q.op s.home.ops with
      | some o =>
        let s := { s with home := { s.home with ops := terase q.op s.home.ops } }
        ((s.performOp o).pumpReqs q.stop).pumpOrder
      | none => s))

/-- FIN (R132): the arbiter releases the line; the next request of the line is snooped. -/
def execFin (lineAddr : Nat) (s : State) : Host.Outcome State Fault Refusal :=
  ok (s.onLine lineAddr (fun r q s =>
    if r.phase ≠ .fin then s
    else
      let s := s.releaseLine lineAddr
      match (stopTile q.stop).bind s.logical with
      | some l => s.restTile l
      | none => s))

/-- RETRY (R126): the request keeps its place. -/
def execRetry (lineAddr : Nat) (s : State) : Host.Outcome State Fault Refusal :=
  ok (s.onLine lineAddr (fun r _ s => if r.phase = .retry then s.setLine lineAddr { r with phase := .retried } else s))

/-- SNOOP_REISSUE (R126): the same request's snoop, 64 cycles after the one that met the hold, which has ended by then (R125). -/
def execSnoopReissue (lineAddr : Nat) (s : State) : Host.Outcome State Fault Refusal :=
  ok (s.onLine lineAddr (fun r _ s =>
    if r.phase = .retried then
      ((s.modTiles (fun _ t => { t with held := t.held.filter (· != lineAddr) })).setLine lineAddr
        { r with phase := .waiting }).issueSnoop lineAddr
    else s))

/-- HOLD_EXPIRY (R125). -/
def execHoldExpiry (tile lineAddr : Nat) (s : State) : Host.Outcome State Fault Refusal :=
  ok (s.whenLive (fun s =>
    s.setTile tile { s.tile tile with held := (s.tile tile).held.filter (· != lineAddr) }))

end Sys2Proof.Machine
end

