-- ==== Sys2Proof/Machine/TileAccess.lean ====
section
/-! DEFINITION. The rows of tile instructions that reach memory or counters: the instruction, then what its completion does
within the step, and the parking of a KERNEL whose context stalls (R145). -/

namespace Sys2Proof.Machine

/-- A KERNEL whose context has stalled parks at its first segment without translation; one that is cancelled ends at the
boundary where it stands (R67, R145). -/
def State.afterTile (s : State) (c : At) : State :=
  match s.ctx c with
  | none => s
  | some x =>
    match s.clauseAt x.clause with
    | none => s
    | some k =>
      let s := if x.mode = .parked ∧ k.stage = .running ∧ k.ending.isNone then
          (s.modClause x.clause (fun k => { k with segment := max k.segment k.clear, timed := k.timed || decide (0 < k.clear) })).park
            x.clause
        else s
      if k.cancelled then s.cancel x.clause else s

/-- The outcome of a tile instruction that may complete accesses. -/
def tiled (c : At) (s : State) : Host.Outcome State Fault Refusal := .next (s.settle.afterTile c)

/-- LD (Table 6-3). -/
def execLd (c : At) (f : FmtM) (ecc : Ecc) (s : State) : Host.Outcome State Fault Refusal := tiled c (runLd c f ecc s)

/-- LDS. -/
def execLds (c : At) (f : FmtM) (ecc : Ecc) (s : State) : Host.Outcome State Fault Refusal := tiled c (runLds c f ecc s)

/-- ST. -/
def execSt (c : At) (f : FmtM) (s : State) : Host.Outcome State Fault Refusal := tiled c (runSt c f s)

/-- FENCE. -/
def execFence (c : At) (f : FmtM) (s : State) : Host.Outcome State Fault Refusal := tiled c (runFence c f s)

/-- VLD. -/
def execVld (c : At) (f : FmtVM) (ecc : Ecc) (s : State) : Host.Outcome State Fault Refusal := tiled c (runVld c f ecc s)

/-- VST. -/
def execVst (c : At) (f : FmtVM) (s : State) : Host.Outcome State Fault Refusal := tiled c (runVst c f s)

/-- AMO (R155). -/
def execAmo (c : At) (f : FmtA) (s : State) : Host.Outcome State Fault Refusal := tiled c (runAmo c f s)

/-- SPOP (R153). -/
def execSpop (c : At) (f : FmtT) (ecc : Ecc) (s : State) : Host.Outcome State Fault Refusal := tiled c (runSpop c f ecc s)

/-- SPOPS (R153). -/
def execSpops (c : At) (f : FmtT) (ecc : Ecc) (s : State) : Host.Outcome State Fault Refusal := tiled c (runSpops c f ecc s)

/-- SSKIP (R153). -/
def execSskip (c : At) (f : FmtT) (s : State) : Host.Outcome State Fault Refusal := tiled c (runSskip c f s)

/-- RUNAHEAD_ISSUE (R109, R120). -/
def execRunaheadIssue (c : At) (strm : Nat) (s : State) : Host.Outcome State Fault Refusal := tiled c (runRunaheadIssue c strm s)

/-- CTRLD (R157). -/
def execCtrld (c : At) (f : FmtC) (s : State) : Host.Outcome State Fault Refusal := tiled c (runCtrld c f s)

/-- CTRADD (R157). -/
def execCtradd (c : At) (f : FmtC) (s : State) : Host.Outcome State Fault Refusal := tiled c (runCtradd c f s)

/-- CTRWAIT (R158). -/
def execCtrwait (c : At) (f : FmtC) (s : State) : Host.Outcome State Fault Refusal := tiled c (runCtrwait c f s)

/-- CTRSET (R157). -/
def execCtrset (c : At) (f : FmtC) (s : State) : Host.Outcome State Fault Refusal := tiled c (runCtrset c f s)

/-- CTRWAIT_WAKE (R158). -/
def execCtrwaitWake (c : At) (s : State) : Host.Outcome State Fault Refusal := tiled c (runCtrwaitWake c s)

/-- SUBMIT (R160). -/
def execSubmit (c : At) (f : FmtS) (ecc : Ecc) (s : State) : Host.Outcome State Fault Refusal := tiled c (runSubmit c f ecc s)

end Sys2Proof.Machine
end

