-- ==== Sys2Proof/Machine/TileMat.lean ====
section
/-! DEFINITION. The matrix unit of a tile (R151, R203; Table 6-3, MAJ 0x28 to 0x2B). -/

namespace Sys2Proof.Machine

/-- Formats of MMA. -/
def mmaFmt (c : Nat) : Bool := (decide (2 ≤ c) && decide (c ≤ 8)) || c == 12 || c == 13

/-- Formats that S may be 1 for. -/
def mmaScaled (c : Nat) : Bool := (decide (4 ≤ c) && decide (c ≤ 8)) || c == 12

/-- The accumulator's kind after an MMA: INT32 for INT8 or INT4 with S at 0. -/
def mmaInt (c : Nat) (scaled : Bool) : Bool := isIntFmt c && !scaled

/-- Bytes of an operand: elements, then scales. -/
def mmaBytes (c k : Nat) (scaled : Bool) : Nat := 32 * k * fmtWidth c / 8 + (if scaled then k else 0)

/-- Element (row, k) of A or (k, column) of B at a packed index, decoded under its block scale at scale index `sc`. -/
def mmaElem (c k n : Nat) (scaled : Bool) (idx sc : Nat) : Num :=
  let v := elem (fmtWidth c) n idx
  if scaled then blockDecode c (elem 8 n (32 * k * fmtWidth c / 8 + sc)) v else decodeNum c v

/-- The exact sum of the 32 products of group g for output (i, j), with the invalid flag (R203). -/
def mmaGroup (c k a b : Nat) (scaled : Bool) (i j g : Nat) : Num × Bool :=
  (List.range 32).foldl (fun (acc : Num × Bool) t =>
    let x := mmaElem c k a scaled (i * k + g * 32 + t) (i * (k / 32) + g)
    let y := mmaElem c k b scaled ((g * 32 + t) * 32 + j) (g * 32 + j)
    match Num.mul x y with
    | (p, v) => match Num.add acc.1 p with
      | (s, w) => (s, acc.2 || v || w)) (Num.zero, false)

/-- Output (i, j): each group's sum added to the accumulator with one rounding under RNE, in ascending K order. -/
def mmaCell (c k a b : Nat) (scaled : Bool) (e : Env) (old i j : Nat) : Env × Nat :=
  if mmaInt c scaled then
    let sx := fun (v : Nat) => match decodeNum c v with
      | .fin true m _ => 2 ^ 32 - m
      | .fin false m _ => m
      | _ => 0
    (e, (List.range k).foldl (fun t q =>
      (t + sx (elem (fmtWidth c) a (i * k + q)) * sx (elem (fmtWidth c) b (q * 32 + j))) % 2 ^ 32) old)
  else
    (List.range (k / 32)).foldl (fun (acc : Env × Nat) g =>
      match mmaGroup c k a b scaled i j g with
      | (sum, v) => match Num.add (decodeNum 1 acc.2) sum with
        | (r, w) => acc.1.rne 1 (r, v || w)) (e, old)

/-- The 1,024 cells in row-major order. -/
def Acc.cell (a : Acc) (n : Nat) : Nat := (tget n a.cells).getD 0

def accOf (isInt : Bool) (vs : List Nat) : Acc :=
  { isInt := isInt, cells := (vs.zipIdx.filter (fun v => v.1 != 0)).map (fun v => (v.2, v.1)) }

/-- A matrix operand address: E_ALIGN unless at 256 B, E_ADDRESS unless in the tile store and within the range. -/
def matFault (x : Ctx) (a n : Nat) : Option (Nat × Err) :=
  if a % 256 ≠ 0 then some (eAlign, .align)
  else if oaHandle a ≠ 16 ∨ !x.reaches a n then some (eAddress, .bounds)
  else none

/-- Cycles of the matrix unit in 1,024-MAC steps: one for each 16-bit k, half as many at 8 and 6 bits, a quarter at 4. -/
def mmaCycles (c k : Nat) : Nat := if fmtWidth c = 16 then k else if fmtWidth c = 4 then ceilDiv k 4 else ceilDiv k 2

/-- MMA; in brake the context stalls at it (R430). A value of RK outside 32 to 4,096 in steps of 32 has no stated result: the
accumulator takes free values (log entry 17). -/
def execMma (c : At) (f : FmtX) (ecc : Ecc) (s : State) : Host.Outcome State Fault Refusal :=
  let fm := f.fmt.toNat
  ok (s.inCtx c (mmaFmt fm && (!f.s || mmaScaled fm)) (fun x s =>
    let k := (x.sreg f.rk).toNat
    let a := (x.sreg f.ra).toNat
    let b := (x.sreg f.rb).toNat
    if s.flag R.PWR_STAT_BRAKE then s
    else if k % 32 ≠ 0 ∨ k < 32 ∨ 4096 < k then
      (s.setCtx c (x.setAcc f.acc (accOf (mmaInt fm f.s) ((List.range 1024).map (fun i => s.free i % 2 ^ 32)))).advance).freshen
    else
      match matFault x a (mmaBytes fm k f.s), matFault x b (mmaBytes fm k f.s) with
      | some (code, e), _ => s.exception c x code a e
      | none, some (code, e) => s.exception c x code b e
      | none, none => s.tsGuard c x a ecc (fun s =>
        let an := leNat (s.tsRead c x (oaOffset a) (mmaBytes fm k f.s))
        let bn := leNat (s.tsRead c x (oaOffset b) (mmaBytes fm k f.s))
        let r := (List.range 1024).foldl (fun (acc : Env × List Nat) n =>
          match mmaCell fm k an bn f.s acc.1 ((x.acc f.acc).cell n) (n / 32) (n % 32) with
          | (e, v) => (e, acc.2 ++ [v])) (x.env, [])
        let s := s.charge (((s.clauseAt x.clause).map Clause.partition).getD 0) 7 (mmaCycles fm k)
        s.setCtx c ((x.withEnv r.1).setAcc f.acc (accOf (mmaInt fm f.s) r.2)).advance)))

/-- MZERO keeps the kind; the other fields are 0. -/
def execMzero (c : At) (f : FmtX) (s : State) : Host.Outcome State Fault Refusal :=
  ok (s.regs1 c (f.ra == 0 && f.rb == 0 && f.rk == 0 && f.fmt == 0 && !f.s) (fun x =>
    x.setAcc f.acc { x.acc f.acc with cells := [] }))

/-- MLD: 1,024 32-bit values bit for bit; FMT sets the kind. -/
def execMld (c : At) (f : FmtX) (ecc : Ecc) (s : State) : Host.Outcome State Fault Refusal :=
  ok (s.inCtx c (f.fmt == 1 || f.fmt == 10) (fun x s =>
    let a := (x.sreg f.ra).toNat
    match matFault x a 4096 with
    | some (code, e) => s.exception c x code a e
    | none => s.tsGuard c x a ecc (fun s =>
      s.setCtx c (x.setAcc f.acc (accOf (f.fmt == 10) (elems 32 1024 (s.tsRead c x (oaOffset a) 4096)))).advance)))

/-- MST: row-major, converted from the accumulator's kind to FMT under RMODE. -/
def execMst (c : At) (f : FmtX) (s : State) : Host.Outcome State Fault Refusal :=
  let fm := f.fmt.toNat
  ok (s.inCtx c (decide (fm ≤ 14)) (fun x s =>
    let kind := if (x.acc f.acc).isInt then 10 else 1
    let a := (x.sreg f.ra).toNat
    if !convAllowed kind fm then s.exception c x eIllegal 0 .format
    else match matFault x a (1024 * fmtWidth fm / 8) with
    | some (code, e) => s.exception c x code a e
    | none =>
      let r := (List.range 1024).foldl (fun (acc : Env × List Nat) n =>
        match acc.1.conv kind fm ((x.acc f.acc).cell n) with
        | (e, v) => (e, acc.2 ++ [v])) (x.env, [])
      (s.tsWrite c x (oaOffset a) (elemBytes (fmtWidth fm) r.2)).setCtx c (x.withEnv r.1).advance))

end Sys2Proof.Machine
end

