-- ==== Sys2Proof/Machine/TileScalar.lean ====
section
/-! DEFINITION. Scalar instructions and control flow of a tile program (Table 6-3, MAJ 0x01 to 0x14). -/

namespace Sys2Proof.Machine

/-- 1 or 0 (SLT and SLTU). -/
def boolWord (b : Bool) : Word := if b then 1 else 0

/-- The unsigned quotient; all ones by 0. -/
def wordDivu (a b : Word) : Word := if b = 0 then BitVec.allOnes 64 else a / b

/-- The signed quotient toward zero; -1 by 0; the most negative value by -1 is itself. -/
def wordDiv (a b : Word) : Word := if b = 0 then BitVec.allOnes 64 else BitVec.sdiv a b

/-- Bits set. -/
def wordPopc (a : Word) : Word := BitVec.ofNat 64 (popcount 64 a.toNat)

/-- ADD, wrapping. -/
def execAdd (c : At) (f : FmtS) (s : State) : Host.Outcome State Fault Refusal :=
  ok (s.scalar c f.rd (fun x => x.sreg f.ra + x.sreg f.rb))

/-- SUB. -/
def execSub (c : At) (f : FmtS) (s : State) : Host.Outcome State Fault Refusal :=
  ok (s.scalar c f.rd (fun x => x.sreg f.ra - x.sreg f.rb))

/-- AND. -/
def execAnd (c : At) (f : FmtS) (s : State) : Host.Outcome State Fault Refusal :=
  ok (s.scalar c f.rd (fun x => x.sreg f.ra &&& x.sreg f.rb))

/-- OR. -/
def execOr (c : At) (f : FmtS) (s : State) : Host.Outcome State Fault Refusal :=
  ok (s.scalar c f.rd (fun x => x.sreg f.ra ||| x.sreg f.rb))

/-- XOR. -/
def execXor (c : At) (f : FmtS) (s : State) : Host.Outcome State Fault Refusal :=
  ok (s.scalar c f.rd (fun x => x.sreg f.ra ^^^ x.sreg f.rb))

/-- SHL by RB[5:0]. -/
def execShl (c : At) (f : FmtS) (s : State) : Host.Outcome State Fault Refusal :=
  ok (s.scalar c f.rd (fun x => x.sreg f.ra <<< ((x.sreg f.rb).toNat % 64)))

/-- SHR, logical, by RB[5:0]. -/
def execShr (c : At) (f : FmtS) (s : State) : Host.Outcome State Fault Refusal :=
  ok (s.scalar c f.rd (fun x => x.sreg f.ra >>> ((x.sreg f.rb).toNat % 64)))

/-- SRA by RB[5:0]. -/
def execSra (c : At) (f : FmtS) (s : State) : Host.Outcome State Fault Refusal :=
  ok (s.scalar c f.rd (fun x => (x.sreg f.ra).sshiftRight ((x.sreg f.rb).toNat % 64)))

/-- MUL: the low 64 bits. -/
def execMul (c : At) (f : FmtS) (s : State) : Host.Outcome State Fault Refusal :=
  ok (s.scalar c f.rd (fun x => x.sreg f.ra * x.sreg f.rb))

/-- MULHU: the high 64 bits of the unsigned product. -/
def execMulhu (c : At) (f : FmtS) (s : State) : Host.Outcome State Fault Refusal :=
  ok (s.scalar c f.rd (fun x => BitVec.ofNat 64 ((x.sreg f.ra).toNat * (x.sreg f.rb).toNat / 2 ^ 64)))

/-- DIVU. -/
def execDivu (c : At) (f : FmtS) (s : State) : Host.Outcome State Fault Refusal :=
  ok (s.scalar c f.rd (fun x => wordDivu (x.sreg f.ra) (x.sreg f.rb)))

/-- DIV. -/
def execDiv (c : At) (f : FmtS) (s : State) : Host.Outcome State Fault Refusal :=
  ok (s.scalar c f.rd (fun x => wordDiv (x.sreg f.ra) (x.sreg f.rb)))

/-- MIN, signed. -/
def execMin (c : At) (f : FmtS) (s : State) : Host.Outcome State Fault Refusal :=
  ok (s.scalar c f.rd (fun x => if BitVec.slt (x.sreg f.ra) (x.sreg f.rb) then x.sreg f.ra else x.sreg f.rb))

/-- MAX, signed. -/
def execMax (c : At) (f : FmtS) (s : State) : Host.Outcome State Fault Refusal :=
  ok (s.scalar c f.rd (fun x => if BitVec.slt (x.sreg f.ra) (x.sreg f.rb) then x.sreg f.rb else x.sreg f.ra))

/-- MINU. -/
def execMinu (c : At) (f : FmtS) (s : State) : Host.Outcome State Fault Refusal :=
  ok (s.scalar c f.rd (fun x => if BitVec.ult (x.sreg f.ra) (x.sreg f.rb) then x.sreg f.ra else x.sreg f.rb))

/-- MAXU. -/
def execMaxu (c : At) (f : FmtS) (s : State) : Host.Outcome State Fault Refusal :=
  ok (s.scalar c f.rd (fun x => if BitVec.ult (x.sreg f.ra) (x.sreg f.rb) then x.sreg f.rb else x.sreg f.ra))

/-- SLT. -/
def execSlt (c : At) (f : FmtS) (s : State) : Host.Outcome State Fault Refusal :=
  ok (s.scalar c f.rd (fun x => boolWord (BitVec.slt (x.sreg f.ra) (x.sreg f.rb))))

/-- SLTU. -/
def execSltu (c : At) (f : FmtS) (s : State) : Host.Outcome State Fault Refusal :=
  ok (s.scalar c f.rd (fun x => boolWord (BitVec.ult (x.sreg f.ra) (x.sreg f.rb))))

/-- POPC; RB is 0, or E_ILLEGAL (R146). -/
def execPopc (c : At) (f : FmtS) (s : State) : Host.Outcome State Fault Refusal :=
  ok (s.regs1 c (f.rb == 0) (fun x => x.setS f.rd (wordPopc (x.sreg f.ra))))

/-- ADDI: IMM14 sign-extended. -/
def execAddi (c : At) (f : FmtI) (s : State) : Host.Outcome State Fault Refusal :=
  ok (s.regs1 c true (fun x => x.setS f.rd (x.sreg f.ra + f.imm.signExtend 64)))

/-- ANDI: IMM14 zero-extended. -/
def execAndi (c : At) (f : FmtI) (s : State) : Host.Outcome State Fault Refusal :=
  ok (s.regs1 c true (fun x => x.setS f.rd (x.sreg f.ra &&& f.imm.zeroExtend 64)))

/-- ORI. -/
def execOri (c : At) (f : FmtI) (s : State) : Host.Outcome State Fault Refusal :=
  ok (s.regs1 c true (fun x => x.setS f.rd (x.sreg f.ra ||| f.imm.zeroExtend 64)))

/-- XORI. -/
def execXori (c : At) (f : FmtI) (s : State) : Host.Outcome State Fault Refusal :=
  ok (s.regs1 c true (fun x => x.setS f.rd (x.sreg f.ra ^^^ f.imm.zeroExtend 64)))

/-- SHLI; IMM14[13:6] is 0, or E_ILLEGAL. -/
def execShli (c : At) (f : FmtI) (s : State) : Host.Outcome State Fault Refusal :=
  ok (s.regs1 c (decide (f.imm.toNat < 64)) (fun x => x.setS f.rd (x.sreg f.ra <<< (f.imm.toNat % 64))))

/-- SHRI by IMM14[5:0]; Table 6-3 marks IMM14[13:6] as 0 for SHLI alone. -/
def execShri (c : At) (f : FmtI) (s : State) : Host.Outcome State Fault Refusal :=
  ok (s.regs1 c true (fun x => x.setS f.rd (x.sreg f.ra >>> (f.imm.toNat % 64))))

/-- SRAI by IMM14[5:0]. -/
def execSrai (c : At) (f : FmtI) (s : State) : Host.Outcome State Fault Refusal :=
  ok (s.regs1 c true (fun x => x.setS f.rd ((x.sreg f.ra).sshiftRight (f.imm.toNat % 64))))

/-- SLTI: IMM14 sign-extended. -/
def execSlti (c : At) (f : FmtI) (s : State) : Host.Outcome State Fault Refusal :=
  ok (s.regs1 c true (fun x => x.setS f.rd (boolWord (BitVec.slt (x.sreg f.ra) (f.imm.signExtend 64)))))

/-- LUI: sign-extended IMM20 shifted left by 14. -/
def execLui (c : At) (f : FmtU) (s : State) : Host.Outcome State Fault Refusal :=
  ok (s.regs1 c true (fun x => x.setS f.rd (f.imm.signExtend 64 <<< 14)))

/-- SETH: RD[63:44] takes IMM20, the rest of RD stays. -/
def execSeth (c : At) (f : FmtU) (s : State) : Host.Outcome State Fault Refusal :=
  ok (s.regs1 c true (fun x => x.setS f.rd (f.imm ++ (x.sreg f.rd).extractLsb' 0 44)))

/-- BEQ. -/
def execBeq (c : At) (f : FmtB) (s : State) : Host.Outcome State Fault Refusal :=
  ok (s.branch c f (fun a b => a == b))

/-- BNE. -/
def execBne (c : At) (f : FmtB) (s : State) : Host.Outcome State Fault Refusal :=
  ok (s.branch c f (fun a b => a != b))

/-- BLT, signed. -/
def execBlt (c : At) (f : FmtB) (s : State) : Host.Outcome State Fault Refusal :=
  ok (s.branch c f (fun a b => BitVec.slt a b))

/-- BGE, signed. -/
def execBge (c : At) (f : FmtB) (s : State) : Host.Outcome State Fault Refusal :=
  ok (s.branch c f (fun a b => !BitVec.slt a b))

/-- BLTU. -/
def execBltu (c : At) (f : FmtB) (s : State) : Host.Outcome State Fault Refusal :=
  ok (s.branch c f (fun a b => BitVec.ult a b))

/-- BGEU. -/
def execBgeu (c : At) (f : FmtB) (s : State) : Host.Outcome State Fault Refusal :=
  ok (s.branch c f (fun a b => !BitVec.ult a b))

/-- J: OFF26 instructions from the jump itself. -/
def execJ (c : At) (off : BitVec 26) (s : State) : Host.Outcome State Fault Refusal :=
  ok (s.inCtx c true (fun x s => s.jumpTo c x ((x.pc : Int) + off.toInt)))

/-- JAL: s62 takes the index of the next instruction; a bad target writes nothing. -/
def execJal (c : At) (off : BitVec 26) (s : State) : Host.Outcome State Fault Refusal :=
  ok (s.inCtx c true (fun x s =>
    let target := (x.pc : Int) + off.toInt
    if 0 ≤ target ∧ target < (x.progLen : Int) then
      s.jumpTo c (x.setS 62 (BitVec.ofNat 64 (x.pc + 1))) target
    else s.exception c x eIllegal 0 .format))

/-- JR: to the index in RA; RD and RB are 0, or E_ILLEGAL. -/
def execJr (c : At) (f : FmtS) (s : State) : Host.Outcome State Fault Refusal :=
  ok (s.inCtx c (f.rd == 0 && f.rb == 0) (fun x s => s.jumpTo c x (x.sreg f.ra).toNat))

end Sys2Proof.Machine
end

