-- ==== Sys2Proof/Machine/TileVec.lean ====
section
/-! DEFINITION. Vector and predicate instructions of a tile program (Table 6-3, MAJ 0x20 to 0x26; R148 to R150). -/

namespace Sys2Proof.Machine

/-- A lane operation of Table 6-3: integers wrap and set no flag; a float result is rounded once (R196, R202). -/
def laneArith (c : Nat) (int : Nat → Nat → Nat → Nat) (flt : Num → Num → Num → Num × Bool) (a b d : Nat) (e : Env) :
    Env × Nat :=
  if isIntFmt c then (e, int a b d % 2 ^ fmtWidth c)
  else e.round c (flt (decodeNum c a) (decodeNum c b) (decodeNum c d))

/-- Elementwise minimum or maximum (`lo` for minimum). The spec states no result for a NaN beside a number or for two
zeros of unlike signs: a free value picks between the two codes (log entry 17). -/
def laneMinMax (c : Nat) (lo : Bool) (free a b : Nat) : Nat :=
  let x := decodeNum c a
  let y := decodeNum c b
  if x.isNan && y.isNan then nanCode c
  else if x.isNan then (if free % 2 = 1 then nanCode c else b)
  else if y.isNan then (if free % 2 = 1 then nanCode c else a)
  else match Num.cmp x y with
    | some .lt => if lo then a else b
    | some .gt => if lo then b else a
    | _ => if free % 2 = 1 then a else b

/-- The magnitude; an integer wraps, a NaN is canonical. -/
def laneAbs (c a : Nat) : Nat :=
  if isIntFmt c then (if bit a (fmtWidth c - 1) then (2 ^ fmtWidth c - a) % 2 ^ fmtWidth c else a)
  else if (decodeNum c a).isNan then nanCode c
  else a % 2 ^ (fmtWidth c - 1)

/-- A shift by fewer bits than the width; the spec states no result for a longer one, which is a free value (log entry
17). `kind`: 0 left, 1 logical right, 2 arithmetic right. -/
def laneShift (c kind free a n : Nat) : Nat :=
  let w := fmtWidth c
  if w ≤ n then free % 2 ^ w
  else if kind = 0 then a * 2 ^ n % 2 ^ w
  else if kind = 1 ∨ !bit a (w - 1) then a / 2 ^ n
  else a / 2 ^ n + (2 ^ n - 1) * 2 ^ (w - n)

/-- Lane operands of VA, VB and VD. -/
def Ctx.lane3 (x : Ctx) (f : FmtV) (i : Nat) : Nat × Nat × Nat :=
  let c := f.fmt.toNat
  (laneGet c (x.vreg f.va) i, laneGet c (x.vreg f.vb) i, laneGet c (x.vreg f.vd) i)

/-- A lane arithmetic instruction. -/
def State.vecArith (s : State) (c : At) (f : FmtV) (int : Nat → Nat → Nat → Nat)
    (flt : Num → Num → Num → Num × Bool) : State :=
  s.vector c f (vecFmt f.fmt.toNat) (fun _ x i e =>
    match x.lane3 f i with
    | (a, b, d) => laneArith f.fmt.toNat int flt a b d e)

/-- A lane instruction that rounds nothing. -/
def State.vecPlain (s : State) (c : At) (f : FmtV) (legal : Bool) (g : Nat → Nat → Nat → Nat) : State :=
  s.vector c f legal (fun free x i e =>
    match x.lane3 f i with
    | (a, b, _) => (e, g (free i) a b))

/-- VADD. -/
def execVadd (c : At) (f : FmtV) (s : State) : Host.Outcome State Fault Refusal :=
  ok (s.vecArith c f (fun a b _ => a + b) (fun x y _ => Num.add x y))

/-- VSUB. -/
def execVsub (c : At) (f : FmtV) (s : State) : Host.Outcome State Fault Refusal :=
  ok (s.vecArith c f (fun a b _ => a + (2 ^ fmtWidth f.fmt.toNat - b)) (fun x y _ => Num.add x y.neg))

/-- VMUL. -/
def execVmul (c : At) (f : FmtV) (s : State) : Host.Outcome State Fault Refusal :=
  ok (s.vecArith c f (fun a b _ => a * b) (fun x y _ => Num.mul x y))

/-- VFMA: VD + VA × VB, rounded once. -/
def execVfma (c : At) (f : FmtV) (s : State) : Host.Outcome State Fault Refusal :=
  ok (s.vecArith c f (fun a b d => d + a * b) (fun x y z => Num.fma z x y))

/-- VMIN and VMAX (`lo` for minimum): a float format steps SEED once an enabled element in mode 2, as Table 8-6 gives
them RMODE and R194 draws for an exact result too. -/
def State.vecMinMax (s : State) (c : At) (f : FmtV) (lo : Bool) : State :=
  s.vector c f (vecFmt f.fmt.toNat) (fun free x i e =>
    match x.lane3 f i with
    | (a, b, _) => (if isIntFmt f.fmt.toNat then e else e.draw.1, laneMinMax f.fmt.toNat lo (free i) a b))

/-- VMIN. -/
def execVmin (c : At) (f : FmtV) (s : State) : Host.Outcome State Fault Refusal :=
  ok (s.vecMinMax c f true)

/-- VMAX. -/
def execVmax (c : At) (f : FmtV) (s : State) : Host.Outcome State Fault Refusal :=
  ok (s.vecMinMax c f false)

/-- VABS; VB is 0. -/
def execVabs (c : At) (f : FmtV) (s : State) : Host.Outcome State Fault Refusal :=
  ok (s.vecPlain c f (vecFmt f.fmt.toNat && f.vb == 0) (fun _ a _ => laneAbs f.fmt.toNat a))

/-- Registers of a VFMAW group: 2 for 16-bit formats, 4 for 8-bit ones. -/
def wideRegs (c : Nat) : Nat := 32 / fmtWidth c

/-- Formats of VFMAW (R149). -/
def wideFmt (c : Nat) : Bool := c == 2 || c == 3 || c == 4 || c == 5 || c == 12

/-- VFMAW: element i of VA and VB accumulates into lane i mod 64 of VD + i div 64 (R149). -/
def execVfmaw (c : At) (f : FmtV) (s : State) : Host.Outcome State Fault Refusal :=
  ok (s.inCtx c (wideFmt f.fmt.toNat && f.vd.toNat % wideRegs f.fmt.toNat == 0) (fun x s =>
    let fm := f.fmt.toNat
    let p := x.preg f.pg
    let dst := if fm = 12 then 10 else 1
    -- VA and VB are read before any register of the group is written.
    let x0 := x
    let x := (List.range (wideRegs fm)).foldl (fun (x : Ctx) r =>
      let vd := f.vd + BitVec.ofNat 5 r
      match mapLanes dst p x.env (fun j e =>
        let a := laneGet fm (x0.vreg f.va) (r * 64 + j)
        let b := laneGet fm (x0.vreg f.vb) (r * 64 + j)
        let d := laneGet dst (x.vreg vd) j
        if fm = 12 then
          let sx := fun v => if bit v 7 then v + (2 ^ 32 - 256) else v
          (e, (d + sx a * sx b) % 2 ^ 32)
        else e.round 1 (Num.fma (decodeNum 1 d) (decodeNum fm a) (decodeNum fm b))) with
      | (e, vs) => (x.withEnv e).setV vd (blend (byteMask (byteOn dst p)) (lanesTo dst vs) (x.vreg vd))) x
    s.setCtx c x.advance))

/-- VAND. -/
def execVand (c : At) (f : FmtV) (s : State) : Host.Outcome State Fault Refusal :=
  ok (s.vecPlain c f (vecInt f.fmt.toNat) (fun _ a b => Nat.land a b))

/-- VOR. -/
def execVor (c : At) (f : FmtV) (s : State) : Host.Outcome State Fault Refusal :=
  ok (s.vecPlain c f (vecInt f.fmt.toNat) (fun _ a b => Nat.lor a b))

/-- VXOR. -/
def execVxor (c : At) (f : FmtV) (s : State) : Host.Outcome State Fault Refusal :=
  ok (s.vecPlain c f (vecInt f.fmt.toNat) (fun _ a b => Nat.xor a b))

/-- VSHL by the same element of VB. -/
def execVshl (c : At) (f : FmtV) (s : State) : Host.Outcome State Fault Refusal :=
  ok (s.vecPlain c f (vecInt f.fmt.toNat) (fun free a b => laneShift f.fmt.toNat 0 free a b))

/-- VSHR, logical. -/
def execVshr (c : At) (f : FmtV) (s : State) : Host.Outcome State Fault Refusal :=
  ok (s.vecPlain c f (vecInt f.fmt.toNat) (fun free a b => laneShift f.fmt.toNat 1 free a b))

/-- VSRA, arithmetic. -/
def execVsra (c : At) (f : FmtV) (s : State) : Host.Outcome State Fault Refusal :=
  ok (s.vecPlain c f (vecInt f.fmt.toNat) (fun free a b => laneShift f.fmt.toNat 2 free a b))

/-- VSEL: each byte from VA where PG is set, else from VB. -/
def execVsel (c : At) (f : FmtV) (s : State) : Host.Outcome State Fault Refusal :=
  ok (s.regs1 c (vecFmt f.fmt.toNat) (fun x =>
    x.setV f.vd (blend (byteMask (fun j => (x.preg f.pg).getLsbD j)) (x.vreg f.va) (x.vreg f.vb))))

/-- VMOV: VA under PG; VB is 0. -/
def execVmov (c : At) (f : FmtV) (s : State) : Host.Outcome State Fault Refusal :=
  ok (s.regs1 c (vecFmt f.fmt.toNat && f.vb == 0) (fun x =>
    x.setV f.vd (blend (byteMask (byteOn f.fmt.toNat (x.preg f.pg))) (x.vreg f.va) (x.vreg f.vd))))

/-- Whether a comparison of VCMP holds; a NaN is unordered: only NE and UNORD hold then (log entry 18). -/
def condHolds (cond : Nat) (o : Option Ordering) : Bool :=
  match o, cond with
  | some .eq, 0 | some .lt, 1 | some .gt, 1 | some .lt, 2 | some .lt, 3 | some .eq, 3 => true
  | some .gt, 4 | some .gt, 5 | some .eq, 5 => true
  | none, 1 | none, 6 => true
  | _, _ => false

/-- VCMP: every bit of an enabled element's bytes takes the result, the bits of disabled elements clear. -/
def execVcmp (c : At) (f : FmtV) (cond : BitVec 3) (s : State) : Host.Outcome State Fault Refusal :=
  ok (s.regs1 c (vecFmt f.fmt.toNat && decide (f.vd.toNat < 16) && decide (cond.toNat < 7)) (fun x =>
    let fm := f.fmt.toNat
    let p := x.preg f.pg
    let o := fun i => Num.cmp (decodeNum fm (laneGet fm (x.vreg f.va) i)) (decodeNum fm (laneGet fm (x.vreg f.vb) i))
    let r := fun i => laneOn fm p i && condHolds cond.toNat (o i)
    let nan := cond.toNat == 6 && (List.range (lanesOf fm)).any (fun i => laneOn fm p i && (o i).isNone)
    (x.withEnv (x.env.raise (if nan then flInvalid else 0))).setP (f.vd.truncate 4)
      (BitVec.ofNat 256 (packElems (regWidth fm / 8)
        ((List.range (lanesOf fm)).map (fun i => if r i then 2 ^ (regWidth fm / 8) - 1 else 0))))))

/-- VCVT (R149): a part of a widening source, or a part of a narrowing destination. -/
def execVcvt (c : At) (f : FmtV) (part : BitVec 3) (s : State) : Host.Outcome State Fault Refusal :=
  let src := f.vb.toNat % 16
  let dst := f.fmt.toNat
  let wide := max (regWidth src) (regWidth dst)
  let ratio := wide / min (regWidth src) (regWidth dst)
  let n := 2048 / wide
  let so := if regWidth src < regWidth dst then part.toNat * n else 0
  let d0 := if regWidth dst < regWidth src then part.toNat * n else 0
  ok (s.regs1 c (decide (f.vb.toNat < 16) && decide (part.toNat < ratio) && convAllowed src dst) (fun x =>
    let p := x.preg f.pg
    match mapLanes dst p x.env (fun i e =>
      if d0 ≤ i ∧ i < d0 + n then
        e.conv src dst (laneGet src (x.vreg f.va) (so + (i - d0)) % 2 ^ fmtWidth src)
      else (e, 0)) with
    | (e, vs) =>
      let here := fun j => decide (d0 * regWidth dst / 8 ≤ j) && decide (j < (d0 + n) * regWidth dst / 8)
      (x.withEnv e).setV f.vd (blend (byteMask (fun j => byteOn dst p j && here j)) (lanesTo dst vs) (x.vreg f.vd))))

/-! ### Format VX -/

/-- The element as a scalar: floats zero-extended, integers sign-extended (R150). -/
def laneWord (c v : Nat) : Word :=
  if isIntFmt c ∧ bit v (fmtWidth c - 1) then BitVec.ofNat 64 (v + (2 ^ 64 - 2 ^ fmtWidth c)) else BitVec.ofNat 64 v

/-- VBCAST: every element takes the low bits of SA; SB is 0. -/
def execVbcast (c : At) (f : FmtVX) (s : State) : Host.Outcome State Fault Refusal :=
  ok (s.regs1 c (vecFmt f.fmt.toNat && f.sb == 0) (fun x =>
    x.setV f.v (lanesTo f.fmt.toNat (List.replicate (lanesOf f.fmt.toNat) (x.sreg f.sa).toNat))))

/-- VINS: element SB mod lanes takes the low bits of SA. -/
def execVins (c : At) (f : FmtVX) (s : State) : Host.Outcome State Fault Refusal :=
  ok (s.regs1 c (vecFmt f.fmt.toNat) (fun x =>
    let fm := f.fmt.toNat
    let k := (x.sreg f.sb).toNat % lanesOf fm
    x.setV f.v (lanesTo fm ((List.range (lanesOf fm)).map (fun i =>
      if i = k then (x.sreg f.sa).toNat else laneGet fm (x.vreg f.v) i)))))

/-- VEXT: SA takes element SB mod lanes. -/
def execVext (c : At) (f : FmtVX) (s : State) : Host.Outcome State Fault Refusal :=
  ok (s.regs1 c (vecFmt f.fmt.toNat) (fun x =>
    let fm := f.fmt.toNat
    x.setS f.sa (laneWord fm (laneGet fm (x.vreg f.v) ((x.sreg f.sb).toNat % lanesOf fm)))))

/-- Enabled lanes with their elements, ascending (R150: the predicate that SB[3:0] names). -/
def Ctx.onLanes (x : Ctx) (f : FmtVX) : List (Nat × Nat) :=
  ((List.range (lanesOf f.fmt.toNat)).filter (laneOn f.fmt.toNat (x.preg (f.sb.truncate 4)))).map
    (fun i => (i, laneGet f.fmt.toNat (x.vreg f.v) i))

/-- One level of the pairwise tree over lane order; a disabled lane joins nothing (R150, log entry 19). -/
def treeLevel (c : Nat) (e : Env) : List (Option Nat) → Env × List (Option Nat)
  | a :: b :: r =>
    let one := match a, b with
      | some u, some v => match e.rne c (Num.add (decodeNum c u) (decodeNum c v)) with
        | (e, w) => (e, some w)
      | some u, none => (e, some u)
      | none, v => (e, v)
    match treeLevel c one.1 r with
    | (e, t) => (e, one.2 :: t)
  | l => (e, l)

def treeSum (c : Nat) : Nat → Env → List (Option Nat) → Env × Option Nat
  | 0, e, l => (e, l.head?.join)
  | n + 1, e, l => match treeLevel c e l with
    | (e, l) => treeSum c n e l

/-- A NaN of any code as the canonical NaN, which every result that is a NaN has (R190). -/
def canonical (c v : Nat) : Nat := if (decodeNum c v).isNan then nanCode c else v

/-- VRSUM: an FP32 or FP64 tree sum under RNE, or a wrapping 64-bit sum. -/
def execVrsum (c : At) (f : FmtVX) (s : State) : Host.Outcome State Fault Refusal :=
  ok (s.regs1 c (vecFmt f.fmt.toNat && decide (f.sb.toNat < 16)) (fun x =>
    let fm := f.fmt.toNat
    let on := x.onLanes f
    if isIntFmt fm then
      x.setS f.sa (on.foldl (fun t v => t + laneWord fm v.2) 0)
    else
      let acc := if fm = 0 then 0 else 1
      let lanes := (List.range (lanesOf fm)).map (fun i =>
        (on.find? (fun v => v.1 == i)).map (fun v => (convert fm acc 0 0 v.2).1))
      match treeSum acc 11 x.env lanes with
      | (e, r) => (x.withEnv e).setS f.sa (BitVec.ofNat 64 (canonical acc (r.getD 0)))))

/-- The greatest or least enabled element; a free value where the spec states none: no enabled element, a NaN among them,
or zeros of unlike signs (log entry 17). -/
def reduceMinMax (c : Nat) (lo : Bool) (free : Nat) : List (Nat × Nat) → Nat
  | [] => free % 2 ^ fmtWidth c
  | v :: r => canonical c (r.foldl (fun b w => laneMinMax c lo free b w.2) v.2)

/-- VRMAX and VRMIN. The value stands in SA in the element's own format, extended as VEXT does: the spec gives no form
(DESIGN CHOICE, log entry 151). -/
def State.vecReduce (s : State) (c : At) (f : FmtVX) (lo : Bool) : State :=
  s.inCtx c (vecFmt f.fmt.toNat && decide (f.sb.toNat < 16)) (fun x s =>
    (s.setCtx c (x.setS f.sa (laneWord f.fmt.toNat (reduceMinMax f.fmt.toNat lo (s.free 0) (x.onLanes f)))).advance).freshen)

/-- VRMAX. -/
def execVrmax (c : At) (f : FmtVX) (s : State) : Host.Outcome State Fault Refusal :=
  ok (s.vecReduce c f false)

/-- VRMIN. -/
def execVrmin (c : At) (f : FmtVX) (s : State) : Host.Outcome State Fault Refusal :=
  ok (s.vecReduce c f true)

/-- The extreme element that is no NaN and its lowest lane (R150). -/
def bestLane (c : Nat) (lo : Bool) (vs : List (Nat × Nat)) : Option (Nat × Nat) :=
  vs.foldl (fun b v =>
    if (decodeNum c v.2).isNan then b
    else match b with
      | none => some v
      | some w =>
        if (if lo then Num.lt (decodeNum c v.2) (decodeNum c w.2) else Num.lt (decodeNum c w.2) (decodeNum c v.2)) then
          some v
        else some w) none

/-- The value in [63:32]: exact in FP32, or the low 32 bits of an integer. -/
def laneValue (c v : Nat) : Nat :=
  if isIntFmt c then (laneWord c v).toNat % 2 ^ 32 else (convert c 1 0 0 v).1

def State.vecIndex (s : State) (c : At) (f : FmtVX) (lo : Bool) : State :=
  s.regs1 c (vecFmt f.fmt.toNat && f.fmt != 0 && f.fmt != 9 && decide (f.sb.toNat < 16)) (fun x =>
    match bestLane f.fmt.toNat lo (x.onLanes f) with
    | some (i, v) => x.setS f.sa (BitVec.ofNat 64 (laneValue f.fmt.toNat v * 2 ^ 32 + i))
    | none => x.setS f.sa 0xffffffff)

/-- VRMAXI. -/
def execVrmaxi (c : At) (f : FmtVX) (s : State) : Host.Outcome State Fault Refusal :=
  ok (s.vecIndex c f false)

/-- VRMINI. -/
def execVrmini (c : At) (f : FmtVX) (s : State) : Host.Outcome State Fault Refusal :=
  ok (s.vecIndex c f true)

/-! ### Predicates -/

/-- A predicate instruction on register bits [3:0]; PG and FMT are 0 in every row, as Table 6-3 says in the PAND row (log
entry 150). -/
def State.predOp (s : State) (c : At) (f : FmtV) (g : PReg → PReg → PReg) : State :=
  s.regs1 c (f.pg == 0 && f.fmt == 0) (fun x =>
    x.setP (f.vd.truncate 4) (g (x.preg (f.va.truncate 4)) (x.preg (f.vb.truncate 4))))

/-- PAND. -/
def execPand (c : At) (f : FmtV) (s : State) : Host.Outcome State Fault Refusal :=
  ok (s.predOp c f (fun a b => a &&& b))

/-- POR. -/
def execPor (c : At) (f : FmtV) (s : State) : Host.Outcome State Fault Refusal :=
  ok (s.predOp c f (fun a b => a ||| b))

/-- PXOR. -/
def execPxor (c : At) (f : FmtV) (s : State) : Host.Outcome State Fault Refusal :=
  ok (s.predOp c f (fun a b => a ^^^ b))

/-- PNOT. -/
def execPnot (c : At) (f : FmtV) (s : State) : Host.Outcome State Fault Refusal :=
  ok (s.predOp c f (fun a _ => ~~~a))

/-- PALL. -/
def execPall (c : At) (f : FmtV) (s : State) : Host.Outcome State Fault Refusal :=
  ok (s.predOp c f (fun _ _ => BitVec.allOnes 256))

/-- PNONE. -/
def execPnone (c : At) (f : FmtV) (s : State) : Host.Outcome State Fault Refusal :=
  ok (s.predOp c f (fun _ _ => 0))

/-- PLEN: bytes 0 to min(SA, 256) - 1. -/
def execPlen (c : At) (f : FmtVX) (s : State) : Host.Outcome State Fault Refusal :=
  ok (s.regs1 c (f.fmt != 0xF) (fun x =>
    x.setP (f.v.truncate 4) (BitVec.ofNat 256 (2 ^ min (x.sreg f.sa).toNat 256 - 1))))

/-- PCNT: the set bits of a predicate; FMT 0xF is no format code (R188). -/
def execPcnt (c : At) (f : FmtVX) (s : State) : Host.Outcome State Fault Refusal :=
  ok (s.regs1 c (f.fmt != 0xF) (fun x => x.setS f.sa (BitVec.ofNat 64 (popcount 256 (x.preg (f.v.truncate 4)).toNat))))

end Sys2Proof.Machine
end

