-- ==== Sys2Proof/Machine/Dispatch.lean ====
section
/-! DEFINITION. Dispatch of every command to its meaning. -/

namespace Sys2Proof.Machine

def exec (i : Instr) (s : State) : Host.Outcome State Fault Refusal :=
  match i with
  | .porNRelease straps fuses flash => Sys2Proof.Machine.execPorNRelease straps fuses flash s
  | .configurationLock => Sys2Proof.Machine.execConfigurationLock s
  | .wrstNAssert flash => Sys2Proof.Machine.execWrstNAssert flash s
  | .coolOkAssert => Sys2Proof.Machine.execCoolOkAssert s
  | .coolOkDeassert => Sys2Proof.Machine.execCoolOkDeassert s
  | .coolOkLossTimeout => Sys2Proof.Machine.execCoolOkLossTimeout s
  | .junctionBrakeTemperature celsius => Sys2Proof.Machine.execJunctionBrakeTemperature celsius s
  | .junctionLimitTemperature celsius => Sys2Proof.Machine.execJunctionLimitTemperature celsius s
  | .railOutOfLimits rail millivolts => Sys2Proof.Machine.execRailOutOfLimits rail millivolts s
  | .epoNAssert => Sys2Proof.Machine.execEpoNAssert s
  | .freezeNAssert stopCycles => Sys2Proof.Machine.execFreezeNAssert stopCycles s
  | .pwrbrakeNAssert => Sys2Proof.Machine.execPwrbrakeNAssert s
  | .powerSample watts celsius pwrbrakeLow => Sys2Proof.Machine.execPowerSample watts celsius pwrbrakeLow s
  | .overCapSamples => Sys2Proof.Machine.execOverCapSamples s
  | .brakeExit => Sys2Proof.Machine.execBrakeExit s
  | .fatalError cause => Sys2Proof.Machine.execFatalError cause s
  | .lsmReady lsm => Sys2Proof.Machine.execLsmReady lsm s
  | .lsmFault lsm => Sys2Proof.Machine.execLsmFault lsm s
  | .lsmRegisterAccessFail lsm => Sys2Proof.Machine.execLsmRegisterAccessFail lsm s
  | .biasEvaluation readings => Sys2Proof.Machine.execBiasEvaluation readings s
  | .lsmRetireWrite lsm => Sys2Proof.Machine.execLsmRetireWrite lsm s
  | .coldSearchDone fibre txLocked rxLocked => Sys2Proof.Machine.execColdSearchDone fibre txLocked rxLocked s
  | .fabricReadyAssert => Sys2Proof.Machine.execFabricReadyAssert s
  | .ringLockLoss ring => Sys2Proof.Machine.execRingLockLoss ring s
  | .relockDone ring ok => Sys2Proof.Machine.execRelockDone ring ok s
  | .lockSupervisorCheck wrong => Sys2Proof.Machine.execLockSupervisorCheck wrong s
  | .signalDetect fibre line => Sys2Proof.Machine.execSignalDetect fibre line s
  | .lockMiss fibre line => Sys2Proof.Machine.execLockMiss fibre line s
  | .burstReceive fibre line symbols => Sys2Proof.Machine.execBurstReceive fibre line symbols s
  | .burstOpen fibre line => Sys2Proof.Machine.execBurstOpen fibre line s
  | .keepaliveTimer fibre line => Sys2Proof.Machine.execKeepaliveTimer fibre line s
  | .powerReportTimer fibre line power => Sys2Proof.Machine.execPowerReportTimer fibre line power s
  | .hopLost fibre line hearsOther => Sys2Proof.Machine.execHopLost fibre line hearsOther s
  | .hopUpTimer fibre line => Sys2Proof.Machine.execHopUpTimer fibre line s
  | .ack m => Sys2Proof.Machine.execAck m s
  | .nack m => Sys2Proof.Machine.execNack m s
  | .credit m => Sys2Proof.Machine.execCredit m s
  | .creditReq m => Sys2Proof.Machine.execCreditReq m s
  | .creditReturn m => Sys2Proof.Machine.execCreditReturn m s
  | .lendIdleTimeout fibre line vc => Sys2Proof.Machine.execLendIdleTimeout fibre line vc s
  | .power m => Sys2Proof.Machine.execPower m s
  | .lineAlarm m => Sys2Proof.Machine.execLineAlarm m s
  | .seqQuery m => Sys2Proof.Machine.execSeqQuery m s
  | .seqReply m => Sys2Proof.Machine.execSeqReply m s
  | .hopDrain m => Sys2Proof.Machine.execHopDrain m s
  | .hopDrainDone m => Sys2Proof.Machine.execHopDrainDone m s
  | .hopDown m => Sys2Proof.Machine.execHopDown m s
  | .hopUp m => Sys2Proof.Machine.execHopUp m s
  | .hopUpAck m => Sys2Proof.Machine.execHopUpAck m s
  | .keepalive m => Sys2Proof.Machine.execKeepalive m s
  | .retryTimeout fibre line => Sys2Proof.Machine.execRetryTimeout fibre line s
  | .hopRetryExhausted fibre line => Sys2Proof.Machine.execHopRetryExhausted fibre line s
  | .optDrainStart fibre => Sys2Proof.Machine.execOptDrainStart fibre s
  | .optDrainReturn fibre => Sys2Proof.Machine.execOptDrainReturn fibre s
  | .fibreDrainTimeout fibre => Sys2Proof.Machine.execFibreDrainTimeout fibre s
  | .frameReceive fibre line => Sys2Proof.Machine.execFrameReceive fibre line s
  | .bufferEccError frameId => Sys2Proof.Machine.execBufferEccError frameId s
  | .frameForward frameId => Sys2Proof.Machine.execFrameForward frameId s
  | .escapeTimeout frameId => Sys2Proof.Machine.execEscapeTimeout frameId s
  | .rd r len => Sys2Proof.Machine.execRd r len s
  | .wr r data ordered => Sys2Proof.Machine.execWr r data ordered s
  | .atomic r op width operand compare => Sys2Proof.Machine.execAtomic r op width operand compare s
  | .inval r writer => Sys2Proof.Machine.execInval r writer s
  | .ctr r op operand compare => Sys2Proof.Machine.execCtr r op operand compare s
  | .clause r descriptor extents => Sys2Proof.Machine.execClause r descriptor extents s
  | .rdResp r data once => Sys2Proof.Machine.execRdResp r data once s
  | .wrResp r => Sys2Proof.Machine.execWrResp r s
  | .atomicResp r old => Sys2Proof.Machine.execAtomicResp r old s
  | .invalAck r => Sys2Proof.Machine.execInvalAck r s
  | .ctrResp r old => Sys2Proof.Machine.execCtrResp r old s
  | .clauseDone r chunks segment addr => Sys2Proof.Machine.execClauseDone r chunks segment addr s
  | .dirRegister m => Sys2Proof.Machine.execDirRegister m s
  | .dirUnregister m => Sys2Proof.Machine.execDirUnregister m s
  | .pmPrepare m => Sys2Proof.Machine.execPmPrepare m s
  | .pmUpdate m => Sys2Proof.Machine.execPmUpdate m s
  | .pmRelease m => Sys2Proof.Machine.execPmRelease m s
  | .replPlace m => Sys2Proof.Machine.execReplPlace m s
  | .replInval m => Sys2Proof.Machine.execReplInval m s
  | .replDrop m => Sys2Proof.Machine.execReplDrop m s
  | .rehomeOffer m => Sys2Proof.Machine.execRehomeOffer m s
  | .dirResp op status m => Sys2Proof.Machine.execDirResp op status m s
  | .req lineAddr stop ownership => Sys2Proof.Machine.execReq lineAddr stop ownership s
  | .snp lineAddr stop => Sys2Proof.Machine.execSnp lineAddr stop s
  | .half lineAddr ringA => Sys2Proof.Machine.execHalf lineAddr ringA s
  | .done lineAddr => Sys2Proof.Machine.execDone lineAddr s
  | .fin lineAddr => Sys2Proof.Machine.execFin lineAddr s
  | .retry lineAddr => Sys2Proof.Machine.execRetry lineAddr s
  | .snoopReissue lineAddr => Sys2Proof.Machine.execSnoopReissue lineAddr s
  | .holdExpiry tile lineAddr => Sys2Proof.Machine.execHoldExpiry tile lineAddr s
  | .apertureRead d => Sys2Proof.Machine.execApertureRead d s
  | .apertureWrite d data => Sys2Proof.Machine.execApertureWrite d data s
  | .apertureAtomic d op operand compare => Sys2Proof.Machine.execApertureAtomic d op operand compare s
  | .doorbell c value => Sys2Proof.Machine.execDoorbell c value s
  | .cqHeadWrite c value => Sys2Proof.Machine.execCqHeadWrite c value s
  | .controlRegionRead c => Sys2Proof.Machine.execControlRegionRead c s
  | .controlCounterWrite c value => Sys2Proof.Machine.execControlCounterWrite c value s
  | .controlRegionAtomic c op operand compare => Sys2Proof.Machine.execControlRegionAtomic c op operand compare s
  | .edgeDeviceEnumeration port rate width hdmSize suitable ideOk => Sys2Proof.Machine.execEdgeDeviceEnumeration port rate width hdmSize suitable ideOk s
  | .edgeLinkLoss port => Sys2Proof.Machine.execEdgeLinkLoss port s
  | .ideMacFailure port => Sys2Proof.Machine.execIdeMacFailure port s
  | .ideKeyRefresh port => Sys2Proof.Machine.execIdeKeyRefresh port s
  | .bisnp slot offset => Sys2Proof.Machine.execBisnp slot offset s
  | .cxlMemCompletion port tag ok data => Sys2Proof.Machine.execCxlMemCompletion port tag ok data s
  | .edgeDisable port => Sys2Proof.Machine.execEdgeDisable port s
  | .edgeEnable port => Sys2Proof.Machine.execEdgeEnable port s
  | .edgeDrainTimeout port => Sys2Proof.Machine.execEdgeDrainTimeout port s
  | .edgeCfgAccess port value => Sys2Proof.Machine.execEdgeCfgAccess port value s
  | .edgeCfgDone port ok => Sys2Proof.Machine.execEdgeCfgDone port ok s
  | .expanderLinkDown port => Sys2Proof.Machine.execExpanderLinkDown port s
  | .expanderReturnTimeout port => Sys2Proof.Machine.execExpanderReturnTimeout port s
  | .gddrTrainingDone site rate density devices ok => Sys2Proof.Machine.execGddrTrainingDone site rate density devices ok s
  | .gddrRetrain site ok => Sys2Proof.Machine.execGddrRetrain site ok s
  | .nelarLinkActive link locked lanes skew turn => Sys2Proof.Machine.execNelarLinkActive link locked lanes skew turn s
  | .nelarLinkDown link => Sys2Proof.Machine.execNelarLinkDown link s
  | .flitReceive link blocks => Sys2Proof.Machine.execFlitReceive link blocks s
  | .nackFlit link blocks => Sys2Proof.Machine.execNackFlit link blocks s
  | .replayTimeout link => Sys2Proof.Machine.execReplayTimeout link s
  | .nelarReplayExhausted link => Sys2Proof.Machine.execNelarReplayExhausted link s
  | .nelarDisable link => Sys2Proof.Machine.execNelarDisable link s
  | .nelarEnable link => Sys2Proof.Machine.execNelarEnable link s
  | .nelarDrainTimeout link => Sys2Proof.Machine.execNelarDrainTimeout link s
  | .regRead h addr countM1 reserved => Sys2Proof.Machine.execRegRead h addr countM1 reserved s
  | .regWrite h addr countM1 values reserved => Sys2Proof.Machine.execRegWrite h addr countM1 values reserved s
  | .registerWrite path addr value => Sys2Proof.Machine.execRegisterWrite path addr value s
  | .partCreate h b => Sys2Proof.Machine.execPartCreate h b s
  | .partDrain h partition reserved => Sys2Proof.Machine.execPartDrain h partition reserved s
  | .partitionDisabled partition => Sys2Proof.Machine.execPartitionDisabled partition s
  | .partitionDrainTimeout partition => Sys2Proof.Machine.execPartitionDrainTimeout partition s
  | .weightLoad h b => Sys2Proof.Machine.execWeightLoad h b s
  | .attestReq h nonce partition partEn reserved => Sys2Proof.Machine.execAttestReq h nonce partition partEn reserved s
  | .mapInstall h b => Sys2Proof.Machine.execMapInstall h b s
  | .zeroFillDone frameFpa => Sys2Proof.Machine.execZeroFillDone frameFpa s
  | .mapWithdraw h b => Sys2Proof.Machine.execMapWithdraw h b s
  | .withdrawalAcked withdrawId => Sys2Proof.Machine.execWithdrawalAcked withdrawId s
  | .faultReject h partition page reserved => Sys2Proof.Machine.execFaultReject h partition page reserved s
  | .winInstall h partition slot abort entry reserved => Sys2Proof.Machine.execWinInstall h partition slot abort entry reserved s
  | .winRemove h partition slot abort reserved => Sys2Proof.Machine.execWinRemove h partition slot abort reserved s
  | .queueCreate h b => Sys2Proof.Machine.execQueueCreate h b s
  | .queueDrain h queue reserved => Sys2Proof.Machine.execQueueDrain h queue reserved s
  | .queueDisabled queue => Sys2Proof.Machine.execQueueDisabled queue s
  | .queueDrainTimeout queue => Sys2Proof.Machine.execQueueDrainTimeout queue s
  | .groupCreate h b => Sys2Proof.Machine.execGroupCreate h b s
  | .groupReset h group partition reserved => Sys2Proof.Machine.execGroupReset h group partition reserved s
  | .groupDestroy h group partition reserved => Sys2Proof.Machine.execGroupDestroy h group partition reserved s
  | .modeSelect h b => Sys2Proof.Machine.execModeSelect h b s
  | .drainedPoint => Sys2Proof.Machine.execDrainedPoint s
  | .modeChangeTimeout => Sys2Proof.Machine.execModeChangeTimeout s
  | .capSet h capW seq reserved => Sys2Proof.Machine.execCapSet h capW seq reserved s
  | .freezeRead h offset length reserved => Sys2Proof.Machine.execFreezeRead h offset length reserved s
  | .udpDatagram port srcIp srcPort dstIp dstPort payload fragment => Sys2Proof.Machine.execUdpDatagram port srcIp srcPort dstIp dstPort payload fragment s
  | .arpRequest port targetIp senderIp senderMac => Sys2Proof.Machine.execArpRequest port targetIp senderIp senderMac s
  | .reassemblyTimeout port srcIp ident => Sys2Proof.Machine.execReassemblyTimeout port srcIp ident s
  | .smbusRegisterWrite address pecOk addr value => Sys2Proof.Machine.execSmbusRegisterWrite address pecOk addr value s
  | .smbusRegisterRead address pecOk addr => Sys2Proof.Machine.execSmbusRegisterRead address pecOk addr s
  | .extest cells => Sys2Proof.Machine.execExtest cells s
  | .sample pins => Sys2Proof.Machine.execSample pins s
  | .idcode => Sys2Proof.Machine.execIdcode s
  | .regrd addr => Sys2Proof.Machine.execRegrd addr s
  | .regwr addr value => Sys2Proof.Machine.execRegwr addr value s
  | .frzaddr offset => Sys2Proof.Machine.execFrzaddr offset s
  | .frzdata => Sys2Proof.Machine.execFrzdata s
  | .bypass tdi => Sys2Proof.Machine.execBypass tdi s
  | .descriptorFetch queue => Sys2Proof.Machine.execDescriptorFetch queue s
  | .clauseAccept queue => Sys2Proof.Machine.execClauseAccept queue s
  | .pendingTriggerFree queue => Sys2Proof.Machine.execPendingTriggerFree queue s
  | .triggerRelease clauseId => Sys2Proof.Machine.execTriggerRelease clauseId s
  | .queueTimeout clauseId => Sys2Proof.Machine.execQueueTimeout clauseId s
  | .clausePlace clauseId => Sys2Proof.Machine.execClausePlace clauseId s
  | .segmentStart clauseId => Sys2Proof.Machine.execSegmentStart clauseId s
  | .clauseResume clauseId => Sys2Proof.Machine.execClauseResume clauseId s
  | .parkTimeout clauseId => Sys2Proof.Machine.execParkTimeout clauseId s
  | .batchTimeout => Sys2Proof.Machine.execBatchTimeout s
  | .batchFull => Sys2Proof.Machine.execBatchFull s
  | .chunkComplete clauseId chunk => Sys2Proof.Machine.execChunkComplete clauseId chunk s
  | .clauseComplete clauseId => Sys2Proof.Machine.execClauseComplete clauseId s
  | .copy clauseId => Sys2Proof.Machine.execCopy clauseId s
  | .copy2d clauseId => Sys2Proof.Machine.execCopy2d clauseId s
  | .fill clauseId => Sys2Proof.Machine.execFill clauseId s
  | .gather clauseId => Sys2Proof.Machine.execGather clauseId s
  | .scatter clauseId order => Sys2Proof.Machine.execScatter clauseId order s
  | .atomicBatch clauseId => Sys2Proof.Machine.execAtomicBatch clauseId s
  | .reduce clauseId chunk => Sys2Proof.Machine.execReduce clauseId chunk s
  | .allreduce clauseId chunk => Sys2Proof.Machine.execAllreduce clauseId chunk s
  | .reduceScatter clauseId chunk => Sys2Proof.Machine.execReduceScatter clauseId chunk s
  | .allgather clauseId chunk => Sys2Proof.Machine.execAllgather clauseId chunk s
  | .broadcast clauseId chunk => Sys2Proof.Machine.execBroadcast clauseId chunk s
  | .alltoall clauseId chunk => Sys2Proof.Machine.execAlltoall clauseId chunk s
  | .alltoallv clauseId chunk => Sys2Proof.Machine.execAlltoallv clauseId chunk s
  | .transform clauseId => Sys2Proof.Machine.execTransform clauseId s
  | .kernel clauseId => Sys2Proof.Machine.execKernel clauseId s
  | .fenceClause clauseId => Sys2Proof.Machine.execFenceClause clauseId s
  | .counterOp clauseId => Sys2Proof.Machine.execCounterOp clauseId s
  | .wait clauseId => Sys2Proof.Machine.execWait clauseId s
  | .waitSatisfied clauseId => Sys2Proof.Machine.execWaitSatisfied clauseId s
  | .waitTimeout clauseId => Sys2Proof.Machine.execWaitTimeout clauseId s
  | .slotReservationGrant partition => Sys2Proof.Machine.execSlotReservationGrant partition s
  | .collReadySend group => Sys2Proof.Machine.execCollReadySend group s
  | .collData t data => Sys2Proof.Machine.execCollData t data s
  | .collCheck t crc => Sys2Proof.Machine.execCollCheck t crc s
  | .collCounts t counts => Sys2Proof.Machine.execCollCounts t counts s
  | .collReady t digest => Sys2Proof.Machine.execCollReady t digest s
  | .collCheckResult t pass => Sys2Proof.Machine.execCollCheckResult t pass s
  | .collCheckExhausted group peer phase chunk => Sys2Proof.Machine.execCollCheckExhausted group peer phase chunk s
  | .collAbort t cause origin => Sys2Proof.Machine.execCollAbort t cause origin s
  | .stallTimeout group => Sys2Proof.Machine.execStallTimeout group s
  | .epochEnd planeUse => Sys2Proof.Machine.execEpochEnd planeUse s
  | .migrationCopyDone partition page => Sys2Proof.Machine.execMigrationCopyDone partition page s
  | .migrationQuiesce partition page => Sys2Proof.Machine.execMigrationQuiesce partition page s
  | .quiesceTimeout partition page => Sys2Proof.Machine.execQuiesceTimeout partition page s
  | .migrationRetry partition page => Sys2Proof.Machine.execMigrationRetry partition page s
  | .migrationFinish partition page => Sys2Proof.Machine.execMigrationFinish partition page s
  | .transformStart unit => Sys2Proof.Machine.execTransformStart unit s
  | .pilotCheck unit pass => Sys2Proof.Machine.execPilotCheck unit pass s
  | .warmCalibration unit => Sys2Proof.Machine.execWarmCalibration unit s
  | .coldCalibrationDone unit => Sys2Proof.Machine.execColdCalibrationDone unit s
  | .carrierLoss unit => Sys2Proof.Machine.execCarrierLoss unit s
  | .carrierReturn unit => Sys2Proof.Machine.execCarrierReturn unit s
  | .carrierLossTimeout unit => Sys2Proof.Machine.execCarrierLossTimeout unit s
  | .ptuDisable unit => Sys2Proof.Machine.execPtuDisable unit s
  | .ptuEnable unit => Sys2Proof.Machine.execPtuEnable unit s
  | .ptuDrainTimeout unit => Sys2Proof.Machine.execPtuDrainTimeout unit s
  | .tileDisable phys => Sys2Proof.Machine.execTileDisable phys s
  | .tileEnable phys => Sys2Proof.Machine.execTileEnable phys s
  | .tileDrainTimeout phys => Sys2Proof.Machine.execTileDrainTimeout phys s
  | .runaheadIssue c strm => Sys2Proof.Machine.execRunaheadIssue c strm s
  | .transactionTimeout tag => Sys2Proof.Machine.execTransactionTimeout tag s
  | .faultMarkLost chip => Sys2Proof.Machine.execFaultMarkLost chip s
  | .faultMarkReachable chip => Sys2Proof.Machine.execFaultMarkReachable chip s
  | .xlatPmProbeWrite path value => Sys2Proof.Machine.execXlatPmProbeWrite path value s
  | .conjGroupSelWrite path value => Sys2Proof.Machine.execConjGroupSelWrite path value s
  | .parserProbeWrite path value => Sys2Proof.Machine.execParserProbeWrite path value s
  | .secVlogSelWrite path value => Sys2Proof.Machine.execSecVlogSelWrite path value s
  | .faultReachSelWrite path value => Sys2Proof.Machine.execFaultReachSelWrite path value s
  | .faultLogSelWrite path value => Sys2Proof.Machine.execFaultLogSelWrite path value s
  | .teleSnapHist mask => Sys2Proof.Machine.execTeleSnapHist mask s
  | .teleSnapPorts => Sys2Proof.Machine.execTeleSnapPorts s
  | .teleSnapClearPorts => Sys2Proof.Machine.execTeleSnapClearPorts s
  | .teleHcfgWrite hist value => Sys2Proof.Machine.execTeleHcfgWrite hist value s
  | .teleSampleTimer => Sys2Proof.Machine.execTeleSampleTimer s
  | .teleStreamInterval => Sys2Proof.Machine.execTeleStreamInterval s
  | .add c f => Sys2Proof.Machine.execAdd c f s
  | .sub c f => Sys2Proof.Machine.execSub c f s
  | .and c f => Sys2Proof.Machine.execAnd c f s
  | .or c f => Sys2Proof.Machine.execOr c f s
  | .xor c f => Sys2Proof.Machine.execXor c f s
  | .shl c f => Sys2Proof.Machine.execShl c f s
  | .shr c f => Sys2Proof.Machine.execShr c f s
  | .sra c f => Sys2Proof.Machine.execSra c f s
  | .mul c f => Sys2Proof.Machine.execMul c f s
  | .mulhu c f => Sys2Proof.Machine.execMulhu c f s
  | .divu c f => Sys2Proof.Machine.execDivu c f s
  | .div c f => Sys2Proof.Machine.execDiv c f s
  | .min c f => Sys2Proof.Machine.execMin c f s
  | .max c f => Sys2Proof.Machine.execMax c f s
  | .minu c f => Sys2Proof.Machine.execMinu c f s
  | .maxu c f => Sys2Proof.Machine.execMaxu c f s
  | .slt c f => Sys2Proof.Machine.execSlt c f s
  | .sltu c f => Sys2Proof.Machine.execSltu c f s
  | .popc c f => Sys2Proof.Machine.execPopc c f s
  | .addi c f => Sys2Proof.Machine.execAddi c f s
  | .andi c f => Sys2Proof.Machine.execAndi c f s
  | .ori c f => Sys2Proof.Machine.execOri c f s
  | .xori c f => Sys2Proof.Machine.execXori c f s
  | .shli c f => Sys2Proof.Machine.execShli c f s
  | .shri c f => Sys2Proof.Machine.execShri c f s
  | .srai c f => Sys2Proof.Machine.execSrai c f s
  | .slti c f => Sys2Proof.Machine.execSlti c f s
  | .lui c f => Sys2Proof.Machine.execLui c f s
  | .seth c f => Sys2Proof.Machine.execSeth c f s
  | .beq c f => Sys2Proof.Machine.execBeq c f s
  | .bne c f => Sys2Proof.Machine.execBne c f s
  | .blt c f => Sys2Proof.Machine.execBlt c f s
  | .bge c f => Sys2Proof.Machine.execBge c f s
  | .bltu c f => Sys2Proof.Machine.execBltu c f s
  | .bgeu c f => Sys2Proof.Machine.execBgeu c f s
  | .j c off => Sys2Proof.Machine.execJ c off s
  | .jal c off => Sys2Proof.Machine.execJal c off s
  | .jr c f => Sys2Proof.Machine.execJr c f s
  | .ld c f ecc => Sys2Proof.Machine.execLd c f ecc s
  | .lds c f ecc => Sys2Proof.Machine.execLds c f ecc s
  | .st c f => Sys2Proof.Machine.execSt c f s
  | .fence c f => Sys2Proof.Machine.execFence c f s
  | .vld c f ecc => Sys2Proof.Machine.execVld c f ecc s
  | .vst c f => Sys2Proof.Machine.execVst c f s
  | .vadd c f => Sys2Proof.Machine.execVadd c f s
  | .vsub c f => Sys2Proof.Machine.execVsub c f s
  | .vmul c f => Sys2Proof.Machine.execVmul c f s
  | .vfma c f => Sys2Proof.Machine.execVfma c f s
  | .vmin c f => Sys2Proof.Machine.execVmin c f s
  | .vmax c f => Sys2Proof.Machine.execVmax c f s
  | .vabs c f => Sys2Proof.Machine.execVabs c f s
  | .vfmaw c f => Sys2Proof.Machine.execVfmaw c f s
  | .vand c f => Sys2Proof.Machine.execVand c f s
  | .vor c f => Sys2Proof.Machine.execVor c f s
  | .vxor c f => Sys2Proof.Machine.execVxor c f s
  | .vshl c f => Sys2Proof.Machine.execVshl c f s
  | .vshr c f => Sys2Proof.Machine.execVshr c f s
  | .vsra c f => Sys2Proof.Machine.execVsra c f s
  | .vsel c f => Sys2Proof.Machine.execVsel c f s
  | .vmov c f => Sys2Proof.Machine.execVmov c f s
  | .vcmp c f cond => Sys2Proof.Machine.execVcmp c f cond s
  | .vcvt c f part => Sys2Proof.Machine.execVcvt c f part s
  | .vbcast c f => Sys2Proof.Machine.execVbcast c f s
  | .vins c f => Sys2Proof.Machine.execVins c f s
  | .vext c f => Sys2Proof.Machine.execVext c f s
  | .vrsum c f => Sys2Proof.Machine.execVrsum c f s
  | .vrmax c f => Sys2Proof.Machine.execVrmax c f s
  | .vrmin c f => Sys2Proof.Machine.execVrmin c f s
  | .vrmaxi c f => Sys2Proof.Machine.execVrmaxi c f s
  | .vrmini c f => Sys2Proof.Machine.execVrmini c f s
  | .pand c f => Sys2Proof.Machine.execPand c f s
  | .por c f => Sys2Proof.Machine.execPor c f s
  | .pxor c f => Sys2Proof.Machine.execPxor c f s
  | .pnot c f => Sys2Proof.Machine.execPnot c f s
  | .pall c f => Sys2Proof.Machine.execPall c f s
  | .pnone c f => Sys2Proof.Machine.execPnone c f s
  | .plen c f => Sys2Proof.Machine.execPlen c f s
  | .pcnt c f => Sys2Proof.Machine.execPcnt c f s
  | .mma c f ecc => Sys2Proof.Machine.execMma c f ecc s
  | .mzero c f => Sys2Proof.Machine.execMzero c f s
  | .mld c f ecc => Sys2Proof.Machine.execMld c f ecc s
  | .mst c f => Sys2Proof.Machine.execMst c f s
  | .amo c f => Sys2Proof.Machine.execAmo c f s
  | .scfg c f ecc => Sys2Proof.Machine.execScfg c f ecc s
  | .spop c f ecc => Sys2Proof.Machine.execSpop c f ecc s
  | .spops c f ecc => Sys2Proof.Machine.execSpops c f ecc s
  | .sskip c f => Sys2Proof.Machine.execSskip c f s
  | .scan c f => Sys2Proof.Machine.execScan c f s
  | .srem c f => Sys2Proof.Machine.execSrem c f s
  | .ctrld c f => Sys2Proof.Machine.execCtrld c f s
  | .ctradd c f => Sys2Proof.Machine.execCtradd c f s
  | .ctrwait c f => Sys2Proof.Machine.execCtrwait c f s
  | .ctrwaitWake c => Sys2Proof.Machine.execCtrwaitWake c s
  | .waitLimitExpiry c => Sys2Proof.Machine.execWaitLimitExpiry c s
  | .ctrset c f => Sys2Proof.Machine.execCtrset c f s
  | .submit c f ecc => Sys2Proof.Machine.execSubmit c f ecc s
  | .lex c f => Sys2Proof.Machine.execLex c f s
  | .csrr c f => Sys2Proof.Machine.execCsrr c f s
  | .csrw c f => Sys2Proof.Machine.execCsrw c f s
  | .exit c f => Sys2Proof.Machine.execExit c f s
  | .budgetExpiry c => Sys2Proof.Machine.execBudgetExpiry c s
  | .porNAssert => Sys2Proof.Machine.execPorNAssert s
  | .expanderLinkReturn port intact => Sys2Proof.Machine.execExpanderLinkReturn port intact s
  | .lsmPresNChange lsm absent => Sys2Proof.Machine.execLsmPresNChange lsm absent s
  | .heldDescriptorTimeout queue => Sys2Proof.Machine.execHeldDescriptorTimeout queue s
  | .warmCalibrationDone unit => Sys2Proof.Machine.execWarmCalibrationDone unit s
  | .gddr7TransferCompletion site block write crcFails uncorrectable other => Sys2Proof.Machine.execGddr7TransferCompletion site block write crcFails uncorrectable other s
  | .gddr7DeviceFatalError site => Sys2Proof.Machine.execGddr7DeviceFatalError site s

end Sys2Proof.Machine
end

