-- ==== Sys2Proof/Safety.lean ====
section
/-! DEFINITION. What a safe run is: the block answers every command and its memory keeps its canonical form; and the words
in which statements say what a command completes with and what it leaves alone. -/

namespace Sys2Proof.Machine

/-- The invariant of every step: memory in canonical form, register fields in rising order of their keys. -/
abbrev State.Inv (s : State) : Prop := Memory.wf s.mem = true ∧ sortedKeys s.regs = true

/-- A safe step: it answers a next state. -/
def State.Safe (s : State) : Prop := ∃ t, step s = .next t

/-- A command completes: exec answers a next state, and P holds of it. -/
def Completes (c : Instr) (s : State) (P : State → Prop) : Prop := ∃ t, exec c s = .next t ∧ P t

/-- Every register field reads as before but those named. -/
def OnlyFields (fs : List Fld) (s t : State) : Prop := ∀ f : Fld, (∀ g ∈ fs, f.key ≠ g.key) → t.get f = s.get f

/-- The chip a frame goes to, and its TAG, OPCODE, AUX and payload (Tables 12-2 and 12-4). -/
def frameSays (x : Frame) : Nat × Nat × Nat × Nat × List Byte :=
  (fpaChip x.art.dest, x.art.tag, x.art.opcode, x.art.aux, x.payload)

/-- One frame more than before is on its way: it enters the packet buffer, or waits at its core port for credit (R298). -/
abbrev Emits (s t : State) (what : Nat × Nat × Nat × Nat × List Byte) : Prop :=
  (tget s.fabric.nextFrame t.fabric.frames).map (fun x => frameSays x.frame) = some what ∨
    (t.fabric.waitIn.drop s.fabric.waitIn.length).map (fun w => frameSays w.frame) = [what]

/-- The block answers a request frame: to a chip, for a tag, with an opcode, a status and a payload. -/
abbrev Answered (s t : State) (dst tag op : Nat) (e : Err) (payload : List Byte) : Prop :=
  Emits s t (dst, tag, op, e.code, payload)

/-- Nothing is due that the completion of an access would let go on: no clause is parked or cancelled, no page in quiescence, no
PM_UPDATE unanswered, no edge port and no PTU draining, no PTU about to give up its clause or to take H. -/
abbrev Calm (s : State) : Prop :=
  s.home.finished = [] ∧ (∀ c ∈ s.work.clauses, c.2.stage ≠ .parked ∧ (c.2.cancelled = false ∨ c.2.ending.isSome = true)) ∧
    (∀ m ∈ s.parser.migrations, m.quiesce = false) ∧ s.parser.updates = [] ∧
    (∀ p < 32, s.get (R.EDGE_STAT_STATE p) ≠ 3) ∧ (∀ u < 4, s.ptuState u ≠ 3 ∧
      (match (s.ptu u).running with
       | some id => (s.clauseAt id).any (fun k => k.ending.isNone)
       | none => true) = true ∧
      (s.ptuState u ≠ 2 ∨ bit (s.get R.CONJ_CTL_ROT_PTU) u = false ∨ (s.ptu u).rot = true))

/-- A direct request that passes every check of R32 to R35 and R342 on a port with no other request in flight: its
partition and the FPA it reaches; `op` is 0 for a read, 1 for a write, 2 for an atomic. -/
abbrev Admits (s : State) (d : Direct) (op p fpa : Nat) : Prop :=
  s.live = true ∧ s.home.finished = [] ∧ s.edge.directs = [] ∧ s.asControl d = none ∧
    s.get (R.EDGE_STAT_ROLE d.port) = 0 ∧ s.get (R.EDGE_STAT_STATE d.port) = 2 ∧
    bits d.addr 63 54 = s.get R.XLAT_APERTURE_BASE ∧ d.uio = true ∧ d.enabled = true ∧ 0 < d.len ∧ d.len ≤ 4096 ∧
    d.addr % 4096 + d.len ≤ 4096 ∧ s.pasidOk d.port (d.pasid.getD 0) = true ∧
    s.get (R.EDGE_PASID_PARTITION d.port (d.pasid.getD 0)) = p ∧ p < 4096 ∧ s.partErr p = .none ∧ bits d.addr 53 52 ≠ 3 ∧
    bit (s.get (R.EDGE_PASID_VIEW_EN d.port (d.pasid.getD 0))) (bits d.addr 53 52) = true ∧
    s.pasidMay d.port (d.pasid.getD 0) op = true ∧ (s.xlate p (bits d.addr 51 0) op).err = .none ∧
    (s.xlate p (bits d.addr 51 0) op).fpa = fpa ∧ s.poisonedPage p (bits d.addr 51 0) op = false

/-- A request of the runtime that was framed and admitted on its path, on a chip that is neither in BOOT_FAIL nor frozen, whose
turn has come and whose body bytes spell the command (R4, R371, R372, R374). -/
abbrev Taken (s : State) (h : Hdr) (code : Nat) (body : List Byte → Bool) : Prop :=
  s.pathUp h.path = true ∧ s.bootState ≠ 4 ∧ s.frozen = none ∧ s.inInbox h code body = true ∧
    (tget h.reqId s.nelar.requests).isSome = true ∧ s.home.finished = []

/-- Nothing keeps a request of a partition for another chip back: the chip is not out of reach, a tag is free, and the partition's
quota has room (R301, R307). -/
abbrev MaySend (s : State) (p fpa : Nat) : Prop :=
  fpaChip fpa ≠ s.chip ∧ s.unreachable (fpaChip fpa) = false ∧ s.fabric.waitTag = [] ∧
    s.get (R.PART_OUTSTANDING_USED p) < s.get (R.PART_OUTSTANDING_QUOTA p) ∧ s.fabric.track.length < 131072

/-- A byte of a memory unit of this chip that accesses of a partition reach at once: the frame is the partition's, and its page
neither moves nor is in quiescence (R20, R22, R107). -/
abbrev Reached (s : State) (p fpa : Nat) : Prop :=
  fpaChip fpa = s.chip ∧ 16 ≤ fpaUnit fpa ∧ fpaUnit fpa < 32 ∧ s.inQuiet fpa = false ∧ s.forwardOf fpa = none ∧
    s.frameErr fpa p = .none

/-- No line of n bytes is poisoned and no tag of theirs is bad (R355, R391). -/
abbrev Intact (s : State) (fpa n : Nat) : Prop :=
  s.anyPoison (lineKeys (fpaUnit fpa) (fpaOff fpa) n) = false ∧ s.anyBadTag (lineKeys (fpaUnit fpa) (fpaOff fpa) n) = false

/-- The request that went out under the lowest free tag: its destination, its opcode and what its response serves. -/
abbrev Sent (s t : State) (dest op : Nat) (k : Cont) : Prop :=
  (tget (firstGap 0 s.fabric.track) t.fabric.track).map (fun x => (x.dest, x.opcode, x.cont)) = some (dest, op, k)

/-- The answer held for a request: its status, and what its response format adds (R372, R375). -/
abbrev Replied (t : State) (h : Hdr) (code : Nat) (e : Err) (more : List Byte) : Prop :=
  (tget h.reqId t.nelar.requests).map (fun r => r.answer) = some (some (code, statusBody e more))

/-- The context at a place after an instruction; the one before it where it is gone. -/
def State.after (t : State) (c : At) (x : Ctx) : Ctx := (t.ctx c).getD x

/-- The other clauses, the other contexts of the tile and those of other tiles are as before. -/
abbrev OthersStay (s t : State) (c : At) (x : Ctx) : Prop :=
  (∀ m : Nat, m ≠ x.clause → t.clauseAt m = s.clauseAt m) ∧ (∀ m : Nat, m ≠ c.ctx → t.ctx ⟨c.tile, m⟩ = s.ctx ⟨c.tile, m⟩) ∧
    (∀ m : Nat, m ≠ c.tile → (t.tile m).ctxs = (s.tile m).ctxs)

/-- A vector register after an instruction: byte j is byte j of a lane's value where the predicate enables it, and the old byte
elsewhere (R148, log entry 16). -/
abbrev LanesWritten (c : Nat) (p : PReg) (old new : VReg) (v : Nat → Nat) : Prop :=
  ∀ j < 256, elem 8 new.toNat j =
    if byteOn c p j then elem 8 (v (j * 8 / regWidth c)) (j % (regWidth c / 8)) else elem 8 old.toNat j

/-- The random number of the n-th rounded element of an instruction, from 1 (R194). -/
def Ctx.randomAt (x : Ctx) (n : Nat) : Nat := if x.rmode = 2 then Nat.iterate stepSeed n x.seed / 2 ^ 48 else 0

/-- What VCVT makes of a code, and its flags: rounded under RMODE with the random number of the n-th rounded element, where the
conversion rounds (R194, R196 to R198, log entry 12). -/
def Ctx.converted (x : Ctx) (src dst n v : Nat) : Nat × Nat :=
  if convRounds src dst then encodeNum dst x.rmode (x.randomAt n) (decodeNum src v) else convert src dst 0 0 v

/-- The random number for lane i: each enabled lane takes a step of SEED under stochastic rounding, in ascending order (R194). -/
def Ctx.random (x : Ctx) (c : Nat) (p : PReg) (i : Nat) : Nat :=
  x.randomAt ((List.range i).countP (laneOn c p) + 1)

/-- SEED after as many rounded elements as lanes are enabled (R194). -/
def Ctx.seedAfter (x : Ctx) (c : Nat) (p : PReg) : Nat :=
  if x.rmode = 2 then Nat.iterate stepSeed ((List.range (lanesOf c)).countP (laneOn c p)) x.seed else x.seed

/-- The codes that a minimum (lo) or maximum of two codes may give: the operand whose value is less or greater; where the spec
states none, one of the operands that is a number, or the canonical NaN (log entry 17). -/
def extremes (c : Nat) (lo : Bool) (a b : Nat) : List Nat :=
  match Num.cmp (decodeNum c a) (decodeNum c b) with
  | some .lt => [if lo then a else b]
  | some .gt => [if lo then b else a]
  | some .eq => [a, b]
  | none => nanCode c :: [a, b].filter (fun v => decodeNum c v != .nan)

/-- The conditions of VCMP on an outcome of a comparison: EQ, NE, LT, LE, GT, GE, UNORD (Table 6-3, log entry 18). -/
def orderHolds (cond : Nat) (o : Option Ordering) : Bool :=
  match cond with
  | 0 => o == some .eq
  | 1 => o != some .eq
  | 2 => o == some .lt
  | 3 => o == some .lt || o == some .eq
  | 4 => o == some .gt
  | 5 => o == some .gt || o == some .eq
  | _ => o == none

/-- The sum of 2^n lanes from one on over a pairwise tree, each node rounded under RNE; a disabled lane joins nothing (log
entry 19). -/
def pairSum (c : Nat) (leaf : Nat → Option Nat) : Nat → Nat → Option Nat
  | 0, i => leaf i
  | n + 1, i =>
    match pairSum c leaf n i, pairSum c leaf n (i + 2 ^ n) with
    | some a, some b => some (encodeNum c 0 0 (Num.add (decodeNum c a) (decodeNum c b)).1).1
    | some a, none => some a
    | none, v => v

/-- FFLAGS after an instruction: a flag is set where it was, or where an enabled lane raises it (R206). -/
abbrev FlagsRaised (c : Nat) (p : PReg) (old new : Nat) (fl : Nat → Nat) : Prop :=
  ∀ b < 64, bit new b = (bit old b || (List.range (lanesOf c)).any (fun i => laneOn c p i && bit (fl i) b))

end Sys2Proof.Machine
end

