-- ==== Sys2Proof/Certificates/Slice0/Obligations.lean ====
section
/-! DEFINITION. The statements for the provers. -/

open Sys2Proof Sys2Proof.Machine

/-- Power-on reset returns the block to its power-on state. (R389, R479, 17_stem_and_start.md) -/
def Obligations.PowerOnResetRestoresReset : Prop :=
  ∀ (s : State),
      exec (.porNAssert) s = .next ({ State.reset with pending := s.pending, fresh := s.fresh, out := s.out, power := { Power.reset with pwrbrakeN := s.power.pwrbrakeN, coolOk := s.power.coolOk }, fabric := { Fabric.reset with lsmPresN := s.fabric.lsmPresN }, security := { Security.reset with keysDrawn := s.security.keysDrawn } })

/-- The start sequence loads the preferred bank that passes its checks, else the other, else fails. (R406, R407, R408, R417, R418, 17_stem_and_start.md) -/
def Obligations.StartLoadsTheGoodBank : Prop :=
  (∀ (s : State) (straps : Straps) (fuses : Fuses) (flash : Flash),
      s.boot.porN = false →
      Completes (.porNRelease straps fuses flash) s (fun t => t.boot.porN = true ∧ t.boot.aonRuns = true ∧ t.boot.straps = straps ∧ t.boot.fuses = fuses ∧ t.boot.identity = flash.identity.take 16384 ∧
        t.mem = s.mem ∧ t.out = s.out ∧
        (startBank flash fuses.fwSvn = none → t.bootState = 4 ∧ t.boot.stem = none ∧ t.boot.flashOwnN = true ∧ t.get R.BOOT_STAT_CAUSE0 = flashCode flash 0 fuses.fwSvn ∧ t.get R.BOOT_STAT_CAUSE1 = flashCode flash 1 fuses.fwSvn) ∧
        (∀ n ∈ startBank flash fuses.fwSvn, flashCode flash n fuses.fwSvn = 1 ∧ (Bank.stem (flashBank flash n)).isSome = true ∧ (n = preferredBank flash ∨ flashCode flash (preferredBank flash) fuses.fwSvn ≠ 1)) ∧
        (∀ n ∈ startBank flash fuses.fwSvn, ∀ k ∈ Bank.stem (flashBank flash n), posError straps k = true → t.bootState = 4 ∧ t.boot.stem = none ∧ t.get R.BOOT_STAT_POS_ERR = 1) ∧
        (∀ n ∈ startBank flash fuses.fwSvn, ∀ k ∈ Bank.stem (flashBank flash n), posError straps k = false → t.bootState = 1 ∧ t.boot.stem = some k ∧ t.boot.inflections = (Bank.inflections (flashBank flash n)).getD [] ∧ t.get R.BOOT_STAT_BANK = n ∧ t.get R.BOOT_STAT_FALLBACK = (if n = preferredBank flash then 0 else 1) ∧ t.get R.BOOT_STAT_POS_ERR = s.get R.BOOT_STAT_POS_ERR ∧ t.get R.BOOT_POS_CHIP = (straps.posX + straps.posY * 2 ^ k.bx + straps.posZ * 2 ^ (k.bx + k.byw)) % 2 ^ 15))) ∧
  (∀ (s : State) (flash : Flash),
      s.boot.porN = true →
      Completes (.wrstNAssert flash) s (fun t => t.boot.straps = s.boot.straps ∧ t.boot.fuses = s.boot.fuses ∧ t.boot.aonRuns = true ∧ t.get R.GLB_LOCK_LOCKED = 0 ∧
        t.security.glog = s.security.glog ∧ t.tele.log = s.tele.log ∧ t.security.parts = [] ∧
        t.get R.BOOT_MODE_SEQ_LAST_SEQ = s.get R.BOOT_MODE_SEQ_LAST_SEQ ∧ t.mem = [] ∧ t.frozen = none ∧
        (startBank flash s.boot.fuses.fwSvn = none → t.bootState = 4 ∧ t.boot.stem = none) ∧
        (∀ n ∈ startBank flash s.boot.fuses.fwSvn, ∀ k ∈ Bank.stem (flashBank flash n), posError s.boot.straps k = false → t.bootState = 1 ∧ t.boot.stem = some k ∧ t.get R.BOOT_STAT_BANK = n)))

/-- Step 7 of the start sequence sets the configuration lock. (R468, R405, 17_stem_and_start.md) -/
def Obligations.LockEndsTheStart : Prop :=
  ∀ (s : State) (t0 : Stem),
      s.boot.stem = some t0 →
      s.boot.porN = true →
      s.boot.epo = false →
      s.frozen = none →
      s.bootState = 1 →
      Completes (.configurationLock) s (fun t => t.get R.GLB_LOCK_LOCKED = 1 ∧ t.bootState = 2 ∧ t.boot.flashOwnN = true ∧ t.boot.stem = some t0 ∧ t.mem = s.mem ∧
        t.work = s.work ∧ t.security = s.security ∧ t.xlat = s.xlat ∧ t.tele = s.tele)

/-- Each cause of brake enters brake, and brake ends when none is left. (R429, R430, R431, R335, 18_clocks_power_freeze.md) -/
def Obligations.BrakeCausesEnterBrake : Prop :=
  (∀ (s : State),
      s.live = true →
      s.get R.PWR_STAT_BRAKE = 0 →
      Completes (.pwrbrakeNAssert) s (fun t => t.get R.PWR_STAT_BRAKE = 1 ∧ t.get R.PWR_STAT_CAUSE = causeField (s.power.causes ||| 1) % 16 ∧
        t.get R.PWR_COUNT_BRAKES = min (s.get R.PWR_COUNT_BRAKES + 1) (2 ^ 32 - 1) ∧
        t.get R.PWR_STAT_LEVEL = max 32 (s.get R.PWR_STAT_LEVEL) % 64 ∧ t.power.causes = s.power.causes ||| 1 ∧
        t.power.pwrbrakeN = false ∧ t = { s with regs := t.regs, power := t.power } ∧
        OnlyFields [R.PWR_STAT_BRAKE, R.PWR_STAT_CAUSE, R.PWR_COUNT_BRAKES, R.PWR_STAT_LEVEL] s t)) ∧
  (∀ (s : State),
      s.live = true →
      s.get R.PWR_STAT_BRAKE = 0 →
      Completes (.overCapSamples) s (fun t => t.get R.PWR_STAT_BRAKE = 1 ∧ t.get R.PWR_STAT_CAUSE = causeField (s.power.causes ||| 4) % 16 ∧
        t.get R.PWR_COUNT_BRAKES = min (s.get R.PWR_COUNT_BRAKES + 1) (2 ^ 32 - 1) ∧
        t.get R.PWR_STAT_LEVEL = max 32 (s.get R.PWR_STAT_LEVEL) % 64 ∧ t.power.causes = s.power.causes ||| 4 ∧
        t = { s with regs := t.regs, power := t.power } ∧
        OnlyFields [R.PWR_STAT_BRAKE, R.PWR_STAT_CAUSE, R.PWR_COUNT_BRAKES, R.PWR_STAT_LEVEL] s t)) ∧
  (∀ (s : State) (celsius : Nat),
      s.live = true →
      s.get R.PWR_STAT_BRAKE = 0 →
      s.get R.PWR_CTL_TJ_BRAKE ≤ celsius →
      celsius < 110 →
      Completes (.junctionBrakeTemperature celsius) s (fun t => t.get R.PWR_STAT_TJ = celsius ∧ t.get R.PWR_STAT_BRAKE = 1 ∧ t.get R.PWR_STAT_CAUSE = causeField (s.power.causes ||| 8) % 16 ∧
        t.get R.PWR_COUNT_BRAKES = min (s.get R.PWR_COUNT_BRAKES + 1) (2 ^ 32 - 1) ∧
        t.get R.PWR_STAT_LEVEL = max 32 (s.get R.PWR_STAT_LEVEL) % 64 ∧ t.power.causes = s.power.causes ||| 8 ∧
        t = { s with regs := t.regs, power := t.power } ∧
        OnlyFields [R.PWR_STAT_TJ, R.PWR_STAT_BRAKE, R.PWR_STAT_CAUSE, R.PWR_COUNT_BRAKES, R.PWR_STAT_LEVEL] s t)) ∧
  (∀ (s : State),
      s.live = true →
      s.get R.PWR_STAT_BRAKE = 0 →
      Completes (.coolOkDeassert) s (fun t => t.get R.PWR_STAT_BRAKE = 1 ∧ t.get R.PWR_STAT_CAUSE = causeField (s.power.causes ||| 16) % 16 ∧
        t.get R.PWR_COUNT_BRAKES = min (s.get R.PWR_COUNT_BRAKES + 1) (2 ^ 32 - 1) ∧
        t.get R.PWR_STAT_LEVEL = max 32 (s.get R.PWR_STAT_LEVEL) % 64 ∧ t.power.coolOk = false ∧
        t.fabric = { s.fabric with lsmEn := 0, lsmReady := 0, lsmLit := false } ∧
        (∀ n < 10, s.get (R.LSM_STAT_STATE n) = 3 → t.get (R.LSM_STAT_STATE n) = 1) ∧
        t = { s with regs := t.regs, power := t.power, fabric := t.fabric } ∧
        OnlyFields ([R.PWR_STAT_BRAKE, R.PWR_STAT_CAUSE, R.PWR_COUNT_BRAKES, R.PWR_STAT_LEVEL] ++ (List.range 10).map R.LSM_STAT_STATE) s t)) ∧
  (∀ (s : State),
      s.live = true →
      s.get R.PWR_STAT_BRAKE = 1 →
      s.power.causes = 0 →
      s.power.underSamples = 100 →
      Completes (.brakeExit) s (fun t => t.get R.PWR_STAT_BRAKE = 0 ∧ t.power = { s.power with climbing := true } ∧ t = { s with regs := t.regs, power := t.power } ∧
        OnlyFields [R.PWR_STAT_BRAKE] s t))

/-- A power sample is measured and moves the throttle level. (R426, R428, R430, R434, R14, R335, 18_clocks_power_freeze.md) -/
def Obligations.SamplesDriveTheGovernor : Prop :=
  (∀ (s : State) (watts celsius : Nat),
      s.live = true →
      s.get R.PWR_STAT_BRAKE = 0 →
      celsius < s.get R.PWR_CTL_TJ_BRAKE →
      celsius < 110 →
      s.get R.PWR_STAT_CAP_W < watts →
      100 * watts ≤ 105 * s.get R.PWR_STAT_CAP_W →
      watts < 2 ^ 16 →
      11 ≤ s.power.sinceStep →
      s.get R.PWR_STAT_LEVEL < 63 →
      Completes (.powerSample watts celsius false) s (fun t => t.get R.PWR_STAT_LEVEL = s.get R.PWR_STAT_LEVEL + 1 ∧ t.get R.PWR_STAT_MEAS_W = watts ∧ t.get R.PWR_STAT_TJ = celsius ∧
        t.get R.PWR_ENERGY_CHIP_NJ = (s.get R.PWR_ENERGY_CHIP_NJ + watts * 10000) % 2 ^ 64 ∧ t.get R.PWR_STAT_BRAKE = 0 ∧
        t.power.sinceStep = 0 ∧ t = { s with regs := t.regs, power := t.power } ∧
        OnlyFields [R.PWR_STAT_LEVEL, R.PWR_STAT_MEAS_W, R.PWR_STAT_TJ, R.PWR_ENERGY_CHIP_NJ, R.PWR_ENERGY_UNATTR_NJ] s t)) ∧
  (∀ (s : State) (watts celsius : Nat),
      s.live = true →
      s.get R.PWR_STAT_BRAKE = 1 →
      celsius < s.get R.PWR_CTL_TJ_BRAKE →
      celsius < 110 →
      s.floorCw < 100 * watts →
      watts < 2 ^ 16 →
      s.get R.PWR_STAT_LEVEL < 63 →
      Completes (.powerSample watts celsius false) s (fun t => t.get R.PWR_STAT_LEVEL = s.get R.PWR_STAT_LEVEL + 1 ∧ t.get R.PWR_STAT_MEAS_W = watts ∧
        t.get R.PWR_ENERGY_CHIP_NJ = (s.get R.PWR_ENERGY_CHIP_NJ + watts * 10000) % 2 ^ 64 ∧ t.get R.PWR_STAT_BRAKE = 1 ∧
        t = { s with regs := t.regs, power := t.power })) ∧
  (∀ (s : State),
      s.live = true →
      Completes (.coolOkAssert) s (fun t => t.power = { s.power with coolOk := true, causes := s.power.causes - (s.power.causes &&& 16) } ∧ t.get R.BOOT_STAT_WAIT_COOL = 0 ∧
        (∀ n < 10, bit s.fabric.lsmPresN n = false → s.get (R.LSM_STAT_STATE n) = 4 → bit t.fabric.lsmEn n = true) ∧
        (∀ n < 10, bit s.fabric.lsmPresN n = false → s.get (R.LSM_STAT_STATE n) = 1 ∧ s.get (R.LSM_STAT_GROUP n) ≠ 15 → bit t.fabric.lsmEn n = true) ∧
        t.mem = s.mem ∧ t.work = s.work ∧ t.xlat = s.xlat))

/-- Emergency off and freeze stop the chip. (R435, R436, R444, R454, R455, 19_faults_and_telemetry.md) -/
def Obligations.EmergencyOffAndFreeze : Prop :=
  (∀ (s : State),
      s.boot.porN = true →
      s.boot.aonRuns = true →
      s.boot.epo = false →
      Completes (.epoNAssert) s (fun t => t.boot.epo = true ∧ t.live = false ∧ t.get R.FAULT_STAT_EPO_CAUSE = 1 ∧ (t.tele.log.head?.map (fun e => (e.event, e.addr))) = some (14, 1) ∧
        t.mem = [] ∧ t.power.epoN = false ∧ t.get R.CLK_LOCALTICK_TICK = s.get R.CLK_LOCALTICK_TICK)) ∧
  (∀ (s : State),
      s.boot.porN = true →
      s.boot.aonRuns = true →
      s.boot.epo = false →
      s.power.coolOk = false →
      Completes (.coolOkLossTimeout) s (fun t => t.boot.epo = true ∧ t.live = false ∧ t.get R.FAULT_STAT_EPO_CAUSE = 2 ∧ (t.tele.log.head?.map (fun e => (e.event, e.addr))) = some (14, 2) ∧ t.mem = [])) ∧
  (∀ (s : State) (celsius : Nat),
      s.boot.porN = true →
      s.boot.aonRuns = true →
      s.boot.epo = false →
      110 ≤ celsius →
      Completes (.junctionLimitTemperature celsius) s (fun t => t.boot.epo = true ∧ t.live = false ∧ t.get R.FAULT_STAT_EPO_CAUSE = 4 ∧ (t.tele.log.head?.map (fun e => (e.event, e.addr))) = some (14, 4) ∧ t.mem = [])) ∧
  (∀ (s : State) (rail millivolts : Nat),
      s.boot.porN = true →
      s.boot.aonRuns = true →
      s.boot.epo = false →
      railOut rail millivolts = true →
      Completes (.railOutOfLimits rail millivolts) s (fun t => t.boot.epo = true ∧ t.live = false ∧ t.get R.FAULT_STAT_EPO_CAUSE = 4 ∧ (t.tele.log.head?.map (fun e => (e.event, e.addr))) = some (14, 4) ∧ t.mem = [])) ∧
  (∀ (s : State) (stopCycles : List Nat),
      s.boot.porN = true →
      s.boot.aonRuns = true →
      s.boot.epo = false →
      s.frozen = none →
      Completes (.freezeNAssert stopCycles) s (fun t => t.live = false ∧ t.get R.SEC_STAT_FROZEN = 1 ∧ t.get R.BOOT_STAT_MODE_PENDING = 0 ∧ t.boot.modeChange = none ∧ t.fabric.fabricReady = false ∧
        (t.frozen.map (fun f => (f.tick, f.stopCycles, f.regs))) = some (s.tick, stopCycles.take 8, t.regs) ∧ t.mem = s.mem ∧ t.out = s.out ∧
        t.work = s.work ∧ t.xlat = s.xlat)) ∧
  (∀ (s : State) (cause : Nat),
      s.boot.porN = true →
      s.boot.aonRuns = true →
      s.boot.epo = false →
      s.frozen = none →
      cause < 16 →
      Completes (.fatalError cause) s (fun t => t.live = false ∧ t.get R.FAULT_STAT_FATAL_CAUSE = cause ∧ t.get R.GLB_STAT_FATAL = 1 ∧ t.get R.SEC_STAT_FROZEN = 1 ∧
        (t.tele.log.head?.map (fun e => (e.event, e.addr))) = some (13, cause) ∧ t.frozen ≠ none ∧ t.mem = s.mem ∧ t.out = s.out))

/-- Laser modules light, are replaced and fail as stated. (R330, R331, R332, R333, R335, 13_lasers_rings_bursts.md) -/
def Obligations.LasersLightMoveAndFail : Prop :=
  (∀ (s : State) (lsm : Nat) (t0 : Stem),
      s.live = true →
      lsm < 8 →
      bit s.fabric.lsmEn lsm = true →
      bit s.fabric.lsmReady lsm = false →
      s.get (R.LSM_STAT_STATE lsm) = 1 →
      s.boot.stem = some t0 →
      Completes (.lsmReady lsm) s (fun t => t.get (R.LSM_STAT_STATE lsm) = 3 ∧ t.fabric.lsmReady = setBit s.fabric.lsmReady lsm ∧
        (∀ j < 4, s.fibre (4 * lsm + j) = 0 → bit t0.fibreEn (4 * lsm + j) = true → t.fabric.searching.contains (4 * lsm + j) = true) ∧
        (∀ j < 4, s.fibre (4 * lsm + j) = 0 → t.searchNow.contains (4 * lsm + j) = true → t.fibre (4 * lsm + j) = 1) ∧
        t = { s with regs := t.regs, fabric := t.fabric } ∧
        OnlyFields (R.LSM_STAT_STATE lsm :: t.searchNow.map R.OPT_STAT_STATE) s t)) ∧
  (∀ (s : State) (lsm spare : Nat),
      s.live = true →
      lsm < 8 →
      s.get (R.LSM_STAT_STATE lsm) = 3 →
      s.fabric.replacements = [] →
      s.freeSpare = some spare →
      Completes (.lsmFault lsm) s (fun t => t.get (R.LSM_STAT_STATE lsm) = 6 ∧ t.get (R.LSM_STAT_STATE spare) = 2 ∧ bit t.fabric.lsmEn lsm = false ∧
        t.fabric.replacements = [{ lsm := lsm, spare := spare, next := none, failed := true }] ∧
        (∀ f < 32, s.get (R.OPT_STAT_LSM f) = lsm → (s.fibre f ≠ 0 ∨ s.fibreEnabled f = true) → t.fibre f = 5) ∧ t.mem = s.mem ∧ t.work = s.work)) ∧
  (∀ (s : State) (lsm spare : Nat),
      s.live = true →
      lsm < 8 →
      s.get (R.LSM_STAT_STATE lsm) = 3 →
      s.fabric.replacements = [] →
      s.freeSpare = some spare →
      Completes (.lsmRegisterAccessFail lsm) s (fun t => t.get (R.LSM_STAT_STATE lsm) = 6 ∧ t.get (R.LSM_STAT_STATE spare) = 2 ∧ bit t.fabric.lsmEn lsm = false ∧
        t.fabric.replacements = [{ lsm := lsm, spare := spare, next := none, failed := true }] ∧
        (∀ f < 32, s.get (R.OPT_STAT_LSM f) = lsm → (s.fibre f ≠ 0 ∨ s.fibreEnabled f = true) → t.fibre f = 5) ∧ t.mem = s.mem ∧ t.work = s.work)) ∧
  (∀ (s : State) (lsm spare : Nat),
      s.live = true →
      lsm < 8 →
      s.get (R.LSM_STAT_STATE lsm) = 3 →
      s.fabric.replacements = [] →
      s.freeSpare = some spare →
      s.power.coolOk = true →
      Completes (.lsmRetireWrite lsm) s (fun t => t.get (R.LSM_CTL_RETIRE lsm) = 1 ∧ t.get (R.LSM_STAT_STATE lsm) = 4 ∧ t.get (R.LSM_STAT_STATE spare) = 2 ∧
        t.fabric.lsmEn = setBit s.fabric.lsmEn spare ∧ t.out = s.out ++ [.lsmWrite spare 2 2] ∧
        t.fabric.replacements = [{ lsm := lsm, spare := spare, next := none, failed := false }] ∧
        t = { s with regs := t.regs, fabric := t.fabric, out := t.out } ∧
        OnlyFields [R.LSM_CTL_RETIRE lsm, R.LSM_STAT_STATE lsm, R.LSM_STAT_STATE spare] s t)) ∧
  (∀ (s : State) (r : LsmReading) (m : Int),
      s.live = true →
      r.lsm < 10 →
      s.get (R.LSM_STAT_STATE r.lsm) = 3 →
      s.lowestMargin r.lsm = some m →
      m < (s.get R.LSM_CFG_MARGIN_LO : Int) →
      r.bias < r.biasMax →
      r.biasMax < 1024 →
      10 * r.bias < 9 * r.biasMax →
      150 ≤ 10 * m + (r.headroom : Int) →
      r.lsm ∉ s.fabric.noSpare →
      Completes (.biasEvaluation [r]) s (fun t => t.get (R.LSM_STAT_BIAS r.lsm) = min r.biasMax (r.bias + s.get R.LSM_CFG_BIAS_STEP) ∧ t.get (R.LSM_STAT_BIAS_MAX r.lsm) = r.biasMax ∧
        t.get (R.LSM_STAT_HEADROOM r.lsm) = r.headroom % 2 ^ 16 ∧
        t.out = s.out ++ [.lsmWrite r.lsm 3 (min r.biasMax (r.bias + s.get R.LSM_CFG_BIAS_STEP))] ∧
        t = { s with regs := t.regs, out := t.out } ∧
        OnlyFields [R.LSM_STAT_BIAS r.lsm, R.LSM_STAT_BIAS_MAX r.lsm, R.LSM_STAT_HEADROOM r.lsm] s t)) ∧
  (∀ (s : State) (lsm : Nat),
      s.live = true →
      lsm < 10 →
      s.get (R.LSM_STAT_STATE lsm) = 1 →
      Completes (.lsmPresNChange lsm true) s (fun t => t.get (R.LSM_STAT_STATE lsm) = 0 ∧
        t.fabric = { s.fabric with lsmPresN := setBit s.fabric.lsmPresN lsm, lsmEn := clearBit s.fabric.lsmEn lsm, lsmReady := clearBit s.fabric.lsmReady lsm } ∧
        t = { s with regs := t.regs, fabric := t.fabric } ∧ OnlyFields [R.LSM_STAT_STATE lsm] s t)) ∧
  (∀ (s : State) (lsm : Nat),
      s.live = true →
      lsm < 8 →
      s.get (R.LSM_STAT_STATE lsm) = 0 →
      s.power.coolOk = true →
      Completes (.lsmPresNChange lsm false) s (fun t => t.get (R.LSM_STAT_STATE lsm) = 1 ∧
        t.fabric = { s.fabric with lsmPresN := clearBit s.fabric.lsmPresN lsm, lsmEn := setBit s.fabric.lsmEn lsm } ∧
        t.out = s.out ++ [.lsmWrite lsm 2 1] ∧
        t = { s with regs := t.regs, fabric := t.fabric, out := t.out } ∧ OnlyFields [R.LSM_STAT_STATE lsm] s t))

/-- Cold search, lock loss, relock and the lock supervisor. (R15, R17, R313, R327, R328, R329, 13_lasers_rings_bursts.md) -/
def Obligations.RingsSearchLockAndRelock : Prop :=
  (∀ (s : State) (fibre tx rx : Nat),
      s.live = true →
      fibre < 32 →
      s.searchNow.contains fibre = true →
      s.fibre fibre = 1 →
      (∀ l ∈ s.usedLines fibre, bit tx l = true ∧ bit rx l = true ∧ s.get (R.OPT_TXLINE_STATE fibre l) ≠ 5) →
      bit (s.get R.PARSER_PLANES_EXCLUDE) fibre = false →
      Completes (.coldSearchDone fibre tx rx) s (fun t => t.fibre fibre = 2 ∧ bit (t.get R.PARSER_PLANES_BULK) fibre = true ∧
        t.get (R.OPT_STAT_TX_LOCKED fibre) = (s.usedLines fibre).length ∧ t.get (R.OPT_STAT_RX_LOCKED fibre) = (s.usedLines fibre).length ∧
        (∀ l ∈ s.usedLines fibre, t.txLocked fibre l = true ∧ t.rxLocked fibre l = true) ∧
        t = { s with regs := t.regs, fresh := s.fresh + 1, fabric := { s.fabric with searching := s.fabric.searching.filter (· != fibre), calibration := t.fabric.calibration, lsmLit := t.fabric.lsmLit } })) ∧
  (∀ (s : State) (fibre tx rx l : Nat),
      s.live = true →
      fibre < 32 →
      s.searchNow.contains fibre = true →
      s.fibre fibre = 1 →
      l ∈ s.usedLines fibre →
      bit tx l = false →
      s.txLocked fibre l = false →
      Completes (.coldSearchDone fibre tx rx) s (fun t => t.fibre fibre = 5 ∧ (t.tele.log.head?.map (fun e => (e.event, e.addr))) = some (5, fibre) ∧
        t = { s with regs := t.regs, fresh := s.fresh + 1, tele := t.tele, nelar := t.nelar, out := t.out, fabric := { s.fabric with searching := s.fabric.searching.filter (· != fibre), calibration := t.fabric.calibration, lsmLit := t.fabric.lsmLit } })) ∧
  (∀ (s : State) (t0 : Stem),
      s.live = true →
      s.boot.stem = some t0 →
      s.fabric.lsmLit = true →
      (∀ f < 32, bit t0.fibreEn f = true → s.fibre f ≠ 0 ∧ s.fibre f ≠ 1) →
      t0.minPlanes ≤ s.lockedCount →
      s.fabric.fabricReady = false →
      s.bootState = 2 →
      Completes (.fabricReadyAssert) s (fun t => t.bootState = 3 ∧ t.get R.BOOT_TIME_READY_TICK = s.tick % 2 ^ 32 ∧ t.fabric = { s.fabric with fabricReady := true } ∧
        t = { s with regs := t.regs, fabric := t.fabric } ∧ OnlyFields [R.BOOT_STAT_STATE, R.BOOT_TIME_READY_TICK] s t)) ∧
  (∀ (s : State) (fibre line : Nat),
      s.live = true →
      fibre < 32 →
      line < 64 →
      s.get (R.OPT_TXLINE_STATE fibre line) = 2 →
      (s.hop (hopKey fibre line)).up = true →
      Completes (.ringLockLoss { fibre := fibre, line := line, tx := true }) s (fun t => t.get (R.OPT_TXLINE_STATE fibre line) = 3 ∧ (t.hop (hopKey fibre line)).up = false ∧
        t.get (R.OPT_STAT_TX_LOCKED fibre) = (s.get (R.OPT_STAT_TX_LOCKED fibre) - 1) % 2 ^ 8 ∧
        t.get (R.OPT_STAT_HOPS_UP fibre) = (s.get (R.OPT_STAT_HOPS_UP fibre) - 1) % 2 ^ 8 ∧
        t = { s with regs := t.regs, fabric := t.fabric } ∧
        OnlyFields [R.OPT_TXLINE_STATE fibre line, R.OPT_RXLINE_STATE fibre (s.backLine fibre line), R.OPT_STAT_TX_LOCKED fibre, R.OPT_STAT_HOPS_UP fibre] s t)) ∧
  (∀ (s : State) (fibre line : Nat),
      s.live = true →
      fibre < 32 →
      line < 64 →
      s.get (R.OPT_RXLINE_STATE fibre line) = 4 →
      (s.hop (s.rxHop fibre line)).up = false →
      Completes (.ringLockLoss { fibre := fibre, line := line, tx := false }) s (fun t => t.get (R.OPT_RXLINE_STATE fibre line) = 3 ∧ t.get (R.OPT_STAT_RX_LOCKED fibre) = (s.get (R.OPT_STAT_RX_LOCKED fibre) - 1) % 2 ^ 8 ∧
        t = { s with regs := t.regs, fabric := { s.fabric with fabricReady := t.fabric.fabricReady } } ∧
        OnlyFields [R.OPT_RXLINE_STATE fibre line, R.OPT_STAT_RX_LOCKED fibre] s t)) ∧
  (∀ (s : State) (fibre line : Nat),
      s.live = true →
      fibre < 32 →
      line < 64 →
      s.get (R.OPT_TXLINE_STATE fibre line) = 3 →
      s.movingFibre fibre = none →
      Completes (.relockDone { fibre := fibre, line := line, tx := true } true) s (fun t => t.get (R.OPT_TXLINE_STATE fibre line) = 4 ∧ t.get (R.OPT_STAT_TX_LOCKED fibre) = (s.get (R.OPT_STAT_TX_LOCKED fibre) + 1) % 2 ^ 8 ∧
        t = { s with regs := t.regs } ∧ OnlyFields [R.OPT_TXLINE_STATE fibre line, R.OPT_STAT_TX_LOCKED fibre] s t)) ∧
  (∀ (s : State) (fibre line : Nat),
      s.live = true →
      s.get (R.OPT_RXLINE_STATE fibre line) = 3 →
      Completes (.relockDone { fibre := fibre, line := line, tx := false } false) s (fun t => t.get (R.OPT_RXLINE_STATE fibre line) = 1 ∧ t.fabric.searching.contains fibre = true ∧
        t = { s with regs := t.regs, fabric := { s.fabric with searching := t.fabric.searching } } ∧
        OnlyFields (R.OPT_RXLINE_STATE fibre line :: t.searchNow.map R.OPT_STAT_STATE) s t)) ∧
  (∀ (s : State) (fibre line : Nat),
      s.live = true →
      fibre < 32 →
      line < 64 →
      s.get (R.OPT_TXLINE_STATE fibre line) = 4 →
      (s.hop (hopKey fibre line)).up = false →
      Completes (.lockSupervisorCheck [{ fibre := fibre, line := line, tx := true }]) s (fun t => t.get (R.OPT_COUNT_WRONG_LINE fibre) = min (s.get (R.OPT_COUNT_WRONG_LINE fibre) + 1) (2 ^ 16 - 1) ∧ t.get (R.OPT_TXLINE_STATE fibre line) = 3 ∧
        t.get (R.OPT_STAT_TX_LOCKED fibre) = (s.get (R.OPT_STAT_TX_LOCKED fibre) - 1) % 2 ^ 8 ∧
        t = { s with regs := t.regs, fabric := { s.fabric with fabricReady := t.fabric.fabricReady } } ∧
        OnlyFields [R.OPT_COUNT_WRONG_LINE fibre, R.OPT_TXLINE_STATE fibre line, R.OPT_STAT_TX_LOCKED fibre] s t)) ∧
  (∀ (s : State) (fibre line : Nat),
      s.live = true →
      s.fabric.awake.contains (hopKey fibre line) = false →
      exec (.signalDetect fibre line) s = .next ({ s with fabric := { s.fabric with awake := s.fabric.awake ++ [hopKey fibre line] } })) ∧
  (∀ (s : State) (fibre line : Nat),
      s.live = true →
      Completes (.lockMiss fibre line) s (fun t => t.get (R.OPT_COUNT_LOCK_MISS fibre) = min (s.get (R.OPT_COUNT_LOCK_MISS fibre) + 1) (2 ^ 16 - 1) ∧ hopKey fibre line ∉ t.fabric.awake ∧
        (∀ k ∈ s.fabric.awake, k ≠ hopKey fibre line → k ∈ t.fabric.awake) ∧
        t = { s with regs := t.regs, fabric := { s.fabric with awake := t.fabric.awake } } ∧ OnlyFields [R.OPT_COUNT_LOCK_MISS fibre] s t))

/-- A burst carries the waiting link control and the granted frames. (R294, R313, R315, R316, R317, R319, R323, R324, 13_lasers_rings_bursts.md) -/
def Obligations.BurstsCarryControlAndFrames : Prop :=
  (∀ (s : State) (fibre line : Nat) (xs : List Frame) (hdr : BurstHeader),
      s.live = true →
      line < 64 →
      (s.hop (hopKey fibre line)).up = true →
      s.fibre fibre = 2 →
      (s.hop (hopKey fibre line)).granted = [] →
      s.takeQueued fibre line s.fabric.frames.length = s →
      (s.takeCtl (s.peerOf fibre line) (s.burstRoom fibre)).2 ≠ [] →
      xs = s.ctlFrames fibre line (s.takeCtl (s.peerOf fibre line) (s.burstRoom fibre)).2 →
      hdr = { srcChip := s.chip, plane := fibre, line := line, mcast := false, bodyM1 := max 64 (xs.map frameBlocks).sum - 1, frameM1 := (xs.map frameBlocks).sum - 1, targets := [] } →
      exec (.burstOpen fibre line) s = .next ((s.takeCtl (s.peerOf fibre line) (s.burstRoom fibre)).1.emit (.burst fibre [line] hdr (s.takeCtl (s.peerOf fibre line) (s.burstRoom fibre)).2 [] (preamble ++ burstSymbols (burstOf hdr xs))))) ∧
  (∀ (s : State) (fibre line id : Nat) (e : FrameSlot) (hdr : BurstHeader),
      s.live = true →
      line < 64 →
      (s.hop (hopKey fibre line)).up = true →
      s.fibre fibre = 2 →
      (s.hop (hopKey fibre line)).granted = [id] →
      tget id s.fabric.frames = some e →
      e.mlines = [] →
      s.takeQueued fibre line s.fabric.frames.length = s →
      (s.takeCtl (s.peerOf fibre line) (s.burstRoom fibre)).2 = [] →
      hdr = { srcChip := s.chip, plane := fibre, line := line, mcast := false, bodyM1 := max 64 (frameBlocks e.frame) - 1, frameM1 := frameBlocks e.frame - 1, targets := [] } →
      Completes (.burstOpen fibre line) s (fun t => (t.hop (hopKey fibre line)).txNext = ((s.hop (hopKey fibre line)).txNext + 1) % 2 ^ 24 ∧
        (t.hop (hopKey fibre line)).held = (s.hop (hopKey fibre line)).held ++ [((s.hop (hopKey fibre line)).txNext, id)] ∧
        (t.hop (hopKey fibre line)).granted = [] ∧
        t.out = s.out ++ [.burst fibre [line] hdr [] [onHop e.frame fibre line (s.hop (hopKey fibre line)).txNext false] (preamble ++ burstSymbols (burstOf hdr [onHop e.frame fibre line (s.hop (hopKey fibre line)).txNext false]))] ∧
        t.fabric.frames = s.fabric.frames ∧ t.mem = s.mem ∧ t.work = s.work)) ∧
  (∀ (s : State) (fibre line : Nat),
      s.live = true →
      line < 64 →
      (s.hop (hopKey fibre line)).up = true →
      s.fibre fibre = 2 →
      0 < s.get (R.OPT_CTL_BURST_KIB fibre) →
      (fibre, line) ∈ s.hopsTo (s.peerOf fibre line) →
      Completes (.keepaliveTimer fibre line) s (fun t => s.out.length < t.out.length ∧ t.out.take s.out.length = s.out ∧ (t.hop (hopKey fibre line)).up = true ∧
        t.mem = s.mem ∧ t.work = s.work ∧ t.xlat = s.xlat ∧ t.home = s.home)) ∧
  (∀ (s : State) (fibre line n u : Nat) (symbols body : List Nat) (bs : List Block) (hdr : BurstHeader),
      s.live = true →
      s.home.finished = [] →
      fibre < 32 →
      burstBlocks symbols = (bs, n, u) →
      burstForm bs = some (hdr, body) →
      hdr.plane = fibre →
      hdr.mcast = false →
      hdr.line = line →
      (∀ l ∈ s.usedLines fibre, s.reachState (s.peerOf fibre l) ≠ 1 ∨ s.peerOf fibre l = s.hearsFrom fibre line) →
      Completes (.burstReceive fibre line symbols) s (fun t => t.get (R.OPT_FEC_CORRECTED fibre) = min (s.get (R.OPT_FEC_CORRECTED fibre) + n) (2 ^ 64 - 1) ∧
        t.get (R.OPT_COUNT_UNCORR fibre) = min (s.get (R.OPT_COUNT_UNCORR fibre) + u) (2 ^ 16 - 1) ∧
        (t.hop (s.rxHop fibre line)).heard = true ∧ hopKey fibre line ∉ t.fabric.awake ∧
        (s.hearsFrom fibre line ≠ s.chip → s.reachState (s.hearsFrom fibre line) = 0 → t.reachState (s.hearsFrom fibre line) = 1) ∧
        (tget (hopKey fibre line) t.fabric.arrived).getD [] =
          (tget (hopKey fibre line) s.fabric.arrived).getD [] ++ framesIn false (hdr.frameM1 + 1) (hdr.frameM1 + 1) (body.take (hdr.frameM1 + 1)) ∧
        t = { s with regs := t.regs, fabric := t.fabric, tele := t.tele } ∧ OnlyFields [R.OPT_FEC_CORRECTED fibre, R.OPT_COUNT_UNCORR fibre] s t)) ∧
  (∀ (s : State) (fibre line n u : Nat) (symbols body : List Nat) (bs : List Block) (hdr : BurstHeader),
      s.live = true →
      s.home.finished = [] →
      fibre < 32 →
      burstBlocks symbols = (bs, n, u) →
      burstForm bs = some (hdr, body) →
      hdr.plane ≠ fibre →
      Completes (.burstReceive fibre line symbols) s (fun t => t.get (R.SWC_PORT_ERR_CHECK (32 + fibre)) = min (s.get (R.SWC_PORT_ERR_CHECK (32 + fibre)) + 1) (2 ^ 16 - 1) ∧
        t.get (R.OPT_FEC_CORRECTED fibre) = min (s.get (R.OPT_FEC_CORRECTED fibre) + n) (2 ^ 64 - 1) ∧
        t = { s with regs := t.regs, fabric := { s.fabric with awake := t.fabric.awake, hops := t.fabric.hops } } ∧
        OnlyFields [R.OPT_FEC_CORRECTED fibre, R.OPT_COUNT_UNCORR fibre, R.SWC_PORT_ERR_CHECK (32 + fibre)] s t)) ∧
  (∀ (s : State) (fibre line n u : Nat) (symbols : List Nat) (bs : List Block),
      s.live = true →
      s.home.finished = [] →
      fibre < 32 →
      burstBlocks symbols = (bs, n, u) →
      burstForm bs = none →
      bs ≠ [] ∨ u = 0 →
      Completes (.burstReceive fibre line symbols) s (fun t => t.get (R.SWC_PORT_ERR_CHECK (32 + fibre)) = min (s.get (R.SWC_PORT_ERR_CHECK (32 + fibre)) + 1) (2 ^ 16 - 1) ∧
        hopKey fibre line ∉ t.fabric.awake ∧
        t = { s with regs := t.regs, fabric := { s.fabric with awake := t.fabric.awake, hops := t.fabric.hops } } ∧
        OnlyFields [R.OPT_FEC_CORRECTED fibre, R.OPT_COUNT_UNCORR fibre, R.SWC_PORT_ERR_CHECK (32 + fibre)] s t)) ∧
  (∀ (s : State) (fibre line power : Nat),
      s.live = true →
      Completes (.powerReportTimer fibre line power) s (fun t => t.get (R.OPT_RXLINE_POWER fibre line) = power % 2 ^ 16 ∧
        (t.hop (s.rxHop fibre line)).ctl = (s.hop (s.rxHop fibre line)).ctl ++ [(6, { src := s.chip, fibre := s.rxHop fibre line / 64, plane := s.rxHop fibre line / 64, kind := 0, line := line, vc := 0, value0 := power % 2 ^ 16 + (power + 2 ^ 16 - s.get R.LSM_CFG_RX_REQ) % 2 ^ 16 * 2 ^ 16, value1 := min (s.hop (s.rxHop fibre line)).corrected (2 ^ 32 - 1), value2 := min (s.hop (s.rxHop fibre line)).uncorr (2 ^ 32 - 1) })] ∧
        (t.hop (s.rxHop fibre line)).corrected = 0 ∧ (t.hop (s.rxHop fibre line)).uncorr = 0 ∧
        t = { s with regs := t.regs, fabric := { s.fabric with hops := t.fabric.hops } } ∧ OnlyFields [R.OPT_RXLINE_POWER fibre line] s t)) ∧
  (∀ (s : State) (fibre line : Nat),
      s.live = true →
      s.home.finished = [] →
      fibre < 32 →
      line < 64 →
      s.get (R.OPT_RXLINE_STATE fibre line) = 2 →
      (s.hop (s.rxHop fibre line)).up = true →
      s.reachState (s.hearsFrom fibre line) ≠ 2 →
      Completes (.hopLost fibre line false) s (fun t => (t.hop (s.rxHop fibre line)).up = false ∧ (t.hop (s.rxHop fibre line)).lostByLight = true ∧ t.get (R.OPT_RXLINE_STATE fibre line) = 4 ∧
        t.get (R.OPT_COUNT_LOSS fibre) = min (s.get (R.OPT_COUNT_LOSS fibre) + 1) (2 ^ 16 - 1) ∧
        t.get (R.OPT_STAT_HOPS_UP fibre) = (s.get (R.OPT_STAT_HOPS_UP fibre) - 1) % 2 ^ 8 ∧ t = { s with regs := t.regs, fabric := t.fabric })) ∧
  (∀ (s : State) (fibre line n : Nat) (hdr : BurstHeader),
      s.live = true →
      line < 64 →
      (s.hop (hopKey fibre line)).up = false →
      s.get (R.OPT_TXLINE_STATE fibre line) = 4 →
      s.rxLocked fibre (s.backLine fibre line) = true →
      s.fibre fibre = 2 →
      n = ((s.hop (hopKey fibre line)).nonce + 1) % 2 ^ 32 →
      hdr = { srcChip := s.chip, plane := fibre, line := line, mcast := false, bodyM1 := 63, frameM1 := 6, targets := [] } →
      exec (.hopUpTimer fibre line) s = .next ((s.modHop (hopKey fibre line) (fun h => { h with nonce := n })).emit (.burst fibre [line] hdr [(0xd, upMsg s.chip fibre n)] [] (preamble ++ burstSymbols (burstOf hdr (s.ctlFrames fibre line [(0xd, upMsg s.chip fibre n)]))))))

/-- Link control acknowledges frames, moves credit and reports. (R294, R320, R322, R323, R329, R330, 13_lasers_rings_bursts.md) -/
def Obligations.LinkControlKeepsFramesAndCredit : Prop :=
  (∀ (s : State) (m : LinkCtl) (id q : Nat) (e : FrameSlot),
      s.live = true →
      m.kind = 0 →
      q < 2 ^ 24 →
      m.value0 = q →
      (s.hop (s.msgHop m)).held = [(q, id)] →
      tget id s.fabric.frames = some e →
      e.queued = false →
      e.holds = [s.msgHop m] →
      e.mlines = [] →
      s.fabric.waitIn = [] →
      Completes (.ack m) s (fun t => (t.hop (s.msgHop m)).held = [] ∧ (t.hop (s.msgHop m)).resends = 0 ∧ tget id t.fabric.frames = none ∧
        (∀ n : Nat, n ≠ id → tget n t.fabric.frames = tget n s.fabric.frames) ∧ t.mem = s.mem ∧ t.work = s.work ∧ t.out = s.out)) ∧
  (∀ (s : State) (m : LinkCtl) (id q : Nat) (e : FrameSlot) (hdr : BurstHeader),
      s.live = true →
      m.kind = 0 →
      q < 2 ^ 24 →
      m.value0 = q →
      (s.hop (s.msgHop m)).up = true →
      (s.hop (s.msgHop m)).held = [(q, id)] →
      tget id s.fabric.frames = some e →
      hdr = { srcChip := s.chip, plane := s.msgHop m / 64, line := s.msgHop m % 64, mcast := false, bodyM1 := max 64 (frameBlocks e.frame) - 1, frameM1 := frameBlocks e.frame - 1, targets := [] } →
      Completes (.nack m) s (fun t => (t.hop (s.msgHop m)).held = [(q, id)] ∧
        t.out = s.out ++ [.burst (s.msgHop m / 64) [s.msgHop m % 64] hdr [] [onHop e.frame (s.msgHop m / 64) (s.msgHop m % 64) q true] (preamble ++ burstSymbols (burstOf hdr [onHop e.frame (s.msgHop m / 64) (s.msgHop m % 64) q true]))] ∧
        t.fabric.frames = s.fabric.frames ∧ t.mem = s.mem ∧ t.work = s.work)) ∧
  (∀ (s : State) (fibre line id q : Nat) (e : FrameSlot) (hdr : BurstHeader),
      s.live = true →
      line < 64 →
      q < 2 ^ 24 →
      (s.hop (hopKey fibre line)).up = true →
      (s.hop (hopKey fibre line)).held = [(q, id)] →
      tget id s.fabric.frames = some e →
      hdr = { srcChip := s.chip, plane := fibre, line := line, mcast := false, bodyM1 := max 64 (frameBlocks e.frame) - 1, frameM1 := frameBlocks e.frame - 1, targets := [] } →
      Completes (.retryTimeout fibre line) s (fun t => (t.hop (hopKey fibre line)).resends = (s.hop (hopKey fibre line)).resends + 1 ∧ (t.hop (hopKey fibre line)).held = [(q, id)] ∧
        t.out = s.out ++ [.burst fibre [line] hdr [] [onHop e.frame fibre line q true] (preamble ++ burstSymbols (burstOf hdr [onHop e.frame fibre line q true]))] ∧
        t.fabric.frames = s.fabric.frames ∧ t.mem = s.mem ∧ t.work = s.work)) ∧
  (∀ (s : State) (m : LinkCtl),
      s.live = true →
      Completes (.credit m) s (fun t => t.creditOf (s.msgHop m) m.vc = s.creditOf (s.msgHop m) m.vc + m.value0 ∧
        (∀ v : Nat, v ≠ m.vc → t.creditOf (s.msgHop m) v = s.creditOf (s.msgHop m) v) ∧
        t = { s with fabric := { s.fabric with hops := t.fabric.hops }, tele := t.tele })) ∧
  (∀ (s : State) (m : LinkCtl) (has n : Nat),
      s.live = true →
      has = (tget m.vc (s.hop (s.msgHop m)).given).getD 0 →
      n = min (min (m.value0 - has) (s.standing m.plane m.vc + s.get (R.OPT_CREDIT_LEND_MAX m.plane) - has)) (s.lendPool m.plane m.vc) →
      n ≠ 0 →
      s.msgHop m % 64 ∈ s.usedLines m.plane →
      s.msgHop m / 64 = m.plane →
      (∀ k ∈ s.planeHops m.plane, k = s.msgHop m ∨ (tget m.vc (s.hop k).wants).getD 0 = 0) →
      Completes (.creditReq m) s (fun t => tget m.vc (t.hop (s.msgHop m)).given = some (has + n) ∧
        (t.hop (s.msgHop m)).ctl = (s.hop (s.msgHop m)).ctl ++ [(3, { src := s.chip, fibre := s.msgHop m / 64, plane := s.msgHop m / 64, kind := 0, line := 0, vc := m.vc, value0 := n, value1 := 0, value2 := 0 })] ∧
        t = { s with fabric := { s.fabric with hops := t.fabric.hops, lent := t.fabric.lent }, tele := t.tele })) ∧
  (∀ (s : State) (m : LinkCtl),
      s.live = true →
      (∀ k ∈ s.planeHops m.plane, (tget m.vc (s.hop k).wants).getD 0 = 0) →
      Completes (.creditReturn m) s (fun t => tget m.vc (t.hop (s.msgHop m)).given = some ((tget m.vc (s.hop (s.msgHop m)).given).getD 0 - m.value0) ∧
        t = { s with fabric := { s.fabric with hops := t.fabric.hops }, tele := t.tele })) ∧
  (∀ (s : State) (fibre line vc : Nat),
      s.live = true →
      (s.hop (hopKey fibre line)).up = true →
      s.standing fibre vc < s.creditOf (hopKey fibre line) vc →
      Completes (.lendIdleTimeout fibre line vc) s (fun t => t.creditOf (hopKey fibre line) vc = s.standing fibre vc ∧
        (t.hop (hopKey fibre line)).ctl = (s.hop (hopKey fibre line)).ctl ++ [(5, { src := s.chip, fibre := hopKey fibre line / 64, plane := hopKey fibre line / 64, kind := 0, line := 0, vc := vc, value0 := s.creditOf (hopKey fibre line) vc - s.standing fibre vc, value1 := 0, value2 := 0 })] ∧
        t = { s with fabric := { s.fabric with hops := t.fabric.hops } })) ∧
  (∀ (s : State) (m : LinkCtl),
      s.live = true →
      Completes (.power m) s (fun t => t.get (R.OPT_TXLINE_MARGIN m.plane m.line) = m.value0 / 2 ^ 16 % 2 ^ 16 ∧
        tget (hopKey m.plane m.line) t.fabric.reports = some (s.tick, m.value1, m.value2) ∧
        t = { s with regs := t.regs, fabric := { s.fabric with hops := t.fabric.hops, reports := t.fabric.reports }, tele := t.tele } ∧
        OnlyFields [R.OPT_TXLINE_MARGIN m.plane m.line] s t)) ∧
  (∀ (s : State) (m : LinkCtl),
      s.live = true →
      m.plane < 32 →
      s.get (R.OPT_TXLINE_STATE m.plane (m.value0 % 64)) = 4 →
      (s.hop (hopKey m.plane (m.value0 % 64))).up = false →
      Completes (.lineAlarm m) s (fun t => t.get (R.OPT_COUNT_WRONG_LINE m.plane) = min (s.get (R.OPT_COUNT_WRONG_LINE m.plane) + 1) (2 ^ 16 - 1) ∧ t.get (R.OPT_TXLINE_STATE m.plane (m.value0 % 64)) = 3 ∧
        t = { s with regs := t.regs, fabric := { s.fabric with hops := t.fabric.hops, fabricReady := t.fabric.fabricReady }, tele := t.tele } ∧
        OnlyFields [R.OPT_COUNT_WRONG_LINE m.plane, R.OPT_TXLINE_STATE m.plane (m.value0 % 64), R.OPT_STAT_TX_LOCKED m.plane] s t)) ∧
  (∀ (s : State) (m : LinkCtl),
      s.live = true →
      m.src ≠ s.chip →
      s.reachState m.src = 0 →
      Completes (.keepalive m) s (fun t => (t.hop (hopKey m.fibre (s.lineToward m.fibre m.src))).heard = true ∧ t.reachState m.src = 1 ∧
        (∀ u : Nat, u ≠ m.src → t.reachState u = s.reachState u) ∧ t = { s with fabric := { s.fabric with hops := t.fabric.hops }, tele := t.tele }))

/-- Hops go down, come up and drain as stated. (R296, R324, R336, 13_lasers_rings_bursts.md) -/
def Obligations.HopsGoDownComeUpAndDrain : Prop :=
  (∀ (s : State) (m : LinkCtl),
      s.live = true →
      m.kind = 0 →
      Completes (.seqQuery m) s (fun t => (t.hop (s.msgHop m)).closed = true ∧ (t.hop (s.msgHop m)).mOpen = false ∧
        (t.hop (s.msgHop m)).ctl = (s.hop (s.msgHop m)).ctl ++ [(9, { src := s.chip, fibre := s.msgHop m / 64, plane := s.msgHop m / 64, kind := 0, line := 0, vc := 0, value0 := (s.hop (s.msgHop m)).rxNext, value1 := 0, value2 := 0 })] ∧
        t = { s with fabric := { s.fabric with hops := t.fabric.hops }, tele := t.tele })) ∧
  (∀ (s : State) (m : LinkCtl) (j id q : Nat) (e : FrameSlot),
      s.live = true →
      m.kind = 0 →
      q < 2 ^ 24 →
      m.value0 = q →
      (s.hop (s.msgHop m)).up = false →
      (s.hop (s.msgHop m)).query = true →
      (s.hop (s.msgHop m)).held = [(q, id)] →
      (s.hop (s.msgHop m)).granted = [] →
      s.otherHop (s.msgHop m) = some j →
      tget id s.fabric.frames = some e →
      s.fibre m.plane ≠ 3 →
      Completes (.seqReply m) s (fun t => (t.hop (s.msgHop m)).held = [] ∧ (t.hop (s.msgHop m)).query = false ∧ (t.hop j).granted = id :: (s.hop j).granted ∧
        tget id t.fabric.frames = some { e with holds := j :: e.holds.filter (· != s.msgHop m), out := some (32 + j / 64), line := j % 64 } ∧
        t.regs = s.regs ∧ t.out = s.out ∧ t.mem = s.mem)) ∧
  (∀ (s : State) (m : LinkCtl),
      s.live = true →
      (s.hop (s.msgHop m)).held = [] →
      (s.hop (s.msgHop m)).granted = [] →
      s.fabric.frames = [] →
      Completes (.hopDrain m) s (fun t => (t.hop (s.msgHop m)).peerDrains = true ∧
        (t.hop (s.msgHop m)).ctl = (s.hop (s.msgHop m)).ctl ++ [(0xb, { src := s.chip, fibre := s.msgHop m / 64, plane := s.msgHop m / 64, kind := 0, line := 0, vc := 0, value0 := 0, value1 := 0, value2 := 0 })] ∧
        t = { s with fabric := { s.fabric with hops := t.fabric.hops }, tele := t.tele })) ∧
  (∀ (s : State) (m : LinkCtl),
      s.live = true →
      m.plane < 32 →
      s.fibre m.plane = 3 →
      s.fabric.frames = [] →
      s.fabric.arrived = [] →
      (∀ k ∈ s.planeHops m.plane, k = s.msgHop m ∨ (s.hop k).up = false ∨ (s.hop k).drainDone = true) →
      Completes (.hopDrainDone m) s (fun t => t.fibre m.plane = 4 ∧ (∀ k ∈ s.planeHops m.plane, (t.hop k).up = false) ∧ t.mem = s.mem ∧ t.out = s.out)) ∧
  (∀ (s : State) (m : LinkCtl),
      s.live = true →
      m.plane < 32 →
      (s.hop (s.msgHop m)).up = true →
      s.fibre m.plane ≠ 3 →
      Completes (.hopDown m) s (fun t => (t.hop (s.msgHop m)).up = false ∧ t.get (R.OPT_STAT_HOPS_UP m.plane) = (s.get (R.OPT_STAT_HOPS_UP m.plane) - 1) % 2 ^ 8 ∧
        t = { s with regs := t.regs, fabric := { s.fabric with hops := t.fabric.hops }, tele := t.tele })) ∧
  (∀ (s : State) (fibre line : Nat),
      s.live = true →
      fibre < 32 →
      line < 64 →
      (s.hop (hopKey fibre line)).up = true →
      (s.hop (hopKey fibre line)).held ≠ [] →
      s.get R.SWC_CTL_RETRY_MAX ≤ (s.hop (hopKey fibre line)).resends →
      s.fibre fibre ≠ 3 →
      Completes (.hopRetryExhausted fibre line) s (fun t => (t.hop (hopKey fibre line)).up = false ∧ t.get (R.OPT_STAT_HOPS_UP fibre) = (s.get (R.OPT_STAT_HOPS_UP fibre) - 1) % 2 ^ 8 ∧
        t = { s with regs := t.regs, fabric := { s.fabric with hops := t.fabric.hops } })) ∧
  (∀ (s : State) (m : LinkCtl) (hdr : BurstHeader),
      s.live = true →
      (s.hop (s.msgHop m)).answered ≠ some m.value0 →
      hdr = { srcChip := s.chip, plane := m.plane, line := s.msgHop m % 64, mcast := false, bodyM1 := 63, frameM1 := 6, targets := [] } →
      Completes (.hopUp m) s (fun t => (t.hop (s.msgHop m)).rxNext = 0 ∧ (t.hop (s.msgHop m)).closed = false ∧ (t.hop (s.msgHop m)).answered = some m.value0 ∧
        (t.hop (s.msgHop m)).given = s.standingAll (s.msgHop m / 64) ∧
        t.out = s.out ++ [.burst m.plane [s.msgHop m % 64] hdr [(0xe, upMsg s.chip m.plane m.value0)] [] (preamble ++ burstSymbols (burstOf hdr (s.ctlFrames m.plane (s.msgHop m % 64) [(0xe, upMsg s.chip m.plane m.value0)])))] ∧
        t = { s with fabric := { s.fabric with hops := t.fabric.hops }, tele := t.tele, out := t.out })) ∧
  (∀ (s : State) (m : LinkCtl),
      s.live = true →
      m.plane < 32 →
      (s.hop (s.msgHop m)).up = false →
      (s.hop (s.msgHop m)).nonce = m.value0 →
      m.value0 ≠ 0 →
      m.plane ∉ s.fabric.released →
      s.reachState (s.hopPeer (s.msgHop m)) ≠ 2 →
      Completes (.hopUpAck m) s (fun t => (t.hop (s.msgHop m)).up = true ∧ (t.hop (s.msgHop m)).txNext = 0 ∧ (t.hop (s.msgHop m)).credit = s.standingAll m.plane ∧
        t.get (R.OPT_STAT_HOPS_UP m.plane) = (s.get (R.OPT_STAT_HOPS_UP m.plane) + 1) % 2 ^ 8 ∧ t.get (R.OPT_TXLINE_STATE m.plane (s.msgHop m % 64)) = 2 ∧
        t = { s with regs := t.regs, fabric := t.fabric, tele := t.tele, power := t.power, fresh := t.fresh })) ∧
  (∀ (s : State) (fibre : Nat),
      s.live = true →
      fibre < 32 →
      s.fibre fibre = 2 →
      Completes (.optDrainStart fibre) s (fun t => t.get (R.OPT_CTL_DRAIN fibre) = 1 ∧ (t.fibre fibre = 3 ∨ t.fibre fibre = 4) ∧ bit (t.get R.PARSER_PLANES_BULK) fibre = false ∧ t.mem = s.mem ∧ t.out = s.out)) ∧
  (∀ (s : State) (fibre : Nat),
      s.live = true →
      s.fibre fibre = 4 →
      fibre ∉ s.fabric.released →
      Completes (.optDrainReturn fibre) s (fun t => t.get (R.OPT_CTL_DRAIN fibre) = 0 ∧ t = { s with regs := t.regs, fabric := { s.fabric with released := s.fabric.released ++ [fibre] } } ∧ OnlyFields [R.OPT_CTL_DRAIN fibre] s t)) ∧
  (∀ (s : State) (fibre : Nat),
      s.live = true →
      s.fibre fibre = 3 →
      Completes (.optDrainReturn fibre) s (fun t => t.get (R.OPT_STAT_REFUSED fibre) = 1 ∧ t = { s with regs := t.regs } ∧ OnlyFields [R.OPT_STAT_REFUSED fibre] s t)) ∧
  (∀ (s : State) (fibre : Nat),
      s.live = true →
      s.home.finished = [] →
      fibre < 32 →
      s.fibre fibre = 3 →
      s.fabric.frames = [] →
      s.fabric.arrived = [] →
      Completes (.fibreDrainTimeout fibre) s (fun t => t.fibre fibre = 4 ∧ (∀ k ∈ s.planeHops fibre, (t.hop k).up = false) ∧ t.mem = s.mem ∧ t.work = s.work ∧ t.out = s.out))

/-- Frames are checked, stored, forwarded and stomped as stated. (R289, R290, R293, R294, R295, R300, R304, 12_switch_and_frames.md) -/
def Obligations.SwitchStoresForwardsAndChecks : Prop :=
  (∀ (s : State) (fibre line p : Nat) (x : Frame) (r : List Arrival),
      s.live = true →
      s.home.finished = [] →
      (tget (hopKey fibre line) s.fabric.arrived).getD [] = .frame false x :: r →
      x.art.opcode ≠ 0x30 →
      bit x.art.flags flMcast = false →
      (s.hop (s.rxHop fibre line)).closed = false →
      x.art.lseq = (s.hop (s.rxHop fibre line)).rxNext →
      frameForm x.art fibre line = true →
      frameCrc x.art x.payload = x.crc →
      x.stomp = 0 →
      fpaChip x.art.dest = s.chip →
      s.framePort x.art = some p →
      Completes (.frameReceive fibre line) s (fun t => (t.hop (s.rxHop fibre line)).rxNext = ((s.hop (s.rxHop fibre line)).rxNext + 1) % 2 ^ 24 ∧ (t.hop (s.rxHop fibre line)).nacked = false ∧
        (tget (hopKey fibre line) t.fabric.arrived).getD [] = r ∧
        ((tget s.fabric.nextFrame t.fabric.frames).map (fun e => (e.frame, e.out, e.queued, e.inPort))) =
          some ({ x with art := { x.art with flags := clearBit x.art.flags flRetx } }, some p, true, 32 + fibre) ∧
        t.fabric.nextFrame = s.fabric.nextFrame + 1 ∧ t.mem = s.mem ∧ t.work = s.work ∧ t.out = s.out)) ∧
  (∀ (s : State) (fibre line : Nat) (x : Frame) (r : List Arrival),
      s.live = true →
      s.home.finished = [] →
      fibre < 32 →
      (tget (hopKey fibre line) s.fabric.arrived).getD [] = .frame false x :: r →
      x.art.opcode ≠ 0x30 →
      bit x.art.flags flMcast = false →
      (s.hop (s.rxHop fibre line)).closed = false →
      x.art.lseq = (s.hop (s.rxHop fibre line)).rxNext →
      frameForm x.art fibre line = true →
      frameCrc x.art x.payload ≠ x.crc →
      x.stomp = 0 →
      Completes (.frameReceive fibre line) s (fun t => t.get (R.SWC_PORT_ERR_CRC (32 + fibre)) = min (s.get (R.SWC_PORT_ERR_CRC (32 + fibre)) + 1) (2 ^ 16 - 1) ∧
        (t.hop (s.rxHop fibre line)).nacked = true ∧ (t.hop (s.rxHop fibre line)).rxNext = (s.hop (s.rxHop fibre line)).rxNext ∧
        (tget (hopKey fibre line) t.fabric.arrived).getD [] = r ∧ (fpaChip x.art.dest = s.chip → t.fabric.frames = s.fabric.frames) ∧
        t.mem = s.mem ∧ t.work = s.work ∧ t.out = s.out ∧ t.home = s.home)) ∧
  (∀ (s : State) (id p : Nat) (e : FrameSlot) (a : Arbiter),
      s.live = true →
      s.home.finished = [] →
      tget id s.fabric.frames = some e →
      e.queued = true →
      s.atHead e = true →
      fpaChip e.frame.art.dest = s.chip →
      e.mlines = [] →
      e.out = some p →
      p < 32 ∨ 64 ≤ p →
      p < 141 →
      e.inPort < 141 →
      (s.granted p (fun _ => true) = some (id, a)) →
      s.fabric.waitIn = [] →
      Completes (.frameForward id) s (fun t => tget id t.fabric.frames = none ∧ t.get (R.SWC_PORT_FRAMES_OUT p) = min (s.get (R.SWC_PORT_FRAMES_OUT p) + 1) (2 ^ 32 - 1) ∧
        (∀ n : Nat, n ≠ id → tget n t.fabric.frames = tget n s.fabric.frames) ∧ tget p t.fabric.arbiters = some a ∧
        t = { s with regs := t.regs, fabric := t.fabric })) ∧
  (∀ (s : State) (id p : Nat) (e : FrameSlot) (a : Arbiter),
      s.live = true →
      s.home.finished = [] →
      tget id s.fabric.frames = some e →
      e.queued = true →
      s.atHead e = true →
      s.unreachable (fpaChip e.frame.art.dest) = false →
      e.out = some p →
      32 ≤ p →
      p < 64 →
      e.mlines = [] →
      (s.hop (hopKey (p - 32) e.line)).up = true →
      s.hopPeer (hopKey (p - 32) e.line) = fpaChip e.frame.art.dest ∨ s.unreachable (s.hopPeer (hopKey (p - 32) e.line)) = false →
      cellsOf e.frame.art.length ≤ s.creditOf (hopKey (p - 32) e.line) e.frame.art.vc →
      (s.granted p (fun _ => true) = some (id, a)) →
      Completes (.frameForward id) s (fun t => tget id t.fabric.frames = some { e with queued := false, holds := [hopKey (p - 32) e.line] } ∧
        (t.hop (hopKey (p - 32) e.line)).granted = (s.hop (hopKey (p - 32) e.line)).granted ++ [id] ∧
        t.creditOf (hopKey (p - 32) e.line) e.frame.art.vc = s.creditOf (hopKey (p - 32) e.line) e.frame.art.vc - cellsOf e.frame.art.length ∧
        tget p t.fabric.arbiters = some a ∧
        t = { s with fabric := { s.fabric with hops := t.fabric.hops, frames := t.fabric.frames, arbiters := t.fabric.arbiters } })) ∧
  (∀ (s : State) (id : Nat) (e : FrameSlot),
      s.live = true →
      tget id s.fabric.frames = some e →
      e.queued = true →
      e.frame.art.vc ≤ 2 →
      s.atHead e = true →
      fpaChip e.frame.art.dest ≠ s.chip →
      e.mlines = [] →
      Completes (.escapeTimeout id) s (fun t => ((tget id t.fabric.frames).map (fun x => (x.frame.art.vc, x.out))) =
          some (if opClass e.frame.art.opcode = 1 then 5 else 4, (s.escapeHop e.frame.art).map (fun h => 32 + h.1)) ∧
        (∀ n : Nat, n ≠ id → tget n t.fabric.frames = tget n s.fabric.frames) ∧ t = { s with fabric := { s.fabric with frames := t.fabric.frames } })) ∧
  (∀ (s : State) (id : Nat) (e : FrameSlot),
      s.live = true →
      s.home.finished = [] →
      tget id s.fabric.frames = some e →
      e.queued = true →
      opClass e.frame.art.opcode ≠ 0 →
      s.fabric.waitIn = [] →
      Completes (.bufferEccError id) s (fun t => tget id t.fabric.frames = none ∧ (∀ n : Nat, n ≠ id → tget n t.fabric.frames = tget n s.fabric.frames) ∧ t = { s with regs := t.regs, fabric := t.fabric })) ∧
  (∀ (s : State) (id : Nat) (e : FrameSlot),
      s.live = true →
      s.home.finished = [] →
      tget id s.fabric.frames = some e →
      e.queued = false →
      Completes (.bufferEccError id) s (fun t => tget id t.fabric.frames = some { e with stomped := true, frame := { e.frame with stomp := 0x5a } } ∧
        (∀ n : Nat, n ≠ id → tget n t.fabric.frames = tget n s.fabric.frames) ∧ t = { s with fabric := { s.fabric with frames := t.fabric.frames } }))

/-- A request frame at its local unit acts and is answered. (R20, R127, R128, R134, R136, R157, R183, R260, R291, R388, R391, 12_switch_and_frames.md) -/
def Obligations.HomeAgentsServeRequests : Prop :=
  (∀ (s : State) (r : HomeReq) (len : Nat),
      s.live = true →
      s.home.finished = [] →
      fpaChip r.dest = s.chip →
      s.partErr r.partition = .none →
      16 ≤ fpaUnit r.dest ∧ fpaUnit r.dest < 36 →
      fpaUnit r.dest < 32 ∨ s.edge.expanderDown.contains (s.farPort r.dest) = false →
      s.inQuiet r.dest = false →
      s.forwardOf r.dest = none →
      s.frameErr r.dest r.partition = .none →
      len ≤ 4096 →
      s.anyPoison (lineKeys (fpaUnit r.dest) (fpaOff r.dest) len) = false →
      s.anyBadTag (lineKeys (fpaUnit r.dest) (fpaOff r.dest) len) = false →
      (linesOf r.dest len).all (s.lineClear false) = true →
      len ≠ 128 ∨ r.dest % 128 ≠ 0 →
      r.src < 2 ^ 15 →
      s.unreachable r.src = false →
      Completes (.rd r len) s (fun t => Answered s t r.src r.tag 8 .none (memRead s.mem (memKey (fpaUnit r.dest) (fpaOff r.dest)) len) ∧ t.mem = s.mem ∧ t.work = s.work ∧
        t.xlat = s.xlat ∧ t.home = s.home ∧ t.out = s.out)) ∧
  (∀ (s : State) (r : HomeReq),
      s.live = true →
      s.home.finished = [] →
      fpaChip r.dest = s.chip →
      s.partErr r.partition = .none →
      16 ≤ fpaUnit r.dest ∧ fpaUnit r.dest < 36 →
      fpaUnit r.dest < 32 ∨ s.edge.expanderDown.contains (s.farPort r.dest) = false →
      s.inQuiet r.dest = false →
      s.forwardOf r.dest = none →
      s.frameErr r.dest r.partition = .none →
      s.anyPoison (lineKeys (fpaUnit r.dest) (fpaOff r.dest) 128) = false →
      s.anyBadTag (lineKeys (fpaUnit r.dest) (fpaOff r.dest) 128) = false →
      r.dest % 128 = 0 →
      s.lineClear false (r.dest / 128) = true →
      s.reclaimFor (r.dest % 2 ^ 49 / 128) = none →
      r.src < 2 ^ 15 →
      s.unreachable r.src = false →
      Completes (.rd r 128) s (fun t => Emits s t (r.src, r.tag, 8, (if r.src ∈ s.lineSharers (r.dest / 128) ∨ (s.lineSharers (r.dest / 128)).length < 4 then 0 else 256), memRead s.mem (memKey (fpaUnit r.dest) (fpaOff r.dest)) 128) ∧
        t.lineSharers (r.dest / 128) = (if r.src ∉ s.lineSharers (r.dest / 128) ∧ (s.lineSharers (r.dest / 128)).length < 4 then s.lineSharers (r.dest / 128) ++ [r.src] else s.lineSharers (r.dest / 128)) ∧
        t.mem = s.mem ∧ t.work = s.work ∧ t.xlat = s.xlat ∧ t.home.tiles = s.home.tiles ∧ t.out = s.out)) ∧
  (∀ (s : State) (r : HomeReq) (data : List Byte) (ordered : Bool),
      s.live = true →
      s.home.finished = [] →
      fpaChip r.dest = s.chip →
      s.partErr r.partition = .none →
      16 ≤ fpaUnit r.dest ∧ fpaUnit r.dest < 36 →
      fpaUnit r.dest < 32 ∨ s.edge.expanderDown.contains (s.farPort r.dest) = false →
      s.inQuiet r.dest = false →
      s.forwardOf r.dest = none →
      s.frameErr r.dest r.partition = .none →
      data.length ≤ 4096 →
      s.anyPoison (lineKeys (fpaUnit r.dest) (fpaOff r.dest) data.length) = false →
      s.anyBadTag (lineKeys (fpaUnit r.dest) (fpaOff r.dest) data.length) = false →
      (s.orderBusy (if ordered then some (2 ^ 20 + r.src) else none) (fpaUnit r.dest) = false) →
      (linesOf r.dest data.length).all (s.lineClear true) = true →
      s.hasCopies r.dest data.length = false →
      r.src < 2 ^ 15 →
      s.unreachable r.src = false →
      Completes (.wr r data ordered) s (fun t => Answered s t r.src r.tag 9 .none [] ∧
        (∀ i : Nat, i < data.length → memGet t.mem (memKey (fpaUnit r.dest) (fpaOff r.dest) + i) = data.getD i 0#8) ∧
        (∀ a : Nat, a < memKey (fpaUnit r.dest) (fpaOff r.dest) ∨ memKey (fpaUnit r.dest) (fpaOff r.dest) + data.length ≤ a → memGet t.mem a = memGet s.mem a) ∧
        (∀ l ∈ linesOf r.dest data.length, ∀ e ∈ t.home.tiles, tget l e.2.l1 = none) ∧ t.work = s.work ∧ t.xlat = s.xlat ∧ t.out = s.out)) ∧
  (∀ (s : State) (r : HomeReq) (op width operand compare : Nat),
      s.live = true →
      s.home.finished = [] →
      fpaChip r.dest = s.chip →
      s.partErr r.partition = .none →
      16 ≤ fpaUnit r.dest ∧ fpaUnit r.dest < 36 →
      fpaUnit r.dest < 32 ∨ s.edge.expanderDown.contains (s.farPort r.dest) = false →
      s.inQuiet r.dest = false →
      s.forwardOf r.dest = none →
      s.frameErr r.dest r.partition = .none →
      atomicWidth op width = true →
      r.dest % width = 0 →
      s.anyPoison (lineKeys (fpaUnit r.dest) (fpaOff r.dest) width) = false →
      s.anyBadTag (lineKeys (fpaUnit r.dest) (fpaOff r.dest) width) = false →
      s.orderBusy (some (2 ^ 20 + r.src)) (fpaUnit r.dest) = false →
      (linesOf r.dest width).all (s.lineClear true) = true →
      s.hasCopies r.dest width = false →
      r.src < 2 ^ 15 →
      s.unreachable r.src = false →
      Completes (.atomic r op width operand compare) s (fun t => Answered s t r.src r.tag 0xa .none (memRead s.mem (memKey (fpaUnit r.dest) (fpaOff r.dest)) width) ∧
        t.mem = memWrite s.mem (memKey (fpaUnit r.dest) (fpaOff r.dest))
          (leBytes width (atomicNew op width operand compare (leNat (memRead s.mem (memKey (fpaUnit r.dest) (fpaOff r.dest)) width)))) ∧
        t.work = s.work ∧ t.xlat = s.xlat ∧ t.out = s.out)) ∧
  (∀ (s : State) (r : HomeReq) (op operand compare : Nat),
      s.live = true →
      s.home.finished = [] →
      fpaChip r.dest = s.chip →
      s.partErr r.partition = .none →
      fpaUnit r.dest = 49 →
      fpaOff r.dest % 8 = 0 →
      s.ownsCounter r.partition (fpaOff r.dest / 8) = true →
      atomicWidth op 8 = true →
      r.src < 2 ^ 15 →
      s.unreachable r.src = false →
      Completes (.atomic r op 8 operand compare) s (fun t => Answered s t r.src r.tag 0xa .none (leBytes 8 (s.counter (fpaOff r.dest / 8))) ∧
        t.counter (fpaOff r.dest / 8) = atomicNew op 8 operand compare (s.counter (fpaOff r.dest / 8)) % 2 ^ 64 ∧
        (∀ n : Nat, n ≠ fpaOff r.dest / 8 → t.counter n = s.counter n) ∧ t.mem = s.mem ∧ t.xlat = s.xlat ∧ t.home = s.home ∧ t.out = s.out)) ∧
  (∀ (s : State) (r : HomeReq) (writer : Option Nat),
      s.live = true →
      s.home.finished = [] →
      fpaChip r.dest = s.chip →
      s.partErr r.partition = .none →
      r.src < 2 ^ 15 →
      s.unreachable r.src = false →
      Completes (.inval r writer) s (fun t => Answered s t r.src r.tag 0xb .none [] ∧
        (∀ e ∈ t.home.tiles, writer.bind s.writerTile = some e.1 ∨ (tget ((r.src * 2 ^ 49 + r.dest % 2 ^ 49) / 128) e.2.l1 = none ∧ (r.src * 2 ^ 49 + r.dest % 2 ^ 49) / 128 ∉ e.2.held)) ∧
        (∀ e ∈ t.home.tiles, ∀ x ∈ e.2.entries, x.2.line ≠ (r.src * 2 ^ 49 + r.dest % 2 ^ 49) / 128 ∨ x.2.stale = true) ∧
        t.mem = s.mem ∧ t.work = s.work ∧ t.out = s.out)) ∧
  (∀ (s : State) (r : HomeReq) (operand compare : Nat),
      s.live = true →
      s.home.finished = [] →
      fpaChip r.dest = s.chip →
      s.partErr r.partition = .none →
      fpaUnit r.dest = 49 →
      fpaOff r.dest % 8 = 0 →
      s.ownsCounter r.partition (fpaOff r.dest / 8) = true →
      r.src < 2 ^ 15 →
      s.unreachable r.src = false →
      Completes (.ctr r 1 operand compare) s (fun t => Answered s t r.src r.tag 0xc .none (leBytes 8 (s.counter (fpaOff r.dest / 8))) ∧
        t.counter (fpaOff r.dest / 8) = (s.counter (fpaOff r.dest / 8) + operand) % 2 ^ 64 ∧
        (∀ n : Nat, n ≠ fpaOff r.dest / 8 → t.counter n = s.counter n) ∧ t.mem = s.mem ∧ t.xlat = s.xlat ∧ t.home = s.home ∧ t.out = s.out)) ∧
  (∀ (s : State) (r : HomeReq) (descriptor : List Byte) (extents : List (Nat × Nat × Nat)),
      s.live = true →
      s.home.finished = [] →
      fpaChip r.dest = s.chip →
      s.partErr r.partition = .none →
      fpaUnit r.dest = 50 →
      s.anyTile = true →
      Completes (.clause r descriptor extents) s (fun t => ((tget s.work.nextClause t.work.clauses).map (fun k => (k.partition, k.origin, k.tense, k.stage, k.desc, k.extents))) =
          some (r.partition, some (r.src, r.tag), r.tense, .waiting, descriptor.take (descLen descriptor), extents.map (fun e => { fva := e.1, len := e.2.1 % 2 ^ 63, fpa := e.2.2, side := decide (2 ^ 63 ≤ e.2.1) })) ∧
        t.work.nextClause = s.work.nextClause + 1 ∧ t = { s with work := t.work })) ∧
  (∀ (s : State) (r : HomeReq) (len : Nat),
      s.live = true →
      s.home.finished = [] →
      fpaChip r.dest = s.chip →
      s.get (R.PART_STATE_STATE r.partition) = 0 →
      r.src < 2 ^ 15 →
      s.unreachable r.src = false →
      Completes (.rd r len) s (fun t => Answered s t r.src r.tag 8 .partition [] ∧
        (t.security.glog.head?.map (fun v => (v.cls, v.partition, v.addr, v.code, v.source))) = some (1, r.partition, r.dest, 3, r.port) ∧
        t.mem = s.mem ∧ t.work = s.work ∧ t.out = s.out)) ∧
  (∀ (s : State) (r : HomeReq) (len op operand compare : Nat) (data : List Byte) (ordered : Bool) (writer : Option Nat) (extents : List (Nat × Nat × Nat)),
      s.home.finished = [] →
      fpaChip r.dest ≠ s.chip →
      exec (.rd r len) s = .next (s)) ∧
  (∀ (s : State) (r : HomeReq) (len op operand compare : Nat) (data : List Byte) (ordered : Bool) (writer : Option Nat) (extents : List (Nat × Nat × Nat)),
      s.home.finished = [] →
      fpaChip r.dest ≠ s.chip →
      exec (.wr r data ordered) s = .next (s)) ∧
  (∀ (s : State) (r : HomeReq) (len op operand compare : Nat) (data : List Byte) (ordered : Bool) (writer : Option Nat) (extents : List (Nat × Nat × Nat)),
      s.home.finished = [] →
      fpaChip r.dest ≠ s.chip →
      exec (.atomic r op len operand compare) s = .next (s)) ∧
  (∀ (s : State) (r : HomeReq) (len op operand compare : Nat) (data : List Byte) (ordered : Bool) (writer : Option Nat) (extents : List (Nat × Nat × Nat)),
      s.home.finished = [] →
      fpaChip r.dest ≠ s.chip →
      exec (.inval r writer) s = .next (s)) ∧
  (∀ (s : State) (r : HomeReq) (len op operand compare : Nat) (data : List Byte) (ordered : Bool) (writer : Option Nat) (extents : List (Nat × Nat × Nat)),
      s.home.finished = [] →
      fpaChip r.dest ≠ s.chip →
      exec (.ctr r op operand compare) s = .next (s)) ∧
  (∀ (s : State) (r : HomeReq) (len op operand compare : Nat) (data : List Byte) (ordered : Bool) (writer : Option Nat) (extents : List (Nat × Nat × Nat)),
      s.home.finished = [] →
      fpaChip r.dest ≠ s.chip →
      exec (.clause r data extents) s = .next (s))

/-- A response frees the tag of its request and completes the access behind it. (R156, R159, R255, R301, R307, R253, 12_switch_and_frames.md) -/
def Obligations.ResponsesEndRequests : Prop :=
  (∀ (s : State) (r : Resp) (data : List Byte) (e : Track),
      s.live = true →
      tget r.tag s.fabric.track = some e →
      e.opcode = 1 →
      e.quarantined = false →
      r.status ≠ .unreachable →
      exec (.rdResp r data false) s = .next ((((s.freeTag r.tag).finish e.cont r.status data).settle))) ∧
  (∀ (s : State) (r : Resp) (e : Track),
      s.live = true →
      tget r.tag s.fabric.track = some e →
      e.opcode = 2 →
      e.quarantined = false →
      r.status ≠ .unreachable →
      exec (.wrResp r) s = .next ((((s.freeTag r.tag).finish e.cont r.status []).settle))) ∧
  (∀ (s : State) (r : Resp) (old : Nat) (e : Track),
      s.live = true →
      tget r.tag s.fabric.track = some e →
      e.opcode = 3 →
      e.quarantined = false →
      r.status ≠ .unreachable →
      exec (.atomicResp r old) s = .next ((((s.freeTag r.tag).finish e.cont r.status (leBytes 16 old)).settle))) ∧
  (∀ (s : State) (r : Resp) (e : Track),
      s.live = true →
      tget r.tag s.fabric.track = some e →
      e.opcode = 4 →
      e.quarantined = false →
      r.status ≠ .unreachable →
      exec (.invalAck r) s = .next ((((s.freeTag r.tag).finish e.cont r.status []).settle))) ∧
  (∀ (s : State) (r : Resp) (old : Nat) (e : Track),
      s.live = true →
      tget r.tag s.fabric.track = some e →
      e.opcode = 5 →
      e.quarantined = false →
      r.status ≠ .unreachable →
      exec (.ctrResp r old) s = .next ((((s.freeTag r.tag).finish e.cont r.status (leBytes 8 old)).settle))) ∧
  (∀ (s : State) (r : Resp) (chunks segment addr : Nat) (e : Track),
      s.live = true →
      tget r.tag s.fabric.track = some e →
      e.opcode = 7 →
      e.quarantined = false →
      r.status ≠ .unreachable →
      exec (.clauseDone r chunks segment addr) s = .next ((((s.freeTag r.tag).finish e.cont r.status (packBytes [(32, chunks), (32, segment), (64, addr), (8, 0), (24, 0), (32, 0)])).settle))) ∧
  (∀ (s : State) (m : DirMsg) (op : Nat) (status : Err) (e : Track),
      s.live = true →
      tget m.tag s.fabric.track = some e →
      e.opcode = 6 →
      e.quarantined = false →
      status ≠ .unreachable →
      exec (.dirResp op status m) s = .next ((((s.freeTag m.tag).finish e.cont status (dirBytes 0 status m)).settle))) ∧
  (∀ (s : State) (r : Resp) (data : List Byte) (e : Track),
      s.live = true →
      s.home.finished = [] →
      tget r.tag s.fabric.track = some e →
      e.opcode = 1 →
      e.quarantined = true →
      r.status ≠ .unreachable →
      Completes (.rdResp r data false) s (fun t => t.get R.FAULT_COUNT_LATE = min (s.get R.FAULT_COUNT_LATE + 1) (2 ^ R.FAULT_COUNT_LATE.width - 1) ∧ t.home = s.home ∧ t.mem = s.mem ∧ t.work = s.work ∧ t.out = s.out)) ∧
  (∀ (s : State) (r : Resp) (data : List Byte) (e : Track) (c : At) (clause n : Nat) (x : StreamEntry) (line : Nat),
      s.live = true →
      Calm s →
      tget r.tag s.fabric.track = some e →
      e.opcode = 1 →
      e.quarantined = false →
      e.cont = .lineFill (some c.tile) line 0 128 (.stream c clause n) →
      r.status = .none →
      tget n (s.tile c.tile).entries = some x →
      ((s.ctx c).map (fun y => y.clause) = some clause) →
      s.fabric.waitTag = [] →
      Completes (.rdResp r data true) s (fun t => tget n (t.tile c.tile).entries = some { x with once := true, filled := true, data := (data.drop 0).take 128 } ∧ (t.tile c.tile).l1 = (s.tile c.tile).l1 ∧
        t.mem = s.mem ∧ t.work = s.work ∧ t.out = s.out))

/-- The directory requests of another chip are served and answered. (R49, R50, R251, R252, R253, R254, R255, R256, 10_parser.md) -/
def Obligations.DirectoryRequestsAreServed : Prop :=
  (∀ (s : State) (m : DirMsg) (k : Nat),
      s.live = true →
      s.home.finished = [] →
      s.partErr m.partition = .none →
      m.oldFrame % 2 ^ 21 = 0 →
      s.homeFrame m.partition m.page 0 m.oldFrame true = (.none, k, true) →
      s.parser.dir = [] →
      Completes (.dirRegister m) s (fun t => t.frameRec k = some { owner := m.partition, page := m.page, use := .page } ∧
        t.parser.dir = [(0, { partition := m.partition, page := m.page, frame := k, registered := [m.src], replicas := [], placing := [], placed := [] })] ∧
        tget k t.xlat.homeFills = some (m.src, m.tag, m.partition, m.page) ∧ t.mem = s.mem ∧ t.work = s.work ∧ t.out = s.out)) ∧
  (∀ (s : State) (m : DirMsg) (i : Nat) (d : DirRec),
      s.live = true →
      s.home.finished = [] →
      s.get (R.PART_STATE_STATE m.partition) = 1 →
      s.notOwner m = false →
      (s.parser.dir.find? (fun d => d.2.frame == frameKey m.oldFrame) = some (i, d)) →
      m.src < 2 ^ 15 →
      s.unreachable m.src = false →
      Completes (.dirUnregister m) s (fun t => tget i t.parser.dir = (if d.registered.filter (· != m.src) = [] ∧ d.replicas = [] ∧ d.placing = [] then none else some { d with registered := d.registered.filter (· != m.src) }) ∧
        Answered s t m.src m.tag 0xd .none (dirBytes 130 .none { m with newFrame := 0 }) ∧ t.mem = s.mem ∧ t.work = s.work ∧ t.out = s.out)) ∧
  (∀ (s : State) (m : DirMsg),
      s.live = true →
      s.home.finished = [] →
      s.get (R.PART_STATE_STATE m.partition) = 1 →
      s.noExtent m.oldFrame = true →
      m.src < 2 ^ 15 →
      s.unreachable m.src = false →
      Completes (.pmPrepare m) s (fun t => (m.partition, m.page) ∈ t.parser.holding ∧ Answered s t m.src m.tag 0xd .none (dirBytes 131 .none { m with newFrame := 0 }) ∧
        t.parser = { s.parser with holding := t.parser.holding } ∧ t.mem = s.mem ∧ t.work = s.work ∧ t.xlat = s.xlat ∧ t.out = s.out)) ∧
  (∀ (s : State) (m : DirMsg),
      s.live = true →
      s.home.finished = [] →
      s.get (R.PART_STATE_STATE m.partition) = 1 →
      s.noExtent m.oldFrame = false →
      m.src < 2 ^ 15 →
      s.unreachable m.src = false →
      Completes (.pmPrepare m) s (fun t => Answered s t m.src m.tag 0xd .none (dirBytes 131 .resource { m with newFrame := 0 }) ∧ t.parser = s.parser ∧ t.mem = s.mem ∧ t.work = s.work ∧ t.xlat = s.xlat ∧ t.out = s.out)) ∧
  (∀ (s : State) (m : DirMsg) (i : Nat) (e : PmEntry),
      s.live = true →
      s.home.finished = [] →
      s.get (R.PART_STATE_STATE m.partition) = 1 →
      s.pmFind m.partition m.page = some (i, e) →
      fpaChip m.newFrame ≠ s.chip →
      s.inFlightTo m.oldFrame = false →
      s.parser.updates = [] →
      tget (m.oldFrame / 2 ^ 21) s.parser.replicas = none →
      m.src < 2 ^ 15 →
      s.unreachable m.src = false →
      Completes (.pmUpdate m) s (fun t => tget i t.xlat.pageMap = some { e with chip := fpaChip m.newFrame, unit := fpaUnit m.newFrame, frame := bits m.newFrame 42 21 } ∧
        (m.partition, m.page) ∉ t.parser.holding ∧ t.parser.updates = [] ∧
        Answered s t m.src m.tag 0xd .none (dirBytes 132 .none { m with oldFrame := frameOf m.oldFrame, newFrame := frameOf m.newFrame }) ∧
        t.mem = s.mem ∧ t.work = s.work ∧ t.out = s.out)) ∧
  (∀ (s : State) (m : DirMsg),
      s.live = true →
      s.home.finished = [] →
      s.get (R.PART_STATE_STATE m.partition) = 1 →
      m.src < 2 ^ 15 →
      s.unreachable m.src = false →
      Completes (.pmRelease m) s (fun t => (m.partition, m.page) ∉ t.parser.holding ∧ (∀ x ∈ s.parser.holding, x ≠ (m.partition, m.page) → x ∈ t.parser.holding) ∧
        Answered s t m.src m.tag 0xd .none (dirBytes 133 .none { m with newFrame := 0 }) ∧ t.xlat = s.xlat ∧ t.mem = s.mem ∧ t.work = s.work ∧ t.out = s.out)) ∧
  (∀ (s : State) (m : DirMsg) (k : Nat),
      s.live = true →
      s.home.finished = [] →
      s.get (R.PART_STATE_STATE m.partition) = 1 →
      tget (m.oldFrame / 2 ^ 21) s.parser.replicas = none →
      s.parser.replicas.length < 16384 →
      s.quotaFull m.partition 16 = false →
      s.nearPick = some k →
      m.src < 2 ^ 15 →
      s.unreachable m.src = false →
      Completes (.replPlace m) s (fun t => tget (m.oldFrame / 2 ^ 21) t.parser.replicas =
          some { frameFpa := keyFpa s.chip k, partition := m.partition, page := if fpaUnit m.oldFrame < 16 then 2 ^ 31 else m.page, valid := [], served := 0, heat := 0, epoch := s.parser.epochs } ∧
        t.frameRec k = some { owner := m.partition, page := if fpaUnit m.oldFrame < 16 then 2 ^ 31 else m.page, use := .replica } ∧
        Answered s t m.src m.tag 0xd .none (dirBytes 134 .none { m with newFrame := 0 }) ∧ t.mem = s.mem ∧ t.work = s.work ∧ t.out = s.out)) ∧
  (∀ (s : State) (m : DirMsg) (r : Replica),
      s.live = true →
      Calm s →
      s.get (R.PART_STATE_STATE m.partition) = 1 →
      tget (m.oldFrame / 2 ^ 21) s.parser.replicas = some r →
      s.tileLines (r.frameFpa / 128 + m.firstBlock * 32) ((m.lastBlock + 1 - m.firstBlock) * 32) = [] →
      m.src < 2 ^ 15 →
      s.unreachable m.src = false →
      Completes (.replInval m) s (fun t => tget (m.oldFrame / 2 ^ 21) t.parser.replicas = some { r with valid := r.valid.filter (fun b => !(decide (m.firstBlock ≤ b) && decide (b ≤ m.lastBlock))) } ∧
        Answered s t m.src m.tag 0xd .none (dirBytes 135 .none { m with newFrame := 0 }) ∧ t.xlat = s.xlat ∧ t.mem = s.mem ∧ t.work = s.work ∧ t.out = s.out)) ∧
  (∀ (s : State) (m : DirMsg) (r : Replica),
      s.live = true →
      s.home.finished = [] →
      s.get (R.PART_STATE_STATE m.partition) = 1 →
      tget (m.oldFrame / 2 ^ 21) s.parser.replicas = some r →
      s.tileLines (r.frameFpa / 128 + m.firstBlock * 32) ((m.lastBlock + 1 - m.firstBlock) * 32) ≠ [] →
      Completes (.replInval m) s (fun t => tget (m.oldFrame / 2 ^ 21) t.parser.replicas = some { r with valid := r.valid.filter (fun b => !(decide (m.firstBlock ≤ b) && decide (b ≤ m.lastBlock))) } ∧
        t.fabric.frames = s.fabric.frames ∧ t.fabric.waitIn = s.fabric.waitIn ∧ t.xlat = s.xlat ∧ t.mem = s.mem ∧ t.work = s.work ∧ t.home.tiles = s.home.tiles)) ∧
  (∀ (s : State) (m : DirMsg) (r : Replica),
      s.live = true →
      Calm s →
      s.get (R.PART_STATE_STATE m.partition) = 1 →
      fpaChip m.oldFrame ≠ s.chip →
      tget (m.oldFrame / 2 ^ 21) s.parser.replicas = some r →
      s.tileLines (r.frameFpa / 128) 16384 = [] →
      m.src < 2 ^ 15 →
      s.unreachable m.src = false →
      Completes (.replDrop m) s (fun t => tget (m.oldFrame / 2 ^ 21) t.parser.replicas = none ∧ t.frameRec (frameKey r.frameFpa) = none ∧
        Answered s t m.src m.tag 0xd .none (dirBytes 136 .none { m with newFrame := 0 }) ∧ t.mem = s.mem ∧ t.work = s.work ∧ t.out = s.out)) ∧
  (∀ (s : State) (m : DirMsg) (k : Nat),
      s.live = true →
      s.home.finished = [] →
      s.get (R.PART_STATE_STATE m.partition) = 1 →
      fpaUnit m.oldFrame < 32 →
      s.dirUsed < 65535 →
      s.quotaFull m.partition 16 = false →
      s.nearPick = some k →
      m.src < 2 ^ 15 →
      s.unreachable m.src = false →
      Completes (.rehomeOffer m) s (fun t => t.frameRec k = some { owner := m.partition, page := m.page, use := .target } ∧
        tget (firstGap 0 s.parser.dir) t.parser.dir = some { partition := m.partition, page := m.page, frame := k, registered := [m.src], replicas := [], placing := [], placed := [] } ∧
        Answered s t m.src m.tag 0xd .none (dirBytes 137 .none { m with newFrame := keyFpa s.chip k }) ∧ t.mem = s.mem ∧ t.work = s.work ∧ t.out = s.out))

/-- Epochs close the heat of every frame, and a move goes through its steps. (R243, R244, R245, R248, R251, 10_parser.md) -/
def Obligations.ParserEpochsAndMoves : Prop :=
  (∀ (s : State) (use : List Nat),
      s.live = true →
      s.home.finished = [] →
      s.parser.migrations = [] →
      s.parser.dir = [] →
      s.parser.replicas = [] →
      s.parser.epochs + 1 ≤ s.get R.PARSER_CTL_WARMUP →
      Completes (.epochEnd use) s (fun t => t.parser.epochs = s.parser.epochs + 1 ∧ t.get R.PARSER_STAT_EPOCH = (s.get R.PARSER_STAT_EPOCH + 1) % 2 ^ R.PARSER_STAT_EPOCH.width ∧
        (∀ k : Nat, (tget k t.parser.heat).map (fun h => (h.r, h.w, h.heat, h.wheat, h.topChip, h.hold)) = (tget k s.parser.heat).map (fun h => (0, 0, min 65535 (h.heat / 2 + h.r + h.w), min 65535 (h.wheat / 2 + h.w), h.c, h.hold - 1))) ∧
        t.parser.migrations = [] ∧ t.xlat = s.xlat ∧ t.mem = s.mem ∧ t.work = s.work ∧ t.out = s.out ∧
        OnlyFields [R.PARSER_STAT_EPOCH, R.PARSER_PLANES_BULK] s t)) ∧
  (∀ (s : State) (p page : Nat) (m : Migration),
      s.live = true →
      s.home.finished = [] →
      s.migration p page = some m →
      m.step = 1 →
      s.mayMove p = true →
      s.regsOf m = [] →
      Completes (.migrationCopyDone p page) s (fun t => t.migration p page = some { m with step := 4, waiting := [], refused := false } ∧ t = { s with parser := { s.parser with migrations := t.parser.migrations } })) ∧
  (∀ (s : State) (p page i : Nat) (m : Migration) (e : PmEntry),
      s.live = true →
      s.home.finished = [] →
      s.migration p page = some m →
      m.step = 4 →
      m.refused = false →
      m.dirty = [] →
      s.mayMove p = true →
      s.noExtent m.oldFpa = true →
      s.quiet m.oldFpa = true →
      m.copying = 0 →
      s.home.quietWait = [] →
      s.regsOf m = [] →
      s.parser.dir = [] →
      s.pmFind p page = some (i, e) →
      e.chip = s.chip →
      frameKey e.fpa = frameKey m.oldFpa →
      fpaChip m.newFpa = s.chip →
      Completes (.migrationQuiesce p page) s (fun t => tget i t.xlat.pageMap = some { e with unit := fpaUnit m.newFpa, frame := bits m.newFpa 42 21 } ∧ tget (frameKey m.oldFpa) t.parser.forward = some m.newFpa ∧
        t.migration p page = some { m with step := 6, waiting := [], quiesce := false } ∧ t.mem = s.mem ∧ t.work = s.work ∧ t.out = s.out)) ∧
  (∀ (s : State) (p page i b : Nat) (m : Migration) (e : PmEntry),
      s.live = true →
      s.home.finished = [] →
      s.migration p page = some m →
      m.step = 4 →
      m.refused = false →
      m.dirty = [b] →
      b < 512 →
      s.mayMove p = true →
      s.noExtent m.oldFpa = true →
      s.quiet m.oldFpa = true →
      m.copying = 0 →
      s.home.quietWait = [] →
      s.regsOf m = [] →
      s.parser.dir = [] →
      s.pmFind p page = some (i, e) →
      e.chip = s.chip →
      frameKey e.fpa = frameKey m.oldFpa →
      fpaChip m.newFpa = s.chip →
      Completes (.migrationQuiesce p page) s (fun t => tget i t.xlat.pageMap = some { e with unit := fpaUnit m.newFpa, frame := bits m.newFpa 42 21 } ∧ tget (frameKey m.oldFpa) t.parser.forward = some m.newFpa ∧
        t.migration p page = some { m with step := 6, waiting := [], quiesce := false, dirty := [] } ∧ (∀ j < 4096, memGet t.mem (memKey (fpaUnit m.newFpa) (fpaOff m.newFpa + 4096 * b) + j) = memGet s.mem (memKey (fpaUnit m.oldFpa) (fpaOff m.oldFpa + 4096 * b) + j)) ∧
        (∀ a : Nat, a < memKey (fpaUnit m.newFpa) (fpaOff m.newFpa + 4096 * b) ∨ memKey (fpaUnit m.newFpa) (fpaOff m.newFpa + 4096 * b) + 4096 ≤ a → memGet t.mem a = memGet s.mem a) ∧ t.work = s.work ∧ t.out = s.out)) ∧
  (∀ (s : State) (p page : Nat) (m : Migration),
      s.live = true →
      s.home.finished = [] →
      s.migration p page = some m →
      m.step = 4 →
      s.mayMove p = true →
      s.home.quietWait = [] →
      Completes (.quiesceTimeout p page) s (fun t => t.migration p page = some { m with refused := true, quiesce := false } ∧ t = { s with parser := { s.parser with migrations := t.parser.migrations } })) ∧
  (∀ (s : State) (p page : Nat) (m : Migration),
      s.live = true →
      s.home.finished = [] →
      s.migration p page = some m →
      m.step = 4 →
      s.mayMove p = true →
      Completes (.migrationRetry p page) s (fun t => t.migration p page = some { m with refused := false } ∧ t = { s with parser := { s.parser with migrations := t.parser.migrations } })) ∧
  (∀ (s : State) (p page i : Nat) (m : Migration) (e : PmEntry),
      s.live = true →
      s.home.finished = [] →
      s.migration p page = some m →
      m.step = 6 →
      m.waiting = [] →
      s.parser.chosen = [] →
      fpaChip m.newFpa = s.chip →
      s.pmFind p page = some (i, e) →
      Completes (.migrationFinish p page) s (fun t => t.frameRec (frameKey m.oldFpa) = none ∧ tget (frameKey m.oldFpa) t.parser.forward = none ∧ tget i t.xlat.pageMap = some { e with migrating := false } ∧
        t.migration p page = none ∧ t.get R.PARSER_COUNT_MIGRATIONS = min (s.get R.PARSER_COUNT_MIGRATIONS + 1) (2 ^ R.PARSER_COUNT_MIGRATIONS.width - 1) ∧
        t.mem = s.mem ∧ t.work = s.work ∧ t.out = s.out))

/-- The arbiter of the coherence rings snoops, grants, holds and releases a line. (R121, R125, R126, R128, R130, R131, R132, 05_memory_system.md) -/
def Obligations.RingArbiterSerialisesLines : Prop :=
  (∀ (s : State) (line stop : Nat) (own : Bool),
      s.live = true →
      1 ≤ stop ∧ stop ≤ 86 →
      (stopTile stop).any (bit s.boot.fuses.fused) = false →
      (∀ o ∈ s.home.ops, o.2.line ≠ some line) →
      tget line s.home.lines = none →
      s.home.lines.length < 256 →
      s.home.ringIn = [] →
      s.home.ringHeld = [] →
      Completes (.req line stop own) s (fun t => tget line t.home.lines = some { RingLine.fresh with queue := [⟨stop, own, s.home.nextOp⟩], phase := .snooping } ∧
        t.out = s.out ++ [.ring { code := 1, ringA := true, line := line, src := 0, dst := stop, owned := false, held := false, grant := 0 }, .ring { code := 1, ringA := false, line := line, src := 0, dst := stop, owned := false, held := false, grant := 0 }] ∧
        (∀ l : Nat, l ≠ line → tget l t.home.lines = tget l s.home.lines) ∧
        t = { s with home := { s.home with lines := t.home.lines, ops := t.home.ops, nextOp := s.home.nextOp + 1 }, out := t.out })) ∧
  (∀ (s : State) (line stop n l : Nat) (q : RingReq) (rest : List RingReq) (r : RingLine),
      s.live = true →
      tget line s.home.lines = some r →
      r.queue = q :: rest →
      r.phase = .snooping →
      stop ≤ 42 ∧ stop = r.posA + 1 →
      stop ≠ q.stop →
      stop ≠ lineStop line →
      stopTile stop = some n →
      s.logical n = some l →
      line ∉ (s.tile l).held →
      tget line (s.tile l).l1 = some 3 →
      Completes (.snp line stop) s (fun t => tget line t.home.lines = some { r with posA := stop, ownedA := true } ∧ tget line (t.tile l).l1 = (if q.own then none else some 1) ∧
        t.out = s.out ++ [.lineData line stop q.stop] ∧ t.mem = s.mem ∧ t.regs = s.regs ∧ t.fabric = s.fabric)) ∧
  (∀ (s : State) (line stop n l : Nat) (q : RingReq) (rest : List RingReq) (r : RingLine),
      s.live = true →
      tget line s.home.lines = some r →
      r.queue = q :: rest →
      r.phase = .snooping →
      45 ≤ stop ∧ stop + 1 = r.posB →
      stop ≠ q.stop →
      stop ≠ lineStop line →
      stopTile stop = some n →
      s.logical n = some l →
      line ∉ (s.tile l).held →
      tget line (s.tile l).l1 = some 3 →
      Completes (.snp line stop) s (fun t => tget line t.home.lines = some { r with posB := stop, ownedB := true } ∧ tget line (t.tile l).l1 = (if q.own then none else some 1) ∧
        t.out = s.out ++ [.lineData line stop q.stop] ∧ t.mem = s.mem ∧ t.regs = s.regs ∧ t.fabric = s.fabric)) ∧
  (∀ (s : State) (line stop n l : Nat) (q : RingReq) (rest : List RingReq) (r : RingLine),
      s.live = true →
      tget line s.home.lines = some r →
      r.queue = q :: rest →
      r.phase = .snooping →
      stop ≤ 42 ∧ stop = r.posA + 1 →
      stop ≠ q.stop →
      stop ≠ lineStop line →
      stopTile stop = some n →
      s.logical n = some l →
      line ∈ (s.tile l).held →
      Completes (.snp line stop) s (fun t => tget line t.home.lines = some { r with posA := stop, heldA := true } ∧ t = { s with home := { s.home with lines := t.home.lines } })) ∧
  (∀ (s : State) (line : Nat) (q : RingReq) (rest : List RingReq) (r : RingLine),
      s.live = true →
      tget line s.home.lines = some r →
      r.queue = q :: rest →
      r.phase = .snooping →
      r.posA = 42 →
      lineStop line ≠ 43 →
      Completes (.snp line 43) s (fun t => tget line t.home.lines = some { r with posA := 43 } ∧
        t.out = s.out ++ [.ring { code := 2, ringA := onRingA 43 (lineStop line), line := line, src := 43, dst := lineStop line, owned := r.ownedA, held := r.heldA, grant := 0 }] ∧
        t = { s with home := { s.home with lines := t.home.lines }, out := t.out })) ∧
  (∀ (s : State) (line : Nat) (q : RingReq) (rest : List RingReq) (r : RingLine),
      s.live = true →
      s.home.finished = [] →
      tget line s.home.lines = some r →
      r.queue = q :: rest →
      r.phase = .snooping →
      r.posB = 44 →
      r.halfA = true →
      r.heldA = false →
      r.heldB = false →
      q.own = false →
      Completes (.half line false) s (fun t => tget line t.home.lines = some { r with halfB := true, phase := .done, spec := false } ∧
        t.out = s.out ++ (if r.ownedA || r.ownedB then [] else [.lineData line (lineStop line) q.stop]) ++
          [.ring { code := 3, ringA := onRingA (lineStop line) q.stop, line := line, src := lineStop line, dst := q.stop, owned := r.ownedA || r.ownedB, held := false, grant := s.grantOf line q.stop false }] ∧
        t = { s with home := { s.home with lines := t.home.lines }, out := t.out })) ∧
  (∀ (s : State) (line : Nat) (q : RingReq) (rest : List RingReq) (r : RingLine) (o : HomeOp),
      s.live = true →
      s.home.finished = [] →
      tget line s.home.lines = some r →
      r.queue = q :: rest →
      r.phase = .snooping →
      r.posB = 44 →
      r.halfA = true →
      r.heldA = false →
      r.heldB = false →
      q.own = true →
      tget q.op s.home.ops = some o →
      o.line = some line →
      s.hasCopies o.acc.fpa (max 1 o.acc.act.len) = false →
      Completes (.half line false) s (fun t => tget line t.home.lines = some { r with halfB := true, phase := .done, spec := false } ∧
        t.out = s.out ++ (if r.ownedA || r.ownedB then [] else [.lineData line (lineStop line) q.stop]) ++
          [.ring { code := 3, ringA := onRingA (lineStop line) q.stop, line := line, src := lineStop line, dst := q.stop, owned := r.ownedA || r.ownedB, held := false, grant := 3 }] ∧
        t = { s with home := { s.home with lines := t.home.lines, ops := t.home.ops }, out := t.out })) ∧
  (∀ (s : State) (line : Nat) (q : RingReq) (rest : List RingReq) (r : RingLine),
      s.live = true →
      s.home.finished = [] →
      tget line s.home.lines = some r →
      r.queue = q :: rest →
      r.phase = .snooping →
      r.posA = 43 →
      r.halfB = true →
      r.heldA = true ∨ r.heldB = true →
      Completes (.half line true) s (fun t => tget line t.home.lines = some { r with halfA := true, phase := .retry, spec := false } ∧
        t.out = s.out ++ [.ring { code := 5, ringA := onRingA (lineStop line) 0, line := line, src := lineStop line, dst := 0, owned := false, held := true, grant := 0 }] ∧
        t = { s with home := { s.home with lines := t.home.lines }, out := t.out })) ∧
  (∀ (s : State) (line n l : Nat) (q : RingReq) (rest : List RingReq) (r : RingLine),
      s.live = true →
      s.home.finished = [] →
      tget line s.home.lines = some r →
      r.queue = q :: rest →
      r.phase = .done →
      tget q.op s.home.ops = none →
      stopTile q.stop = some n →
      s.logical n = some l →
      Completes (.done line) s (fun t => tget line (t.tile l).l1 = some (s.grantOf line q.stop q.own) ∧
        (t.tile l).held = (if q.own && !(s.tile l).owns line then line :: (s.tile l).held.filter (· != line) else (s.tile l).held) ∧
        tget line t.home.lines = some { r with phase := .fin } ∧
        t.out = s.out ++ [.ring { code := 4, ringA := onRingA q.stop 0, line := line, src := q.stop, dst := 0, owned := false, held := false, grant := 0 }] ∧
        t = { s with home := { s.home with tiles := t.home.tiles, lines := t.home.lines }, out := t.out })) ∧
  (∀ (s : State) (line : Nat) (q : RingReq) (r : RingLine),
      s.live = true →
      tget line s.home.lines = some r →
      r.queue = [q] →
      r.phase = .fin →
      s.home.ringIn = [] →
      Completes (.fin line) s (fun t => tget line t.home.lines = none ∧ (∀ l : Nat, l ≠ line → tget l t.home.lines = tget l s.home.lines) ∧ t.out = s.out ∧ t.mem = s.mem)) ∧
  (∀ (s : State) (line : Nat) (q q2 : RingReq) (rest : List RingReq) (r : RingLine),
      s.live = true →
      tget line s.home.lines = some r →
      r.queue = q :: q2 :: rest →
      r.phase = .fin →
      s.home.ringIn = [] →
      Completes (.fin line) s (fun t => tget line t.home.lines = some { RingLine.fresh with queue := q2 :: rest, phase := .snooping } ∧ (∀ l : Nat, l ≠ line → tget l t.home.lines = tget l s.home.lines) ∧
        t.out = s.out ++ [.ring { code := 1, ringA := true, line := line, src := 0, dst := q2.stop, owned := false, held := false, grant := 0 }, .ring { code := 1, ringA := false, line := line, src := 0, dst := q2.stop, owned := false, held := false, grant := 0 }] ∧ t.mem = s.mem)) ∧
  (∀ (s : State) (line : Nat) (q : RingReq) (rest : List RingReq) (r : RingLine),
      s.live = true →
      tget line s.home.lines = some r →
      r.queue = q :: rest →
      r.phase = .retry →
      Completes (.retry line) s (fun t => tget line t.home.lines = some { r with phase := .retried } ∧ t = { s with home := { s.home with lines := t.home.lines } })) ∧
  (∀ (s : State) (line : Nat) (q : RingReq) (rest : List RingReq) (r : RingLine),
      s.live = true →
      tget line s.home.lines = some r →
      r.queue = q :: rest →
      r.phase = .retried →
      Completes (.snoopReissue line) s (fun t => tget line t.home.lines = some { RingLine.fresh with queue := q :: rest, phase := .snooping } ∧ (∀ e ∈ t.home.tiles, line ∉ e.2.held) ∧
        t.out = s.out ++ [.ring { code := 1, ringA := true, line := line, src := 0, dst := q.stop, owned := false, held := false, grant := 0 }, .ring { code := 1, ringA := false, line := line, src := 0, dst := q.stop, owned := false, held := false, grant := 0 }] ∧
        t = { s with home := { s.home with tiles := t.home.tiles, lines := t.home.lines }, out := t.out })) ∧
  (∀ (s : State) (tile line : Nat),
      s.live = true →
      Completes (.holdExpiry tile line) s (fun t => line ∉ (t.tile tile).held ∧ (∀ l ∈ (s.tile tile).held, l = line ∨ l ∈ (t.tile tile).held) ∧ (t.tile tile).l1 = (s.tile tile).l1 ∧
        t = { s with home := { s.home with tiles := t.home.tiles } }))

/-- An admitted direct request is performed at its home. (R32, R33, R34, R35, R84, R98, R342, R343, R301, 14_edge_and_memory.md) -/
def Obligations.DirectRequestsReachTheirHome : Prop :=
  (∀ (s : State) (d : Direct) (p fpa : Nat),
      Admits s d 0 p fpa →
      fpaChip fpa ≠ s.chip →
      s.replicaOf fpa = none →
      s.unreachable (fpaChip fpa) = false →
      s.fabric.waitTag = [] →
      s.get (R.PART_OUTSTANDING_USED p) < s.get (R.PART_OUTSTANDING_QUOTA p) →
      s.fabric.track.length < 131072 →
      Completes (.apertureRead d) s (fun t => ((tget s.edge.nextDirect t.edge.directs).map (fun x => (x.fpa, x.partition, x.act, x.issued))) = some (fpa, p, .read d.len, true) ∧
        ((tget (firstGap 0 s.fabric.track) t.fabric.track).map (fun x => (x.dest, x.opcode, x.cont))) = some (fpa, 1, .direct s.edge.nextDirect) ∧
        t.mem = s.mem ∧ t.work = s.work ∧ t.xlat = s.xlat ∧ t.out = s.out)) ∧
  (∀ (s : State) (d : Direct) (data : List Byte) (p fpa : Nat),
      Admits s d 1 p fpa →
      fpaChip fpa ≠ s.chip →
      s.unreachable (fpaChip fpa) = false →
      s.fabric.waitTag = [] →
      s.get (R.PART_OUTSTANDING_USED p) < s.get (R.PART_OUTSTANDING_QUOTA p) →
      s.fabric.track.length < 131072 →
      Completes (.apertureWrite d data) s (fun t => ((tget s.edge.nextDirect t.edge.directs).map (fun x => (x.fpa, x.partition, x.act, x.issued))) = some (fpa, p, .write data, true) ∧
        ((tget (firstGap 0 s.fabric.track) t.fabric.track).map (fun x => (x.dest, x.opcode, x.cont))) = some (fpa, 2, .direct s.edge.nextDirect) ∧
        t.mem = s.mem ∧ t.work = s.work ∧ t.xlat = s.xlat ∧ t.out = s.out)) ∧
  (∀ (s : State) (d : Direct) (op : PcieAtomic) (operand compare p fpa : Nat),
      Admits s d 2 p fpa →
      atomicWidth (pcieCode op) d.len = true →
      bits d.addr 51 0 % d.len = 0 →
      fpaChip fpa ≠ s.chip →
      s.unreachable (fpaChip fpa) = false →
      s.fabric.waitTag = [] →
      s.get (R.PART_OUTSTANDING_USED p) < s.get (R.PART_OUTSTANDING_QUOTA p) →
      s.fabric.track.length < 131072 →
      Completes (.apertureAtomic d op operand compare) s (fun t => ((tget s.edge.nextDirect t.edge.directs).map (fun x => (x.fpa, x.partition, x.act, x.issued))) = some (fpa, p, .atomic (pcieCode op) d.len operand compare, true) ∧
        ((tget (firstGap 0 s.fabric.track) t.fabric.track).map (fun x => (x.dest, x.opcode, x.cont))) = some (fpa, 3, .direct s.edge.nextDirect) ∧
        t.mem = s.mem ∧ t.work = s.work ∧ t.xlat = s.xlat ∧ t.out = s.out)) ∧
  (∀ (s : State) (d : Direct) (p fpa : Nat),
      Admits s d 0 p fpa →
      Calm s →
      fpaChip fpa = s.chip →
      16 ≤ fpaUnit fpa ∧ fpaUnit fpa < 36 →
      fpaUnit fpa < 32 ∨ s.edge.expanderDown.contains (s.farPort fpa) = false →
      s.inQuiet fpa = false →
      s.forwardOf fpa = none →
      s.frameErr fpa p = .none →
      s.anyPoison (lineKeys (fpaUnit fpa) (fpaOff fpa) d.len) = false →
      s.anyBadTag (lineKeys (fpaUnit fpa) (fpaOff fpa) d.len) = false →
      (linesOf fpa d.len).all (s.lineClear false) = true →
      Completes (.apertureRead d) s (fun t => t.out = s.out ++ (List.range (ceilDiv d.len 256)).map (fun i => .completion d.port d.tag .successful .none (((memRead s.mem (memKey (fpaUnit fpa) (fpaOff fpa)) d.len).drop (256 * i)).take 256)) ∧
        t.edge.directs = [] ∧ t.mem = s.mem ∧ t.xlat = s.xlat ∧ t.work = s.work)) ∧
  (∀ (s : State) (d : Direct) (data : List Byte) (p fpa : Nat),
      Admits s d 1 p fpa →
      Calm s →
      fpaChip fpa = s.chip →
      16 ≤ fpaUnit fpa ∧ fpaUnit fpa < 36 →
      fpaUnit fpa < 32 ∨ s.edge.expanderDown.contains (s.farPort fpa) = false →
      s.inQuiet fpa = false →
      s.forwardOf fpa = none →
      s.frameErr fpa p = .none →
      s.anyPoison (lineKeys (fpaUnit fpa) (fpaOff fpa) data.length) = false →
      s.anyBadTag (lineKeys (fpaUnit fpa) (fpaOff fpa) data.length) = false →
      (linesOf fpa data.length).all (s.lineClear true) = true →
      s.hasCopies fpa data.length = false →
      s.home.ops = [] ∧ s.home.farWait = [] ∧ s.home.lockWait = [] ∧ s.home.writeQueue = [] ∧ s.home.orderWait = [] ∧ s.home.memReqs = [] →
      Completes (.apertureWrite d data) s (fun t => t.out = s.out ++ [.completion d.port d.tag .successful .none []] ∧ t.mem = memWrite s.mem (memKey (fpaUnit fpa) (fpaOff fpa)) data ∧
        t.edge.directs = [] ∧ t.xlat = s.xlat ∧ t.work = s.work))

/-- Control-region requests that pass their checks act on queue pages and counters. (R168, R169, R170, R172, R165, 07_clauses_and_queues.md) -/
def Obligations.ControlRegionServesQueuesAndCounters : Prop :=
  (∀ (s : State) (c : CtlReq) (v q p : Nat) (r : Queue),
      s.live = true →
      s.home.finished = [] →
      s.get (R.EDGE_STAT_ROLE c.port) = 0 →
      s.get (R.EDGE_STAT_STATE c.port) = 2 →
      s.ctlCheck c true = (.none, p) →
      ctlObject c.offset = .queue q 0 →
      s.queue q = some r →
      (v % 2 ^ 32 + 2 ^ 32 - s.get (R.QPAGE_SQ_HEAD q)) % 2 ^ 32 ≤ 2 ^ r.sqLog2 →
      Completes (.doorbell c v) s (fun t => t.get (R.QPAGE_SQ_TAIL q) = v % 2 ^ 32 ∧ t.out = (if c.posted then s.out else s.out ++ [.completion c.port c.tag .successful .none []]) ∧
        t = { s with regs := t.regs, out := t.out } ∧ OnlyFields [R.QPAGE_SQ_TAIL q] s t)) ∧
  (∀ (s : State) (c : CtlReq) (v q p : Nat) (r : Queue),
      s.live = true →
      s.home.finished = [] →
      s.get (R.EDGE_STAT_ROLE c.port) = 0 →
      s.get (R.EDGE_STAT_STATE c.port) = 2 →
      s.ctlCheck c true = (.none, p) →
      ctlObject c.offset = .queue q 8 →
      s.queue q = some r →
      r.records = [] →
      (s.get (R.QPAGE_CQ_TAIL q) + 2 ^ 32 - v % 2 ^ 32) % 2 ^ 32 ≤ 2 ^ r.cqLog2 →
      Completes (.cqHeadWrite c v) s (fun t => t.get (R.QPAGE_CQ_HEAD q) = v % 2 ^ 32 ∧ t.out = (if c.posted then s.out else s.out ++ [.completion c.port c.tag .successful .none []]) ∧
        t = { s with regs := t.regs, out := t.out } ∧ OnlyFields [R.QPAGE_CQ_HEAD q] s t)) ∧
  (∀ (s : State) (c : CtlReq) (p : Nat),
      s.live = true →
      s.home.finished = [] →
      s.get (R.EDGE_STAT_ROLE c.port) = 0 →
      s.get (R.EDGE_STAT_STATE c.port) = 2 →
      s.ctlCheck c false = (.none, p) →
      c.posted = false →
      exec (.controlRegionRead c) s = .next (s.emit (.completion c.port c.tag .successful .none (leBytes 8 (s.ctlValue c))))) ∧
  (∀ (s : State) (c : CtlReq) (v n p : Nat),
      s.live = true →
      s.home.finished = [] →
      s.get (R.EDGE_STAT_ROLE c.port) = 0 →
      s.get (R.EDGE_STAT_STATE c.port) = 2 →
      s.ctlCheck c true = (.none, p) →
      ctlObject c.offset = .counter n →
      Completes (.controlCounterWrite c v) s (fun t => t.counter n = v % 2 ^ 64 ∧ (∀ m : Nat, m ≠ n → t.counter m = s.counter m) ∧
        t.out = (if c.posted then s.out else s.out ++ [.completion c.port c.tag .successful .none []]) ∧ t = { s with work := t.work, out := t.out })) ∧
  (∀ (s : State) (c : CtlReq) (op : PcieAtomic) (x y n p : Nat),
      s.live = true →
      s.home.finished = [] →
      s.get (R.EDGE_STAT_ROLE c.port) = 0 →
      s.get (R.EDGE_STAT_STATE c.port) = 2 →
      s.ctlCheck { c with posted := false } true = (.none, p) →
      ctlObject c.offset = .counter n →
      Completes (.controlRegionAtomic c op x y) s (fun t => t.counter n = atomicNew (pcieCode op) 8 x y (s.counter n) % 2 ^ 64 ∧ (∀ m : Nat, m ≠ n → t.counter m = s.counter m) ∧
        t.out = s.out ++ [.completion c.port c.tag .successful .none (leBytes 8 (s.counter n))] ∧ t = { s with work := t.work, out := t.out }))

/-- Edge ports enumerate, lose, drain and configure their devices. (R340, R346, R347, R348, R349, R350, R358, R446, 14_edge_and_memory.md) -/
def Obligations.EdgePortsServeAndDrain : Prop :=
  (∀ (s : State) (port rate width size : Nat) (ide : Bool),
      s.live = true →
      port < 32 →
      s.get (R.EDGE_STAT_ROLE port) = 0 →
      s.get (R.EDGE_STAT_STATE port) = 1 →
      s.ideRequired port = false →
      s.deviceFits port rate width size true ide = true →
      Completes (.edgeDeviceEnumeration port rate width size true ide) s (fun t => t.get (R.EDGE_STAT_STATE port) = 2 ∧ t.get (R.EDGE_STAT_RATE port) = rate % 2 ^ (R.EDGE_STAT_RATE port).width ∧ t.get (R.EDGE_STAT_WIDTH port) = width % 2 ^ (R.EDGE_STAT_WIDTH port).width ∧
        tget port t.edge.hdm = some size ∧ t.out = s.out ++ [.hdmDecoder port size] ∧ t = { s with regs := t.regs, edge := { s.edge with hdm := t.edge.hdm }, out := t.out } ∧
        OnlyFields [R.EDGE_STAT_STATE port, R.EDGE_STAT_RATE port, R.EDGE_STAT_WIDTH port] s t)) ∧
  (∀ (s : State) (port : Nat),
      s.live = true →
      s.home.finished = [] →
      port < 32 →
      s.get (R.EDGE_STAT_ROLE port) = 0 →
      s.get (R.EDGE_STAT_STATE port) = 2 →
      s.home.memReqs = [] ∧ s.home.writeTable = [] ∧ s.home.writeQueue = [] ∧ s.home.orderWait = [] →
      Completes (.edgeLinkLoss port) s (fun t => t.get (R.EDGE_STAT_STATE port) = 5 ∧ t.get (R.EDGE_STAT_RATE port) = 0 ∧ t.get (R.EDGE_STAT_WIDTH port) = 0 ∧ t.get (R.EDGE_STAT_IDE port) = 0 ∧
        (t.tele.log.head?.map (fun e => (e.event, e.addr))) = some (9, port) ∧ t.mem = s.mem ∧ t.work = s.work ∧ t.home = s.home ∧ t.edge = s.edge)) ∧
  (∀ (s : State) (port : Nat),
      s.live = true →
      s.home.finished = [] →
      port < 32 →
      s.get (R.EDGE_STAT_ROLE port) = 0 →
      s.get (R.EDGE_STAT_IDE port) = 1 →
      s.get (R.EDGE_STAT_STATE port) = 2 →
      s.home.memReqs = [] ∧ s.home.writeTable = [] ∧ s.home.writeQueue = [] ∧ s.home.orderWait = [] →
      Completes (.ideMacFailure port) s (fun t => t.get (R.EDGE_STAT_STATE port) = 5 ∧ t.get (R.EDGE_STAT_IDE port) = 0 ∧ (t.tele.log.head?.map (fun e => (e.event, e.addr))) = some (9, port) ∧
        t.mem = s.mem ∧ t.work = s.work ∧ t.home = s.home ∧ t.edge = s.edge)) ∧
  (∀ (s : State) (port : Nat),
      s.live = true →
      port < 36 →
      s.portIde port = true →
      exec (.ideKeyRefresh port) s = .next (s.emit (.ideRekey port))) ∧
  (∀ (s : State) (slot offset : Nat),
      s.live = true →
      Calm s →
      s.lineClear true (mkFpa s.chip slot offset / 128) = true →
      s.sharersOf (mkFpa s.chip slot offset) 1 = [] →
      exec (.bisnp slot offset) s = .next (s.emit (.biRsp slot offset))) ∧
  (∀ (s : State) (slot offset : Nat),
      s.live = true →
      s.home.finished = [] →
      s.home.ops = [] →
      (s.home.tiles.any (fun e => e.2.has (mkFpa s.chip slot offset / 128)) = true) →
      Completes (.bisnp slot offset) s (fun t => ((tget s.home.nextOp t.home.ops).map (fun o => (o.acc.fpa, o.line, o.own, o.sent))) = some (mkFpa s.chip slot offset, some (mkFpa s.chip slot offset / 128), true, true) ∧
        t.out = s.out ++ [.ring { code := 0, ringA := onRingA (homeStop (fpaUnit (mkFpa s.chip slot offset))) 0, line := mkFpa s.chip slot offset / 128, src := homeStop (fpaUnit (mkFpa s.chip slot offset)), dst := 0, owned := true, held := false, grant := 0 }] ∧
        t = { s with home := { s.home with ops := t.home.ops, nextOp := s.home.nextOp + 1 }, out := t.out })) ∧
  (∀ (s : State) (port tag src qtag p tn n : Nat) (data : List Byte) (r : MemReq),
      s.live = true →
      s.home.finished = [] →
      tget tag s.home.memReqs = some r →
      r.port = port →
      r.write = false →
      r.act = .read n →
      r.who = .frame src qtag p tn false →
      src < 2 ^ 15 →
      s.unreachable src = false →
      Completes (.cxlMemCompletion port tag true data) s (fun t => Emits s t (src, qtag, 8, (if lineFill (mkFpa s.chip r.slot r.offset) r.act r.who && !(s.lineSharers (mkFpa s.chip r.slot r.offset / 128)).contains src then 256 else 0), s.overlay r.slot r.offset (data.take n)) ∧ tget tag t.home.memReqs = none ∧ t.mem = s.mem ∧ t.work = s.work ∧ t.out = s.out)) ∧
  (∀ (s : State) (port : Nat),
      s.live = true →
      port < 32 →
      s.get (R.EDGE_STAT_ROLE port) = 0 →
      s.get (R.EDGE_STAT_STATE port) = 2 →
      s.home.finished = [] ∧ s.home.writeTable = [] ∧ s.home.writeQueue = [] ∧ s.home.orderWait = [] →
      Completes (.edgeDisable port) s (fun t => t.get (R.EDGE_CTL_ENABLE port) = 0 ∧ t.get (R.EDGE_STAT_STATE port) = (if s.edgeEmpty port then 4 else 3) ∧ t = { s with regs := t.regs })) ∧
  (∀ (s : State) (port : Nat),
      s.live = true →
      port < 32 →
      s.get (R.EDGE_STAT_ROLE port) = 1 →
      s.home.finished = [] →
      (∀ p < 32, s.get (R.EDGE_STAT_STATE p) ≠ 3) →
      Completes (.edgeDisable port) s (fun t => t.get (R.EDGE_STAT_REFUSED port) = 1 ∧ t.get (R.EDGE_CTL_ENABLE port) = s.get (R.EDGE_CTL_ENABLE port) ∧ t = { s with regs := t.regs })) ∧
  (∀ (s : State) (port : Nat),
      s.live = true →
      port < 32 →
      s.get (R.EDGE_STAT_STATE port) = 4 →
      Completes (.edgeEnable port) s (fun t => t.get (R.EDGE_CTL_ENABLE port) = 1 ∧ t.get (R.EDGE_STAT_STATE port) = 1 ∧ t = { s with regs := t.regs } ∧
        OnlyFields [R.EDGE_CTL_ENABLE port, R.EDGE_STAT_STATE port] s t)) ∧
  (∀ (s : State) (port id : Nat) (d : DirectRec),
      s.live = true →
      s.home.finished = [] →
      port < 32 →
      s.get (R.EDGE_STAT_STATE port) = 3 →
      s.edge.directs = [(id, d)] →
      d.port = port →
      s.home.memReqs = [] →
      s.home.orderWait = [] →
      Completes (.edgeDrainTimeout port) s (fun t => t.get (R.EDGE_STAT_STATE port) = 4 ∧ t.edge.directs = [] ∧ .completion port d.tag .abort .aborted [] ∈ t.out ∧ t.mem = s.mem)) ∧
  (∀ (s : State) (port v : Nat),
      s.live = true →
      port < 32 →
      bit v 15 = false →
      Completes (.edgeCfgAccess port v) s (fun t => t.get (R.EDGE_CFG_DATA_DONE port) = 0 ∧ t.get (R.EDGE_CFG_DATA_ERR port) = 0 ∧ tget port t.edge.cfg = some (false, bits v 14 12, bits v 11 2) ∧
        t.out = s.out ++ [.config port (bits v 14 12) (bits v 11 2) false 0] ∧ t = { s with regs := t.regs, fresh := s.fresh + 1, edge := { s.edge with cfg := t.edge.cfg }, out := t.out } ∧
        OnlyFields [R.EDGE_CFG_DATA_DONE port, R.EDGE_CFG_DATA_ERR port] s t)) ∧
  (∀ (s : State) (port v : Nat),
      s.live = true →
      port < 32 →
      bit v 15 = true →
      Completes (.edgeCfgAccess port v) s (fun t => (t.get (R.EDGE_CFG_DATA_DONE port) = 1 ∧ t.get (R.EDGE_CFG_DATA_ERR port) = 1 ∧ t.out = s.out ∨ t.get (R.EDGE_CFG_DATA_DONE port) = 0 ∧ t.get (R.EDGE_CFG_DATA_ERR port) = 0 ∧ t.out = s.out ++ [.config port (bits v 14 12) (bits v 11 2) true (s.get (R.EDGE_CFG_DATA_DATA port))]) ∧
        OnlyFields [R.EDGE_CFG_DATA_DONE port, R.EDGE_CFG_DATA_ERR port] s t)) ∧
  (∀ (s : State) (port func reg : Nat) (write ok : Bool),
      s.live = true →
      tget port s.edge.cfg = some (write, func, reg) →
      Completes (.edgeCfgDone port ok) s (fun t => t.get (R.EDGE_CFG_DATA_DONE port) = 1 ∧ t.get (R.EDGE_CFG_DATA_ERR port) = (if ok then s.get (R.EDGE_CFG_DATA_ERR port) else 1) ∧ tget port t.edge.cfg = none ∧
        t = { s with regs := t.regs, edge := { s.edge with cfg := t.edge.cfg } } ∧
        OnlyFields [R.EDGE_CFG_DATA_DONE port, R.EDGE_CFG_DATA_ERR port, R.EDGE_CFG_DATA_DATA port] s t))

/-- Expanders and memory sites train, wait, recover and are lost. (R351, R352, R353, R354, R355, R453, 14_edge_and_memory.md) -/
def Obligations.MemoryTiersTrainWaitAndFail : Prop :=
  (∀ (s : State) (port : Nat),
      s.live = true →
      s.isFarPort port = true →
      s.portState port = 2 →
      port ∉ s.edge.expanderDown →
      exec (.expanderLinkDown port) s = .next ({ s with edge := { s.edge with expanderDown := s.edge.expanderDown ++ [port] } })) ∧
  (∀ (s : State) (port : Nat),
      s.live = true →
      s.home.finished = [] →
      port ∈ s.edge.expanderDown →
      (∀ a ∈ s.home.farWait, s.farPort a.fpa ≠ port) →
      s.home.orderWait = [] →
      Completes (.expanderLinkReturn port true) s (fun t => port ∉ t.edge.expanderDown ∧ t.home.farWait = s.home.farWait ∧ t = { s with edge := { s.edge with expanderDown := t.edge.expanderDown } })) ∧
  (∀ (s : State) (port : Nat),
      s.live = true →
      s.home.finished = [] →
      port ∈ s.edge.expanderDown →
      32 ≤ port ∧ port < 36 →
      s.home.farWait = [] ∧ s.home.orderWait = [] →
      s.parser.dir = [] →
      Completes (.expanderLinkReturn port false) s (fun t => t.portState port = 5 ∧ 8 * port ∈ t.xlat.lostParts ∧ t.get R.FAULT_STAT_MEM_LOST = 1 ∧
        (t.tele.log.head?.map (fun e => (e.event, e.addr))) = some (11, port) ∧ port ∉ t.edge.expanderDown ∧
        (∀ e ∈ t.xlat.pageMap, e.2.chip = s.chip ∧ e.2.unit = port ∧ e.2.frame / 2 ^ 19 = 0 → e.2.poison = true) ∧ t.mem = s.mem ∧ t.work = s.work)) ∧
  (∀ (s : State) (port : Nat),
      s.live = true →
      s.home.finished = [] →
      port ∈ s.edge.expanderDown →
      32 ≤ port ∧ port < 36 →
      s.home.farWait = [] ∧ s.home.orderWait = [] →
      s.parser.dir = [] →
      Completes (.expanderReturnTimeout port) s (fun t => t.portState port = 5 ∧ 8 * port ∈ t.xlat.lostParts ∧ t.get R.FAULT_STAT_MEM_LOST = 1 ∧
        (t.tele.log.head?.map (fun e => (e.event, e.addr))) = some (11, port) ∧ port ∉ t.edge.expanderDown ∧
        (∀ e ∈ t.xlat.pageMap, e.2.chip = s.chip ∧ e.2.unit = port ∧ e.2.frame / 2 ^ 19 = 0 → e.2.poison = true) ∧ t.mem = s.mem ∧ t.work = s.work)) ∧
  (∀ (s : State) (site rate density devices : Nat),
      s.live = true →
      site < 16 →
      s.get (R.GDDR_STAT_STATE site) = 1 →
      density = s.get R.GDDR_CFG_DENSITY →
      devices = s.get R.GDDR_CFG_CLAMSHELL + 1 →
      (∀ u < 16, s.get (R.GDDR_STAT_STATE u) ≠ 2) →
      s.get R.GDDR_CFG_RATE_CEIL ≤ rate ∧ rate ≤ s.get R.GDDR_CFG_RATE_FLOOR →
      Completes (.gddrTrainingDone site rate density devices true) s (fun t => t.get (R.GDDR_STAT_STATE site) = 2 ∧ t.get (R.GDDR_STAT_FRAMES site) = framesOf s.siteBytes % 2 ^ (R.GDDR_STAT_FRAMES site).width ∧
        t.get (R.GDDR_STAT_RATE site) = rate % 2 ^ (R.GDDR_STAT_RATE site).width ∧ t = { s with regs := t.regs } ∧
        OnlyFields [R.GDDR_STAT_STATE site, R.GDDR_STAT_FRAMES site, R.GDDR_STAT_RATE site] s t)) ∧
  (∀ (s : State) (site : Nat),
      s.live = true →
      site < 16 →
      s.get (R.GDDR_STAT_STATE site) = 2 →
      s.parser.dir = [] →
      Completes (.gddrRetrain site false) s (fun t => t.get (R.GDDR_STAT_STATE site) = 3 ∧ 8 * (16 + site) ∈ t.xlat.lostParts ∧ t.get R.FAULT_STAT_MEM_LOST = 1 ∧
        (t.tele.log.take 2).map (fun e => (e.event, e.addr)) = [(11, 16 + site), (10, site)] ∧
        (∀ e ∈ t.xlat.pageMap, e.2.chip = s.chip ∧ e.2.unit = 16 + site ∧ e.2.frame / 2 ^ 19 = 0 → e.2.poison = true) ∧ t.mem = s.mem ∧ t.work = s.work)) ∧
  (∀ (s : State) (site : Nat),
      s.live = true →
      site < 16 →
      s.get (R.GDDR_STAT_STATE site) = 2 →
      s.parser.dir = [] →
      Completes (.gddr7DeviceFatalError site) s (fun t => t.get (R.GDDR_STAT_STATE site) = 3 ∧ 8 * (16 + site) ∈ t.xlat.lostParts ∧ t.get R.FAULT_STAT_MEM_LOST = 1 ∧
        (t.tele.log.take 2).map (fun e => (e.event, e.addr)) = [(11, 16 + site), (10, site)] ∧
        (∀ e ∈ t.xlat.pageMap, e.2.chip = s.chip ∧ e.2.unit = 16 + site ∧ e.2.frame / 2 ^ 19 = 0 → e.2.poison = true) ∧ t.mem = s.mem ∧ t.work = s.work)) ∧
  (∀ (s : State) (site : Nat),
      exec (.gddrRetrain site true) s = .next (s)) ∧
  (∀ (s : State) (site block fails : Nat) (write unc : Bool) (other : Option (List Byte × List Byte)),
      s.live = true →
      site < 16 →
      s.get (R.GDDR_STAT_STATE site) = 2 →
      4 < fails ∨ unc = true →
      Completes (.gddr7TransferCompletion site block write fails unc other) s (fun t => 2 * (memKey (16 + site) 0 / 256 + block) ∈ t.home.poisoned ∧ 2 * (memKey (16 + site) 0 / 256 + block) + 1 ∈ t.home.poisoned ∧
        t.get (R.GDDR_STAT_CRC_RETRY site) = min (s.get (R.GDDR_STAT_CRC_RETRY site) + min fails 4) (2 ^ (R.GDDR_STAT_CRC_RETRY site).width - 1) ∧
        t.get (R.GDDR_STAT_POISON site) = min (s.get (R.GDDR_STAT_POISON site) + 1) (2 ^ (R.GDDR_STAT_POISON site).width - 1) ∧
        t = { s with regs := t.regs, home := { s.home with poisoned := t.home.poisoned } } ∧
        OnlyFields [R.GDDR_STAT_CRC_RETRY site, R.GDDR_STAT_POISON site] s t)) ∧
  (∀ (s : State) (site block fails p : Nat) (cipher tag : List Byte) (ks : PartKeys),
      s.live = true →
      site < 16 →
      s.get (R.GDDR_STAT_STATE site) = 2 →
      fails ≤ 4 →
      s.blockKeysOf (memKey (16 + site) 0 / 256 + block) = some (p, ks) →
      blockTag ks s.chip (memKey (16 + site) 0 / 256 + block) p cipher ≠ tag →
      Completes (.gddr7TransferCompletion site block false fails false (some (cipher, tag))) s (fun t => 2 * (memKey (16 + site) 0 / 256 + block) ∈ t.home.badTags ∧ 2 * (memKey (16 + site) 0 / 256 + block) + 1 ∈ t.home.badTags ∧
        t = { s with regs := t.regs, home := { s.home with badTags := t.home.badTags } } ∧ OnlyFields [R.GDDR_STAT_CRC_RETRY site] s t)) ∧
  (∀ (s : State) (site block fails p : Nat) (cipher : List Byte) (ks : PartKeys),
      s.live = true →
      site < 16 →
      s.get (R.GDDR_STAT_STATE site) = 2 →
      fails ≤ 4 →
      s.blockKeysOf (memKey (16 + site) 0 / 256 + block) = some (p, ks) →
      s.stored (memKey (16 + site) 0 / 256 + block) ≠ some (cipher, blockTag ks s.chip (memKey (16 + site) 0 / 256 + block) p cipher) →
      Completes (.gddr7TransferCompletion site block false fails false (some (cipher, blockTag ks s.chip (memKey (16 + site) 0 / 256 + block) p cipher))) s (fun t => t.mem = memWrite s.mem ((memKey (16 + site) 0 / 256 + block) * 256) (Config.xtsOpen ks.kData ks.kTweak (blockTweak s.chip (memKey (16 + site) 0 / 256 + block)) cipher) ∧
        t = { s with regs := t.regs, mem := t.mem } ∧ OnlyFields [R.GDDR_STAT_CRC_RETRY site] s t))

/-- Nelar links train, replay, go down, drain and are enabled again. (R361, R363, R364, R365, R366, R367, R368, R369, R370, R377, R446, 15_nelar.md) -/
def Obligations.NelarLinksTrainRetryAndDrain : Prop :=
  (∀ (s : State) (l skew turn : Nat) (lanes : List LaneSeen),
      s.live = true →
      l < 2 →
      1 ≤ s.linkState l ∧ s.linkState l ≤ 3 →
      lanes.length = 8 →
      (∀ x ∈ lanes, isAm 2 x.am = true ∧ bits x.am 11 11 = l) →
      (lanes.map (fun x => bits x.am 10 8) = List.range 8 ∨ lanes.map (fun x => bits x.am 10 8) = (List.range 8).reverse) →
      skew ≤ 16 →
      s.nelar.notices = [] →
      s.nelar.owed = [] →
      s.xlat.closedBatches = [] →
      Completes (.nelarLinkActive l 255 lanes skew turn) s (fun t => t.linkState l = 4 ∧ t.get (R.NELAR_STAT_FAULT l) = 0 ∧ t.get (R.NELAR_STAT_SKEW l) = skew ∧ t.get (R.NELAR_STAT_LANES_LOCKED l) = 255 ∧
        t.get (R.NELAR_STAT_REVERSED l) = b2n (decide (lanes.map (fun x => bits x.am 10 8) = (List.range 8).reverse)) ∧
        t.link l = { Link.reset with presets := (s.link l).presets, txLanes := (t.link l).txLanes, txTurn := (t.link l).txTurn, rxTurn := turn % 8, rxLanes := (if lanes.map (fun x => bits x.am 10 8) = (List.range 8).reverse then lanes.reverse else lanes).map (fun x => { scr := x.scr % 2 ^ 58, since := x.since, bip := x.bip, bad := [] }) } ∧
        t.link (1 - l) = s.link (1 - l) ∧
        t = { s with regs := t.regs, fresh := s.fresh + 1, nelar := { s.nelar with linkA := t.nelar.linkA, linkB := t.nelar.linkB }, out := t.out } ∧
        OnlyFields [R.NELAR_STAT_STATE l, R.NELAR_STAT_FAULT l, R.NELAR_STAT_SKEW l, R.NELAR_STAT_LANES_LOCKED l, R.NELAR_STAT_REVERSED l] s t)) ∧
  (∀ (s : State) (l skew turn : Nat) (lanes : List LaneSeen),
      s.live = true →
      l < 2 →
      1 ≤ s.linkState l ∧ s.linkState l ≤ 3 →
      lanes.length = 8 →
      (∀ x ∈ lanes, isAm 2 x.am = true) →
      alignFault l skew lanes ≠ 0 →
      Completes (.nelarLinkActive l 255 lanes skew turn) s (fun t => t.linkState l = 3 ∧ t.get (R.NELAR_STAT_FAULT l) = alignFault l skew lanes ∧ t = { s with regs := t.regs } ∧
        OnlyFields [R.NELAR_STAT_STATE l, R.NELAR_STAT_FAULT l, R.NELAR_STAT_SKEW l, R.NELAR_STAT_LANES_LOCKED l, R.NELAR_STAT_REVERSED l] s t)) ∧
  (∀ (s : State) (l : Nat) (bs : List (Nat × Nat)) (k : Link) (x : List Byte),
      s.live = true →
      l < 2 →
      s.linkState l = 4 →
      takeBlocks (s.link l) bs = (k, [.flit x]) →
      (flitOf x).crcOk = false →
      Completes (.flitReceive l bs) s (fun t => t.get (R.NELAR_COUNT_CRC_FAIL l) = min (s.get (R.NELAR_COUNT_CRC_FAIL l) + 1) (2 ^ 16 - 1) ∧ t = { s.setLink l k with regs := t.regs } ∧
        OnlyFields [R.NELAR_COUNT_CRC_FAIL l] s t)) ∧
  (∀ (s : State) (l : Nat) (bs : List (Nat × Nat)) (k : Link) (x : List Byte),
      s.live = true →
      l < 2 →
      s.linkState l = 4 →
      takeBlocks (s.link l) bs = (k, [.flit x]) →
      (flitOf x).crcOk = true →
      (flitOf x).kind = 1 →
      (flitOf x).fseq = k.expect →
      (flitOf x).payload = List.replicate 240 0#8 →
      k.rx = [] →
      k.held = [] →
      k.queue = [] →
      Completes (.flitReceive l bs) s (fun t => t.link l = { k with peerCredit := (flitOf x).credit, expect := (k.expect + 1) % 65536, nackSent := false, freed := (k.expect + 1) % 65536 } ∧ t.link (1 - l) = s.link (1 - l) ∧
        t = { s with nelar := { s.nelar with linkA := t.nelar.linkA, linkB := t.nelar.linkB } })) ∧
  (∀ (s : State) (l : Nat) (bs : List (Nat × Nat)) (k : Link) (x : List Byte),
      s.live = true →
      l < 2 →
      s.linkState l = 4 →
      takeBlocks (s.link l) bs = (k, [.flit x]) →
      (flitOf x).crcOk = true →
      (flitOf x).kind = 1 →
      (flitOf x).fseq ≠ k.expect →
      k.nackSent = false →
      k.held = [] →
      k.queue = [] →
      Completes (.flitReceive l bs) s (fun t => t.link l = { k with peerCredit := (flitOf x).credit, nackSent := true, txLanes := (t.link l).txLanes, txTurn := (t.link l).txTurn } ∧ t.link (1 - l) = s.link (1 - l) ∧
        t.out = s.out ++ [.flit l (k.flit 2 0 (List.replicate 240 0#8)), .nelarBlocks l (dealBlocks l k (flitBlocks (k.flit 2 0 (List.replicate 240 0#8)))).2] ∧
        t = { s with nelar := { s.nelar with linkA := t.nelar.linkA, linkB := t.nelar.linkB }, out := t.out })) ∧
  (∀ (s : State) (l : Nat) (bs : List (Nat × Nat)) (k : Link) (x : List Byte),
      s.live = true →
      l < 2 →
      s.linkState l = 4 →
      takeBlocks (s.link l) bs = (k, [.flit x]) →
      (flitOf x).crcOk = true →
      (flitOf x).kind = 2 →
      ((k.held.any (fun h => h.1 == (flitOf x).ackseq)) = false) →
      k.held ≠ [] →
      k.queue = [] →
      k.replays < s.get (R.NELAR_CTL_REPLAY_MAX l) →
      Completes (.nackFlit l bs) s (fun t => t.link l = { k with peerCredit := (flitOf x).credit, replays := k.replays + 1, txLanes := (t.link l).txLanes, txTurn := (t.link l).txTurn } ∧ t.link (1 - l) = s.link (1 - l) ∧
        t.get (R.NELAR_COUNT_REPLAYS l) = min (s.get (R.NELAR_COUNT_REPLAYS l) + 1) (2 ^ 16 - 1) ∧
        t.out.take s.out.length = s.out ∧ ((t.out.drop s.out.length).filterMap (fun o => match o with | .flit _ f => some f | _ => none)) = k.held.map (fun h => k.flit 1 h.1 h.2) ∧
        t = { s with regs := t.regs, nelar := { s.nelar with linkA := t.nelar.linkA, linkB := t.nelar.linkB }, out := t.out } ∧ OnlyFields [R.NELAR_COUNT_REPLAYS l] s t)) ∧
  (∀ (s : State) (l : Nat) (bs : List (Nat × Nat)) (k : Link),
      s.live = true →
      l < 2 →
      s.linkState l = 4 →
      takeBlocks (s.link l) bs = (k, [.bip 3]) →
      Completes (.flitReceive l bs) s (fun t => t.get (if s.flag (R.NELAR_STAT_REVERSED l) then R.NELAR_BIP_BIP_4 l else R.NELAR_BIP_BIP_3 l) =
          min (s.get (if s.flag (R.NELAR_STAT_REVERSED l) then R.NELAR_BIP_BIP_4 l else R.NELAR_BIP_BIP_3 l) + 1) (2 ^ (R.NELAR_BIP_BIP_3 l).width - 1) ∧
        t = { s.setLink l k with regs := t.regs } ∧ OnlyFields [if s.flag (R.NELAR_STAT_REVERSED l) then R.NELAR_BIP_BIP_4 l else R.NELAR_BIP_BIP_3 l] s t)) ∧
  (∀ (s : State) (l : Nat),
      s.live = true →
      l < 2 →
      s.carries l = true →
      (s.link l).held ≠ [] →
      (s.link l).replays < s.get (R.NELAR_CTL_REPLAY_MAX l) →
      Completes (.replayTimeout l) s (fun t => t.link l = { s.link l with replays := (s.link l).replays + 1, txLanes := (t.link l).txLanes, txTurn := (t.link l).txTurn } ∧ t.link (1 - l) = s.link (1 - l) ∧
        t.get (R.NELAR_COUNT_REPLAYS l) = min (s.get (R.NELAR_COUNT_REPLAYS l) + 1) (2 ^ 16 - 1) ∧
        t.out.take s.out.length = s.out ∧ ((t.out.drop s.out.length).filterMap (fun o => match o with | .flit _ f => some f | _ => none)) = (s.link l).held.map (fun h => (s.link l).flit 1 h.1 h.2) ∧
        t = { s with regs := t.regs, nelar := { s.nelar with linkA := t.nelar.linkA, linkB := t.nelar.linkB }, out := t.out } ∧ OnlyFields [R.NELAR_COUNT_REPLAYS l] s t)) ∧
  (∀ (s : State) (l : Nat),
      s.live = true →
      l < 2 →
      s.linkState l = 4 →
      s.linkState (1 - l) = 1 →
      s.flag R.TELE_CTL_EVENTS_EN = false →
      (((s.link l).msgs.all (fun m => m.1.code != 0x51)) = true) →
      Completes (.nelarLinkDown l) s (fun t => t.linkState l = 1 ∧ t.link l = { Link.reset with presets := [R.NELAR_TXEQ_PRESET_0, R.NELAR_TXEQ_PRESET_1, R.NELAR_TXEQ_PRESET_2, R.NELAR_TXEQ_PRESET_3, R.NELAR_TXEQ_PRESET_4, R.NELAR_TXEQ_PRESET_5, R.NELAR_TXEQ_PRESET_6, R.NELAR_TXEQ_PRESET_7].map (fun f => s.get (f l)) } ∧ t.out = s.out ++ [.nelarTaps l ((t.link l).presets.map txPreset)] ∧ t.get (R.NELAR_COUNT_RETRAINS l) = min (s.get (R.NELAR_COUNT_RETRAINS l) + 1) (2 ^ 16 - 1) ∧
        t.get (R.NELAR_STAT_LANES_LOCKED l) = 0 ∧ t.tele.log = ((s.faultEvent 12 l 0 0) :: s.tele.log).take 1024 ∧
        t.nelar.notices = s.nelar.notices ++ (s.link l).msgs.map (fun m => { m.1 with resent := true }) ∧ t.link (1 - l) = s.link (1 - l) ∧
        t = { s with regs := t.regs, nelar := { s.nelar with linkA := t.nelar.linkA, linkB := t.nelar.linkB, notices := t.nelar.notices }, tele := { s.tele with log := t.tele.log }, out := t.out } ∧
        OnlyFields [R.NELAR_STAT_STATE l, R.NELAR_COUNT_RETRAINS l, R.NELAR_STAT_LANES_LOCKED l, R.FAULT_STAT_LOG_ENTRIES] s t)) ∧
  (∀ (s : State) (l : Nat),
      s.live = true →
      l < 2 →
      s.linkState l = 4 →
      s.linkState (1 - l) = 1 →
      s.flag R.TELE_CTL_EVENTS_EN = false →
      (((s.link l).msgs.all (fun m => m.1.code != 0x51)) = true) →
      s.get (R.NELAR_CTL_REPLAY_MAX l) ≤ (s.link l).replays →
      Completes (.nelarReplayExhausted l) s (fun t => t.linkState l = 1 ∧ t.link l = { Link.reset with presets := [R.NELAR_TXEQ_PRESET_0, R.NELAR_TXEQ_PRESET_1, R.NELAR_TXEQ_PRESET_2, R.NELAR_TXEQ_PRESET_3, R.NELAR_TXEQ_PRESET_4, R.NELAR_TXEQ_PRESET_5, R.NELAR_TXEQ_PRESET_6, R.NELAR_TXEQ_PRESET_7].map (fun f => s.get (f l)) } ∧ t.out = s.out ++ [.nelarTaps l ((t.link l).presets.map txPreset)] ∧ t.get (R.NELAR_COUNT_RETRAINS l) = min (s.get (R.NELAR_COUNT_RETRAINS l) + 1) (2 ^ 16 - 1) ∧
        t.get (R.NELAR_STAT_LANES_LOCKED l) = 0 ∧ t.tele.log = ((s.faultEvent 12 l 0 0) :: s.tele.log).take 1024 ∧
        t.nelar.notices = s.nelar.notices ++ (s.link l).msgs.map (fun m => { m.1 with resent := true }) ∧ t.link (1 - l) = s.link (1 - l) ∧
        t = { s with regs := t.regs, nelar := { s.nelar with linkA := t.nelar.linkA, linkB := t.nelar.linkB, notices := t.nelar.notices }, tele := { s.tele with log := t.tele.log }, out := t.out } ∧
        OnlyFields [R.NELAR_STAT_STATE l, R.NELAR_COUNT_RETRAINS l, R.NELAR_STAT_LANES_LOCKED l, R.FAULT_STAT_LOG_ENTRIES] s t)) ∧
  (∀ (s : State) (l : Nat),
      s.live = true →
      l < 2 →
      s.linkState l = 4 →
      (s.link l).queue = [] →
      (s.link l).msgs = [] →
      Completes (.nelarDisable l) s (fun t => t.linkState l = (if (s.link l).held = [] ∧ (s.link l).rx = [] then 6 else 5) ∧ t.get (R.NELAR_CTL_ENABLE l) = 0 ∧ t = { s with regs := t.regs } ∧
        OnlyFields [R.NELAR_STAT_STATE l, R.NELAR_CTL_ENABLE l] s t)) ∧
  (∀ (s : State) (l : Nat),
      s.live = true →
      l < 2 →
      s.linkState l = 6 →
      Completes (.nelarEnable l) s (fun t => t.linkState l = 1 ∧ t.get (R.NELAR_CTL_ENABLE l) = 1 ∧ (t.link l) = { s.link l with presets := [R.NELAR_TXEQ_PRESET_0, R.NELAR_TXEQ_PRESET_1, R.NELAR_TXEQ_PRESET_2, R.NELAR_TXEQ_PRESET_3, R.NELAR_TXEQ_PRESET_4, R.NELAR_TXEQ_PRESET_5, R.NELAR_TXEQ_PRESET_6, R.NELAR_TXEQ_PRESET_7].map (fun f => s.get (f l)) } ∧ t.link (1 - l) = s.link (1 - l) ∧ t.out = s.out ++ [.nelarTaps l ((t.link l).presets.map txPreset)] ∧
        t = { s with regs := t.regs, nelar := { s.nelar with linkA := t.nelar.linkA, linkB := t.nelar.linkB }, out := t.out } ∧ OnlyFields [R.NELAR_STAT_STATE l, R.NELAR_CTL_ENABLE l] s t)) ∧
  (∀ (s : State) (l : Nat),
      s.live = true →
      l < 2 →
      s.linkState l = 5 →
      Completes (.nelarEnable l) s (fun t => t.get (R.NELAR_STAT_REFUSED l) = 1 ∧ t = { s with regs := t.regs } ∧ OnlyFields [R.NELAR_STAT_REFUSED l] s t)) ∧
  (∀ (s : State) (l : Nat),
      s.live = true →
      l < 2 →
      s.linkState l = 5 →
      s.linkState (1 - l) = 1 →
      (((s.link l).msgs.all (fun m => m.1.code != 0x51)) = true) →
      Completes (.nelarDrainTimeout l) s (fun t => t.linkState l = 6 ∧ t.link l = { Link.reset with presets := (s.link l).presets } ∧ t.link (1 - l) = s.link (1 - l) ∧
        t.nelar.notices = s.nelar.notices ++ (s.link l).msgs.map (fun m => { m.1 with resent := true }) ∧
        t = { s with regs := t.regs, nelar := { s.nelar with linkA := t.nelar.linkA, linkB := t.nelar.linkB, notices := t.nelar.notices } } ∧
        OnlyFields [R.NELAR_STAT_STATE l] s t))

/-- A new request is admitted, a repeated one gets its held response again, a stale one is refused. (R370, R372, R373, R374, R375, Table 15-6, Table 15-7, 15_nelar.md) -/
def Obligations.RequestsAreAdmittedOnce : Prop :=
  (∀ (s : State) (h : Hdr) (code : Nat) (nelar mgmt lengthOk : Bool) (f : List Byte → Bool),
      s.pathUp h.path = true →
      s.bootState ≠ 4 →
      s.inInbox h code f = false →
      h.resp = false →
      h.chip = s.chip →
      h.path.isNelar = true →
      s.linkState h.path.linkIndex = 4 →
      s.flag R.NELAR_CHIP_RID_VALID = false ∨ 2 ^ 31 ≤ s.ridAge h.reqId →
      h.reqId < 2 ^ 32 →
      (tget h.reqId (s.vet h code nelar mgmt lengthOk f).1.nelar.requests).map (fun r => (r.path, r.code)) = some (h.path, code) ∧
      (s.vet h code nelar mgmt lengthOk f).1.get R.NELAR_CHIP_HIGH_RID = h.reqId ∧ (s.vet h code nelar mgmt lengthOk f).1.get R.NELAR_CHIP_RID_VALID = 1 ∧
      (s.vet h code nelar mgmt lengthOk f).2 = (!h.reserved && lengthOk && decide (h.length ≤ 16384) && decide (h.length % 8 = 0) && nelar) ∧
      ((tget h.reqId (s.vet h code nelar mgmt lengthOk f).1.nelar.requests).bind (fun r => r.answer)) =
        (if !h.reserved && lengthOk && decide (h.length ≤ 16384) && decide (h.length % 8 = 0) then (if nelar then none else some (code, statusBody .permission (s.refusalRest code))) else some (code, statusBody .format (s.refusalRest code))) ∧
      (s.vet h code nelar mgmt lengthOk f).1.mem = s.mem ∧ (s.vet h code nelar mgmt lengthOk f).1.work = s.work ∧ (s.vet h code nelar mgmt lengthOk f).1.security = s.security) ∧
  (∀ (s : State) (h : Hdr) (code c : Nat) (body : List Byte) (r : Held) (nelar mgmt lengthOk : Bool) (f : List Byte → Bool),
      s.pathUp h.path = true →
      s.bootState ≠ 4 →
      s.inInbox h code f = false →
      h.resp = false →
      h.chip = s.chip →
      h.path = .nelarA →
      s.linkState 0 = 4 →
      s.flag R.NELAR_CHIP_RID_VALID = true →
      s.ridAge h.reqId < 65536 →
      tget h.reqId s.nelar.requests = some r →
      r.answer = some (c, body) →
      tget h.reqId s.xlat.acked = none →
      (s.vet h code nelar mgmt lengthOk f).2 = false ∧
      ((s.vet h code nelar mgmt lengthOk f).1.nelar.linkA.msgs.map (fun m => m.1)) =
        s.nelar.linkA.msgs.map (fun m => m.1) ++ [{ code := respCode c, resp := true, resent := true, reqId := h.reqId, body := body }] ∧
      (s.vet h code nelar mgmt lengthOk f).1 = { s with nelar := (s.vet h code nelar mgmt lengthOk f).1.nelar, out := (s.vet h code nelar mgmt lengthOk f).1.out }) ∧
  (∀ (s : State) (h : Hdr) (code : Nat) (nelar mgmt lengthOk : Bool) (f : List Byte → Bool),
      s.pathUp h.path = true →
      s.bootState ≠ 4 →
      s.inInbox h code f = false →
      h.resp = false →
      h.chip = s.chip →
      h.path = .nelarA →
      s.linkState 0 = 4 →
      s.flag R.NELAR_CHIP_RID_VALID = true →
      65536 ≤ s.ridAge h.reqId ∧ s.ridAge h.reqId < 2 ^ 31 →
      (s.vet h code nelar mgmt lengthOk f).2 = false ∧
      (s.vet h code nelar mgmt lengthOk f).1.get (R.NELAR_COUNT_STALE 0) = min (s.get (R.NELAR_COUNT_STALE 0) + 1) (2 ^ 16 - 1) ∧
      ((s.vet h code nelar mgmt lengthOk f).1.nelar.linkA.msgs.map (fun m => m.1)) =
        s.nelar.linkA.msgs.map (fun m => m.1) ++ [{ code := respCode code, resp := true, resent := false, reqId := h.reqId, body := packBytes [(8, Err.code .resource), (8, 1), (16, 0), (32, s.get R.NELAR_CHIP_HIGH_RID)] ++ s.refusalRest code }] ∧
      (s.vet h code nelar mgmt lengthOk f).1 = { s with regs := (s.vet h code nelar mgmt lengthOk f).1.regs, fresh := s.fresh + 1, nelar := (s.vet h code nelar mgmt lengthOk f).1.nelar, out := (s.vet h code nelar mgmt lengthOk f).1.out })

/-- Registers are read and written by the type of each field. (R378, R414, R437, R463, R464, R465, R466, R467, Table 20-2, 20_registers.md) -/
def Obligations.RegistersAreReadAndWritten : Prop :=
  (∀ (s : State) (h : Hdr) (addr countM1 : Nat),
      (Taken s h 1 (fun x => regBody x == (addr, countM1, false))) →
      regErr addr countM1 false = .none →
      Completes (.regRead h addr countM1 false) s (fun t => Replied t h 1 .none ((s.readRegs h.path addr (countM1 + 1)).2.flatMap (leBytes 8)) ∧ t = { s with regs := t.regs, nelar := t.nelar, out := t.out, fresh := t.fresh } ∧
        OnlyFields [R.GLB_RSVD_COUNT, R.GLB_RSVD_LAST_ADDR] s t)) ∧
  (∀ (s : State) (h : Hdr) (addr countM1 : Nat) (reserved : Bool) (e : Err),
      (Taken s h 1 (fun x => regBody x == (addr, countM1, reserved))) →
      regErr addr countM1 reserved = e →
      e ≠ .none →
      Completes (.regRead h addr countM1 reserved) s (fun t => Replied t h 1 e [] ∧ t = { s with nelar := t.nelar, out := t.out })) ∧
  (∀ (s : State) (h : Hdr) (v : Nat),
      (Taken s h 2 (fun x => regBody x == (851984, 0, false) && regValues x == [v])) →
      Completes (.regWrite h 851984 0 [v] false) s (fun t => t.get R.PARSER_LIMITS_PLANE_HI = min 100 (max 1 (bits v 39 32)) ∧ t.get R.PARSER_LIMITS_PLANE_LO = min 99 (bits v 31 24) ∧
        t.get R.PARSER_LIMITS_REMOTE_MIN = max 1 (bits v 23 16) ∧ t.get R.PARSER_LIMITS_NEAR_RESERVE = bits v 15 0 ∧ Replied t h 2 .none [] ∧
        t = { s with regs := t.regs, nelar := t.nelar, out := t.out } ∧
        OnlyFields [R.PARSER_LIMITS_PLANE_HI, R.PARSER_LIMITS_PLANE_LO, R.PARSER_LIMITS_REMOTE_MIN, R.PARSER_LIMITS_NEAR_RESERVE] s t)) ∧
  (∀ (s : State) (h : Hdr) (addr countM1 : Nat) (values : List Nat) (reserved : Bool) (e : Err),
      (Taken s h 2 (fun x => regBody x == (addr, countM1, reserved) && regValues x == values)) →
      regErr addr countM1 reserved = e →
      e ≠ .none →
      Completes (.regWrite h addr countM1 values reserved) s (fun t => Replied t h 2 e [] ∧ t = { s with nelar := t.nelar, out := t.out })) ∧
  (∀ (s : State) (path : Path) (v : Nat),
      s.manageable = true →
      s.frozen = none →
      s.home.finished = [] →
      s.flag R.GLB_LOCK_LOCKED = true →
      Completes (.registerWrite path 786480 v) s (fun t => t.get R.XLAT_FB_CTL_LINK = bits v 29 28 ∧ t.get R.GLB_LOCK_DENIED = min (s.get R.GLB_LOCK_DENIED + 1) (2 ^ R.GLB_LOCK_DENIED.width - 1) ∧
        t = { s with regs := t.regs } ∧ OnlyFields [R.XLAT_FB_CTL_LINK, R.GLB_LOCK_DENIED] s t)) ∧
  (∀ (s : State) (path : Path) (i v : Nat),
      s.manageable = true →
      s.frozen = none →
      s.home.finished = [] →
      i < 2 →
      Completes (.registerWrite path (458776 + i * 32768) v) s (fun t => t.get (R.NELAR_COUNT_REPLAYS i) = (if bits v 63 48 = 0 then s.get (R.NELAR_COUNT_REPLAYS i) else 0) ∧
        t.get (R.NELAR_COUNT_CRC_FAIL i) = (if bits v 47 32 = 0 then s.get (R.NELAR_COUNT_CRC_FAIL i) else 0) ∧
        t.get (R.NELAR_COUNT_RETRAINS i) = (if bits v 31 16 = 0 then s.get (R.NELAR_COUNT_RETRAINS i) else 0) ∧
        t.get (R.NELAR_COUNT_STALE i) = (if bits v 15 0 = 0 then s.get (R.NELAR_COUNT_STALE i) else 0) ∧ t = { s with regs := t.regs } ∧
        OnlyFields [R.NELAR_COUNT_REPLAYS i, R.NELAR_COUNT_CRC_FAIL i, R.NELAR_COUNT_RETRAINS i, R.NELAR_COUNT_STALE i] s t)) ∧
  (∀ (s : State) (path : Path) (a v : Nat),
      s.manageable = true →
      s.frozen = none →
      s.home.finished = [] →
      a % 8 = 0 ∧ a < 2 ^ 25 →
      s.reservedAt a = true →
      Completes (.registerWrite path a v) s (fun t => t.get R.GLB_RSVD_COUNT = min (s.get R.GLB_RSVD_COUNT + 1) (2 ^ R.GLB_RSVD_COUNT.width - 1) ∧ t.get R.GLB_RSVD_LAST_ADDR = a % 2 ^ R.GLB_RSVD_LAST_ADDR.width ∧
        t = { s with regs := t.regs } ∧ OnlyFields [R.GLB_RSVD_COUNT, R.GLB_RSVD_LAST_ADDR] s t))

/-- Partitions are created, drained, disabled and measured. (R36, R165, R382, R383, R385, R386, R396, R398, R442, R446, Table 16-4, 16_security.md) -/
def Obligations.PartitionsAreCreatedAndDisabled : Prop :=
  (∀ (s : State) (h : Hdr) (b : PartCreate),
      (Taken s h 0x10 (fun x => partCreateOf x == b)) →
      h.length = 64 →
      b.partition < 4096 →
      s.partCreateErr b = .none →
      Completes (.partCreate h b) s (fun t => t.get (R.PART_STATE_STATE b.partition) = 1 ∧ t.get (R.PART_STATE_KEY_EPOCH b.partition) = (s.get (R.PART_STATE_KEY_EPOCH b.partition) + 1) % 2 ^ (R.PART_STATE_KEY_EPOCH b.partition).width ∧
        Replied t h 0x10 .none (packBytes [(32, t.get (R.PART_STATE_KEY_EPOCH b.partition)), (32, 0)]) ∧
        tget b.partition t.security.parts = some { body := b, keys := PartKeys.derive (leBytes 32 (Config.partitionKey s.security.keysDrawn)), drainedOnce := false, drains := [], warmup := 0 } ∧
        t.security.keysDrawn = s.security.keysDrawn + 1 ∧ tget b.partition t.security.vlogs = none ∧
        t.get (R.PART_QUEUES_QUEUE_FIRST b.partition) = b.queueFirst % 2 ^ (R.PART_QUEUES_QUEUE_FIRST b.partition).width ∧
        t.get (R.PART_QUEUES_QUEUE_COUNT b.partition) = b.queueCount % 2 ^ (R.PART_QUEUES_QUEUE_COUNT b.partition).width ∧
        t.get (R.PART_COUNTERS_CTR_FIRST b.partition) = b.ctrFirst % 2 ^ (R.PART_COUNTERS_CTR_FIRST b.partition).width ∧
        t.get (R.PART_COUNTERS_CTR_COUNT b.partition) = b.ctrCount % 2 ^ (R.PART_COUNTERS_CTR_COUNT b.partition).width ∧
        t.get (R.PART_WINDOWS_WIN_FIRST b.partition) = b.winFirst % 2 ^ (R.PART_WINDOWS_WIN_FIRST b.partition).width ∧
        t.get (R.PART_WINDOWS_WIN_COUNT b.partition) = b.winCount % 2 ^ (R.PART_WINDOWS_WIN_COUNT b.partition).width ∧
        t.get (R.CONJ_PART_QUOTA b.partition) = b.slotQuota % 2 ^ (R.CONJ_PART_QUOTA b.partition).width ∧
        t.get (R.PART_MEM_QUOTA_NEAR_QUOTA b.partition) = b.nearQuota % 2 ^ (R.PART_MEM_QUOTA_NEAR_QUOTA b.partition).width ∧
        t.get (R.PART_MEM_QUOTA_FAR_QUOTA b.partition) = b.farQuota % 2 ^ (R.PART_MEM_QUOTA_FAR_QUOTA b.partition).width ∧
        t.get (R.PART_OUTSTANDING_QUOTA b.partition) = b.outstanding % 2 ^ (R.PART_OUTSTANDING_QUOTA b.partition).width ∧
        t.get (R.XLAT_TENSE_TENSE b.partition) = 0 ∧ t.get (R.PWR_ENERGY_NJ b.partition) = 0 ∧ t.get (R.PART_VLOG_ENTRIES b.partition) = 0 ∧ t.get (R.PART_VLOG_COUNT b.partition) = 0 ∧
        (∀ n : Nat, n < b.ctrFirst + b.ctrCount → b.ctrFirst ≤ n → t.counter n = 0) ∧ (∀ n : Nat, n < b.ctrFirst → t.counter n = s.counter n) ∧
        t.mem = s.mem ∧ t = { s with regs := t.regs, security := t.security, work := { s.work with counters := t.work.counters }, nelar := t.nelar, out := t.out, fresh := t.fresh, power := { s.power with fractions := terase b.partition s.power.fractions } } ∧
        OnlyFields [R.PWR_ENERGY_NJ b.partition, R.PART_STATE_STATE b.partition, R.PART_STATE_KEY_EPOCH b.partition, R.PART_STATE_TC b.partition, R.PART_QUEUES_QUEUE_FIRST b.partition, R.PART_QUEUES_QUEUE_COUNT b.partition, R.PART_COUNTERS_CTR_FIRST b.partition, R.PART_COUNTERS_CTR_COUNT b.partition, R.PART_WINDOWS_WIN_FIRST b.partition, R.PART_WINDOWS_WIN_COUNT b.partition, R.CONJ_PART_QUOTA b.partition, R.CONJ_PART_SPILL_QUOTA b.partition, R.PART_MEM_QUOTA_NEAR_QUOTA b.partition, R.PART_MEM_QUOTA_FAR_QUOTA b.partition, R.PART_OUTSTANDING_QUOTA b.partition, R.XLAT_TENSE_TENSE b.partition, R.PART_VLOG_ENTRIES b.partition, R.PART_VLOG_COUNT b.partition] s t)) ∧
  (∀ (s : State) (h : Hdr) (b : PartCreate) (e : Err),
      (Taken s h 0x10 (fun x => partCreateOf x == b)) →
      h.length = 64 →
      s.partCreateErr b = e →
      e ≠ .none →
      Completes (.partCreate h b) s (fun t => ((tget h.reqId t.nelar.requests).bind (fun r => r.answer)).map (fun a => (a.1, a.2.take 8)) = some (0x10, statusBody e) ∧
        t = { s with nelar := t.nelar, out := t.out, fresh := t.fresh })) ∧
  (∀ (s : State) (h : Hdr) (p : Nat) (r : PartRec),
      (Taken s h 0x11 (fun x => partDrainOf x == (p, false))) →
      h.length = 8 →
      p < 4096 →
      s.get (R.PART_STATE_STATE p) = 1 →
      tget p s.security.parts = some r →
      s.partQueues p = [] →
      s.parser.dir = [] →
      (s.parser.replicas.filter (fun x => x.2.partition == p) = []) →
      Completes (.partDrain h p false) s (fun t => t.get (R.PART_STATE_STATE p) = 2 ∧ tget p t.security.parts = some { r with drains := r.drains ++ [(h.path, h.reqId)] } ∧
        t.nelar.requests = s.nelar.requests ∧ t = { s with regs := t.regs, security := { s.security with parts := t.security.parts }, nelar := { s.nelar with inbox := t.nelar.inbox } } ∧
        OnlyFields [R.PART_STATE_STATE p] s t)) ∧
  (∀ (s : State) (h : Hdr) (p : Nat) (r : PartRec),
      (Taken s h 0x11 (fun x => partDrainOf x == (p, false))) →
      h.length = 8 →
      s.get (R.PART_STATE_STATE p) = 0 →
      tget p s.security.parts = some r →
      Completes (.partDrain h p false) s (fun t => Replied t h 0x11 (if r.drainedOnce then .none else .partition) [] ∧ t = { s with nelar := t.nelar, out := t.out })) ∧
  (∀ (s : State) (p id : Nat) (path : Path) (r : PartRec),
      s.live = true →
      s.home.finished = [] →
      p < 4096 →
      s.get (R.PART_STATE_STATE p) = 2 →
      s.partEmpty p = true →
      tget p s.security.parts = some { r with drains := [(path, id)] } →
      (tget id s.nelar.requests).isSome = true →
      (s.xlat.pageMap.all (fun e => decide (e.2.partition = p → e.2.chip = s.chip)) = true) →
      s.coll.groups = [] →
      s.work.clauses = [] →
      Completes (.partitionDisabled p) s (fun t => t.get (R.PART_STATE_STATE p) = 0 ∧ tget p t.security.parts = some { r with keys := PartKeys.none, drainedOnce := true, drains := [] } ∧
        (tget id t.nelar.requests).map (fun x => x.answer) = some (some (0x11, statusBody .none)) ∧
        t.xlat.pageMap = s.xlat.pageMap.filter (fun e => e.2.partition != p) ∧ t.xlat.windows = s.xlat.windows.filter (fun e => e.2.partition != p) ∧
        t.xlat.faults = s.xlat.faults.filter (fun f => f.partition != p) ∧ t.get (R.CONJ_PART_QUOTA p) = 0 ∧ t.get (R.PART_MEM_QUOTA_NEAR_QUOTA p) = 0 ∧
        t.get (R.PART_MEM_QUOTA_FAR_QUOTA p) = 0 ∧ t.get (R.PART_OUTSTANDING_QUOTA p) = 0 ∧
        (∀ i < 32, ∀ j < 4096, s.get (R.EDGE_PASID_PARTITION i j) = p → t.get (R.EDGE_PASID_VALID i j) ≠ 1) ∧
        t.parser.replicas = s.parser.replicas.filter (fun x => x.2.partition != p) ∧ t.mem = s.mem ∧ t.work.clauses = s.work.clauses ∧ t.edge = s.edge ∧ t.fabric = s.fabric ∧ t.home = s.home)) ∧
  (∀ (s : State) (p id : Nat) (d : DirectRec),
      s.live = true →
      s.home.finished = [] →
      p < 4096 →
      s.get (R.PART_STATE_STATE p) = 2 →
      s.edge.directs = [(id, d)] →
      d.partition = p →
      d.port < 32 →
      s.get (R.EDGE_STAT_STATE d.port) = 2 →
      s.work.clauses = [] →
      s.xlat.installs = [] →
      s.xlat.homeFills = [] →
      s.security.loads = [] →
      s.home.ops = [] →
      s.home.lockWait = [] →
      s.home.farWait = [] →
      s.home.writeQueue = [] →
      s.home.orderWait = [] →
      s.home.quietWait = [] →
      s.home.writeTable = [] →
      s.parser.migrations = [] →
      s.fabric.track = [] →
      s.fabric.waitTag = [] →
      Completes (.partitionDrainTimeout p) s (fun t => t.edge.directs = [] ∧ .completion d.port d.tag .abort .aborted [] ∈ t.out ∧ t.get R.FAULT_ECC_ABORTS = min (s.get R.FAULT_ECC_ABORTS + 1) (2 ^ R.FAULT_ECC_ABORTS.width - 1) ∧
        t.tele.log.head?.map (fun e => (e.event, e.addr, e.partition, e.code)) = some (1, d.addr, p, 6) ∧ t.get (R.PART_STATE_STATE p) = 2 ∧ t.mem = s.mem ∧ t.xlat = s.xlat ∧ t.security = s.security)) ∧
  (∀ (s : State) (h : Hdr) (b : WeightLoad) (e : Extent),
      (Taken s h 0x14 (fun x => weightLoadOf x == b)) →
      h.length = 32 →
      s.weightErr b = .none →
      topErr [⟨b.pkgFva, b.pkgLen, [0]⟩] = none →
      s.xlRanges b.partition [⟨b.pkgFva, b.pkgLen, [0]⟩] = { bad := none, extents := [e], lacking := [] } →
      e.fva = b.pkgFva ∧ 160 ≤ e.len →
      e.fpa % 4096 + 160 ≤ 4096 →
      fpaChip e.fpa ≠ s.chip →
      s.unreachable (fpaChip e.fpa) = false →
      s.poisonedIn b.partition 0 b.pkgFva [(e.fpa, 160)] = false →
      s.replicaOf e.fpa = none →
      s.fabric.waitTag = [] →
      s.get (R.PART_OUTSTANDING_USED b.partition) < s.get (R.PART_OUTSTANDING_QUOTA b.partition) →
      s.fabric.track.length < 131072 →
      Completes (.weightLoad h b) s (fun t => (tget (h.path.code * 2 ^ 64 + h.reqId) t.security.loads).map (fun l => (l.path, l.reqId, l.body, l.chunks)) = some (h.path, h.reqId, b, 0) ∧
        (tget (firstGap 0 s.fabric.track) t.fabric.track).map (fun x => (x.dest, x.opcode, x.cont)) = some (e.fpa, 1, .weight (h.path.code * 2 ^ 64 + h.reqId) 0) ∧
        t.mem = s.mem ∧ t.xlat = s.xlat ∧ t.work = s.work ∧ t.nelar.requests = s.nelar.requests)) ∧
  (∀ (s : State) (h : Hdr) (b : WeightLoad) (e : Err),
      (Taken s h 0x14 (fun x => weightLoadOf x == b)) →
      h.length = 32 →
      s.weightErr b = e →
      e ≠ .none →
      Completes (.weightLoad h b) s (fun t => Replied t h 0x14 e (leBytes 8 0) ∧ t = { s with nelar := t.nelar, out := t.out })) ∧
  (∀ (s : State) (h : Hdr) (nonce : List Byte) (p : Nat) (partEn : Bool),
      (Taken s h 0x18 (fun x => attestOf x == (nonce, p, partEn, false))) →
      h.length = 40 →
      Completes (.attestReq h nonce p partEn false) s (fun t => Replied t h 0x18 .none (s.report nonce (if partEn then some p else none)) ∧ t = { s with nelar := t.nelar, out := t.out }))

/-- Pages and windows are installed, withdrawn and acknowledged. (R38, R39, R45, R63, R65, R66, R70, R75, R79, R82, R357, 03_mapping.md) -/
def Obligations.PagesAndWindowsComeAndGo : Prop :=
  (∀ (s : State) (h : Hdr) (b : MapInstall) (k : Nat) (taken : Bool),
      (Taken s h 0x20 (fun x => mapInstallOf x == b)) →
      h.length = 16 →
      mapFormat b = false →
      b.partition < 4096 →
      s.partErr b.partition = .none →
      s.pmFind b.partition b.page = none →
      s.xlat.installs = [] →
      s.setLoad b.partition b.page < 16 →
      fpaChip b.frameFpa = s.chip →
      s.homeFrame b.partition b.page b.frameMode b.frameFpa false = (.none, k, taken) →
      s.pendingFault b.partition b.page = none →
      Completes (.mapInstall h b) s (fun t => tget k t.xlat.frames = some { owner := b.partition, page := b.page, use := .page } ∧
        t.xlat.installs = [newInstall b h.path h.reqId (keyFpa s.chip k) false none] ∧ t.nelar.requests = s.nelar.requests ∧ t.xlat.pageMap = s.xlat.pageMap ∧
        t = { s with regs := t.regs, xlat := { s.xlat with frames := t.xlat.frames, installs := t.xlat.installs }, nelar := { s.nelar with inbox := t.nelar.inbox }, fresh := s.fresh + 1 } ∧
        OnlyFields [R.PARSER_PART_NEAR_USED b.partition, R.PART_FAR_USED_USED b.partition] s t)) ∧
  (∀ (s : State) (h : Hdr) (b : MapInstall) (i : Nat) (e : PmEntry),
      (Taken s h 0x20 (fun x => mapInstallOf x == b)) →
      h.length = 16 →
      mapFormat b = false →
      s.partErr b.partition = .none →
      s.pmFind b.partition b.page = some (i, e) →
      Completes (.mapInstall h b) s (fun t => ((tget h.reqId t.nelar.requests).bind (fun r => r.answer)).map (fun a => (a.1, a.2.take 8)) = some (0x20, statusBody (if e.sameAs b then .none else .resource)) ∧
        t = { s with nelar := t.nelar, out := t.out, fresh := s.fresh + 1 })) ∧
  (∀ (s : State) (b : MapInstall) (path : Path) (id k w : Nat),
      s.live = true →
      Calm s →
      s.tileLines (keyFpa s.chip k / 128) 16384 = [] →
      s.home.sharers = [] →
      s.chip < 2 ^ 15 →
      tget k s.xlat.homeFills = none →
      s.xlat.installs = [newInstall b path id (keyFpa s.chip k) false none] →
      k / 2 ^ 22 < 64 →
      (tget id s.nelar.requests).isSome = true →
      s.pmFind b.partition b.page = none →
      s.freeWay b.partition b.page = some w →
      s.pendingFault b.partition b.page = none →
      Completes (.zeroFillDone (keyFpa s.chip k)) s (fun t => (tget w t.xlat.pageMap).map (fun e => (e.partition, e.page, e.fpa, e.perm, e.installTense, e.poison)) = some (b.partition, b.page, keyFpa s.chip k, b.perm, s.tense b.partition, false) ∧
        (∀ off < 2097152, memGet t.mem (k * 2 ^ 21 + off) = 0#8) ∧ (∀ a : Nat, a / 2 ^ 21 ≠ k → memGet t.mem a = memGet s.mem a) ∧
        (tget id t.nelar.requests).map (fun r => r.answer) = some (some (0x20, statusBody .none (leBytes 8 (keyFpa s.chip k)))) ∧ t.xlat.installs = [] ∧
        t = { s with mem := t.mem, xlat := { s.xlat with pageMap := t.xlat.pageMap, installs := [] }, home := { s.home with poisoned := t.home.poisoned, badTags := t.home.badTags }, nelar := t.nelar, out := t.out, fresh := s.fresh + 1 })) ∧
  (∀ (s : State) (h : Hdr) (b : MapWithdraw),
      (Taken s h 0x21 (fun x => mapWithdrawOf x == b)) →
      h.length = 16 →
      withdrawFormat b = false →
      b.partition < 4096 →
      s.partErr b.partition ≠ .partition →
      s.withdrawBusy b.partition = false →
      s.parser.migrations = [] →
      s.parser.dir = [] →
      s.work.clauses = [] →
      s.security.loads = [] →
      Completes (.mapWithdraw h b) s (fun t => (∀ n < b.countM1 + 1, ((s.pmFind b.partition (b.firstPage + n)).bind (fun x => tget x.1 t.xlat.pageMap)) = none) ∧
        t.get (R.XLAT_TENSE_TENSE b.partition) = (s.get (R.XLAT_TENSE_TENSE b.partition) + 1) % 2 ^ 8 ∧
        t.get (R.XLAT_TENSE_PENDING_WD b.partition) = (s.get (R.XLAT_TENSE_PENDING_WD b.partition) + 1) % 2 ^ (R.XLAT_TENSE_PENDING_WD b.partition).width ∧
        Replied t h 0x21 .none (packBytes [(8, t.tense b.partition), (16, (List.range (b.countM1 + 1)).countP (fun n => (s.pmFind b.partition (b.firstPage + n)).isSome)), (40, 0)]) ∧
        (t.xlat.withdrawals.getLast?.map (fun w => (w.id, w.partition, w.tense, w.entries.length, w.abort))) = some (h.reqId, b.partition, t.tense b.partition, b.countM1 + 1, b.abort) ∧
        t.mem = s.mem ∧ t = { s with regs := t.regs, xlat := { s.xlat with pageMap := t.xlat.pageMap, frames := t.xlat.frames, withdrawals := t.xlat.withdrawals }, nelar := t.nelar, out := t.out, fresh := t.fresh } ∧
        OnlyFields [R.XLAT_TENSE_TENSE b.partition, R.XLAT_TENSE_PENDING_WD b.partition] s t)) ∧
  (∀ (s : State) (w : Withdrawal) (e : WdEntry) (r : FrameRec),
      s.live = true →
      s.home.finished = [] →
      w.partition < 4096 →
      s.get R.NELAR_CHIP_NOTIFY < 2 →
      s.linkState (s.get R.NELAR_CHIP_NOTIFY) = 4 →
      s.xlat.withdrawals = [w] →
      w.hold = [] →
      w.window = none →
      w.entries = [e] →
      e.mapped = true →
      fpaChip e.frameFpa = s.chip →
      s.frameRec (frameKey e.frameFpa) = some r →
      r.use = .withheld →
      r.owner < 4096 →
      s.pmFind r.owner r.page = none →
      s.parser.dir = [] →
      s.xlat.lostParts = [] →
      Completes (.withdrawalAcked w.id) s (fun t => t.xlat.withdrawals = [] ∧ t.frameRec (frameKey e.frameFpa) = none ∧ (tget w.id t.xlat.acked).isSome = true ∧
        ((t.link (s.get R.NELAR_CHIP_NOTIFY)).msgs.getLast?.map (fun m => (m.1.code, m.1.resp, m.1.reqId, m.1.body.drop 16))) = some (0x29, false, s.nelar.nextOwn, packBytes [(1, 1), (1, 1), (1, b2n e.poisoned), (18, 0), (43, e.frameFpa / 2 ^ 21)]) ∧
        t.get (R.XLAT_TENSE_PENDING_WD w.partition) = (s.get (R.XLAT_TENSE_PENDING_WD w.partition) - 1) % 2 ^ (R.XLAT_TENSE_PENDING_WD w.partition).width ∧
        t.mem = s.mem ∧ t.xlat.pageMap = s.xlat.pageMap ∧ t.work = s.work ∧ t.security = s.security ∧
        OnlyFields [R.XLAT_TENSE_PENDING_WD w.partition, R.PARSER_PART_NEAR_USED r.owner, R.PART_FAR_USED_USED r.owner] s t)) ∧
  (∀ (s : State) (h : Hdr) (p page : Nat),
      (Taken s h 0x22 (fun x => faultRejectOf x == (p, page, false))) →
      h.length = 8 →
      s.partErr p ≠ .partition →
      s.work.clauses = [] →
      Completes (.faultReject h p page false) s (fun t => t.xlat.faults = s.xlat.faults.filter (fun f => !f.is p page) ∧ Replied t h 0x22 .none (leBytes 8 0) ∧ t.mem = s.mem ∧
        t = { s with xlat := { s.xlat with faults := t.xlat.faults }, tele := { s.tele with hists := t.tele.hists }, nelar := t.nelar, out := t.out, fresh := s.fresh + 1 })) ∧
  (∀ (s : State) (h : Hdr) (p slot : Nat) (abort reserved : Bool) (w : WinEntry) (e : Err),
      (Taken s h 0x23 (fun x => winBody x == (p, slot, abort, reserved) && winEntryOf (x.drop 8) == w)) →
      h.length = 72 →
      s.winInstallErr p slot abort w reserved = e →
      Completes (.winInstall h p slot abort w reserved) s (fun t => Replied t h 0x23 e [] ∧ tget (s.winIndex p slot) t.xlat.windows = (if e = .none then some w else tget (s.winIndex p slot) s.xlat.windows) ∧
        (∀ n : Nat, n ≠ s.winIndex p slot → tget n t.xlat.windows = tget n s.xlat.windows) ∧
        t = { s with xlat := { s.xlat with windows := t.xlat.windows }, nelar := t.nelar, out := t.out })) ∧
  (∀ (s : State) (h : Hdr) (p slot : Nat) (abort : Bool) (w : WinEntry),
      (Taken s h 0x24 (fun x => winBody x == (p, slot, abort, false))) →
      h.length = 8 →
      p < 4096 →
      s.partErr p ≠ .partition →
      slot < s.get (R.PART_WINDOWS_WIN_COUNT p) →
      s.withdrawBusy p = false →
      tget (s.winIndex p slot) s.xlat.windows = some w →
      w.replicable = false →
      s.work.clauses = [] →
      s.security.loads = [] →
      Completes (.winRemove h p slot abort false) s (fun t => tget (s.winIndex p slot) t.xlat.windows = none ∧ (∀ n : Nat, n ≠ s.winIndex p slot → tget n t.xlat.windows = tget n s.xlat.windows) ∧
        t.xlat.winWithdrawing = s.winIndex p slot :: s.xlat.winWithdrawing ∧ t.get (R.XLAT_TENSE_TENSE p) = (s.get (R.XLAT_TENSE_TENSE p) + 1) % 2 ^ 8 ∧
        Replied t h 0x24 .none (packBytes [(8, t.tense p), (16, 1), (40, 0)]) ∧ (t.xlat.withdrawals.getLast?.map (fun w => (w.id, w.partition, w.window))) = some (h.reqId, p, some (s.winIndex p slot)) ∧
        t = { s with regs := t.regs, xlat := { s.xlat with windows := t.xlat.windows, winWithdrawing := t.xlat.winWithdrawing, withdrawals := t.xlat.withdrawals }, nelar := t.nelar, out := t.out, fresh := t.fresh } ∧
        OnlyFields [R.XLAT_TENSE_TENSE p, R.XLAT_TENSE_PENDING_WD p] s t))

/-- Queues and groups are created, drained, reset and destroyed. (R167, R186, R187, R208, R239, R375, R442, R446, Table 7-2, Table 9-2, 07_clauses_and_queues.md, 09_collectives.md) -/
def Obligations.QueuesAndGroupsAreCreatedAndReleased : Prop :=
  (∀ (s : State) (h : Hdr) (b : QueueCreate) (e : Err),
      (Taken s h 0x30 (fun x => queueCreateOf x == b)) →
      h.length = 32 →
      b.queue < 32768 →
      s.queueCreateErr b = e →
      Completes (.queueCreate h b) s (fun t => Replied t h 0x30 e [] ∧ (e = .none → t.get (R.QPAGE_STATUS_STATE b.queue) = 1 ∧ t.get (R.QPAGE_SQ_HEAD b.queue) = 0 ∧ t.get (R.QPAGE_SQ_TAIL b.queue) = 0 ∧ t.get (R.QPAGE_CQ_TAIL b.queue) = 0 ∧ t.get (R.QPAGE_CQ_HEAD b.queue) = 0 ∧ t.get (R.QPAGE_STATUS_ERR b.queue) = 0 ∧ t.get (R.QPAGE_STATUS_FEED b.queue) = b2n b.engine ∧ t.get (R.QPAGE_STATUS_PARTITION b.queue) = b.partition % 2 ^ (R.QPAGE_STATUS_PARTITION b.queue).width ∧ t.queue b.queue = some (Queue.new b)) ∧
        (e ≠ .none → t = { s with nelar := t.nelar, out := t.out }) ∧ (∀ n : Nat, n ≠ b.queue → t.queue n = s.queue n) ∧
        t = { s with regs := t.regs, work := { s.work with queues := t.work.queues }, nelar := t.nelar, out := t.out } ∧
        OnlyFields [R.QPAGE_STATUS_STATE b.queue, R.QPAGE_SQ_HEAD b.queue, R.QPAGE_SQ_TAIL b.queue, R.QPAGE_CQ_TAIL b.queue, R.QPAGE_CQ_HEAD b.queue, R.QPAGE_STATUS_ERR b.queue, R.QPAGE_STATUS_FEED b.queue, R.QPAGE_STATUS_PARTITION b.queue] s t)) ∧
  (∀ (s : State) (h : Hdr) (q : Nat) (r : Queue),
      (Taken s h 0x31 (fun x => queueDrainOf x == (q, false))) →
      h.length = 8 →
      q < 32768 →
      s.get (R.QPAGE_STATUS_STATE q) = 1 →
      s.queue q = some r →
      r.held = false →
      Completes (.queueDrain h q false) s (fun t => t.get (R.QPAGE_STATUS_STATE q) = 2 ∧ t.get (R.QPAGE_STATUS_ERR q) = 0 ∧ t.queue q = some { r with drains := r.drains ++ [(h.path, h.reqId)] } ∧ (∀ n : Nat, n ≠ q → t.queue n = s.queue n) ∧
        t = { s with regs := t.regs, work := { s.work with queues := t.work.queues }, nelar := { s.nelar with inbox := t.nelar.inbox } } ∧ OnlyFields [R.QPAGE_STATUS_STATE q, R.QPAGE_STATUS_ERR q] s t)) ∧
  (∀ (s : State) (h : Hdr) (q : Nat),
      (Taken s h 0x31 (fun x => queueDrainOf x == (q, false))) →
      h.length = 8 →
      s.get (R.QPAGE_STATUS_STATE q) = 0 →
      Completes (.queueDrain h q false) s (fun t => Replied t h 0x31 .none [] ∧ t = { s with nelar := t.nelar, out := t.out })) ∧
  (∀ (s : State) (q id : Nat) (path : Path) (r : Queue),
      s.live = true →
      s.home.finished = [] →
      q < 32768 →
      s.get (R.QPAGE_STATUS_STATE q) = 2 →
      s.queueEmpty q = true →
      s.queue q = some r →
      r.drains = [(path, id)] →
      (tget id s.nelar.requests).isSome = true →
      Completes (.queueDisabled q) s (fun t => t.get (R.QPAGE_STATUS_STATE q) = 0 ∧ t.queue q = none ∧ (tget id t.nelar.requests).map (fun x => x.answer) = some (some (0x31, statusBody .none)) ∧ (∀ n : Nat, n ≠ q → t.queue n = s.queue n) ∧
        t = { s with regs := t.regs, work := { s.work with queues := t.work.queues }, nelar := t.nelar, out := t.out } ∧ OnlyFields [R.QPAGE_STATUS_STATE q] s t)) ∧
  (∀ (s : State) (q : Nat) (r : Queue),
      s.live = true →
      s.home.finished = [] →
      q < 32768 →
      s.get (R.QPAGE_STATUS_STATE q) = 2 →
      s.queue q = some r →
      r.writing = false →
      s.work.clauses = [] →
      s.fabric.track = [] →
      Completes (.queueDrainTimeout q) s (fun t => t.queue q = some { r with noFetch := true, expired := true, records := [] } ∧ t.get (R.QPAGE_STATUS_LOST q) = min (s.get (R.QPAGE_STATUS_LOST q) + r.records.countP (fun x => x.2 != [])) (2 ^ (R.QPAGE_STATUS_LOST q).width - 1) ∧
        (∀ n : Nat, n ≠ q → t.queue n = s.queue n) ∧ t = { s with regs := t.regs, work := { s.work with queues := t.work.queues } } ∧ OnlyFields [R.QPAGE_STATUS_LOST q] s t)) ∧
  (∀ (s : State) (h : Hdr) (b : GroupCreate) (e : Err),
      (Taken s h 0x38 (fun x => groupCreateOf x == b)) →
      h.length = 48 →
      s.groupCreateErr b = e →
      s.group b.group = none →
      Completes (.groupCreate h b) s (fun t => Replied t h 0x38 e [] ∧ t.group b.group = (if e = .none then some { body := b, state := 1, generation := (tget b.group s.coll.generations).getD 0, cause := 0, nextInst := [], inst := [] } else none) ∧
        (∀ n : Nat, n ≠ b.group → t.group n = s.group n) ∧ t = { s with coll := { s.coll with groups := t.coll.groups }, nelar := t.nelar, out := t.out })) ∧
  (∀ (s : State) (h : Hdr) (n p : Nat) (g : Group),
      (Taken s h 0x39 (fun x => groupBody x == (n, p, false))) →
      h.length = 8 →
      s.group n = some g →
      s.groupErr n p g = .none →
      Completes (.groupReset h n p false) s (fun t => Replied t h 0x39 .none [] ∧ t.group n = some { g with state := 1, cause := 0, generation := (g.generation + 1) % 16, nextInst := [], inst := [] } ∧
        (∀ m : Nat, m ≠ n → t.group m = s.group m) ∧ t = { s with coll := { s.coll with groups := t.coll.groups }, nelar := t.nelar, out := t.out })) ∧
  (∀ (s : State) (h : Hdr) (n p : Nat) (g : Group),
      (Taken s h 0x3A (fun x => groupBody x == (n, p, false))) →
      h.length = 8 →
      s.group n = some g →
      s.groupErr n p g = .none →
      Completes (.groupDestroy h n p false) s (fun t => Replied t h 0x3A .none [] ∧ t.group n = none ∧ tget n t.coll.generations = some g.generation ∧ (∀ m : Nat, m ≠ n → t.group m = s.group m) ∧
        t = { s with coll := { s.coll with groups := t.coll.groups, generations := t.coll.generations }, nelar := t.nelar, out := t.out })) ∧
  (∀ (s : State) (h : Hdr) (n p : Nat) (g : Group) (e : Err),
      (Taken s h 0x39 (fun x => groupBody x == (n, p, false)) ∧ h.length = 8) →
      s.group n = some g →
      s.groupErr n p g = e →
      e ≠ .none →
      Completes (.groupReset h n p false) s (fun t => Replied t h 0x39 e [] ∧ t = { s with nelar := t.nelar, out := t.out }))

/-- MODE_SELECT and CAP_SET are checked, applied and answered. (R413, R415, R416, R427, R429, Table 17-8, 17_boot.md, 18_power.md) -/
def Obligations.ModesAndCapsFollowSignedOrders : Prop :=
  (∀ (s : State) (h : Hdr) (b : ModeSelect) (e : Err) (cause : Nat),
      (Taken s h 0x40 (fun x => modeSelectOf x == b)) →
      h.length = 160 →
      s.modeErr b = some (e, cause) →
      Completes (.modeSelect h b) s (fun t => Replied t h 0x40 e (packBytes [(8, s.get R.BOOT_STAT_MODE), (56, 0)]) ∧ t.get R.BOOT_MODE_CAUSE_LAST_CAUSE = (if cause = 0 then s.get R.BOOT_MODE_CAUSE_LAST_CAUSE else cause % 2 ^ R.BOOT_MODE_CAUSE_LAST_CAUSE.width) ∧
        t = { s with regs := t.regs, nelar := t.nelar, out := t.out } ∧ OnlyFields [R.BOOT_MODE_CAUSE_LAST_CAUSE] s t)) ∧
  (∀ (s : State) (h : Hdr) (b : ModeSelect),
      (Taken s h 0x40 (fun x => modeSelectOf x == b)) →
      h.length = 160 →
      Completes (.modeSelect h b) s (fun t => (s.modeErr b = none ∧ b.mode = s.get R.BOOT_STAT_MODE → Replied t h 0x40 .none (packBytes [(8, s.get R.BOOT_STAT_MODE), (56, 0)]) ∧ t.get R.BOOT_MODE_SEQ_LAST_SEQ = b.seq % 2 ^ R.BOOT_MODE_SEQ_LAST_SEQ.width ∧ t = { s with regs := t.regs, nelar := t.nelar, out := t.out } ∧ OnlyFields [R.BOOT_MODE_SEQ_LAST_SEQ] s t) ∧
        (s.modeErr b = none ∧ b.mode ≠ s.get R.BOOT_STAT_MODE → t.boot.modeChange = some (b.mode, b.seq, h.path, h.reqId) ∧ t.get R.BOOT_STAT_MODE_PENDING = 1 ∧ t.nelar.requests = s.nelar.requests ∧ t = { s with regs := t.regs, boot := { s.boot with modeChange := t.boot.modeChange }, nelar := { s.nelar with inbox := t.nelar.inbox } } ∧ OnlyFields [R.BOOT_STAT_MODE_PENDING] s t))) ∧
  (∀ (s : State) (m seq id : Nat) (path : Path) (e : RegEntry) (f : Fld),
      s.live = true →
      s.home.finished = [] →
      s.boot.modeChange = some (m, seq, path, id) →
      s.isDrained = true →
      s.xlat.openBatch = [] →
      s.coll.groups = [] →
      s.parser.chosen = [] →
      (tget id s.nelar.requests).isSome = true →
      s.modeEntries (s.get R.BOOT_STAT_MODE) = [] →
      s.modeEntries m = [e] →
      entryFld e = some f →
      f.key ≠ R.BOOT_STAT_MODE.key ∧ f.key ≠ R.BOOT_MODE_SEQ_LAST_SEQ.key ∧ f.key ≠ R.BOOT_STAT_MODE_PENDING.key →
      Completes (.drainedPoint) s (fun t => t.get R.BOOT_STAT_MODE = m % 2 ^ R.BOOT_STAT_MODE.width ∧ t.get R.BOOT_MODE_SEQ_LAST_SEQ = seq % 2 ^ R.BOOT_MODE_SEQ_LAST_SEQ.width ∧ t.get R.BOOT_STAT_MODE_PENDING = 0 ∧ t.get f = e.value % 2 ^ f.width ∧ t.boot.modeChange = none ∧
        (tget id t.nelar.requests).map (fun r => r.answer) = some (some (0x40, statusBody .none (packBytes [(8, t.get R.BOOT_STAT_MODE), (56, 0)]))) ∧
        t = { s with regs := t.regs, boot := { s.boot with modeChange := none }, tele := { s.tele with hists := t.tele.hists }, nelar := t.nelar, out := t.out } ∧ OnlyFields [f, R.BOOT_STAT_MODE, R.BOOT_MODE_SEQ_LAST_SEQ, R.BOOT_STAT_MODE_PENDING] s t)) ∧
  (∀ (s : State) (m seq id : Nat) (path : Path),
      s.live = true →
      s.home.finished = [] →
      s.boot.modeChange = some (m, seq, path, id) →
      s.coll.groups = [] →
      s.parser.chosen = [] →
      (tget id s.nelar.requests).isSome = true →
      Completes (.modeChangeTimeout) s (fun t => t.boot.modeChange = none ∧ t.get R.BOOT_STAT_MODE_PENDING = 0 ∧ t.get R.BOOT_MODE_CAUSE_LAST_CAUSE = 7 ∧
        (tget id t.nelar.requests).map (fun r => r.answer) = some (some (0x40, statusBody .resource (packBytes [(8, s.get R.BOOT_STAT_MODE), (56, 0)]))) ∧
        t = { s with regs := t.regs, boot := { s.boot with modeChange := none }, nelar := t.nelar, out := t.out } ∧ OnlyFields [R.BOOT_STAT_MODE_PENDING, R.BOOT_MODE_CAUSE_LAST_CAUSE] s t)) ∧
  (∀ (s : State) (h : Hdr) (capW seq : Nat),
      (Taken s h 0x41 (fun x => capSetOf x == (capW, seq, false))) →
      h.length = 16 →
      capW ≤ 1050 ∧ s.floorCw ≤ 100 * capW →
      s.get R.PWR_CAP_SEQ_LAST_SEQ < seq →
      s.get R.PWR_STAT_CAP_W ≤ capW ∨ s.get R.PWR_STAT_MEAS_W ≤ capW + s.get R.PWR_CTL_STEP_W →
      Completes (.capSet h capW seq false) s (fun t => t.get R.PWR_STAT_CAP_W = capW ∧ t.get R.PWR_CAP_SEQ_LAST_SEQ = seq % 2 ^ R.PWR_CAP_SEQ_LAST_SEQ.width ∧ Replied t h 0x41 .none (packBytes [(16, capW), (48, 0)]) ∧
        t = { s with regs := t.regs, nelar := t.nelar, out := t.out } ∧ OnlyFields [R.PWR_STAT_CAP_W, R.PWR_CAP_SEQ_LAST_SEQ] s t)) ∧
  (∀ (s : State) (h : Hdr) (capW seq : Nat),
      (Taken s h 0x41 (fun x => capSetOf x == (capW, seq, false))) →
      h.length = 16 →
      capW ≤ 1050 ∧ s.floorCw ≤ 100 * capW →
      s.get R.PWR_CAP_SEQ_LAST_SEQ < seq →
      capW < s.get R.PWR_STAT_CAP_W ∧ capW + s.get R.PWR_CTL_STEP_W < s.get R.PWR_STAT_MEAS_W →
      s.flag R.PWR_STAT_BRAKE = false →
      Completes (.capSet h capW seq false) s (fun t => t.get R.PWR_STAT_CAP_W = capW ∧ t.get R.PWR_STAT_BRAKE = 1 ∧ t.power.causes = s.power.causes ||| 2 ∧ t.get R.PWR_COUNT_BRAKES = min (s.get R.PWR_COUNT_BRAKES + 1) (2 ^ 32 - 1) ∧ Replied t h 0x41 .none (packBytes [(16, capW), (48, 0)]) ∧
        t = { s with regs := t.regs, power := { s.power with causes := s.power.causes ||| 2, underSamples := 0, climbing := false }, nelar := t.nelar, out := t.out } ∧ OnlyFields [R.PWR_STAT_CAP_W, R.PWR_CAP_SEQ_LAST_SEQ, R.PWR_STAT_BRAKE, R.PWR_STAT_CAUSE, R.PWR_COUNT_BRAKES, R.PWR_STAT_LEVEL] s t)) ∧
  (∀ (s : State) (h : Hdr) (capW seq : Nat),
      (Taken s h 0x41 (fun x => capSetOf x == (capW, seq, false))) →
      h.length = 16 →
      1050 < capW ∨ 100 * capW < s.floorCw →
      Completes (.capSet h capW seq false) s (fun t => Replied t h 0x41 .bounds (packBytes [(16, s.get R.PWR_STAT_CAP_W), (48, 0)]) ∧ t = { s with nelar := t.nelar, out := t.out }))

/-- FREEZE_READ, datagrams, ARP, fragments and SMBus are served. (R375, R437, R438, R439, R470, R471, Table 18-8, Table 18-9, 18_clocks_power_freeze.md, 21_physical.md) -/
def Obligations.ManagementPortsAndSmbusServeRequests : Prop :=
  (∀ (s : State) (h : Hdr) (f : Frozen) (offset length : Nat),
      (s.pathUp h.path = true ∧ s.bootState ≠ 4 ∧ s.inInbox h 0x52 (fun x => freezeReadOf x == (offset, length, false)) = true ∧ (tget h.reqId s.nelar.requests).isSome = true) →
      s.frozen = some f →
      h.length = 16 →
      offset % 8 = 0 ∧ length % 8 = 0 ∧ 8 ≤ length ∧ length ≤ 16376 →
      offset + length ≤ imageLen →
      Completes (.freezeRead h offset length false) s (fun t => Replied t h 0x52 .none (s.imageWords f offset (length / 8)) ∧ t = { s with nelar := t.nelar, out := t.out })) ∧
  (∀ (s : State) (h : Hdr) (offset length : Nat) (reserved : Bool),
      (Taken s h 0x52 (fun x => freezeReadOf x == (offset, length, reserved))) →
      h.length = 16 →
      Completes (.freezeRead h offset length reserved) s (fun t => Replied t h 0x52 (if reserved = false ∧ offset % 8 = 0 ∧ length % 8 = 0 ∧ 8 ≤ length ∧ length ≤ 16376 then .disabled else .format) [] ∧ t = { s with nelar := t.nelar, out := t.out })) ∧
  (∀ (s : State) (p ip src : Nat) (payload : List Byte),
      p < 2 →
      s.portUp p = true →
      payload.length ≠ 16 + fieldAt payload 8 2 →
      Completes (.udpDatagram p ip src (s.ownIp p) (s.get R.GLB_MGMT_CTL_UDP_PORT) payload none) s (fun t => t.get R.GLB_MGMT_STAT_DROP_0 = (if p = 0 then min (s.get R.GLB_MGMT_STAT_DROP_0 + 1) (2 ^ R.GLB_MGMT_STAT_DROP_0.width - 1) else s.get R.GLB_MGMT_STAT_DROP_0) ∧
        t.get R.GLB_MGMT_STAT_DROP_1 = (if p = 1 then min (s.get R.GLB_MGMT_STAT_DROP_1 + 1) (2 ^ R.GLB_MGMT_STAT_DROP_1.width - 1) else s.get R.GLB_MGMT_STAT_DROP_1) ∧
        t = { s with regs := t.regs } ∧ OnlyFields [R.GLB_MGMT_STAT_DROP_0, R.GLB_MGMT_STAT_DROP_1] s t)) ∧
  (∀ (s : State) (p ip src reqId : Nat) (payload : List Byte),
      p < 2 →
      s.portUp p = true →
      s.bootState = 2 →
      s.frozen = none →
      reqId < 2 ^ 32 →
      s.get R.NELAR_CHIP_RID_VALID = 0 →
      s.chip < 2 ^ 15 →
      s.nelar.inbox = [] →
      payload = packBytes [(16, 1), (1, 0), (1, 0), (14, 0), (32, reqId), (16, 16), (15, s.chip), (1, 0), (32, 0)] ++ leBytes 16 0 →
      Completes (.udpDatagram p ip src (s.ownIp p) (s.get R.GLB_MGMT_CTL_UDP_PORT) payload none) s (fun t => t.nelar.inbox = [{ path := if p = 0 then .mgmt0 else .mgmt1, reqId := reqId, code := 1, body := leBytes 16 0 }] ∧ t.requester p = some (ip, src) ∧ t.requester (1 - p) = s.requester (1 - p) ∧
        (tget reqId t.nelar.requests).map (fun r => (r.source, r.code, r.answer)) = some (some (ip, src), 1, none) ∧ t.get R.NELAR_CHIP_RID_VALID = 1 ∧ t.get R.NELAR_CHIP_HIGH_RID = reqId ∧
        t = { s with regs := t.regs, nelar := t.nelar, xlat := { s.xlat with acked := t.xlat.acked } } ∧ OnlyFields [R.NELAR_CHIP_RID_VALID, R.NELAR_CHIP_HIGH_RID] s t)) ∧
  (∀ (s : State) (p ip src ident off : Nat) (payload : List Byte),
      p < 2 →
      s.portUp p = true →
      s.nelar.reassemblies = [] →
      off + payload.length ≤ 16400 →
      Completes (.udpDatagram p ip src (s.ownIp p) (s.get R.GLB_MGMT_CTL_UDP_PORT) payload (some (ident, off, true))) s (fun t => t.nelar.reassemblies = [{ port := p, ident := ident, srcIp := ip, srcPort := src, dstPort := s.get R.GLB_MGMT_CTL_UDP_PORT, parts := [(off, payload)], total := none }] ∧
        t = { s with nelar := { s.nelar with reassemblies := t.nelar.reassemblies } })) ∧
  (∀ (s : State) (p ip mac : Nat),
      p < 2 →
      s.portUp p = true →
      exec (.arpRequest p (s.ownIp p) ip mac) s = .next (s.emit (.arpReply p ip mac (s.ownIp p) (s.ownMac p)))) ∧
  (∀ (s : State) (p ip ident : Nat),
      p < 2 →
      s.manageable = true →
      (s.nelar.reassemblies.any (fun r => r.is p ip ident) = true) →
      Completes (.reassemblyTimeout p ip ident) s (fun t => t.nelar.reassemblies = s.nelar.reassemblies.filter (fun r => !r.is p ip ident) ∧
        t.get (if p = 0 then R.GLB_MGMT_STAT_DROP_0 else R.GLB_MGMT_STAT_DROP_1) = min (s.get (if p = 0 then R.GLB_MGMT_STAT_DROP_0 else R.GLB_MGMT_STAT_DROP_1) + 1) (2 ^ R.GLB_MGMT_STAT_DROP_0.width - 1) ∧
        t = { s with regs := t.regs, nelar := { s.nelar with reassemblies := t.nelar.reassemblies } } ∧ OnlyFields [if p = 0 then R.GLB_MGMT_STAT_DROP_0 else R.GLB_MGMT_STAT_DROP_1] s t)) ∧
  (∀ (s : State) (address addr value : Nat),
      s.smbusHere address = true →
      s.frozen = none →
      s.home.finished = [] →
      addr % 8 = 0 ∧ addr < 2 ^ 25 →
      s.reservedAt addr = true →
      Completes (.smbusRegisterWrite address true addr value) s (fun t => t.get R.GLB_RSVD_COUNT = min (s.get R.GLB_RSVD_COUNT + 1) (2 ^ R.GLB_RSVD_COUNT.width - 1) ∧ t = { s with regs := t.regs } ∧ OnlyFields [R.GLB_RSVD_COUNT, R.GLB_RSVD_LAST_ADDR] s t)) ∧
  (∀ (s : State) (address addr value : Nat),
      s.smbusHere address = true →
      s.frozen = none →
      s.home.finished = [] →
      Completes (.smbusRegisterWrite address true 851984 value) s (fun t => t.get R.PARSER_LIMITS_PLANE_HI = min 100 (max 1 (bits value 39 32)) ∧ t.get R.PARSER_LIMITS_PLANE_LO = min 99 (bits value 31 24) ∧ t.get R.PARSER_LIMITS_REMOTE_MIN = max 1 (bits value 23 16) ∧
        t.get R.PARSER_LIMITS_NEAR_RESERVE = bits value 15 0 ∧ t = { s with regs := t.regs } ∧ OnlyFields [R.PARSER_LIMITS_PLANE_HI, R.PARSER_LIMITS_PLANE_LO, R.PARSER_LIMITS_REMOTE_MIN, R.PARSER_LIMITS_NEAR_RESERVE] s t)) ∧
  (∀ (s : State) (address addr : Nat),
      s.smbusHere address = true →
      s.frozen = none →
      addr % 8 = 0 ∧ addr < 2 ^ 25 →
      s.reservedAt addr = false →
      resultAt addr = false →
      exec (.smbusRegisterRead address true addr) s = .next (s.emit (.smbus (some (s.regValue .smbus addr))))) ∧
  (∀ (s : State) (address addr value : Nat) (pecOk : Bool),
      s.smbusHere address = true →
      smbusBad pecOk addr = true →
      Completes (.smbusRegisterRead address pecOk addr) s (fun t => t.out = s.out ++ [.smbus none] ∧ (s.home.finished = [] → t = { s with out := t.out }))) ∧
  (∀ (s : State) (address addr value : Nat) (pecOk : Bool),
      s.smbusHere address = true →
      smbusBad pecOk addr = true →
      Completes (.smbusRegisterWrite address pecOk addr value) s (fun t => t.out = s.out ++ [.smbus none] ∧ (s.home.finished = [] → t = { s with out := t.out })))

/-- JTAG instructions load the instruction register and shift their data registers. (R437, R439, R454, R479, R485, Table 21-6, 21_physical.md) -/
def Obligations.JtagInstructionsShiftTheirRegisters : Prop :=
  (∀ (s : State),
      s.tapUp = true →
      exec (.idcode) s = .next ({ s with nelar := { s.nelar with jtagIr := 2 }, out := s.out ++ [.jtag 0x1530749B] })) ∧
  (∀ (s : State) (tdi : Bool),
      s.tapUp = true →
      exec (.bypass tdi) s = .next ({ s with nelar := { s.nelar with jtagIr := 0xFF }, out := s.out ++ [.jtag (b2n tdi)] })) ∧
  (∀ (s : State) (pins : Nat),
      s.tapUp = true →
      exec (.sample pins) s = .next ({ s with nelar := { s.nelar with jtagIr := 1, boundary := pins }, out := s.out ++ [.jtag pins] })) ∧
  (∀ (s : State) (cells : Nat),
      s.tapUp = true →
      exec (.extest cells) s = .next (if s.bootState = 4 then { s with nelar := { s.nelar with jtagIr := 0, boundary := cells } } else { s with nelar := { s.nelar with jtagIr := 0xFF }, out := s.out ++ [.jtag (cells % 2)] })) ∧
  (∀ (s : State) (addr : Nat),
      s.tapUp = true →
      s.jtagErr addr false = false →
      s.reservedAt addr = false →
      resultAt addr = false →
      exec (.regrd addr) s = .next ({ s with nelar := { s.nelar with jtagIr := 0x10 }, out := s.out ++ [.jtag (jtagWord false addr (s.regValue .jtag addr))] })) ∧
  (∀ (s : State) (addr : Nat),
      s.tapUp = true →
      s.jtagErr addr false = true →
      Completes (.regrd addr) s (fun t => (t.out.getLast?.map (fun o => match o with | .jtag n => bits n 97 64 | _ => 0)) = some (bits (jtagWord true addr 0) 97 64) ∧ t = { s with nelar := { s.nelar with jtagIr := 0x10 }, out := t.out, fresh := s.fresh + 1 })) ∧
  (∀ (s : State) (v : Nat),
      s.tapUp = true →
      s.home.finished = [] →
      s.jtagErr 851984 true = false →
      Completes (.regwr 851984 v) s (fun t => t.get R.PARSER_LIMITS_PLANE_HI = min 100 (max 1 (bits v 39 32)) ∧ t.get R.PARSER_LIMITS_NEAR_RESERVE = bits v 15 0 ∧ t.out = s.out ++ [.jtag (jtagWord false 851984 v)] ∧
        t = { s with regs := t.regs, nelar := { s.nelar with jtagIr := 0x11 }, out := t.out } ∧ OnlyFields [R.PARSER_LIMITS_PLANE_HI, R.PARSER_LIMITS_PLANE_LO, R.PARSER_LIMITS_REMOTE_MIN, R.PARSER_LIMITS_NEAR_RESERVE] s t)) ∧
  (∀ (s : State) (addr v : Nat),
      s.tapUp = true →
      s.home.finished = [] →
      s.jtagErr addr true = true →
      exec (.regwr addr v) s = .next ({ s with nelar := { s.nelar with jtagIr := 0x11 }, out := s.out ++ [.jtag (jtagWord true addr v)] })) ∧
  (∀ (s : State) (offset : Nat),
      s.tapUp = true →
      offset % 8 = 0 →
      offset < 2 ^ 63 →
      exec (.frzaddr offset) s = .next ({ s with nelar := { s.nelar with jtagIr := 0x20, frzaddr := offset }, out := s.out ++ [.jtag (packNat [(63, offset), (1, b2n s.frozen.isSome)])], fresh := s.fresh + 1 })) ∧
  (∀ (s : State) (f : Frozen),
      s.tapUp = true →
      s.frozen = some f →
      s.nelar.frzaddr < imageLen →
      exec (.frzdata) s = .next ({ s with nelar := { s.nelar with jtagIr := 0x21, frzaddr := s.nelar.frzaddr + 8 }, out := s.out ++ [.jtag (s.imageWord f s.nelar.frzaddr)] }))

/-- Descriptors are fetched, accepted or refused, released and timed out. (R53, R171, R175, R177, R179, R416, R486, Table 7-9, Table 7-14, 07_clauses_and_queues.md) -/
def Obligations.DescriptorsBecomeClauses : Prop :=
  (∀ (s : State) (q : Nat) (r : Queue) (fpa : Nat),
      s.live = true →
      s.home.finished = [] →
      s.queue q = some r →
      s.mayFetch q r = true →
      (s.xlate (s.get (R.QPAGE_STATUS_PARTITION q)) (r.slotFva (s.get (R.QPAGE_SQ_HEAD q))) 0).err = .none →
      (s.xlate (s.get (R.QPAGE_STATUS_PARTITION q)) (r.slotFva (s.get (R.QPAGE_SQ_HEAD q))) 0).fpa = fpa →
      s.poisonedPage (s.get (R.QPAGE_STATUS_PARTITION q)) (r.slotFva (s.get (R.QPAGE_SQ_HEAD q))) 0 = false →
      MaySend s (s.get (R.QPAGE_STATUS_PARTITION q)) fpa →
      s.replicaOf fpa = none →
      Completes (.descriptorFetch q) s (fun t => Sent s t fpa 1 (.fetch q) ∧ t.queue q = some { r with fetching := true } ∧ (∀ n : Nat, n ≠ q → t.queue n = s.queue n) ∧ t.mem = s.mem ∧ t.work = { s.work with queues := t.work.queues } ∧ t.xlat = s.xlat ∧ t.out = s.out)) ∧
  (∀ (s : State) (q idx : Nat) (r : Queue) (d : List Byte),
      s.live = true →
      s.home.finished = [] →
      s.queue q = some r →
      r.fetched = some (d, idx) →
      r.asking = false ∧ r.fetching = false ∧ r.held = false ∧ r.extra = none →
      d.length = descLen d →
      s.get (R.QPAGE_STATUS_STATE q) = 1 →
      s.earlyErr d q (s.get (R.QPAGE_STATUS_PARTITION q)) = .none →
      isColl (descOp d) = false →
      extraReads d (s.membersOf d) = [] →
      s.touchesHeld d [] q (s.get (R.QPAGE_STATUS_PARTITION q)) = false →
      s.pendingTriggers < 16384 →
      topErr (operands d [] (s.roleFor d q)) = none →
      (s.xlRanges (s.get (R.QPAGE_STATUS_PARTITION q)) (s.clauseRanges d [] q)).bad = none →
      (s.xlRanges (s.get (R.QPAGE_STATUS_PARTITION q)) (s.clauseRanges d [] q)).lacking = [] →
      s.anyTile = true →
      s.get R.PARSER_CTL_REMOTE_EXEC_EN = 0 →
      Completes (.clauseAccept q) s (fun t => ((t.clauseAt s.work.nextClause).map (fun k => (k.queue, k.partition, k.seq, k.desc, k.untriggered))) = some (q, s.get (R.QPAGE_STATUS_PARTITION q), idx, d, descTrigEn d && decide (s.counter (nameIndex (descTrigger d)) < descThreshold d)) ∧
        t.work.nextClause = s.work.nextClause + 1 ∧ (t.queue q).map (fun r => (r.fetched, r.blocked)) = some (none, if descOp d = 0x40 ∨ descOp d = 0x42 then some s.work.nextClause else r.blocked) ∧
        (∀ n : Nat, n ≠ q → t.queue n = s.queue n) ∧ t.mem = s.mem ∧ t.regs = s.regs ∧ t.fabric = s.fabric ∧ t.out = s.out)) ∧
  (∀ (s : State) (q idx : Nat) (r : Queue) (d : List Byte) (e : Err),
      s.live = true →
      s.home.finished = [] →
      s.queue q = some r →
      r.fetched = some (d, idx) →
      r.asking = false ∧ r.fetching = false ∧ r.held = false ∧ r.writing = true →
      d.length = descLen d →
      s.get (R.QPAGE_STATUS_STATE q) = 1 →
      s.earlyErr d q (s.get (R.QPAGE_STATUS_PARTITION q)) = e →
      e ≠ .none →
      isColl (descOp d) = false →
      Completes (.clauseAccept q) s (fun t => t.queue q = some { r with fetched := none, extra := none, records := r.records ++ [(2 ^ 64, recordBytes (descTag d) e (descOp d) 0 idx noSeg 0 0 0)] } ∧ (∀ n : Nat, n ≠ q → t.queue n = s.queue n) ∧
        t = { s with work := { s.work with queues := t.work.queues } })) ∧
  (∀ (s : State) (q idx : Nat) (r : Queue) (d extra : List Byte),
      s.live = true →
      s.home.finished = [] →
      s.queue q = some r →
      r.fetched = some (d, idx) →
      r.asking = false ∧ r.fetching = false ∧ r.held = true ∧ r.extra = some (.none, extra) →
      d.length = descLen d →
      s.get (R.QPAGE_STATUS_STATE q) = 1 →
      s.earlyErr d q (s.get (R.QPAGE_STATUS_PARTITION q)) = .none →
      isColl (descOp d) = false ∧ descOp d ≠ 0x30 →
      s.touchesHeld d extra q (s.get (R.QPAGE_STATUS_PARTITION q)) = false →
      s.pendingTriggers < 16384 →
      topErr (operands d extra (s.roleFor d q)) = none →
      (s.xlRanges (s.get (R.QPAGE_STATUS_PARTITION q)) (s.clauseRanges d extra q)).bad = none →
      (s.xlRanges (s.get (R.QPAGE_STATUS_PARTITION q)) (s.clauseRanges d extra q)).lacking = [] →
      s.anyTile = true →
      s.get R.PARSER_CTL_REMOTE_EXEC_EN = 0 →
      Completes (.pendingTriggerFree q) s (fun t => ((t.clauseAt s.work.nextClause).map (fun k => (k.queue, k.partition, k.seq, k.desc, k.extra, k.untriggered))) = some (q, s.get (R.QPAGE_STATUS_PARTITION q), idx, d, extra, descTrigEn d && decide (s.counter (nameIndex (descTrigger d)) < descThreshold d)) ∧
        t.work.nextClause = s.work.nextClause + 1 ∧ (t.queue q).map (fun r => (r.fetched, r.held)) = some (none, false) ∧ (∀ n : Nat, n ≠ q → t.queue n = s.queue n) ∧
        t.mem = s.mem ∧ t.regs = s.regs ∧ t.fabric = s.fabric ∧ t.out = s.out)) ∧
  (∀ (s : State) (q idx : Nat) (r : Queue) (d : List Byte),
      s.live = true →
      s.home.finished = [] →
      s.queue q = some r →
      r.fetched = some (d, idx) →
      r.held = true ∧ r.writing = true →
      isColl (descOp d) = false →
      Completes (.heldDescriptorTimeout q) s (fun t => t.queue q = some { r with fetched := none, fetching := false, extra := none, asking := false, held := false, records := r.records ++ [(2 ^ 64, recordBytes (descTag d) .resource (descOp d) 0 idx noSeg 0 0 0)] } ∧
        (∀ n : Nat, n ≠ q → t.queue n = s.queue n) ∧ t = { s with work := { s.work with queues := t.work.queues } })) ∧
  (∀ (s : State) (id : Nat) (k : Clause),
      s.live = true →
      s.home.finished = [] →
      s.clauseAt id = some k →
      k.untriggered = true ∧ k.ending = none →
      k.met = true ∨ descThreshold k.desc ≤ s.counter (nameIndex (descTrigger k.desc)) →
      s.get R.PARSER_CTL_REMOTE_EXEC_EN = 0 →
      Completes (.triggerRelease id) s (fun t => t.clauseAt id = some { k with untriggered := false } ∧ (∀ n : Nat, n ≠ id → t.clauseAt n = s.clauseAt n) ∧ t = { s with work := { s.work with clauses := t.work.clauses } })) ∧
  (∀ (s : State) (id : Nat) (k : Clause),
      s.live = true →
      s.home.finished = [] →
      s.clauseAt id = some k →
      k.timed = false ∧ k.ending = none ∧ k.stage = .waiting ∧ k.placed = [] →
      descOp k.desc ≠ 0x40 ∧ descOp k.desc ≠ 0x42 ∧ isColl (descOp k.desc) = false →
      Completes (.queueTimeout id) s (fun t => t.clauseAt id = some { k with waitsOn := [], lacking := [], untriggered := false, ending := some (ending .timeout noSeg 0) } ∧ (∀ n : Nat, n ≠ id → t.clauseAt n = s.clauseAt n) ∧
        t = { s with work := { s.work with clauses := t.work.clauses, waitTile := t.work.waitTile }, ptus := t.ptus }))

/-- Clauses are placed, start segments, park, resume and time out; batches leave. (R56, R59, R60, R61, R62, R72, R73, R74, R261, Table 3-3, 03_mapping.md) -/
def Obligations.ClausesArePlacedStartedAndParked : Prop :=
  (∀ (s : State) (id l c b : Nat) (k : Clause),
      s.live = true →
      s.home.finished = [] →
      s.clauseAt id = some k →
      k.stage = .waiting ∧ k.untriggered = false ∧ k.ending = none ∧ k.ptu = none →
      needsTile (descOp k.desc) = true ∧ spreads (descOp k.desc) = false →
      ((List.range 48).filterMap (fun l => (s.takes l k.tsBytes).map (fun cb => (l, cb))) = [(l, c, b)]) →
      s.work.waitTile = [] ∨ s.work.waitTile = [id] →
      Completes (.clausePlace id) s (fun t => t.clauseAt id = some { k with placed := k.placed ++ [⟨l, c⟩], stage := .running } ∧ t.ctx ⟨l, c⟩ = some (newCtx id k b) ∧ t.work.waitTile = [] ∧ (∀ n : Nat, n ≠ id → t.clauseAt n = s.clauseAt n) ∧
        (∀ n : Nat, n ≠ l → t.tile n = s.tile n) ∧ t = { s with work := { s.work with clauses := t.work.clauses, waitTile := [] }, home := { s.home with tiles := t.home.tiles } })) ∧
  (∀ (s : State) (id : Nat) (k : Clause),
      s.live = true →
      s.home.finished = [] →
      s.clauseAt id = some k →
      k.stage = .waiting ∧ k.untriggered = false ∧ k.ending = none ∧ k.ptu = none →
      needsTile (descOp k.desc) = true →
      ((List.range 48).filterMap (fun l => (s.takes l k.tsBytes).map (fun cb => (l, cb))) = []) →
      s.work.waitTile.contains id = false →
      exec (.clausePlace id) s = .next ({ s with work := { s.work with waitTile := s.work.waitTile ++ [id] } })) ∧
  (∀ (s : State) (id : Nat) (k : Clause),
      s.live = true →
      s.home.finished = [] →
      s.clauseAt id = some k →
      k.ending = none ∧ k.untriggered = false ∧ k.stage = .running ∧ k.segment < k.segs ∧ k.cancelled = false ∧ k.ptu = none ∧ k.placed ≠ [] →
      descOp k.desc ≠ 0x30 ∧ descOp k.desc ≠ 0x20 ∧ isColl (descOp k.desc) = false →
      k.covers (s.segTouch k k.segment) = true →
      Completes (.segmentStart id) s (fun t => t.clauseAt id = some { k with segment := k.segment + 1, timed := true } ∧ (∀ n : Nat, n ≠ id → t.clauseAt n = s.clauseAt n) ∧ t = { s with work := { s.work with clauses := t.work.clauses } })) ∧
  (∀ (s : State) (id page kinds : Nat) (k : Clause),
      s.live = true →
      s.home.finished = [] →
      s.clauseAt id = some k →
      k.ending = none ∧ k.untriggered = false ∧ k.stage = .running ∧ k.segment < k.segs ∧ k.cancelled = false ∧ k.ptu = none ∧ k.placed ≠ [] ∧ k.flying ≠ [] →
      descOp k.desc ≠ 0x30 ∧ isColl (descOp k.desc) = false →
      k.covers (s.segTouch k k.segment) = false →
      s.parkedCount < 8192 →
      ((s.xlRanges k.partition ((List.range (min 8 (k.segs - k.segment))).flatMap (fun i => s.segTouch k (k.segment + i)))).lacking = [(page, kinds)]) →
      s.pendingFault k.partition page = none →
      s.xlat.faults.length < 16384 →
      s.firstParked k.partition page s.tick = s.tick →
      Completes (.segmentStart id) s (fun t => (t.clauseAt id).map (fun x => (x.stage, x.clear, x.lacking, x.waitsOn, x.placed)) = some (.parked, k.segment, [], [s.xlat.nextFault], k.placed) ∧
        t.xlat.faults = s.xlat.faults ++ [{ page := page, partition := k.partition, access := kinds, serial := s.xlat.nextFault, queue := k.queue, tense := s.tense k.partition, firstTick := s.tick % 2 ^ 32, tick := s.tick }] ∧
        t.xlat.openBatch = s.xlat.openBatch ++ [{ page := page, partition := k.partition, access := kinds, serial := s.xlat.nextFault, queue := k.queue, tense := s.tense k.partition, firstTick := s.tick % 2 ^ 32, tick := s.tick }] ∧
        (∀ n : Nat, n ≠ id → t.clauseAt n = s.clauseAt n) ∧ t = { s with work := { s.work with clauses := t.work.clauses }, xlat := { s.xlat with faults := t.xlat.faults, openBatch := t.xlat.openBatch, nextFault := s.xlat.nextFault + 1 } })) ∧
  (∀ (s : State) (id : Nat) (k : Clause) (x : Xres),
      s.live = true →
      s.home.finished = [] →
      s.clauseAt id = some k →
      k.stage = .parked ∧ k.ending = none ∧ k.placed = [] ∧ descOp k.desc ≠ 0x30 ∧ isColl (descOp k.desc) = false →
      (s.xlRanges k.partition (s.segTouch k k.segment)).lacking = [] →
      s.xlRanges k.partition (s.fromSeg k k.segment) = x →
      x.bad = none →
      ({ k with extents := x.extents ++ k.extents } : Clause).covers (s.segTouch k k.segment) = true →
      s.get R.PARSER_CTL_REMOTE_EXEC_EN = 0 →
      Completes (.clauseResume id) s (fun t => t.clauseAt id = some { k with extents := x.extents ++ k.extents, tense := s.tense k.partition, waitsOn := [], lacking := [], clear := 0, stage := .waiting } ∧ (∀ n : Nat, n ≠ id → t.clauseAt n = s.clauseAt n) ∧
        t = { s with work := { s.work with clauses := t.work.clauses } })) ∧
  (∀ (s : State) (id : Nat) (k : Clause),
      s.live = true →
      s.home.finished = [] →
      s.work.clauses = [(id, k)] →
      k.stage = .parked ∧ k.ending = none ∧ k.placed = [] ∧ isColl (descOp k.desc) = false →
      Completes (.parkTimeout id) s (fun t => (t.clauseAt id).map (fun x => (x.ending, x.stage, x.waitsOn)) = some (some (ending .timeout (if k.timed then k.segment else noSeg) 0), .running, []) ∧
        t.get R.XLAT_FB_COUNT_TIMEOUTS = min (s.get R.XLAT_FB_COUNT_TIMEOUTS + 1) (2 ^ R.XLAT_FB_COUNT_TIMEOUTS.width - 1) ∧
        t = { s with regs := t.regs, work := { s.work with clauses := t.work.clauses, waitTile := t.work.waitTile }, ptus := t.ptus } ∧ OnlyFields [R.XLAT_FB_COUNT_TIMEOUTS] s t)) ∧
  (∀ (s : State),
      s.live = true →
      s.xlat.openBatch ≠ [] →
      s.xlat.openBatch.length ≤ s.get R.XLAT_FB_CTL_BATCH_MAX →
      s.linkState s.batchLink = 4 →
      Completes (.batchTimeout) s (fun t => t.xlat.openBatch = [] ∧ t.xlat.batchSeq = (s.xlat.batchSeq + 1) % 2 ^ 32 ∧ t.get R.XLAT_FB_COUNT_BATCHES = min (s.get R.XLAT_FB_COUNT_BATCHES + 1) (2 ^ R.XLAT_FB_COUNT_BATCHES.width - 1) ∧
        ((t.link s.batchLink).msgs.getLast?.map (fun m => (m.1.code, m.1.reqId, m.1.body))) = some (0x28, s.nelar.nextOwn, packBytes [(9, s.xlat.openBatch.length), (7, 0), (8, 1), (8, 0), (32, s.xlat.batchSeq), (15, s.chip), (1, 0), (48, 0)] ++ s.xlat.openBatch.flatMap s.faultBytes) ∧
        t = { s with regs := t.regs, xlat := { s.xlat with openBatch := [], batchSeq := t.xlat.batchSeq }, tele := { s.tele with hists := t.tele.hists }, nelar := t.nelar, out := t.out } ∧ OnlyFields [R.XLAT_FB_COUNT_BATCHES] s t)) ∧
  (∀ (s : State),
      s.live = true →
      s.xlat.openBatch ≠ [] →
      s.xlat.openBatch.length = s.get R.XLAT_FB_CTL_BATCH_MAX →
      s.linkState s.batchLink = 4 →
      Completes (.batchFull) s (fun t => t.xlat.openBatch = [] ∧ t.xlat.batchSeq = (s.xlat.batchSeq + 1) % 2 ^ 32 ∧ t.get R.XLAT_FB_COUNT_BATCHES = min (s.get R.XLAT_FB_COUNT_BATCHES + 1) (2 ^ R.XLAT_FB_COUNT_BATCHES.width - 1) ∧
        ((t.link s.batchLink).msgs.getLast?.map (fun m => (m.1.code, m.1.reqId, m.1.body))) = some (0x28, s.nelar.nextOwn, packBytes [(9, s.xlat.openBatch.length), (7, 0), (8, 0), (8, 0), (32, s.xlat.batchSeq), (15, s.chip), (1, 0), (48, 0)] ++ s.xlat.openBatch.flatMap s.faultBytes) ∧
        t = { s with regs := t.regs, xlat := { s.xlat with openBatch := [], batchSeq := t.xlat.batchSeq }, tele := { s.tele with hists := t.tele.hists }, nelar := t.nelar, out := t.out } ∧ OnlyFields [R.XLAT_FB_COUNT_BATCHES] s t))

/-- COPY, COPY2D, FILL, GATHER, SCATTER and ATOMIC_BATCH issue the accesses of their segments. (R56, R57, R58, R174, R182, R305, Table 7-10, Table 7-12, 07_clauses_and_queues.md) -/
def Obligations.DataStepsIssueTheirAccesses : Prop :=
  (∀ (s : State) (id c src dst n fpa : Nat) (k : Clause),
      s.live = true →
      s.home.finished = [] →
      s.clauseAt id = some k →
      descOp k.desc = 1 ∧ k.ending = none ∧ k.issued < k.segment ∧ k.stage = .running →
      k.newSegs.flatMap (copyMoves k.desc) = [(c, src, dst, n)] →
      k.runs src n = some [(fpa, n)] →
      s.poisonedIn k.partition 0 src [(fpa, n)] = false →
      s.replicaOf fpa = none →
      MaySend s k.partition fpa →
      fpa % 4096 + n ≤ 4096 ∧ 0 < n →
      Completes (.copy id) s (fun t => Sent s t fpa 1 (.clauseRead id c dst src) ∧ t.clauseAt id = some { k with issued := k.segment, flying := tset c ((tget c k.flying).getD 0 + 1) k.flying } ∧ (∀ m : Nat, m ≠ id → t.clauseAt m = s.clauseAt m) ∧ t.mem = s.mem ∧ t.xlat = s.xlat ∧ t.out = s.out)) ∧
  (∀ (s : State) (id c src dst n fpa : Nat) (k : Clause),
      s.live = true →
      s.home.finished = [] →
      s.clauseAt id = some k →
      descOp k.desc = 2 ∧ k.ending = none ∧ k.issued < k.segment ∧ k.stage = .running →
      k.newSegs.flatMap (copyMoves k.desc) = [(c, src, dst, n)] →
      k.runs src n = some [(fpa, n)] →
      s.poisonedIn k.partition 0 src [(fpa, n)] = false →
      s.replicaOf fpa = none →
      MaySend s k.partition fpa →
      fpa % 4096 + n ≤ 4096 ∧ 0 < n →
      Completes (.copy2d id) s (fun t => Sent s t fpa 1 (.clauseRead id c dst src) ∧ t.clauseAt id = some { k with issued := k.segment, flying := tset c ((tget c k.flying).getD 0 + 1) k.flying } ∧ (∀ m : Nat, m ≠ id → t.clauseAt m = s.clauseAt m) ∧ t.mem = s.mem ∧ t.xlat = s.xlat ∧ t.out = s.out)) ∧
  (∀ (s : State) (id c n fpa : Nat) (k : Clause),
      s.live = true →
      s.home.finished = [] →
      s.clauseAt id = some k →
      descOp k.desc = 3 ∧ k.ending = none ∧ k.issued < k.segment ∧ k.stage = .running →
      n ≤ 4096 →
      k.newSegs = [0] →
      fieldAt k.desc 40 8 = n →
      k.desc.length = 64 →
      k.runs (fieldAt k.desc 32 8) n = some [(fpa, n)] →
      c = 0 →
      s.poisonedIn k.partition 1 (fieldAt k.desc 32 8) [(fpa, n)] = false →
      MaySend s k.partition fpa →
      fpa % 4096 + n ≤ 4096 ∧ 0 < n →
      Completes (.fill id) s (fun t => Sent s t fpa 2 (.clauseWrite id c (fieldAt k.desc 32 8)) ∧ t.clauseAt id = some { k with issued := k.segment, flying := tset 0 ((tget 0 k.flying).getD 0 + 1) k.flying } ∧ (∀ m : Nat, m ≠ id → t.clauseAt m = s.clauseAt m) ∧ t.mem = s.mem ∧ t.xlat = s.xlat ∧ t.out = s.out)) ∧
  (∀ (s : State) (id n fpa : Nat) (k : Clause),
      s.live = true →
      s.clauseAt id = some k →
      descOp k.desc = 3 ∧ k.ending = none ∧ k.issued < k.segment ∧ k.stage = .running →
      0 < n ∧ n ≤ 256 →
      k.newSegs = [0] →
      fieldAt k.desc 40 8 = n →
      k.desc.length = 64 →
      k.runs (fieldAt k.desc 32 8) n = some [(fpa, n)] →
      fpa % 256 + n ≤ 256 →
      fpaChip fpa = s.chip →
      16 ≤ fpaUnit fpa ∧ fpaUnit fpa < 32 →
      s.poisonedIn k.partition 1 (fieldAt k.desc 32 8) [(fpa, n)] = false →
      s.inQuiet fpa = false ∧ s.forwardOf fpa = none →
      s.frameErr fpa k.partition = .none →
      Intact s fpa n →
      (linesOf fpa n).all (s.lineClear true) = true →
      s.hasCopies fpa n = false →
      Calm s →
      k.flying = [] ∧ k.cancelled = false →
      s.work.clauses = [(id, k)] →
      Completes (.fill id) s (fun t => memRead t.mem (memKey (fpaUnit fpa) (fpaOff fpa)) n = (((List.replicate 512 ((k.desc.drop 48).take 8)).flatten).take n) ∧ (t.clauseAt id).map (fun x => (x.issued, x.flying, x.failed, x.ending)) = some (k.segment, [], k.failed, none))) ∧
  (∀ (s : State) (id e fpa : Nat) (k : Clause),
      s.live = true →
      s.home.finished = [] →
      s.clauseAt id = some k →
      descOp k.desc = 4 ∧ k.ending = none ∧ k.issued < k.segment ∧ k.stage = .running →
      k.newSegs.flatMap (segElems k.desc) = [e] →
      chunkParts (e * fieldAt k.desc 60 4) (fieldAt k.desc 60 4) = [(0, 0, 4)] →
      k.runs (fieldAt k.desc 48 8 + 4 * e) 4 = some [(fpa, 4)] →
      s.poisonedIn k.partition 0 (fieldAt k.desc 48 8 + 4 * e) [(fpa, 4)] = false →
      s.replicaOf fpa = none →
      MaySend s k.partition fpa →
      fpa % 4096 + 4 ≤ 4096 ∧ 0 < 4 →
      Completes (.gather id) s (fun t => Sent s t fpa 1 (.clauseIndex id e) ∧ t.clauseAt id = some { k with issued := k.segment, flying := tset 0 ((tget 0 k.flying).getD 0 + 1) k.flying } ∧ (∀ m : Nat, m ≠ id → t.clauseAt m = s.clauseAt m) ∧ t.mem = s.mem ∧ t.xlat = s.xlat ∧ t.out = s.out)) ∧
  (∀ (s : State) (id e fpa : Nat) (k : Clause) (order : List Nat),
      s.live = true →
      s.home.finished = [] →
      s.clauseAt id = some k →
      descOp k.desc = 5 ∧ k.ending = none ∧ k.issued < k.segment ∧ k.stage = .running →
      scatterOrder order (k.newSegs.flatMap (segElems k.desc)) = [e] →
      chunkParts (e * fieldAt k.desc 60 4) (fieldAt k.desc 60 4) = [(0, 0, 4)] →
      k.runs (fieldAt k.desc 48 8 + 4 * e) 4 = some [(fpa, 4)] →
      s.poisonedIn k.partition 0 (fieldAt k.desc 48 8 + 4 * e) [(fpa, 4)] = false →
      s.replicaOf fpa = none →
      MaySend s k.partition fpa →
      fpa % 4096 + 4 ≤ 4096 ∧ 0 < 4 →
      Completes (.scatter id order) s (fun t => Sent s t fpa 1 (.clauseIndex id e) ∧ t.clauseAt id = some { k with issued := k.segment, flying := tset 0 ((tget 0 k.flying).getD 0 + 1) k.flying } ∧ (∀ m : Nat, m ≠ id → t.clauseAt m = s.clauseAt m) ∧ t.mem = s.mem ∧ t.xlat = s.xlat ∧ t.out = s.out)) ∧
  (∀ (s : State) (id fpa : Nat) (k : Clause),
      s.live = true →
      s.home.finished = [] →
      s.clauseAt id = some k →
      descOp k.desc = 6 ∧ k.ending = none ∧ k.issued < k.segment ∧ k.stage = .running →
      k.batchPos < min (fieldAt k.desc 40 4) (k.segment * 32768) →
      tget (2 ^ 45) k.indices = none →
      k.runs (fieldAt k.desc 32 8 + 64 * k.batchPos) 64 = some [(fpa, 64)] →
      s.poisonedIn k.partition 0 (fieldAt k.desc 32 8 + 64 * k.batchPos) [(fpa, 64)] = false →
      s.replicaOf fpa = none →
      MaySend s k.partition fpa →
      fpa % 4096 + 64 ≤ 4096 ∧ 0 < 64 →
      Completes (.atomicBatch id) s (fun t => Sent s t fpa 1 (.batchEntry id k.batchPos) ∧ (t.clauseAt id).map (fun x => (x.issued, x.batchPos, x.flying, x.ending)) = some (k.segment, k.batchPos + 1, tset (k.batchPos / 64) ((tget (k.batchPos / 64) k.flying).getD 0 + 1) k.flying, none) ∧ (∀ m : Nat, m ≠ id → t.clauseAt m = s.clauseAt m) ∧ t.mem = s.mem ∧ t.xlat = s.xlat ∧ t.out = s.out))

/-- FENCE, WAIT, COUNTER_OP, KERNEL and TRANSFORM clauses act; chunks count and clauses complete. (R117, R145, R177, R178, R180, R182, R183, R184, R278, Table 7-14, 07_clauses_and_queues.md, 11_transform.md) -/
def Obligations.ClausesWithoutOperandsAndCompletion : Prop :=
  (∀ (s : State) (id : Nat) (k : Clause) (r : Queue),
      s.live = true →
      s.home.finished = [] →
      s.clauseAt id = some k →
      s.queue k.queue = some r →
      r.writing = true →
      descOp k.desc = 0x40 ∧ k.ending = none ∧ k.issued = 0 ∧ k.untriggered = false ∧ k.stage = .waiting ∧ k.origin = none →
      k.flying = [] ∧ k.failed = [] ∧ k.counted = [] ∧ k.chunks = 0 ∧ k.arriving = 0 ∧ k.arriveErr = .none ∧ k.placed = [] →
      descArriveEn k.desc = false ∧ descCmplErr k.desc = false →
      s.fenceMet id k = true →
      Completes (.fenceClause id) s (fun t => t.queue k.queue = some { r with records := r.records ++ [(id, recordBytes (descTag k.desc) .none 0x40 0 k.seq noSeg 1 0 0)], blocked := if r.blocked = some id then none else r.blocked } ∧
        (t.clauseAt id).map (fun x => (x.stage, x.chunks, x.counted, x.extents)) = some (.done, 1, [0], []) ∧ (∀ n : Nat, n ≠ id → t.clauseAt n = s.clauseAt n) ∧ (∀ n : Nat, n ≠ k.queue → t.queue n = s.queue n) ∧
        t = { s with work := { s.work with clauses := t.work.clauses, queues := t.work.queues, waitTile := t.work.waitTile }, ptus := t.ptus, tele := { s.tele with hists := t.tele.hists } })) ∧
  (∀ (s : State) (id : Nat) (k : Clause) (r : Queue),
      s.live = true →
      s.home.finished = [] →
      s.clauseAt id = some k →
      s.queue k.queue = some r →
      r.writing = true →
      descOp k.desc = 0x42 ∧ k.ending = none ∧ k.issued = 0 ∧ k.untriggered = false ∧ k.stage = .waiting ∧ k.origin = none →
      k.flying = [] ∧ k.failed = [] ∧ k.counted = [] ∧ k.chunks = 0 ∧ k.arriving = 0 ∧ k.arriveErr = .none ∧ k.placed = [] →
      descArriveEn k.desc = false ∧ descCmplErr k.desc = false →
      s.waitMet k = true →
      Completes (.wait id) s (fun t => t.queue k.queue = some { r with records := r.records ++ [(id, recordBytes (descTag k.desc) .none 0x42 0 k.seq noSeg 1 0 0)], blocked := if r.blocked = some id then none else r.blocked } ∧
        (t.clauseAt id).map (fun x => (x.stage, x.chunks, x.counted, x.extents)) = some (.done, 1, [0], []) ∧ (∀ n : Nat, n ≠ id → t.clauseAt n = s.clauseAt n) ∧ (∀ n : Nat, n ≠ k.queue → t.queue n = s.queue n) ∧
        t = { s with work := { s.work with clauses := t.work.clauses, queues := t.work.queues, waitTile := t.work.waitTile }, ptus := t.ptus, tele := { s.tele with hists := t.tele.hists } })) ∧
  (∀ (s : State) (id : Nat) (k : Clause) (r : Queue),
      s.live = true →
      s.home.finished = [] →
      s.clauseAt id = some k →
      s.queue k.queue = some r →
      r.writing = true →
      descOp k.desc = 0x42 ∧ k.ending = none ∧ k.issued = 0 ∧ k.untriggered = false ∧ k.stage = .waiting ∧ k.origin = none →
      k.flying = [] ∧ k.failed = [] ∧ k.counted = [] ∧ k.chunks = 0 ∧ k.arriving = 0 ∧ k.arriveErr = .none ∧ k.placed = [] →
      descArriveEn k.desc = false ∧ descCmplErr k.desc = false →
      s.waitMet k = true →
      Completes (.waitSatisfied id) s (fun t => t.queue k.queue = some { r with records := r.records ++ [(id, recordBytes (descTag k.desc) .none 0x42 0 k.seq noSeg 1 0 0)], blocked := if r.blocked = some id then none else r.blocked } ∧
        (t.clauseAt id).map (fun x => (x.stage, x.chunks, x.counted, x.extents)) = some (.done, 1, [0], []) ∧ (∀ n : Nat, n ≠ id → t.clauseAt n = s.clauseAt n) ∧ (∀ n : Nat, n ≠ k.queue → t.queue n = s.queue n) ∧
        t = { s with work := { s.work with clauses := t.work.clauses, queues := t.work.queues, waitTile := t.work.waitTile }, ptus := t.ptus, tele := { s.tele with hists := t.tele.hists } })) ∧
  (∀ (s : State) (id : Nat) (k : Clause) (r : Queue),
      s.live = true →
      s.home.finished = [] →
      s.clauseAt id = some k →
      s.queue k.queue = some r →
      r.writing = true →
      descOp k.desc = 0x42 ∧ k.ending = none ∧ k.issued = 0 ∧ k.untriggered = false ∧ k.stage = .waiting ∧ k.origin = none →
      k.flying = [] ∧ k.arriving = 0 ∧ k.placed = [] ∧ k.met = false →
      s.get (R.QPAGE_STATUS_STATE k.queue) = 1 ∧ r.held = false →
      k.queue < 32768 →
      Completes (.waitTimeout id) s (fun t => t.get (R.QPAGE_STATUS_STATE k.queue) = 2 ∧ t.get (R.QPAGE_STATUS_ERR k.queue) = Err.code .timeout ∧
        (t.queue k.queue).map (fun x => x.records) = some (r.records ++ [(id, recordBytes (descTag k.desc) .timeout 0x42 0 k.seq noSeg k.chunks 0 0)]) ∧ (t.clauseAt id).map (fun x => x.stage) = some .done ∧
        (∀ n : Nat, n ≠ id → t.clauseAt n = s.clauseAt n) ∧ (∀ n : Nat, n ≠ k.queue → t.queue n = s.queue n) ∧ t.mem = s.mem ∧ OnlyFields [R.QPAGE_STATUS_STATE k.queue, R.QPAGE_STATUS_ERR k.queue] s t)) ∧
  (∀ (s : State) (id : Nat) (k : Clause),
      s.live = true →
      s.home.finished = [] →
      s.clauseAt id = some k →
      descOp k.desc = 0x41 ∧ k.ending = none ∧ k.issued = 0 ∧ k.untriggered = false ∧ k.stage = .waiting ∧ k.cancelled = false ∧ k.flying = [] →
      nameChip (fieldAt k.desc 32 8) = s.chip ∧ s.ownsCounter k.partition (nameIndex (fieldAt k.desc 32 8)) = true →
      s.work.clauses = [(id, k)] →
      s.home.tiles = [] →
      Calm s →
      Completes (.counterOp id) s (fun t => t.counter (nameIndex (fieldAt k.desc 32 8)) = (if bit (fieldAt k.desc 48 1) 0 then fieldAt k.desc 40 8 else (s.counter (nameIndex (fieldAt k.desc 32 8)) + fieldAt k.desc 40 8) % 2 ^ 64) ∧
        (∀ n : Nat, n ≠ nameIndex (fieldAt k.desc 32 8) → t.counter n = s.counter n) ∧ (t.clauseAt id).map (fun x => (x.issued, x.timed, x.flying, x.failed, x.ending)) = some (1, true, [], k.failed, none) ∧ t.mem = s.mem)) ∧
  (∀ (s : State) (id fpa n : Nat) (k : Clause),
      s.live = true →
      s.home.finished = [] →
      s.clauseAt id = some k →
      descOp k.desc = 0x30 ∧ k.ending = none ∧ k.issued = 0 ∧ k.stage = .running ∧ k.placed ≠ [] →
      fieldAt k.desc 40 2 = n →
      0 < n →
      k.runs (fieldAt k.desc 32 8) (4 * n) = some [(fpa, 4 * n)] →
      s.poisonedIn k.partition 0 (fieldAt k.desc 32 8) [(fpa, 4 * n)] = false →
      s.replicaOf fpa = none →
      MaySend s k.partition fpa →
      fpa % 4096 + 4 * n ≤ 4096 →
      Completes (.kernel id) s (fun t => Sent s t fpa 1 (.program id) ∧ t.clauseAt id = some { k with issued := 1, timed := true, flying := tset (2 ^ 41) ((tget (2 ^ 41) k.flying).getD 0 + 1) k.flying } ∧ (∀ m : Nat, m ≠ id → t.clauseAt m = s.clauseAt m) ∧
        t.mem = s.mem ∧ t.xlat = s.xlat ∧ t.home = s.home ∧ t.out = s.out)) ∧
  (∀ (s : State) (id fpa n : Nat) (k : Clause) (c : At) (x : Ctx),
      s.live = true →
      Calm s →
      s.clauseAt id = some k →
      descOp k.desc = 0x30 ∧ k.ending = none ∧ k.issued = 0 ∧ k.stage = .running →
      k.placed = [c] →
      s.ctx c = some x →
      x.clause = id →
      fieldAt k.desc 40 2 = n →
      0 < n →
      k.runs (fieldAt k.desc 32 8) (4 * n) = some [(fpa, 4 * n)] →
      s.poisonedIn k.partition 0 (fieldAt k.desc 32 8) [(fpa, 4 * n)] = false →
      fpa % 4096 + 4 * n ≤ 4096 →
      Reached s k.partition fpa →
      Intact s fpa (4 * n) →
      (linesOf fpa (4 * n)).all (s.lineClear false) = true →
      k.flying = [] →
      Completes (.kernel id) s (fun t => t.ctx c = some { x with prog := words32 (memRead s.mem (memKey (fpaUnit fpa) (fpaOff fpa)) (4 * n)), mode := .running } ∧ t.clauseAt id = some { k with issued := 1, timed := true } ∧
        (∀ m : Nat, m ≠ id → t.clauseAt m = s.clauseAt m) ∧ (∀ m : Nat, m ≠ c.tile → t.tile m = s.tile m) ∧ t.mem = s.mem ∧ t.xlat = s.xlat ∧ t.fabric = s.fabric ∧ t.out = s.out)) ∧
  (∀ (s : State) (id u : Nat) (k : Clause),
      s.live = true →
      s.home.finished = [] →
      s.clauseAt id = some k →
      descOp k.desc = 0x20 ∧ k.ending = none ∧ k.stage = .waiting ∧ k.untriggered = false ∧ k.ptu = none ∧ k.extra = [] ∧ k.flying = [] →
      s.chooseUnit k = some u →
      Completes (.transform id) s (fun t => t.clauseAt id = some { k with ptu := some u } ∧ t.ptu u = { s.ptu u with waiting := (s.ptu u).waiting ++ [id] } ∧ (∀ n : Nat, n ≠ id → t.clauseAt n = s.clauseAt n) ∧ (∀ n : Nat, n ≠ u → t.ptu n = s.ptu n) ∧
        t = { s with work := { s.work with clauses := t.work.clauses }, ptus := t.ptus })) ∧
  (∀ (s : State) (id c : Nat) (k : Clause),
      s.live = true →
      s.home.finished = [] →
      s.clauseAt id = some k →
      k.stage ≠ .done ∧ k.stage ≠ .away →
      chunkExists k.desc k.extra (s.role k) c = true →
      s.chunkDone k c = true →
      descArriveEn k.desc = false →
      Completes (.chunkComplete id c) s (fun t => t.clauseAt id = some { k with chunks := k.chunks + 1, counted := c :: k.counted } ∧ (∀ n : Nat, n ≠ id → t.clauseAt n = s.clauseAt n) ∧ t = { s with work := { s.work with clauses := t.work.clauses } })) ∧
  (∀ (s : State) (id : Nat) (k : Clause) (r : Queue) (e : Ending),
      s.live = true →
      s.home.finished = [] →
      s.clauseAt id = some k →
      s.queue k.queue = some r →
      r.writing = true →
      k.origin = none ∧ k.stage = .running ∧ k.flying = [] ∧ k.arriving = 0 ∧ k.placed = [] →
      isColl (descOp k.desc) = false →
      k.ending = some e ∧ e.status ≠ .none →
      Completes (.clauseComplete id) s (fun t => (t.queue k.queue).map (fun x => x.records) = some (r.records ++ [(id, recordBytes (descTag k.desc) e.status (descOp k.desc) e.exc k.seq e.segment k.chunks e.detail e.addr)]) ∧
        (t.clauseAt id).map (fun x => (x.stage, x.extents, x.ending)) = some (.done, [], some e) ∧ (∀ n : Nat, n ≠ id → t.clauseAt n = s.clauseAt n) ∧ (∀ n : Nat, n ≠ k.queue → t.queue n = s.queue n) ∧
        t = { s with work := { s.work with clauses := t.work.clauses, queues := t.work.queues, waitTile := t.work.waitTile }, ptus := t.ptus, tele := { s.tele with hists := t.tele.hists } }))

/-- A running member clause of each collective opcode reads a chunk of its SRC once. (R213, R214, R216, R217, R219, R222, R223, R224, Table 9-3, 09_collectives.md) -/
def Obligations.MembersReadTheirChunks : Prop :=
  (∀ (s : State) (id q off n fpa : Nat) (k : Clause) (g : Group) (i : Instance) (js : List Nat),
      s.live = true →
      s.home.finished = [] →
      s.clauseAt id = some k →
      descOp k.desc = 0x10 ∧ k.ending = none ∧ k.timed = true →
      s.instanceRuns k = true →
      s.group (cGroup k.desc) = some g ∧ g.body.group = cGroup k.desc →
      s.instance_ (cGroup k.desc) k.inst = some i →
      i.readySent = true ∧ i.spill = [] →
      s.localNext k = some q →
      s.srcPlace k q = some (off, n) →
      s.srcStarted k (cSrc k.desc + off) n = true →
      tget (s.localKey g k q) i.chunks = none →
      (((i.chunks.filter (fun c => c.1 / 2 ^ 32 % 8 == 0)).flatMap (fun c => c.2.slots)).length + accSlots (cFmt k.desc) ≤ g.body.slots / 2) →
      i.takeSlots g.body.slots (accSlots (cFmt k.desc)) = some js →
      k.runs (cSrc k.desc + off) n = some [(fpa, n)] →
      s.poisonedIn k.partition 0 (cSrc k.desc + off) [(fpa, n)] = false →
      s.replicaOf fpa = none →
      MaySend s k.partition fpa →
      fpa % 4096 + n ≤ 4096 ∧ 0 < n →
      Completes (.reduce id q) s (fun t => Sent s t fpa 1 (.collRead id q) ∧ t.clauseAt id = some { k with indices := tset (2 ^ 46 + q) 1 k.indices, issued := k.segment, flying := tset (2 ^ 41) ((tget (2 ^ 41) k.flying).getD 0 + 1) k.flying } ∧
        (∀ m : Nat, m ≠ id → t.clauseAt m = s.clauseAt m) ∧ t.mem = s.mem ∧ t.instance_ (cGroup k.desc) k.inst = some { i with chunks := tset (s.localKey g k q) (CollChunk.empty js) i.chunks } ∧ (∀ m : Nat, m ≠ cGroup k.desc → t.group m = s.group m) ∧ t.coll = { s.coll with groups := t.coll.groups } ∧ t.xlat = s.xlat ∧ t.out = s.out)) ∧
  (∀ (s : State) (id q off n fpa : Nat) (k : Clause) (g : Group) (i : Instance) (js : List Nat),
      s.live = true →
      s.home.finished = [] →
      s.clauseAt id = some k →
      descOp k.desc = 0x11 ∧ k.ending = none ∧ k.timed = true →
      s.instanceRuns k = true →
      s.group (cGroup k.desc) = some g ∧ g.body.group = cGroup k.desc →
      s.instance_ (cGroup k.desc) k.inst = some i →
      i.readySent = true ∧ i.spill = [] →
      s.localNext k = some q →
      s.srcPlace k q = some (off, n) →
      s.srcStarted k (cSrc k.desc + off) n = true →
      tget (s.localKey g k q) i.chunks = none →
      (((i.chunks.filter (fun c => c.1 / 2 ^ 32 % 8 == 0)).flatMap (fun c => c.2.slots)).length + accSlots (cFmt k.desc) ≤ g.body.slots / 2) →
      i.takeSlots g.body.slots (accSlots (cFmt k.desc)) = some js →
      k.runs (cSrc k.desc + off) n = some [(fpa, n)] →
      s.poisonedIn k.partition 0 (cSrc k.desc + off) [(fpa, n)] = false →
      s.replicaOf fpa = none →
      MaySend s k.partition fpa →
      fpa % 4096 + n ≤ 4096 ∧ 0 < n →
      Completes (.allreduce id q) s (fun t => Sent s t fpa 1 (.collRead id q) ∧ t.clauseAt id = some { k with indices := tset (2 ^ 46 + q) 1 k.indices, issued := k.segment, flying := tset (2 ^ 41) ((tget (2 ^ 41) k.flying).getD 0 + 1) k.flying } ∧
        (∀ m : Nat, m ≠ id → t.clauseAt m = s.clauseAt m) ∧ t.mem = s.mem ∧ t.instance_ (cGroup k.desc) k.inst = some { i with chunks := tset (s.localKey g k q) (CollChunk.empty js) i.chunks } ∧ (∀ m : Nat, m ≠ cGroup k.desc → t.group m = s.group m) ∧ t.coll = { s.coll with groups := t.coll.groups } ∧ t.xlat = s.xlat ∧ t.out = s.out)) ∧
  (∀ (s : State) (id q off n fpa : Nat) (k : Clause) (g : Group) (i : Instance) (js : List Nat),
      s.live = true →
      s.home.finished = [] →
      s.clauseAt id = some k →
      descOp k.desc = 0x12 ∧ k.ending = none ∧ k.timed = true →
      s.instanceRuns k = true →
      s.group (cGroup k.desc) = some g ∧ g.body.group = cGroup k.desc →
      s.instance_ (cGroup k.desc) k.inst = some i →
      i.readySent = true ∧ i.spill = [] →
      s.localNext k = some q →
      s.srcPlace k q = some (off, n) →
      s.srcStarted k (cSrc k.desc + off) n = true →
      tget (s.localKey g k q) i.chunks = none →
      (((i.chunks.filter (fun c => c.1 / 2 ^ 32 % 8 == 0)).flatMap (fun c => c.2.slots)).length + accSlots (cFmt k.desc) ≤ g.body.slots / 2) →
      i.takeSlots g.body.slots (accSlots (cFmt k.desc)) = some js →
      k.runs (cSrc k.desc + off) n = some [(fpa, n)] →
      s.poisonedIn k.partition 0 (cSrc k.desc + off) [(fpa, n)] = false →
      s.replicaOf fpa = none →
      MaySend s k.partition fpa →
      fpa % 4096 + n ≤ 4096 ∧ 0 < n →
      Completes (.reduceScatter id q) s (fun t => Sent s t fpa 1 (.collRead id q) ∧ t.clauseAt id = some { k with indices := tset (2 ^ 46 + q) 1 k.indices, issued := k.segment, flying := tset (2 ^ 41) ((tget (2 ^ 41) k.flying).getD 0 + 1) k.flying } ∧
        (∀ m : Nat, m ≠ id → t.clauseAt m = s.clauseAt m) ∧ t.mem = s.mem ∧ t.instance_ (cGroup k.desc) k.inst = some { i with chunks := tset (s.localKey g k q) (CollChunk.empty js) i.chunks } ∧ (∀ m : Nat, m ≠ cGroup k.desc → t.group m = s.group m) ∧ t.coll = { s.coll with groups := t.coll.groups } ∧ t.xlat = s.xlat ∧ t.out = s.out)) ∧
  (∀ (s : State) (id q off n fpa : Nat) (k : Clause) (g : Group) (i : Instance) (js : List Nat),
      s.live = true →
      s.home.finished = [] →
      s.clauseAt id = some k →
      descOp k.desc = 0x13 ∧ k.ending = none ∧ k.timed = true →
      s.instanceRuns k = true →
      s.group (cGroup k.desc) = some g ∧ g.body.group = cGroup k.desc →
      s.instance_ (cGroup k.desc) k.inst = some i →
      i.readySent = true ∧ i.spill = [] →
      s.localNext k = some q →
      s.srcPlace k q = some (off, n) →
      s.srcStarted k (cSrc k.desc + off) n = true →
      tget (s.localKey g k q) i.chunks = none →
      (((i.chunks.filter (fun c => c.1 / 2 ^ 32 % 8 == 0)).flatMap (fun c => c.2.slots)).length + 1 ≤ g.body.slots / 2) →
      i.takeSlots g.body.slots (1) = some js →
      k.runs (cSrc k.desc + off) n = some [(fpa, n)] →
      s.poisonedIn k.partition 0 (cSrc k.desc + off) [(fpa, n)] = false →
      s.replicaOf fpa = none →
      MaySend s k.partition fpa →
      fpa % 4096 + n ≤ 4096 ∧ 0 < n →
      Completes (.allgather id q) s (fun t => Sent s t fpa 1 (.collRead id q) ∧ t.clauseAt id = some { k with indices := tset (2 ^ 46 + q) 1 k.indices, issued := k.segment, flying := tset (2 ^ 41) ((tget (2 ^ 41) k.flying).getD 0 + 1) k.flying } ∧
        (∀ m : Nat, m ≠ id → t.clauseAt m = s.clauseAt m) ∧ t.mem = s.mem ∧ t.instance_ (cGroup k.desc) k.inst = some { i with chunks := tset (s.localKey g k q) (CollChunk.empty js) i.chunks } ∧ (∀ m : Nat, m ≠ cGroup k.desc → t.group m = s.group m) ∧ t.coll = { s.coll with groups := t.coll.groups } ∧ t.xlat = s.xlat ∧ t.out = s.out)) ∧
  (∀ (s : State) (id q off n fpa : Nat) (k : Clause) (g : Group) (i : Instance) (js : List Nat),
      s.live = true →
      s.home.finished = [] →
      s.clauseAt id = some k →
      descOp k.desc = 0x14 ∧ k.ending = none ∧ k.timed = true →
      s.instanceRuns k = true →
      s.group (cGroup k.desc) = some g ∧ g.body.group = cGroup k.desc →
      s.instance_ (cGroup k.desc) k.inst = some i →
      i.readySent = true ∧ i.spill = [] →
      s.localNext k = some q →
      s.srcPlace k q = some (off, n) →
      s.srcStarted k (cSrc k.desc + off) n = true →
      tget (s.localKey g k q) i.chunks = none →
      (((i.chunks.filter (fun c => c.1 / 2 ^ 32 % 8 == 0)).flatMap (fun c => c.2.slots)).length + 1 ≤ g.body.slots / 2) →
      i.takeSlots g.body.slots (1) = some js →
      k.runs (cSrc k.desc + off) n = some [(fpa, n)] →
      s.poisonedIn k.partition 0 (cSrc k.desc + off) [(fpa, n)] = false →
      s.replicaOf fpa = none →
      MaySend s k.partition fpa →
      fpa % 4096 + n ≤ 4096 ∧ 0 < n →
      Completes (.broadcast id q) s (fun t => Sent s t fpa 1 (.collRead id q) ∧ t.clauseAt id = some { k with indices := tset (2 ^ 46 + q) 1 k.indices, issued := k.segment, flying := tset (2 ^ 41) ((tget (2 ^ 41) k.flying).getD 0 + 1) k.flying } ∧
        (∀ m : Nat, m ≠ id → t.clauseAt m = s.clauseAt m) ∧ t.mem = s.mem ∧ t.instance_ (cGroup k.desc) k.inst = some { i with chunks := tset (s.localKey g k q) (CollChunk.empty js) i.chunks } ∧ (∀ m : Nat, m ≠ cGroup k.desc → t.group m = s.group m) ∧ t.coll = { s.coll with groups := t.coll.groups } ∧ t.xlat = s.xlat ∧ t.out = s.out)) ∧
  (∀ (s : State) (id q off n fpa : Nat) (k : Clause) (g : Group) (i : Instance) (js : List Nat),
      s.live = true →
      s.home.finished = [] →
      s.clauseAt id = some k →
      descOp k.desc = 0x15 ∧ k.ending = none ∧ k.timed = true →
      s.instanceRuns k = true →
      s.group (cGroup k.desc) = some g ∧ g.body.group = cGroup k.desc →
      s.instance_ (cGroup k.desc) k.inst = some i →
      i.readySent = true ∧ i.spill = [] →
      s.localNext k = some q →
      s.srcPlace k q = some (off, n) →
      s.srcStarted k (cSrc k.desc + off) n = true →
      tget (s.localKey g k q) i.chunks = none →
      (((i.chunks.filter (fun c => c.1 / 2 ^ 32 % 8 == 0)).flatMap (fun c => c.2.slots)).length + 1 ≤ g.body.slots / 2) →
      i.takeSlots g.body.slots (1) = some js →
      k.runs (cSrc k.desc + off) n = some [(fpa, n)] →
      s.poisonedIn k.partition 0 (cSrc k.desc + off) [(fpa, n)] = false →
      s.replicaOf fpa = none →
      MaySend s k.partition fpa →
      fpa % 4096 + n ≤ 4096 ∧ 0 < n →
      Completes (.alltoall id q) s (fun t => Sent s t fpa 1 (.collRead id q) ∧ t.clauseAt id = some { k with indices := tset (2 ^ 46 + q) 1 k.indices, issued := k.segment, flying := tset (2 ^ 41) ((tget (2 ^ 41) k.flying).getD 0 + 1) k.flying } ∧
        (∀ m : Nat, m ≠ id → t.clauseAt m = s.clauseAt m) ∧ t.mem = s.mem ∧ t.instance_ (cGroup k.desc) k.inst = some { i with chunks := tset (s.localKey g k q) (CollChunk.empty js) i.chunks } ∧ (∀ m : Nat, m ≠ cGroup k.desc → t.group m = s.group m) ∧ t.coll = { s.coll with groups := t.coll.groups } ∧ t.xlat = s.xlat ∧ t.out = s.out)) ∧
  (∀ (s : State) (id q off n fpa : Nat) (k : Clause) (g : Group) (i : Instance) (js : List Nat),
      s.live = true →
      s.home.finished = [] →
      s.clauseAt id = some k →
      descOp k.desc = 0x16 ∧ k.ending = none ∧ k.timed = true →
      s.instanceRuns k = true →
      s.group (cGroup k.desc) = some g ∧ g.body.group = cGroup k.desc →
      s.instance_ (cGroup k.desc) k.inst = some i →
      i.readySent = true ∧ i.spill = [] →
      s.localNext k = some q →
      s.srcPlace k q = some (off, n) →
      s.srcStarted k (cSrc k.desc + off) n = true →
      tget (s.localKey g k q) i.chunks = none →
      (((i.chunks.filter (fun c => c.1 / 2 ^ 32 % 8 == 0)).flatMap (fun c => c.2.slots)).length + 1 ≤ g.body.slots / 2) →
      i.takeSlots g.body.slots (1) = some js →
      k.runs (cSrc k.desc + off) n = some [(fpa, n)] →
      s.poisonedIn k.partition 0 (cSrc k.desc + off) [(fpa, n)] = false →
      s.replicaOf fpa = none →
      MaySend s k.partition fpa →
      fpa % 4096 + n ≤ 4096 ∧ 0 < n →
      Completes (.alltoallv id q) s (fun t => Sent s t fpa 1 (.collRead id q) ∧ t.clauseAt id = some { k with indices := tset (2 ^ 46 + q) 1 k.indices, issued := k.segment, flying := tset (2 ^ 41) ((tget (2 ^ 41) k.flying).getD 0 + 1) k.flying } ∧
        (∀ m : Nat, m ≠ id → t.clauseAt m = s.clauseAt m) ∧ t.mem = s.mem ∧ t.instance_ (cGroup k.desc) k.inst = some { i with chunks := tset (s.localKey g k q) (CollChunk.empty js) i.chunks } ∧ (∀ m : Nat, m ≠ cGroup k.desc → t.group m = s.group m) ∧ t.coll = { s.coll with groups := t.coll.groups } ∧ t.xlat = s.xlat ∧ t.out = s.out))

/-- Slots are granted, READY, data, checks and counts are taken in, and an abort ends the group's clauses. (R214, R215, R222, R224, R225, R228, R229, R230, R236, R237, Table 9-5, 09_collectives.md) -/
def Obligations.CollectivesExchangeAndAbort : Prop :=
  (∀ (s : State) (p n num : Nat) (g : Group) (i : Instance),
      s.live = true →
      p < 4096 →
      (s.coll.waiting.find? (fun w => w.1 == p) = some (p, n, num)) →
      s.group n = some g →
      s.instance_ n num = some i →
      g.body.slots ≤ s.get (R.CONJ_PART_QUOTA p) - s.get (R.CONJ_PART_USED p) ∧ g.body.slots ≤ s.get R.CONJ_STAT_FREE →
      Completes (.slotReservationGrant p) s (fun t => (t.instance_ n num) = some { i with reserved := true, own := g.body.slots, spill := [] } ∧ t.get (R.CONJ_PART_USED p) = (s.get (R.CONJ_PART_USED p) + g.body.slots) % 2 ^ (R.CONJ_PART_USED p).width ∧
        t.get R.CONJ_STAT_FREE = (s.get R.CONJ_STAT_FREE - g.body.slots) % 2 ^ R.CONJ_STAT_FREE.width ∧ t.coll.waiting = s.coll.waiting.filter (fun w => !(w.2.1 == n && w.2.2 == num)) ∧ t.mem = s.mem ∧ t.xlat = s.xlat ∧
        t = { s with regs := t.regs, coll := { s.coll with groups := t.coll.groups, waiting := t.coll.waiting }, fresh := s.fresh + 1 })) ∧
  (∀ (s : State) (n id c : Nat) (g : Group) (i : Instance) (k : Clause),
      s.live = true →
      s.home.finished = [] →
      s.group n = some g →
      g.body.group = n →
      g.state = 1 ∧ g.current = some i ∧ s.boot.modeChange = none →
      i.readySent = false ∧ i.reserved = true ∧ i.accepted.length = g.body.slotList.length ∧ i.members = [id] ∧ i.digests = [] →
      lacksArrays k.desc k.extra g.body.members = false →
      s.clauseAt id = some k →
      descOp i.desc ≠ 0x16 →
      s.senders g i = [c] →
      c < 2 ^ 15 ∧ s.unreachable c = false →
      Completes (.collReadySend n) s (fun t => t.instance_ n i.number = some { i with digest := digestOf k.desc k.extra, readySent := true, started := true } ∧
        (Emits s t (c, 0, 0x13, n + i.number % 2 ^ 16 * 2 ^ 14, packBytes [(32, digestOf k.desc k.extra), (96, 0)])) ∧
        t.get R.CONJ_STAT_INSTANCES = (s.get R.CONJ_STAT_INSTANCES + 1) % 2 ^ R.CONJ_STAT_INSTANCES.width ∧
        t.work = s.work ∧ t.mem = s.mem ∧ t.out = s.out ∧ t.xlat = s.xlat)) ∧
  (∀ (s : State) (x : CollTag) (g : Group) (i : Instance) (data : List Byte),
      s.live = true →
      s.home.finished = [] →
      s.group x.group = some g →
      g.generation = x.gen ∧ g.body.partition = x.partition ∧ g.state = 1 ∧ g.body.group = x.group →
      s.instance_ x.group (g.tagged x.inst) = some i →
      Completes (.collData x data) s (fun t => t.instance_ x.group (g.tagged x.inst) = some { i with inFlight := tset (CollTag.key x) (((tget (CollTag.key x) i.inFlight).getD []) ++ data) i.inFlight } ∧ t = { s with coll := { s.coll with groups := t.coll.groups } })) ∧
  (∀ (s : State) (x : CollTag) (g : Group) (i : Instance) (crc : Nat),
      s.live = true →
      s.home.finished = [] →
      s.group x.group = some g →
      g.generation = x.gen ∧ g.body.partition = x.partition ∧ g.state = 1 ∧ g.body.group = x.group →
      s.instance_ x.group (g.tagged x.inst) = some i →
      crc32c ((tget (CollTag.key x) i.inFlight).getD []) ≠ crc →
      x.src < 2 ^ 15 ∧ s.unreachable x.src = false →
      Completes (.collCheck x crc) s (fun t => t.instance_ x.group (g.tagged x.inst) = some { i with inFlight := terase (CollTag.key x) i.inFlight, fails := tset (CollTag.key x) ((tget (CollTag.key x) i.fails).getD 0 + 1) i.fails } ∧ t.get R.CONJ_COUNT_CHECK_FAILS = min (s.get R.CONJ_COUNT_CHECK_FAILS + 1) (2 ^ R.CONJ_COUNT_CHECK_FAILS.width - 1) ∧
        (Emits s t (x.src, 0, 0x14, x.group + g.tagged x.inst % 2 ^ 16 * 2 ^ 14, leBytes 16 0)) ∧ t.work = s.work ∧ t.mem = s.mem ∧ t.out = s.out)) ∧
  (∀ (s : State) (x : CollTag) (g : Group) (i : Instance) (data : List Byte) (js : List Nat),
      s.live = true →
      s.home.finished = [] →
      s.group x.group = some g →
      g.generation = x.gen ∧ g.body.partition = x.partition ∧ g.state = 1 ∧ g.body.group = x.group →
      s.instance_ x.group (g.tagged x.inst) = some i →
      i.spill = [] ∧ i.takeSlots g.body.slots (accSlots (cFmt i.desc)) = some js →
      tget (CollTag.key x) i.inFlight = some data →
      x.src < 2 ^ 15 ∧ s.unreachable x.src = false →
      x.phase = 1 ∧ descOp i.desc = 0x11 →
      2 < g.body.size 0 →
      g.body.posOf (chunkOwner i.desc i.extra (s.roleFor i.desc i.queue) g.body x.chunk) 0 = g.body.posOf (s.chipIndex g.body s.chip) 0 →
      tget (chunkKey 1 x.chunk) i.chunks = none →
      Completes (.collCheck x (crc32c data)) s (fun t => (Emits s t (x.src, 0, 0x14, x.group + g.tagged x.inst % 2 ^ 16 * 2 ^ 14, leBytes 16 1)) ∧
        t.instance_ x.group (g.tagged x.inst) = some { i with inFlight := terase (CollTag.key x) i.inFlight, fails := terase (CollTag.key x) i.fails, chunks := tset (chunkKey 1 x.chunk) { data := elemBytes (fmtWidth (accFmt (cFmt i.desc))) (fromWire i.desc (rotLen i.desc (s.chunkElems i x.chunk)) data), contributions := 1, unpassed := [], waitReady := [], slots := js } i.chunks } ∧
        t.work = s.work ∧ t.mem = s.mem ∧ t.out = s.out)) ∧
  (∀ (s : State) (x : CollTag) (g : Group) (i : Instance) (counts : List Nat),
      s.live = true →
      s.home.finished = [] →
      s.group x.group = some g →
      g.generation = x.gen ∧ g.body.partition = x.partition ∧ g.state = 1 ∧ g.body.group = x.group →
      s.instance_ x.group (g.tagged x.inst) = some i →
      i.members = [] ∧ i.inFlight = [] →
      Completes (.collCounts x counts) s (fun t => t.instance_ x.group (g.tagged x.inst) = some { i with counted := i.counted ++ [x.src] } ∧ t = { s with coll := { s.coll with groups := t.coll.groups } })) ∧
  (∀ (s : State) (x : CollTag) (g : Group) (i : Instance) (digest : Nat),
      s.live = true →
      s.home.finished = [] →
      s.group x.group = some g →
      g.generation = x.gen ∧ g.body.partition = x.partition ∧ g.state = 1 ∧ g.body.group = x.group →
      s.instance_ x.group (g.tagged x.inst) = some i →
      i.readySent = false ∨ (i.digest = digest ∧ descOp i.desc ≠ 0x16) →
      i.chunks = [] →
      Completes (.collReady x digest) s (fun t => t.instance_ x.group (g.tagged x.inst) = some { i with ready := i.ready ++ [x.src], digests := i.digests ++ [digest] } ∧ t = { s with coll := { s.coll with groups := t.coll.groups } })) ∧
  (∀ (s : State) (x : CollTag) (g : Group) (i : Instance) (c : CollChunk) (n : Nat),
      s.live = true →
      s.home.finished = [] →
      s.group x.group = some g →
      g.generation = x.gen ∧ g.body.partition = x.partition ∧ g.state = 1 ∧ g.body.group = x.group →
      s.instance_ x.group (g.tagged x.inst) = some i →
      tget (chunkKey x.phase x.chunk) i.chunks = some c →
      c.unpassed = [(x.src, n)] ∧ c.waitReady = [] →
      ((terase (chunkKey x.phase x.chunk) i.chunks).all (fun e => !sameCopy e.1 (chunkKey x.phase x.chunk) || !e.2.slots.isEmpty) = true) →
      (i.inFlight.all (fun e => decide (e.1 < 2 ^ 61)) = true) →
      4 ≤ x.phase ∧ x.phase ≠ 7 →
      ((i.members.any (fun id => (s.clauseAt id).any (fun k => k.stage != .done))) = true) →
      g.current = some i →
      Completes (.collCheckResult x true) s (fun t => t.instance_ x.group (g.tagged x.inst) = some { i with chunks := terase (chunkKey x.phase x.chunk) i.chunks } ∧ t = { s with coll := { s.coll with groups := t.coll.groups } })) ∧
  (∀ (s : State) (x : CollTag) (g : Group) (i : Instance) (c : CollChunk) (n : Nat),
      s.live = true →
      s.home.finished = [] →
      s.group x.group = some g →
      g.generation = x.gen ∧ g.body.partition = x.partition ∧ g.state = 1 ∧ g.body.group = x.group →
      s.instance_ x.group (g.tagged x.inst) = some i →
      tget (chunkKey x.phase x.chunk) i.chunks = some c →
      x.phase ≠ 7 →
      c.unpassed = [(x.src, n)] ∧ n < 3 ∧ 0 < c.data.length ∧ c.data.length ≤ 4096 →
      tget s.fabric.nextFrame s.fabric.frames = none ∧ tget (s.fabric.nextFrame + 1) s.fabric.frames = none →
      x.src < 2 ^ 15 ∧ s.unreachable x.src = false →
      Completes (.collCheckResult x false) s (fun t => t.instance_ x.group (g.tagged x.inst) = some { i with chunks := tset (chunkKey x.phase x.chunk) { c with unpassed := [(x.src, n + 1)] } i.chunks } ∧
        ((List.range 2).filterMap (fun j => (tget (s.fabric.nextFrame + j) t.fabric.frames).map (fun y => frameSays y.frame))) ++ ((t.fabric.waitIn.drop s.fabric.waitIn.length).map (fun y => frameSays y.frame)) =
          [(x.src, 0, 0x10, x.group + g.tagged x.inst % 2 ^ 16 * 2 ^ 14, c.data), (x.src, 0, 0x11, x.group + g.tagged x.inst % 2 ^ 16 * 2 ^ 14, checkBytes c.data)] ∧ t.work = s.work ∧ t.mem = s.mem ∧ t.out = s.out)) ∧
  (∀ (s : State) (n id peer phase chunk : Nat) (g : Group) (i : Instance) (k : Clause),
      s.live = true →
      s.home.finished = [] ∧ s.resendsFailed n peer phase chunk = true →
      s.storeFull = false →
      s.group n = some g →
      g.state = 1 ∧ g.inst = [i] ∧ i.members = [id] ∧ i.reserved = true ∧ i.spill = [] ∧ g.body.partition < 4096 →
      s.abortPeers g.body 0 = [] ∧ s.abortPeers g.body 1 = [] ∧ s.abortPeers g.body 2 = [] →
      s.clauseAt id = some k →
      k.ending = none ∧ k.stage = .running ∧ k.placed = [] ∧ k.untriggered = false →
      Completes (.collCheckExhausted n peer phase chunk) s (fun t => (t.group n) = some { g with state := 2, cause := Err.code .integrity, inst := [] } ∧ (t.clauseAt id).map (fun y => y.ending) = some (some (ending .aborted noSeg 0)) ∧ (∀ m : Nat, m ≠ id → t.clauseAt m = s.clauseAt m) ∧
        t.get R.CONJ_COUNT_ABORTS = min (s.get R.CONJ_COUNT_ABORTS + 1) (2 ^ R.CONJ_COUNT_ABORTS.width - 1) ∧ t.get R.CONJ_STAT_FREE = (s.get R.CONJ_STAT_FREE + i.own) % 2 ^ R.CONJ_STAT_FREE.width ∧ t.get (R.CONJ_PART_USED g.body.partition) = (s.get (R.CONJ_PART_USED g.body.partition) - i.own) % 2 ^ (R.CONJ_PART_USED g.body.partition).width ∧
        t.mem = s.mem ∧ t.xlat = s.xlat ∧ t.fabric = s.fabric ∧ t.nelar.nextOwn = (s.nelar.nextOwn + 1) % 2 ^ 32)) ∧
  (∀ (s : State) (n id : Nat) (g : Group) (i : Instance) (k : Clause),
      s.live = true →
      s.storeFull = false →
      s.group n = some g →
      g.state = 1 ∧ g.inst = [i] ∧ i.members = [id] ∧ i.reserved = true ∧ i.spill = [] ∧ g.body.partition < 4096 →
      s.abortPeers g.body 0 = [] ∧ s.abortPeers g.body 1 = [] ∧ s.abortPeers g.body 2 = [] →
      s.clauseAt id = some k →
      k.ending = none ∧ k.stage = .running ∧ k.placed = [] ∧ k.untriggered = false →
      Completes (.stallTimeout n) s (fun t => (t.group n) = some { g with state := 2, cause := Err.code .timeout, inst := [] } ∧ (t.clauseAt id).map (fun y => y.ending) = some (some (ending .aborted noSeg 0)) ∧ (∀ m : Nat, m ≠ id → t.clauseAt m = s.clauseAt m) ∧
        t.get R.CONJ_COUNT_ABORTS = min (s.get R.CONJ_COUNT_ABORTS + 1) (2 ^ R.CONJ_COUNT_ABORTS.width - 1) ∧ t.get R.CONJ_STAT_FREE = (s.get R.CONJ_STAT_FREE + i.own) % 2 ^ R.CONJ_STAT_FREE.width ∧ t.get (R.CONJ_PART_USED g.body.partition) = (s.get (R.CONJ_PART_USED g.body.partition) - i.own) % 2 ^ (R.CONJ_PART_USED g.body.partition).width ∧
        t.mem = s.mem ∧ t.xlat = s.xlat ∧ t.fabric = s.fabric ∧ t.nelar.nextOwn = (s.nelar.nextOwn + 1) % 2 ^ 32)) ∧
  (∀ (s : State) (id cause origin : Nat) (x : CollTag) (g : Group) (i : Instance) (k : Clause),
      s.live = true →
      s.group x.group = some g →
      g.generation = x.gen ∧ g.body.partition = x.partition →
      origin ≠ s.chip →
      g.state = 1 ∧ g.inst = [i] ∧ i.members = [id] ∧ i.reserved = true ∧ i.spill = [] ∧ g.body.partition < 4096 →
      s.abortPeers g.body 0 = [] ∧ s.abortPeers g.body 1 = [] ∧ s.abortPeers g.body 2 = [] →
      s.clauseAt id = some k →
      k.ending = none ∧ k.stage = .running ∧ k.placed = [] ∧ k.untriggered = false →
      Completes (.collAbort x cause origin) s (fun t => (t.group x.group) = some { g with state := 2, cause := cause, inst := [] } ∧ (t.clauseAt id).map (fun y => y.ending) = some (some (ending .aborted noSeg 0)) ∧ (∀ m : Nat, m ≠ id → t.clauseAt m = s.clauseAt m) ∧
        t.get R.CONJ_COUNT_ABORTS = min (s.get R.CONJ_COUNT_ABORTS + 1) (2 ^ R.CONJ_COUNT_ABORTS.width - 1) ∧ t.get R.CONJ_STAT_FREE = (s.get R.CONJ_STAT_FREE + i.own) % 2 ^ R.CONJ_STAT_FREE.width ∧ t.get (R.CONJ_PART_USED g.body.partition) = (s.get (R.CONJ_PART_USED g.body.partition) - i.own) % 2 ^ (R.CONJ_PART_USED g.body.partition).width ∧
        t.mem = s.mem ∧ t.xlat = s.xlat ∧ t.fabric = s.fabric ∧ t.nelar = s.nelar ∧ t.out = s.out))

/-- Transform units: clause start, pilot checks, calibration, carrier, enable, disable, drain. (R268, R276, R277, R278, R280, R281, R446, Table 11-4, Table 11-6, Table 11-7, 11_transform.md) -/
def Obligations.TransformUnitsStartCheckAndRecover : Prop :=
  (∀ (s : State) (u id fpa : Nat) (rest : List Nat) (k : Clause),
      s.live = true →
      s.home.finished = [] →
      s.ptuServes u = true →
      (s.ptu u).running = none ∧ (s.ptu u).asking = false ∧ (s.ptu u).waiting = id :: rest →
      s.clauseAt id = some k →
      k.stage ≠ .parked ∧ k.extra = [] →
      k.runs (tCoef k.desc) (tCoefLen k.desc) = some [(fpa, tCoefLen k.desc)] →
      s.poisonedIn k.partition 0 (tCoef k.desc) [(fpa, tCoefLen k.desc)] = false →
      s.replicaOf fpa = none →
      MaySend s k.partition fpa →
      fpa % 4096 + tCoefLen k.desc ≤ 4096 ∧ 0 < tCoefLen k.desc →
      Completes (.transformStart u) s (fun t => Sent s t fpa 1 (.coef u id) ∧ t.ptu u = { s.ptu u with asking := true } ∧ (∀ n : Nat, n ≠ u → t.ptu n = s.ptu n) ∧ t.mem = s.mem ∧ t.work = s.work ∧ t.xlat = s.xlat ∧ t.out = s.out)) ∧
  (∀ (s : State) (u : Nat),
      s.live = true →
      s.home.finished = [] →
      s.ptuServes u = true →
      ((s.ptu u).running = none ∧ (s.ptuState u = 3 → (s.ptu u).waiting ≠ [])) →
      bit (s.get R.CONJ_CTL_ROT_PTU) u = false ∨ (s.ptu u).rot = true ∨ (s.ptu u).waiting ≠ [] →
      Completes (.pilotCheck u true) s (fun t => t.get (R.PTU_VECTORS_VECTORS u) = (s.get (R.PTU_VECTORS_VECTORS u) + (s.ptu u).heldVecs) % 2 ^ 64 ∧ t.ptu u = { s.ptu u with heldVecs := 0, held := [], lastFailed := false } ∧
        (∀ n : Nat, n ≠ u → t.ptu n = s.ptu n) ∧ t = { s with regs := t.regs, ptus := t.ptus } ∧ OnlyFields [R.PTU_VECTORS_VECTORS u] s t)) ∧
  (∀ (s : State) (u : Nat),
      s.live = true →
      s.home.finished = [] →
      s.ptuServes u = true →
      (s.ptu u).lastFailed = false →
      Completes (.pilotCheck u false) s (fun t => t.get (R.PTU_COUNT_PILOT_FAILS u) = min (s.get (R.PTU_COUNT_PILOT_FAILS u) + 1) (2 ^ 32 - 1) ∧ t.get (R.PTU_COUNT_RECALS u) = min (s.get (R.PTU_COUNT_RECALS u) + 1) (2 ^ 32 - 1) ∧
        t.ptu u = { s.ptu u with heldVecs := if (s.ptu u).running = none then (s.ptu u).heldVecs else 0, held := [], lastFailed := true, calibrating := true } ∧
        (∀ n : Nat, n ≠ u → t.ptu n = s.ptu n) ∧ t = { s with regs := t.regs, ptus := t.ptus } ∧ OnlyFields [R.PTU_COUNT_PILOT_FAILS u, R.PTU_COUNT_RECALS u] s t)) ∧
  (∀ (s : State) (u : Nat),
      s.live = true →
      s.home.finished = [] →
      s.ptuServes u = true →
      (s.ptu u).lastFailed = true →
      (s.ptu u).running = none ∧ (s.ptu u).waiting = [] →
      Completes (.pilotCheck u false) s (fun t => t.ptuState u = 5 ∧ t.ptu u = { Ptu.reset with coef := (s.ptu u).coef, tables := (s.ptu u).tables } ∧ t.get (R.PTU_COUNT_PILOT_FAILS u) = min (s.get (R.PTU_COUNT_PILOT_FAILS u) + 1) (2 ^ 32 - 1) ∧
        t.tele.log = ((s.faultEvent 8 u 0 0) :: s.tele.log).take 1024 ∧ t.mem = s.mem ∧ t.work = s.work ∧ t.xlat = s.xlat ∧ (∀ n : Nat, n ≠ u → t.ptu n = s.ptu n) ∧
        (s.flag R.TELE_CTL_EVENTS_EN = false → OnlyFields [R.PTU_STAT_STATE u, R.PTU_COUNT_PILOT_FAILS u, R.FAULT_STAT_LOG_ENTRIES] s t ∧ t = { s with regs := t.regs, ptus := t.ptus, tele := { s.tele with log := t.tele.log } }))) ∧
  (∀ (s : State) (u : Nat),
      s.live = true →
      s.ptuServes u = true →
      Completes (.warmCalibration u) s (fun t => t.get (R.PTU_COUNT_RECALS u) = min (s.get (R.PTU_COUNT_RECALS u) + 1) (2 ^ 32 - 1) ∧ t.ptu u = { s.ptu u with calibrating := true } ∧ (∀ n : Nat, n ≠ u → t.ptu n = s.ptu n) ∧
        t = { s with regs := t.regs, ptus := t.ptus } ∧ OnlyFields [R.PTU_COUNT_RECALS u] s t)) ∧
  (∀ (s : State) (u : Nat),
      s.live = true →
      s.home.finished = [] →
      (s.ptu u).calibrating = true →
      (s.ptu u).running = none ∧ s.ptuState u ≠ 3 →
      bit (s.get R.CONJ_CTL_ROT_PTU) u = false ∨ (s.ptu u).rot = true ∨ (s.ptu u).waiting ≠ [] →
      Completes (.warmCalibrationDone u) s (fun t => t.ptu u = { s.ptu u with calibrating := false } ∧ (∀ n : Nat, n ≠ u → t.ptu n = s.ptu n) ∧ t = { s with ptus := t.ptus })) ∧
  (∀ (s : State) (u : Nat),
      s.live = true →
      u < 4 ∧ s.ptuState u = 1 →
      (s.ptu u).running = none ∧ (s.ptu u).waiting = [] ∧ (s.ptu u).asking = false ∧ (s.ptu u).rot = false →
      Completes (.coldCalibrationDone u) s (fun t => t.ptuState u = 2 ∧ t.get (R.PTU_STAT_LOADED u) = (if bit (s.get R.CONJ_CTL_ROT_PTU) u then 1 else s.get (R.PTU_STAT_LOADED u)) ∧
        t.get (R.PTU_STAT_MODE u) = (if bit (s.get R.CONJ_CTL_ROT_PTU) u then 0 else s.get (R.PTU_STAT_MODE u)) ∧
        t.ptu u = (if bit (s.get R.CONJ_CTL_ROT_PTU) u then { s.ptu u with coef := hCoef, rot := true } else s.ptu u) ∧ (∀ n : Nat, n ≠ u → t.ptu n = s.ptu n) ∧
        t = { s with regs := t.regs, ptus := t.ptus } ∧ OnlyFields [R.PTU_STAT_STATE u, R.PTU_STAT_LOADED u, R.PTU_STAT_MODE u] s t)) ∧
  (∀ (s : State) (u : Nat),
      s.live = true →
      u < 4 ∧ 1 ≤ s.ptuState u ∧ s.ptuState u ≤ 3 →
      Completes (.carrierLoss u) s (fun t => t.get (R.PTU_STAT_CARRIER u) = 0 ∧ t.ptu u = { s.ptu u with heldVecs := if (s.ptu u).running = none then (s.ptu u).heldVecs else 0, held := [], carrierLost := true } ∧
        (∀ n : Nat, n ≠ u → t.ptu n = s.ptu n) ∧ t = { s with regs := t.regs, ptus := t.ptus } ∧ OnlyFields [R.PTU_STAT_CARRIER u] s t)) ∧
  (∀ (s : State) (u : Nat),
      s.live = true →
      u < 4 ∧ (s.ptu u).carrierLost = true →
      s.ptuState u = 2 ∨ s.ptuState u = 3 →
      Completes (.carrierReturn u) s (fun t => t.get (R.PTU_STAT_CARRIER u) = 1 ∧ t.get (R.PTU_COUNT_RECALS u) = min (s.get (R.PTU_COUNT_RECALS u) + 1) (2 ^ 32 - 1) ∧ t.ptu u = { s.ptu u with carrierLost := false, calibrating := true } ∧
        (∀ n : Nat, n ≠ u → t.ptu n = s.ptu n) ∧ t = { s with regs := t.regs, ptus := t.ptus } ∧ OnlyFields [R.PTU_STAT_CARRIER u, R.PTU_COUNT_RECALS u] s t)) ∧
  (∀ (s : State) (u : Nat),
      s.live = true →
      s.home.finished = [] →
      u < 4 ∧ (s.ptu u).carrierLost = true ∧ s.ptuState u ≤ 3 →
      (s.ptu u).running = none ∧ (s.ptu u).waiting = [] →
      Completes (.carrierLossTimeout u) s (fun t => t.ptuState u = 5 ∧ t.ptu u = { Ptu.reset with coef := (s.ptu u).coef, tables := (s.ptu u).tables } ∧ t.tele.log = ((s.faultEvent 8 u 0 0) :: s.tele.log).take 1024 ∧
        t.mem = s.mem ∧ t.work = s.work ∧ t.xlat = s.xlat ∧ (∀ n : Nat, n ≠ u → t.ptu n = s.ptu n) ∧
        (s.flag R.TELE_CTL_EVENTS_EN = false → OnlyFields [R.PTU_STAT_STATE u, R.FAULT_STAT_LOG_ENTRIES] s t ∧ t = { s with regs := t.regs, ptus := t.ptus, tele := { s.tele with log := t.tele.log } }))) ∧
  (∀ (s : State) (u : Nat),
      s.live = true →
      u < 4 →
      s.ptuState u = 1 ∨ s.ptuState u = 2 →
      (s.ptu u).running = none ∧ (s.ptu u).asking = false →
      Completes (.ptuDisable u) s (fun t => t.get (R.PTU_CTL_ENABLE u) = 0 ∧ t.ptuState u = (if (s.ptu u).waiting = [] then 4 else 3) ∧ t = { s with regs := t.regs } ∧ OnlyFields [R.PTU_CTL_ENABLE u, R.PTU_STAT_STATE u] s t)) ∧
  (∀ (s : State) (u : Nat),
      s.live = true →
      u < 4 →
      s.ptuState u = 5 →
      Completes (.ptuDisable u) s (fun t => t.get (R.PTU_CTL_ENABLE u) = 0 ∧ t.ptuState u = 4 ∧ t = { s with regs := t.regs } ∧ OnlyFields [R.PTU_CTL_ENABLE u, R.PTU_STAT_STATE u] s t)) ∧
  (∀ (s : State) (u : Nat),
      s.live = true →
      u < 4 →
      s.ptuState u = 4 →
      Completes (.ptuEnable u) s (fun t => t.get (R.PTU_CTL_ENABLE u) = 1 ∧ t.ptuState u = 1 ∧ t.ptu u = s.coldPtu u (s.ptu u).coef ∧ (∀ n : Nat, n ≠ u → t.ptu n = s.ptu n) ∧
        t = { s with regs := t.regs, ptus := t.ptus } ∧ OnlyFields [R.PTU_CTL_ENABLE u, R.PTU_STAT_STATE u] s t)) ∧
  (∀ (s : State) (u : Nat),
      s.live = true →
      u < 4 →
      s.ptuState u = 3 →
      Completes (.ptuEnable u) s (fun t => t.get (R.PTU_STAT_REFUSED u) = 1 ∧ t = { s with regs := t.regs } ∧ OnlyFields [R.PTU_STAT_REFUSED u] s t)) ∧
  (∀ (s : State) (u : Nat),
      s.live = true →
      s.home.finished = [] →
      u < 4 →
      s.ptuState u = 3 →
      ((s.ptu u).running = none ∧ (s.ptu u).asking = false ∧ (∀ id ∈ (s.ptu u).waiting, s.clauseAt id = none)) →
      Completes (.ptuDrainTimeout u) s (fun t => t.ptuState u = 4 ∧ t.ptu u = { s.ptu u with waiting := [], heldVecs := 0, held := [], calibrating := false, carrierLost := false } ∧ (∀ n : Nat, n ≠ u → t.ptu n = s.ptu n) ∧
        t = { s with regs := t.regs, ptus := t.ptus } ∧ OnlyFields [R.PTU_STAT_STATE u] s t))

/-- Tiles leave service and return, transactions time out, chips are marked lost and reachable. (R114, R115, R137, R162, R109, R307, R445, R446, R447, R450, R452, 19_telemetry_and_faults.md) -/
def Obligations.TilesTimeoutsAndMarks : Prop :=
  (∀ (s : State) (n l : Nat),
      s.live = true →
      s.home.finished = [] →
      s.logical n = some l ∧ s.phys l = n →
      s.get (R.TILE_STAT_STATE n) = 0 →
      (s.tile l).ctxs = [] ∧ (s.tile l).entries = [] ∧ (s.tile l).stores = [] ∧ s.tileAsks l = false →
      Completes (.tileDisable n) s (fun t => t.get (R.TILE_CTL_ENABLE n) = 0 ∧ t.get (R.TILE_STAT_STATE n) = 2 ∧ t.tile l = { s.tile l with l1 := [], copies := [], held := [] } ∧ (∀ m : Nat, m ≠ l → t.tile m = s.tile m) ∧ OnlyFields [R.TILE_CTL_ENABLE n, R.TILE_STAT_STATE n] s t ∧ t = { s with regs := t.regs, home := { s.home with tiles := t.home.tiles } })) ∧
  (∀ (s : State) (c : At) (n : Nat) (x : Ctx) (k : Clause),
      s.live = true →
      s.home.finished = [] →
      s.logical n = some c.tile ∧ s.phys c.tile = n →
      s.get (R.TILE_STAT_STATE n) = 0 →
      (s.tile c.tile).ctxs = [(c.ctx, x)] ∧ s.clauseAt x.clause = some k ∧ k.timed = true →
      Completes (.tileDisable n) s (fun t => t.get (R.TILE_CTL_ENABLE n) = 0 ∧ t.get (R.TILE_STAT_STATE n) = 1 ∧ t = { s with regs := t.regs } ∧ OnlyFields [R.TILE_CTL_ENABLE n, R.TILE_STAT_STATE n] s t)) ∧
  (∀ (s : State) (n l : Nat),
      s.live = true →
      s.home.finished = [] →
      s.logical n = some l →
      s.get (R.TILE_STAT_STATE n) = 2 →
      Completes (.tileEnable n) s (fun t => t.get (R.TILE_CTL_ENABLE n) = 1 ∧ t.get (R.TILE_STAT_STATE n) = 0 ∧ t = { s with regs := t.regs } ∧ OnlyFields [R.TILE_CTL_ENABLE n, R.TILE_STAT_STATE n] s t)) ∧
  (∀ (s : State) (n l : Nat),
      s.live = true →
      s.home.finished = [] →
      s.logical n = some l →
      s.get (R.TILE_STAT_STATE n) ≠ 2 →
      Completes (.tileEnable n) s (fun t => t.get (R.TILE_STAT_REFUSED n) = 1 ∧ t = { s with regs := t.regs } ∧ OnlyFields [R.TILE_STAT_REFUSED n] s t)) ∧
  (∀ (s : State) (n : Nat),
      s.logical n = none →
      s.home.finished = [] →
      exec (.tileDisable n) s = .next (s)) ∧
  (∀ (s : State) (n : Nat),
      s.logical n = none →
      s.home.finished = [] →
      exec (.tileEnable n) s = .next (s)) ∧
  (∀ (s : State) (c : At) (n : Nat) (x : Ctx),
      s.live = true →
      s.home.finished = [] →
      s.logical n = some c.tile ∧ s.phys c.tile = n →
      s.get (R.TILE_STAT_STATE n) = 1 →
      (s.tile c.tile).ctxs = [(c.ctx, x)] ∧ s.clauseAt x.clause = none →
      ((∀ e ∈ (s.tile c.tile).entries, e.2.ctx = c.ctx) ∧ (s.tile c.tile).stores = [] ∧ s.tileAsks c.tile = false) →
      Completes (.tileDrainTimeout n) s (fun t => t.get (R.TILE_STAT_STATE n) = 2 ∧ (t.tile c.tile).ctxs = [] ∧ (t.tile c.tile).entries = [] ∧ (t.tile c.tile).l1 = [] ∧ (∀ m : Nat, m ≠ c.tile → t.tile m = s.tile m) ∧ OnlyFields [R.TILE_STAT_STATE n] s t ∧ t = { s with regs := t.regs, home := { s.home with tiles := t.home.tiles } })) ∧
  (∀ (s : State) (c : At) (n : Nat) (x : Ctx) (k : Clause),
      s.live = true →
      s.home.finished = [] →
      s.logical n = some c.tile ∧ s.phys c.tile = n →
      s.get (R.TILE_STAT_STATE n) = 1 →
      (s.tile c.tile).ctxs = [(c.ctx, x)] ∧ s.clauseAt x.clause = some k ∧ k.ending = none ∧ k.stage = .running ∧ k.timed = true →
      ((∀ e ∈ (s.tile c.tile).entries, e.2.ctx = c.ctx) ∧ (s.tile c.tile).stores = [] ∧ s.tileAsks c.tile = false) →
      Completes (.tileDrainTimeout n) s (fun t => t.get (R.TILE_STAT_STATE n) = 2 ∧ (t.tile c.tile).ctxs = [] ∧ ((t.clauseAt x.clause).bind Clause.ending).map (fun e => (e.status, e.segment)) = some (.aborted, k.segment - 1) ∧ t.mem = s.mem ∧ (∀ m : Nat, m ≠ x.clause → t.clauseAt m = s.clauseAt m))) ∧
  (∀ (s : State) (tag : Nat) (r : Track),
      s.live = true →
      s.home.finished = [] →
      tag < 131072 ∧ tget tag s.fabric.track = some r ∧ r.quarantined = false ∧ r.cont = .drop ∧ r.spec = false →
      Calm s →
      Completes (.transactionTimeout tag) s (fun t => tget tag t.fabric.track = some { r with quarantined := true } ∧ (∀ m : Nat, m ≠ tag → tget m t.fabric.track = tget m s.fabric.track) ∧ t.get R.FAULT_COUNT_TIMEOUTS = min (s.get R.FAULT_COUNT_TIMEOUTS + 1) (2 ^ 32 - 1) ∧ t.tele.log = ((s.faultEvent 4 r.dest r.partition (Err.code .timeout)) :: s.tele.log).take 1024 ∧ t.mem = s.mem ∧ t.xlat = s.xlat)) ∧
  (∀ (s : State) (tag : Nat) (r : Track),
      s.live = true →
      tag < 131072 ∧ tget tag s.fabric.track = some r ∧ r.quarantined = false ∧ r.cont = .drop ∧ r.spec = true →
      Calm s →
      Completes (.transactionTimeout tag) s (fun t => tget tag t.fabric.track = some { r with quarantined := true } ∧ (∀ m : Nat, m ≠ tag → tget m t.fabric.track = tget m s.fabric.track) ∧ t.regs = s.regs ∧ t.tele = s.tele ∧ t.security = s.security ∧ t.mem = s.mem ∧ t.xlat = s.xlat)) ∧
  (∀ (s : State) (tag : Nat) (r : Track),
      s.live = true →
      s.home.finished = [] →
      tag < 131072 ∧ tget tag s.fabric.track = some r ∧ r.quarantined = true →
      exec (.transactionTimeout tag) s = .next (s)) ∧
  (∀ (s : State) (u : Nat),
      s.live = true →
      s.home.finished = [] →
      (u % 2 ^ 15) ≠ s.chip ∧ s.reachState (u % 2 ^ 15) ≠ 2 →
      s.fabric.track = [] ∧ s.fabric.waitTag = [] ∧ s.fabric.frames = [] ∧ s.parser.dir = [] ∧ s.parser.replicas = [] ∧ s.parser.migrations = [] ∧ s.coll.groups = [] →
      Completes (.faultMarkLost u) s (fun t => t.reachState (u % 2 ^ 15) = 2 ∧ (∀ m : Nat, m ≠ (u % 2 ^ 15) → t.reachState m = s.reachState m) ∧ t.get R.FAULT_STAT_LOST_CHIPS = (s.get R.FAULT_STAT_LOST_CHIPS + 1) % 2 ^ 15 ∧ t.tele.log = ((s.faultEvent 2 ((u % 2 ^ 15) + 2 * 2 ^ 16) 0 0) :: s.tele.log).take 1024 ∧
        t.xlat.pageMap = s.xlat.pageMap.map (fun e => (e.1, if e.2.chip = (u % 2 ^ 15) then { e.2 with poison := true } else e.2)) ∧ t.mem = s.mem)) ∧
  (∀ (s : State) (u : Nat),
      s.live = true →
      s.home.finished = [] →
      (u % 2 ^ 15) ≠ s.chip ∧ s.reachState (u % 2 ^ 15) = 2 →
      Completes (.faultMarkReachable u) s (fun t => t.reachState (u % 2 ^ 15) = 1 ∧ (∀ m : Nat, m ≠ (u % 2 ^ 15) → t.reachState m = s.reachState m) ∧ t.get R.FAULT_STAT_LOST_CHIPS = (s.get R.FAULT_STAT_LOST_CHIPS - 1) % 2 ^ 15 ∧ t.tele.log = ((s.faultEvent 3 (u % 2 ^ 15) 0 0) :: s.tele.log).take 1024 ∧ t.mem = s.mem ∧ t.xlat = s.xlat ∧
        (s.flag R.TELE_CTL_EVENTS_EN = false → OnlyFields [R.FAULT_STAT_LOST_CHIPS, R.FAULT_STAT_LOG_ENTRIES] s t))) ∧
  (∀ (s : State) (u : Nat),
      s.live = true →
      s.home.finished = [] →
      (u % 2 ^ 15) = s.chip ∨ s.reachState (u % 2 ^ 15) ≠ 2 →
      exec (.faultMarkReachable u) s = .next (s)) ∧
  (∀ (s : State) (u : Nat),
      s.live = true →
      s.home.finished = [] →
      (u % 2 ^ 15) = s.chip ∨ s.reachState (u % 2 ^ 15) = 2 →
      exec (.faultMarkLost u) s = .next (s))

/-- A selector write chooses what its result returns on the same path, and on no other. (R52, R241, R263, R401, R457, R462, Table 2-12, Table 9-12, Table 10-14, Table 16-12, Table 19-8, 20_registers.md) -/
def Obligations.SelectorsChooseWhatResultsReturn : Prop :=
  (∀ (s : State) (path q : Path) (v i : Nat) (e : PmEntry),
      s.manageable = true →
      s.frozen = none →
      q ≠ path →
      s.pmFind (bits v 42 31) (bits v 30 0) = some (i, e) →
      Completes (.xlatPmProbeWrite path v) s (fun t => t.selected path 0 = packNat [(18, pmSet (bits v 42 31) (bits v 30 0)), (12, 0), (5, s.pmWays (bits v 42 31) (bits v 30 0)), (4, i % 16), (1, 1)] ∧ t.selected q 0 = s.selected q 0 ∧
        t = { s with nelar := { s.nelar with selected := t.nelar.selected }, fresh := s.fresh + 1 })) ∧
  (∀ (s : State) (path q : Path) (v : Nat) (g : Group),
      s.manageable = true →
      s.frozen = none →
      q ≠ path →
      s.group (bits v 13 0) = some g →
      Completes (.conjGroupSelWrite path v) s (fun t => t.selected path 1 = packNat [(13, g.body.slots), (3, 0), (12, g.body.partition), (4, 0), (2, g.state), (2, 0), (4, g.generation), (8, if g.state = 2 then g.cause else 0), (16, (g.nextInst.map (fun (x : Nat × Nat) => x.2)).foldl Nat.max 0)] ∧
        t.selected q 1 = s.selected q 1 ∧ t = { s with nelar := { s.nelar with selected := t.nelar.selected } })) ∧
  (∀ (s : State) (path q : Path) (v i : Nat) (e : PmEntry),
      s.manageable = true →
      s.frozen = none →
      q ≠ path →
      s.pmFind (bits v 42 31) (bits v 30 0) = some (i, e) →
      e.chip = s.chip →
      tget e.dirIndex s.parser.dir = none →
      s.migration (bits v 42 31) (bits v 30 0) = none →
      Completes (.parserProbeWrite path v) s (fun t => t.selected path 2 = packNat [(8, 0), (1, 1), (1, 1), (1, 0), (2, 0), (4, ((tget (frameKey e.fpa) s.parser.heat).getD Heat.zero).hold), (15, ((tget (frameKey e.fpa) s.parser.heat).getD Heat.zero).topChip), (16, ((tget (frameKey e.fpa) s.parser.heat).getD Heat.zero).wheat), (16, ((tget (frameKey e.fpa) s.parser.heat).getD Heat.zero).heat)] ∧
        t.selected q 2 = s.selected q 2 ∧ t = { s with nelar := { s.nelar with selected := t.nelar.selected } })) ∧
  (∀ (s : State) (path q : Path) (v : Nat) (x : Violation),
      s.manageable = true →
      s.frozen = none →
      q ≠ path →
      ((if bit v 28 then s.security.glog else (tget (bits v 27 16) s.security.vlogs).getD [])[bits v 7 0]? = some x) →
      Completes (.secVlogSelWrite path v) s (fun t => t.selected path 3 = x.addr % 2 ^ 64 ∧ t.selected path 4 = packNat [(8, x.source), (4, x.cls), (8, x.code), (12, x.partition), (32, x.tick)] ∧
        t.selected q 3 = s.selected q 3 ∧ t = { s with nelar := { s.nelar with selected := t.nelar.selected } })) ∧
  (∀ (s : State) (path q : Path) (v : Nat) (r : Reach),
      s.manageable = true →
      s.frozen = none →
      q ≠ path →
      tget (bits v 14 0) s.tele.reach = some r →
      Completes (.faultReachSelWrite path v) s (fun t => t.selected path 5 = packNat [(2, r.state), (2, r.how), (28, 0), (32, r.tick)] ∧ t.selected q 5 = s.selected q 5 ∧ t = { s with nelar := { s.nelar with selected := t.nelar.selected } })) ∧
  (∀ (s : State) (path q : Path) (v : Nat) (e : FaultEvent),
      s.manageable = true →
      s.frozen = none →
      q ≠ path →
      s.tele.log[bits v 9 0]? = some e →
      Completes (.faultLogSelWrite path v) s (fun t => t.selected path 6 = e.addr % 2 ^ 64 ∧ t.selected path 7 = e.res1 % 2 ^ 64 ∧ t.selected q 6 = s.selected q 6 ∧ t = { s with nelar := { s.nelar with selected := t.nelar.selected } }))

/-- Histograms and port counters are snapped, configured, sampled and streamed. (R458, R459, R460, R461, Table 19-9, Table 19-11, 19_telemetry.md) -/
def Obligations.HistogramsAreSnappedSampledAndStreamed : Prop :=
  (∀ (s : State) (mask : Nat),
      s.manageable = true →
      s.frozen = none →
      Completes (.teleSnapHist mask) s (fun t => (∀ h < 16, bit mask h = true → bit (s.get R.TELE_CTL_STREAM_MASK) h = false → t.get (R.TELE_HCOUNT_COUNT h) = (s.hist h).count % 2 ^ 64 ∧ t.get (R.TELE_HMIN_MIN h) = (s.hist h).min % 2 ^ 64 ∧ t.get (R.TELE_HMAX_MAX h) = (s.hist h).max % 2 ^ 64 ∧ t.hist h = Hist.empty ∧ t.get (R.TELE_HTICK_TICK h) = s.tick % 2 ^ (R.TELE_HTICK_TICK h).width) ∧
        (∀ h < 16, bit mask h = true → bit (s.get R.TELE_CTL_STREAM_MASK) h = false → (List.range 64).all (fun b => decide (t.get (R.TELE_HBIN_COUNT h b) = (tget b (s.hist h).bins).getD 0 % 2 ^ (R.TELE_HBIN_COUNT h b).width)) = true) ∧
        (∀ h < 16, bit mask h = false ∨ bit (s.get R.TELE_CTL_STREAM_MASK) h = true → t.hist h = s.hist h) ∧
        t.get R.TELE_STAT_REFUSED = (if Nat.land (mask % 2 ^ 16) (s.get R.TELE_CTL_STREAM_MASK) ≠ 0 then 1 else s.get R.TELE_STAT_REFUSED) ∧
        t = { s with regs := t.regs, tele := { s.tele with hists := t.tele.hists } })) ∧
  (∀ (s : State),
      s.manageable = true →
      s.frozen = none →
      Completes (.teleSnapPorts) s (fun t => (∀ p < 144, portFields.all (fun x => decide (t.get (x.2 p) = s.get (x.1 p) % 2 ^ (x.2 p).width ∧ t.get (x.1 p) = s.get (x.1 p))) = true) ∧ t.get R.TELE_PORT_TICK_TICK = s.tick % 2 ^ R.TELE_PORT_TICK_TICK.width ∧ t = { s with regs := t.regs })) ∧
  (∀ (s : State),
      s.manageable = true →
      s.frozen = none →
      Completes (.teleSnapClearPorts) s (fun t => (∀ p < 144, portFields.all (fun x => decide (t.get (x.2 p) = s.get (x.1 p) % 2 ^ (x.2 p).width)) = true) ∧
        (∀ p < 144, t.get (R.SWC_PORT_FRAMES_OUT p) = 0 ∧ t.get (R.SWC_PORT_FRAMES_IN p) = 0 ∧ t.get (R.SWC_PORT_BYTES_IN_BYTES p) = 0 ∧ t.get (R.SWC_PORT_STALL_CYCLES p) = 0 ∧ t.get (R.SWC_PORT_DEPTH_PEAK p) = s.get (R.SWC_PORT_DEPTH_CELLS p) % 2 ^ (R.SWC_PORT_DEPTH_PEAK p).width ∧ t.get (R.SWC_PORT_DEPTH_CELLS p) = s.get (R.SWC_PORT_DEPTH_CELLS p) % 2 ^ (R.SWC_PORT_DEPTH_CELLS p).width) ∧
        t.get R.TELE_PORT_TICK_TICK = s.tick % 2 ^ R.TELE_PORT_TICK_TICK.width ∧ t = { s with regs := t.regs })) ∧
  (∀ (s : State) (h v : Nat),
      s.manageable = true →
      s.frozen = none →
      h < 16 →
      Completes (.teleHcfgWrite h v) s (fun t => t.hist h = Hist.empty ∧ (∀ k : Nat, k ≠ h → t.hist k = s.hist k) ∧ t.get (R.TELE_HCFG_FILTER_KIND h) = bits v 29 28 ∧ t.get (R.TELE_HCFG_FILTER_VALUE h) = bits v 27 16 ∧
        t = { s with regs := t.regs, tele := { s.tele with hists := t.tele.hists } } ∧ OnlyFields [R.TELE_HCFG_FILTER_KIND h, R.TELE_HCFG_FILTER_VALUE h, R.TELE_HCFG_SOURCE h] s t)) ∧
  (∀ (s : State) (h : Nat),
      s.live = true →
      h < 16 →
      s.get (R.TELE_HCFG_FILTER_KIND h) = 0 →
      s.get (R.TELE_HCFG_SOURCE h) = 10 ∨ s.get (R.TELE_HCFG_SOURCE h) = 11 →
      Completes (.teleSampleTimer) s (fun t => t.hist h = (s.hist h).add (if s.get (R.TELE_HCFG_SOURCE h) = 10 then 12288 - s.get R.CONJ_STAT_FREE else s.parkedCount) ∧ t = { s with tele := { s.tele with hists := t.tele.hists } })) ∧
  (∀ (s : State) (hs : List Nat),
      s.live = true →
      s.flag R.TELE_CTL_STREAM_EN = true →
      s.get R.TELE_CTL_DEST = 0 →
      hs = bitsOf 16 (s.get R.TELE_CTL_STREAM_MASK) →
      hs ≠ [] →
      s.get R.NELAR_CHIP_NOTIFY < 2 →
      s.linkState (s.get R.NELAR_CHIP_NOTIFY) = 4 →
      Completes (.teleStreamInterval) s (fun t => t.get R.TELE_STAT_SEQ = (s.get R.TELE_STAT_SEQ + 1) % 2 ^ 32 ∧ (∀ h < 16, t.hist h = (if hs.contains h then Hist.empty else s.hist h)) ∧
        ((t.link (s.get R.NELAR_CHIP_NOTIFY)).msgs.getLast?.map (fun m => (m.1.code, m.1.resp, m.1.reqId, m.1.body))) =
          some (0x51, false, s.nelar.nextOwn, packBytes [(32, t.get R.TELE_STAT_SEQ), (16, hs.length), (16, 0), (64, s.tick)] ++ (hs.map s.histRecord).flatten) ∧
        t.nelar.nextOwn = (s.nelar.nextOwn + 1) % 2 ^ 32 ∧ t = { s with regs := t.regs, tele := { s.tele with hists := t.tele.hists }, nelar := t.nelar, out := t.out }))

/-- Scalar arithmetic, logic, shifts, comparisons and immediates, and s0. (R140, R141, R146, Table 6-1, Table 6-3, 06_tile_instruction_set.md) -/
def Obligations.ScalarInstructionsComputeAndGoOn : Prop :=
  (∀ (x : Ctx) (v : Word) (r q : BitVec 6),
      x.sreg 0 = 0 ∧ x.setS 0 v = x ∧ (r ≠ 0 → (x.setS r v).sreg r = v) ∧ (q ≠ r → (x.setS r v).sreg q = x.sreg q)) ∧
  (∀ (s : State) (c : At) (f : FmtS) (x : Ctx),
      s.ready c = some x →
      exec (.add c f) s = .next (s.setCtx c (x.setS f.rd (BitVec.ofNat 64 ((x.sreg f.ra).toNat + (x.sreg f.rb).toNat))).advance)) ∧
  (∀ (s : State) (c : At) (f : FmtS) (x : Ctx),
      s.ready c = some x →
      exec (.sub c f) s = .next (s.setCtx c (x.setS f.rd (BitVec.ofInt 64 (((x.sreg f.ra).toNat : Int) - (x.sreg f.rb).toNat))).advance)) ∧
  (∀ (s : State) (c : At) (f : FmtS) (x : Ctx),
      s.ready c = some x →
      exec (.and c f) s = .next (s.setCtx c (x.setS f.rd (BitVec.ofNat 64 (Nat.land (x.sreg f.ra).toNat (x.sreg f.rb).toNat))).advance)) ∧
  (∀ (s : State) (c : At) (f : FmtS) (x : Ctx),
      s.ready c = some x →
      exec (.or c f) s = .next (s.setCtx c (x.setS f.rd (BitVec.ofNat 64 (Nat.lor (x.sreg f.ra).toNat (x.sreg f.rb).toNat))).advance)) ∧
  (∀ (s : State) (c : At) (f : FmtS) (x : Ctx),
      s.ready c = some x →
      exec (.xor c f) s = .next (s.setCtx c (x.setS f.rd (BitVec.ofNat 64 (Nat.xor (x.sreg f.ra).toNat (x.sreg f.rb).toNat))).advance)) ∧
  (∀ (s : State) (c : At) (f : FmtS) (x : Ctx),
      s.ready c = some x →
      exec (.shl c f) s = .next (s.setCtx c (x.setS f.rd (BitVec.ofNat 64 ((x.sreg f.ra).toNat * 2 ^ ((x.sreg f.rb).toNat % 64)))).advance)) ∧
  (∀ (s : State) (c : At) (f : FmtS) (x : Ctx),
      s.ready c = some x →
      exec (.shr c f) s = .next (s.setCtx c (x.setS f.rd (BitVec.ofNat 64 ((x.sreg f.ra).toNat / 2 ^ ((x.sreg f.rb).toNat % 64)))).advance)) ∧
  (∀ (s : State) (c : At) (f : FmtS) (x : Ctx),
      s.ready c = some x →
      exec (.sra c f) s = .next (s.setCtx c (x.setS f.rd (BitVec.ofInt 64 ((x.sreg f.ra).toInt / 2 ^ ((x.sreg f.rb).toNat % 64)))).advance)) ∧
  (∀ (s : State) (c : At) (f : FmtS) (x : Ctx),
      s.ready c = some x →
      exec (.mul c f) s = .next (s.setCtx c (x.setS f.rd (BitVec.ofNat 64 ((x.sreg f.ra).toNat * (x.sreg f.rb).toNat))).advance)) ∧
  (∀ (s : State) (c : At) (f : FmtS) (x : Ctx),
      s.ready c = some x →
      exec (.mulhu c f) s = .next (s.setCtx c (x.setS f.rd (BitVec.ofNat 64 ((x.sreg f.ra).toNat * (x.sreg f.rb).toNat / 2 ^ 64))).advance)) ∧
  (∀ (s : State) (c : At) (f : FmtS) (x : Ctx),
      s.ready c = some x →
      exec (.divu c f) s = .next (s.setCtx c (x.setS f.rd (BitVec.ofNat 64 (if (x.sreg f.rb).toNat = 0 then 2 ^ 64 - 1 else (x.sreg f.ra).toNat / (x.sreg f.rb).toNat))).advance)) ∧
  (∀ (s : State) (c : At) (f : FmtS) (x : Ctx),
      s.ready c = some x →
      exec (.div c f) s = .next (s.setCtx c (x.setS f.rd (BitVec.ofInt 64 (if (x.sreg f.rb).toInt = 0 then -1 else Int.tdiv (x.sreg f.ra).toInt (x.sreg f.rb).toInt))).advance)) ∧
  (∀ (s : State) (c : At) (f : FmtS) (x : Ctx),
      s.ready c = some x →
      exec (.min c f) s = .next (s.setCtx c (x.setS f.rd (BitVec.ofInt 64 (Min.min (x.sreg f.ra).toInt (x.sreg f.rb).toInt))).advance)) ∧
  (∀ (s : State) (c : At) (f : FmtS) (x : Ctx),
      s.ready c = some x →
      exec (.max c f) s = .next (s.setCtx c (x.setS f.rd (BitVec.ofInt 64 (Max.max (x.sreg f.ra).toInt (x.sreg f.rb).toInt))).advance)) ∧
  (∀ (s : State) (c : At) (f : FmtS) (x : Ctx),
      s.ready c = some x →
      exec (.minu c f) s = .next (s.setCtx c (x.setS f.rd (BitVec.ofNat 64 (Min.min (x.sreg f.ra).toNat (x.sreg f.rb).toNat))).advance)) ∧
  (∀ (s : State) (c : At) (f : FmtS) (x : Ctx),
      s.ready c = some x →
      exec (.maxu c f) s = .next (s.setCtx c (x.setS f.rd (BitVec.ofNat 64 (Max.max (x.sreg f.ra).toNat (x.sreg f.rb).toNat))).advance)) ∧
  (∀ (s : State) (c : At) (f : FmtS) (x : Ctx),
      s.ready c = some x →
      exec (.slt c f) s = .next (s.setCtx c (x.setS f.rd (BitVec.ofNat 64 (if (x.sreg f.ra).toInt < (x.sreg f.rb).toInt then 1 else 0))).advance)) ∧
  (∀ (s : State) (c : At) (f : FmtS) (x : Ctx),
      s.ready c = some x →
      exec (.sltu c f) s = .next (s.setCtx c (x.setS f.rd (BitVec.ofNat 64 (if (x.sreg f.ra).toNat < (x.sreg f.rb).toNat then 1 else 0))).advance)) ∧
  (∀ (s : State) (c : At) (f : FmtS) (x : Ctx),
      s.ready c = some x →
      f.rb = 0 →
      exec (.popc c f) s = .next (s.setCtx c (x.setS f.rd (BitVec.ofNat 64 ((List.range 64).countP (fun i => bit (x.sreg f.ra).toNat i)))).advance)) ∧
  (∀ (s : State) (c : At) (f : FmtS) (x : Ctx),
      s.ready c = some x →
      f.rb ≠ 0 →
      exec (.popc c f) s = .next (s.exception c x 1 0 .format)) ∧
  (∀ (s : State) (c : At) (f : FmtI) (x : Ctx),
      s.ready c = some x →
      exec (.addi c f) s = .next (s.setCtx c (x.setS f.rd (BitVec.ofInt 64 ((x.sreg f.ra).toInt + f.imm.toInt))).advance)) ∧
  (∀ (s : State) (c : At) (f : FmtI) (x : Ctx),
      s.ready c = some x →
      exec (.andi c f) s = .next (s.setCtx c (x.setS f.rd (BitVec.ofNat 64 (Nat.land (x.sreg f.ra).toNat f.imm.toNat))).advance)) ∧
  (∀ (s : State) (c : At) (f : FmtI) (x : Ctx),
      s.ready c = some x →
      exec (.ori c f) s = .next (s.setCtx c (x.setS f.rd (BitVec.ofNat 64 (Nat.lor (x.sreg f.ra).toNat f.imm.toNat))).advance)) ∧
  (∀ (s : State) (c : At) (f : FmtI) (x : Ctx),
      s.ready c = some x →
      exec (.xori c f) s = .next (s.setCtx c (x.setS f.rd (BitVec.ofNat 64 (Nat.xor (x.sreg f.ra).toNat f.imm.toNat))).advance)) ∧
  (∀ (s : State) (c : At) (f : FmtI) (x : Ctx),
      s.ready c = some x →
      exec (.slti c f) s = .next (s.setCtx c (x.setS f.rd (BitVec.ofNat 64 (if (x.sreg f.ra).toInt < f.imm.toInt then 1 else 0))).advance)) ∧
  (∀ (s : State) (c : At) (f : FmtI) (x : Ctx),
      s.ready c = some x →
      f.imm.toNat < 64 →
      exec (.shli c f) s = .next (s.setCtx c (x.setS f.rd (BitVec.ofNat 64 ((x.sreg f.ra).toNat * 2 ^ f.imm.toNat))).advance)) ∧
  (∀ (s : State) (c : At) (f : FmtI) (x : Ctx),
      s.ready c = some x →
      64 ≤ f.imm.toNat →
      exec (.shli c f) s = .next (s.exception c x 1 0 .format)) ∧
  (∀ (s : State) (c : At) (f : FmtI) (x : Ctx),
      s.ready c = some x →
      exec (.shri c f) s = .next (s.setCtx c (x.setS f.rd (BitVec.ofNat 64 ((x.sreg f.ra).toNat / 2 ^ (f.imm.toNat % 64)))).advance)) ∧
  (∀ (s : State) (c : At) (f : FmtI) (x : Ctx),
      s.ready c = some x →
      exec (.srai c f) s = .next (s.setCtx c (x.setS f.rd (BitVec.ofInt 64 ((x.sreg f.ra).toInt / 2 ^ (f.imm.toNat % 64)))).advance)) ∧
  (∀ (s : State) (c : At) (f : FmtS) (x : Ctx),
      s.running c = some x →
      x.reserved = true →
      exec (.add c f) s = .next (s.exception c x 1 0 .format)) ∧
  (∀ (s : State) (c : At) (f : FmtS) (x : Ctx),
      s.running c = some x →
      x.reserved = true →
      exec (.mul c f) s = .next (s.exception c x 1 0 .format)) ∧
  (∀ (s : State) (c : At) (f : FmtS) (x : Ctx),
      s.running c = some x →
      x.reserved = true →
      exec (.popc c f) s = .next (s.exception c x 1 0 .format)) ∧
  (∀ (s : State) (c : At) (f : FmtU) (x : Ctx),
      s.ready c = some x →
      exec (.lui c f) s = .next (s.setCtx c (x.setS f.rd (BitVec.ofInt 64 (f.imm.toInt * 2 ^ 14))).advance)) ∧
  (∀ (s : State) (c : At) (f : FmtU) (x : Ctx),
      s.ready c = some x →
      exec (.seth c f) s = .next (s.setCtx c (x.setS f.rd (BitVec.ofNat 64 (f.imm.toNat * 2 ^ 44 + (x.sreg f.rd).toNat % 2 ^ 44))).advance))

/-- Branches and jumps take their targets; an exception ends the context and its clause. (R116, R141, R146, R147, R162, R206, Table 6-3, Table 6-6, 06_tile_instruction_set.md) -/
def Obligations.ControlFlowAndExceptions : Prop :=
  (∀ (s : State) (c : At) (f : FmtB) (x : Ctx),
      s.ready c = some x →
      (x.sreg f.ra) = (x.sreg f.rb) →
      0 ≤ (x.pc : Int) + f.off.toInt ∧ (x.pc : Int) + f.off.toInt < x.progLen →
      exec (.beq c f) s = .next (s.setCtx c { x with pc := ((x.pc : Int) + f.off.toInt).toNat })) ∧
  (∀ (s : State) (c : At) (f : FmtB) (x : Ctx),
      s.ready c = some x →
      (x.sreg f.ra) = (x.sreg f.rb) →
      (x.pc : Int) + f.off.toInt < 0 ∨ (x.progLen : Int) ≤ (x.pc : Int) + f.off.toInt →
      exec (.beq c f) s = .next (s.exception c x 1 0 .format)) ∧
  (∀ (s : State) (c : At) (f : FmtB) (x : Ctx),
      s.ready c = some x →
      (x.sreg f.ra) ≠ (x.sreg f.rb) →
      exec (.beq c f) s = .next (s.setCtx c { x with pc := x.pc + 1 })) ∧
  (∀ (s : State) (c : At) (f : FmtB) (x : Ctx),
      s.ready c = some x →
      (x.sreg f.ra) ≠ (x.sreg f.rb) →
      0 ≤ (x.pc : Int) + f.off.toInt ∧ (x.pc : Int) + f.off.toInt < x.progLen →
      exec (.bne c f) s = .next (s.setCtx c { x with pc := ((x.pc : Int) + f.off.toInt).toNat })) ∧
  (∀ (s : State) (c : At) (f : FmtB) (x : Ctx),
      s.ready c = some x →
      (x.sreg f.ra) ≠ (x.sreg f.rb) →
      (x.pc : Int) + f.off.toInt < 0 ∨ (x.progLen : Int) ≤ (x.pc : Int) + f.off.toInt →
      exec (.bne c f) s = .next (s.exception c x 1 0 .format)) ∧
  (∀ (s : State) (c : At) (f : FmtB) (x : Ctx),
      s.ready c = some x →
      (x.sreg f.ra) = (x.sreg f.rb) →
      exec (.bne c f) s = .next (s.setCtx c { x with pc := x.pc + 1 })) ∧
  (∀ (s : State) (c : At) (f : FmtB) (x : Ctx),
      s.ready c = some x →
      (x.sreg f.ra).toInt < (x.sreg f.rb).toInt →
      0 ≤ (x.pc : Int) + f.off.toInt ∧ (x.pc : Int) + f.off.toInt < x.progLen →
      exec (.blt c f) s = .next (s.setCtx c { x with pc := ((x.pc : Int) + f.off.toInt).toNat })) ∧
  (∀ (s : State) (c : At) (f : FmtB) (x : Ctx),
      s.ready c = some x →
      (x.sreg f.ra).toInt < (x.sreg f.rb).toInt →
      (x.pc : Int) + f.off.toInt < 0 ∨ (x.progLen : Int) ≤ (x.pc : Int) + f.off.toInt →
      exec (.blt c f) s = .next (s.exception c x 1 0 .format)) ∧
  (∀ (s : State) (c : At) (f : FmtB) (x : Ctx),
      s.ready c = some x →
      (x.sreg f.rb).toInt ≤ (x.sreg f.ra).toInt →
      exec (.blt c f) s = .next (s.setCtx c { x with pc := x.pc + 1 })) ∧
  (∀ (s : State) (c : At) (f : FmtB) (x : Ctx),
      s.ready c = some x →
      (x.sreg f.rb).toInt ≤ (x.sreg f.ra).toInt →
      0 ≤ (x.pc : Int) + f.off.toInt ∧ (x.pc : Int) + f.off.toInt < x.progLen →
      exec (.bge c f) s = .next (s.setCtx c { x with pc := ((x.pc : Int) + f.off.toInt).toNat })) ∧
  (∀ (s : State) (c : At) (f : FmtB) (x : Ctx),
      s.ready c = some x →
      (x.sreg f.rb).toInt ≤ (x.sreg f.ra).toInt →
      (x.pc : Int) + f.off.toInt < 0 ∨ (x.progLen : Int) ≤ (x.pc : Int) + f.off.toInt →
      exec (.bge c f) s = .next (s.exception c x 1 0 .format)) ∧
  (∀ (s : State) (c : At) (f : FmtB) (x : Ctx),
      s.ready c = some x →
      (x.sreg f.ra).toInt < (x.sreg f.rb).toInt →
      exec (.bge c f) s = .next (s.setCtx c { x with pc := x.pc + 1 })) ∧
  (∀ (s : State) (c : At) (f : FmtB) (x : Ctx),
      s.ready c = some x →
      (x.sreg f.ra).toNat < (x.sreg f.rb).toNat →
      0 ≤ (x.pc : Int) + f.off.toInt ∧ (x.pc : Int) + f.off.toInt < x.progLen →
      exec (.bltu c f) s = .next (s.setCtx c { x with pc := ((x.pc : Int) + f.off.toInt).toNat })) ∧
  (∀ (s : State) (c : At) (f : FmtB) (x : Ctx),
      s.ready c = some x →
      (x.sreg f.ra).toNat < (x.sreg f.rb).toNat →
      (x.pc : Int) + f.off.toInt < 0 ∨ (x.progLen : Int) ≤ (x.pc : Int) + f.off.toInt →
      exec (.bltu c f) s = .next (s.exception c x 1 0 .format)) ∧
  (∀ (s : State) (c : At) (f : FmtB) (x : Ctx),
      s.ready c = some x →
      (x.sreg f.rb).toNat ≤ (x.sreg f.ra).toNat →
      exec (.bltu c f) s = .next (s.setCtx c { x with pc := x.pc + 1 })) ∧
  (∀ (s : State) (c : At) (f : FmtB) (x : Ctx),
      s.ready c = some x →
      (x.sreg f.rb).toNat ≤ (x.sreg f.ra).toNat →
      0 ≤ (x.pc : Int) + f.off.toInt ∧ (x.pc : Int) + f.off.toInt < x.progLen →
      exec (.bgeu c f) s = .next (s.setCtx c { x with pc := ((x.pc : Int) + f.off.toInt).toNat })) ∧
  (∀ (s : State) (c : At) (f : FmtB) (x : Ctx),
      s.ready c = some x →
      (x.sreg f.rb).toNat ≤ (x.sreg f.ra).toNat →
      (x.pc : Int) + f.off.toInt < 0 ∨ (x.progLen : Int) ≤ (x.pc : Int) + f.off.toInt →
      exec (.bgeu c f) s = .next (s.exception c x 1 0 .format)) ∧
  (∀ (s : State) (c : At) (f : FmtB) (x : Ctx),
      s.ready c = some x →
      (x.sreg f.ra).toNat < (x.sreg f.rb).toNat →
      exec (.bgeu c f) s = .next (s.setCtx c { x with pc := x.pc + 1 })) ∧
  (∀ (s : State) (c : At) (off : BitVec 26) (x : Ctx),
      s.ready c = some x →
      0 ≤ (x.pc : Int) + off.toInt ∧ (x.pc : Int) + off.toInt < x.progLen →
      exec (.j c off) s = .next (s.setCtx c { x with pc := ((x.pc : Int) + off.toInt).toNat })) ∧
  (∀ (s : State) (c : At) (off : BitVec 26) (x : Ctx),
      s.ready c = some x →
      (x.pc : Int) + off.toInt < 0 ∨ (x.progLen : Int) ≤ (x.pc : Int) + off.toInt →
      exec (.j c off) s = .next (s.exception c x 1 0 .format)) ∧
  (∀ (s : State) (c : At) (off : BitVec 26) (x : Ctx),
      s.ready c = some x →
      0 ≤ (x.pc : Int) + off.toInt ∧ (x.pc : Int) + off.toInt < x.progLen →
      exec (.jal c off) s = .next (s.setCtx c { x.setS 62 (BitVec.ofNat 64 (x.pc + 1)) with pc := ((x.pc : Int) + off.toInt).toNat })) ∧
  (∀ (s : State) (c : At) (off : BitVec 26) (x : Ctx),
      s.ready c = some x →
      (x.pc : Int) + off.toInt < 0 ∨ (x.progLen : Int) ≤ (x.pc : Int) + off.toInt →
      exec (.jal c off) s = .next (s.exception c x 1 0 .format)) ∧
  (∀ (s : State) (c : At) (f : FmtS) (x : Ctx),
      s.ready c = some x →
      f.rd = 0 ∧ f.rb = 0 →
      (x.sreg f.ra).toNat < x.progLen →
      exec (.jr c f) s = .next (s.setCtx c { x with pc := (x.sreg f.ra).toNat })) ∧
  (∀ (s : State) (c : At) (f : FmtS) (x : Ctx),
      s.ready c = some x →
      f.rd ≠ 0 ∨ f.rb ≠ 0 ∨ x.progLen ≤ (x.sreg f.ra).toNat →
      exec (.jr c f) s = .next (s.exception c x 1 0 .format)) ∧
  (∀ (s : State) (c : At) (f : FmtS) (x : Ctx) (k : Clause),
      s.ready c = some x →
      s.clauseAt x.clause = some k →
      k.ending = none →
      f.rb ≠ 0 →
      s.phys c.tile < 50 →
      Completes (.popc c f) s (fun t => t.clauseAt x.clause = some { k with ending := some { status := .format, exc := 1, segment := 2 ^ 32 - 1, detail := x.pc, addr := 0 } } ∧ (∀ n : Nat, n ≠ x.clause → t.clauseAt n = s.clauseAt n) ∧
        t.ctx c = none ∧ (∀ n : Nat, n ≠ c.ctx → t.ctx ⟨c.tile, n⟩ = s.ctx ⟨c.tile, n⟩) ∧ (∀ n : Nat, n ≠ c.tile → t.tile n = s.tile n) ∧ (∀ e ∈ (t.tile c.tile).entries, e.2.ctx ≠ c.ctx) ∧
        t.get (R.TILE_EXC_COUNT (s.phys c.tile)) = min (s.get (R.TILE_EXC_COUNT (s.phys c.tile)) + 1) (2 ^ 32 - 1) ∧ t.get (R.TILE_EXC_LAST_PART (s.phys c.tile)) = k.partition % 2 ^ 12 ∧
        t.get (R.TILE_EXC_LAST_CTX (s.phys c.tile)) = c.ctx % 2 ^ 2 ∧ t.get (R.TILE_EXC_LAST_CODE (s.phys c.tile)) = 1 ∧
        t = { s with regs := t.regs, work := { s.work with clauses := t.work.clauses }, home := { s.home with tiles := t.home.tiles } } ∧
        OnlyFields [R.TILE_EXC_COUNT (s.phys c.tile), R.TILE_EXC_LAST_PART (s.phys c.tile), R.TILE_EXC_LAST_CTX (s.phys c.tile), R.TILE_EXC_LAST_CODE (s.phys c.tile), R.TILE_STAT_STATE (s.phys c.tile)] s t))

/-- LD, LDS, ST, FENCE, VLD, VST and AMO in the tile store, on this chip and on another. (R117, R118, R122, R124, R142, R143, R144, R145, R155, R156, Table 6-3, 06_tile_instruction_set.md) -/
def Obligations.TileMemoryAccesses : Prop :=
  (∀ (s : State) (c : At) (f : FmtM) (x : Ctx) (a n : Nat),
      s.ready c = some x →
      s.home.finished = [] →
      (s.clauseAt x.clause).map Clause.cancelled ≠ some true →
      n = 2 ^ f.sz.toNat ∧ f.sz.toNat ≤ 3 →
      (a : Int) = ((x.sreg f.ra).toInt + f.imm.toInt * n) % 2 ^ 64 →
      oaHandle a = 16 ∧ oaOffset a + n ≤ x.tsSize →
      exec (.ld c f .none) s = .next (s.setCtx c { x.setS f.t (BitVec.ofNat 64 (leNat (memRead (s.tile c.tile).store (x.tsBase + oaOffset a) n))) with pc := x.pc + 1 })) ∧
  (∀ (s : State) (c : At) (f : FmtM) (x : Ctx) (a n : Nat),
      s.ready c = some x →
      s.home.finished = [] →
      (s.clauseAt x.clause).map Clause.cancelled ≠ some true →
      n = 2 ^ f.sz.toNat ∧ f.sz.toNat ≤ 3 →
      (a : Int) = ((x.sreg f.ra).toInt + f.imm.toInt * n) % 2 ^ 64 →
      oaHandle a = 16 ∧ oaOffset a + n ≤ x.tsSize →
      exec (.lds c f .none) s = .next (s.setCtx c { x.setS f.t (BitVec.ofInt 64 (if (leNat (memRead (s.tile c.tile).store (x.tsBase + oaOffset a) n)) < 2 ^ (8 * n - 1) then ((leNat (memRead (s.tile c.tile).store (x.tsBase + oaOffset a) n)) : Int) else ((leNat (memRead (s.tile c.tile).store (x.tsBase + oaOffset a) n)) : Int) - 2 ^ (8 * n))) with pc := x.pc + 1 })) ∧
  (∀ (s : State) (c : At) (f : FmtM) (x : Ctx) (a n : Nat),
      s.ready c = some x →
      s.home.finished = [] →
      (s.clauseAt x.clause).map Clause.cancelled ≠ some true →
      n = 2 ^ f.sz.toNat ∧ f.sz.toNat ≤ 3 →
      (a : Int) = ((x.sreg f.ra).toInt + f.imm.toInt * n) % 2 ^ 64 →
      oaHandle a = 16 ∧ oaOffset a + n ≤ x.tsSize →
      s.phys c.tile < 50 →
      exec (.ld c f .storeUncorrectable) s = .next ((s.count (R.TILE_ECC_STORE_UE (s.phys c.tile))).exception c x 10 a .poison)) ∧
  (∀ (s : State) (c : At) (f : FmtM) (x : Ctx) (a n : Nat),
      s.ready c = some x →
      s.home.finished = [] →
      (s.clauseAt x.clause).map Clause.cancelled ≠ some true →
      n = 2 ^ f.sz.toNat ∧ f.sz.toNat ≤ 3 →
      (a : Int) = ((x.sreg f.ra).toInt + f.imm.toInt * n) % 2 ^ 64 →
      oaHandle a = 16 ∧ oaOffset a + n ≤ x.tsSize →
      s.phys c.tile < 50 →
      Completes (.ld c f .storeCorrected) s (fun t => t.get (R.TILE_ECC_STORE_CE (s.phys c.tile)) = min (s.get (R.TILE_ECC_STORE_CE (s.phys c.tile)) + 1) (2 ^ 16 - 1) ∧ t.ctx c = some { x.setS f.t (BitVec.ofNat 64 (leNat (memRead (s.tile c.tile).store (x.tsBase + oaOffset a) n))) with pc := x.pc + 1 } ∧ OnlyFields [R.TILE_ECC_STORE_CE (s.phys c.tile)] s t)) ∧
  (∀ (s : State) (c : At) (f : FmtM) (x : Ctx) (a n : Nat),
      s.ready c = some x →
      s.home.finished = [] →
      (s.clauseAt x.clause).map Clause.cancelled ≠ some true →
      n = 2 ^ f.sz.toNat ∧ f.sz.toNat ≤ 3 →
      (a : Int) = ((x.sreg f.ra).toInt + f.imm.toInt * n) % 2 ^ 64 →
      f.scope = 0 →
      (oaHandle a = 16 ∧ x.tsSize < oaOffset a + n ∨ 16 < oaHandle a ∨ oaHandle a < 16 ∧ (∀ o ∈ x.ops, o.1 ≠ oaHandle a)) →
      exec (.ld c f .none) s = .next (s.exception c x 2 a .bounds)) ∧
  (∀ (s : State) (c : At) (f : FmtM) (x : Ctx) (a n : Nat),
      s.ready c = some x →
      s.home.finished = [] →
      (s.clauseAt x.clause).map Clause.cancelled ≠ some true →
      n = 2 ^ f.sz.toNat ∧ f.sz.toNat ≤ 3 →
      (a : Int) = ((x.sreg f.ra).toInt + f.imm.toInt * n) % 2 ^ 64 →
      f.scope = 0 →
      (oaHandle a = 16 ∧ x.tsSize < oaOffset a + n ∨ 16 < oaHandle a ∨ oaHandle a < 16 ∧ (∀ o ∈ x.ops, o.1 ≠ oaHandle a)) →
      exec (.lds c f .none) s = .next (s.exception c x 2 a .bounds)) ∧
  (∀ (s : State) (c : At) (f : FmtM) (x : Ctx) (a n : Nat),
      s.ready c = some x →
      s.home.finished = [] →
      (s.clauseAt x.clause).map Clause.cancelled ≠ some true →
      n = 2 ^ f.sz.toNat ∧ f.sz.toNat ≤ 3 →
      (a : Int) = ((x.sreg f.ra).toInt + f.imm.toInt * n) % 2 ^ 64 →
      f.scope = 0 →
      (oaHandle a = 16 ∧ x.tsSize < oaOffset a + n ∨ 16 < oaHandle a ∨ oaHandle a < 16 ∧ (∀ o ∈ x.ops, o.1 ≠ oaHandle a)) →
      exec (.st c f) s = .next (s.exception c x 2 a .bounds)) ∧
  (∀ (s : State) (c : At) (f : FmtM) (x : Ctx) (a n p fpa : Nat) (k : Clause),
      s.ready c = some x →
      s.home.finished = [] →
      (s.clauseAt x.clause).map Clause.cancelled ≠ some true →
      n = 2 ^ f.sz.toNat ∧ f.sz.toNat ≤ 3 →
      (a : Int) = ((x.sreg f.ra).toInt + f.imm.toInt * n) % 2 ^ 64 →
      s.clauseAt x.clause = some k ∧ k.partition = p →
      s.reach x a n = .runs p [(fpa, n)] →
      (oaHandle a < 16 ∧ (f.scope ≠ 0 → a % n = 0)) →
      s.storesTo c x.clause [(fpa, n)] = false →
      s.poisonedIn p 0 (x.fva a) [(fpa, n)] = false →
      fpa % 128 + n ≤ 128 →
      s.replicaOf fpa = none →
      tget (fpa / 128) (s.tile c.tile).copies = none →
      MaySend s p fpa →
      Completes (.ld c f .none) s (fun t => Sent s t (fpa / 128 * 128) 1 (.lineFill (some c.tile) (fpa / 128) (fpa % 128) n (.tile c x.clause (.load f.t n false a))) ∧ t.ctx c = some { x with mode := .access, ordering := f.scope != 0 } ∧ (t.clauseAt x.clause).map (fun y => (y.segment, y.timed)) = some (max k.segment ((x.leadBase (oaHandle a) + oaOffset a + (n - 1)) / 2 ^ 21 + 1), true) ∧
        OthersStay s t c x ∧ t.mem = s.mem ∧ t.xlat = s.xlat ∧ t.out = s.out)) ∧
  (∀ (s : State) (c : At) (f : FmtM) (x : Ctx) (a n p fpa : Nat) (k : Clause) (bs : List Byte),
      s.ready c = some x →
      Calm s →
      n = 2 ^ f.sz.toNat ∧ f.sz.toNat ≤ 3 →
      (a : Int) = ((x.sreg f.ra).toInt + f.imm.toInt * n) % 2 ^ 64 →
      s.clauseAt x.clause = some k ∧ k.partition = p ∧ k.cancelled = false →
      s.reach x a n = .runs p [(fpa, n)] →
      (oaHandle a < 16 ∧ (f.scope ≠ 0 → a % n = 0)) →
      s.storesTo c x.clause [(fpa, n)] = false →
      s.poisonedIn p 0 (x.fva a) [(fpa, n)] = false →
      fpa % 128 + n ≤ 128 →
      fpaChip fpa ≠ s.chip ∧ s.replicaOf fpa = none →
      tget (fpa / 128) (s.tile c.tile).copies = some bs →
      Completes (.ld c f .none) s (fun t => t.ctx c = some { x.setS f.t (BitVec.ofNat 64 (leNat ((bs.drop (fpa % 128)).take n))) with mode := .running, ordering := false, pc := x.pc + 1 } ∧ (t.clauseAt x.clause).map (fun y => (y.segment, y.timed)) = some (max k.segment ((x.leadBase (oaHandle a) + oaOffset a + (n - 1)) / 2 ^ 21 + 1), true) ∧
        OthersStay s t c x ∧ t.mem = s.mem ∧ t.xlat = s.xlat ∧ t.out = s.out ∧ t.fabric = s.fabric)) ∧
  (∀ (s : State) (c : At) (f : FmtM) (x : Ctx) (a n p fpa : Nat) (k : Clause),
      s.ready c = some x →
      s.home.finished = [] →
      (s.clauseAt x.clause).map Clause.cancelled ≠ some true →
      n = 2 ^ f.sz.toNat ∧ f.sz.toNat ≤ 3 →
      (a : Int) = ((x.sreg f.ra).toInt + f.imm.toInt * n) % 2 ^ 64 →
      s.clauseAt x.clause = some k ∧ k.partition = p →
      s.reach x a n = .runs p [(fpa, n)] →
      (oaHandle a < 16 ∧ (f.scope ≠ 0 → a % n = 0)) →
      s.storesTo c x.clause [(fpa, n)] = false →
      s.poisonedIn p 0 (x.fva a) [(fpa, n)] = false →
      fpa % 128 + n ≤ 128 →
      s.replicaOf fpa = none →
      tget (fpa / 128) (s.tile c.tile).copies = none →
      MaySend s p fpa →
      Completes (.lds c f .none) s (fun t => Sent s t (fpa / 128 * 128) 1 (.lineFill (some c.tile) (fpa / 128) (fpa % 128) n (.tile c x.clause (.load f.t n true a))) ∧ t.ctx c = some { x with mode := .access, ordering := f.scope != 0 } ∧ (t.clauseAt x.clause).map (fun y => (y.segment, y.timed)) = some (max k.segment ((x.leadBase (oaHandle a) + oaOffset a + (n - 1)) / 2 ^ 21 + 1), true) ∧
        OthersStay s t c x ∧ t.mem = s.mem ∧ t.xlat = s.xlat ∧ t.out = s.out)) ∧
  (∀ (s : State) (c : At) (f : FmtM) (x : Ctx) (a n p fpa : Nat) (k : Clause) (bs : List Byte),
      s.ready c = some x →
      Calm s →
      n = 2 ^ f.sz.toNat ∧ f.sz.toNat ≤ 3 →
      (a : Int) = ((x.sreg f.ra).toInt + f.imm.toInt * n) % 2 ^ 64 →
      s.clauseAt x.clause = some k ∧ k.partition = p ∧ k.cancelled = false →
      s.reach x a n = .runs p [(fpa, n)] →
      (oaHandle a < 16 ∧ (f.scope ≠ 0 → a % n = 0)) →
      s.storesTo c x.clause [(fpa, n)] = false →
      s.poisonedIn p 0 (x.fva a) [(fpa, n)] = false →
      fpa % 128 + n ≤ 128 →
      fpaChip fpa ≠ s.chip ∧ s.replicaOf fpa = none →
      tget (fpa / 128) (s.tile c.tile).copies = some bs →
      Completes (.lds c f .none) s (fun t => t.ctx c = some { x.setS f.t (BitVec.ofInt 64 (if (leNat ((bs.drop (fpa % 128)).take n)) < 2 ^ (8 * n - 1) then ((leNat ((bs.drop (fpa % 128)).take n)) : Int) else ((leNat ((bs.drop (fpa % 128)).take n)) : Int) - 2 ^ (8 * n))) with mode := .running, ordering := false, pc := x.pc + 1 } ∧ (t.clauseAt x.clause).map (fun y => (y.segment, y.timed)) = some (max k.segment ((x.leadBase (oaHandle a) + oaOffset a + (n - 1)) / 2 ^ 21 + 1), true) ∧
        OthersStay s t c x ∧ t.mem = s.mem ∧ t.xlat = s.xlat ∧ t.out = s.out ∧ t.fabric = s.fabric)) ∧
  (∀ (s : State) (c : At) (f : FmtM) (x : Ctx) (a n p fpa : Nat) (k : Clause),
      s.ready c = some x →
      Calm s →
      n = 2 ^ f.sz.toNat ∧ f.sz.toNat ≤ 3 →
      (a : Int) = ((x.sreg f.ra).toInt + f.imm.toInt * n) % 2 ^ 64 →
      s.clauseAt x.clause = some k ∧ k.partition = p ∧ k.cancelled = false →
      s.reach x a n = .runs p [(fpa, n)] →
      (oaHandle a < 16 ∧ (f.scope ≠ 0 → a % n = 0)) →
      s.storesTo c x.clause [(fpa, n)] = false →
      s.poisonedIn p 0 (x.fva a) [(fpa, n)] = false →
      fpa % 128 + n ≤ 128 →
      fpaChip fpa = s.chip →
      16 ≤ fpaUnit fpa ∧ fpaUnit fpa < 32 →
      Intact s fpa n →
      (tget (fpa / 128) (s.tile c.tile).l1).isSome = true →
      Completes (.ld c f .none) s (fun t => t.ctx c = some { x.setS f.t (BitVec.ofNat 64 (leNat (memRead s.mem (memKey (fpaUnit fpa) (fpaOff fpa)) n))) with mode := .running, ordering := false, pc := x.pc + 1 } ∧ (t.clauseAt x.clause).map (fun y => (y.segment, y.timed)) = some (max k.segment ((x.leadBase (oaHandle a) + oaOffset a + (n - 1)) / 2 ^ 21 + 1), true) ∧
        OthersStay s t c x ∧ t.mem = s.mem ∧ t.xlat = s.xlat ∧ t.out = s.out)) ∧
  (∀ (s : State) (c : At) (f : FmtM) (x : Ctx) (a n p fpa : Nat) (k : Clause),
      s.ready c = some x →
      Calm s →
      n = 2 ^ f.sz.toNat ∧ f.sz.toNat ≤ 3 →
      (a : Int) = ((x.sreg f.ra).toInt + f.imm.toInt * n) % 2 ^ 64 →
      s.clauseAt x.clause = some k ∧ k.partition = p ∧ k.cancelled = false →
      s.reach x a n = .runs p [(fpa, n)] →
      (oaHandle a < 16 ∧ (f.scope ≠ 0 → a % n = 0)) →
      s.storesTo c x.clause [(fpa, n)] = false →
      s.poisonedIn p 0 (x.fva a) [(fpa, n)] = false →
      fpa % 128 + n ≤ 128 →
      fpaChip fpa = s.chip →
      16 ≤ fpaUnit fpa ∧ fpaUnit fpa < 32 →
      Intact s fpa n →
      (tget (fpa / 128) (s.tile c.tile).l1).isSome = true →
      Completes (.ld c f .l1Corrected) s (fun t => t.ctx c = some { x.setS f.t (BitVec.ofNat 64 (leNat (memRead s.mem (memKey (fpaUnit fpa) (fpaOff fpa)) n))) with mode := .running, ordering := false, pc := x.pc + 1 } ∧ (t.clauseAt x.clause).map (fun y => (y.segment, y.timed)) = some (max k.segment ((x.leadBase (oaHandle a) + oaOffset a + (n - 1)) / 2 ^ 21 + 1), true) ∧
        OthersStay s t c x ∧ t.mem = s.mem ∧ t.xlat = s.xlat ∧ t.out = s.out ∧
        t.get (R.TILE_ECC_L1_CE (s.phys c.tile)) = min (s.get (R.TILE_ECC_L1_CE (s.phys c.tile)) + 1) (2 ^ 16 - 1) ∧ OnlyFields [R.TILE_ECC_L1_CE (s.phys c.tile)] s t)) ∧
  (∀ (s : State) (c : At) (f : FmtM) (x : Ctx) (a n p fpa : Nat) (k : Clause),
      s.ready c = some x →
      s.home.finished = [] →
      n = 2 ^ f.sz.toNat ∧ f.sz.toNat ≤ 3 →
      (a : Int) = ((x.sreg f.ra).toInt + f.imm.toInt * n) % 2 ^ 64 →
      s.clauseAt x.clause = some k ∧ k.partition = p ∧ k.cancelled = false →
      s.reach x a n = .runs p [(fpa, n)] →
      (oaHandle a < 16 ∧ (f.scope ≠ 0 → a % n = 0)) →
      s.storesTo c x.clause [(fpa, n)] = false →
      s.poisonedIn p 0 (x.fva a) [(fpa, n)] = false →
      fpa % 128 + n ≤ 128 →
      Reached s p fpa →
      tget (fpa / 128) (s.tile c.tile).l1 = none →
      (s.home.ops.all (fun o => o.2.stop != tileStop (s.phys c.tile) || o.2.sent) = true) →
      Completes (.ld c f .none) s (fun t => t.ctx c = some { x with mode := .access, ordering := f.scope != 0 } ∧ t.out = s.out ++ [.ring { code := 0, ringA := onRingA (tileStop (s.phys c.tile)) 0, line := fpa / 128, src := tileStop (s.phys c.tile), dst := 0, owned := false, held := false, grant := 0 }] ∧ (tget s.home.nextOp t.home.ops).map (fun o => (o.tile, o.own, o.line, o.acc.act, o.acc.who)) = some (some c.tile, false, some (fpa / 128), .read n, .here (.tile c x.clause (.load f.t n false a))) ∧ (t.clauseAt x.clause).map (fun y => (y.segment, y.timed)) = some (max k.segment ((x.leadBase (oaHandle a) + oaOffset a + (n - 1)) / 2 ^ 21 + 1), true) ∧
        OthersStay s t c x ∧ t.mem = s.mem ∧ t.xlat = s.xlat ∧ t.fabric = s.fabric)) ∧
  (∀ (s : State) (c : At) (f : FmtM) (x : Ctx) (a n p fpa : Nat) (k : Clause),
      s.ready c = some x →
      Calm s →
      n = 2 ^ f.sz.toNat ∧ f.sz.toNat ≤ 3 →
      (a : Int) = ((x.sreg f.ra).toInt + f.imm.toInt * n) % 2 ^ 64 →
      s.clauseAt x.clause = some k ∧ k.partition = p ∧ k.cancelled = false →
      s.reach x a n = .runs p [(fpa, n)] →
      (oaHandle a < 16 ∧ (f.scope ≠ 0 → a % n = 0)) →
      s.storesTo c x.clause [(fpa, n)] = false →
      s.poisonedIn p 0 (x.fva a) [(fpa, n)] = false →
      fpa % 128 + n ≤ 128 →
      fpaChip fpa = s.chip →
      16 ≤ fpaUnit fpa ∧ fpaUnit fpa < 32 →
      Intact s fpa n →
      (tget (fpa / 128) (s.tile c.tile).l1).isSome = true →
      Completes (.lds c f .none) s (fun t => t.ctx c = some { x.setS f.t (BitVec.ofInt 64 (if (leNat (memRead s.mem (memKey (fpaUnit fpa) (fpaOff fpa)) n)) < 2 ^ (8 * n - 1) then ((leNat (memRead s.mem (memKey (fpaUnit fpa) (fpaOff fpa)) n)) : Int) else ((leNat (memRead s.mem (memKey (fpaUnit fpa) (fpaOff fpa)) n)) : Int) - 2 ^ (8 * n))) with mode := .running, ordering := false, pc := x.pc + 1 } ∧ (t.clauseAt x.clause).map (fun y => (y.segment, y.timed)) = some (max k.segment ((x.leadBase (oaHandle a) + oaOffset a + (n - 1)) / 2 ^ 21 + 1), true) ∧
        OthersStay s t c x ∧ t.mem = s.mem ∧ t.xlat = s.xlat ∧ t.out = s.out)) ∧
  (∀ (s : State) (c : At) (f : FmtM) (x : Ctx) (a n p fpa : Nat) (k : Clause),
      s.ready c = some x →
      s.home.finished = [] →
      n = 2 ^ f.sz.toNat ∧ f.sz.toNat ≤ 3 →
      (a : Int) = ((x.sreg f.ra).toInt + f.imm.toInt * n) % 2 ^ 64 →
      s.clauseAt x.clause = some k ∧ k.partition = p ∧ k.cancelled = false →
      s.reach x a n = .runs p [(fpa, n)] →
      (oaHandle a < 16 ∧ (f.scope ≠ 0 → a % n = 0)) →
      s.storesTo c x.clause [(fpa, n)] = false →
      s.poisonedIn p 0 (x.fva a) [(fpa, n)] = false →
      fpa % 128 + n ≤ 128 →
      Reached s p fpa →
      tget (fpa / 128) (s.tile c.tile).l1 = none →
      (s.home.ops.all (fun o => o.2.stop != tileStop (s.phys c.tile) || o.2.sent) = true) →
      Completes (.lds c f .none) s (fun t => t.ctx c = some { x with mode := .access, ordering := f.scope != 0 } ∧ t.out = s.out ++ [.ring { code := 0, ringA := onRingA (tileStop (s.phys c.tile)) 0, line := fpa / 128, src := tileStop (s.phys c.tile), dst := 0, owned := false, held := false, grant := 0 }] ∧ (tget s.home.nextOp t.home.ops).map (fun o => (o.tile, o.own, o.line, o.acc.act, o.acc.who)) = some (some c.tile, false, some (fpa / 128), .read n, .here (.tile c x.clause (.load f.t n true a))) ∧ (t.clauseAt x.clause).map (fun y => (y.segment, y.timed)) = some (max k.segment ((x.leadBase (oaHandle a) + oaOffset a + (n - 1)) / 2 ^ 21 + 1), true) ∧
        OthersStay s t c x ∧ t.mem = s.mem ∧ t.xlat = s.xlat ∧ t.fabric = s.fabric)) ∧
  (∀ (s : State) (c : At) (f : FmtM) (x : Ctx) (a n : Nat),
      s.ready c = some x →
      s.home.finished = [] →
      (s.clauseAt x.clause).map Clause.cancelled ≠ some true →
      n = 2 ^ f.sz.toNat ∧ f.sz.toNat ≤ 3 →
      (a : Int) = ((x.sreg f.ra).toInt + f.imm.toInt * n) % 2 ^ 64 →
      oaHandle a = 16 ∧ oaOffset a + n ≤ x.tsSize →
      exec (.st c f) s = .next ((s.setTile c.tile { s.tile c.tile with store := memWrite (s.tile c.tile).store (x.tsBase + oaOffset a) (leBytes n (x.sreg f.t).toNat) }).setCtx c { x with pc := x.pc + 1 })) ∧
  (∀ (s : State) (c : At) (f : FmtM) (x : Ctx) (a n p fpa : Nat) (k : Clause),
      s.ready c = some x →
      s.home.finished = [] →
      n = 2 ^ f.sz.toNat ∧ f.sz.toNat ≤ 3 →
      (a : Int) = ((x.sreg f.ra).toInt + f.imm.toInt * n) % 2 ^ 64 →
      s.clauseAt x.clause = some k ∧ k.partition = p ∧ k.cancelled = false →
      s.reach x a n = .runs p [(fpa, n)] →
      (oaHandle a < 16 ∧ oaOffset a + n ≤ 2 ^ 59 ∧ (f.scope ≠ 0 → a % n = 0 ∧ x.storeErr = .none)) →
      x.writable a = true →
      (s.tile c.tile).stores = [] →
      s.poisonedIn p 1 (x.fva a) [(fpa, n)] = false →
      fpa % 128 + n ≤ 128 →
      MaySend s p fpa →
      Completes (.st c f) s (fun t => Sent s t fpa 2 (.tile c x.clause (.store (s.tile c.tile).nextStore)) ∧ t.ctx c = some { x with pc := x.pc + 1 } ∧ (t.tile c.tile).stores = [{ id := (s.tile c.tile).nextStore, ctx := c.ctx, clause := x.clause, partition := p, runs := [(fpa, n)], data := leBytes n (x.sreg f.t).toNat, amo := none, sent := true, gone := true }] ∧ (t.clauseAt x.clause).map (fun y => (y.segment, y.timed)) = some (max k.segment ((x.leadBase (oaHandle a) + oaOffset a + (n - 1)) / 2 ^ 21 + 1), true) ∧
        OthersStay s t c x ∧ t.mem = s.mem ∧ t.xlat = s.xlat ∧ t.out = s.out)) ∧
  (∀ (s : State) (c : At) (f : FmtM) (x : Ctx) (a n p fpa : Nat) (k : Clause),
      s.ready c = some x →
      Calm s →
      n = 2 ^ f.sz.toNat ∧ f.sz.toNat ≤ 3 →
      (a : Int) = ((x.sreg f.ra).toInt + f.imm.toInt * n) % 2 ^ 64 →
      s.clauseAt x.clause = some k ∧ k.partition = p ∧ k.cancelled = false →
      s.reach x a n = .runs p [(fpa, n)] →
      (oaHandle a < 16 ∧ oaOffset a + n ≤ 2 ^ 59 ∧ (f.scope ≠ 0 → a % n = 0 ∧ x.storeErr = .none)) →
      x.writable a = true →
      (s.tile c.tile).stores = [] →
      s.poisonedIn p 1 (x.fva a) [(fpa, n)] = false →
      fpa % 128 + n ≤ 128 →
      Reached s p fpa →
      Intact s fpa n →
      (s.tile c.tile).owns (fpa / 128) = true →
      Completes (.st c f) s (fun t => memRead t.mem (memKey (fpaUnit fpa) (fpaOff fpa)) n = leBytes n (x.sreg f.t).toNat ∧ (∀ i : Nat, i < memKey (fpaUnit fpa) (fpaOff fpa) ∨ memKey (fpaUnit fpa) (fpaOff fpa) + n ≤ i → memGet t.mem i = memGet s.mem i) ∧
        t.ctx c = some { x with pc := x.pc + 1 } ∧ (t.tile c.tile).stores = [] ∧ tget (fpa / 128) (t.tile c.tile).l1 = some 3 ∧ (t.clauseAt x.clause).map (fun y => (y.segment, y.timed)) = some (max k.segment ((x.leadBase (oaHandle a) + oaOffset a + (n - 1)) / 2 ^ 21 + 1), true) ∧ t.xlat = s.xlat ∧ t.out = s.out)) ∧
  (∀ (s : State) (c : At) (f : FmtM) (x : Ctx) (a n p fpa : Nat) (k : Clause),
      s.ready c = some x →
      s.home.finished = [] →
      n = 2 ^ f.sz.toNat ∧ f.sz.toNat ≤ 3 →
      (a : Int) = ((x.sreg f.ra).toInt + f.imm.toInt * n) % 2 ^ 64 →
      s.clauseAt x.clause = some k ∧ k.partition = p ∧ k.cancelled = false →
      s.reach x a n = .runs p [(fpa, n)] →
      (oaHandle a < 16 ∧ oaOffset a + n ≤ 2 ^ 59 ∧ (f.scope ≠ 0 → a % n = 0 ∧ x.storeErr = .none)) →
      x.writable a = true →
      (s.tile c.tile).stores = [] →
      s.poisonedIn p 1 (x.fva a) [(fpa, n)] = false →
      fpa % 128 + n ≤ 128 →
      Reached s p fpa →
      (s.tile c.tile).owns (fpa / 128) = false →
      (s.home.ops.all (fun o => o.2.stop != tileStop (s.phys c.tile) || o.2.sent) = true) →
      Completes (.st c f) s (fun t => t.ctx c = some { x with pc := x.pc + 1 } ∧ t.out = s.out ++ [.ring { code := 0, ringA := onRingA (tileStop (s.phys c.tile)) 0, line := fpa / 128, src := tileStop (s.phys c.tile), dst := 0, owned := true, held := false, grant := 0 }] ∧ (t.tile c.tile).stores = [{ id := (s.tile c.tile).nextStore, ctx := c.ctx, clause := x.clause, partition := p, runs := [(fpa, n)], data := leBytes n (x.sreg f.t).toNat, amo := none, sent := true, gone := false }] ∧ (tget s.home.nextOp t.home.ops).map (fun o => (o.tile, o.own, o.line, o.acc.act, o.acc.who)) = some (some c.tile, true, some (fpa / 128), .write (leBytes n (x.sreg f.t).toNat), .here (.tile c x.clause (.store (s.tile c.tile).nextStore))) ∧ (t.clauseAt x.clause).map (fun y => (y.segment, y.timed)) = some (max k.segment ((x.leadBase (oaHandle a) + oaOffset a + (n - 1)) / 2 ^ 21 + 1), true) ∧
        OthersStay s t c x ∧ t.mem = s.mem ∧ t.xlat = s.xlat ∧ t.fabric = s.fabric)) ∧
  (∀ (s : State) (c : At) (f : FmtM) (x : Ctx) (a n : Nat),
      s.ready c = some x →
      s.home.finished = [] →
      (s.clauseAt x.clause).map Clause.cancelled ≠ some true →
      n = 2 ^ f.sz.toNat ∧ f.sz.toNat ≤ 3 →
      (a : Int) = ((x.sreg f.ra).toInt + f.imm.toInt * n) % 2 ^ 64 →
      f.scope = 0 ∧ oaHandle a < 16 ∧ oaOffset a + n ≤ 2 ^ 59 →
      x.reaches a n = true ∧ x.writable a = true →
      64 ≤ (s.ownStores c x.clause).length →
      Completes (.st c f) s (fun t => t = s.setCtx c { x with mode := .stores })) ∧
  (∀ (s : State) (c : At) (f : FmtM) (x : Ctx) (a n : Nat),
      s.ready c = some x →
      s.home.finished = [] →
      (s.clauseAt x.clause).map Clause.cancelled ≠ some true →
      n = 2 ^ f.sz.toNat ∧ f.sz.toNat ≤ 3 →
      (a : Int) = ((x.sreg f.ra).toInt + f.imm.toInt * n) % 2 ^ 64 →
      f.scope = 0 ∧ oaHandle a < 16 ∧ oaOffset a + n ≤ 2 ^ 59 →
      x.reaches a n = true →
      x.writable a = false →
      exec (.st c f) s = .next (s.exception c x 4 a .permission)) ∧
  (∀ (s : State) (c : At) (f : FmtM) (x : Ctx),
      s.ready c = some x →
      s.home.finished = [] →
      (s.clauseAt x.clause).map Clause.cancelled ≠ some true →
      f.scope ≠ 0 ∧ f.t = 0 ∧ f.ra = 0 ∧ f.sz = 0 ∧ f.imm = 0 →
      s.ownStores c x.clause = [] ∧ x.storeErr = .none →
      exec (.fence c f) s = .next (s.setCtx c { x with ordering := false, pc := x.pc + 1 })) ∧
  (∀ (s : State) (c : At) (f : FmtM) (x : Ctx),
      s.ready c = some x →
      s.home.finished = [] →
      (s.clauseAt x.clause).map Clause.cancelled ≠ some true →
      f.scope ≠ 0 ∧ f.t = 0 ∧ f.ra = 0 ∧ f.sz = 0 ∧ f.imm = 0 →
      s.ownStores c x.clause ≠ [] →
      exec (.fence c f) s = .next (s.setCtx c { x with mode := .stores, ordering := true })) ∧
  (∀ (s : State) (c : At) (f : FmtM) (x : Ctx),
      s.ready c = some x →
      s.home.finished = [] →
      (s.clauseAt x.clause).map Clause.cancelled ≠ some true →
      f.scope ≠ 0 ∧ f.t = 0 ∧ f.ra = 0 ∧ f.sz = 0 ∧ f.imm = 0 →
      s.ownStores c x.clause = [] ∧ x.storeErr ≠ .none →
      exec (.fence c f) s = .next (s.exception c x 6 0 x.storeErr)) ∧
  (∀ (s : State) (c : At) (f : FmtVM) (x : Ctx) (a : Nat),
      s.ready c = some x →
      s.home.finished = [] →
      (s.clauseAt x.clause).map Clause.cancelled ≠ some true →
      (a : Int) = ((x.sreg f.ra).toInt + f.imm.toInt * 256) % 2 ^ 64 →
      oaHandle a = 16 ∧ x.tsSize ≤ 2 ^ 59 →
      (∀ j < 256, (x.preg f.pg).getLsbD j = true → oaOffset a + j < x.tsSize) →
      Completes (.vld c f .none) s (fun t => (∀ j < 256, elem 8 ((t.after c x).vreg f.vd).toNat j = (if (x.preg f.pg).getLsbD j then (memGet (s.tile c.tile).store (x.tsBase + oaOffset a + j)).toNat else elem 8 (x.vreg f.vd).toNat j)) ∧
        t = s.setCtx c { x with v := tset f.vd.toNat ((t.after c x).vreg f.vd) x.v, pc := x.pc + 1 })) ∧
  (∀ (s : State) (c : At) (f : FmtVM) (x : Ctx) (a : Nat),
      s.ready c = some x →
      s.home.finished = [] →
      (s.clauseAt x.clause).map Clause.cancelled ≠ some true →
      (a : Int) = ((x.sreg f.ra).toInt + f.imm.toInt * 256) % 2 ^ 64 →
      oaHandle a = 16 ∧ x.tsSize ≤ 2 ^ 59 →
      (∀ j < 256, (x.preg f.pg).getLsbD j = true → oaOffset a + j < x.tsSize) →
      Completes (.vst c f) s (fun t => (∀ j < 256, (x.preg f.pg).getLsbD j = true → (memGet (t.tile c.tile).store (x.tsBase + oaOffset a + j)).toNat = elem 8 (x.vreg f.vd).toNat j) ∧
        (∀ i : Nat, i < x.tsBase + oaOffset a ∨ x.tsBase + oaOffset a + 256 ≤ i ∨ (x.preg f.pg).getLsbD (i - (x.tsBase + oaOffset a)) = false → memGet (t.tile c.tile).store i = memGet (s.tile c.tile).store i) ∧
        t = (s.setTile c.tile { s.tile c.tile with store := (t.tile c.tile).store }).setCtx c { x with pc := x.pc + 1 })) ∧
  (∀ (s : State) (c : At) (f : FmtVM) (x : Ctx) (a off n p fpa : Nat) (k : Clause),
      s.ready c = some x →
      s.home.finished = [] →
      (a : Int) = ((x.sreg f.ra).toInt + f.imm.toInt * 256) % 2 ^ 64 →
      0 < n ∧ off + n ≤ 256 →
      ((∀ j < 256, (x.preg f.pg).getLsbD j = (decide (off ≤ j) && decide (j < off + n)))) →
      s.clauseAt x.clause = some k ∧ k.partition = p ∧ k.cancelled = false →
      s.reach x (a + off) n = .runs p [(fpa, n)] →
      oaHandle a < 16 ∧ oaOffset a + off + n ≤ 2 ^ 59 →
      s.poisonedIn p 0 (x.fva (a + off)) [(fpa, n)] = false →
      fpa % 128 + n ≤ 128 →
      s.storesTo c x.clause [(fpa, n)] = false →
      s.replicaOf fpa = none →
      tget (fpa / 128) (s.tile c.tile).copies = none →
      MaySend s p fpa →
      Completes (.vld c f .none) s (fun t => Sent s t (fpa / 128 * 128) 1 (.lineFill (some c.tile) (fpa / 128) (fpa % 128) n (.tile c x.clause (.vld f.vd (x.preg f.pg) a))) ∧ t.ctx c = some { x with mode := .access, ordering := false } ∧ (t.clauseAt x.clause).map (fun y => (y.segment, y.timed)) = some (max k.segment ((x.leadBase (oaHandle (a + off) % 32) + oaOffset (a + off) + (n - 1)) / 2 ^ 21 + 1), true) ∧
        OthersStay s t c x ∧ t.mem = s.mem ∧ t.xlat = s.xlat ∧ t.out = s.out)) ∧
  (∀ (s : State) (c : At) (f : FmtVM) (x : Ctx) (a off n p fpa : Nat) (k : Clause),
      s.ready c = some x →
      Calm s →
      (a : Int) = ((x.sreg f.ra).toInt + f.imm.toInt * 256) % 2 ^ 64 →
      0 < n ∧ off + n ≤ 256 →
      ((∀ j < 256, (x.preg f.pg).getLsbD j = (decide (off ≤ j) && decide (j < off + n)))) →
      s.clauseAt x.clause = some k ∧ k.partition = p ∧ k.cancelled = false →
      s.reach x (a + off) n = .runs p [(fpa, n)] →
      oaHandle a < 16 ∧ oaOffset a + off + n ≤ 2 ^ 59 →
      s.poisonedIn p 0 (x.fva (a + off)) [(fpa, n)] = false →
      s.storesTo c x.clause [(fpa, n)] = false →
      fpaChip fpa = s.chip →
      16 ≤ fpaUnit fpa ∧ fpaUnit fpa < 32 →
      Intact s fpa n →
      ((linesOf fpa n).all (fun l => (tget l (s.tile c.tile).l1).isSome) = true) →
      Completes (.vld c f .none) s (fun t => (∀ j < 256, elem 8 ((t.after c x).vreg f.vd).toNat j = (if off ≤ j ∧ j < off + n then (memGet s.mem (memKey (fpaUnit fpa) (fpaOff fpa) + (j - off))).toNat else elem 8 (x.vreg f.vd).toNat j)) ∧
        t.ctx c = some { x with v := tset f.vd.toNat ((t.after c x).vreg f.vd) x.v, mode := .running, ordering := false, pc := x.pc + 1 } ∧ (t.clauseAt x.clause).map (fun y => (y.segment, y.timed)) = some (max k.segment ((x.leadBase (oaHandle (a + off) % 32) + oaOffset (a + off) + (n - 1)) / 2 ^ 21 + 1), true) ∧
        OthersStay s t c x ∧ t.mem = s.mem ∧ t.xlat = s.xlat ∧ t.out = s.out)) ∧
  (∀ (s : State) (c : At) (f : FmtVM) (x : Ctx) (a off n p fpa : Nat) (k : Clause),
      s.ready c = some x →
      s.home.finished = [] →
      (a : Int) = ((x.sreg f.ra).toInt + f.imm.toInt * 256) % 2 ^ 64 →
      0 < n ∧ off + n ≤ 256 →
      ((∀ j < 256, (x.preg f.pg).getLsbD j = (decide (off ≤ j) && decide (j < off + n)))) →
      s.clauseAt x.clause = some k ∧ k.partition = p ∧ k.cancelled = false →
      s.reach x (a + off) n = .runs p [(fpa, n)] →
      oaHandle a < 16 ∧ oaOffset a + off + n ≤ 2 ^ 59 →
      s.poisonedIn p 1 (x.fva (a + off)) [(fpa, n)] = false →
      fpa % 128 + n ≤ 128 →
      x.writable a = true →
      (s.tile c.tile).stores = [] →
      MaySend s p fpa →
      Completes (.vst c f) s (fun t => Sent s t fpa 2 (.tile c x.clause (.store (s.tile c.tile).nextStore)) ∧ t.ctx c = some { x with pc := x.pc + 1 } ∧ (t.tile c.tile).stores.map (fun e => (e.runs, e.data, e.sent, e.gone)) = [([(fpa, n)], ((List.range n).map (fun j => BitVec.ofNat 8 (elem 8 (x.vreg f.vd).toNat (off + j)))), true, true)] ∧ (t.clauseAt x.clause).map (fun y => (y.segment, y.timed)) = some (max k.segment ((x.leadBase (oaHandle (a + off) % 32) + oaOffset (a + off) + (n - 1)) / 2 ^ 21 + 1), true) ∧
        OthersStay s t c x ∧ t.mem = s.mem ∧ t.xlat = s.xlat ∧ t.out = s.out)) ∧
  (∀ (s : State) (c : At) (f : FmtVM) (x : Ctx) (a off n p fpa : Nat) (k : Clause),
      s.ready c = some x →
      Calm s →
      (a : Int) = ((x.sreg f.ra).toInt + f.imm.toInt * 256) % 2 ^ 64 →
      0 < n ∧ off + n ≤ 256 →
      ((∀ j < 256, (x.preg f.pg).getLsbD j = (decide (off ≤ j) && decide (j < off + n)))) →
      s.clauseAt x.clause = some k ∧ k.partition = p ∧ k.cancelled = false →
      s.reach x (a + off) n = .runs p [(fpa, n)] →
      oaHandle a < 16 ∧ oaOffset a + off + n ≤ 2 ^ 59 →
      s.poisonedIn p 1 (x.fva (a + off)) [(fpa, n)] = false →
      fpa % 128 + n ≤ 128 →
      x.writable a = true →
      (s.tile c.tile).stores = [] →
      Reached s p fpa →
      Intact s fpa n →
      (s.tile c.tile).owns (fpa / 128) = true →
      Completes (.vst c f) s (fun t => (∀ j < 256, off ≤ j → j < off + n → (memGet t.mem (memKey (fpaUnit fpa) (fpaOff fpa) + (j - off))).toNat = elem 8 (x.vreg f.vd).toNat j) ∧ (∀ i : Nat, i < memKey (fpaUnit fpa) (fpaOff fpa) ∨ memKey (fpaUnit fpa) (fpaOff fpa) + n ≤ i → memGet t.mem i = memGet s.mem i) ∧
        t.ctx c = some { x with pc := x.pc + 1 } ∧ (t.tile c.tile).stores = [] ∧ (t.clauseAt x.clause).map (fun y => (y.segment, y.timed)) = some (max k.segment ((x.leadBase (oaHandle (a + off) % 32) + oaOffset (a + off) + (n - 1)) / 2 ^ 21 + 1), true) ∧ t.xlat = s.xlat ∧ t.out = s.out)) ∧
  (∀ (s : State) (c : At) (f : FmtA) (x : Ctx) (a n p fpa : Nat) (k : Clause),
      s.ready c = some x →
      s.home.finished = [] →
      n = 4 * 2 ^ f.w.toNat ∧ a = (x.sreg f.ra).toNat →
      (atomicWidth f.op.toNat n = true ∧ (n = 16 → f.rd.toNat % 2 = 0 ∧ f.rb.toNat % 2 = 0)) →
      a % n = 0 ∧ oaHandle a < 16 →
      (f.scope ≠ 0 → x.storeErr = .none) →
      s.clauseAt x.clause = some k ∧ k.partition = p ∧ k.cancelled = false →
      s.reach x a n = .runs p [(fpa, n)] →
      x.writable a = true →
      (s.tile c.tile).stores = [] →
      (s.xlate p (x.fva a) 2).err ≠ .permission →
      s.poisonedIn p 2 (x.fva a) [(fpa, n)] = false →
      MaySend s p fpa →
      Completes (.amo c f) s (fun t => Sent s t fpa 3 (.tile c x.clause (.amo (s.tile c.tile).nextStore f.rd n a)) ∧ t.ctx c = some { x with mode := .access, ordering := f.scope != 0 } ∧ (t.clauseAt x.clause).map (fun y => (y.segment, y.timed)) = some (max k.segment ((x.leadBase (oaHandle a) + oaOffset a + (n - 1)) / 2 ^ 21 + 1), true) ∧
        OthersStay s t c x ∧ t.mem = s.mem ∧ t.xlat = s.xlat ∧ t.out = s.out)) ∧
  (∀ (s : State) (c : At) (f : FmtA) (x : Ctx) (a n p fpa : Nat) (k : Clause),
      s.ready c = some x →
      Calm s →
      n = 4 * 2 ^ f.w.toNat ∧ a = (x.sreg f.ra).toNat →
      (atomicWidth f.op.toNat n = true ∧ (n = 16 → f.rd.toNat % 2 = 0 ∧ f.rb.toNat % 2 = 0)) →
      a % n = 0 ∧ oaHandle a < 16 →
      (f.scope ≠ 0 → x.storeErr = .none) →
      s.clauseAt x.clause = some k ∧ k.partition = p ∧ k.cancelled = false →
      s.reach x a n = .runs p [(fpa, n)] →
      x.writable a = true →
      (s.tile c.tile).stores = [] →
      (s.xlate p (x.fva a) 2).err ≠ .permission →
      s.poisonedIn p 2 (x.fva a) [(fpa, n)] = false →
      Reached s p fpa →
      Intact s fpa n →
      fpa % n = 0 →
      (linesOf fpa n).all (s.lineClear true) = true →
      s.hasCopies fpa n = false →
      s.orderBusy (some (100 + c.tile * 4 + c.ctx)) (fpaUnit fpa) = false →
      Completes (.amo c f) s (fun t => leNat (memRead t.mem (memKey (fpaUnit fpa) (fpaOff fpa)) n) = atomicNew f.op.toNat n (x.wide f.rb n) (x.wide f.rd n) (leNat (memRead s.mem (memKey (fpaUnit fpa) (fpaOff fpa)) n)) ∧ (∀ i : Nat, i < memKey (fpaUnit fpa) (fpaOff fpa) ∨ memKey (fpaUnit fpa) (fpaOff fpa) + n ≤ i → memGet t.mem i = memGet s.mem i) ∧
        t.ctx c = some { x.setWide f.rd n (leNat (memRead s.mem (memKey (fpaUnit fpa) (fpaOff fpa)) n)) with mode := .running, ordering := false, pc := x.pc + 1 } ∧ (t.tile c.tile).stores = [] ∧ t.out = s.out)) ∧
  (∀ (s : State) (c : At) (f : FmtA) (x : Ctx) (n : Nat),
      s.ready c = some x →
      s.home.finished = [] →
      (s.clauseAt x.clause).map Clause.cancelled ≠ some true →
      n = 4 * 2 ^ f.w.toNat →
      (atomicWidth f.op.toNat n = true ∧ (n = 16 → f.rd.toNat % 2 = 0 ∧ f.rb.toNat % 2 = 0)) →
      (x.sreg f.ra).toNat % n ≠ 0 →
      exec (.amo c f) s = .next (s.exception c x 3 (x.sreg f.ra).toNat .align))

/-- VADD, VSUB, VMUL, VFMA, VMIN, VMAX, VABS and VFMAW compute each enabled lane and keep the rest. (R148, R149, R190, R193, R194, R195, R196, R202, R206, Table 6-3, 06_tile_instruction_set.md, 08_number_formats.md) -/
def Obligations.VectorArithmeticWorksLaneByLane : Prop :=
  (∀ (s : State) (c : At) (f : FmtV) (x : Ctx),
      s.ready c = some x →
      9 ≤ f.fmt.toNat ∧ f.fmt.toNat ≤ 12 →
      Completes (.vadd c f) s (fun t => LanesWritten f.fmt.toNat (x.preg f.pg) (x.vreg f.vd) ((t.after c x).vreg f.vd) (fun i => (laneGet f.fmt.toNat (x.vreg f.va) i + laneGet f.fmt.toNat (x.vreg f.vb) i) % 2 ^ fmtWidth f.fmt.toNat) ∧ (t.after c x).seed = x.seed ∧ (t.after c x).fflags = x.fflags ∧
        t = { s.setCtx c { x with v := tset f.vd.toNat ((t.after c x).vreg f.vd) x.v, seed := (t.after c x).seed, fflags := (t.after c x).fflags, pc := x.pc + 1 } with fresh := s.fresh + 1 })) ∧
  (∀ (s : State) (c : At) (f : FmtV) (x : Ctx),
      s.ready c = some x →
      9 ≤ f.fmt.toNat ∧ f.fmt.toNat ≤ 12 →
      Completes (.vsub c f) s (fun t => LanesWritten f.fmt.toNat (x.preg f.pg) (x.vreg f.vd) ((t.after c x).vreg f.vd) (fun i => (((laneGet f.fmt.toNat (x.vreg f.va) i : Nat) - (laneGet f.fmt.toNat (x.vreg f.vb) i : Nat) : Int) % 2 ^ fmtWidth f.fmt.toNat).toNat) ∧ (t.after c x).seed = x.seed ∧ (t.after c x).fflags = x.fflags ∧
        t = { s.setCtx c { x with v := tset f.vd.toNat ((t.after c x).vreg f.vd) x.v, seed := (t.after c x).seed, fflags := (t.after c x).fflags, pc := x.pc + 1 } with fresh := s.fresh + 1 })) ∧
  (∀ (s : State) (c : At) (f : FmtV) (x : Ctx),
      s.ready c = some x →
      9 ≤ f.fmt.toNat ∧ f.fmt.toNat ≤ 12 →
      Completes (.vmul c f) s (fun t => LanesWritten f.fmt.toNat (x.preg f.pg) (x.vreg f.vd) ((t.after c x).vreg f.vd) (fun i => laneGet f.fmt.toNat (x.vreg f.va) i * laneGet f.fmt.toNat (x.vreg f.vb) i % 2 ^ fmtWidth f.fmt.toNat) ∧ (t.after c x).seed = x.seed ∧ (t.after c x).fflags = x.fflags ∧
        t = { s.setCtx c { x with v := tset f.vd.toNat ((t.after c x).vreg f.vd) x.v, seed := (t.after c x).seed, fflags := (t.after c x).fflags, pc := x.pc + 1 } with fresh := s.fresh + 1 })) ∧
  (∀ (s : State) (c : At) (f : FmtV) (x : Ctx),
      s.ready c = some x →
      9 ≤ f.fmt.toNat ∧ f.fmt.toNat ≤ 12 →
      Completes (.vfma c f) s (fun t => LanesWritten f.fmt.toNat (x.preg f.pg) (x.vreg f.vd) ((t.after c x).vreg f.vd) (fun i => (laneGet f.fmt.toNat (x.vreg f.vd) i + laneGet f.fmt.toNat (x.vreg f.va) i * laneGet f.fmt.toNat (x.vreg f.vb) i) % 2 ^ fmtWidth f.fmt.toNat) ∧ (t.after c x).seed = x.seed ∧ (t.after c x).fflags = x.fflags ∧
        t = { s.setCtx c { x with v := tset f.vd.toNat ((t.after c x).vreg f.vd) x.v, seed := (t.after c x).seed, fflags := (t.after c x).fflags, pc := x.pc + 1 } with fresh := s.fresh + 1 })) ∧
  (∀ (s : State) (c : At) (f : FmtV) (x : Ctx),
      s.ready c = some x →
      f.fmt.toNat ≤ 5 →
      Completes (.vadd c f) s (fun t => LanesWritten f.fmt.toNat (x.preg f.pg) (x.vreg f.vd) ((t.after c x).vreg f.vd) (fun i => (encodeNum f.fmt.toNat x.rmode (x.random f.fmt.toNat (x.preg f.pg) i) (Machine.Num.add (decodeNum f.fmt.toNat (laneGet f.fmt.toNat (x.vreg f.va) i)) (decodeNum f.fmt.toNat (laneGet f.fmt.toNat (x.vreg f.vb) i))).1).1) ∧ (t.after c x).seed = x.seedAfter f.fmt.toNat (x.preg f.pg) ∧ FlagsRaised f.fmt.toNat (x.preg f.pg) x.fflags (t.after c x).fflags (fun i => Nat.lor (encodeNum f.fmt.toNat x.rmode (x.random f.fmt.toNat (x.preg f.pg) i) (Machine.Num.add (decodeNum f.fmt.toNat (laneGet f.fmt.toNat (x.vreg f.va) i)) (decodeNum f.fmt.toNat (laneGet f.fmt.toNat (x.vreg f.vb) i))).1).2 (if (Machine.Num.add (decodeNum f.fmt.toNat (laneGet f.fmt.toNat (x.vreg f.va) i)) (decodeNum f.fmt.toNat (laneGet f.fmt.toNat (x.vreg f.vb) i))).2 then 1 else 0)) ∧
        t = { s.setCtx c { x with v := tset f.vd.toNat ((t.after c x).vreg f.vd) x.v, seed := (t.after c x).seed, fflags := (t.after c x).fflags, pc := x.pc + 1 } with fresh := s.fresh + 1 })) ∧
  (∀ (s : State) (c : At) (f : FmtV) (x : Ctx),
      s.ready c = some x →
      f.fmt.toNat ≤ 5 →
      Completes (.vsub c f) s (fun t => LanesWritten f.fmt.toNat (x.preg f.pg) (x.vreg f.vd) ((t.after c x).vreg f.vd) (fun i => (encodeNum f.fmt.toNat x.rmode (x.random f.fmt.toNat (x.preg f.pg) i) (Machine.Num.add (decodeNum f.fmt.toNat (laneGet f.fmt.toNat (x.vreg f.va) i)) (Machine.Num.neg (decodeNum f.fmt.toNat (laneGet f.fmt.toNat (x.vreg f.vb) i)))).1).1) ∧ (t.after c x).seed = x.seedAfter f.fmt.toNat (x.preg f.pg) ∧ FlagsRaised f.fmt.toNat (x.preg f.pg) x.fflags (t.after c x).fflags (fun i => Nat.lor (encodeNum f.fmt.toNat x.rmode (x.random f.fmt.toNat (x.preg f.pg) i) (Machine.Num.add (decodeNum f.fmt.toNat (laneGet f.fmt.toNat (x.vreg f.va) i)) (Machine.Num.neg (decodeNum f.fmt.toNat (laneGet f.fmt.toNat (x.vreg f.vb) i)))).1).2 (if (Machine.Num.add (decodeNum f.fmt.toNat (laneGet f.fmt.toNat (x.vreg f.va) i)) (Machine.Num.neg (decodeNum f.fmt.toNat (laneGet f.fmt.toNat (x.vreg f.vb) i)))).2 then 1 else 0)) ∧
        t = { s.setCtx c { x with v := tset f.vd.toNat ((t.after c x).vreg f.vd) x.v, seed := (t.after c x).seed, fflags := (t.after c x).fflags, pc := x.pc + 1 } with fresh := s.fresh + 1 })) ∧
  (∀ (s : State) (c : At) (f : FmtV) (x : Ctx),
      s.ready c = some x →
      f.fmt.toNat ≤ 5 →
      Completes (.vmul c f) s (fun t => LanesWritten f.fmt.toNat (x.preg f.pg) (x.vreg f.vd) ((t.after c x).vreg f.vd) (fun i => (encodeNum f.fmt.toNat x.rmode (x.random f.fmt.toNat (x.preg f.pg) i) (Machine.Num.mul (decodeNum f.fmt.toNat (laneGet f.fmt.toNat (x.vreg f.va) i)) (decodeNum f.fmt.toNat (laneGet f.fmt.toNat (x.vreg f.vb) i))).1).1) ∧ (t.after c x).seed = x.seedAfter f.fmt.toNat (x.preg f.pg) ∧ FlagsRaised f.fmt.toNat (x.preg f.pg) x.fflags (t.after c x).fflags (fun i => Nat.lor (encodeNum f.fmt.toNat x.rmode (x.random f.fmt.toNat (x.preg f.pg) i) (Machine.Num.mul (decodeNum f.fmt.toNat (laneGet f.fmt.toNat (x.vreg f.va) i)) (decodeNum f.fmt.toNat (laneGet f.fmt.toNat (x.vreg f.vb) i))).1).2 (if (Machine.Num.mul (decodeNum f.fmt.toNat (laneGet f.fmt.toNat (x.vreg f.va) i)) (decodeNum f.fmt.toNat (laneGet f.fmt.toNat (x.vreg f.vb) i))).2 then 1 else 0)) ∧
        t = { s.setCtx c { x with v := tset f.vd.toNat ((t.after c x).vreg f.vd) x.v, seed := (t.after c x).seed, fflags := (t.after c x).fflags, pc := x.pc + 1 } with fresh := s.fresh + 1 })) ∧
  (∀ (s : State) (c : At) (f : FmtV) (x : Ctx),
      s.ready c = some x →
      f.fmt.toNat ≤ 5 →
      Completes (.vfma c f) s (fun t => LanesWritten f.fmt.toNat (x.preg f.pg) (x.vreg f.vd) ((t.after c x).vreg f.vd) (fun i => (encodeNum f.fmt.toNat x.rmode (x.random f.fmt.toNat (x.preg f.pg) i) (Machine.Num.fma (decodeNum f.fmt.toNat (laneGet f.fmt.toNat (x.vreg f.vd) i)) (decodeNum f.fmt.toNat (laneGet f.fmt.toNat (x.vreg f.va) i)) (decodeNum f.fmt.toNat (laneGet f.fmt.toNat (x.vreg f.vb) i))).1).1) ∧ (t.after c x).seed = x.seedAfter f.fmt.toNat (x.preg f.pg) ∧ FlagsRaised f.fmt.toNat (x.preg f.pg) x.fflags (t.after c x).fflags (fun i => Nat.lor (encodeNum f.fmt.toNat x.rmode (x.random f.fmt.toNat (x.preg f.pg) i) (Machine.Num.fma (decodeNum f.fmt.toNat (laneGet f.fmt.toNat (x.vreg f.vd) i)) (decodeNum f.fmt.toNat (laneGet f.fmt.toNat (x.vreg f.va) i)) (decodeNum f.fmt.toNat (laneGet f.fmt.toNat (x.vreg f.vb) i))).1).2 (if (Machine.Num.fma (decodeNum f.fmt.toNat (laneGet f.fmt.toNat (x.vreg f.vd) i)) (decodeNum f.fmt.toNat (laneGet f.fmt.toNat (x.vreg f.va) i)) (decodeNum f.fmt.toNat (laneGet f.fmt.toNat (x.vreg f.vb) i))).2 then 1 else 0)) ∧
        t = { s.setCtx c { x with v := tset f.vd.toNat ((t.after c x).vreg f.vd) x.v, seed := (t.after c x).seed, fflags := (t.after c x).fflags, pc := x.pc + 1 } with fresh := s.fresh + 1 })) ∧
  (∀ (s : State) (c : At) (f : FmtV) (x : Ctx),
      s.ready c = some x →
      vecFmt f.fmt.toNat = true →
      Completes (.vmin c f) s (fun t => (∀ j < 256, byteOn f.fmt.toNat (x.preg f.pg) j = true → elem 8 ((t.after c x).vreg f.vd).toNat j ∈ (extremes f.fmt.toNat true (laneGet f.fmt.toNat (x.vreg f.va) (j * 8 / regWidth f.fmt.toNat)) (laneGet f.fmt.toNat (x.vreg f.vb) (j * 8 / regWidth f.fmt.toNat))).map (fun v => elem 8 v (j % (regWidth f.fmt.toNat / 8)))) ∧
        (∀ j < 256, byteOn f.fmt.toNat (x.preg f.pg) j = false → elem 8 ((t.after c x).vreg f.vd).toNat j = elem 8 (x.vreg f.vd).toNat j) ∧ (t.after c x).seed = (if isIntFmt f.fmt.toNat then x.seed else x.seedAfter f.fmt.toNat (x.preg f.pg)) ∧ (t.after c x).fflags = x.fflags ∧
        t = { s.setCtx c { x with v := tset f.vd.toNat ((t.after c x).vreg f.vd) x.v, seed := (t.after c x).seed, fflags := (t.after c x).fflags, pc := x.pc + 1 } with fresh := s.fresh + 1 })) ∧
  (∀ (s : State) (c : At) (f : FmtV) (x : Ctx),
      s.ready c = some x →
      vecFmt f.fmt.toNat = true →
      Completes (.vmax c f) s (fun t => (∀ j < 256, byteOn f.fmt.toNat (x.preg f.pg) j = true → elem 8 ((t.after c x).vreg f.vd).toNat j ∈ (extremes f.fmt.toNat false (laneGet f.fmt.toNat (x.vreg f.va) (j * 8 / regWidth f.fmt.toNat)) (laneGet f.fmt.toNat (x.vreg f.vb) (j * 8 / regWidth f.fmt.toNat))).map (fun v => elem 8 v (j % (regWidth f.fmt.toNat / 8)))) ∧
        (∀ j < 256, byteOn f.fmt.toNat (x.preg f.pg) j = false → elem 8 ((t.after c x).vreg f.vd).toNat j = elem 8 (x.vreg f.vd).toNat j) ∧ (t.after c x).seed = (if isIntFmt f.fmt.toNat then x.seed else x.seedAfter f.fmt.toNat (x.preg f.pg)) ∧ (t.after c x).fflags = x.fflags ∧
        t = { s.setCtx c { x with v := tset f.vd.toNat ((t.after c x).vreg f.vd) x.v, seed := (t.after c x).seed, fflags := (t.after c x).fflags, pc := x.pc + 1 } with fresh := s.fresh + 1 })) ∧
  (∀ (s : State) (c : At) (f : FmtV) (x : Ctx),
      s.ready c = some x →
      9 ≤ f.fmt.toNat ∧ f.fmt.toNat ≤ 12 →
      f.vb = 0 →
      Completes (.vabs c f) s (fun t => LanesWritten f.fmt.toNat (x.preg f.pg) (x.vreg f.vd) ((t.after c x).vreg f.vd) (fun i => (if laneGet f.fmt.toNat (x.vreg f.va) i < 2 ^ (fmtWidth f.fmt.toNat - 1) then laneGet f.fmt.toNat (x.vreg f.va) i else 2 ^ fmtWidth f.fmt.toNat - laneGet f.fmt.toNat (x.vreg f.va) i)) ∧ (t.after c x).seed = x.seed ∧ (t.after c x).fflags = x.fflags ∧
        t = { s.setCtx c { x with v := tset f.vd.toNat ((t.after c x).vreg f.vd) x.v, seed := (t.after c x).seed, fflags := (t.after c x).fflags, pc := x.pc + 1 } with fresh := s.fresh + 1 })) ∧
  (∀ (s : State) (c : At) (f : FmtV) (x : Ctx),
      s.ready c = some x →
      f.fmt.toNat ≤ 5 →
      f.vb = 0 →
      Completes (.vabs c f) s (fun t => LanesWritten f.fmt.toNat (x.preg f.pg) (x.vreg f.vd) ((t.after c x).vreg f.vd) (fun i => (if decodeNum f.fmt.toNat (laneGet f.fmt.toNat (x.vreg f.va) i) = Machine.Num.nan then nanCode f.fmt.toNat else laneGet f.fmt.toNat (x.vreg f.va) i % 2 ^ (fmtWidth f.fmt.toNat - 1))) ∧ (t.after c x).seed = x.seed ∧ (t.after c x).fflags = x.fflags ∧
        t = { s.setCtx c { x with v := tset f.vd.toNat ((t.after c x).vreg f.vd) x.v, seed := (t.after c x).seed, fflags := (t.after c x).fflags, pc := x.pc + 1 } with fresh := s.fresh + 1 })) ∧
  (∀ (s : State) (c : At) (f : FmtV) (x : Ctx),
      s.ready c = some x →
      vecFmt f.fmt.toNat = false →
      exec (.vadd c f) s = .next (s.exception c x 1 0 .format)) ∧
  (∀ (s : State) (c : At) (f : FmtV) (x : Ctx),
      s.ready c = some x →
      vecFmt f.fmt.toNat = false →
      exec (.vsub c f) s = .next (s.exception c x 1 0 .format)) ∧
  (∀ (s : State) (c : At) (f : FmtV) (x : Ctx),
      s.ready c = some x →
      vecFmt f.fmt.toNat = false →
      exec (.vmul c f) s = .next (s.exception c x 1 0 .format)) ∧
  (∀ (s : State) (c : At) (f : FmtV) (x : Ctx),
      s.ready c = some x →
      vecFmt f.fmt.toNat = false →
      exec (.vfma c f) s = .next (s.exception c x 1 0 .format)) ∧
  (∀ (s : State) (c : At) (f : FmtV) (x : Ctx),
      s.ready c = some x →
      vecFmt f.fmt.toNat = false →
      exec (.vmin c f) s = .next (s.exception c x 1 0 .format)) ∧
  (∀ (s : State) (c : At) (f : FmtV) (x : Ctx),
      s.ready c = some x →
      vecFmt f.fmt.toNat = false →
      exec (.vmax c f) s = .next (s.exception c x 1 0 .format)) ∧
  (∀ (s : State) (c : At) (f : FmtV) (x : Ctx),
      s.ready c = some x →
      vecFmt f.fmt.toNat = false →
      exec (.vabs c f) s = .next (s.exception c x 1 0 .format)) ∧
  (∀ (s : State) (c : At) (f : FmtV) (x : Ctx),
      s.ready c = some x →
      f.fmt.toNat = 12 ∧ f.vd.toNat % 4 = 0 →
      Completes (.vfmaw c f) s (fun t => (∀ r < wideRegs f.fmt.toNat, LanesWritten 10 (x.preg f.pg) (x.vreg (f.vd + BitVec.ofNat 5 r)) ((t.after c x).vreg (f.vd + BitVec.ofNat 5 r)) (fun j => (((laneGet 10 (x.vreg (f.vd + BitVec.ofNat 5 r)) j : Nat) + (if laneGet f.fmt.toNat (x.vreg f.va) (r * 64 + j) < 128 then ((laneGet f.fmt.toNat (x.vreg f.va) (r * 64 + j) : Nat) : Int) else ((laneGet f.fmt.toNat (x.vreg f.va) (r * 64 + j) : Nat) : Int) - 256) * (if laneGet f.fmt.toNat (x.vreg f.vb) (r * 64 + j) < 128 then ((laneGet f.fmt.toNat (x.vreg f.vb) (r * 64 + j) : Nat) : Int) else ((laneGet f.fmt.toNat (x.vreg f.vb) (r * 64 + j) : Nat) : Int) - 256) : Int) % 2 ^ 32).toNat)) ∧ (t.after c x).seed = x.seed ∧ (t.after c x).fflags = x.fflags ∧ (∀ q : BitVec 5, q.toNat < f.vd.toNat ∨ f.vd.toNat + wideRegs f.fmt.toNat ≤ q.toNat → (t.after c x).vreg q = x.vreg q) ∧
        t = s.setCtx c { x with v := (t.after c x).v, seed := (t.after c x).seed, fflags := (t.after c x).fflags, pc := x.pc + 1 })) ∧
  (∀ (s : State) (c : At) (f : FmtV) (x : Ctx),
      s.ready c = some x →
      (f.fmt.toNat = 2 ∨ f.fmt.toNat = 3) ∧ f.vd.toNat % 2 = 0 ∨ (f.fmt.toNat = 4 ∨ f.fmt.toNat = 5) ∧ f.vd.toNat % 4 = 0 →
      Completes (.vfmaw c f) s (fun t => (∀ r < wideRegs f.fmt.toNat, LanesWritten 1 (x.preg f.pg) (x.vreg (f.vd + BitVec.ofNat 5 r)) ((t.after c x).vreg (f.vd + BitVec.ofNat 5 r)) (fun j => (encodeNum 1 x.rmode (x.randomAt (r * (List.range 64).countP (laneOn 1 (x.preg f.pg)) + (List.range j).countP (laneOn 1 (x.preg f.pg)) + 1)) (Machine.Num.fma (decodeNum 1 (laneGet 1 (x.vreg (f.vd + BitVec.ofNat 5 r)) j)) (decodeNum f.fmt.toNat (laneGet f.fmt.toNat (x.vreg f.va) (r * 64 + j))) (decodeNum f.fmt.toNat (laneGet f.fmt.toNat (x.vreg f.vb) (r * 64 + j)))).1).1)) ∧ (∀ q : BitVec 5, q.toNat < f.vd.toNat ∨ f.vd.toNat + wideRegs f.fmt.toNat ≤ q.toNat → (t.after c x).vreg q = x.vreg q) ∧
        t = s.setCtx c { x with v := (t.after c x).v, seed := (t.after c x).seed, fflags := (t.after c x).fflags, pc := x.pc + 1 })) ∧
  (∀ (s : State) (c : At) (f : FmtV) (x : Ctx),
      s.ready c = some x →
      f.fmt.toNat ∉ [2, 3, 4, 5, 12] ∨ f.vd.toNat % wideRegs f.fmt.toNat ≠ 0 →
      exec (.vfmaw c f) s = .next (s.exception c x 1 0 .format))

/-- Vector logic, shifts, selection, moves, comparison, conversion and element transfers. (R146, R148, R149, R150, R192, R196, R197, R198, Table 6-3, Table 8-5, 06_tile_instruction_set.md) -/
def Obligations.VectorBitOperationsAndMoves : Prop :=
  (∀ (s : State) (c : At) (f : FmtV) (x : Ctx),
      s.ready c = some x →
      9 ≤ f.fmt.toNat ∧ f.fmt.toNat ≤ 12 →
      Completes (.vand c f) s (fun t => LanesWritten f.fmt.toNat (x.preg f.pg) (x.vreg f.vd) ((t.after c x).vreg f.vd) (fun i => Nat.land (laneGet f.fmt.toNat (x.vreg f.va) i) (laneGet f.fmt.toNat (x.vreg f.vb) i)) ∧ (t.after c x).seed = x.seed ∧ (t.after c x).fflags = x.fflags ∧
        t = { s.setCtx c { x with v := tset f.vd.toNat ((t.after c x).vreg f.vd) x.v, seed := (t.after c x).seed, fflags := (t.after c x).fflags, pc := x.pc + 1 } with fresh := s.fresh + 1 })) ∧
  (∀ (s : State) (c : At) (f : FmtV) (x : Ctx),
      s.ready c = some x →
      9 ≤ f.fmt.toNat ∧ f.fmt.toNat ≤ 12 →
      Completes (.vor c f) s (fun t => LanesWritten f.fmt.toNat (x.preg f.pg) (x.vreg f.vd) ((t.after c x).vreg f.vd) (fun i => Nat.lor (laneGet f.fmt.toNat (x.vreg f.va) i) (laneGet f.fmt.toNat (x.vreg f.vb) i)) ∧ (t.after c x).seed = x.seed ∧ (t.after c x).fflags = x.fflags ∧
        t = { s.setCtx c { x with v := tset f.vd.toNat ((t.after c x).vreg f.vd) x.v, seed := (t.after c x).seed, fflags := (t.after c x).fflags, pc := x.pc + 1 } with fresh := s.fresh + 1 })) ∧
  (∀ (s : State) (c : At) (f : FmtV) (x : Ctx),
      s.ready c = some x →
      9 ≤ f.fmt.toNat ∧ f.fmt.toNat ≤ 12 →
      Completes (.vxor c f) s (fun t => LanesWritten f.fmt.toNat (x.preg f.pg) (x.vreg f.vd) ((t.after c x).vreg f.vd) (fun i => Nat.xor (laneGet f.fmt.toNat (x.vreg f.va) i) (laneGet f.fmt.toNat (x.vreg f.vb) i)) ∧ (t.after c x).seed = x.seed ∧ (t.after c x).fflags = x.fflags ∧
        t = { s.setCtx c { x with v := tset f.vd.toNat ((t.after c x).vreg f.vd) x.v, seed := (t.after c x).seed, fflags := (t.after c x).fflags, pc := x.pc + 1 } with fresh := s.fresh + 1 })) ∧
  (∀ (s : State) (c : At) (f : FmtV) (x : Ctx),
      s.ready c = some x →
      9 ≤ f.fmt.toNat ∧ f.fmt.toNat ≤ 12 →
      Completes (.vshl c f) s (fun t => (∀ j < 256, byteOn f.fmt.toNat (x.preg f.pg) j = true ∧ laneGet f.fmt.toNat (x.vreg f.vb) (j * 8 / regWidth f.fmt.toNat) < fmtWidth f.fmt.toNat → elem 8 ((t.after c x).vreg f.vd).toNat j = elem 8 (laneGet f.fmt.toNat (x.vreg f.va) (j * 8 / regWidth f.fmt.toNat) * 2 ^ (laneGet f.fmt.toNat (x.vreg f.vb) (j * 8 / regWidth f.fmt.toNat)) % 2 ^ fmtWidth f.fmt.toNat) (j % (regWidth f.fmt.toNat / 8))) ∧
        (∀ j < 256, byteOn f.fmt.toNat (x.preg f.pg) j = false → elem 8 ((t.after c x).vreg f.vd).toNat j = elem 8 (x.vreg f.vd).toNat j) ∧ (t.after c x).seed = x.seed ∧ (t.after c x).fflags = x.fflags ∧
        t = { s.setCtx c { x with v := tset f.vd.toNat ((t.after c x).vreg f.vd) x.v, seed := (t.after c x).seed, fflags := (t.after c x).fflags, pc := x.pc + 1 } with fresh := s.fresh + 1 })) ∧
  (∀ (s : State) (c : At) (f : FmtV) (x : Ctx),
      s.ready c = some x →
      9 ≤ f.fmt.toNat ∧ f.fmt.toNat ≤ 12 →
      Completes (.vshr c f) s (fun t => (∀ j < 256, byteOn f.fmt.toNat (x.preg f.pg) j = true ∧ laneGet f.fmt.toNat (x.vreg f.vb) (j * 8 / regWidth f.fmt.toNat) < fmtWidth f.fmt.toNat → elem 8 ((t.after c x).vreg f.vd).toNat j = elem 8 (laneGet f.fmt.toNat (x.vreg f.va) (j * 8 / regWidth f.fmt.toNat) / 2 ^ (laneGet f.fmt.toNat (x.vreg f.vb) (j * 8 / regWidth f.fmt.toNat))) (j % (regWidth f.fmt.toNat / 8))) ∧
        (∀ j < 256, byteOn f.fmt.toNat (x.preg f.pg) j = false → elem 8 ((t.after c x).vreg f.vd).toNat j = elem 8 (x.vreg f.vd).toNat j) ∧ (t.after c x).seed = x.seed ∧ (t.after c x).fflags = x.fflags ∧
        t = { s.setCtx c { x with v := tset f.vd.toNat ((t.after c x).vreg f.vd) x.v, seed := (t.after c x).seed, fflags := (t.after c x).fflags, pc := x.pc + 1 } with fresh := s.fresh + 1 })) ∧
  (∀ (s : State) (c : At) (f : FmtV) (x : Ctx),
      s.ready c = some x →
      9 ≤ f.fmt.toNat ∧ f.fmt.toNat ≤ 12 →
      Completes (.vsra c f) s (fun t => (∀ j < 256, byteOn f.fmt.toNat (x.preg f.pg) j = true ∧ laneGet f.fmt.toNat (x.vreg f.vb) (j * 8 / regWidth f.fmt.toNat) < fmtWidth f.fmt.toNat → elem 8 ((t.after c x).vreg f.vd).toNat j = elem 8 (((if laneGet f.fmt.toNat (x.vreg f.va) (j * 8 / regWidth f.fmt.toNat) < 2 ^ (fmtWidth f.fmt.toNat - 1) then ((laneGet f.fmt.toNat (x.vreg f.va) (j * 8 / regWidth f.fmt.toNat) : Nat) : Int) else ((laneGet f.fmt.toNat (x.vreg f.va) (j * 8 / regWidth f.fmt.toNat) : Nat) : Int) - 2 ^ fmtWidth f.fmt.toNat) / 2 ^ (laneGet f.fmt.toNat (x.vreg f.vb) (j * 8 / regWidth f.fmt.toNat)) % 2 ^ fmtWidth f.fmt.toNat).toNat) (j % (regWidth f.fmt.toNat / 8))) ∧
        (∀ j < 256, byteOn f.fmt.toNat (x.preg f.pg) j = false → elem 8 ((t.after c x).vreg f.vd).toNat j = elem 8 (x.vreg f.vd).toNat j) ∧ (t.after c x).seed = x.seed ∧ (t.after c x).fflags = x.fflags ∧
        t = { s.setCtx c { x with v := tset f.vd.toNat ((t.after c x).vreg f.vd) x.v, seed := (t.after c x).seed, fflags := (t.after c x).fflags, pc := x.pc + 1 } with fresh := s.fresh + 1 })) ∧
  (∀ (s : State) (c : At) (f : FmtV) (x : Ctx),
      s.ready c = some x →
      f.fmt.toNat < 9 ∨ 12 < f.fmt.toNat →
      exec (.vand c f) s = .next (s.exception c x 1 0 .format)) ∧
  (∀ (s : State) (c : At) (f : FmtV) (x : Ctx),
      s.ready c = some x →
      f.fmt.toNat < 9 ∨ 12 < f.fmt.toNat →
      exec (.vor c f) s = .next (s.exception c x 1 0 .format)) ∧
  (∀ (s : State) (c : At) (f : FmtV) (x : Ctx),
      s.ready c = some x →
      f.fmt.toNat < 9 ∨ 12 < f.fmt.toNat →
      exec (.vxor c f) s = .next (s.exception c x 1 0 .format)) ∧
  (∀ (s : State) (c : At) (f : FmtV) (x : Ctx),
      s.ready c = some x →
      f.fmt.toNat < 9 ∨ 12 < f.fmt.toNat →
      exec (.vshl c f) s = .next (s.exception c x 1 0 .format)) ∧
  (∀ (s : State) (c : At) (f : FmtV) (x : Ctx),
      s.ready c = some x →
      f.fmt.toNat < 9 ∨ 12 < f.fmt.toNat →
      exec (.vshr c f) s = .next (s.exception c x 1 0 .format)) ∧
  (∀ (s : State) (c : At) (f : FmtV) (x : Ctx),
      s.ready c = some x →
      f.fmt.toNat < 9 ∨ 12 < f.fmt.toNat →
      exec (.vsra c f) s = .next (s.exception c x 1 0 .format)) ∧
  (∀ (s : State) (c : At) (f : FmtV) (x : Ctx),
      s.ready c = some x →
      vecFmt f.fmt.toNat = true →
      Completes (.vsel c f) s (fun t => (∀ j < 256, elem 8 ((t.after c x).vreg f.vd).toNat j = elem 8 (if (x.preg f.pg).getLsbD j then x.vreg f.va else x.vreg f.vb).toNat j) ∧ t = s.setCtx c { x with v := tset f.vd.toNat ((t.after c x).vreg f.vd) x.v, pc := x.pc + 1 })) ∧
  (∀ (s : State) (c : At) (f : FmtV) (x : Ctx),
      s.ready c = some x →
      vecFmt f.fmt.toNat = true →
      f.vb = 0 →
      Completes (.vmov c f) s (fun t => (∀ j < 256, elem 8 ((t.after c x).vreg f.vd).toNat j = elem 8 (if byteOn f.fmt.toNat (x.preg f.pg) j then x.vreg f.va else x.vreg f.vd).toNat j) ∧ t = s.setCtx c { x with v := tset f.vd.toNat ((t.after c x).vreg f.vd) x.v, pc := x.pc + 1 })) ∧
  (∀ (s : State) (c : At) (f : FmtV) (cond : BitVec 3) (x : Ctx),
      s.ready c = some x →
      vecFmt f.fmt.toNat = true ∧ f.vd.toNat < 16 ∧ cond.toNat < 7 →
      Completes (.vcmp c f cond) s (fun t => (∀ j < 256, f.vd ≠ 0 → ((t.after c x).preg (f.vd.truncate 4)).getLsbD j = (laneOn f.fmt.toNat (x.preg f.pg) (j * 8 / regWidth f.fmt.toNat) && orderHolds cond.toNat (Machine.Num.cmp (decodeNum f.fmt.toNat (laneGet f.fmt.toNat (x.vreg f.va) (j * 8 / regWidth f.fmt.toNat))) (decodeNum f.fmt.toNat (laneGet f.fmt.toNat (x.vreg f.vb) (j * 8 / regWidth f.fmt.toNat)))))) ∧
        (t.after c x).fflags = (if cond.toNat = 6 ∧ (∃ i < lanesOf f.fmt.toNat, laneOn f.fmt.toNat (x.preg f.pg) i = true ∧ Machine.Num.cmp (decodeNum f.fmt.toNat (laneGet f.fmt.toNat (x.vreg f.va) i)) (decodeNum f.fmt.toNat (laneGet f.fmt.toNat (x.vreg f.vb) i)) = none) then Nat.lor x.fflags 1 else x.fflags) ∧
        t = s.setCtx c { x with p := (t.after c x).p, fflags := (t.after c x).fflags, pc := x.pc + 1 } ∧ (∀ q : BitVec 4, q ≠ (f.vd.truncate 4) → (t.after c x).preg q = x.preg q))) ∧
  (∀ (s : State) (c : At) (f : FmtV) (cond : BitVec 3) (x : Ctx),
      s.ready c = some x →
      vecFmt f.fmt.toNat = false ∨ 16 ≤ f.vd.toNat ∨ cond.toNat = 7 →
      exec (.vcmp c f cond) s = .next (s.exception c x 1 0 .format)) ∧
  (∀ (s : State) (c : At) (f : FmtV) (part : BitVec 3) (src : Nat) (x : Ctx),
      s.ready c = some x →
      f.vb.toNat < 16 ∧ src = f.vb.toNat ∧ convAllowed src f.fmt.toNat = true ∧ 8 ≤ regWidth f.fmt.toNat →
      regWidth src ≤ regWidth f.fmt.toNat ∧ part.toNat < regWidth f.fmt.toNat / regWidth src →
      Completes (.vcvt c f part) s (fun t => LanesWritten f.fmt.toNat (x.preg f.pg) (x.vreg f.vd) ((t.after c x).vreg f.vd) (fun i => (x.converted src f.fmt.toNat ((List.range (i - 0)).countP (fun k => laneOn f.fmt.toNat (x.preg f.pg) (0 + k)) + 1) (laneGet src (x.vreg f.va) (part.toNat * (2048 / regWidth f.fmt.toNat) + (i - 0)) % 2 ^ fmtWidth src)).1) ∧ t = s.setCtx c { x with v := tset f.vd.toNat ((t.after c x).vreg f.vd) x.v, seed := (t.after c x).seed, fflags := (t.after c x).fflags, pc := x.pc + 1 })) ∧
  (∀ (s : State) (c : At) (f : FmtV) (part : BitVec 3) (src : Nat) (x : Ctx),
      s.ready c = some x →
      f.vb.toNat < 16 ∧ src = f.vb.toNat ∧ convAllowed src f.fmt.toNat = true ∧ 8 ≤ regWidth f.fmt.toNat →
      regWidth f.fmt.toNat < regWidth src ∧ part.toNat < regWidth src / regWidth f.fmt.toNat →
      Completes (.vcvt c f part) s (fun t => (∀ j < 256, elem 8 ((t.after c x).vreg f.vd).toNat j = if byteOn f.fmt.toNat (x.preg f.pg) j ∧ part.toNat * (2048 / regWidth src) ≤ (j * 8 / regWidth f.fmt.toNat) ∧ (j * 8 / regWidth f.fmt.toNat) < part.toNat * (2048 / regWidth src) + 2048 / regWidth src then elem 8 (x.converted src f.fmt.toNat ((List.range ((j * 8 / regWidth f.fmt.toNat) - (part.toNat * (2048 / regWidth src)))).countP (fun k => laneOn f.fmt.toNat (x.preg f.pg) ((part.toNat * (2048 / regWidth src)) + k)) + 1) (laneGet src (x.vreg f.va) (0 + ((j * 8 / regWidth f.fmt.toNat) - (part.toNat * (2048 / regWidth src)))) % 2 ^ fmtWidth src)).1 (j % (regWidth f.fmt.toNat / 8)) else elem 8 (x.vreg f.vd).toNat j) ∧ t = s.setCtx c { x with v := tset f.vd.toNat ((t.after c x).vreg f.vd) x.v, seed := (t.after c x).seed, fflags := (t.after c x).fflags, pc := x.pc + 1 })) ∧
  (∀ (s : State) (c : At) (f : FmtV) (part : BitVec 3) (src : Nat) (x : Ctx),
      s.ready c = some x →
      f.vb.toNat < 16 ∧ src = f.vb.toNat ∧ convAllowed src f.fmt.toNat = true ∧ regWidth f.fmt.toNat = 4 →
      part.toNat < regWidth src / 4 →
      Completes (.vcvt c f part) s (fun t => (∀ i < 512, laneGet f.fmt.toNat ((t.after c x).vreg f.vd) i = if laneOn f.fmt.toNat (x.preg f.pg) i ∧ part.toNat * (2048 / regWidth src) ≤ i ∧ i < part.toNat * (2048 / regWidth src) + 2048 / regWidth src then (x.converted src f.fmt.toNat ((List.range (i - (part.toNat * (2048 / regWidth src)))).countP (fun k => laneOn f.fmt.toNat (x.preg f.pg) ((part.toNat * (2048 / regWidth src)) + k)) + 1) (laneGet src (x.vreg f.va) (0 + (i - (part.toNat * (2048 / regWidth src)))) % 2 ^ fmtWidth src)).1 else laneGet f.fmt.toNat (x.vreg f.vd) i) ∧ t = s.setCtx c { x with v := tset f.vd.toNat ((t.after c x).vreg f.vd) x.v, seed := (t.after c x).seed, fflags := (t.after c x).fflags, pc := x.pc + 1 })) ∧
  (∀ (s : State) (c : At) (f : FmtV) (part : BitVec 3) (src : Nat) (x : Ctx),
      s.ready c = some x →
      src = f.vb.toNat →
      16 ≤ src ∨ convAllowed src f.fmt.toNat = false ∨ max (regWidth src) (regWidth f.fmt.toNat) / min (regWidth src) (regWidth f.fmt.toNat) ≤ part.toNat →
      exec (.vcvt c f part) s = .next (s.exception c x 1 0 .format)) ∧
  (∀ (s : State) (c : At) (f : FmtVX) (x : Ctx),
      s.ready c = some x →
      vecFmt f.fmt.toNat = true →
      f.sb = 0 →
      Completes (.vbcast c f) s (fun t => (∀ i < lanesOf f.fmt.toNat, laneGet f.fmt.toNat ((t.after c x).vreg f.v) i = (x.sreg f.sa).toNat % 2 ^ fmtWidth f.fmt.toNat) ∧ t = s.setCtx c { x with v := tset f.v.toNat ((t.after c x).vreg f.v) x.v, pc := x.pc + 1 })) ∧
  (∀ (s : State) (c : At) (f : FmtVX) (x : Ctx),
      s.ready c = some x →
      vecFmt f.fmt.toNat = true →
      Completes (.vins c f) s (fun t => (∀ i < lanesOf f.fmt.toNat, laneGet f.fmt.toNat ((t.after c x).vreg f.v) i = (if i = (x.sreg f.sb).toNat % lanesOf f.fmt.toNat then (x.sreg f.sa).toNat % 2 ^ fmtWidth f.fmt.toNat else laneGet f.fmt.toNat (x.vreg f.v) i)) ∧ t = s.setCtx c { x with v := tset f.v.toNat ((t.after c x).vreg f.v) x.v, pc := x.pc + 1 })) ∧
  (∀ (s : State) (c : At) (f : FmtVX) (x : Ctx),
      s.ready c = some x →
      f.fmt.toNat ≤ 5 →
      exec (.vext c f) s = .next (s.setCtx c { x.setS f.sa (BitVec.ofNat 64 (laneGet f.fmt.toNat (x.vreg f.v) ((x.sreg f.sb).toNat % lanesOf f.fmt.toNat))) with pc := x.pc + 1 })) ∧
  (∀ (s : State) (c : At) (f : FmtVX) (x : Ctx),
      s.ready c = some x →
      9 ≤ f.fmt.toNat ∧ f.fmt.toNat ≤ 12 →
      exec (.vext c f) s = .next (s.setCtx c { x.setS f.sa (BitVec.ofInt 64 (if laneGet f.fmt.toNat (x.vreg f.v) ((x.sreg f.sb).toNat % lanesOf f.fmt.toNat) < 2 ^ (fmtWidth f.fmt.toNat - 1) then ((laneGet f.fmt.toNat (x.vreg f.v) ((x.sreg f.sb).toNat % lanesOf f.fmt.toNat) : Nat) : Int) else ((laneGet f.fmt.toNat (x.vreg f.v) ((x.sreg f.sb).toNat % lanesOf f.fmt.toNat) : Nat) : Int) - 2 ^ fmtWidth f.fmt.toNat)) with pc := x.pc + 1 })) ∧
  (∀ (s : State) (c : At) (f : FmtVX) (x : Ctx),
      s.ready c = some x →
      vecFmt f.fmt.toNat = false →
      exec (.vbcast c f) s = .next (s.exception c x 1 0 .format)) ∧
  (∀ (s : State) (c : At) (f : FmtVX) (x : Ctx),
      s.ready c = some x →
      vecFmt f.fmt.toNat = false →
      exec (.vins c f) s = .next (s.exception c x 1 0 .format)) ∧
  (∀ (s : State) (c : At) (f : FmtVX) (x : Ctx),
      s.ready c = some x →
      vecFmt f.fmt.toNat = false →
      exec (.vext c f) s = .next (s.exception c x 1 0 .format))

/-- Sums, extremes and their lanes over the enabled elements, and the predicate instructions. (R140, R148, R150, R188, R190, R193, R202, R206, Table 6-3, Table 8-7, 06_tile_instruction_set.md, 08_number_formats.md) -/
def Obligations.ReductionsAndPredicates : Prop :=
  (∀ (s : State) (c : At) (f : FmtVX) (x : Ctx),
      s.ready c = some x →
      9 ≤ f.fmt.toNat ∧ f.fmt.toNat ≤ 12 →
      f.sb.toNat < 16 →
      exec (.vrsum c f) s = .next (s.setCtx c { x.setS f.sa (BitVec.ofInt 64 ((List.range (lanesOf f.fmt.toNat)).map (fun i => if laneOn f.fmt.toNat (x.preg (f.sb.truncate 4)) i then (if laneGet f.fmt.toNat (x.vreg f.v) i < 2 ^ (fmtWidth f.fmt.toNat - 1) then ((laneGet f.fmt.toNat (x.vreg f.v) i : Nat) : Int) else ((laneGet f.fmt.toNat (x.vreg f.v) i : Nat) : Int) - 2 ^ fmtWidth f.fmt.toNat) else 0)).sum) with pc := x.pc + 1 })) ∧
  (∀ (s : State) (c : At) (f : FmtVX) (x : Ctx),
      s.ready c = some x →
      f.fmt.toNat ≤ 5 →
      f.sb.toNat < 16 →
      f.sa ≠ 0 →
      Completes (.vrsum c f) s (fun t => (t.after c x).sreg f.sa = BitVec.ofNat 64 (canonical (if f.fmt.toNat = 0 then 0 else 1) ((pairSum (if f.fmt.toNat = 0 then 0 else 1) (fun i => if i < lanesOf f.fmt.toNat ∧ laneOn f.fmt.toNat (x.preg (f.sb.truncate 4)) i then some (convert f.fmt.toNat (if f.fmt.toNat = 0 then 0 else 1) 0 0 (laneGet f.fmt.toNat (x.vreg f.v) i)).1 else none) (Nat.log2 (lanesOf f.fmt.toNat)) 0).getD 0)) ∧ (t.after c x).seed = x.seed ∧
        t = s.setCtx c { x with s := (t.after c x).s, fflags := (t.after c x).fflags, pc := x.pc + 1 } ∧ (∀ q : BitVec 6, q ≠ f.sa → (t.after c x).sreg q = x.sreg q))) ∧
  (∀ (s : State) (c : At) (f : FmtVX) (x : Ctx),
      s.ready c = some x →
      9 ≤ f.fmt.toNat ∧ f.fmt.toNat ≤ 12 ∨ f.fmt.toNat ≤ 5 →
      16 ≤ f.sb.toNat →
      exec (.vrsum c f) s = .next (s.exception c x 1 0 .format)) ∧
  (∀ (s : State) (c : At) (f : FmtVX) (x : Ctx),
      s.ready c = some x →
      9 ≤ f.fmt.toNat ∧ f.fmt.toNat ≤ 12 ∨ f.fmt.toNat ≤ 5 →
      16 ≤ f.sb.toNat →
      exec (.vrmax c f) s = .next (s.exception c x 1 0 .format)) ∧
  (∀ (s : State) (c : At) (f : FmtVX) (x : Ctx),
      s.ready c = some x →
      9 ≤ f.fmt.toNat ∧ f.fmt.toNat ≤ 12 ∨ f.fmt.toNat ≤ 5 →
      16 ≤ f.sb.toNat →
      exec (.vrmin c f) s = .next (s.exception c x 1 0 .format)) ∧
  (∀ (s : State) (c : At) (f : FmtVX) (x : Ctx),
      s.ready c = some x →
      9 ≤ f.fmt.toNat ∧ f.fmt.toNat ≤ 12 ∨ f.fmt.toNat ≤ 5 →
      16 ≤ f.sb.toNat →
      exec (.vrmaxi c f) s = .next (s.exception c x 1 0 .format)) ∧
  (∀ (s : State) (c : At) (f : FmtVX) (x : Ctx),
      s.ready c = some x →
      9 ≤ f.fmt.toNat ∧ f.fmt.toNat ≤ 12 ∨ f.fmt.toNat ≤ 5 →
      16 ≤ f.sb.toNat →
      exec (.vrmini c f) s = .next (s.exception c x 1 0 .format)) ∧
  (∀ (s : State) (c : At) (f : FmtVX) (x : Ctx),
      s.ready c = some x →
      vecFmt f.fmt.toNat = false →
      exec (.vrsum c f) s = .next (s.exception c x 1 0 .format)) ∧
  (∀ (s : State) (c : At) (f : FmtVX) (x : Ctx),
      s.ready c = some x →
      vecFmt f.fmt.toNat = false →
      exec (.vrmax c f) s = .next (s.exception c x 1 0 .format)) ∧
  (∀ (s : State) (c : At) (f : FmtVX) (x : Ctx),
      s.ready c = some x →
      vecFmt f.fmt.toNat = false →
      exec (.vrmin c f) s = .next (s.exception c x 1 0 .format)) ∧
  (∀ (s : State) (c : At) (f : FmtVX) (x : Ctx),
      s.ready c = some x →
      vecFmt f.fmt.toNat = false →
      exec (.vrmaxi c f) s = .next (s.exception c x 1 0 .format)) ∧
  (∀ (s : State) (c : At) (f : FmtVX) (x : Ctx),
      s.ready c = some x →
      vecFmt f.fmt.toNat = false →
      exec (.vrmini c f) s = .next (s.exception c x 1 0 .format)) ∧
  (∀ (s : State) (c : At) (f : FmtVX) (x : Ctx) (j : Nat),
      s.ready c = some x →
      9 ≤ f.fmt.toNat ∧ f.fmt.toNat ≤ 12 →
      f.sb.toNat < 16 →
      f.sa ≠ 0 →
      j < lanesOf f.fmt.toNat ∧ laneOn f.fmt.toNat (x.preg (f.sb.truncate 4)) j = true →
      Completes (.vrmax c f) s (fun t => (∃ i < lanesOf f.fmt.toNat, laneOn f.fmt.toNat (x.preg (f.sb.truncate 4)) i = true ∧ (t.after c x).sreg f.sa = BitVec.ofInt 64 ((if laneGet f.fmt.toNat (x.vreg f.v) i < 2 ^ (fmtWidth f.fmt.toNat - 1) then ((laneGet f.fmt.toNat (x.vreg f.v) i : Nat) : Int) else ((laneGet f.fmt.toNat (x.vreg f.v) i : Nat) : Int) - 2 ^ fmtWidth f.fmt.toNat))) ∧ (∀ i < lanesOf f.fmt.toNat, laneOn f.fmt.toNat (x.preg (f.sb.truncate 4)) i = true → (if laneGet f.fmt.toNat (x.vreg f.v) i < 2 ^ (fmtWidth f.fmt.toNat - 1) then ((laneGet f.fmt.toNat (x.vreg f.v) i : Nat) : Int) else ((laneGet f.fmt.toNat (x.vreg f.v) i : Nat) : Int) - 2 ^ fmtWidth f.fmt.toNat) ≤ ((t.after c x).sreg f.sa).toInt) ∧
        t = { s.setCtx c { x with s := (t.after c x).s, pc := x.pc + 1 } with fresh := s.fresh + 1 } ∧ (∀ q : BitVec 6, q ≠ f.sa → (t.after c x).sreg q = x.sreg q))) ∧
  (∀ (s : State) (c : At) (f : FmtVX) (x : Ctx) (j : Nat),
      s.ready c = some x →
      9 ≤ f.fmt.toNat ∧ f.fmt.toNat ≤ 12 →
      f.sb.toNat < 16 →
      f.sa ≠ 0 →
      j < lanesOf f.fmt.toNat ∧ laneOn f.fmt.toNat (x.preg (f.sb.truncate 4)) j = true →
      Completes (.vrmin c f) s (fun t => (∃ i < lanesOf f.fmt.toNat, laneOn f.fmt.toNat (x.preg (f.sb.truncate 4)) i = true ∧ (t.after c x).sreg f.sa = BitVec.ofInt 64 ((if laneGet f.fmt.toNat (x.vreg f.v) i < 2 ^ (fmtWidth f.fmt.toNat - 1) then ((laneGet f.fmt.toNat (x.vreg f.v) i : Nat) : Int) else ((laneGet f.fmt.toNat (x.vreg f.v) i : Nat) : Int) - 2 ^ fmtWidth f.fmt.toNat))) ∧ (∀ i < lanesOf f.fmt.toNat, laneOn f.fmt.toNat (x.preg (f.sb.truncate 4)) i = true → (if laneGet f.fmt.toNat (x.vreg f.v) i < 2 ^ (fmtWidth f.fmt.toNat - 1) then ((laneGet f.fmt.toNat (x.vreg f.v) i : Nat) : Int) else ((laneGet f.fmt.toNat (x.vreg f.v) i : Nat) : Int) - 2 ^ fmtWidth f.fmt.toNat) ≥ ((t.after c x).sreg f.sa).toInt) ∧
        t = { s.setCtx c { x with s := (t.after c x).s, pc := x.pc + 1 } with fresh := s.fresh + 1 } ∧ (∀ q : BitVec 6, q ≠ f.sa → (t.after c x).sreg q = x.sreg q))) ∧
  (∀ (s : State) (c : At) (f : FmtVX) (x : Ctx) (j : Nat),
      s.ready c = some x →
      f.fmt.toNat ≤ 5 →
      f.sb.toNat < 16 →
      f.sa ≠ 0 →
      j < lanesOf f.fmt.toNat ∧ laneOn f.fmt.toNat (x.preg (f.sb.truncate 4)) j = true →
      (∀ i < lanesOf f.fmt.toNat, laneOn f.fmt.toNat (x.preg (f.sb.truncate 4)) i = true → decodeNum f.fmt.toNat (laneGet f.fmt.toNat (x.vreg f.v) i) ≠ Machine.Num.nan) →
      Completes (.vrmax c f) s (fun t => (∃ i < lanesOf f.fmt.toNat, laneOn f.fmt.toNat (x.preg (f.sb.truncate 4)) i = true ∧ (t.after c x).sreg f.sa = BitVec.ofNat 64 (laneGet f.fmt.toNat (x.vreg f.v) i)) ∧ (∀ i < lanesOf f.fmt.toNat, laneOn f.fmt.toNat (x.preg (f.sb.truncate 4)) i = true → (Machine.Num.lt (decodeNum f.fmt.toNat ((t.after c x).sreg f.sa).toNat) (decodeNum f.fmt.toNat (laneGet f.fmt.toNat (x.vreg f.v) i))) = false) ∧
        t = { s.setCtx c { x with s := (t.after c x).s, pc := x.pc + 1 } with fresh := s.fresh + 1 } ∧ (∀ q : BitVec 6, q ≠ f.sa → (t.after c x).sreg q = x.sreg q))) ∧
  (∀ (s : State) (c : At) (f : FmtVX) (x : Ctx) (j : Nat),
      s.ready c = some x →
      f.fmt.toNat ≤ 5 →
      f.sb.toNat < 16 →
      f.sa ≠ 0 →
      j < lanesOf f.fmt.toNat ∧ laneOn f.fmt.toNat (x.preg (f.sb.truncate 4)) j = true →
      (∀ i < lanesOf f.fmt.toNat, laneOn f.fmt.toNat (x.preg (f.sb.truncate 4)) i = true → decodeNum f.fmt.toNat (laneGet f.fmt.toNat (x.vreg f.v) i) ≠ Machine.Num.nan) →
      Completes (.vrmin c f) s (fun t => (∃ i < lanesOf f.fmt.toNat, laneOn f.fmt.toNat (x.preg (f.sb.truncate 4)) i = true ∧ (t.after c x).sreg f.sa = BitVec.ofNat 64 (laneGet f.fmt.toNat (x.vreg f.v) i)) ∧ (∀ i < lanesOf f.fmt.toNat, laneOn f.fmt.toNat (x.preg (f.sb.truncate 4)) i = true → (Machine.Num.lt (decodeNum f.fmt.toNat (laneGet f.fmt.toNat (x.vreg f.v) i)) (decodeNum f.fmt.toNat ((t.after c x).sreg f.sa).toNat)) = false) ∧
        t = { s.setCtx c { x with s := (t.after c x).s, pc := x.pc + 1 } with fresh := s.fresh + 1 } ∧ (∀ q : BitVec 6, q ≠ f.sa → (t.after c x).sreg q = x.sreg q))) ∧
  (∀ (s : State) (c : At) (f : FmtVX) (x : Ctx) (j : Nat),
      s.ready c = some x →
      f.fmt.toNat ≤ 5 →
      f.sb.toNat < 16 →
      f.sa ≠ 0 →
      j < lanesOf f.fmt.toNat ∧ laneOn f.fmt.toNat (x.preg (f.sb.truncate 4)) j = true →
      (∀ i < lanesOf f.fmt.toNat, laneOn f.fmt.toNat (x.preg (f.sb.truncate 4)) i = true → decodeNum f.fmt.toNat (laneGet f.fmt.toNat (x.vreg f.v) i) = Machine.Num.nan) →
      Completes (.vrmax c f) s (fun t => (t.after c x).sreg f.sa = BitVec.ofNat 64 (nanCode f.fmt.toNat) ∧ t = { s.setCtx c { x with s := (t.after c x).s, pc := x.pc + 1 } with fresh := s.fresh + 1 } ∧ (∀ q : BitVec 6, q ≠ f.sa → (t.after c x).sreg q = x.sreg q))) ∧
  (∀ (s : State) (c : At) (f : FmtVX) (x : Ctx) (j : Nat),
      s.ready c = some x →
      f.fmt.toNat ≤ 5 →
      f.sb.toNat < 16 →
      f.sa ≠ 0 →
      j < lanesOf f.fmt.toNat ∧ laneOn f.fmt.toNat (x.preg (f.sb.truncate 4)) j = true →
      (∀ i < lanesOf f.fmt.toNat, laneOn f.fmt.toNat (x.preg (f.sb.truncate 4)) i = true → decodeNum f.fmt.toNat (laneGet f.fmt.toNat (x.vreg f.v) i) = Machine.Num.nan) →
      Completes (.vrmin c f) s (fun t => (t.after c x).sreg f.sa = BitVec.ofNat 64 (nanCode f.fmt.toNat) ∧ t = { s.setCtx c { x with s := (t.after c x).s, pc := x.pc + 1 } with fresh := s.fresh + 1 } ∧ (∀ q : BitVec 6, q ≠ f.sa → (t.after c x).sreg q = x.sreg q))) ∧
  (∀ (s : State) (c : At) (f : FmtVX) (x : Ctx) (j : Nat),
      s.ready c = some x →
      (f.fmt.toNat ≤ 5 ∨ 10 ≤ f.fmt.toNat ∧ f.fmt.toNat ≤ 12) ∧ f.fmt.toNat ≠ 0 →
      f.sb.toNat < 16 →
      j < lanesOf f.fmt.toNat ∧ laneOn f.fmt.toNat (x.preg (f.sb.truncate 4)) j = true ∧ decodeNum f.fmt.toNat (laneGet f.fmt.toNat (x.vreg f.v) j) ≠ Machine.Num.nan →
      (∀ i < lanesOf f.fmt.toNat, laneOn f.fmt.toNat (x.preg (f.sb.truncate 4)) i = true ∧ decodeNum f.fmt.toNat (laneGet f.fmt.toNat (x.vreg f.v) i) ≠ Machine.Num.nan → (Machine.Num.lt (decodeNum f.fmt.toNat (laneGet f.fmt.toNat (x.vreg f.v) j)) (decodeNum f.fmt.toNat (laneGet f.fmt.toNat (x.vreg f.v) i))) = false ∧ (i < j → (Machine.Num.lt (decodeNum f.fmt.toNat (laneGet f.fmt.toNat (x.vreg f.v) i)) (decodeNum f.fmt.toNat (laneGet f.fmt.toNat (x.vreg f.v) j))) = true)) →
      exec (.vrmaxi c f) s = .next (s.setCtx c { x.setS f.sa (BitVec.ofNat 64 ((if 10 ≤ f.fmt.toNat then ((if laneGet f.fmt.toNat (x.vreg f.v) j < 2 ^ (fmtWidth f.fmt.toNat - 1) then ((laneGet f.fmt.toNat (x.vreg f.v) j : Nat) : Int) else ((laneGet f.fmt.toNat (x.vreg f.v) j : Nat) : Int) - 2 ^ fmtWidth f.fmt.toNat) % 2 ^ 32).toNat else (convert f.fmt.toNat 1 0 0 (laneGet f.fmt.toNat (x.vreg f.v) j)).1) * 2 ^ 32 + j)) with pc := x.pc + 1 })) ∧
  (∀ (s : State) (c : At) (f : FmtVX) (x : Ctx),
      s.ready c = some x →
      (f.fmt.toNat ≤ 5 ∨ 10 ≤ f.fmt.toNat ∧ f.fmt.toNat ≤ 12) ∧ f.fmt.toNat ≠ 0 →
      f.sb.toNat < 16 →
      (∀ i < lanesOf f.fmt.toNat, laneOn f.fmt.toNat (x.preg (f.sb.truncate 4)) i = true → decodeNum f.fmt.toNat (laneGet f.fmt.toNat (x.vreg f.v) i) = Machine.Num.nan) →
      exec (.vrmaxi c f) s = .next (s.setCtx c { x.setS f.sa (BitVec.ofNat 64 0xffffffff) with pc := x.pc + 1 })) ∧
  (∀ (s : State) (c : At) (f : FmtVX) (x : Ctx) (j : Nat),
      s.ready c = some x →
      (f.fmt.toNat ≤ 5 ∨ 10 ≤ f.fmt.toNat ∧ f.fmt.toNat ≤ 12) ∧ f.fmt.toNat ≠ 0 →
      f.sb.toNat < 16 →
      j < lanesOf f.fmt.toNat ∧ laneOn f.fmt.toNat (x.preg (f.sb.truncate 4)) j = true ∧ decodeNum f.fmt.toNat (laneGet f.fmt.toNat (x.vreg f.v) j) ≠ Machine.Num.nan →
      (∀ i < lanesOf f.fmt.toNat, laneOn f.fmt.toNat (x.preg (f.sb.truncate 4)) i = true ∧ decodeNum f.fmt.toNat (laneGet f.fmt.toNat (x.vreg f.v) i) ≠ Machine.Num.nan → (Machine.Num.lt (decodeNum f.fmt.toNat (laneGet f.fmt.toNat (x.vreg f.v) i)) (decodeNum f.fmt.toNat (laneGet f.fmt.toNat (x.vreg f.v) j))) = false ∧ (i < j → (Machine.Num.lt (decodeNum f.fmt.toNat (laneGet f.fmt.toNat (x.vreg f.v) j)) (decodeNum f.fmt.toNat (laneGet f.fmt.toNat (x.vreg f.v) i))) = true)) →
      exec (.vrmini c f) s = .next (s.setCtx c { x.setS f.sa (BitVec.ofNat 64 ((if 10 ≤ f.fmt.toNat then ((if laneGet f.fmt.toNat (x.vreg f.v) j < 2 ^ (fmtWidth f.fmt.toNat - 1) then ((laneGet f.fmt.toNat (x.vreg f.v) j : Nat) : Int) else ((laneGet f.fmt.toNat (x.vreg f.v) j : Nat) : Int) - 2 ^ fmtWidth f.fmt.toNat) % 2 ^ 32).toNat else (convert f.fmt.toNat 1 0 0 (laneGet f.fmt.toNat (x.vreg f.v) j)).1) * 2 ^ 32 + j)) with pc := x.pc + 1 })) ∧
  (∀ (s : State) (c : At) (f : FmtVX) (x : Ctx),
      s.ready c = some x →
      (f.fmt.toNat ≤ 5 ∨ 10 ≤ f.fmt.toNat ∧ f.fmt.toNat ≤ 12) ∧ f.fmt.toNat ≠ 0 →
      f.sb.toNat < 16 →
      (∀ i < lanesOf f.fmt.toNat, laneOn f.fmt.toNat (x.preg (f.sb.truncate 4)) i = true → decodeNum f.fmt.toNat (laneGet f.fmt.toNat (x.vreg f.v) i) = Machine.Num.nan) →
      exec (.vrmini c f) s = .next (s.setCtx c { x.setS f.sa (BitVec.ofNat 64 0xffffffff) with pc := x.pc + 1 })) ∧
  (∀ (s : State) (c : At) (f : FmtVX) (x : Ctx),
      s.ready c = some x →
      f.fmt.toNat = 0 ∨ f.fmt.toNat = 9 →
      exec (.vrmaxi c f) s = .next (s.exception c x 1 0 .format)) ∧
  (∀ (s : State) (c : At) (f : FmtVX) (x : Ctx),
      s.ready c = some x →
      f.fmt.toNat = 0 ∨ f.fmt.toNat = 9 →
      exec (.vrmini c f) s = .next (s.exception c x 1 0 .format)) ∧
  (∀ (s : State) (c : At) (f : FmtV) (x : Ctx),
      s.ready c = some x →
      f.pg = 0 ∧ f.fmt = 0 →
      exec (.pand c f) s = .next (s.setCtx c { x.setP (f.vd.truncate 4) (BitVec.ofNat 256 (Nat.land (x.preg (f.va.truncate 4)).toNat (x.preg (f.vb.truncate 4)).toNat)) with pc := x.pc + 1 })) ∧
  (∀ (s : State) (c : At) (f : FmtV) (x : Ctx),
      s.ready c = some x →
      f.pg = 0 ∧ f.fmt = 0 →
      exec (.por c f) s = .next (s.setCtx c { x.setP (f.vd.truncate 4) (BitVec.ofNat 256 (Nat.lor (x.preg (f.va.truncate 4)).toNat (x.preg (f.vb.truncate 4)).toNat)) with pc := x.pc + 1 })) ∧
  (∀ (s : State) (c : At) (f : FmtV) (x : Ctx),
      s.ready c = some x →
      f.pg = 0 ∧ f.fmt = 0 →
      exec (.pxor c f) s = .next (s.setCtx c { x.setP (f.vd.truncate 4) (BitVec.ofNat 256 (Nat.xor (x.preg (f.va.truncate 4)).toNat (x.preg (f.vb.truncate 4)).toNat)) with pc := x.pc + 1 })) ∧
  (∀ (s : State) (c : At) (f : FmtV) (x : Ctx),
      s.ready c = some x →
      f.pg = 0 ∧ f.fmt = 0 →
      exec (.pnot c f) s = .next (s.setCtx c { x.setP (f.vd.truncate 4) (BitVec.ofNat 256 (2 ^ 256 - 1 - (x.preg (f.va.truncate 4)).toNat)) with pc := x.pc + 1 })) ∧
  (∀ (s : State) (c : At) (f : FmtV) (x : Ctx),
      s.ready c = some x →
      f.pg = 0 ∧ f.fmt = 0 →
      exec (.pall c f) s = .next (s.setCtx c { x.setP (f.vd.truncate 4) (BitVec.ofNat 256 (2 ^ 256 - 1)) with pc := x.pc + 1 })) ∧
  (∀ (s : State) (c : At) (f : FmtV) (x : Ctx),
      s.ready c = some x →
      f.pg = 0 ∧ f.fmt = 0 →
      exec (.pnone c f) s = .next (s.setCtx c { x.setP (f.vd.truncate 4) (BitVec.ofNat 256 0) with pc := x.pc + 1 })) ∧
  (∀ (s : State) (c : At) (f : FmtV) (x : Ctx),
      s.ready c = some x →
      f.pg ≠ 0 ∨ f.fmt ≠ 0 →
      exec (.pand c f) s = .next (s.exception c x 1 0 .format)) ∧
  (∀ (s : State) (c : At) (f : FmtV) (x : Ctx),
      s.ready c = some x →
      f.pg ≠ 0 ∨ f.fmt ≠ 0 →
      exec (.por c f) s = .next (s.exception c x 1 0 .format)) ∧
  (∀ (s : State) (c : At) (f : FmtV) (x : Ctx),
      s.ready c = some x →
      f.pg ≠ 0 ∨ f.fmt ≠ 0 →
      exec (.pxor c f) s = .next (s.exception c x 1 0 .format)) ∧
  (∀ (s : State) (c : At) (f : FmtV) (x : Ctx),
      s.ready c = some x →
      f.pg ≠ 0 ∨ f.fmt ≠ 0 →
      exec (.pnot c f) s = .next (s.exception c x 1 0 .format)) ∧
  (∀ (s : State) (c : At) (f : FmtV) (x : Ctx),
      s.ready c = some x →
      f.pg ≠ 0 ∨ f.fmt ≠ 0 →
      exec (.pall c f) s = .next (s.exception c x 1 0 .format)) ∧
  (∀ (s : State) (c : At) (f : FmtV) (x : Ctx),
      s.ready c = some x →
      f.pg ≠ 0 ∨ f.fmt ≠ 0 →
      exec (.pnone c f) s = .next (s.exception c x 1 0 .format)) ∧
  (∀ (s : State) (c : At) (f : FmtVX) (x : Ctx),
      s.ready c = some x →
      f.v.toNat % 16 ≠ 0 ∧ f.fmt ≠ 0xF →
      Completes (.plen c f) s (fun t => (∀ j < 256, ((t.after c x).preg (f.v.truncate 4)).getLsbD j = decide (j < (x.sreg f.sa).toNat)) ∧ (∀ q : BitVec 4, q ≠ f.v.truncate 4 → (t.after c x).preg q = x.preg q) ∧ t = s.setCtx c { x with p := (t.after c x).p, pc := x.pc + 1 })) ∧
  (∀ (s : State) (c : At) (f : FmtVX) (x : Ctx),
      s.ready c = some x →
      f.fmt = 0xF →
      exec (.plen c f) s = .next (s.exception c x 1 0 .format)) ∧
  (∀ (s : State) (c : At) (f : FmtVX) (x : Ctx),
      s.ready c = some x →
      f.fmt = 0xF →
      exec (.pcnt c f) s = .next (s.exception c x 1 0 .format)) ∧
  (∀ (s : State) (c : At) (f : FmtVX) (x : Ctx),
      s.ready c = some x →
      f.fmt ≠ 0xF →
      exec (.pcnt c f) s = .next (s.setCtx c { x.setS f.sa (BitVec.ofNat 64 ((List.range 256).countP (fun j => (x.preg (f.v.truncate 4)).getLsbD j))) with pc := x.pc + 1 })) ∧
  (∀ (x : Ctx) (v : PReg) (r q : BitVec 4),
      x.preg 0 = BitVec.allOnes 256 ∧ x.setP 0 v = x ∧ (r ≠ 0 → (x.setP r v).preg r = v) ∧ (q ≠ r → (x.setP r v).preg q = x.preg q))

/-- MMA, MZERO, MLD and MST on the accumulators and the tile store. (R151, R144, R190, R193, R203, R118, R162, R430, Table 6-3, Table 8-5, 06_tile_instruction_set.md, 08_number_formats.md) -/
def Obligations.MatrixUnitMultipliesLoadsAndStores : Prop :=
  (∀ (s : State) (c : At) (f : FmtX) (x : Ctx) (k a b : Nat),
      s.ready c = some x →
      f.fmt.toNat = 12 ∧ f.s = false →
      k = (x.sreg f.rk).toNat ∧ a = (x.sreg f.ra).toNat ∧ b = (x.sreg f.rb).toNat →
      k % 32 = 0 ∧ 32 ≤ k ∧ k ≤ 4096 →
      oaHandle a = 16 ∧ oaHandle b = 16 ∧ a % 256 = 0 ∧ b % 256 = 0 →
      oaOffset a + mmaBytes f.fmt.toNat k f.s ≤ x.tsSize ∧ oaOffset b + mmaBytes f.fmt.toNat k f.s ≤ x.tsSize →
      s.flag R.PWR_STAT_BRAKE = false →
      Completes (.mma c f .none) s (fun t => (∀ n < 1024, ((t.after c x).acc f.acc).cell n = ((((x.acc f.acc).cell n : Nat) + ((List.range k).map (fun q => (memGet (s.tile c.tile).store (x.tsBase + oaOffset a + (n / 32 * k + q))).toInt * (memGet (s.tile c.tile).store (x.tsBase + oaOffset b + (q * 32 + n % 32))).toInt)).sum : Int) % 2 ^ 32).toNat) ∧ ((t.after c x).acc f.acc).isInt = true ∧ (t.after c x).fflags = x.fflags ∧
        t.ctx c = some { x with m := (t.after c x).m, fflags := (t.after c x).fflags, pc := x.pc + 1 } ∧ (∀ q : BitVec 3, q ≠ f.acc → (t.after c x).acc q = x.acc q) ∧ (t.tile c.tile).store = (s.tile c.tile).store ∧ (∀ m : Nat, m ≠ c.tile → t.tile m = s.tile m) ∧
        t.mem = s.mem ∧ t.work = s.work ∧ t.xlat = s.xlat ∧ t.out = s.out)) ∧
  (∀ (s : State) (c : At) (f : FmtX) (x : Ctx) (k a b : Nat),
      s.ready c = some x →
      f.fmt.toNat = 13 ∧ f.s = false →
      k = (x.sreg f.rk).toNat ∧ a = (x.sreg f.ra).toNat ∧ b = (x.sreg f.rb).toNat →
      k % 32 = 0 ∧ 32 ≤ k ∧ k ≤ 4096 →
      oaHandle a = 16 ∧ oaHandle b = 16 ∧ a % 256 = 0 ∧ b % 256 = 0 →
      oaOffset a + mmaBytes f.fmt.toNat k f.s ≤ x.tsSize ∧ oaOffset b + mmaBytes f.fmt.toNat k f.s ≤ x.tsSize →
      s.flag R.PWR_STAT_BRAKE = false →
      Completes (.mma c f .none) s (fun t => (∀ n < 1024, ((t.after c x).acc f.acc).cell n = ((((x.acc f.acc).cell n : Nat) + ((List.range k).map (fun q => (if elem 4 (memGet (s.tile c.tile).store (x.tsBase + oaOffset a + (n / 32 * k + q) / 2)).toNat ((n / 32 * k + q) % 2) < 8 then ((elem 4 (memGet (s.tile c.tile).store (x.tsBase + oaOffset a + (n / 32 * k + q) / 2)).toNat ((n / 32 * k + q) % 2) : Nat) : Int) else ((elem 4 (memGet (s.tile c.tile).store (x.tsBase + oaOffset a + (n / 32 * k + q) / 2)).toNat ((n / 32 * k + q) % 2) : Nat) : Int) - 16) * (if elem 4 (memGet (s.tile c.tile).store (x.tsBase + oaOffset b + (q * 32 + n % 32) / 2)).toNat ((q * 32 + n % 32) % 2) < 8 then ((elem 4 (memGet (s.tile c.tile).store (x.tsBase + oaOffset b + (q * 32 + n % 32) / 2)).toNat ((q * 32 + n % 32) % 2) : Nat) : Int) else ((elem 4 (memGet (s.tile c.tile).store (x.tsBase + oaOffset b + (q * 32 + n % 32) / 2)).toNat ((q * 32 + n % 32) % 2) : Nat) : Int) - 16))).sum : Int) % 2 ^ 32).toNat) ∧ ((t.after c x).acc f.acc).isInt = true ∧ (t.after c x).fflags = x.fflags ∧
        t.ctx c = some { x with m := (t.after c x).m, fflags := (t.after c x).fflags, pc := x.pc + 1 } ∧ (∀ q : BitVec 3, q ≠ f.acc → (t.after c x).acc q = x.acc q) ∧ (t.tile c.tile).store = (s.tile c.tile).store ∧ (∀ m : Nat, m ≠ c.tile → t.tile m = s.tile m) ∧
        t.mem = s.mem ∧ t.work = s.work ∧ t.xlat = s.xlat ∧ t.out = s.out)) ∧
  (∀ (s : State) (c : At) (f : FmtX) (x : Ctx) (k a b : Nat),
      s.ready c = some x →
      (2 ≤ f.fmt.toNat ∧ f.fmt.toNat ≤ 8 ∧ (f.s = true → 4 ≤ f.fmt.toNat) ∨ f.fmt.toNat = 12 ∧ f.s = true) →
      k = (x.sreg f.rk).toNat ∧ a = (x.sreg f.ra).toNat ∧ b = (x.sreg f.rb).toNat →
      k % 32 = 0 ∧ 32 ≤ k ∧ k ≤ 4096 →
      oaHandle a = 16 ∧ oaHandle b = 16 ∧ a % 256 = 0 ∧ b % 256 = 0 →
      oaOffset a + mmaBytes f.fmt.toNat k f.s ≤ x.tsSize ∧ oaOffset b + mmaBytes f.fmt.toNat k f.s ≤ x.tsSize →
      s.flag R.PWR_STAT_BRAKE = false →
      Completes (.mma c f .none) s (fun t => (∀ n < 1024, ((t.after c x).acc f.acc).cell n = (List.range (k / 32)).foldl (fun v g => (encodeNum 1 0 0 (Machine.Num.add (decodeNum 1 v) (mmaGroup f.fmt.toNat k (leNat (memRead (s.tile c.tile).store (x.tsBase + oaOffset a) (mmaBytes f.fmt.toNat k f.s))) (leNat (memRead (s.tile c.tile).store (x.tsBase + oaOffset b) (mmaBytes f.fmt.toNat k f.s))) f.s (n / 32) (n % 32) g).1).1).1) ((x.acc f.acc).cell n)) ∧ ((t.after c x).acc f.acc).isInt = false ∧
        t.ctx c = some { x with m := (t.after c x).m, fflags := (t.after c x).fflags, pc := x.pc + 1 } ∧ (∀ q : BitVec 3, q ≠ f.acc → (t.after c x).acc q = x.acc q) ∧ (t.tile c.tile).store = (s.tile c.tile).store ∧ (∀ m : Nat, m ≠ c.tile → t.tile m = s.tile m) ∧
        t.mem = s.mem ∧ t.work = s.work ∧ t.xlat = s.xlat ∧ t.out = s.out)) ∧
  (∀ (s : State) (c : At) (f : FmtX) (x : Ctx),
      s.ready c = some x →
      (mmaFmt f.fmt.toNat = true ∧ (f.s = true → mmaScaled f.fmt.toNat = true)) →
      s.flag R.PWR_STAT_BRAKE = true →
      exec (.mma c f .none) s = .next (s)) ∧
  (∀ (s : State) (c : At) (f : FmtX) (x : Ctx),
      s.ready c = some x →
      mmaFmt f.fmt.toNat = false ∨ f.s = true ∧ mmaScaled f.fmt.toNat = false →
      exec (.mma c f .none) s = .next (s.exception c x 1 0 .format)) ∧
  (∀ (s : State) (c : At) (f : FmtX) (x : Ctx) (k a b : Nat),
      s.ready c = some x →
      (mmaFmt f.fmt.toNat = true ∧ (f.s = true → mmaScaled f.fmt.toNat = true)) →
      k = (x.sreg f.rk).toNat ∧ a = (x.sreg f.ra).toNat ∧ b = (x.sreg f.rb).toNat →
      k % 32 = 0 ∧ 32 ≤ k ∧ k ≤ 4096 →
      s.flag R.PWR_STAT_BRAKE = false →
      a % 256 ≠ 0 →
      exec (.mma c f .none) s = .next (s.exception c x 3 a .align)) ∧
  (∀ (s : State) (c : At) (f : FmtX) (x : Ctx) (k a b : Nat),
      s.ready c = some x →
      (mmaFmt f.fmt.toNat = true ∧ (f.s = true → mmaScaled f.fmt.toNat = true)) →
      k = (x.sreg f.rk).toNat ∧ a = (x.sreg f.ra).toNat ∧ b = (x.sreg f.rb).toNat →
      k % 32 = 0 ∧ 32 ≤ k ∧ k ≤ 4096 →
      s.flag R.PWR_STAT_BRAKE = false →
      a % 256 = 0 →
      oaHandle a ≠ 16 ∨ x.tsSize < oaOffset a + mmaBytes f.fmt.toNat k f.s →
      exec (.mma c f .none) s = .next (s.exception c x 2 a .bounds)) ∧
  (∀ (s : State) (c : At) (f : FmtX) (x : Ctx),
      s.ready c = some x →
      f.ra = 0 ∧ f.rb = 0 ∧ f.rk = 0 ∧ f.fmt = 0 ∧ f.s = false →
      exec (.mzero c f) s = .next (s.setCtx c { x with m := tset f.acc.toNat { isInt := (x.acc f.acc).isInt, cells := [] } x.m, pc := x.pc + 1 })) ∧
  (∀ (s : State) (c : At) (f : FmtX) (x : Ctx),
      s.ready c = some x →
      f.ra ≠ 0 ∨ f.rb ≠ 0 ∨ f.rk ≠ 0 ∨ f.fmt ≠ 0 ∨ f.s = true →
      exec (.mzero c f) s = .next (s.exception c x 1 0 .format)) ∧
  (∀ (s : State) (c : At) (f : FmtX) (x : Ctx) (a : Nat),
      s.ready c = some x →
      f.fmt = 1 ∨ f.fmt = 10 →
      a = (x.sreg f.ra).toNat ∧ oaHandle a = 16 ∧ a % 256 = 0 →
      oaOffset a + 4096 ≤ x.tsSize →
      Completes (.mld c f .none) s (fun t => (∀ n < 1024, ((t.after c x).acc f.acc).cell n = leNat (memRead (s.tile c.tile).store (x.tsBase + oaOffset a + 4 * n) 4)) ∧ ((t.after c x).acc f.acc).isInt = (f.fmt == 10) ∧ (∀ q : BitVec 3, q ≠ f.acc → (t.after c x).acc q = x.acc q) ∧
        t = s.setCtx c { x with m := (t.after c x).m, pc := x.pc + 1 })) ∧
  (∀ (s : State) (c : At) (f : FmtX) (x : Ctx),
      s.ready c = some x →
      f.fmt ≠ 1 ∧ f.fmt ≠ 10 →
      exec (.mld c f .none) s = .next (s.exception c x 1 0 .format)) ∧
  (∀ (s : State) (c : At) (f : FmtX) (x : Ctx) (a : Nat) (n : Nat),
      s.ready c = some x →
      (f.fmt.toNat ≤ 14 ∧ convAllowed (if (x.acc f.acc).isInt then 10 else 1) f.fmt.toNat = true) →
      a = (x.sreg f.ra).toNat ∧ oaHandle a = 16 ∧ a % 256 = 0 →
      n = 1024 * fmtWidth f.fmt.toNat / 8 ∧ oaOffset a + n ≤ x.tsSize →
      Completes (.mst c f) s (fun t => (∀ i < 1024, elem (fmtWidth f.fmt.toNat) (leNat (memRead (t.tile c.tile).store (x.tsBase + oaOffset a) n)) i = (x.converted (if (x.acc f.acc).isInt then 10 else 1) f.fmt.toNat (i + 1) ((x.acc f.acc).cell i)).1 % 2 ^ fmtWidth f.fmt.toNat) ∧
        (∀ i : Nat, i < x.tsBase + oaOffset a ∨ x.tsBase + oaOffset a + n ≤ i → memGet (t.tile c.tile).store i = memGet (s.tile c.tile).store i) ∧
        t = (s.setTile c.tile { s.tile c.tile with store := (t.tile c.tile).store }).setCtx c { x with seed := (t.after c x).seed, fflags := (t.after c x).fflags, pc := x.pc + 1 })) ∧
  (∀ (s : State) (c : At) (f : FmtX) (x : Ctx),
      s.ready c = some x →
      (14 < f.fmt.toNat ∨ convAllowed (if (x.acc f.acc).isInt then 10 else 1) f.fmt.toNat = false) →
      exec (.mst c f) s = .next (s.exception c x 1 0 .format)) ∧
  (∀ (s : State) (c : At) (f : FmtX) (x : Ctx) (k a b : Nat),
      s.ready c = some x →
      (mmaFmt f.fmt.toNat = true ∧ (f.s = true → mmaScaled f.fmt.toNat = true)) →
      k = (x.sreg f.rk).toNat ∧ a = (x.sreg f.ra).toNat ∧ b = (x.sreg f.rb).toNat →
      k % 32 = 0 ∧ 32 ≤ k ∧ k ≤ 4096 →
      oaHandle a = 16 ∧ oaHandle b = 16 ∧ a % 256 = 0 ∧ b % 256 = 0 →
      oaOffset a + mmaBytes f.fmt.toNat k f.s ≤ x.tsSize ∧ oaOffset b + mmaBytes f.fmt.toNat k f.s ≤ x.tsSize →
      s.flag R.PWR_STAT_BRAKE = false →
      exec (.mma c f .storeUncorrectable) s = .next ((s.count (R.TILE_ECC_STORE_UE (s.phys c.tile))).exception c x 10 a .poison)) ∧
  (∀ (s : State) (c : At) (f : FmtX) (x : Ctx) (k a b : Nat),
      s.ready c = some x →
      (mmaFmt f.fmt.toNat = true ∧ (f.s = true → mmaScaled f.fmt.toNat = true)) →
      k = (x.sreg f.rk).toNat ∧ a = (x.sreg f.ra).toNat ∧ b = (x.sreg f.rb).toNat →
      k % 32 = 0 ∧ 32 ≤ k ∧ k ≤ 4096 →
      a % 256 = 0 ∧ oaHandle a = 16 ∧ oaOffset a + mmaBytes f.fmt.toNat k f.s ≤ x.tsSize →
      s.flag R.PWR_STAT_BRAKE = false →
      b % 256 ≠ 0 ∨ oaHandle b ≠ 16 ∨ x.tsSize < oaOffset b + mmaBytes f.fmt.toNat k f.s →
      exec (.mma c f .none) s = .next (if b % 256 ≠ 0 then s.exception c x 3 b .align else s.exception c x 2 b .bounds)) ∧
  (∀ (s : State) (c : At) (f : FmtX) (x : Ctx) (e : Ecc),
      s.ready c = some x →
      (mmaFmt f.fmt.toNat = true ∧ (f.s = true → mmaScaled f.fmt.toNat = true)) →
      (x.sreg f.rk).toNat % 32 ≠ 0 ∨ (x.sreg f.rk).toNat < 32 ∨ 4096 < (x.sreg f.rk).toNat →
      s.flag R.PWR_STAT_BRAKE = false →
      Completes (.mma c f e) s (fun t => t.ctx c = some { x with m := (t.after c x).m, pc := x.pc + 1 } ∧ (∀ q : BitVec 3, q ≠ f.acc → (t.after c x).acc q = x.acc q) ∧ ((t.after c x).acc f.acc).isInt = (isIntFmt f.fmt.toNat && !f.s) ∧
        (t.tile c.tile).store = (s.tile c.tile).store ∧ (∀ m : Nat, m ≠ c.tile → t.tile m = s.tile m) ∧ t.mem = s.mem ∧ t.regs = s.regs ∧ t.work = s.work ∧ t.out = s.out)) ∧
  (∀ (s : State) (c : At) (f : FmtX) (x : Ctx) (a : Nat),
      s.ready c = some x →
      f.fmt = 1 ∨ f.fmt = 10 →
      a = (x.sreg f.ra).toNat ∧ oaHandle a = 16 ∧ a % 256 = 0 →
      oaOffset a + 4096 ≤ x.tsSize →
      exec (.mld c f .storeUncorrectable) s = .next ((s.count (R.TILE_ECC_STORE_UE (s.phys c.tile))).exception c x 10 a .poison)) ∧
  (∀ (s : State) (c : At) (f : FmtX) (x : Ctx) (a : Nat),
      s.ready c = some x →
      f.fmt = 1 ∨ f.fmt = 10 →
      a = (x.sreg f.ra).toNat ∧ oaHandle a = 16 ∧ a % 256 = 0 →
      oaOffset a + 4096 ≤ x.tsSize →
      Completes (.mld c f .storeCorrected) s (fun t => (∀ n < 1024, ((t.after c x).acc f.acc).cell n = leNat (memRead (s.tile c.tile).store (x.tsBase + oaOffset a + 4 * n) 4)) ∧
        t = (s.count (R.TILE_ECC_STORE_CE (s.phys c.tile))).setCtx c { x with m := (t.after c x).m, pc := x.pc + 1 })) ∧
  (∀ (s : State) (c : At) (f : FmtX) (x : Ctx) (a : Nat) (n : Nat),
      s.ready c = some x →
      (f.fmt.toNat ≤ 14 ∧ convAllowed (if (x.acc f.acc).isInt then 10 else 1) f.fmt.toNat = true) →
      a = (x.sreg f.ra).toNat ∧ n = 1024 * fmtWidth f.fmt.toNat / 8 →
      a % 256 ≠ 0 ∨ oaHandle a ≠ 16 ∨ x.tsSize < oaOffset a + n →
      exec (.mst c f) s = .next (if a % 256 ≠ 0 then s.exception c x 3 a .align else s.exception c x 2 a .bounds)) ∧
  (∀ (s : State) (c : At) (f : FmtX) (x : Ctx) (a : Nat),
      s.ready c = some x →
      f.fmt = 1 ∨ f.fmt = 10 →
      a = (x.sreg f.ra).toNat →
      a % 256 ≠ 0 ∨ oaHandle a ≠ 16 ∨ x.tsSize < oaOffset a + 4096 →
      exec (.mld c f .none) s = .next (if a % 256 ≠ 0 then s.exception c x 3 a .align else s.exception c x 2 a .bounds))

/-- SCFG, SPOP, SPOPS, SSKIP, SCAN, SREM and the access engine. (R109, R119, R120, R121, R123, R146, R152, R153, R154, Table 6-3, Table 6-4, 06_tile_instruction_set.md) -/
def Obligations.StreamPatternsAndRunAhead : Prop :=
  (∀ (s : State) (c : At) (f : FmtT) (x : Ctx) (a : Nat),
      s.ready c = some x →
      f.reserved = 0 →
      a = (x.sreg f.reg).toNat ∧ a % 64 = 0 ∧ oaHandle a = 16 ∧ oaOffset a + 64 ≤ x.tsSize →
      patOk (memRead (s.tile c.tile).store (x.tsBase + oaOffset a) 64) = true ∧ patKind (memRead (s.tile c.tile).store (x.tsBase + oaOffset a) 64) ≠ 3 →
      Completes (.scfg c f .none) s (fun t => t.ctx c = some { x with patterns := tset f.strm.toNat { desc := (memRead (s.tile c.tile).store (x.tsBase + oaOffset a) 64), indices := none, asked := none, pos := 0, issued := 0 } x.patterns, pc := x.pc + 1 } ∧ (∀ e ∈ (t.tile c.tile).entries, e ∈ (s.tile c.tile).entries ∧ ¬(e.2.ctx = c.ctx ∧ e.2.pat = f.strm.toNat)) ∧ (t.tile c.tile).store = (s.tile c.tile).store ∧ (∀ m : Nat, m ≠ c.tile → t.tile m = s.tile m) ∧ t = { s with home := { s.home with tiles := t.home.tiles } })) ∧
  (∀ (s : State) (c : At) (f : FmtT) (x : Ctx) (a : Nat),
      s.ready c = some x →
      f.reserved = 0 →
      a = (x.sreg f.reg).toNat ∧ a % 64 = 0 ∧ oaHandle a = 16 ∧ oaOffset a + 64 ≤ x.tsSize →
      patOk (memRead (s.tile c.tile).store (x.tsBase + oaOffset a) 64) = true ∧ patKind (memRead (s.tile c.tile).store (x.tsBase + oaOffset a) 64) = 3 →
      (patIndex (memRead (s.tile c.tile).store (x.tsBase + oaOffset a) 64)) / 2 ^ 59 % 32 = 16 ∧ (patIndex (memRead (s.tile c.tile).store (x.tsBase + oaOffset a) 64)) % 2 ^ 59 + 4 * (patCount0 (memRead (s.tile c.tile).store (x.tsBase + oaOffset a) 64)) ≤ x.tsSize →
      Completes (.scfg c f .none) s (fun t => t.ctx c = some { x with patterns := tset f.strm.toNat { desc := (memRead (s.tile c.tile).store (x.tsBase + oaOffset a) 64), indices := some ((List.range (patCount0 (memRead (s.tile c.tile).store (x.tsBase + oaOffset a) 64))).map (fun i => leNat (memRead (s.tile c.tile).store (x.tsBase + (patIndex (memRead (s.tile c.tile).store (x.tsBase + oaOffset a) 64)) % 2 ^ 59 + 4 * i) 4))), asked := none, pos := 0, issued := 0 } x.patterns, pc := x.pc + 1 } ∧ (t.tile c.tile).store = (s.tile c.tile).store ∧ t = { s with home := { s.home with tiles := t.home.tiles } })) ∧
  (∀ (s : State) (c : At) (f : FmtT) (x : Ctx) (a : Nat),
      s.ready c = some x →
      f.reserved = 0 →
      a = (x.sreg f.reg).toNat ∧ a % 64 = 0 ∧ oaHandle a = 16 ∧ oaOffset a + 64 ≤ x.tsSize →
      patOk (memRead (s.tile c.tile).store (x.tsBase + oaOffset a) 64) = true ∧ patKind (memRead (s.tile c.tile).store (x.tsBase + oaOffset a) 64) = 3 →
      (patIndex (memRead (s.tile c.tile).store (x.tsBase + oaOffset a) 64)) / 2 ^ 59 % 32 ≠ 16 →
      Completes (.scfg c f .none) s (fun t => t.ctx c = some { x with patterns := tset f.strm.toNat { desc := (memRead (s.tile c.tile).store (x.tsBase + oaOffset a) 64), indices := none, asked := none, pos := 0, issued := 0 } x.patterns, pc := x.pc + 1 } ∧ (t.tile c.tile).store = (s.tile c.tile).store ∧ t = { s with home := { s.home with tiles := t.home.tiles } })) ∧
  (∀ (s : State) (c : At) (f : FmtT) (x : Ctx) (a : Nat),
      s.ready c = some x →
      f.reserved = 0 →
      a = (x.sreg f.reg).toNat ∧ a % 64 = 0 ∧ oaHandle a = 16 ∧ oaOffset a + 64 ≤ x.tsSize →
      patOk (memRead (s.tile c.tile).store (x.tsBase + oaOffset a) 64) = false →
      exec (.scfg c f .none) s = .next (s.exception c x 1 0 .format)) ∧
  (∀ (s : State) (c : At) (f : FmtT) (x : Ctx),
      s.ready c = some x →
      f.reserved = 0 →
      (x.sreg f.reg).toNat % 64 ≠ 0 →
      exec (.scfg c f .none) s = .next (s.exception c x 3 (x.sreg f.reg).toNat .align)) ∧
  (∀ (s : State) (c : At) (f : FmtT) (x : Ctx) (q : Pattern) (a n : Nat) (k : Clause),
      s.ready c = some x →
      s.home.finished = [] →
      f.reserved = 0 →
      tget f.strm.toNat x.patterns = some q →
      q.left ≠ 0 ∧ q.needsIndices = false →
      n = min 8 q.left ∧ q.pieces 9 q.pos n = [(a, n)] →
      oaHandle a = 16 ∧ oaOffset a + n ≤ x.tsSize →
      Calm s →
      s.clauseAt x.clause = some k ∧ k.cancelled = false →
      Completes (.spops c f .none) s (fun t => t.ctx c = some { x.setS f.reg (BitVec.ofNat 64 (leNat (memRead (s.tile c.tile).store (x.tsBase + oaOffset a) n))) with patterns := tset f.strm.toNat { q with pos := q.pos + n } x.patterns, mode := .running, ordering := false, pc := x.pc + 1 } ∧
        (t.tile c.tile).store = (s.tile c.tile).store ∧ (∀ e ∈ (t.tile c.tile).entries, e ∈ (s.tile c.tile).entries) ∧ (∀ m : Nat, m ≠ c.tile → t.tile m = s.tile m) ∧ t.mem = s.mem ∧ t.xlat = s.xlat ∧ t.out = s.out)) ∧
  (∀ (s : State) (c : At) (f : FmtT) (x : Ctx) (q : Pattern) (a n : Nat) (p fpa : Nat) (k : Clause),
      s.ready c = some x →
      s.home.finished = [] →
      f.reserved = 0 →
      tget f.strm.toNat x.patterns = some q →
      q.left ≠ 0 ∧ q.needsIndices = false →
      n = min 8 q.left ∧ q.pieces 9 q.pos n = [(a, n)] →
      oaHandle a < 16 →
      s.reach x a n = .runs p [(fpa, n)] →
      s.entryBytes c f.strm.toNat fpa n = none →
      s.poisonedIn p 0 (x.fva a) [(fpa, n)] = false →
      s.localFpa fpa = none ∧ tget (fpa / 128) (s.tile c.tile).copies = none ∧ s.replicaOf (fpa / 128 * 128) = none →
      s.storesTo c x.clause [(fpa, n)] = false →
      MaySend s p fpa →
      fpa % 128 + n ≤ 128 →
      s.clauseAt x.clause = some k ∧ k.cancelled = false →
      Completes (.spops c f .none) s (fun t => Sent s t (fpa / 128 * 128) 1 (.lineFill (if patBulk q.desc then none else some c.tile) (fpa / 128) (fpa % 128) n (.part s.home.nextGather 0)) ∧ (tget s.home.nextGather t.home.gathers).map (fun g => (g.left, g.cont)) = some (1, .tile c x.clause (.pop f.strm.toNat f.reg false (8 - n) a)) ∧ t.ctx c = some { x with mode := .access, ordering := false } ∧ t.mem = s.mem ∧ t.xlat = s.xlat ∧ t.out = s.out)) ∧
  (∀ (s : State) (c : At) (f : FmtT) (x : Ctx) (q : Pattern),
      s.ready c = some x →
      s.home.finished = [] →
      (s.clauseAt x.clause).map Clause.cancelled ≠ some true →
      f.reserved = 0 →
      tget f.strm.toNat x.patterns = some q →
      q.left = 0 →
      exec (.spops c f .none) s = .next (s.exception c x 7 0 .bounds)) ∧
  (∀ (s : State) (c : At) (f : FmtT) (x : Ctx) (q : Pattern) (a n : Nat) (k : Clause),
      s.ready c = some x →
      s.home.finished = [] →
      f.reserved = 0 →
      tget f.strm.toNat x.patterns = some q →
      q.left ≠ 0 ∧ q.needsIndices = false →
      n = min 256 q.left ∧ q.pieces 257 q.pos n = [(a, n)] →
      f.reg.toNat < 32 →
      oaHandle a = 16 ∧ oaOffset a + n ≤ x.tsSize →
      Calm s →
      s.clauseAt x.clause = some k ∧ k.cancelled = false →
      Completes (.spop c f .none) s (fun t => t.ctx c = some { x.setV (f.reg.truncate 5) (BitVec.ofNat 2048 (leNat (memRead (s.tile c.tile).store (x.tsBase + oaOffset a) n))) with patterns := tset f.strm.toNat { q with pos := q.pos + n } x.patterns, mode := .running, ordering := false, pc := x.pc + 1 } ∧
        (t.tile c.tile).store = (s.tile c.tile).store ∧ (∀ e ∈ (t.tile c.tile).entries, e ∈ (s.tile c.tile).entries) ∧ (∀ m : Nat, m ≠ c.tile → t.tile m = s.tile m) ∧ t.mem = s.mem ∧ t.xlat = s.xlat ∧ t.out = s.out)) ∧
  (∀ (s : State) (c : At) (f : FmtT) (x : Ctx) (q : Pattern) (a n : Nat) (p fpa : Nat) (k : Clause),
      s.ready c = some x →
      s.home.finished = [] →
      f.reserved = 0 →
      tget f.strm.toNat x.patterns = some q →
      q.left ≠ 0 ∧ q.needsIndices = false →
      n = min 256 q.left ∧ q.pieces 257 q.pos n = [(a, n)] →
      f.reg.toNat < 32 →
      oaHandle a < 16 →
      s.reach x a n = .runs p [(fpa, n)] →
      s.entryBytes c f.strm.toNat fpa n = none →
      s.poisonedIn p 0 (x.fva a) [(fpa, n)] = false →
      s.localFpa fpa = none ∧ tget (fpa / 128) (s.tile c.tile).copies = none ∧ s.replicaOf (fpa / 128 * 128) = none →
      s.storesTo c x.clause [(fpa, n)] = false →
      MaySend s p fpa →
      fpa % 128 + n ≤ 128 →
      s.clauseAt x.clause = some k ∧ k.cancelled = false →
      Completes (.spop c f .none) s (fun t => Sent s t (fpa / 128 * 128) 1 (.lineFill (if patBulk q.desc then none else some c.tile) (fpa / 128) (fpa % 128) n (.part s.home.nextGather 0)) ∧ (tget s.home.nextGather t.home.gathers).map (fun g => (g.left, g.cont)) = some (1, .tile c x.clause (.pop f.strm.toNat f.reg true (256 - n) a)) ∧ t.ctx c = some { x with mode := .access, ordering := false } ∧ t.mem = s.mem ∧ t.xlat = s.xlat ∧ t.out = s.out)) ∧
  (∀ (s : State) (c : At) (f : FmtT) (x : Ctx) (q : Pattern),
      s.ready c = some x →
      s.home.finished = [] →
      (s.clauseAt x.clause).map Clause.cancelled ≠ some true →
      f.reserved = 0 →
      tget f.strm.toNat x.patterns = some q →
      q.left = 0 →
      f.reg.toNat < 32 →
      exec (.spop c f .none) s = .next (s.exception c x 7 0 .bounds)) ∧
  (∀ (s : State) (c : At) (f : FmtT) (x : Ctx) (q : Pattern),
      s.ready c = some x →
      f.reserved = 0 →
      tget f.strm.toNat x.patterns = some q →
      q.left ≠ 0 ∧ q.needsIndices = false →
      s.home.finished = [] →
      (s.clauseAt x.clause).map Clause.cancelled ≠ some true →
      ((q.pieces (min (x.sreg f.reg).toNat q.left + 1) q.pos (min (x.sreg f.reg).toNat q.left)).all (fun o => x.reaches o.1 o.2) = true) →
      Completes (.sskip c f) s (fun t => t.ctx c = some { x with patterns := tset f.strm.toNat { q with pos := q.pos + min (x.sreg f.reg).toNat q.left, issued := max q.issued (q.pos + min (x.sreg f.reg).toNat q.left) } x.patterns, pc := x.pc + 1 } ∧ (∀ e ∈ (t.tile c.tile).entries, e ∈ (s.tile c.tile).entries ∧ (e.2.ctx = c.ctx ∧ e.2.pat = f.strm.toNat → q.pos + min (x.sreg f.reg).toNat q.left < e.2.upto)) ∧ (t.tile c.tile).store = (s.tile c.tile).store ∧ (∀ m : Nat, m ≠ c.tile → t.tile m = s.tile m) ∧ t = { s with home := { s.home with tiles := t.home.tiles } })) ∧
  (∀ (s : State) (c : At) (f : FmtT) (x : Ctx) (q : Pattern),
      s.ready c = some x →
      f.reserved = 0 →
      tget f.strm.toNat x.patterns = some q →
      f.reg = 0 →
      Completes (.scan c f) s (fun t => t.ctx c = some { x with patterns := terase f.strm.toNat x.patterns, pc := x.pc + 1 } ∧ (∀ e ∈ (t.tile c.tile).entries, e ∈ (s.tile c.tile).entries ∧ ¬(e.2.ctx = c.ctx ∧ e.2.pat = f.strm.toNat)) ∧ (t.tile c.tile).store = (s.tile c.tile).store ∧ (∀ m : Nat, m ≠ c.tile → t.tile m = s.tile m) ∧ t = { s with home := { s.home with tiles := t.home.tiles } })) ∧
  (∀ (s : State) (c : At) (f : FmtT) (x : Ctx) (q : Pattern),
      s.ready c = some x →
      f.reserved = 0 →
      tget f.strm.toNat x.patterns = some q →
      exec (.srem c f) s = .next (s.setCtx c { x.setS f.reg (BitVec.ofNat 64 (patRun q.desc * patCount0 q.desc * patCount1 q.desc - q.pos)) with pc := x.pc + 1 })) ∧
  (∀ (s : State) (c : At) (f : FmtT) (x : Ctx),
      s.ready c = some x →
      s.home.finished = [] →
      (s.clauseAt x.clause).map Clause.cancelled ≠ some true →
      f.reserved = 0 →
      tget f.strm.toNat x.patterns = none →
      f.reg = 0 →
      exec (.spop c f .none) s = .next (s.exception c x 7 0 .bounds)) ∧
  (∀ (s : State) (c : At) (f : FmtT) (x : Ctx),
      s.ready c = some x →
      s.home.finished = [] →
      (s.clauseAt x.clause).map Clause.cancelled ≠ some true →
      f.reserved = 0 →
      tget f.strm.toNat x.patterns = none →
      f.reg = 0 →
      exec (.spops c f .none) s = .next (s.exception c x 7 0 .bounds)) ∧
  (∀ (s : State) (c : At) (f : FmtT) (x : Ctx),
      s.ready c = some x →
      s.home.finished = [] →
      (s.clauseAt x.clause).map Clause.cancelled ≠ some true →
      f.reserved = 0 →
      tget f.strm.toNat x.patterns = none →
      f.reg = 0 →
      exec (.sskip c f) s = .next (s.exception c x 7 0 .bounds)) ∧
  (∀ (s : State) (c : At) (f : FmtT) (x : Ctx),
      s.ready c = some x →
      s.home.finished = [] →
      (s.clauseAt x.clause).map Clause.cancelled ≠ some true →
      f.reserved = 0 →
      tget f.strm.toNat x.patterns = none →
      f.reg = 0 →
      exec (.scan c f) s = .next (s.exception c x 7 0 .bounds)) ∧
  (∀ (s : State) (c : At) (f : FmtT) (x : Ctx),
      s.ready c = some x →
      s.home.finished = [] →
      (s.clauseAt x.clause).map Clause.cancelled ≠ some true →
      f.reserved = 0 →
      tget f.strm.toNat x.patterns = none →
      f.reg = 0 →
      exec (.srem c f) s = .next (s.exception c x 7 0 .bounds)) ∧
  (∀ (s : State) (c : At) (f : FmtT) (x : Ctx),
      s.ready c = some x →
      s.home.finished = [] →
      (s.clauseAt x.clause).map Clause.cancelled ≠ some true →
      f.reserved ≠ 0 →
      exec (.scfg c f .none) s = .next (s.exception c x 1 0 .format)) ∧
  (∀ (s : State) (c : At) (f : FmtT) (x : Ctx),
      s.ready c = some x →
      s.home.finished = [] →
      (s.clauseAt x.clause).map Clause.cancelled ≠ some true →
      f.reserved ≠ 0 →
      exec (.spop c f .none) s = .next (s.exception c x 1 0 .format)) ∧
  (∀ (s : State) (c : At) (f : FmtT) (x : Ctx),
      s.ready c = some x →
      s.home.finished = [] →
      (s.clauseAt x.clause).map Clause.cancelled ≠ some true →
      f.reserved ≠ 0 →
      exec (.spops c f .none) s = .next (s.exception c x 1 0 .format)) ∧
  (∀ (s : State) (c : At) (f : FmtT) (x : Ctx),
      s.ready c = some x →
      s.home.finished = [] →
      (s.clauseAt x.clause).map Clause.cancelled ≠ some true →
      f.reserved ≠ 0 →
      exec (.sskip c f) s = .next (s.exception c x 1 0 .format)) ∧
  (∀ (s : State) (c : At) (f : FmtT) (x : Ctx),
      s.ready c = some x →
      s.home.finished = [] →
      (s.clauseAt x.clause).map Clause.cancelled ≠ some true →
      f.reserved ≠ 0 →
      exec (.scan c f) s = .next (s.exception c x 1 0 .format)) ∧
  (∀ (s : State) (c : At) (f : FmtT) (x : Ctx),
      s.ready c = some x →
      s.home.finished = [] →
      (s.clauseAt x.clause).map Clause.cancelled ≠ some true →
      f.reserved ≠ 0 →
      exec (.srem c f) s = .next (s.exception c x 1 0 .format)) ∧
  (∀ (s : State) (c : At) (f : FmtT) (x : Ctx) (q : Pattern) (a n : Nat),
      s.ready c = some x →
      s.home.finished = [] →
      (s.clauseAt x.clause).map Clause.cancelled ≠ some true →
      f.reserved = 0 →
      tget f.strm.toNat x.patterns = some q →
      q.left ≠ 0 ∧ q.needsIndices = false →
      n = min (x.sreg f.reg).toNat q.left ∧ 0 < n ∧ q.pieces (n + 1) q.pos n = [(a, n)] →
      x.reaches a n = false →
      exec (.sskip c f) s = .next (s.exception c x 2 a .bounds)) ∧
  (∀ (s : State) (c : At) (f : FmtT) (x : Ctx) (q : Pattern) (a n : Nat),
      s.ready c = some x →
      s.home.finished = [] →
      (s.clauseAt x.clause).map Clause.cancelled ≠ some true →
      f.reserved = 0 →
      tget f.strm.toNat x.patterns = some q →
      q.left ≠ 0 ∧ q.needsIndices = false →
      n = min 8 q.left ∧ q.pieces 9 q.pos n = [(a, n)] →
      x.reaches a n = false →
      exec (.spops c f .none) s = .next (s.exception c x 2 a .bounds)) ∧
  (∀ (s : State) (c : At) (f : FmtT) (x : Ctx) (q : Pattern) (a n : Nat),
      s.ready c = some x →
      s.home.finished = [] →
      (s.clauseAt x.clause).map Clause.cancelled ≠ some true →
      f.reserved = 0 →
      tget f.strm.toNat x.patterns = some q →
      q.left ≠ 0 ∧ q.needsIndices = false →
      n = min 256 q.left ∧ q.pieces 257 q.pos n = [(a, n)] →
      f.reg.toNat < 32 →
      x.reaches a n = false →
      exec (.spop c f .none) s = .next (s.exception c x 2 a .bounds)) ∧
  (∀ (s : State) (c : At) (f : FmtT) (x : Ctx) (q : Pattern) (a n : Nat),
      s.ready c = some x →
      s.home.finished = [] →
      (s.clauseAt x.clause).map Clause.cancelled ≠ some true →
      f.reserved = 0 →
      tget f.strm.toNat x.patterns = some q →
      q.left ≠ 0 ∧ q.needsIndices = false →
      n = min 8 q.left ∧ q.pieces 9 q.pos n = [(a, n)] →
      oaHandle a = 16 ∧ oaOffset a + n ≤ x.tsSize →
      exec (.spops c f .storeUncorrectable) s = .next ((s.count (R.TILE_ECC_STORE_UE (s.phys c.tile))).exception c x 10 a .poison)) ∧
  (∀ (s : State) (c : At) (f : FmtT) (x : Ctx) (a : Nat),
      s.ready c = some x →
      f.reserved = 0 →
      a = (x.sreg f.reg).toNat ∧ a % 64 = 0 ∧ oaHandle a = 16 ∧ oaOffset a + 64 ≤ x.tsSize →
      exec (.scfg c f .storeUncorrectable) s = .next ((s.count (R.TILE_ECC_STORE_UE (s.phys c.tile))).exception c x 10 a .poison)) ∧
  (∀ (s : State) (c : At) (f : FmtT) (x : Ctx) (a : Nat),
      s.ready c = some x →
      f.reserved = 0 →
      a = (x.sreg f.reg).toNat ∧ a % 64 = 0 →
      oaHandle a ≠ 16 ∨ x.tsSize < oaOffset a + 64 →
      exec (.scfg c f .none) s = .next (s.exception c x 2 a .bounds)) ∧
  (∀ (s : State) (c : At) (f : FmtT) (x : Ctx) (q : Pattern) (a n p fpa : Nat),
      s.ready c = some x →
      s.home.finished = [] →
      (s.clauseAt x.clause).map Clause.cancelled ≠ some true →
      f.reserved = 0 →
      tget f.strm.toNat x.patterns = some q →
      q.left ≠ 0 ∧ q.needsIndices = false →
      n = min 8 q.left ∧ q.pieces 9 q.pos n = [(a, n)] →
      oaHandle a < 16 →
      s.reach x a n = .runs p [(fpa, n)] →
      s.storesTo c x.clause [(fpa, n)] = true →
      exec (.spops c f .none) s = .next (s.setCtx c { x with mode := .stores })) ∧
  (∀ (s : State) (c : At) (st a n p fpa : Nat) (x : Ctx) (q : Pattern) (k : Clause),
      s.live = true →
      s.home.finished = [] →
      s.ctx c = some x →
      x.ordering = false →
      tget st x.patterns = some q ∧ q.needsIndices = false →
      max q.issued q.pos < patBytes q.desc →
      s.entryCount c (some st) < patDepth q.desc ∧ s.entryCount c none < 256 ∧ (s.tile c.tile).entries.length < 512 →
      a = (q.runAddr (max q.issued q.pos / patRun q.desc) + max q.issued q.pos % patRun q.desc) % 2 ^ 64 ∧ oaHandle a < 16 →
      n = min (min (patRun q.desc - max q.issued q.pos % patRun q.desc) (128 - x.fva a % 128)) (patBytes q.desc - max q.issued q.pos) →
      s.reach x a n = .runs p [(fpa, n)] →
      k.plain (x.fva a) n = true →
      s.poisonedIn p 0 (x.fva a) [(fpa, n)] = false →
      s.localFpa fpa = none ∧ s.localFpa (fpa / 128 * 128) = none ∧ tget (fpa / 128) (s.tile c.tile).copies = none ∧ s.replicaOf (fpa / 128 * 128) = none →
      MaySend s p (fpa / 128 * 128) →
      s.clauseAt x.clause = some k ∧ k.cancelled = false →
      x.mode ≠ .parked →
      Completes (.runaheadIssue c st) s (fun t => Sent s t (fpa / 128 * 128) 1 (.lineFill (if patBulk q.desc then none else some c.tile) (fpa / 128) 0 128 (.stream c x.clause (s.tile c.tile).nextEntry)) ∧ tget (s.tile c.tile).nextEntry (t.tile c.tile).entries = some { ctx := c.ctx, pat := st, line := fpa / 128, first := max q.issued q.pos, upto := q.lineEnd x (oaHandle a) (x.fva a / 128) 128 (max q.issued q.pos), filled := false, stale := false, once := false, failed := false, data := [] } ∧
        (t.tile c.tile).nextEntry = (s.tile c.tile).nextEntry + 1 ∧
        t.ctx c = some { x with patterns := tset st { q with issued := q.lineEnd x (oaHandle a) (x.fva a / 128) 128 (max q.issued q.pos) } x.patterns } ∧ t.mem = s.mem ∧ t.xlat = s.xlat ∧ t.out = s.out)) ∧
  (∀ (s : State) (c : At) (st a n p fpa : Nat) (x : Ctx) (q : Pattern) (k : Clause),
      s.live = true →
      s.home.finished = [] →
      s.ctx c = some x →
      s.mayRunAhead c x st q = true →
      tget st x.patterns = some q ∧ q.needsIndices = true ∧ q.asked = none →
      a = patIndex q.desc ∧ oaHandle a < 16 ∧ n = 4 * patCount0 q.desc →
      s.reach x a n = .runs p [(fpa, n)] →
      k.plain (x.fva a) n = true →
      s.poisonedIn p 0 (x.fva a) [(fpa, n)] = false →
      s.replicaOf fpa = none →
      MaySend s p fpa →
      0 < n ∧ fpa % 4096 + n ≤ 4096 →
      s.clauseAt x.clause = some k ∧ k.cancelled = false →
      x.mode ≠ .parked →
      Completes (.runaheadIssue c st) s (fun t => Sent s t fpa 1 (.tile c x.clause (.indices st (s.tile c.tile).nextEntry true)) ∧ t.ctx c = some { x with patterns := tset st { q with asked := some (s.tile c.tile).nextEntry } x.patterns } ∧ (t.tile c.tile).entries = (s.tile c.tile).entries ∧ t.mem = s.mem ∧ t.xlat = s.xlat ∧ t.out = s.out)) ∧
  (∀ (s : State) (c : At) (st : Nat) (x : Ctx) (q : Pattern),
      s.live = true →
      s.home.finished = [] →
      s.ctx c = some x →
      x.mode ≠ .parked →
      (s.clauseAt x.clause).map Clause.cancelled ≠ some true →
      tget st x.patterns = some q →
      x.ordering = true ∨ patBytes q.desc ≤ max q.issued q.pos ∨ patDepth q.desc ≤ s.entryCount c (some st) ∨ 256 ≤ s.entryCount c none ∨ 512 ≤ (s.tile c.tile).entries.length →
      exec (.runaheadIssue c st) s = .next (s)) ∧
  (∀ (s : State) (c : At) (st a n p fpa : Nat) (x : Ctx) (q : Pattern) (k : Clause),
      s.live = true →
      s.home.finished = [] →
      s.ctx c = some x →
      x.mode ≠ .parked →
      tget st x.patterns = some q ∧ q.needsIndices = false →
      a = (q.runAddr (max q.issued q.pos / patRun q.desc) + max q.issued q.pos % patRun q.desc) % 2 ^ 64 ∧ oaHandle a < 16 →
      n = min (min (patRun q.desc - max q.issued q.pos % patRun q.desc) (128 - x.fva a % 128)) (patBytes q.desc - max q.issued q.pos) →
      s.reach x a n = .runs p [(fpa, n)] →
      s.clauseAt x.clause = some k ∧ k.cancelled = false →
      (k.extents.any (fun e => e.side && decide (e.fva < x.fva a + n) && decide (x.fva a < e.fva + e.len)) = true) →
      exec (.runaheadIssue c st) s = .next (s))

/-- Counter instructions, SUBMIT, LEX, CSRR, CSRW, EXIT and the expiries. (R156, R157, R158, R159, R160, R161, R162, R172, R430, Table 5-8, Table 6-5, 06_tile_instruction_set.md) -/
def Obligations.CountersRegistersAndTheEndOfAContext : Prop :=
  (∀ (s : State) (c : At) (f : FmtC) (x : Ctx) (k : Clause) (n : Nat),
      s.ready c = some x →
      s.home.finished = [] →
      nameOk (x.sreg f.ra).toNat = true ∧ n = nameIndex (x.sreg f.ra).toNat →
      nameChip (x.sreg f.ra).toNat = s.chip ∧ s.ownsCounter k.partition n = true →
      Calm s →
      s.clauseAt x.clause = some k ∧ k.cancelled = false →
      Completes (.ctrld c f) s (fun t => t.counter n = s.counter n ∧ (∀ m : Nat, m ≠ n → t.counter m = s.counter m) ∧ t.ctx c = some { x.setS f.rd (BitVec.ofNat 64 (s.counter n % 2 ^ 64)) with mode := .running, ordering := false, pc := x.pc + 1 } ∧ t.mem = s.mem ∧ t.xlat = s.xlat ∧ t.out = s.out)) ∧
  (∀ (s : State) (c : At) (f : FmtC) (x : Ctx) (k : Clause) (n : Nat),
      s.ready c = some x →
      s.home.finished = [] →
      nameOk (x.sreg f.ra).toNat = true ∧ n = nameIndex (x.sreg f.ra).toNat →
      s.ownStores c x.clause = [] ∧ x.storeErr = .none →
      nameChip (x.sreg f.ra).toNat = s.chip ∧ s.ownsCounter k.partition n = true →
      Calm s →
      s.clauseAt x.clause = some k ∧ k.cancelled = false →
      Completes (.ctradd c f) s (fun t => t.counter n = (s.counter n + (x.sreg f.rb).toNat) % 2 ^ 64 ∧ (∀ m : Nat, m ≠ n → t.counter m = s.counter m) ∧ t.ctx c = some { x.setS f.rd (BitVec.ofNat 64 (s.counter n % 2 ^ 64)) with mode := .running, ordering := false, pc := x.pc + 1 } ∧ t.mem = s.mem ∧ t.xlat = s.xlat ∧ t.out = s.out)) ∧
  (∀ (s : State) (c : At) (f : FmtC) (x : Ctx) (k : Clause) (n : Nat),
      s.ready c = some x →
      s.home.finished = [] →
      nameOk (x.sreg f.ra).toNat = true ∧ n = nameIndex (x.sreg f.ra).toNat →
      s.ownStores c x.clause = [] ∧ x.storeErr = .none →
      nameChip (x.sreg f.ra).toNat = s.chip ∧ s.ownsCounter k.partition n = true →
      Calm s →
      s.clauseAt x.clause = some k ∧ k.cancelled = false →
      Completes (.ctrset c f) s (fun t => t.counter n = (x.sreg f.rb).toNat ∧ (∀ m : Nat, m ≠ n → t.counter m = s.counter m) ∧ t.ctx c = some { x.setS f.rd (BitVec.ofNat 64 (s.counter n % 2 ^ 64)) with mode := .running, ordering := false, pc := x.pc + 1 } ∧ t.mem = s.mem ∧ t.xlat = s.xlat ∧ t.out = s.out)) ∧
  (∀ (s : State) (c : At) (f : FmtC) (x : Ctx) (k : Clause) (n : Nat),
      s.ready c = some x →
      s.home.finished = [] →
      nameOk (x.sreg f.ra).toNat = true ∧ n = nameIndex (x.sreg f.ra).toNat →
      nameChip (x.sreg f.ra).toNat = s.chip ∧ s.ownsCounter k.partition n = true →
      Calm s →
      s.clauseAt x.clause = some k ∧ k.cancelled = false →
      (x.sreg f.rb).toNat ≤ s.counter n % 2 ^ 64 →
      Completes (.ctrwait c f) s (fun t => t.ctx c = some { x.setS f.rd (BitVec.ofNat 64 (s.counter n % 2 ^ 64)) with mode := .running, ordering := false, pc := x.pc + 1 } ∧ (∀ m : Nat, m < 2 ^ 18 → t.counter m = s.counter m) ∧ t.mem = s.mem ∧ t.out = s.out)) ∧
  (∀ (s : State) (c : At) (f : FmtC) (x : Ctx) (k : Clause) (n : Nat),
      s.ready c = some x →
      s.home.finished = [] →
      nameOk (x.sreg f.ra).toNat = true ∧ n = nameIndex (x.sreg f.ra).toNat →
      nameChip (x.sreg f.ra).toNat = s.chip ∧ s.ownsCounter k.partition n = true →
      Calm s →
      s.clauseAt x.clause = some k ∧ k.cancelled = false →
      s.counter n % 2 ^ 64 < (x.sreg f.rb).toNat →
      Completes (.ctrwait c f) s (fun t => t.ctx c = some { x with mode := .ctrwait (x.sreg f.ra).toNat (x.sreg f.rb).toNat f.rd, ordering := f.scope != 0 } ∧ (∀ m : Nat, m < 2 ^ 18 → t.counter m = s.counter m) ∧ t.mem = s.mem ∧ t.out = s.out)) ∧
  (∀ (s : State) (c : At) (x : Ctx) (k : Clause) (name th n : Nat) (rd : BitVec 6),
      s.live = true →
      s.home.finished = [] →
      s.ctx c = some x ∧ x.mode = .ctrwait name th rd →
      n = nameIndex name ∧ nameChip name = s.chip ∧ s.ownsCounter k.partition n = true →
      Calm s →
      s.clauseAt x.clause = some k ∧ k.cancelled = false →
      th ≤ s.counter n % 2 ^ 64 →
      Completes (.ctrwaitWake c) s (fun t => t.ctx c = some { x.setS rd (BitVec.ofNat 64 (s.counter n % 2 ^ 64)) with mode := .running, ordering := false, pc := x.pc + 1 } ∧ t.mem = s.mem ∧ t.out = s.out)) ∧
  (∀ (s : State) (c : At) (f : FmtC) (x : Ctx) (k : Clause) (n : Nat),
      s.ready c = some x →
      s.home.finished = [] →
      nameOk (x.sreg f.ra).toNat = true ∧ n = nameIndex (x.sreg f.ra).toNat →
      nameChip (x.sreg f.ra).toNat ≠ s.chip ∧ n < 2 ^ 18 →
      s.clauseAt x.clause = some k ∧ k.cancelled = false →
      MaySend s k.partition (counterFpa (nameChip (x.sreg f.ra).toNat) n) →
      Completes (.ctrld c f) s (fun t => Sent s t (counterFpa (nameChip (x.sreg f.ra).toNat) n) 5 (.tile c x.clause (.ctr f.rd none)) ∧ t.ctx c = some { x with mode := .access, ordering := f.scope != 0 } ∧ t.mem = s.mem ∧ t.out = s.out)) ∧
  (∀ (s : State) (c : At) (f : FmtC) (x : Ctx) (k : Clause) (n : Nat),
      s.ready c = some x →
      s.home.finished = [] →
      nameOk (x.sreg f.ra).toNat = true ∧ n = nameIndex (x.sreg f.ra).toNat →
      s.ownStores c x.clause = [] ∧ x.storeErr = .none →
      nameChip (x.sreg f.ra).toNat ≠ s.chip ∧ n < 2 ^ 18 →
      s.clauseAt x.clause = some k ∧ k.cancelled = false →
      MaySend s k.partition (counterFpa (nameChip (x.sreg f.ra).toNat) n) →
      Completes (.ctradd c f) s (fun t => Sent s t (counterFpa (nameChip (x.sreg f.ra).toNat) n) 5 (.tile c x.clause (.ctr f.rd none)) ∧ t.ctx c = some { x with mode := .access, ordering := false } ∧ t.mem = s.mem ∧ t.out = s.out)) ∧
  (∀ (s : State) (c : At) (f : FmtC) (x : Ctx) (k : Clause) (n : Nat),
      s.ready c = some x →
      s.home.finished = [] →
      nameOk (x.sreg f.ra).toNat = true ∧ n = nameIndex (x.sreg f.ra).toNat →
      s.ownStores c x.clause = [] ∧ x.storeErr = .none →
      nameChip (x.sreg f.ra).toNat ≠ s.chip ∧ n < 2 ^ 18 →
      s.clauseAt x.clause = some k ∧ k.cancelled = false →
      MaySend s k.partition (counterFpa (nameChip (x.sreg f.ra).toNat) n) →
      Completes (.ctrset c f) s (fun t => Sent s t (counterFpa (nameChip (x.sreg f.ra).toNat) n) 5 (.tile c x.clause (.ctr f.rd none)) ∧ t.ctx c = some { x with mode := .access, ordering := false } ∧ t.mem = s.mem ∧ t.out = s.out)) ∧
  (∀ (s : State) (c : At) (f : FmtC) (x : Ctx) (k : Clause) (n : Nat),
      s.ready c = some x →
      s.home.finished = [] →
      nameOk (x.sreg f.ra).toNat = true ∧ n = nameIndex (x.sreg f.ra).toNat →
      nameChip (x.sreg f.ra).toNat ≠ s.chip ∧ n < 2 ^ 18 →
      s.clauseAt x.clause = some k ∧ k.cancelled = false →
      MaySend s k.partition (counterFpa (nameChip (x.sreg f.ra).toNat) n) →
      Completes (.ctrwait c f) s (fun t => Sent s t (counterFpa (nameChip (x.sreg f.ra).toNat) n) 5 (.tile c x.clause (.ctr f.rd (some (x.sreg f.rb).toNat))) ∧ t.ctx c = some { x with mode := .ctrwait (x.sreg f.ra).toNat (x.sreg f.rb).toNat f.rd, ordering := f.scope != 0 } ∧ t.mem = s.mem ∧ t.out = s.out)) ∧
  (∀ (s : State) (c : At) (f : FmtC) (x : Ctx),
      s.ready c = some x →
      s.home.finished = [] →
      (s.clauseAt x.clause).map Clause.cancelled ≠ some true →
      s.ownStores c x.clause = [] ∧ x.storeErr = .none →
      nameOk (x.sreg f.ra).toNat = false →
      exec (.ctrld c f) s = .next (s.exception c x 2 (x.sreg f.ra).toNat .bounds)) ∧
  (∀ (s : State) (c : At) (f : FmtC) (x : Ctx),
      s.ready c = some x →
      s.home.finished = [] →
      (s.clauseAt x.clause).map Clause.cancelled ≠ some true →
      s.ownStores c x.clause = [] ∧ x.storeErr = .none →
      nameOk (x.sreg f.ra).toNat = false →
      exec (.ctradd c f) s = .next (s.exception c x 2 (x.sreg f.ra).toNat .bounds)) ∧
  (∀ (s : State) (c : At) (f : FmtC) (x : Ctx),
      s.ready c = some x →
      s.home.finished = [] →
      (s.clauseAt x.clause).map Clause.cancelled ≠ some true →
      s.ownStores c x.clause = [] ∧ x.storeErr = .none →
      nameOk (x.sreg f.ra).toNat = false →
      exec (.ctrset c f) s = .next (s.exception c x 2 (x.sreg f.ra).toNat .bounds)) ∧
  (∀ (s : State) (c : At) (f : FmtC) (x : Ctx),
      s.ready c = some x →
      s.home.finished = [] →
      (s.clauseAt x.clause).map Clause.cancelled ≠ some true →
      s.ownStores c x.clause = [] ∧ x.storeErr = .none →
      nameOk (x.sreg f.ra).toNat = false →
      exec (.ctrwait c f) s = .next (s.exception c x 2 (x.sreg f.ra).toNat .bounds)) ∧
  (∀ (s : State) (c : At) (x : Ctx) (name th : Nat) (rd : BitVec 6),
      s.live = true →
      s.ctx c = some x ∧ x.mode = .ctrwait name th rd →
      exec (.waitLimitExpiry c) s = .next (s.exception c x 8 0 .timeout)) ∧
  (∀ (s : State) (c : At) (x : Ctx) (k : Clause),
      s.live = true →
      s.ctx c = some x ∧ s.clauseAt x.clause = some k →
      fieldAt k.desc 44 4 ≠ 0 →
      exec (.budgetExpiry c) s = .next (s.exception c x 9 0 .timeout)) ∧
  (∀ (s : State) (c : At) (f : FmtS) (x : Ctx) (k : Clause) (a q : Nat),
      s.ready c = some x →
      s.home.finished = [] →
      a = (x.sreg f.ra).toNat ∧ a % 64 = 0 ∧ oaHandle a = 16 ∧ oaOffset a + 64 ≤ x.tsSize →
      descExt (memRead (s.tile c.tile).store (x.tsBase + oaOffset a) 64) = false →
      s.ownStores c x.clause = [] ∧ x.storeErr = .none →
      s.clauseAt x.clause = some k ∧ k.cancelled = false →
      q = (x.sreg f.rb).toNat % 2 ^ 15 →
      s.submitStatus k.partition q 1 ≠ .none →
      exec (.submit c f .none) s = .next (s.setCtx c { x.setS f.rd (BitVec.ofNat 64 (s.submitStatus k.partition q 1).code) with pc := x.pc + 1 })) ∧
  (∀ (s : State) (c : At) (f : FmtS) (x : Ctx) (k : Clause) (a q : Nat) (r : Queue) (fpa : Nat),
      s.ready c = some x →
      s.home.finished = [] →
      a = (x.sreg f.ra).toNat ∧ a % 64 = 0 ∧ oaHandle a = 16 ∧ oaOffset a + 64 ≤ x.tsSize →
      descExt (memRead (s.tile c.tile).store (x.tsBase + oaOffset a) 64) = false →
      s.ownStores c x.clause = [] ∧ x.storeErr = .none →
      s.clauseAt x.clause = some k ∧ k.cancelled = false →
      q = (x.sreg f.rb).toNat % 2 ^ 15 →
      s.submitStatus k.partition q 1 = .none →
      tget q s.work.queues = some r →
      (s.xlate k.partition (r.slotFva (s.get (R.QPAGE_SQ_TAIL q))) 1).err = .none ∧ (s.xlate k.partition (r.slotFva (s.get (R.QPAGE_SQ_TAIL q))) 1).fpa = fpa →
      MaySend s k.partition fpa →
      k.partition < 4096 →
      Completes (.submit c f .none) s (fun t => Sent s t fpa 2 .drop ∧ t.ctx c = some { x.setS f.rd (BitVec.ofNat 64 0) with pc := x.pc + 1 } ∧ t.get (R.QPAGE_SQ_TAIL q) = (s.get (R.QPAGE_SQ_TAIL q) + 1) % 2 ^ 32 ∧ t.mem = s.mem ∧ t.xlat = s.xlat)) ∧
  (∀ (s : State) (c : At) (f : FmtS) (x : Ctx),
      s.ready c = some x →
      s.home.finished = [] →
      (s.clauseAt x.clause).map Clause.cancelled ≠ some true →
      (x.sreg f.ra).toNat % 64 ≠ 0 →
      exec (.submit c f .none) s = .next (s.exception c x 3 (x.sreg f.ra).toNat .align)) ∧
  (∀ (s : State) (c : At) (f : FmtI) (x : Ctx),
      s.ready c = some x →
      f.ra = 0 ∧ f.imm.toNat < 256 →
      exec (.lex c f) s = .next ({ s.setCtx c { x.setS f.rd (BitVec.ofNat 64 (([1, 48, 2048, 32, 8, 64, 32, 16, 4, 2097152, 262144, 128, 512, 32, 64, 0x7fff, 0xfff, 32768, 262144, 16384, 8192, 12288, 4096, 16384, 4, 3, 4096, 131072, 65536, 4194304, 2097152, 2097152][f.imm.toNat]?).getD 0)) with pc := x.pc + 1 } with fresh := s.fresh + 1 })) ∧
  (∀ (s : State) (c : At) (f : FmtI) (x : Ctx),
      s.ready c = some x →
      f.ra ≠ 0 →
      exec (.lex c f) s = .next (s.exception c x 1 0 .format)) ∧
  (∀ (s : State) (c : At) (f : FmtI) (x : Ctx),
      s.ready c = some x →
      f.ra ≠ 0 →
      exec (.csrr c f) s = .next (s.exception c x 1 0 .format)) ∧
  (∀ (s : State) (c : At) (f : FmtI) (x : Ctx) (k : Clause) (v : Nat),
      s.ready c = some x →
      f.ra = 0 →
      s.clauseAt x.clause = some k →
      ((f.imm.toNat, v) ∈ [(0, c.tile * 256 + c.ctx), (1, s.chip), (2, k.partition), (3, x.rmode), (4, x.fflags), (5, x.seed), (6, s.tick), (7, x.waitLimit), (8, x.tsSize)] ∨ 16 ≤ f.imm.toNat ∧ f.imm.toNat < 32 ∧ v = ((tget (f.imm.toNat - 16) x.ops).map (fun o => o.2.1)).getD 0 ∨ 32 ≤ f.imm.toNat ∧ f.imm.toNat < 40 ∧ v = fieldAt k.desc (64 + 8 * (f.imm.toNat - 32)) 8) →
      exec (.csrr c f) s = .next (s.setCtx c { x.setS f.rd (BitVec.ofNat 64 v) with pc := x.pc + 1 })) ∧
  (∀ (s : State) (c : At) (f : FmtI) (x : Ctx),
      s.ready c = some x →
      f.ra = 0 →
      9 ≤ f.imm.toNat ∧ f.imm.toNat < 16 ∨ 40 ≤ f.imm.toNat →
      exec (.csrr c f) s = .next (s.exception c x 1 0 .format)) ∧
  (∀ (s : State) (c : At) (f : FmtI) (x : Ctx),
      s.ready c = some x →
      f.rd = 0 ∧ f.imm.toNat = 3 →
      exec (.csrw c f) s = .next (s.setCtx c { x with rmode := min (x.sreg f.ra).toNat 2, pc := x.pc + 1 })) ∧
  (∀ (s : State) (c : At) (f : FmtI) (x : Ctx),
      s.ready c = some x →
      f.rd = 0 ∧ f.imm.toNat = 4 →
      exec (.csrw c f) s = .next (s.setCtx c { x with fflags := min (x.sreg f.ra).toNat 31, pc := x.pc + 1 })) ∧
  (∀ (s : State) (c : At) (f : FmtI) (x : Ctx),
      s.ready c = some x →
      f.rd = 0 ∧ f.imm.toNat = 5 →
      exec (.csrw c f) s = .next (s.setCtx c { x with seed := (x.sreg f.ra).toNat, pc := x.pc + 1 })) ∧
  (∀ (s : State) (c : At) (f : FmtI) (x : Ctx),
      s.ready c = some x →
      f.rd = 0 ∧ f.imm.toNat = 7 →
      exec (.csrw c f) s = .next (s.setCtx c { x with waitLimit := min (max (x.sreg f.ra).toNat 1) 1000000, pc := x.pc + 1 })) ∧
  (∀ (s : State) (c : At) (f : FmtI) (x : Ctx),
      s.ready c = some x →
      f.rd ≠ 0 ∨ f.imm.toNat ∉ [3, 4, 5, 7] →
      exec (.csrw c f) s = .next (s.exception c x 1 0 .format)) ∧
  (∀ (s : State) (c : At) (f : FmtS) (x : Ctx) (k : Clause),
      s.ready c = some x →
      s.ownStores c x.clause = [] ∧ x.storeErr = .none →
      s.clauseAt x.clause = some k ∧ k.ending = none →
      Completes (.exit c f) s (fun t => t.clauseAt x.clause = some { k with ending := some { status := .none, exc := 0, segment := 2 ^ 32 - 1, detail := (x.sreg f.ra).toNat % 2 ^ 32, addr := 0 } } ∧ (∀ m : Nat, m ≠ x.clause → t.clauseAt m = s.clauseAt m) ∧ t.ctx c = none ∧ (∀ m : Nat, m ≠ c.ctx → t.ctx ⟨c.tile, m⟩ = s.ctx ⟨c.tile, m⟩) ∧ (∀ m : Nat, m ≠ c.tile → t.tile m = s.tile m) ∧
        OnlyFields [R.TILE_STAT_STATE (s.phys c.tile)] s t ∧ t = { s with regs := t.regs, work := { s.work with clauses := t.work.clauses }, home := { s.home with tiles := t.home.tiles } })) ∧
  (∀ (s : State) (c : At) (f : FmtS) (x : Ctx),
      s.ready c = some x →
      s.ownStores c x.clause ≠ [] →
      exec (.exit c f) s = .next (s.setCtx c { x with mode := .stores, ordering := false })) ∧
  (∀ (s : State) (c : At) (f : FmtS) (x : Ctx),
      s.ready c = some x →
      s.ownStores c x.clause = [] ∧ x.storeErr ≠ .none →
      exec (.exit c f) s = .next (s.exception c x 6 0 x.storeErr)) ∧
  (∀ (s : State) (c : At) (f : FmtC) (x : Ctx),
      s.ready c = some x →
      s.home.finished = [] →
      (s.clauseAt x.clause).map Clause.cancelled ≠ some true →
      s.ownStores c x.clause ≠ [] →
      exec (.ctradd c f) s = .next (s.setCtx c { x with mode := .stores, ordering := false })) ∧
  (∀ (s : State) (c : At) (f : FmtC) (x : Ctx),
      s.ready c = some x →
      s.home.finished = [] →
      (s.clauseAt x.clause).map Clause.cancelled ≠ some true →
      s.ownStores c x.clause ≠ [] →
      exec (.ctrset c f) s = .next (s.setCtx c { x with mode := .stores, ordering := false })) ∧
  (∀ (s : State) (c : At) (f : FmtC) (x : Ctx),
      s.ready c = some x →
      s.home.finished = [] →
      (s.clauseAt x.clause).map Clause.cancelled ≠ some true →
      s.ownStores c x.clause = [] ∧ x.storeErr ≠ .none →
      exec (.ctradd c f) s = .next (s.exception c x 6 0 x.storeErr)) ∧
  (∀ (s : State) (c : At) (f : FmtC) (x : Ctx),
      s.ready c = some x →
      s.home.finished = [] →
      (s.clauseAt x.clause).map Clause.cancelled ≠ some true →
      s.ownStores c x.clause = [] ∧ x.storeErr ≠ .none →
      exec (.ctrset c f) s = .next (s.exception c x 6 0 x.storeErr)) ∧
  (∀ (s : State) (c : At) (f : FmtS) (x : Ctx) (a : Nat),
      s.ready c = some x →
      s.home.finished = [] →
      (s.clauseAt x.clause).map Clause.cancelled ≠ some true →
      a = (x.sreg f.ra).toNat ∧ a % 64 = 0 ∧ oaHandle a = 16 ∧ oaOffset a + 64 ≤ x.tsSize →
      s.ownStores c x.clause = [] ∧ x.storeErr = .none →
      exec (.submit c f .storeUncorrectable) s = .next ((s.count (R.TILE_ECC_STORE_UE (s.phys c.tile))).exception c x 10 a .poison)) ∧
  (∀ (s : State) (c : At) (f : FmtS) (x : Ctx) (a : Nat),
      s.ready c = some x →
      s.home.finished = [] →
      (s.clauseAt x.clause).map Clause.cancelled ≠ some true →
      a = (x.sreg f.ra).toNat ∧ a % 64 = 0 →
      oaHandle a ≠ 16 ∨ x.tsSize < oaOffset a + 64 →
      exec (.submit c f .none) s = .next (s.exception c x 2 a .bounds)) ∧
  (∀ (s : State) (c : At) (f : FmtS) (x : Ctx) (k : Clause) (a q : Nat) (r : Queue) (fpa : Nat),
      s.ready c = some x →
      Calm s →
      a = (x.sreg f.ra).toNat ∧ a % 64 = 0 ∧ oaHandle a = 16 ∧ oaOffset a + 64 ≤ x.tsSize →
      descExt (memRead (s.tile c.tile).store (x.tsBase + oaOffset a) 64) = false →
      s.ownStores c x.clause = [] ∧ x.storeErr = .none →
      s.clauseAt x.clause = some k ∧ k.cancelled = false →
      q = (x.sreg f.rb).toNat % 2 ^ 15 →
      s.submitStatus k.partition q 1 = .none →
      tget q s.work.queues = some r →
      (s.xlate k.partition (r.slotFva (s.get (R.QPAGE_SQ_TAIL q))) 1).err = .none ∧ (s.xlate k.partition (r.slotFva (s.get (R.QPAGE_SQ_TAIL q))) 1).fpa = fpa →
      Reached s k.partition fpa →
      Intact s fpa 64 →
      s.hasCopies fpa 64 = false ∧ (linesOf fpa 64).all (s.lineClear true) = true ∧ s.home.ops = [] →
      k.partition < 4096 →
      Completes (.submit c f .none) s (fun t => memRead t.mem (memKey (fpaUnit fpa) (fpaOff fpa)) 64 = memRead (s.tile c.tile).store (x.tsBase + oaOffset a) 64 ∧ (∀ i : Nat, i < memKey (fpaUnit fpa) (fpaOff fpa) ∨ memKey (fpaUnit fpa) (fpaOff fpa) + 64 ≤ i → memGet t.mem i = memGet s.mem i) ∧
        t.ctx c = some { x.setS f.rd (BitVec.ofNat 64 0) with pc := x.pc + 1 } ∧ t.get (R.QPAGE_SQ_TAIL q) = (s.get (R.QPAGE_SQ_TAIL q) + 1) % 2 ^ 32 ∧ t.xlat = s.xlat ∧ t.out = s.out)) ∧
  (∀ (s : State) (c : At) (f : FmtS) (x : Ctx) (k : Clause) (a q : Nat) (r : Queue) (fpa : Nat),
      s.ready c = some x →
      s.home.finished = [] →
      a = (x.sreg f.ra).toNat ∧ a % 64 = 0 ∧ oaHandle a = 16 ∧ oaOffset a + 128 ≤ x.tsSize →
      descExt (memRead (s.tile c.tile).store (x.tsBase + oaOffset a) 64) = true →
      s.ownStores c x.clause = [] ∧ x.storeErr = .none →
      s.clauseAt x.clause = some k ∧ k.cancelled = false →
      q = (x.sreg f.rb).toNat % 2 ^ 15 →
      s.submitStatus k.partition q 2 = .none →
      tget q s.work.queues = some r →
      (s.xlate k.partition (r.slotFva (s.get (R.QPAGE_SQ_TAIL q))) 1).err = .none ∧ (s.xlate k.partition (r.slotFva (s.get (R.QPAGE_SQ_TAIL q))) 1).fpa = fpa →
      MaySend s k.partition fpa →
      k.partition < 4096 →
      Completes (.submit c f .none) s (fun t => Sent s t fpa 2 .drop ∧ t.ctx c = some { x.setS f.rd (BitVec.ofNat 64 0) with pc := x.pc + 1 } ∧ t.get (R.QPAGE_SQ_TAIL q) = (s.get (R.QPAGE_SQ_TAIL q) + 2) % 2 ^ 32 ∧ t.mem = s.mem ∧ t.xlat = s.xlat)) ∧
  (∀ (s : State) (c : At) (f : FmtC) (x : Ctx) (k : Clause),
      s.ready c = some x →
      Calm s →
      s.ownStores c x.clause = [] ∧ x.storeErr = .none →
      nameOk (x.sreg f.ra).toNat = true ∧ nameChip (x.sreg f.ra).toNat = s.chip →
      s.clauseAt x.clause = some k ∧ k.cancelled = false ∧ s.ownsCounter k.partition (nameIndex (x.sreg f.ra).toNat) = false →
      exec (.ctrld c f) s = .next ((s.violate 4 (some k.partition) (x.sreg f.ra).toNat .partition 255).exception c x 5 0 .partition)) ∧
  (∀ (s : State) (c : At) (f : FmtC) (x : Ctx) (k : Clause),
      s.ready c = some x →
      Calm s →
      s.ownStores c x.clause = [] ∧ x.storeErr = .none →
      nameOk (x.sreg f.ra).toNat = true ∧ nameChip (x.sreg f.ra).toNat = s.chip →
      s.clauseAt x.clause = some k ∧ k.cancelled = false ∧ s.ownsCounter k.partition (nameIndex (x.sreg f.ra).toNat) = false →
      exec (.ctradd c f) s = .next ((s.violate 4 (some k.partition) (x.sreg f.ra).toNat .partition 255).exception c x 5 0 .partition)) ∧
  (∀ (s : State) (c : At) (f : FmtC) (x : Ctx) (k : Clause),
      s.ready c = some x →
      Calm s →
      s.ownStores c x.clause = [] ∧ x.storeErr = .none →
      nameOk (x.sreg f.ra).toNat = true ∧ nameChip (x.sreg f.ra).toNat = s.chip →
      s.clauseAt x.clause = some k ∧ k.cancelled = false ∧ s.ownsCounter k.partition (nameIndex (x.sreg f.ra).toNat) = false →
      exec (.ctrset c f) s = .next ((s.violate 4 (some k.partition) (x.sreg f.ra).toNat .partition 255).exception c x 5 0 .partition)) ∧
  (∀ (s : State) (c : At) (f : FmtC) (x : Ctx) (k : Clause),
      s.ready c = some x →
      Calm s →
      s.ownStores c x.clause = [] ∧ x.storeErr = .none →
      nameOk (x.sreg f.ra).toNat = true ∧ nameChip (x.sreg f.ra).toNat = s.chip →
      s.clauseAt x.clause = some k ∧ k.cancelled = false ∧ s.ownsCounter k.partition (nameIndex (x.sreg f.ra).toNat) = false →
      exec (.ctrwait c f) s = .next ((s.violate 4 (some k.partition) (x.sreg f.ra).toNat .partition 255).exception c x 5 0 .partition))

/-- A step runs the command at the front of the queue; an empty queue is a tick of LOCALTICK (log entry 1). (R418, R422, 18_clocks_power.md) -/
def Obligations.StepRunsTheFrontCommand : Prop :=
  (∀ (c : Instr) (s : State) (q : List Instr),
      s.pending = c :: q →
      step s = exec c { s with pending := q }) ∧
  (∀ (s : State),
      s.pending = [] →
      step s = .next (if s.boot.aonRuns then s.set R.CLK_LOCALTICK_TICK (s.get R.CLK_LOCALTICK_TICK + 1) else s))

/-- After power-on reset the queue is empty, memory lists nothing and the registers read their reset values. (R381, R382, R420, R428, 16_security.md, 17_stem_and_start.md) -/
def Obligations.ResetLeavesTheBlockIdle : Prop :=
  ∀ (p : Nat) (f : Fld),
      State.reset.pending = [] ∧ State.reset.out = [] ∧ State.reset.mem = [] ∧ State.reset.get f = f.reset ∧ State.reset.get (R.PART_STATE_STATE p) = 0 ∧ State.reset.get (R.PART_STATE_KEY_EPOCH p) = 0 ∧
        State.reset.bootState = 0 ∧ State.reset.live = false ∧ State.reset.get R.PWR_STAT_LEVEL = 0 ∧ State.reset.flag R.PWR_STAT_BRAKE = false ∧ State.reset.tick = 0 ∧ State.reset.work.clauses = [] ∧ State.reset.fabric.frames = [] ∧ State.reset.xlat.pageMap = []

/-- The invariant holds at reset. (R382, 17_stem_and_start.md) -/
def Obligations.ResetKeepsTheInvariant : Prop :=
  ∀ (u : Unit),
      State.reset.Inv

/-- Every step keeps memory in canonical form and the register fields in rising order. (R4, R30, R463, 20_registers.md) -/
def Obligations.EveryStepKeepsTheInvariant : Prop :=
  ∀ (s t : State),
      s.Inv →
      step s = .next t →
      t.Inv

/-- Every step answers a next state. (R1, R372, 00_conventions.md) -/
def Obligations.EveryCommandIsAnswered : Prop :=
  ∀ (s : State),
      s.Safe

/-- Memories that read alike are equal, and writes of other places do not meet. (R4, R85, 04_ordering.md, 14_edge_and_tiers.md) -/
def Obligations.MemoryIsItsBytes : Prop :=
  (∀ (m n : Tbl Byte),
      Memory.wf m = true →
      Memory.wf n = true →
      (∀ a : Nat, memGet m a = memGet n a) →
      m = n) ∧
  (∀ (m : Tbl Byte) (a k : Nat),
      Memory.wf m = true →
      memWrite m a (memRead m a k) = m) ∧
  (∀ (m : Tbl Byte) (a b : Nat) (x y : List Byte),
      Memory.wf m = true →
      a + x.length ≤ b →
      memWrite (memWrite m a x) b y = memWrite (memWrite m b y) a x)

/-- An Article is its 32 bytes, and 32 bytes with their reserved bits 0 are their Article. (R4, R5, Table 12-2, 12_switch_and_transport.md) -/
def Obligations.ArticlesRoundTrip : Prop :=
  (∀ (a : Article),
      a.dest < 2 ^ 64 ∧ a.opcode < 2 ^ 8 ∧ a.flags < 2 ^ 8 ∧ a.partition < 2 ^ 12 ∧ a.vc < 2 ^ 3 ∧ a.tense < 2 ^ 8 ∧ a.tc < 2 ^ 3 ∧ a.plane < 2 ^ 5 ∧ a.length < 2 ^ 13 →
      a.srcChip < 2 ^ 15 ∧ a.srcUnit < 2 ^ 6 ∧ a.line < 2 ^ 6 ∧ a.lseq < 2 ^ 24 ∧ a.tag < 2 ^ 17 ∧ a.aux < 2 ^ 32 ∧ a.hcrc < 2 ^ 16 →
      (articleBytes a).length = 32 ∧ articleOf (articleBytes a) = a) ∧
  (∀ (bs : List Byte),
      bs.length = 32 →
      bits (leNat bs) 95 95 = 0 ∧ bits (leNat bs) 127 125 = 0 ∧ bits (leNat bs) 143 143 = 0 ∧ bits (leNat bs) 151 150 = 0 ∧ bits (leNat bs) 159 158 = 0 ∧ bits (leNat bs) 207 201 = 0 →
      articleBytes (articleOf bs) = bs)

/-- E8M0 to FP32 and FP32 to E8M0. (R198) -/
def Obligations.ScaleCodesConvert : Prop :=
  (∀ (mode r e : Nat),
      e < 255 →
      convert 14 1 mode r e = (if e = 0 then 0x00400000 else e * 2 ^ 23, 0) ∧ decodeNum 14 e = .fin false 1 ((e : Int) - 127) ∧ convert 14 1 mode r 255 = (0x7fc00000, 0)) ∧
  (∀ (mode r n : Nat),
      n < 2 ^ 32 →
      convert 1 14 mode r n = (if bits n 30 23 = 255 then (255, 0) else if bits n 30 23 ≠ 0 then (bits n 30 23, 0) else if n % 2 ^ 23 = 0 ∨ 2 ^ 22 ≤ n % 2 ^ 23 then (0, 0) else (0, flSaturated)))

/-- A block whose scale is 0xFF decodes as NaN, and MMA treats it as a NaN operand. (R201) -/
def Obligations.NanScalesReachMatrixResults : Prop :=
  (∀ (f e : Nat),
      blockDecode f 255 e = .nan) ∧
  (∀ (s : State) (c : At) (f : FmtX) (x : Ctx) (k a b i g : Nat),
      s.ready c = some x →
      f.s = true ∧ mmaScaled f.fmt.toNat = true →
      k = (x.sreg f.rk).toNat ∧ a = (x.sreg f.ra).toNat ∧ b = (x.sreg f.rb).toNat →
      k % 32 = 0 ∧ 32 ≤ k ∧ k ≤ 4096 →
      a / 2 ^ 59 = 16 ∧ b / 2 ^ 59 = 16 ∧ a % 256 = 0 ∧ b % 256 = 0 →
      a % 2 ^ 59 + mmaBytes f.fmt.toNat k true ≤ x.tsSize ∧ b % 2 ^ 59 + mmaBytes f.fmt.toNat k true ≤ x.tsSize →
      s.flag R.PWR_STAT_BRAKE = false →
      i < 32 ∧ g < k / 32 ∧ memGet (s.tile c.tile).store (x.tsBase + a % 2 ^ 59 + 32 * k * fmtWidth f.fmt.toNat / 8 + i * (k / 32) + g) = 255#8 →
      Completes (.mma c f .none) s (fun t => (∀ j < 32, ((t.after c x).acc f.acc).cell (32 * i + j) = 0x7fc00000) ∧ ((t.after c x).acc f.acc).isInt = false)) ∧
  (∀ (s : State) (c : At) (f : FmtX) (x : Ctx) (k a b j g : Nat),
      s.ready c = some x →
      f.s = true ∧ mmaScaled f.fmt.toNat = true →
      k = (x.sreg f.rk).toNat ∧ a = (x.sreg f.ra).toNat ∧ b = (x.sreg f.rb).toNat →
      k % 32 = 0 ∧ 32 ≤ k ∧ k ≤ 4096 →
      a / 2 ^ 59 = 16 ∧ b / 2 ^ 59 = 16 ∧ a % 256 = 0 ∧ b % 256 = 0 →
      a % 2 ^ 59 + mmaBytes f.fmt.toNat k true ≤ x.tsSize ∧ b % 2 ^ 59 + mmaBytes f.fmt.toNat k true ≤ x.tsSize →
      s.flag R.PWR_STAT_BRAKE = false →
      j < 32 ∧ g < k / 32 ∧ memGet (s.tile c.tile).store (x.tsBase + b % 2 ^ 59 + 32 * k * fmtWidth f.fmt.toNat / 8 + g * 32 + j) = 255#8 →
      Completes (.mma c f .none) s (fun t => (∀ i < 32, ((t.after c x).acc f.acc).cell (32 * i + j) = 0x7fc00000) ∧ ((t.after c x).acc f.acc).isInt = false))

/-- A MAP_INSTALL whose set holds 16 valid entries is refused, counted and its set recorded. (R43) -/
def Obligations.FullSetsRefuseInstalls : Prop :=
  ∀ (s : State) (h : Hdr) (b : MapInstall) (set : Nat),
      (Taken s h 0x20 (fun x => mapInstallOf x == b)) →
      h.length = 16 →
      mapFormat b = false →
      b.partition < 4096 ∧ b.page < 2 ^ 31 →
      s.partErr b.partition = .none →
      s.pmFind b.partition b.page = none →
      (s.xlat.installs.find? (fun i => i.body.partition == b.partition && i.body.page == b.page) = none) →
      set = Nat.xor (Nat.xor (b.page % 2 ^ 18) (b.page / 2 ^ 18 * 2 ^ 5)) (b.partition * 2 ^ 6) →
      (∀ w < 16, (tget (set * 16 + w) s.xlat.pageMap).isSome = true) →
      Completes (.mapInstall h b) s (fun t => ((tget h.reqId t.nelar.requests).bind (fun r => r.answer)).map (fun a => (a.1, a.2.take 8)) = some (0x20, statusBody .resource) ∧ t.get R.XLAT_PM_FULL_COUNT = min (s.get R.XLAT_PM_FULL_COUNT + 1) (2 ^ 32 - 1) ∧ t.get R.XLAT_PM_FULL_LAST_SET = set % 2 ^ 18 ∧
        OnlyFields [R.XLAT_PM_FULL_COUNT, R.XLAT_PM_FULL_LAST_SET] s t ∧ t = { s with regs := t.regs, nelar := t.nelar, out := t.out, fresh := t.fresh })

/-- A partition whose window range overlaps another's, or runs past the table, is refused. (R36) -/
def Obligations.WindowRangesDoNotOverlap : Prop :=
  ∀ (s : State) (h : Hdr) (b : PartCreate) (p w : Nat),
      (Taken s h 0x10 (fun x => partCreateOf x == b)) →
      h.length = 64 →
      partFormat b = false ∧ s.partBounds b = false →
      s.get (R.PART_STATE_STATE b.partition) = 0 →
      b.winFirst ≤ w ∧ w < b.winFirst + b.winCount →
      65535 < w ∨ s.get (R.PART_STATE_STATE p) ≠ 0 ∧ p ∈ tkeys s.security.parts ∧ s.get (R.PART_WINDOWS_WIN_FIRST p) ≤ w ∧ w < s.get (R.PART_WINDOWS_WIN_FIRST p) + s.get (R.PART_WINDOWS_WIN_COUNT p) →
      Completes (.partCreate h b) s (fun t => ((tget h.reqId t.nelar.requests).bind (fun r => r.answer)).map (fun a => (a.1, a.2.take 8)) = some (0x10, statusBody .resource) ∧ t = { s with nelar := t.nelar, out := t.out, fresh := t.fresh })
end

