-- ==== Sys2Proof/Laws/State.lean ====
section
/-! SUPPORT. What the elementary updates of State leave alone: one lemma per field and update, each true by unfolding. -/

namespace Sys2Proof.Machine

/-! ### State.set -/

@[simp] theorem State.set_pending (s : State) (f : Fld) (v : Nat) : (s.set f v).pending = s.pending := rfl
@[simp] theorem State.set_fresh (s : State) (f : Fld) (v : Nat) : (s.set f v).fresh = s.fresh := rfl
@[simp] theorem State.set_out (s : State) (f : Fld) (v : Nat) : (s.set f v).out = s.out := rfl
@[simp] theorem State.set_mem (s : State) (f : Fld) (v : Nat) : (s.set f v).mem = s.mem := rfl
@[simp] theorem State.set_boot (s : State) (f : Fld) (v : Nat) : (s.set f v).boot = s.boot := rfl
@[simp] theorem State.set_power (s : State) (f : Fld) (v : Nat) : (s.set f v).power = s.power := rfl
@[simp] theorem State.set_xlat (s : State) (f : Fld) (v : Nat) : (s.set f v).xlat = s.xlat := rfl
@[simp] theorem State.set_work (s : State) (f : Fld) (v : Nat) : (s.set f v).work = s.work := rfl
@[simp] theorem State.set_home (s : State) (f : Fld) (v : Nat) : (s.set f v).home = s.home := rfl
@[simp] theorem State.set_edge (s : State) (f : Fld) (v : Nat) : (s.set f v).edge = s.edge := rfl
@[simp] theorem State.set_fabric (s : State) (f : Fld) (v : Nat) : (s.set f v).fabric = s.fabric := rfl
@[simp] theorem State.set_nelar (s : State) (f : Fld) (v : Nat) : (s.set f v).nelar = s.nelar := rfl
@[simp] theorem State.set_security (s : State) (f : Fld) (v : Nat) : (s.set f v).security = s.security := rfl
@[simp] theorem State.set_coll (s : State) (f : Fld) (v : Nat) : (s.set f v).coll = s.coll := rfl
@[simp] theorem State.set_parser (s : State) (f : Fld) (v : Nat) : (s.set f v).parser = s.parser := rfl
@[simp] theorem State.set_ptus (s : State) (f : Fld) (v : Nat) : (s.set f v).ptus = s.ptus := rfl
@[simp] theorem State.set_tele (s : State) (f : Fld) (v : Nat) : (s.set f v).tele = s.tele := rfl
@[simp] theorem State.set_frozen (s : State) (f : Fld) (v : Nat) : (s.set f v).frozen = s.frozen := rfl

/-! ### State.count -/

@[simp] theorem State.count_pending (s : State) (f : Fld) (n : Nat) : (s.count f n).pending = s.pending := rfl
@[simp] theorem State.count_fresh (s : State) (f : Fld) (n : Nat) : (s.count f n).fresh = s.fresh := rfl
@[simp] theorem State.count_out (s : State) (f : Fld) (n : Nat) : (s.count f n).out = s.out := rfl
@[simp] theorem State.count_mem (s : State) (f : Fld) (n : Nat) : (s.count f n).mem = s.mem := rfl
@[simp] theorem State.count_boot (s : State) (f : Fld) (n : Nat) : (s.count f n).boot = s.boot := rfl
@[simp] theorem State.count_power (s : State) (f : Fld) (n : Nat) : (s.count f n).power = s.power := rfl
@[simp] theorem State.count_xlat (s : State) (f : Fld) (n : Nat) : (s.count f n).xlat = s.xlat := rfl
@[simp] theorem State.count_work (s : State) (f : Fld) (n : Nat) : (s.count f n).work = s.work := rfl
@[simp] theorem State.count_home (s : State) (f : Fld) (n : Nat) : (s.count f n).home = s.home := rfl
@[simp] theorem State.count_edge (s : State) (f : Fld) (n : Nat) : (s.count f n).edge = s.edge := rfl
@[simp] theorem State.count_fabric (s : State) (f : Fld) (n : Nat) : (s.count f n).fabric = s.fabric := rfl
@[simp] theorem State.count_nelar (s : State) (f : Fld) (n : Nat) : (s.count f n).nelar = s.nelar := rfl
@[simp] theorem State.count_security (s : State) (f : Fld) (n : Nat) : (s.count f n).security = s.security := rfl
@[simp] theorem State.count_coll (s : State) (f : Fld) (n : Nat) : (s.count f n).coll = s.coll := rfl
@[simp] theorem State.count_parser (s : State) (f : Fld) (n : Nat) : (s.count f n).parser = s.parser := rfl
@[simp] theorem State.count_ptus (s : State) (f : Fld) (n : Nat) : (s.count f n).ptus = s.ptus := rfl
@[simp] theorem State.count_tele (s : State) (f : Fld) (n : Nat) : (s.count f n).tele = s.tele := rfl
@[simp] theorem State.count_frozen (s : State) (f : Fld) (n : Nat) : (s.count f n).frozen = s.frozen := rfl

/-! ### State.wrap -/

@[simp] theorem State.wrap_pending (s : State) (f : Fld) (n : Nat) : (s.wrap f n).pending = s.pending := rfl
@[simp] theorem State.wrap_fresh (s : State) (f : Fld) (n : Nat) : (s.wrap f n).fresh = s.fresh := rfl
@[simp] theorem State.wrap_out (s : State) (f : Fld) (n : Nat) : (s.wrap f n).out = s.out := rfl
@[simp] theorem State.wrap_mem (s : State) (f : Fld) (n : Nat) : (s.wrap f n).mem = s.mem := rfl
@[simp] theorem State.wrap_boot (s : State) (f : Fld) (n : Nat) : (s.wrap f n).boot = s.boot := rfl
@[simp] theorem State.wrap_power (s : State) (f : Fld) (n : Nat) : (s.wrap f n).power = s.power := rfl
@[simp] theorem State.wrap_xlat (s : State) (f : Fld) (n : Nat) : (s.wrap f n).xlat = s.xlat := rfl
@[simp] theorem State.wrap_work (s : State) (f : Fld) (n : Nat) : (s.wrap f n).work = s.work := rfl
@[simp] theorem State.wrap_home (s : State) (f : Fld) (n : Nat) : (s.wrap f n).home = s.home := rfl
@[simp] theorem State.wrap_edge (s : State) (f : Fld) (n : Nat) : (s.wrap f n).edge = s.edge := rfl
@[simp] theorem State.wrap_fabric (s : State) (f : Fld) (n : Nat) : (s.wrap f n).fabric = s.fabric := rfl
@[simp] theorem State.wrap_nelar (s : State) (f : Fld) (n : Nat) : (s.wrap f n).nelar = s.nelar := rfl
@[simp] theorem State.wrap_security (s : State) (f : Fld) (n : Nat) : (s.wrap f n).security = s.security := rfl
@[simp] theorem State.wrap_coll (s : State) (f : Fld) (n : Nat) : (s.wrap f n).coll = s.coll := rfl
@[simp] theorem State.wrap_parser (s : State) (f : Fld) (n : Nat) : (s.wrap f n).parser = s.parser := rfl
@[simp] theorem State.wrap_ptus (s : State) (f : Fld) (n : Nat) : (s.wrap f n).ptus = s.ptus := rfl
@[simp] theorem State.wrap_tele (s : State) (f : Fld) (n : Nat) : (s.wrap f n).tele = s.tele := rfl
@[simp] theorem State.wrap_frozen (s : State) (f : Fld) (n : Nat) : (s.wrap f n).frozen = s.frozen := rfl

/-! ### State.less -/

@[simp] theorem State.less_pending (s : State) (f : Fld) (n : Nat) : (s.less f n).pending = s.pending := rfl
@[simp] theorem State.less_fresh (s : State) (f : Fld) (n : Nat) : (s.less f n).fresh = s.fresh := rfl
@[simp] theorem State.less_out (s : State) (f : Fld) (n : Nat) : (s.less f n).out = s.out := rfl
@[simp] theorem State.less_mem (s : State) (f : Fld) (n : Nat) : (s.less f n).mem = s.mem := rfl
@[simp] theorem State.less_boot (s : State) (f : Fld) (n : Nat) : (s.less f n).boot = s.boot := rfl
@[simp] theorem State.less_power (s : State) (f : Fld) (n : Nat) : (s.less f n).power = s.power := rfl
@[simp] theorem State.less_xlat (s : State) (f : Fld) (n : Nat) : (s.less f n).xlat = s.xlat := rfl
@[simp] theorem State.less_work (s : State) (f : Fld) (n : Nat) : (s.less f n).work = s.work := rfl
@[simp] theorem State.less_home (s : State) (f : Fld) (n : Nat) : (s.less f n).home = s.home := rfl
@[simp] theorem State.less_edge (s : State) (f : Fld) (n : Nat) : (s.less f n).edge = s.edge := rfl
@[simp] theorem State.less_fabric (s : State) (f : Fld) (n : Nat) : (s.less f n).fabric = s.fabric := rfl
@[simp] theorem State.less_nelar (s : State) (f : Fld) (n : Nat) : (s.less f n).nelar = s.nelar := rfl
@[simp] theorem State.less_security (s : State) (f : Fld) (n : Nat) : (s.less f n).security = s.security := rfl
@[simp] theorem State.less_coll (s : State) (f : Fld) (n : Nat) : (s.less f n).coll = s.coll := rfl
@[simp] theorem State.less_parser (s : State) (f : Fld) (n : Nat) : (s.less f n).parser = s.parser := rfl
@[simp] theorem State.less_ptus (s : State) (f : Fld) (n : Nat) : (s.less f n).ptus = s.ptus := rfl
@[simp] theorem State.less_tele (s : State) (f : Fld) (n : Nat) : (s.less f n).tele = s.tele := rfl
@[simp] theorem State.less_frozen (s : State) (f : Fld) (n : Nat) : (s.less f n).frozen = s.frozen := rfl

/-! ### State.setFlag -/

@[simp] theorem State.setFlag_pending (s : State) (f : Fld) (b : Bool) : (s.setFlag f b).pending = s.pending := rfl
@[simp] theorem State.setFlag_fresh (s : State) (f : Fld) (b : Bool) : (s.setFlag f b).fresh = s.fresh := rfl
@[simp] theorem State.setFlag_out (s : State) (f : Fld) (b : Bool) : (s.setFlag f b).out = s.out := rfl
@[simp] theorem State.setFlag_mem (s : State) (f : Fld) (b : Bool) : (s.setFlag f b).mem = s.mem := rfl
@[simp] theorem State.setFlag_boot (s : State) (f : Fld) (b : Bool) : (s.setFlag f b).boot = s.boot := rfl
@[simp] theorem State.setFlag_power (s : State) (f : Fld) (b : Bool) : (s.setFlag f b).power = s.power := rfl
@[simp] theorem State.setFlag_xlat (s : State) (f : Fld) (b : Bool) : (s.setFlag f b).xlat = s.xlat := rfl
@[simp] theorem State.setFlag_work (s : State) (f : Fld) (b : Bool) : (s.setFlag f b).work = s.work := rfl
@[simp] theorem State.setFlag_home (s : State) (f : Fld) (b : Bool) : (s.setFlag f b).home = s.home := rfl
@[simp] theorem State.setFlag_edge (s : State) (f : Fld) (b : Bool) : (s.setFlag f b).edge = s.edge := rfl
@[simp] theorem State.setFlag_fabric (s : State) (f : Fld) (b : Bool) : (s.setFlag f b).fabric = s.fabric := rfl
@[simp] theorem State.setFlag_nelar (s : State) (f : Fld) (b : Bool) : (s.setFlag f b).nelar = s.nelar := rfl
@[simp] theorem State.setFlag_security (s : State) (f : Fld) (b : Bool) : (s.setFlag f b).security = s.security := rfl
@[simp] theorem State.setFlag_coll (s : State) (f : Fld) (b : Bool) : (s.setFlag f b).coll = s.coll := rfl
@[simp] theorem State.setFlag_parser (s : State) (f : Fld) (b : Bool) : (s.setFlag f b).parser = s.parser := rfl
@[simp] theorem State.setFlag_ptus (s : State) (f : Fld) (b : Bool) : (s.setFlag f b).ptus = s.ptus := rfl
@[simp] theorem State.setFlag_tele (s : State) (f : Fld) (b : Bool) : (s.setFlag f b).tele = s.tele := rfl
@[simp] theorem State.setFlag_frozen (s : State) (f : Fld) (b : Bool) : (s.setFlag f b).frozen = s.frozen := rfl

/-! ### State.emit -/

@[simp] theorem State.emit_pending (s : State) (o : Out) : (s.emit o).pending = s.pending := rfl
@[simp] theorem State.emit_fresh (s : State) (o : Out) : (s.emit o).fresh = s.fresh := rfl
@[simp] theorem State.emit_regs (s : State) (o : Out) : (s.emit o).regs = s.regs := rfl
@[simp] theorem State.emit_mem (s : State) (o : Out) : (s.emit o).mem = s.mem := rfl
@[simp] theorem State.emit_boot (s : State) (o : Out) : (s.emit o).boot = s.boot := rfl
@[simp] theorem State.emit_power (s : State) (o : Out) : (s.emit o).power = s.power := rfl
@[simp] theorem State.emit_xlat (s : State) (o : Out) : (s.emit o).xlat = s.xlat := rfl
@[simp] theorem State.emit_work (s : State) (o : Out) : (s.emit o).work = s.work := rfl
@[simp] theorem State.emit_home (s : State) (o : Out) : (s.emit o).home = s.home := rfl
@[simp] theorem State.emit_edge (s : State) (o : Out) : (s.emit o).edge = s.edge := rfl
@[simp] theorem State.emit_fabric (s : State) (o : Out) : (s.emit o).fabric = s.fabric := rfl
@[simp] theorem State.emit_nelar (s : State) (o : Out) : (s.emit o).nelar = s.nelar := rfl
@[simp] theorem State.emit_security (s : State) (o : Out) : (s.emit o).security = s.security := rfl
@[simp] theorem State.emit_coll (s : State) (o : Out) : (s.emit o).coll = s.coll := rfl
@[simp] theorem State.emit_parser (s : State) (o : Out) : (s.emit o).parser = s.parser := rfl
@[simp] theorem State.emit_ptus (s : State) (o : Out) : (s.emit o).ptus = s.ptus := rfl
@[simp] theorem State.emit_tele (s : State) (o : Out) : (s.emit o).tele = s.tele := rfl
@[simp] theorem State.emit_frozen (s : State) (o : Out) : (s.emit o).frozen = s.frozen := rfl

/-! ### State.freshen -/

@[simp] theorem State.freshen_pending (s : State) : (s.freshen).pending = s.pending := rfl
@[simp] theorem State.freshen_out (s : State) : (s.freshen).out = s.out := rfl
@[simp] theorem State.freshen_regs (s : State) : (s.freshen).regs = s.regs := rfl
@[simp] theorem State.freshen_mem (s : State) : (s.freshen).mem = s.mem := rfl
@[simp] theorem State.freshen_boot (s : State) : (s.freshen).boot = s.boot := rfl
@[simp] theorem State.freshen_power (s : State) : (s.freshen).power = s.power := rfl
@[simp] theorem State.freshen_xlat (s : State) : (s.freshen).xlat = s.xlat := rfl
@[simp] theorem State.freshen_work (s : State) : (s.freshen).work = s.work := rfl
@[simp] theorem State.freshen_home (s : State) : (s.freshen).home = s.home := rfl
@[simp] theorem State.freshen_edge (s : State) : (s.freshen).edge = s.edge := rfl
@[simp] theorem State.freshen_fabric (s : State) : (s.freshen).fabric = s.fabric := rfl
@[simp] theorem State.freshen_nelar (s : State) : (s.freshen).nelar = s.nelar := rfl
@[simp] theorem State.freshen_security (s : State) : (s.freshen).security = s.security := rfl
@[simp] theorem State.freshen_coll (s : State) : (s.freshen).coll = s.coll := rfl
@[simp] theorem State.freshen_parser (s : State) : (s.freshen).parser = s.parser := rfl
@[simp] theorem State.freshen_ptus (s : State) : (s.freshen).ptus = s.ptus := rfl
@[simp] theorem State.freshen_tele (s : State) : (s.freshen).tele = s.tele := rfl
@[simp] theorem State.freshen_frozen (s : State) : (s.freshen).frozen = s.frozen := rfl

@[simp] theorem State.emit_out (s : State) (o : Out) : (s.emit o).out = s.out ++ [o] := rfl
@[simp] theorem State.freshen_fresh (s : State) : s.freshen.fresh = s.fresh + 1 := rfl

end Sys2Proof.Machine
end

