-- ==== Sys2Proof/Laws/Table.lean ====
section
/-! SUPPORT. Tables and memory: a read after a write, and the canonical forms that every write keeps. -/

namespace Sys2Proof.Machine

/-! ### Reading back -/

@[simp] theorem tget_nil {α : Type} (k : Nat) : tget k ([] : Tbl α) = none := rfl

theorem tget_tset_self {α : Type} (k : Nat) (v : α) (t : Tbl α) : tget k (tset k v t) = some v := by
  induction t with
  | nil => simp [tset, tget]
  | cons e t ih =>
    obtain ⟨k', v'⟩ := e
    simp only [tset]
    split
    · simp [tget]
    · split
      · simp [tget]
      · rename_i h1 h2
        have : k' ≠ k := fun h => h2 h.symm
        simp [tget, this, ih]

theorem tget_tset_ne {α : Type} {j k : Nat} (h : j ≠ k) (v : α) (t : Tbl α) : tget j (tset k v t) = tget j t := by
  induction t with
  | nil => simp [tset, tget, h.symm]
  | cons e t ih =>
    obtain ⟨k', v'⟩ := e
    simp only [tset]
    split
    · simp [tget, h.symm]
    · split
      · rename_i h1 h2
        subst h2
        simp [tget, h.symm]
      · simp [tget, ih]

theorem tget_tset {α : Type} (j k : Nat) (v : α) (t : Tbl α) :
    tget j (tset k v t) = if j = k then some v else tget j t := by
  split
  · rename_i h; subst h; exact tget_tset_self _ v t
  · rename_i h; exact tget_tset_ne h v t

theorem tget_terase_self {α : Type} (k : Nat) (t : Tbl α) : tget k (terase k t) = none := by
  induction t with
  | nil => rfl
  | cons e t ih =>
    obtain ⟨k', v'⟩ := e
    simp only [terase]
    split
    · exact ih
    · rename_i h; simp [tget, h, ih]

theorem tget_terase_ne {α : Type} {j k : Nat} (h : j ≠ k) (t : Tbl α) : tget j (terase k t) = tget j t := by
  induction t with
  | nil => rfl
  | cons e t ih =>
    obtain ⟨k', v'⟩ := e
    simp only [terase]
    split
    · rename_i h1; subst h1; simp [tget, ih, h.symm]
    · simp [tget, ih]

/-! ### Rising keys -/

/-- Rising keys, as a relation between the entries. -/
theorem sortedKeys_iff {α : Type} (t : Tbl α) :
    sortedKeys t = true ↔ t.Pairwise (fun a b => a.1 < b.1) := by
  induction t with
  | nil => simp [sortedKeys]
  | cons a t ih =>
    cases t with
    | nil => simp [sortedKeys]
    | cons b t =>
      obtain ⟨ka, va⟩ := a
      obtain ⟨kb, vb⟩ := b
      simp only [sortedKeys, Bool.and_eq_true, decide_eq_true_eq, ih]
      constructor
      · rintro ⟨h, hp⟩
        refine List.pairwise_cons.2 ⟨?_, hp⟩
        intro c hc
        rcases List.mem_cons.1 hc with rfl | hc
        · exact h
        · exact lt_trans h ((List.pairwise_cons.1 hp).1 c hc)
      · intro hp
        exact ⟨(List.pairwise_cons.1 hp).1 _ (List.mem_cons_self ..), (List.pairwise_cons.1 hp).2⟩

theorem mem_tset {α : Type} {k : Nat} {v : α} {t : Tbl α} {e : Nat × α} (h : e ∈ tset k v t) : e = (k, v) ∨ e ∈ t := by
  induction t with
  | nil => simpa [tset] using h
  | cons a t ih =>
    obtain ⟨k', v'⟩ := a
    simp only [tset] at h
    split at h
    · simpa using h
    · split at h
      · rcases List.mem_cons.1 h with h | h
        · exact .inl h
        · exact .inr (List.mem_cons_of_mem _ h)
      · rcases List.mem_cons.1 h with h | h
        · exact .inr (by simp [h])
        · rcases ih h with h | h
          · exact .inl h
          · exact .inr (List.mem_cons_of_mem _ h)

theorem mem_terase {α : Type} {k : Nat} {t : Tbl α} {e : Nat × α} (h : e ∈ terase k t) : e ∈ t := by
  induction t with
  | nil => simp [terase] at h
  | cons a t ih =>
    obtain ⟨k', v'⟩ := a
    simp only [terase] at h
    split at h
    · exact List.mem_cons_of_mem _ (ih h)
    · rcases List.mem_cons.1 h with h | h
      · simp [h]
      · exact List.mem_cons_of_mem _ (ih h)

theorem sortedKeys_tset {α : Type} (k : Nat) (v : α) {t : Tbl α} (h : sortedKeys t = true) : sortedKeys (tset k v t) = true := by
  rw [sortedKeys_iff] at h ⊢
  induction t with
  | nil => simp [tset]
  | cons a t ih =>
    obtain ⟨k', v'⟩ := a
    have hp := List.pairwise_cons.1 h
    simp only [tset]
    split
    · rename_i hk
      refine List.pairwise_cons.2 ⟨?_, h⟩
      intro c hc
      rcases List.mem_cons.1 hc with rfl | hc
      · exact hk
      · exact lt_trans hk (hp.1 c hc)
    · split
      · rename_i hk
        subst hk
        exact List.pairwise_cons.2 ⟨hp.1, hp.2⟩
      · rename_i h1 h2
        refine List.pairwise_cons.2 ⟨?_, ih hp.2⟩
        intro c hc
        rcases mem_tset hc with rfl | hc
        · show k' < k
          omega
        · exact hp.1 c hc

theorem sortedKeys_terase {α : Type} (k : Nat) {t : Tbl α} (h : sortedKeys t = true) : sortedKeys (terase k t) = true := by
  rw [sortedKeys_iff] at h ⊢
  induction t with
  | nil => simp [terase]
  | cons a t ih =>
    obtain ⟨k', v'⟩ := a
    have hp := List.pairwise_cons.1 h
    simp only [terase]
    split
    · exact ih hp.2
    · exact List.pairwise_cons.2 ⟨fun c hc => hp.1 c (mem_terase hc), ih hp.2⟩

theorem sortedKeys_filter {α : Type} (p : Nat × α → Bool) {t : Tbl α} (h : sortedKeys t = true) :
    sortedKeys (t.filter p) = true := by
  rw [sortedKeys_iff] at h ⊢
  exact h.filter p

/-! ### Memory -/

theorem Memory.wf_iff (m : Tbl Byte) :
    Memory.wf m = true ↔ sortedKeys m = true ∧ ∀ c ∈ m, c.2 ≠ 0#8 := by
  simp [Memory.wf]

theorem memBytes_mem {a : Nat} {bs : List Byte} {c : Nat × Byte} (h : c ∈ memBytes a bs) :
    a ≤ c.1 ∧ c.1 < a + bs.length ∧ c.2 ≠ 0#8 := by
  induction bs generalizing a with
  | nil => simp [memBytes] at h
  | cons b bs ih =>
    simp only [memBytes] at h
    split at h
    · have := ih h
      simp only [List.length_cons]
      refine ⟨by omega, by omega, this.2.2⟩
    · rename_i hb
      rcases List.mem_cons.1 h with rfl | h
      · simp only [List.length_cons]
        exact ⟨le_refl _, by omega, hb⟩
      · have := ih h
        simp only [List.length_cons]
        refine ⟨by omega, by omega, this.2.2⟩

theorem memBytes_sorted (a : Nat) (bs : List Byte) : (memBytes a bs).Pairwise (fun x y => x.1 < y.1) := by
  induction bs generalizing a with
  | nil => simp [memBytes]
  | cons b bs ih =>
    simp only [memBytes]
    split
    · exact ih _
    · refine List.pairwise_cons.2 ⟨?_, ih _⟩
      intro c hc
      have := (memBytes_mem hc).1
      show a < c.1
      omega

theorem tget_append {α : Type} (k : Nat) (t u : Tbl α) : tget k (t ++ u) = (tget k t).or (tget k u) := by
  induction t with
  | nil => simp
  | cons e t ih =>
    obtain ⟨k', v'⟩ := e
    simp only [List.cons_append, tget]
    split <;> simp_all

theorem tget_filter {α : Type} (p : Nat → Bool) (k : Nat) (t : Tbl α) :
    tget k (t.filter (fun c => p c.1)) = if p k then tget k t else none := by
  induction t with
  | nil => simp
  | cons e t ih =>
    obtain ⟨k', v'⟩ := e
    by_cases hk : k' = k
    · subst hk
      by_cases hp : p k' <;> simp [tget, hp, ih]
    · by_cases hp : p k' <;> simp [tget, hp, hk, ih]

theorem tget_memBytes (k a : Nat) (bs : List Byte) :
    (tget k (memBytes a bs)).getD 0#8 = if a ≤ k then bs.getD (k - a) 0#8 else 0#8 := by
  induction bs generalizing a with
  | nil => simp [memBytes]
  | cons b bs ih =>
    simp only [memBytes]
    by_cases hk : a = k
    · subst hk
      have hne : ∀ c, tget a (memBytes (a + 1) c) = none := by
        intro c
        rcases h : tget a (memBytes (a + 1) c) with _ | v
        · rfl
        · exfalso
          have : ∀ (t : Tbl Byte), tget a t = some v → (a, v) ∈ t := by
            intro t
            induction t with
            | nil => simp
            | cons e t iht =>
              obtain ⟨k', v'⟩ := e
              simp only [tget]
              split
              · rename_i h1; intro h2; subst h1; simp_all
              · intro h2; exact List.mem_cons_of_mem _ (iht h2)
          have := (memBytes_mem (this _ h)).1
          simp at this
      split
      · rename_i hb; simp [hne, hb]
      · simp [tget]
    · split
      · rw [ih]
        by_cases h : a ≤ k
        · have h1 : a + 1 ≤ k := by omega
          have h2 : k - a = (k - (a + 1)) + 1 := by omega
          rw [if_pos h1, if_pos h, h2]
          simp
        · have h1 : ¬ a + 1 ≤ k := by omega
          rw [if_neg h1, if_neg h]
      · simp only [tget, hk, if_false]
        rw [ih]
        by_cases h : a ≤ k
        · have h1 : a + 1 ≤ k := by omega
          have h2 : k - a = (k - (a + 1)) + 1 := by omega
          rw [if_pos h1, if_pos h, h2]
          simp
        · have h1 : ¬ a + 1 ≤ k := by omega
          rw [if_neg h1, if_neg h]

theorem tget_memBytes_out {k a : Nat} {bs : List Byte} (h : k < a ∨ a + bs.length ≤ k) : tget k (memBytes a bs) = none := by
  induction bs generalizing a with
  | nil => rfl
  | cons b bs ih =>
    simp only [List.length_cons] at h
    have ih' := ih (a := a + 1) (by omega)
    simp only [memBytes]
    split
    · exact ih'
    · have : a ≠ k := by omega
      simp [tget, this, ih']

/-- A read of one byte after a write: the byte written there, else what was there. -/
theorem memGet_memWrite (m : Tbl Byte) (a : Nat) (bs : List Byte) (k : Nat) :
    memGet (memWrite m a bs) k = if a ≤ k ∧ k < a + bs.length then bs.getD (k - a) 0#8 else memGet m k := by
  have h1 := tget_filter (fun x => decide (x < a)) k m
  have h2 := tget_filter (fun x => decide (a + bs.length ≤ x)) k m
  simp only [memGet, memWrite, tget_append, h1, h2]
  by_cases hlo : k < a
  · have : ¬ (a ≤ k ∧ k < a + bs.length) := by omega
    have h3 : ¬ (a + bs.length ≤ k) := by omega
    simp [hlo, this, h3, tget_memBytes_out (bs := bs) (Or.inl hlo)]
  · by_cases hhi : a + bs.length ≤ k
    · have : ¬ (a ≤ k ∧ k < a + bs.length) := by omega
      simp [hlo, hhi, this, tget_memBytes_out (bs := bs) (Or.inr hhi)]
    · have hin : a ≤ k ∧ k < a + bs.length := by omega
      have := tget_memBytes k a bs
      simp only [hin.1, if_true] at this
      simp [hlo, hhi, hin, this]

/-- A read of one byte after memory was zeroed from an address up. -/
theorem memGet_memClear (m : Tbl Byte) (a n k : Nat) :
    memGet (memClear m a n) k = if a ≤ k ∧ k < a + n then 0#8 else memGet m k := by
  have h := tget_filter (fun x => !(decide (a ≤ x) && decide (x < a + n))) k m
  simp only [memGet, memClear, h]
  by_cases hin : a ≤ k ∧ k < a + n
  · simp [hin]
  · have : (!(decide (a ≤ k) && decide (k < a + n))) = true := by
      simp only [Bool.not_eq_true', Bool.and_eq_false_iff, decide_eq_false_iff_not]
      omega
    simp [hin, this]

/-- Bytes read from an address up are the single bytes there. -/
theorem memRead_eq (m : Tbl Byte) (a n : Nat) : memRead m a n = (List.range n).map (fun i => memGet m (a + i)) := by
  have h := fun k => tget_filter (fun x => decide (a ≤ x) && decide (x < a + n)) k m
  simp only [memRead, memGet, h]
  apply List.map_congr_left
  intro i hi
  have := List.mem_range.1 hi
  simp [this]

/-- A write keeps the canonical form of memory. -/
theorem memWrite_wf {m : Tbl Byte} (h : Memory.wf m = true) (a : Nat) (bs : List Byte) : Memory.wf (memWrite m a bs) = true := by
  rw [Memory.wf_iff, sortedKeys_iff] at h ⊢
  obtain ⟨hs, hz⟩ := h
  constructor
  · simp only [memWrite]
    refine List.pairwise_append.2 ⟨hs.filter _, List.pairwise_append.2 ⟨memBytes_sorted a bs, hs.filter _, ?_⟩, ?_⟩
    · intro x hx y hy
      have h1 := (memBytes_mem hx).2.1
      have h2 : a + bs.length ≤ y.1 := by simpa using (List.mem_filter.1 hy).2
      omega
    · intro x hx y hy
      have h1 : x.1 < a := by simpa using (List.mem_filter.1 hx).2
      rcases List.mem_append.1 hy with hy | hy
      · have := (memBytes_mem hy).1
        omega
      · have h2 : a + bs.length ≤ y.1 := by simpa using (List.mem_filter.1 hy).2
        omega
  · intro c hc
    simp only [memWrite, List.mem_append] at hc
    rcases hc with hc | hc | hc
    · exact hz c (List.mem_filter.1 hc).1
    · exact (memBytes_mem hc).2.2
    · exact hz c (List.mem_filter.1 hc).1

/-- Zeroing keeps the canonical form of memory. -/
theorem memClear_wf {m : Tbl Byte} (h : Memory.wf m = true) (a n : Nat) : Memory.wf (memClear m a n) = true := by
  rw [Memory.wf_iff] at h ⊢
  refine ⟨sortedKeys_filter _ h.1, ?_⟩
  intro c hc
  exact h.2 c (List.mem_filter.1 hc).1

/-! ### Register fields -/

/-- A field reads back what was written to it, at its width. -/
@[simp] theorem State.get_set_self (s : State) (f : Fld) (v : Nat) : (s.set f v).get f = v % 2 ^ f.width := by
  unfold State.get State.set
  dsimp only
  split
  · rename_i h; rw [tget_terase_self]; simpa using h.symm
  · rw [tget_tset_self]; rfl

/-- A write to a field leaves the fields of other keys alone. -/
theorem State.get_set_ne (s : State) {f g : Fld} (v : Nat) (h : g.key ≠ f.key) : (s.set f v).get g = s.get g := by
  unfold State.get State.set
  dsimp only
  split
  · rw [tget_terase_ne h]
  · rw [tget_tset_ne h]

@[simp] theorem State.get_emit (s : State) (o : Out) (f : Fld) : (s.emit o).get f = s.get f := rfl
@[simp] theorem State.get_freshen (s : State) (f : Fld) : s.freshen.get f = s.get f := rfl

/-- Setting a field keeps the keys of the register table rising. -/
theorem State.set_sorted {s : State} (h : sortedKeys s.regs = true) (f : Fld) (v : Nat) :
    sortedKeys (s.set f v).regs = true := by
  unfold State.set
  dsimp only
  split
  · exact sortedKeys_terase _ h
  · exact sortedKeys_tset _ _ h

end Sys2Proof.Machine
end

