-- ==== Sys2Proof/Laws/Regs.lean ====
section
/-! SUPPORT. Register fields at the level of the table of fields, so that a proof about a chain of updates never unfolds a
record update: rewrite State.get to rget and the table of an update to rset, then read back. -/

namespace Sys2Proof.Machine

/-- A field's value in a table of register fields. -/
def rget (t : Tbl Nat) (f : Fld) : Nat := (tget f.key t).getD f.reset

/-- The table with a field set. -/
def rset (t : Tbl Nat) (f : Fld) (v : Nat) : Tbl Nat :=
  if v % 2 ^ f.width = f.reset then terase f.key t else tset f.key (v % 2 ^ f.width) t

theorem State.get_eq (s : State) (f : Fld) : s.get f = rget s.regs f := rfl

@[simp] theorem State.set_regs (s : State) (f : Fld) (v : Nat) : (s.set f v).regs = rset s.regs f v := rfl
@[simp] theorem State.count_regs (s : State) (f : Fld) (n : Nat) :
    (s.count f n).regs = rset s.regs f (min (rget s.regs f + n) (2 ^ f.width - 1)) := rfl
@[simp] theorem State.wrap_regs (s : State) (f : Fld) (n : Nat) : (s.wrap f n).regs = rset s.regs f (rget s.regs f + n) := rfl
@[simp] theorem State.less_regs (s : State) (f : Fld) (n : Nat) : (s.less f n).regs = rset s.regs f (rget s.regs f - n) := rfl
@[simp] theorem State.setFlag_regs (s : State) (f : Fld) (b : Bool) :
    (s.setFlag f b).regs = rset s.regs f (if b then 1 else 0) := rfl

@[simp] theorem rget_rset_self (t : Tbl Nat) (f : Fld) (v : Nat) : rget (rset t f v) f = v % 2 ^ f.width :=
  State.get_set_self { State.reset with regs := t } f v

theorem rget_rset_ne (t : Tbl Nat) {f g : Fld} (v : Nat) (h : g.key ≠ f.key) : rget (rset t f v) g = rget t g :=
  State.get_set_ne { State.reset with regs := t } v h

/-- A flag is set exactly when its field is not 0. -/
theorem State.flag_eq (s : State) (f : Fld) : s.flag f = (rget s.regs f != 0) := rfl

/-- Whether the chip is running depends on the start, the freeze and one field. -/
theorem State.live_congr {s t : State} (h1 : t.boot = s.boot) (h2 : t.frozen = s.frozen)
    (h3 : t.get R.BOOT_STAT_STATE = s.get R.BOOT_STAT_STATE) : t.live = s.live := by
  simp only [State.live, State.bootState, h1, h2, h3]

/-- A step of the running chip runs. -/
@[simp] theorem State.whenLive_live {s : State} (h : s.live = true) (f : State → State) : s.whenLive f = f s := by
  simp [State.whenLive, h]

/-- A step of the running chip has no effect while the chip does not run. -/
@[simp] theorem State.whenLive_dead {s : State} (h : s.live = false) (f : State → State) : s.whenLive f = s := by
  simp [State.whenLive, h]

end Sys2Proof.Machine
end

