-- ==== Sys2Proof/WellFormed.lean ====
section
/-! DEFINITION. Well-formed commands: every number within the width or count that the spec gives its field. -/

namespace Sys2Proof

def At.ok (c : At) : Bool := decide (c.tile < 48) && decide (c.ctx < 4)
def Hdr.ok (h : Hdr) : Bool := decide (h.chip < 2 ^ 15) && decide (h.reqId < 2 ^ 32) && decide (h.length < 2 ^ 16)
def HomeReq.ok (r : HomeReq) : Bool :=
  decide (r.dest < 2 ^ 64) && decide (r.partition < 4096) && decide (r.src < 2 ^ 15) && decide (r.tag < 2 ^ 17) &&
    decide (r.tense < 256) && decide (r.port < 144)
def Resp.ok (r : Resp) : Bool := decide (r.src < 2 ^ 15) && decide (r.tag < 2 ^ 17)
def DirMsg.ok (m : DirMsg) : Bool :=
  decide (m.src < 2 ^ 15) && decide (m.tag < 2 ^ 17) && decide (m.partition < 4096) && decide (m.page < 2 ^ 31) &&
    decide (m.firstBlock < 512) && decide (m.lastBlock < 512)
def CollTag.ok (t : CollTag) : Bool :=
  decide (t.src < 2 ^ 15) && decide (t.partition < 4096) && decide (t.group < 2 ^ 14) && decide (t.gen < 16) &&
    decide (t.inst < 2 ^ 16) && decide (t.phase < 8) && decide (t.chunk < 2 ^ 32)
def Direct.ok (d : Direct) : Bool := decide (d.port < 32) && decide (d.addr < 2 ^ 64)
def CtlReq.ok (c : CtlReq) : Bool := decide (c.port < 32) && decide (c.offset < 2 ^ 28)
def LinkCtl.ok (m : LinkCtl) : Bool :=
  decide (m.src < 2 ^ 15) && decide (m.fibre < 32) && decide (m.plane < 32) && decide (m.line < 64) && decide (m.vc < 8)
def Ring.ok (r : Ring) : Bool := decide (r.fibre < 32) && decide (r.line < 64)
/-- A 66-bit block: its sync header and its 64 bits (R362). -/
def blockOk (b : Nat × Nat) : Bool := decide (b.1 < 4) && decide (b.2 < 2 ^ 64)
def LaneSeen.ok (l : LaneSeen) : Bool := decide (l.am < 2 ^ 64) && decide (l.scr < 2 ^ 58)
def Straps.ok (p : Straps) : Bool :=
  decide (p.mode < 8) && decide (p.posX < 64) && decide (p.posY < 64) && decide (p.posZ < 8)

/-- Whether a command's operands lie within their fields. -/
def Instr.wf : Instr → Bool
  | .porNRelease straps _ _ => Straps.ok straps
  | .configurationLock => true
  | .wrstNAssert _ => true
  | .coolOkAssert => true
  | .coolOkDeassert => true
  | .coolOkLossTimeout => true
  | .junctionBrakeTemperature celsius => decide (celsius < 256)
  | .junctionLimitTemperature celsius => decide (celsius < 256)
  | .railOutOfLimits rail millivolts => decide (rail < 16) && decide (millivolts < 65536)
  | .epoNAssert => true
  | .freezeNAssert _ => true
  | .pwrbrakeNAssert => true
  | .powerSample watts celsius _ => decide (watts < 65536) && decide (celsius < 256)
  | .overCapSamples => true
  | .brakeExit => true
  | .fatalError _ => true
  | .lsmReady lsm => decide (lsm < 10)
  | .lsmFault lsm => decide (lsm < 10)
  | .lsmRegisterAccessFail lsm => decide (lsm < 10)
  | .biasEvaluation _ => true
  | .lsmRetireWrite lsm => decide (lsm < 10)
  | .coldSearchDone fibre _ _ => decide (fibre < 32)
  | .fabricReadyAssert => true
  | .ringLockLoss ring => Ring.ok ring
  | .relockDone ring _ => Ring.ok ring
  | .lockSupervisorCheck _ => true
  | .signalDetect fibre line => decide (fibre < 32) && decide (line < 64)
  | .lockMiss fibre line => decide (fibre < 32) && decide (line < 64)
  | .burstReceive fibre line symbols => decide (fibre < 32) && decide (line < 64) && symbols.all (fun v => decide (v < 4))
  | .burstOpen fibre line => decide (fibre < 32) && decide (line < 64)
  | .keepaliveTimer fibre line => decide (fibre < 32) && decide (line < 64)
  | .powerReportTimer fibre line w => decide (fibre < 32) && decide (line < 64) && decide (w < 65536)
  | .hopLost fibre line _ => decide (fibre < 32) && decide (line < 64)
  | .hopUpTimer fibre line => decide (fibre < 32) && decide (line < 64)
  | .ack m => LinkCtl.ok m
  | .nack m => LinkCtl.ok m
  | .credit m => LinkCtl.ok m
  | .creditReq m => LinkCtl.ok m
  | .creditReturn m => LinkCtl.ok m
  | .lendIdleTimeout fibre line vc => decide (fibre < 32) && decide (line < 64) && decide (vc < 6)
  | .power m => LinkCtl.ok m
  | .lineAlarm m => LinkCtl.ok m
  | .seqQuery m => LinkCtl.ok m
  | .seqReply m => LinkCtl.ok m
  | .hopDrain m => LinkCtl.ok m
  | .hopDrainDone m => LinkCtl.ok m
  | .hopDown m => LinkCtl.ok m
  | .hopUp m => LinkCtl.ok m
  | .hopUpAck m => LinkCtl.ok m
  | .keepalive m => LinkCtl.ok m
  | .retryTimeout fibre line => decide (fibre < 32) && decide (line < 64)
  | .hopRetryExhausted fibre line => decide (fibre < 32) && decide (line < 64)
  | .optDrainStart fibre => decide (fibre < 32)
  | .optDrainReturn fibre => decide (fibre < 32)
  | .fibreDrainTimeout fibre => decide (fibre < 32)
  | .frameReceive fibre line => decide (fibre < 32) && decide (line < 64)
  | .bufferEccError _ => true
  | .frameForward _ => true
  | .escapeTimeout _ => true
  | .rd r _ => HomeReq.ok r
  | .wr r _ _ => HomeReq.ok r
  | .atomic r _ _ _ _ => HomeReq.ok r
  | .inval r w => HomeReq.ok r && w.all (fun t => decide (t < 2 ^ 17))
  | .ctr r _ _ _ => HomeReq.ok r
  | .clause r _ _ => HomeReq.ok r
  | .rdResp r _ _ => Resp.ok r
  | .wrResp r => Resp.ok r
  | .atomicResp r _ => Resp.ok r
  | .invalAck r => Resp.ok r
  | .ctrResp r _ => Resp.ok r
  | .clauseDone r _ _ addr => Resp.ok r && decide (addr < 2 ^ 64)
  | .dirRegister m => DirMsg.ok m
  | .dirUnregister m => DirMsg.ok m
  | .pmPrepare m => DirMsg.ok m
  | .pmUpdate m => DirMsg.ok m
  | .pmRelease m => DirMsg.ok m
  | .replPlace m => DirMsg.ok m
  | .replInval m => DirMsg.ok m
  | .replDrop m => DirMsg.ok m
  | .rehomeOffer m => DirMsg.ok m
  | .dirResp _ _ m => DirMsg.ok m
  | .req _ _ _ => true
  | .snp _ _ => true
  | .half _ _ => true
  | .done _ => true
  | .fin _ => true
  | .retry _ => true
  | .snoopReissue _ => true
  | .holdExpiry tile _ => decide (tile < 50)
  | .apertureRead d => Direct.ok d
  | .apertureWrite d _ => Direct.ok d
  | .apertureAtomic d _ _ _ => Direct.ok d
  | .doorbell c value => CtlReq.ok c && decide (value < 2 ^ 64)
  | .cqHeadWrite c value => CtlReq.ok c && decide (value < 2 ^ 64)
  | .controlRegionRead c => CtlReq.ok c
  | .controlCounterWrite c value => CtlReq.ok c && decide (value < 2 ^ 64)
  | .controlRegionAtomic c _ _ _ => CtlReq.ok c
  | .edgeDeviceEnumeration port _ _ _ _ _ => decide (port < 36)
  | .edgeLinkLoss port => decide (port < 32)
  | .ideMacFailure port => decide (port < 36)
  | .ideKeyRefresh port => decide (port < 36)
  | .bisnp slot _ => decide (slot < 16)
  | .cxlMemCompletion port _ _ _ => decide (port < 36)
  | .edgeDisable port => decide (port < 32)
  | .edgeEnable port => decide (port < 32)
  | .edgeDrainTimeout port => decide (port < 32)
  | .edgeCfgAccess port value => decide (port < 32) && decide (value < 2 ^ 64)
  | .edgeCfgDone port _ => decide (port < 32)
  | .expanderLinkDown port => decide (port < 36)
  | .expanderReturnTimeout port => decide (port < 36)
  | .gddrTrainingDone site _ _ _ _ => decide (site < 16)
  | .gddrRetrain site _ => decide (site < 16)
  | .nelarLinkActive link locked lanes _ _ => decide (link < 2) && decide (locked < 256) && lanes.all LaneSeen.ok
  | .nelarLinkDown link => decide (link < 2)
  | .flitReceive link blocks => decide (link < 2) && blocks.all blockOk
  | .nackFlit link blocks => decide (link < 2) && blocks.all blockOk
  | .replayTimeout link => decide (link < 2)
  | .nelarReplayExhausted link => decide (link < 2)
  | .nelarDisable link => decide (link < 2)
  | .nelarEnable link => decide (link < 2)
  | .nelarDrainTimeout link => decide (link < 2)
  | .regRead h addr _ _ => Hdr.ok h && decide (addr < 2 ^ 64)
  | .regWrite h addr _ _ _ => Hdr.ok h && decide (addr < 2 ^ 64)
  | .registerWrite _ addr value => decide (addr < 2 ^ 64) && decide (value < 2 ^ 64)
  | .partCreate h _ => Hdr.ok h
  | .partDrain h partition _ => Hdr.ok h && decide (partition < 4096)
  | .partitionDisabled partition => decide (partition < 4096)
  | .partitionDrainTimeout partition => decide (partition < 4096)
  | .weightLoad h _ => Hdr.ok h
  | .attestReq h _ partition _ _ => Hdr.ok h && decide (partition < 4096)
  | .mapInstall h _ => Hdr.ok h
  | .zeroFillDone _ => true
  | .mapWithdraw h _ => Hdr.ok h
  | .withdrawalAcked _ => true
  | .faultReject h partition page _ => Hdr.ok h && decide (partition < 4096) && decide (page < 2147483648)
  | .winInstall h partition slot _ _ _ => Hdr.ok h && decide (partition < 4096) && decide (slot < 16)
  | .winRemove h partition slot _ _ => Hdr.ok h && decide (partition < 4096) && decide (slot < 16)
  | .queueCreate h _ => Hdr.ok h
  | .queueDrain h queue _ => Hdr.ok h && decide (queue < 32768)
  | .queueDisabled queue => decide (queue < 32768)
  | .queueDrainTimeout queue => decide (queue < 32768)
  | .groupCreate h _ => Hdr.ok h
  | .groupReset h group partition _ => Hdr.ok h && decide (group < 16384) && decide (partition < 4096)
  | .groupDestroy h group partition _ => Hdr.ok h && decide (group < 16384) && decide (partition < 4096)
  | .modeSelect h _ => Hdr.ok h
  | .drainedPoint => true
  | .modeChangeTimeout => true
  | .capSet h _ _ _ => Hdr.ok h
  | .freezeRead h _ _ _ => Hdr.ok h
  | .udpDatagram port _ _ _ _ _ _ => decide (port < 2)
  | .arpRequest port _ _ _ => decide (port < 2)
  | .reassemblyTimeout port _ _ => decide (port < 2)
  | .smbusRegisterWrite _ _ addr value => decide (addr < 2 ^ 64) && decide (value < 2 ^ 64)
  | .smbusRegisterRead _ _ addr => decide (addr < 2 ^ 64)
  | .extest _ => true
  | .sample _ => true
  | .idcode => true
  | .regrd addr => decide (addr < 2 ^ 64)
  | .regwr addr value => decide (addr < 2 ^ 64) && decide (value < 2 ^ 64)
  | .frzaddr _ => true
  | .frzdata => true
  | .bypass _ => true
  | .descriptorFetch queue => decide (queue < 32768)
  | .clauseAccept queue => decide (queue < 32768)
  | .pendingTriggerFree queue => decide (queue < 32768)
  | .triggerRelease _ => true
  | .queueTimeout _ => true
  | .clausePlace _ => true
  | .segmentStart _ => true
  | .clauseResume _ => true
  | .parkTimeout _ => true
  | .batchTimeout => true
  | .batchFull => true
  | .chunkComplete _ chunk => decide (chunk < 4294967296)
  | .clauseComplete _ => true
  | .copy _ => true
  | .copy2d _ => true
  | .fill _ => true
  | .gather _ => true
  | .scatter _ _ => true
  | .atomicBatch _ => true
  | .reduce _ chunk => decide (chunk < 4294967296)
  | .allreduce _ chunk => decide (chunk < 4294967296)
  | .reduceScatter _ chunk => decide (chunk < 4294967296)
  | .allgather _ chunk => decide (chunk < 4294967296)
  | .broadcast _ chunk => decide (chunk < 4294967296)
  | .alltoall _ chunk => decide (chunk < 4294967296)
  | .alltoallv _ chunk => decide (chunk < 4294967296)
  | .transform _ => true
  | .kernel _ => true
  | .fenceClause _ => true
  | .counterOp _ => true
  | .wait _ => true
  | .waitSatisfied _ => true
  | .waitTimeout _ => true
  | .slotReservationGrant partition => decide (partition < 4096)
  | .collReadySend group => decide (group < 16384)
  | .collData t _ => CollTag.ok t
  | .collCheck t _ => CollTag.ok t
  | .collCounts t _ => CollTag.ok t
  | .collReady t _ => CollTag.ok t
  | .collCheckResult t _ => CollTag.ok t
  | .collCheckExhausted group peer _ chunk => decide (group < 16384) && decide (peer < 32768) && decide (chunk < 4294967296)
  | .collAbort t _ origin => CollTag.ok t && decide (origin < 32768)
  | .stallTimeout group => decide (group < 16384)
  | .epochEnd _ => true
  | .migrationCopyDone partition page => decide (partition < 4096) && decide (page < 2147483648)
  | .migrationQuiesce partition page => decide (partition < 4096) && decide (page < 2147483648)
  | .quiesceTimeout partition page => decide (partition < 4096) && decide (page < 2147483648)
  | .migrationRetry partition page => decide (partition < 4096) && decide (page < 2147483648)
  | .migrationFinish partition page => decide (partition < 4096) && decide (page < 2147483648)
  | .transformStart unit => decide (unit < 4)
  | .pilotCheck unit _ => decide (unit < 4)
  | .warmCalibration unit => decide (unit < 4)
  | .coldCalibrationDone unit => decide (unit < 4)
  | .carrierLoss unit => decide (unit < 4)
  | .carrierReturn unit => decide (unit < 4)
  | .carrierLossTimeout unit => decide (unit < 4)
  | .ptuDisable unit => decide (unit < 4)
  | .ptuEnable unit => decide (unit < 4)
  | .ptuDrainTimeout unit => decide (unit < 4)
  | .tileDisable phys => decide (phys < 50)
  | .tileEnable phys => decide (phys < 50)
  | .tileDrainTimeout phys => decide (phys < 50)
  | .runaheadIssue c _ => At.ok c
  | .transactionTimeout _ => true
  | .faultMarkLost chip => decide (chip < 32768)
  | .faultMarkReachable chip => decide (chip < 32768)
  | .xlatPmProbeWrite _ value => decide (value < 2 ^ 64)
  | .conjGroupSelWrite _ value => decide (value < 2 ^ 64)
  | .parserProbeWrite _ value => decide (value < 2 ^ 64)
  | .secVlogSelWrite _ value => decide (value < 2 ^ 64)
  | .faultReachSelWrite _ value => decide (value < 2 ^ 64)
  | .faultLogSelWrite _ value => decide (value < 2 ^ 64)
  | .teleSnapHist _ => true
  | .teleSnapPorts => true
  | .teleSnapClearPorts => true
  | .teleHcfgWrite hist value => decide (hist < 16) && decide (value < 2 ^ 64)
  | .teleSampleTimer => true
  | .teleStreamInterval => true
  | .add c _ => At.ok c
  | .sub c _ => At.ok c
  | .and c _ => At.ok c
  | .or c _ => At.ok c
  | .xor c _ => At.ok c
  | .shl c _ => At.ok c
  | .shr c _ => At.ok c
  | .sra c _ => At.ok c
  | .mul c _ => At.ok c
  | .mulhu c _ => At.ok c
  | .divu c _ => At.ok c
  | .div c _ => At.ok c
  | .min c _ => At.ok c
  | .max c _ => At.ok c
  | .minu c _ => At.ok c
  | .maxu c _ => At.ok c
  | .slt c _ => At.ok c
  | .sltu c _ => At.ok c
  | .popc c _ => At.ok c
  | .addi c _ => At.ok c
  | .andi c _ => At.ok c
  | .ori c _ => At.ok c
  | .xori c _ => At.ok c
  | .shli c _ => At.ok c
  | .shri c _ => At.ok c
  | .srai c _ => At.ok c
  | .slti c _ => At.ok c
  | .lui c _ => At.ok c
  | .seth c _ => At.ok c
  | .beq c _ => At.ok c
  | .bne c _ => At.ok c
  | .blt c _ => At.ok c
  | .bge c _ => At.ok c
  | .bltu c _ => At.ok c
  | .bgeu c _ => At.ok c
  | .j c _ => At.ok c
  | .jal c _ => At.ok c
  | .jr c _ => At.ok c
  | .ld c _ _ => At.ok c
  | .lds c _ _ => At.ok c
  | .st c _ => At.ok c
  | .fence c _ => At.ok c
  | .vld c _ _ => At.ok c
  | .vst c _ => At.ok c
  | .vadd c _ => At.ok c
  | .vsub c _ => At.ok c
  | .vmul c _ => At.ok c
  | .vfma c _ => At.ok c
  | .vmin c _ => At.ok c
  | .vmax c _ => At.ok c
  | .vabs c _ => At.ok c
  | .vfmaw c _ => At.ok c
  | .vand c _ => At.ok c
  | .vor c _ => At.ok c
  | .vxor c _ => At.ok c
  | .vshl c _ => At.ok c
  | .vshr c _ => At.ok c
  | .vsra c _ => At.ok c
  | .vsel c _ => At.ok c
  | .vmov c _ => At.ok c
  | .vcmp c _ _ => At.ok c
  | .vcvt c _ _ => At.ok c
  | .vbcast c _ => At.ok c
  | .vins c _ => At.ok c
  | .vext c _ => At.ok c
  | .vrsum c _ => At.ok c
  | .vrmax c _ => At.ok c
  | .vrmin c _ => At.ok c
  | .vrmaxi c _ => At.ok c
  | .vrmini c _ => At.ok c
  | .pand c _ => At.ok c
  | .por c _ => At.ok c
  | .pxor c _ => At.ok c
  | .pnot c _ => At.ok c
  | .pall c _ => At.ok c
  | .pnone c _ => At.ok c
  | .plen c _ => At.ok c
  | .pcnt c _ => At.ok c
  | .mma c _ _ => At.ok c
  | .mzero c _ => At.ok c
  | .mld c _ _ => At.ok c
  | .mst c _ => At.ok c
  | .amo c _ => At.ok c
  | .scfg c _ _ => At.ok c
  | .spop c _ _ => At.ok c
  | .spops c _ _ => At.ok c
  | .sskip c _ => At.ok c
  | .scan c _ => At.ok c
  | .srem c _ => At.ok c
  | .ctrld c _ => At.ok c
  | .ctradd c _ => At.ok c
  | .ctrwait c _ => At.ok c
  | .ctrwaitWake c => At.ok c
  | .waitLimitExpiry c => At.ok c
  | .ctrset c _ => At.ok c
  | .submit c _ _ => At.ok c
  | .lex c _ => At.ok c
  | .csrr c _ => At.ok c
  | .csrw c _ => At.ok c
  | .exit c _ => At.ok c
  | .budgetExpiry c => At.ok c
  | .porNAssert => true
  | .expanderLinkReturn port _ => decide (port < 36)
  | .lsmPresNChange lsm _ => decide (lsm < 10)
  | .heldDescriptorTimeout queue => decide (queue < 32768)
  | .warmCalibrationDone unit => decide (unit < 4)
  | .gddr7TransferCompletion site _ _ _ _ other =>
    decide (site < 16) && other.all (fun x => decide (x.1.length = 256) && decide (x.2.length = 8))
  | .gddr7DeviceFatalError site => decide (site < 16)

end Sys2Proof
end

