-- ==== Sys2Proof/Tests/Slice0.lean ====
section
/-! SUPPORT. The model's own tests: ill-formed commands that the checks refuse, the worked examples of the spec, and for
every statement with hypotheses a state and operands that meet them. -/

set_option Elab.async false

namespace Sys2Proof
open Machine

/-! ### States to test on -/

/-- A state with some register fields set. -/
def put (s : State) (l : List (Fld × Nat)) : State := l.foldl (fun s e => s.set e.1 e.2) s

/-- A running chip: the configuration locked, nothing else changed since reset. -/
def running : State :=
  put { State.reset with boot := { Boot.reset with porN := true, aonRuns := true, flashOwnN := true } } [(R.BOOT_STAT_STATE, 2)]


/-- A Stem, and a flash whose first bank reads as erased and whose second does not read. -/
def stem0 : Stem :=
  { regs := (List.range 64).flatMap (fun p => (List.range 6).map (fun v =>
      { addr := 987136 + p * 48 + v * 8, lo := 0, hi := 15, value := if p < 32 then 17 else 80 })) ++
      [{ addr := 786432, lo := 54, hi := 63, value := 1 }], xFibres := 16, yFibres := 8, zFibres := 8, bx := 6, byw := 6, bz := 3, minPlanes := 1, fibreEn := 2 ^ 32 - 1,
    ports := List.replicate 32 { role := 2, bifurcate := false, ideRequired := false, slot := 0, farUnit := 0 },
    mempIde := [false, false, false, false], trayTag := 0, rackTag := 0, rowTag := 0, lsmBias := List.replicate 10 0, txeq := [], ptuSeeds := [], txnUs := 2000, drainUs := 1000, partLo := 0,
    partHi := 4095, maxSlot := 8192, maxNear := 65536, maxFar := 65536, maxOutstanding := 65536, mode := none, brakeFloorPct := 40,
    capInitW := 1050, debugAuth := none, digest := 0 }

def flash0 : Flash := { bank0 := { readOk := true, bytes := [] }, bank1 := { readOk := false, bytes := [] }, identity := [] }

def straps0 : Straps := { mode := 0, posX := 3, posY := 1, posZ := 2 }

def fuses0 : Fuses := { serial := 1, fwSvn := 0, stepping := 177, fused := 0, rma := false }


/-! Trunks: a chip whose Stem is kept, one frame, one hop. -/

/-- A running chip with the Stem of these tests: fibre 0 is an X plane, and its line 1 reaches chip 1. -/
def wired : State := { running with boot := { running.boot with stem := some stem0 } }

/-- An Article without payload from chip 1 to a unit of a chip. -/
def art0 (chip unit op : Nat) : Article :=
  { dest := chip * 2 ^ 49 + unit * 2 ^ 43, opcode := op, flags := 0, partition := 1, vc := 1, tense := 0, tc := 0, plane := 0,
    length := 0, srcChip := 1, srcUnit := 50, line := 63, lseq := 0, tag := 5, aux := 0, hcrc := 0 }

def frame0 (chip unit op : Nat) : Frame := sealFrame (art0 chip unit op) [] 0

/-- A frame of the packet buffer. -/
def fslot (f : Frame) (out : Option Nat) (line : Nat) (queued : Bool) (holds : List Nat) : FrameSlot :=
  { frame := f, inPort := 64, inLine := 0, inVc := f.art.vc, shared := true, out := out, line := line, seq := 0, queued := queued, stomped := false,
    holds := holds, mlines := [], mseq := none, noCredit := false }

/-- The hop of fibre 0 and line 1, up, with some frames. -/
def hop1 (granted : List Nat) (held : List (Nat × Nat)) : Hop :=
  { Hop.reset with up := true, credit := [(0, 9), (1, 9)], granted := granted, held := held }

def withFrame (s : State) (id : Nat) (e : FrameSlot) : State :=
  { s with fabric := { s.fabric with frames := tset id e s.fabric.frames, nextFrame := id + 1 } }

/-- A link-control message of chip 1 over fibre 0. -/
def ctl0 (line vc v0 v1 : Nat) : LinkCtl :=
  { src := 1, fibre := 0, plane := 0, kind := 0, line := line, vc := vc, value0 := v0, value1 := v1, value2 := 0 }

/-- The hop of fibre 0 and line 1 with a KEEPALIVE waiting; and with a granted frame. -/
def busy0 : State := put ((wired.setHop 1 (hop1 [] [])).sendCtl 1 0xf 0 0 0 0 0 0) [(R.OPT_STAT_STATE 0, 2)]

def laden0 : State :=
  withFrame (put (wired.setHop 1 (hop1 [7] [])) [(R.OPT_STAT_STATE 0, 2)]) 7 (fslot (frame0 1 16 8) (some 32) 1 false [1])

/-- Header of a burst of chip 0; header of one of chip 1 on line 63 of a plane. -/
def hdr0 (plane line frameM1 : Nat) : BurstHeader :=
  { srcChip := wired.chip, plane := plane, line := line, mcast := false, bodyM1 := 63, frameM1 := frameM1, targets := [] }

def hdr1 (plane : Nat) : BurstHeader := { srcChip := 1, plane := plane, line := 63, mcast := false, bodyM1 := 63, frameM1 := 6, targets := [] }

/-- A frame that waits on the drop ring of line 63, with a broken one behind it. -/
def arrived0 (x : Frame) : State :=
  { wired.setHop 1 (hop1 [] []) with fabric := { (wired.setHop 1 (hop1 [] [])).fabric with arrived := [(63, [.frame false x, .past true])] } }

/-- The arbiter of an output after a frame on VC1 of input 64. -/
def arb0 : Arbiter := { lastIn := [(1, 64)], turn := 0, deficit := [] }

/-! Homes: partition 1 is ACTIVE, chip 1 is reachable, one frame of the near unit 16 belongs to partition 1. -/

def homed : State :=
  put { running with
    tele := { Tele.reset with reach := [(1, { state := 1, how := 0, tick := 0 })] },
    xlat := { Xlat.reset with frames := [(16 * 2 ^ 22 + 1, { owner := 1, page := 5, use := .page })] } }
    [(R.PART_STATE_STATE 1, 1), (R.GDDR_STAT_FRAMES 0, 2), (R.PART_MEM_QUOTA_NEAR_QUOTA 1, 4), (R.PART_COUNTERS_CTR_COUNT 1, 8)]

/-- Near unit 16, frame 1, some bytes in. -/
def near0 (off : Nat) : Nat := 16 * 2 ^ 43 + 2 ^ 21 + off

def req0 (dest : Nat) : HomeReq := { dest := dest, partition := 1, src := 1, tag := 9, tense := 0, port := 33, spec := false }

def dir0 (oldFrame newFrame : Nat) : DirMsg :=
  { src := 1, tag := 9, partition := 1, page := 5, oldFrame := oldFrame, newFrame := newFrame, firstBlock := 2, lastBlock := 3, heat := 7 }

def track0 (op : Nat) (q : Bool) : Track :=
  { dest := 2 ^ 49 + near0 0, partition := 1, opcode := op, cont := .drop, spec := false, quarantined := q, len := 0, port := 137, tick := 0 }

def tracked (op : Nat) (q : Bool) : State := { homed with fabric := { Fabric.reset with track := [(9, track0 op q)] } }

/-- A page of chip 1 in the page map. -/
def pm0 (chip unit frame : Nat) : PmEntry :=
  { partition := 1, page := 5, chip := chip, unit := unit, frame := frame, perm := 7, pinNear := false, pinFar := false, pinHome := false,
    noReplica := false, staleOk := false, prefer := 0, installTense := 0, dirIndex := 0, replicated := false, migrating := false,
    poison := false }

def replica0 : Replica := { frameFpa := near0 0, partition := 1, page := 5, valid := [1, 2, 3, 4], served := 0, heat := 0, epoch := 0 }

def withReplica : State := { homed with parser := { Parser.reset with replicas := [((2 ^ 49 + near0 0) / 2 ^ 21, replica0)] } }

def mig0 (step : Nat) : Migration :=
  { partition := 1, page := 5, oldFpa := near0 0, newFpa := 16 * 2 ^ 43, step := step, dirty := [], waiting := [], started := 0, rehome := none,
    refused := false, quiesce := false, copying := 0 }

def moving (step : Nat) : State :=
  { homed with parser := { Parser.reset with migrations := [mig0 step] },
               xlat := { homed.xlat with pageMap := [(pmSet 1 5 * 16, { pm0 0 16 1 with migrating := true })],
                                         frames := [(16 * 2 ^ 22, { owner := 1, page := 5, use := .target }), (16 * 2 ^ 22 + 1, { owner := 1, page := 5, use := .page })] } }

/-- A tracked ring line with one request of stop 1. -/
def rline (own : Bool) : RingLine := { RingLine.fresh with queue := [{ stop := 1, own := own, op := 0 }], phase := .snooping }

def withLine (r : RingLine) : State := { running with home := { Home.reset with lines := [(near0 0 / 128, r)] } }

/-! Edge ports: port 0 faces accelerator slot 0 and is ACTIVE; PASID 1 belongs to partition 1. -/

def edged : State :=
  put { homed with xlat := { homed.xlat with pageMap := [(pmSet 1 5 * 16, pm0 0 16 1), (pmSet 1 6 * 16, { pm0 1 16 1 with page := 6 })] } }
    [(R.EDGE_STAT_STATE 0, 2), (R.EDGE_STAT_ROLE 0, 0), (R.EDGE_STAT_SLOT 0, 0), (R.EDGE_PASID_VALID 0 1, 1), (R.EDGE_PASID_PARTITION 0 1, 1),
     (R.EDGE_PASID_READ 0 1, 1), (R.EDGE_PASID_WRITE 0 1, 1), (R.EDGE_PASID_ATOMIC 0 1, 1), (R.EDGE_PASID_VIEW_EN 0 1, 7), (R.XLAT_APERTURE_BASE, 1),
     (R.PART_OUTSTANDING_QUOTA 1, 8), (R.PART_QUEUES_QUEUE_COUNT 1, 2)]

def direct0 (page off len : Nat) : Direct :=
  { port := 0, pasid := some 1, addr := 2 ^ 54 + page * 2 ^ 21 + off, len := len, tag := 4, uio := true, enabled := true }

def ctl1 (offset : Nat) (posted : Bool) : CtlReq := { port := 0, pasid := some 1, offset := offset, len := 8, tag := 4, posted := posted }

def queue0 : Queue :=
  { sqLog2 := 4, cqLog2 := 4, timeoutUs := 0, sqFva := 5 * 2 ^ 21, cqFva := 5 * 2 ^ 21 + 4096, fetched := none, fetching := false, extra := none,
    asking := false, held := false, noFetch := false, blocked := none, records := [], writing := false, expired := false, drains := [] }

def queued : State := put { edged with work := { Work.reset with queues := [(1, queue0)] } } [(R.QPAGE_STATUS_STATE 1, 1)]

def memReq0 : MemReq :=
  { port := 0, slot := 0, offset := 64, act := .read 4, who := .frame 1 9 1 0 false, write := false, tick := 0 }

/-- Receive lanes after START, and the blocks of the bytes of a flit as a peer with fresh lanes deals them. -/
def rx0 : Link := { Link.reset with rxLanes := List.replicate 8 Lane.reset, started := true }

def wire0 (x : List Byte) : List (Nat × Nat) :=
  (dealBlocks 0 { Link.reset with txLanes := List.replicate 8 Lane.reset } ((chop 8 x).map (fun b => (1, leNat b)))).2

/-! Requests of the runtime: Nelar link A is ACTIVE and one request, REQ_ID 7, was framed and admitted. -/

def h0 (length : Nat) : Hdr := { path := .nelarA, chip := 0, reqId := 7, resp := false, length := length, reserved := false }

def asked (s : State) (code : Nat) (body : List Byte) : State :=
  { put s [(R.NELAR_STAT_STATE 0, 4)] with
    nelar := { Nelar.reset with inbox := [{ path := .nelarA, reqId := 7, code := code, body := body }],
                                requests := [(7, { path := .nelarA, source := none, code := code, answer := none })] } }

/-- PART_CREATE of partition 2, and the record it leaves. -/
def part0 : PartCreate :=
  { partition := 2, tc := 1, queueFirst := 8, queueCount := 2, ctrFirst := 16, ctrCount := 4, winFirst := 4, winCount := 2, slotQuota := 8,
    spillQuota := 0, nearQuota := 4, farQuota := 4, outstanding := 16, reserved := false }

def rec0 : PartRec := { body := { part0 with partition := 1 }, keys := .none, drainedOnce := false, drains := [], warmup := 0 }

/-- Partition 1 with its record, in a state. -/
def parted (st : Nat) : State :=
  put { edged with boot := { edged.boot with stem := some stem0 }, security := { Security.reset with parts := [(1, rec0)] },
                   work := { Work.reset with counters := [(0, 5), (3, 6), (16, 7)] } }
    [(R.PART_STATE_STATE 1, st), (R.PART_QUEUES_QUEUE_COUNT 1, 0)]

def install0 (page mode fpa : Nat) : MapInstall :=
  { partition := 1, page := page, perm := 7, pinNear := false, pinFar := false, pinHome := false, noReplica := false, staleOk := false,
    prefer := 0, frameMode := mode, frameFpa := fpa, reserved := false }

def win0 : WinEntry :=
  { valid := true, perm := 3, replicable := false, sideEffect := false, altSide := false, partition := 1, suLog2 := 12, length := 8192,
    devBase := 0, members := [(0, 2), (1, 2)], reserved := false }

/-- A group of partition 1: slots 0 and 1 of this chip and its X pair. -/
def group0 : Group :=
  { body := { group := 3, partition := 1, paired := false, rotWindow := 0, slotMask := 1, slots := 16, queueBase := 1, xMask := 2 ^ 3, yMask := 2, zMask := 4, reserved := false },
    state := 1, generation := 2, cause := 0, nextInst := [], inst := [] }

/-! Clauses: descriptors of queue 1, and a clause of partition 1 with page 5 here and page 6 on chip 1. -/

/-- A descriptor with an opcode, flags, tag 77 and fields at byte offsets: (offset, bytes, value). -/
def desc0 (n op flags : Nat) (fs : List (Nat × Nat × Nat)) : List Byte :=
  fs.foldl (fun d f => d.take f.1 ++ leBytes f.2.1 f.2.2 ++ d.drop (f.1 + f.2.1))
    (leBytes 1 op ++ leBytes 1 flags ++ leBytes 2 0 ++ leBytes 4 77 ++ List.replicate (n - 8) 0#8)

def fva5 : Nat := 5 * 2 ^ 21
def fva6 : Nat := 6 * 2 ^ 21

def clause0 (desc : List Byte) (lead : Nat) : Clause :=
  { queue := 1, partition := 1, origin := none, seq := 3, desc := desc, extra := [], tense := 0,
    extents := [{ fva := fva5, len := 2 ^ 21, fpa := near0 0, side := false }, { fva := fva6, len := 2 ^ 21, fpa := 2 ^ 49 + near0 0, side := false }], leadLen := lead,
    stage := .waiting, untriggered := false, met := false, lacking := [], waitsOn := [], parkTick := 0, segment := 0, clear := 0, issued := 0,
    timed := false, placed := [], ptu := none, flying := [], failed := [], counted := [], chunks := 0, arriving := 0,
    arriveErr := .none, indices := [], ending := none, cancelled := false, inst := 0, tick := 0 }

/-- Clause 3 in flight, on a queue whose ring takes no record now. -/
def flight (k : Clause) : State :=
  put { queued with work := { Work.reset with queues := [(1, { queue0 with writing := true })], clauses := [(3, k)], nextClause := 4 } }
    [(R.PARSER_CTL_REMOTE_EXEC_EN, 0), (R.TILE_CTL_ENABLE 0, 1)]

/-- FILL, COPY, FENCE, COUNTER_OP and WAIT descriptors. -/
def fill0 (dst len pat : Nat) : List Byte := desc0 64 3 0 [(32, 8, dst), (40, 8, len), (48, 8, pat)]
def copy0 (src dst len : Nat) : List Byte := desc0 64 1 0 [(32, 8, src), (40, 8, dst), (48, 8, len)]
def fence0 : List Byte := desc0 64 0x40 0 [(32, 1, 2)]
def wait0 (n threshold : Nat) : List Byte := desc0 64 0x42 0 [(32, 8, n), (40, 8, threshold)]

/-- A queue that has fetched a descriptor. -/
def fetched (d : List Byte) : State :=
  put { queued with work := { Work.reset with queues := [(1, { queue0 with fetched := some (d, 3), writing := true })], nextClause := 4, counters := [(0, 5)] } }
    [(R.PARSER_CTL_REMOTE_EXEC_EN, 0), (R.TILE_CTL_ENABLE 0, 1), (R.QPAGE_STATUS_PARTITION 1, 1)]

/-- A KERNEL clause on context 0 of tile 0: two instructions, one store block, one operand of 4 KiB at page 5. -/
def kern0 : Clause :=
  { clause0 (desc0 128 0x30 1 [(32, 8, fva6), (40, 2, 2), (42, 1, 1), (43, 1, 1), (48, 8, fva6)]) 4096 with
    extra := leBytes 8 fva5 ++ leBytes 8 (4096 + 2 ^ 45), stage := .running, placed := [⟨0, 0⟩], segment := 1, issued := 1, timed := true, clear := 1 }

/-- A TRANSFORM of one vector in the bank form: FP32 in, FP32 out. -/
def trans0 : List Byte := desc0 128 0x20 1 [(32, 8, fva5), (40, 8, fva5 + 4096), (48, 8, 1), (56, 8, fva5 + 8192), (64, 1, 0x10), (65, 1, 1)]

/-! Collectives: a group of chips 0 and 1 along X, one slot; its instance 0 with the member clause 3 of queue 1. -/

def body1 (xMask : Nat) : GroupCreate := { group0.body with xMask := xMask, yMask := 1, zMask := 1 }

def coll1 (op : Nat) : List Byte :=
  desc0 128 op 1 [(32, 8, fva6), (40, 8, fva5), (48, 8, 4), (56, 2, 3), (60, 4, 0), (64, 1, 0x10), (65, 1, 1), (72, 8, if op = 0x16 then fva5 + 65536 else 0)]

def inst1 (op : Nat) : Instance :=
  { Instance.empty 0 with members := [3], accepted := [0], reserved := true, own := 16, readySent := true, desc := coll1 op, queue := 1, started := true }

def member (op : Nat) : Clause := { clause0 (coll1 op) 16 with stage := .running, placed := [⟨0, 0⟩], segment := 1, timed := true }

def gathered (xMask op : Nat) (i : Instance) (k : Clause) : State :=
  { flight k with boot := { running.boot with stem := some stem0 },
                  coll := { Coll.reset with groups := [(3, { group0 with body := body1 xMask, inst := [i] })] } }

def tag1 (phase : Nat) : CollTag := { src := 1, partition := 1, group := 3, gen := 2, inst := 0, phase := phase, chunk := 0 }

/-- The same with COEF in a page of chip 1. -/
def trans6 : List Byte := desc0 128 0x20 1 [(32, 8, fva5), (40, 8, fva5 + 4096), (48, 8, 1), (56, 8, fva6), (64, 1, 0x11), (65, 1, 1)]

/-- Context 0 of tile 0 running kern0, with some registers, and its state. -/
def ctx0 : Ctx :=
  { newCtx 3 kern0 0 with mode := .running, pc := 2, progLen := 8, s := [(1, 5), (2, BitVec.ofNat 64 (2 ^ 64 - 3))], tsSize := 4096,
                          ops := [(0, (fva5, 4096, true)), (1, (fva6, 4096, true))] }

def tiled0 (x : Ctx) : State :=
  { flight kern0 with home := { Home.reset with tiles := [(0, { Tile.empty with ctxs := [(0, x)] })] } }

/-- KERNEL clause with operands 0 (this chip) and 1 (chip 1), two segments translated; a context with addresses in s3 to s9. -/
def kernA : Clause := { kern0 with clear := 2 }

def ctxS : Ctx :=
  { ctx0 with
    s := [(1, 5), (2, BitVec.ofNat 64 (2 ^ 64 - 3)), (3, BitVec.ofNat 64 (16 * 2 ^ 59 + 64)), (4, 64), (5, BitVec.ofNat 64 (2 ^ 59 + 64)),
          (6, BitVec.ofNat 64 (16 * 2 ^ 59 + 4096)), (7, BitVec.ofNat 64 (2 ^ 59 + 512)), (8, BitVec.ofNat 64 (2 ^ 59 + 64)), (9, 64)],
    v := [(3, BitVec.ofNat 2048 (2 ^ 2047 + 77)), (4, BitVec.ofNat 2048 (2 ^ 2040 + 0x030201))], p := [(1, BitVec.ofNat 256 0x1c), (2, BitVec.ofNat 256 (2 ^ 255 + 5))],
    ops := [(0, (fva5, 4096, true)), (1, (fva6, 4096, true))] }

def mem1 (x : Ctx) : State :=
  { flight kernA with home := { Home.reset with tiles := [(0, { Tile.empty with ctxs := [(0, x)], store := [(62, 7#8), (63, 200#8), (3842, 9#8)] })] } }

def store0 : State := mem1 ctxS
def mem0 (m : List (Nat × Byte)) : State := { mem1 ctxS with mem := m }

/-- A context with numbers in v3 to v5: bytes 7, 250, 1, 128 and so on. -/
def ctxV : Ctx :=
  { ctx0 with v := [(3, BitVec.ofNat 2048 (2 ^ 2040 * 129 + 0x4049 * 2 ^ 80 + 0x7fc00000c0a000003f8000010180fa07)), (4, BitVec.ofNat 2048 (2 ^ 2041 + 0x03c0 * 2 ^ 80 + 0x010200034049000040400000030203f9)), (5, BitVec.ofNat 2048 0x3f800000040506077f800000)],
              p := [(1, BitVec.ofNat 256 (2 ^ 256 - 1 - 4)), (2, BitVec.ofNat 256 (2 ^ 256 - 1 - 240))] }

def vecR (m : Nat) : State := tiled0 { ctxV with rmode := m, seed := 77 }
def vec0 : State := tiled0 ctxV

/-- A context with matrix operands at 0 and 2048 of its range, an FP32 and an INT32 accumulator. -/
def ctxM : Ctx :=
  { ctx0 with s := [(3, BitVec.ofNat 64 (16 * 2 ^ 59)), (4, BitVec.ofNat 64 (16 * 2 ^ 59 + 2048)), (5, 32), (6, 256)],
              m := [(1, { isInt := true, cells := [(0, 7), (33, 2 ^ 32 - 1)] }), (2, { isInt := false, cells := [(0, 0x3f800001), (1, 0x40490fdb)] })] }

def mat0 : State :=
  { flight kern0 with home := { Home.reset with tiles := [(0, { Tile.empty with ctxs := [(0, ctxM)], store := [(0, 200#8), (1, 7#8), (33, 9#8), (1024, 130#8), (2048, 3#8), (2080, 253#8), (2081, 66#8), (3072, 127#8)] })] } }

/-- Pattern descriptors: base, run, KIND 0, depth 8; patterns in the tile store, on chip 1, and at its end. -/
def pdesc (base run depth : Nat) : List Byte :=
  leBytes 8 base ++ leBytes 24 0 ++ leBytes 4 run ++ leBytes 4 1 ++ leBytes 4 1 ++ leBytes 1 0 ++ leBytes 1 depth ++ List.replicate 18 0#8

def pat0 : Pattern := { desc := pdesc (16 * 2 ^ 59 + 64) 40 7, indices := none, asked := none, pos := 38, issued := 40 }
def pat1 : Pattern := { desc := pdesc (2 ^ 59 + 64) 264 7, indices := none, asked := none, pos := 64, issued := 64 }
def patE : Pattern := { desc := pdesc (16 * 2 ^ 59 + 64) 40 7, indices := none, asked := none, pos := 40, issued := 40 }

/-- A pattern that runs past its operand; one of 96 bytes more on chip 1; one whose index array lies there. -/
def patX : Pattern := { desc := pdesc (2 ^ 59 + 4040) 120 7, indices := none, asked := none, pos := 60, issued := 60 }
def patQ : Pattern := { pat1 with desc := pdesc (2 ^ 59 + 64) 160 7 }
def patK : Pattern :=
  { pat0 with desc := leBytes 8 64 ++ leBytes 8 128 ++ leBytes 8 0 ++ leBytes 8 (2 ^ 59 + 128) ++ leBytes 4 40 ++ leBytes 4 2 ++ leBytes 4 1 ++ leBytes 1 3 ++ leBytes 1 7 ++ List.replicate 18 0#8, pos := 0, issued := 0 }

def ctxP : Ctx :=
  { ctxS with patterns := [(0, pat0), (1, pat1), (2, patX), (3, patE)],
              s := [(1, 5), (3, BitVec.ofNat 64 (16 * 2 ^ 59 + 64)), (4, BitVec.ofNat 64 (16 * 2 ^ 59 + 128))] }

def strm0 : State :=
  { flight kernA with home := { Home.reset with tiles := [(0, { Tile.empty with ctxs := [(0, ctxP)], store := memWrite [] 64 (pdesc 64 40 7) }),
                                                         (1, Tile.empty)] } }

def strmT (k : Clause) (x : Ctx) (es : List StoreEntry) : State :=
  { flight k with home := { Home.reset with tiles := [(0, { Tile.empty with ctxs := [(0, x)], stores := es, nextEntry := 7 })] } }

def ctxQ : Ctx := { ctxP with patterns := [(1, patQ)] }
def ctxK : Ctx := { ctxP with patterns := [(2, patK)] }
def strmQ : State := strmT kernA ctxQ []
def strmK : State := strmT kernA ctxK []
def kernW : Clause := { kernA with extents := kernA.extents.map (fun e => { e with side := true }) }
def strmW : State := strmT kernW ctxP []

/-- A context with counter names: 0 here, 3 of chip 1, a bad one; partition 1 owns counters 0 to 7. -/
def ctxC : Ctx :=
  { ctxS with s := [(1, 1), (2, BitVec.ofNat 64 (2 ^ 64 - 3)), (4, BitVec.ofNat 64 (2 ^ 49 + 3)), (5, BitVec.ofNat 64 (2 ^ 20)), (6, BitVec.ofNat 64 (16 * 2 ^ 59 + 64))] }

def ctrW (x : Ctx) : State :=
  { mem1 x with work := { (mem1 x).work with counters := [(0, 5)] } }

def ctr0 : State := ctrW ctxC

/-- KERNEL with a budget. -/
def kernB : Clause := { kernA with desc := desc0 128 0x30 1 [(32, 8, fva6), (40, 2, 2), (42, 1, 1), (43, 1, 1), (44, 4, 9), (48, 8, fva6)] }

/-- Queue 1 submits, with its ring on chip 1. -/
def sub0 : State :=
  put { ctr0 with work := { ctr0.work with queues := [(1, { queue0 with sqFva := fva6 })] } } [(R.QPAGE_STATUS_FEED 1, 1)]

def subL : State :=
  put { ctr0 with work := { ctr0.work with queues := [(1, { queue0 with sqFva := fva5 })] } } [(R.QPAGE_STATUS_FEED 1, 1)]

/-- The same with an indexed pattern (KIND 3) of two runs at 64, and its index array at an operand address. -/
def strmI (ix : Nat) : State :=
  { strm0 with home := { Home.reset with tiles := [(0, { Tile.empty with ctxs := [(0, ctxP)], store := memWrite (memWrite [] 300 [5#8, 0#8, 0#8, 0#8, 6#8]) 64 (leBytes 8 64 ++ leBytes 8 128 ++ leBytes 8 0 ++ leBytes 8 ix ++ leBytes 4 40 ++ leBytes 4 2 ++ leBytes 4 1 ++ leBytes 1 3 ++ leBytes 1 7 ++ List.replicate 18 0#8) })] } }

/-- Scales of 0xFF in row 5 of A and column 7 of B (FP8, K = 32: 1,024 bytes of elements, then the scales). -/
def matN : State :=
  { mat0 with home := { Home.reset with tiles := [(0, { Tile.empty with ctxs := [(0, ctxM)], store := [(33, 9#8), (1029, 255#8), (2080, 17#8), (3079, 255#8)] })] } }

/-- Partition 37 with set 70,443 full (the worked example of R43). -/
def fullSet : State :=
  put { edged with xlat := { edged.xlat with pageMap := (List.range 16).map (fun w => (70443 * 16 + w, { pm0 0 16 1 with partition := 37, page := w })) } } [(R.PART_STATE_STATE 37, 1)]

/-- The same with L1 lines, copies of remote lines, queued stores and memory. -/
def memL (x : Ctx) (l1 : Tbl Nat) (cp : Tbl (List Byte)) (es : List StoreEntry) (m : List (Nat × Byte)) : State :=
  { flight kernA with mem := m, home := { Home.reset with tiles := [(0, { Tile.empty with ctxs := [(0, x)], l1 := l1, copies := cp, stores := es, store := [(62, 7#8), (63, 200#8), (3842, 9#8)] })] } }

def store1 : StoreEntry := { id := 9, ctx := 0, clause := 3, partition := 1, runs := [(near0 4, 2)], data := [1#8, 2#8], amo := none, sent := true, gone := false }

def strmS : State := strmT kernA ctxP [{ store1 with runs := [(2 ^ 49 + near0 132, 2)] }]

def ctrS (x : Ctx) : State := { memL x [] [] [store1] [] with work := { (ctrW x).work with counters := [(0, 5)] } }
/-! ### The Stem of these tests passes its checks -/

/-- The value an entry list gives a field, where every entry of that field has the same value. -/
theorem test_entryValue_of {es : List RegEntry} {f : Fld} {x : Nat}
    (h : ∀ e ∈ es, e.addr * 64 + e.lo = f.key → e.value = x) (hx : f.reset = x ∨ ∃ e ∈ es, e.addr * 64 + e.lo = f.key) :
    entryValue es f = x := by
  have key : ∀ (es : List RegEntry) (d : Nat), (∀ e ∈ es, e.addr * 64 + e.lo = f.key → e.value = x) →
      (d = x ∨ ∃ e ∈ es, e.addr * 64 + e.lo = f.key) →
      es.foldl (fun v e => if e.addr * 64 + e.lo = f.key then e.value else v) d = x := by
    intro es
    induction es with
    | nil => intro d _ h2; simpa using h2
    | cons a t ih =>
      intro d h1 h2
      simp only [List.foldl_cons]
      apply ih
      · intro e he; exact h1 e (List.mem_cons_of_mem _ he)
      · by_cases hk : a.addr * 64 + a.lo = f.key
        · left; simp [hk, h1 a (List.mem_cons_self ..) hk]
        · simp only [hk, if_false]
          rcases h2 with h2 | ⟨e, he, hek⟩
          · exact .inl h2
          · rcases List.mem_cons.1 he with rfl | he
            · exact absurd hek hk
            · exact .inr ⟨e, he, hek⟩
  exact key es f.reset h hx

theorem test_stem0_mem {e : RegEntry} (h : e ∈ stem0.regs) :
    (∃ p v, p < 64 ∧ v < 6 ∧ e = { addr := 987136 + p * 48 + v * 8, lo := 0, hi := 15, value := if p < 32 then 17 else 80 }) ∨
      e = { addr := 786432, lo := 54, hi := 63, value := 1 } := by
  simp only [stem0, List.mem_append, List.mem_flatMap, List.mem_map, List.mem_range, List.mem_singleton] at h
  rcases h with ⟨p, hp, v, hv, rfl⟩ | rfl
  · exact .inl ⟨p, v, hp, hv, rfl⟩
  · exact .inr rfl

theorem test_stem0_ires (p v : Nat) (hp : p < 64) (hv : v < 6) :
    entryValue stem0.regs (R.SWC_LIMIT_IRES p v) = if p < 32 then 17 else 80 := by
  apply test_entryValue_of
  · intro e he hk
    rcases test_stem0_mem he with ⟨p', v', hp', hv', rfl⟩ | rfl
    · simp only [R.SWC_LIMIT_IRES] at hk
      have : p' = p := by omega
      simp [this]
    · simp only [R.SWC_LIMIT_IRES] at hk
      omega
  · right
    refine ⟨{ addr := 987136 + p * 48 + v * 8, lo := 0, hi := 15, value := if p < 32 then 17 else 80 }, ?_, rfl⟩
    simp only [stem0, List.mem_append, List.mem_flatMap, List.mem_map, List.mem_range]
    exact .inl ⟨p, hp, v, hv, rfl⟩

theorem test_stem0_ires_le (p v : Nat) (hv : v < 6) : entryValue stem0.regs (R.SWC_LIMIT_IRES p v) ≤ 80 := by
  by_cases hp : p < 64
  · rw [test_stem0_ires p v hp hv]; split <;> omega
  · rw [test_entryValue_of (x := 0) _ (.inl rfl)]
    · omega
    · intro e he hk
      rcases test_stem0_mem he with ⟨p', v', hp', hv', rfl⟩ | rfl
      · simp only [R.SWC_LIMIT_IRES] at hk; omega
      · simp only [R.SWC_LIMIT_IRES] at hk; omega

theorem test_stem0_other {f : Fld} (h1 : ∀ p v, p < 64 → v < 6 → f.key ≠ (R.SWC_LIMIT_IRES p v).key) (h2 : f.key ≠ 786432 * 64 + 54) :
    entryValue stem0.regs f = f.reset := by
  apply test_entryValue_of _ (.inl rfl)
  intro e he hk
  rcases test_stem0_mem he with ⟨p, v, hp, hv, rfl⟩ | rfl
  · exact absurd hk.symm (h1 p v hp hv)
  · exact absurd hk.symm h2

theorem test_stem0_reserves : stemReserves stem0 = true := by
  unfold stemReserves
  simp only [Bool.and_eq_true, List.all_eq_true, List.mem_range, decide_eq_true_eq, Bool.or_eq_true, beq_iff_eq]
  refine ⟨⟨⟨?_, ?_⟩, ?_⟩, ?_⟩
  · intro p hp v hv
    rw [test_stem0_ires p v hp hv]; split <;> omega
  · intro p hp v hv
    rw [test_stem0_other]
    · show 17 ≤ 65536; omega
    · intro p' v' hp' hv'; simp only [R.SWC_LIMIT_IRES, R.SWC_LIMIT_OMAX]; omega
    · simp only [R.SWC_LIMIT_OMAX]; omega
  · have h : ∀ p, ((List.range 6).map (fun v => entryValue stem0.regs (R.SWC_LIMIT_IRES p v))).sum ≤ 480 := by
      intro p
      refine le_trans (List.sum_le_card_nsmul _ 80 ?_) (by simp)
      intro x hx
      obtain ⟨v, hv, rfl⟩ := List.mem_map.1 hx
      exact test_stem0_ires_le p v (List.mem_range.1 hv)
    refine le_trans (List.sum_le_card_nsmul _ 480 ?_) (by simp)
    intro x hx
    obtain ⟨p, _, rfl⟩ := List.mem_map.1 hx
    exact h p
  · intro f hf
    right
    intro v hv
    rw [test_stem0_ires (32 + f) v (by omega) hv]
    have h0 : ∀ g : Fld, (∀ p v, p < 64 → v < 6 → g.key ≠ (R.SWC_LIMIT_IRES p v).key) → g.key ≠ 786432 * 64 + 54 → g.reset ≤ 1 →
        (if stemDim stem0 f = 2 then 7 else 63) * entryValue stem0.regs g + (if v = 0 then 0 else 17) ≤ if 32 + f < 32 then 17 else 80 := by
      intro g h1 h2 h3
      rw [test_stem0_other h1 h2]
      have e1 : ¬ (32 + f < 32) := by intro h; exact absurd h (by simp)
      rw [if_neg e1]
      have : (if stemDim stem0 f = 2 then 7 else 63) * g.reset ≤ 63 := by
        have : (if stemDim stem0 f = 2 then 7 else 63) ≤ 63 := by split <;> omega
        nlinarith
      have : (if v = 0 then 0 else 17) ≤ 17 := by split <;> omega
      omega
    have hv' : v = 0 ∨ v = 1 ∨ v = 2 ∨ v = 3 ∨ v = 4 ∨ v = 5 := by omega
    rcases hv' with rfl | rfl | rfl | rfl | rfl | rfl <;>
      (apply h0 <;> first | (intro p v hp hv; simp only [R.SWC_LIMIT_IRES, R.OPT_CREDIT_STANDING_0, R.OPT_CREDIT_STANDING_1, R.OPT_CREDIT_STANDING_2, R.OPT_CREDIT_STANDING_3, R.OPT_CREDIT_STANDING_4, R.OPT_CREDIT_STANDING_5]; omega) | (simp only [R.OPT_CREDIT_STANDING_0, R.OPT_CREDIT_STANDING_1, R.OPT_CREDIT_STANDING_2, R.OPT_CREDIT_STANDING_3, R.OPT_CREDIT_STANDING_4, R.OPT_CREDIT_STANDING_5]; omega))

theorem test_stem0_entries : stem0.regs.all entryStemOk = true := by decide +kernel

theorem test_stem0_passes : stemOk stem0 = true := by
  unfold stemOk
  rw [test_stem0_reserves, test_stem0_entries]
  decide +kernel

/-! ### A free frame of the near unit 16 -/

theorem test_homed_pick : homed.nearPick = some (16 * 2 ^ 22) := by
  have h1 : ((List.range 16).map (16 + ·)).filter (fun u => decide (0 < homed.freeCount u)) = [16] := by decide +kernel
  have h2 : homed.freeCount 16 = 1 := by decide +kernel
  have h3 : homed.unitRanges 16 = [(0, 2)] := by decide +kernel
  have h4 : homed.xlat.frames = [(16 * 2 ^ 22 + 1, { owner := 1, page := 5, use := .page })] := rfl
  unfold State.nearPick State.pickFree
  simp only [h1, List.length_singleton, Nat.mod_one, List.drop_zero, List.head?_cons, h2, h3, h4]
  decide +kernel

/-- A tag has 8 bytes. -/
theorem test_tag9 (ks : PartKeys) (c b p : Nat) (x : List Byte) : blockTag ks c b p x ≠ List.replicate 9 0#8 := by
  intro h
  have := congrArg List.length h
  simp [blockTag] at this
  omega

/-- A ciphertext that is not the stored one. -/
theorem test_cipher (o : Option (List Byte × List Byte)) (t : List Byte) : o ≠ some (0#8 :: (o.map Prod.fst).getD [], t) := by
  cases o with
  | none => simp
  | some x => intro h; have := congrArg (fun y : Option (List Byte × List Byte) => (y.map (fun z => z.1.length)).getD 0) h; simp at this
/-! ### Hypotheses of the statements are met -/

theorem test_meets_StartLoadsTheGoodBank_1 : ∃ (s : State) (straps : Straps) (fuses : Fuses) (flash : Flash),
    (s.boot.porN = false) :=
  ⟨State.reset, straps0, fuses0, flash0, by decide +kernel⟩

theorem test_meets_StartLoadsTheGoodBank_2 : ∃ (s : State) (flash : Flash),
    (s.boot.porN = true) :=
  ⟨{ State.reset with boot := { Boot.reset with porN := true, fuses := fuses0 } }, flash0, by decide +kernel⟩

theorem test_meets_LockEndsTheStart_1 : ∃ (s : State) (t0 : Stem),
    (s.boot.stem = some t0) ∧
    (s.boot.porN = true) ∧
    (s.boot.epo = false) ∧
    (s.frozen = none) ∧
    (s.bootState = 1) :=
  ⟨{ State.reset with boot := { Boot.reset with porN := true, aonRuns := true, stem := some stem0 }, regs := [(R.BOOT_STAT_STATE.key, 1)] }, stem0, rfl, by decide, by decide, by decide, by decide⟩

theorem test_meets_BrakeCausesEnterBrake_1 : ∃ (s : State),
    (s.live = true) ∧
    (s.get R.PWR_STAT_BRAKE = 0) :=
  ⟨running, by decide +kernel⟩

theorem test_meets_BrakeCausesEnterBrake_2 : ∃ (s : State),
    (s.live = true) ∧
    (s.get R.PWR_STAT_BRAKE = 0) :=
  ⟨running, by decide +kernel⟩

theorem test_meets_BrakeCausesEnterBrake_3 : ∃ (s : State) (celsius : Nat),
    (s.live = true) ∧
    (s.get R.PWR_STAT_BRAKE = 0) ∧
    (s.get R.PWR_CTL_TJ_BRAKE ≤ celsius) ∧
    (celsius < 110) :=
  ⟨running, 100, by decide +kernel⟩

theorem test_meets_BrakeCausesEnterBrake_4 : ∃ (s : State),
    (s.live = true) ∧
    (s.get R.PWR_STAT_BRAKE = 0) :=
  ⟨put running [(R.LSM_STAT_STATE 4, 3)], by decide +kernel⟩

theorem test_meets_BrakeCausesEnterBrake_5 : ∃ (s : State),
    (s.live = true) ∧
    (s.get R.PWR_STAT_BRAKE = 1) ∧
    (s.power.causes = 0) ∧
    (s.power.underSamples = 100) :=
  ⟨put { running with power := { Power.reset with underSamples := 100 } } [(R.PWR_STAT_BRAKE, 1)], by decide +kernel⟩

theorem test_meets_SamplesDriveTheGovernor_1 : ∃ (s : State) (watts celsius : Nat),
    (s.live = true) ∧
    (s.get R.PWR_STAT_BRAKE = 0) ∧
    (celsius < s.get R.PWR_CTL_TJ_BRAKE) ∧
    (celsius < 110) ∧
    (s.get R.PWR_STAT_CAP_W < watts) ∧
    (100 * watts ≤ 105 * s.get R.PWR_STAT_CAP_W) ∧
    (watts < 2 ^ 16) ∧
    (11 ≤ s.power.sinceStep) ∧
    (s.get R.PWR_STAT_LEVEL < 63) :=
  ⟨put running [(R.PWR_STAT_CAP_W, 1000)], 1050, 60, by decide +kernel⟩

theorem test_meets_SamplesDriveTheGovernor_2 : ∃ (s : State) (watts celsius : Nat),
    (s.live = true) ∧
    (s.get R.PWR_STAT_BRAKE = 1) ∧
    (celsius < s.get R.PWR_CTL_TJ_BRAKE) ∧
    (celsius < 110) ∧
    (s.floorCw < 100 * watts) ∧
    (watts < 2 ^ 16) ∧
    (s.get R.PWR_STAT_LEVEL < 63) :=
  ⟨put running [(R.PWR_STAT_CAP_W, 1000), (R.PWR_STAT_BRAKE, 1), (R.PWR_STAT_LEVEL, 62)], 500, 60, by decide +kernel⟩

theorem test_meets_SamplesDriveTheGovernor_3 : ∃ (s : State),
    (s.live = true) :=
  ⟨put running [(R.LSM_STAT_STATE 9, 4), (R.LSM_STAT_STATE 0, 1), (R.LSM_STAT_GROUP 0, 0)], by decide +kernel⟩

theorem test_meets_EmergencyOffAndFreeze_1 : ∃ (s : State),
    (s.boot.porN = true) ∧
    (s.boot.aonRuns = true) ∧
    (s.boot.epo = false) :=
  ⟨running, by decide +kernel⟩

theorem test_meets_EmergencyOffAndFreeze_2 : ∃ (s : State),
    (s.boot.porN = true) ∧
    (s.boot.aonRuns = true) ∧
    (s.boot.epo = false) ∧
    (s.power.coolOk = false) :=
  ⟨running, by decide +kernel⟩

theorem test_meets_EmergencyOffAndFreeze_3 : ∃ (s : State) (celsius : Nat),
    (s.boot.porN = true) ∧
    (s.boot.aonRuns = true) ∧
    (s.boot.epo = false) ∧
    (110 ≤ celsius) :=
  ⟨running, 110, by decide +kernel⟩

theorem test_meets_EmergencyOffAndFreeze_4 : ∃ (s : State) (rail millivolts : Nat),
    (s.boot.porN = true) ∧
    (s.boot.aonRuns = true) ∧
    (s.boot.epo = false) ∧
    (railOut rail millivolts = true) :=
  ⟨running, 0, 901, by decide +kernel⟩

theorem test_meets_EmergencyOffAndFreeze_5 : ∃ (s : State) (stopCycles : List Nat),
    (s.boot.porN = true) ∧
    (s.boot.aonRuns = true) ∧
    (s.boot.epo = false) ∧
    (s.frozen = none) :=
  ⟨running, [1, 2, 3, 4, 5, 6, 7, 8], by decide +kernel⟩

theorem test_meets_EmergencyOffAndFreeze_6 : ∃ (s : State) (cause : Nat),
    (s.boot.porN = true) ∧
    (s.boot.aonRuns = true) ∧
    (s.boot.epo = false) ∧
    (s.frozen = none) ∧
    (cause < 16) :=
  ⟨running, 3, by decide +kernel⟩

theorem test_meets_LasersLightMoveAndFail_1 : ∃ (s : State) (lsm : Nat) (t0 : Stem),
    (s.live = true) ∧
    (lsm < 8) ∧
    (bit s.fabric.lsmEn lsm = true) ∧
    (bit s.fabric.lsmReady lsm = false) ∧
    (s.get (R.LSM_STAT_STATE lsm) = 1) ∧
    (s.boot.stem = some t0) :=
  ⟨put { wired with fabric := { Fabric.reset with lsmEn := 1 } } [(R.LSM_STAT_STATE 0, 1)], 0, stem0, by decide +kernel⟩

theorem test_meets_LasersLightMoveAndFail_2 : ∃ (s : State) (lsm spare : Nat),
    (s.live = true) ∧
    (lsm < 8) ∧
    (s.get (R.LSM_STAT_STATE lsm) = 3) ∧
    (s.fabric.replacements = []) ∧
    (s.freeSpare = some spare) :=
  ⟨put wired [(R.LSM_STAT_STATE 0, 3), (R.LSM_STAT_STATE 9, 1), (R.OPT_STAT_STATE 2, 2)], 0, 9, by decide +kernel⟩

theorem test_meets_LasersLightMoveAndFail_3 : ∃ (s : State) (lsm spare : Nat),
    (s.live = true) ∧
    (lsm < 8) ∧
    (s.get (R.LSM_STAT_STATE lsm) = 3) ∧
    (s.fabric.replacements = []) ∧
    (s.freeSpare = some spare) :=
  ⟨put wired [(R.LSM_STAT_STATE 0, 3), (R.LSM_STAT_STATE 9, 1), (R.OPT_STAT_STATE 2, 2)], 0, 9, by decide +kernel⟩

theorem test_meets_LasersLightMoveAndFail_4 : ∃ (s : State) (lsm spare : Nat),
    (s.live = true) ∧
    (lsm < 8) ∧
    (s.get (R.LSM_STAT_STATE lsm) = 3) ∧
    (s.fabric.replacements = []) ∧
    (s.freeSpare = some spare) ∧
    (s.power.coolOk = true) :=
  ⟨put { running with power := { Power.reset with coolOk := true } } [(R.LSM_STAT_STATE 3, 3), (R.LSM_STAT_STATE 8, 1)], 3, 8, by decide +kernel⟩

theorem test_meets_LasersLightMoveAndFail_5 : ∃ (s : State) (r : LsmReading) (m : Int),
    (s.live = true) ∧
    (r.lsm < 10) ∧
    (s.get (R.LSM_STAT_STATE r.lsm) = 3) ∧
    (s.lowestMargin r.lsm = some m) ∧
    (m < (s.get R.LSM_CFG_MARGIN_LO : Int)) ∧
    (r.bias < r.biasMax) ∧
    (r.biasMax < 1024) ∧
    (10 * r.bias < 9 * r.biasMax) ∧
    (150 ≤ 10 * m + (r.headroom : Int)) ∧
    (r.lsm ∉ s.fabric.noSpare) :=
  ⟨put { wired with fabric := { Fabric.reset with reports := [(1, 0, 0, 0)] } } [(R.LSM_STAT_STATE 0, 3), (R.OPT_TXLINE_STATE 0 1, 2), (R.OPT_TXLINE_MARGIN 0 1, 19), (R.CLK_LOCALTICK_TICK, 7)], { lsm := 0, bias := 100, biasMax := 200, headroom := 40 }, 19, by decide +kernel⟩

theorem test_meets_LasersLightMoveAndFail_6 : ∃ (s : State) (lsm : Nat),
    (s.live = true) ∧
    (lsm < 10) ∧
    (s.get (R.LSM_STAT_STATE lsm) = 1) :=
  ⟨put running [(R.LSM_STAT_STATE 9, 1)], 9, by decide +kernel⟩

theorem test_meets_LasersLightMoveAndFail_7 : ∃ (s : State) (lsm : Nat),
    (s.live = true) ∧
    (lsm < 8) ∧
    (s.get (R.LSM_STAT_STATE lsm) = 0) ∧
    (s.power.coolOk = true) :=
  ⟨{ running with power := { Power.reset with coolOk := true }, fabric := { Fabric.reset with lsmPresN := 1023 } }, 7, by decide +kernel⟩

theorem test_meets_RingsSearchLockAndRelock_1 : ∃ (s : State) (fibre tx rx : Nat),
    (s.live = true) ∧
    (fibre < 32) ∧
    (s.searchNow.contains fibre = true) ∧
    (s.fibre fibre = 1) ∧
    (∀ l ∈ s.usedLines fibre, bit tx l = true ∧ bit rx l = true ∧ s.get (R.OPT_TXLINE_STATE fibre l) ≠ 5) ∧
    (bit (s.get R.PARSER_PLANES_EXCLUDE) fibre = false) :=
  ⟨put { wired with fabric := { Fabric.reset with searching := [24] } } [(R.OPT_STAT_STATE 24, 1)], 24, 254, 254, by decide +kernel⟩

theorem test_meets_RingsSearchLockAndRelock_2 : ∃ (s : State) (fibre tx rx l : Nat),
    (s.live = true) ∧
    (fibre < 32) ∧
    (s.searchNow.contains fibre = true) ∧
    (s.fibre fibre = 1) ∧
    (l ∈ s.usedLines fibre) ∧
    (bit tx l = false) ∧
    (s.txLocked fibre l = false) :=
  ⟨put { wired with fabric := { Fabric.reset with searching := [24] } } [(R.OPT_STAT_STATE 24, 1)], 24, 250, 254, 2, by decide +kernel⟩

theorem test_meets_RingsSearchLockAndRelock_3 : ∃ (s : State) (t0 : Stem),
    (s.live = true) ∧
    (s.boot.stem = some t0) ∧
    (s.fabric.lsmLit = true) ∧
    (∀ f < 32, bit t0.fibreEn f = true → s.fibre f ≠ 0 ∧ s.fibre f ≠ 1) ∧
    (t0.minPlanes ≤ s.lockedCount) ∧
    (s.fabric.fabricReady = false) ∧
    (s.bootState = 2) :=
  ⟨put { running with boot := { running.boot with stem := some { stem0 with fibreEn := 3 } }, fabric := { Fabric.reset with lsmLit := true } } [(R.OPT_STAT_STATE 0, 2), (R.OPT_STAT_STATE 1, 5), (R.CLK_LOCALTICK_TICK, 77)], { stem0 with fibreEn := 3 }, by decide +kernel⟩

theorem test_meets_RingsSearchLockAndRelock_4 : ∃ (s : State) (fibre line : Nat),
    (s.live = true) ∧
    (fibre < 32) ∧
    (line < 64) ∧
    (s.get (R.OPT_TXLINE_STATE fibre line) = 2) ∧
    ((s.hop (hopKey fibre line)).up = true) :=
  ⟨put (wired.setHop 1 (hop1 [] [])) [(R.OPT_TXLINE_STATE 0 1, 2), (R.OPT_STAT_TX_LOCKED 0, 5), (R.OPT_STAT_HOPS_UP 0, 1)], 0, 1, by decide +kernel⟩

theorem test_meets_RingsSearchLockAndRelock_5 : ∃ (s : State) (fibre line : Nat),
    (s.live = true) ∧
    (fibre < 32) ∧
    (line < 64) ∧
    (s.get (R.OPT_RXLINE_STATE fibre line) = 4) ∧
    ((s.hop (s.rxHop fibre line)).up = false) :=
  ⟨put wired [(R.OPT_RXLINE_STATE 0 63, 4), (R.OPT_STAT_RX_LOCKED 0, 5)], 0, 63, by decide +kernel⟩

theorem test_meets_RingsSearchLockAndRelock_6 : ∃ (s : State) (fibre line : Nat),
    (s.live = true) ∧
    (fibre < 32) ∧
    (line < 64) ∧
    (s.get (R.OPT_TXLINE_STATE fibre line) = 3) ∧
    (s.movingFibre fibre = none) :=
  ⟨put wired [(R.OPT_TXLINE_STATE 0 1, 3), (R.OPT_STAT_TX_LOCKED 0, 5)], 0, 1, by decide +kernel⟩

theorem test_meets_RingsSearchLockAndRelock_7 : ∃ (s : State) (fibre line : Nat),
    (s.live = true) ∧
    (s.get (R.OPT_RXLINE_STATE fibre line) = 3) :=
  ⟨put wired [(R.OPT_RXLINE_STATE 3 9, 3)], 3, 9, by decide +kernel⟩

theorem test_meets_RingsSearchLockAndRelock_8 : ∃ (s : State) (fibre line : Nat),
    (s.live = true) ∧
    (fibre < 32) ∧
    (line < 64) ∧
    (s.get (R.OPT_TXLINE_STATE fibre line) = 4) ∧
    ((s.hop (hopKey fibre line)).up = false) :=
  ⟨put wired [(R.OPT_TXLINE_STATE 0 1, 4), (R.OPT_STAT_TX_LOCKED 0, 5), (R.OPT_COUNT_WRONG_LINE 0, 65535)], 0, 1, by decide +kernel⟩

theorem test_meets_RingsSearchLockAndRelock_9 : ∃ (s : State) (fibre line : Nat),
    (s.live = true) ∧
    (s.fabric.awake.contains (hopKey fibre line) = false) :=
  ⟨running, 2, 5, by decide +kernel⟩

theorem test_meets_RingsSearchLockAndRelock_10 : ∃ (s : State) (fibre line : Nat),
    (s.live = true) :=
  ⟨{ running with fabric := { Fabric.reset with awake := [7, 133] } }, 2, 5, by decide +kernel⟩

theorem test_meets_BurstsCarryControlAndFrames_1 : ∃ (s : State) (fibre line : Nat) (xs : List Frame) (hdr : BurstHeader),
    (s.live = true) ∧
    (line < 64) ∧
    ((s.hop (hopKey fibre line)).up = true) ∧
    (s.fibre fibre = 2) ∧
    ((s.hop (hopKey fibre line)).granted = []) ∧
    (s.takeQueued fibre line s.fabric.frames.length = s) ∧
    ((s.takeCtl (s.peerOf fibre line) (s.burstRoom fibre)).2 ≠ []) ∧
    (xs = s.ctlFrames fibre line (s.takeCtl (s.peerOf fibre line) (s.burstRoom fibre)).2) ∧
    (hdr = { srcChip := s.chip, plane := fibre, line := line, mcast := false, bodyM1 := max 64 (xs.map frameBlocks).sum - 1, frameM1 := (xs.map frameBlocks).sum - 1, targets := [] }) :=
  ⟨busy0, 0, 1, busy0.ctlFrames 0 1 (busy0.takeCtl (busy0.peerOf 0 1) (busy0.burstRoom 0)).2, hdr0 0 1 6, by decide +kernel⟩

theorem test_meets_BurstsCarryControlAndFrames_2 : ∃ (s : State) (fibre line id : Nat) (e : FrameSlot) (hdr : BurstHeader),
    (s.live = true) ∧
    (line < 64) ∧
    ((s.hop (hopKey fibre line)).up = true) ∧
    (s.fibre fibre = 2) ∧
    ((s.hop (hopKey fibre line)).granted = [id]) ∧
    (tget id s.fabric.frames = some e) ∧
    (e.mlines = []) ∧
    (s.takeQueued fibre line s.fabric.frames.length = s) ∧
    ((s.takeCtl (s.peerOf fibre line) (s.burstRoom fibre)).2 = []) ∧
    (hdr = { srcChip := s.chip, plane := fibre, line := line, mcast := false, bodyM1 := max 64 (frameBlocks e.frame) - 1, frameM1 := frameBlocks e.frame - 1, targets := [] }) :=
  ⟨laden0, 0, 1, 7, fslot (frame0 1 16 8) (some 32) 1 false [1], hdr0 0 1 4, by decide +kernel⟩

theorem test_meets_BurstsCarryControlAndFrames_3 : ∃ (s : State) (fibre line : Nat),
    (s.live = true) ∧
    (line < 64) ∧
    ((s.hop (hopKey fibre line)).up = true) ∧
    (s.fibre fibre = 2) ∧
    (0 < s.get (R.OPT_CTL_BURST_KIB fibre)) ∧
    ((fibre, line) ∈ s.hopsTo (s.peerOf fibre line)) :=
  ⟨put (wired.setHop 1 (hop1 [] [])) [(R.OPT_STAT_STATE 0, 2)], 0, 1, by decide +kernel⟩

theorem test_meets_BurstsCarryControlAndFrames_4 : ∃ (s : State) (fibre line n u : Nat) (symbols body : List Nat) (bs : List Block) (hdr : BurstHeader),
    (s.live = true) ∧
    (s.home.finished = []) ∧
    (fibre < 32) ∧
    (burstBlocks symbols = (bs, n, u)) ∧
    (burstForm bs = some (hdr, body)) ∧
    (hdr.plane = fibre) ∧
    (hdr.mcast = false) ∧
    (hdr.line = line) ∧
    (∀ l ∈ s.usedLines fibre, s.reachState (s.peerOf fibre l) ≠ 1 ∨ s.peerOf fibre l = s.hearsFrom fibre line) :=
  ⟨wired, 0, 63, 0, 0, burstSymbols (headerBlocks (hdr1 0)), [], headerBlocks (hdr1 0), hdr1 0, by decide +kernel⟩

theorem test_meets_BurstsCarryControlAndFrames_5 : ∃ (s : State) (fibre line n u : Nat) (symbols body : List Nat) (bs : List Block) (hdr : BurstHeader),
    (s.live = true) ∧
    (s.home.finished = []) ∧
    (fibre < 32) ∧
    (burstBlocks symbols = (bs, n, u)) ∧
    (burstForm bs = some (hdr, body)) ∧
    (hdr.plane ≠ fibre) :=
  ⟨wired, 0, 63, 0, 0, burstSymbols (headerBlocks (hdr1 1)), [], headerBlocks (hdr1 1), hdr1 1, by decide +kernel⟩

theorem test_meets_BurstsCarryControlAndFrames_6 : ∃ (s : State) (fibre line n u : Nat) (symbols : List Nat) (bs : List Block),
    (s.live = true) ∧
    (s.home.finished = []) ∧
    (fibre < 32) ∧
    (burstBlocks symbols = (bs, n, u)) ∧
    (burstForm bs = none) ∧
    (bs ≠ [] ∨ u = 0) :=
  ⟨wired, 0, 63, 0, 0, [], [], by decide +kernel⟩

theorem test_meets_BurstsCarryControlAndFrames_7 : ∃ (s : State) (fibre line power : Nat),
    (s.live = true) :=
  ⟨wired, 0, 63, 65400, by decide +kernel⟩

theorem test_meets_BurstsCarryControlAndFrames_8 : ∃ (s : State) (fibre line : Nat),
    (s.live = true) ∧
    (s.home.finished = []) ∧
    (fibre < 32) ∧
    (line < 64) ∧
    (s.get (R.OPT_RXLINE_STATE fibre line) = 2) ∧
    ((s.hop (s.rxHop fibre line)).up = true) ∧
    (s.reachState (s.hearsFrom fibre line) ≠ 2) :=
  ⟨put (wired.setHop 1 (hop1 [] [])) [(R.OPT_RXLINE_STATE 0 63, 2), (R.OPT_STAT_HOPS_UP 0, 2)], 0, 63, by decide +kernel⟩

theorem test_meets_BurstsCarryControlAndFrames_9 : ∃ (s : State) (fibre line n : Nat) (hdr : BurstHeader),
    (s.live = true) ∧
    (line < 64) ∧
    ((s.hop (hopKey fibre line)).up = false) ∧
    (s.get (R.OPT_TXLINE_STATE fibre line) = 4) ∧
    (s.rxLocked fibre (s.backLine fibre line) = true) ∧
    (s.fibre fibre = 2) ∧
    (n = ((s.hop (hopKey fibre line)).nonce + 1) % 2 ^ 32) ∧
    (hdr = { srcChip := s.chip, plane := fibre, line := line, mcast := false, bodyM1 := 63, frameM1 := 6, targets := [] }) :=
  ⟨put wired [(R.OPT_TXLINE_STATE 0 1, 4), (R.OPT_RXLINE_STATE 0 63, 2), (R.OPT_STAT_STATE 0, 2)], 0, 1, 1, hdr0 0 1 6, by decide +kernel⟩

theorem test_meets_LinkControlKeepsFramesAndCredit_1 : ∃ (s : State) (m : LinkCtl) (id q : Nat) (e : FrameSlot),
    (s.live = true) ∧
    (m.kind = 0) ∧
    (q < 2 ^ 24) ∧
    (m.value0 = q) ∧
    ((s.hop (s.msgHop m)).held = [(q, id)]) ∧
    (tget id s.fabric.frames = some e) ∧
    (e.queued = false) ∧
    (e.holds = [s.msgHop m]) ∧
    (e.mlines = []) ∧
    (s.fabric.waitIn = []) :=
  ⟨withFrame (wired.setHop 1 (hop1 [] [(3, 7)])) 7 (fslot (frame0 1 16 8) (some 32) 1 false [1]), ctl0 0 0 3 0, 7, 3, fslot (frame0 1 16 8) (some 32) 1 false [1], by decide +kernel⟩

theorem test_meets_LinkControlKeepsFramesAndCredit_2 : ∃ (s : State) (m : LinkCtl) (id q : Nat) (e : FrameSlot) (hdr : BurstHeader),
    (s.live = true) ∧
    (m.kind = 0) ∧
    (q < 2 ^ 24) ∧
    (m.value0 = q) ∧
    ((s.hop (s.msgHop m)).up = true) ∧
    ((s.hop (s.msgHop m)).held = [(q, id)]) ∧
    (tget id s.fabric.frames = some e) ∧
    (hdr = { srcChip := s.chip, plane := s.msgHop m / 64, line := s.msgHop m % 64, mcast := false, bodyM1 := max 64 (frameBlocks e.frame) - 1, frameM1 := frameBlocks e.frame - 1, targets := [] }) :=
  ⟨withFrame (wired.setHop 1 (hop1 [] [(3, 7)])) 7 (fslot (frame0 1 16 8) (some 32) 1 false [1]), ctl0 0 0 3 0, 7, 3, fslot (frame0 1 16 8) (some 32) 1 false [1], hdr0 0 1 4, by decide +kernel⟩

theorem test_meets_LinkControlKeepsFramesAndCredit_3 : ∃ (s : State) (fibre line id q : Nat) (e : FrameSlot) (hdr : BurstHeader),
    (s.live = true) ∧
    (line < 64) ∧
    (q < 2 ^ 24) ∧
    ((s.hop (hopKey fibre line)).up = true) ∧
    ((s.hop (hopKey fibre line)).held = [(q, id)]) ∧
    (tget id s.fabric.frames = some e) ∧
    (hdr = { srcChip := s.chip, plane := fibre, line := line, mcast := false, bodyM1 := max 64 (frameBlocks e.frame) - 1, frameM1 := frameBlocks e.frame - 1, targets := [] }) :=
  ⟨withFrame (wired.setHop 1 (hop1 [] [(3, 7)])) 7 (fslot (frame0 1 16 8) (some 32) 1 false [1]), 0, 1, 7, 3, fslot (frame0 1 16 8) (some 32) 1 false [1], hdr0 0 1 4, by decide +kernel⟩

theorem test_meets_LinkControlKeepsFramesAndCredit_4 : ∃ (s : State) (m : LinkCtl),
    (s.live = true) :=
  ⟨wired.setHop 1 (hop1 [] []), ctl0 0 1 4 0, by decide +kernel⟩

theorem test_meets_LinkControlKeepsFramesAndCredit_5 : ∃ (s : State) (m : LinkCtl) (has n : Nat),
    (s.live = true) ∧
    (has = (tget m.vc (s.hop (s.msgHop m)).given).getD 0) ∧
    (n = min (min (m.value0 - has) (s.standing m.plane m.vc + s.get (R.OPT_CREDIT_LEND_MAX m.plane) - has)) (s.lendPool m.plane m.vc)) ∧
    (n ≠ 0) ∧
    (s.msgHop m % 64 ∈ s.usedLines m.plane) ∧
    (s.msgHop m / 64 = m.plane) ∧
    (∀ k ∈ s.planeHops m.plane, k = s.msgHop m ∨ (tget m.vc (s.hop k).wants).getD 0 = 0) :=
  ⟨put (wired.setHop 1 (hop1 [] [])) [(R.SWC_LIMIT_IRES 32 1, 80)], ctl0 0 1 17 0, 0, 17, by decide +kernel⟩

theorem test_meets_LinkControlKeepsFramesAndCredit_6 : ∃ (s : State) (m : LinkCtl),
    (s.live = true) ∧
    (∀ k ∈ s.planeHops m.plane, (tget m.vc (s.hop k).wants).getD 0 = 0) :=
  ⟨wired, ctl0 0 1 17 0, by decide +kernel⟩

theorem test_meets_LinkControlKeepsFramesAndCredit_7 : ∃ (s : State) (fibre line vc : Nat),
    (s.live = true) ∧
    ((s.hop (hopKey fibre line)).up = true) ∧
    (s.standing fibre vc < s.creditOf (hopKey fibre line) vc) :=
  ⟨wired.setHop 1 (hop1 [] []), 0, 1, 1, by decide +kernel⟩

theorem test_meets_LinkControlKeepsFramesAndCredit_8 : ∃ (s : State) (m : LinkCtl),
    (s.live = true) :=
  ⟨wired, ctl0 1 0 1703936 0, by decide +kernel⟩

theorem test_meets_LinkControlKeepsFramesAndCredit_9 : ∃ (s : State) (m : LinkCtl),
    (s.live = true) ∧
    (m.plane < 32) ∧
    (s.get (R.OPT_TXLINE_STATE m.plane (m.value0 % 64)) = 4) ∧
    ((s.hop (hopKey m.plane (m.value0 % 64))).up = false) :=
  ⟨put wired [(R.OPT_TXLINE_STATE 0 1, 4)], ctl0 5 0 1 0, by decide +kernel⟩

theorem test_meets_LinkControlKeepsFramesAndCredit_10 : ∃ (s : State) (m : LinkCtl),
    (s.live = true) ∧
    (m.src ≠ s.chip) ∧
    (s.reachState m.src = 0) :=
  ⟨wired, ctl0 0 0 0 0, by decide +kernel⟩

theorem test_meets_HopsGoDownComeUpAndDrain_1 : ∃ (s : State) (m : LinkCtl),
    (s.live = true) ∧
    (m.kind = 0) :=
  ⟨wired.setHop 1 { hop1 [] [] with rxNext := 12 }, ctl0 0 0 0 0, by decide +kernel⟩

theorem test_meets_HopsGoDownComeUpAndDrain_2 : ∃ (s : State) (m : LinkCtl) (j id q : Nat) (e : FrameSlot),
    (s.live = true) ∧
    (m.kind = 0) ∧
    (q < 2 ^ 24) ∧
    (m.value0 = q) ∧
    ((s.hop (s.msgHop m)).up = false) ∧
    ((s.hop (s.msgHop m)).query = true) ∧
    ((s.hop (s.msgHop m)).held = [(q, id)]) ∧
    ((s.hop (s.msgHop m)).granted = []) ∧
    (s.otherHop (s.msgHop m) = some j) ∧
    (tget id s.fabric.frames = some e) ∧
    (s.fibre m.plane ≠ 3) :=
  ⟨withFrame ((wired.setHop 1 { hop1 [] [(3, 7)] with up := false, query := true }).setHop 65 (hop1 [] [])) 7 (fslot (frame0 1 16 8) (some 32) 1 false [1]), ctl0 0 0 3 0, 65, 7, 3, fslot (frame0 1 16 8) (some 32) 1 false [1], by decide +kernel⟩

theorem test_meets_HopsGoDownComeUpAndDrain_3 : ∃ (s : State) (m : LinkCtl),
    (s.live = true) ∧
    ((s.hop (s.msgHop m)).held = []) ∧
    ((s.hop (s.msgHop m)).granted = []) ∧
    (s.fabric.frames = []) :=
  ⟨wired.setHop 1 (hop1 [] []), ctl0 0 0 0 0, by decide +kernel⟩

theorem test_meets_HopsGoDownComeUpAndDrain_4 : ∃ (s : State) (m : LinkCtl),
    (s.live = true) ∧
    (m.plane < 32) ∧
    (s.fibre m.plane = 3) ∧
    (s.fabric.frames = []) ∧
    (s.fabric.arrived = []) ∧
    (∀ k ∈ s.planeHops m.plane, k = s.msgHop m ∨ (s.hop k).up = false ∨ (s.hop k).drainDone = true) :=
  ⟨put (wired.setHop 1 (hop1 [] [])) [(R.OPT_STAT_STATE 0, 3)], ctl0 0 0 0 0, by decide +kernel⟩

theorem test_meets_HopsGoDownComeUpAndDrain_5 : ∃ (s : State) (m : LinkCtl),
    (s.live = true) ∧
    (m.plane < 32) ∧
    ((s.hop (s.msgHop m)).up = true) ∧
    (s.fibre m.plane ≠ 3) :=
  ⟨put (wired.setHop 1 (hop1 [] [])) [(R.OPT_STAT_STATE 0, 2), (R.OPT_STAT_HOPS_UP 0, 1)], ctl0 0 0 0 0, by decide +kernel⟩

theorem test_meets_HopsGoDownComeUpAndDrain_6 : ∃ (s : State) (fibre line : Nat),
    (s.live = true) ∧
    (fibre < 32) ∧
    (line < 64) ∧
    ((s.hop (hopKey fibre line)).up = true) ∧
    ((s.hop (hopKey fibre line)).held ≠ []) ∧
    (s.get R.SWC_CTL_RETRY_MAX ≤ (s.hop (hopKey fibre line)).resends) ∧
    (s.fibre fibre ≠ 3) :=
  ⟨put (wired.setHop 1 { hop1 [] [(3, 7)] with resends := 255 }) [(R.OPT_STAT_STATE 0, 2), (R.OPT_STAT_HOPS_UP 0, 1)], 0, 1, by decide +kernel⟩

theorem test_meets_HopsGoDownComeUpAndDrain_7 : ∃ (s : State) (m : LinkCtl) (hdr : BurstHeader),
    (s.live = true) ∧
    ((s.hop (s.msgHop m)).answered ≠ some m.value0) ∧
    (hdr = { srcChip := s.chip, plane := m.plane, line := s.msgHop m % 64, mcast := false, bodyM1 := 63, frameM1 := 6, targets := [] }) :=
  ⟨wired.setHop 1 { hop1 [] [] with rxNext := 12, closed := true }, ctl0 0 0 5 0, hdr0 0 1 6, by decide +kernel⟩

theorem test_meets_HopsGoDownComeUpAndDrain_8 : ∃ (s : State) (m : LinkCtl),
    (s.live = true) ∧
    (m.plane < 32) ∧
    ((s.hop (s.msgHop m)).up = false) ∧
    ((s.hop (s.msgHop m)).nonce = m.value0) ∧
    (m.value0 ≠ 0) ∧
    (m.plane ∉ s.fabric.released) ∧
    (s.reachState (s.hopPeer (s.msgHop m)) ≠ 2) :=
  ⟨wired.setHop 1 { hop1 [] [] with up := false, nonce := 5, txNext := 9 }, ctl0 0 0 5 0, by decide +kernel⟩

theorem test_meets_HopsGoDownComeUpAndDrain_9 : ∃ (s : State) (fibre : Nat),
    (s.live = true) ∧
    (fibre < 32) ∧
    (s.fibre fibre = 2) :=
  ⟨put (wired.setHop 1 (hop1 [] [])) [(R.OPT_STAT_STATE 0, 2), (R.PARSER_PLANES_BULK, 3)], 0, by decide +kernel⟩

theorem test_meets_HopsGoDownComeUpAndDrain_10 : ∃ (s : State) (fibre : Nat),
    (s.live = true) ∧
    (s.fibre fibre = 4) ∧
    (fibre ∉ s.fabric.released) :=
  ⟨put wired [(R.OPT_STAT_STATE 0, 4), (R.OPT_CTL_DRAIN 0, 1)], 0, by decide +kernel⟩

theorem test_meets_HopsGoDownComeUpAndDrain_11 : ∃ (s : State) (fibre : Nat),
    (s.live = true) ∧
    (s.fibre fibre = 3) :=
  ⟨put wired [(R.OPT_STAT_STATE 0, 3), (R.OPT_CTL_DRAIN 0, 1)], 0, by decide +kernel⟩

theorem test_meets_HopsGoDownComeUpAndDrain_12 : ∃ (s : State) (fibre : Nat),
    (s.live = true) ∧
    (s.home.finished = []) ∧
    (fibre < 32) ∧
    (s.fibre fibre = 3) ∧
    (s.fabric.frames = []) ∧
    (s.fabric.arrived = []) :=
  ⟨put (wired.setHop 1 (hop1 [] [(3, 7)])) [(R.OPT_STAT_STATE 0, 3), (R.OPT_CTL_DRAIN 0, 1)], 0, by decide +kernel⟩

theorem test_meets_SwitchStoresForwardsAndChecks_1 : ∃ (s : State) (fibre line p : Nat) (x : Frame) (r : List Arrival),
    (s.live = true) ∧
    (s.home.finished = []) ∧
    ((tget (hopKey fibre line) s.fabric.arrived).getD [] = .frame false x :: r) ∧
    (x.art.opcode ≠ 0x30) ∧
    (bit x.art.flags flMcast = false) ∧
    ((s.hop (s.rxHop fibre line)).closed = false) ∧
    (x.art.lseq = (s.hop (s.rxHop fibre line)).rxNext) ∧
    (frameForm x.art fibre line = true) ∧
    (frameCrc x.art x.payload = x.crc) ∧
    (x.stomp = 0) ∧
    (fpaChip x.art.dest = s.chip) ∧
    (s.framePort x.art = some p) :=
  ⟨arrived0 (frame0 0 16 8), 0, 63, 64, frame0 0 16 8, [.past true], by decide +kernel⟩

theorem test_meets_SwitchStoresForwardsAndChecks_2 : ∃ (s : State) (fibre line : Nat) (x : Frame) (r : List Arrival),
    (s.live = true) ∧
    (s.home.finished = []) ∧
    (fibre < 32) ∧
    ((tget (hopKey fibre line) s.fabric.arrived).getD [] = .frame false x :: r) ∧
    (x.art.opcode ≠ 0x30) ∧
    (bit x.art.flags flMcast = false) ∧
    ((s.hop (s.rxHop fibre line)).closed = false) ∧
    (x.art.lseq = (s.hop (s.rxHop fibre line)).rxNext) ∧
    (frameForm x.art fibre line = true) ∧
    (frameCrc x.art x.payload ≠ x.crc) ∧
    (x.stomp = 0) :=
  ⟨arrived0 { frame0 0 16 8 with crc := 1 }, 0, 63, { frame0 0 16 8 with crc := 1 }, [.past true], by decide +kernel⟩

theorem test_meets_SwitchStoresForwardsAndChecks_3 : ∃ (s : State) (id p : Nat) (e : FrameSlot) (a : Arbiter),
    (s.live = true) ∧
    (s.home.finished = []) ∧
    (tget id s.fabric.frames = some e) ∧
    (e.queued = true) ∧
    (s.atHead e = true) ∧
    (fpaChip e.frame.art.dest = s.chip) ∧
    (e.mlines = []) ∧
    (e.out = some p) ∧
    (p < 32 ∨ 64 ≤ p) ∧
    (p < 141) ∧
    (e.inPort < 141) ∧
    (s.granted p (fun _ => true) = some (id, a)) ∧
    (s.fabric.waitIn = []) :=
  ⟨withFrame wired 7 (fslot (frame0 0 16 8) (some 64) 0 true []), 7, 64, fslot (frame0 0 16 8) (some 64) 0 true [], arb0, by decide +kernel⟩

theorem test_meets_SwitchStoresForwardsAndChecks_4 : ∃ (s : State) (id p : Nat) (e : FrameSlot) (a : Arbiter),
    (s.live = true) ∧
    (s.home.finished = []) ∧
    (tget id s.fabric.frames = some e) ∧
    (e.queued = true) ∧
    (s.atHead e = true) ∧
    (s.unreachable (fpaChip e.frame.art.dest) = false) ∧
    (e.out = some p) ∧
    (32 ≤ p) ∧
    (p < 64) ∧
    (e.mlines = []) ∧
    ((s.hop (hopKey (p - 32) e.line)).up = true) ∧
    (s.hopPeer (hopKey (p - 32) e.line) = fpaChip e.frame.art.dest ∨ s.unreachable (s.hopPeer (hopKey (p - 32) e.line)) = false) ∧
    (cellsOf e.frame.art.length ≤ s.creditOf (hopKey (p - 32) e.line) e.frame.art.vc) ∧
    (s.granted p (fun _ => true) = some (id, a)) :=
  ⟨{ withFrame (wired.setHop 1 (hop1 [] [])) 7 (fslot (frame0 1 16 8) (some 32) 1 true []) with tele := { Tele.reset with reach := [(1, { state := 1, how := 0, tick := 0 })] } }, 7, 32, fslot (frame0 1 16 8) (some 32) 1 true [], arb0, by decide +kernel⟩

theorem test_meets_SwitchStoresForwardsAndChecks_5 : ∃ (s : State) (id : Nat) (e : FrameSlot),
    (s.live = true) ∧
    (tget id s.fabric.frames = some e) ∧
    (e.queued = true) ∧
    (e.frame.art.vc ≤ 2) ∧
    (s.atHead e = true) ∧
    (fpaChip e.frame.art.dest ≠ s.chip) ∧
    (e.mlines = []) :=
  ⟨withFrame wired 7 (fslot (frame0 1 16 8) none 0 true []), 7, fslot (frame0 1 16 8) none 0 true [], by decide +kernel⟩

theorem test_meets_SwitchStoresForwardsAndChecks_6 : ∃ (s : State) (id : Nat) (e : FrameSlot),
    (s.live = true) ∧
    (s.home.finished = []) ∧
    (tget id s.fabric.frames = some e) ∧
    (e.queued = true) ∧
    (opClass e.frame.art.opcode ≠ 0) ∧
    (s.fabric.waitIn = []) :=
  ⟨withFrame wired 7 (fslot (frame0 0 16 8) (some 64) 0 true []), 7, fslot (frame0 0 16 8) (some 64) 0 true [], by decide +kernel⟩

theorem test_meets_SwitchStoresForwardsAndChecks_7 : ∃ (s : State) (id : Nat) (e : FrameSlot),
    (s.live = true) ∧
    (s.home.finished = []) ∧
    (tget id s.fabric.frames = some e) ∧
    (e.queued = false) :=
  ⟨withFrame wired 7 (fslot (frame0 0 16 8) (some 64) 0 false [1]), 7, fslot (frame0 0 16 8) (some 64) 0 false [1], by decide +kernel⟩

theorem test_meets_HomeAgentsServeRequests_1 : ∃ (s : State) (r : HomeReq) (len : Nat),
    (s.live = true) ∧
    (s.home.finished = []) ∧
    (fpaChip r.dest = s.chip) ∧
    (s.partErr r.partition = .none) ∧
    (16 ≤ fpaUnit r.dest ∧ fpaUnit r.dest < 36) ∧
    (fpaUnit r.dest < 32 ∨ s.edge.expanderDown.contains (s.farPort r.dest) = false) ∧
    (s.inQuiet r.dest = false) ∧
    (s.forwardOf r.dest = none) ∧
    (s.frameErr r.dest r.partition = .none) ∧
    (len ≤ 4096) ∧
    (s.anyPoison (lineKeys (fpaUnit r.dest) (fpaOff r.dest) len) = false) ∧
    (s.anyBadTag (lineKeys (fpaUnit r.dest) (fpaOff r.dest) len) = false) ∧
    ((linesOf r.dest len).all (s.lineClear false) = true) ∧
    (len ≠ 128 ∨ r.dest % 128 ≠ 0) ∧
    (r.src < 2 ^ 15) ∧
    (s.unreachable r.src = false) :=
  ⟨{ homed with mem := [(near0 3, 7#8)] }, req0 (near0 0), 4, by decide +kernel⟩

theorem test_meets_HomeAgentsServeRequests_2 : ∃ (s : State) (r : HomeReq),
    (s.live = true) ∧
    (s.home.finished = []) ∧
    (fpaChip r.dest = s.chip) ∧
    (s.partErr r.partition = .none) ∧
    (16 ≤ fpaUnit r.dest ∧ fpaUnit r.dest < 36) ∧
    (fpaUnit r.dest < 32 ∨ s.edge.expanderDown.contains (s.farPort r.dest) = false) ∧
    (s.inQuiet r.dest = false) ∧
    (s.forwardOf r.dest = none) ∧
    (s.frameErr r.dest r.partition = .none) ∧
    (s.anyPoison (lineKeys (fpaUnit r.dest) (fpaOff r.dest) 128) = false) ∧
    (s.anyBadTag (lineKeys (fpaUnit r.dest) (fpaOff r.dest) 128) = false) ∧
    (r.dest % 128 = 0) ∧
    (s.lineClear false (r.dest / 128) = true) ∧
    (s.reclaimFor (r.dest % 2 ^ 49 / 128) = none) ∧
    (r.src < 2 ^ 15) ∧
    (s.unreachable r.src = false) :=
  ⟨{ homed with mem := [(near0 3, 7#8)], home := { Home.reset with sharers := [(near0 0 / 128, [2, 3, 4, 5])] } }, req0 (near0 0), by decide +kernel⟩

theorem test_meets_HomeAgentsServeRequests_3 : ∃ (s : State) (r : HomeReq) (data : List Byte) (ordered : Bool),
    (s.live = true) ∧
    (s.home.finished = []) ∧
    (fpaChip r.dest = s.chip) ∧
    (s.partErr r.partition = .none) ∧
    (16 ≤ fpaUnit r.dest ∧ fpaUnit r.dest < 36) ∧
    (fpaUnit r.dest < 32 ∨ s.edge.expanderDown.contains (s.farPort r.dest) = false) ∧
    (s.inQuiet r.dest = false) ∧
    (s.forwardOf r.dest = none) ∧
    (s.frameErr r.dest r.partition = .none) ∧
    (data.length ≤ 4096) ∧
    (s.anyPoison (lineKeys (fpaUnit r.dest) (fpaOff r.dest) data.length) = false) ∧
    (s.anyBadTag (lineKeys (fpaUnit r.dest) (fpaOff r.dest) data.length) = false) ∧
    (s.orderBusy (if ordered then some (2 ^ 20 + r.src) else none) (fpaUnit r.dest) = false) ∧
    ((linesOf r.dest data.length).all (s.lineClear true) = true) ∧
    (s.hasCopies r.dest data.length = false) ∧
    (r.src < 2 ^ 15) ∧
    (s.unreachable r.src = false) :=
  ⟨{ homed with mem := [(near0 3, 7#8)] }, req0 (near0 0), [1#8, 2#8, 3#8, 0#8], true, by decide +kernel⟩

theorem test_meets_HomeAgentsServeRequests_4 : ∃ (s : State) (r : HomeReq) (op width operand compare : Nat),
    (s.live = true) ∧
    (s.home.finished = []) ∧
    (fpaChip r.dest = s.chip) ∧
    (s.partErr r.partition = .none) ∧
    (16 ≤ fpaUnit r.dest ∧ fpaUnit r.dest < 36) ∧
    (fpaUnit r.dest < 32 ∨ s.edge.expanderDown.contains (s.farPort r.dest) = false) ∧
    (s.inQuiet r.dest = false) ∧
    (s.forwardOf r.dest = none) ∧
    (s.frameErr r.dest r.partition = .none) ∧
    (atomicWidth op width = true) ∧
    (r.dest % width = 0) ∧
    (s.anyPoison (lineKeys (fpaUnit r.dest) (fpaOff r.dest) width) = false) ∧
    (s.anyBadTag (lineKeys (fpaUnit r.dest) (fpaOff r.dest) width) = false) ∧
    (s.orderBusy (some (2 ^ 20 + r.src)) (fpaUnit r.dest) = false) ∧
    ((linesOf r.dest width).all (s.lineClear true) = true) ∧
    (s.hasCopies r.dest width = false) ∧
    (r.src < 2 ^ 15) ∧
    (s.unreachable r.src = false) :=
  ⟨{ homed with mem := [(near0 3, 7#8)] }, req0 (near0 0), 0, 4, 5, 0, by decide +kernel⟩

theorem test_meets_HomeAgentsServeRequests_5 : ∃ (s : State) (r : HomeReq) (op operand compare : Nat),
    (s.live = true) ∧
    (s.home.finished = []) ∧
    (fpaChip r.dest = s.chip) ∧
    (s.partErr r.partition = .none) ∧
    (fpaUnit r.dest = 49) ∧
    (fpaOff r.dest % 8 = 0) ∧
    (s.ownsCounter r.partition (fpaOff r.dest / 8) = true) ∧
    (atomicWidth op 8 = true) ∧
    (r.src < 2 ^ 15) ∧
    (s.unreachable r.src = false) :=
  ⟨homed, req0 (49 * 2 ^ 43 + 56), 1, 77, 0, by decide +kernel⟩

theorem test_meets_HomeAgentsServeRequests_6 : ∃ (s : State) (r : HomeReq) (writer : Option Nat),
    (s.live = true) ∧
    (s.home.finished = []) ∧
    (fpaChip r.dest = s.chip) ∧
    (s.partErr r.partition = .none) ∧
    (r.src < 2 ^ 15) ∧
    (s.unreachable r.src = false) :=
  ⟨{ homed with home := { Home.reset with tiles := [(0, { Tile.empty with l1 := [((2 ^ 49 + near0 0) / 128, 4)] })] } }, req0 (near0 0), none, by decide +kernel⟩

theorem test_meets_HomeAgentsServeRequests_7 : ∃ (s : State) (r : HomeReq) (operand compare : Nat),
    (s.live = true) ∧
    (s.home.finished = []) ∧
    (fpaChip r.dest = s.chip) ∧
    (s.partErr r.partition = .none) ∧
    (fpaUnit r.dest = 49) ∧
    (fpaOff r.dest % 8 = 0) ∧
    (s.ownsCounter r.partition (fpaOff r.dest / 8) = true) ∧
    (r.src < 2 ^ 15) ∧
    (s.unreachable r.src = false) :=
  ⟨{ homed with work := { Work.reset with counters := [(7, 2 ^ 64 - 1)] } }, req0 (49 * 2 ^ 43 + 56), 2, 0, by decide +kernel⟩

theorem test_meets_HomeAgentsServeRequests_8 : ∃ (s : State) (r : HomeReq) (descriptor : List Byte) (extents : List (Nat × Nat × Nat)),
    (s.live = true) ∧
    (s.home.finished = []) ∧
    (fpaChip r.dest = s.chip) ∧
    (s.partErr r.partition = .none) ∧
    (fpaUnit r.dest = 50) ∧
    (s.anyTile = true) :=
  ⟨put homed [(R.TILE_STAT_STATE 0, 0)], req0 (50 * 2 ^ 43), List.replicate 64 1#8, [(0, 64, near0 0)], by decide +kernel⟩

theorem test_meets_HomeAgentsServeRequests_9 : ∃ (s : State) (r : HomeReq) (len : Nat),
    (s.live = true) ∧
    (s.home.finished = []) ∧
    (fpaChip r.dest = s.chip) ∧
    (s.get (R.PART_STATE_STATE r.partition) = 0) ∧
    (r.src < 2 ^ 15) ∧
    (s.unreachable r.src = false) :=
  ⟨put homed [(R.PART_STATE_STATE 1, 0)], req0 (near0 0), 4, by decide +kernel⟩

theorem test_meets_HomeAgentsServeRequests_10 : ∃ (s : State) (r : HomeReq) (len op operand compare : Nat) (data : List Byte) (ordered : Bool) (writer : Option Nat) (extents : List (Nat × Nat × Nat)),
    (s.home.finished = []) ∧
    (fpaChip r.dest ≠ s.chip) :=
  ⟨homed, req0 (2 ^ 49 + near0 0), 4, 1, 0, 0, [], true, none, [], by decide +kernel⟩

theorem test_meets_HomeAgentsServeRequests_11 : ∃ (s : State) (r : HomeReq) (len op operand compare : Nat) (data : List Byte) (ordered : Bool) (writer : Option Nat) (extents : List (Nat × Nat × Nat)),
    (s.home.finished = []) ∧
    (fpaChip r.dest ≠ s.chip) :=
  ⟨homed, req0 (2 ^ 49 + near0 0), 4, 1, 0, 0, [], true, none, [], by decide +kernel⟩

theorem test_meets_HomeAgentsServeRequests_12 : ∃ (s : State) (r : HomeReq) (len op operand compare : Nat) (data : List Byte) (ordered : Bool) (writer : Option Nat) (extents : List (Nat × Nat × Nat)),
    (s.home.finished = []) ∧
    (fpaChip r.dest ≠ s.chip) :=
  ⟨homed, req0 (2 ^ 49 + near0 0), 4, 1, 0, 0, [], true, none, [], by decide +kernel⟩

theorem test_meets_HomeAgentsServeRequests_13 : ∃ (s : State) (r : HomeReq) (len op operand compare : Nat) (data : List Byte) (ordered : Bool) (writer : Option Nat) (extents : List (Nat × Nat × Nat)),
    (s.home.finished = []) ∧
    (fpaChip r.dest ≠ s.chip) :=
  ⟨homed, req0 (2 ^ 49 + near0 0), 4, 1, 0, 0, [], true, none, [], by decide +kernel⟩

theorem test_meets_HomeAgentsServeRequests_14 : ∃ (s : State) (r : HomeReq) (len op operand compare : Nat) (data : List Byte) (ordered : Bool) (writer : Option Nat) (extents : List (Nat × Nat × Nat)),
    (s.home.finished = []) ∧
    (fpaChip r.dest ≠ s.chip) :=
  ⟨homed, req0 (2 ^ 49 + near0 0), 4, 1, 0, 0, [], true, none, [], by decide +kernel⟩

theorem test_meets_HomeAgentsServeRequests_15 : ∃ (s : State) (r : HomeReq) (len op operand compare : Nat) (data : List Byte) (ordered : Bool) (writer : Option Nat) (extents : List (Nat × Nat × Nat)),
    (s.home.finished = []) ∧
    (fpaChip r.dest ≠ s.chip) :=
  ⟨homed, req0 (2 ^ 49 + near0 0), 4, 1, 0, 0, [], true, none, [], by decide +kernel⟩

theorem test_meets_ResponsesEndRequests_1 : ∃ (s : State) (r : Resp) (data : List Byte) (e : Track),
    (s.live = true) ∧
    (tget r.tag s.fabric.track = some e) ∧
    (e.opcode = 1) ∧
    (e.quarantined = false) ∧
    (r.status ≠ .unreachable) :=
  ⟨tracked 1 false, { src := 1, tag := 9, status := .none }, [1#8], track0 1 false, by decide +kernel⟩

theorem test_meets_ResponsesEndRequests_2 : ∃ (s : State) (r : Resp) (e : Track),
    (s.live = true) ∧
    (tget r.tag s.fabric.track = some e) ∧
    (e.opcode = 2) ∧
    (e.quarantined = false) ∧
    (r.status ≠ .unreachable) :=
  ⟨tracked 2 false, { src := 1, tag := 9, status := .poison }, track0 2 false, by decide +kernel⟩

theorem test_meets_ResponsesEndRequests_3 : ∃ (s : State) (r : Resp) (old : Nat) (e : Track),
    (s.live = true) ∧
    (tget r.tag s.fabric.track = some e) ∧
    (e.opcode = 3) ∧
    (e.quarantined = false) ∧
    (r.status ≠ .unreachable) :=
  ⟨tracked 3 false, { src := 1, tag := 9, status := .none }, 5, track0 3 false, by decide +kernel⟩

theorem test_meets_ResponsesEndRequests_4 : ∃ (s : State) (r : Resp) (e : Track),
    (s.live = true) ∧
    (tget r.tag s.fabric.track = some e) ∧
    (e.opcode = 4) ∧
    (e.quarantined = false) ∧
    (r.status ≠ .unreachable) :=
  ⟨tracked 4 false, { src := 1, tag := 9, status := .none }, track0 4 false, by decide +kernel⟩

theorem test_meets_ResponsesEndRequests_5 : ∃ (s : State) (r : Resp) (old : Nat) (e : Track),
    (s.live = true) ∧
    (tget r.tag s.fabric.track = some e) ∧
    (e.opcode = 5) ∧
    (e.quarantined = false) ∧
    (r.status ≠ .unreachable) :=
  ⟨tracked 5 false, { src := 1, tag := 9, status := .none }, 5, track0 5 false, by decide +kernel⟩

theorem test_meets_ResponsesEndRequests_6 : ∃ (s : State) (r : Resp) (chunks segment addr : Nat) (e : Track),
    (s.live = true) ∧
    (tget r.tag s.fabric.track = some e) ∧
    (e.opcode = 7) ∧
    (e.quarantined = false) ∧
    (r.status ≠ .unreachable) :=
  ⟨tracked 7 false, { src := 1, tag := 9, status := .none }, 1, 2, 3, track0 7 false, by decide +kernel⟩

theorem test_meets_ResponsesEndRequests_7 : ∃ (s : State) (m : DirMsg) (op : Nat) (status : Err) (e : Track),
    (s.live = true) ∧
    (tget m.tag s.fabric.track = some e) ∧
    (e.opcode = 6) ∧
    (e.quarantined = false) ∧
    (status ≠ .unreachable) :=
  ⟨tracked 6 false, dir0 (near0 0) 0, 5, .resource, track0 6 false, by decide +kernel⟩

theorem test_meets_ResponsesEndRequests_8 : ∃ (s : State) (r : Resp) (data : List Byte) (e : Track),
    (s.live = true) ∧
    (s.home.finished = []) ∧
    (tget r.tag s.fabric.track = some e) ∧
    (e.opcode = 1) ∧
    (e.quarantined = true) ∧
    (r.status ≠ .unreachable) :=
  ⟨tracked 1 true, { src := 1, tag := 9, status := .none }, [1#8], track0 1 true, by decide +kernel⟩

theorem test_meets_ResponsesEndRequests_9 : ∃ (s : State) (r : Resp) (data : List Byte) (e : Track) (c : At) (clause n : Nat) (x : StreamEntry) (line : Nat),
    (s.live = true) ∧
    (Calm s) ∧
    (tget r.tag s.fabric.track = some e) ∧
    (e.opcode = 1) ∧
    (e.quarantined = false) ∧
    (e.cont = .lineFill (some c.tile) line 0 128 (.stream c clause n)) ∧
    (r.status = .none) ∧
    (tget n (s.tile c.tile).entries = some x) ∧
    ((s.ctx c).map (fun y => y.clause) = some clause) ∧
    (s.fabric.waitTag = []) :=
  ⟨{ strm0 with fabric := { Fabric.reset with track := [(9, { track0 1 false with cont := .lineFill (some 0) 77 0 128 (.stream ⟨0, 0⟩ 3 2) })] }, home := { Home.reset with tiles := [(0, { Tile.empty with ctxs := [(0, ctxP)], entries := [(2, { ctx := 0, pat := 1, line := 77, first := 64, upto := 192, filled := false, stale := false, once := false, failed := false, data := [] })] })] } }, { src := 1, tag := 9, status := .none }, List.replicate 128 3#8, { track0 1 false with cont := .lineFill (some 0) 77 0 128 (.stream ⟨0, 0⟩ 3 2) }, ⟨0, 0⟩, 3, 2, { ctx := 0, pat := 1, line := 77, first := 64, upto := 192, filled := false, stale := false, once := false, failed := false, data := [] }, 77, by decide +kernel⟩

theorem test_meets_DirectoryRequestsAreServed_1 : ∃ (s : State) (m : DirMsg) (k : Nat),
    (s.live = true) ∧
    (s.home.finished = []) ∧
    (s.partErr m.partition = .none) ∧
    (m.oldFrame % 2 ^ 21 = 0) ∧
    (s.homeFrame m.partition m.page 0 m.oldFrame true = (.none, k, true)) ∧
    (s.parser.dir = []) :=
  ⟨homed, dir0 (16 * 2 ^ 43) 0, 16 * 2 ^ 22, by decide +kernel⟩

theorem test_meets_DirectoryRequestsAreServed_2 : ∃ (s : State) (m : DirMsg) (i : Nat) (d : DirRec),
    (s.live = true) ∧
    (s.home.finished = []) ∧
    (s.get (R.PART_STATE_STATE m.partition) = 1) ∧
    (s.notOwner m = false) ∧
    (s.parser.dir.find? (fun d => d.2.frame == frameKey m.oldFrame) = some (i, d)) ∧
    (m.src < 2 ^ 15) ∧
    (s.unreachable m.src = false) :=
  ⟨{ homed with parser := { Parser.reset with dir := [(0, { partition := 1, page := 5, frame := 16 * 2 ^ 22 + 1, registered := [1, 2], replicas := [], placing := [], placed := [] })] } }, dir0 (near0 0) 0, 0, { partition := 1, page := 5, frame := 16 * 2 ^ 22 + 1, registered := [1, 2], replicas := [], placing := [], placed := [] }, by decide +kernel⟩

theorem test_meets_DirectoryRequestsAreServed_3 : ∃ (s : State) (m : DirMsg),
    (s.live = true) ∧
    (s.home.finished = []) ∧
    (s.get (R.PART_STATE_STATE m.partition) = 1) ∧
    (s.noExtent m.oldFrame = true) ∧
    (m.src < 2 ^ 15) ∧
    (s.unreachable m.src = false) :=
  ⟨homed, dir0 (near0 0) 0, by decide +kernel⟩

theorem test_meets_DirectoryRequestsAreServed_4 : ∃ (s : State) (m : DirMsg),
    (s.live = true) ∧
    (s.home.finished = []) ∧
    (s.get (R.PART_STATE_STATE m.partition) = 1) ∧
    (s.noExtent m.oldFrame = false) ∧
    (m.src < 2 ^ 15) ∧
    (s.unreachable m.src = false) :=
  ⟨{ homed with security := { Security.reset with loads := [(3, { path := .nelarA, reqId := 7, body := { partition := 1, pkgFva := 0, pkgLen := 0, dstFva := 0, reserved := false }, tense := 0, pkg := [{ fva := 0, len := 64, fpa := near0 0, side := false }], dst := [], header := [], key := [], base := 0, chunks := 0, cancelled := false })] } }, dir0 (near0 0) 0, by decide +kernel⟩

theorem test_meets_DirectoryRequestsAreServed_5 : ∃ (s : State) (m : DirMsg) (i : Nat) (e : PmEntry),
    (s.live = true) ∧
    (s.home.finished = []) ∧
    (s.get (R.PART_STATE_STATE m.partition) = 1) ∧
    (s.pmFind m.partition m.page = some (i, e)) ∧
    (fpaChip m.newFrame ≠ s.chip) ∧
    (s.inFlightTo m.oldFrame = false) ∧
    (s.parser.updates = []) ∧
    (tget (m.oldFrame / 2 ^ 21) s.parser.replicas = none) ∧
    (m.src < 2 ^ 15) ∧
    (s.unreachable m.src = false) :=
  ⟨{ homed with xlat := { homed.xlat with pageMap := [(pmSet 1 5 * 16, pm0 1 16 1)] }, parser := { Parser.reset with holding := [(1, 5)] } }, dir0 (2 ^ 49 + near0 0) (2 ^ 49 + 17 * 2 ^ 43), pmSet 1 5 * 16, pm0 1 16 1, by decide +kernel⟩

theorem test_meets_DirectoryRequestsAreServed_6 : ∃ (s : State) (m : DirMsg),
    (s.live = true) ∧
    (s.home.finished = []) ∧
    (s.get (R.PART_STATE_STATE m.partition) = 1) ∧
    (m.src < 2 ^ 15) ∧
    (s.unreachable m.src = false) :=
  ⟨{ homed with parser := { Parser.reset with holding := [(1, 4), (1, 5)] } }, dir0 (near0 0) 0, by decide +kernel⟩

theorem test_meets_DirectoryRequestsAreServed_7 : ∃ (s : State) (m : DirMsg) (k : Nat),
    (s.live = true) ∧
    (s.home.finished = []) ∧
    (s.get (R.PART_STATE_STATE m.partition) = 1) ∧
    (tget (m.oldFrame / 2 ^ 21) s.parser.replicas = none) ∧
    (s.parser.replicas.length < 16384) ∧
    (s.quotaFull m.partition 16 = false) ∧
    (s.nearPick = some k) ∧
    (m.src < 2 ^ 15) ∧
    (s.unreachable m.src = false) :=
  ⟨homed, dir0 (2 ^ 49 + near0 0) 0, 16 * 2 ^ 22, by decide +kernel, by decide +kernel, by decide +kernel, by decide +kernel, by decide +kernel, by decide +kernel, test_homed_pick, by decide +kernel, by decide +kernel⟩

theorem test_meets_DirectoryRequestsAreServed_8 : ∃ (s : State) (m : DirMsg) (r : Replica),
    (s.live = true) ∧
    (Calm s) ∧
    (s.get (R.PART_STATE_STATE m.partition) = 1) ∧
    (tget (m.oldFrame / 2 ^ 21) s.parser.replicas = some r) ∧
    (s.tileLines (r.frameFpa / 128 + m.firstBlock * 32) ((m.lastBlock + 1 - m.firstBlock) * 32) = []) ∧
    (m.src < 2 ^ 15) ∧
    (s.unreachable m.src = false) :=
  ⟨withReplica, dir0 (2 ^ 49 + near0 0) 0, replica0, by decide +kernel⟩

theorem test_meets_DirectoryRequestsAreServed_9 : ∃ (s : State) (m : DirMsg) (r : Replica),
    (s.live = true) ∧
    (s.home.finished = []) ∧
    (s.get (R.PART_STATE_STATE m.partition) = 1) ∧
    (tget (m.oldFrame / 2 ^ 21) s.parser.replicas = some r) ∧
    (s.tileLines (r.frameFpa / 128 + m.firstBlock * 32) ((m.lastBlock + 1 - m.firstBlock) * 32) ≠ []) :=
  ⟨{ withReplica with home := { Home.reset with tiles := [(1, { Tile.empty with l1 := [(near0 8192 / 128, 1)] })] } }, dir0 (2 ^ 49 + near0 0) 0, replica0, by decide +kernel⟩

theorem test_meets_DirectoryRequestsAreServed_10 : ∃ (s : State) (m : DirMsg) (r : Replica),
    (s.live = true) ∧
    (Calm s) ∧
    (s.get (R.PART_STATE_STATE m.partition) = 1) ∧
    (fpaChip m.oldFrame ≠ s.chip) ∧
    (tget (m.oldFrame / 2 ^ 21) s.parser.replicas = some r) ∧
    (s.tileLines (r.frameFpa / 128) 16384 = []) ∧
    (m.src < 2 ^ 15) ∧
    (s.unreachable m.src = false) :=
  ⟨withReplica, dir0 (2 ^ 49 + near0 0) 0, replica0, by decide +kernel⟩

theorem test_meets_DirectoryRequestsAreServed_11 : ∃ (s : State) (m : DirMsg) (k : Nat),
    (s.live = true) ∧
    (s.home.finished = []) ∧
    (s.get (R.PART_STATE_STATE m.partition) = 1) ∧
    (fpaUnit m.oldFrame < 32) ∧
    (s.dirUsed < 65535) ∧
    (s.quotaFull m.partition 16 = false) ∧
    (s.nearPick = some k) ∧
    (m.src < 2 ^ 15) ∧
    (s.unreachable m.src = false) :=
  ⟨homed, dir0 (2 ^ 49 + near0 0) 0, 16 * 2 ^ 22, by decide +kernel, by decide +kernel, by decide +kernel, by decide +kernel, by decide +kernel, by decide +kernel, test_homed_pick, by decide +kernel, by decide +kernel⟩

theorem test_meets_ParserEpochsAndMoves_1 : ∃ (s : State) (use : List Nat),
    (s.live = true) ∧
    (s.home.finished = []) ∧
    (s.parser.migrations = []) ∧
    (s.parser.dir = []) ∧
    (s.parser.replicas = []) ∧
    (s.parser.epochs + 1 ≤ s.get R.PARSER_CTL_WARMUP) :=
  ⟨{ homed with parser := { Parser.reset with heat := [(3, { Heat.zero with r := 9, w := 2, k := 4, c := 1, heat := 5, hold := 2 })] } }, [], by decide +kernel⟩

theorem test_meets_ParserEpochsAndMoves_2 : ∃ (s : State) (p page : Nat) (m : Migration),
    (s.live = true) ∧
    (s.home.finished = []) ∧
    (s.migration p page = some m) ∧
    (m.step = 1) ∧
    (s.mayMove p = true) ∧
    (s.regsOf m = []) :=
  ⟨moving 1, 1, 5, mig0 1, by decide +kernel⟩

theorem test_meets_ParserEpochsAndMoves_3 : ∃ (s : State) (p page i : Nat) (m : Migration) (e : PmEntry),
    (s.live = true) ∧
    (s.home.finished = []) ∧
    (s.migration p page = some m) ∧
    (m.step = 4) ∧
    (m.refused = false) ∧
    (m.dirty = []) ∧
    (s.mayMove p = true) ∧
    (s.noExtent m.oldFpa = true) ∧
    (s.quiet m.oldFpa = true) ∧
    (m.copying = 0) ∧
    (s.home.quietWait = []) ∧
    (s.regsOf m = []) ∧
    (s.parser.dir = []) ∧
    (s.pmFind p page = some (i, e)) ∧
    (e.chip = s.chip) ∧
    (frameKey e.fpa = frameKey m.oldFpa) ∧
    (fpaChip m.newFpa = s.chip) :=
  ⟨moving 4, 1, 5, pmSet 1 5 * 16, mig0 4, { pm0 0 16 1 with migrating := true }, by decide +kernel⟩

theorem test_meets_ParserEpochsAndMoves_4 : ∃ (s : State) (p page i b : Nat) (m : Migration) (e : PmEntry),
    (s.live = true) ∧
    (s.home.finished = []) ∧
    (s.migration p page = some m) ∧
    (m.step = 4) ∧
    (m.refused = false) ∧
    (m.dirty = [b]) ∧
    (b < 512) ∧
    (s.mayMove p = true) ∧
    (s.noExtent m.oldFpa = true) ∧
    (s.quiet m.oldFpa = true) ∧
    (m.copying = 0) ∧
    (s.home.quietWait = []) ∧
    (s.regsOf m = []) ∧
    (s.parser.dir = []) ∧
    (s.pmFind p page = some (i, e)) ∧
    (e.chip = s.chip) ∧
    (frameKey e.fpa = frameKey m.oldFpa) ∧
    (fpaChip m.newFpa = s.chip) :=
  ⟨{ moving 4 with mem := [(near0 (4096 * 3 + 5), 9#8)], parser := { Parser.reset with migrations := [{ mig0 4 with dirty := [3] }] } }, 1, 5, pmSet 1 5 * 16, 3, { mig0 4 with dirty := [3] }, { pm0 0 16 1 with migrating := true }, by decide +kernel⟩

theorem test_meets_ParserEpochsAndMoves_5 : ∃ (s : State) (p page : Nat) (m : Migration),
    (s.live = true) ∧
    (s.home.finished = []) ∧
    (s.migration p page = some m) ∧
    (m.step = 4) ∧
    (s.mayMove p = true) ∧
    (s.home.quietWait = []) :=
  ⟨moving 4, 1, 5, mig0 4, by decide +kernel⟩

theorem test_meets_ParserEpochsAndMoves_6 : ∃ (s : State) (p page : Nat) (m : Migration),
    (s.live = true) ∧
    (s.home.finished = []) ∧
    (s.migration p page = some m) ∧
    (m.step = 4) ∧
    (s.mayMove p = true) :=
  ⟨moving 4, 1, 5, mig0 4, by decide +kernel⟩

theorem test_meets_ParserEpochsAndMoves_7 : ∃ (s : State) (p page i : Nat) (m : Migration) (e : PmEntry),
    (s.live = true) ∧
    (s.home.finished = []) ∧
    (s.migration p page = some m) ∧
    (m.step = 6) ∧
    (m.waiting = []) ∧
    (s.parser.chosen = []) ∧
    (fpaChip m.newFpa = s.chip) ∧
    (s.pmFind p page = some (i, e)) :=
  ⟨moving 6, 1, 5, pmSet 1 5 * 16, mig0 6, { pm0 0 16 1 with migrating := true }, by decide +kernel⟩

theorem test_meets_RingArbiterSerialisesLines_1 : ∃ (s : State) (line stop : Nat) (own : Bool),
    (s.live = true) ∧
    (1 ≤ stop ∧ stop ≤ 86) ∧
    ((stopTile stop).any (bit s.boot.fuses.fused) = false) ∧
    (∀ o ∈ s.home.ops, o.2.line ≠ some line) ∧
    (tget line s.home.lines = none) ∧
    (s.home.lines.length < 256) ∧
    (s.home.ringIn = []) ∧
    (s.home.ringHeld = []) :=
  ⟨running, 77, 86, true, by decide +kernel⟩

theorem test_meets_RingArbiterSerialisesLines_2 : ∃ (s : State) (line stop n l : Nat) (q : RingReq) (rest : List RingReq) (r : RingLine),
    (s.live = true) ∧
    (tget line s.home.lines = some r) ∧
    (r.queue = q :: rest) ∧
    (r.phase = .snooping) ∧
    (stop ≤ 42 ∧ stop = r.posA + 1) ∧
    (stop ≠ q.stop) ∧
    (stop ≠ lineStop line) ∧
    (stopTile stop = some n) ∧
    (s.logical n = some l) ∧
    (line ∉ (s.tile l).held) ∧
    (tget line (s.tile l).l1 = some 3) :=
  ⟨{ withLine ({ rline false with posA := 1 }) with home := { (withLine ({ rline false with posA := 1 })).home with tiles := [(1, { Tile.empty with l1 := [(near0 0 / 128, 3)] })] } }, near0 0 / 128, 2, 1, 1, { stop := 1, own := false, op := 0 }, [], { rline false with posA := 1 }, by decide +kernel⟩

theorem test_meets_RingArbiterSerialisesLines_3 : ∃ (s : State) (line stop n l : Nat) (q : RingReq) (rest : List RingReq) (r : RingLine),
    (s.live = true) ∧
    (tget line s.home.lines = some r) ∧
    (r.queue = q :: rest) ∧
    (r.phase = .snooping) ∧
    (45 ≤ stop ∧ stop + 1 = r.posB) ∧
    (stop ≠ q.stop) ∧
    (stop ≠ lineStop line) ∧
    (stopTile stop = some n) ∧
    (s.logical n = some l) ∧
    (line ∉ (s.tile l).held) ∧
    (tget line (s.tile l).l1 = some 3) :=
  ⟨{ withLine ({ rline false with posB := 47 }) with home := { (withLine ({ rline false with posB := 47 })).home with tiles := [(27, { Tile.empty with l1 := [(near0 0 / 128, 3)] })] } }, near0 0 / 128, 46, 27, 27, { stop := 1, own := false, op := 0 }, [], { rline false with posB := 47 }, by decide +kernel⟩

theorem test_meets_RingArbiterSerialisesLines_4 : ∃ (s : State) (line stop n l : Nat) (q : RingReq) (rest : List RingReq) (r : RingLine),
    (s.live = true) ∧
    (tget line s.home.lines = some r) ∧
    (r.queue = q :: rest) ∧
    (r.phase = .snooping) ∧
    (stop ≤ 42 ∧ stop = r.posA + 1) ∧
    (stop ≠ q.stop) ∧
    (stop ≠ lineStop line) ∧
    (stopTile stop = some n) ∧
    (s.logical n = some l) ∧
    (line ∈ (s.tile l).held) :=
  ⟨{ withLine { rline true with posA := 1 } with home := { (withLine { rline true with posA := 1 }).home with tiles := [(1, { Tile.empty with l1 := [(near0 0 / 128, 3)], held := [near0 0 / 128] })] } }, near0 0 / 128, 2, 1, 1, { stop := 1, own := true, op := 0 }, [], { rline true with posA := 1 }, by decide +kernel⟩

theorem test_meets_RingArbiterSerialisesLines_5 : ∃ (s : State) (line : Nat) (q : RingReq) (rest : List RingReq) (r : RingLine),
    (s.live = true) ∧
    (tget line s.home.lines = some r) ∧
    (r.queue = q :: rest) ∧
    (r.phase = .snooping) ∧
    (r.posA = 42) ∧
    (lineStop line ≠ 43) :=
  ⟨withLine { rline true with posA := 42, ownedA := true }, near0 0 / 128, { stop := 1, own := true, op := 0 }, [], { rline true with posA := 42, ownedA := true }, by decide +kernel⟩

theorem test_meets_RingArbiterSerialisesLines_6 : ∃ (s : State) (line : Nat) (q : RingReq) (rest : List RingReq) (r : RingLine),
    (s.live = true) ∧
    (s.home.finished = []) ∧
    (tget line s.home.lines = some r) ∧
    (r.queue = q :: rest) ∧
    (r.phase = .snooping) ∧
    (r.posB = 44) ∧
    (r.halfA = true) ∧
    (r.heldA = false) ∧
    (r.heldB = false) ∧
    (q.own = false) :=
  ⟨withLine { rline false with posA := 43, posB := 44, halfA := true, ownedA := true }, near0 0 / 128, { stop := 1, own := false, op := 0 }, [], { rline false with posA := 43, posB := 44, halfA := true, ownedA := true }, by decide +kernel⟩

theorem test_meets_RingArbiterSerialisesLines_7 : ∃ (s : State) (line : Nat) (q : RingReq) (rest : List RingReq) (r : RingLine) (o : HomeOp),
    (s.live = true) ∧
    (s.home.finished = []) ∧
    (tget line s.home.lines = some r) ∧
    (r.queue = q :: rest) ∧
    (r.phase = .snooping) ∧
    (r.posB = 44) ∧
    (r.halfA = true) ∧
    (r.heldA = false) ∧
    (r.heldB = false) ∧
    (q.own = true) ∧
    (tget q.op s.home.ops = some o) ∧
    (o.line = some line) ∧
    (s.hasCopies o.acc.fpa (max 1 o.acc.act.len) = false) :=
  ⟨{ withLine { rline true with posA := 43, posB := 44, halfA := true } with home := { (withLine { rline true with posA := 43, posB := 44, halfA := true }).home with ops := [(0, { (running.hereAccess (near0 0) 1 (.write [1#8]) .drop none none).op 1 137 with tile := some 0, line := some (near0 0 / 128) })] } }, near0 0 / 128, { stop := 1, own := true, op := 0 }, [], { rline true with posA := 43, posB := 44, halfA := true }, { (running.hereAccess (near0 0) 1 (.write [1#8]) .drop none none).op 1 137 with tile := some 0, line := some (near0 0 / 128) }, by decide +kernel⟩

theorem test_meets_RingArbiterSerialisesLines_8 : ∃ (s : State) (line : Nat) (q : RingReq) (rest : List RingReq) (r : RingLine),
    (s.live = true) ∧
    (s.home.finished = []) ∧
    (tget line s.home.lines = some r) ∧
    (r.queue = q :: rest) ∧
    (r.phase = .snooping) ∧
    (r.posA = 43) ∧
    (r.halfB = true) ∧
    (r.heldA = true ∨ r.heldB = true) :=
  ⟨withLine { rline true with posA := 43, posB := 44, halfB := true, heldB := true }, near0 0 / 128, { stop := 1, own := true, op := 0 }, [], { rline true with posA := 43, posB := 44, halfB := true, heldB := true }, by decide +kernel⟩

theorem test_meets_RingArbiterSerialisesLines_9 : ∃ (s : State) (line n l : Nat) (q : RingReq) (rest : List RingReq) (r : RingLine),
    (s.live = true) ∧
    (s.home.finished = []) ∧
    (tget line s.home.lines = some r) ∧
    (r.queue = q :: rest) ∧
    (r.phase = .done) ∧
    (tget q.op s.home.ops = none) ∧
    (stopTile q.stop = some n) ∧
    (s.logical n = some l) :=
  ⟨withLine { rline true with phase := .done }, near0 0 / 128, 0, 0, { stop := 1, own := true, op := 0 }, [], { rline true with phase := .done }, by decide +kernel⟩

theorem test_meets_RingArbiterSerialisesLines_10 : ∃ (s : State) (line : Nat) (q : RingReq) (r : RingLine),
    (s.live = true) ∧
    (tget line s.home.lines = some r) ∧
    (r.queue = [q]) ∧
    (r.phase = .fin) ∧
    (s.home.ringIn = []) :=
  ⟨withLine { rline true with phase := .fin }, near0 0 / 128, { stop := 1, own := true, op := 0 }, { rline true with phase := .fin }, by decide +kernel⟩

theorem test_meets_RingArbiterSerialisesLines_11 : ∃ (s : State) (line : Nat) (q q2 : RingReq) (rest : List RingReq) (r : RingLine),
    (s.live = true) ∧
    (tget line s.home.lines = some r) ∧
    (r.queue = q :: q2 :: rest) ∧
    (r.phase = .fin) ∧
    (s.home.ringIn = []) :=
  ⟨withLine { rline true with phase := .fin, queue := [⟨1, true, 0⟩, ⟨3, false, 1⟩] }, near0 0 / 128, ⟨1, true, 0⟩, ⟨3, false, 1⟩, [], { rline true with phase := .fin, queue := [⟨1, true, 0⟩, ⟨3, false, 1⟩] }, by decide +kernel⟩

theorem test_meets_RingArbiterSerialisesLines_12 : ∃ (s : State) (line : Nat) (q : RingReq) (rest : List RingReq) (r : RingLine),
    (s.live = true) ∧
    (tget line s.home.lines = some r) ∧
    (r.queue = q :: rest) ∧
    (r.phase = .retry) :=
  ⟨withLine { rline true with phase := .retry }, near0 0 / 128, ⟨1, true, 0⟩, [], { rline true with phase := .retry }, by decide +kernel⟩

theorem test_meets_RingArbiterSerialisesLines_13 : ∃ (s : State) (line : Nat) (q : RingReq) (rest : List RingReq) (r : RingLine),
    (s.live = true) ∧
    (tget line s.home.lines = some r) ∧
    (r.queue = q :: rest) ∧
    (r.phase = .retried) :=
  ⟨{ withLine { rline true with phase := .retried } with home := { (withLine { rline true with phase := .retried }).home with tiles := [(2, { Tile.empty with held := [5, near0 0 / 128] })] } }, near0 0 / 128, ⟨1, true, 0⟩, [], { rline true with phase := .retried }, by decide +kernel⟩

theorem test_meets_RingArbiterSerialisesLines_14 : ∃ (s : State) (tile line : Nat),
    (s.live = true) :=
  ⟨{ running with home := { Home.reset with tiles := [(2, { Tile.empty with held := [5, 6] })] } }, 2, 5, by decide +kernel⟩

theorem test_meets_DirectRequestsReachTheirHome_1 : ∃ (s : State) (d : Direct) (p fpa : Nat),
    (Admits s d 0 p fpa) ∧
    (fpaChip fpa ≠ s.chip) ∧
    (s.replicaOf fpa = none) ∧
    (s.unreachable (fpaChip fpa) = false) ∧
    (s.fabric.waitTag = []) ∧
    (s.get (R.PART_OUTSTANDING_USED p) < s.get (R.PART_OUTSTANDING_QUOTA p)) ∧
    (s.fabric.track.length < 131072) :=
  ⟨edged, direct0 6 64 8, 1, 2 ^ 49 + near0 64, by decide +kernel⟩

theorem test_meets_DirectRequestsReachTheirHome_2 : ∃ (s : State) (d : Direct) (data : List Byte) (p fpa : Nat),
    (Admits s d 1 p fpa) ∧
    (fpaChip fpa ≠ s.chip) ∧
    (s.unreachable (fpaChip fpa) = false) ∧
    (s.fabric.waitTag = []) ∧
    (s.get (R.PART_OUTSTANDING_USED p) < s.get (R.PART_OUTSTANDING_QUOTA p)) ∧
    (s.fabric.track.length < 131072) :=
  ⟨edged, direct0 6 64 2, [1#8, 2#8], 1, 2 ^ 49 + near0 64, by decide +kernel⟩

theorem test_meets_DirectRequestsReachTheirHome_3 : ∃ (s : State) (d : Direct) (op : PcieAtomic) (operand compare p fpa : Nat),
    (Admits s d 2 p fpa) ∧
    (atomicWidth (pcieCode op) d.len = true) ∧
    (bits d.addr 51 0 % d.len = 0) ∧
    (fpaChip fpa ≠ s.chip) ∧
    (s.unreachable (fpaChip fpa) = false) ∧
    (s.fabric.waitTag = []) ∧
    (s.get (R.PART_OUTSTANDING_USED p) < s.get (R.PART_OUTSTANDING_QUOTA p)) ∧
    (s.fabric.track.length < 131072) :=
  ⟨edged, direct0 6 64 8, .swap, 7, 0, 1, 2 ^ 49 + near0 64, by decide +kernel⟩

theorem test_meets_DirectRequestsReachTheirHome_4 : ∃ (s : State) (d : Direct) (p fpa : Nat),
    (Admits s d 0 p fpa) ∧
    (Calm s) ∧
    (fpaChip fpa = s.chip) ∧
    (16 ≤ fpaUnit fpa ∧ fpaUnit fpa < 36) ∧
    (fpaUnit fpa < 32 ∨ s.edge.expanderDown.contains (s.farPort fpa) = false) ∧
    (s.inQuiet fpa = false) ∧
    (s.forwardOf fpa = none) ∧
    (s.frameErr fpa p = .none) ∧
    (s.anyPoison (lineKeys (fpaUnit fpa) (fpaOff fpa) d.len) = false) ∧
    (s.anyBadTag (lineKeys (fpaUnit fpa) (fpaOff fpa) d.len) = false) ∧
    ((linesOf fpa d.len).all (s.lineClear false) = true) :=
  ⟨{ edged with mem := [(near0 65, 9#8)] }, direct0 5 64 300, 1, near0 64, by decide +kernel⟩

theorem test_meets_DirectRequestsReachTheirHome_5 : ∃ (s : State) (d : Direct) (data : List Byte) (p fpa : Nat),
    (Admits s d 1 p fpa) ∧
    (Calm s) ∧
    (fpaChip fpa = s.chip) ∧
    (16 ≤ fpaUnit fpa ∧ fpaUnit fpa < 36) ∧
    (fpaUnit fpa < 32 ∨ s.edge.expanderDown.contains (s.farPort fpa) = false) ∧
    (s.inQuiet fpa = false) ∧
    (s.forwardOf fpa = none) ∧
    (s.frameErr fpa p = .none) ∧
    (s.anyPoison (lineKeys (fpaUnit fpa) (fpaOff fpa) data.length) = false) ∧
    (s.anyBadTag (lineKeys (fpaUnit fpa) (fpaOff fpa) data.length) = false) ∧
    ((linesOf fpa data.length).all (s.lineClear true) = true) ∧
    (s.hasCopies fpa data.length = false) ∧
    (s.home.ops = [] ∧ s.home.farWait = [] ∧ s.home.lockWait = [] ∧ s.home.writeQueue = [] ∧ s.home.orderWait = [] ∧ s.home.memReqs = []) :=
  ⟨{ edged with mem := [(near0 65, 9#8)] }, direct0 5 64 2, [1#8, 2#8], 1, near0 64, by decide +kernel⟩

theorem test_meets_ControlRegionServesQueuesAndCounters_1 : ∃ (s : State) (c : CtlReq) (v q p : Nat) (r : Queue),
    (s.live = true) ∧
    (s.home.finished = []) ∧
    (s.get (R.EDGE_STAT_ROLE c.port) = 0) ∧
    (s.get (R.EDGE_STAT_STATE c.port) = 2) ∧
    (s.ctlCheck c true = (.none, p)) ∧
    (ctlObject c.offset = .queue q 0) ∧
    (s.queue q = some r) ∧
    ((v % 2 ^ 32 + 2 ^ 32 - s.get (R.QPAGE_SQ_HEAD q)) % 2 ^ 32 ≤ 2 ^ r.sqLog2) :=
  ⟨queued, ctl1 4096 true, 3, 1, 1, queue0, by decide +kernel⟩

theorem test_meets_ControlRegionServesQueuesAndCounters_2 : ∃ (s : State) (c : CtlReq) (v q p : Nat) (r : Queue),
    (s.live = true) ∧
    (s.home.finished = []) ∧
    (s.get (R.EDGE_STAT_ROLE c.port) = 0) ∧
    (s.get (R.EDGE_STAT_STATE c.port) = 2) ∧
    (s.ctlCheck c true = (.none, p)) ∧
    (ctlObject c.offset = .queue q 8) ∧
    (s.queue q = some r) ∧
    (r.records = []) ∧
    ((s.get (R.QPAGE_CQ_TAIL q) + 2 ^ 32 - v % 2 ^ 32) % 2 ^ 32 ≤ 2 ^ r.cqLog2) :=
  ⟨put queued [(R.QPAGE_CQ_TAIL 1, 5)], ctl1 4104 false, 5, 1, 1, queue0, by decide +kernel⟩

theorem test_meets_ControlRegionServesQueuesAndCounters_3 : ∃ (s : State) (c : CtlReq) (p : Nat),
    (s.live = true) ∧
    (s.home.finished = []) ∧
    (s.get (R.EDGE_STAT_ROLE c.port) = 0) ∧
    (s.get (R.EDGE_STAT_STATE c.port) = 2) ∧
    (s.ctlCheck c false = (.none, p)) ∧
    (c.posted = false) :=
  ⟨queued, ctl1 4112 false, 1, by decide +kernel⟩

theorem test_meets_ControlRegionServesQueuesAndCounters_4 : ∃ (s : State) (c : CtlReq) (v n p : Nat),
    (s.live = true) ∧
    (s.home.finished = []) ∧
    (s.get (R.EDGE_STAT_ROLE c.port) = 0) ∧
    (s.get (R.EDGE_STAT_STATE c.port) = 2) ∧
    (s.ctlCheck c true = (.none, p)) ∧
    (ctlObject c.offset = .counter n) :=
  ⟨queued, ctl1 0x08000038 true, 99, 7, 1, by decide +kernel⟩

theorem test_meets_ControlRegionServesQueuesAndCounters_5 : ∃ (s : State) (c : CtlReq) (op : PcieAtomic) (x y n p : Nat),
    (s.live = true) ∧
    (s.home.finished = []) ∧
    (s.get (R.EDGE_STAT_ROLE c.port) = 0) ∧
    (s.get (R.EDGE_STAT_STATE c.port) = 2) ∧
    (s.ctlCheck { c with posted := false } true = (.none, p)) ∧
    (ctlObject c.offset = .counter n) :=
  ⟨queued, ctl1 0x08000038 false, .fetchAdd, 99, 0, 7, 1, by decide +kernel⟩

theorem test_meets_EdgePortsServeAndDrain_1 : ∃ (s : State) (port rate width size : Nat) (ide : Bool),
    (s.live = true) ∧
    (port < 32) ∧
    (s.get (R.EDGE_STAT_ROLE port) = 0) ∧
    (s.get (R.EDGE_STAT_STATE port) = 1) ∧
    (s.ideRequired port = false) ∧
    (s.deviceFits port rate width size true ide = true) :=
  ⟨put edged [(R.EDGE_STAT_STATE 0, 1)], 0, 2, 16, 2 ^ 34, false, by decide +kernel⟩

theorem test_meets_EdgePortsServeAndDrain_2 : ∃ (s : State) (port : Nat),
    (s.live = true) ∧
    (s.home.finished = []) ∧
    (port < 32) ∧
    (s.get (R.EDGE_STAT_ROLE port) = 0) ∧
    (s.get (R.EDGE_STAT_STATE port) = 2) ∧
    (s.home.memReqs = [] ∧ s.home.writeTable = [] ∧ s.home.writeQueue = [] ∧ s.home.orderWait = []) :=
  ⟨edged, 0, by decide +kernel⟩

theorem test_meets_EdgePortsServeAndDrain_3 : ∃ (s : State) (port : Nat),
    (s.live = true) ∧
    (s.home.finished = []) ∧
    (port < 32) ∧
    (s.get (R.EDGE_STAT_ROLE port) = 0) ∧
    (s.get (R.EDGE_STAT_IDE port) = 1) ∧
    (s.get (R.EDGE_STAT_STATE port) = 2) ∧
    (s.home.memReqs = [] ∧ s.home.writeTable = [] ∧ s.home.writeQueue = [] ∧ s.home.orderWait = []) :=
  ⟨put edged [(R.EDGE_STAT_IDE 0, 1)], 0, by decide +kernel⟩

theorem test_meets_EdgePortsServeAndDrain_4 : ∃ (s : State) (port : Nat),
    (s.live = true) ∧
    (port < 36) ∧
    (s.portIde port = true) :=
  ⟨put edged [(R.EDGE_STAT_IDE 0, 1)], 0, by decide +kernel⟩

theorem test_meets_EdgePortsServeAndDrain_5 : ∃ (s : State) (slot offset : Nat),
    (s.live = true) ∧
    (Calm s) ∧
    (s.lineClear true (mkFpa s.chip slot offset / 128) = true) ∧
    (s.sharersOf (mkFpa s.chip slot offset) 1 = []) :=
  ⟨{ edged with home := { Home.reset with tiles := [(0, { Tile.empty with l1 := [(3, 4), (4, 2)] })] } }, 0, 1024, by decide +kernel⟩

theorem test_meets_EdgePortsServeAndDrain_6 : ∃ (s : State) (slot offset : Nat),
    (s.live = true) ∧
    (s.home.finished = []) ∧
    (s.home.ops = []) ∧
    (s.home.tiles.any (fun e => e.2.has (mkFpa s.chip slot offset / 128)) = true) :=
  ⟨{ edged with home := { Home.reset with tiles := [(0, { Tile.empty with l1 := [(3, 4), (4, 2)] })] } }, 0, 512, by decide +kernel⟩

theorem test_meets_EdgePortsServeAndDrain_7 : ∃ (s : State) (port tag src qtag p tn n : Nat) (data : List Byte) (r : MemReq),
    (s.live = true) ∧
    (s.home.finished = []) ∧
    (tget tag s.home.memReqs = some r) ∧
    (r.port = port) ∧
    (r.write = false) ∧
    (r.act = .read n) ∧
    (r.who = .frame src qtag p tn false) ∧
    (src < 2 ^ 15) ∧
    (s.unreachable src = false) :=
  ⟨{ edged with home := { Home.reset with memReqs := [(3, memReq0)] } }, 0, 3, 1, 9, 1, 0, 4, [1#8, 2#8, 3#8, 4#8], memReq0, by decide +kernel⟩

theorem test_meets_EdgePortsServeAndDrain_8 : ∃ (s : State) (port : Nat),
    (s.live = true) ∧
    (port < 32) ∧
    (s.get (R.EDGE_STAT_ROLE port) = 0) ∧
    (s.get (R.EDGE_STAT_STATE port) = 2) ∧
    (s.home.finished = [] ∧ s.home.writeTable = [] ∧ s.home.writeQueue = [] ∧ s.home.orderWait = []) :=
  ⟨{ edged with home := { Home.reset with memReqs := [(3, memReq0)] } }, 0, by decide +kernel⟩

theorem test_meets_EdgePortsServeAndDrain_9 : ∃ (s : State) (port : Nat),
    (s.live = true) ∧
    (port < 32) ∧
    (s.get (R.EDGE_STAT_ROLE port) = 1) ∧
    (s.home.finished = []) ∧
    (∀ p < 32, s.get (R.EDGE_STAT_STATE p) ≠ 3) :=
  ⟨put edged [(R.EDGE_STAT_ROLE 4, 1)], 4, by decide +kernel⟩

theorem test_meets_EdgePortsServeAndDrain_10 : ∃ (s : State) (port : Nat),
    (s.live = true) ∧
    (port < 32) ∧
    (s.get (R.EDGE_STAT_STATE port) = 4) :=
  ⟨put edged [(R.EDGE_STAT_STATE 0, 4), (R.EDGE_CTL_ENABLE 0, 0)], 0, by decide +kernel⟩

theorem test_meets_EdgePortsServeAndDrain_11 : ∃ (s : State) (port id : Nat) (d : DirectRec),
    (s.live = true) ∧
    (s.home.finished = []) ∧
    (port < 32) ∧
    (s.get (R.EDGE_STAT_STATE port) = 3) ∧
    (s.edge.directs = [(id, d)]) ∧
    (d.port = port) ∧
    (s.home.memReqs = []) ∧
    (s.home.orderWait = []) :=
  ⟨put { edged with edge := { Edge.reset with directs := [(2, { port := 0, slot := 0, tag := 8, partition := 1, addr := 5 * 2 ^ 21, fpa := near0 0, act := .read 4, view := 0, tense := 0, issued := true, tick := 0 })] } } [(R.EDGE_STAT_STATE 0, 3)], 0, 2, { port := 0, slot := 0, tag := 8, partition := 1, addr := 5 * 2 ^ 21, fpa := near0 0, act := .read 4, view := 0, tense := 0, issued := true, tick := 0 }, by decide +kernel⟩

theorem test_meets_EdgePortsServeAndDrain_12 : ∃ (s : State) (port v : Nat),
    (s.live = true) ∧
    (port < 32) ∧
    (bit v 15 = false) :=
  ⟨put edged [(R.EDGE_CFG_DATA_DONE 0, 1)], 0, 0x1008, by decide +kernel⟩

theorem test_meets_EdgePortsServeAndDrain_13 : ∃ (s : State) (port v : Nat),
    (s.live = true) ∧
    (port < 32) ∧
    (bit v 15 = true) :=
  ⟨edged, 0, 0x9008, by decide +kernel⟩

theorem test_meets_EdgePortsServeAndDrain_14 : ∃ (s : State) (port func reg : Nat) (write ok : Bool),
    (s.live = true) ∧
    (tget port s.edge.cfg = some (write, func, reg)) :=
  ⟨{ edged with edge := { Edge.reset with cfg := [(0, true, 1, 2)] } }, 0, 1, 2, true, false, by decide +kernel⟩

theorem test_meets_MemoryTiersTrainWaitAndFail_1 : ∃ (s : State) (port : Nat),
    (s.live = true) ∧
    (s.isFarPort port = true) ∧
    (s.portState port = 2) ∧
    (port ∉ s.edge.expanderDown) :=
  ⟨put homed [(R.MEMP_STAT_STATE 1, 2)], 33, by decide +kernel⟩

theorem test_meets_MemoryTiersTrainWaitAndFail_2 : ∃ (s : State) (port : Nat),
    (s.live = true) ∧
    (s.home.finished = []) ∧
    (port ∈ s.edge.expanderDown) ∧
    (∀ a ∈ s.home.farWait, s.farPort a.fpa ≠ port) ∧
    (s.home.orderWait = []) :=
  ⟨{ put homed [(R.MEMP_STAT_STATE 1, 2)] with edge := { Edge.reset with expanderDown := [33] } }, 33, by decide +kernel⟩

theorem test_meets_MemoryTiersTrainWaitAndFail_3 : ∃ (s : State) (port : Nat),
    (s.live = true) ∧
    (s.home.finished = []) ∧
    (port ∈ s.edge.expanderDown) ∧
    (32 ≤ port ∧ port < 36) ∧
    (s.home.farWait = [] ∧ s.home.orderWait = []) ∧
    (s.parser.dir = []) :=
  ⟨{ put homed [(R.MEMP_STAT_STATE 1, 2)] with edge := { Edge.reset with expanderDown := [33] }, xlat := { homed.xlat with pageMap := [(pmSet 1 5 * 16, pm0 0 33 1)] } }, 33, by decide +kernel⟩

theorem test_meets_MemoryTiersTrainWaitAndFail_4 : ∃ (s : State) (port : Nat),
    (s.live = true) ∧
    (s.home.finished = []) ∧
    (port ∈ s.edge.expanderDown) ∧
    (32 ≤ port ∧ port < 36) ∧
    (s.home.farWait = [] ∧ s.home.orderWait = []) ∧
    (s.parser.dir = []) :=
  ⟨{ put homed [(R.MEMP_STAT_STATE 1, 2)] with edge := { Edge.reset with expanderDown := [33] }, xlat := { homed.xlat with pageMap := [(pmSet 1 5 * 16, pm0 0 33 1)] } }, 33, by decide +kernel⟩

theorem test_meets_MemoryTiersTrainWaitAndFail_5 : ∃ (s : State) (site rate density devices : Nat),
    (s.live = true) ∧
    (site < 16) ∧
    (s.get (R.GDDR_STAT_STATE site) = 1) ∧
    (density = s.get R.GDDR_CFG_DENSITY) ∧
    (devices = s.get R.GDDR_CFG_CLAMSHELL + 1) ∧
    (∀ u < 16, s.get (R.GDDR_STAT_STATE u) ≠ 2) ∧
    (s.get R.GDDR_CFG_RATE_CEIL ≤ rate ∧ rate ≤ s.get R.GDDR_CFG_RATE_FLOOR) :=
  ⟨put running [(R.GDDR_STAT_STATE 3, 1)], 3, 1, running.get R.GDDR_CFG_DENSITY, running.get R.GDDR_CFG_CLAMSHELL + 1, by decide +kernel⟩

theorem test_meets_MemoryTiersTrainWaitAndFail_6 : ∃ (s : State) (site : Nat),
    (s.live = true) ∧
    (site < 16) ∧
    (s.get (R.GDDR_STAT_STATE site) = 2) ∧
    (s.parser.dir = []) :=
  ⟨put { homed with xlat := { homed.xlat with pageMap := [(pmSet 1 5 * 16, pm0 0 16 1)] } } [(R.GDDR_STAT_STATE 0, 2)], 0, by decide +kernel⟩

theorem test_meets_MemoryTiersTrainWaitAndFail_7 : ∃ (s : State) (site : Nat),
    (s.live = true) ∧
    (site < 16) ∧
    (s.get (R.GDDR_STAT_STATE site) = 2) ∧
    (s.parser.dir = []) :=
  ⟨put { homed with xlat := { homed.xlat with pageMap := [(pmSet 1 5 * 16, pm0 0 16 1)] } } [(R.GDDR_STAT_STATE 0, 2)], 0, by decide +kernel⟩

theorem test_meets_MemoryTiersTrainWaitAndFail_9 : ∃ (s : State) (site block fails : Nat) (write unc : Bool) (other : Option (List Byte × List Byte)),
    (s.live = true) ∧
    (site < 16) ∧
    (s.get (R.GDDR_STAT_STATE site) = 2) ∧
    (4 < fails ∨ unc = true) :=
  ⟨put homed [(R.GDDR_STAT_STATE 0, 2)], 0, 17, 5, false, false, none, by decide +kernel⟩

theorem test_meets_MemoryTiersTrainWaitAndFail_10 : ∃ (s : State) (site block fails p : Nat) (cipher tag : List Byte) (ks : PartKeys),
    (s.live = true) ∧
    (site < 16) ∧
    (s.get (R.GDDR_STAT_STATE site) = 2) ∧
    (fails ≤ 4) ∧
    (s.blockKeysOf (memKey (16 + site) 0 / 256 + block) = some (p, ks)) ∧
    (blockTag ks s.chip (memKey (16 + site) 0 / 256 + block) p cipher ≠ tag) :=
  ⟨put (parted 1) [(R.GDDR_STAT_STATE 0, 2)], 0, 2 ^ 13, 1, 1, [], List.replicate 9 0#8, .none, by decide +kernel, by decide +kernel, by decide +kernel, by decide +kernel, by decide +kernel, test_tag9 _ _ _ _ _⟩

theorem test_meets_MemoryTiersTrainWaitAndFail_11 : ∃ (s : State) (site block fails p : Nat) (cipher : List Byte) (ks : PartKeys),
    (s.live = true) ∧
    (site < 16) ∧
    (s.get (R.GDDR_STAT_STATE site) = 2) ∧
    (fails ≤ 4) ∧
    (s.blockKeysOf (memKey (16 + site) 0 / 256 + block) = some (p, ks)) ∧
    (s.stored (memKey (16 + site) 0 / 256 + block) ≠ some (cipher, blockTag ks s.chip (memKey (16 + site) 0 / 256 + block) p cipher)) :=
  ⟨put (parted 1) [(R.GDDR_STAT_STATE 0, 2)], 0, 2 ^ 13, 1, 1, 0#8 :: (((put (parted 1) [(R.GDDR_STAT_STATE 0, 2)]).stored (memKey (16 + 0) 0 / 256 + 2 ^ 13)).map Prod.fst).getD [], .none, by decide +kernel, by decide +kernel, by decide +kernel, by decide +kernel, by decide +kernel, test_cipher _ _⟩

theorem test_meets_NelarLinksTrainRetryAndDrain_1 : ∃ (s : State) (l skew turn : Nat) (lanes : List LaneSeen),
    (s.live = true) ∧
    (l < 2) ∧
    (1 ≤ s.linkState l ∧ s.linkState l ≤ 3) ∧
    (lanes.length = 8) ∧
    (∀ x ∈ lanes, isAm 2 x.am = true ∧ bits x.am 11 11 = l) ∧
    (lanes.map (fun x => bits x.am 10 8) = List.range 8 ∨ lanes.map (fun x => bits x.am 10 8) = (List.range 8).reverse) ∧
    (skew ≤ 16) ∧
    (s.nelar.notices = []) ∧
    (s.nelar.owed = []) ∧
    (s.xlat.closedBatches = []) :=
  ⟨put running [(R.NELAR_STAT_STATE 1, 3), (R.NELAR_STAT_FAULT 1, 3)], 1, 16, 3, (List.range 8).reverse.map (fun i => { am := amPayload 1 i 0, scr := i, since := 2, bip := 5 }), by decide +kernel⟩

theorem test_meets_NelarLinksTrainRetryAndDrain_2 : ∃ (s : State) (l skew turn : Nat) (lanes : List LaneSeen),
    (s.live = true) ∧
    (l < 2) ∧
    (1 ≤ s.linkState l ∧ s.linkState l ≤ 3) ∧
    (lanes.length = 8) ∧
    (∀ x ∈ lanes, isAm 2 x.am = true) ∧
    (alignFault l skew lanes ≠ 0) :=
  ⟨put running [(R.NELAR_STAT_STATE 0, 2)], 0, 17, 0, (List.range 8).map (fun i => { am := amPayload 0 i 0, scr := i, since := 2, bip := 5 }), by decide +kernel⟩

theorem test_meets_NelarLinksTrainRetryAndDrain_3 : ∃ (s : State) (l : Nat) (bs : List (Nat × Nat)) (k : Link) (x : List Byte),
    (s.live = true) ∧
    (l < 2) ∧
    (s.linkState l = 4) ∧
    (takeBlocks (s.link l) bs = (k, [.flit x])) ∧
    ((flitOf x).crcOk = false) :=
  ⟨{ put running [(R.NELAR_STAT_STATE 0, 4), (R.NELAR_COUNT_CRC_FAIL 0, 65535)] with nelar := { Nelar.reset with linkA := rx0 } }, 0, wire0 (flitHead { fseq := 0, ackseq := 0, kind := 1, credit := 5, crcOk := true, payload := List.replicate 240 0#8 } ++ List.replicate 8 0#8), (takeBlocks (rx0) (wire0 (flitHead { fseq := 0, ackseq := 0, kind := 1, credit := 5, crcOk := true, payload := List.replicate 240 0#8 } ++ List.replicate 8 0#8))).1, flitHead { fseq := 0, ackseq := 0, kind := 1, credit := 5, crcOk := true, payload := List.replicate 240 0#8 } ++ List.replicate 8 0#8, by decide +kernel⟩

theorem test_meets_NelarLinksTrainRetryAndDrain_4 : ∃ (s : State) (l : Nat) (bs : List (Nat × Nat)) (k : Link) (x : List Byte),
    (s.live = true) ∧
    (l < 2) ∧
    (s.linkState l = 4) ∧
    (takeBlocks (s.link l) bs = (k, [.flit x])) ∧
    ((flitOf x).crcOk = true) ∧
    ((flitOf x).kind = 1) ∧
    ((flitOf x).fseq = k.expect) ∧
    ((flitOf x).payload = List.replicate 240 0#8) ∧
    (k.rx = []) ∧
    (k.held = []) ∧
    (k.queue = []) :=
  ⟨{ put running [(R.NELAR_STAT_STATE 0, 4)] with nelar := { Nelar.reset with linkA := { rx0 with expect := 65535 } } }, 0, wire0 (flitBytes { fseq := 65535, ackseq := 65535, kind := 1, credit := 5, crcOk := true, payload := List.replicate 240 0#8 }), (takeBlocks ({ rx0 with expect := 65535 }) (wire0 (flitBytes { fseq := 65535, ackseq := 65535, kind := 1, credit := 5, crcOk := true, payload := List.replicate 240 0#8 }))).1, flitBytes { fseq := 65535, ackseq := 65535, kind := 1, credit := 5, crcOk := true, payload := List.replicate 240 0#8 }, by decide +kernel⟩

theorem test_meets_NelarLinksTrainRetryAndDrain_5 : ∃ (s : State) (l : Nat) (bs : List (Nat × Nat)) (k : Link) (x : List Byte),
    (s.live = true) ∧
    (l < 2) ∧
    (s.linkState l = 4) ∧
    (takeBlocks (s.link l) bs = (k, [.flit x])) ∧
    ((flitOf x).crcOk = true) ∧
    ((flitOf x).kind = 1) ∧
    ((flitOf x).fseq ≠ k.expect) ∧
    (k.nackSent = false) ∧
    (k.held = []) ∧
    (k.queue = []) :=
  ⟨{ put running [(R.NELAR_STAT_STATE 1, 4)] with nelar := { Nelar.reset with linkB := rx0 } }, 1, wire0 (flitBytes { fseq := 3, ackseq := 65535, kind := 1, credit := 5, crcOk := true, payload := List.replicate 240 0#8 }), (takeBlocks (rx0) (wire0 (flitBytes { fseq := 3, ackseq := 65535, kind := 1, credit := 5, crcOk := true, payload := List.replicate 240 0#8 }))).1, flitBytes { fseq := 3, ackseq := 65535, kind := 1, credit := 5, crcOk := true, payload := List.replicate 240 0#8 }, by decide +kernel⟩

theorem test_meets_NelarLinksTrainRetryAndDrain_6 : ∃ (s : State) (l : Nat) (bs : List (Nat × Nat)) (k : Link) (x : List Byte),
    (s.live = true) ∧
    (l < 2) ∧
    (s.linkState l = 4) ∧
    (takeBlocks (s.link l) bs = (k, [.flit x])) ∧
    ((flitOf x).crcOk = true) ∧
    ((flitOf x).kind = 2) ∧
    ((k.held.any (fun h => h.1 == (flitOf x).ackseq)) = false) ∧
    (k.held ≠ []) ∧
    (k.queue = []) ∧
    (k.replays < s.get (R.NELAR_CTL_REPLAY_MAX l)) :=
  ⟨{ put running [(R.NELAR_STAT_STATE 0, 4)] with nelar := { Nelar.reset with linkA := { rx0 with held := [(4, [1#8]), (5, [2#8])] } } }, 0, wire0 (flitBytes { fseq := 0, ackseq := 3, kind := 2, credit := 5, crcOk := true, payload := List.replicate 240 0#8 }), (takeBlocks ({ rx0 with held := [(4, [1#8]), (5, [2#8])] }) (wire0 (flitBytes { fseq := 0, ackseq := 3, kind := 2, credit := 5, crcOk := true, payload := List.replicate 240 0#8 }))).1, flitBytes { fseq := 0, ackseq := 3, kind := 2, credit := 5, crcOk := true, payload := List.replicate 240 0#8 }, by decide +kernel⟩

theorem test_meets_NelarLinksTrainRetryAndDrain_7 : ∃ (s : State) (l : Nat) (bs : List (Nat × Nat)) (k : Link),
    (s.live = true) ∧
    (l < 2) ∧
    (s.linkState l = 4) ∧
    (takeBlocks (s.link l) bs = (k, [.bip 3])) :=
  ⟨{ put running [(R.NELAR_STAT_STATE 0, 4), (R.NELAR_STAT_REVERSED 0, 1)] with nelar := { Nelar.reset with linkA := { rx0 with rxTurn := 3, rxLanes := (List.replicate 8 Lane.reset).set 3 { Lane.reset with since := 16384, bip := 1 } } } }, 0, [(2, amPayload 0 3 0)], (takeBlocks ({ rx0 with rxTurn := 3, rxLanes := (List.replicate 8 Lane.reset).set 3 { Lane.reset with since := 16384, bip := 1 } }) [(2, amPayload 0 3 0)]).1, by decide +kernel⟩

theorem test_meets_NelarLinksTrainRetryAndDrain_8 : ∃ (s : State) (l : Nat),
    (s.live = true) ∧
    (l < 2) ∧
    (s.carries l = true) ∧
    ((s.link l).held ≠ []) ∧
    ((s.link l).replays < s.get (R.NELAR_CTL_REPLAY_MAX l)) :=
  ⟨{ put running [(R.NELAR_STAT_STATE 1, 5)] with nelar := { Nelar.reset with linkB := { Link.reset with held := [(4, [1#8])], replays := 7 } } }, 1, by decide +kernel⟩

theorem test_meets_NelarLinksTrainRetryAndDrain_9 : ∃ (s : State) (l : Nat),
    (s.live = true) ∧
    (l < 2) ∧
    (s.linkState l = 4) ∧
    (s.linkState (1 - l) = 1) ∧
    (s.flag R.TELE_CTL_EVENTS_EN = false) ∧
    (((s.link l).msgs.all (fun m => m.1.code != 0x51)) = true) :=
  ⟨{ put running [(R.NELAR_STAT_STATE 0, 4), (R.NELAR_STAT_STATE 1, 1), (R.TELE_CTL_EVENTS_EN, 0)] with nelar := { Nelar.reset with linkA := { Link.reset with msgs := [({ code := 0x28, resp := false, resent := false, reqId := 3, body := [7#8] }, 1)] } } }, 0, by decide +kernel⟩

theorem test_meets_NelarLinksTrainRetryAndDrain_10 : ∃ (s : State) (l : Nat),
    (s.live = true) ∧
    (l < 2) ∧
    (s.linkState l = 4) ∧
    (s.linkState (1 - l) = 1) ∧
    (s.flag R.TELE_CTL_EVENTS_EN = false) ∧
    (((s.link l).msgs.all (fun m => m.1.code != 0x51)) = true) ∧
    (s.get (R.NELAR_CTL_REPLAY_MAX l) ≤ (s.link l).replays) :=
  ⟨{ put running [(R.NELAR_STAT_STATE 0, 4), (R.NELAR_STAT_STATE 1, 1), (R.TELE_CTL_EVENTS_EN, 0)] with nelar := { Nelar.reset with linkA := { Link.reset with replays := 8 } } }, 0, by decide +kernel⟩

theorem test_meets_NelarLinksTrainRetryAndDrain_11 : ∃ (s : State) (l : Nat),
    (s.live = true) ∧
    (l < 2) ∧
    (s.linkState l = 4) ∧
    ((s.link l).queue = []) ∧
    ((s.link l).msgs = []) :=
  ⟨{ put running [(R.NELAR_STAT_STATE 0, 4)] with nelar := { Nelar.reset with linkA := { Link.reset with rx := [7#8] } } }, 0, by decide +kernel⟩

theorem test_meets_NelarLinksTrainRetryAndDrain_12 : ∃ (s : State) (l : Nat),
    (s.live = true) ∧
    (l < 2) ∧
    (s.linkState l = 6) :=
  ⟨put running [(R.NELAR_STAT_STATE 1, 6), (R.NELAR_CTL_ENABLE 1, 0)], 1, by decide +kernel⟩

theorem test_meets_NelarLinksTrainRetryAndDrain_13 : ∃ (s : State) (l : Nat),
    (s.live = true) ∧
    (l < 2) ∧
    (s.linkState l = 5) :=
  ⟨put running [(R.NELAR_STAT_STATE 1, 5), (R.NELAR_CTL_ENABLE 1, 0)], 1, by decide +kernel⟩

theorem test_meets_NelarLinksTrainRetryAndDrain_14 : ∃ (s : State) (l : Nat),
    (s.live = true) ∧
    (l < 2) ∧
    (s.linkState l = 5) ∧
    (s.linkState (1 - l) = 1) ∧
    (((s.link l).msgs.all (fun m => m.1.code != 0x51)) = true) :=
  ⟨{ put running [(R.NELAR_STAT_STATE 0, 5), (R.NELAR_STAT_STATE 1, 1)] with nelar := { Nelar.reset with linkA := { Link.reset with msgs := [({ code := 0x28, resp := true, resent := false, reqId := 3, body := [7#8] }, 1)] } } }, 0, by decide +kernel⟩

theorem test_meets_RequestsAreAdmittedOnce_1 : ∃ (s : State) (h : Hdr) (code : Nat) (nelar mgmt lengthOk : Bool) (f : List Byte → Bool),
    (s.pathUp h.path = true) ∧
    (s.bootState ≠ 4) ∧
    (s.inInbox h code f = false) ∧
    (h.resp = false) ∧
    (h.chip = s.chip) ∧
    (h.path.isNelar = true) ∧
    (s.linkState h.path.linkIndex = 4) ∧
    (s.flag R.NELAR_CHIP_RID_VALID = false ∨ 2 ^ 31 ≤ s.ridAge h.reqId) ∧
    (h.reqId < 2 ^ 32) :=
  ⟨put running [(R.NELAR_STAT_STATE 0, 4)], h0 16, 1, true, true, true, fun _ => true, by decide +kernel⟩

theorem test_meets_RequestsAreAdmittedOnce_2 : ∃ (s : State) (h : Hdr) (code c : Nat) (body : List Byte) (r : Held) (nelar mgmt lengthOk : Bool) (f : List Byte → Bool),
    (s.pathUp h.path = true) ∧
    (s.bootState ≠ 4) ∧
    (s.inInbox h code f = false) ∧
    (h.resp = false) ∧
    (h.chip = s.chip) ∧
    (h.path = .nelarA) ∧
    (s.linkState 0 = 4) ∧
    (s.flag R.NELAR_CHIP_RID_VALID = true) ∧
    (s.ridAge h.reqId < 65536) ∧
    (tget h.reqId s.nelar.requests = some r) ∧
    (r.answer = some (c, body)) ∧
    (tget h.reqId s.xlat.acked = none) :=
  ⟨{ put running [(R.NELAR_STAT_STATE 0, 4), (R.NELAR_CHIP_RID_VALID, 1), (R.NELAR_CHIP_HIGH_RID, 9)] with nelar := { Nelar.reset with requests := [(7, { path := .nelarB, source := none, code := 2, answer := some (2, [3#8]) })] } }, h0 16, 2, 2, [3#8], { path := .nelarB, source := none, code := 2, answer := some (2, [3#8]) }, true, true, true, fun _ => true, by decide +kernel⟩

theorem test_meets_RequestsAreAdmittedOnce_3 : ∃ (s : State) (h : Hdr) (code : Nat) (nelar mgmt lengthOk : Bool) (f : List Byte → Bool),
    (s.pathUp h.path = true) ∧
    (s.bootState ≠ 4) ∧
    (s.inInbox h code f = false) ∧
    (h.resp = false) ∧
    (h.chip = s.chip) ∧
    (h.path = .nelarA) ∧
    (s.linkState 0 = 4) ∧
    (s.flag R.NELAR_CHIP_RID_VALID = true) ∧
    (65536 ≤ s.ridAge h.reqId ∧ s.ridAge h.reqId < 2 ^ 31) :=
  ⟨put running [(R.NELAR_STAT_STATE 0, 4), (R.NELAR_CHIP_RID_VALID, 1), (R.NELAR_CHIP_HIGH_RID, 65543)], h0 16, 2, true, true, true, fun _ => true, by decide +kernel⟩

theorem test_meets_RegistersAreReadAndWritten_1 : ∃ (s : State) (h : Hdr) (addr countM1 : Nat),
    (Taken s h 1 (fun x => regBody x == (addr, countM1, false))) ∧
    (regErr addr countM1 false = .none) :=
  ⟨asked running 1 (leBytes 8 786480 ++ leBytes 8 1), h0 16, 786480, 1, by decide +kernel⟩

theorem test_meets_RegistersAreReadAndWritten_2 : ∃ (s : State) (h : Hdr) (addr countM1 : Nat) (reserved : Bool) (e : Err),
    (Taken s h 1 (fun x => regBody x == (addr, countM1, reserved))) ∧
    (regErr addr countM1 reserved = e) ∧
    (e ≠ .none) :=
  ⟨asked running 1 (leBytes 8 4 ++ leBytes 8 1), h0 16, 4, 1, false, .align, by decide +kernel⟩

theorem test_meets_RegistersAreReadAndWritten_3 : ∃ (s : State) (h : Hdr) (v : Nat),
    (Taken s h 2 (fun x => regBody x == (851984, 0, false) && regValues x == [v])) :=
  ⟨asked running 2 (leBytes 8 851984 ++ leBytes 8 0 ++ leBytes 8 (2 ^ 39 + 7)), h0 24, 2 ^ 39 + 7, by decide +kernel⟩

theorem test_meets_RegistersAreReadAndWritten_4 : ∃ (s : State) (h : Hdr) (addr countM1 : Nat) (values : List Nat) (reserved : Bool) (e : Err),
    (Taken s h 2 (fun x => regBody x == (addr, countM1, reserved) && regValues x == values)) ∧
    (regErr addr countM1 reserved = e) ∧
    (e ≠ .none) :=
  ⟨asked running 2 (leBytes 8 (2 ^ 25) ++ leBytes 8 0 ++ leBytes 8 5), h0 24, 2 ^ 25, 0, [5], false, .bounds, by decide +kernel⟩

theorem test_meets_RegistersAreReadAndWritten_5 : ∃ (s : State) (path : Path) (v : Nat),
    (s.manageable = true) ∧
    (s.frozen = none) ∧
    (s.home.finished = []) ∧
    (s.flag R.GLB_LOCK_LOCKED = true) :=
  ⟨put running [(R.GLB_LOCK_LOCKED, 1)], .smbus, 2 ^ 28 + 5, by decide +kernel⟩

theorem test_meets_RegistersAreReadAndWritten_6 : ∃ (s : State) (path : Path) (i v : Nat),
    (s.manageable = true) ∧
    (s.frozen = none) ∧
    (s.home.finished = []) ∧
    (i < 2) :=
  ⟨put running [(R.NELAR_COUNT_CRC_FAIL 1, 8), (R.NELAR_COUNT_STALE 1, 3)], .jtag, 1, 2 ^ 32, by decide +kernel⟩

theorem test_meets_RegistersAreReadAndWritten_7 : ∃ (s : State) (path : Path) (a v : Nat),
    (s.manageable = true) ∧
    (s.frozen = none) ∧
    (s.home.finished = []) ∧
    (a % 8 = 0 ∧ a < 2 ^ 25) ∧
    (s.reservedAt a = true) :=
  ⟨running, .mgmt0, 0x80, 5, by decide +kernel⟩

theorem test_meets_PartitionsAreCreatedAndDisabled_1 : ∃ (s : State) (h : Hdr) (b : PartCreate),
    (Taken s h 0x10 (fun x => partCreateOf x == b)) ∧
    (h.length = 64) ∧
    (b.partition < 4096) ∧
    (s.partCreateErr b = .none) :=
  ⟨asked (parted 1) 0x10 (partBytes part0), h0 64, part0, by decide +kernel⟩

theorem test_meets_PartitionsAreCreatedAndDisabled_2 : ∃ (s : State) (h : Hdr) (b : PartCreate) (e : Err),
    (Taken s h 0x10 (fun x => partCreateOf x == b)) ∧
    (h.length = 64) ∧
    (s.partCreateErr b = e) ∧
    (e ≠ .none) :=
  ⟨asked (parted 1) 0x10 (partBytes { part0 with partition := 1 }), h0 64, { part0 with partition := 1 }, .resource, by decide +kernel⟩

theorem test_meets_PartitionsAreCreatedAndDisabled_3 : ∃ (s : State) (h : Hdr) (p : Nat) (r : PartRec),
    (Taken s h 0x11 (fun x => partDrainOf x == (p, false))) ∧
    (h.length = 8) ∧
    (p < 4096) ∧
    (s.get (R.PART_STATE_STATE p) = 1) ∧
    (tget p s.security.parts = some r) ∧
    (s.partQueues p = []) ∧
    (s.parser.dir = []) ∧
    (s.parser.replicas.filter (fun x => x.2.partition == p) = []) :=
  ⟨asked (parted 1) 0x11 (leBytes 8 1), h0 8, 1, rec0, by decide +kernel⟩

theorem test_meets_PartitionsAreCreatedAndDisabled_4 : ∃ (s : State) (h : Hdr) (p : Nat) (r : PartRec),
    (Taken s h 0x11 (fun x => partDrainOf x == (p, false))) ∧
    (h.length = 8) ∧
    (s.get (R.PART_STATE_STATE p) = 0) ∧
    (tget p s.security.parts = some r) :=
  ⟨asked (parted 0) 0x11 (leBytes 8 1), h0 8, 1, rec0, by decide +kernel⟩

theorem test_meets_PartitionsAreCreatedAndDisabled_5 : ∃ (s : State) (p id : Nat) (path : Path) (r : PartRec),
    (s.live = true) ∧
    (s.home.finished = []) ∧
    (p < 4096) ∧
    (s.get (R.PART_STATE_STATE p) = 2) ∧
    (s.partEmpty p = true) ∧
    (tget p s.security.parts = some { r with drains := [(path, id)] }) ∧
    ((tget id s.nelar.requests).isSome = true) ∧
    (s.xlat.pageMap.all (fun e => decide (e.2.partition = p → e.2.chip = s.chip)) = true) ∧
    (s.coll.groups = []) ∧
    (s.work.clauses = []) :=
  ⟨asked { parted 2 with security := { Security.reset with parts := [(1, { rec0 with drains := [(.nelarA, 7)] })] }, xlat := { Xlat.reset with pageMap := [(pmSet 1 5 * 16, pm0 0 16 1), (pmSet 2 5 * 16, { pm0 0 16 2 with partition := 2 })], frames := [(16 * 2 ^ 22 + 1, { owner := 1, page := 5, use := .page }), (16 * 2 ^ 22 + 2, { owner := 2, page := 5, use := .page })] } } 0x11 [], 1, 7, .nelarA, rec0, by decide +kernel⟩

theorem test_meets_PartitionsAreCreatedAndDisabled_6 : ∃ (s : State) (p id : Nat) (d : DirectRec),
    (s.live = true) ∧
    (s.home.finished = []) ∧
    (p < 4096) ∧
    (s.get (R.PART_STATE_STATE p) = 2) ∧
    (s.edge.directs = [(id, d)]) ∧
    (d.partition = p) ∧
    (d.port < 32) ∧
    (s.get (R.EDGE_STAT_STATE d.port) = 2) ∧
    (s.work.clauses = []) ∧
    (s.xlat.installs = []) ∧
    (s.xlat.homeFills = []) ∧
    (s.security.loads = []) ∧
    (s.home.ops = []) ∧
    (s.home.lockWait = []) ∧
    (s.home.farWait = []) ∧
    (s.home.writeQueue = []) ∧
    (s.home.orderWait = []) ∧
    (s.home.quietWait = []) ∧
    (s.home.writeTable = []) ∧
    (s.parser.migrations = []) ∧
    (s.fabric.track = []) ∧
    (s.fabric.waitTag = []) :=
  ⟨{ parted 2 with edge := { Edge.reset with directs := [(2, { port := 0, slot := 0, tag := 8, partition := 1, addr := 5 * 2 ^ 21, fpa := near0 0, act := .read 4, view := 0, tense := 0, issued := true, tick := 0 })] } }, 1, 2, { port := 0, slot := 0, tag := 8, partition := 1, addr := 5 * 2 ^ 21, fpa := near0 0, act := .read 4, view := 0, tense := 0, issued := true, tick := 0 }, by decide +kernel⟩

theorem test_meets_PartitionsAreCreatedAndDisabled_7 : ∃ (s : State) (h : Hdr) (b : WeightLoad) (e : Extent),
    (Taken s h 0x14 (fun x => weightLoadOf x == b)) ∧
    (h.length = 32) ∧
    (s.weightErr b = .none) ∧
    (topErr [⟨b.pkgFva, b.pkgLen, [0]⟩] = none) ∧
    (s.xlRanges b.partition [⟨b.pkgFva, b.pkgLen, [0]⟩] = { bad := none, extents := [e], lacking := [] }) ∧
    (e.fva = b.pkgFva ∧ 160 ≤ e.len) ∧
    (e.fpa % 4096 + 160 ≤ 4096) ∧
    (fpaChip e.fpa ≠ s.chip) ∧
    (s.unreachable (fpaChip e.fpa) = false) ∧
    (s.poisonedIn b.partition 0 b.pkgFva [(e.fpa, 160)] = false) ∧
    (s.replicaOf e.fpa = none) ∧
    (s.fabric.waitTag = []) ∧
    (s.get (R.PART_OUTSTANDING_USED b.partition) < s.get (R.PART_OUTSTANDING_QUOTA b.partition)) ∧
    (s.fabric.track.length < 131072) :=
  ⟨asked (put (parted 1) [(R.SEC_STAT_DEBUG, 0)]) 0x14 (leBytes 8 1 ++ leBytes 8 (6 * 2 ^ 21) ++ leBytes 8 8192 ++ leBytes 8 (2 ^ 25)), h0 32, { partition := 1, pkgFva := 6 * 2 ^ 21, pkgLen := 8192, dstFva := 2 ^ 25, reserved := false }, { fva := 6 * 2 ^ 21, len := 8192, fpa := 2 ^ 49 + near0 0, side := false }, by decide +kernel⟩

theorem test_meets_PartitionsAreCreatedAndDisabled_8 : ∃ (s : State) (h : Hdr) (b : WeightLoad) (e : Err),
    (Taken s h 0x14 (fun x => weightLoadOf x == b)) ∧
    (h.length = 32) ∧
    (s.weightErr b = e) ∧
    (e ≠ .none) :=
  ⟨asked (parted 1) 0x14 (leBytes 8 1 ++ leBytes 8 (6 * 2 ^ 21) ++ leBytes 8 8192 ++ leBytes 8 (5)), h0 32, { partition := 1, pkgFva := 6 * 2 ^ 21, pkgLen := 8192, dstFva := 5, reserved := false }, .align, by decide +kernel⟩

theorem test_meets_PartitionsAreCreatedAndDisabled_9 : ∃ (s : State) (h : Hdr) (nonce : List Byte) (p : Nat) (partEn : Bool),
    (Taken s h 0x18 (fun x => attestOf x == (nonce, p, partEn, false))) ∧
    (h.length = 40) :=
  ⟨asked (parted 1) 0x18 (List.replicate 32 7#8 ++ leBytes 8 1), h0 40, List.replicate 32 7#8, 1, false, by decide +kernel⟩

theorem test_meets_PagesAndWindowsComeAndGo_1 : ∃ (s : State) (h : Hdr) (b : MapInstall) (k : Nat) (taken : Bool),
    (Taken s h 0x20 (fun x => mapInstallOf x == b)) ∧
    (h.length = 16) ∧
    (mapFormat b = false) ∧
    (b.partition < 4096) ∧
    (s.partErr b.partition = .none) ∧
    (s.pmFind b.partition b.page = none) ∧
    (s.xlat.installs = []) ∧
    (s.setLoad b.partition b.page < 16) ∧
    (fpaChip b.frameFpa = s.chip) ∧
    (s.homeFrame b.partition b.page b.frameMode b.frameFpa false = (.none, k, taken)) ∧
    (s.pendingFault b.partition b.page = none) :=
  ⟨asked edged 0x20 (leBytes 8 (1 + 7 * 2 ^ 16 + 7 * 2 ^ 32) ++ leBytes 8 (near0 0 - 2 ^ 21)), h0 16, install0 7 0 (near0 0 - 2 ^ 21), 16 * 2 ^ 22, true, by decide +kernel⟩

theorem test_meets_PagesAndWindowsComeAndGo_2 : ∃ (s : State) (h : Hdr) (b : MapInstall) (i : Nat) (e : PmEntry),
    (Taken s h 0x20 (fun x => mapInstallOf x == b)) ∧
    (h.length = 16) ∧
    (mapFormat b = false) ∧
    (s.partErr b.partition = .none) ∧
    (s.pmFind b.partition b.page = some (i, e)) :=
  ⟨asked edged 0x20 (leBytes 8 (1 + 7 * 2 ^ 16 + 5 * 2 ^ 32) ++ leBytes 8 (near0 0)), h0 16, install0 5 0 (near0 0), pmSet 1 5 * 16, pm0 0 16 1, by decide +kernel⟩

theorem test_meets_PagesAndWindowsComeAndGo_3 : ∃ (s : State) (b : MapInstall) (path : Path) (id k w : Nat),
    (s.live = true) ∧
    (Calm s) ∧
    (s.tileLines (keyFpa s.chip k / 128) 16384 = []) ∧
    (s.home.sharers = []) ∧
    (s.chip < 2 ^ 15) ∧
    (tget k s.xlat.homeFills = none) ∧
    (s.xlat.installs = [newInstall b path id (keyFpa s.chip k) false none]) ∧
    (k / 2 ^ 22 < 64) ∧
    ((tget id s.nelar.requests).isSome = true) ∧
    (s.pmFind b.partition b.page = none) ∧
    (s.freeWay b.partition b.page = some w) ∧
    (s.pendingFault b.partition b.page = none) :=
  ⟨{ asked { edged with mem := [(near0 0 - 1, 3#8), (near0 5, 9#8)] } 0x20 [] with xlat := { edged.xlat with installs := [newInstall (install0 7 0 (near0 0)) .nelarA 7 (keyFpa 0 (16 * 2 ^ 22 + 1)) false none] } }, install0 7 0 (near0 0), .nelarA, 7, 16 * 2 ^ 22 + 1, pmSet 1 7 * 16, by decide +kernel⟩

theorem test_meets_PagesAndWindowsComeAndGo_4 : ∃ (s : State) (h : Hdr) (b : MapWithdraw),
    (Taken s h 0x21 (fun x => mapWithdrawOf x == b)) ∧
    (h.length = 16) ∧
    (withdrawFormat b = false) ∧
    (b.partition < 4096) ∧
    (s.partErr b.partition ≠ .partition) ∧
    (s.withdrawBusy b.partition = false) ∧
    (s.parser.migrations = []) ∧
    (s.parser.dir = []) ∧
    (s.work.clauses = []) ∧
    (s.security.loads = []) :=
  ⟨asked edged 0x21 (leBytes 8 (1 + 2 ^ 16 + 5 * 2 ^ 32) ++ leBytes 8 2), h0 16, { partition := 1, abort := true, firstPage := 5, countM1 := 2, reserved := false }, by decide +kernel⟩

theorem test_meets_PagesAndWindowsComeAndGo_5 : ∃ (s : State) (w : Withdrawal) (e : WdEntry) (r : FrameRec),
    (s.live = true) ∧
    (s.home.finished = []) ∧
    (w.partition < 4096) ∧
    (s.get R.NELAR_CHIP_NOTIFY < 2) ∧
    (s.linkState (s.get R.NELAR_CHIP_NOTIFY) = 4) ∧
    (s.xlat.withdrawals = [w]) ∧
    (w.hold = []) ∧
    (w.window = none) ∧
    (w.entries = [e]) ∧
    (e.mapped = true) ∧
    (fpaChip e.frameFpa = s.chip) ∧
    (s.frameRec (frameKey e.frameFpa) = some r) ∧
    (r.use = .withheld) ∧
    (r.owner < 4096) ∧
    (s.pmFind r.owner r.page = none) ∧
    (s.parser.dir = []) ∧
    (s.xlat.lostParts = []) :=
  ⟨{ asked (put edged [(R.XLAT_TENSE_PENDING_WD 1, 1), (R.PARSER_PART_NEAR_USED 1, 1)]) 0x21 [] with xlat := { Xlat.reset with frames := [(16 * 2 ^ 22 + 1, { owner := 1, page := 5, use := .withheld })], withdrawals := [{ id := 6, partition := 1, window := none, tense := 3, entries := [{ page := 5, mapped := true, frameFpa := near0 0, poisoned := false, dirIndex := 0 }], hold := [], abort := false, aborted := 0, tick := 0 }] } }, { id := 6, partition := 1, window := none, tense := 3, entries := [{ page := 5, mapped := true, frameFpa := near0 0, poisoned := false, dirIndex := 0 }], hold := [], abort := false, aborted := 0, tick := 0 }, { page := 5, mapped := true, frameFpa := near0 0, poisoned := false, dirIndex := 0 }, { owner := 1, page := 5, use := .withheld }, by decide +kernel⟩

theorem test_meets_PagesAndWindowsComeAndGo_6 : ∃ (s : State) (h : Hdr) (p page : Nat),
    (Taken s h 0x22 (fun x => faultRejectOf x == (p, page, false))) ∧
    (h.length = 8) ∧
    (s.partErr p ≠ .partition) ∧
    (s.work.clauses = []) :=
  ⟨{ asked edged 0x22 (leBytes 8 (1 + 9 * 2 ^ 32)) with xlat := { edged.xlat with faults := [{ page := 9, partition := 1, access := 1, serial := 3, queue := 0, tense := 0, firstTick := 0, tick := 0 }] } }, h0 8, 1, 9, by decide +kernel⟩

theorem test_meets_PagesAndWindowsComeAndGo_7 : ∃ (s : State) (h : Hdr) (p slot : Nat) (abort reserved : Bool) (w : WinEntry) (e : Err),
    (Taken s h 0x23 (fun x => winBody x == (p, slot, abort, reserved) && winEntryOf (x.drop 8) == w)) ∧
    (h.length = 72) ∧
    (s.winInstallErr p slot abort w reserved = e) :=
  ⟨asked (put edged [(R.PART_WINDOWS_WIN_FIRST 1, 4), (R.PART_WINDOWS_WIN_COUNT 1, 2)]) 0x23 (leBytes 8 (1 + 2 ^ 16) ++ packBytes [(1, 1), (3, 3), (4, 0), (12, 1), (4, 0), (8, 12), (4, 1), (28, 0), (64, 8192), (64, 0), (15, 0), (5, 2), (15, 1), (5, 2), (280, 0)]), h0 72, 1, 1, false, false, win0, .none, by decide +kernel⟩

theorem test_meets_PagesAndWindowsComeAndGo_8 : ∃ (s : State) (h : Hdr) (p slot : Nat) (abort : Bool) (w : WinEntry),
    (Taken s h 0x24 (fun x => winBody x == (p, slot, abort, false))) ∧
    (h.length = 8) ∧
    (p < 4096) ∧
    (s.partErr p ≠ .partition) ∧
    (slot < s.get (R.PART_WINDOWS_WIN_COUNT p)) ∧
    (s.withdrawBusy p = false) ∧
    (tget (s.winIndex p slot) s.xlat.windows = some w) ∧
    (w.replicable = false) ∧
    (s.work.clauses = []) ∧
    (s.security.loads = []) :=
  ⟨asked { put edged [(R.PART_WINDOWS_WIN_FIRST 1, 4), (R.PART_WINDOWS_WIN_COUNT 1, 2)] with xlat := { edged.xlat with windows := [(5, win0)] } } 0x24 (leBytes 8 (1 + 2 ^ 16)), h0 8, 1, 1, false, win0, by decide +kernel⟩

theorem test_meets_QueuesAndGroupsAreCreatedAndReleased_1 : ∃ (s : State) (h : Hdr) (b : QueueCreate) (e : Err),
    (Taken s h 0x30 (fun x => queueCreateOf x == b)) ∧
    (h.length = 32) ∧
    (b.queue < 32768) ∧
    (s.queueCreateErr b = e) :=
  ⟨asked edged 0x30 (leBytes 8 (1 + 2 ^ 16 + 2 ^ 28 + 4 * 2 ^ 32 + 5 * 2 ^ 36 + 100 * 2 ^ 40) ++ leBytes 8 (5 * 2 ^ 21) ++ leBytes 8 (5 * 2 ^ 21 + 4096) ++ leBytes 8 0), h0 32, { queue := 1, partition := 1, engine := true, sqLog2 := 4, cqLog2 := 5, timeoutUs := 100, sqFva := 5 * 2 ^ 21, cqFva := 5 * 2 ^ 21 + 4096, reserved := false }, .none, by decide +kernel⟩

theorem test_meets_QueuesAndGroupsAreCreatedAndReleased_2 : ∃ (s : State) (h : Hdr) (q : Nat) (r : Queue),
    (Taken s h 0x31 (fun x => queueDrainOf x == (q, false))) ∧
    (h.length = 8) ∧
    (q < 32768) ∧
    (s.get (R.QPAGE_STATUS_STATE q) = 1) ∧
    (s.queue q = some r) ∧
    (r.held = false) :=
  ⟨asked queued 0x31 (leBytes 8 1), h0 8, 1, queue0, by decide +kernel⟩

theorem test_meets_QueuesAndGroupsAreCreatedAndReleased_3 : ∃ (s : State) (h : Hdr) (q : Nat),
    (Taken s h 0x31 (fun x => queueDrainOf x == (q, false))) ∧
    (h.length = 8) ∧
    (s.get (R.QPAGE_STATUS_STATE q) = 0) :=
  ⟨asked queued 0x31 (leBytes 8 0), h0 8, 0, by decide +kernel⟩

theorem test_meets_QueuesAndGroupsAreCreatedAndReleased_4 : ∃ (s : State) (q id : Nat) (path : Path) (r : Queue),
    (s.live = true) ∧
    (s.home.finished = []) ∧
    (q < 32768) ∧
    (s.get (R.QPAGE_STATUS_STATE q) = 2) ∧
    (s.queueEmpty q = true) ∧
    (s.queue q = some r) ∧
    (r.drains = [(path, id)]) ∧
    ((tget id s.nelar.requests).isSome = true) :=
  ⟨asked (put { queued with work := { Work.reset with queues := [(1, { queue0 with drains := [(.nelarA, 7)] })] } } [(R.QPAGE_STATUS_STATE 1, 2)]) 0x31 [], 1, 7, .nelarA, { queue0 with drains := [(.nelarA, 7)] }, by decide +kernel⟩

theorem test_meets_QueuesAndGroupsAreCreatedAndReleased_5 : ∃ (s : State) (q : Nat) (r : Queue),
    (s.live = true) ∧
    (s.home.finished = []) ∧
    (q < 32768) ∧
    (s.get (R.QPAGE_STATUS_STATE q) = 2) ∧
    (s.queue q = some r) ∧
    (r.writing = false) ∧
    (s.work.clauses = []) ∧
    (s.fabric.track = []) :=
  ⟨put { queued with work := { Work.reset with queues := [(1, { queue0 with records := [(4, [1#8]), (5, [])] })] } } [(R.QPAGE_STATUS_STATE 1, 2)], 1, { queue0 with records := [(4, [1#8]), (5, [])] }, by decide +kernel⟩

theorem test_meets_QueuesAndGroupsAreCreatedAndReleased_6 : ∃ (s : State) (h : Hdr) (b : GroupCreate) (e : Err),
    (Taken s h 0x38 (fun x => groupCreateOf x == b)) ∧
    (h.length = 48) ∧
    (s.groupCreateErr b = e) ∧
    (s.group b.group = none) :=
  ⟨asked (put { edged with boot := { edged.boot with stem := some stem0 } } [(R.PART_QUEUES_QUEUE_FIRST 1, 1)]) 0x38 (packBytes [(14, 3), (2, 0), (12, 1), (1, 0), (3, 0), (16, 1), (13, 16), (3, 0), (15, 1), (49, 0), (64, 1), (64, 1), (8, 1), (120, 0)]), h0 48, { group0.body with xMask := 1, yMask := 1, zMask := 1 }, .none, by decide +kernel⟩

theorem test_meets_QueuesAndGroupsAreCreatedAndReleased_7 : ∃ (s : State) (h : Hdr) (n p : Nat) (g : Group),
    (Taken s h 0x39 (fun x => groupBody x == (n, p, false))) ∧
    (h.length = 8) ∧
    (s.group n = some g) ∧
    (s.groupErr n p g = .none) :=
  ⟨asked { edged with coll := { Coll.reset with groups := [(3, { group0 with state := 2, cause := 6, generation := 15 })] } } 0x39 (packBytes [(14, 3), (2, 0), (12, 1), (36, 0)]), h0 8, 3, 1, { group0 with state := 2, cause := 6, generation := 15 }, by decide +kernel⟩

theorem test_meets_QueuesAndGroupsAreCreatedAndReleased_8 : ∃ (s : State) (h : Hdr) (n p : Nat) (g : Group),
    (Taken s h 0x3A (fun x => groupBody x == (n, p, false))) ∧
    (h.length = 8) ∧
    (s.group n = some g) ∧
    (s.groupErr n p g = .none) :=
  ⟨asked { edged with coll := { Coll.reset with groups := [(3, group0)] } } 0x3A (packBytes [(14, 3), (2, 0), (12, 1), (36, 0)]), h0 8, 3, 1, group0, by decide +kernel⟩

theorem test_meets_QueuesAndGroupsAreCreatedAndReleased_9 : ∃ (s : State) (h : Hdr) (n p : Nat) (g : Group) (e : Err),
    (Taken s h 0x39 (fun x => groupBody x == (n, p, false)) ∧ h.length = 8) ∧
    (s.group n = some g) ∧
    (s.groupErr n p g = e) ∧
    (e ≠ .none) :=
  ⟨asked { edged with coll := { Coll.reset with groups := [(3, group0)] } } 0x39 (packBytes [(14, 3), (2, 0), (12, 2), (36, 0)]), h0 8, 3, 2, group0, .partition, by decide +kernel⟩

theorem test_meets_ModesAndCapsFollowSignedOrders_1 : ∃ (s : State) (h : Hdr) (b : ModeSelect) (e : Err) (cause : Nat),
    (Taken s h 0x40 (fun x => modeSelectOf x == b)) ∧
    (h.length = 160) ∧
    (s.modeErr b = some (e, cause)) :=
  ⟨asked { running with boot := { running.boot with stem := some stem0 } } 0x40 (leBytes 8 511 ++ leBytes 8 0 ++ leBytes 144 0), h0 160, { mode := 255, anyChip := true, target := 0, seq := 0, inflDigest := 0, sig := 0, reserved := false }, .permission, 1, by decide +kernel⟩

theorem test_meets_ModesAndCapsFollowSignedOrders_2 : ∃ (s : State) (h : Hdr) (b : ModeSelect),
    (Taken s h 0x40 (fun x => modeSelectOf x == b)) ∧
    (h.length = 160) :=
  ⟨asked { put running [(R.BOOT_STAT_MODE, 255)] with boot := { running.boot with stem := some { stem0 with mode := some (3, 5) } } } 0x40 (leBytes 8 511 ++ leBytes 8 9 ++ leBytes 144 0), h0 160, { mode := 255, anyChip := true, target := 0, seq := 9, inflDigest := 0, sig := 0, reserved := false }, by decide +kernel⟩

theorem test_meets_ModesAndCapsFollowSignedOrders_3 : ∃ (s : State) (m seq id : Nat) (path : Path) (e : RegEntry) (f : Fld),
    (s.live = true) ∧
    (s.home.finished = []) ∧
    (s.boot.modeChange = some (m, seq, path, id)) ∧
    (s.isDrained = true) ∧
    (s.xlat.openBatch = []) ∧
    (s.coll.groups = []) ∧
    (s.parser.chosen = []) ∧
    ((tget id s.nelar.requests).isSome = true) ∧
    (s.modeEntries (s.get R.BOOT_STAT_MODE) = []) ∧
    (s.modeEntries m = [e]) ∧
    (entryFld e = some f) ∧
    (f.key ≠ R.BOOT_STAT_MODE.key ∧ f.key ≠ R.BOOT_MODE_SEQ_LAST_SEQ.key ∧ f.key ≠ R.BOOT_STAT_MODE_PENDING.key) :=
  ⟨asked { put running [(R.BOOT_STAT_MODE, 255)] with boot := { running.boot with stem := some stem0, modeChange := some (2, 9, .nelarA, 7), inflections := [{ number := 2, entries := [{ addr := 851968, lo := 20, hi := 27, value := 12 }], digest := 5 }] } } 0x40 [], 2, 9, 7, .nelarA, { addr := 851968, lo := 20, hi := 27, value := 12 }, R.PARSER_CTL_MOVES_MAX, by decide +kernel⟩

theorem test_meets_ModesAndCapsFollowSignedOrders_4 : ∃ (s : State) (m seq id : Nat) (path : Path),
    (s.live = true) ∧
    (s.home.finished = []) ∧
    (s.boot.modeChange = some (m, seq, path, id)) ∧
    (s.coll.groups = []) ∧
    (s.parser.chosen = []) ∧
    ((tget id s.nelar.requests).isSome = true) :=
  ⟨asked { running with boot := { running.boot with modeChange := some (2, 9, .nelarA, 7) } } 0x40 [], 2, 9, 7, .nelarA, by decide +kernel⟩

theorem test_meets_ModesAndCapsFollowSignedOrders_5 : ∃ (s : State) (h : Hdr) (capW seq : Nat),
    (Taken s h 0x41 (fun x => capSetOf x == (capW, seq, false))) ∧
    (h.length = 16) ∧
    (capW ≤ 1050 ∧ s.floorCw ≤ 100 * capW) ∧
    (s.get R.PWR_CAP_SEQ_LAST_SEQ < seq) ∧
    (s.get R.PWR_STAT_CAP_W ≤ capW ∨ s.get R.PWR_STAT_MEAS_W ≤ capW + s.get R.PWR_CTL_STEP_W) :=
  ⟨asked running 0x41 (leBytes 8 1050 ++ leBytes 8 1), h0 16, 1050, 1, by decide +kernel⟩

theorem test_meets_ModesAndCapsFollowSignedOrders_6 : ∃ (s : State) (h : Hdr) (capW seq : Nat),
    (Taken s h 0x41 (fun x => capSetOf x == (capW, seq, false))) ∧
    (h.length = 16) ∧
    (capW ≤ 1050 ∧ s.floorCw ≤ 100 * capW) ∧
    (s.get R.PWR_CAP_SEQ_LAST_SEQ < seq) ∧
    (capW < s.get R.PWR_STAT_CAP_W ∧ capW + s.get R.PWR_CTL_STEP_W < s.get R.PWR_STAT_MEAS_W) ∧
    (s.flag R.PWR_STAT_BRAKE = false) :=
  ⟨asked (put running [(R.PWR_STAT_CAP_W, 1050), (R.PWR_STAT_MEAS_W, 1000), (R.PWR_CTL_STEP_W, 50)]) 0x41 (leBytes 8 900 ++ leBytes 8 1), h0 16, 900, 1, by decide +kernel⟩

theorem test_meets_ModesAndCapsFollowSignedOrders_7 : ∃ (s : State) (h : Hdr) (capW seq : Nat),
    (Taken s h 0x41 (fun x => capSetOf x == (capW, seq, false))) ∧
    (h.length = 16) ∧
    (1050 < capW ∨ 100 * capW < s.floorCw) :=
  ⟨asked running 0x41 (leBytes 8 1051 ++ leBytes 8 1), h0 16, 1051, 1, by decide +kernel⟩

theorem test_meets_ManagementPortsAndSmbusServeRequests_1 : ∃ (s : State) (h : Hdr) (f : Frozen) (offset length : Nat),
    (s.pathUp h.path = true ∧ s.bootState ≠ 4 ∧ s.inInbox h 0x52 (fun x => freezeReadOf x == (offset, length, false)) = true ∧ (tget h.reqId s.nelar.requests).isSome = true) ∧
    (s.frozen = some f) ∧
    (h.length = 16) ∧
    (offset % 8 = 0 ∧ length % 8 = 0 ∧ 8 ≤ length ∧ length ≤ 16376) ∧
    (offset + length ≤ imageLen) :=
  ⟨{ put running [(R.GLB_MGMT_CTL_EN_0, 1)] with nelar := { Nelar.reset with inbox := [{ path := .mgmt0, reqId := 7, code := 0x52, body := leBytes 8 0 ++ leBytes 4 80 ++ leBytes 4 0 }], requests := [(7, { path := .mgmt0, source := some (5, 6), code := 0x52, answer := none })] }, frozen := some { number := 0, tick := 5, stopCycles := [], regs := [] } }, { h0 16 with path := .mgmt0 }, { number := 0, tick := 5, stopCycles := [], regs := [] }, 0, 80, by decide +kernel⟩

theorem test_meets_ManagementPortsAndSmbusServeRequests_2 : ∃ (s : State) (h : Hdr) (offset length : Nat) (reserved : Bool),
    (Taken s h 0x52 (fun x => freezeReadOf x == (offset, length, reserved))) ∧
    (h.length = 16) :=
  ⟨asked running 0x52 (leBytes 8 0 ++ leBytes 4 80 ++ leBytes 4 0), h0 16, 0, 80, false, by decide +kernel⟩

theorem test_meets_ManagementPortsAndSmbusServeRequests_3 : ∃ (s : State) (p ip src : Nat) (payload : List Byte),
    (p < 2) ∧
    (s.portUp p = true) ∧
    (payload.length ≠ 16 + fieldAt payload 8 2) :=
  ⟨put running [(R.GLB_MGMT_CTL_EN_1, 1)], 1, 5, 6, [1#8], by decide +kernel⟩

theorem test_meets_ManagementPortsAndSmbusServeRequests_4 : ∃ (s : State) (p ip src reqId : Nat) (payload : List Byte),
    (p < 2) ∧
    (s.portUp p = true) ∧
    (s.bootState = 2) ∧
    (s.frozen = none) ∧
    (reqId < 2 ^ 32) ∧
    (s.get R.NELAR_CHIP_RID_VALID = 0) ∧
    (s.chip < 2 ^ 15) ∧
    (s.nelar.inbox = []) ∧
    (payload = packBytes [(16, 1), (1, 0), (1, 0), (14, 0), (32, reqId), (16, 16), (15, s.chip), (1, 0), (32, 0)] ++ leBytes 16 0) :=
  ⟨put running [(R.GLB_MGMT_CTL_EN_1, 1)], 1, 5, 6, 9, packBytes [(16, 1), (1, 0), (1, 0), (14, 0), (32, 9), (16, 16), (15, (put running [(R.GLB_MGMT_CTL_EN_1, 1)]).chip), (1, 0), (32, 0)] ++ leBytes 16 0, by decide +kernel⟩

theorem test_meets_ManagementPortsAndSmbusServeRequests_5 : ∃ (s : State) (p ip src ident off : Nat) (payload : List Byte),
    (p < 2) ∧
    (s.portUp p = true) ∧
    (s.nelar.reassemblies = []) ∧
    (off + payload.length ≤ 16400) :=
  ⟨put running [(R.GLB_MGMT_CTL_EN_1, 1)], 1, 5, 6, 9, 8, [1#8], by decide +kernel⟩

theorem test_meets_ManagementPortsAndSmbusServeRequests_6 : ∃ (s : State) (p ip mac : Nat),
    (p < 2) ∧
    (s.portUp p = true) :=
  ⟨put running [(R.GLB_MGMT_CTL_EN_1, 1)], 1, 5, 6, by decide +kernel⟩

theorem test_meets_ManagementPortsAndSmbusServeRequests_7 : ∃ (s : State) (p ip ident : Nat),
    (p < 2) ∧
    (s.manageable = true) ∧
    (s.nelar.reassemblies.any (fun r => r.is p ip ident) = true) :=
  ⟨{ running with nelar := { Nelar.reset with reassemblies := [{ port := 1, ident := 9, srcIp := 5, srcPort := 6, dstPort := 0, parts := [(8, [1#8])], total := none }] } }, 1, 5, 9, by decide +kernel⟩

theorem test_meets_ManagementPortsAndSmbusServeRequests_8 : ∃ (s : State) (address addr value : Nat),
    (s.smbusHere address = true) ∧
    (s.frozen = none) ∧
    (s.home.finished = []) ∧
    (addr % 8 = 0 ∧ addr < 2 ^ 25) ∧
    (s.reservedAt addr = true) :=
  ⟨running, 0x58, 0x80, 5, by decide +kernel⟩

theorem test_meets_ManagementPortsAndSmbusServeRequests_9 : ∃ (s : State) (address addr value : Nat),
    (s.smbusHere address = true) ∧
    (s.frozen = none) ∧
    (s.home.finished = []) :=
  ⟨running, 0x58, 0, 7, by decide +kernel⟩

theorem test_meets_ManagementPortsAndSmbusServeRequests_10 : ∃ (s : State) (address addr : Nat),
    (s.smbusHere address = true) ∧
    (s.frozen = none) ∧
    (addr % 8 = 0 ∧ addr < 2 ^ 25) ∧
    (s.reservedAt addr = false) ∧
    (resultAt addr = false) :=
  ⟨running, 0x58, 786480, by decide +kernel⟩

theorem test_meets_ManagementPortsAndSmbusServeRequests_11 : ∃ (s : State) (address addr value : Nat) (pecOk : Bool),
    (s.smbusHere address = true) ∧
    (smbusBad pecOk addr = true) :=
  ⟨running, 0x58, 4, 7, true, by decide +kernel⟩

theorem test_meets_ManagementPortsAndSmbusServeRequests_12 : ∃ (s : State) (address addr value : Nat) (pecOk : Bool),
    (s.smbusHere address = true) ∧
    (smbusBad pecOk addr = true) :=
  ⟨running, 0x58, 4, 7, true, by decide +kernel⟩

theorem test_meets_JtagInstructionsShiftTheirRegisters_1 : ∃ (s : State),
    (s.tapUp = true) :=
  ⟨running, by decide +kernel⟩

theorem test_meets_JtagInstructionsShiftTheirRegisters_2 : ∃ (s : State) (tdi : Bool),
    (s.tapUp = true) :=
  ⟨running, true, by decide +kernel⟩

theorem test_meets_JtagInstructionsShiftTheirRegisters_3 : ∃ (s : State) (pins : Nat),
    (s.tapUp = true) :=
  ⟨running, 5, by decide +kernel⟩

theorem test_meets_JtagInstructionsShiftTheirRegisters_4 : ∃ (s : State) (cells : Nat),
    (s.tapUp = true) :=
  ⟨put running [(R.BOOT_STAT_STATE, 4)], 7, by decide +kernel⟩

theorem test_meets_JtagInstructionsShiftTheirRegisters_5 : ∃ (s : State) (addr : Nat),
    (s.tapUp = true) ∧
    (s.jtagErr addr false = false) ∧
    (s.reservedAt addr = false) ∧
    (resultAt addr = false) :=
  ⟨put running [(R.SEC_STAT_DEBUG, 1)], 786480, by decide +kernel⟩

theorem test_meets_JtagInstructionsShiftTheirRegisters_6 : ∃ (s : State) (addr : Nat),
    (s.tapUp = true) ∧
    (s.jtagErr addr false = true) :=
  ⟨put running [(R.SEC_STAT_DEBUG, 0)], 786480, by decide +kernel⟩

theorem test_meets_JtagInstructionsShiftTheirRegisters_7 : ∃ (s : State) (v : Nat),
    (s.tapUp = true) ∧
    (s.home.finished = []) ∧
    (s.jtagErr 851984 true = false) :=
  ⟨put running [(R.SEC_STAT_DEBUG, 1)], 9, by decide +kernel⟩

theorem test_meets_JtagInstructionsShiftTheirRegisters_8 : ∃ (s : State) (addr v : Nat),
    (s.tapUp = true) ∧
    (s.home.finished = []) ∧
    (s.jtagErr addr true = true) :=
  ⟨put running [(R.SEC_STAT_DEBUG, 1)], 9, 4, by decide +kernel⟩

theorem test_meets_JtagInstructionsShiftTheirRegisters_9 : ∃ (s : State) (offset : Nat),
    (s.tapUp = true) ∧
    (offset % 8 = 0) ∧
    (offset < 2 ^ 63) :=
  ⟨running, 16, by decide +kernel⟩

theorem test_meets_JtagInstructionsShiftTheirRegisters_10 : ∃ (s : State) (f : Frozen),
    (s.tapUp = true) ∧
    (s.frozen = some f) ∧
    (s.nelar.frzaddr < imageLen) :=
  ⟨{ running with frozen := some { number := 0, tick := 5, stopCycles := [], regs := [] } }, { number := 0, tick := 5, stopCycles := [], regs := [] }, by decide +kernel⟩

theorem test_meets_DescriptorsBecomeClauses_1 : ∃ (s : State) (q : Nat) (r : Queue) (fpa : Nat),
    (s.live = true) ∧
    (s.home.finished = []) ∧
    (s.queue q = some r) ∧
    (s.mayFetch q r = true) ∧
    ((s.xlate (s.get (R.QPAGE_STATUS_PARTITION q)) (r.slotFva (s.get (R.QPAGE_SQ_HEAD q))) 0).err = .none) ∧
    ((s.xlate (s.get (R.QPAGE_STATUS_PARTITION q)) (r.slotFva (s.get (R.QPAGE_SQ_HEAD q))) 0).fpa = fpa) ∧
    (s.poisonedPage (s.get (R.QPAGE_STATUS_PARTITION q)) (r.slotFva (s.get (R.QPAGE_SQ_HEAD q))) 0 = false) ∧
    (MaySend s (s.get (R.QPAGE_STATUS_PARTITION q)) fpa) ∧
    (s.replicaOf fpa = none) :=
  ⟨put { queued with work := { Work.reset with queues := [(1, { queue0 with sqFva := fva6 })] } } [(R.QPAGE_SQ_TAIL 1, 1), (R.QPAGE_STATUS_PARTITION 1, 1)], 1, { queue0 with sqFva := fva6 }, 2 ^ 49 + near0 0, by decide +kernel⟩

theorem test_meets_DescriptorsBecomeClauses_2 : ∃ (s : State) (q idx : Nat) (r : Queue) (d : List Byte),
    (s.live = true) ∧
    (s.home.finished = []) ∧
    (s.queue q = some r) ∧
    (r.fetched = some (d, idx)) ∧
    (r.asking = false ∧ r.fetching = false ∧ r.held = false ∧ r.extra = none) ∧
    (d.length = descLen d) ∧
    (s.get (R.QPAGE_STATUS_STATE q) = 1) ∧
    (s.earlyErr d q (s.get (R.QPAGE_STATUS_PARTITION q)) = .none) ∧
    (isColl (descOp d) = false) ∧
    (extraReads d (s.membersOf d) = []) ∧
    (s.touchesHeld d [] q (s.get (R.QPAGE_STATUS_PARTITION q)) = false) ∧
    (s.pendingTriggers < 16384) ∧
    (topErr (operands d [] (s.roleFor d q)) = none) ∧
    ((s.xlRanges (s.get (R.QPAGE_STATUS_PARTITION q)) (s.clauseRanges d [] q)).bad = none) ∧
    ((s.xlRanges (s.get (R.QPAGE_STATUS_PARTITION q)) (s.clauseRanges d [] q)).lacking = []) ∧
    (s.anyTile = true) ∧
    (s.get R.PARSER_CTL_REMOTE_EXEC_EN = 0) :=
  ⟨fetched (desc0 64 3 8 [(24, 8, 9), (32, 8, fva5), (40, 8, 64), (48, 8, 5)]), 1, 3, { queue0 with fetched := some (desc0 64 3 8 [(24, 8, 9), (32, 8, fva5), (40, 8, 64), (48, 8, 5)], 3), writing := true }, desc0 64 3 8 [(24, 8, 9), (32, 8, fva5), (40, 8, 64), (48, 8, 5)], by decide +kernel⟩

theorem test_meets_DescriptorsBecomeClauses_3 : ∃ (s : State) (q idx : Nat) (r : Queue) (d : List Byte) (e : Err),
    (s.live = true) ∧
    (s.home.finished = []) ∧
    (s.queue q = some r) ∧
    (r.fetched = some (d, idx)) ∧
    (r.asking = false ∧ r.fetching = false ∧ r.held = false ∧ r.writing = true) ∧
    (d.length = descLen d) ∧
    (s.get (R.QPAGE_STATUS_STATE q) = 1) ∧
    (s.earlyErr d q (s.get (R.QPAGE_STATUS_PARTITION q)) = e) ∧
    (e ≠ .none) ∧
    (isColl (descOp d) = false) :=
  ⟨fetched (desc0 64 3 0 [(32, 8, fva5)]), 1, 3, { queue0 with fetched := some (desc0 64 3 0 [(32, 8, fva5)], 3), writing := true }, desc0 64 3 0 [(32, 8, fva5)], .format, by decide +kernel⟩

theorem test_meets_DescriptorsBecomeClauses_4 : ∃ (s : State) (q idx : Nat) (r : Queue) (d extra : List Byte),
    (s.live = true) ∧
    (s.home.finished = []) ∧
    (s.queue q = some r) ∧
    (r.fetched = some (d, idx)) ∧
    (r.asking = false ∧ r.fetching = false ∧ r.held = true ∧ r.extra = some (.none, extra)) ∧
    (d.length = descLen d) ∧
    (s.get (R.QPAGE_STATUS_STATE q) = 1) ∧
    (s.earlyErr d q (s.get (R.QPAGE_STATUS_PARTITION q)) = .none) ∧
    (isColl (descOp d) = false ∧ descOp d ≠ 0x30) ∧
    (s.touchesHeld d extra q (s.get (R.QPAGE_STATUS_PARTITION q)) = false) ∧
    (s.pendingTriggers < 16384) ∧
    (topErr (operands d extra (s.roleFor d q)) = none) ∧
    ((s.xlRanges (s.get (R.QPAGE_STATUS_PARTITION q)) (s.clauseRanges d extra q)).bad = none) ∧
    ((s.xlRanges (s.get (R.QPAGE_STATUS_PARTITION q)) (s.clauseRanges d extra q)).lacking = []) ∧
    (s.anyTile = true) ∧
    (s.get R.PARSER_CTL_REMOTE_EXEC_EN = 0) :=
  ⟨{ fetched [] with work := { (fetched []).work with queues := [(1, { queue0 with fetched := some (desc0 64 3 8 [(24, 8, 9), (32, 8, fva5), (40, 8, 64), (48, 8, 5)], 3), held := true, extra := some (.none, []) })] } }, 1, 3, { queue0 with fetched := some (desc0 64 3 8 [(24, 8, 9), (32, 8, fva5), (40, 8, 64), (48, 8, 5)], 3), held := true, extra := some (.none, []) }, desc0 64 3 8 [(24, 8, 9), (32, 8, fva5), (40, 8, 64), (48, 8, 5)], [], by decide +kernel⟩

theorem test_meets_DescriptorsBecomeClauses_5 : ∃ (s : State) (q idx : Nat) (r : Queue) (d : List Byte),
    (s.live = true) ∧
    (s.home.finished = []) ∧
    (s.queue q = some r) ∧
    (r.fetched = some (d, idx)) ∧
    (r.held = true ∧ r.writing = true) ∧
    (isColl (descOp d) = false) :=
  ⟨{ fetched [] with work := { (fetched []).work with queues := [(1, { queue0 with fetched := some (fill0 fva5 64 5, 3), held := true, writing := true })] } }, 1, 3, { queue0 with fetched := some (fill0 fva5 64 5, 3), held := true, writing := true }, fill0 fva5 64 5, by decide +kernel⟩

theorem test_meets_DescriptorsBecomeClauses_6 : ∃ (s : State) (id : Nat) (k : Clause),
    (s.live = true) ∧
    (s.home.finished = []) ∧
    (s.clauseAt id = some k) ∧
    (k.untriggered = true ∧ k.ending = none) ∧
    (k.met = true ∨ descThreshold k.desc ≤ s.counter (nameIndex (descTrigger k.desc))) ∧
    (s.get R.PARSER_CTL_REMOTE_EXEC_EN = 0) :=
  ⟨flight { clause0 (desc0 64 3 8 [(24, 8, 9), (32, 8, fva5), (40, 8, 64), (48, 8, 5)]) 64 with untriggered := true, met := true }, 3, { clause0 (desc0 64 3 8 [(24, 8, 9), (32, 8, fva5), (40, 8, 64), (48, 8, 5)]) 64 with untriggered := true, met := true }, by decide +kernel⟩

theorem test_meets_DescriptorsBecomeClauses_7 : ∃ (s : State) (id : Nat) (k : Clause),
    (s.live = true) ∧
    (s.home.finished = []) ∧
    (s.clauseAt id = some k) ∧
    (k.timed = false ∧ k.ending = none ∧ k.stage = .waiting ∧ k.placed = []) ∧
    (descOp k.desc ≠ 0x40 ∧ descOp k.desc ≠ 0x42 ∧ isColl (descOp k.desc) = false) :=
  ⟨flight (clause0 (fill0 fva5 64 5) 64), 3, clause0 (fill0 fva5 64 5) 64, by decide +kernel⟩

theorem test_meets_ClausesArePlacedStartedAndParked_1 : ∃ (s : State) (id l c b : Nat) (k : Clause),
    (s.live = true) ∧
    (s.home.finished = []) ∧
    (s.clauseAt id = some k) ∧
    (k.stage = .waiting ∧ k.untriggered = false ∧ k.ending = none ∧ k.ptu = none) ∧
    (needsTile (descOp k.desc) = true ∧ spreads (descOp k.desc) = false) ∧
    ((List.range 48).filterMap (fun l => (s.takes l k.tsBytes).map (fun cb => (l, cb))) = [(l, c, b)]) ∧
    (s.work.waitTile = [] ∨ s.work.waitTile = [id]) :=
  ⟨put (flight (clause0 (desc0 128 5 1 [(32, 8, fva5), (40, 8, fva5), (48, 8, fva5), (56, 4, 1), (60, 4, 4), (64, 8, 64)]) 4)) ((List.range 63).map (fun i => (R.TILE_CTL_ENABLE (i + 1), 0))), 3, 0, 0, 0, clause0 (desc0 128 5 1 [(32, 8, fva5), (40, 8, fva5), (48, 8, fva5), (56, 4, 1), (60, 4, 4), (64, 8, 64)]) 4, by decide +kernel⟩

theorem test_meets_ClausesArePlacedStartedAndParked_2 : ∃ (s : State) (id : Nat) (k : Clause),
    (s.live = true) ∧
    (s.home.finished = []) ∧
    (s.clauseAt id = some k) ∧
    (k.stage = .waiting ∧ k.untriggered = false ∧ k.ending = none ∧ k.ptu = none) ∧
    (needsTile (descOp k.desc) = true) ∧
    ((List.range 48).filterMap (fun l => (s.takes l k.tsBytes).map (fun cb => (l, cb))) = []) ∧
    (s.work.waitTile.contains id = false) :=
  ⟨put (flight (clause0 (fill0 fva5 64 5) 64)) ((List.range 64).map (fun i => (R.TILE_CTL_ENABLE i, 0))), 3, clause0 (fill0 fva5 64 5) 64, by decide +kernel⟩

theorem test_meets_ClausesArePlacedStartedAndParked_3 : ∃ (s : State) (id : Nat) (k : Clause),
    (s.live = true) ∧
    (s.home.finished = []) ∧
    (s.clauseAt id = some k) ∧
    (k.ending = none ∧ k.untriggered = false ∧ k.stage = .running ∧ k.segment < k.segs ∧ k.cancelled = false ∧ k.ptu = none ∧ k.placed ≠ []) ∧
    (descOp k.desc ≠ 0x30 ∧ descOp k.desc ≠ 0x20 ∧ isColl (descOp k.desc) = false) ∧
    (k.covers (s.segTouch k k.segment) = true) :=
  ⟨flight { clause0 (fill0 fva5 64 5) 64 with stage := .running, placed := [⟨0, 0⟩] }, 3, { clause0 (fill0 fva5 64 5) 64 with stage := .running, placed := [⟨0, 0⟩] }, by decide +kernel⟩

theorem test_meets_ClausesArePlacedStartedAndParked_4 : ∃ (s : State) (id page kinds : Nat) (k : Clause),
    (s.live = true) ∧
    (s.home.finished = []) ∧
    (s.clauseAt id = some k) ∧
    (k.ending = none ∧ k.untriggered = false ∧ k.stage = .running ∧ k.segment < k.segs ∧ k.cancelled = false ∧ k.ptu = none ∧ k.placed ≠ [] ∧ k.flying ≠ []) ∧
    (descOp k.desc ≠ 0x30 ∧ isColl (descOp k.desc) = false) ∧
    (k.covers (s.segTouch k k.segment) = false) ∧
    (s.parkedCount < 8192) ∧
    ((s.xlRanges k.partition ((List.range (min 8 (k.segs - k.segment))).flatMap (fun i => s.segTouch k (k.segment + i)))).lacking = [(page, kinds)]) ∧
    (s.pendingFault k.partition page = none) ∧
    (s.xlat.faults.length < 16384) ∧
    (s.firstParked k.partition page s.tick = s.tick) :=
  ⟨flight { clause0 (fill0 (9 * 2 ^ 21) 64 5) 64 with stage := .running, placed := [⟨0, 0⟩], flying := [(7, 1)] }, 3, 9, 2, { clause0 (fill0 (9 * 2 ^ 21) 64 5) 64 with stage := .running, placed := [⟨0, 0⟩], flying := [(7, 1)] }, by decide +kernel⟩

theorem test_meets_ClausesArePlacedStartedAndParked_5 : ∃ (s : State) (id : Nat) (k : Clause) (x : Xres),
    (s.live = true) ∧
    (s.home.finished = []) ∧
    (s.clauseAt id = some k) ∧
    (k.stage = .parked ∧ k.ending = none ∧ k.placed = [] ∧ descOp k.desc ≠ 0x30 ∧ isColl (descOp k.desc) = false) ∧
    ((s.xlRanges k.partition (s.segTouch k k.segment)).lacking = []) ∧
    (s.xlRanges k.partition (s.fromSeg k k.segment) = x) ∧
    (x.bad = none) ∧
    (({ k with extents := x.extents ++ k.extents } : Clause).covers (s.segTouch k k.segment) = true) ∧
    (s.get R.PARSER_CTL_REMOTE_EXEC_EN = 0) :=
  ⟨flight { clause0 (fill0 fva5 64 5) 64 with stage := .parked, extents := [], waitsOn := [2] }, 3, { clause0 (fill0 fva5 64 5) 64 with stage := .parked, extents := [], waitsOn := [2] }, { bad := none, extents := [{ fva := fva5, len := 64, fpa := near0 0, side := false }], lacking := [] }, by decide +kernel⟩

theorem test_meets_ClausesArePlacedStartedAndParked_6 : ∃ (s : State) (id : Nat) (k : Clause),
    (s.live = true) ∧
    (s.home.finished = []) ∧
    (s.work.clauses = [(id, k)]) ∧
    (k.stage = .parked ∧ k.ending = none ∧ k.placed = [] ∧ isColl (descOp k.desc) = false) :=
  ⟨flight { clause0 (fill0 fva5 64 5) 64 with stage := .parked, extents := [], waitsOn := [2] }, 3, { clause0 (fill0 fva5 64 5) 64 with stage := .parked, extents := [], waitsOn := [2] }, by decide +kernel⟩

theorem test_meets_ClausesArePlacedStartedAndParked_7 : ∃ (s : State),
    (s.live = true) ∧
    (s.xlat.openBatch ≠ []) ∧
    (s.xlat.openBatch.length ≤ s.get R.XLAT_FB_CTL_BATCH_MAX) ∧
    (s.linkState s.batchLink = 4) :=
  ⟨{ put queued [(R.NELAR_STAT_STATE 0, 4)] with xlat := { queued.xlat with openBatch := [{ page := 9, partition := 1, access := 1, serial := 3, queue := 0, tense := 0, firstTick := 0, tick := 0 }] } }, by decide +kernel⟩

theorem test_meets_ClausesArePlacedStartedAndParked_8 : ∃ (s : State),
    (s.live = true) ∧
    (s.xlat.openBatch ≠ []) ∧
    (s.xlat.openBatch.length = s.get R.XLAT_FB_CTL_BATCH_MAX) ∧
    (s.linkState s.batchLink = 4) :=
  ⟨{ put queued [(R.NELAR_STAT_STATE 0, 4), (R.XLAT_FB_CTL_BATCH_MAX, 1)] with xlat := { queued.xlat with openBatch := [{ page := 9, partition := 1, access := 1, serial := 3, queue := 0, tense := 0, firstTick := 0, tick := 0 }] } }, by decide +kernel⟩

theorem test_meets_DataStepsIssueTheirAccesses_1 : ∃ (s : State) (id c src dst n fpa : Nat) (k : Clause),
    (s.live = true) ∧
    (s.home.finished = []) ∧
    (s.clauseAt id = some k) ∧
    (descOp k.desc = 1 ∧ k.ending = none ∧ k.issued < k.segment ∧ k.stage = .running) ∧
    (k.newSegs.flatMap (copyMoves k.desc) = [(c, src, dst, n)]) ∧
    (k.runs src n = some [(fpa, n)]) ∧
    (s.poisonedIn k.partition 0 src [(fpa, n)] = false) ∧
    (s.replicaOf fpa = none) ∧
    (MaySend s k.partition fpa) ∧
    (fpa % 4096 + n ≤ 4096 ∧ 0 < n) :=
  ⟨flight { clause0 (copy0 fva6 fva5 64) 64 with stage := .running, placed := [⟨0, 0⟩], segment := 1, timed := true }, 3, 0, fva6, fva5, 64, 2 ^ 49 + near0 0, { clause0 (copy0 fva6 fva5 64) 64 with stage := .running, placed := [⟨0, 0⟩], segment := 1, timed := true }, by decide +kernel⟩

theorem test_meets_DataStepsIssueTheirAccesses_2 : ∃ (s : State) (id c src dst n fpa : Nat) (k : Clause),
    (s.live = true) ∧
    (s.home.finished = []) ∧
    (s.clauseAt id = some k) ∧
    (descOp k.desc = 2 ∧ k.ending = none ∧ k.issued < k.segment ∧ k.stage = .running) ∧
    (k.newSegs.flatMap (copyMoves k.desc) = [(c, src, dst, n)]) ∧
    (k.runs src n = some [(fpa, n)]) ∧
    (s.poisonedIn k.partition 0 src [(fpa, n)] = false) ∧
    (s.replicaOf fpa = none) ∧
    (MaySend s k.partition fpa) ∧
    (fpa % 4096 + n ≤ 4096 ∧ 0 < n) :=
  ⟨flight { clause0 (desc0 64 2 0 [(32, 8, fva6), (40, 8, fva5), (48, 4, 64), (52, 3, 1), (56, 4, 64), (60, 4, 64)]) 64 with stage := .running, placed := [⟨0, 0⟩], segment := 1, timed := true }, 3, 0, fva6, fva5, 64, 2 ^ 49 + near0 0, { clause0 (desc0 64 2 0 [(32, 8, fva6), (40, 8, fva5), (48, 4, 64), (52, 3, 1), (56, 4, 64), (60, 4, 64)]) 64 with stage := .running, placed := [⟨0, 0⟩], segment := 1, timed := true }, by decide +kernel⟩

theorem test_meets_DataStepsIssueTheirAccesses_3 : ∃ (s : State) (id c n fpa : Nat) (k : Clause),
    (s.live = true) ∧
    (s.home.finished = []) ∧
    (s.clauseAt id = some k) ∧
    (descOp k.desc = 3 ∧ k.ending = none ∧ k.issued < k.segment ∧ k.stage = .running) ∧
    (n ≤ 4096) ∧
    (k.newSegs = [0]) ∧
    (fieldAt k.desc 40 8 = n) ∧
    (k.desc.length = 64) ∧
    (k.runs (fieldAt k.desc 32 8) n = some [(fpa, n)]) ∧
    (c = 0) ∧
    (s.poisonedIn k.partition 1 (fieldAt k.desc 32 8) [(fpa, n)] = false) ∧
    (MaySend s k.partition fpa) ∧
    (fpa % 4096 + n ≤ 4096 ∧ 0 < n) :=
  ⟨flight { clause0 (fill0 fva6 64 5) 64 with stage := .running, placed := [⟨0, 0⟩], segment := 1, timed := true }, 3, 0, 64, 2 ^ 49 + near0 0, { clause0 (fill0 fva6 64 5) 64 with stage := .running, placed := [⟨0, 0⟩], segment := 1, timed := true }, by decide +kernel⟩

theorem test_meets_DataStepsIssueTheirAccesses_4 : ∃ (s : State) (id n fpa : Nat) (k : Clause),
    (s.live = true) ∧
    (s.clauseAt id = some k) ∧
    (descOp k.desc = 3 ∧ k.ending = none ∧ k.issued < k.segment ∧ k.stage = .running) ∧
    (0 < n ∧ n ≤ 256) ∧
    (k.newSegs = [0]) ∧
    (fieldAt k.desc 40 8 = n) ∧
    (k.desc.length = 64) ∧
    (k.runs (fieldAt k.desc 32 8) n = some [(fpa, n)]) ∧
    (fpa % 256 + n ≤ 256) ∧
    (fpaChip fpa = s.chip) ∧
    (16 ≤ fpaUnit fpa ∧ fpaUnit fpa < 32) ∧
    (s.poisonedIn k.partition 1 (fieldAt k.desc 32 8) [(fpa, n)] = false) ∧
    (s.inQuiet fpa = false ∧ s.forwardOf fpa = none) ∧
    (s.frameErr fpa k.partition = .none) ∧
    (Intact s fpa n) ∧
    ((linesOf fpa n).all (s.lineClear true) = true) ∧
    (s.hasCopies fpa n = false) ∧
    (Calm s) ∧
    (k.flying = [] ∧ k.cancelled = false) ∧
    (s.work.clauses = [(id, k)]) :=
  ⟨{ flight { clause0 (fill0 (fva5 + 64) 20 0x0807060504030201) 20 with stage := .running, placed := [⟨0, 0⟩], segment := 1, timed := true } with mem := [(near0 70, 9#8)] }, 3, 20, near0 64, { clause0 (fill0 (fva5 + 64) 20 0x0807060504030201) 20 with stage := .running, placed := [⟨0, 0⟩], segment := 1, timed := true }, by decide +kernel⟩

theorem test_meets_DataStepsIssueTheirAccesses_5 : ∃ (s : State) (id e fpa : Nat) (k : Clause),
    (s.live = true) ∧
    (s.home.finished = []) ∧
    (s.clauseAt id = some k) ∧
    (descOp k.desc = 4 ∧ k.ending = none ∧ k.issued < k.segment ∧ k.stage = .running) ∧
    (k.newSegs.flatMap (segElems k.desc) = [e]) ∧
    (chunkParts (e * fieldAt k.desc 60 4) (fieldAt k.desc 60 4) = [(0, 0, 4)]) ∧
    (k.runs (fieldAt k.desc 48 8 + 4 * e) 4 = some [(fpa, 4)]) ∧
    (s.poisonedIn k.partition 0 (fieldAt k.desc 48 8 + 4 * e) [(fpa, 4)] = false) ∧
    (s.replicaOf fpa = none) ∧
    (MaySend s k.partition fpa) ∧
    (fpa % 4096 + 4 ≤ 4096 ∧ 0 < 4) :=
  ⟨flight { clause0 (desc0 128 4 1 [(32, 8, fva5), (40, 8, fva5), (48, 8, fva6), (56, 4, 1), (60, 4, 4), (64, 8, 64)]) 4 with stage := .running, placed := [⟨0, 0⟩], segment := 1, timed := true }, 3, 0, 2 ^ 49 + near0 0, { clause0 (desc0 128 4 1 [(32, 8, fva5), (40, 8, fva5), (48, 8, fva6), (56, 4, 1), (60, 4, 4), (64, 8, 64)]) 4 with stage := .running, placed := [⟨0, 0⟩], segment := 1, timed := true }, by decide +kernel⟩

theorem test_meets_DataStepsIssueTheirAccesses_6 : ∃ (s : State) (id e fpa : Nat) (k : Clause) (order : List Nat),
    (s.live = true) ∧
    (s.home.finished = []) ∧
    (s.clauseAt id = some k) ∧
    (descOp k.desc = 5 ∧ k.ending = none ∧ k.issued < k.segment ∧ k.stage = .running) ∧
    (scatterOrder order (k.newSegs.flatMap (segElems k.desc)) = [e]) ∧
    (chunkParts (e * fieldAt k.desc 60 4) (fieldAt k.desc 60 4) = [(0, 0, 4)]) ∧
    (k.runs (fieldAt k.desc 48 8 + 4 * e) 4 = some [(fpa, 4)]) ∧
    (s.poisonedIn k.partition 0 (fieldAt k.desc 48 8 + 4 * e) [(fpa, 4)] = false) ∧
    (s.replicaOf fpa = none) ∧
    (MaySend s k.partition fpa) ∧
    (fpa % 4096 + 4 ≤ 4096 ∧ 0 < 4) :=
  ⟨flight { clause0 (desc0 128 5 1 [(32, 8, fva5), (40, 8, fva5), (48, 8, fva6), (56, 4, 1), (60, 4, 4), (64, 8, 64)]) 4 with stage := .running, placed := [⟨0, 0⟩], segment := 1, timed := true }, 3, 0, 2 ^ 49 + near0 0, { clause0 (desc0 128 5 1 [(32, 8, fva5), (40, 8, fva5), (48, 8, fva6), (56, 4, 1), (60, 4, 4), (64, 8, 64)]) 4 with stage := .running, placed := [⟨0, 0⟩], segment := 1, timed := true }, [0], by decide +kernel⟩

theorem test_meets_DataStepsIssueTheirAccesses_7 : ∃ (s : State) (id fpa : Nat) (k : Clause),
    (s.live = true) ∧
    (s.home.finished = []) ∧
    (s.clauseAt id = some k) ∧
    (descOp k.desc = 6 ∧ k.ending = none ∧ k.issued < k.segment ∧ k.stage = .running) ∧
    (k.batchPos < min (fieldAt k.desc 40 4) (k.segment * 32768)) ∧
    (tget (2 ^ 45) k.indices = none) ∧
    (k.runs (fieldAt k.desc 32 8 + 64 * k.batchPos) 64 = some [(fpa, 64)]) ∧
    (s.poisonedIn k.partition 0 (fieldAt k.desc 32 8 + 64 * k.batchPos) [(fpa, 64)] = false) ∧
    (s.replicaOf fpa = none) ∧
    (MaySend s k.partition fpa) ∧
    (fpa % 4096 + 64 ≤ 4096 ∧ 0 < 64) :=
  ⟨flight { clause0 (desc0 64 6 0 [(32, 8, fva6), (40, 4, 2)]) 128 with stage := .running, placed := [⟨0, 0⟩], segment := 1, timed := true }, 3, 2 ^ 49 + near0 0, { clause0 (desc0 64 6 0 [(32, 8, fva6), (40, 4, 2)]) 128 with stage := .running, placed := [⟨0, 0⟩], segment := 1, timed := true }, by decide +kernel⟩

theorem test_meets_ClausesWithoutOperandsAndCompletion_1 : ∃ (s : State) (id : Nat) (k : Clause) (r : Queue),
    (s.live = true) ∧
    (s.home.finished = []) ∧
    (s.clauseAt id = some k) ∧
    (s.queue k.queue = some r) ∧
    (r.writing = true) ∧
    (descOp k.desc = 0x40 ∧ k.ending = none ∧ k.issued = 0 ∧ k.untriggered = false ∧ k.stage = .waiting ∧ k.origin = none) ∧
    (k.flying = [] ∧ k.failed = [] ∧ k.counted = [] ∧ k.chunks = 0 ∧ k.arriving = 0 ∧ k.arriveErr = .none ∧ k.placed = []) ∧
    (descArriveEn k.desc = false ∧ descCmplErr k.desc = false) ∧
    (s.fenceMet id k = true) :=
  ⟨flight (clause0 (fence0) 0), 3, clause0 (fence0) 0, { queue0 with writing := true }, by decide +kernel⟩

theorem test_meets_ClausesWithoutOperandsAndCompletion_2 : ∃ (s : State) (id : Nat) (k : Clause) (r : Queue),
    (s.live = true) ∧
    (s.home.finished = []) ∧
    (s.clauseAt id = some k) ∧
    (s.queue k.queue = some r) ∧
    (r.writing = true) ∧
    (descOp k.desc = 0x42 ∧ k.ending = none ∧ k.issued = 0 ∧ k.untriggered = false ∧ k.stage = .waiting ∧ k.origin = none) ∧
    (k.flying = [] ∧ k.failed = [] ∧ k.counted = [] ∧ k.chunks = 0 ∧ k.arriving = 0 ∧ k.arriveErr = .none ∧ k.placed = []) ∧
    (descArriveEn k.desc = false ∧ descCmplErr k.desc = false) ∧
    (s.waitMet k = true) :=
  ⟨flight (clause0 (wait0 0 0) 0), 3, clause0 (wait0 0 0) 0, { queue0 with writing := true }, by decide +kernel⟩

theorem test_meets_ClausesWithoutOperandsAndCompletion_3 : ∃ (s : State) (id : Nat) (k : Clause) (r : Queue),
    (s.live = true) ∧
    (s.home.finished = []) ∧
    (s.clauseAt id = some k) ∧
    (s.queue k.queue = some r) ∧
    (r.writing = true) ∧
    (descOp k.desc = 0x42 ∧ k.ending = none ∧ k.issued = 0 ∧ k.untriggered = false ∧ k.stage = .waiting ∧ k.origin = none) ∧
    (k.flying = [] ∧ k.failed = [] ∧ k.counted = [] ∧ k.chunks = 0 ∧ k.arriving = 0 ∧ k.arriveErr = .none ∧ k.placed = []) ∧
    (descArriveEn k.desc = false ∧ descCmplErr k.desc = false) ∧
    (s.waitMet k = true) :=
  ⟨flight (clause0 (wait0 0 0) 0), 3, clause0 (wait0 0 0) 0, { queue0 with writing := true }, by decide +kernel⟩

theorem test_meets_ClausesWithoutOperandsAndCompletion_4 : ∃ (s : State) (id : Nat) (k : Clause) (r : Queue),
    (s.live = true) ∧
    (s.home.finished = []) ∧
    (s.clauseAt id = some k) ∧
    (s.queue k.queue = some r) ∧
    (r.writing = true) ∧
    (descOp k.desc = 0x42 ∧ k.ending = none ∧ k.issued = 0 ∧ k.untriggered = false ∧ k.stage = .waiting ∧ k.origin = none) ∧
    (k.flying = [] ∧ k.arriving = 0 ∧ k.placed = [] ∧ k.met = false) ∧
    (s.get (R.QPAGE_STATUS_STATE k.queue) = 1 ∧ r.held = false) ∧
    (k.queue < 32768) :=
  ⟨flight (clause0 (wait0 0 9) 0), 3, clause0 (wait0 0 9) 0, { queue0 with writing := true }, by decide +kernel⟩

theorem test_meets_ClausesWithoutOperandsAndCompletion_5 : ∃ (s : State) (id : Nat) (k : Clause),
    (s.live = true) ∧
    (s.home.finished = []) ∧
    (s.clauseAt id = some k) ∧
    (descOp k.desc = 0x41 ∧ k.ending = none ∧ k.issued = 0 ∧ k.untriggered = false ∧ k.stage = .waiting ∧ k.cancelled = false ∧ k.flying = []) ∧
    (nameChip (fieldAt k.desc 32 8) = s.chip ∧ s.ownsCounter k.partition (nameIndex (fieldAt k.desc 32 8)) = true) ∧
    (s.work.clauses = [(id, k)]) ∧
    (s.home.tiles = []) ∧
    (Calm s) :=
  ⟨flight (clause0 (desc0 64 0x41 0 [(32, 8, 2), (40, 8, 7), (48, 1, 0)]) 0), 3, clause0 (desc0 64 0x41 0 [(32, 8, 2), (40, 8, 7), (48, 1, 0)]) 0, by decide +kernel⟩

theorem test_meets_ClausesWithoutOperandsAndCompletion_6 : ∃ (s : State) (id fpa n : Nat) (k : Clause),
    (s.live = true) ∧
    (s.home.finished = []) ∧
    (s.clauseAt id = some k) ∧
    (descOp k.desc = 0x30 ∧ k.ending = none ∧ k.issued = 0 ∧ k.stage = .running ∧ k.placed ≠ []) ∧
    (fieldAt k.desc 40 2 = n) ∧
    (0 < n) ∧
    (k.runs (fieldAt k.desc 32 8) (4 * n) = some [(fpa, 4 * n)]) ∧
    (s.poisonedIn k.partition 0 (fieldAt k.desc 32 8) [(fpa, 4 * n)] = false) ∧
    (s.replicaOf fpa = none) ∧
    (MaySend s k.partition fpa) ∧
    (fpa % 4096 + 4 * n ≤ 4096) :=
  ⟨{ flight { kern0 with issued := 0 } with home := { Home.reset with tiles := [(0, { Tile.empty with ctxs := [(0, newCtx 3 kern0 0)] })] } }, 3, 2 ^ 49 + near0 0, 2, { kern0 with issued := 0 }, by decide +kernel⟩

theorem test_meets_ClausesWithoutOperandsAndCompletion_7 : ∃ (s : State) (id fpa n : Nat) (k : Clause) (c : At) (x : Ctx),
    (s.live = true) ∧
    (Calm s) ∧
    (s.clauseAt id = some k) ∧
    (descOp k.desc = 0x30 ∧ k.ending = none ∧ k.issued = 0 ∧ k.stage = .running) ∧
    (k.placed = [c]) ∧
    (s.ctx c = some x) ∧
    (x.clause = id) ∧
    (fieldAt k.desc 40 2 = n) ∧
    (0 < n) ∧
    (k.runs (fieldAt k.desc 32 8) (4 * n) = some [(fpa, 4 * n)]) ∧
    (s.poisonedIn k.partition 0 (fieldAt k.desc 32 8) [(fpa, 4 * n)] = false) ∧
    (fpa % 4096 + 4 * n ≤ 4096) ∧
    (Reached s k.partition fpa) ∧
    (Intact s fpa (4 * n)) ∧
    ((linesOf fpa (4 * n)).all (s.lineClear false) = true) ∧
    (k.flying = []) :=
  ⟨{ flight { kern0 with issued := 0, desc := desc0 128 0x30 1 [(32, 8, fva5 + 64), (40, 2, 2), (42, 1, 1), (43, 1, 1), (48, 8, fva6)] } with mem := [(near0 64, 5#8), (near0 71, 7#8)], home := { Home.reset with tiles := [(0, { Tile.empty with ctxs := [(0, newCtx 3 kern0 0)] })] } }, 3, near0 64, 2, { kern0 with issued := 0, desc := desc0 128 0x30 1 [(32, 8, fva5 + 64), (40, 2, 2), (42, 1, 1), (43, 1, 1), (48, 8, fva6)] }, ⟨0, 0⟩, newCtx 3 kern0 0, by decide +kernel⟩

theorem test_meets_ClausesWithoutOperandsAndCompletion_8 : ∃ (s : State) (id u : Nat) (k : Clause),
    (s.live = true) ∧
    (s.home.finished = []) ∧
    (s.clauseAt id = some k) ∧
    (descOp k.desc = 0x20 ∧ k.ending = none ∧ k.stage = .waiting ∧ k.untriggered = false ∧ k.ptu = none ∧ k.extra = [] ∧ k.flying = []) ∧
    (s.chooseUnit k = some u) :=
  ⟨put (flight (clause0 trans0 256)) [(R.PTU_STAT_STATE 0, 2), (R.PTU_CTL_ENABLE 0, 1)], 3, 0, clause0 trans0 256, by decide +kernel⟩

theorem test_meets_ClausesWithoutOperandsAndCompletion_9 : ∃ (s : State) (id c : Nat) (k : Clause),
    (s.live = true) ∧
    (s.home.finished = []) ∧
    (s.clauseAt id = some k) ∧
    (k.stage ≠ .done ∧ k.stage ≠ .away) ∧
    (chunkExists k.desc k.extra (s.role k) c = true) ∧
    (s.chunkDone k c = true) ∧
    (descArriveEn k.desc = false) :=
  ⟨flight { clause0 (fill0 fva5 64 5) 64 with stage := .running, segment := 1, issued := 1 }, 3, 0, { clause0 (fill0 fva5 64 5) 64 with stage := .running, segment := 1, issued := 1 }, by decide +kernel⟩

theorem test_meets_ClausesWithoutOperandsAndCompletion_10 : ∃ (s : State) (id : Nat) (k : Clause) (r : Queue) (e : Ending),
    (s.live = true) ∧
    (s.home.finished = []) ∧
    (s.clauseAt id = some k) ∧
    (s.queue k.queue = some r) ∧
    (r.writing = true) ∧
    (k.origin = none ∧ k.stage = .running ∧ k.flying = [] ∧ k.arriving = 0 ∧ k.placed = []) ∧
    (isColl (descOp k.desc) = false) ∧
    (k.ending = some e ∧ e.status ≠ .none) :=
  ⟨flight { clause0 (fill0 fva5 64 5) 64 with stage := .running, ending := some (ending .poison 0 5) }, 3, { clause0 (fill0 fva5 64 5) 64 with stage := .running, ending := some (ending .poison 0 5) }, { queue0 with writing := true }, ending .poison 0 5, by decide +kernel⟩

theorem test_meets_MembersReadTheirChunks_1 : ∃ (s : State) (id q off n fpa : Nat) (k : Clause) (g : Group) (i : Instance) (js : List Nat),
    (s.live = true) ∧
    (s.home.finished = []) ∧
    (s.clauseAt id = some k) ∧
    (descOp k.desc = 0x10 ∧ k.ending = none ∧ k.timed = true) ∧
    (s.instanceRuns k = true) ∧
    (s.group (cGroup k.desc) = some g ∧ g.body.group = cGroup k.desc) ∧
    (s.instance_ (cGroup k.desc) k.inst = some i) ∧
    (i.readySent = true ∧ i.spill = []) ∧
    (s.localNext k = some q) ∧
    (s.srcPlace k q = some (off, n)) ∧
    (s.srcStarted k (cSrc k.desc + off) n = true) ∧
    (tget (s.localKey g k q) i.chunks = none) ∧
    (((i.chunks.filter (fun c => c.1 / 2 ^ 32 % 8 == 0)).flatMap (fun c => c.2.slots)).length + accSlots (cFmt k.desc) ≤ g.body.slots / 2) ∧
    (i.takeSlots g.body.slots (accSlots (cFmt k.desc)) = some js) ∧
    (k.runs (cSrc k.desc + off) n = some [(fpa, n)]) ∧
    (s.poisonedIn k.partition 0 (cSrc k.desc + off) [(fpa, n)] = false) ∧
    (s.replicaOf fpa = none) ∧
    (MaySend s k.partition fpa) ∧
    (fpa % 4096 + n ≤ 4096 ∧ 0 < n) :=
  ⟨gathered 3 0x10 (inst1 0x10) (member 0x10), 3, 0, 0, 16, 2 ^ 49 + near0 0, member 0x10, { group0 with body := body1 3, inst := [inst1 0x10] }, inst1 0x10, [0], by decide +kernel⟩

theorem test_meets_MembersReadTheirChunks_2 : ∃ (s : State) (id q off n fpa : Nat) (k : Clause) (g : Group) (i : Instance) (js : List Nat),
    (s.live = true) ∧
    (s.home.finished = []) ∧
    (s.clauseAt id = some k) ∧
    (descOp k.desc = 0x11 ∧ k.ending = none ∧ k.timed = true) ∧
    (s.instanceRuns k = true) ∧
    (s.group (cGroup k.desc) = some g ∧ g.body.group = cGroup k.desc) ∧
    (s.instance_ (cGroup k.desc) k.inst = some i) ∧
    (i.readySent = true ∧ i.spill = []) ∧
    (s.localNext k = some q) ∧
    (s.srcPlace k q = some (off, n)) ∧
    (s.srcStarted k (cSrc k.desc + off) n = true) ∧
    (tget (s.localKey g k q) i.chunks = none) ∧
    (((i.chunks.filter (fun c => c.1 / 2 ^ 32 % 8 == 0)).flatMap (fun c => c.2.slots)).length + accSlots (cFmt k.desc) ≤ g.body.slots / 2) ∧
    (i.takeSlots g.body.slots (accSlots (cFmt k.desc)) = some js) ∧
    (k.runs (cSrc k.desc + off) n = some [(fpa, n)]) ∧
    (s.poisonedIn k.partition 0 (cSrc k.desc + off) [(fpa, n)] = false) ∧
    (s.replicaOf fpa = none) ∧
    (MaySend s k.partition fpa) ∧
    (fpa % 4096 + n ≤ 4096 ∧ 0 < n) :=
  ⟨gathered 3 0x11 (inst1 0x11) (member 0x11), 3, 0, 0, 16, 2 ^ 49 + near0 0, member 0x11, { group0 with body := body1 3, inst := [inst1 0x11] }, inst1 0x11, [0], by decide +kernel⟩

theorem test_meets_MembersReadTheirChunks_3 : ∃ (s : State) (id q off n fpa : Nat) (k : Clause) (g : Group) (i : Instance) (js : List Nat),
    (s.live = true) ∧
    (s.home.finished = []) ∧
    (s.clauseAt id = some k) ∧
    (descOp k.desc = 0x12 ∧ k.ending = none ∧ k.timed = true) ∧
    (s.instanceRuns k = true) ∧
    (s.group (cGroup k.desc) = some g ∧ g.body.group = cGroup k.desc) ∧
    (s.instance_ (cGroup k.desc) k.inst = some i) ∧
    (i.readySent = true ∧ i.spill = []) ∧
    (s.localNext k = some q) ∧
    (s.srcPlace k q = some (off, n)) ∧
    (s.srcStarted k (cSrc k.desc + off) n = true) ∧
    (tget (s.localKey g k q) i.chunks = none) ∧
    (((i.chunks.filter (fun c => c.1 / 2 ^ 32 % 8 == 0)).flatMap (fun c => c.2.slots)).length + accSlots (cFmt k.desc) ≤ g.body.slots / 2) ∧
    (i.takeSlots g.body.slots (accSlots (cFmt k.desc)) = some js) ∧
    (k.runs (cSrc k.desc + off) n = some [(fpa, n)]) ∧
    (s.poisonedIn k.partition 0 (cSrc k.desc + off) [(fpa, n)] = false) ∧
    (s.replicaOf fpa = none) ∧
    (MaySend s k.partition fpa) ∧
    (fpa % 4096 + n ≤ 4096 ∧ 0 < n) :=
  ⟨gathered 3 0x12 (inst1 0x12) (member 0x12), 3, 0, 0, 16, 2 ^ 49 + near0 0, member 0x12, { group0 with body := body1 3, inst := [inst1 0x12] }, inst1 0x12, [0], by decide +kernel⟩

theorem test_meets_MembersReadTheirChunks_4 : ∃ (s : State) (id q off n fpa : Nat) (k : Clause) (g : Group) (i : Instance) (js : List Nat),
    (s.live = true) ∧
    (s.home.finished = []) ∧
    (s.clauseAt id = some k) ∧
    (descOp k.desc = 0x13 ∧ k.ending = none ∧ k.timed = true) ∧
    (s.instanceRuns k = true) ∧
    (s.group (cGroup k.desc) = some g ∧ g.body.group = cGroup k.desc) ∧
    (s.instance_ (cGroup k.desc) k.inst = some i) ∧
    (i.readySent = true ∧ i.spill = []) ∧
    (s.localNext k = some q) ∧
    (s.srcPlace k q = some (off, n)) ∧
    (s.srcStarted k (cSrc k.desc + off) n = true) ∧
    (tget (s.localKey g k q) i.chunks = none) ∧
    (((i.chunks.filter (fun c => c.1 / 2 ^ 32 % 8 == 0)).flatMap (fun c => c.2.slots)).length + 1 ≤ g.body.slots / 2) ∧
    (i.takeSlots g.body.slots (1) = some js) ∧
    (k.runs (cSrc k.desc + off) n = some [(fpa, n)]) ∧
    (s.poisonedIn k.partition 0 (cSrc k.desc + off) [(fpa, n)] = false) ∧
    (s.replicaOf fpa = none) ∧
    (MaySend s k.partition fpa) ∧
    (fpa % 4096 + n ≤ 4096 ∧ 0 < n) :=
  ⟨gathered 3 0x13 (inst1 0x13) (member 0x13), 3, 0, 0, 16, 2 ^ 49 + near0 0, member 0x13, { group0 with body := body1 3, inst := [inst1 0x13] }, inst1 0x13, [0], by decide +kernel⟩

theorem test_meets_MembersReadTheirChunks_5 : ∃ (s : State) (id q off n fpa : Nat) (k : Clause) (g : Group) (i : Instance) (js : List Nat),
    (s.live = true) ∧
    (s.home.finished = []) ∧
    (s.clauseAt id = some k) ∧
    (descOp k.desc = 0x14 ∧ k.ending = none ∧ k.timed = true) ∧
    (s.instanceRuns k = true) ∧
    (s.group (cGroup k.desc) = some g ∧ g.body.group = cGroup k.desc) ∧
    (s.instance_ (cGroup k.desc) k.inst = some i) ∧
    (i.readySent = true ∧ i.spill = []) ∧
    (s.localNext k = some q) ∧
    (s.srcPlace k q = some (off, n)) ∧
    (s.srcStarted k (cSrc k.desc + off) n = true) ∧
    (tget (s.localKey g k q) i.chunks = none) ∧
    (((i.chunks.filter (fun c => c.1 / 2 ^ 32 % 8 == 0)).flatMap (fun c => c.2.slots)).length + 1 ≤ g.body.slots / 2) ∧
    (i.takeSlots g.body.slots (1) = some js) ∧
    (k.runs (cSrc k.desc + off) n = some [(fpa, n)]) ∧
    (s.poisonedIn k.partition 0 (cSrc k.desc + off) [(fpa, n)] = false) ∧
    (s.replicaOf fpa = none) ∧
    (MaySend s k.partition fpa) ∧
    (fpa % 4096 + n ≤ 4096 ∧ 0 < n) :=
  ⟨gathered 3 0x14 (inst1 0x14) (member 0x14), 3, 0, 0, 16, 2 ^ 49 + near0 0, member 0x14, { group0 with body := body1 3, inst := [inst1 0x14] }, inst1 0x14, [0], by decide +kernel⟩

theorem test_meets_MembersReadTheirChunks_6 : ∃ (s : State) (id q off n fpa : Nat) (k : Clause) (g : Group) (i : Instance) (js : List Nat),
    (s.live = true) ∧
    (s.home.finished = []) ∧
    (s.clauseAt id = some k) ∧
    (descOp k.desc = 0x15 ∧ k.ending = none ∧ k.timed = true) ∧
    (s.instanceRuns k = true) ∧
    (s.group (cGroup k.desc) = some g ∧ g.body.group = cGroup k.desc) ∧
    (s.instance_ (cGroup k.desc) k.inst = some i) ∧
    (i.readySent = true ∧ i.spill = []) ∧
    (s.localNext k = some q) ∧
    (s.srcPlace k q = some (off, n)) ∧
    (s.srcStarted k (cSrc k.desc + off) n = true) ∧
    (tget (s.localKey g k q) i.chunks = none) ∧
    (((i.chunks.filter (fun c => c.1 / 2 ^ 32 % 8 == 0)).flatMap (fun c => c.2.slots)).length + 1 ≤ g.body.slots / 2) ∧
    (i.takeSlots g.body.slots (1) = some js) ∧
    (k.runs (cSrc k.desc + off) n = some [(fpa, n)]) ∧
    (s.poisonedIn k.partition 0 (cSrc k.desc + off) [(fpa, n)] = false) ∧
    (s.replicaOf fpa = none) ∧
    (MaySend s k.partition fpa) ∧
    (fpa % 4096 + n ≤ 4096 ∧ 0 < n) :=
  ⟨gathered 3 0x15 (inst1 0x15) (member 0x15), 3, 0, 0, 16, 2 ^ 49 + near0 0, member 0x15, { group0 with body := body1 3, inst := [inst1 0x15] }, inst1 0x15, [0], by decide +kernel⟩

theorem test_meets_MembersReadTheirChunks_7 : ∃ (s : State) (id q off n fpa : Nat) (k : Clause) (g : Group) (i : Instance) (js : List Nat),
    (s.live = true) ∧
    (s.home.finished = []) ∧
    (s.clauseAt id = some k) ∧
    (descOp k.desc = 0x16 ∧ k.ending = none ∧ k.timed = true) ∧
    (s.instanceRuns k = true) ∧
    (s.group (cGroup k.desc) = some g ∧ g.body.group = cGroup k.desc) ∧
    (s.instance_ (cGroup k.desc) k.inst = some i) ∧
    (i.readySent = true ∧ i.spill = []) ∧
    (s.localNext k = some q) ∧
    (s.srcPlace k q = some (off, n)) ∧
    (s.srcStarted k (cSrc k.desc + off) n = true) ∧
    (tget (s.localKey g k q) i.chunks = none) ∧
    (((i.chunks.filter (fun c => c.1 / 2 ^ 32 % 8 == 0)).flatMap (fun c => c.2.slots)).length + 1 ≤ g.body.slots / 2) ∧
    (i.takeSlots g.body.slots (1) = some js) ∧
    (k.runs (cSrc k.desc + off) n = some [(fpa, n)]) ∧
    (s.poisonedIn k.partition 0 (cSrc k.desc + off) [(fpa, n)] = false) ∧
    (s.replicaOf fpa = none) ∧
    (MaySend s k.partition fpa) ∧
    (fpa % 4096 + n ≤ 4096 ∧ 0 < n) :=
  ⟨gathered 3 0x16 (inst1 0x16) ({ member 0x16 with extra := leBytes 8 4 ++ leBytes 8 0 ++ leBytes 8 0 ++ leBytes 8 0 ++ leBytes 8 0 ++ leBytes 8 0 }), 3, 0, 0, 16, 2 ^ 49 + near0 0, { member 0x16 with extra := leBytes 8 4 ++ leBytes 8 0 ++ leBytes 8 0 ++ leBytes 8 0 ++ leBytes 8 0 ++ leBytes 8 0 }, { group0 with body := body1 3, inst := [inst1 0x16] }, inst1 0x16, [0], by decide +kernel⟩

theorem test_meets_CollectivesExchangeAndAbort_1 : ∃ (s : State) (p n num : Nat) (g : Group) (i : Instance),
    (s.live = true) ∧
    (p < 4096) ∧
    (s.coll.waiting.find? (fun w => w.1 == p) = some (p, n, num)) ∧
    (s.group n = some g) ∧
    (s.instance_ n num = some i) ∧
    (g.body.slots ≤ s.get (R.CONJ_PART_QUOTA p) - s.get (R.CONJ_PART_USED p) ∧ g.body.slots ≤ s.get R.CONJ_STAT_FREE) :=
  ⟨put { gathered 1 0x11 { inst1 0x11 with reserved := false } (member 0x11) with coll := { (gathered 1 0x11 { inst1 0x11 with reserved := false } (member 0x11)).coll with waiting := [(1, 3, 0)] } } [(R.CONJ_PART_QUOTA 1, 16), (R.CONJ_STAT_FREE, 100)], 1, 3, 0, { group0 with body := body1 1, inst := [{ inst1 0x11 with reserved := false }] }, { inst1 0x11 with reserved := false }, by decide +kernel⟩

theorem test_meets_CollectivesExchangeAndAbort_2 : ∃ (s : State) (n id c : Nat) (g : Group) (i : Instance) (k : Clause),
    (s.live = true) ∧
    (s.home.finished = []) ∧
    (s.group n = some g) ∧
    (g.body.group = n) ∧
    (g.state = 1 ∧ g.current = some i ∧ s.boot.modeChange = none) ∧
    (i.readySent = false ∧ i.reserved = true ∧ i.accepted.length = g.body.slotList.length ∧ i.members = [id] ∧ i.digests = []) ∧
    (lacksArrays k.desc k.extra g.body.members = false) ∧
    (s.clauseAt id = some k) ∧
    (descOp i.desc ≠ 0x16) ∧
    (s.senders g i = [c]) ∧
    (c < 2 ^ 15 ∧ s.unreachable c = false) :=
  ⟨gathered 3 0x11 { inst1 0x11 with readySent := false, started := false } (member 0x11), 3, 3, 1, { group0 with body := body1 3, inst := [{ inst1 0x11 with readySent := false, started := false }] }, { inst1 0x11 with readySent := false, started := false }, member 0x11, by decide +kernel⟩

theorem test_meets_CollectivesExchangeAndAbort_3 : ∃ (s : State) (x : CollTag) (g : Group) (i : Instance) (data : List Byte),
    (s.live = true) ∧
    (s.home.finished = []) ∧
    (s.group x.group = some g) ∧
    (g.generation = x.gen ∧ g.body.partition = x.partition ∧ g.state = 1 ∧ g.body.group = x.group) ∧
    (s.instance_ x.group (g.tagged x.inst) = some i) :=
  ⟨gathered 3 0x11 (inst1 0x11) (member 0x11), tag1 1, { group0 with body := body1 3, inst := [inst1 0x11] }, inst1 0x11, [1#8, 2#8], by decide +kernel⟩

theorem test_meets_CollectivesExchangeAndAbort_4 : ∃ (s : State) (x : CollTag) (g : Group) (i : Instance) (crc : Nat),
    (s.live = true) ∧
    (s.home.finished = []) ∧
    (s.group x.group = some g) ∧
    (g.generation = x.gen ∧ g.body.partition = x.partition ∧ g.state = 1 ∧ g.body.group = x.group) ∧
    (s.instance_ x.group (g.tagged x.inst) = some i) ∧
    (crc32c ((tget (CollTag.key x) i.inFlight).getD []) ≠ crc) ∧
    (x.src < 2 ^ 15 ∧ s.unreachable x.src = false) :=
  ⟨gathered 3 0x11 ({ inst1 0x11 with inFlight := [(CollTag.key (tag1 1), leBytes 16 7)] }) (member 0x11), tag1 1, { group0 with body := body1 3, inst := [{ inst1 0x11 with inFlight := [(CollTag.key (tag1 1), leBytes 16 7)] }] }, { inst1 0x11 with inFlight := [(CollTag.key (tag1 1), leBytes 16 7)] }, 5, by decide +kernel⟩

theorem test_meets_CollectivesExchangeAndAbort_5 : ∃ (s : State) (x : CollTag) (g : Group) (i : Instance) (data : List Byte) (js : List Nat),
    (s.live = true) ∧
    (s.home.finished = []) ∧
    (s.group x.group = some g) ∧
    (g.generation = x.gen ∧ g.body.partition = x.partition ∧ g.state = 1 ∧ g.body.group = x.group) ∧
    (s.instance_ x.group (g.tagged x.inst) = some i) ∧
    (i.spill = [] ∧ i.takeSlots g.body.slots (accSlots (cFmt i.desc)) = some js) ∧
    (tget (CollTag.key x) i.inFlight = some data) ∧
    (x.src < 2 ^ 15 ∧ s.unreachable x.src = false) ∧
    (x.phase = 1 ∧ descOp i.desc = 0x11) ∧
    (2 < g.body.size 0) ∧
    (g.body.posOf (chunkOwner i.desc i.extra (s.roleFor i.desc i.queue) g.body x.chunk) 0 = g.body.posOf (s.chipIndex g.body s.chip) 0) ∧
    (tget (chunkKey 1 x.chunk) i.chunks = none) :=
  ⟨gathered 7 0x11 ({ inst1 0x11 with desc := putBytes (coll1 0x11) 48 (leBytes 8 3072), inFlight := [(CollTag.key (tag1 1), leBytes 16 7)] }) (member 0x11), tag1 1, { group0 with body := body1 7, inst := [{ inst1 0x11 with desc := putBytes (coll1 0x11) 48 (leBytes 8 3072), inFlight := [(CollTag.key (tag1 1), leBytes 16 7)] }] }, { inst1 0x11 with desc := putBytes (coll1 0x11) 48 (leBytes 8 3072), inFlight := [(CollTag.key (tag1 1), leBytes 16 7)] }, leBytes 16 7, [0], by decide +kernel⟩

theorem test_meets_CollectivesExchangeAndAbort_6 : ∃ (s : State) (x : CollTag) (g : Group) (i : Instance) (counts : List Nat),
    (s.live = true) ∧
    (s.home.finished = []) ∧
    (s.group x.group = some g) ∧
    (g.generation = x.gen ∧ g.body.partition = x.partition ∧ g.state = 1 ∧ g.body.group = x.group) ∧
    (s.instance_ x.group (g.tagged x.inst) = some i) ∧
    (i.members = [] ∧ i.inFlight = []) :=
  ⟨gathered 3 0x16 ({ inst1 0x16 with members := [], inFlight := [] }) (member 0x16), tag1 0, { group0 with body := body1 3, inst := [{ inst1 0x16 with members := [], inFlight := [] }] }, { inst1 0x16 with members := [], inFlight := [] }, [4], by decide +kernel⟩

theorem test_meets_CollectivesExchangeAndAbort_7 : ∃ (s : State) (x : CollTag) (g : Group) (i : Instance) (digest : Nat),
    (s.live = true) ∧
    (s.home.finished = []) ∧
    (s.group x.group = some g) ∧
    (g.generation = x.gen ∧ g.body.partition = x.partition ∧ g.state = 1 ∧ g.body.group = x.group) ∧
    (s.instance_ x.group (g.tagged x.inst) = some i) ∧
    (i.readySent = false ∨ (i.digest = digest ∧ descOp i.desc ≠ 0x16)) ∧
    (i.chunks = []) :=
  ⟨gathered 3 0x11 ({ inst1 0x11 with readySent := false }) (member 0x11), tag1 0, { group0 with body := body1 3, inst := [{ inst1 0x11 with readySent := false }] }, { inst1 0x11 with readySent := false }, 9, by decide +kernel⟩

theorem test_meets_CollectivesExchangeAndAbort_8 : ∃ (s : State) (x : CollTag) (g : Group) (i : Instance) (c : CollChunk) (n : Nat),
    (s.live = true) ∧
    (s.home.finished = []) ∧
    (s.group x.group = some g) ∧
    (g.generation = x.gen ∧ g.body.partition = x.partition ∧ g.state = 1 ∧ g.body.group = x.group) ∧
    (s.instance_ x.group (g.tagged x.inst) = some i) ∧
    (tget (chunkKey x.phase x.chunk) i.chunks = some c) ∧
    (c.unpassed = [(x.src, n)] ∧ c.waitReady = []) ∧
    ((terase (chunkKey x.phase x.chunk) i.chunks).all (fun e => !sameCopy e.1 (chunkKey x.phase x.chunk) || !e.2.slots.isEmpty) = true) ∧
    (i.inFlight.all (fun e => decide (e.1 < 2 ^ 61)) = true) ∧
    (4 ≤ x.phase ∧ x.phase ≠ 7) ∧
    ((i.members.any (fun id => (s.clauseAt id).any (fun k => k.stage != .done))) = true) ∧
    (g.current = some i) :=
  ⟨gathered 3 0x11 ({ inst1 0x11 with chunks := [(chunkKey 4 0, { data := [1#8], contributions := 0, unpassed := [(1, 0)], waitReady := [], slots := [2] })] }) (member 0x11), tag1 4, { group0 with body := body1 3, inst := [{ inst1 0x11 with chunks := [(chunkKey 4 0, { data := [1#8], contributions := 0, unpassed := [(1, 0)], waitReady := [], slots := [2] })] }] }, { inst1 0x11 with chunks := [(chunkKey 4 0, { data := [1#8], contributions := 0, unpassed := [(1, 0)], waitReady := [], slots := [2] })] }, { data := [1#8], contributions := 0, unpassed := [(1, 0)], waitReady := [], slots := [2] }, 0, by decide +kernel⟩

theorem test_meets_CollectivesExchangeAndAbort_9 : ∃ (s : State) (x : CollTag) (g : Group) (i : Instance) (c : CollChunk) (n : Nat),
    (s.live = true) ∧
    (s.home.finished = []) ∧
    (s.group x.group = some g) ∧
    (g.generation = x.gen ∧ g.body.partition = x.partition ∧ g.state = 1 ∧ g.body.group = x.group) ∧
    (s.instance_ x.group (g.tagged x.inst) = some i) ∧
    (tget (chunkKey x.phase x.chunk) i.chunks = some c) ∧
    (x.phase ≠ 7) ∧
    (c.unpassed = [(x.src, n)] ∧ n < 3 ∧ 0 < c.data.length ∧ c.data.length ≤ 4096) ∧
    (tget s.fabric.nextFrame s.fabric.frames = none ∧ tget (s.fabric.nextFrame + 1) s.fabric.frames = none) ∧
    (x.src < 2 ^ 15 ∧ s.unreachable x.src = false) :=
  ⟨gathered 3 0x11 ({ inst1 0x11 with chunks := [(chunkKey 4 0, { data := [1#8], contributions := 0, unpassed := [(1, 0)], waitReady := [], slots := [2] })] }) (member 0x11), tag1 4, { group0 with body := body1 3, inst := [{ inst1 0x11 with chunks := [(chunkKey 4 0, { data := [1#8], contributions := 0, unpassed := [(1, 0)], waitReady := [], slots := [2] })] }] }, { inst1 0x11 with chunks := [(chunkKey 4 0, { data := [1#8], contributions := 0, unpassed := [(1, 0)], waitReady := [], slots := [2] })] }, { data := [1#8], contributions := 0, unpassed := [(1, 0)], waitReady := [], slots := [2] }, 0, by decide +kernel⟩

theorem test_meets_CollectivesExchangeAndAbort_10 : ∃ (s : State) (n id peer phase chunk : Nat) (g : Group) (i : Instance) (k : Clause),
    (s.live = true) ∧
    (s.home.finished = [] ∧ s.resendsFailed n peer phase chunk = true) ∧
    (s.storeFull = false) ∧
    (s.group n = some g) ∧
    (g.state = 1 ∧ g.inst = [i] ∧ i.members = [id] ∧ i.reserved = true ∧ i.spill = [] ∧ g.body.partition < 4096) ∧
    (s.abortPeers g.body 0 = [] ∧ s.abortPeers g.body 1 = [] ∧ s.abortPeers g.body 2 = []) ∧
    (s.clauseAt id = some k) ∧
    (k.ending = none ∧ k.stage = .running ∧ k.placed = [] ∧ k.untriggered = false) :=
  ⟨gathered 1 0x11 ({ inst1 0x11 with fails := [(2 ^ 35 + 2 ^ 32, 4)] }) ({ member 0x11 with placed := [] }), 3, 3, 1, 1, 0, { group0 with body := body1 1, inst := [{ inst1 0x11 with fails := [(2 ^ 35 + 2 ^ 32, 4)] }] }, { inst1 0x11 with fails := [(2 ^ 35 + 2 ^ 32, 4)] }, { member 0x11 with placed := [] }, by decide +kernel⟩

theorem test_meets_CollectivesExchangeAndAbort_11 : ∃ (s : State) (n id : Nat) (g : Group) (i : Instance) (k : Clause),
    (s.live = true) ∧
    (s.storeFull = false) ∧
    (s.group n = some g) ∧
    (g.state = 1 ∧ g.inst = [i] ∧ i.members = [id] ∧ i.reserved = true ∧ i.spill = [] ∧ g.body.partition < 4096) ∧
    (s.abortPeers g.body 0 = [] ∧ s.abortPeers g.body 1 = [] ∧ s.abortPeers g.body 2 = []) ∧
    (s.clauseAt id = some k) ∧
    (k.ending = none ∧ k.stage = .running ∧ k.placed = [] ∧ k.untriggered = false) :=
  ⟨gathered 1 0x11 (inst1 0x11) ({ member 0x11 with placed := [] }), 3, 3, { group0 with body := body1 1, inst := [inst1 0x11] }, inst1 0x11, { member 0x11 with placed := [] }, by decide +kernel⟩

theorem test_meets_CollectivesExchangeAndAbort_12 : ∃ (s : State) (id cause origin : Nat) (x : CollTag) (g : Group) (i : Instance) (k : Clause),
    (s.live = true) ∧
    (s.group x.group = some g) ∧
    (g.generation = x.gen ∧ g.body.partition = x.partition) ∧
    (origin ≠ s.chip) ∧
    (g.state = 1 ∧ g.inst = [i] ∧ i.members = [id] ∧ i.reserved = true ∧ i.spill = [] ∧ g.body.partition < 4096) ∧
    (s.abortPeers g.body 0 = [] ∧ s.abortPeers g.body 1 = [] ∧ s.abortPeers g.body 2 = []) ∧
    (s.clauseAt id = some k) ∧
    (k.ending = none ∧ k.stage = .running ∧ k.placed = [] ∧ k.untriggered = false) :=
  ⟨gathered 1 0x11 (inst1 0x11) ({ member 0x11 with placed := [] }), 3, 9, 1, tag1 0, { group0 with body := body1 1, inst := [inst1 0x11] }, inst1 0x11, { member 0x11 with placed := [] }, by decide +kernel⟩

theorem test_meets_TransformUnitsStartCheckAndRecover_1 : ∃ (s : State) (u id fpa : Nat) (rest : List Nat) (k : Clause),
    (s.live = true) ∧
    (s.home.finished = []) ∧
    (s.ptuServes u = true) ∧
    ((s.ptu u).running = none ∧ (s.ptu u).asking = false ∧ (s.ptu u).waiting = id :: rest) ∧
    (s.clauseAt id = some k) ∧
    (k.stage ≠ .parked ∧ k.extra = []) ∧
    (k.runs (tCoef k.desc) (tCoefLen k.desc) = some [(fpa, tCoefLen k.desc)]) ∧
    (s.poisonedIn k.partition 0 (tCoef k.desc) [(fpa, tCoefLen k.desc)] = false) ∧
    (s.replicaOf fpa = none) ∧
    (MaySend s k.partition fpa) ∧
    (fpa % 4096 + tCoefLen k.desc ≤ 4096 ∧ 0 < tCoefLen k.desc) :=
  ⟨{ put (flight (clause0 trans6 256)) [(R.PTU_STAT_STATE 0, 2), (R.PTU_CTL_ENABLE 0, 1)] with ptus := [(0, { Ptu.reset with waiting := [3] })] }, 0, 3, 2 ^ 49 + near0 0, [], clause0 trans6 256, by decide +kernel⟩

theorem test_meets_TransformUnitsStartCheckAndRecover_2 : ∃ (s : State) (u : Nat),
    (s.live = true) ∧
    (s.home.finished = []) ∧
    (s.ptuServes u = true) ∧
    ((s.ptu u).running = none ∧ (s.ptuState u = 3 → (s.ptu u).waiting ≠ [])) ∧
    (bit (s.get R.CONJ_CTL_ROT_PTU) u = false ∨ (s.ptu u).rot = true ∨ (s.ptu u).waiting ≠ []) :=
  ⟨{ put running [(R.PTU_STAT_STATE 0, 2)] with ptus := [(0, { Ptu.reset with heldVecs := 256, lastFailed := true })] }, 0, by decide +kernel⟩

theorem test_meets_TransformUnitsStartCheckAndRecover_3 : ∃ (s : State) (u : Nat),
    (s.live = true) ∧
    (s.home.finished = []) ∧
    (s.ptuServes u = true) ∧
    ((s.ptu u).lastFailed = false) :=
  ⟨{ put running [(R.PTU_STAT_STATE 0, 2)] with ptus := [(0, { Ptu.reset with running := some 3, heldVecs := 256, held := [1#8] })] }, 0, by decide +kernel⟩

theorem test_meets_TransformUnitsStartCheckAndRecover_4 : ∃ (s : State) (u : Nat),
    (s.live = true) ∧
    (s.home.finished = []) ∧
    (s.ptuServes u = true) ∧
    ((s.ptu u).lastFailed = true) ∧
    ((s.ptu u).running = none ∧ (s.ptu u).waiting = []) :=
  ⟨{ put running [(R.PTU_STAT_STATE 0, 2)] with ptus := [(0, { Ptu.reset with heldVecs := 0, lastFailed := true })] }, 0, by decide +kernel⟩

theorem test_meets_TransformUnitsStartCheckAndRecover_5 : ∃ (s : State) (u : Nat),
    (s.live = true) ∧
    (s.ptuServes u = true) :=
  ⟨put running [(R.PTU_STAT_STATE 0, 2)], 0, by decide +kernel⟩

theorem test_meets_TransformUnitsStartCheckAndRecover_6 : ∃ (s : State) (u : Nat),
    (s.live = true) ∧
    (s.home.finished = []) ∧
    ((s.ptu u).calibrating = true) ∧
    ((s.ptu u).running = none ∧ s.ptuState u ≠ 3) ∧
    (bit (s.get R.CONJ_CTL_ROT_PTU) u = false ∨ (s.ptu u).rot = true ∨ (s.ptu u).waiting ≠ []) :=
  ⟨{ put running [(R.PTU_STAT_STATE 0, 2)] with ptus := [(0, { Ptu.reset with calibrating := true })] }, 0, by decide +kernel⟩

theorem test_meets_TransformUnitsStartCheckAndRecover_7 : ∃ (s : State) (u : Nat),
    (s.live = true) ∧
    (u < 4 ∧ s.ptuState u = 1) ∧
    ((s.ptu u).running = none ∧ (s.ptu u).waiting = [] ∧ (s.ptu u).asking = false ∧ (s.ptu u).rot = false) :=
  ⟨put running [(R.PTU_STAT_STATE 1, 1), (R.CONJ_CTL_ROT_PTU, 2), (R.PTU_STAT_MODE 1, 1)], 1, by decide +kernel⟩

theorem test_meets_TransformUnitsStartCheckAndRecover_8 : ∃ (s : State) (u : Nat),
    (s.live = true) ∧
    (u < 4 ∧ 1 ≤ s.ptuState u ∧ s.ptuState u ≤ 3) :=
  ⟨{ put running [(R.PTU_STAT_STATE 3, 2), (R.PTU_STAT_CARRIER 3, 1)] with ptus := [(3, { Ptu.reset with running := some 3, heldVecs := 256, held := [1#8] })] }, 3, by decide +kernel⟩

theorem test_meets_TransformUnitsStartCheckAndRecover_9 : ∃ (s : State) (u : Nat),
    (s.live = true) ∧
    (u < 4 ∧ (s.ptu u).carrierLost = true) ∧
    (s.ptuState u = 2 ∨ s.ptuState u = 3) :=
  ⟨{ put running [(R.PTU_STAT_STATE 3, 2)] with ptus := [(3, { Ptu.reset with carrierLost := true })] }, 3, by decide +kernel⟩

theorem test_meets_TransformUnitsStartCheckAndRecover_10 : ∃ (s : State) (u : Nat),
    (s.live = true) ∧
    (s.home.finished = []) ∧
    (u < 4 ∧ (s.ptu u).carrierLost = true ∧ s.ptuState u ≤ 3) ∧
    ((s.ptu u).running = none ∧ (s.ptu u).waiting = []) :=
  ⟨{ put running [(R.PTU_STAT_STATE 3, 2)] with ptus := [(3, { Ptu.reset with carrierLost := true })] }, 3, by decide +kernel⟩

theorem test_meets_TransformUnitsStartCheckAndRecover_11 : ∃ (s : State) (u : Nat),
    (s.live = true) ∧
    (u < 4) ∧
    (s.ptuState u = 1 ∨ s.ptuState u = 2) ∧
    ((s.ptu u).running = none ∧ (s.ptu u).asking = false) :=
  ⟨put running [(R.PTU_STAT_STATE 3, 2)], 3, by decide +kernel⟩

theorem test_meets_TransformUnitsStartCheckAndRecover_12 : ∃ (s : State) (u : Nat),
    (s.live = true) ∧
    (u < 4) ∧
    (s.ptuState u = 5) :=
  ⟨put running [(R.PTU_STAT_STATE 2, 5)], 2, by decide +kernel⟩

theorem test_meets_TransformUnitsStartCheckAndRecover_13 : ∃ (s : State) (u : Nat),
    (s.live = true) ∧
    (u < 4) ∧
    (s.ptuState u = 4) :=
  ⟨{ put running [(R.PTU_STAT_STATE 2, 4), (R.PTU_CTL_ENABLE 2, 0)] with ptus := [(2, { Ptu.reset with lastFailed := true })] }, 2, by decide +kernel⟩

theorem test_meets_TransformUnitsStartCheckAndRecover_14 : ∃ (s : State) (u : Nat),
    (s.live = true) ∧
    (u < 4) ∧
    (s.ptuState u = 3) :=
  ⟨put running [(R.PTU_STAT_STATE 2, 3), (R.PTU_CTL_ENABLE 2, 0)], 2, by decide +kernel⟩

theorem test_meets_TransformUnitsStartCheckAndRecover_15 : ∃ (s : State) (u : Nat),
    (s.live = true) ∧
    (s.home.finished = []) ∧
    (u < 4) ∧
    (s.ptuState u = 3) ∧
    ((s.ptu u).running = none ∧ (s.ptu u).asking = false ∧ (∀ id ∈ (s.ptu u).waiting, s.clauseAt id = none)) :=
  ⟨{ put running [(R.PTU_STAT_STATE 2, 3), (R.PTU_CTL_ENABLE 2, 0)] with ptus := [(2, { Ptu.reset with waiting := [9], carrierLost := true })] }, 2, by decide +kernel⟩

theorem test_meets_TilesTimeoutsAndMarks_1 : ∃ (s : State) (n l : Nat),
    (s.live = true) ∧
    (s.home.finished = []) ∧
    (s.logical n = some l ∧ s.phys l = n) ∧
    (s.get (R.TILE_STAT_STATE n) = 0) ∧
    ((s.tile l).ctxs = [] ∧ (s.tile l).entries = [] ∧ (s.tile l).stores = [] ∧ s.tileAsks l = false) :=
  ⟨{ put running [(R.TILE_CTL_ENABLE 3, 1)] with home := { Home.reset with tiles := [(3, { Tile.empty with l1 := [(7, 1)] })] } }, 3, 3, by decide +kernel⟩

theorem test_meets_TilesTimeoutsAndMarks_2 : ∃ (s : State) (c : At) (n : Nat) (x : Ctx) (k : Clause),
    (s.live = true) ∧
    (s.home.finished = []) ∧
    (s.logical n = some c.tile ∧ s.phys c.tile = n) ∧
    (s.get (R.TILE_STAT_STATE n) = 0) ∧
    ((s.tile c.tile).ctxs = [(c.ctx, x)] ∧ s.clauseAt x.clause = some k ∧ k.timed = true) :=
  ⟨ctr0, ⟨0, 0⟩, 0, ctxC, kernA, by decide +kernel⟩

theorem test_meets_TilesTimeoutsAndMarks_3 : ∃ (s : State) (n l : Nat),
    (s.live = true) ∧
    (s.home.finished = []) ∧
    (s.logical n = some l) ∧
    (s.get (R.TILE_STAT_STATE n) = 2) :=
  ⟨put running [(R.TILE_STAT_STATE 49, 2), (R.TILE_CTL_ENABLE 49, 0)], 49, 49, by decide +kernel⟩

theorem test_meets_TilesTimeoutsAndMarks_4 : ∃ (s : State) (n l : Nat),
    (s.live = true) ∧
    (s.home.finished = []) ∧
    (s.logical n = some l) ∧
    (s.get (R.TILE_STAT_STATE n) ≠ 2) :=
  ⟨put running [(R.TILE_STAT_STATE 49, 1)], 49, 49, by decide +kernel⟩

theorem test_meets_TilesTimeoutsAndMarks_5 : ∃ (s : State) (n : Nat),
    (s.logical n = none) ∧
    (s.home.finished = []) :=
  ⟨running, 50, by decide +kernel⟩

theorem test_meets_TilesTimeoutsAndMarks_6 : ∃ (s : State) (n : Nat),
    (s.logical n = none) ∧
    (s.home.finished = []) :=
  ⟨running, 50, by decide +kernel⟩

theorem test_meets_TilesTimeoutsAndMarks_7 : ∃ (s : State) (c : At) (n : Nat) (x : Ctx),
    (s.live = true) ∧
    (s.home.finished = []) ∧
    (s.logical n = some c.tile ∧ s.phys c.tile = n) ∧
    (s.get (R.TILE_STAT_STATE n) = 1) ∧
    ((s.tile c.tile).ctxs = [(c.ctx, x)] ∧ s.clauseAt x.clause = none) ∧
    ((∀ e ∈ (s.tile c.tile).entries, e.2.ctx = c.ctx) ∧ (s.tile c.tile).stores = [] ∧ s.tileAsks c.tile = false) :=
  ⟨put (ctrW { ctxC with clause := 77 }) [(R.TILE_STAT_STATE 0, 1)], ⟨0, 0⟩, 0, { ctxC with clause := 77 }, by decide +kernel⟩

theorem test_meets_TilesTimeoutsAndMarks_8 : ∃ (s : State) (c : At) (n : Nat) (x : Ctx) (k : Clause),
    (s.live = true) ∧
    (s.home.finished = []) ∧
    (s.logical n = some c.tile ∧ s.phys c.tile = n) ∧
    (s.get (R.TILE_STAT_STATE n) = 1) ∧
    ((s.tile c.tile).ctxs = [(c.ctx, x)] ∧ s.clauseAt x.clause = some k ∧ k.ending = none ∧ k.stage = .running ∧ k.timed = true) ∧
    ((∀ e ∈ (s.tile c.tile).entries, e.2.ctx = c.ctx) ∧ (s.tile c.tile).stores = [] ∧ s.tileAsks c.tile = false) :=
  ⟨put ctr0 [(R.TILE_STAT_STATE 0, 1)], ⟨0, 0⟩, 0, ctxC, kernA, by decide +kernel⟩

theorem test_meets_TilesTimeoutsAndMarks_9 : ∃ (s : State) (tag : Nat) (r : Track),
    (s.live = true) ∧
    (s.home.finished = []) ∧
    (tag < 131072 ∧ tget tag s.fabric.track = some r ∧ r.quarantined = false ∧ r.cont = .drop ∧ r.spec = false) ∧
    (Calm s) :=
  ⟨tracked 1 false, 9, track0 1 false, by decide +kernel⟩

theorem test_meets_TilesTimeoutsAndMarks_10 : ∃ (s : State) (tag : Nat) (r : Track),
    (s.live = true) ∧
    (tag < 131072 ∧ tget tag s.fabric.track = some r ∧ r.quarantined = false ∧ r.cont = .drop ∧ r.spec = true) ∧
    (Calm s) :=
  ⟨{ tracked 1 false with fabric := { (tracked 1 false).fabric with track := [(9, { track0 1 false with spec := true })] } }, 9, { track0 1 false with spec := true }, by decide +kernel⟩

theorem test_meets_TilesTimeoutsAndMarks_11 : ∃ (s : State) (tag : Nat) (r : Track),
    (s.live = true) ∧
    (s.home.finished = []) ∧
    (tag < 131072 ∧ tget tag s.fabric.track = some r ∧ r.quarantined = true) :=
  ⟨tracked 1 true, 9, track0 1 true, by decide +kernel⟩

theorem test_meets_TilesTimeoutsAndMarks_12 : ∃ (s : State) (u : Nat),
    (s.live = true) ∧
    (s.home.finished = []) ∧
    ((u % 2 ^ 15) ≠ s.chip ∧ s.reachState (u % 2 ^ 15) ≠ 2) ∧
    (s.fabric.track = [] ∧ s.fabric.waitTag = [] ∧ s.fabric.frames = [] ∧ s.parser.dir = [] ∧ s.parser.replicas = [] ∧ s.parser.migrations = [] ∧ s.coll.groups = []) :=
  ⟨edged, 1, by decide +kernel⟩

theorem test_meets_TilesTimeoutsAndMarks_13 : ∃ (s : State) (u : Nat),
    (s.live = true) ∧
    (s.home.finished = []) ∧
    ((u % 2 ^ 15) ≠ s.chip ∧ s.reachState (u % 2 ^ 15) = 2) :=
  ⟨put { running with tele := { Tele.reset with reach := [(1, { state := 2, how := 0, tick := 0 })] } } [(R.FAULT_STAT_LOST_CHIPS, 1)], 1, by decide +kernel⟩

theorem test_meets_TilesTimeoutsAndMarks_14 : ∃ (s : State) (u : Nat),
    (s.live = true) ∧
    (s.home.finished = []) ∧
    ((u % 2 ^ 15) = s.chip ∨ s.reachState (u % 2 ^ 15) ≠ 2) :=
  ⟨edged, 1, by decide +kernel⟩

theorem test_meets_TilesTimeoutsAndMarks_15 : ∃ (s : State) (u : Nat),
    (s.live = true) ∧
    (s.home.finished = []) ∧
    ((u % 2 ^ 15) = s.chip ∨ s.reachState (u % 2 ^ 15) = 2) :=
  ⟨edged, 0, by decide +kernel⟩

theorem test_meets_SelectorsChooseWhatResultsReturn_1 : ∃ (s : State) (path q : Path) (v i : Nat) (e : PmEntry),
    (s.manageable = true) ∧
    (s.frozen = none) ∧
    (q ≠ path) ∧
    (s.pmFind (bits v 42 31) (bits v 30 0) = some (i, e)) :=
  ⟨edged, .smbus, .jtag, 2 ^ 31 + 5, pmSet 1 5 * 16, pm0 0 16 1, by decide +kernel⟩

theorem test_meets_SelectorsChooseWhatResultsReturn_2 : ∃ (s : State) (path q : Path) (v : Nat) (g : Group),
    (s.manageable = true) ∧
    (s.frozen = none) ∧
    (q ≠ path) ∧
    (s.group (bits v 13 0) = some g) :=
  ⟨{ edged with coll := { Coll.reset with groups := [(3, group0)] } }, .nelarA, .nelarB, 3, group0, by decide +kernel⟩

theorem test_meets_SelectorsChooseWhatResultsReturn_3 : ∃ (s : State) (path q : Path) (v i : Nat) (e : PmEntry),
    (s.manageable = true) ∧
    (s.frozen = none) ∧
    (q ≠ path) ∧
    (s.pmFind (bits v 42 31) (bits v 30 0) = some (i, e)) ∧
    (e.chip = s.chip) ∧
    (tget e.dirIndex s.parser.dir = none) ∧
    (s.migration (bits v 42 31) (bits v 30 0) = none) :=
  ⟨{ edged with parser := { Parser.reset with heat := [(frameKey (pm0 0 16 1).fpa, { Heat.zero with heat := 77 })] } }, .mgmt0, .mgmt1, 2 ^ 31 + 5, pmSet 1 5 * 16, pm0 0 16 1, by decide +kernel⟩

theorem test_meets_SelectorsChooseWhatResultsReturn_4 : ∃ (s : State) (path q : Path) (v : Nat) (x : Violation),
    (s.manageable = true) ∧
    (s.frozen = none) ∧
    (q ≠ path) ∧
    ((if bit v 28 then s.security.glog else (tget (bits v 27 16) s.security.vlogs).getD [])[bits v 7 0]? = some x) :=
  ⟨{ edged with security := { Security.reset with glog := [{ addr := 1, tick := 2, partition := 3, code := 4, cls := 5, source := 6 }] } }, .jtag, .smbus, 2 ^ 28, { addr := 1, tick := 2, partition := 3, code := 4, cls := 5, source := 6 }, by decide +kernel⟩

theorem test_meets_SelectorsChooseWhatResultsReturn_5 : ∃ (s : State) (path q : Path) (v : Nat) (r : Reach),
    (s.manageable = true) ∧
    (s.frozen = none) ∧
    (q ≠ path) ∧
    (tget (bits v 14 0) s.tele.reach = some r) :=
  ⟨edged, .jtag, .smbus, 1, { state := 1, how := 0, tick := 0 }, by decide +kernel⟩

theorem test_meets_SelectorsChooseWhatResultsReturn_6 : ∃ (s : State) (path q : Path) (v : Nat) (e : FaultEvent),
    (s.manageable = true) ∧
    (s.frozen = none) ∧
    (q ≠ path) ∧
    (s.tele.log[bits v 9 0]? = some e) :=
  ⟨{ edged with tele := { Tele.reset with log := [{ event := 1, addr := 2, tick := 3, partition := 4, code := 5 }] } }, .jtag, .smbus, 0, { event := 1, addr := 2, tick := 3, partition := 4, code := 5 }, by decide +kernel⟩

theorem test_meets_HistogramsAreSnappedSampledAndStreamed_1 : ∃ (s : State) (mask : Nat),
    (s.manageable = true) ∧
    (s.frozen = none) :=
  ⟨{ put running [(R.TELE_CTL_STREAM_MASK, 4)] with tele := { Tele.reset with hists := [(1, Hist.empty.add 9), (2, Hist.empty.add 3), (3, Hist.empty.add 4)] } }, 6, by decide +kernel⟩

theorem test_meets_HistogramsAreSnappedSampledAndStreamed_2 : ∃ (s : State),
    (s.manageable = true) ∧
    (s.frozen = none) :=
  ⟨put running [(R.SWC_PORT_FRAMES_OUT 143, 7), (R.SWC_PORT_DEPTH_CELLS 0, 3)], by decide +kernel⟩

theorem test_meets_HistogramsAreSnappedSampledAndStreamed_3 : ∃ (s : State),
    (s.manageable = true) ∧
    (s.frozen = none) :=
  ⟨put running [(R.SWC_PORT_FRAMES_OUT 143, 7), (R.SWC_PORT_DEPTH_CELLS 0, 3), (R.SWC_PORT_DEPTH_PEAK 0, 9)], by decide +kernel⟩

theorem test_meets_HistogramsAreSnappedSampledAndStreamed_4 : ∃ (s : State) (h v : Nat),
    (s.manageable = true) ∧
    (s.frozen = none) ∧
    (h < 16) :=
  ⟨{ running with tele := { Tele.reset with hists := [(1, Hist.empty.add 9), (2, Hist.empty.add 3)] } }, 2, 0x30050003, by decide +kernel⟩

theorem test_meets_HistogramsAreSnappedSampledAndStreamed_5 : ∃ (s : State) (h : Nat),
    (s.live = true) ∧
    (h < 16) ∧
    (s.get (R.TELE_HCFG_FILTER_KIND h) = 0) ∧
    (s.get (R.TELE_HCFG_SOURCE h) = 10 ∨ s.get (R.TELE_HCFG_SOURCE h) = 11) :=
  ⟨put running [(R.TELE_HCFG_SOURCE 3, 10)], 3, by decide +kernel⟩

theorem test_meets_HistogramsAreSnappedSampledAndStreamed_6 : ∃ (s : State) (hs : List Nat),
    (s.live = true) ∧
    (s.flag R.TELE_CTL_STREAM_EN = true) ∧
    (s.get R.TELE_CTL_DEST = 0) ∧
    (hs = bitsOf 16 (s.get R.TELE_CTL_STREAM_MASK)) ∧
    (hs ≠ []) ∧
    (s.get R.NELAR_CHIP_NOTIFY < 2) ∧
    (s.linkState (s.get R.NELAR_CHIP_NOTIFY) = 4) :=
  ⟨{ put running [(R.TELE_CTL_STREAM_EN, 1), (R.TELE_CTL_STREAM_MASK, 6), (R.NELAR_STAT_STATE 0, 4)] with tele := { Tele.reset with hists := [(1, Hist.empty.add 9)] } }, [1, 2], by decide +kernel⟩

theorem test_meets_ScalarInstructionsComputeAndGoOn_2 : ∃ (s : State) (c : At) (f : FmtS) (x : Ctx),
    (s.ready c = some x) :=
  ⟨tiled0 ctx0, ⟨0, 0⟩, ⟨3, 1, 2⟩, ctx0, by decide +kernel⟩

theorem test_meets_ScalarInstructionsComputeAndGoOn_3 : ∃ (s : State) (c : At) (f : FmtS) (x : Ctx),
    (s.ready c = some x) :=
  ⟨tiled0 ctx0, ⟨0, 0⟩, ⟨3, 1, 2⟩, ctx0, by decide +kernel⟩

theorem test_meets_ScalarInstructionsComputeAndGoOn_4 : ∃ (s : State) (c : At) (f : FmtS) (x : Ctx),
    (s.ready c = some x) :=
  ⟨tiled0 ctx0, ⟨0, 0⟩, ⟨3, 1, 2⟩, ctx0, by decide +kernel⟩

theorem test_meets_ScalarInstructionsComputeAndGoOn_5 : ∃ (s : State) (c : At) (f : FmtS) (x : Ctx),
    (s.ready c = some x) :=
  ⟨tiled0 ctx0, ⟨0, 0⟩, ⟨3, 1, 2⟩, ctx0, by decide +kernel⟩

theorem test_meets_ScalarInstructionsComputeAndGoOn_6 : ∃ (s : State) (c : At) (f : FmtS) (x : Ctx),
    (s.ready c = some x) :=
  ⟨tiled0 ctx0, ⟨0, 0⟩, ⟨3, 1, 2⟩, ctx0, by decide +kernel⟩

theorem test_meets_ScalarInstructionsComputeAndGoOn_7 : ∃ (s : State) (c : At) (f : FmtS) (x : Ctx),
    (s.ready c = some x) :=
  ⟨tiled0 ctx0, ⟨0, 0⟩, ⟨3, 1, 2⟩, ctx0, by decide +kernel⟩

theorem test_meets_ScalarInstructionsComputeAndGoOn_8 : ∃ (s : State) (c : At) (f : FmtS) (x : Ctx),
    (s.ready c = some x) :=
  ⟨tiled0 ctx0, ⟨0, 0⟩, ⟨3, 1, 2⟩, ctx0, by decide +kernel⟩

theorem test_meets_ScalarInstructionsComputeAndGoOn_9 : ∃ (s : State) (c : At) (f : FmtS) (x : Ctx),
    (s.ready c = some x) :=
  ⟨tiled0 ctx0, ⟨0, 0⟩, ⟨3, 1, 2⟩, ctx0, by decide +kernel⟩

theorem test_meets_ScalarInstructionsComputeAndGoOn_10 : ∃ (s : State) (c : At) (f : FmtS) (x : Ctx),
    (s.ready c = some x) :=
  ⟨tiled0 ctx0, ⟨0, 0⟩, ⟨3, 1, 2⟩, ctx0, by decide +kernel⟩

theorem test_meets_ScalarInstructionsComputeAndGoOn_11 : ∃ (s : State) (c : At) (f : FmtS) (x : Ctx),
    (s.ready c = some x) :=
  ⟨tiled0 ctx0, ⟨0, 0⟩, ⟨3, 1, 2⟩, ctx0, by decide +kernel⟩

theorem test_meets_ScalarInstructionsComputeAndGoOn_12 : ∃ (s : State) (c : At) (f : FmtS) (x : Ctx),
    (s.ready c = some x) :=
  ⟨tiled0 ctx0, ⟨0, 0⟩, ⟨3, 1, 2⟩, ctx0, by decide +kernel⟩

theorem test_meets_ScalarInstructionsComputeAndGoOn_13 : ∃ (s : State) (c : At) (f : FmtS) (x : Ctx),
    (s.ready c = some x) :=
  ⟨tiled0 ctx0, ⟨0, 0⟩, ⟨3, 1, 2⟩, ctx0, by decide +kernel⟩

theorem test_meets_ScalarInstructionsComputeAndGoOn_14 : ∃ (s : State) (c : At) (f : FmtS) (x : Ctx),
    (s.ready c = some x) :=
  ⟨tiled0 ctx0, ⟨0, 0⟩, ⟨3, 1, 2⟩, ctx0, by decide +kernel⟩

theorem test_meets_ScalarInstructionsComputeAndGoOn_15 : ∃ (s : State) (c : At) (f : FmtS) (x : Ctx),
    (s.ready c = some x) :=
  ⟨tiled0 ctx0, ⟨0, 0⟩, ⟨3, 1, 2⟩, ctx0, by decide +kernel⟩

theorem test_meets_ScalarInstructionsComputeAndGoOn_16 : ∃ (s : State) (c : At) (f : FmtS) (x : Ctx),
    (s.ready c = some x) :=
  ⟨tiled0 ctx0, ⟨0, 0⟩, ⟨3, 1, 2⟩, ctx0, by decide +kernel⟩

theorem test_meets_ScalarInstructionsComputeAndGoOn_17 : ∃ (s : State) (c : At) (f : FmtS) (x : Ctx),
    (s.ready c = some x) :=
  ⟨tiled0 ctx0, ⟨0, 0⟩, ⟨3, 1, 2⟩, ctx0, by decide +kernel⟩

theorem test_meets_ScalarInstructionsComputeAndGoOn_18 : ∃ (s : State) (c : At) (f : FmtS) (x : Ctx),
    (s.ready c = some x) :=
  ⟨tiled0 ctx0, ⟨0, 0⟩, ⟨3, 1, 2⟩, ctx0, by decide +kernel⟩

theorem test_meets_ScalarInstructionsComputeAndGoOn_19 : ∃ (s : State) (c : At) (f : FmtS) (x : Ctx),
    (s.ready c = some x) :=
  ⟨tiled0 ctx0, ⟨0, 0⟩, ⟨3, 1, 2⟩, ctx0, by decide +kernel⟩

theorem test_meets_ScalarInstructionsComputeAndGoOn_20 : ∃ (s : State) (c : At) (f : FmtS) (x : Ctx),
    (s.ready c = some x) ∧
    (f.rb = 0) :=
  ⟨tiled0 ctx0, ⟨0, 0⟩, ⟨3, 1, 0⟩, ctx0, by decide +kernel⟩

theorem test_meets_ScalarInstructionsComputeAndGoOn_21 : ∃ (s : State) (c : At) (f : FmtS) (x : Ctx),
    (s.ready c = some x) ∧
    (f.rb ≠ 0) :=
  ⟨tiled0 ctx0, ⟨0, 0⟩, ⟨3, 1, 2⟩, ctx0, by decide +kernel⟩

theorem test_meets_ScalarInstructionsComputeAndGoOn_22 : ∃ (s : State) (c : At) (f : FmtI) (x : Ctx),
    (s.ready c = some x) :=
  ⟨tiled0 ctx0, ⟨0, 0⟩, ⟨3, 2, 16380⟩, ctx0, by decide +kernel⟩

theorem test_meets_ScalarInstructionsComputeAndGoOn_23 : ∃ (s : State) (c : At) (f : FmtI) (x : Ctx),
    (s.ready c = some x) :=
  ⟨tiled0 ctx0, ⟨0, 0⟩, ⟨3, 2, 16380⟩, ctx0, by decide +kernel⟩

theorem test_meets_ScalarInstructionsComputeAndGoOn_24 : ∃ (s : State) (c : At) (f : FmtI) (x : Ctx),
    (s.ready c = some x) :=
  ⟨tiled0 ctx0, ⟨0, 0⟩, ⟨3, 2, 16380⟩, ctx0, by decide +kernel⟩

theorem test_meets_ScalarInstructionsComputeAndGoOn_25 : ∃ (s : State) (c : At) (f : FmtI) (x : Ctx),
    (s.ready c = some x) :=
  ⟨tiled0 ctx0, ⟨0, 0⟩, ⟨3, 2, 16380⟩, ctx0, by decide +kernel⟩

theorem test_meets_ScalarInstructionsComputeAndGoOn_26 : ∃ (s : State) (c : At) (f : FmtI) (x : Ctx),
    (s.ready c = some x) :=
  ⟨tiled0 ctx0, ⟨0, 0⟩, ⟨3, 2, 16380⟩, ctx0, by decide +kernel⟩

theorem test_meets_ScalarInstructionsComputeAndGoOn_27 : ∃ (s : State) (c : At) (f : FmtI) (x : Ctx),
    (s.ready c = some x) ∧
    (f.imm.toNat < 64) :=
  ⟨tiled0 ctx0, ⟨0, 0⟩, ⟨3, 2, 63⟩, ctx0, by decide +kernel⟩

theorem test_meets_ScalarInstructionsComputeAndGoOn_28 : ∃ (s : State) (c : At) (f : FmtI) (x : Ctx),
    (s.ready c = some x) ∧
    (64 ≤ f.imm.toNat) :=
  ⟨tiled0 ctx0, ⟨0, 0⟩, ⟨3, 2, 64⟩, ctx0, by decide +kernel⟩

theorem test_meets_ScalarInstructionsComputeAndGoOn_29 : ∃ (s : State) (c : At) (f : FmtI) (x : Ctx),
    (s.ready c = some x) :=
  ⟨tiled0 ctx0, ⟨0, 0⟩, ⟨3, 2, 127⟩, ctx0, by decide +kernel⟩

theorem test_meets_ScalarInstructionsComputeAndGoOn_30 : ∃ (s : State) (c : At) (f : FmtI) (x : Ctx),
    (s.ready c = some x) :=
  ⟨tiled0 ctx0, ⟨0, 0⟩, ⟨3, 2, 127⟩, ctx0, by decide +kernel⟩

theorem test_meets_ScalarInstructionsComputeAndGoOn_31 : ∃ (s : State) (c : At) (f : FmtS) (x : Ctx),
    (s.running c = some x) ∧
    (x.reserved = true) :=
  ⟨tiled0 { ctx0 with prog := [0, 0, 0] }, ⟨0, 0⟩, ⟨3, 1, 0⟩, { ctx0 with prog := [0, 0, 0] }, by decide +kernel⟩

theorem test_meets_ScalarInstructionsComputeAndGoOn_32 : ∃ (s : State) (c : At) (f : FmtS) (x : Ctx),
    (s.running c = some x) ∧
    (x.reserved = true) :=
  ⟨tiled0 { ctx0 with prog := [0, 0, 0] }, ⟨0, 0⟩, ⟨3, 1, 0⟩, { ctx0 with prog := [0, 0, 0] }, by decide +kernel⟩

theorem test_meets_ScalarInstructionsComputeAndGoOn_33 : ∃ (s : State) (c : At) (f : FmtS) (x : Ctx),
    (s.running c = some x) ∧
    (x.reserved = true) :=
  ⟨tiled0 { ctx0 with prog := [0, 0, 0] }, ⟨0, 0⟩, ⟨3, 1, 0⟩, { ctx0 with prog := [0, 0, 0] }, by decide +kernel⟩

theorem test_meets_ScalarInstructionsComputeAndGoOn_34 : ∃ (s : State) (c : At) (f : FmtU) (x : Ctx),
    (s.ready c = some x) :=
  ⟨tiled0 ctx0, ⟨0, 0⟩, ⟨3, 1048575⟩, ctx0, by decide +kernel⟩

theorem test_meets_ScalarInstructionsComputeAndGoOn_35 : ∃ (s : State) (c : At) (f : FmtU) (x : Ctx),
    (s.ready c = some x) :=
  ⟨tiled0 ctx0, ⟨0, 0⟩, ⟨2, 1048575⟩, ctx0, by decide +kernel⟩

theorem test_meets_ControlFlowAndExceptions_1 : ∃ (s : State) (c : At) (f : FmtB) (x : Ctx),
    (s.ready c = some x) ∧
    ((x.sreg f.ra) = (x.sreg f.rb)) ∧
    (0 ≤ (x.pc : Int) + f.off.toInt ∧ (x.pc : Int) + f.off.toInt < x.progLen) :=
  ⟨tiled0 ctx0, ⟨0, 0⟩, ⟨1, 1, 16383⟩, ctx0, by decide +kernel⟩

theorem test_meets_ControlFlowAndExceptions_2 : ∃ (s : State) (c : At) (f : FmtB) (x : Ctx),
    (s.ready c = some x) ∧
    ((x.sreg f.ra) = (x.sreg f.rb)) ∧
    ((x.pc : Int) + f.off.toInt < 0 ∨ (x.progLen : Int) ≤ (x.pc : Int) + f.off.toInt) :=
  ⟨tiled0 ctx0, ⟨0, 0⟩, ⟨1, 1, 40⟩, ctx0, by decide +kernel⟩

theorem test_meets_ControlFlowAndExceptions_3 : ∃ (s : State) (c : At) (f : FmtB) (x : Ctx),
    (s.ready c = some x) ∧
    ((x.sreg f.ra) ≠ (x.sreg f.rb)) :=
  ⟨tiled0 ctx0, ⟨0, 0⟩, ⟨1, 2, 40⟩, ctx0, by decide +kernel⟩

theorem test_meets_ControlFlowAndExceptions_4 : ∃ (s : State) (c : At) (f : FmtB) (x : Ctx),
    (s.ready c = some x) ∧
    ((x.sreg f.ra) ≠ (x.sreg f.rb)) ∧
    (0 ≤ (x.pc : Int) + f.off.toInt ∧ (x.pc : Int) + f.off.toInt < x.progLen) :=
  ⟨tiled0 ctx0, ⟨0, 0⟩, ⟨1, 2, 16383⟩, ctx0, by decide +kernel⟩

theorem test_meets_ControlFlowAndExceptions_5 : ∃ (s : State) (c : At) (f : FmtB) (x : Ctx),
    (s.ready c = some x) ∧
    ((x.sreg f.ra) ≠ (x.sreg f.rb)) ∧
    ((x.pc : Int) + f.off.toInt < 0 ∨ (x.progLen : Int) ≤ (x.pc : Int) + f.off.toInt) :=
  ⟨tiled0 ctx0, ⟨0, 0⟩, ⟨1, 2, 40⟩, ctx0, by decide +kernel⟩

theorem test_meets_ControlFlowAndExceptions_6 : ∃ (s : State) (c : At) (f : FmtB) (x : Ctx),
    (s.ready c = some x) ∧
    ((x.sreg f.ra) = (x.sreg f.rb)) :=
  ⟨tiled0 ctx0, ⟨0, 0⟩, ⟨1, 1, 40⟩, ctx0, by decide +kernel⟩

theorem test_meets_ControlFlowAndExceptions_7 : ∃ (s : State) (c : At) (f : FmtB) (x : Ctx),
    (s.ready c = some x) ∧
    ((x.sreg f.ra).toInt < (x.sreg f.rb).toInt) ∧
    (0 ≤ (x.pc : Int) + f.off.toInt ∧ (x.pc : Int) + f.off.toInt < x.progLen) :=
  ⟨tiled0 ctx0, ⟨0, 0⟩, ⟨2, 1, 16383⟩, ctx0, by decide +kernel⟩

theorem test_meets_ControlFlowAndExceptions_8 : ∃ (s : State) (c : At) (f : FmtB) (x : Ctx),
    (s.ready c = some x) ∧
    ((x.sreg f.ra).toInt < (x.sreg f.rb).toInt) ∧
    ((x.pc : Int) + f.off.toInt < 0 ∨ (x.progLen : Int) ≤ (x.pc : Int) + f.off.toInt) :=
  ⟨tiled0 ctx0, ⟨0, 0⟩, ⟨2, 1, 40⟩, ctx0, by decide +kernel⟩

theorem test_meets_ControlFlowAndExceptions_9 : ∃ (s : State) (c : At) (f : FmtB) (x : Ctx),
    (s.ready c = some x) ∧
    ((x.sreg f.rb).toInt ≤ (x.sreg f.ra).toInt) :=
  ⟨tiled0 ctx0, ⟨0, 0⟩, ⟨1, 2, 40⟩, ctx0, by decide +kernel⟩

theorem test_meets_ControlFlowAndExceptions_10 : ∃ (s : State) (c : At) (f : FmtB) (x : Ctx),
    (s.ready c = some x) ∧
    ((x.sreg f.rb).toInt ≤ (x.sreg f.ra).toInt) ∧
    (0 ≤ (x.pc : Int) + f.off.toInt ∧ (x.pc : Int) + f.off.toInt < x.progLen) :=
  ⟨tiled0 ctx0, ⟨0, 0⟩, ⟨1, 2, 16383⟩, ctx0, by decide +kernel⟩

theorem test_meets_ControlFlowAndExceptions_11 : ∃ (s : State) (c : At) (f : FmtB) (x : Ctx),
    (s.ready c = some x) ∧
    ((x.sreg f.rb).toInt ≤ (x.sreg f.ra).toInt) ∧
    ((x.pc : Int) + f.off.toInt < 0 ∨ (x.progLen : Int) ≤ (x.pc : Int) + f.off.toInt) :=
  ⟨tiled0 ctx0, ⟨0, 0⟩, ⟨1, 2, 40⟩, ctx0, by decide +kernel⟩

theorem test_meets_ControlFlowAndExceptions_12 : ∃ (s : State) (c : At) (f : FmtB) (x : Ctx),
    (s.ready c = some x) ∧
    ((x.sreg f.ra).toInt < (x.sreg f.rb).toInt) :=
  ⟨tiled0 ctx0, ⟨0, 0⟩, ⟨2, 1, 40⟩, ctx0, by decide +kernel⟩

theorem test_meets_ControlFlowAndExceptions_13 : ∃ (s : State) (c : At) (f : FmtB) (x : Ctx),
    (s.ready c = some x) ∧
    ((x.sreg f.ra).toNat < (x.sreg f.rb).toNat) ∧
    (0 ≤ (x.pc : Int) + f.off.toInt ∧ (x.pc : Int) + f.off.toInt < x.progLen) :=
  ⟨tiled0 ctx0, ⟨0, 0⟩, ⟨1, 2, 16383⟩, ctx0, by decide +kernel⟩

theorem test_meets_ControlFlowAndExceptions_14 : ∃ (s : State) (c : At) (f : FmtB) (x : Ctx),
    (s.ready c = some x) ∧
    ((x.sreg f.ra).toNat < (x.sreg f.rb).toNat) ∧
    ((x.pc : Int) + f.off.toInt < 0 ∨ (x.progLen : Int) ≤ (x.pc : Int) + f.off.toInt) :=
  ⟨tiled0 ctx0, ⟨0, 0⟩, ⟨1, 2, 40⟩, ctx0, by decide +kernel⟩

theorem test_meets_ControlFlowAndExceptions_15 : ∃ (s : State) (c : At) (f : FmtB) (x : Ctx),
    (s.ready c = some x) ∧
    ((x.sreg f.rb).toNat ≤ (x.sreg f.ra).toNat) :=
  ⟨tiled0 ctx0, ⟨0, 0⟩, ⟨2, 1, 40⟩, ctx0, by decide +kernel⟩

theorem test_meets_ControlFlowAndExceptions_16 : ∃ (s : State) (c : At) (f : FmtB) (x : Ctx),
    (s.ready c = some x) ∧
    ((x.sreg f.rb).toNat ≤ (x.sreg f.ra).toNat) ∧
    (0 ≤ (x.pc : Int) + f.off.toInt ∧ (x.pc : Int) + f.off.toInt < x.progLen) :=
  ⟨tiled0 ctx0, ⟨0, 0⟩, ⟨2, 1, 16383⟩, ctx0, by decide +kernel⟩

theorem test_meets_ControlFlowAndExceptions_17 : ∃ (s : State) (c : At) (f : FmtB) (x : Ctx),
    (s.ready c = some x) ∧
    ((x.sreg f.rb).toNat ≤ (x.sreg f.ra).toNat) ∧
    ((x.pc : Int) + f.off.toInt < 0 ∨ (x.progLen : Int) ≤ (x.pc : Int) + f.off.toInt) :=
  ⟨tiled0 ctx0, ⟨0, 0⟩, ⟨2, 1, 40⟩, ctx0, by decide +kernel⟩

theorem test_meets_ControlFlowAndExceptions_18 : ∃ (s : State) (c : At) (f : FmtB) (x : Ctx),
    (s.ready c = some x) ∧
    ((x.sreg f.ra).toNat < (x.sreg f.rb).toNat) :=
  ⟨tiled0 ctx0, ⟨0, 0⟩, ⟨1, 2, 40⟩, ctx0, by decide +kernel⟩

theorem test_meets_ControlFlowAndExceptions_19 : ∃ (s : State) (c : At) (off : BitVec 26) (x : Ctx),
    (s.ready c = some x) ∧
    (0 ≤ (x.pc : Int) + off.toInt ∧ (x.pc : Int) + off.toInt < x.progLen) :=
  ⟨tiled0 ctx0, ⟨0, 0⟩, 2, ctx0, by decide +kernel⟩

theorem test_meets_ControlFlowAndExceptions_20 : ∃ (s : State) (c : At) (off : BitVec 26) (x : Ctx),
    (s.ready c = some x) ∧
    ((x.pc : Int) + off.toInt < 0 ∨ (x.progLen : Int) ≤ (x.pc : Int) + off.toInt) :=
  ⟨tiled0 ctx0, ⟨0, 0⟩, 67108800, ctx0, by decide +kernel⟩

theorem test_meets_ControlFlowAndExceptions_21 : ∃ (s : State) (c : At) (off : BitVec 26) (x : Ctx),
    (s.ready c = some x) ∧
    (0 ≤ (x.pc : Int) + off.toInt ∧ (x.pc : Int) + off.toInt < x.progLen) :=
  ⟨tiled0 ctx0, ⟨0, 0⟩, 2, ctx0, by decide +kernel⟩

theorem test_meets_ControlFlowAndExceptions_22 : ∃ (s : State) (c : At) (off : BitVec 26) (x : Ctx),
    (s.ready c = some x) ∧
    ((x.pc : Int) + off.toInt < 0 ∨ (x.progLen : Int) ≤ (x.pc : Int) + off.toInt) :=
  ⟨tiled0 ctx0, ⟨0, 0⟩, 67108800, ctx0, by decide +kernel⟩

theorem test_meets_ControlFlowAndExceptions_23 : ∃ (s : State) (c : At) (f : FmtS) (x : Ctx),
    (s.ready c = some x) ∧
    (f.rd = 0 ∧ f.rb = 0) ∧
    ((x.sreg f.ra).toNat < x.progLen) :=
  ⟨tiled0 ctx0, ⟨0, 0⟩, ⟨0, 1, 0⟩, ctx0, by decide +kernel⟩

theorem test_meets_ControlFlowAndExceptions_24 : ∃ (s : State) (c : At) (f : FmtS) (x : Ctx),
    (s.ready c = some x) ∧
    (f.rd ≠ 0 ∨ f.rb ≠ 0 ∨ x.progLen ≤ (x.sreg f.ra).toNat) :=
  ⟨tiled0 ctx0, ⟨0, 0⟩, ⟨0, 2, 0⟩, ctx0, by decide +kernel⟩

theorem test_meets_ControlFlowAndExceptions_25 : ∃ (s : State) (c : At) (f : FmtS) (x : Ctx) (k : Clause),
    (s.ready c = some x) ∧
    (s.clauseAt x.clause = some k) ∧
    (k.ending = none) ∧
    (f.rb ≠ 0) ∧
    (s.phys c.tile < 50) :=
  ⟨tiled0 ctx0, ⟨0, 0⟩, ⟨3, 1, 2⟩, ctx0, { kern0 with ending := none }, by decide +kernel⟩

theorem test_meets_TileMemoryAccesses_1 : ∃ (s : State) (c : At) (f : FmtM) (x : Ctx) (a n : Nat),
    (s.ready c = some x) ∧
    (s.home.finished = []) ∧
    ((s.clauseAt x.clause).map Clause.cancelled ≠ some true) ∧
    (n = 2 ^ f.sz.toNat ∧ f.sz.toNat ≤ 3) ∧
    ((a : Int) = ((x.sreg f.ra).toInt + f.imm.toInt * n) % 2 ^ 64) ∧
    (oaHandle a = 16 ∧ oaOffset a + n ≤ x.tsSize) :=
  ⟨store0, ⟨0, 0⟩, ⟨3, 3, 0, 1, 511⟩, ctxS, 16 * 2 ^ 59 + 62, 2, by decide +kernel⟩

theorem test_meets_TileMemoryAccesses_2 : ∃ (s : State) (c : At) (f : FmtM) (x : Ctx) (a n : Nat),
    (s.ready c = some x) ∧
    (s.home.finished = []) ∧
    ((s.clauseAt x.clause).map Clause.cancelled ≠ some true) ∧
    (n = 2 ^ f.sz.toNat ∧ f.sz.toNat ≤ 3) ∧
    ((a : Int) = ((x.sreg f.ra).toInt + f.imm.toInt * n) % 2 ^ 64) ∧
    (oaHandle a = 16 ∧ oaOffset a + n ≤ x.tsSize) :=
  ⟨store0, ⟨0, 0⟩, ⟨3, 3, 0, 1, 511⟩, ctxS, 16 * 2 ^ 59 + 62, 2, by decide +kernel⟩

theorem test_meets_TileMemoryAccesses_3 : ∃ (s : State) (c : At) (f : FmtM) (x : Ctx) (a n : Nat),
    (s.ready c = some x) ∧
    (s.home.finished = []) ∧
    ((s.clauseAt x.clause).map Clause.cancelled ≠ some true) ∧
    (n = 2 ^ f.sz.toNat ∧ f.sz.toNat ≤ 3) ∧
    ((a : Int) = ((x.sreg f.ra).toInt + f.imm.toInt * n) % 2 ^ 64) ∧
    (oaHandle a = 16 ∧ oaOffset a + n ≤ x.tsSize) ∧
    (s.phys c.tile < 50) :=
  ⟨store0, ⟨0, 0⟩, ⟨3, 3, 0, 1, 511⟩, ctxS, 16 * 2 ^ 59 + 62, 2, by decide +kernel⟩

theorem test_meets_TileMemoryAccesses_4 : ∃ (s : State) (c : At) (f : FmtM) (x : Ctx) (a n : Nat),
    (s.ready c = some x) ∧
    (s.home.finished = []) ∧
    ((s.clauseAt x.clause).map Clause.cancelled ≠ some true) ∧
    (n = 2 ^ f.sz.toNat ∧ f.sz.toNat ≤ 3) ∧
    ((a : Int) = ((x.sreg f.ra).toInt + f.imm.toInt * n) % 2 ^ 64) ∧
    (oaHandle a = 16 ∧ oaOffset a + n ≤ x.tsSize) ∧
    (s.phys c.tile < 50) :=
  ⟨store0, ⟨0, 0⟩, ⟨3, 3, 0, 1, 511⟩, ctxS, 16 * 2 ^ 59 + 62, 2, by decide +kernel⟩

theorem test_meets_TileMemoryAccesses_5 : ∃ (s : State) (c : At) (f : FmtM) (x : Ctx) (a n : Nat),
    (s.ready c = some x) ∧
    (s.home.finished = []) ∧
    ((s.clauseAt x.clause).map Clause.cancelled ≠ some true) ∧
    (n = 2 ^ f.sz.toNat ∧ f.sz.toNat ≤ 3) ∧
    ((a : Int) = ((x.sreg f.ra).toInt + f.imm.toInt * n) % 2 ^ 64) ∧
    (f.scope = 0) ∧
    (oaHandle a = 16 ∧ x.tsSize < oaOffset a + n ∨ 16 < oaHandle a ∨ oaHandle a < 16 ∧ (∀ o ∈ x.ops, o.1 ≠ oaHandle a)) :=
  ⟨mem1 { ctxS with tsSize := 32 }, ⟨0, 0⟩, ⟨3, 3, 0, 3, 511⟩, { ctxS with tsSize := 32 }, 16 * 2 ^ 59 + 56, 8, by decide +kernel⟩

theorem test_meets_TileMemoryAccesses_6 : ∃ (s : State) (c : At) (f : FmtM) (x : Ctx) (a n : Nat),
    (s.ready c = some x) ∧
    (s.home.finished = []) ∧
    ((s.clauseAt x.clause).map Clause.cancelled ≠ some true) ∧
    (n = 2 ^ f.sz.toNat ∧ f.sz.toNat ≤ 3) ∧
    ((a : Int) = ((x.sreg f.ra).toInt + f.imm.toInt * n) % 2 ^ 64) ∧
    (f.scope = 0) ∧
    (oaHandle a = 16 ∧ x.tsSize < oaOffset a + n ∨ 16 < oaHandle a ∨ oaHandle a < 16 ∧ (∀ o ∈ x.ops, o.1 ≠ oaHandle a)) :=
  ⟨mem1 { ctxS with tsSize := 32 }, ⟨0, 0⟩, ⟨3, 3, 0, 3, 511⟩, { ctxS with tsSize := 32 }, 16 * 2 ^ 59 + 56, 8, by decide +kernel⟩

theorem test_meets_TileMemoryAccesses_7 : ∃ (s : State) (c : At) (f : FmtM) (x : Ctx) (a n : Nat),
    (s.ready c = some x) ∧
    (s.home.finished = []) ∧
    ((s.clauseAt x.clause).map Clause.cancelled ≠ some true) ∧
    (n = 2 ^ f.sz.toNat ∧ f.sz.toNat ≤ 3) ∧
    ((a : Int) = ((x.sreg f.ra).toInt + f.imm.toInt * n) % 2 ^ 64) ∧
    (f.scope = 0) ∧
    (oaHandle a = 16 ∧ x.tsSize < oaOffset a + n ∨ 16 < oaHandle a ∨ oaHandle a < 16 ∧ (∀ o ∈ x.ops, o.1 ≠ oaHandle a)) :=
  ⟨mem1 { ctxS with tsSize := 32 }, ⟨0, 0⟩, ⟨3, 3, 0, 3, 511⟩, { ctxS with tsSize := 32 }, 16 * 2 ^ 59 + 56, 8, by decide +kernel⟩

theorem test_meets_TileMemoryAccesses_8 : ∃ (s : State) (c : At) (f : FmtM) (x : Ctx) (a n p fpa : Nat) (k : Clause),
    (s.ready c = some x) ∧
    (s.home.finished = []) ∧
    ((s.clauseAt x.clause).map Clause.cancelled ≠ some true) ∧
    (n = 2 ^ f.sz.toNat ∧ f.sz.toNat ≤ 3) ∧
    ((a : Int) = ((x.sreg f.ra).toInt + f.imm.toInt * n) % 2 ^ 64) ∧
    (s.clauseAt x.clause = some k ∧ k.partition = p) ∧
    (s.reach x a n = .runs p [(fpa, n)]) ∧
    (oaHandle a < 16 ∧ (f.scope ≠ 0 → a % n = 0)) ∧
    (s.storesTo c x.clause [(fpa, n)] = false) ∧
    (s.poisonedIn p 0 (x.fva a) [(fpa, n)] = false) ∧
    (fpa % 128 + n ≤ 128) ∧
    (s.replicaOf fpa = none) ∧
    (tget (fpa / 128) (s.tile c.tile).copies = none) ∧
    (MaySend s p fpa) :=
  ⟨mem0 [], ⟨0, 0⟩, ⟨3, 5, 1, 2, 511⟩, ctxS, 2 ^ 59 + 60, 4, 1, 2 ^ 49 + near0 60, kernA, by decide +kernel⟩

theorem test_meets_TileMemoryAccesses_9 : ∃ (s : State) (c : At) (f : FmtM) (x : Ctx) (a n p fpa : Nat) (k : Clause) (bs : List Byte),
    (s.ready c = some x) ∧
    (Calm s) ∧
    (n = 2 ^ f.sz.toNat ∧ f.sz.toNat ≤ 3) ∧
    ((a : Int) = ((x.sreg f.ra).toInt + f.imm.toInt * n) % 2 ^ 64) ∧
    (s.clauseAt x.clause = some k ∧ k.partition = p ∧ k.cancelled = false) ∧
    (s.reach x a n = .runs p [(fpa, n)]) ∧
    (oaHandle a < 16 ∧ (f.scope ≠ 0 → a % n = 0)) ∧
    (s.storesTo c x.clause [(fpa, n)] = false) ∧
    (s.poisonedIn p 0 (x.fva a) [(fpa, n)] = false) ∧
    (fpa % 128 + n ≤ 128) ∧
    (fpaChip fpa ≠ s.chip ∧ s.replicaOf fpa = none) ∧
    (tget (fpa / 128) (s.tile c.tile).copies = some bs) :=
  ⟨memL ctxS [((2 ^ 49 + near0 60) / 128, 4)] [((2 ^ 49 + near0 60) / 128, List.replicate 127 0xa5#8 ++ [7#8])] [] [], ⟨0, 0⟩, ⟨3, 5, 1, 2, 511⟩, ctxS, 2 ^ 59 + 60, 4, 1, 2 ^ 49 + near0 60, kernA, List.replicate 127 0xa5#8 ++ [7#8], by decide +kernel⟩

theorem test_meets_TileMemoryAccesses_10 : ∃ (s : State) (c : At) (f : FmtM) (x : Ctx) (a n p fpa : Nat) (k : Clause),
    (s.ready c = some x) ∧
    (s.home.finished = []) ∧
    ((s.clauseAt x.clause).map Clause.cancelled ≠ some true) ∧
    (n = 2 ^ f.sz.toNat ∧ f.sz.toNat ≤ 3) ∧
    ((a : Int) = ((x.sreg f.ra).toInt + f.imm.toInt * n) % 2 ^ 64) ∧
    (s.clauseAt x.clause = some k ∧ k.partition = p) ∧
    (s.reach x a n = .runs p [(fpa, n)]) ∧
    (oaHandle a < 16 ∧ (f.scope ≠ 0 → a % n = 0)) ∧
    (s.storesTo c x.clause [(fpa, n)] = false) ∧
    (s.poisonedIn p 0 (x.fva a) [(fpa, n)] = false) ∧
    (fpa % 128 + n ≤ 128) ∧
    (s.replicaOf fpa = none) ∧
    (tget (fpa / 128) (s.tile c.tile).copies = none) ∧
    (MaySend s p fpa) :=
  ⟨mem0 [], ⟨0, 0⟩, ⟨3, 5, 1, 2, 511⟩, ctxS, 2 ^ 59 + 60, 4, 1, 2 ^ 49 + near0 60, kernA, by decide +kernel⟩

theorem test_meets_TileMemoryAccesses_11 : ∃ (s : State) (c : At) (f : FmtM) (x : Ctx) (a n p fpa : Nat) (k : Clause) (bs : List Byte),
    (s.ready c = some x) ∧
    (Calm s) ∧
    (n = 2 ^ f.sz.toNat ∧ f.sz.toNat ≤ 3) ∧
    ((a : Int) = ((x.sreg f.ra).toInt + f.imm.toInt * n) % 2 ^ 64) ∧
    (s.clauseAt x.clause = some k ∧ k.partition = p ∧ k.cancelled = false) ∧
    (s.reach x a n = .runs p [(fpa, n)]) ∧
    (oaHandle a < 16 ∧ (f.scope ≠ 0 → a % n = 0)) ∧
    (s.storesTo c x.clause [(fpa, n)] = false) ∧
    (s.poisonedIn p 0 (x.fva a) [(fpa, n)] = false) ∧
    (fpa % 128 + n ≤ 128) ∧
    (fpaChip fpa ≠ s.chip ∧ s.replicaOf fpa = none) ∧
    (tget (fpa / 128) (s.tile c.tile).copies = some bs) :=
  ⟨memL ctxS [((2 ^ 49 + near0 60) / 128, 4)] [((2 ^ 49 + near0 60) / 128, List.replicate 127 0xa5#8 ++ [7#8])] [] [], ⟨0, 0⟩, ⟨3, 5, 1, 2, 511⟩, ctxS, 2 ^ 59 + 60, 4, 1, 2 ^ 49 + near0 60, kernA, List.replicate 127 0xa5#8 ++ [7#8], by decide +kernel⟩

theorem test_meets_TileMemoryAccesses_12 : ∃ (s : State) (c : At) (f : FmtM) (x : Ctx) (a n p fpa : Nat) (k : Clause),
    (s.ready c = some x) ∧
    (Calm s) ∧
    (n = 2 ^ f.sz.toNat ∧ f.sz.toNat ≤ 3) ∧
    ((a : Int) = ((x.sreg f.ra).toInt + f.imm.toInt * n) % 2 ^ 64) ∧
    (s.clauseAt x.clause = some k ∧ k.partition = p ∧ k.cancelled = false) ∧
    (s.reach x a n = .runs p [(fpa, n)]) ∧
    (oaHandle a < 16 ∧ (f.scope ≠ 0 → a % n = 0)) ∧
    (s.storesTo c x.clause [(fpa, n)] = false) ∧
    (s.poisonedIn p 0 (x.fva a) [(fpa, n)] = false) ∧
    (fpa % 128 + n ≤ 128) ∧
    (fpaChip fpa = s.chip) ∧
    (16 ≤ fpaUnit fpa ∧ fpaUnit fpa < 32) ∧
    (Intact s fpa n) ∧
    ((tget (fpa / 128) (s.tile c.tile).l1).isSome = true) :=
  ⟨memL ctxS [(near0 60 / 128, 1)] [] [] [(near0 61, 9#8), (near0 63, 200#8)], ⟨0, 0⟩, ⟨3, 4, 1, 2, 511⟩, ctxS, 60, 4, 1, near0 60, kernA, by decide +kernel⟩

theorem test_meets_TileMemoryAccesses_13 : ∃ (s : State) (c : At) (f : FmtM) (x : Ctx) (a n p fpa : Nat) (k : Clause),
    (s.ready c = some x) ∧
    (Calm s) ∧
    (n = 2 ^ f.sz.toNat ∧ f.sz.toNat ≤ 3) ∧
    ((a : Int) = ((x.sreg f.ra).toInt + f.imm.toInt * n) % 2 ^ 64) ∧
    (s.clauseAt x.clause = some k ∧ k.partition = p ∧ k.cancelled = false) ∧
    (s.reach x a n = .runs p [(fpa, n)]) ∧
    (oaHandle a < 16 ∧ (f.scope ≠ 0 → a % n = 0)) ∧
    (s.storesTo c x.clause [(fpa, n)] = false) ∧
    (s.poisonedIn p 0 (x.fva a) [(fpa, n)] = false) ∧
    (fpa % 128 + n ≤ 128) ∧
    (fpaChip fpa = s.chip) ∧
    (16 ≤ fpaUnit fpa ∧ fpaUnit fpa < 32) ∧
    (Intact s fpa n) ∧
    ((tget (fpa / 128) (s.tile c.tile).l1).isSome = true) :=
  ⟨memL ctxS [(near0 60 / 128, 1)] [] [] [(near0 61, 9#8), (near0 63, 200#8)], ⟨0, 0⟩, ⟨3, 4, 1, 2, 511⟩, ctxS, 60, 4, 1, near0 60, kernA, by decide +kernel⟩

theorem test_meets_TileMemoryAccesses_14 : ∃ (s : State) (c : At) (f : FmtM) (x : Ctx) (a n p fpa : Nat) (k : Clause),
    (s.ready c = some x) ∧
    (s.home.finished = []) ∧
    (n = 2 ^ f.sz.toNat ∧ f.sz.toNat ≤ 3) ∧
    ((a : Int) = ((x.sreg f.ra).toInt + f.imm.toInt * n) % 2 ^ 64) ∧
    (s.clauseAt x.clause = some k ∧ k.partition = p ∧ k.cancelled = false) ∧
    (s.reach x a n = .runs p [(fpa, n)]) ∧
    (oaHandle a < 16 ∧ (f.scope ≠ 0 → a % n = 0)) ∧
    (s.storesTo c x.clause [(fpa, n)] = false) ∧
    (s.poisonedIn p 0 (x.fva a) [(fpa, n)] = false) ∧
    (fpa % 128 + n ≤ 128) ∧
    (Reached s p fpa) ∧
    (tget (fpa / 128) (s.tile c.tile).l1 = none) ∧
    (s.home.ops.all (fun o => o.2.stop != tileStop (s.phys c.tile) || o.2.sent) = true) :=
  ⟨mem0 [(near0 61, 9#8), (near0 63, 200#8)], ⟨0, 0⟩, ⟨3, 4, 1, 2, 511⟩, ctxS, 60, 4, 1, near0 60, kernA, by decide +kernel⟩

theorem test_meets_TileMemoryAccesses_15 : ∃ (s : State) (c : At) (f : FmtM) (x : Ctx) (a n p fpa : Nat) (k : Clause),
    (s.ready c = some x) ∧
    (Calm s) ∧
    (n = 2 ^ f.sz.toNat ∧ f.sz.toNat ≤ 3) ∧
    ((a : Int) = ((x.sreg f.ra).toInt + f.imm.toInt * n) % 2 ^ 64) ∧
    (s.clauseAt x.clause = some k ∧ k.partition = p ∧ k.cancelled = false) ∧
    (s.reach x a n = .runs p [(fpa, n)]) ∧
    (oaHandle a < 16 ∧ (f.scope ≠ 0 → a % n = 0)) ∧
    (s.storesTo c x.clause [(fpa, n)] = false) ∧
    (s.poisonedIn p 0 (x.fva a) [(fpa, n)] = false) ∧
    (fpa % 128 + n ≤ 128) ∧
    (fpaChip fpa = s.chip) ∧
    (16 ≤ fpaUnit fpa ∧ fpaUnit fpa < 32) ∧
    (Intact s fpa n) ∧
    ((tget (fpa / 128) (s.tile c.tile).l1).isSome = true) :=
  ⟨memL ctxS [(near0 60 / 128, 1)] [] [] [(near0 61, 9#8), (near0 63, 200#8)], ⟨0, 0⟩, ⟨3, 4, 1, 2, 511⟩, ctxS, 60, 4, 1, near0 60, kernA, by decide +kernel⟩

theorem test_meets_TileMemoryAccesses_16 : ∃ (s : State) (c : At) (f : FmtM) (x : Ctx) (a n p fpa : Nat) (k : Clause),
    (s.ready c = some x) ∧
    (s.home.finished = []) ∧
    (n = 2 ^ f.sz.toNat ∧ f.sz.toNat ≤ 3) ∧
    ((a : Int) = ((x.sreg f.ra).toInt + f.imm.toInt * n) % 2 ^ 64) ∧
    (s.clauseAt x.clause = some k ∧ k.partition = p ∧ k.cancelled = false) ∧
    (s.reach x a n = .runs p [(fpa, n)]) ∧
    (oaHandle a < 16 ∧ (f.scope ≠ 0 → a % n = 0)) ∧
    (s.storesTo c x.clause [(fpa, n)] = false) ∧
    (s.poisonedIn p 0 (x.fva a) [(fpa, n)] = false) ∧
    (fpa % 128 + n ≤ 128) ∧
    (Reached s p fpa) ∧
    (tget (fpa / 128) (s.tile c.tile).l1 = none) ∧
    (s.home.ops.all (fun o => o.2.stop != tileStop (s.phys c.tile) || o.2.sent) = true) :=
  ⟨mem0 [(near0 61, 9#8), (near0 63, 200#8)], ⟨0, 0⟩, ⟨3, 4, 1, 2, 511⟩, ctxS, 60, 4, 1, near0 60, kernA, by decide +kernel⟩

theorem test_meets_TileMemoryAccesses_17 : ∃ (s : State) (c : At) (f : FmtM) (x : Ctx) (a n : Nat),
    (s.ready c = some x) ∧
    (s.home.finished = []) ∧
    ((s.clauseAt x.clause).map Clause.cancelled ≠ some true) ∧
    (n = 2 ^ f.sz.toNat ∧ f.sz.toNat ≤ 3) ∧
    ((a : Int) = ((x.sreg f.ra).toInt + f.imm.toInt * n) % 2 ^ 64) ∧
    (oaHandle a = 16 ∧ oaOffset a + n ≤ x.tsSize) :=
  ⟨store0, ⟨0, 0⟩, ⟨2, 3, 0, 1, 511⟩, ctxS, 16 * 2 ^ 59 + 62, 2, by decide +kernel⟩

theorem test_meets_TileMemoryAccesses_18 : ∃ (s : State) (c : At) (f : FmtM) (x : Ctx) (a n p fpa : Nat) (k : Clause),
    (s.ready c = some x) ∧
    (s.home.finished = []) ∧
    (n = 2 ^ f.sz.toNat ∧ f.sz.toNat ≤ 3) ∧
    ((a : Int) = ((x.sreg f.ra).toInt + f.imm.toInt * n) % 2 ^ 64) ∧
    (s.clauseAt x.clause = some k ∧ k.partition = p ∧ k.cancelled = false) ∧
    (s.reach x a n = .runs p [(fpa, n)]) ∧
    (oaHandle a < 16 ∧ oaOffset a + n ≤ 2 ^ 59 ∧ (f.scope ≠ 0 → a % n = 0 ∧ x.storeErr = .none)) ∧
    (x.writable a = true) ∧
    ((s.tile c.tile).stores = []) ∧
    (s.poisonedIn p 1 (x.fva a) [(fpa, n)] = false) ∧
    (fpa % 128 + n ≤ 128) ∧
    (MaySend s p fpa) :=
  ⟨mem0 [], ⟨0, 0⟩, ⟨2, 5, 1, 2, 511⟩, ctxS, 2 ^ 59 + 60, 4, 1, 2 ^ 49 + near0 60, kernA, by decide +kernel⟩

theorem test_meets_TileMemoryAccesses_19 : ∃ (s : State) (c : At) (f : FmtM) (x : Ctx) (a n p fpa : Nat) (k : Clause),
    (s.ready c = some x) ∧
    (Calm s) ∧
    (n = 2 ^ f.sz.toNat ∧ f.sz.toNat ≤ 3) ∧
    ((a : Int) = ((x.sreg f.ra).toInt + f.imm.toInt * n) % 2 ^ 64) ∧
    (s.clauseAt x.clause = some k ∧ k.partition = p ∧ k.cancelled = false) ∧
    (s.reach x a n = .runs p [(fpa, n)]) ∧
    (oaHandle a < 16 ∧ oaOffset a + n ≤ 2 ^ 59 ∧ (f.scope ≠ 0 → a % n = 0 ∧ x.storeErr = .none)) ∧
    (x.writable a = true) ∧
    ((s.tile c.tile).stores = []) ∧
    (s.poisonedIn p 1 (x.fva a) [(fpa, n)] = false) ∧
    (fpa % 128 + n ≤ 128) ∧
    (Reached s p fpa) ∧
    (Intact s fpa n) ∧
    ((s.tile c.tile).owns (fpa / 128) = true) :=
  ⟨memL ctxS [(near0 60 / 128, 2)] [] [] [(near0 61, 9#8), (near0 64, 200#8)], ⟨0, 0⟩, ⟨2, 4, 1, 2, 511⟩, ctxS, 60, 4, 1, near0 60, kernA, by decide +kernel⟩

theorem test_meets_TileMemoryAccesses_20 : ∃ (s : State) (c : At) (f : FmtM) (x : Ctx) (a n p fpa : Nat) (k : Clause),
    (s.ready c = some x) ∧
    (s.home.finished = []) ∧
    (n = 2 ^ f.sz.toNat ∧ f.sz.toNat ≤ 3) ∧
    ((a : Int) = ((x.sreg f.ra).toInt + f.imm.toInt * n) % 2 ^ 64) ∧
    (s.clauseAt x.clause = some k ∧ k.partition = p ∧ k.cancelled = false) ∧
    (s.reach x a n = .runs p [(fpa, n)]) ∧
    (oaHandle a < 16 ∧ oaOffset a + n ≤ 2 ^ 59 ∧ (f.scope ≠ 0 → a % n = 0 ∧ x.storeErr = .none)) ∧
    (x.writable a = true) ∧
    ((s.tile c.tile).stores = []) ∧
    (s.poisonedIn p 1 (x.fva a) [(fpa, n)] = false) ∧
    (fpa % 128 + n ≤ 128) ∧
    (Reached s p fpa) ∧
    ((s.tile c.tile).owns (fpa / 128) = false) ∧
    (s.home.ops.all (fun o => o.2.stop != tileStop (s.phys c.tile) || o.2.sent) = true) :=
  ⟨mem0 [(near0 61, 9#8), (near0 64, 200#8)], ⟨0, 0⟩, ⟨2, 4, 1, 2, 511⟩, ctxS, 60, 4, 1, near0 60, kernA, by decide +kernel⟩

theorem test_meets_TileMemoryAccesses_21 : ∃ (s : State) (c : At) (f : FmtM) (x : Ctx) (a n : Nat),
    (s.ready c = some x) ∧
    (s.home.finished = []) ∧
    ((s.clauseAt x.clause).map Clause.cancelled ≠ some true) ∧
    (n = 2 ^ f.sz.toNat ∧ f.sz.toNat ≤ 3) ∧
    ((a : Int) = ((x.sreg f.ra).toInt + f.imm.toInt * n) % 2 ^ 64) ∧
    (f.scope = 0 ∧ oaHandle a < 16 ∧ oaOffset a + n ≤ 2 ^ 59) ∧
    (x.reaches a n = true ∧ x.writable a = true) ∧
    (64 ≤ (s.ownStores c x.clause).length) :=
  ⟨memL ctxS [] [] (List.replicate 64 store1) [], ⟨0, 0⟩, ⟨2, 4, 0, 2, 511⟩, ctxS, 60, 4, by decide +kernel⟩

theorem test_meets_TileMemoryAccesses_22 : ∃ (s : State) (c : At) (f : FmtM) (x : Ctx) (a n : Nat),
    (s.ready c = some x) ∧
    (s.home.finished = []) ∧
    ((s.clauseAt x.clause).map Clause.cancelled ≠ some true) ∧
    (n = 2 ^ f.sz.toNat ∧ f.sz.toNat ≤ 3) ∧
    ((a : Int) = ((x.sreg f.ra).toInt + f.imm.toInt * n) % 2 ^ 64) ∧
    (f.scope = 0 ∧ oaHandle a < 16 ∧ oaOffset a + n ≤ 2 ^ 59) ∧
    (x.reaches a n = true) ∧
    (x.writable a = false) :=
  ⟨mem1 { ctxS with ops := [(0, (fva5, 4096, false))] }, ⟨0, 0⟩, ⟨2, 4, 0, 2, 511⟩, { ctxS with ops := [(0, (fva5, 4096, false))] }, 60, 4, by decide +kernel⟩

theorem test_meets_TileMemoryAccesses_23 : ∃ (s : State) (c : At) (f : FmtM) (x : Ctx),
    (s.ready c = some x) ∧
    (s.home.finished = []) ∧
    ((s.clauseAt x.clause).map Clause.cancelled ≠ some true) ∧
    (f.scope ≠ 0 ∧ f.t = 0 ∧ f.ra = 0 ∧ f.sz = 0 ∧ f.imm = 0) ∧
    (s.ownStores c x.clause = [] ∧ x.storeErr = .none) :=
  ⟨store0, ⟨0, 0⟩, ⟨0, 0, 2, 0, 0⟩, ctxS, by decide +kernel⟩

theorem test_meets_TileMemoryAccesses_24 : ∃ (s : State) (c : At) (f : FmtM) (x : Ctx),
    (s.ready c = some x) ∧
    (s.home.finished = []) ∧
    ((s.clauseAt x.clause).map Clause.cancelled ≠ some true) ∧
    (f.scope ≠ 0 ∧ f.t = 0 ∧ f.ra = 0 ∧ f.sz = 0 ∧ f.imm = 0) ∧
    (s.ownStores c x.clause ≠ []) :=
  ⟨memL ctxS [] [] [store1] [], ⟨0, 0⟩, ⟨0, 0, 2, 0, 0⟩, ctxS, by decide +kernel⟩

theorem test_meets_TileMemoryAccesses_25 : ∃ (s : State) (c : At) (f : FmtM) (x : Ctx),
    (s.ready c = some x) ∧
    (s.home.finished = []) ∧
    ((s.clauseAt x.clause).map Clause.cancelled ≠ some true) ∧
    (f.scope ≠ 0 ∧ f.t = 0 ∧ f.ra = 0 ∧ f.sz = 0 ∧ f.imm = 0) ∧
    (s.ownStores c x.clause = [] ∧ x.storeErr ≠ .none) :=
  ⟨mem1 { ctxS with storeErr := .poison }, ⟨0, 0⟩, ⟨0, 0, 2, 0, 0⟩, { ctxS with storeErr := .poison }, by decide +kernel⟩

theorem test_meets_TileMemoryAccesses_26 : ∃ (s : State) (c : At) (f : FmtVM) (x : Ctx) (a : Nat),
    (s.ready c = some x) ∧
    (s.home.finished = []) ∧
    ((s.clauseAt x.clause).map Clause.cancelled ≠ some true) ∧
    ((a : Int) = ((x.sreg f.ra).toInt + f.imm.toInt * 256) % 2 ^ 64) ∧
    (oaHandle a = 16 ∧ x.tsSize ≤ 2 ^ 59) ∧
    (∀ j < 256, (x.preg f.pg).getLsbD j = true → oaOffset a + j < x.tsSize) :=
  ⟨store0, ⟨0, 0⟩, ⟨3, 6, 2, 2047⟩, ctxS, 16 * 2 ^ 59 + 3840, by decide +kernel⟩

theorem test_meets_TileMemoryAccesses_27 : ∃ (s : State) (c : At) (f : FmtVM) (x : Ctx) (a : Nat),
    (s.ready c = some x) ∧
    (s.home.finished = []) ∧
    ((s.clauseAt x.clause).map Clause.cancelled ≠ some true) ∧
    ((a : Int) = ((x.sreg f.ra).toInt + f.imm.toInt * 256) % 2 ^ 64) ∧
    (oaHandle a = 16 ∧ x.tsSize ≤ 2 ^ 59) ∧
    (∀ j < 256, (x.preg f.pg).getLsbD j = true → oaOffset a + j < x.tsSize) :=
  ⟨store0, ⟨0, 0⟩, ⟨4, 6, 2, 2047⟩, ctxS, 16 * 2 ^ 59 + 3840, by decide +kernel⟩

theorem test_meets_TileMemoryAccesses_28 : ∃ (s : State) (c : At) (f : FmtVM) (x : Ctx) (a off n p fpa : Nat) (k : Clause),
    (s.ready c = some x) ∧
    (s.home.finished = []) ∧
    ((a : Int) = ((x.sreg f.ra).toInt + f.imm.toInt * 256) % 2 ^ 64) ∧
    (0 < n ∧ off + n ≤ 256) ∧
    ((∀ j < 256, (x.preg f.pg).getLsbD j = (decide (off ≤ j) && decide (j < off + n)))) ∧
    (s.clauseAt x.clause = some k ∧ k.partition = p ∧ k.cancelled = false) ∧
    (s.reach x (a + off) n = .runs p [(fpa, n)]) ∧
    (oaHandle a < 16 ∧ oaOffset a + off + n ≤ 2 ^ 59) ∧
    (s.poisonedIn p 0 (x.fva (a + off)) [(fpa, n)] = false) ∧
    (fpa % 128 + n ≤ 128) ∧
    (s.storesTo c x.clause [(fpa, n)] = false) ∧
    (s.replicaOf fpa = none) ∧
    (tget (fpa / 128) (s.tile c.tile).copies = none) ∧
    (MaySend s p fpa) :=
  ⟨mem0 [], ⟨0, 0⟩, ⟨3, 7, 1, 2047⟩, ctxS, 2 ^ 59 + 256, 2, 3, 1, 2 ^ 49 + near0 258, kernA, by decide +kernel⟩

theorem test_meets_TileMemoryAccesses_29 : ∃ (s : State) (c : At) (f : FmtVM) (x : Ctx) (a off n p fpa : Nat) (k : Clause),
    (s.ready c = some x) ∧
    (Calm s) ∧
    ((a : Int) = ((x.sreg f.ra).toInt + f.imm.toInt * 256) % 2 ^ 64) ∧
    (0 < n ∧ off + n ≤ 256) ∧
    ((∀ j < 256, (x.preg f.pg).getLsbD j = (decide (off ≤ j) && decide (j < off + n)))) ∧
    (s.clauseAt x.clause = some k ∧ k.partition = p ∧ k.cancelled = false) ∧
    (s.reach x (a + off) n = .runs p [(fpa, n)]) ∧
    (oaHandle a < 16 ∧ oaOffset a + off + n ≤ 2 ^ 59) ∧
    (s.poisonedIn p 0 (x.fva (a + off)) [(fpa, n)] = false) ∧
    (s.storesTo c x.clause [(fpa, n)] = false) ∧
    (fpaChip fpa = s.chip) ∧
    (16 ≤ fpaUnit fpa ∧ fpaUnit fpa < 32) ∧
    (Intact s fpa n) ∧
    ((linesOf fpa n).all (fun l => (tget l (s.tile c.tile).l1).isSome) = true) :=
  ⟨memL { ctxS with p := [(2, BitVec.ofNat 256 (2 ^ 200 - 16))], s := ctxS.s ++ [(10, 320)] } [(near0 64 / 128, 1), (near0 192 / 128, 2), (near0 260 / 128, 3)] [] [] [(near0 68, 9#8), (near0 70, 200#8), (near0 130, 77#8), (near0 263, 5#8), (near0 264, 6#8)], ⟨0, 0⟩, ⟨3, 10, 2, 2047⟩, { ctxS with p := [(2, BitVec.ofNat 256 (2 ^ 200 - 16))], s := ctxS.s ++ [(10, 320)] }, 64, 4, 196, 1, near0 68, kernA, by decide +kernel⟩

theorem test_meets_TileMemoryAccesses_30 : ∃ (s : State) (c : At) (f : FmtVM) (x : Ctx) (a off n p fpa : Nat) (k : Clause),
    (s.ready c = some x) ∧
    (s.home.finished = []) ∧
    ((a : Int) = ((x.sreg f.ra).toInt + f.imm.toInt * 256) % 2 ^ 64) ∧
    (0 < n ∧ off + n ≤ 256) ∧
    ((∀ j < 256, (x.preg f.pg).getLsbD j = (decide (off ≤ j) && decide (j < off + n)))) ∧
    (s.clauseAt x.clause = some k ∧ k.partition = p ∧ k.cancelled = false) ∧
    (s.reach x (a + off) n = .runs p [(fpa, n)]) ∧
    (oaHandle a < 16 ∧ oaOffset a + off + n ≤ 2 ^ 59) ∧
    (s.poisonedIn p 1 (x.fva (a + off)) [(fpa, n)] = false) ∧
    (fpa % 128 + n ≤ 128) ∧
    (x.writable a = true) ∧
    ((s.tile c.tile).stores = []) ∧
    (MaySend s p fpa) :=
  ⟨mem0 [], ⟨0, 0⟩, ⟨4, 7, 1, 2047⟩, ctxS, 2 ^ 59 + 256, 2, 3, 1, 2 ^ 49 + near0 258, kernA, by decide +kernel⟩

theorem test_meets_TileMemoryAccesses_31 : ∃ (s : State) (c : At) (f : FmtVM) (x : Ctx) (a off n p fpa : Nat) (k : Clause),
    (s.ready c = some x) ∧
    (Calm s) ∧
    ((a : Int) = ((x.sreg f.ra).toInt + f.imm.toInt * 256) % 2 ^ 64) ∧
    (0 < n ∧ off + n ≤ 256) ∧
    ((∀ j < 256, (x.preg f.pg).getLsbD j = (decide (off ≤ j) && decide (j < off + n)))) ∧
    (s.clauseAt x.clause = some k ∧ k.partition = p ∧ k.cancelled = false) ∧
    (s.reach x (a + off) n = .runs p [(fpa, n)]) ∧
    (oaHandle a < 16 ∧ oaOffset a + off + n ≤ 2 ^ 59) ∧
    (s.poisonedIn p 1 (x.fva (a + off)) [(fpa, n)] = false) ∧
    (fpa % 128 + n ≤ 128) ∧
    (x.writable a = true) ∧
    ((s.tile c.tile).stores = []) ∧
    (Reached s p fpa) ∧
    (Intact s fpa n) ∧
    ((s.tile c.tile).owns (fpa / 128) = true) :=
  ⟨memL ctxS [(near0 66 / 128, 3)] [] [] [(near0 65, 9#8), (near0 69, 200#8)], ⟨0, 0⟩, ⟨4, 4, 1, 0⟩, ctxS, 64, 2, 3, 1, near0 66, kernA, by decide +kernel⟩

theorem test_meets_TileMemoryAccesses_32 : ∃ (s : State) (c : At) (f : FmtA) (x : Ctx) (a n p fpa : Nat) (k : Clause),
    (s.ready c = some x) ∧
    (s.home.finished = []) ∧
    (n = 4 * 2 ^ f.w.toNat ∧ a = (x.sreg f.ra).toNat) ∧
    (atomicWidth f.op.toNat n = true ∧ (n = 16 → f.rd.toNat % 2 = 0 ∧ f.rb.toNat % 2 = 0)) ∧
    (a % n = 0 ∧ oaHandle a < 16) ∧
    (f.scope ≠ 0 → x.storeErr = .none) ∧
    (s.clauseAt x.clause = some k ∧ k.partition = p ∧ k.cancelled = false) ∧
    (s.reach x a n = .runs p [(fpa, n)]) ∧
    (x.writable a = true) ∧
    ((s.tile c.tile).stores = []) ∧
    ((s.xlate p (x.fva a) 2).err ≠ .permission) ∧
    (s.poisonedIn p 2 (x.fva a) [(fpa, n)] = false) ∧
    (MaySend s p fpa) :=
  ⟨mem0 [], ⟨0, 0⟩, ⟨3, 8, 1, 0, 1, 1⟩, ctxS, 2 ^ 59 + 64, 8, 1, 2 ^ 49 + near0 64, kernA, by decide +kernel⟩

theorem test_meets_TileMemoryAccesses_33 : ∃ (s : State) (c : At) (f : FmtA) (x : Ctx) (a n p fpa : Nat) (k : Clause),
    (s.ready c = some x) ∧
    (Calm s) ∧
    (n = 4 * 2 ^ f.w.toNat ∧ a = (x.sreg f.ra).toNat) ∧
    (atomicWidth f.op.toNat n = true ∧ (n = 16 → f.rd.toNat % 2 = 0 ∧ f.rb.toNat % 2 = 0)) ∧
    (a % n = 0 ∧ oaHandle a < 16) ∧
    (f.scope ≠ 0 → x.storeErr = .none) ∧
    (s.clauseAt x.clause = some k ∧ k.partition = p ∧ k.cancelled = false) ∧
    (s.reach x a n = .runs p [(fpa, n)]) ∧
    (x.writable a = true) ∧
    ((s.tile c.tile).stores = []) ∧
    ((s.xlate p (x.fva a) 2).err ≠ .permission) ∧
    (s.poisonedIn p 2 (x.fva a) [(fpa, n)] = false) ∧
    (Reached s p fpa) ∧
    (Intact s fpa n) ∧
    (fpa % n = 0) ∧
    ((linesOf fpa n).all (s.lineClear true) = true) ∧
    (s.hasCopies fpa n = false) ∧
    (s.orderBusy (some (100 + c.tile * 4 + c.ctx)) (fpaUnit fpa) = false) :=
  ⟨mem0 [(near0 64, 9#8), (near0 66, 200#8)], ⟨0, 0⟩, ⟨3, 9, 1, 0, 0, 1⟩, ctxS, 64, 4, 1, near0 64, kernA, by decide +kernel⟩

theorem test_meets_TileMemoryAccesses_34 : ∃ (s : State) (c : At) (f : FmtA) (x : Ctx) (n : Nat),
    (s.ready c = some x) ∧
    (s.home.finished = []) ∧
    ((s.clauseAt x.clause).map Clause.cancelled ≠ some true) ∧
    (n = 4 * 2 ^ f.w.toNat) ∧
    (atomicWidth f.op.toNat n = true ∧ (n = 16 → f.rd.toNat % 2 = 0 ∧ f.rb.toNat % 2 = 0)) ∧
    ((x.sreg f.ra).toNat % n ≠ 0) :=
  ⟨mem0 [], ⟨0, 0⟩, ⟨3, 1, 1, 0, 1, 1⟩, ctxS, 8, by decide +kernel⟩

theorem test_meets_VectorArithmeticWorksLaneByLane_1 : ∃ (s : State) (c : At) (f : FmtV) (x : Ctx),
    (s.ready c = some x) ∧
    (9 ≤ f.fmt.toNat ∧ f.fmt.toNat ≤ 12) :=
  ⟨vec0, ⟨0, 0⟩, ⟨5, 3, 4, 1, 12⟩, ctxV, by decide +kernel⟩

theorem test_meets_VectorArithmeticWorksLaneByLane_2 : ∃ (s : State) (c : At) (f : FmtV) (x : Ctx),
    (s.ready c = some x) ∧
    (9 ≤ f.fmt.toNat ∧ f.fmt.toNat ≤ 12) :=
  ⟨vec0, ⟨0, 0⟩, ⟨5, 3, 4, 1, 12⟩, ctxV, by decide +kernel⟩

theorem test_meets_VectorArithmeticWorksLaneByLane_3 : ∃ (s : State) (c : At) (f : FmtV) (x : Ctx),
    (s.ready c = some x) ∧
    (9 ≤ f.fmt.toNat ∧ f.fmt.toNat ≤ 12) :=
  ⟨vec0, ⟨0, 0⟩, ⟨5, 3, 4, 1, 11⟩, ctxV, by decide +kernel⟩

theorem test_meets_VectorArithmeticWorksLaneByLane_4 : ∃ (s : State) (c : At) (f : FmtV) (x : Ctx),
    (s.ready c = some x) ∧
    (9 ≤ f.fmt.toNat ∧ f.fmt.toNat ≤ 12) :=
  ⟨vec0, ⟨0, 0⟩, ⟨5, 3, 4, 1, 12⟩, ctxV, by decide +kernel⟩

theorem test_meets_VectorArithmeticWorksLaneByLane_5 : ∃ (s : State) (c : At) (f : FmtV) (x : Ctx),
    (s.ready c = some x) ∧
    (f.fmt.toNat ≤ 5) :=
  ⟨vecR 0, ⟨0, 0⟩, ⟨5, 3, 4, 2, 1⟩, { ctxV with rmode := 0, seed := 77 }, by decide +kernel⟩

theorem test_meets_VectorArithmeticWorksLaneByLane_6 : ∃ (s : State) (c : At) (f : FmtV) (x : Ctx),
    (s.ready c = some x) ∧
    (f.fmt.toNat ≤ 5) :=
  ⟨vecR 2, ⟨0, 0⟩, ⟨5, 3, 4, 2, 1⟩, { ctxV with rmode := 2, seed := 77 }, by decide +kernel⟩

theorem test_meets_VectorArithmeticWorksLaneByLane_7 : ∃ (s : State) (c : At) (f : FmtV) (x : Ctx),
    (s.ready c = some x) ∧
    (f.fmt.toNat ≤ 5) :=
  ⟨vecR 1, ⟨0, 0⟩, ⟨5, 3, 4, 2, 2⟩, { ctxV with rmode := 1, seed := 77 }, by decide +kernel⟩

theorem test_meets_VectorArithmeticWorksLaneByLane_8 : ∃ (s : State) (c : At) (f : FmtV) (x : Ctx),
    (s.ready c = some x) ∧
    (f.fmt.toNat ≤ 5) :=
  ⟨vecR 2, ⟨0, 0⟩, ⟨5, 3, 4, 2, 1⟩, { ctxV with rmode := 2, seed := 77 }, by decide +kernel⟩

theorem test_meets_VectorArithmeticWorksLaneByLane_9 : ∃ (s : State) (c : At) (f : FmtV) (x : Ctx),
    (s.ready c = some x) ∧
    (vecFmt f.fmt.toNat = true) :=
  ⟨vec0, ⟨0, 0⟩, ⟨5, 3, 4, 1, 12⟩, ctxV, by decide +kernel⟩

theorem test_meets_VectorArithmeticWorksLaneByLane_10 : ∃ (s : State) (c : At) (f : FmtV) (x : Ctx),
    (s.ready c = some x) ∧
    (vecFmt f.fmt.toNat = true) :=
  ⟨vecR 2, ⟨0, 0⟩, ⟨5, 3, 4, 1, 1⟩, { ctxV with rmode := 2, seed := 77 }, by decide +kernel⟩

theorem test_meets_VectorArithmeticWorksLaneByLane_11 : ∃ (s : State) (c : At) (f : FmtV) (x : Ctx),
    (s.ready c = some x) ∧
    (9 ≤ f.fmt.toNat ∧ f.fmt.toNat ≤ 12) ∧
    (f.vb = 0) :=
  ⟨vec0, ⟨0, 0⟩, ⟨5, 3, 0, 1, 12⟩, ctxV, by decide +kernel⟩

theorem test_meets_VectorArithmeticWorksLaneByLane_12 : ∃ (s : State) (c : At) (f : FmtV) (x : Ctx),
    (s.ready c = some x) ∧
    (f.fmt.toNat ≤ 5) ∧
    (f.vb = 0) :=
  ⟨vec0, ⟨0, 0⟩, ⟨5, 3, 0, 1, 2⟩, ctxV, by decide +kernel⟩

theorem test_meets_VectorArithmeticWorksLaneByLane_13 : ∃ (s : State) (c : At) (f : FmtV) (x : Ctx),
    (s.ready c = some x) ∧
    (vecFmt f.fmt.toNat = false) :=
  ⟨vec0, ⟨0, 0⟩, ⟨5, 3, 4, 1, 6⟩, ctxV, by decide +kernel⟩

theorem test_meets_VectorArithmeticWorksLaneByLane_14 : ∃ (s : State) (c : At) (f : FmtV) (x : Ctx),
    (s.ready c = some x) ∧
    (vecFmt f.fmt.toNat = false) :=
  ⟨vec0, ⟨0, 0⟩, ⟨5, 3, 4, 1, 6⟩, ctxV, by decide +kernel⟩

theorem test_meets_VectorArithmeticWorksLaneByLane_15 : ∃ (s : State) (c : At) (f : FmtV) (x : Ctx),
    (s.ready c = some x) ∧
    (vecFmt f.fmt.toNat = false) :=
  ⟨vec0, ⟨0, 0⟩, ⟨5, 3, 4, 1, 6⟩, ctxV, by decide +kernel⟩

theorem test_meets_VectorArithmeticWorksLaneByLane_16 : ∃ (s : State) (c : At) (f : FmtV) (x : Ctx),
    (s.ready c = some x) ∧
    (vecFmt f.fmt.toNat = false) :=
  ⟨vec0, ⟨0, 0⟩, ⟨5, 3, 4, 1, 6⟩, ctxV, by decide +kernel⟩

theorem test_meets_VectorArithmeticWorksLaneByLane_17 : ∃ (s : State) (c : At) (f : FmtV) (x : Ctx),
    (s.ready c = some x) ∧
    (vecFmt f.fmt.toNat = false) :=
  ⟨vec0, ⟨0, 0⟩, ⟨5, 3, 4, 1, 6⟩, ctxV, by decide +kernel⟩

theorem test_meets_VectorArithmeticWorksLaneByLane_18 : ∃ (s : State) (c : At) (f : FmtV) (x : Ctx),
    (s.ready c = some x) ∧
    (vecFmt f.fmt.toNat = false) :=
  ⟨vec0, ⟨0, 0⟩, ⟨5, 3, 4, 1, 6⟩, ctxV, by decide +kernel⟩

theorem test_meets_VectorArithmeticWorksLaneByLane_19 : ∃ (s : State) (c : At) (f : FmtV) (x : Ctx),
    (s.ready c = some x) ∧
    (vecFmt f.fmt.toNat = false) :=
  ⟨vec0, ⟨0, 0⟩, ⟨5, 3, 4, 1, 6⟩, ctxV, by decide +kernel⟩

theorem test_meets_VectorArithmeticWorksLaneByLane_20 : ∃ (s : State) (c : At) (f : FmtV) (x : Ctx),
    (s.ready c = some x) ∧
    (f.fmt.toNat = 12 ∧ f.vd.toNat % 4 = 0) :=
  ⟨vec0, ⟨0, 0⟩, ⟨4, 3, 4, 2, 12⟩, ctxV, by decide +kernel⟩

theorem test_meets_VectorArithmeticWorksLaneByLane_21 : ∃ (s : State) (c : At) (f : FmtV) (x : Ctx),
    (s.ready c = some x) ∧
    ((f.fmt.toNat = 2 ∨ f.fmt.toNat = 3) ∧ f.vd.toNat % 2 = 0 ∨ (f.fmt.toNat = 4 ∨ f.fmt.toNat = 5) ∧ f.vd.toNat % 4 = 0) :=
  ⟨vecR 2, ⟨0, 0⟩, ⟨4, 3, 4, 2, 4⟩, { ctxV with rmode := 2, seed := 77 }, by decide +kernel⟩

theorem test_meets_VectorArithmeticWorksLaneByLane_22 : ∃ (s : State) (c : At) (f : FmtV) (x : Ctx),
    (s.ready c = some x) ∧
    (f.fmt.toNat ∉ [2, 3, 4, 5, 12] ∨ f.vd.toNat % wideRegs f.fmt.toNat ≠ 0) :=
  ⟨vec0, ⟨0, 0⟩, ⟨5, 3, 4, 1, 4⟩, ctxV, by decide +kernel⟩

theorem test_meets_VectorBitOperationsAndMoves_1 : ∃ (s : State) (c : At) (f : FmtV) (x : Ctx),
    (s.ready c = some x) ∧
    (9 ≤ f.fmt.toNat ∧ f.fmt.toNat ≤ 12) :=
  ⟨vec0, ⟨0, 0⟩, ⟨5, 3, 4, 1, 12⟩, ctxV, by decide +kernel⟩

theorem test_meets_VectorBitOperationsAndMoves_2 : ∃ (s : State) (c : At) (f : FmtV) (x : Ctx),
    (s.ready c = some x) ∧
    (9 ≤ f.fmt.toNat ∧ f.fmt.toNat ≤ 12) :=
  ⟨vec0, ⟨0, 0⟩, ⟨5, 3, 4, 1, 12⟩, ctxV, by decide +kernel⟩

theorem test_meets_VectorBitOperationsAndMoves_3 : ∃ (s : State) (c : At) (f : FmtV) (x : Ctx),
    (s.ready c = some x) ∧
    (9 ≤ f.fmt.toNat ∧ f.fmt.toNat ≤ 12) :=
  ⟨vec0, ⟨0, 0⟩, ⟨5, 3, 4, 1, 12⟩, ctxV, by decide +kernel⟩

theorem test_meets_VectorBitOperationsAndMoves_4 : ∃ (s : State) (c : At) (f : FmtV) (x : Ctx),
    (s.ready c = some x) ∧
    (9 ≤ f.fmt.toNat ∧ f.fmt.toNat ≤ 12) :=
  ⟨vec0, ⟨0, 0⟩, ⟨5, 3, 4, 1, 11⟩, ctxV, by decide +kernel⟩

theorem test_meets_VectorBitOperationsAndMoves_5 : ∃ (s : State) (c : At) (f : FmtV) (x : Ctx),
    (s.ready c = some x) ∧
    (9 ≤ f.fmt.toNat ∧ f.fmt.toNat ≤ 12) :=
  ⟨vec0, ⟨0, 0⟩, ⟨5, 3, 4, 1, 11⟩, ctxV, by decide +kernel⟩

theorem test_meets_VectorBitOperationsAndMoves_6 : ∃ (s : State) (c : At) (f : FmtV) (x : Ctx),
    (s.ready c = some x) ∧
    (9 ≤ f.fmt.toNat ∧ f.fmt.toNat ≤ 12) :=
  ⟨vec0, ⟨0, 0⟩, ⟨5, 3, 4, 1, 11⟩, ctxV, by decide +kernel⟩

theorem test_meets_VectorBitOperationsAndMoves_7 : ∃ (s : State) (c : At) (f : FmtV) (x : Ctx),
    (s.ready c = some x) ∧
    (f.fmt.toNat < 9 ∨ 12 < f.fmt.toNat) :=
  ⟨vec0, ⟨0, 0⟩, ⟨5, 3, 4, 1, 1⟩, ctxV, by decide +kernel⟩

theorem test_meets_VectorBitOperationsAndMoves_8 : ∃ (s : State) (c : At) (f : FmtV) (x : Ctx),
    (s.ready c = some x) ∧
    (f.fmt.toNat < 9 ∨ 12 < f.fmt.toNat) :=
  ⟨vec0, ⟨0, 0⟩, ⟨5, 3, 4, 1, 1⟩, ctxV, by decide +kernel⟩

theorem test_meets_VectorBitOperationsAndMoves_9 : ∃ (s : State) (c : At) (f : FmtV) (x : Ctx),
    (s.ready c = some x) ∧
    (f.fmt.toNat < 9 ∨ 12 < f.fmt.toNat) :=
  ⟨vec0, ⟨0, 0⟩, ⟨5, 3, 4, 1, 1⟩, ctxV, by decide +kernel⟩

theorem test_meets_VectorBitOperationsAndMoves_10 : ∃ (s : State) (c : At) (f : FmtV) (x : Ctx),
    (s.ready c = some x) ∧
    (f.fmt.toNat < 9 ∨ 12 < f.fmt.toNat) :=
  ⟨vec0, ⟨0, 0⟩, ⟨5, 3, 4, 1, 1⟩, ctxV, by decide +kernel⟩

theorem test_meets_VectorBitOperationsAndMoves_11 : ∃ (s : State) (c : At) (f : FmtV) (x : Ctx),
    (s.ready c = some x) ∧
    (f.fmt.toNat < 9 ∨ 12 < f.fmt.toNat) :=
  ⟨vec0, ⟨0, 0⟩, ⟨5, 3, 4, 1, 1⟩, ctxV, by decide +kernel⟩

theorem test_meets_VectorBitOperationsAndMoves_12 : ∃ (s : State) (c : At) (f : FmtV) (x : Ctx),
    (s.ready c = some x) ∧
    (f.fmt.toNat < 9 ∨ 12 < f.fmt.toNat) :=
  ⟨vec0, ⟨0, 0⟩, ⟨5, 3, 4, 1, 1⟩, ctxV, by decide +kernel⟩

theorem test_meets_VectorBitOperationsAndMoves_13 : ∃ (s : State) (c : At) (f : FmtV) (x : Ctx),
    (s.ready c = some x) ∧
    (vecFmt f.fmt.toNat = true) :=
  ⟨vec0, ⟨0, 0⟩, ⟨5, 3, 4, 1, 1⟩, ctxV, by decide +kernel⟩

theorem test_meets_VectorBitOperationsAndMoves_14 : ∃ (s : State) (c : At) (f : FmtV) (x : Ctx),
    (s.ready c = some x) ∧
    (vecFmt f.fmt.toNat = true) ∧
    (f.vb = 0) :=
  ⟨vec0, ⟨0, 0⟩, ⟨5, 3, 0, 1, 10⟩, ctxV, by decide +kernel⟩

theorem test_meets_VectorBitOperationsAndMoves_15 : ∃ (s : State) (c : At) (f : FmtV) (cond : BitVec 3) (x : Ctx),
    (s.ready c = some x) ∧
    (vecFmt f.fmt.toNat = true ∧ f.vd.toNat < 16 ∧ cond.toNat < 7) :=
  ⟨vec0, ⟨0, 0⟩, ⟨5, 3, 4, 2, 1⟩, 6, ctxV, by decide +kernel⟩

theorem test_meets_VectorBitOperationsAndMoves_16 : ∃ (s : State) (c : At) (f : FmtV) (cond : BitVec 3) (x : Ctx),
    (s.ready c = some x) ∧
    (vecFmt f.fmt.toNat = false ∨ 16 ≤ f.vd.toNat ∨ cond.toNat = 7) :=
  ⟨vec0, ⟨0, 0⟩, ⟨5, 3, 4, 2, 1⟩, 7, ctxV, by decide +kernel⟩

theorem test_meets_VectorBitOperationsAndMoves_17 : ∃ (s : State) (c : At) (f : FmtV) (part : BitVec 3) (src : Nat) (x : Ctx),
    (s.ready c = some x) ∧
    (f.vb.toNat < 16 ∧ src = f.vb.toNat ∧ convAllowed src f.fmt.toNat = true ∧ 8 ≤ regWidth f.fmt.toNat) ∧
    (regWidth src ≤ regWidth f.fmt.toNat ∧ part.toNat < regWidth f.fmt.toNat / regWidth src) :=
  ⟨vecR 2, ⟨0, 0⟩, ⟨5, 3, 4, 2, 1⟩, 3, 4, { ctxV with rmode := 2, seed := 77 }, by decide +kernel⟩

theorem test_meets_VectorBitOperationsAndMoves_18 : ∃ (s : State) (c : At) (f : FmtV) (part : BitVec 3) (src : Nat) (x : Ctx),
    (s.ready c = some x) ∧
    (f.vb.toNat < 16 ∧ src = f.vb.toNat ∧ convAllowed src f.fmt.toNat = true ∧ 8 ≤ regWidth f.fmt.toNat) ∧
    (regWidth f.fmt.toNat < regWidth src ∧ part.toNat < regWidth src / regWidth f.fmt.toNat) :=
  ⟨vecR 2, ⟨0, 0⟩, ⟨5, 3, 1, 2, 4⟩, 3, 1, { ctxV with rmode := 2, seed := 77 }, by decide +kernel⟩

theorem test_meets_VectorBitOperationsAndMoves_19 : ∃ (s : State) (c : At) (f : FmtV) (part : BitVec 3) (src : Nat) (x : Ctx),
    (s.ready c = some x) ∧
    (f.vb.toNat < 16 ∧ src = f.vb.toNat ∧ convAllowed src f.fmt.toNat = true ∧ regWidth f.fmt.toNat = 4) ∧
    (part.toNat < regWidth src / 4) :=
  ⟨vec0, ⟨0, 0⟩, ⟨5, 3, 1, 2, 8⟩, 3, 1, ctxV, by decide +kernel⟩

theorem test_meets_VectorBitOperationsAndMoves_20 : ∃ (s : State) (c : At) (f : FmtV) (part : BitVec 3) (src : Nat) (x : Ctx),
    (s.ready c = some x) ∧
    (src = f.vb.toNat) ∧
    (16 ≤ src ∨ convAllowed src f.fmt.toNat = false ∨ max (regWidth src) (regWidth f.fmt.toNat) / min (regWidth src) (regWidth f.fmt.toNat) ≤ part.toNat) :=
  ⟨vec0, ⟨0, 0⟩, ⟨5, 3, 1, 2, 4⟩, 4, 1, ctxV, by decide +kernel⟩

theorem test_meets_VectorBitOperationsAndMoves_21 : ∃ (s : State) (c : At) (f : FmtVX) (x : Ctx),
    (s.ready c = some x) ∧
    (vecFmt f.fmt.toNat = true) ∧
    (f.sb = 0) :=
  ⟨vec0, ⟨0, 0⟩, ⟨5, 2, 0, 11⟩, ctxV, by decide +kernel⟩

theorem test_meets_VectorBitOperationsAndMoves_22 : ∃ (s : State) (c : At) (f : FmtVX) (x : Ctx),
    (s.ready c = some x) ∧
    (vecFmt f.fmt.toNat = true) :=
  ⟨vec0, ⟨0, 0⟩, ⟨3, 2, 1, 11⟩, ctxV, by decide +kernel⟩

theorem test_meets_VectorBitOperationsAndMoves_23 : ∃ (s : State) (c : At) (f : FmtVX) (x : Ctx),
    (s.ready c = some x) ∧
    (f.fmt.toNat ≤ 5) :=
  ⟨vec0, ⟨0, 0⟩, ⟨3, 7, 1, 2⟩, ctxV, by decide +kernel⟩

theorem test_meets_VectorBitOperationsAndMoves_24 : ∃ (s : State) (c : At) (f : FmtVX) (x : Ctx),
    (s.ready c = some x) ∧
    (9 ≤ f.fmt.toNat ∧ f.fmt.toNat ≤ 12) :=
  ⟨vec0, ⟨0, 0⟩, ⟨3, 7, 1, 12⟩, ctxV, by decide +kernel⟩

theorem test_meets_VectorBitOperationsAndMoves_25 : ∃ (s : State) (c : At) (f : FmtVX) (x : Ctx),
    (s.ready c = some x) ∧
    (vecFmt f.fmt.toNat = false) :=
  ⟨vec0, ⟨0, 0⟩, ⟨3, 7, 0, 8⟩, ctxV, by decide +kernel⟩

theorem test_meets_VectorBitOperationsAndMoves_26 : ∃ (s : State) (c : At) (f : FmtVX) (x : Ctx),
    (s.ready c = some x) ∧
    (vecFmt f.fmt.toNat = false) :=
  ⟨vec0, ⟨0, 0⟩, ⟨3, 7, 0, 8⟩, ctxV, by decide +kernel⟩

theorem test_meets_VectorBitOperationsAndMoves_27 : ∃ (s : State) (c : At) (f : FmtVX) (x : Ctx),
    (s.ready c = some x) ∧
    (vecFmt f.fmt.toNat = false) :=
  ⟨vec0, ⟨0, 0⟩, ⟨3, 7, 0, 8⟩, ctxV, by decide +kernel⟩

theorem test_meets_ReductionsAndPredicates_1 : ∃ (s : State) (c : At) (f : FmtVX) (x : Ctx),
    (s.ready c = some x) ∧
    (9 ≤ f.fmt.toNat ∧ f.fmt.toNat ≤ 12) ∧
    (f.sb.toNat < 16) :=
  ⟨vec0, ⟨0, 0⟩, ⟨3, 7, 1, 12⟩, ctxV, by decide +kernel⟩

theorem test_meets_ReductionsAndPredicates_2 : ∃ (s : State) (c : At) (f : FmtVX) (x : Ctx),
    (s.ready c = some x) ∧
    (f.fmt.toNat ≤ 5) ∧
    (f.sb.toNat < 16) ∧
    (f.sa ≠ 0) :=
  ⟨vec0, ⟨0, 0⟩, ⟨3, 7, 1, 2⟩, ctxV, by decide +kernel⟩

theorem test_meets_ReductionsAndPredicates_3 : ∃ (s : State) (c : At) (f : FmtVX) (x : Ctx),
    (s.ready c = some x) ∧
    (9 ≤ f.fmt.toNat ∧ f.fmt.toNat ≤ 12 ∨ f.fmt.toNat ≤ 5) ∧
    (16 ≤ f.sb.toNat) :=
  ⟨vec0, ⟨0, 0⟩, ⟨3, 7, 17, 12⟩, ctxV, by decide +kernel⟩

theorem test_meets_ReductionsAndPredicates_4 : ∃ (s : State) (c : At) (f : FmtVX) (x : Ctx),
    (s.ready c = some x) ∧
    (9 ≤ f.fmt.toNat ∧ f.fmt.toNat ≤ 12 ∨ f.fmt.toNat ≤ 5) ∧
    (16 ≤ f.sb.toNat) :=
  ⟨vec0, ⟨0, 0⟩, ⟨3, 7, 17, 12⟩, ctxV, by decide +kernel⟩

theorem test_meets_ReductionsAndPredicates_5 : ∃ (s : State) (c : At) (f : FmtVX) (x : Ctx),
    (s.ready c = some x) ∧
    (9 ≤ f.fmt.toNat ∧ f.fmt.toNat ≤ 12 ∨ f.fmt.toNat ≤ 5) ∧
    (16 ≤ f.sb.toNat) :=
  ⟨vec0, ⟨0, 0⟩, ⟨3, 7, 17, 12⟩, ctxV, by decide +kernel⟩

theorem test_meets_ReductionsAndPredicates_6 : ∃ (s : State) (c : At) (f : FmtVX) (x : Ctx),
    (s.ready c = some x) ∧
    (9 ≤ f.fmt.toNat ∧ f.fmt.toNat ≤ 12 ∨ f.fmt.toNat ≤ 5) ∧
    (16 ≤ f.sb.toNat) :=
  ⟨vec0, ⟨0, 0⟩, ⟨3, 7, 17, 12⟩, ctxV, by decide +kernel⟩

theorem test_meets_ReductionsAndPredicates_7 : ∃ (s : State) (c : At) (f : FmtVX) (x : Ctx),
    (s.ready c = some x) ∧
    (9 ≤ f.fmt.toNat ∧ f.fmt.toNat ≤ 12 ∨ f.fmt.toNat ≤ 5) ∧
    (16 ≤ f.sb.toNat) :=
  ⟨vec0, ⟨0, 0⟩, ⟨3, 7, 17, 12⟩, ctxV, by decide +kernel⟩

theorem test_meets_ReductionsAndPredicates_8 : ∃ (s : State) (c : At) (f : FmtVX) (x : Ctx),
    (s.ready c = some x) ∧
    (vecFmt f.fmt.toNat = false) :=
  ⟨vec0, ⟨0, 0⟩, ⟨3, 7, 1, 13⟩, ctxV, by decide +kernel⟩

theorem test_meets_ReductionsAndPredicates_9 : ∃ (s : State) (c : At) (f : FmtVX) (x : Ctx),
    (s.ready c = some x) ∧
    (vecFmt f.fmt.toNat = false) :=
  ⟨vec0, ⟨0, 0⟩, ⟨3, 7, 1, 13⟩, ctxV, by decide +kernel⟩

theorem test_meets_ReductionsAndPredicates_10 : ∃ (s : State) (c : At) (f : FmtVX) (x : Ctx),
    (s.ready c = some x) ∧
    (vecFmt f.fmt.toNat = false) :=
  ⟨vec0, ⟨0, 0⟩, ⟨3, 7, 1, 13⟩, ctxV, by decide +kernel⟩

theorem test_meets_ReductionsAndPredicates_11 : ∃ (s : State) (c : At) (f : FmtVX) (x : Ctx),
    (s.ready c = some x) ∧
    (vecFmt f.fmt.toNat = false) :=
  ⟨vec0, ⟨0, 0⟩, ⟨3, 7, 1, 13⟩, ctxV, by decide +kernel⟩

theorem test_meets_ReductionsAndPredicates_12 : ∃ (s : State) (c : At) (f : FmtVX) (x : Ctx),
    (s.ready c = some x) ∧
    (vecFmt f.fmt.toNat = false) :=
  ⟨vec0, ⟨0, 0⟩, ⟨3, 7, 1, 13⟩, ctxV, by decide +kernel⟩

theorem test_meets_ReductionsAndPredicates_13 : ∃ (s : State) (c : At) (f : FmtVX) (x : Ctx) (j : Nat),
    (s.ready c = some x) ∧
    (9 ≤ f.fmt.toNat ∧ f.fmt.toNat ≤ 12) ∧
    (f.sb.toNat < 16) ∧
    (f.sa ≠ 0) ∧
    (j < lanesOf f.fmt.toNat ∧ laneOn f.fmt.toNat (x.preg (f.sb.truncate 4)) j = true) :=
  ⟨vec0, ⟨0, 0⟩, ⟨3, 7, 1, 12⟩, ctxV, 9, by decide +kernel⟩

theorem test_meets_ReductionsAndPredicates_14 : ∃ (s : State) (c : At) (f : FmtVX) (x : Ctx) (j : Nat),
    (s.ready c = some x) ∧
    (9 ≤ f.fmt.toNat ∧ f.fmt.toNat ≤ 12) ∧
    (f.sb.toNat < 16) ∧
    (f.sa ≠ 0) ∧
    (j < lanesOf f.fmt.toNat ∧ laneOn f.fmt.toNat (x.preg (f.sb.truncate 4)) j = true) :=
  ⟨vec0, ⟨0, 0⟩, ⟨3, 7, 1, 12⟩, ctxV, 9, by decide +kernel⟩

theorem test_meets_ReductionsAndPredicates_15 : ∃ (s : State) (c : At) (f : FmtVX) (x : Ctx) (j : Nat),
    (s.ready c = some x) ∧
    (f.fmt.toNat ≤ 5) ∧
    (f.sb.toNat < 16) ∧
    (f.sa ≠ 0) ∧
    (j < lanesOf f.fmt.toNat ∧ laneOn f.fmt.toNat (x.preg (f.sb.truncate 4)) j = true) ∧
    (∀ i < lanesOf f.fmt.toNat, laneOn f.fmt.toNat (x.preg (f.sb.truncate 4)) i = true → decodeNum f.fmt.toNat (laneGet f.fmt.toNat (x.vreg f.v) i) ≠ Machine.Num.nan) :=
  ⟨vec0, ⟨0, 0⟩, ⟨4, 7, 1, 2⟩, ctxV, 9, by decide +kernel⟩

theorem test_meets_ReductionsAndPredicates_16 : ∃ (s : State) (c : At) (f : FmtVX) (x : Ctx) (j : Nat),
    (s.ready c = some x) ∧
    (f.fmt.toNat ≤ 5) ∧
    (f.sb.toNat < 16) ∧
    (f.sa ≠ 0) ∧
    (j < lanesOf f.fmt.toNat ∧ laneOn f.fmt.toNat (x.preg (f.sb.truncate 4)) j = true) ∧
    (∀ i < lanesOf f.fmt.toNat, laneOn f.fmt.toNat (x.preg (f.sb.truncate 4)) i = true → decodeNum f.fmt.toNat (laneGet f.fmt.toNat (x.vreg f.v) i) ≠ Machine.Num.nan) :=
  ⟨vec0, ⟨0, 0⟩, ⟨4, 7, 1, 2⟩, ctxV, 9, by decide +kernel⟩

theorem test_meets_ReductionsAndPredicates_17 : ∃ (s : State) (c : At) (f : FmtVX) (x : Ctx) (j : Nat),
    (s.ready c = some x) ∧
    (f.fmt.toNat ≤ 5) ∧
    (f.sb.toNat < 16) ∧
    (f.sa ≠ 0) ∧
    (j < lanesOf f.fmt.toNat ∧ laneOn f.fmt.toNat (x.preg (f.sb.truncate 4)) j = true) ∧
    (∀ i < lanesOf f.fmt.toNat, laneOn f.fmt.toNat (x.preg (f.sb.truncate 4)) i = true → decodeNum f.fmt.toNat (laneGet f.fmt.toNat (x.vreg f.v) i) = Machine.Num.nan) :=
  ⟨tiled0 { ctxV with v := [(4, BitVec.ofNat 2048 (0xffc00001 * 2 ^ 64))], p := [(1, BitVec.ofNat 256 (15 * 2 ^ 8))] }, ⟨0, 0⟩, ⟨4, 7, 1, 1⟩, { ctxV with v := [(4, BitVec.ofNat 2048 (0xffc00001 * 2 ^ 64))], p := [(1, BitVec.ofNat 256 (15 * 2 ^ 8))] }, 2, by decide +kernel⟩

theorem test_meets_ReductionsAndPredicates_18 : ∃ (s : State) (c : At) (f : FmtVX) (x : Ctx) (j : Nat),
    (s.ready c = some x) ∧
    (f.fmt.toNat ≤ 5) ∧
    (f.sb.toNat < 16) ∧
    (f.sa ≠ 0) ∧
    (j < lanesOf f.fmt.toNat ∧ laneOn f.fmt.toNat (x.preg (f.sb.truncate 4)) j = true) ∧
    (∀ i < lanesOf f.fmt.toNat, laneOn f.fmt.toNat (x.preg (f.sb.truncate 4)) i = true → decodeNum f.fmt.toNat (laneGet f.fmt.toNat (x.vreg f.v) i) = Machine.Num.nan) :=
  ⟨tiled0 { ctxV with v := [(4, BitVec.ofNat 2048 (0xffc00001 * 2 ^ 64))], p := [(1, BitVec.ofNat 256 (15 * 2 ^ 8))] }, ⟨0, 0⟩, ⟨4, 7, 1, 1⟩, { ctxV with v := [(4, BitVec.ofNat 2048 (0xffc00001 * 2 ^ 64))], p := [(1, BitVec.ofNat 256 (15 * 2 ^ 8))] }, 2, by decide +kernel⟩

theorem test_meets_ReductionsAndPredicates_19 : ∃ (s : State) (c : At) (f : FmtVX) (x : Ctx) (j : Nat),
    (s.ready c = some x) ∧
    ((f.fmt.toNat ≤ 5 ∨ 10 ≤ f.fmt.toNat ∧ f.fmt.toNat ≤ 12) ∧ f.fmt.toNat ≠ 0) ∧
    (f.sb.toNat < 16) ∧
    (j < lanesOf f.fmt.toNat ∧ laneOn f.fmt.toNat (x.preg (f.sb.truncate 4)) j = true ∧ decodeNum f.fmt.toNat (laneGet f.fmt.toNat (x.vreg f.v) j) ≠ Machine.Num.nan) ∧
    (∀ i < lanesOf f.fmt.toNat, laneOn f.fmt.toNat (x.preg (f.sb.truncate 4)) i = true ∧ decodeNum f.fmt.toNat (laneGet f.fmt.toNat (x.vreg f.v) i) ≠ Machine.Num.nan → (Machine.Num.lt (decodeNum f.fmt.toNat (laneGet f.fmt.toNat (x.vreg f.v) j)) (decodeNum f.fmt.toNat (laneGet f.fmt.toNat (x.vreg f.v) i))) = false ∧ (i < j → (Machine.Num.lt (decodeNum f.fmt.toNat (laneGet f.fmt.toNat (x.vreg f.v) i)) (decodeNum f.fmt.toNat (laneGet f.fmt.toNat (x.vreg f.v) j))) = true)) :=
  ⟨vec0, ⟨0, 0⟩, ⟨3, 7, 1, 12⟩, ctxV, 15, by decide +kernel⟩

theorem test_meets_ReductionsAndPredicates_20 : ∃ (s : State) (c : At) (f : FmtVX) (x : Ctx),
    (s.ready c = some x) ∧
    ((f.fmt.toNat ≤ 5 ∨ 10 ≤ f.fmt.toNat ∧ f.fmt.toNat ≤ 12) ∧ f.fmt.toNat ≠ 0) ∧
    (f.sb.toNat < 16) ∧
    (∀ i < lanesOf f.fmt.toNat, laneOn f.fmt.toNat (x.preg (f.sb.truncate 4)) i = true → decodeNum f.fmt.toNat (laneGet f.fmt.toNat (x.vreg f.v) i) = Machine.Num.nan) :=
  ⟨vec0, ⟨0, 0⟩, ⟨3, 7, 3, 12⟩, ctxV, by decide +kernel⟩

theorem test_meets_ReductionsAndPredicates_21 : ∃ (s : State) (c : At) (f : FmtVX) (x : Ctx) (j : Nat),
    (s.ready c = some x) ∧
    ((f.fmt.toNat ≤ 5 ∨ 10 ≤ f.fmt.toNat ∧ f.fmt.toNat ≤ 12) ∧ f.fmt.toNat ≠ 0) ∧
    (f.sb.toNat < 16) ∧
    (j < lanesOf f.fmt.toNat ∧ laneOn f.fmt.toNat (x.preg (f.sb.truncate 4)) j = true ∧ decodeNum f.fmt.toNat (laneGet f.fmt.toNat (x.vreg f.v) j) ≠ Machine.Num.nan) ∧
    (∀ i < lanesOf f.fmt.toNat, laneOn f.fmt.toNat (x.preg (f.sb.truncate 4)) i = true ∧ decodeNum f.fmt.toNat (laneGet f.fmt.toNat (x.vreg f.v) i) ≠ Machine.Num.nan → (Machine.Num.lt (decodeNum f.fmt.toNat (laneGet f.fmt.toNat (x.vreg f.v) i)) (decodeNum f.fmt.toNat (laneGet f.fmt.toNat (x.vreg f.v) j))) = false ∧ (i < j → (Machine.Num.lt (decodeNum f.fmt.toNat (laneGet f.fmt.toNat (x.vreg f.v) j)) (decodeNum f.fmt.toNat (laneGet f.fmt.toNat (x.vreg f.v) i))) = true)) :=
  ⟨vec0, ⟨0, 0⟩, ⟨3, 7, 1, 12⟩, ctxV, 6, by decide +kernel⟩

theorem test_meets_ReductionsAndPredicates_22 : ∃ (s : State) (c : At) (f : FmtVX) (x : Ctx),
    (s.ready c = some x) ∧
    ((f.fmt.toNat ≤ 5 ∨ 10 ≤ f.fmt.toNat ∧ f.fmt.toNat ≤ 12) ∧ f.fmt.toNat ≠ 0) ∧
    (f.sb.toNat < 16) ∧
    (∀ i < lanesOf f.fmt.toNat, laneOn f.fmt.toNat (x.preg (f.sb.truncate 4)) i = true → decodeNum f.fmt.toNat (laneGet f.fmt.toNat (x.vreg f.v) i) = Machine.Num.nan) :=
  ⟨vec0, ⟨0, 0⟩, ⟨3, 7, 3, 12⟩, ctxV, by decide +kernel⟩

theorem test_meets_ReductionsAndPredicates_23 : ∃ (s : State) (c : At) (f : FmtVX) (x : Ctx),
    (s.ready c = some x) ∧
    (f.fmt.toNat = 0 ∨ f.fmt.toNat = 9) :=
  ⟨vec0, ⟨0, 0⟩, ⟨3, 7, 1, 9⟩, ctxV, by decide +kernel⟩

theorem test_meets_ReductionsAndPredicates_24 : ∃ (s : State) (c : At) (f : FmtVX) (x : Ctx),
    (s.ready c = some x) ∧
    (f.fmt.toNat = 0 ∨ f.fmt.toNat = 9) :=
  ⟨vec0, ⟨0, 0⟩, ⟨3, 7, 1, 9⟩, ctxV, by decide +kernel⟩

theorem test_meets_ReductionsAndPredicates_25 : ∃ (s : State) (c : At) (f : FmtV) (x : Ctx),
    (s.ready c = some x) ∧
    (f.pg = 0 ∧ f.fmt = 0) :=
  ⟨vec0, ⟨0, 0⟩, ⟨3, 1, 2, 0, 0⟩, ctxV, by decide +kernel⟩

theorem test_meets_ReductionsAndPredicates_26 : ∃ (s : State) (c : At) (f : FmtV) (x : Ctx),
    (s.ready c = some x) ∧
    (f.pg = 0 ∧ f.fmt = 0) :=
  ⟨vec0, ⟨0, 0⟩, ⟨3, 1, 2, 0, 0⟩, ctxV, by decide +kernel⟩

theorem test_meets_ReductionsAndPredicates_27 : ∃ (s : State) (c : At) (f : FmtV) (x : Ctx),
    (s.ready c = some x) ∧
    (f.pg = 0 ∧ f.fmt = 0) :=
  ⟨vec0, ⟨0, 0⟩, ⟨3, 1, 2, 0, 0⟩, ctxV, by decide +kernel⟩

theorem test_meets_ReductionsAndPredicates_28 : ∃ (s : State) (c : At) (f : FmtV) (x : Ctx),
    (s.ready c = some x) ∧
    (f.pg = 0 ∧ f.fmt = 0) :=
  ⟨vec0, ⟨0, 0⟩, ⟨3, 1, 2, 0, 0⟩, ctxV, by decide +kernel⟩

theorem test_meets_ReductionsAndPredicates_29 : ∃ (s : State) (c : At) (f : FmtV) (x : Ctx),
    (s.ready c = some x) ∧
    (f.pg = 0 ∧ f.fmt = 0) :=
  ⟨vec0, ⟨0, 0⟩, ⟨3, 1, 2, 0, 0⟩, ctxV, by decide +kernel⟩

theorem test_meets_ReductionsAndPredicates_30 : ∃ (s : State) (c : At) (f : FmtV) (x : Ctx),
    (s.ready c = some x) ∧
    (f.pg = 0 ∧ f.fmt = 0) :=
  ⟨vec0, ⟨0, 0⟩, ⟨3, 1, 2, 0, 0⟩, ctxV, by decide +kernel⟩

theorem test_meets_ReductionsAndPredicates_31 : ∃ (s : State) (c : At) (f : FmtV) (x : Ctx),
    (s.ready c = some x) ∧
    (f.pg ≠ 0 ∨ f.fmt ≠ 0) :=
  ⟨vec0, ⟨0, 0⟩, ⟨3, 1, 2, 0, 1⟩, ctxV, by decide +kernel⟩

theorem test_meets_ReductionsAndPredicates_32 : ∃ (s : State) (c : At) (f : FmtV) (x : Ctx),
    (s.ready c = some x) ∧
    (f.pg ≠ 0 ∨ f.fmt ≠ 0) :=
  ⟨vec0, ⟨0, 0⟩, ⟨3, 1, 2, 0, 1⟩, ctxV, by decide +kernel⟩

theorem test_meets_ReductionsAndPredicates_33 : ∃ (s : State) (c : At) (f : FmtV) (x : Ctx),
    (s.ready c = some x) ∧
    (f.pg ≠ 0 ∨ f.fmt ≠ 0) :=
  ⟨vec0, ⟨0, 0⟩, ⟨3, 1, 2, 0, 1⟩, ctxV, by decide +kernel⟩

theorem test_meets_ReductionsAndPredicates_34 : ∃ (s : State) (c : At) (f : FmtV) (x : Ctx),
    (s.ready c = some x) ∧
    (f.pg ≠ 0 ∨ f.fmt ≠ 0) :=
  ⟨vec0, ⟨0, 0⟩, ⟨3, 1, 2, 0, 1⟩, ctxV, by decide +kernel⟩

theorem test_meets_ReductionsAndPredicates_35 : ∃ (s : State) (c : At) (f : FmtV) (x : Ctx),
    (s.ready c = some x) ∧
    (f.pg ≠ 0 ∨ f.fmt ≠ 0) :=
  ⟨vec0, ⟨0, 0⟩, ⟨3, 1, 2, 0, 1⟩, ctxV, by decide +kernel⟩

theorem test_meets_ReductionsAndPredicates_36 : ∃ (s : State) (c : At) (f : FmtV) (x : Ctx),
    (s.ready c = some x) ∧
    (f.pg ≠ 0 ∨ f.fmt ≠ 0) :=
  ⟨vec0, ⟨0, 0⟩, ⟨3, 1, 2, 0, 1⟩, ctxV, by decide +kernel⟩

theorem test_meets_ReductionsAndPredicates_37 : ∃ (s : State) (c : At) (f : FmtVX) (x : Ctx),
    (s.ready c = some x) ∧
    (f.v.toNat % 16 ≠ 0 ∧ f.fmt ≠ 0xF) :=
  ⟨vec0, ⟨0, 0⟩, ⟨3, 1, 0, 0⟩, ctxV, by decide +kernel⟩

theorem test_meets_ReductionsAndPredicates_38 : ∃ (s : State) (c : At) (f : FmtVX) (x : Ctx),
    (s.ready c = some x) ∧
    (f.fmt = 0xF) :=
  ⟨vec0, ⟨0, 0⟩, ⟨1, 3, 0, 15⟩, ctxV, by decide +kernel⟩

theorem test_meets_ReductionsAndPredicates_39 : ∃ (s : State) (c : At) (f : FmtVX) (x : Ctx),
    (s.ready c = some x) ∧
    (f.fmt = 0xF) :=
  ⟨vec0, ⟨0, 0⟩, ⟨1, 3, 0, 15⟩, ctxV, by decide +kernel⟩

theorem test_meets_ReductionsAndPredicates_40 : ∃ (s : State) (c : At) (f : FmtVX) (x : Ctx),
    (s.ready c = some x) ∧
    (f.fmt ≠ 0xF) :=
  ⟨vec0, ⟨0, 0⟩, ⟨1, 3, 0, 0⟩, ctxV, by decide +kernel⟩

theorem test_meets_MatrixUnitMultipliesLoadsAndStores_1 : ∃ (s : State) (c : At) (f : FmtX) (x : Ctx) (k a b : Nat),
    (s.ready c = some x) ∧
    (f.fmt.toNat = 12 ∧ f.s = false) ∧
    (k = (x.sreg f.rk).toNat ∧ a = (x.sreg f.ra).toNat ∧ b = (x.sreg f.rb).toNat) ∧
    (k % 32 = 0 ∧ 32 ≤ k ∧ k ≤ 4096) ∧
    (oaHandle a = 16 ∧ oaHandle b = 16 ∧ a % 256 = 0 ∧ b % 256 = 0) ∧
    (oaOffset a + mmaBytes f.fmt.toNat k f.s ≤ x.tsSize ∧ oaOffset b + mmaBytes f.fmt.toNat k f.s ≤ x.tsSize) ∧
    (s.flag R.PWR_STAT_BRAKE = false) :=
  ⟨mat0, ⟨0, 0⟩, ⟨1, 3, 4, 5, 12, false⟩, ctxM, 32, 16 * 2 ^ 59, 16 * 2 ^ 59 + 2048, by decide +kernel⟩

theorem test_meets_MatrixUnitMultipliesLoadsAndStores_2 : ∃ (s : State) (c : At) (f : FmtX) (x : Ctx) (k a b : Nat),
    (s.ready c = some x) ∧
    (f.fmt.toNat = 13 ∧ f.s = false) ∧
    (k = (x.sreg f.rk).toNat ∧ a = (x.sreg f.ra).toNat ∧ b = (x.sreg f.rb).toNat) ∧
    (k % 32 = 0 ∧ 32 ≤ k ∧ k ≤ 4096) ∧
    (oaHandle a = 16 ∧ oaHandle b = 16 ∧ a % 256 = 0 ∧ b % 256 = 0) ∧
    (oaOffset a + mmaBytes f.fmt.toNat k f.s ≤ x.tsSize ∧ oaOffset b + mmaBytes f.fmt.toNat k f.s ≤ x.tsSize) ∧
    (s.flag R.PWR_STAT_BRAKE = false) :=
  ⟨mat0, ⟨0, 0⟩, ⟨1, 3, 4, 5, 13, false⟩, ctxM, 32, 16 * 2 ^ 59, 16 * 2 ^ 59 + 2048, by decide +kernel⟩

theorem test_meets_MatrixUnitMultipliesLoadsAndStores_3 : ∃ (s : State) (c : At) (f : FmtX) (x : Ctx) (k a b : Nat),
    (s.ready c = some x) ∧
    (2 ≤ f.fmt.toNat ∧ f.fmt.toNat ≤ 8 ∧ (f.s = true → 4 ≤ f.fmt.toNat) ∨ f.fmt.toNat = 12 ∧ f.s = true) ∧
    (k = (x.sreg f.rk).toNat ∧ a = (x.sreg f.ra).toNat ∧ b = (x.sreg f.rb).toNat) ∧
    (k % 32 = 0 ∧ 32 ≤ k ∧ k ≤ 4096) ∧
    (oaHandle a = 16 ∧ oaHandle b = 16 ∧ a % 256 = 0 ∧ b % 256 = 0) ∧
    (oaOffset a + mmaBytes f.fmt.toNat k f.s ≤ x.tsSize ∧ oaOffset b + mmaBytes f.fmt.toNat k f.s ≤ x.tsSize) ∧
    (s.flag R.PWR_STAT_BRAKE = false) :=
  ⟨mat0, ⟨0, 0⟩, ⟨2, 3, 4, 5, 4, true⟩, ctxM, 32, 16 * 2 ^ 59, 16 * 2 ^ 59 + 2048, by decide +kernel⟩

theorem test_meets_MatrixUnitMultipliesLoadsAndStores_4 : ∃ (s : State) (c : At) (f : FmtX) (x : Ctx),
    (s.ready c = some x) ∧
    (mmaFmt f.fmt.toNat = true ∧ (f.s = true → mmaScaled f.fmt.toNat = true)) ∧
    (s.flag R.PWR_STAT_BRAKE = true) :=
  ⟨put mat0 [(R.PWR_STAT_BRAKE, 1)], ⟨0, 0⟩, ⟨1, 3, 4, 5, 12, false⟩, ctxM, by decide +kernel⟩

theorem test_meets_MatrixUnitMultipliesLoadsAndStores_5 : ∃ (s : State) (c : At) (f : FmtX) (x : Ctx),
    (s.ready c = some x) ∧
    (mmaFmt f.fmt.toNat = false ∨ f.s = true ∧ mmaScaled f.fmt.toNat = false) :=
  ⟨mat0, ⟨0, 0⟩, ⟨1, 3, 4, 5, 13, true⟩, ctxM, by decide +kernel⟩

theorem test_meets_MatrixUnitMultipliesLoadsAndStores_6 : ∃ (s : State) (c : At) (f : FmtX) (x : Ctx) (k a b : Nat),
    (s.ready c = some x) ∧
    (mmaFmt f.fmt.toNat = true ∧ (f.s = true → mmaScaled f.fmt.toNat = true)) ∧
    (k = (x.sreg f.rk).toNat ∧ a = (x.sreg f.ra).toNat ∧ b = (x.sreg f.rb).toNat) ∧
    (k % 32 = 0 ∧ 32 ≤ k ∧ k ≤ 4096) ∧
    (s.flag R.PWR_STAT_BRAKE = false) ∧
    (a % 256 ≠ 0) :=
  ⟨mat0, ⟨0, 0⟩, ⟨1, 5, 4, 5, 12, false⟩, ctxM, 32, 32, 16 * 2 ^ 59 + 2048, by decide +kernel⟩

theorem test_meets_MatrixUnitMultipliesLoadsAndStores_7 : ∃ (s : State) (c : At) (f : FmtX) (x : Ctx) (k a b : Nat),
    (s.ready c = some x) ∧
    (mmaFmt f.fmt.toNat = true ∧ (f.s = true → mmaScaled f.fmt.toNat = true)) ∧
    (k = (x.sreg f.rk).toNat ∧ a = (x.sreg f.ra).toNat ∧ b = (x.sreg f.rb).toNat) ∧
    (k % 32 = 0 ∧ 32 ≤ k ∧ k ≤ 4096) ∧
    (s.flag R.PWR_STAT_BRAKE = false) ∧
    (a % 256 = 0) ∧
    (oaHandle a ≠ 16 ∨ x.tsSize < oaOffset a + mmaBytes f.fmt.toNat k f.s) :=
  ⟨mat0, ⟨0, 0⟩, ⟨1, 6, 4, 5, 12, false⟩, ctxM, 32, 256, 16 * 2 ^ 59 + 2048, by decide +kernel⟩

theorem test_meets_MatrixUnitMultipliesLoadsAndStores_8 : ∃ (s : State) (c : At) (f : FmtX) (x : Ctx),
    (s.ready c = some x) ∧
    (f.ra = 0 ∧ f.rb = 0 ∧ f.rk = 0 ∧ f.fmt = 0 ∧ f.s = false) :=
  ⟨mat0, ⟨0, 0⟩, ⟨1, 0, 0, 0, 0, false⟩, ctxM, by decide +kernel⟩

theorem test_meets_MatrixUnitMultipliesLoadsAndStores_9 : ∃ (s : State) (c : At) (f : FmtX) (x : Ctx),
    (s.ready c = some x) ∧
    (f.ra ≠ 0 ∨ f.rb ≠ 0 ∨ f.rk ≠ 0 ∨ f.fmt ≠ 0 ∨ f.s = true) :=
  ⟨mat0, ⟨0, 0⟩, ⟨1, 3, 4, 5, 0, false⟩, ctxM, by decide +kernel⟩

theorem test_meets_MatrixUnitMultipliesLoadsAndStores_10 : ∃ (s : State) (c : At) (f : FmtX) (x : Ctx) (a : Nat),
    (s.ready c = some x) ∧
    (f.fmt = 1 ∨ f.fmt = 10) ∧
    (a = (x.sreg f.ra).toNat ∧ oaHandle a = 16 ∧ a % 256 = 0) ∧
    (oaOffset a + 4096 ≤ x.tsSize) :=
  ⟨mat0, ⟨0, 0⟩, ⟨1, 3, 4, 5, 10, false⟩, ctxM, 16 * 2 ^ 59, by decide +kernel⟩

theorem test_meets_MatrixUnitMultipliesLoadsAndStores_11 : ∃ (s : State) (c : At) (f : FmtX) (x : Ctx),
    (s.ready c = some x) ∧
    (f.fmt ≠ 1 ∧ f.fmt ≠ 10) :=
  ⟨mat0, ⟨0, 0⟩, ⟨1, 3, 4, 5, 2, false⟩, ctxM, by decide +kernel⟩

theorem test_meets_MatrixUnitMultipliesLoadsAndStores_12 : ∃ (s : State) (c : At) (f : FmtX) (x : Ctx) (a : Nat) (n : Nat),
    (s.ready c = some x) ∧
    (f.fmt.toNat ≤ 14 ∧ convAllowed (if (x.acc f.acc).isInt then 10 else 1) f.fmt.toNat = true) ∧
    (a = (x.sreg f.ra).toNat ∧ oaHandle a = 16 ∧ a % 256 = 0) ∧
    (n = 1024 * fmtWidth f.fmt.toNat / 8 ∧ oaOffset a + n ≤ x.tsSize) :=
  ⟨mat0, ⟨0, 0⟩, ⟨2, 3, 4, 5, 3, false⟩, ctxM, 16 * 2 ^ 59, 2048, by decide +kernel⟩

theorem test_meets_MatrixUnitMultipliesLoadsAndStores_13 : ∃ (s : State) (c : At) (f : FmtX) (x : Ctx),
    (s.ready c = some x) ∧
    (14 < f.fmt.toNat ∨ convAllowed (if (x.acc f.acc).isInt then 10 else 1) f.fmt.toNat = false) :=
  ⟨mat0, ⟨0, 0⟩, ⟨2, 3, 4, 5, 15, false⟩, ctxM, by decide +kernel⟩

theorem test_meets_MatrixUnitMultipliesLoadsAndStores_14 : ∃ (s : State) (c : At) (f : FmtX) (x : Ctx) (k a b : Nat),
    (s.ready c = some x) ∧
    (mmaFmt f.fmt.toNat = true ∧ (f.s = true → mmaScaled f.fmt.toNat = true)) ∧
    (k = (x.sreg f.rk).toNat ∧ a = (x.sreg f.ra).toNat ∧ b = (x.sreg f.rb).toNat) ∧
    (k % 32 = 0 ∧ 32 ≤ k ∧ k ≤ 4096) ∧
    (oaHandle a = 16 ∧ oaHandle b = 16 ∧ a % 256 = 0 ∧ b % 256 = 0) ∧
    (oaOffset a + mmaBytes f.fmt.toNat k f.s ≤ x.tsSize ∧ oaOffset b + mmaBytes f.fmt.toNat k f.s ≤ x.tsSize) ∧
    (s.flag R.PWR_STAT_BRAKE = false) :=
  ⟨mat0, ⟨0, 0⟩, ⟨1, 3, 4, 5, 12, false⟩, ctxM, 32, 16 * 2 ^ 59, 16 * 2 ^ 59 + 2048, by decide +kernel⟩

theorem test_meets_MatrixUnitMultipliesLoadsAndStores_15 : ∃ (s : State) (c : At) (f : FmtX) (x : Ctx) (k a b : Nat),
    (s.ready c = some x) ∧
    (mmaFmt f.fmt.toNat = true ∧ (f.s = true → mmaScaled f.fmt.toNat = true)) ∧
    (k = (x.sreg f.rk).toNat ∧ a = (x.sreg f.ra).toNat ∧ b = (x.sreg f.rb).toNat) ∧
    (k % 32 = 0 ∧ 32 ≤ k ∧ k ≤ 4096) ∧
    (a % 256 = 0 ∧ oaHandle a = 16 ∧ oaOffset a + mmaBytes f.fmt.toNat k f.s ≤ x.tsSize) ∧
    (s.flag R.PWR_STAT_BRAKE = false) ∧
    (b % 256 ≠ 0 ∨ oaHandle b ≠ 16 ∨ x.tsSize < oaOffset b + mmaBytes f.fmt.toNat k f.s) :=
  ⟨mat0, ⟨0, 0⟩, ⟨1, 3, 5, 5, 12, false⟩, ctxM, 32, 16 * 2 ^ 59, 32, by decide +kernel⟩

theorem test_meets_MatrixUnitMultipliesLoadsAndStores_16 : ∃ (s : State) (c : At) (f : FmtX) (x : Ctx) (e : Ecc),
    (s.ready c = some x) ∧
    (mmaFmt f.fmt.toNat = true ∧ (f.s = true → mmaScaled f.fmt.toNat = true)) ∧
    ((x.sreg f.rk).toNat % 32 ≠ 0 ∨ (x.sreg f.rk).toNat < 32 ∨ 4096 < (x.sreg f.rk).toNat) ∧
    (s.flag R.PWR_STAT_BRAKE = false) :=
  ⟨mat0, ⟨0, 0⟩, ⟨1, 3, 4, 0, 12, false⟩, ctxM, .none, by decide +kernel⟩

theorem test_meets_MatrixUnitMultipliesLoadsAndStores_17 : ∃ (s : State) (c : At) (f : FmtX) (x : Ctx) (a : Nat),
    (s.ready c = some x) ∧
    (f.fmt = 1 ∨ f.fmt = 10) ∧
    (a = (x.sreg f.ra).toNat ∧ oaHandle a = 16 ∧ a % 256 = 0) ∧
    (oaOffset a + 4096 ≤ x.tsSize) :=
  ⟨mat0, ⟨0, 0⟩, ⟨1, 3, 4, 5, 10, false⟩, ctxM, 16 * 2 ^ 59, by decide +kernel⟩

theorem test_meets_MatrixUnitMultipliesLoadsAndStores_18 : ∃ (s : State) (c : At) (f : FmtX) (x : Ctx) (a : Nat),
    (s.ready c = some x) ∧
    (f.fmt = 1 ∨ f.fmt = 10) ∧
    (a = (x.sreg f.ra).toNat ∧ oaHandle a = 16 ∧ a % 256 = 0) ∧
    (oaOffset a + 4096 ≤ x.tsSize) :=
  ⟨mat0, ⟨0, 0⟩, ⟨1, 3, 4, 5, 1, false⟩, ctxM, 16 * 2 ^ 59, by decide +kernel⟩

theorem test_meets_MatrixUnitMultipliesLoadsAndStores_19 : ∃ (s : State) (c : At) (f : FmtX) (x : Ctx) (a : Nat) (n : Nat),
    (s.ready c = some x) ∧
    (f.fmt.toNat ≤ 14 ∧ convAllowed (if (x.acc f.acc).isInt then 10 else 1) f.fmt.toNat = true) ∧
    (a = (x.sreg f.ra).toNat ∧ n = 1024 * fmtWidth f.fmt.toNat / 8) ∧
    (a % 256 ≠ 0 ∨ oaHandle a ≠ 16 ∨ x.tsSize < oaOffset a + n) :=
  ⟨mat0, ⟨0, 0⟩, ⟨2, 5, 4, 5, 3, false⟩, ctxM, 32, 2048, by decide +kernel⟩

theorem test_meets_MatrixUnitMultipliesLoadsAndStores_20 : ∃ (s : State) (c : At) (f : FmtX) (x : Ctx) (a : Nat),
    (s.ready c = some x) ∧
    (f.fmt = 1 ∨ f.fmt = 10) ∧
    (a = (x.sreg f.ra).toNat) ∧
    (a % 256 ≠ 0 ∨ oaHandle a ≠ 16 ∨ x.tsSize < oaOffset a + 4096) :=
  ⟨mat0, ⟨0, 0⟩, ⟨1, 6, 4, 5, 10, false⟩, ctxM, 256, by decide +kernel⟩

theorem test_meets_StreamPatternsAndRunAhead_1 : ∃ (s : State) (c : At) (f : FmtT) (x : Ctx) (a : Nat),
    (s.ready c = some x) ∧
    (f.reserved = 0) ∧
    (a = (x.sreg f.reg).toNat ∧ a % 64 = 0 ∧ oaHandle a = 16 ∧ oaOffset a + 64 ≤ x.tsSize) ∧
    (patOk (memRead (s.tile c.tile).store (x.tsBase + oaOffset a) 64) = true ∧ patKind (memRead (s.tile c.tile).store (x.tsBase + oaOffset a) 64) ≠ 3) :=
  ⟨strm0, ⟨0, 0⟩, ⟨3, 2, 0⟩, ctxP, 16 * 2 ^ 59 + 64, by decide +kernel⟩

theorem test_meets_StreamPatternsAndRunAhead_2 : ∃ (s : State) (c : At) (f : FmtT) (x : Ctx) (a : Nat),
    (s.ready c = some x) ∧
    (f.reserved = 0) ∧
    (a = (x.sreg f.reg).toNat ∧ a % 64 = 0 ∧ oaHandle a = 16 ∧ oaOffset a + 64 ≤ x.tsSize) ∧
    (patOk (memRead (s.tile c.tile).store (x.tsBase + oaOffset a) 64) = true ∧ patKind (memRead (s.tile c.tile).store (x.tsBase + oaOffset a) 64) = 3) ∧
    ((patIndex (memRead (s.tile c.tile).store (x.tsBase + oaOffset a) 64)) / 2 ^ 59 % 32 = 16 ∧ (patIndex (memRead (s.tile c.tile).store (x.tsBase + oaOffset a) 64)) % 2 ^ 59 + 4 * (patCount0 (memRead (s.tile c.tile).store (x.tsBase + oaOffset a) 64)) ≤ x.tsSize) :=
  ⟨strmI (16 * 2 ^ 59 + 300), ⟨0, 0⟩, ⟨3, 2, 0⟩, ctxP, 16 * 2 ^ 59 + 64, by decide +kernel⟩

theorem test_meets_StreamPatternsAndRunAhead_3 : ∃ (s : State) (c : At) (f : FmtT) (x : Ctx) (a : Nat),
    (s.ready c = some x) ∧
    (f.reserved = 0) ∧
    (a = (x.sreg f.reg).toNat ∧ a % 64 = 0 ∧ oaHandle a = 16 ∧ oaOffset a + 64 ≤ x.tsSize) ∧
    (patOk (memRead (s.tile c.tile).store (x.tsBase + oaOffset a) 64) = true ∧ patKind (memRead (s.tile c.tile).store (x.tsBase + oaOffset a) 64) = 3) ∧
    ((patIndex (memRead (s.tile c.tile).store (x.tsBase + oaOffset a) 64)) / 2 ^ 59 % 32 ≠ 16) :=
  ⟨strmI 64, ⟨0, 0⟩, ⟨3, 2, 0⟩, ctxP, 16 * 2 ^ 59 + 64, by decide +kernel⟩

theorem test_meets_StreamPatternsAndRunAhead_4 : ∃ (s : State) (c : At) (f : FmtT) (x : Ctx) (a : Nat),
    (s.ready c = some x) ∧
    (f.reserved = 0) ∧
    (a = (x.sreg f.reg).toNat ∧ a % 64 = 0 ∧ oaHandle a = 16 ∧ oaOffset a + 64 ≤ x.tsSize) ∧
    (patOk (memRead (s.tile c.tile).store (x.tsBase + oaOffset a) 64) = false) :=
  ⟨strm0, ⟨0, 0⟩, ⟨4, 2, 0⟩, ctxP, 16 * 2 ^ 59 + 128, by decide +kernel⟩

theorem test_meets_StreamPatternsAndRunAhead_5 : ∃ (s : State) (c : At) (f : FmtT) (x : Ctx),
    (s.ready c = some x) ∧
    (f.reserved = 0) ∧
    ((x.sreg f.reg).toNat % 64 ≠ 0) :=
  ⟨strm0, ⟨0, 0⟩, ⟨1, 2, 0⟩, ctxP, by decide +kernel⟩

theorem test_meets_StreamPatternsAndRunAhead_6 : ∃ (s : State) (c : At) (f : FmtT) (x : Ctx) (q : Pattern) (a n : Nat) (k : Clause),
    (s.ready c = some x) ∧
    (s.home.finished = []) ∧
    (f.reserved = 0) ∧
    (tget f.strm.toNat x.patterns = some q) ∧
    (q.left ≠ 0 ∧ q.needsIndices = false) ∧
    (n = min 8 q.left ∧ q.pieces 9 q.pos n = [(a, n)]) ∧
    (oaHandle a = 16 ∧ oaOffset a + n ≤ x.tsSize) ∧
    (Calm s) ∧
    (s.clauseAt x.clause = some k ∧ k.cancelled = false) :=
  ⟨strm0, ⟨0, 0⟩, ⟨7, 0, 0⟩, ctxP, pat0, 16 * 2 ^ 59 + 102, 2, kernA, by decide +kernel⟩

theorem test_meets_StreamPatternsAndRunAhead_7 : ∃ (s : State) (c : At) (f : FmtT) (x : Ctx) (q : Pattern) (a n : Nat) (p fpa : Nat) (k : Clause),
    (s.ready c = some x) ∧
    (s.home.finished = []) ∧
    (f.reserved = 0) ∧
    (tget f.strm.toNat x.patterns = some q) ∧
    (q.left ≠ 0 ∧ q.needsIndices = false) ∧
    (n = min 8 q.left ∧ q.pieces 9 q.pos n = [(a, n)]) ∧
    (oaHandle a < 16) ∧
    (s.reach x a n = .runs p [(fpa, n)]) ∧
    (s.entryBytes c f.strm.toNat fpa n = none) ∧
    (s.poisonedIn p 0 (x.fva a) [(fpa, n)] = false) ∧
    (s.localFpa fpa = none ∧ tget (fpa / 128) (s.tile c.tile).copies = none ∧ s.replicaOf (fpa / 128 * 128) = none) ∧
    (s.storesTo c x.clause [(fpa, n)] = false) ∧
    (MaySend s p fpa) ∧
    (fpa % 128 + n ≤ 128) ∧
    (s.clauseAt x.clause = some k ∧ k.cancelled = false) :=
  ⟨strm0, ⟨0, 0⟩, ⟨7, 1, 0⟩, ctxP, pat1, 2 ^ 59 + 128, 8, 1, 2 ^ 49 + near0 128, kernA, by decide +kernel⟩

theorem test_meets_StreamPatternsAndRunAhead_8 : ∃ (s : State) (c : At) (f : FmtT) (x : Ctx) (q : Pattern),
    (s.ready c = some x) ∧
    (s.home.finished = []) ∧
    ((s.clauseAt x.clause).map Clause.cancelled ≠ some true) ∧
    (f.reserved = 0) ∧
    (tget f.strm.toNat x.patterns = some q) ∧
    (q.left = 0) :=
  ⟨strm0, ⟨0, 0⟩, ⟨7, 3, 0⟩, ctxP, patE, by decide +kernel⟩

theorem test_meets_StreamPatternsAndRunAhead_9 : ∃ (s : State) (c : At) (f : FmtT) (x : Ctx) (q : Pattern) (a n : Nat) (k : Clause),
    (s.ready c = some x) ∧
    (s.home.finished = []) ∧
    (f.reserved = 0) ∧
    (tget f.strm.toNat x.patterns = some q) ∧
    (q.left ≠ 0 ∧ q.needsIndices = false) ∧
    (n = min 256 q.left ∧ q.pieces 257 q.pos n = [(a, n)]) ∧
    (f.reg.toNat < 32) ∧
    (oaHandle a = 16 ∧ oaOffset a + n ≤ x.tsSize) ∧
    (Calm s) ∧
    (s.clauseAt x.clause = some k ∧ k.cancelled = false) :=
  ⟨strm0, ⟨0, 0⟩, ⟨7, 0, 0⟩, ctxP, pat0, 16 * 2 ^ 59 + 102, 2, kernA, by decide +kernel⟩

theorem test_meets_StreamPatternsAndRunAhead_10 : ∃ (s : State) (c : At) (f : FmtT) (x : Ctx) (q : Pattern) (a n : Nat) (p fpa : Nat) (k : Clause),
    (s.ready c = some x) ∧
    (s.home.finished = []) ∧
    (f.reserved = 0) ∧
    (tget f.strm.toNat x.patterns = some q) ∧
    (q.left ≠ 0 ∧ q.needsIndices = false) ∧
    (n = min 256 q.left ∧ q.pieces 257 q.pos n = [(a, n)]) ∧
    (f.reg.toNat < 32) ∧
    (oaHandle a < 16) ∧
    (s.reach x a n = .runs p [(fpa, n)]) ∧
    (s.entryBytes c f.strm.toNat fpa n = none) ∧
    (s.poisonedIn p 0 (x.fva a) [(fpa, n)] = false) ∧
    (s.localFpa fpa = none ∧ tget (fpa / 128) (s.tile c.tile).copies = none ∧ s.replicaOf (fpa / 128 * 128) = none) ∧
    (s.storesTo c x.clause [(fpa, n)] = false) ∧
    (MaySend s p fpa) ∧
    (fpa % 128 + n ≤ 128) ∧
    (s.clauseAt x.clause = some k ∧ k.cancelled = false) :=
  ⟨strmQ, ⟨0, 0⟩, ⟨7, 1, 0⟩, ctxQ, patQ, 2 ^ 59 + 128, 96, 1, 2 ^ 49 + near0 128, kernA, by decide +kernel⟩

theorem test_meets_StreamPatternsAndRunAhead_11 : ∃ (s : State) (c : At) (f : FmtT) (x : Ctx) (q : Pattern),
    (s.ready c = some x) ∧
    (s.home.finished = []) ∧
    ((s.clauseAt x.clause).map Clause.cancelled ≠ some true) ∧
    (f.reserved = 0) ∧
    (tget f.strm.toNat x.patterns = some q) ∧
    (q.left = 0) ∧
    (f.reg.toNat < 32) :=
  ⟨strm0, ⟨0, 0⟩, ⟨7, 3, 0⟩, ctxP, patE, by decide +kernel⟩

theorem test_meets_StreamPatternsAndRunAhead_12 : ∃ (s : State) (c : At) (f : FmtT) (x : Ctx) (q : Pattern),
    (s.ready c = some x) ∧
    (f.reserved = 0) ∧
    (tget f.strm.toNat x.patterns = some q) ∧
    (q.left ≠ 0 ∧ q.needsIndices = false) ∧
    (s.home.finished = []) ∧
    ((s.clauseAt x.clause).map Clause.cancelled ≠ some true) ∧
    ((q.pieces (min (x.sreg f.reg).toNat q.left + 1) q.pos (min (x.sreg f.reg).toNat q.left)).all (fun o => x.reaches o.1 o.2) = true) :=
  ⟨strm0, ⟨0, 0⟩, ⟨1, 1, 0⟩, ctxP, pat1, by decide +kernel⟩

theorem test_meets_StreamPatternsAndRunAhead_13 : ∃ (s : State) (c : At) (f : FmtT) (x : Ctx) (q : Pattern),
    (s.ready c = some x) ∧
    (f.reserved = 0) ∧
    (tget f.strm.toNat x.patterns = some q) ∧
    (f.reg = 0) :=
  ⟨strm0, ⟨0, 0⟩, ⟨0, 1, 0⟩, ctxP, pat1, by decide +kernel⟩

theorem test_meets_StreamPatternsAndRunAhead_14 : ∃ (s : State) (c : At) (f : FmtT) (x : Ctx) (q : Pattern),
    (s.ready c = some x) ∧
    (f.reserved = 0) ∧
    (tget f.strm.toNat x.patterns = some q) :=
  ⟨strm0, ⟨0, 0⟩, ⟨9, 1, 0⟩, ctxP, pat1, by decide +kernel⟩

theorem test_meets_StreamPatternsAndRunAhead_15 : ∃ (s : State) (c : At) (f : FmtT) (x : Ctx),
    (s.ready c = some x) ∧
    (s.home.finished = []) ∧
    ((s.clauseAt x.clause).map Clause.cancelled ≠ some true) ∧
    (f.reserved = 0) ∧
    (tget f.strm.toNat x.patterns = none) ∧
    (f.reg = 0) :=
  ⟨strm0, ⟨0, 0⟩, ⟨0, 7, 0⟩, ctxP, by decide +kernel⟩

theorem test_meets_StreamPatternsAndRunAhead_16 : ∃ (s : State) (c : At) (f : FmtT) (x : Ctx),
    (s.ready c = some x) ∧
    (s.home.finished = []) ∧
    ((s.clauseAt x.clause).map Clause.cancelled ≠ some true) ∧
    (f.reserved = 0) ∧
    (tget f.strm.toNat x.patterns = none) ∧
    (f.reg = 0) :=
  ⟨strm0, ⟨0, 0⟩, ⟨0, 7, 0⟩, ctxP, by decide +kernel⟩

theorem test_meets_StreamPatternsAndRunAhead_17 : ∃ (s : State) (c : At) (f : FmtT) (x : Ctx),
    (s.ready c = some x) ∧
    (s.home.finished = []) ∧
    ((s.clauseAt x.clause).map Clause.cancelled ≠ some true) ∧
    (f.reserved = 0) ∧
    (tget f.strm.toNat x.patterns = none) ∧
    (f.reg = 0) :=
  ⟨strm0, ⟨0, 0⟩, ⟨0, 7, 0⟩, ctxP, by decide +kernel⟩

theorem test_meets_StreamPatternsAndRunAhead_18 : ∃ (s : State) (c : At) (f : FmtT) (x : Ctx),
    (s.ready c = some x) ∧
    (s.home.finished = []) ∧
    ((s.clauseAt x.clause).map Clause.cancelled ≠ some true) ∧
    (f.reserved = 0) ∧
    (tget f.strm.toNat x.patterns = none) ∧
    (f.reg = 0) :=
  ⟨strm0, ⟨0, 0⟩, ⟨0, 7, 0⟩, ctxP, by decide +kernel⟩

theorem test_meets_StreamPatternsAndRunAhead_19 : ∃ (s : State) (c : At) (f : FmtT) (x : Ctx),
    (s.ready c = some x) ∧
    (s.home.finished = []) ∧
    ((s.clauseAt x.clause).map Clause.cancelled ≠ some true) ∧
    (f.reserved = 0) ∧
    (tget f.strm.toNat x.patterns = none) ∧
    (f.reg = 0) :=
  ⟨strm0, ⟨0, 0⟩, ⟨0, 7, 0⟩, ctxP, by decide +kernel⟩

theorem test_meets_StreamPatternsAndRunAhead_20 : ∃ (s : State) (c : At) (f : FmtT) (x : Ctx),
    (s.ready c = some x) ∧
    (s.home.finished = []) ∧
    ((s.clauseAt x.clause).map Clause.cancelled ≠ some true) ∧
    (f.reserved ≠ 0) :=
  ⟨strm0, ⟨0, 0⟩, ⟨0, 7, 1⟩, ctxP, by decide +kernel⟩

theorem test_meets_StreamPatternsAndRunAhead_21 : ∃ (s : State) (c : At) (f : FmtT) (x : Ctx),
    (s.ready c = some x) ∧
    (s.home.finished = []) ∧
    ((s.clauseAt x.clause).map Clause.cancelled ≠ some true) ∧
    (f.reserved ≠ 0) :=
  ⟨strm0, ⟨0, 0⟩, ⟨0, 7, 1⟩, ctxP, by decide +kernel⟩

theorem test_meets_StreamPatternsAndRunAhead_22 : ∃ (s : State) (c : At) (f : FmtT) (x : Ctx),
    (s.ready c = some x) ∧
    (s.home.finished = []) ∧
    ((s.clauseAt x.clause).map Clause.cancelled ≠ some true) ∧
    (f.reserved ≠ 0) :=
  ⟨strm0, ⟨0, 0⟩, ⟨0, 7, 1⟩, ctxP, by decide +kernel⟩

theorem test_meets_StreamPatternsAndRunAhead_23 : ∃ (s : State) (c : At) (f : FmtT) (x : Ctx),
    (s.ready c = some x) ∧
    (s.home.finished = []) ∧
    ((s.clauseAt x.clause).map Clause.cancelled ≠ some true) ∧
    (f.reserved ≠ 0) :=
  ⟨strm0, ⟨0, 0⟩, ⟨0, 7, 1⟩, ctxP, by decide +kernel⟩

theorem test_meets_StreamPatternsAndRunAhead_24 : ∃ (s : State) (c : At) (f : FmtT) (x : Ctx),
    (s.ready c = some x) ∧
    (s.home.finished = []) ∧
    ((s.clauseAt x.clause).map Clause.cancelled ≠ some true) ∧
    (f.reserved ≠ 0) :=
  ⟨strm0, ⟨0, 0⟩, ⟨0, 7, 1⟩, ctxP, by decide +kernel⟩

theorem test_meets_StreamPatternsAndRunAhead_25 : ∃ (s : State) (c : At) (f : FmtT) (x : Ctx),
    (s.ready c = some x) ∧
    (s.home.finished = []) ∧
    ((s.clauseAt x.clause).map Clause.cancelled ≠ some true) ∧
    (f.reserved ≠ 0) :=
  ⟨strm0, ⟨0, 0⟩, ⟨0, 7, 1⟩, ctxP, by decide +kernel⟩

theorem test_meets_StreamPatternsAndRunAhead_26 : ∃ (s : State) (c : At) (f : FmtT) (x : Ctx) (q : Pattern) (a n : Nat),
    (s.ready c = some x) ∧
    (s.home.finished = []) ∧
    ((s.clauseAt x.clause).map Clause.cancelled ≠ some true) ∧
    (f.reserved = 0) ∧
    (tget f.strm.toNat x.patterns = some q) ∧
    (q.left ≠ 0 ∧ q.needsIndices = false) ∧
    (n = min (x.sreg f.reg).toNat q.left ∧ 0 < n ∧ q.pieces (n + 1) q.pos n = [(a, n)]) ∧
    (x.reaches a n = false) :=
  ⟨strm0, ⟨0, 0⟩, ⟨1, 2, 0⟩, ctxP, patX, 2 ^ 59 + 4100, 5, by decide +kernel⟩

theorem test_meets_StreamPatternsAndRunAhead_27 : ∃ (s : State) (c : At) (f : FmtT) (x : Ctx) (q : Pattern) (a n : Nat),
    (s.ready c = some x) ∧
    (s.home.finished = []) ∧
    ((s.clauseAt x.clause).map Clause.cancelled ≠ some true) ∧
    (f.reserved = 0) ∧
    (tget f.strm.toNat x.patterns = some q) ∧
    (q.left ≠ 0 ∧ q.needsIndices = false) ∧
    (n = min 8 q.left ∧ q.pieces 9 q.pos n = [(a, n)]) ∧
    (x.reaches a n = false) :=
  ⟨strm0, ⟨0, 0⟩, ⟨1, 2, 0⟩, ctxP, patX, 2 ^ 59 + 4100, 8, by decide +kernel⟩

theorem test_meets_StreamPatternsAndRunAhead_28 : ∃ (s : State) (c : At) (f : FmtT) (x : Ctx) (q : Pattern) (a n : Nat),
    (s.ready c = some x) ∧
    (s.home.finished = []) ∧
    ((s.clauseAt x.clause).map Clause.cancelled ≠ some true) ∧
    (f.reserved = 0) ∧
    (tget f.strm.toNat x.patterns = some q) ∧
    (q.left ≠ 0 ∧ q.needsIndices = false) ∧
    (n = min 256 q.left ∧ q.pieces 257 q.pos n = [(a, n)]) ∧
    (f.reg.toNat < 32) ∧
    (x.reaches a n = false) :=
  ⟨strm0, ⟨0, 0⟩, ⟨1, 2, 0⟩, ctxP, patX, 2 ^ 59 + 4100, 60, by decide +kernel⟩

theorem test_meets_StreamPatternsAndRunAhead_29 : ∃ (s : State) (c : At) (f : FmtT) (x : Ctx) (q : Pattern) (a n : Nat),
    (s.ready c = some x) ∧
    (s.home.finished = []) ∧
    ((s.clauseAt x.clause).map Clause.cancelled ≠ some true) ∧
    (f.reserved = 0) ∧
    (tget f.strm.toNat x.patterns = some q) ∧
    (q.left ≠ 0 ∧ q.needsIndices = false) ∧
    (n = min 8 q.left ∧ q.pieces 9 q.pos n = [(a, n)]) ∧
    (oaHandle a = 16 ∧ oaOffset a + n ≤ x.tsSize) :=
  ⟨strm0, ⟨0, 0⟩, ⟨7, 0, 0⟩, ctxP, pat0, 16 * 2 ^ 59 + 102, 2, by decide +kernel⟩

theorem test_meets_StreamPatternsAndRunAhead_30 : ∃ (s : State) (c : At) (f : FmtT) (x : Ctx) (a : Nat),
    (s.ready c = some x) ∧
    (f.reserved = 0) ∧
    (a = (x.sreg f.reg).toNat ∧ a % 64 = 0 ∧ oaHandle a = 16 ∧ oaOffset a + 64 ≤ x.tsSize) :=
  ⟨strm0, ⟨0, 0⟩, ⟨3, 2, 0⟩, ctxP, 16 * 2 ^ 59 + 64, by decide +kernel⟩

theorem test_meets_StreamPatternsAndRunAhead_31 : ∃ (s : State) (c : At) (f : FmtT) (x : Ctx) (a : Nat),
    (s.ready c = some x) ∧
    (f.reserved = 0) ∧
    (a = (x.sreg f.reg).toNat ∧ a % 64 = 0) ∧
    (oaHandle a ≠ 16 ∨ x.tsSize < oaOffset a + 64) :=
  ⟨strm0, ⟨0, 0⟩, ⟨0, 2, 0⟩, ctxP, 0, by decide +kernel⟩

theorem test_meets_StreamPatternsAndRunAhead_32 : ∃ (s : State) (c : At) (f : FmtT) (x : Ctx) (q : Pattern) (a n p fpa : Nat),
    (s.ready c = some x) ∧
    (s.home.finished = []) ∧
    ((s.clauseAt x.clause).map Clause.cancelled ≠ some true) ∧
    (f.reserved = 0) ∧
    (tget f.strm.toNat x.patterns = some q) ∧
    (q.left ≠ 0 ∧ q.needsIndices = false) ∧
    (n = min 8 q.left ∧ q.pieces 9 q.pos n = [(a, n)]) ∧
    (oaHandle a < 16) ∧
    (s.reach x a n = .runs p [(fpa, n)]) ∧
    (s.storesTo c x.clause [(fpa, n)] = true) :=
  ⟨strmS, ⟨0, 0⟩, ⟨7, 1, 0⟩, ctxP, pat1, 2 ^ 59 + 128, 8, 1, 2 ^ 49 + near0 128, by decide +kernel⟩

theorem test_meets_StreamPatternsAndRunAhead_33 : ∃ (s : State) (c : At) (st a n p fpa : Nat) (x : Ctx) (q : Pattern) (k : Clause),
    (s.live = true) ∧
    (s.home.finished = []) ∧
    (s.ctx c = some x) ∧
    (x.ordering = false) ∧
    (tget st x.patterns = some q ∧ q.needsIndices = false) ∧
    (max q.issued q.pos < patBytes q.desc) ∧
    (s.entryCount c (some st) < patDepth q.desc ∧ s.entryCount c none < 256 ∧ (s.tile c.tile).entries.length < 512) ∧
    (a = (q.runAddr (max q.issued q.pos / patRun q.desc) + max q.issued q.pos % patRun q.desc) % 2 ^ 64 ∧ oaHandle a < 16) ∧
    (n = min (min (patRun q.desc - max q.issued q.pos % patRun q.desc) (128 - x.fva a % 128)) (patBytes q.desc - max q.issued q.pos)) ∧
    (s.reach x a n = .runs p [(fpa, n)]) ∧
    (k.plain (x.fva a) n = true) ∧
    (s.poisonedIn p 0 (x.fva a) [(fpa, n)] = false) ∧
    (s.localFpa fpa = none ∧ s.localFpa (fpa / 128 * 128) = none ∧ tget (fpa / 128) (s.tile c.tile).copies = none ∧ s.replicaOf (fpa / 128 * 128) = none) ∧
    (MaySend s p (fpa / 128 * 128)) ∧
    (s.clauseAt x.clause = some k ∧ k.cancelled = false) ∧
    (x.mode ≠ .parked) :=
  ⟨strm0, ⟨0, 0⟩, 1, 2 ^ 59 + 128, 128, 1, 2 ^ 49 + near0 128, ctxP, pat1, kernA, by decide +kernel⟩

theorem test_meets_StreamPatternsAndRunAhead_34 : ∃ (s : State) (c : At) (st a n p fpa : Nat) (x : Ctx) (q : Pattern) (k : Clause),
    (s.live = true) ∧
    (s.home.finished = []) ∧
    (s.ctx c = some x) ∧
    (s.mayRunAhead c x st q = true) ∧
    (tget st x.patterns = some q ∧ q.needsIndices = true ∧ q.asked = none) ∧
    (a = patIndex q.desc ∧ oaHandle a < 16 ∧ n = 4 * patCount0 q.desc) ∧
    (s.reach x a n = .runs p [(fpa, n)]) ∧
    (k.plain (x.fva a) n = true) ∧
    (s.poisonedIn p 0 (x.fva a) [(fpa, n)] = false) ∧
    (s.replicaOf fpa = none) ∧
    (MaySend s p fpa) ∧
    (0 < n ∧ fpa % 4096 + n ≤ 4096) ∧
    (s.clauseAt x.clause = some k ∧ k.cancelled = false) ∧
    (x.mode ≠ .parked) :=
  ⟨strmK, ⟨0, 0⟩, 2, 2 ^ 59 + 128, 8, 1, 2 ^ 49 + near0 128, ctxK, patK, kernA, by decide +kernel⟩

theorem test_meets_StreamPatternsAndRunAhead_35 : ∃ (s : State) (c : At) (st : Nat) (x : Ctx) (q : Pattern),
    (s.live = true) ∧
    (s.home.finished = []) ∧
    (s.ctx c = some x) ∧
    (x.mode ≠ .parked) ∧
    ((s.clauseAt x.clause).map Clause.cancelled ≠ some true) ∧
    (tget st x.patterns = some q) ∧
    (x.ordering = true ∨ patBytes q.desc ≤ max q.issued q.pos ∨ patDepth q.desc ≤ s.entryCount c (some st) ∨ 256 ≤ s.entryCount c none ∨ 512 ≤ (s.tile c.tile).entries.length) :=
  ⟨strm0, ⟨0, 0⟩, 0, ctxP, pat0, by decide +kernel⟩

theorem test_meets_StreamPatternsAndRunAhead_36 : ∃ (s : State) (c : At) (st a n p fpa : Nat) (x : Ctx) (q : Pattern) (k : Clause),
    (s.live = true) ∧
    (s.home.finished = []) ∧
    (s.ctx c = some x) ∧
    (x.mode ≠ .parked) ∧
    (tget st x.patterns = some q ∧ q.needsIndices = false) ∧
    (a = (q.runAddr (max q.issued q.pos / patRun q.desc) + max q.issued q.pos % patRun q.desc) % 2 ^ 64 ∧ oaHandle a < 16) ∧
    (n = min (min (patRun q.desc - max q.issued q.pos % patRun q.desc) (128 - x.fva a % 128)) (patBytes q.desc - max q.issued q.pos)) ∧
    (s.reach x a n = .runs p [(fpa, n)]) ∧
    (s.clauseAt x.clause = some k ∧ k.cancelled = false) ∧
    (k.extents.any (fun e => e.side && decide (e.fva < x.fva a + n) && decide (x.fva a < e.fva + e.len)) = true) :=
  ⟨strmW, ⟨0, 0⟩, 1, 2 ^ 59 + 128, 128, 1, 2 ^ 49 + near0 128, ctxP, pat1, kernW, by decide +kernel⟩

theorem test_meets_CountersRegistersAndTheEndOfAContext_1 : ∃ (s : State) (c : At) (f : FmtC) (x : Ctx) (k : Clause) (n : Nat),
    (s.ready c = some x) ∧
    (s.home.finished = []) ∧
    (nameOk (x.sreg f.ra).toNat = true ∧ n = nameIndex (x.sreg f.ra).toNat) ∧
    (nameChip (x.sreg f.ra).toNat = s.chip ∧ s.ownsCounter k.partition n = true) ∧
    (Calm s) ∧
    (s.clauseAt x.clause = some k ∧ k.cancelled = false) :=
  ⟨ctr0, ⟨0, 0⟩, ⟨7, 3, 1, 1⟩, ctxC, kernA, 0, by decide +kernel⟩

theorem test_meets_CountersRegistersAndTheEndOfAContext_2 : ∃ (s : State) (c : At) (f : FmtC) (x : Ctx) (k : Clause) (n : Nat),
    (s.ready c = some x) ∧
    (s.home.finished = []) ∧
    (nameOk (x.sreg f.ra).toNat = true ∧ n = nameIndex (x.sreg f.ra).toNat) ∧
    (s.ownStores c x.clause = [] ∧ x.storeErr = .none) ∧
    (nameChip (x.sreg f.ra).toNat = s.chip ∧ s.ownsCounter k.partition n = true) ∧
    (Calm s) ∧
    (s.clauseAt x.clause = some k ∧ k.cancelled = false) :=
  ⟨ctr0, ⟨0, 0⟩, ⟨7, 3, 1, 1⟩, ctxC, kernA, 0, by decide +kernel⟩

theorem test_meets_CountersRegistersAndTheEndOfAContext_3 : ∃ (s : State) (c : At) (f : FmtC) (x : Ctx) (k : Clause) (n : Nat),
    (s.ready c = some x) ∧
    (s.home.finished = []) ∧
    (nameOk (x.sreg f.ra).toNat = true ∧ n = nameIndex (x.sreg f.ra).toNat) ∧
    (s.ownStores c x.clause = [] ∧ x.storeErr = .none) ∧
    (nameChip (x.sreg f.ra).toNat = s.chip ∧ s.ownsCounter k.partition n = true) ∧
    (Calm s) ∧
    (s.clauseAt x.clause = some k ∧ k.cancelled = false) :=
  ⟨ctr0, ⟨0, 0⟩, ⟨7, 3, 1, 1⟩, ctxC, kernA, 0, by decide +kernel⟩

theorem test_meets_CountersRegistersAndTheEndOfAContext_4 : ∃ (s : State) (c : At) (f : FmtC) (x : Ctx) (k : Clause) (n : Nat),
    (s.ready c = some x) ∧
    (s.home.finished = []) ∧
    (nameOk (x.sreg f.ra).toNat = true ∧ n = nameIndex (x.sreg f.ra).toNat) ∧
    (nameChip (x.sreg f.ra).toNat = s.chip ∧ s.ownsCounter k.partition n = true) ∧
    (Calm s) ∧
    (s.clauseAt x.clause = some k ∧ k.cancelled = false) ∧
    ((x.sreg f.rb).toNat ≤ s.counter n % 2 ^ 64) :=
  ⟨ctr0, ⟨0, 0⟩, ⟨7, 3, 1, 1⟩, ctxC, kernA, 0, by decide +kernel⟩

theorem test_meets_CountersRegistersAndTheEndOfAContext_5 : ∃ (s : State) (c : At) (f : FmtC) (x : Ctx) (k : Clause) (n : Nat),
    (s.ready c = some x) ∧
    (s.home.finished = []) ∧
    (nameOk (x.sreg f.ra).toNat = true ∧ n = nameIndex (x.sreg f.ra).toNat) ∧
    (nameChip (x.sreg f.ra).toNat = s.chip ∧ s.ownsCounter k.partition n = true) ∧
    (Calm s) ∧
    (s.clauseAt x.clause = some k ∧ k.cancelled = false) ∧
    (s.counter n % 2 ^ 64 < (x.sreg f.rb).toNat) :=
  ⟨ctr0, ⟨0, 0⟩, ⟨7, 3, 2, 1⟩, ctxC, kernA, 0, by decide +kernel⟩

theorem test_meets_CountersRegistersAndTheEndOfAContext_6 : ∃ (s : State) (c : At) (x : Ctx) (k : Clause) (name th n : Nat) (rd : BitVec 6),
    (s.live = true) ∧
    (s.home.finished = []) ∧
    (s.ctx c = some x ∧ x.mode = .ctrwait name th rd) ∧
    (n = nameIndex name ∧ nameChip name = s.chip ∧ s.ownsCounter k.partition n = true) ∧
    (Calm s) ∧
    (s.clauseAt x.clause = some k ∧ k.cancelled = false) ∧
    (th ≤ s.counter n % 2 ^ 64) :=
  ⟨ctrW { ctxC with mode := .ctrwait 0 3 7 }, ⟨0, 0⟩, { ctxC with mode := .ctrwait 0 3 7 }, kernA, 0, 3, 0, 7, by decide +kernel⟩

theorem test_meets_CountersRegistersAndTheEndOfAContext_7 : ∃ (s : State) (c : At) (f : FmtC) (x : Ctx) (k : Clause) (n : Nat),
    (s.ready c = some x) ∧
    (s.home.finished = []) ∧
    (nameOk (x.sreg f.ra).toNat = true ∧ n = nameIndex (x.sreg f.ra).toNat) ∧
    (nameChip (x.sreg f.ra).toNat ≠ s.chip ∧ n < 2 ^ 18) ∧
    (s.clauseAt x.clause = some k ∧ k.cancelled = false) ∧
    (MaySend s k.partition (counterFpa (nameChip (x.sreg f.ra).toNat) n)) :=
  ⟨ctr0, ⟨0, 0⟩, ⟨7, 4, 1, 1⟩, ctxC, kernA, 3, by decide +kernel⟩

theorem test_meets_CountersRegistersAndTheEndOfAContext_8 : ∃ (s : State) (c : At) (f : FmtC) (x : Ctx) (k : Clause) (n : Nat),
    (s.ready c = some x) ∧
    (s.home.finished = []) ∧
    (nameOk (x.sreg f.ra).toNat = true ∧ n = nameIndex (x.sreg f.ra).toNat) ∧
    (s.ownStores c x.clause = [] ∧ x.storeErr = .none) ∧
    (nameChip (x.sreg f.ra).toNat ≠ s.chip ∧ n < 2 ^ 18) ∧
    (s.clauseAt x.clause = some k ∧ k.cancelled = false) ∧
    (MaySend s k.partition (counterFpa (nameChip (x.sreg f.ra).toNat) n)) :=
  ⟨ctr0, ⟨0, 0⟩, ⟨7, 4, 1, 1⟩, ctxC, kernA, 3, by decide +kernel⟩

theorem test_meets_CountersRegistersAndTheEndOfAContext_9 : ∃ (s : State) (c : At) (f : FmtC) (x : Ctx) (k : Clause) (n : Nat),
    (s.ready c = some x) ∧
    (s.home.finished = []) ∧
    (nameOk (x.sreg f.ra).toNat = true ∧ n = nameIndex (x.sreg f.ra).toNat) ∧
    (s.ownStores c x.clause = [] ∧ x.storeErr = .none) ∧
    (nameChip (x.sreg f.ra).toNat ≠ s.chip ∧ n < 2 ^ 18) ∧
    (s.clauseAt x.clause = some k ∧ k.cancelled = false) ∧
    (MaySend s k.partition (counterFpa (nameChip (x.sreg f.ra).toNat) n)) :=
  ⟨ctr0, ⟨0, 0⟩, ⟨7, 4, 1, 1⟩, ctxC, kernA, 3, by decide +kernel⟩

theorem test_meets_CountersRegistersAndTheEndOfAContext_10 : ∃ (s : State) (c : At) (f : FmtC) (x : Ctx) (k : Clause) (n : Nat),
    (s.ready c = some x) ∧
    (s.home.finished = []) ∧
    (nameOk (x.sreg f.ra).toNat = true ∧ n = nameIndex (x.sreg f.ra).toNat) ∧
    (nameChip (x.sreg f.ra).toNat ≠ s.chip ∧ n < 2 ^ 18) ∧
    (s.clauseAt x.clause = some k ∧ k.cancelled = false) ∧
    (MaySend s k.partition (counterFpa (nameChip (x.sreg f.ra).toNat) n)) :=
  ⟨ctr0, ⟨0, 0⟩, ⟨7, 4, 1, 1⟩, ctxC, kernA, 3, by decide +kernel⟩

theorem test_meets_CountersRegistersAndTheEndOfAContext_11 : ∃ (s : State) (c : At) (f : FmtC) (x : Ctx),
    (s.ready c = some x) ∧
    (s.home.finished = []) ∧
    ((s.clauseAt x.clause).map Clause.cancelled ≠ some true) ∧
    (s.ownStores c x.clause = [] ∧ x.storeErr = .none) ∧
    (nameOk (x.sreg f.ra).toNat = false) :=
  ⟨ctr0, ⟨0, 0⟩, ⟨7, 5, 1, 1⟩, ctxC, by decide +kernel⟩

theorem test_meets_CountersRegistersAndTheEndOfAContext_12 : ∃ (s : State) (c : At) (f : FmtC) (x : Ctx),
    (s.ready c = some x) ∧
    (s.home.finished = []) ∧
    ((s.clauseAt x.clause).map Clause.cancelled ≠ some true) ∧
    (s.ownStores c x.clause = [] ∧ x.storeErr = .none) ∧
    (nameOk (x.sreg f.ra).toNat = false) :=
  ⟨ctr0, ⟨0, 0⟩, ⟨7, 5, 1, 1⟩, ctxC, by decide +kernel⟩

theorem test_meets_CountersRegistersAndTheEndOfAContext_13 : ∃ (s : State) (c : At) (f : FmtC) (x : Ctx),
    (s.ready c = some x) ∧
    (s.home.finished = []) ∧
    ((s.clauseAt x.clause).map Clause.cancelled ≠ some true) ∧
    (s.ownStores c x.clause = [] ∧ x.storeErr = .none) ∧
    (nameOk (x.sreg f.ra).toNat = false) :=
  ⟨ctr0, ⟨0, 0⟩, ⟨7, 5, 1, 1⟩, ctxC, by decide +kernel⟩

theorem test_meets_CountersRegistersAndTheEndOfAContext_14 : ∃ (s : State) (c : At) (f : FmtC) (x : Ctx),
    (s.ready c = some x) ∧
    (s.home.finished = []) ∧
    ((s.clauseAt x.clause).map Clause.cancelled ≠ some true) ∧
    (s.ownStores c x.clause = [] ∧ x.storeErr = .none) ∧
    (nameOk (x.sreg f.ra).toNat = false) :=
  ⟨ctr0, ⟨0, 0⟩, ⟨7, 5, 1, 1⟩, ctxC, by decide +kernel⟩

theorem test_meets_CountersRegistersAndTheEndOfAContext_15 : ∃ (s : State) (c : At) (x : Ctx) (name th : Nat) (rd : BitVec 6),
    (s.live = true) ∧
    (s.ctx c = some x ∧ x.mode = .ctrwait name th rd) :=
  ⟨ctrW { ctxC with mode := .ctrwait 0 9 7 }, ⟨0, 0⟩, { ctxC with mode := .ctrwait 0 9 7 }, 0, 9, 7, by decide +kernel⟩

theorem test_meets_CountersRegistersAndTheEndOfAContext_16 : ∃ (s : State) (c : At) (x : Ctx) (k : Clause),
    (s.live = true) ∧
    (s.ctx c = some x ∧ s.clauseAt x.clause = some k) ∧
    (fieldAt k.desc 44 4 ≠ 0) :=
  ⟨{ ctr0 with work := { ctr0.work with clauses := [(3, kernB)] } }, ⟨0, 0⟩, ctxC, kernB, by decide +kernel⟩

theorem test_meets_CountersRegistersAndTheEndOfAContext_17 : ∃ (s : State) (c : At) (f : FmtS) (x : Ctx) (k : Clause) (a q : Nat),
    (s.ready c = some x) ∧
    (s.home.finished = []) ∧
    (a = (x.sreg f.ra).toNat ∧ a % 64 = 0 ∧ oaHandle a = 16 ∧ oaOffset a + 64 ≤ x.tsSize) ∧
    (descExt (memRead (s.tile c.tile).store (x.tsBase + oaOffset a) 64) = false) ∧
    (s.ownStores c x.clause = [] ∧ x.storeErr = .none) ∧
    (s.clauseAt x.clause = some k ∧ k.cancelled = false) ∧
    (q = (x.sreg f.rb).toNat % 2 ^ 15) ∧
    (s.submitStatus k.partition q 1 ≠ .none) :=
  ⟨ctr0, ⟨0, 0⟩, ⟨7, 6, 4⟩, ctxC, kernA, 16 * 2 ^ 59 + 64, 3, by decide +kernel⟩

theorem test_meets_CountersRegistersAndTheEndOfAContext_18 : ∃ (s : State) (c : At) (f : FmtS) (x : Ctx) (k : Clause) (a q : Nat) (r : Queue) (fpa : Nat),
    (s.ready c = some x) ∧
    (s.home.finished = []) ∧
    (a = (x.sreg f.ra).toNat ∧ a % 64 = 0 ∧ oaHandle a = 16 ∧ oaOffset a + 64 ≤ x.tsSize) ∧
    (descExt (memRead (s.tile c.tile).store (x.tsBase + oaOffset a) 64) = false) ∧
    (s.ownStores c x.clause = [] ∧ x.storeErr = .none) ∧
    (s.clauseAt x.clause = some k ∧ k.cancelled = false) ∧
    (q = (x.sreg f.rb).toNat % 2 ^ 15) ∧
    (s.submitStatus k.partition q 1 = .none) ∧
    (tget q s.work.queues = some r) ∧
    ((s.xlate k.partition (r.slotFva (s.get (R.QPAGE_SQ_TAIL q))) 1).err = .none ∧ (s.xlate k.partition (r.slotFva (s.get (R.QPAGE_SQ_TAIL q))) 1).fpa = fpa) ∧
    (MaySend s k.partition fpa) ∧
    (k.partition < 4096) :=
  ⟨sub0, ⟨0, 0⟩, ⟨7, 6, 1⟩, ctxC, kernA, 16 * 2 ^ 59 + 64, 1, { queue0 with sqFva := fva6 }, 2 ^ 49 + near0 0, by decide +kernel⟩

theorem test_meets_CountersRegistersAndTheEndOfAContext_19 : ∃ (s : State) (c : At) (f : FmtS) (x : Ctx),
    (s.ready c = some x) ∧
    (s.home.finished = []) ∧
    ((s.clauseAt x.clause).map Clause.cancelled ≠ some true) ∧
    ((x.sreg f.ra).toNat % 64 ≠ 0) :=
  ⟨ctr0, ⟨0, 0⟩, ⟨7, 2, 4⟩, ctxC, by decide +kernel⟩

theorem test_meets_CountersRegistersAndTheEndOfAContext_20 : ∃ (s : State) (c : At) (f : FmtI) (x : Ctx),
    (s.ready c = some x) ∧
    (f.ra = 0 ∧ f.imm.toNat < 256) :=
  ⟨ctr0, ⟨0, 0⟩, ⟨7, 0, 31⟩, ctxC, by decide +kernel⟩

theorem test_meets_CountersRegistersAndTheEndOfAContext_21 : ∃ (s : State) (c : At) (f : FmtI) (x : Ctx),
    (s.ready c = some x) ∧
    (f.ra ≠ 0) :=
  ⟨ctr0, ⟨0, 0⟩, ⟨7, 1, 31⟩, ctxC, by decide +kernel⟩

theorem test_meets_CountersRegistersAndTheEndOfAContext_22 : ∃ (s : State) (c : At) (f : FmtI) (x : Ctx),
    (s.ready c = some x) ∧
    (f.ra ≠ 0) :=
  ⟨ctr0, ⟨0, 0⟩, ⟨7, 1, 31⟩, ctxC, by decide +kernel⟩

theorem test_meets_CountersRegistersAndTheEndOfAContext_23 : ∃ (s : State) (c : At) (f : FmtI) (x : Ctx) (k : Clause) (v : Nat),
    (s.ready c = some x) ∧
    (f.ra = 0) ∧
    (s.clauseAt x.clause = some k) ∧
    ((f.imm.toNat, v) ∈ [(0, c.tile * 256 + c.ctx), (1, s.chip), (2, k.partition), (3, x.rmode), (4, x.fflags), (5, x.seed), (6, s.tick), (7, x.waitLimit), (8, x.tsSize)] ∨ 16 ≤ f.imm.toNat ∧ f.imm.toNat < 32 ∧ v = ((tget (f.imm.toNat - 16) x.ops).map (fun o => o.2.1)).getD 0 ∨ 32 ≤ f.imm.toNat ∧ f.imm.toNat < 40 ∧ v = fieldAt k.desc (64 + 8 * (f.imm.toNat - 32)) 8) :=
  ⟨ctr0, ⟨0, 0⟩, ⟨7, 0, 17⟩, ctxC, kernA, 4096, by decide +kernel⟩

theorem test_meets_CountersRegistersAndTheEndOfAContext_24 : ∃ (s : State) (c : At) (f : FmtI) (x : Ctx),
    (s.ready c = some x) ∧
    (f.ra = 0) ∧
    (9 ≤ f.imm.toNat ∧ f.imm.toNat < 16 ∨ 40 ≤ f.imm.toNat) :=
  ⟨ctr0, ⟨0, 0⟩, ⟨7, 0, 40⟩, ctxC, by decide +kernel⟩

theorem test_meets_CountersRegistersAndTheEndOfAContext_25 : ∃ (s : State) (c : At) (f : FmtI) (x : Ctx),
    (s.ready c = some x) ∧
    (f.rd = 0 ∧ f.imm.toNat = 3) :=
  ⟨ctr0, ⟨0, 0⟩, ⟨0, 2, 3⟩, ctxC, by decide +kernel⟩

theorem test_meets_CountersRegistersAndTheEndOfAContext_26 : ∃ (s : State) (c : At) (f : FmtI) (x : Ctx),
    (s.ready c = some x) ∧
    (f.rd = 0 ∧ f.imm.toNat = 4) :=
  ⟨ctr0, ⟨0, 0⟩, ⟨0, 2, 4⟩, ctxC, by decide +kernel⟩

theorem test_meets_CountersRegistersAndTheEndOfAContext_27 : ∃ (s : State) (c : At) (f : FmtI) (x : Ctx),
    (s.ready c = some x) ∧
    (f.rd = 0 ∧ f.imm.toNat = 5) :=
  ⟨ctr0, ⟨0, 0⟩, ⟨0, 2, 5⟩, ctxC, by decide +kernel⟩

theorem test_meets_CountersRegistersAndTheEndOfAContext_28 : ∃ (s : State) (c : At) (f : FmtI) (x : Ctx),
    (s.ready c = some x) ∧
    (f.rd = 0 ∧ f.imm.toNat = 7) :=
  ⟨ctr0, ⟨0, 0⟩, ⟨0, 2, 7⟩, ctxC, by decide +kernel⟩

theorem test_meets_CountersRegistersAndTheEndOfAContext_29 : ∃ (s : State) (c : At) (f : FmtI) (x : Ctx),
    (s.ready c = some x) ∧
    (f.rd ≠ 0 ∨ f.imm.toNat ∉ [3, 4, 5, 7]) :=
  ⟨ctr0, ⟨0, 0⟩, ⟨0, 2, 6⟩, ctxC, by decide +kernel⟩

theorem test_meets_CountersRegistersAndTheEndOfAContext_30 : ∃ (s : State) (c : At) (f : FmtS) (x : Ctx) (k : Clause),
    (s.ready c = some x) ∧
    (s.ownStores c x.clause = [] ∧ x.storeErr = .none) ∧
    (s.clauseAt x.clause = some k ∧ k.ending = none) :=
  ⟨ctr0, ⟨0, 0⟩, ⟨0, 2, 0⟩, ctxC, kernA, by decide +kernel⟩

theorem test_meets_CountersRegistersAndTheEndOfAContext_31 : ∃ (s : State) (c : At) (f : FmtS) (x : Ctx),
    (s.ready c = some x) ∧
    (s.ownStores c x.clause ≠ []) :=
  ⟨ctrS ctxC, ⟨0, 0⟩, ⟨0, 2, 0⟩, ctxC, by decide +kernel⟩

theorem test_meets_CountersRegistersAndTheEndOfAContext_32 : ∃ (s : State) (c : At) (f : FmtS) (x : Ctx),
    (s.ready c = some x) ∧
    (s.ownStores c x.clause = [] ∧ x.storeErr ≠ .none) :=
  ⟨ctrW { ctxC with storeErr := .poison }, ⟨0, 0⟩, ⟨0, 2, 0⟩, { ctxC with storeErr := .poison }, by decide +kernel⟩

theorem test_meets_CountersRegistersAndTheEndOfAContext_33 : ∃ (s : State) (c : At) (f : FmtC) (x : Ctx),
    (s.ready c = some x) ∧
    (s.home.finished = []) ∧
    ((s.clauseAt x.clause).map Clause.cancelled ≠ some true) ∧
    (s.ownStores c x.clause ≠ []) :=
  ⟨ctrS ctxC, ⟨0, 0⟩, ⟨7, 3, 1, 1⟩, ctxC, by decide +kernel⟩

theorem test_meets_CountersRegistersAndTheEndOfAContext_34 : ∃ (s : State) (c : At) (f : FmtC) (x : Ctx),
    (s.ready c = some x) ∧
    (s.home.finished = []) ∧
    ((s.clauseAt x.clause).map Clause.cancelled ≠ some true) ∧
    (s.ownStores c x.clause ≠ []) :=
  ⟨ctrS ctxC, ⟨0, 0⟩, ⟨7, 3, 1, 1⟩, ctxC, by decide +kernel⟩

theorem test_meets_CountersRegistersAndTheEndOfAContext_35 : ∃ (s : State) (c : At) (f : FmtC) (x : Ctx),
    (s.ready c = some x) ∧
    (s.home.finished = []) ∧
    ((s.clauseAt x.clause).map Clause.cancelled ≠ some true) ∧
    (s.ownStores c x.clause = [] ∧ x.storeErr ≠ .none) :=
  ⟨ctrW { ctxC with storeErr := .poison }, ⟨0, 0⟩, ⟨7, 3, 1, 1⟩, { ctxC with storeErr := .poison }, by decide +kernel⟩

theorem test_meets_CountersRegistersAndTheEndOfAContext_36 : ∃ (s : State) (c : At) (f : FmtC) (x : Ctx),
    (s.ready c = some x) ∧
    (s.home.finished = []) ∧
    ((s.clauseAt x.clause).map Clause.cancelled ≠ some true) ∧
    (s.ownStores c x.clause = [] ∧ x.storeErr ≠ .none) :=
  ⟨ctrW { ctxC with storeErr := .poison }, ⟨0, 0⟩, ⟨7, 3, 1, 1⟩, { ctxC with storeErr := .poison }, by decide +kernel⟩

theorem test_meets_CountersRegistersAndTheEndOfAContext_37 : ∃ (s : State) (c : At) (f : FmtS) (x : Ctx) (a : Nat),
    (s.ready c = some x) ∧
    (s.home.finished = []) ∧
    ((s.clauseAt x.clause).map Clause.cancelled ≠ some true) ∧
    (a = (x.sreg f.ra).toNat ∧ a % 64 = 0 ∧ oaHandle a = 16 ∧ oaOffset a + 64 ≤ x.tsSize) ∧
    (s.ownStores c x.clause = [] ∧ x.storeErr = .none) :=
  ⟨ctr0, ⟨0, 0⟩, ⟨7, 6, 4⟩, ctxC, 16 * 2 ^ 59 + 64, by decide +kernel⟩

theorem test_meets_CountersRegistersAndTheEndOfAContext_38 : ∃ (s : State) (c : At) (f : FmtS) (x : Ctx) (a : Nat),
    (s.ready c = some x) ∧
    (s.home.finished = []) ∧
    ((s.clauseAt x.clause).map Clause.cancelled ≠ some true) ∧
    (a = (x.sreg f.ra).toNat ∧ a % 64 = 0) ∧
    (oaHandle a ≠ 16 ∨ x.tsSize < oaOffset a + 64) :=
  ⟨ctr0, ⟨0, 0⟩, ⟨7, 0, 4⟩, ctxC, 0, by decide +kernel⟩

theorem test_meets_CountersRegistersAndTheEndOfAContext_39 : ∃ (s : State) (c : At) (f : FmtS) (x : Ctx) (k : Clause) (a q : Nat) (r : Queue) (fpa : Nat),
    (s.ready c = some x) ∧
    (Calm s) ∧
    (a = (x.sreg f.ra).toNat ∧ a % 64 = 0 ∧ oaHandle a = 16 ∧ oaOffset a + 64 ≤ x.tsSize) ∧
    (descExt (memRead (s.tile c.tile).store (x.tsBase + oaOffset a) 64) = false) ∧
    (s.ownStores c x.clause = [] ∧ x.storeErr = .none) ∧
    (s.clauseAt x.clause = some k ∧ k.cancelled = false) ∧
    (q = (x.sreg f.rb).toNat % 2 ^ 15) ∧
    (s.submitStatus k.partition q 1 = .none) ∧
    (tget q s.work.queues = some r) ∧
    ((s.xlate k.partition (r.slotFva (s.get (R.QPAGE_SQ_TAIL q))) 1).err = .none ∧ (s.xlate k.partition (r.slotFva (s.get (R.QPAGE_SQ_TAIL q))) 1).fpa = fpa) ∧
    (Reached s k.partition fpa) ∧
    (Intact s fpa 64) ∧
    (s.hasCopies fpa 64 = false ∧ (linesOf fpa 64).all (s.lineClear true) = true ∧ s.home.ops = []) ∧
    (k.partition < 4096) :=
  ⟨subL, ⟨0, 0⟩, ⟨7, 6, 1⟩, ctxC, kernA, 16 * 2 ^ 59 + 64, 1, { queue0 with sqFva := fva5 }, near0 0, by decide +kernel⟩

theorem test_meets_CountersRegistersAndTheEndOfAContext_40 : ∃ (s : State) (c : At) (f : FmtS) (x : Ctx) (k : Clause) (a q : Nat) (r : Queue) (fpa : Nat),
    (s.ready c = some x) ∧
    (s.home.finished = []) ∧
    (a = (x.sreg f.ra).toNat ∧ a % 64 = 0 ∧ oaHandle a = 16 ∧ oaOffset a + 128 ≤ x.tsSize) ∧
    (descExt (memRead (s.tile c.tile).store (x.tsBase + oaOffset a) 64) = true) ∧
    (s.ownStores c x.clause = [] ∧ x.storeErr = .none) ∧
    (s.clauseAt x.clause = some k ∧ k.cancelled = false) ∧
    (q = (x.sreg f.rb).toNat % 2 ^ 15) ∧
    (s.submitStatus k.partition q 2 = .none) ∧
    (tget q s.work.queues = some r) ∧
    ((s.xlate k.partition (r.slotFva (s.get (R.QPAGE_SQ_TAIL q))) 1).err = .none ∧ (s.xlate k.partition (r.slotFva (s.get (R.QPAGE_SQ_TAIL q))) 1).fpa = fpa) ∧
    (MaySend s k.partition fpa) ∧
    (k.partition < 4096) :=
  ⟨{ sub0 with home := { sub0.home with tiles := [(0, { Tile.empty with ctxs := [(0, ctxC)], store := [(65, 1#8)] })] } }, ⟨0, 0⟩, ⟨7, 6, 1⟩, ctxC, kernA, 16 * 2 ^ 59 + 64, 1, { queue0 with sqFva := fva6 }, 2 ^ 49 + near0 0, by decide +kernel⟩

theorem test_meets_CountersRegistersAndTheEndOfAContext_41 : ∃ (s : State) (c : At) (f : FmtC) (x : Ctx) (k : Clause),
    (s.ready c = some x) ∧
    (Calm s) ∧
    (s.ownStores c x.clause = [] ∧ x.storeErr = .none) ∧
    (nameOk (x.sreg f.ra).toNat = true ∧ nameChip (x.sreg f.ra).toNat = s.chip) ∧
    (s.clauseAt x.clause = some k ∧ k.cancelled = false ∧ s.ownsCounter k.partition (nameIndex (x.sreg f.ra).toNat) = false) :=
  ⟨ctrW { ctxC with s := [(3, 9)] }, ⟨0, 0⟩, ⟨7, 3, 1, 1⟩, { ctxC with s := [(3, 9)] }, kernA, by decide +kernel⟩

theorem test_meets_CountersRegistersAndTheEndOfAContext_42 : ∃ (s : State) (c : At) (f : FmtC) (x : Ctx) (k : Clause),
    (s.ready c = some x) ∧
    (Calm s) ∧
    (s.ownStores c x.clause = [] ∧ x.storeErr = .none) ∧
    (nameOk (x.sreg f.ra).toNat = true ∧ nameChip (x.sreg f.ra).toNat = s.chip) ∧
    (s.clauseAt x.clause = some k ∧ k.cancelled = false ∧ s.ownsCounter k.partition (nameIndex (x.sreg f.ra).toNat) = false) :=
  ⟨ctrW { ctxC with s := [(3, 9)] }, ⟨0, 0⟩, ⟨7, 3, 1, 1⟩, { ctxC with s := [(3, 9)] }, kernA, by decide +kernel⟩

theorem test_meets_CountersRegistersAndTheEndOfAContext_43 : ∃ (s : State) (c : At) (f : FmtC) (x : Ctx) (k : Clause),
    (s.ready c = some x) ∧
    (Calm s) ∧
    (s.ownStores c x.clause = [] ∧ x.storeErr = .none) ∧
    (nameOk (x.sreg f.ra).toNat = true ∧ nameChip (x.sreg f.ra).toNat = s.chip) ∧
    (s.clauseAt x.clause = some k ∧ k.cancelled = false ∧ s.ownsCounter k.partition (nameIndex (x.sreg f.ra).toNat) = false) :=
  ⟨ctrW { ctxC with s := [(3, 9)] }, ⟨0, 0⟩, ⟨7, 3, 1, 1⟩, { ctxC with s := [(3, 9)] }, kernA, by decide +kernel⟩

theorem test_meets_CountersRegistersAndTheEndOfAContext_44 : ∃ (s : State) (c : At) (f : FmtC) (x : Ctx) (k : Clause),
    (s.ready c = some x) ∧
    (Calm s) ∧
    (s.ownStores c x.clause = [] ∧ x.storeErr = .none) ∧
    (nameOk (x.sreg f.ra).toNat = true ∧ nameChip (x.sreg f.ra).toNat = s.chip) ∧
    (s.clauseAt x.clause = some k ∧ k.cancelled = false ∧ s.ownsCounter k.partition (nameIndex (x.sreg f.ra).toNat) = false) :=
  ⟨ctrW { ctxC with s := [(3, 9)] }, ⟨0, 0⟩, ⟨7, 3, 1, 1⟩, { ctxC with s := [(3, 9)] }, kernA, by decide +kernel⟩

theorem test_meets_StepRunsTheFrontCommand_1 : ∃ (c : Instr) (s : State) (q : List Instr),
    (s.pending = c :: q) :=
  ⟨.coolOkDeassert, { running with pending := [.coolOkDeassert] }, [], rfl⟩

theorem test_meets_StepRunsTheFrontCommand_2 : ∃ (s : State),
    (s.pending = []) :=
  ⟨running, rfl⟩

theorem test_meets_EveryStepKeepsTheInvariant_1 : ∃ (s t : State),
    (s.Inv) ∧
    (step s = .next t) :=
  ⟨State.reset, State.reset, (by simp [State.Inv]; decide), rfl⟩

theorem test_meets_MemoryIsItsBytes_1 : ∃ (m n : Tbl Byte),
    (Memory.wf m = true) ∧
    (Memory.wf n = true) ∧
    (∀ a : Nat, memGet m a = memGet n a) :=
  ⟨[], [], rfl, rfl, fun _ => rfl⟩

theorem test_meets_MemoryIsItsBytes_2 : ∃ (m : Tbl Byte) (a k : Nat),
    (Memory.wf m = true) :=
  ⟨[(3, 7#8), (5, 9#8)], 2, 4, by decide +kernel⟩

theorem test_meets_MemoryIsItsBytes_3 : ∃ (m : Tbl Byte) (a b : Nat) (x y : List Byte),
    (Memory.wf m = true) ∧
    (a + x.length ≤ b) :=
  ⟨[(3, 7#8), (5, 9#8)], 2, 4, [0#8, 1#8], [2#8], by decide +kernel⟩

theorem test_meets_ArticlesRoundTrip_1 : ∃ (a : Article),
    (a.dest < 2 ^ 64 ∧ a.opcode < 2 ^ 8 ∧ a.flags < 2 ^ 8 ∧ a.partition < 2 ^ 12 ∧ a.vc < 2 ^ 3 ∧ a.tense < 2 ^ 8 ∧ a.tc < 2 ^ 3 ∧ a.plane < 2 ^ 5 ∧ a.length < 2 ^ 13) ∧
    (a.srcChip < 2 ^ 15 ∧ a.srcUnit < 2 ^ 6 ∧ a.line < 2 ^ 6 ∧ a.lseq < 2 ^ 24 ∧ a.tag < 2 ^ 17 ∧ a.aux < 2 ^ 32 ∧ a.hcrc < 2 ^ 16) :=
  ⟨art0 1 16 1, by decide +kernel⟩

theorem test_meets_ArticlesRoundTrip_2 : ∃ (bs : List Byte),
    (bs.length = 32) ∧
    (bits (leNat bs) 95 95 = 0 ∧ bits (leNat bs) 127 125 = 0 ∧ bits (leNat bs) 143 143 = 0 ∧ bits (leNat bs) 151 150 = 0 ∧ bits (leNat bs) 159 158 = 0 ∧ bits (leNat bs) 207 201 = 0) :=
  ⟨articleBytes (art0 1 16 1), by decide +kernel⟩

theorem test_meets_ScaleCodesConvert_1 : ∃ (mode r e : Nat),
    (e < 255) :=
  ⟨2, 9, 0, by decide +kernel⟩

theorem test_meets_ScaleCodesConvert_2 : ∃ (mode r n : Nat),
    (n < 2 ^ 32) :=
  ⟨2, 9, 2147483649, by decide +kernel⟩

theorem test_meets_NanScalesReachMatrixResults_2 : ∃ (s : State) (c : At) (f : FmtX) (x : Ctx) (k a b i g : Nat),
    (s.ready c = some x) ∧
    (f.s = true ∧ mmaScaled f.fmt.toNat = true) ∧
    (k = (x.sreg f.rk).toNat ∧ a = (x.sreg f.ra).toNat ∧ b = (x.sreg f.rb).toNat) ∧
    (k % 32 = 0 ∧ 32 ≤ k ∧ k ≤ 4096) ∧
    (a / 2 ^ 59 = 16 ∧ b / 2 ^ 59 = 16 ∧ a % 256 = 0 ∧ b % 256 = 0) ∧
    (a % 2 ^ 59 + mmaBytes f.fmt.toNat k true ≤ x.tsSize ∧ b % 2 ^ 59 + mmaBytes f.fmt.toNat k true ≤ x.tsSize) ∧
    (s.flag R.PWR_STAT_BRAKE = false) ∧
    (i < 32 ∧ g < k / 32 ∧ memGet (s.tile c.tile).store (x.tsBase + a % 2 ^ 59 + 32 * k * fmtWidth f.fmt.toNat / 8 + i * (k / 32) + g) = 255#8) :=
  ⟨matN, ⟨0, 0⟩, ⟨2, 3, 4, 5, 4, true⟩, ctxM, 32, 16 * 2 ^ 59, 16 * 2 ^ 59 + 2048, 5, 0, by decide +kernel⟩

theorem test_meets_NanScalesReachMatrixResults_3 : ∃ (s : State) (c : At) (f : FmtX) (x : Ctx) (k a b j g : Nat),
    (s.ready c = some x) ∧
    (f.s = true ∧ mmaScaled f.fmt.toNat = true) ∧
    (k = (x.sreg f.rk).toNat ∧ a = (x.sreg f.ra).toNat ∧ b = (x.sreg f.rb).toNat) ∧
    (k % 32 = 0 ∧ 32 ≤ k ∧ k ≤ 4096) ∧
    (a / 2 ^ 59 = 16 ∧ b / 2 ^ 59 = 16 ∧ a % 256 = 0 ∧ b % 256 = 0) ∧
    (a % 2 ^ 59 + mmaBytes f.fmt.toNat k true ≤ x.tsSize ∧ b % 2 ^ 59 + mmaBytes f.fmt.toNat k true ≤ x.tsSize) ∧
    (s.flag R.PWR_STAT_BRAKE = false) ∧
    (j < 32 ∧ g < k / 32 ∧ memGet (s.tile c.tile).store (x.tsBase + b % 2 ^ 59 + 32 * k * fmtWidth f.fmt.toNat / 8 + g * 32 + j) = 255#8) :=
  ⟨matN, ⟨0, 0⟩, ⟨2, 3, 4, 5, 4, true⟩, ctxM, 32, 16 * 2 ^ 59, 16 * 2 ^ 59 + 2048, 7, 0, by decide +kernel⟩

theorem test_meets_FullSetsRefuseInstalls_1 : ∃ (s : State) (h : Hdr) (b : MapInstall) (set : Nat),
    (Taken s h 0x20 (fun x => mapInstallOf x == b)) ∧
    (h.length = 16) ∧
    (mapFormat b = false) ∧
    (b.partition < 4096 ∧ b.page < 2 ^ 31) ∧
    (s.partErr b.partition = .none) ∧
    (s.pmFind b.partition b.page = none) ∧
    (s.xlat.installs.find? (fun i => i.body.partition == b.partition && i.body.page == b.page) = none) ∧
    (set = Nat.xor (Nat.xor (b.page % 2 ^ 18) (b.page / 2 ^ 18 * 2 ^ 5)) (b.partition * 2 ^ 6)) ∧
    (∀ w < 16, (tget (set * 16 + w) s.xlat.pageMap).isSome = true) :=
  ⟨asked fullSet 0x20 (leBytes 8 (37 + 7 * 2 ^ 16 + 0x91a2b * 2 ^ 32) ++ leBytes 8 (near0 0 - 2 ^ 21)), h0 16, { install0 0x91a2b 0 (near0 0 - 2 ^ 21) with partition := 37 }, 70443, by decide +kernel⟩

theorem test_meets_WindowRangesDoNotOverlap_1 : ∃ (s : State) (h : Hdr) (b : PartCreate) (p w : Nat),
    (Taken s h 0x10 (fun x => partCreateOf x == b)) ∧
    (h.length = 64) ∧
    (partFormat b = false ∧ s.partBounds b = false) ∧
    (s.get (R.PART_STATE_STATE b.partition) = 0) ∧
    (b.winFirst ≤ w ∧ w < b.winFirst + b.winCount) ∧
    (65535 < w ∨ s.get (R.PART_STATE_STATE p) ≠ 0 ∧ p ∈ tkeys s.security.parts ∧ s.get (R.PART_WINDOWS_WIN_FIRST p) ≤ w ∧ w < s.get (R.PART_WINDOWS_WIN_FIRST p) + s.get (R.PART_WINDOWS_WIN_COUNT p)) :=
  ⟨asked (put (parted 1) [(R.PART_WINDOWS_WIN_FIRST 1, 5), (R.PART_WINDOWS_WIN_COUNT 1, 3)]) 0x10 (partBytes part0), h0 64, part0, 1, 5, by decide +kernel⟩


/-! ### WellFormed refuses ill-formed terms: one for each check -/

def okAt : At := ⟨0, 0⟩
def okHome : HomeReq := ⟨0, 0, 0, 0, 0, 0, false⟩
def okDir : DirMsg := ⟨0, 0, 0, 0, 0, 0, 0, 0, 0⟩
def okTag : CollTag := ⟨0, 0, 0, 0, 0, 0, 0⟩
def okCtl : LinkCtl := ⟨0, 0, 0, 1, 0, 0, 0, 0, 0⟩

theorem test_wf_straps : (Instr.porNRelease { straps0 with mode := 8 } fuses0 flash0).wf = false := by decide +kernel
theorem test_wf_celsius : (Instr.junctionBrakeTemperature 256).wf = false := by decide
theorem test_wf_watts : (Instr.powerSample 65536 0 false).wf = false := by decide
theorem test_wf_lsm : (Instr.lsmReady 10).wf = false := by decide
theorem test_wf_fibre : (Instr.optDrainStart 32).wf = false := by decide
theorem test_wf_line : (Instr.burstOpen 0 64).wf = false := by decide
theorem test_wf_ring : (Instr.ringLockLoss ⟨0, 64, true⟩).wf = false := by decide
theorem test_wf_linkCtl : (Instr.hopUp { okCtl with plane := 32 }).wf = false := by decide
theorem test_wf_vc : (Instr.lendIdleTimeout 0 0 6).wf = false := by decide
theorem test_wf_home : (Instr.inval { okHome with partition := 4096 } none).wf = false := by decide
theorem test_wf_resp : (Instr.wrResp ⟨0, 131072, .none⟩).wf = false := by decide
theorem test_wf_dir : (Instr.dirRegister { okDir with page := 2 ^ 31 }).wf = false := by decide
theorem test_wf_stop : (Instr.holdExpiry 50 0).wf = false := by decide
theorem test_wf_value : (Instr.edgeCfgAccess 0 (2 ^ 64)).wf = false := by decide
theorem test_wf_port : (Instr.ideMacFailure 36).wf = false := by decide
theorem test_wf_edgePort : (Instr.edgeDisable 32).wf = false := by decide
theorem test_wf_slot : (Instr.bisnp 16 0).wf = false := by decide
theorem test_wf_site : (Instr.gddrRetrain 16 true).wf = false := by decide
theorem test_wf_link : (Instr.replayTimeout 2).wf = false := by decide
theorem test_wf_flit : (Instr.flitReceive 0 [(4, 0)]).wf = false := by decide
theorem test_wf_writer : (Instr.inval okHome (some 131072)).wf = false := by decide
theorem test_wf_symbol : (Instr.burstReceive 0 0 [4]).wf = false := by decide
theorem test_wf_lane : (Instr.nelarLinkActive 0 255 [⟨2 ^ 64, 0, 0, 0⟩] 0 0).wf = false := by decide
theorem test_wf_block256 : (Instr.gddr7TransferCompletion 0 0 false 0 false (some ([], []))).wf = false := by decide
theorem test_wf_hdr : (Instr.partDrain ⟨.nelarA, 2 ^ 15, 0, false, 0, false⟩ 0 false).wf = false := by decide
theorem test_wf_partition : (Instr.partitionDrainTimeout 4096).wf = false := by decide
theorem test_wf_queue : (Instr.queueDisabled 32768).wf = false := by decide
theorem test_wf_group : (Instr.stallTimeout 16384).wf = false := by decide
theorem test_wf_collTag : (Instr.collData { okTag with gen := 16 } []).wf = false := by decide
theorem test_wf_page : (Instr.migrationQuiesce 0 (2 ^ 31)).wf = false := by decide
theorem test_wf_unit : (Instr.carrierLoss 4).wf = false := by decide
theorem test_wf_tile : (Instr.tileDisable 50).wf = false := by decide
theorem test_wf_context : (Instr.budgetExpiry ⟨0, 4⟩).wf = false := by decide
theorem test_wf_chip : (Instr.faultMarkLost 32768).wf = false := by decide
theorem test_wf_histogram : (Instr.teleHcfgWrite 16 0).wf = false := by decide
theorem test_wf_address : (Instr.regrd (2 ^ 64)).wf = false := by decide
theorem test_wf_chunk : (Instr.chunkComplete 0 (2 ^ 32)).wf = false := by decide
theorem test_wf_accepts : (Instr.inval okHome none).wf = true ∧ (Instr.budgetExpiry okAt).wf = true := by decide

/-! ### Words of the spec's own examples -/

/-- R43: the page-map set of page 0x91A2B in partition 37 (worked by hand from the rule). -/
theorem test_pageMapSet : pmSet 37 0x91A2B = 70443 := by decide
/-- R12: the X lines of the example between x = 13 and x = 50, in both directions. -/
theorem test_lines : lineTo 0 13 50 = 37 ∧ lineTo 0 50 13 = 27 := by decide
/-- R30: the frame FPA of chip 8, near slice 0, frame 0x123. -/
theorem test_frameFpa : mkFpa 8 16 (0x123 * 2 ^ 21) = 0x0010800024600000 := by decide
/-- R458: a sample of 1,092 ns falls into bin 11. -/
theorem test_histBin : histBin 1092 = 11 := by decide
/-- Table 20-1: address 0x0045_0008 is PTU_STAT of unit 3. -/
theorem test_ptuAddress : (regAt 0x00450008).map (fun r => (r.1.name, r.2.1)) = some ("PTU_STAT", 3) := by decide +kernel
/-- R200: 21.0, -3.1, 0.3 and 9.0 in FP4-E2M1 have scale 0x81 and codes 7, 0xA, 0 and 4. -/
theorem test_blockExample : blockEncode 8 0 (fun _ => 0)
    ([0x41A80000, 0xC0466666, 0x3E99999A, 0x41100000].map (decodeNum 1)) = (0x81, [0x7, 0xa, 0x0, 0x4]) := by
  decide +kernel
/-- R201: the elements of that block decode to 24, -4, 0 and 8. -/
theorem test_blockValues : (Machine.Num.cmp (blockDecode 8 0x81 0x7) (.fin false 24 0), Machine.Num.cmp (blockDecode 8 0x81 0xa) (.fin true 4 0),
    Machine.Num.cmp (blockDecode 8 0x81 0x4) (.fin false 8 0)) = (some .eq, some .eq, some .eq) := by decide +kernel
/-- The table gives no row any bits, so no word spells a command. -/
theorem test_noWords : decodeTableWord 32 0 = none := by decide

/-- R146, R147: the word 000001 000001 000010 000011 00000000 is ADD s1, s2, s3; the word 0 encodes nothing. -/
theorem test_tileWord : decodeTile 0b00000100000100001000001100000000#32 =
    some (⟨1, some 0, .s, "ADD"⟩, .s { rd := 1, ra := 2, rb := 3 }) ∧ decodeTile 0#32 = none := by decide +kernel

end Sys2Proof
end

section
namespace Sys2Proof.Machine
/-- Every arm of `exec` is `ok`, `settled` or a wrapper of them, whatever the state. -/
theorem exec_answers (c : Instr) (s : State) : ∃ t, exec c s = .next t := by
  cases c <;> exact ⟨_, rfl⟩
/-- Settles O54: a tick and every arm of `exec` answer a next state. -/
theorem everyCommandIsAnswered : Obligations.EveryCommandIsAnswered := by
  intro s
  unfold State.Safe step
  split
  · exact ⟨_, rfl⟩
  · exact exec_answers _ _
end Sys2Proof.Machine
end

section
/-! ### Memory is its bytes -/

namespace Sys2Proof.Machine

theorem mem_of_tget {α : Type} {k : Nat} {v : α} {t : Tbl α} (h : tget k t = some v) : (k, v) ∈ t := by
  induction t with
  | nil => cases h
  | cons e t ih =>
    obtain ⟨k', v'⟩ := e
    rw [tget] at h
    split at h
    case isTrue hk => cases h; rw [hk]; exact List.mem_cons_self ..
    case isFalse => exact List.mem_cons_of_mem _ (ih h)

theorem tget_of_mem {α : Type} {k : Nat} {v : α} {t : Tbl α} (ht : sortedKeys t = true) (h : (k, v) ∈ t) :
    tget k t = some v := by
  rw [sortedKeys_iff] at ht
  induction t with
  | nil => cases h
  | cons e t ih =>
    obtain ⟨hlt, ht⟩ := List.pairwise_cons.1 ht
    rw [tget]
    rcases List.mem_cons.1 h with rfl | h
    · rw [if_pos rfl]
    · rw [if_neg (Nat.ne_of_lt (hlt _ h)), ih ht h]

/-- The entries of a memory in canonical form are its nonzero bytes. -/
theorem mem_iff_memGet {m : Tbl Byte} (hm : Memory.wf m = true) (c : Nat × Byte) : c ∈ m ↔ c.2 ≠ 0#8 ∧ memGet m c.1 = c.2 := by
  obtain ⟨hs, hz⟩ := (Memory.wf_iff m).1 hm
  constructor
  · intro hc
    exact ⟨hz c hc, by rw [memGet, tget_of_mem hs hc]; rfl⟩
  · rintro ⟨hne, hget⟩
    rw [memGet] at hget
    cases ht : tget c.1 m with
    | none => rw [ht] at hget; exact absurd hget.symm hne
    | some v => rw [ht] at hget; cases hget; exact mem_of_tget ht

theorem Memory.ext {m n : Tbl Byte} (hm : Memory.wf m = true) (hn : Memory.wf n = true)
    (h : ∀ a, memGet m a = memGet n a) : m = n := by
  have hsm := (sortedKeys_iff m).1 ((Memory.wf_iff m).1 hm).1
  have hsn := (sortedKeys_iff n).1 ((Memory.wf_iff n).1 hn).1
  have hmem : ∀ c, c ∈ m ↔ c ∈ n := fun c => by rw [mem_iff_memGet hm, mem_iff_memGet hn, h]
  have hperm : m.Perm n := (List.perm_ext_iff_of_nodup (hsm.imp fun hlt heq => by simp [heq] at hlt)
    (hsn.imp fun hlt heq => by simp [heq] at hlt)).2 hmem
  exact hperm.eq_of_pairwise (fun a b _ _ hab hba => absurd hab (Nat.lt_asymm hba)) hsm hsn

theorem memRead_length (m : Tbl Byte) (a n : Nat) : (memRead m a n).length = n := by
  simp [memRead]

theorem memRead_getD {m : Tbl Byte} {a n i : Nat} (hi : i < n) : (memRead m a n).getD i 0#8 = memGet m (a + i) := by
  simp [memRead_eq, hi]

/-- Writing back what a range reads as changes nothing. -/
theorem memWrite_memRead {m : Tbl Byte} (hm : Memory.wf m = true) (a n : Nat) : memWrite m a (memRead m a n) = m := by
  refine Memory.ext (memWrite_wf hm _ _) hm fun k => ?_
  rw [memGet_memWrite, memRead_length]
  split
  case isTrue hk => rw [memRead_getD (by omega), Nat.add_sub_cancel' hk.1]
  case isFalse => rfl

/-- Writes of ranges that share no byte commute. -/
theorem memWrite_comm {m : Tbl Byte} (hm : Memory.wf m = true) {a b : Nat} {x y : List Byte} (h : a + x.length ≤ b) :
    memWrite (memWrite m a x) b y = memWrite (memWrite m b y) a x := by
  refine Memory.ext (memWrite_wf (memWrite_wf hm _ _) _ _) (memWrite_wf (memWrite_wf hm _ _) _ _) fun k => ?_
  simp only [memGet_memWrite]
  by_cases hk : b ≤ k
  · have hout : ¬ (a ≤ k ∧ k < a + x.length) := by omega
    rw [if_neg hout, if_neg hout]
  · have hout : ¬ (b ≤ k ∧ k < b + y.length) := by omega
    rw [if_neg hout, if_neg hout]

/-- Settles O55, from extensionality of canonical memories and the rule for one byte read after a write. -/
theorem memoryIsItsBytes : Obligations.MemoryIsItsBytes :=
  ⟨fun _ _ => Memory.ext, fun _ a k hm => memWrite_memRead hm a k, fun _ _ _ _ _ hm => memWrite_comm hm⟩

end Sys2Proof.Machine
end

section
/-! ### Little-endian bytes (R4) -/

namespace Sys2Proof

theorem leBytes_length (k n : Nat) : (leBytes k n).length = k := by
  induction k generalizing n with
  | zero => rfl
  | succ k ih => simp [leBytes, ih]

theorem leNat_leBytes (k n : Nat) : leNat (leBytes k n) = n % 256 ^ k := by
  induction k generalizing n with
  | zero => simp [leBytes, leNat, Nat.mod_one]
  | succ k ih => simp only [leBytes, leNat, ih, BitVec.toNat_ofNat, Nat.pow_succ' (n := k), Nat.mod_mul, Nat.reducePow]

theorem leBytes_leNat (bs : List Byte) : leBytes bs.length (leNat bs) = bs := by
  induction bs with
  | nil => rfl
  | cons b bs ih =>
    have hb : b.toNat < 256 := b.isLt
    have hdiv : (b.toNat + 256 * leNat bs) / 256 = leNat bs := by omega
    have hmod : BitVec.ofNat 8 (b.toNat + 256 * leNat bs) = b := by
      apply BitVec.eq_of_toNat_eq
      rw [BitVec.toNat_ofNat]
      omega
    simp only [List.length_cons, leBytes, leNat, hdiv, hmod, ih]

theorem leNat_lt (bs : List Byte) : leNat bs < 256 ^ bs.length := by
  induction bs with
  | nil => simp [leNat]
  | cons b bs ih =>
    have hb : b.toNat < 256 := b.isLt
    simp only [List.length_cons, leNat, Nat.pow_succ']
    omega

end Sys2Proof

/-! ### Fields of given widths packed into a number, and cut out of it again -/

namespace Sys2Proof.Machine

/-- The fields of given widths that a number holds from bit `lo` up, the first lowest: `packNat` undone. -/
def cutNat (n : Nat) : Nat → List Nat → List (Nat × Nat)
  | _, [] => []
  | lo, w :: ws => (w, n / 2 ^ lo % 2 ^ w) :: cutNat n (lo + w) ws

theorem packNat_cutNat (n lo : Nat) (ws : List Nat) : packNat (cutNat n lo ws) = n / 2 ^ lo % 2 ^ ws.sum := by
  induction ws generalizing lo with
  | nil => simp [cutNat, packNat, Nat.mod_one]
  | cons w ws ih =>
    rw [cutNat, packNat, ih, Nat.mod_mod, Nat.pow_add, ← Nat.div_div_eq_div_mul, List.sum_cons, Nat.pow_add, Nat.mod_mul]

theorem cutNat_of_div {n lo : Nat} {fs : List (Nat × Nat)} (hn : n / 2 ^ lo = packNat fs) (hfs : ∀ f ∈ fs, f.2 < 2 ^ f.1) :
    cutNat n lo (fs.map Prod.fst) = fs := by
  induction fs generalizing lo with
  | nil => rfl
  | cons f fs ih =>
    obtain ⟨w, v⟩ := f
    have hv : v < 2 ^ w := hfs (w, v) (List.mem_cons_self ..)
    have hhead : n / 2 ^ lo % 2 ^ w = v := by
      rw [hn, packNat, Nat.add_mul_mod_self_left, Nat.mod_mod, Nat.mod_eq_of_lt hv]
    have htail : n / 2 ^ (lo + w) = packNat fs := by
      rw [Nat.pow_add, ← Nat.div_div_eq_div_mul, hn, packNat, Nat.mod_eq_of_lt hv,
        Nat.add_mul_div_left _ _ (Nat.two_pow_pos w), Nat.div_eq_of_lt hv, Nat.zero_add]
    rw [List.map_cons, cutNat, hhead, ih htail (fun f hf => hfs f (List.mem_cons_of_mem _ hf))]

/-- Fields that fit their widths come back out of their packing. -/
theorem cutNat_packNat {fs : List (Nat × Nat)} (hfs : ∀ f ∈ fs, f.2 < 2 ^ f.1) :
    cutNat (packNat fs) 0 (fs.map Prod.fst) = fs :=
  cutNat_of_div (by simp) hfs

theorem packNat_lt (fs : List (Nat × Nat)) : packNat fs < 2 ^ packWidth fs := by
  induction fs with
  | nil => simp [packNat, packWidth]
  | cons f fs ih =>
    obtain ⟨w, v⟩ := f
    have hv : v % 2 ^ w < 2 ^ w := Nat.mod_lt _ (Nat.two_pow_pos w)
    calc packNat ((w, v) :: fs) < 2 ^ w + 2 ^ w * packNat fs := Nat.add_lt_add_right hv _
      _ = 2 ^ w * (packNat fs + 1) := by ring
      _ ≤ 2 ^ w * 2 ^ packWidth fs := Nat.mul_le_mul_left _ ih
      _ = 2 ^ packWidth ((w, v) :: fs) := (Nat.pow_add ..).symm

/-! ### The Article (Table 12-2) -/

/-- The widths of an Article's fields in layout order, reserved ones among them. -/
def articleWidths : List Nat := [64, 8, 8, 12, 3, 1, 8, 3, 5, 13, 3, 15, 1, 6, 2, 6, 2, 24, 17, 7, 32, 16]

theorem articleFields_widths (a : Article) : (articleFields a).map Prod.fst = articleWidths := rfl

theorem packWidth_articleFields (a : Article) : packWidth (articleFields a) = 256 := by
  simp only [articleFields, packWidth, Nat.reduceAdd]

theorem articleBytes_length (a : Article) : (articleBytes a).length = 32 := by
  rw [articleBytes, packBytes, leBytes_length, packWidth_articleFields]

theorem leNat_articleBytes (a : Article) : leNat (articleBytes a) = packNat (articleFields a) := by
  have h := packNat_lt (articleFields a)
  rw [packWidth_articleFields] at h
  rw [articleBytes, packBytes, leNat_leBytes, packWidth_articleFields]
  exact Nat.mod_eq_of_lt h

/-- A number that cuts into an Article's fields is read as that Article. -/
theorem articleOf_eq_of_cutNat {bs : List Byte} {a : Article} (h : cutNat (leNat bs) 0 articleWidths = articleFields a) :
    articleOf bs = a := by
  simp only [cutNat, articleWidths, articleFields, List.cons.injEq, Prod.mk.injEq, true_and, and_true, Nat.reduceAdd] at h
  simp only [articleOf, bits, Nat.reduceAdd, Nat.reduceSub, h]

/-- A number whose reserved bits are 0 cuts into the fields of the Article it is read as. -/
theorem cutNat_eq_articleFields {bs : List Byte}
    (h : bits (leNat bs) 95 95 = 0 ∧ bits (leNat bs) 127 125 = 0 ∧ bits (leNat bs) 143 143 = 0 ∧
      bits (leNat bs) 151 150 = 0 ∧ bits (leNat bs) 159 158 = 0 ∧ bits (leNat bs) 207 201 = 0) :
    cutNat (leNat bs) 0 articleWidths = articleFields (articleOf bs) := by
  simp only [bits, Nat.reduceAdd, Nat.reduceSub] at h
  simp only [cutNat, articleWidths, articleFields, articleOf, bits, Nat.reduceAdd, Nat.reduceSub, h]

theorem articleOf_articleBytes {a : Article} (h : ∀ f ∈ articleFields a, f.2 < 2 ^ f.1) : articleOf (articleBytes a) = a := by
  apply articleOf_eq_of_cutNat
  rw [leNat_articleBytes, ← articleFields_widths a]
  exact cutNat_packNat h

theorem articleBytes_articleOf {bs : List Byte} (hlen : bs.length = 32)
    (h : bits (leNat bs) 95 95 = 0 ∧ bits (leNat bs) 127 125 = 0 ∧ bits (leNat bs) 143 143 = 0 ∧
      bits (leNat bs) 151 150 = 0 ∧ bits (leNat bs) 159 158 = 0 ∧ bits (leNat bs) 207 201 = 0) :
    articleBytes (articleOf bs) = bs := by
  have hlt : leNat bs < 2 ^ 256 := by simpa [hlen] using leNat_lt bs
  have hn : packNat (articleFields (articleOf bs)) = leNat bs := by
    rw [← cutNat_eq_articleFields h, packNat_cutNat, Nat.pow_zero, Nat.div_one]
    exact Nat.mod_eq_of_lt hlt
  rw [articleBytes, packBytes, packWidth_articleFields, hn]
  simpa [hlen] using leBytes_leNat bs

/-- Settles O56: an Article's bytes are its fields packed, and both packing and the little-endian spelling can be undone. -/
theorem articlesRoundTrip : Obligations.ArticlesRoundTrip := by
  refine ⟨fun a h1 h2 => ⟨articleBytes_length a, articleOf_articleBytes ?_⟩, fun bs => articleBytes_articleOf⟩
  simp only [articleFields, List.forall_mem_cons, h1, h2]
  simp

end Sys2Proof.Machine
end

section
namespace Sys2Proof.Machine

/-! ### Every step keeps the invariant (O53)

The meaning of a command is a composition of functions from states to states, and memory and registers change in three of them
only: `State.set`, `memWrite` and `memClear`. So there is one rule for each function, under the function's name: the state it
answers is canonical when the state it is given is. A rule's proof has the shape of the function's body. `h.f.g` follows a
composition from the inside out, `.ite` a test, `.foldl` a loop, `split` a match, and `have h1 : s1.Canonical` the state that a
`let` names; a rule of a function that takes a function has a hypothesis about it. A `let` of a value that is no state is
cleared (`clear_value`), or its type is opened by `rcases`, where the kernel would otherwise evaluate it. -/

/-- The invariant as a structure: that two such propositions agree is a question about the states, never about their
memories. -/
structure State.Canonical (s : State) : Prop where
  mem : Memory.wf s.mem = true
  regs : sortedKeys s.regs = true

theorem State.canonical_iff (s : State) : s.Canonical ↔ s.Inv :=
  ⟨fun h => ⟨h.mem, h.regs⟩, fun h => ⟨h.1, h.2⟩⟩

/-- What the invariant asks of the outcome of a command: the state it leads to meets it. -/
def NextInv (o : Host.Outcome State Fault Refusal) : Prop := ∀ t, o = .next t → t.Canonical

/-! ### Rules for the shapes that meanings are built of -/

theorem State.Canonical.ite {c : Prop} {_ : Decidable c} {s t : State} (hs : s.Canonical) (ht : t.Canonical) :
    (if c then s else t).Canonical := by
  split
  · exact hs
  · exact ht

theorem State.Canonical.ite_fst {α : Type} {c : Prop} {_ : Decidable c} {p q : State × α} (hp : p.1.Canonical)
    (hq : q.1.Canonical) : (if c then p else q).1.Canonical := by
  split
  · exact hp
  · exact hq

theorem State.Canonical.foldl {α : Type} {l : List α} {f : State → α → State} {s : State} (h : s.Canonical)
    (hf : ∀ {s a}, State.Canonical s → (f s a).Canonical) : (l.foldl f s).Canonical := by
  induction l generalizing s with
  | nil => exact h
  | cons a l ih => exact ih (hf h)

theorem State.Canonical.foldl_fst {α β : Type} {l : List α} {f : State × β → α → State × β} {p : State × β}
    (h : p.1.Canonical) (hf : ∀ {p a}, State.Canonical p.1 → (f p a).1.Canonical) : (l.foldl f p).1.Canonical := by
  induction l generalizing p with
  | nil => exact h
  | cons a l ih => exact ih (hf h)

/-- The case split on a clause that may stand: `split` would have the kernel evaluate the clause's own match. -/
theorem State.Canonical.matchClause {o : Option Clause} {n : State} {f : Clause → State} (hn : n.Canonical)
    (hf : ∀ k, (f k).Canonical) : (match o with | none => n | some k => f k).Canonical := by
  cases o with
  | none => exact hn
  | some k => exact hf k

theorem State.Canonical.pair {α : Type} {s : State} {x : α} (h : s.Canonical) : (s, x).1.Canonical := h

/-- The state of a pair that a function answers. -/
theorem State.Canonical.of_eq {α : Type} {p : State × α} {t : State} {x : α} (h : p.1.Canonical) (e : p = (t, x)) :
    t.Canonical := by
  rw [e] at h
  exact h

theorem State.Canonical.set {s : State} (h : s.Canonical) {f : Fld} {v : Nat} : (s.set f v).Canonical :=
  ⟨h.mem, State.set_sorted h.regs f v⟩

/-- A change of fields other than memory and registers. -/
theorem State.Canonical.update {s : State} (h : s.Canonical)
    {pending fresh out boot power xlat work home edge fabric nelar security coll parser ptus tele frozen} :
    State.Canonical ⟨pending, fresh, out, s.regs, s.mem, boot, power, xlat, work, home, edge, fabric, nelar, security, coll,
      parser, ptus, tele, frozen⟩ :=
  ⟨h.mem, h.regs⟩

/-- A write to memory, whatever else changes beside registers. -/
theorem State.Canonical.memWrite {s : State} (h : s.Canonical) {a : Nat} {bs : List Byte}
    {pending fresh out boot power xlat work home edge fabric nelar security coll parser ptus tele frozen} :
    State.Canonical ⟨pending, fresh, out, s.regs, memWrite s.mem a bs, boot, power, xlat, work, home, edge, fabric, nelar,
      security, coll, parser, ptus, tele, frozen⟩ :=
  ⟨memWrite_wf h.mem a bs, h.regs⟩

theorem State.Canonical.memClear {s : State} (h : s.Canonical) {a n : Nat}
    {pending fresh out boot power xlat work home edge fabric nelar security coll parser ptus tele frozen} :
    State.Canonical ⟨pending, fresh, out, s.regs, memClear s.mem a n, boot, power, xlat, work, home, edge, fabric, nelar,
      security, coll, parser, ptus, tele, frozen⟩ :=
  ⟨memClear_wf h.mem a n, h.regs⟩

theorem State.Canonical.getD {o : Option State} {s : State} (ho : ∀ {t}, o = some t → State.Canonical t) (h : s.Canonical) :
    (o.getD s).Canonical := by
  cases o with
  | none => exact h
  | some t => exact ho rfl

theorem State.Canonical.ok {s : State} (h : s.Canonical) : NextInv (ok s) := fun _ e => by
  cases e
  exact h

/-! ### The functions of Machine/Ops.lean -/

theorem State.Canonical.count {s : State} (h : s.Canonical) {f n} : (s.count f n).Canonical := h.set

theorem State.Canonical.wrap {s : State} (h : s.Canonical) {f n} : (s.wrap f n).Canonical := h.set

theorem State.Canonical.less {s : State} (h : s.Canonical) {f n} : (s.less f n).Canonical := h.set

theorem State.Canonical.setFlag {s : State} (h : s.Canonical) {f b} : (s.setFlag f b).Canonical := h.set

theorem State.Canonical.emit {s : State} (h : s.Canonical) {o} : (s.emit o).Canonical := h.update

theorem State.Canonical.freshen {s : State} (h : s.Canonical) : s.freshen.Canonical := h.update

theorem State.Canonical.aonTick {s : State} (h : s.Canonical) : s.aonTick.Canonical := .ite h.wrap h

theorem State.Canonical.setLink {s : State} (h : s.Canonical) {l k} : (s.setLink l k).Canonical := h.update

theorem State.Canonical.sendFlit {s : State} (h : s.Canonical) {l f} : (s.sendFlit l f).Canonical := h.setLink.emit.emit

theorem State.Canonical.enterClock {s : State} (h : s.Canonical) {l} : (s.enterClock l).Canonical := h.setLink.set.emit

theorem State.Canonical.pump {s : State} (h : s.Canonical) {l n} : (s.pump l n).Canonical := by
  induction n generalizing s with
  | zero => exact h
  | succ n ih =>
    unfold State.pump
    split
    · exact h
    · exact .ite h (ih h.setLink.sendFlit)

theorem State.Canonical.sendOn {s : State} (h : s.Canonical) {l m} : (s.sendOn l m).Canonical := h.setLink.pump

theorem State.Canonical.teleLost {s : State} (h : s.Canonical) {body} : (s.teleLost body).Canonical := .ite h.setFlag h

theorem State.Canonical.keepNotice {s : State} (h : s.Canonical) {m} : (s.keepNotice m).Canonical := .ite h.teleLost h.update

theorem State.Canonical.sendVia {s : State} (h : s.Canonical) {l m} : (s.sendVia l m).Canonical :=
  .ite h.sendOn (.ite h.sendOn (.ite h.sendOn h.keepNotice))

theorem State.Canonical.sendPort {s : State} (h : s.Canonical) {p dst m} : (s.sendPort p dst m).Canonical := by
  unfold State.sendPort
  split
  · exact h.emit
  · exact h

theorem State.Canonical.sendRespTo {s : State} (h : s.Canonical) {path src m} : (s.sendRespTo path src m).Canonical := by
  unfold State.sendRespTo
  split
  · exact h.sendVia
  · exact h.sendVia
  · exact h.sendPort
  · exact h.sendPort
  · exact h

theorem State.Canonical.sendResp {s : State} (h : s.Canonical) {path m} : (s.sendResp path m).Canonical := h.sendRespTo

theorem State.Canonical.bumpOwn {s : State} (h : s.Canonical) : s.bumpOwn.Canonical := h.update

theorem State.Canonical.sendOwnOn {s : State} (h : s.Canonical) {l code body} : (s.sendOwnOn l code body).Canonical :=
  .ite h.update h.bumpOwn.sendVia

theorem State.Canonical.sendOwn {s : State} (h : s.Canonical) {code body} : (s.sendOwn code body).Canonical := h.sendOwnOn

theorem State.Canonical.sendTele {s : State} (h : s.Canonical) {body} : (s.sendTele body).Canonical :=
  .ite (.ite h.teleLost h.bumpOwn.sendPort) h.sendOwn

theorem State.Canonical.stream {s : State} (h : s.Canonical) {records} : (s.stream records).Canonical := h.set.sendTele

theorem State.Canonical.recordFault {s : State} (h : s.Canonical) {e} : (s.recordFault e).Canonical := h.update.set

theorem State.Canonical.logFault {s : State} (h : s.Canonical) {event addr partition code} :
    (s.logFault event addr partition code).Canonical :=
  .ite h.recordFault.stream h.recordFault

theorem State.Canonical.violate {s : State} (h : s.Canonical) {cls partition addr e source} :
    (s.violate cls partition addr e source).Canonical := by
  unfold State.violate
  extract_lets _ _ _ s1 s2
  have h1 : s1.Canonical := h.update
  have h2 : s2.Canonical := h1.set.count
  split
  · exact h2
  · exact .ite h2 h2.update.set.count

theorem State.Canonical.sample {s : State} (h : s.Canonical) {src v port partition} :
    (s.sample src v port partition).Canonical :=
  h.foldl (fun h => .ite h.update h)

theorem State.Canonical.chargeEighths {s : State} (h : s.Canonical) {p event n} : (s.chargeEighths p event n).Canonical :=
  h.wrap.update

theorem State.Canonical.charge {s : State} (h : s.Canonical) {p event n} : (s.charge p event n).Canonical := h.chargeEighths

theorem State.Canonical.answer {s : State} (h : s.Canonical) {path reqId code body} :
    (s.answer path reqId code body).Canonical := by
  unfold State.answer
  split
  · exact h.update.sendRespTo
  · exact h.sendResp

theorem State.Canonical.refuse {s : State} (h : s.Canonical) {hd code e} : (s.refuse hd code e).Canonical := h.answer

theorem State.Canonical.sendRefusal {s : State} (h : s.Canonical) {hd code status} :
    (s.sendRefusal hd code status).Canonical :=
  h.sendResp.freshen

theorem State.Canonical.refuseEarly {s : State} (h : s.Canonical) {hd code e} : (s.refuseEarly hd code e).Canonical :=
  h.answer.freshen

theorem State.Canonical.resendAck {s : State} (h : s.Canonical) {reqId code} : (s.resendAck reqId code).Canonical := by
  unfold State.resendAck
  split
  · exact .ite h.sendVia h
  · exact h

theorem State.Canonical.takeRid {s : State} (h : s.Canonical) {hd code} : (s.takeRid hd code).Canonical := by
  unfold State.takeRid
  extract_lets s1 s2 _ s3
  have h1 : s1.Canonical := .ite h.set h
  have h2 : s2.Canonical := h1.set
  have h3 : s3.Canonical := h2.update
  exact h3.update

theorem State.Canonical.leaveInbox {s : State} (h : s.Canonical) {hd code body} : (s.leaveInbox hd code body).Canonical :=
  h.update

theorem State.Canonical.vet {s : State} (h : s.Canonical) {hd code nelar mgmt lengthOk body} :
    (s.vet hd code nelar mgmt lengthOk body).1.Canonical := by
  unfold State.vet
  refine .ite_fst h.pair (.ite_fst h.pair (.ite_fst h.leaveInbox.pair (.ite_fst h.pair
    (.ite_fst h.sendRefusal.pair (.ite_fst h.sendRefusal.pair ?_)))))
  split
  · extract_lets _ s1
    have h1 : s1.Canonical := h.update
    split
    · exact h1.sendResp.resendAck
    · exact h1
  · exact .ite_fst h.count.sendRefusal.pair
      (.ite_fst h.takeRid.refuseEarly.pair (.ite_fst h.takeRid.refuseEarly.pair h.takeRid.pair))

theorem State.Canonical.refuseWith {s : State} (h : s.Canonical) {hd code e more} :
    (s.refuseWith hd code e more).Canonical :=
  h.answer

theorem State.Canonical.request {s : State} (h : s.Canonical) {hd code nelar mgmt lengthOk body} {run : State → State}
    (hrun : ∀ {t}, State.Canonical t → (run t).Canonical) : (s.request hd code nelar mgmt lengthOk body run).Canonical := by
  unfold State.request
  split
  next e =>
    have h := h.vet.of_eq e
    exact .ite h.refuseEarly (hrun h)
  next e => exact h.vet.of_eq e

theorem State.Canonical.whenLive {s : State} (h : s.Canonical) {f : State → State}
    (hf : ∀ {t}, State.Canonical t → (f t).Canonical) : (s.whenLive f).Canonical :=
  .ite (hf h) h

/-! ### The functions of Machine/Fields.lean -/

theorem State.Canonical.applyEntries {s : State} (h : s.Canonical) {es} : (s.applyEntries es).Canonical := by
  unfold State.applyEntries
  refine h.foldl (fun h => ?_)
  split
  · exact h.set
  · exact h

theorem State.Canonical.writeField {s : State} (h : s.Canonical) {d a i value f} :
    (s.writeField d a i value f).Canonical := by
  unfold State.writeField
  extract_lets
  split
  · exact h.set
  · exact h.set
  · exact .ite h h.set
  · exact .ite h h.set
  · exact h
  · exact h
  · exact h

theorem State.Canonical.writeFields {s : State} (h : s.Canonical) {d a i value} : (s.writeFields d a i value).Canonical := by
  unfold State.writeFields
  extract_lets s1
  have h1 : s1.Canonical := h.foldl (fun h => h.writeField)
  exact .ite h1.count h1

theorem State.Canonical.reservedAccess {s : State} (h : s.Canonical) {a} : (s.reservedAccess a).Canonical := h.count.set

/-! ### The functions of Machine/Addr.lean -/

theorem State.Canonical.setPm {s : State} (h : s.Canonical) {i e} : (s.setPm i e).Canonical := h.update

theorem State.Canonical.clearPm {s : State} (h : s.Canonical) {i} : (s.clearPm i).Canonical := h.update

theorem State.Canonical.takeFrame {s : State} (h : s.Canonical) {k r} : (s.takeFrame k r).Canonical :=
  .ite h.update.wrap h.update.wrap

theorem State.Canonical.freeFrame {s : State} (h : s.Canonical) {k} : (s.freeFrame k).Canonical := by
  unfold State.freeFrame
  split
  · exact h
  · exact .ite h.update.less h.update.less

theorem State.Canonical.zeroFrame {s : State} (h : s.Canonical) {k} : (s.zeroFrame k).Canonical := h.memClear

theorem State.Canonical.setCounter {s : State} (h : s.Canonical) {n v} : (s.setCounter n v).Canonical := h.update

/-! ### The functions of Machine/Optic.lean -/

theorem State.Canonical.setPtu {s : State} (h : s.Canonical) {u p} : (s.setPtu u p).Canonical := h.update

theorem State.Canonical.modPtu {s : State} (h : s.Canonical) {u f} : (s.modPtu u f).Canonical := h.setPtu

/-! ### The functions of Machine/Fab.lean -/

theorem State.Canonical.setHop {s : State} (h : s.Canonical) {k hd} : (s.setHop k hd).Canonical := h.update

theorem State.Canonical.modHop {s : State} (h : s.Canonical) {k f} : (s.modHop k f).Canonical := h.setHop

theorem State.Canonical.storeFrame {s : State} (h : s.Canonical) {f inPort out mlines} :
    (s.storeFrame f inPort out mlines).Canonical := by
  unfold State.storeFrame
  extract_lets _ _ _ _ s1 s2 s3 s4 s5 s6 s7
  have h1 : s1.Canonical := h.update
  have h2 : s2.Canonical := .ite h1 h1.charge
  have h3 : s3.Canonical := h2.less
  have h4 : s4.Canonical := h3.less
  have h5 : s5.Canonical := .ite h4.set h3
  have h6 : s6.Canonical := h5.wrap
  have h7 : s7.Canonical := h6.set
  exact h7.count.count

theorem State.Canonical.sendCtl {s : State} (h : s.Canonical) {k ty kind line vc v0 v1 v2} :
    (s.sendCtl k ty kind line vc v0 v1 v2).Canonical :=
  h.modHop

theorem State.Canonical.giveCredit {s : State} (h : s.Canonical) {inPort srcLine vc n} :
    (s.giveCredit inPort srcLine vc n).Canonical :=
  .ite h.modHop.sendCtl h

theorem State.Canonical.admitFrame {s : State} (h : s.Canonical) {x} : (s.admitFrame x).Canonical := by
  unfold State.admitFrame
  split
  · exact h.storeFrame.freshen
  · extract_lets
    split <;> exact h.storeFrame.freshen

theorem State.Canonical.offerFrame {s : State} (h : s.Canonical) {x} : (s.offerFrame x).Canonical :=
  .ite h.update h.admitFrame

theorem State.Canonical.takeIn {s : State} (h : s.Canonical) {l} : (State.takeIn l s).Canonical := by
  induction l generalizing s with
  | nil => exact h
  | cons a l ih =>
    unfold State.takeIn
    exact .ite (ih h.update.admitFrame) h

theorem State.Canonical.pumpIn {s : State} (h : s.Canonical) {port vc} : (s.pumpIn port vc).Canonical := h.takeIn

theorem State.Canonical.dropIfFree {s : State} (h : s.Canonical) {id} : (s.dropIfFree id).Canonical := by
  unfold State.dropIfFree
  split
  · exact h
  · refine .ite h ?_
    extract_lets _ _ s1 s2 s3 s4
    have h1 : s1.Canonical := h.update
    have h2 : s2.Canonical := h1.wrap
    have h3 : s3.Canonical := .ite h2.wrap (.ite h2 h2.giveCredit)
    have h4 : s4.Canonical := h3.less
    exact .ite h4 h4.pumpIn

theorem State.Canonical.modSlot {s : State} (h : s.Canonical) {id f} : (s.modSlot id f).Canonical := h.update

theorem State.Canonical.removeFrame {s : State} (h : s.Canonical) {id} : (s.removeFrame id).Canonical := h.modSlot.dropIfFree

theorem State.Canonical.inject {s : State} (h : s.Canonical) {inPort a payload xPlane} :
    (s.inject inPort a payload xPlane).Canonical :=
  .ite h h.offerFrame

theorem State.Canonical.finish {s : State} (h : s.Canonical) {k e data} : (s.finish k e data).Canonical := h.update

theorem State.Canonical.pin {s : State} (h : s.Canonical) {src home x y z} : (s.pin src home x y z).Canonical := h.update

theorem State.Canonical.unpin {s : State} (h : s.Canonical) {src home} : (s.unpin src home).Canonical := h.update

theorem State.Canonical.sendTagged {s : State} (h : s.Canonical) {f k port} : (s.sendTagged f k port).Canonical := by
  unfold State.sendTagged
  extract_lets _ _ _ _ s1 s2
  have h1 : s1.Canonical := h.update
  have h2 : s2.Canonical := h1.wrap
  split
  · exact h2.pin.inject
  · exact h2.inject

theorem State.Canonical.sendRequest {s : State} (h : s.Canonical) {a payload k port} :
    (s.sendRequest a payload k port).Canonical :=
  .ite h.finish (.ite h.update h.sendTagged)

theorem State.Canonical.grantTag {s : State} (h : s.Canonical) : s.grantTag.Canonical := by
  unfold State.grantTag
  split
  · exact h
  · exact h.update.sendTagged

theorem State.Canonical.freeTag {s : State} (h : s.Canonical) {tag} : (s.freeTag tag).Canonical := by
  unfold State.freeTag
  split
  · exact h
  · extract_lets _ s1 s2 s3
    have h1 : s1.Canonical := h.update
    have h2 : s2.Canonical := h1.less
    have h3 : s3.Canonical := by
      unfold s3
      split
      · exact h2.unpin
      · exact h2
    exact h3.grantTag

theorem State.Canonical.respond {s : State} (h : s.Canonical) {r op data} : (s.respond r op data).Canonical := by
  unfold State.respond
  split
  · exact h
  · exact .ite h (.ite h.freeTag.count h.freeTag.finish)

theorem State.Canonical.sendResponse {s : State} (h : s.Canonical) {dst tag partition tense op e unit payload spec once}
    : (s.sendResponse dst tag partition tense op e unit payload spec once).Canonical :=
  h.inject

/-! ### The functions of Machine/Lines.lean -/

theorem State.Canonical.setTile {s : State} (h : s.Canonical) {l t} : (s.setTile l t).Canonical := h.update

theorem State.Canonical.modTiles {s : State} (h : s.Canonical) {f} : (s.modTiles f).Canonical := h.update

theorem State.Canonical.snoopOut {s : State} (h : s.Canonical) {ls writer} : (s.snoopOut ls writer).Canonical := h.modTiles

theorem State.Canonical.spoilLines {s : State} (h : s.Canonical) {ls only} : (s.spoilLines ls only).Canonical := h.update

theorem State.Canonical.ringMsg {s : State} (h : s.Canonical) {code line src dst owned held grant} :
    (s.ringMsg code line src dst owned held grant).Canonical :=
  h.emit

theorem State.Canonical.setLine {s : State} (h : s.Canonical) {l r} : (s.setLine l r).Canonical := h.update

theorem State.Canonical.issueSnoop {s : State} (h : s.Canonical) {l} : (s.issueSnoop l).Canonical := by
  unfold State.issueSnoop
  split
  · split
    · exact .ite h.setLine.emit.emit h
    · exact h
  · exact h

theorem State.Canonical.enterLine {s t : State} (h : s.Canonical) {l : Nat} {q : RingReq} (e : s.enterLine l q = some t) :
    t.Canonical := by
  unfold State.enterLine at e
  split at e
  · cases e
    exact h.setLine
  · split at e
    · cases e
      exact h.setLine.issueSnoop
    · cases e

theorem State.Canonical.arbitrate {s : State} (h : s.Canonical) {l : Nat} {q : RingReq} : (s.arbitrate l q).Canonical := by
  unfold State.arbitrate
  exact .ite h.update (.ite h.update (.getD h.enterLine h.update))

theorem State.Canonical.admitRing {s : State} (h : s.Canonical) {n} : (s.admitRing n).Canonical := by
  induction n generalizing s with
  | zero => exact h
  | succ n ih =>
    unfold State.admitRing
    split
    · exact h
    · split
      next e =>
        have h := h.update.enterLine e
        exact ih h
      · exact h

theorem State.Canonical.releaseLine {s : State} (h : s.Canonical) {l} : (s.releaseLine l).Canonical := by
  unfold State.releaseLine
  split
  · exact h
  · extract_lets _ _ s1
    have h1 : s1.Canonical := by
      unfold s1
      split
      · exact h.update
      · exact h.setLine.issueSnoop
    exact h1.admitRing

theorem State.Canonical.modOp {s : State} (h : s.Canonical) {id f} : (s.modOp id f).Canonical := h.update

theorem State.Canonical.openOp {s : State} (h : s.Canonical) {o} : (s.openOp o).Canonical := h.update

theorem State.Canonical.pumpReqs {s : State} (h : s.Canonical) {stop} : (s.pumpReqs stop).Canonical := by
  unfold State.pumpReqs
  refine h.pair.foldl_fst (@fun _ (_, _) h => ?_)
  split
  split
  · exact .ite_fst (.ite_fst h.modOp.ringMsg.pair h.pair) h
  · exact h

theorem State.Canonical.askLine {s : State} (h : s.Canonical) {o} : (s.askLine o).Canonical := h.openOp.pumpReqs

theorem State.Canonical.takeLines {s : State} (h : s.Canonical) {id stop ls} : (s.takeLines id stop ls).Canonical :=
  h.foldl (fun h => h.setLine)

/-! ### The functions of Machine/Access.lean -/

theorem State.Canonical.heatOf {s : State} (h : s.Canonical) {fpa len write q} : (s.heatOf fpa len write q).Canonical :=
  .ite h.update h

theorem State.Canonical.poisonLines {s : State} (h : s.Canonical) {ks} : (s.poisonLines ks).Canonical := h.update

theorem State.Canonical.poisonBlock {s : State} (h : s.Canonical) {k} : (s.poisonBlock k).Canonical := h.poisonLines

theorem State.Canonical.homeRead {s : State} (h : s.Canonical) {fpa len p spec} : (s.homeRead fpa len p spec).1.Canonical :=
  .ite_fst h.pair (.ite_fst (.pair (.ite h h.violate)) h.pair)

theorem State.Canonical.homeWrite {s : State} (h : s.Canonical) {fpa data p whole} :
    (s.homeWrite fpa data p whole).1.Canonical :=
  .ite_fst h.pair (.ite_fst h.violate.pair h.memWrite.pair)

theorem State.Canonical.homeDo {s : State} (h : s.Canonical) {fpa p act whole spec} :
    (s.homeDo fpa p act whole spec).1.Canonical := by
  unfold State.homeDo
  split
  · exact h.homeRead
  · split
    rename_i e
    exact h.homeWrite.of_eq e
  · split
    next e =>
      have h := h.homeRead.of_eq e
      split
      rename_i e
      exact h.homeWrite.of_eq e
    next e => exact h.homeRead.of_eq e

theorem State.Canonical.reply {s : State} (h : s.Canonical) {fpa who act e data} :
    (s.reply fpa who act e data).Canonical := by
  unfold State.reply
  split
  · exact h.finish
  · exact h.sendResponse

theorem State.Canonical.sendInval {s : State} (h : s.Canonical) {op line chip p writer} :
    (s.sendInval op line chip p writer).Canonical :=
  h.sendRequest

theorem State.Canonical.sendDir {s : State} (h : s.Canonical) {op dst m k} : (s.sendDir op dst m k).Canonical :=
  h.sendRequest

theorem State.Canonical.sendReplInval {s : State} (h : s.Canonical) {op fpa len chip p page} :
    (s.sendReplInval op fpa len chip p page).Canonical :=
  h.count.sendDir

theorem State.Canonical.clearSharers {s : State} (h : s.Canonical) {ls keep} : (s.clearSharers ls keep).Canonical := h.update

theorem State.Canonical.trackDirty {s : State} (h : s.Canonical) {fpa len} : (s.trackDirty fpa len).Canonical := h.update

theorem State.Canonical.issueMem {s : State} (h : s.Canonical) {slot off act who} :
    (s.issueMem slot off act who).Canonical :=
  h.update.emit

theorem State.Canonical.setWline {s : State} (h : s.Canonical) {l w} : (s.setWline l w).Canonical := h.update

theorem State.Canonical.pumpLine {s : State} (h : s.Canonical) {l} : (s.pumpLine l).Canonical := by
  unfold State.pumpLine
  split
  · exact h
  · exact .ite h h.setWline.update.emit

theorem State.Canonical.tableWrite {s : State} (h : s.Canonical) {slot off data id} :
    (s.tableWrite slot off data id).Canonical :=
  (h.foldl (@fun _ (_, _) h => h.setWline)).foldl (fun h => h.setWline.pumpLine)

theorem State.Canonical.openWrite {s : State} (h : s.Canonical) {fpa act who bytes data locks} :
    (s.openWrite fpa act who bytes data locks).Canonical :=
  h.update.tableWrite

theorem State.Canonical.cleanLines {s : State} (h : s.Canonical) {fpa len} : (s.cleanLines fpa len).Canonical := h.update

theorem State.Canonical.enterWrite {s : State} (h : s.Canonical) {fpa act who d} : (s.enterWrite fpa act who d).Canonical :=
  .ite h.cleanLines.tableWrite.reply h.cleanLines.openWrite

theorem State.Canonical.edgeAct {s : State} (h : s.Canonical) {a} : (s.edgeAct a).Canonical := by
  unfold State.edgeAct
  extract_lets
  split
  · refine .ite h.update ?_
    split
    · exact .ite h.reply (.ite h.reply h.issueMem)
    · exact .ite h.update h.enterWrite
    · exact .ite h.reply (.ite h.update h.update.issueMem)
  · exact h.reply

theorem State.Canonical.pumpWrites {s : State} (h : s.Canonical) {n} : (s.pumpWrites n).Canonical := by
  induction n generalizing s with
  | zero => exact h
  | succ n ih =>
    unfold State.pumpWrites
    split
    · exact h
    · split
      · exact .ite (ih h.update.enterWrite) h
      · exact ih h.update

theorem State.Canonical.unlock {s : State} (h : s.Canonical) {ls} : (s.unlock ls).Canonical :=
  h.update.foldl (fun h => h.edgeAct)

theorem State.Canonical.writeIn {s : State} (h : s.Canonical) {e id} : (s.writeIn e id).Canonical := by
  unfold State.writeIn
  split
  · exact h
  · exact .ite (.ite h.update.reply h.update.reply.unlock) h.update

theorem State.Canonical.dropLine {s : State} (h : s.Canonical) {l e} : (s.dropLine l e).Canonical := by
  unfold State.dropLine
  split
  · exact h
  · exact h.update.foldl (fun h => h.writeIn)

theorem State.Canonical.failSlots {s : State} (h : s.Canonical) : s.failSlots.Canonical :=
  (h.foldl (fun h => h.dropLine)).update.foldl (fun h => h.edgeAct)

theorem State.Canonical.chargeHome {s : State} (h : s.Canonical) {fpa p n} : (s.chargeHome fpa p n).Canonical :=
  .ite h.charge (.ite h.charge h.charge.charge)

theorem State.Canonical.unitAct {s : State} (h : s.Canonical) {a} : (s.unitAct a).Canonical := by
  unfold State.unitAct
  refine .ite h.update (.reply ?_)
  split
  · exact h.homeRead
  · split
    rename_i e
    exact h.homeWrite.of_eq e
  · split
    next e =>
      have h := h.homeRead.of_eq e
      split
      rename_i e
      exact h.homeWrite.of_eq e
    next e => exact h.homeRead.of_eq e

theorem State.Canonical.perform {s : State} (h : s.Canonical) {a} : (s.perform a).Canonical := by
  unfold State.perform
  extract_lets s1
  have h1 : s1.Canonical := .ite h.snoopOut.clearSharers.trackDirty h
  exact .ite h1.edgeAct h1.unitAct

theorem State.Canonical.addSharer {s : State} (h : s.Canonical) {line chip} : (s.addSharer line chip).Canonical := h.update

theorem State.Canonical.homeCheck {s : State} (h : s.Canonical) {a} : (s.homeCheck a).1.Canonical :=
  .ite_fst h.pair (.ite_fst (.pair (.ite h.violate h)) h.pair)

theorem State.Canonical.askCopies {s : State} (h : s.Canonical) {id} : (s.askCopies id).Canonical := by
  unfold State.askCopies
  split
  · exact h
  · exact (h.modOp.foldl (@fun _ (_, _) h => h.sendInval)).foldl (fun h => h.sendReplInval)

theorem State.Canonical.serve {s : State} (h : s.Canonical) {a} : (s.serve a).Canonical := by
  unfold State.serve
  split
  · refine .ite ?_ h.perform
    extract_lets _ _ _ s1
    have h1 : s1.Canonical := .ite h.addSharer h
    split
    · exact (h.openOp.foldl (@fun _ (_, _) h => h.sendInval)).clearSharers
    · exact h1.perform
  · exact h.perform

theorem State.Canonical.takeAndServe {s : State} (h : s.Canonical) {a} : (s.takeAndServe a).Canonical := by
  unfold State.takeAndServe
  refine .ite h.serve (.ite h.openOp.takeLines.askCopies ?_)
  extract_lets x1 _ _ _ _ s2
  clear_value x1
  have h2 : s2.Canonical := h.update
  split
  · exact h.askLine
  · exact h2.foldl (@fun _ ((_, _), _) h => .ite h.serve h.askLine)

theorem State.Canonical.removeLine {s : State} (h : s.Canonical) {fpa p k} : (s.removeLine fpa p k).Canonical :=
  .ite h.finish (.ite h.openOp.takeLines.askCopies h.askLine)

theorem State.Canonical.homeAct {s : State} (h : s.Canonical) {a} : (s.homeAct a).Canonical := by
  unfold State.homeAct
  split
  next e =>
    have h := h.homeCheck.of_eq e
    exact .ite h.update h.heatOf.chargeHome.takeAndServe
  next e =>
    have h := h.homeCheck.of_eq e
    exact h.reply

theorem State.Canonical.pumpOrder {s : State} (h : s.Canonical) : s.pumpOrder.Canonical :=
  h.update.foldl (fun h => h.homeAct)

theorem State.Canonical.atHome {s : State} (h : s.Canonical) {a} : (s.atHome a).Canonical := by
  unfold State.atHome
  refine .ite h.update ?_
  split
  · exact h.homeAct
  · refine .ite h.homeAct ?_
    split
    extract_lets
    split
    · exact h.sendRequest
    · exact h.inject

theorem State.Canonical.endQuiet {s : State} (h : s.Canonical) : s.endQuiet.Canonical := h.update.foldl (fun h => h.atHome)

theorem State.Canonical.setReplica {s : State} (h : s.Canonical) {key r} : (s.setReplica key r).Canonical := h.update

theorem State.Canonical.sendAct {s : State} (h : s.Canonical) {fpa act p k port ordered spec} :
    (s.sendAct fpa act p k port ordered spec).Canonical :=
  h.sendRequest

theorem State.Canonical.issueRead {s : State} (h : s.Canonical) {fpa len p k port spec} :
    (s.issueRead fpa len p k port spec).Canonical := by
  unfold State.issueRead
  refine .ite h.atHome ?_
  split
  · exact .ite h.setReplica.charge.finish (.ite h.finish h.sendAct)
  · exact h.sendAct

theorem State.Canonical.issueWrite {s : State} (h : s.Canonical) {fpa data p k port ordered writer} :
    (s.issueWrite fpa data p k port ordered writer).Canonical :=
  .ite h.atHome h.sendAct

theorem State.Canonical.issueAtomic {s : State} (h : s.Canonical) {fpa op width operand compare p k port ordered} :
    (s.issueAtomic fpa op width operand compare p k port ordered).Canonical :=
  .ite h.atHome h.sendAct

theorem State.Canonical.openGather {s : State} (h : s.Canonical) {n k} : (s.openGather n k).Canonical := h.update

theorem State.Canonical.readRuns {s : State} (h : s.Canonical) {rs p k port spec} :
    (s.readRuns rs p k port spec).Canonical := by
  unfold State.readRuns
  split
  · exact h.finish
  · exact h.issueRead
  · exact h.openGather.foldl (@fun _ ((_, _), _) h => h.issueRead)

theorem State.Canonical.writeRuns {s : State} (h : s.Canonical) {rs data p k port ordered writer} :
    (s.writeRuns rs data p k port ordered writer).Canonical := by
  unfold State.writeRuns
  split
  · exact h.finish
  · exact h.issueWrite
  · exact h.openGather.pair.foldl_fst (@fun _ ((_, _), _) h => h.issueWrite.pair)

theorem State.Canonical.partDone {s : State} (h : s.Canonical) {g idx e data} : (s.partDone g idx e data).Canonical := by
  unfold State.partDone
  split
  · exact h
  · exact .ite h.update.finish h.update

theorem State.Canonical.fillDone {s : State} (h : s.Canonical) {key block off len k e data} :
    (s.fillDone key block off len k e data).Canonical := by
  unfold State.fillDone
  refine .ite h.finish ?_
  split
  · exact h.finish
  · exact h.setReplica.charge.memWrite.finish

theorem State.Canonical.performOp {s : State} (h : s.Canonical) {o} : (s.performOp o).Canonical := by
  unfold State.performOp
  extract_lets
  split
  · exact h.clearSharers.finish
  · exact .ite h.issueRead h.serve
  · exact h.serve

theorem State.Canonical.grantLine {s : State} (h : s.Canonical) {l} : (s.grantLine l).Canonical := by
  unfold State.grantLine
  split
  · exact h
  · split
    · exact h
    · refine .ringMsg ?_
      exact .ite h.setLine h.setLine.emit

theorem State.Canonical.opReady {s : State} (h : s.Canonical) {id} : (s.opReady id).Canonical := by
  unfold State.opReady
  split
  · exact h
  · refine .ite ?_ h
    split
    · exact h.grantLine
    · exact (h.update.performOp.foldl (fun h => h.releaseLine)).pumpOrder

theorem State.Canonical.invalDone {s : State} (h : s.Canonical) {id line chip} : (s.invalDone id line chip).Canonical :=
  h.modOp.opReady

theorem State.Canonical.replDone {s : State} (h : s.Canonical) {id chip} : (s.replDone id chip).Canonical := h.modOp.opReady

theorem State.Canonical.memDone {s : State} (h : s.Canonical) {tag ok data} : (s.memDone tag ok data).Canonical := by
  unfold State.memDone
  split
  · exact h
  · extract_lets x1 s2 s3 x4 x5 x6 x7
    clear_value x1 x4 x5 x6 x7
    have h2 : s2.Canonical := h.update
    have h3 : s3.Canonical := h2.sample
    clear_value s2 s3
    split
    · exact h3.reply
    · exact .ite h3.openWrite.failSlots.pumpOrder h3.unlock.reply.pumpOrder
    · split
      · exact h3
      · extract_lets s1 s2
        have h1 : s1.Canonical := .ite h3.setWline h3.update
        have h2 : s2.Canonical := h1.pumpLine.foldl (fun h => h.writeIn)
        clear_value s1 s2
        exact h2.pumpWrites.failSlots.pumpOrder

/-! ### The functions of Machine/Operands.lean -/

theorem State.Canonical.setCtx {s : State} (h : s.Canonical) {c x} : (s.setCtx c x).Canonical := h.setTile

theorem State.Canonical.setClause {s : State} (h : s.Canonical) {id k} : (s.setClause id k).Canonical := h.update

theorem State.Canonical.modClause {s : State} (h : s.Canonical) {id f} : (s.modClause id f).Canonical := h.update

theorem State.Canonical.restTile {s : State} (h : s.Canonical) {l} : (s.restTile l).Canonical := .ite h.setTile.set h

theorem State.Canonical.endCtx {s : State} (h : s.Canonical) {c} : (s.endCtx c).Canonical := h.setTile.restTile

theorem State.Canonical.exception {s : State} (h : s.Canonical) {c x code oaddr e} :
    (s.exception c x code oaddr e).Canonical :=
  h.count.set.set.set.modClause.endCtx

theorem State.Canonical.inCtx {s : State} (h : s.Canonical) {c legal} {f : Ctx → State → State}
    (hf : ∀ {a t}, State.Canonical t → (f a t).Canonical) : (s.inCtx c legal f).Canonical := by
  unfold State.inCtx
  split
  · exact .ite (hf h) h.exception
  · exact h

theorem State.Canonical.regs1 {s : State} (h : s.Canonical) {c legal f} : (s.regs1 c legal f).Canonical :=
  h.inCtx (fun h => h.setCtx)

theorem State.Canonical.scalar {s : State} (h : s.Canonical) {c rd f} : (s.scalar c rd f).Canonical := h.regs1

theorem State.Canonical.jumpTo {s : State} (h : s.Canonical) {c x target} : (s.jumpTo c x target).Canonical :=
  .ite h.setCtx h.exception

theorem State.Canonical.branch {s : State} (h : s.Canonical) {c f taken} : (s.branch c f taken).Canonical :=
  h.inCtx (fun h => .ite h.jumpTo h.setCtx)

theorem State.Canonical.tsWrite {s : State} (h : s.Canonical) {c x off bs} : (s.tsWrite c x off bs).Canonical := h.setTile

theorem State.Canonical.touchSegment {s : State} (h : s.Canonical) {x a n} : (s.touchSegment x a n).Canonical := h.modClause

theorem State.Canonical.stall {s : State} (h : s.Canonical) {c x} : (s.stall c x).Canonical := h.setCtx

theorem State.Canonical.vector {s : State} (h : s.Canonical) {c f legal g} : (s.vector c f legal g).Canonical :=
  h.inCtx (fun h => h.setCtx.freshen)

/-! ### The functions of Machine/Counters.lean -/

theorem State.Canonical.putCounter {s : State} (h : s.Canonical) {n v} : (s.putCounter n v).Canonical := h.setCounter.update

theorem State.Canonical.counterOp {s : State} (h : s.Canonical) {n op x} : (s.counterOp n op x).1.Canonical := by
  unfold State.counterOp
  extract_lets
  split
  · exact h.putCounter
  · exact h.putCounter
  · exact h

theorem State.Canonical.issueCounter {s : State} (h : s.Canonical) {name op x p k port} :
    (s.issueCounter name op x p k port).Canonical := by
  unfold State.issueCounter
  refine .ite (.ite (.finish ?_) h.violate.finish) h.sendRequest
  split
  · exact h.putCounter
  · exact h.putCounter
  · exact h

/-! ### The functions of Machine/Work.lean -/

theorem State.Canonical.logWindow {s : State} (h : s.Canonical) {p fva e} : (s.logWindow p fva e).Canonical :=
  .ite h.violate h

theorem State.Canonical.mapRecords {s : State} (h : s.Canonical) {f} : (s.mapRecords f).Canonical := h.update

theorem State.Canonical.waitOn {s : State} (h : s.Canonical) {id p page kinds queue} :
    (s.waitOn id p page kinds queue).Canonical := by
  unfold State.waitOn
  split
  · exact h.mapRecords.modClause
  · exact .ite h.modClause h.update.modClause

theorem State.Canonical.makeWaiting {s : State} (h : s.Canonical) : s.makeWaiting.Canonical :=
  h.foldl (@fun _ (_, _) h => .ite (h.modClause.foldl (@fun _ (_, _) h => .ite h h.waitOn)) h)

theorem State.Canonical.resolveFault {s : State} (h : s.Canonical) {p page} : (s.resolveFault p page).Canonical := by
  unfold State.resolveFault
  split
  · exact h
  · exact h.update.sample.makeWaiting

theorem State.Canonical.restoreFault {s : State} (h : s.Canonical) {f} : (s.restoreFault f).Canonical := by
  unfold State.restoreFault
  split
  · exact .ite h.update h.update
  · exact h.mapRecords.update

theorem State.Canonical.sendBatch {s : State} (h : s.Canonical) {cause fs} : (s.sendBatch cause fs).Canonical :=
  h.update.sendOwnOn.count.sample

theorem State.Canonical.closeBatch {s : State} (h : s.Canonical) {cause} : (s.closeBatch cause).Canonical :=
  .ite h (.ite h.update.sendBatch h.update.update)

theorem State.Canonical.flushBatches {s : State} (h : s.Canonical) : s.flushBatches.Canonical :=
  h.update.foldl (@fun _ (_, _) h => h.sendBatch)

theorem State.Canonical.giveTiles {s : State} (h : s.Canonical) {k} : (s.giveTiles k).Canonical :=
  h.foldl (fun h => h.endCtx)

theorem State.Canonical.unwait {s : State} (h : s.Canonical) {id} : (s.unwait id).Canonical := h.update.update.modClause

theorem State.Canonical.endClause {s : State} (h : s.Canonical) {id e} : (s.endClause id e).Canonical := by
  unfold State.endClause
  split
  · exact h
  · exact .ite h h.giveTiles.unwait.modClause

theorem State.Canonical.abortClause {s : State} (h : s.Canonical) {id} : (s.abortClause id).Canonical := by
  unfold State.abortClause
  split
  · exact h
  · exact .ite h ((h.endClause.foldl (fun h => h.logFault)).count)

theorem State.Canonical.abortTags {s : State} (h : s.Canonical) {sel} : (s.abortTags sel).Canonical :=
  h.foldl (fun h => h.update.finish)

theorem State.Canonical.endWaitTags {s : State} (h : s.Canonical) {p} : (s.endWaitTags p).Canonical :=
  h.update.foldl (fun h => h.finish)

theorem State.Canonical.modQueue {s : State} (h : s.Canonical) {q f} : (s.modQueue q f).Canonical := h.update

theorem State.Canonical.pieceOut {s : State} (h : s.Canonical) {id chunk} : (s.pieceOut id chunk).Canonical := h.modClause

theorem State.Canonical.pieceIn {s : State} (h : s.Canonical) {id chunk e seg addr} :
    (s.pieceIn id chunk e seg addr).Canonical :=
  .ite h.modClause h.modClause.endClause

theorem State.Canonical.clauseFetch {s : State} (h : s.Canonical) {k fva n c} : (s.clauseFetch k fva n c).Canonical := by
  unfold State.clauseFetch
  split
  · exact .ite h.finish h.readRuns
  · exact h.finish

theorem State.Canonical.clauseStore {s : State} (h : s.Canonical) {k fva data c} :
    (s.clauseStore k fva data c).Canonical := by
  unfold State.clauseStore
  split
  · exact .ite h.finish h.writeRuns
  · exact h.finish

theorem State.Canonical.countChunk {s : State} (h : s.Canonical) {id chunk} : (s.countChunk id chunk).Canonical := by
  unfold State.countChunk
  split
  · exact h
  · exact .ite h.modClause.modClause.issueCounter h.modClause

theorem State.Canonical.arriveDone {s : State} (h : s.Canonical) {id e} : (s.arriveDone id e).Canonical := h.modClause

/-! ### The functions of Machine/Coll.lean -/

theorem State.Canonical.rotated {s : State} (h : s.Canonical) {rot n} : (s.rotated rot n).Canonical := by
  unfold State.rotated
  split
  · exact h.modPtu
  · exact h

theorem State.Canonical.setGroup {s : State} (h : s.Canonical) {n g} : (s.setGroup n g).Canonical := h.update

theorem State.Canonical.modInstance {s : State} (h : s.Canonical) {n num f} : (s.modInstance n num f).Canonical := by
  unfold State.modInstance
  split
  · exact h.setGroup
  · exact h

theorem State.Canonical.openInstance {s : State} (h : s.Canonical) {n num} : (s.openInstance n num).Canonical := by
  unfold State.openInstance
  split
  · exact h
  · exact .ite h h.setGroup

theorem State.Canonical.freeSlots {s : State} (h : s.Canonical) {g i} : (s.freeSlots g i).Canonical :=
  .ite (h.less.wrap.less.less.foldl (fun h => h.freeFrame)) h.update

theorem State.Canonical.spillData {s : State} (h : s.Canonical) {i p c combined} :
    (s.spillData i p c combined).Canonical := by
  unfold State.spillData
  refine h.foldl (@fun _ (_, _) h => .ite h ?_)
  split
  · exact h.memWrite.charge
  · exact h

theorem State.Canonical.putChunk {s : State} (h : s.Canonical) {g num key c combined} :
    (s.putChunk g num key c combined).Canonical := by
  unfold State.putChunk
  split
  · exact h
  · exact h.modInstance.spillData

theorem State.Canonical.dropChunk {s : State} (h : s.Canonical) {g num key} : (s.dropChunk g num key).Canonical :=
  h.modInstance

theorem State.Canonical.openLocal {s t : State} (h : s.Canonical) {g : Group} {num key n : Nat}
    (e : s.openLocal g num key n = some t) :
    t.Canonical := by
  unfold State.openLocal at e
  split at e
  · cases e
  · split at e
    · cases e
      exact h
    · split at e
      · cases e
      · obtain ⟨js, -, rfl⟩ := Option.map_eq_some_iff.1 e
        exact h.putChunk

theorem State.Canonical.closeInstances {s : State} (h : s.Canonical) {n} : (s.closeInstances n).Canonical := by
  unfold State.closeInstances
  split
  · exact h
  · split
    · exact .ite h.freeSlots.less.setGroup h
    · exact h

theorem State.Canonical.collSend {s : State} (h : s.Canonical) {g op dst num phase q payload} :
    (s.collSend g op dst num phase q payload).Canonical :=
  h.inject

theorem State.Canonical.collMcast {s : State} (h : s.Canonical) {g num phase q dim peers frames} :
    (s.collMcast g num phase q dim peers frames).Canonical := by
  unfold State.collMcast
  refine h.foldl (fun h => h.foldl (@fun _ (_, _) h => ?_))
  split
  extract_lets
  split
  · exact h
  · exact h.offerFrame

theorem State.Canonical.sendChunk {s : State} (h : s.Canonical) {g dst num phase q data} :
    (s.sendChunk g dst num phase q data).Canonical := by
  unfold State.sendChunk
  extract_lets out
  clear_value out
  refine .ite h (.freshen (h.foldl @fun s (_, _) h => ?_))
  cases out with
  | none => exact h.offerFrame
  | some o => exact h.offerFrame

theorem State.Canonical.sendHeld {s : State} (h : s.Canonical) {g num phase q dsts data} :
    (s.sendHeld g num phase q dsts data).Canonical := by
  unfold State.sendHeld
  split
  · exact h.collMcast
  · exact h.foldl (fun h => h.sendChunk)

theorem State.Canonical.sendTo {s : State} (h : s.Canonical) {g num phase q dsts data} :
    (s.sendTo g num phase q dsts data).Canonical := by
  unfold State.sendTo
  split
  · exact h
  · exact .ite h.putChunk.sendHeld h.putChunk

theorem State.Canonical.leadDone {s : State} (h : s.Canonical) {id off len} : (s.leadDone id off len).Canonical :=
  h.foldl (fun h => h.modClause)

theorem State.Canonical.memberStore {s : State} (h : s.Canonical) {g num id off tag bytes} :
    (s.memberStore g num id off tag bytes).Canonical := by
  unfold State.memberStore
  split
  · exact h
  · exact .ite h (.ite h.pieceOut.clauseStore h.modInstance)

theorem State.Canonical.flushLater {s : State} (h : s.Canonical) {id} : (s.flushLater id).Canonical := by
  unfold State.flushLater
  split
  · exact h
  · split
    · exact h.modInstance.foldl (@fun _ (_, _, _, _) h => h.memberStore)
    · exact h

theorem State.Canonical.writeResult {s : State} (h : s.Canonical) {g i q bytes} : (s.writeResult g i q bytes).Canonical := by
  unfold State.writeResult
  refine h.foldl (fun h => ?_)
  split
  · exact h
  · split
    · exact h
    · exact h.memberStore

theorem State.Canonical.writeElems {s : State} (h : s.Canonical) {g i q xs} : (s.writeElems g i q xs).Canonical :=
  h.writeResult.freshen.rotated

theorem State.Canonical.writeWire {s : State} (h : s.Canonical) {g i q wire} : (s.writeWire g i q wire).Canonical :=
  .ite h.writeResult h.writeElems

theorem State.Canonical.gather {s : State} (h : s.Canonical) {g num q rest wire} :
    (s.gather g num q rest wire).Canonical := by
  unfold State.gather
  extract_lets s1
  have h1 : s1.Canonical := h.foldl (@fun _ (_, _) h => .ite h h.sendTo)
  split
  · exact h1.writeWire
  · exact h1

theorem State.Canonical.ownerHas {s : State} (h : s.Canonical) {g num q xs} : (s.ownerHas g num q xs).Canonical := by
  unfold State.ownerHas
  split
  · exact h
  · exact .ite h.freshen.writeElems (.ite (.ite h.freshen.writeElems h.freshen.freshen.sendTo) h.freshen.freshen.gather)

theorem State.Canonical.combineIn {s : State} (h : s.Canonical) {g num key slots xs} :
    (s.combineIn g num key slots xs).1.Canonical := by
  unfold State.combineIn
  split
  · exact h
  · exact h.putChunk.freshen.pair

theorem State.Canonical.reduceOn {s : State} (h : s.Canonical) {g num q n n6 l} : (s.reduceOn g num q n n6 l).Canonical := by
  induction n generalizing s n6 l with
  | zero =>
    unfold State.reduceOn
    exact h.ownerHas
  | succ n ih =>
    unfold State.reduceOn
    split
    · exact h
    · refine .ite h.ownerHas (.ite (ih h) (.ite (.ite (ih (.dropChunk ?_)) ?_) h.freshen.sendTo))
      · split
        · exact h
        · exact h.putChunk.freshen.pair
      · split
        · exact h
        · exact h.putChunk.freshen.pair

theorem State.Canonical.localIn {s : State} (h : s.Canonical) {g num q xs} : (s.localIn g num q xs).Canonical := by
  unfold State.localIn
  split
  · exact h
  · refine .ite (.reduceOn (.dropChunk ?_)) ?_
    · split
      · exact h
      · exact h.putChunk.freshen.pair
    · split
      · exact h
      · exact h.putChunk.freshen.pair

theorem State.Canonical.abortNotice {s : State} (h : s.Canonical) {g num cause} : (s.abortNotice g num cause).Canonical :=
  h.sendOwn

theorem State.Canonical.abortGroup {s : State} (h : s.Canonical) {n num cause origin} :
    (s.abortGroup n num cause origin).Canonical := by
  unfold State.abortGroup
  split
  · exact h
  · refine .ite h ?_
    extract_lets s1 _ s2 s3 s4 _ s5 s6
    have h1 : s1.Canonical := h.count
    have h2 : s2.Canonical := h1.foldl (fun h => .ite h h.collMcast)
    have h3 : s3.Canonical := h2.foldl (fun h => h.freeSlots)
    have h4 : s4.Canonical := h3.foldl (fun h => h.less)
    have h5 : s5.Canonical := h4.setGroup
    have h6 : s6.Canonical := h5.foldl (fun h => h.endClause)
    exact .ite h6.abortNotice h6

theorem State.Canonical.memberFailed {s : State} (h : s.Canonical) {k} : (s.memberFailed k).Canonical := by
  unfold State.memberFailed
  refine .ite ?_ h
  split
  · exact .ite h h.abortGroup
  · exact h

theorem State.Canonical.takeInstance {s : State} (h : s.Canonical) {n slot} : (s.takeInstance n slot).1.Canonical := by
  unfold State.takeInstance
  split
  · exact h
  · exact h.setGroup.pair

theorem State.Canonical.joinInstance {s : State} (h : s.Canonical) {n num slot id d extra queue} :
    (s.joinInstance n num slot id d extra queue).Canonical := by
  unfold State.joinInstance
  extract_lets s1
  have h1 : s1.Canonical := h.openInstance
  split
  · exact .ite h1.modInstance.update h1.modInstance
  · exact h1

theorem State.Canonical.grantSlots {s : State} (h : s.Canonical) {p} : (s.grantSlots p).Canonical := by
  unfold State.grantSlots
  split
  · exact h
  · split
    · refine .ite ?_ h
      extract_lets s1 s2 _ s3 s4 s5
      have h1 : s1.1.Canonical := by
        refine h.pair.foldl_fst (fun h => ?_)
        split
        · split
          · exact h.takeFrame
          · exact h
        · exact h
      have h2 : s2.Canonical := h1.freshen
      have h3 : s3.Canonical := h2.wrap.less
      have h4 : s4.Canonical := h3.wrap.wrap
      have h5 : s5.Canonical := h4.modInstance
      exact h5.update
    · exact h.update

theorem State.Canonical.takeCounts {s : State} (h : s.Canonical) {g num src counts} :
    (s.takeCounts g num src counts).Canonical := by
  unfold State.takeCounts
  extract_lets _ _ s1
  have h1 : s1.Canonical := h.modInstance
  split
  · exact h
  · refine h1.foldl (fun h => ?_)
    split
    · exact h
    · exact h.foldl (fun h => h.modClause.clauseStore)

theorem State.Canonical.settleCounts {s : State} (h : s.Canonical) {g num} : (s.settleCounts g num).Canonical := by
  unfold State.settleCounts
  split
  · exact h
  · exact .ite (h.foldl (fun h => h.modClause)) h

theorem State.Canonical.checkCounts {s : State} (h : s.Canonical) {g num} : (s.checkCounts g num).Canonical := by
  unfold State.checkCounts
  split
  · exact h
  · exact .ite h.abortGroup h.settleCounts

theorem State.Canonical.readyOut {s : State} (h : s.Canonical) {n} : (s.readyOut n).Canonical := by
  unfold State.readyOut
  split
  · exact h
  · split
    · exact h
    · refine .ite h (.ite h.abortGroup ?_)
      extract_lets s1 s2 s3 s4
      have h1 : s1.Canonical := h.modInstance
      have h2 : s2.Canonical := h1.wrap
      have h3 : s3.Canonical := h2.foldl (fun h1 => h1.collSend)
      have h4 : s4.Canonical := h3.foldl (fun h => h.collSend)
      exact .ite h4.takeCounts.checkCounts h3

theorem State.Canonical.readyIn {s : State} (h : s.Canonical) {n num src digest} :
    (s.readyIn n num src digest).Canonical := by
  unfold State.readyIn
  split
  · exact h
  · extract_lets s1 s2
    have h1 : s1.Canonical := h.openInstance
    have h2 : s2.Canonical := h1.modInstance
    split
    · exact h1
    · refine .ite h1.abortGroup (.foldl ?_ (@fun _ (_, _) h => .ite h.modInstance.sendHeld h))
      exact .ite h2.collSend h2

theorem State.Canonical.placeBlock {s : State} (h : s.Canonical) {g num src q data} :
    (s.placeBlock g num src q data).Canonical := by
  unfold State.placeBlock
  split
  · exact h
  · extract_lets
    split
    · exact h
    · split
      · exact h
      · split
        · exact h.modInstance
        · exact h.memberStore.freshen.rotated

theorem State.Canonical.chunkIn {s : State} (h : s.Canonical) {g num src phase q data} :
    (s.chunkIn g num src phase q data).Canonical := by
  unfold State.chunkIn
  split
  · exact h
  · exact .ite h.placeBlock (.ite h.writeWire (.ite h.reduceOn h.gather))

theorem State.Canonical.chunkArrives {s : State} (h : s.Canonical) {g num src phase q data} :
    (s.chunkArrives g num src phase q data).Canonical := by
  unfold State.chunkArrives
  split
  · exact h
  · exact .ite h.chunkIn h.modInstance

theorem State.Canonical.resumeChunks {s : State} (h : s.Canonical) {g num} : (s.resumeChunks g num).Canonical := by
  unfold State.resumeChunks
  split
  · exact h
  · exact h.foldl (@fun _ (_, _) h => h.modInstance.chunkArrives)

theorem State.Canonical.collRead {s : State} (h : s.Canonical) {id q e data} : (s.collRead id q e data).Canonical := by
  unfold State.collRead
  split
  · exact h
  · split
    · exact h.pieceIn
    · refine .ite ?_ ?_
      · extract_lets s1
        have h1 : s1.Canonical := h.pieceIn
        split
        · exact h1.memberFailed
        · exact h1
      · extract_lets _ s1 _ s2 s3
        have h1 : s1.Canonical := h.pieceIn
        have h2 : s2.Canonical := h1.freshen.rotated
        have h3 : s3.Canonical := h2.dropChunk
        exact .ite h2.localIn.resumeChunks (.ite (.ite h3.placeBlock h3.sendTo) h3.gather)

theorem State.Canonical.sentPassed {s : State} (h : s.Canonical) {g num q} : (s.sentPassed g num q).Canonical := by
  unfold State.sentPassed
  split
  · exact h
  · refine .ite (h.foldl (fun h => ?_)) h
    split
    · refine .ite ?_ h
      split
      · exact h.leadDone
      · exact h
    · exact h

theorem State.Canonical.collWritten {s : State} (h : s.Canonical) {id q e} : (s.collWritten id q e).Canonical := by
  unfold State.collWritten
  split
  · exact h
  · split
    · exact h
    · refine .ite ?_ ?_
      · extract_lets s1
        have h1 : s1.Canonical := h.pieceIn.leadDone
        exact .ite h1.sentPassed h1
      · split
        · exact h.pieceIn.memberFailed
        · exact h.pieceIn

/-! ### The functions of Machine/Records.lean -/

theorem State.Canonical.dropClause {s : State} (h : s.Canonical) {id} : (s.dropClause id).Canonical := h.update

theorem State.Canonical.pumpRecords {s : State} (h : s.Canonical) {q n} : (s.pumpRecords q n).Canonical := by
  induction n generalizing s with
  | zero => exact h
  | succ n ih =>
    unfold State.pumpRecords
    split
    · exact h
    · split
      · exact h
      · exact .ite h (.ite (ih h.modQueue.dropClause)
          (.ite (.ite (ih h.modQueue.dropClause.count) h)
          (.ite h.modQueue.logWindow.finish (.ite h.modQueue.finish h.modQueue.issueWrite))))

theorem State.Canonical.addRecord {s : State} (h : s.Canonical) {q id bs} : (s.addRecord q id bs).Canonical :=
  h.modQueue.pumpRecords

theorem State.Canonical.refuseFetched {s : State} (h : s.Canonical) {q e addr always} :
    (s.refuseFetched q e addr always).Canonical := by
  unfold State.refuseFetched
  split
  · exact h
  · split
    · exact h
    · exact h.modQueue.addRecord

theorem State.Canonical.refuseClause {s : State} (h : s.Canonical) {q d e addr} : (s.refuseClause q d e addr).Canonical := by
  unfold State.refuseClause
  extract_lets s1
  have h1 : s1.Canonical := h.refuseFetched
  split
  · exact h1
  · refine .ite ?_ (.abortGroup ?_)
    · split
      · exact h1
      · exact h1.setGroup.pair
    · split
      · exact h1
      · exact h1.setGroup.pair

theorem State.Canonical.drainQueue {s : State} (h : s.Canonical) {q e} : (s.drainQueue q e).Canonical := by
  unfold State.drainQueue
  refine .ite ?_ h
  extract_lets s1
  have h1 : s1.Canonical := h.set.set
  split
  · split
    · exact h1.refuseClause
    · exact h1
  · exact h1

theorem State.Canonical.recordDone {s : State} (h : s.Canonical) {q e} : (s.recordDone q e).Canonical := by
  unfold State.recordDone
  split
  · exact h
  · split
    · exact h
    · extract_lets s1 s2 s3
      have h1 : s1.Canonical := h.modQueue.dropClause
      have h2 : s2.Canonical := h1.count
      have h3 : s3.Canonical := .ite h1.wrap (.ite h2.set.drainQueue h2)
      exact h3.pumpRecords

/-! ### The functions of Machine/Ptu.lean -/

theorem State.Canonical.fetchVectors {s : State} (h : s.Canonical) {k v n c} : (s.fetchVectors k v n c).Canonical := by
  unfold State.fetchVectors
  extract_lets
  split
  · exact .ite h.finish h.readRuns
  · exact h.finish

theorem State.Canonical.writeVectors {s : State} (h : s.Canonical) {id v bytes} : (s.writeVectors id v bytes).Canonical := by
  unfold State.writeVectors
  split
  · exact h
  · exact h.foldl (fun h => h.leadDone.pieceOut.clauseStore)

theorem State.Canonical.ptuNext {s : State} (h : s.Canonical) {u} : (s.ptuNext u).Canonical := by
  unfold State.ptuNext
  extract_lets
  split
  · exact h
  · split
    · exact h.modPtu
    · exact .ite h.modPtu (.ite h (.ite h.modPtu (.ite h h.modPtu.fetchVectors)))

theorem State.Canonical.transformFails {s : State} (h : s.Canonical) {id e seg addr} :
    (s.transformFails id e seg addr).Canonical :=
  h.endClause

theorem State.Canonical.seatOn {s : State} (h : s.Canonical) {u id k coef} : (s.seatOn u id k coef).Canonical :=
  h.modClause.modPtu.set.set.ptuNext

theorem State.Canonical.coefDone {s : State} (h : s.Canonical) {u id e data} : (s.coefDone u id e data).Canonical := by
  unfold State.coefDone
  refine .ite h ?_
  extract_lets s1
  have h1 : s1.Canonical := h.modPtu
  split
  · exact h1.modPtu
  · exact .ite h1.transformFails.modPtu (.ite h1.transformFails.modPtu h1.seatOn)

theorem State.Canonical.transformDone {s : State} (h : s.Canonical) {id chunk e data} :
    (s.transformDone id chunk e data).Canonical := by
  unfold State.transformDone
  split
  · exact h.update
  · refine .ite ?_ (.ite h.pieceIn h.pieceIn.writeVectors)
    extract_lets _ _ s1
    have h1 : s1.Canonical := .ite h.modPtu h
    exact .ite h1 (.ite h1.transformFails.ptuNext (.ite h1 h1.chargeEighths.modPtu.freshen))

theorem State.Canonical.tileTransform {s : State} (h : s.Canonical) {id} : (s.tileTransform id).Canonical := by
  unfold State.tileTransform
  split
  · exact h
  · exact .ite h (h.modClause.foldl (fun h => h.pieceOut.fetchVectors))

theorem State.Canonical.tileCoef {s : State} (h : s.Canonical) {id e data} : (s.tileCoef id e data).Canonical := by
  unfold State.tileCoef
  split
  · exact h
  · exact .ite h.pieceIn.transformFails (.ite h.pieceIn.transformFails h.pieceIn.modClause.tileTransform)

theorem State.Canonical.moveClause {s : State} (h : s.Canonical) {id} : (s.moveClause id).Canonical := by
  unfold State.moveClause
  split
  · exact h
  · extract_lets _ s1
    have h1 : s1.Canonical := h.setClause
    split
    · exact h1.setClause.modPtu
    · exact h1.setClause

theorem State.Canonical.ptuFail {s : State} (h : s.Canonical) {u} : (s.ptuFail u).Canonical :=
  (h.set.setPtu.foldl (fun h => h.moveClause)).logFault

theorem State.Canonical.loadH {s : State} (h : s.Canonical) {u} : (s.loadH u).Canonical := h.set.set.modPtu

theorem State.Canonical.restPtu {s : State} (h : s.Canonical) {u} : (s.restPtu u).Canonical := by
  unfold State.restPtu
  extract_lets _ _ s1
  have h1 : s1.Canonical := .ite h.modPtu h
  exact .ite (.ite h1.set (.ite h1.loadH h1)) h1

theorem State.Canonical.restPtus {s : State} (h : s.Canonical) : s.restPtus.Canonical := h.foldl (fun h => h.restPtu)

theorem State.Canonical.warm {s : State} (h : s.Canonical) {u} : (s.warm u).Canonical := h.count.modPtu

/-! ### The functions of Machine/Place.lean -/

theorem State.Canonical.tenseEnd {s : State} (h : s.Canonical) {id seg} : (s.tenseEnd id seg).Canonical := h.endClause.update

theorem State.Canonical.cancel {s : State} (h : s.Canonical) {id} : (s.cancel id).Canonical := by
  unfold State.cancel
  split
  · exact h
  · exact .ite h (.ite h.tenseEnd h.modClause)

theorem State.Canonical.giveQuiet {s : State} (h : s.Canonical) {id} : (s.giveQuiet id).Canonical := by
  unfold State.giveQuiet
  split
  · exact .ite h.giveTiles.modClause h
  · exact h

theorem State.Canonical.giveParked {s : State} (h : s.Canonical) : s.giveParked.Canonical := h.foldl (fun h => h.giveQuiet)

theorem State.Canonical.park {s : State} (h : s.Canonical) {id} : (s.park id).Canonical := by
  unfold State.park
  split
  · exact h
  · exact .ite h.endClause ((h.modClause.foldl (@fun _ (_, _) h => h.waitOn)).giveQuiet)

theorem State.Canonical.retranslate {s : State} (h : s.Canonical) {id} : (s.retranslate id).Canonical := by
  unfold State.retranslate
  refine .matchClause h fun k => ?_
  obtain ⟨_ | b, extents, lacking⟩ := s.xlRanges k.partition _
  · refine .ite (.foldl h.setClause @fun s c h => ?_) h.setClause.park
    split
    · exact .ite h.setCtx h
    · exact h
  · exact h.logWindow.endClause

theorem State.Canonical.modPm {s : State} (h : s.Canonical) {p page f} : (s.modPm p page f).Canonical := by
  unfold State.modPm
  split
  · exact h.setPm
  · exact h

theorem State.Canonical.modHome {s : State} (h : s.Canonical) {p page frame f} : (s.modHome p page frame f).Canonical :=
  h.modPm

theorem State.Canonical.setDirRec {s : State} (h : s.Canonical) {i d} : (s.setDirRec i d).Canonical := h.update

theorem State.Canonical.pruneDir {s : State} (h : s.Canonical) {i} : (s.pruneDir i).Canonical := by
  unfold State.pruneDir
  split
  · exact h
  · exact .ite h.update.modHome h

theorem State.Canonical.takeDir {s t : State} (h : s.Canonical) {p page frame i : Nat} {d : DirRec}
    (e : s.takeDir p page frame = some (t, i, d)) : t.Canonical := by
  unfold State.takeDir at e
  split at e
  · cases e
    exact h
  · split at e
    · cases e
    · cases e
      exact h.setDirRec.modHome

theorem State.Canonical.register {s t : State} (h : s.Canonical) {p page frame c : Nat}
    (e : s.register p page frame c = some t) : t.Canonical := by
  unfold State.register at e
  split at e
  · cases e
  · next e' =>
    split at e
    · cases e
      exact h.takeDir e'
    · dsimp only at e
      split at e
      · cases e
      · cases e
        exact (h.takeDir e').setDirRec

theorem State.Canonical.maybeFree {s : State} (h : s.Canonical) {frame} : (s.maybeFree frame).Canonical := by
  unfold State.maybeFree
  split
  · exact h
  · exact .ite h (.ite h h.freeFrame)

theorem State.Canonical.unregister {s : State} (h : s.Canonical) {frame c} : (s.unregister frame c).Canonical := by
  unfold State.unregister
  split
  · exact h
  · exact h.setDirRec.pruneDir.maybeFree

theorem State.Canonical.sendDrop {s : State} (h : s.Canonical) {d c own} : (s.sendDrop d c own).Canonical := h.sendDir

theorem State.Canonical.dropReplicas {s : State} (h : s.Canonical) {frame} : (s.dropReplicas frame).Canonical := by
  unfold State.dropReplicas
  split
  · exact h
  · exact h.foldl (fun h => h.sendDrop)

theorem State.Canonical.replicaGone {s : State} (h : s.Canonical) {frame c own} : (s.replicaGone frame c own).Canonical := by
  unfold State.replicaGone
  split
  · exact h
  · refine .ite ?_ h
    extract_lets _ s1 _ s2 s3
    have h1 : s1.Canonical := h.setDirRec
    have h2 : s2.Canonical := .ite h1.update h1
    have h3 : s3.Canonical := .ite h2.modHome h2
    exact h3.pruneDir

theorem State.Canonical.dropFrame {s : State} (h : s.Canonical) {fpa} : (s.dropFrame fpa).Canonical := by
  unfold State.dropFrame
  exact h.modTiles

theorem State.Canonical.forgetReplica {s : State} (h : s.Canonical) {key r} : (s.forgetReplica key r).Canonical :=
  h.update.modPm

theorem State.Canonical.freeReplica {s : State} (h : s.Canonical) {key} : (s.freeReplica key).Canonical := by
  unfold State.freeReplica
  split
  · exact h
  · exact h.forgetReplica.dropFrame.freeFrame

theorem State.Canonical.dropHeld {s : State} (h : s.Canonical) {key r} : (s.dropHeld key r).Canonical :=
  h.freeReplica.sendDir

theorem State.Canonical.spoilFills {s : State} (h : s.Canonical) {key a b} : (s.spoilFills key a b).Canonical := h.update

theorem State.Canonical.writeEntry {s : State} (h : s.Canonical) {b fpa} : (s.writeEntry b fpa).Canonical := by
  unfold State.writeEntry
  split
  · exact h
  · exact h.setPm

theorem State.Canonical.answerInstall {s : State} (h : s.Canonical) {path reqId e fpa} :
    (s.answerInstall path reqId e fpa).Canonical :=
  h.answer.freshen

theorem State.Canonical.tryInstall {s : State} (h : s.Canonical) {b path reqId} : (s.tryInstall b path reqId).Canonical := by
  unfold State.tryInstall
  extract_lets _ _ _ s1
  have h1 : s1.Canonical := h.update.resolveFault
  split
  · split
    · exact .ite h.answerInstall h.answerInstall
    · exact .ite h.update h.answerInstall
    · refine .ite h.count.set.answerInstall (.ite ?_ (.ite h.answerInstall h1.sendDir))
      split
      · exact h.takeFrame.update.resolveFault.freshen
      · exact h.answerInstall
  · exact h.answerInstall

theorem State.Canonical.endInstall {s : State} (h : s.Canonical) {p page e fpa} : (s.endInstall p page e fpa).Canonical := by
  unfold State.endInstall
  split
  · exact h
  next i _ =>
    extract_lets _ s1 s2 s3
    have h1 : s1.Canonical := h.update
    have h2 : s2.Canonical := h1.writeEntry.resolveFault.answerInstall
    have h3 : s3.Canonical := by
      refine .answerInstall ?_
      cases i.fault with
      | none => exact h1
      | some f => exact h1.restoreFault
    exact .ite (h2.foldl (@fun _ (_, _, _) h => h.answerInstall)) (h3.foldl (@fun _ (_, _, _) h => h.tryInstall))

theorem State.Canonical.dirAnswer {s : State} (h : s.Canonical) {m op e old new} : (s.dirAnswer m op e old new).Canonical :=
  h.sendResponse

theorem State.Canonical.registerAtHome {s : State} (h : s.Canonical) {m} : (s.registerAtHome m).Canonical := by
  unfold State.registerAtHome
  extract_lets
  split
  · split
    · extract_lets s1
      have h1 : s1.Canonical := .ite h.takeFrame.freshen h
      split
      · exact h.dirAnswer
      next e =>
        have h := h1.register e
        exact .ite h.update h.dirAnswer
    · exact h.dirAnswer
  · exact h.dirAnswer

theorem State.Canonical.removeLines {s : State} (h : s.Canonical) {ls p k} : (s.removeLines ls p k).Canonical := by
  unfold State.removeLines
  split
  · exact h.finish
  · exact h.openGather.foldl (@fun _ (_, _) h => h.removeLine)

theorem State.Canonical.frameZeroed {s : State} (h : s.Canonical) {frameFpa} : (s.frameZeroed frameFpa).Canonical := by
  unfold State.frameZeroed
  extract_lets _ _ s1
  have h1 : s1.Canonical := h.update
  split
  · exact h1.zeroFrame.dirAnswer
  · split
    · exact h.zeroFrame.endInstall
    · exact h

theorem State.Canonical.filled {s : State} (h : s.Canonical) {frameFpa} : (s.filled frameFpa).Canonical :=
  .ite h h.removeLines

theorem State.Canonical.modMig {s : State} (h : s.Canonical) {p page f} : (s.modMig p page f).Canonical := h.update

theorem State.Canonical.tellRegs {s : State} (h : s.Canonical) {m op heat wait} : (s.tellRegs m op heat wait).Canonical :=
  h.foldl (fun h => h.sendDir)

theorem State.Canonical.giveBackOffer {s : State} (h : s.Canonical) {c p page newFpa} :
    (s.giveBackOffer c p page newFpa).Canonical :=
  h.sendDir

theorem State.Canonical.abandon {s : State} (h : s.Canonical) {p page} : (s.abandon p page).Canonical := by
  unfold State.abandon
  split
  · exact h
  · refine .ite h ?_
    extract_lets _ s1 s2 s3 s4
    have h1 : s1.Canonical := h.update
    have h2 : s2.Canonical := .ite h1.tellRegs h1
    have h3 : s3.Canonical := by
      refine .ite h2.freeFrame ?_
      split
      · exact .ite h2.giveBackOffer h2
      · exact h2
    have h4 : s4.Canonical := h3.modHome
    exact h4.count.endQuiet

theorem State.Canonical.copyRun {s : State} (h : s.Canonical) {m off len} : (s.copyRun m off len).Canonical := by
  unfold State.copyRun
  exact .ite ⟨memWrite_wf (memClear_wf h.mem _ _) _ _, h.regs⟩ h.modMig.issueWrite

theorem State.Canonical.copyPage {s : State} (h : s.Canonical) {m} : (s.copyPage m).Canonical := h.foldl (fun h => h.copyRun)

theorem State.Canonical.prepare {s : State} (h : s.Canonical) {p page} : (s.prepare p page).Canonical := by
  unfold State.prepare
  split
  · exact h
  · exact h.modMig.tellRegs

theorem State.Canonical.prepared {s : State} (h : s.Canonical) {p page c e} : (s.prepared p page c e).Canonical := by
  unfold State.prepared
  split
  · exact h
  · exact .ite h (.ite h.abandon (.ite h.modMig (.ite h.modMig.tellRegs h.modMig)))

theorem State.Canonical.switch {s : State} (h : s.Canonical) {p page} : (s.switch p page).Canonical := by
  unfold State.switch
  split
  · exact h
  · extract_lets _ s1 _ s2 _ _ s3 _ s4 _ _ s5 s6
    have h1 : s1.Canonical := h.modHome
    have h2 : s2.Canonical := h1.update
    have h3 : s3.Canonical := h2.update
    have h4 : s4.Canonical := h3.update
    have h5 : s5.Canonical := .ite h4.update h2
    have h6 : s6.Canonical := h5.modMig
    exact h6.tellRegs.endQuiet

theorem State.Canonical.moveOn {s : State} (h : s.Canonical) {p page} : (s.moveOn p page).Canonical := by
  unfold State.moveOn
  split
  · exact h
  · refine .ite h (.ite h.abandon (.ite h ?_))
    extract_lets s1
    have h1 : s1.Canonical := h.modMig.foldl (fun h => h.copyRun)
    split
    · exact .ite h1.switch h1
    · exact h1

theorem State.Canonical.moveAll {s : State} (h : s.Canonical) : s.moveAll.Canonical := h.foldl (fun h => h.moveOn)

theorem State.Canonical.copied {s : State} (h : s.Canonical) {p page e} : (s.copied p page e).Canonical :=
  .ite h.modMig h.modMig.abandon

theorem State.Canonical.finishMove {s : State} (h : s.Canonical) {p page} : (s.finishMove p page).Canonical := by
  unfold State.finishMove
  split
  · exact h
  · refine .count (.freeFrame (.dropFrame ?_))
    exact .ite h.update.update.modPm h.update.update.modPm

theorem State.Canonical.updated {s : State} (h : s.Canonical) {p page c e} : (s.updated p page c e).Canonical := by
  unfold State.updated
  split
  · exact h
  · exact .ite h.modMig.unregister h.modMig

theorem State.Canonical.dirDone {s : State} (h : s.Canonical) {op p page c e data} :
    (s.dirDone op p page c e data).Canonical := by
  unfold State.dirDone
  split
  · exact .ite h.sendDir h.endInstall
  · exact h.prepared
  · exact h.updated
  · split
    · exact .ite h.setDirRec.pruneDir h.setDirRec.modHome
    · exact h
  · exact h.replicaGone
  · exact h.replicaGone
  · refine .ite h.update ?_
    split
    · exact .ite h.modMig.modHome.copyPage h.giveBackOffer
    · exact h.giveBackOffer
  · exact h

theorem State.Canonical.dirReplied {s : State} (h : s.Canonical) {op m} : (s.dirReplied op m).Canonical := by
  unfold State.dirReplied
  refine .dirAnswer ?_
  exact .ite h.freeFrame h

theorem State.Canonical.dirRequest {s : State} (h : s.Canonical) {m op} {f : State → State}
    (hf : ∀ {t}, State.Canonical t → (f t).Canonical) : (s.dirRequest m op f).Canonical := by
  unfold State.dirRequest
  split
  · exact hf h
  · exact h.violate.dirAnswer
  · exact h.dirAnswer

theorem State.Canonical.ownerOnly {s : State} (h : s.Canonical) {m op} {f : State → State}
    (hf : ∀ {t}, State.Canonical t → (f t).Canonical) : (s.ownerOnly m op f).Canonical :=
  .ite h.violate.dirAnswer (hf h)

theorem State.Canonical.answerUpdates {s : State} (h : s.Canonical) : s.answerUpdates.Canonical :=
  h.foldl (@fun _ (_, _, _) h => .ite h h.update.dirAnswer)

theorem State.Canonical.takeUpdate {s : State} (h : s.Canonical) {m} : (s.takeUpdate m).Canonical := by
  unfold State.takeUpdate
  extract_lets s1 _ s2 _ s3 _ _ s4 s5 _ _ s6 _ _ s7
  have h1 : s1.Canonical := h.modPm
  have h2 : s2.Canonical := by
    unfold s2
    split
    · exact h1.update
    · exact h1
  have h3 : s3.Canonical := h2.update
  have h4 : s4.Canonical := h3.update
  have h5 : s5.Canonical := h4.freeReplica
  have h6 : s6.Canonical := by
    unfold s6
    split
    next e =>
      have h := h5.takeDir e
      exact h.setDirRec.modHome
    · exact h5
  have h7 : s7.Canonical := h6.update
  exact .ite h7.freshen h3

theorem State.Canonical.openWithdrawal {s : State} (h : s.Canonical) {w} : (s.openWithdrawal w).Canonical := by
  unfold State.openWithdrawal
  extract_lets _ s1
  have h1 : s1.Canonical := h.update
  refine .ite (h1.foldl (fun h => ?_)) h1
  split
  · exact h.cancel
  · exact h.update
  · exact h

theorem State.Canonical.withdrawPage {s : State} (h : s.Canonical) {p page} : (s.withdrawPage p page).1.Canonical := by
  unfold State.withdrawPage
  split
  · exact h
  · extract_lets s1 _ _ _ s2 _ _ s3
    have h1 : s1.Canonical := h.abandon
    have h2 : s2.Canonical := h1.clearPm
    have h3 : s3.Canonical := .ite h2.update.dropReplicas h2
    exact h3

theorem State.Canonical.ackWithdrawal {s : State} (h : s.Canonical) {w} : (s.ackWithdrawal w).Canonical :=
  (h.update.pair.foldl_fst (fun h =>
    .ite_fst h.update.pair (.ite_fst h.pair (.ite_fst h.maybeFree.pair h.sendDir.pair)))).sample.less.update.sendOwn

/-! ### The functions of Machine/Clauses.lean -/

theorem State.Canonical.fetchFailed {s : State} (h : s.Canonical) {q fva e} : (s.fetchFailed q fva e).Canonical :=
  .ite h.modQueue.set.drainQueue h.modQueue

theorem State.Canonical.fetchSlot {s : State} (h : s.Canonical) {q r i} : (s.fetchSlot q r i).Canonical :=
  .ite h.modQueue.logWindow.finish (.ite h.modQueue.finish h.modQueue.issueRead)

theorem State.Canonical.fetchDescriptor {s : State} (h : s.Canonical) {q} : (s.fetchDescriptor q).Canonical := by
  unfold State.fetchDescriptor
  split
  · exact .ite h.fetchSlot h
  · exact h

theorem State.Canonical.fetchDone {s : State} (h : s.Canonical) {q e data} : (s.fetchDone q e data).Canonical := by
  unfold State.fetchDone
  split
  · exact h
  · extract_lets
    split
    · exact .ite h.fetchFailed (.ite h.modQueue.wrap (.ite h.modQueue h.modQueue.fetchSlot))
    · exact .ite h.fetchFailed h.modQueue.wrap

theorem State.Canonical.maybeRemote {s : State} (h : s.Canonical) {id} : (s.maybeRemote id).Canonical := by
  unfold State.maybeRemote
  split
  · exact h
  · exact .ite h (.ite h h.modClause.freshen.sendRequest)

theorem State.Canonical.acceptNow {s : State} (h : s.Canonical) {q d extra idx} : (s.acceptNow q d extra idx).Canonical := by
  unfold State.acceptNow
  extract_lets p role extra' x id wait slot
  clear_value p role extra' x id wait slot
  split
  · exact h.refuseClause
  · split
    · exact h.logWindow.refuseClause
    · refine .ite h.refuseClause ?_
      have hslot : (match slot with | some a => s.takeInstance (cGroup d) a | none => (s, 0)).1.Canonical := by
        split
        · exact h.takeInstance
        · exact h
      split
      next e =>
        have h := hslot.of_eq e
        extract_lets k k' _ s1 s2 s3
        have h2 : s2.Canonical := h.update.modQueue
        have h3 : s3.Canonical := by
          unfold s3
          split
          · exact h2.joinInstance.readyOut
          · exact h2
        exact .ite h3.maybeRemote h3.park

theorem State.Canonical.readNow {s : State} (h : s.Canonical) {p rs c} {lacks : Nat → State → State}
    (hlacks : ∀ {a t}, State.Canonical t → (lacks a t).Canonical) : (s.readNow p rs c lacks).Canonical := by
  unfold State.readNow
  extract_lets
  split
  · exact h.finish
  · split
    · exact h.logWindow.finish
    · exact hlacks h
    · split
      · exact h.finish
      · exact h.readRuns

theorem State.Canonical.askExtra {s : State} (h : s.Canonical) {q p rs coll} : (s.askExtra q p rs coll).Canonical :=
  h.modQueue.readNow (fun h => .ite h.finish h.finish)

theorem State.Canonical.acceptHeld {s : State} (h : s.Canonical) {q d extra idx} : (s.acceptHeld q d extra idx).Canonical :=
  .ite h.modQueue (.ite h.modQueue h.acceptNow)

theorem State.Canonical.accept {s : State} (h : s.Canonical) {q} : (s.accept q).Canonical := by
  unfold State.accept
  split
  · exact h
  · split
    · exact h
    · refine .ite h (.ite h.refuseClause ?_)
      extract_lets
      split
      · split
        · exact .ite h.askExtra h.acceptHeld
        · exact .ite h.refuseClause h.acceptHeld
        · exact h.refuseClause
      · exact h.refuseClause

theorem State.Canonical.extraDone {s : State} (h : s.Canonical) {q e data} : (s.extraDone q e data).Canonical :=
  h.modQueue.accept

theorem State.Canonical.acceptHeldNow {s : State} (h : s.Canonical) {q} : (s.acceptHeldNow q).Canonical := by
  unfold State.acceptHeldNow
  split
  · exact .ite h.modQueue.accept h
  · exact h

theorem State.Canonical.trigger {s : State} (h : s.Canonical) {id} : (s.trigger id).Canonical := by
  unfold State.trigger
  split
  · exact h
  · exact .ite h.modClause.maybeRemote h

theorem State.Canonical.putCtx {s : State} (h : s.Canonical) {id k l c base} : (s.putCtx id k l c base).Canonical :=
  h.setTile.modClause

theorem State.Canonical.place {s : State} (h : s.Canonical) {id} : (s.place id).Canonical := by
  unfold State.place
  split
  · exact h
  · refine .ite h (.ite (.ite h h.update) ?_)
    extract_lets _ s1 x2
    clear_value x2
    have h1 : s1.Canonical := h.update
    refine .ite (h1.foldl (@fun _ (_, _, _) h => h.putCtx)) ?_
    split
    · exact h1.putCtx
    · exact h1

theorem State.Canonical.startSegment {s : State} (h : s.Canonical) {id} : (s.startSegment id).Canonical := by
  unfold State.startSegment
  split
  · exact h
  · refine .ite h (.ite h.cancel (.ite ?_ h.park))
    extract_lets s1
    have h1 : s1.Canonical := h.modClause
    split
    · exact h1.ptuNext
    · exact .ite h1.tileTransform (.ite h1.flushLater h1)

theorem State.Canonical.resumeNow {s : State} (h : s.Canonical) {id} : (s.resumeNow id).Canonical := by
  unfold State.resumeNow
  extract_lets s1
  have h1 : s1.Canonical := h.retranslate
  split
  · exact .ite h1.memberFailed (.ite h1 h1.maybeRemote)
  · exact h1

theorem State.Canonical.resume {s : State} (h : s.Canonical) {id} : (s.resume id).Canonical := by
  unfold State.resume
  split
  · exact h
  · exact .ite (.ite (h.modClause.readNow (fun h => h.park)) h.resumeNow) h

theorem State.Canonical.arraysDone {s : State} (h : s.Canonical) {id e data} : (s.arraysDone id e data).Canonical := by
  unfold State.arraysDone
  split
  · exact h
  next k _ =>
    refine .ite h ?_
    extract_lets r extra fail
    have hfail {e a} : (fail e a).Canonical := by
      unfold fail
      extract_lets s1
      have h1 : s1.Canonical := h.endClause
      split
      · exact h1.memberFailed
      · exact h1
    refine .ite hfail ?_
    split
    · exact hfail
    · exact h.modClause.modInstance.resumeNow.readyOut

theorem State.Canonical.endWithCode {s : State} (h : s.Canonical) {id e seg addr} :
    (s.endWithCode id e seg addr).Canonical := by
  unfold State.endWithCode
  extract_lets s1
  have h1 : s1.Canonical := h.endClause
  split
  · exact h1.memberFailed
  · exact h1

theorem State.Canonical.parkExpired {s : State} (h : s.Canonical) {id} : (s.parkExpired id).Canonical := by
  unfold State.parkExpired
  split
  · exact h
  · refine .ite h (h.foldl (fun h => ?_))
    split
    · exact h.count.endWithCode
    · exact h

theorem State.Canonical.queueExpired {s : State} (h : s.Canonical) {id} : (s.queueExpired id).Canonical := by
  unfold State.queueExpired
  split
  · exact h
  · exact .ite h h.endWithCode

theorem State.Canonical.dataStep {s : State} (h : s.Canonical) {id op} {f : Clause → State → State}
    (hf : ∀ {a t}, State.Canonical t → (f a t).Canonical) : (s.dataStep id op f).Canonical := by
  unfold State.dataStep
  split
  · exact .ite (hf h.modClause) h
  · exact h

theorem State.Canonical.copyData {s : State} (h : s.Canonical) {id k} : (s.copyData id k).Canonical :=
  h.foldl (@fun _ (_, _, _, _) h => h.pieceOut.clauseFetch)

theorem State.Canonical.fillData {s : State} (h : s.Canonical) {id k} : (s.fillData id k).Canonical :=
  h.foldl (fun h => h.pieceOut.clauseStore)

theorem State.Canonical.indexData {s : State} (h : s.Canonical) {id k es} : (s.indexData id k es).Canonical :=
  h.foldl (fun h => (h.foldl (fun h => h.pieceOut)).clauseFetch)

theorem State.Canonical.indexDone {s : State} (h : s.Canonical) {id e err data} : (s.indexDone id e err data).Canonical := by
  unfold State.indexDone
  split
  · exact h
  · exact .ite (h.foldl (fun h => h.pieceIn))
      (.ite (h.foldl (fun h => h.pieceIn)) (h.foldl (@fun _ (_, _, _) h => h.clauseFetch)))

theorem State.Canonical.clauseReadDone {s : State} (h : s.Canonical) {id chunk dst src e data} :
    (s.clauseReadDone id chunk dst src e data).Canonical := by
  unfold State.clauseReadDone
  split
  · exact h
  · exact .ite h.pieceIn h.clauseStore

theorem State.Canonical.clauseWriteDone {s : State} (h : s.Canonical) {id chunk fva e} :
    (s.clauseWriteDone id chunk fva e).Canonical := by
  unfold State.clauseWriteDone
  split
  · exact h
  · exact h.pieceIn

theorem State.Canonical.batchStep {s : State} (h : s.Canonical) {id} : (s.batchStep id).Canonical := by
  unfold State.batchStep
  split
  · exact h
  · exact .ite h h.modClause.pieceOut.clauseFetch

theorem State.Canonical.batchNextEntry {s : State} (h : s.Canonical) {id} : (s.batchNextEntry id).Canonical :=
  h.modClause.batchStep

theorem State.Canonical.batchWrite {s : State} (h : s.Canonical) {id e err old} : (s.batchWrite id e err old).Canonical := by
  unfold State.batchWrite
  split
  · exact h
  · extract_lets _ s1 s2 s3
    have h1 : s1.Canonical := .ite h h.modClause
    have h2 : s2.Canonical := h1.pieceOut.clauseStore
    have h3 : s3.Canonical := .ite h2.pieceOut.clauseStore h2
    exact h3.pieceIn.batchNextEntry

theorem State.Canonical.batchEntryDone {s : State} (h : s.Canonical) {id e err b} :
    (s.batchEntryDone id e err b).Canonical := by
  unfold State.batchEntryDone
  split
  · exact h
  · refine .ite h.pieceIn ?_
    split
    · exact h.modClause.issueAtomic
    · exact h.logWindow.batchWrite

theorem State.Canonical.collChunk {s : State} (h : s.Canonical) {id op q} : (s.collChunk id op q).Canonical := by
  unfold State.collChunk
  split
  · exact h
  · refine .ite h ?_
    split
    · refine .ite h ?_
      split
      · exact h
      next e =>
        have h := h.openLocal e
        exact h.modClause.pieceOut.clauseFetch
    · exact h

theorem State.Canonical.loadProgram {s : State} (h : s.Canonical) {id k} : (s.loadProgram id k).Canonical :=
  h.pieceOut.clauseFetch

theorem State.Canonical.programDone {s : State} (h : s.Canonical) {id e data} : (s.programDone id e data).Canonical := by
  unfold State.programDone
  split
  · exact h
  · extract_lets s1
    have h1 : s1.Canonical := h.pieceIn
    refine .ite h1 (h1.foldl (fun h => ?_))
    split
    · exact .ite h.setCtx h
    · exact h

theorem State.Canonical.once {s : State} (h : s.Canonical) {id op} {f : Clause → State → State}
    (hf : ∀ {a t}, State.Canonical t → (f a t).Canonical) : (s.once id op f).Canonical := by
  unfold State.once
  split
  · exact .ite (hf h) h
  · exact h

theorem State.Canonical.completeChunk {s : State} (h : s.Canonical) {id c} : (s.completeChunk id c).Canonical := by
  unfold State.completeChunk
  split
  · exact .ite h h.countChunk
  · exact h

theorem State.Canonical.complete {s : State} (h : s.Canonical) {id} : (s.complete id).Canonical := by
  unfold State.complete
  split
  · exact h
  · refine .ite h ?_
    split
    · exact h
    · extract_lets s1 s2 _ s3 s4 _ s5 s6
      have h1 : s1.Canonical := h.giveTiles.unwait
      have h2 : s2.Canonical := h1.sample
      have h3 : s3.Canonical := h2.modClause
      have h4 : s4.Canonical := h3.modQueue
      have h5 : s5.Canonical := h4.addRecord
      have h6 : s6.Canonical := h5.memberFailed
      split
      · exact h2.dropClause.sendResponse
      · exact .ite h6.closeInstances h5

theorem State.Canonical.remoteDone {s : State} (h : s.Canonical) {id e data} : (s.remoteDone id e data).Canonical := by
  unfold State.remoteDone
  split
  · exact h
  · exact .ite h h.modClause

theorem State.Canonical.disableQueue {s : State} (h : s.Canonical) {q} : (s.disableQueue q).Canonical :=
  .ite (h.set.update.foldl (@fun _ (_, _) h => h.answer)) h

theorem State.Canonical.queueDrainExpired {s : State} (h : s.Canonical) {q} : (s.queueDrainExpired q).Canonical := by
  unfold State.queueDrainExpired
  refine .ite ?_ h
  extract_lets s1 _ _ _ _ s2 s3 s4 s5
  have h1 : s1.Canonical := h.modQueue
  have h2 : s2.Canonical := by
    refine h1.foldl (@fun _ (_, _) h => ?_)
    split
    extract_lets s6
    have h6 : s6.Canonical := h.abortClause
    split
    · exact h6.memberFailed
    · exact h6
  have h3 : s3.Canonical := h2.abortTags
  have h4 : s4.Canonical := h3.modQueue
  have h5 : s5.Canonical := h4.foldl (fun h => h.dropClause)
  exact h5.count

/-! ### The functions of Machine/Edge.lean -/

theorem State.Canonical.edgeErr {s : State} (h : s.Canonical) {port p addr e} : (s.edgeErr port p addr e).Canonical :=
  h.count.set.set.set

theorem State.Canonical.completeDirect {s : State} (h : s.Canonical) {port tag p addr isRead e data} :
    (s.completeDirect port tag p addr isRead e data).Canonical := by
  unfold State.completeDirect
  extract_lets _ s1
  have h1 : s1.Canonical := .ite h h.edgeErr
  exact .ite h1 (.ite (h1.foldl (fun h => h.emit)) h1.emit)

theorem State.Canonical.turnAway {s : State} (h : s.Canonical) {port tag p addr isRead posted e} :
    (s.turnAway port tag p addr isRead posted e).Canonical :=
  .ite h.edgeErr h.completeDirect

theorem State.Canonical.issueDirect {s : State} (h : s.Canonical) {id d} : (s.issueDirect id d).Canonical := by
  unfold State.issueDirect
  extract_lets _ s1
  have h1 : s1.Canonical := h.update
  split
  · exact h1.issueRead
  · exact h1.issueWrite
  · exact h1.issueAtomic

theorem State.Canonical.pumpDirects {s : State} (h : s.Canonical) : s.pumpDirects.Canonical := by
  unfold State.pumpDirects
  refine h.foldl (@fun _ (_, _) h => ?_)
  split
  split
  · exact .ite h.issueDirect h
  · exact h

theorem State.Canonical.directDone {s : State} (h : s.Canonical) {id e data} : (s.directDone id e data).Canonical := by
  unfold State.directDone
  split
  · exact h
  · exact h.update.sample.completeDirect.pumpDirects

theorem State.Canonical.checkDirect {s : State} (h : s.Canonical) {d act} : (s.checkDirect d act).Canonical := by
  unfold State.checkDirect
  refine .ite h.violate.completeDirect ?_
  extract_lets _ _ _ _ _ _ _ s1 _ s2
  have h1 : s1.Canonical := h.charge
  have h2 : s2.Canonical := h.count.set
  split
  · refine .ite h.completeDirect (.ite h.completeDirect ?_)
    split
    · exact .ite h.completeDirect (.ite h.completeDirect h1.update.pumpDirects)
    · exact .ite h.completeDirect h2.set.set.completeDirect
    · exact h.logWindow.completeDirect
  · exact h.completeDirect

theorem State.Canonical.aperture {s : State} (h : s.Canonical) {d act} : (s.aperture d act).Canonical :=
  .ite h (.ite h.turnAway (.ite h (.ite h (.ite h.turnAway (.ite h.turnAway (.ite h.completeDirect h.checkDirect))))))

theorem State.Canonical.ringDoorbell {s : State} (h : s.Canonical) {q v} : (s.ringDoorbell q v).Canonical := by
  unfold State.ringDoorbell
  split
  · exact h
  · exact .ite h.set h.drainQueue

theorem State.Canonical.writeCqHead {s : State} (h : s.Canonical) {q hd} : (s.writeCqHead q hd).Canonical := by
  unfold State.writeCqHead
  split
  · exact h
  · exact .ite h.set.pumpRecords h.drainQueue

theorem State.Canonical.qpageWrite {s : State} (h : s.Canonical) {q reg v} : (s.qpageWrite q reg v).Canonical :=
  .ite h.ringDoorbell (.ite h.writeCqHead h)

theorem State.Canonical.control {s : State} (h : s.Canonical) {c write isRead} {f : Nat → State → State}
    (hf : ∀ {a t}, State.Canonical t → (f a t).Canonical) : (s.control c write isRead f).Canonical := by
  unfold State.control
  refine .ite h (.ite h.turnAway (.ite h ?_))
  split
  · exact hf h
  · refine .turnAway ?_
    exact .ite h.violate h

theorem State.Canonical.ctlStore {s : State} (h : s.Canonical) {c v} : (s.ctlStore c v).Canonical := by
  unfold State.ctlStore
  split
  · exact h.qpageWrite
  · exact h.putCounter
  · exact h

theorem State.Canonical.ctlDone {s : State} (h : s.Canonical) {c data} : (s.ctlDone c data).Canonical := .ite h h.emit

theorem State.Canonical.ctlRead {s : State} (h : s.Canonical) {c} : (s.ctlRead c).Canonical := h.control (fun h => h.ctlDone)

theorem State.Canonical.ctlWrite {s : State} (h : s.Canonical) {c v} : (s.ctlWrite c v).Canonical :=
  h.control (fun h => h.ctlStore.ctlDone)

theorem State.Canonical.ctlAtomic {s : State} (h : s.Canonical) {c op x y} : (s.ctlAtomic c op x y).Canonical :=
  h.control (fun h => h.ctlStore.ctlDone)

theorem State.Canonical.wakeFar {s : State} (h : s.Canonical) {port lost} : (s.wakeFar port lost).Canonical :=
  (h.update.foldl (fun h => .ite h.reply h.unitAct)).pumpOrder

theorem State.Canonical.streamRanges {s : State} (h : s.Canonical) {rs} : (s.streamRanges rs).Canonical :=
  .ite (h.foldl (fun h => h.stream)) h

theorem State.Canonical.loseMemory {s : State} (h : s.Canonical) {unit gone} : (s.loseMemory unit gone).Canonical :=
  (h.update.foldl (fun h => h.dropReplicas)).setFlag.logFault.streamRanges

theorem State.Canonical.loseUnit {s : State} (h : s.Canonical) {unit part} : (s.loseUnit unit part).Canonical := by
  unfold State.loseUnit
  exact h.update.loseMemory

theorem State.Canonical.reissue {s : State} (h : s.Canonical) {port} : (s.reissue port).Canonical := by
  unfold State.reissue
  refine h.foldl (@fun _ (_, _) h => .ite ?_ (.ite h.update.emit h.update.emit))
  extract_lets _ s1 _ s2
  have h1 : s1.Canonical := h.update
  have h2 : s2.Canonical := by
    unfold s2
    split
    · exact h1.unlock
    · exact h1
  exact .ite h1.dropLine h2.reply

theorem State.Canonical.edgeLost {s : State} (h : s.Canonical) {port} : (s.edgeLost port).Canonical :=
  .ite h h.set.set.set.set.logFault.reissue.failSlots.pumpOrder

theorem State.Canonical.settleEdges {s : State} (h : s.Canonical) : s.settleEdges.Canonical :=
  h.foldl (fun h => .ite h.set h)

theorem State.Canonical.edgeEnable {s : State} (h : s.Canonical) {port on} : (s.edgeEnable port on).Canonical :=
  .ite (.ite h.set.set h.set) (.ite h.set (.ite h.set.set.failSlots.pumpOrder h.set))

theorem State.Canonical.edgeDrainExpired {s : State} (h : s.Canonical) {port} : (s.edgeDrainExpired port).Canonical := by
  unfold State.edgeDrainExpired
  refine .ite h ?_
  extract_lets _ s1
  have h1 : s1.Canonical := h.foldl (@fun _ (_, _) h => h.logFault.count.directDone)
  refine (h1.foldl (@fun _ (_, _) h => ?_)).pumpOrder
  split
  extract_lets _ s2 s3 s4
  have h2 : s2.Canonical := h.update
  have h3 : s3.Canonical := h2.logFault.count
  have h4 : s4.Canonical := by
    unfold s4
    split
    · exact h3.unlock
    · exact h3
  exact .ite h3.dropLine h4.reply

/-! ### The functions of Machine/TileMem.lean -/

theorem State.Canonical.dropL1 {s : State} (h : s.Canonical) {tile line} : (s.dropL1 tile line).Canonical := h.setTile

theorem State.Canonical.tileEcc {s : State} (h : s.Canonical) {c fpa e} : (s.tileEcc c fpa e).Canonical := by
  unfold State.tileEcc
  extract_lets
  split
  · exact h
  · exact h.count
  · exact h.count
  · exact h.count
  · split
    · exact h.dropL1.count
    · exact h.count
  · split
    · exact .ite h.dropL1.count.poisonLines h.dropL1.count
    · exact h.count

theorem State.Canonical.tsGuard {s : State} (h : s.Canonical) {c x a ecc} {f : State → State}
    (hf : ∀ {t}, State.Canonical t → (f t).Canonical) : (s.tsGuard c x a ecc f).Canonical :=
  .ite h.tileEcc.exception (hf h.tileEcc)

theorem State.Canonical.tileRead {s : State} (h : s.Canonical) {c p fpa n k spec bulk} :
    (s.tileRead c p fpa n k spec bulk).Canonical := by
  unfold State.tileRead
  extract_lets
  split
  · refine .ite (.ite h.issueRead h.askLine) (.ite h.perform (.ite h.issueRead ?_))
    split
    next e =>
      have h := h.homeCheck.of_eq e
      exact h.heatOf.chargeHome.askLine
    next e =>
      have h := h.homeCheck.of_eq e
      exact h.reply
  · split
    · exact h.finish
    · exact h.sendAct

theorem State.Canonical.tileReads {s : State} (h : s.Canonical) {c p rs k spec bulk} :
    (s.tileReads c p rs k spec bulk).Canonical := by
  unfold State.tileReads
  split
  · exact h.finish
  · exact h.tileRead
  · exact h.openGather.foldl (@fun _ ((_, _), _) h => h.tileRead)

theorem State.Canonical.lineFilled {s : State} (h : s.Canonical) {tile line off len k e data} :
    (s.lineFilled tile line off len k e data).Canonical := by
  unfold State.lineFilled
  refine .ite h.finish ?_
  extract_lets s1
  have h1 : s1.Canonical := by
    unfold s1
    split
    · exact h.setTile
    · exact h
  exact h1.finish

theorem State.Canonical.tileWrite {s : State} (h : s.Canonical) {c p fpa data k} :
    (s.tileWrite c p fpa data k).Canonical := by
  unfold State.tileWrite
  refine .ite (.ite h.issueWrite ?_) h.setTile.spoilLines.issueWrite
  split
  next e =>
    have h := h.homeCheck.of_eq e
    exact .ite h.setTile.perform h.heatOf.chargeHome.askLine
  next e =>
    have h := h.homeCheck.of_eq e
    exact h.reply

theorem State.Canonical.tileWrites {s : State} (h : s.Canonical) {c p rs data k} :
    (s.tileWrites c p rs data k).Canonical := by
  unfold State.tileWrites
  split
  · exact h.finish
  · exact h.tileWrite
  · exact h.openGather.pair.foldl_fst (@fun _ ((_, _), _) h => h.tileWrite.pair)

theorem State.Canonical.modStore {s : State} (h : s.Canonical) {tile id f} : (s.modStore tile id f).Canonical := h.setTile

theorem State.Canonical.sendStore {s : State} (h : s.Canonical) {tile e} : (s.sendStore tile e).Canonical := by
  unfold State.sendStore
  extract_lets _ s1
  have h1 : s1.Canonical := h.modStore
  split
  · exact h1.issueAtomic
  · exact h1.tileWrites

theorem State.Canonical.pumpStores {s : State} (h : s.Canonical) {tile} : (s.pumpStores tile).Canonical :=
  h.foldl (fun h => .ite h.sendStore h)

theorem State.Canonical.queueStore {s : State} (h : s.Canonical) {c x p rs data amo} :
    (s.queueStore c x p rs data amo).Canonical :=
  h.setTile.modClause.pumpStores

theorem State.Canonical.afterStores {s : State} (h : s.Canonical) {c x acquire} {f : State → State}
    (hf : ∀ {t}, State.Canonical t → (f t).Canonical) : (s.afterStores c x acquire f).Canonical :=
  .ite h.setCtx (.ite h.exception (hf h))

theorem State.Canonical.loadRuns {s : State} (h : s.Canonical) {c x p rs k acquire} :
    (s.loadRuns c x p rs k acquire).Canonical :=
  h.setCtx.tileReads

theorem State.Canonical.load {s : State} (h : s.Canonical) {c x f signed ecc} : (s.load c x f signed ecc).Canonical := by
  unfold State.load
  refine .ite (.ite h.exception (h.tsGuard (fun h => h.setCtx))) (.ite h.exception ?_)
  split
  · exact h.exception
  · exact h.stall
  · exact .ite h.setCtx (.ite h.exception h.touchSegment.tileEcc.loadRuns)

theorem State.Canonical.runLd {s : State} (h : s.Canonical) {c f ecc} : (runLd c f ecc s).Canonical :=
  h.inCtx (fun h => h.load)

theorem State.Canonical.runLds {s : State} (h : s.Canonical) {c f ecc} : (runLds c f ecc s).Canonical :=
  h.inCtx (fun h => h.load)

theorem State.Canonical.storeTo {s : State} (h : s.Canonical) {c x a pieces} : (s.storeTo c x a pieces).Canonical := by
  unfold State.storeTo
  refine .ite h.exception (.ite h.exception (.ite h.setCtx ?_))
  split
  · exact h
  · split
    · exact h.stall
    · exact .ite h.setCtx ((h.foldl (fun h => h.touchSegment)).setCtx.queueStore)

theorem State.Canonical.runSt {s : State} (h : s.Canonical) {c f} : (runSt c f s).Canonical :=
  h.inCtx (fun h => .ite (.ite h.exception h.tsWrite.setCtx)
    (.ite (.ite h.exception (h.afterStores (fun h => h.storeTo))) h.storeTo))

theorem State.Canonical.runFence {s : State} (h : s.Canonical) {c f} : (runFence c f s).Canonical :=
  h.inCtx (fun h => h.afterStores (fun h => h.setCtx))

theorem State.Canonical.runVld {s : State} (h : s.Canonical) {c f ecc} : (runVld c f ecc s).Canonical := by
  unfold Machine.runVld
  refine h.inCtx (fun h => .ite h.exception (.ite (h.tsGuard (fun h => h.setCtx)) ?_))
  split
  · exact h
  · split
    · exact h.stall
    · exact .ite h.setCtx (.ite h.exception ((h.foldl (fun h => h.touchSegment)).tileEcc.loadRuns))

theorem State.Canonical.runVst {s : State} (h : s.Canonical) {c f} : (runVst c f s).Canonical :=
  h.inCtx (fun h => .ite h.setCtx (.ite (.ite h.exception ((h.foldl (fun h => h.tsWrite)).setCtx)) h.storeTo))

theorem State.Canonical.runAmo {s : State} (h : s.Canonical) {c f} : (runAmo c f s).Canonical := by
  unfold Machine.runAmo
  refine h.inCtx fun h => ?_
  extract_lets a go
  have hgo {s : State} (h : s.Canonical) : (go s).Canonical := by
    unfold go
    split
    · exact h.exception
    · exact h.stall
    · exact .ite h.exception (.ite h.exception (.ite h.exception (.ite h.setCtx h.touchSegment.setCtx.queueStore)))
  exact .ite h.exception (.ite h.exception (.ite (h.afterStores hgo) (hgo h)))

theorem State.Canonical.storeOut {s : State} (h : s.Canonical) {c clause entry} : (s.storeOut c clause entry).Canonical := by
  unfold State.storeOut
  extract_lets s1 _ s2 s3
  have h1 : s1.Canonical := h.modClause
  have h2 : s2.Canonical := h1.setTile
  have h3 : s3.Canonical := by
    unfold s3
    split
    · exact .ite h2.setCtx h2
    · exact h2
  exact h3.pumpStores.restTile

theorem State.Canonical.storeDone {s : State} (h : s.Canonical) {c clause entry e} :
    (s.storeDone c clause entry e).Canonical := by
  unfold State.storeDone
  extract_lets s1
  have h1 : s1.Canonical := by
    unfold s1
    split
    · exact .ite h.setCtx h
    · exact h
  exact h1.storeOut

theorem State.Canonical.withCtx {s : State} (h : s.Canonical) {c clause} {f : Ctx → State → State}
    (hf : ∀ {a t}, State.Canonical t → (f a t).Canonical) : (s.withCtx c clause f).Canonical := by
  unfold State.withCtx
  split
  · exact .ite (hf h) h
  · exact h

theorem State.Canonical.tileDone {s : State} (h : s.Canonical) {c clause k e data} :
    (s.tileDone c clause k e data).Canonical := by
  unfold State.tileDone
  split
  · exact h.storeDone
  · exact h.withCtx (fun h => .ite h.exception h.setCtx)
  · exact h.withCtx (fun h => .ite h.exception h.setCtx)
  · exact (h.withCtx (fun h => .ite h.exception h.setCtx)).storeOut
  · exact h.withCtx (fun h => .ite h.exception h.setCtx)
  · exact h.withCtx (fun h => .ite h.exception (.ite h.setCtx h))
  · refine h.withCtx (fun h => ?_)
    split
    · exact h
    · exact .ite h (.ite h.exception h.setCtx)
  · exact h.withCtx (fun h => .ite h.exception h.setCtx.setTile)

/-! ### The functions of Machine/TileCtr.lean -/

theorem State.Canonical.ctrInstr {s : State} (h : s.Canonical) {c x f op threshold acquire} :
    (s.ctrInstr c x f op threshold acquire).Canonical :=
  .ite h.exception h.setCtx.issueCounter

theorem State.Canonical.runCtrld {s : State} (h : s.Canonical) {c f} : (runCtrld c f s).Canonical :=
  h.inCtx (fun h => h.ctrInstr)

theorem State.Canonical.runCtradd {s : State} (h : s.Canonical) {c f} : (runCtradd c f s).Canonical :=
  h.inCtx (fun h => h.afterStores (fun h => h.ctrInstr))

theorem State.Canonical.runCtrwait {s : State} (h : s.Canonical) {c f} : (runCtrwait c f s).Canonical :=
  h.inCtx (fun h => h.ctrInstr)

theorem State.Canonical.runCtrset {s : State} (h : s.Canonical) {c f} : (runCtrset c f s).Canonical :=
  h.inCtx (fun h => h.afterStores (fun h => h.ctrInstr))

theorem State.Canonical.runCtrwaitWake {s : State} (h : s.Canonical) {c} : (runCtrwaitWake c s).Canonical := by
  unfold Machine.runCtrwaitWake
  refine h.whenLive (fun h => ?_)
  split
  · split
    · exact h.issueCounter
    · exact h
  · exact h

theorem State.Canonical.execWaitLimitExpiry {s : State} (h : s.Canonical) {c} : NextInv (execWaitLimitExpiry c s) := by
  unfold Machine.execWaitLimitExpiry
  refine (h.whenLive (fun h => ?_)).ok
  split
  · split
    · exact h.exception
    · exact h
  · exact h

theorem State.Canonical.execBudgetExpiry {s : State} (h : s.Canonical) {c} : NextInv (execBudgetExpiry c s) := by
  unfold Machine.execBudgetExpiry
  refine (h.whenLive (fun h => ?_)).ok
  split
  · split
    · exact .ite h.exception h
    · exact h
  · exact h

theorem State.Canonical.pokeFva {s : State} (h : s.Canonical) {p fva bs} : (s.pokeFva p fva bs).Canonical :=
  .ite h.issueWrite h

theorem State.Canonical.runSubmit {s : State} (h : s.Canonical) {c f ecc} : (runSubmit c f ecc s).Canonical := by
  unfold Machine.runSubmit
  refine h.inCtx (fun h => .ite h.exception
    (.ite h.exception (h.afterStores (fun h => h.tsGuard (fun h => .ite h.exception ?_)))))
  extract_lets _ _ _ x1 s2
  clear_value x1
  have h2 : s2.Canonical := h.setCtx
  split
  · exact (h2.foldl (fun h => h.pokeFva)).set
  · exact h2

theorem State.Canonical.execLex {s : State} (h : s.Canonical) {c f} : NextInv (execLex c f s) :=
  (h.inCtx (fun h => h.setCtx.freshen)).ok

theorem State.Canonical.execCsrr {s : State} (h : s.Canonical) {c f} : NextInv (execCsrr c f s) := by
  unfold Machine.execCsrr
  refine (h.inCtx (fun h => ?_)).ok
  split
  · exact h.setCtx
  · exact h.exception

theorem State.Canonical.execCsrw {s : State} (h : s.Canonical) {c f} : NextInv (execCsrw c f s) := by
  unfold Machine.execCsrw
  refine (h.inCtx (fun h => ?_)).ok
  extract_lets
  split
  · exact h.setCtx
  · exact h.setCtx
  · exact h.setCtx
  · exact h.setCtx
  · exact h.exception

theorem State.Canonical.execExit {s : State} (h : s.Canonical) {c f} : NextInv (execExit c f s) :=
  (h.inCtx (fun h => h.afterStores (fun h => h.modClause.endCtx))).ok

/-! ### The functions of Machine/TileStream.lean -/

theorem State.Canonical.streamOp {s : State} (h : s.Canonical) {c f legal} {g : Ctx → Pattern → State → State}
    (hg : ∀ {a a2 t}, State.Canonical t → (g a a2 t).Canonical) : (s.streamOp c f legal g).Canonical := by
  unfold State.streamOp
  refine h.inCtx (fun h => ?_)
  split
  · exact hg h
  · exact h.exception

theorem State.Canonical.cancelPattern {s : State} (h : s.Canonical) {c pat} : (s.cancelPattern c pat).Canonical := h.setTile

theorem State.Canonical.execScfg {s : State} (h : s.Canonical) {c f ecc} : NextInv (execScfg c f ecc s) :=
  (h.inCtx (fun h => .ite h.exception (.ite h.exception (h.tsGuard (fun h => .ite h.exception h.cancelPattern.setCtx))))).ok

theorem State.Canonical.fetchIndices {s : State} (h : s.Canonical) {c x pat q ahead} :
    (s.fetchIndices c x pat q ahead).Canonical := by
  unfold State.fetchIndices
  refine .ite h.setCtx ?_
  split
  · exact .ite h h.exception
  · exact .ite h h.stall
  · exact .ite h (.ite h.exception (.ite h.setCtx h.setTile.touchSegment.setCtx.readRuns))

theorem State.Canonical.commitPieces {s : State} (h : s.Canonical) {c x pat q ps k} :
    (s.commitPieces c x pat q ps k).Canonical := by
  unfold State.commitPieces
  extract_lets _ s1
  have h1 : s1.Canonical := h.setCtx.openGather
  refine h1.foldl (@fun _ ((_, _), _) h => .ite h.finish ?_)
  split
  · split
    · exact h.finish
    · exact .ite h.finish h.touchSegment.tileReads
  · exact h.finish

theorem State.Canonical.pop {s : State} (h : s.Canonical) {c f x q n vector ecc} :
    (s.pop c f x q n vector ecc).Canonical := by
  unfold State.pop
  refine .ite h.exception (.ite h.fetchIndices ?_)
  extract_lets
  split
  · exact h.exception
  · exact .ite h.stall (.ite h.setCtx (.ite (h.tsGuard (fun h => h.commitPieces)) h.tileEcc.commitPieces))

theorem State.Canonical.runSpop {s : State} (h : s.Canonical) {c f ecc} : (runSpop c f ecc s).Canonical :=
  h.streamOp (fun h => h.pop)

theorem State.Canonical.runSpops {s : State} (h : s.Canonical) {c f ecc} : (runSpops c f ecc s).Canonical :=
  h.streamOp (fun h => h.pop)

theorem State.Canonical.runSskip {s : State} (h : s.Canonical) {c f} : (runSskip c f s).Canonical := by
  unfold Machine.runSskip
  refine h.streamOp (fun h => .ite h.exception (.ite h.fetchIndices ?_))
  extract_lets _ _ _ s1
  have h1 : s1.Canonical := h.setTile
  split
  · exact h.exception
  · exact h1.setCtx

theorem State.Canonical.execScan {s : State} (h : s.Canonical) {c f} : NextInv (execScan c f s) :=
  (h.streamOp (fun h => h.cancelPattern.setCtx)).ok

theorem State.Canonical.execSrem {s : State} (h : s.Canonical) {c f} : NextInv (execSrem c f s) :=
  (h.streamOp (fun h => h.setCtx)).ok

theorem State.Canonical.issueLine {s : State} (h : s.Canonical) {c x strm q} : (s.issueLine c x strm q).Canonical := by
  unfold State.issueLine
  extract_lets
  split
  · refine .ite h.setCtx ?_
    split
    · refine .ite h ?_
      extract_lets _ _ s1 s2 s3
      have h1 : s1.Canonical := h.setTile
      have h2 : s2.Canonical := h1.setCtx
      have h3 : s3.Canonical := h2.touchSegment
      exact .ite h3.finish h3.tileRead
    · exact h
  · exact h

theorem State.Canonical.runRunaheadIssue {s : State} (h : s.Canonical) {c strm} : (runRunaheadIssue c strm s).Canonical := by
  unfold Machine.runRunaheadIssue
  refine h.whenLive (fun h => ?_)
  split
  · exact h
  · split
    · exact h
    · exact .ite h (.ite (.ite h h.fetchIndices) h.issueLine)

theorem State.Canonical.streamDone {s : State} (h : s.Canonical) {c clause id e data} :
    (s.streamDone c clause id e data).Canonical := by
  unfold State.streamDone
  split
  · exact h
  · exact .ite h h.setTile

theorem State.Canonical.onceFill {s : State} (h : s.Canonical) {tag} : (s.onceFill tag).Canonical := by
  unfold State.onceFill
  split
  · exact h
  · split
    · extract_lets _ s1
      have h1 : s1.Canonical := h.update
      split
      · exact h1.setTile
      · exact h1
    · exact h

/-! ### The functions of Machine/Weight.lean -/

theorem State.Canonical.endLoad {s : State} (h : s.Canonical) {id e} : (s.endLoad id e).Canonical := by
  unfold State.endLoad
  split
  · exact h
  · refine .answer ?_
    exact .ite h.update.update h.update

theorem State.Canonical.weightFails {s : State} (h : s.Canonical) {id l e} : (s.weightFails id l e).Canonical :=
  h.violate.endLoad

theorem State.Canonical.weightRead {s : State} (h : s.Canonical) {id part l off len} :
    (s.weightRead id part l off len).Canonical := by
  unfold State.weightRead
  extract_lets
  split
  · exact .ite h.finish h.readRuns
  · exact h.finish

theorem State.Canonical.nextChunk {s : State} (h : s.Canonical) {id l} : (s.nextChunk id l).Canonical :=
  .ite h.endLoad (.ite h.endLoad h.weightRead)

theorem State.Canonical.weightKeyed {s : State} (h : s.Canonical) {id l entries} :
    (s.weightKeyed id l entries).Canonical := by
  unfold State.weightKeyed
  refine .ite h.endLoad (.ite h.weightFails ?_)
  rcases s.unwrapKey l.header entries with _ | _ | ck
  · exact h.weightFails
  · exact h.weightFails
  · rcases s.weightPages l.body (wkPayload l.header) with ⟨_ | _, dst⟩
    · exact h.update.nextChunk
    all_goals exact h.endLoad

theorem State.Canonical.weightChunk {s : State} (h : s.Canonical) {id l data} : (s.weightChunk id l data).Canonical := by
  unfold State.weightChunk
  extract_lets
  split
  · exact h.weightFails
  · split
    · exact .ite h.endLoad h.writeRuns
    · exact h.endLoad

theorem State.Canonical.weightDone {s : State} (h : s.Canonical) {id part e data} :
    (s.weightDone id part e data).Canonical := by
  unfold State.weightDone
  split
  · exact h
  · refine .ite h.endLoad ?_
    split
    · exact .ite h.update.weightRead h.endLoad
    · exact h.weightKeyed
    · exact h.weightChunk
    · exact h.update.nextChunk

theorem State.Canonical.startLoad {s : State} (h : s.Canonical) {hd b} : (s.startLoad hd b).Canonical := by
  unfold State.startLoad
  refine .ite h.refuseWith ?_
  extract_lets
  split
  · exact h.logWindow.refuseWith
  · exact h.refuseWith
  · exact h.update.weightRead

/-! ### The functions of Machine/Settle.lean -/

theorem State.Canonical.cancelDue {s : State} (h : s.Canonical) : s.cancelDue.Canonical := h.foldl (fun h => h.cancel)

theorem State.Canonical.continue {s : State} (h : s.Canonical) {k e data} : (s.continue k e data).Canonical := by
  unfold State.continue
  split
  · exact h.directDone
  · exact h.tileDone
  · exact h.streamDone
  · exact h.clauseReadDone
  · exact h.clauseWriteDone
  · exact .ite h.tileCoef h.indexDone
  · exact h.batchEntryDone
  · exact h.batchWrite
  · exact h.arriveDone
  · exact h.pieceIn
  · exact h.recordDone
  · exact h.fetchDone
  · exact h.extraDone
  · exact h.collRead
  · exact h.collWritten
  · exact h.remoteDone
  · exact h.weightDone
  · exact h.coefDone
  · exact h.programDone
  · exact h.arraysDone
  · exact h.transformDone
  · exact h.dirDone
  · exact h.invalDone
  · exact h.replDone
  · exact h.partDone
  · exact h.fillDone
  · exact h.sendResponse
  · exact h.lineFilled
  · exact h.dirReplied
  · exact h.frameZeroed
  · exact h.copied
  · exact h.emit
  · exact h

theorem State.Canonical.drain {s : State} (h : s.Canonical) {n} : (State.drain n s).Canonical := by
  induction n generalizing s with
  | zero => exact h
  | succ n ih =>
    unfold State.drain
    split
    · exact h
    · exact ih h.update.continue

theorem State.Canonical.tidy {s : State} (h : s.Canonical) : s.tidy.Canonical :=
  h.giveParked.cancelDue.moveAll.answerUpdates.settleEdges.restPtus

theorem State.Canonical.settleLoop {s : State} (h : s.Canonical) {n} : (State.settleLoop n s).Canonical := by
  induction n generalizing s with
  | zero => exact h
  | succ n ih =>
    unfold State.settleLoop
    exact .ite h (ih h.drain.tidy)

theorem State.Canonical.settle {s : State} (h : s.Canonical) : s.settle.Canonical := h.settleLoop

theorem State.Canonical.settled {s : State} (h : s.Canonical) : NextInv (settled s) := h.settle.ok

/-! ### The functions of Machine/ClauseRows.lean -/

theorem State.Canonical.worked {s : State} (h : s.Canonical) {f : State → State}
    (hf : ∀ {t}, State.Canonical t → (f t).Canonical) : NextInv (worked s f) :=
  (h.whenLive hf).settled

theorem State.Canonical.execDescriptorFetch {s : State} (h : s.Canonical) {queue} : NextInv (execDescriptorFetch queue s) :=
  h.worked (fun h => h.fetchDescriptor)

theorem State.Canonical.execClauseAccept {s : State} (h : s.Canonical) {queue} : NextInv (execClauseAccept queue s) :=
  h.worked (fun h => h.accept)

theorem State.Canonical.execPendingTriggerFree {s : State} (h : s.Canonical) {queue} :
    NextInv (execPendingTriggerFree queue s) :=
  h.worked (fun h => h.acceptHeldNow)

theorem State.Canonical.execTriggerRelease {s : State} (h : s.Canonical) {clauseId} :
    NextInv (execTriggerRelease clauseId s) :=
  h.worked (fun h => h.trigger)

theorem State.Canonical.execQueueTimeout {s : State} (h : s.Canonical) {clauseId} : NextInv (execQueueTimeout clauseId s) :=
  h.worked (fun h => h.queueExpired)

theorem State.Canonical.execClausePlace {s : State} (h : s.Canonical) {clauseId} : NextInv (execClausePlace clauseId s) :=
  h.worked (fun h => h.place)

theorem State.Canonical.execSegmentStart {s : State} (h : s.Canonical) {clauseId} : NextInv (execSegmentStart clauseId s) :=
  h.worked (fun h => h.startSegment)

theorem State.Canonical.execClauseResume {s : State} (h : s.Canonical) {clauseId} : NextInv (execClauseResume clauseId s) :=
  h.worked (fun h => h.resume)

theorem State.Canonical.execParkTimeout {s : State} (h : s.Canonical) {clauseId} : NextInv (execParkTimeout clauseId s) :=
  h.worked (fun h => h.parkExpired)

theorem State.Canonical.execBatchTimeout {s : State} (h : s.Canonical) : NextInv (execBatchTimeout s) :=
  (h.whenLive (fun h => h.closeBatch)).ok

theorem State.Canonical.execBatchFull {s : State} (h : s.Canonical) : NextInv (execBatchFull s) :=
  (h.whenLive (fun h => .ite h.closeBatch h)).ok

theorem State.Canonical.execChunkComplete {s : State} (h : s.Canonical) {clauseId chunk} :
    NextInv (execChunkComplete clauseId chunk s) :=
  h.worked (fun h => h.completeChunk)

theorem State.Canonical.execClauseComplete {s : State} (h : s.Canonical) {clauseId} :
    NextInv (execClauseComplete clauseId s) :=
  h.worked (fun h => h.complete)

theorem State.Canonical.execCopy {s : State} (h : s.Canonical) {clauseId} : NextInv (execCopy clauseId s) :=
  h.worked (fun h => h.dataStep (fun h => h.copyData))

theorem State.Canonical.execCopy2d {s : State} (h : s.Canonical) {clauseId} : NextInv (execCopy2d clauseId s) :=
  h.worked (fun h => h.dataStep (fun h => h.copyData))

theorem State.Canonical.execFill {s : State} (h : s.Canonical) {clauseId} : NextInv (execFill clauseId s) :=
  h.worked (fun h => h.dataStep (fun h => h.fillData))

theorem State.Canonical.execGather {s : State} (h : s.Canonical) {clauseId} : NextInv (execGather clauseId s) :=
  h.worked (fun h => h.dataStep (fun h => h.indexData))

theorem State.Canonical.execScatter {s : State} (h : s.Canonical) {clauseId order} :
    NextInv (execScatter clauseId order s) :=
  h.worked (fun h => h.dataStep (fun h => h.indexData))

theorem State.Canonical.execAtomicBatch {s : State} (h : s.Canonical) {clauseId} : NextInv (execAtomicBatch clauseId s) :=
  h.worked (fun h => h.dataStep (fun h => h.batchStep))

theorem State.Canonical.execReduce {s : State} (h : s.Canonical) {clauseId chunk} : NextInv (execReduce clauseId chunk s) :=
  h.worked (fun h => h.collChunk)

theorem State.Canonical.execAllreduce {s : State} (h : s.Canonical) {clauseId chunk} :
    NextInv (execAllreduce clauseId chunk s) :=
  h.worked (fun h => h.collChunk)

theorem State.Canonical.execReduceScatter {s : State} (h : s.Canonical) {clauseId chunk} :
    NextInv (execReduceScatter clauseId chunk s) :=
  h.worked (fun h => h.collChunk)

theorem State.Canonical.execAllgather {s : State} (h : s.Canonical) {clauseId chunk} :
    NextInv (execAllgather clauseId chunk s) :=
  h.worked (fun h => h.collChunk)

theorem State.Canonical.execBroadcast {s : State} (h : s.Canonical) {clauseId chunk} :
    NextInv (execBroadcast clauseId chunk s) :=
  h.worked (fun h => h.collChunk)

theorem State.Canonical.execAlltoall {s : State} (h : s.Canonical) {clauseId chunk} :
    NextInv (execAlltoall clauseId chunk s) :=
  h.worked (fun h => h.collChunk)

theorem State.Canonical.execAlltoallv {s : State} (h : s.Canonical) {clauseId chunk} :
    NextInv (execAlltoallv clauseId chunk s) :=
  h.worked (fun h => h.collChunk)

theorem State.Canonical.schedule {s : State} (h : s.Canonical) {id k} : (s.schedule id k).Canonical := by
  unfold State.schedule
  refine .ite (.ite h.pieceOut.clauseFetch h) ?_
  split
  · exact h.modClause.modPtu
  · exact h.place

theorem State.Canonical.execTransform {s : State} (h : s.Canonical) {clauseId} : NextInv (execTransform clauseId s) := by
  unfold Machine.execTransform
  refine h.worked (fun h => ?_)
  split
  · exact .ite h.schedule h
  · exact h

theorem State.Canonical.execKernel {s : State} (h : s.Canonical) {clauseId} : NextInv (execKernel clauseId s) := by
  unfold Machine.execKernel
  refine h.worked (fun h => ?_)
  split
  · exact .ite h.modClause.loadProgram h
  · exact h

theorem State.Canonical.finishOnce {s : State} (h : s.Canonical) {id} : (s.finishOnce id).Canonical :=
  h.modClause.completeChunk.settle.complete

theorem State.Canonical.execFenceClause {s : State} (h : s.Canonical) {clauseId} : NextInv (execFenceClause clauseId s) :=
  h.worked (fun h => h.once (fun h => .ite h.finishOnce h))

theorem State.Canonical.execCounterOp {s : State} (h : s.Canonical) {clauseId} : NextInv (execCounterOp clauseId s) :=
  h.worked (fun h => h.once (fun h => h.modClause.pieceOut.issueCounter))

theorem State.Canonical.execWait {s : State} (h : s.Canonical) {clauseId} : NextInv (execWait clauseId s) :=
  h.worked (fun h => h.once (fun h => .ite h.finishOnce h))

theorem State.Canonical.execWaitSatisfied {s : State} (h : s.Canonical) {clauseId} :
    NextInv (execWaitSatisfied clauseId s) :=
  h.worked (fun h => h.once (fun h => .ite h.finishOnce h))

theorem State.Canonical.execWaitTimeout {s : State} (h : s.Canonical) {clauseId} : NextInv (execWaitTimeout clauseId s) :=
  h.worked (fun h => h.once (fun h => .ite h h.endWithCode.drainQueue.complete))

theorem State.Canonical.execHeldDescriptorTimeout {s : State} (h : s.Canonical) {queue} :
    NextInv (execHeldDescriptorTimeout queue s) := by
  unfold Machine.execHeldDescriptorTimeout
  refine h.worked (fun h => ?_)
  split
  · split
    · exact h.refuseClause
    · exact h
  · exact h

/-! ### The functions of Machine/PtuRows.lean -/

theorem State.Canonical.execTransformStart {s : State} (h : s.Canonical) {unit} : NextInv (execTransformStart unit s) := by
  unfold Machine.execTransformStart
  refine h.worked (fun h => ?_)
  extract_lets s1
  have h1 : s1.Canonical := h.restPtu
  refine .ite h1 ?_
  split
  · exact h1
  · split
    · exact h1.modPtu
    · exact .ite h1 (.ite h1.seatOn h1.modPtu.clauseFetch)

theorem State.Canonical.release_ {s : State} (h : s.Canonical) {u} : (s.release_ u).Canonical := by
  unfold State.release_
  extract_lets _ _ s1
  have h1 : s1.Canonical := h.wrap.modPtu
  split
  · exact h1
  · split
    · exact h1.ptuNext
    · exact h1.writeVectors.modClause.ptuNext

theorem State.Canonical.execPilotCheck {s : State} (h : s.Canonical) {unit pass} : NextInv (execPilotCheck unit pass s) :=
  h.worked (fun h => .ite h (.ite h.release_.restPtu (.ite h.count.modPtu.ptuFail h.count.modPtu.warm)))

theorem State.Canonical.execWarmCalibration {s : State} (h : s.Canonical) {unit} : NextInv (execWarmCalibration unit s) :=
  (h.whenLive (fun h => .ite h.warm h)).ok

theorem State.Canonical.execWarmCalibrationDone {s : State} (h : s.Canonical) {unit} :
    NextInv (execWarmCalibrationDone unit s) :=
  h.worked (fun h => .ite h.modPtu.ptuNext.restPtu h)

theorem State.Canonical.execColdCalibrationDone {s : State} (h : s.Canonical) {unit} :
    NextInv (execColdCalibrationDone unit s) :=
  (h.whenLive (fun h => .ite h.set.restPtu h)).ok

theorem State.Canonical.execCarrierLoss {s : State} (h : s.Canonical) {unit} : NextInv (execCarrierLoss unit s) :=
  (h.whenLive (fun h => .ite h.set.modPtu h)).ok

theorem State.Canonical.execCarrierReturn {s : State} (h : s.Canonical) {unit} : NextInv (execCarrierReturn unit s) :=
  (h.whenLive (fun h => .ite (.ite h.set.modPtu.warm h.set.modPtu) h)).ok

theorem State.Canonical.execCarrierLossTimeout {s : State} (h : s.Canonical) {unit} :
    NextInv (execCarrierLossTimeout unit s) :=
  h.worked (fun h => .ite h.ptuFail h)

theorem State.Canonical.enablePtu {s : State} (h : s.Canonical) {u on} : (s.enablePtu u on).Canonical :=
  .ite (.ite h.set (.ite h.set.set.setPtu h.set)) (.ite h.set.set.restPtu (.ite h.set.set h.set))

theorem State.Canonical.execPtuDisable {s : State} (h : s.Canonical) {unit} : NextInv (execPtuDisable unit s) :=
  (h.whenLive (fun h => .ite h.enablePtu h)).ok

theorem State.Canonical.execPtuEnable {s : State} (h : s.Canonical) {unit} : NextInv (execPtuEnable unit s) :=
  (h.whenLive (fun h => .ite h.enablePtu h)).ok

theorem State.Canonical.execPtuDrainTimeout {s : State} (h : s.Canonical) {unit} : NextInv (execPtuDrainTimeout unit s) :=
  h.worked (fun h => .ite ((h.foldl (fun h => h.abortClause)).modPtu.restPtu) h)

/-! ### The functions of Machine/Loss.lean -/

theorem State.Canonical.setReach {s : State} (h : s.Canonical) {u st how} : (s.setReach u st how).Canonical := h.update

theorem State.Canonical.heardFrom {s : State} (h : s.Canonical) {u} : (s.heardFrom u).Canonical := .ite h.setReach h

theorem State.Canonical.bounce {s : State} (h : s.Canonical) {x e} : (s.bounce x e).Canonical :=
  .ite (.ite h.respond h.sendResponse) h

theorem State.Canonical.freeFramesTo {s : State} (h : s.Canonical) {u} : (s.freeFramesTo u).Canonical :=
  h.update.foldl (fun h => .ite h.removeFrame h.removeFrame.bounce)

theorem State.Canonical.requeue {s : State} (h : s.Canonical) {k ids} : (s.requeue k ids).Canonical := by
  unfold State.requeue
  refine h.foldl (fun h => ?_)
  split
  · exact h
  · exact .ite h.modSlot.dropIfFree h.modSlot

theorem State.Canonical.strand {s : State} (h : s.Canonical) {k} : (s.strand k).Canonical := h.modHop.requeue

theorem State.Canonical.endTags {s : State} (h : s.Canonical) {u} : (s.endTags u).Canonical :=
  (h.foldl (fun h => .ite h.freeTag h.freeTag.finish)).update.foldl (fun h => h.finish)

theorem State.Canonical.dropHomedOn {s : State} (h : s.Canonical) {u} : (s.dropHomedOn u).Canonical := h.update

theorem State.Canonical.keepStale {s : State} (h : s.Canonical) {u} : (s.keepStale u).Canonical := by
  unfold State.keepStale
  refine h.foldl (fun h => ?_)
  split
  · exact .ite h h.freeReplica
  · exact h.freeReplica

theorem State.Canonical.endRecords {s : State} (h : s.Canonical) {u} : (s.endRecords u).Canonical :=
  (h.foldl (fun h => h.abandon)).foldl (fun h => .ite h.replicaGone.unregister h.replicaGone)

theorem State.Canonical.lostNotice {s : State} (h : s.Canonical) {u rs} : (s.lostNotice u rs).Canonical :=
  h.foldl (fun h => h.sendOwn)

theorem State.Canonical.abortGroupsWith {s : State} (h : s.Canonical) {u} : (s.abortGroupsWith u).Canonical :=
  h.foldl (fun h => h.abortGroup)

theorem State.Canonical.markLost {s : State} (h : s.Canonical) {u how} : (s.markLost u how).Canonical := by
  unfold State.markLost
  refine .ite h ?_
  extract_lets s1 _ _ _ s2 s3 s4 s5 s6
  have h1 : s1.Canonical := h.setReach.wrap
  have h2 : s2.Canonical := h1.update
  have h3 : s3.Canonical := h2.keepStale.dropHomedOn.endTags
  have h4 : s4.Canonical := h3.endRecords.freeFramesTo.abortGroupsWith
  have h5 : s5.Canonical := h4.foldl (fun h => .ite h h.strand)
  have h6 : s6.Canonical := h5.logFault
  exact .ite h6.lostNotice h6

theorem State.Canonical.markBack {s : State} (h : s.Canonical) {u} : (s.markBack u).Canonical :=
  .ite h.setReach.less.logFault h

theorem State.Canonical.relayedLoss {s : State} (h : s.Canonical) {u src} : (s.relayedLoss u src).Canonical :=
  .ite h h.markLost

theorem State.Canonical.directLoss {s : State} (h : s.Canonical) {u f} : (s.directLoss u f).Canonical := .ite h.markLost h

/-! ### The functions of Machine/Trunk.lean -/

theorem State.Canonical.readyCheck {s : State} (h : s.Canonical) : s.readyCheck.Canonical := by
  unfold State.readyCheck
  split
  · exact .ite h.update h
  · exact h

theorem State.Canonical.leaveBulk {s : State} (h : s.Canonical) {f} : (s.leaveBulk f).Canonical := h.set

theorem State.Canonical.release {s : State} (h : s.Canonical) {k lseq id} : (s.release k lseq id).Canonical :=
  h.modHop.modSlot.dropIfFree.sample

theorem State.Canonical.ackUpTo {s : State} (h : s.Canonical) {k kind lseq} : (s.ackUpTo k kind lseq).Canonical :=
  .ite (h.foldl (fun h => h.release)) h

theorem State.Canonical.spend {s : State} (h : s.Canonical) {k vc n} : (s.spend k vc n).Canonical := h.modHop

theorem State.Canonical.grantTo {s : State} (h : s.Canonical) {id ks vc n} : (s.grantTo id ks vc n).Canonical :=
  (h.foldl (fun h => h.spend.modHop)).modSlot

theorem State.Canonical.leave {s : State} (h : s.Canonical) {p id a} : (s.leave p id a).Canonical := by
  unfold State.leave
  extract_lets _ s1
  have h1 : s1.Canonical := h.update
  split
  · exact h1
  · exact .ite h1.count.count.removeFrame h1.grantTo

theorem State.Canonical.sendBurst {s : State} (h : s.Canonical) {f lines targets ctl frames} :
    (s.sendBurst f lines targets ctl frames).Canonical :=
  (h.foldl (fun h => .ite h.count.count h.count.count.charge.charge)).emit

theorem State.Canonical.takeCtl {s : State} (h : s.Canonical) {u room} : (s.takeCtl u room).1.Canonical :=
  h.pair.foldl_fst (fun h => h.modHop.pair)

theorem State.Canonical.number {s : State} (h : s.Canonical) {k id} : (s.number k id).1.Canonical := h.modHop.pair

theorem State.Canonical.takeQueued {s : State} (h : s.Canonical) {f l n} : (s.takeQueued f l n).Canonical := by
  induction n generalizing s with
  | zero => exact h
  | succ n ih =>
    unfold State.takeQueued
    split
    · exact ih h.leave
    · exact h

theorem State.Canonical.openUnicast {s : State} (h : s.Canonical) {k ctl} : (s.openUnicast k ctl).Canonical :=
  .ite h ((h.pair.foldl_fst (fun h => h.modHop.pair)).sendBurst)

theorem State.Canonical.numberMcast {s : State} (h : s.Canonical) {f lines id e} :
    (s.numberMcast f lines id e).1.Canonical :=
  .pair (.modSlot (.foldl (.ite h h.update) (fun h => h.modHop)))

theorem State.Canonical.openMulticast {s : State} (h : s.Canonical) {k all} : (s.openMulticast k all).Canonical :=
  .ite h ((h.pair.foldl_fst (fun h => .pair (.modSlot (.foldl (.ite h h.update) (fun h1 => h1.modHop))))).sendBurst)

theorem State.Canonical.openBurst {s : State} (h : s.Canonical) {f l} : (s.openBurst f l).Canonical := by
  unfold State.openBurst
  refine .ite h ?_
  extract_lets s1
  have h1 : s1.Canonical := h.takeQueued
  split
  next e _ =>
    have h := h1.takeCtl.of_eq e
    exact .ite h.openUnicast h1.openMulticast
  next e _ =>
    have h := h1.takeCtl.of_eq e
    exact h.openUnicast

theorem State.Canonical.resendHeld {s : State} (h : s.Canonical) {k kind prev} : (s.resendHeld k kind prev).Canonical :=
  .ite h (h.modHop.count.pair.foldl_fst (fun h => h.sendBurst.pair))

theorem State.Canonical.resend {s : State} (h : s.Canonical) {k kind lseq} : (s.resend k kind lseq).Canonical :=
  (h.foldl (fun h => h.release)).resendHeld

theorem State.Canonical.queryHop {s : State} (h : s.Canonical) {k} : (s.queryHop k).Canonical := by
  unfold State.queryHop
  refine .ite h ?_
  extract_lets s1
  have h1 : s1.Canonical := .ite h.modHop.sendCtl h
  exact .ite h1.modHop.sendCtl h1

theorem State.Canonical.hopDown {s : State} (h : s.Canonical) {k} : (s.hopDown k).Canonical := by
  unfold State.hopDown
  refine .ite h ?_
  extract_lets _ _ s1 s2 _ s3
  have h1 : s1.Canonical := h.modHop.less
  have h2 : s2.Canonical := .ite h1.set h1
  have h3 : s3.Canonical := .ite h2.set h2
  split
  · exact h3.sendCtl.queryHop
  · exact h3

theorem State.Canonical.unicastCopy {s : State} (h : s.Canonical) {j id} : (s.unicastCopy j id).Canonical := by
  unfold State.unicastCopy
  split
  · exact h
  · exact h.storeFrame.modSlot.modHop

theorem State.Canonical.moveHeld {s : State} (h : s.Canonical) {k kind lseq} : (s.moveHeld k kind lseq).Canonical := by
  unfold State.moveHeld
  split
  · exact h
  · extract_lets s1 _ _ s2 s3
    have h1 : s1.Canonical := h.foldl (fun h => h.release)
    have h2 : s2.Canonical := h1.modHop
    have h3 : s3.Canonical := h2.foldl (fun h => h.modSlot)
    exact .ite (h2.foldl (fun h => h.unicastCopy.modSlot.dropIfFree)) h3.modHop

theorem State.Canonical.failFibre {s : State} (h : s.Canonical) {f} : (s.failFibre f).Canonical :=
  .ite h ((h.foldl (fun h => h.hopDown)).set.leaveBulk.logFault.update.readyCheck)

theorem State.Canonical.flipSwitch {s : State} (h : s.Canonical) {f spare} : (s.flipSwitch f spare).Canonical :=
  h.set.set.set.foldl (fun h => h.set.set)

theorem State.Canonical.drainCheck {s : State} (h : s.Canonical) {f} : (s.drainCheck f).Canonical := by
  unfold State.drainCheck
  refine .ite ?_ h
  extract_lets s1 s2 s3
  have h1 : s1.Canonical := h.foldl (fun h => .ite h.modHop.less h)
  have h2 : s2.Canonical := by
    refine h1.foldl (fun h => ?_)
    extract_lets s4
    have h4 : s4.Canonical := .ite h.set h
    exact .ite h4.set h4
  have h3 : s3.Canonical := h2.set
  split
  · exact h3.flipSwitch
  · exact h3

theorem State.Canonical.fibreDrain {s : State} (h : s.Canonical) {f} : (s.fibreDrain f).Canonical :=
  .ite ((h.set.leaveBulk.foldl (fun h => .ite h.modHop.sendCtl h)).drainCheck) h

theorem State.Canonical.writeDrain {s : State} (h : s.Canonical) {f on} : (s.writeDrain f on).Canonical :=
  .ite h.set.fibreDrain (.ite h.set (.ite h.set.update h.set))

theorem State.Canonical.drainReport {s : State} (h : s.Canonical) {k} : (s.drainReport k).Canonical := .ite h.sendCtl h

theorem State.Canonical.enableLsm {s : State} (h : s.Canonical) {n mode} : (s.enableLsm n mode).Canonical :=
  .ite h.update.emit h

theorem State.Canonical.disableLsm {s : State} (h : s.Canonical) {n} : (s.disableLsm n).Canonical := h.update

theorem State.Canonical.replaceLsm {s : State} (h : s.Canonical) {l failed} : (s.replaceLsm l failed).Canonical := by
  unfold State.replaceLsm
  refine .ite h ?_
  split
  · refine .enableLsm (.set ?_)
    exact .ite h.update h.update.set
  · exact .ite h h.update.logFault

theorem State.Canonical.search {s : State} (h : s.Canonical) {fs} : (s.search fs).Canonical :=
  h.update.foldl (fun h => .ite h.set h)

theorem State.Canonical.lightCheck {s : State} (h : s.Canonical) : s.lightCheck.Canonical := h.update

theorem State.Canonical.nextFibre {s : State} (h : s.Canonical) {r n} : (s.nextFibre r n).Canonical := by
  induction n generalizing s r with
  | zero => exact h
  | succ n ih =>
    unfold State.nextFibre
    extract_lets _ _ _ s1 s2 s3
    have h1 : s1.Canonical := h.update
    have h2 : s2.Canonical := h1.disableLsm.set
    have h3 : s3.Canonical := h2.set.set
    split
    · exact h
    · exact .ite h3.set.logFault (.ite h.update.fibreDrain (.ite h.update (.ite h.update.flipSwitch (ih h.set))))

theorem State.Canonical.spareReady {s : State} (h : s.Canonical) {n} : (s.spareReady n).Canonical := by
  unfold State.spareReady
  split
  · exact h
  · exact .ite ((h.foldl (fun h => h.flipSwitch)).search) h.update.nextFibre

theorem State.Canonical.endFailed {s : State} (h : s.Canonical) : s.endFailed.Canonical :=
  h.foldl (fun h => .ite h.nextFibre h)

theorem State.Canonical.lsmFails {s : State} (h : s.Canonical) {n} : (s.lsmFails n).Canonical := by
  unfold State.lsmFails
  refine .ite h ?_
  extract_lets x1 _ _ s2 s3 _ s4
  clear_value x1
  have h2 : s2.Canonical := h.disableLsm.set
  have h3 : s3.Canonical := h2.foldl (fun h => h.failFibre)
  have h4 : s4.Canonical := h3.update
  split
  · exact h3.update.replaceLsm
  · exact .ite h3 h4.replaceLsm

theorem State.Canonical.hopEnters {s : State} (h : s.Canonical) {k} : (s.hopEnters k).Canonical := by
  unfold State.hopEnters
  extract_lets x1 x2 x3 s4 s5 s6 s7 s8 x9 s10
  clear_value x1 x2 x3 x9
  have h4 : s4.Canonical := h.modHop
  have h5 : s5.Canonical := h4.foldl (fun h => h.unicastCopy.modSlot.dropIfFree)
  have h6 : s6.Canonical := h5.foldl (fun h => .ite h h.queryHop)
  have h7 : s7.Canonical := h6.wrap.set
  have h8 : s8.Canonical := h7.set.markBack
  have h10 : s10.Canonical := h8.update.set
  clear_value s4 s5 s6 s7 s8 s10
  refine .ite ?_ h8
  split
  · exact h10.nextFibre
  · exact h10

theorem State.Canonical.relocked {s : State} (h : s.Canonical) {f} : (s.relocked f).Canonical := by
  unfold State.relocked
  split
  · exact h
  · exact .ite h (.ite h.nextFibre h.update)

theorem State.Canonical.lend {s : State} (h : s.Canonical) {f vc} : (s.lend f vc).Canonical := by
  unfold State.lend
  refine h.foldl (fun h => ?_)
  extract_lets _ _ _ s1 _ _ s2 s3
  have h1 : s1.Canonical := .ite h.modHop h
  have h2 : s2.Canonical := h1.update
  have h3 : s3.Canonical := h2.modHop
  exact .ite h1 h3.sendCtl

theorem State.Canonical.resetReceive {s : State} (h : s.Canonical) {k} : (s.resetReceive k).Canonical := h.modHop

/-! ### The functions of Machine/SwitchRows.lean -/

theorem State.Canonical.nackHop {s : State} (h : s.Canonical) {k kind lseq} : (s.nackHop k kind lseq).Canonical :=
  h.modHop.sendCtl.count

theorem State.Canonical.ackHop {s : State} (h : s.Canonical) {k kind lseq} : (s.ackHop k kind lseq).Canonical := h.sendCtl

theorem State.Canonical.buffer {s : State} (h : s.Canonical) {fibre inLine x out} :
    (s.buffer fibre inLine x out).Canonical := by
  unfold State.buffer
  extract_lets _ _ s1 _ s2
  have h1 : s1.Canonical := h.storeFrame.modSlot
  have h2 : s2.Canonical := h1.modHop
  split
  · exact .ite h2.giveCredit h2
  · exact h1

theorem State.Canonical.notKept {s : State} (h : s.Canonical) {fibre k a} : (s.notKept fibre k a).Canonical :=
  h.count.count.sendCtl

theorem State.Canonical.acceptFrame {s : State} (h : s.Canonical) {fibre k x} : (s.acceptFrame fibre k x).Canonical :=
  .ite h.count.notKept (.ite h.notKept.bounce (.ite h.notKept.bounce h.buffer.freshen))

theorem State.Canonical.cutThrough {s : State} (h : s.Canonical) {fibre k x} : (s.cutThrough fibre k x).Canonical := by
  unfold State.cutThrough
  split
  · refine .ite h ?_
    extract_lets _ s1
    have h1 : s1.Canonical := h.storeFrame.modSlot.freshen
    split
    · exact .ite h1.leave h
    · exact h
  · exact h

theorem State.Canonical.dropMcast {s : State} (h : s.Canonical) {ring} : (s.dropMcast ring).Canonical := h.update

theorem State.Canonical.mcastFails {s : State} (h : s.Canonical) {ring k} : (s.mcastFails ring k).Canonical :=
  h.dropMcast.modHop.nackHop

theorem State.Canonical.acceptMcast {s : State} (h : s.Canonical) {fibre ring k x} :
    (s.acceptMcast fibre ring k x).Canonical := by
  unfold State.acceptMcast
  refine .ite (.ite h.count.mcastFails h.count) (.ite h.count.mcastFails ?_)
  extract_lets s1
  have h1 : s1.Canonical := h.modHop.ackHop.heardFrom
  exact .ite h1.count.notKept h1.buffer

theorem State.Canonical.acceptUnicast {s : State} (h : s.Canonical) {fibre line k x} :
    (s.acceptUnicast fibre line k x).Canonical :=
  .ite h (.ite (.ite h.ackHop (.ite h h.nackHop))
    (.ite h.count (.ite h.count.nackHop.cutThrough h.modHop.ackHop.heardFrom.acceptFrame)))

theorem State.Canonical.askAgain {s : State} (h : s.Canonical) {ring k mcast} : (s.askAgain ring k mcast).Canonical :=
  .ite h.mcastFails (.ite h h.nackHop)

theorem State.Canonical.execFrameReceive {s : State} (h : s.Canonical) {fibre line} :
    NextInv (execFrameReceive fibre line s) := by
  unfold Machine.execFrameReceive
  refine (h.whenLive (fun h => ?_)).settled
  extract_lets
  split
  · exact h
  · refine .drainCheck ?_
    split
    · exact h.update.count.askAgain
    · extract_lets s1
      have h1 : s1.Canonical := h.update.askAgain
      split
      · exact .ite h1.cutThrough h1
      · exact h1
    · exact .ite (.ite h.update h.update.count) (.ite h.update.acceptMcast (.ite h.update.count h.update.acceptUnicast))

theorem State.Canonical.askCredit {s : State} (h : s.Canonical) {k vc n} : (s.askCredit k vc n).Canonical :=
  .ite h.count h.count.sendCtl

theorem State.Canonical.relook {s : State} (h : s.Canonical) {id e} : (s.relook id e).Canonical := by
  unfold State.relook
  split
  · exact h.modSlot.freshen
  · exact h.modSlot

theorem State.Canonical.dropLines {s : State} (h : s.Canonical) {id p e} : (s.dropLines id p e).Canonical := by
  unfold State.dropLines
  refine .ite h ?_
  extract_lets s1
  have h1 : s1.Canonical := by
    refine h.foldl (fun h => ?_)
    split
    · exact h.unicastCopy
    · exact h
  exact h1.modSlot.dropIfFree

theorem State.Canonical.execFrameForward {s : State} (h : s.Canonical) {frameId} : NextInv (execFrameForward frameId s) := by
  unfold Machine.execFrameForward
  refine (h.whenLive (fun h => ?_)).settled
  split
  · exact h
  · refine .ite h (.ite h.removeFrame.bounce (.ite h ?_))
    split
    · exact h.relook
    · extract_lets s1
      have h1 : s1.Canonical := h.dropLines
      refine .ite h1.relook ?_
      split
      · exact h1.askCredit
      · split
        · exact .ite (h1.leave.foldl (fun h => h.drainReport)) h1
        · exact h1

theorem State.Canonical.execEscapeTimeout {s : State} (h : s.Canonical) {frameId} :
    NextInv (execEscapeTimeout frameId s) := by
  unfold Machine.execEscapeTimeout
  refine (h.whenLive (fun h => ?_)).ok
  split
  · exact h
  · exact .ite h h.modSlot

theorem State.Canonical.execBufferEccError {s : State} (h : s.Canonical) {frameId} :
    NextInv (execBufferEccError frameId s) := by
  unfold Machine.execBufferEccError
  refine (h.whenLive (fun h => ?_)).settled
  split
  · exact h
  · exact .ite h.removeFrame.bounce h.modSlot

/-! ### The functions of Machine/TrunkRows.lean -/

theorem State.Canonical.execLsmReady {s : State} (h : s.Canonical) {lsm} : NextInv (execLsmReady lsm s) := by
  unfold Machine.execLsmReady
  refine (h.whenLive (fun h => .ite h ?_)).ok
  extract_lets _ s1 s2
  have h1 : s1.Canonical := h.update
  have h2 : s2.Canonical := .ite h1.set h1
  exact .ite h1.spareReady.lightCheck h2.search.lightCheck

theorem State.Canonical.execLsmFault {s : State} (h : s.Canonical) {lsm} : NextInv (execLsmFault lsm s) :=
  (h.whenLive (fun h => h.lsmFails.lightCheck)).ok

theorem State.Canonical.execLsmRegisterAccessFail {s : State} (h : s.Canonical) {lsm} :
    NextInv (execLsmRegisterAccessFail lsm s) :=
  (h.whenLive (fun h => h.lsmFails.lightCheck)).ok

theorem State.Canonical.degrade {s : State} (h : s.Canonical) {n} : (s.degrade n).Canonical := by
  unfold State.degrade
  refine .ite h (h.foldl (fun h => ?_))
  extract_lets s1
  have h1 : s1.Canonical := h.foldl (fun h => .ite h.hopDown.set h)
  exact .ite h1.failFibre h1

theorem State.Canonical.execBiasEvaluation {s : State} (h : s.Canonical) {readings} :
    NextInv (execBiasEvaluation readings s) := by
  unfold Machine.execBiasEvaluation
  refine (h.whenLive (fun h => h.foldl (fun h => ?_))).ok
  extract_lets _ s1 s2 _ _ _ s3 _ s4
  have h1 : s1.Canonical := h.set.set
  have h2 : s2.Canonical := h1.set
  have h3 : s3.Canonical := .ite h2.set.emit h2
  have h4 : s4.Canonical := .ite h3.replaceLsm h3
  exact .ite h2 h4.degrade

theorem State.Canonical.retire {s : State} (h : s.Canonical) {n} : (s.retire n).Canonical :=
  .ite h (.ite h.set.replaceLsm h.set)

theorem State.Canonical.execLsmRetireWrite {s : State} (h : s.Canonical) {lsm} : NextInv (execLsmRetireWrite lsm s) :=
  (h.whenLive (fun h => h.retire)).ok

theorem State.Canonical.execLsmPresNChange {s : State} (h : s.Canonical) {lsm absent} :
    NextInv (execLsmPresNChange lsm absent s) := by
  unfold Machine.execLsmPresNChange
  extract_lets _ s1 s2 s3
  have h1 : s1.Canonical := h.update
  have h2 : s2.Canonical := h1.disableLsm
  have h3 : s3.Canonical := h1.set
  exact State.Canonical.ok
    (.ite (.ite h2 (.ite h2.set (.ite h2.lsmFails.lightCheck (.ite h2.set h2)))) (.ite (.ite h3.enableLsm h3) h1))

theorem State.Canonical.calibrate {s : State} (h : s.Canonical) {key code} : (s.calibrate key code).Canonical := h.update

theorem State.Canonical.searched {s : State} (h : s.Canonical) {f txLocked rxLocked l} :
    (s.searched f txLocked rxLocked l).Canonical := by
  unfold State.searched
  extract_lets s1 s2 s3
  have h1 : s1.Canonical := h.set.set
  have h2 : s2.Canonical := .ite h (.ite h1.calibrate h1)
  have h3 : s3.Canonical := h2.set.set
  exact .ite h2 (.ite h3.calibrate h3)

theorem State.Canonical.endSearch {s : State} (h : s.Canonical) {f} : (s.endSearch f).Canonical := by
  unfold State.endSearch
  extract_lets s1 s2
  have h1 : s1.Canonical := h.set.set
  have h2 : s2.Canonical := h1.set
  exact .ite (.ite h2 h2.set) (.ite h1.set.logFault (.ite h1.update.endFailed h1.relocked))

theorem State.Canonical.execColdSearchDone {s : State} (h : s.Canonical) {fibre txLocked rxLocked} :
    NextInv (execColdSearchDone fibre txLocked rxLocked s) :=
  (h.whenLive (fun h => .ite h ((h.update.foldl (fun h => h.searched)).freshen.endSearch.search.lightCheck))).ok

theorem State.Canonical.execFabricReadyAssert {s : State} (h : s.Canonical) : NextInv (execFabricReadyAssert s) := by
  unfold Machine.execFabricReadyAssert
  refine (h.whenLive (fun h => ?_)).ok
  split
  · exact h
  · exact .ite (.ite h.update.set.set h.update) h

theorem State.Canonical.unlockRing {s : State} (h : s.Canonical) {r} : (s.unlockRing r).Canonical :=
  .ite (.ite h.hopDown.set.less h) (.ite h.hopDown.set.less h)

theorem State.Canonical.execRingLockLoss {s : State} (h : s.Canonical) {ring} : NextInv (execRingLockLoss ring s) :=
  (h.whenLive (fun h => h.unlockRing.readyCheck)).ok

theorem State.Canonical.execRelockDone {s : State} (h : s.Canonical) {ring ok_} : NextInv (execRelockDone ring ok_ s) :=
  (h.whenLive (fun h => .ite h (.ite h.set.search h.set.wrap.relocked))).ok

theorem State.Canonical.wrongRing {s : State} (h : s.Canonical) {r} : (s.wrongRing r).Canonical := h.count.unlockRing

theorem State.Canonical.execLockSupervisorCheck {s : State} (h : s.Canonical) {wrong} :
    NextInv (execLockSupervisorCheck wrong s) :=
  (h.whenLive (fun h => (h.foldl (fun h => .ite h.wrongRing h)).readyCheck)).ok

theorem State.Canonical.execSignalDetect {s : State} (h : s.Canonical) {fibre line} :
    NextInv (execSignalDetect fibre line s) :=
  (h.whenLive (fun h => .ite h h.update)).ok

theorem State.Canonical.sleep {s : State} (h : s.Canonical) {k} : (s.sleep k).Canonical := h.update

theorem State.Canonical.execLockMiss {s : State} (h : s.Canonical) {fibre line} : NextInv (execLockMiss fibre line s) :=
  (h.whenLive (fun h => h.sleep.count)).ok

theorem State.Canonical.hearBurst {s : State} (h : s.Canonical) {fibre line hdr xs} :
    (s.hearBurst fibre line hdr xs).Canonical := by
  unfold State.hearBurst
  extract_lets _ _ _ s1 s2
  have h1 : s1.Canonical := h.modHop.heardFrom
  have h2 : s2.Canonical := h1.foldl (fun h => .ite h h.directLoss)
  refine .ite (.ite h2 h2.update) ?_
  split
  · exact h2
  · exact .ite (.ite h2.modHop h2.modHop.update) h2.modHop.nackHop

theorem State.Canonical.execBurstReceive {s : State} (h : s.Canonical) {fibre line symbols} :
    NextInv (Machine.execBurstReceive fibre line symbols s) := by
  unfold Machine.execBurstReceive
  refine (h.whenLive fun h => ?_).settled
  extract_lets k r s1 s2 check s3 d
  have h2 : s2.Canonical := h.sleep.count.count.modHop
  clear_value s2
  have hcheck : (check s2).Canonical := h2.count
  split
  · exact .ite h2.askAgain hcheck
  · exact .ite hcheck (.ite (.ite hcheck.wrongRing.readyCheck hcheck.sendCtl) (.ite hcheck h2.hearBurst))

theorem State.Canonical.execBurstOpen {s : State} (h : s.Canonical) {fibre line} : NextInv (execBurstOpen fibre line s) :=
  (h.whenLive (fun h => h.openBurst)).ok

theorem State.Canonical.repeatCtl {s : State} (h : s.Canonical) {k} : (s.repeatCtl k).Canonical := by
  unfold State.repeatCtl
  refine .foldl ?_ (fun h => .ite h.queryHop h)
  exact .ite h.sendCtl h

theorem State.Canonical.execKeepaliveTimer {s : State} (h : s.Canonical) {fibre line} :
    NextInv (execKeepaliveTimer fibre line s) := by
  unfold Machine.execKeepaliveTimer
  refine (h.whenLive (fun h => .ite ?_ h)).ok
  extract_lets s1
  have h1 : s1.Canonical := h.repeatCtl.openBurst
  exact .ite h1.sendCtl.openBurst h1

theorem State.Canonical.execPowerReportTimer {s : State} (h : s.Canonical) {fibre line power} :
    NextInv (execPowerReportTimer fibre line power s) :=
  (h.whenLive (fun h => h.set.modHop.sendCtl)).ok

theorem State.Canonical.execHopLost {s : State} (h : s.Canonical) {fibre line hearsOther} :
    NextInv (execHopLost fibre line hearsOther s) := by
  unfold Machine.execHopLost
  refine (h.whenLive (fun h => .ite h ?_)).settled
  extract_lets s1 s2 s3
  have h1 : s1.Canonical := h.hopDown.modHop
  have h2 : s2.Canonical := h1.set.count
  have h3 : s3.Canonical := .ite h2.directLoss h2
  exact .readyCheck (.ite (h3.foldl (fun h => h.strand)) h3)

theorem State.Canonical.execHopUpTimer {s : State} (h : s.Canonical) {fibre line} : NextInv (execHopUpTimer fibre line s) :=
  (h.whenLive (fun h => .ite h h.modHop.sendBurst)).ok

theorem State.Canonical.ctlHeard {s : State} (h : s.Canonical) {m} : (s.ctlHeard m).Canonical := h.modHop.heardFrom

theorem State.Canonical.linkCtl {s : State} (h : s.Canonical) {m} {f : Nat → State → State}
    (hf : ∀ {a t}, State.Canonical t → (f a t).Canonical) : (s.linkCtl m f).Canonical :=
  h.whenLive (fun h => hf h.ctlHeard)

theorem State.Canonical.execAck {s : State} (h : s.Canonical) {m} : NextInv (execAck m s) :=
  (h.linkCtl (fun h => h.ackUpTo.drainReport.drainCheck)).ok

theorem State.Canonical.execNack {s : State} (h : s.Canonical) {m} : NextInv (execNack m s) :=
  (h.linkCtl (fun h => h.resend.drainReport.drainCheck)).ok

theorem State.Canonical.execCredit {s : State} (h : s.Canonical) {m} : NextInv (execCredit m s) :=
  (h.linkCtl (fun h => h.modHop)).ok

theorem State.Canonical.execCreditReq {s : State} (h : s.Canonical) {m} : NextInv (execCreditReq m s) :=
  (h.linkCtl (fun h => h.modHop.lend)).ok

theorem State.Canonical.execCreditReturn {s : State} (h : s.Canonical) {m} : NextInv (execCreditReturn m s) :=
  (h.linkCtl (fun h => h.modHop.lend)).ok

theorem State.Canonical.execLendIdleTimeout {s : State} (h : s.Canonical) {fibre line vc} :
    NextInv (execLendIdleTimeout fibre line vc s) :=
  (h.whenLive (fun h => .ite h h.spend.sendCtl)).ok

theorem State.Canonical.execPower {s : State} (h : s.Canonical) {m} : NextInv (execPower m s) :=
  (h.linkCtl (fun h => h.set.update)).ok

theorem State.Canonical.execLineAlarm {s : State} (h : s.Canonical) {m} : NextInv (execLineAlarm m s) :=
  (h.linkCtl (fun h => .ite h.wrongRing.readyCheck h)).ok

theorem State.Canonical.execSeqQuery {s : State} (h : s.Canonical) {m} : NextInv (execSeqQuery m s) :=
  (h.linkCtl (fun h => h.modHop.sendCtl)).ok

theorem State.Canonical.execSeqReply {s : State} (h : s.Canonical) {m} : NextInv (execSeqReply m s) :=
  (h.linkCtl (fun h => .ite h h.moveHeld.drainCheck)).ok

theorem State.Canonical.execHopDrain {s : State} (h : s.Canonical) {m} : NextInv (execHopDrain m s) :=
  (h.linkCtl (fun h => h.modHop.drainReport)).ok

theorem State.Canonical.execHopDrainDone {s : State} (h : s.Canonical) {m} : NextInv (execHopDrainDone m s) :=
  (h.linkCtl (fun h => h.modHop.drainCheck)).ok

theorem State.Canonical.execHopDown {s : State} (h : s.Canonical) {m} : NextInv (execHopDown m s) :=
  (h.linkCtl (fun h => h.hopDown.drainCheck)).ok

theorem State.Canonical.execHopUp {s : State} (h : s.Canonical) {m} : NextInv (execHopUp m s) := by
  unfold Machine.execHopUp
  refine (h.linkCtl (fun h => .sendBurst ?_)).ok
  exact .ite h h.resetReceive.modHop

theorem State.Canonical.execHopUpAck {s : State} (h : s.Canonical) {m} : NextInv (execHopUpAck m s) :=
  (h.linkCtl (fun h => .ite h h.hopEnters)).ok

theorem State.Canonical.execKeepalive {s : State} (h : s.Canonical) {m} : NextInv (execKeepalive m s) :=
  (h.linkCtl (fun h => h)).ok

theorem State.Canonical.execRetryTimeout {s : State} (h : s.Canonical) {fibre line} :
    NextInv (execRetryTimeout fibre line s) := by
  unfold Machine.execRetryTimeout
  refine (h.whenLive (fun h => ?_)).ok
  extract_lets
  split
  · exact h
  · extract_lets s1
    have h1 : s1.Canonical := h.resendHeld
    split
    · exact .ite h1.resendHeld h1
    · exact h1

theorem State.Canonical.execHopRetryExhausted {s : State} (h : s.Canonical) {fibre line} :
    NextInv (execHopRetryExhausted fibre line s) :=
  (h.whenLive (fun h => .ite h h.hopDown.drainCheck)).ok

theorem State.Canonical.execOptDrainStart {s : State} (h : s.Canonical) {fibre} : NextInv (execOptDrainStart fibre s) :=
  (h.whenLive (fun h => h.writeDrain)).ok

theorem State.Canonical.execOptDrainReturn {s : State} (h : s.Canonical) {fibre} : NextInv (execOptDrainReturn fibre s) :=
  (h.whenLive (fun h => h.writeDrain)).ok

theorem State.Canonical.execFibreDrainTimeout {s : State} (h : s.Canonical) {fibre} :
    NextInv (execFibreDrainTimeout fibre s) := by
  unfold Machine.execFibreDrainTimeout
  refine (h.whenLive (fun h => .ite h ?_)).settled
  extract_lets s1 s2
  have h1 : s1.Canonical := by
    refine h.foldl (fun h => ?_)
    extract_lets x3 s4 _ _ s5
    clear_value x3
    have h4 : s4.Canonical := h.hopDown
    have h5 : s5.Canonical := h4.modHop
    split
    · exact h4
    · refine h5.foldl (fun h => ?_)
      split
      · exact h
      · exact .ite h.modSlot.dropIfFree (.ite h.removeFrame.logFault.count.bounce h.removeFrame)
  have h2 : s2.Canonical := h1.foldl (fun h => .ite h.relook h.dropLines)
  exact h2.drainCheck

/-! ### The functions of Machine/Boot.lean -/

theorem State.Canonical.inReset {s : State} (h : s.Canonical) {keep : Nat → Bool} : (s.inReset keep).Canonical :=
  ⟨rfl, sortedKeys_filter _ h.regs⟩

theorem State.Canonical.warmKept {s : State} (h : s.Canonical) {keep} : (s.warmKept keep).Canonical := h.inReset.update

theorem State.Canonical.startUp {s : State} (h : s.Canonical) {flash} : (s.startUp flash).Canonical :=
  (h.update.set.set.set.set.set.set.set.set.foldl (fun h => .ite h.set.set.set h.set)).set.set.set.set

theorem State.Canonical.bootFail {s : State} (h : s.Canonical) : s.bootFail.Canonical := h.update.set

theorem State.Canonical.loadBank {s : State} (h : s.Canonical) {flash} : (s.loadBank flash).Canonical := by
  unfold State.loadBank
  extract_lets _ _ _ s1
  have h1 : s1.Canonical := h.set.set
  split
  · exact h1.bootFail
  · extract_lets _ s2
    have h2 : s2.Canonical := h1.set.set
    split
    · exact h2.bootFail
    · refine .ite h2.set.bootFail (.update ?_)
      exact .ite h2.set.set h2.set

theorem State.Canonical.execPorNRelease {s : State} (h : s.Canonical) {straps fuses flash} :
    NextInv (execPorNRelease straps fuses flash s) :=
  State.Canonical.ok (.ite h h.update.startUp.loadBank)

theorem State.Canonical.execPorNAssert {s : State} (h : s.Canonical) : NextInv (execPorNAssert s) := h.inReset.ok

theorem State.Canonical.execWrstNAssert {s : State} (h : s.Canonical) {flash} : NextInv (execWrstNAssert flash s) :=
  State.Canonical.ok (.ite h.warmKept.startUp.loadBank h)

theorem State.Canonical.light {s : State} (h : s.Canonical) : s.light.Canonical :=
  .ite h.set ((h.set.foldl (fun h => .ite h (.ite h.enableLsm (.ite h.enableLsm.emit h)))).foldl
    (fun h => .ite (.ite h.set.setFlag.setPtu h.set) h))

theorem State.Canonical.stemFields {s : State} (h : s.Canonical) {t} : (s.stemFields t).Canonical := by
  unfold State.stemFields
  extract_lets s1 s2 s3
  have h1 : s1.Canonical := h.set.set
  have h2 : s2.Canonical := h1.set.set
  have h3 : s3.Canonical := by
    refine h2.foldl (fun h => ?_)
    split
    · exact h
    · exact h.set.set.set
  exact h3.foldl (fun h => .ite h h.set.set)

theorem State.Canonical.startTraining {s : State} (h : s.Canonical) : s.startTraining.Canonical :=
  ((((h.foldl (fun h => .ite h.enterClock h)).foldl (fun h => .ite h (.ite h.set h.set))).foldl (fun h => h.set)).foldl
    (fun h => h.set)).foldl (fun h => .ite h.set h)

theorem State.Canonical.lock {s : State} (h : s.Canonical) {t} : (s.lock t).Canonical := by
  unfold State.lock
  extract_lets s1 s2 s3 s4 _ s5 s6
  have h1 : s1.Canonical := h.applyEntries
  have h2 : s2.Canonical := by
    unfold s2
    split
    · exact h1.applyEntries.set
    · exact h1.set
  have h3 : s3.Canonical := h2.set.set
  have h4 : s4.Canonical := h3.stemFields
  have h5 : s5.Canonical := h4.set.set
  have h6 : s6.Canonical := h5.set.set.set
  exact h6.update.startTraining.light

theorem State.Canonical.execConfigurationLock {s : State} (h : s.Canonical) : NextInv (execConfigurationLock s) := by
  unfold Machine.execConfigurationLock
  refine State.Canonical.ok ?_
  split
  · exact .ite h.lock h
  · exact h

theorem State.Canonical.quietLink {s : State} (h : s.Canonical) {l} : (s.quietLink l).Canonical := .ite h.count.set.set h

theorem State.Canonical.freeze {s : State} (h : s.Canonical) {stopCycles} : (s.freeze stopCycles).Canonical :=
  h.quietLink.quietLink.set.set.update.freshen

theorem State.Canonical.execFreezeNAssert {s : State} (h : s.Canonical) {stopCycles} :
    NextInv (execFreezeNAssert stopCycles s) :=
  State.Canonical.ok (.ite h.update.freeze h.update)

theorem State.Canonical.execFatalError {s : State} (h : s.Canonical) {cause} : NextInv (execFatalError cause s) := by
  unfold Machine.execFatalError
  refine State.Canonical.ok (.ite (.freeze ?_) h)
  exact .ite h.set.set.recordFault.set h.set.set.recordFault

theorem State.Canonical.emergencyOff {s : State} (h : s.Canonical) {cause} : (s.emergencyOff cause).Canonical :=
  .ite h.warmKept.update.set.recordFault h

theorem State.Canonical.execEpoNAssert {s : State} (h : s.Canonical) : NextInv (execEpoNAssert s) := h.emergencyOff.update.ok

theorem State.Canonical.execCoolOkLossTimeout {s : State} (h : s.Canonical) : NextInv (execCoolOkLossTimeout s) :=
  State.Canonical.ok (.ite h h.emergencyOff)

theorem State.Canonical.execRailOutOfLimits {s : State} (h : s.Canonical) {rail millivolts} :
    NextInv (execRailOutOfLimits rail millivolts s) :=
  State.Canonical.ok (.ite h.emergencyOff h)

/-! ### The functions of Machine/CollRows.lean -/

theorem State.Canonical.collIn {s : State} (h : s.Canonical) {t} {f : Group → Nat → State → State}
    (hf : ∀ {a a2 t}, State.Canonical t → (f a a2 t).Canonical) : (s.collIn t f).Canonical := by
  unfold State.collIn
  split
  · exact h
  · exact .ite h (.ite h.violate (.ite h (hf h)))

theorem State.Canonical.execSlotReservationGrant {s : State} (h : s.Canonical) {partition} :
    NextInv (execSlotReservationGrant partition s) :=
  (h.whenLive (fun h => h.grantSlots)).ok

theorem State.Canonical.execCollReadySend {s : State} (h : s.Canonical) {group} : NextInv (execCollReadySend group s) :=
  h.worked (fun h => h.readyOut)

theorem State.Canonical.execCollData {s : State} (h : s.Canonical) {t data} : NextInv (execCollData t data s) :=
  (h.whenLive (fun h => h.collIn (fun h => h.modInstance))).ok

theorem State.Canonical.checkResult {s : State} (h : s.Canonical) {g t num pass} : (s.checkResult g t num pass).Canonical :=
  h.collSend

theorem State.Canonical.execCollCheck {s : State} (h : s.Canonical) {t crc} : NextInv (execCollCheck t crc s) := by
  unfold Machine.execCollCheck
  refine h.worked (fun h => h.collIn (fun h => ?_))
  split
  · exact h
  · exact .ite h.modInstance.modInstance.checkResult.chunkArrives h.modInstance.modInstance.count.checkResult

theorem State.Canonical.placeHeld {s : State} (h : s.Canonical) {g num} : (s.placeHeld g num).Canonical := by
  unfold State.placeHeld
  split
  · exact h
  · exact h.modInstance.foldl (@fun _ (_, _) h => h.placeBlock)

theorem State.Canonical.execCollCounts {s : State} (h : s.Canonical) {t counts} : NextInv (execCollCounts t counts s) :=
  h.worked (fun h => h.collIn (fun h => h.takeCounts.checkCounts.placeHeld))

theorem State.Canonical.execCollReady {s : State} (h : s.Canonical) {t digest} : NextInv (execCollReady t digest s) :=
  (h.whenLive (fun h => h.collIn (fun h => h.readyIn))).ok

theorem State.Canonical.chunkResult {s : State} (h : s.Canonical) {g num t pass} :
    (s.chunkResult g num t pass).Canonical := by
  unfold State.chunkResult
  split
  · exact h
  · extract_lets
    split
    · exact h
    · split
      · exact h
      · refine .ite ?_ (.ite h h.modInstance.sendChunk)
        extract_lets _ s1 s2
        have h1 : s1.Canonical := .ite h.dropChunk h.modInstance
        have h2 : s2.Canonical := .ite h1.sentPassed h1
        exact h2.resumeChunks.closeInstances

theorem State.Canonical.execCollCheckResult {s : State} (h : s.Canonical) {t pass} :
    NextInv (execCollCheckResult t pass s) :=
  (h.whenLive (fun h => h.collIn (fun h => h.chunkResult))).ok

theorem State.Canonical.abortHere {s : State} (h : s.Canonical) {group e} : (s.abortHere group e).Canonical := by
  unfold State.abortHere
  split
  · split
    · exact h.abortGroup
    · exact h
  · exact h

theorem State.Canonical.execCollCheckExhausted {s : State} (h : s.Canonical) {group peer phase chunk} :
    NextInv (execCollCheckExhausted group peer phase chunk s) :=
  h.worked (fun h => .ite h.abortHere h)

theorem State.Canonical.execCollAbort {s : State} (h : s.Canonical) {t cause origin} :
    NextInv (execCollAbort t cause origin s) :=
  (h.whenLive (fun h => h.collIn (fun h => h.abortGroup))).ok

theorem State.Canonical.execStallTimeout {s : State} (h : s.Canonical) {group} : NextInv (execStallTimeout group s) := by
  unfold Machine.execStallTimeout
  refine (h.whenLive (fun h => ?_)).ok
  split
  · split
    · exact .ite h.abortGroup h
    · exact h
  · exact h

/-! ### The functions of Machine/Epoch.lean -/

theorem State.Canonical.startMove {s : State} (h : s.Canonical) {e k} : (s.startMove e k).Canonical :=
  h.takeFrame.update.modPm.copyPage.freshen

theorem State.Canonical.pumpMoves {s : State} (h : s.Canonical) : s.pumpMoves.Canonical := by
  unfold State.pumpMoves
  refine .ite h (h.foldl (fun h => .ite h (.ite h.update ?_)))
  split
  · exact h.update
  · refine .ite h.update ?_
    split
    · exact h.update.startMove
    · exact .ite h h.update

theorem State.Canonical.offerHome {s : State} (h : s.Canonical) {e} : (s.offerHome e).Canonical := h.update.sendDir

theorem State.Canonical.offerHomes {s : State} (h : s.Canonical) {left} : (s.offerHomes left).Canonical :=
  h.foldl (fun h => .ite h.offerHome h)

theorem State.Canonical.placeReplica {s : State} (h : s.Canonical) {p page frame hd} :
    (s.placeReplica p page frame hd).Canonical := by
  unfold State.placeReplica
  split
  · exact h
  next e =>
    have h := h.takeDir e
    exact h.setDirRec.sendDir

theorem State.Canonical.placeReplicas {s : State} (h : s.Canonical) : s.placeReplicas.Canonical := by
  unfold State.placeReplicas
  extract_lets _ s1
  have h1 : s1.Canonical := h.foldl (fun h => .ite h.placeReplica h)
  refine h1.foldl (fun h => ?_)
  split
  · exact .ite h.placeReplica h
  · exact h

theorem State.Canonical.dropWritten {s : State} (h : s.Canonical) : s.dropWritten.Canonical :=
  h.foldl (fun h => h.foldl (fun h => .ite h.sendDrop (.ite h.sendDrop h)))

theorem State.Canonical.dropUnused {s : State} (h : s.Canonical) : s.dropUnused.Canonical :=
  h.foldl (@fun _ (_, _) h => .ite h.dropHeld h.update)

theorem State.Canonical.newPlanes {s : State} (h : s.Canonical) {use warm} : (s.newPlanes use warm).Canonical := h.update.set

theorem State.Canonical.closeEpoch {s : State} (h : s.Canonical) : s.closeEpoch.Canonical :=
  h.wrap.update.foldl (fun h => h.abandon)

theorem State.Canonical.ageHolds {s : State} (h : s.Canonical) {held} : (s.ageHolds held).Canonical := h.update

theorem State.Canonical.epochEnd {s : State} (h : s.Canonical) {use} : (s.epochEnd use).Canonical := by
  unfold State.epochEnd
  refine .newPlanes (.ageHolds (.dropUnused (.dropWritten ?_)))
  exact .ite h.closeEpoch h.closeEpoch.update.pumpMoves.offerHomes.placeReplicas

/-! ### The functions of Machine/DirRows.lean -/

theorem State.Canonical.dirServe {s : State} (h : s.Canonical) {m op} {f : State → State}
    (hf : ∀ {t}, State.Canonical t → (f t).Canonical) : NextInv (s.dirServe m op f) :=
  (h.whenLive (fun h => h.dirRequest hf)).settled

theorem State.Canonical.execDirRegister {s : State} (h : s.Canonical) {m} : NextInv (execDirRegister m s) :=
  h.dirServe (fun h => h.registerAtHome)

theorem State.Canonical.dropOffer {s : State} (h : s.Canonical) {frame} : (s.dropOffer frame).Canonical := by
  unfold State.dropOffer
  split
  · exact .ite h.freeFrame h
  · exact h

theorem State.Canonical.execDirUnregister {s : State} (h : s.Canonical) {m} : NextInv (execDirUnregister m s) :=
  h.dirServe (fun h => h.ownerOnly (fun h => h.unregister.dropOffer.dirAnswer))

theorem State.Canonical.execPmPrepare {s : State} (h : s.Canonical) {m} : NextInv (execPmPrepare m s) :=
  h.dirServe (fun h => .ite h.update.dirAnswer h.dirAnswer)

theorem State.Canonical.execPmUpdate {s : State} (h : s.Canonical) {m} : NextInv (execPmUpdate m s) :=
  h.dirServe (fun h => h.takeUpdate.update.answerUpdates)

theorem State.Canonical.execPmRelease {s : State} (h : s.Canonical) {m} : NextInv (execPmRelease m s) :=
  h.dirServe (fun h => h.update.dirAnswer)

theorem State.Canonical.execReplPlace {s : State} (h : s.Canonical) {m} : NextInv (execReplPlace m s) := by
  unfold Machine.execReplPlace
  refine h.dirServe (fun h => .ite h.dirAnswer ?_)
  split
  · exact h.dirAnswer
  · exact h.takeFrame.update.freshen.modPm.dirAnswer

theorem State.Canonical.emptyReplica {s : State} (h : s.Canonical) {r first last op m} :
    (s.emptyReplica r first last op m).Canonical :=
  h.removeLines

theorem State.Canonical.execReplInval {s : State} (h : s.Canonical) {m} : NextInv (execReplInval m s) := by
  unfold Machine.execReplInval
  refine h.dirServe (fun h => ?_)
  extract_lets
  split
  · exact h.spoilFills.dirAnswer
  · exact h.setReplica.spoilFills.emptyReplica

theorem State.Canonical.execReplDrop {s : State} (h : s.Canonical) {m} : NextInv (execReplDrop m s) := by
  unfold Machine.execReplDrop
  refine h.dirServe (fun h => .ite (h.ownerOnly (fun h => h.replicaGone.dirAnswer)) ?_)
  extract_lets
  split
  · exact h.spoilFills.dirAnswer
  · exact h.forgetReplica.spoilFills.emptyReplica

theorem State.Canonical.execRehomeOffer {s : State} (h : s.Canonical) {m} : NextInv (execRehomeOffer m s) := by
  unfold Machine.execRehomeOffer
  refine h.dirServe (fun h => ?_)
  extract_lets _ s1
  have h1 : s1.Canonical := h.dirAnswer
  refine .ite h1 ?_
  split
  · exact h1
  · exact h.takeFrame.setDirRec.freshen.dirAnswer

theorem State.Canonical.execDirResp {s : State} (h : s.Canonical) {_op status m} : NextInv (execDirResp _op status m s) := by
  unfold Machine.execDirResp
  refine (h.whenLive (fun h => ?_)).settled
  extract_lets
  split
  · exact .ite h.respond.relayedLoss h.respond
  · exact h.respond

theorem State.Canonical.execEpochEnd {s : State} (h : s.Canonical) {planeUse} : NextInv (execEpochEnd planeUse s) :=
  (h.whenLive (fun h => h.epochEnd)).settled

theorem State.Canonical.migStep {s : State} (h : s.Canonical) {p page} {f : Migration → State → State}
    (hf : ∀ {a t}, State.Canonical t → (f a t).Canonical) : NextInv (s.migStep p page f) := by
  unfold State.migStep
  refine (h.whenLive (fun h => ?_)).settled
  split
  · exact h
  · exact .ite h.abandon.pumpMoves (hf h)

theorem State.Canonical.execMigrationCopyDone {s : State} (h : s.Canonical) {partition page} :
    NextInv (execMigrationCopyDone partition page s) :=
  h.migStep (fun h => .ite h.prepare h)

theorem State.Canonical.execMigrationQuiesce {s : State} (h : s.Canonical) {partition page} :
    NextInv (execMigrationQuiesce partition page s) :=
  h.migStep (fun h => .ite h.modMig.moveOn h)

theorem State.Canonical.execQuiesceTimeout {s : State} (h : s.Canonical) {partition page} :
    NextInv (execQuiesceTimeout partition page s) :=
  h.migStep (fun h => .ite h.modMig.endQuiet h)

theorem State.Canonical.execMigrationRetry {s : State} (h : s.Canonical) {partition page} :
    NextInv (execMigrationRetry partition page s) :=
  h.migStep (fun h => .ite h.prepare (.ite h.modMig h))

theorem State.Canonical.execMigrationFinish {s : State} (h : s.Canonical) {partition page} :
    NextInv (execMigrationFinish partition page s) :=
  h.migStep (fun h => .ite h.finishMove.pumpMoves h)

/-! ### The functions of Machine/Keys.lean -/

theorem State.Canonical.returned {s : State} (h : s.Canonical) {block cipher tag} :
    (s.returned block cipher tag).Canonical := by
  unfold State.returned
  split
  · exact h
  · exact .ite h (.ite h.memWrite h.update)

/-! ### The functions of Machine/EdgeRows.lean -/

theorem State.Canonical.edgeRow {s : State} (h : s.Canonical) {f : State → State}
    (hf : ∀ {t}, State.Canonical t → (f t).Canonical) : NextInv (edgeRow s f) :=
  (h.whenLive hf).settled

theorem State.Canonical.execApertureRead {s : State} (h : s.Canonical) {d} : NextInv (execApertureRead d s) := by
  unfold Machine.execApertureRead
  refine h.edgeRow (fun h => ?_)
  split
  · exact h.ctlRead
  · exact h.aperture

theorem State.Canonical.execApertureWrite {s : State} (h : s.Canonical) {d data} : NextInv (execApertureWrite d data s) := by
  unfold Machine.execApertureWrite
  refine h.edgeRow (fun h => ?_)
  split
  · exact h.ctlWrite
  · exact h.aperture

theorem State.Canonical.execApertureAtomic {s : State} (h : s.Canonical) {d op operand compare} :
    NextInv (execApertureAtomic d op operand compare s) := by
  unfold Machine.execApertureAtomic
  refine h.edgeRow (fun h => ?_)
  split
  · exact h.ctlAtomic
  · exact h.aperture

theorem State.Canonical.execDoorbell {s : State} (h : s.Canonical) {c value} : NextInv (execDoorbell c value s) :=
  h.edgeRow (fun h => h.ctlWrite)

theorem State.Canonical.execCqHeadWrite {s : State} (h : s.Canonical) {c value} : NextInv (execCqHeadWrite c value s) :=
  h.edgeRow (fun h => h.ctlWrite)

theorem State.Canonical.execControlRegionRead {s : State} (h : s.Canonical) {c} : NextInv (execControlRegionRead c s) :=
  h.edgeRow (fun h => h.ctlRead)

theorem State.Canonical.execControlCounterWrite {s : State} (h : s.Canonical) {c value} :
    NextInv (execControlCounterWrite c value s) :=
  h.edgeRow (fun h => h.ctlWrite)

theorem State.Canonical.execControlRegionAtomic {s : State} (h : s.Canonical) {c op operand compare} :
    NextInv (execControlRegionAtomic c op operand compare s) :=
  h.edgeRow (fun h => h.ctlAtomic)

theorem State.Canonical.setPort {s : State} (h : s.Canonical) {port st} : (s.setPort port st).Canonical := by
  unfold State.setPort
  extract_lets s1
  have h1 : s1.Canonical := .ite h.set h.set
  exact .ite h1.logFault h1

theorem State.Canonical.startIde {s : State} (h : s.Canonical) {port} : (s.startIde port).Canonical := by
  unfold State.startIde
  refine .ite (.freshen (.update ?_)) h
  exact .ite h.set h.set

theorem State.Canonical.execEdgeDeviceEnumeration {s : State} (h : s.Canonical) {port rate width hdmSize suitable ideOk}
    : NextInv (execEdgeDeviceEnumeration port rate width hdmSize suitable ideOk s) := by
  unfold Machine.execEdgeDeviceEnumeration
  refine (h.whenLive (fun h => .ite h (.ite h.setPort ?_))).ok
  extract_lets s1 s2 _ s3
  have h1 : s1.Canonical := .ite h.set.set h
  have h2 : s2.Canonical := h1.emit.startIde
  have h3 : s3.Canonical := .ite (.ite h2.set h2.set) h2.update
  exact h3.setPort

theorem State.Canonical.failExpander {s : State} (h : s.Canonical) {port} : (s.failExpander port).Canonical :=
  h.update.setPort.loseUnit.wakeFar

theorem State.Canonical.expanderDown {s : State} (h : s.Canonical) {port} : (s.expanderDown port).Canonical :=
  .ite h.update h

theorem State.Canonical.execEdgeLinkLoss {s : State} (h : s.Canonical) {port} : NextInv (execEdgeLinkLoss port s) :=
  h.edgeRow (fun h => .ite h.edgeLost h)

theorem State.Canonical.execIdeMacFailure {s : State} (h : s.Canonical) {port} : NextInv (execIdeMacFailure port s) :=
  h.edgeRow (fun h => .ite h (.ite h.expanderDown h.edgeLost))

theorem State.Canonical.execIdeKeyRefresh {s : State} (h : s.Canonical) {port} : NextInv (execIdeKeyRefresh port s) :=
  (h.whenLive (fun h => .ite h.emit h)).ok

theorem State.Canonical.execBisnp {s : State} (h : s.Canonical) {slot offset} : NextInv (execBisnp slot offset s) :=
  h.edgeRow (fun h => h.removeLine)

theorem State.Canonical.execCxlMemCompletion {s : State} (h : s.Canonical) {port tag ok data} :
    NextInv (execCxlMemCompletion port tag ok data s) := by
  unfold Machine.execCxlMemCompletion
  refine h.edgeRow (fun h => ?_)
  split
  · exact .ite h.memDone.settleEdges h
  · exact h

theorem State.Canonical.execEdgeDisable {s : State} (h : s.Canonical) {port} : NextInv (execEdgeDisable port s) :=
  h.edgeRow (fun h => .ite h.edgeEnable.settleEdges h)

theorem State.Canonical.execEdgeEnable {s : State} (h : s.Canonical) {port} : NextInv (execEdgeEnable port s) :=
  (h.whenLive (fun h => .ite h.edgeEnable h)).ok

theorem State.Canonical.execEdgeDrainTimeout {s : State} (h : s.Canonical) {port} : NextInv (execEdgeDrainTimeout port s) :=
  h.edgeRow (fun h => .ite h.edgeDrainExpired.settle.settleEdges h)

theorem State.Canonical.startCfg {s : State} (h : s.Canonical) {port v} : (s.startCfg port v).Canonical :=
  .ite h.set.set.freshen h.set.set.freshen.update.emit

theorem State.Canonical.execEdgeCfgAccess {s : State} (h : s.Canonical) {port value} :
    NextInv (execEdgeCfgAccess port value s) :=
  (h.whenLive (fun h => .ite h.startCfg h)).ok

theorem State.Canonical.execEdgeCfgDone {s : State} (h : s.Canonical) {port ok} : NextInv (execEdgeCfgDone port ok s) := by
  unfold Machine.execEdgeCfgDone
  refine (h.whenLive (fun h => ?_)).ok
  split
  · exact h
  · exact .ite h.update.set.set (.ite h.update.set h.update.set.set)

theorem State.Canonical.execExpanderLinkDown {s : State} (h : s.Canonical) {port} : NextInv (execExpanderLinkDown port s) :=
  (h.whenLive (fun h => h.expanderDown)).ok

theorem State.Canonical.execExpanderLinkReturn {s : State} (h : s.Canonical) {port intact} :
    NextInv (execExpanderLinkReturn port intact s) :=
  h.edgeRow (fun h => .ite (.ite h.update.wakeFar h.failExpander) h)

theorem State.Canonical.execExpanderReturnTimeout {s : State} (h : s.Canonical) {port} :
    NextInv (execExpanderReturnTimeout port s) :=
  h.edgeRow (fun h => .ite h.failExpander h)

theorem State.Canonical.siteFailed {s : State} (h : s.Canonical) {site} : (s.siteFailed site).Canonical := h.set.logFault

theorem State.Canonical.execGddrTrainingDone {s : State} (h : s.Canonical) {site rate density devices ok} :
    NextInv (execGddrTrainingDone site rate density devices ok s) :=
  (h.whenLive (fun h => .ite h (.ite h.siteFailed (.ite h.siteFailed (h.set.set.foldl (fun h => h.set)))))).ok

theorem State.Canonical.siteLost {s : State} (h : s.Canonical) {site} : (s.siteLost site).Canonical :=
  .ite h.siteFailed.loseUnit h

theorem State.Canonical.execGddrRetrain {s : State} (h : s.Canonical) {site ok} : NextInv (execGddrRetrain site ok s) :=
  (h.whenLive (fun h => .ite h h.siteLost)).ok

theorem State.Canonical.execGddr7TransferCompletion {s : State} (h : s.Canonical)
    {site block write crcFails uncorrectable other} :
    NextInv (execGddr7TransferCompletion site block write crcFails uncorrectable other s) := by
  unfold Machine.execGddr7TransferCompletion
  refine (h.whenLive (fun h => .ite h ?_)).ok
  extract_lets s1
  have h1 : s1.Canonical := h.count
  refine .ite h1.poisonBlock.count ?_
  split
  · exact .ite h1 h1.returned
  · exact h1

theorem State.Canonical.execGddr7DeviceFatalError {s : State} (h : s.Canonical) {site} :
    NextInv (execGddr7DeviceFatalError site s) :=
  (h.whenLive (fun h => h.siteLost)).ok

/-! ### The functions of Machine/Nelar.lean -/

theorem State.Canonical.takeMessage {s : State} (h : s.Canonical) {path bs} : (s.takeMessage path bs).Canonical := by
  unfold State.takeMessage
  extract_lets
  split
  next e =>
    have h := h.vet.of_eq e
    exact h.update
  next e => exact h.vet.of_eq e

theorem State.Canonical.parse {s : State} (h : s.Canonical) {l n} : (s.parse l n).Canonical := by
  induction n generalizing s with
  | zero => exact h
  | succ n ih =>
    unfold State.parse
    exact .ite h (.ite (ih h.setLink) (.ite h (ih h.setLink.takeMessage)))

theorem State.Canonical.countFreed {s : State} (h : s.Canonical) {l} : (s.countFreed l).Canonical := h.setLink

theorem State.Canonical.takeAck {s : State} (h : s.Canonical) {l ack} : (s.takeAck l ack).Canonical := .ite h.setLink h

theorem State.Canonical.replay {s : State} (h : s.Canonical) {l} : (s.replay l).Canonical :=
  .ite h (h.setLink.count.foldl (fun h => h.sendFlit))

theorem State.Canonical.restLink {s : State} (h : s.Canonical) {l} : (s.restLink l).Canonical := .ite h.set h

theorem State.Canonical.moveMsgs {s : State} (h : s.Canonical) {l ms} : (s.moveMsgs l ms).Canonical :=
  h.foldl (fun h => h.sendVia)

theorem State.Canonical.linkDown {s : State} (h : s.Canonical) {l} : (s.linkDown l).Canonical := by
  unfold State.linkDown
  refine .ite h ?_
  extract_lets _ _ _ s1 s2 s3
  have h1 : s1.Canonical := h.setLink
  have h2 : s2.Canonical := .ite h1.set h1.enterClock
  have h3 : s3.Canonical := h2.count.set
  exact h3.logFault.moveMsgs

theorem State.Canonical.drainLink {s : State} (h : s.Canonical) {l} : (s.drainLink l).Canonical :=
  .ite ((h.set.setLink.set.foldl (fun h => h.sendVia)).restLink) (.ite h.set.set h.set)

theorem State.Canonical.enableLink {s : State} (h : s.Canonical) {l} : (s.enableLink l).Canonical :=
  .ite h.set (.ite h.set.enterClock h.set)

theorem State.Canonical.writeLink {s : State} (h : s.Canonical) {l on} : (s.writeLink l on).Canonical :=
  .ite h.enableLink h.drainLink

theorem State.Canonical.flushNotices {s : State} (h : s.Canonical) {l} : (s.flushNotices l).Canonical :=
  ((h.update.foldl (fun h => h.sendOn)).foldl (fun h => h.sendOwn)).flushBatches

theorem State.Canonical.execNelarLinkActive {s : State} (h : s.Canonical) {link locked lanes skew turn} :
    NextInv (execNelarLinkActive link locked lanes skew turn s) := by
  unfold Machine.execNelarLinkActive
  refine (h.whenLive (fun h => .ite h ?_)).ok
  extract_lets s1 _ s2 _ s3
  have h1 : s1.Canonical := h.set
  have h2 : s2.Canonical := h1.set.setFlag
  have h3 : s3.Canonical := h2.set
  exact .ite h1.set (.ite h1.set (.ite h3.set h3.set.setLink.emit.freshen.flushNotices))

theorem State.Canonical.execNelarLinkDown {s : State} (h : s.Canonical) {link} : NextInv (execNelarLinkDown link s) :=
  (h.whenLive (fun h => .ite h.linkDown h)).ok

theorem State.Canonical.takeFlit {s : State} (h : s.Canonical) {l f} : (s.takeFlit l f).Canonical := by
  unfold State.takeFlit
  refine .restLink (.pump ?_)
  exact .ite (.ite h.takeAck.setLink.setLink.parse.countFreed (.ite h.takeAck.setLink h.takeAck.setLink.setLink.sendFlit))
    (.ite h.takeAck.setLink.replay h.takeAck.setLink)

theorem State.Canonical.countBip {s : State} (h : s.Canonical) {l lane} : (s.countBip l lane).Canonical := by
  unfold State.countBip
  split <;> exact h.count

theorem State.Canonical.flitIn {s : State} (h : s.Canonical) {l f} : (s.flitIn l f).Canonical :=
  .ite h (.ite h.count (.ite h h.takeFlit))

theorem State.Canonical.laneEvents {s : State} (h : s.Canonical) {l es} : (s.laneEvents l es).Canonical := by
  unfold State.laneEvents
  refine h.foldl (fun h => ?_)
  split
  · exact h.flitIn
  · exact h.countBip
  · exact .ite h.linkDown h

theorem State.Canonical.blocksIn {s : State} (h : s.Canonical) {l bs} : (s.blocksIn l bs).Canonical :=
  .ite h h.setLink.laneEvents

theorem State.Canonical.execFlitReceive {s : State} (h : s.Canonical) {link blocks} :
    NextInv (execFlitReceive link blocks s) :=
  (h.whenLive (fun h => h.blocksIn)).ok

theorem State.Canonical.execNackFlit {s : State} (h : s.Canonical) {link blocks} : NextInv (execNackFlit link blocks s) :=
  (h.whenLive (fun h => h.blocksIn)).ok

theorem State.Canonical.execReplayTimeout {s : State} (h : s.Canonical) {link} : NextInv (execReplayTimeout link s) :=
  (h.whenLive (fun h => .ite h.replay h)).ok

theorem State.Canonical.execNelarReplayExhausted {s : State} (h : s.Canonical) {link} :
    NextInv (execNelarReplayExhausted link s) :=
  (h.whenLive (fun h => .ite h.linkDown h)).ok

theorem State.Canonical.execNelarDisable {s : State} (h : s.Canonical) {link} : NextInv (execNelarDisable link s) :=
  (h.whenLive (fun h => .ite h.writeLink h)).ok

theorem State.Canonical.execNelarEnable {s : State} (h : s.Canonical) {link} : NextInv (execNelarEnable link s) :=
  (h.whenLive (fun h => .ite h.writeLink h)).ok

theorem State.Canonical.execNelarDrainTimeout {s : State} (h : s.Canonical) {link} :
    NextInv (execNelarDrainTimeout link s) :=
  (h.whenLive (fun h => .ite h.setLink.set.moveMsgs h)).ok

/-! ### The functions of Machine/Tele.lean -/

theorem State.Canonical.whenManaged {s : State} (h : s.Canonical) {f : State → State}
    (hf : ∀ {t}, State.Canonical t → (f t).Canonical) : (s.whenManaged f).Canonical :=
  .ite (hf h) h

theorem State.Canonical.emptyHist {s : State} (h : s.Canonical) {hd} : (s.emptyHist hd).Canonical := h.update

theorem State.Canonical.snapHist {s : State} (h : s.Canonical) {hd} : (s.snapHist hd).Canonical :=
  (h.set.set.set.set.foldl (fun h => h.set)).emptyHist

theorem State.Canonical.snapHists {s : State} (h : s.Canonical) {mask} : (s.snapHists mask).Canonical := by
  unfold State.snapHists
  refine .foldl ?_ (fun h => .ite h h.snapHist)
  exact .ite h.set h

theorem State.Canonical.shadowPort {s : State} (h : s.Canonical) {p} : (s.shadowPort p).Canonical := h.foldl (fun h => h.set)

theorem State.Canonical.clearPort {s : State} (h : s.Canonical) {p} : (s.clearPort p).Canonical :=
  (h.foldl (fun h => h.set)).set.set

theorem State.Canonical.snapPorts {s : State} (h : s.Canonical) : s.snapPorts.Canonical :=
  (h.foldl (fun h => h.shadowPort)).set

theorem State.Canonical.snapClearPorts {s : State} (h : s.Canonical) : s.snapClearPorts.Canonical :=
  h.snapPorts.foldl (fun h => h.clearPort)

theorem State.Canonical.writeSnap {s : State} (h : s.Canonical) {v} : (s.writeSnap v).Canonical :=
  .ite (.ite h.snapHists.snapClearPorts h.snapHists.snapPorts) h.snapHists

theorem State.Canonical.writeHcfg {s : State} (h : s.Canonical) {hd v} : (s.writeHcfg hd v).Canonical := by
  unfold State.writeHcfg
  extract_lets
  split
  · exact h.writeFields.emptyHist
  · exact h

theorem State.Canonical.execTeleSnapHist {s : State} (h : s.Canonical) {mask} : NextInv (execTeleSnapHist mask s) :=
  (h.whenManaged (fun h => h.snapHists)).ok

theorem State.Canonical.execTeleSnapPorts {s : State} (h : s.Canonical) : NextInv (execTeleSnapPorts s) :=
  (h.whenManaged (fun h => h.snapPorts)).ok

theorem State.Canonical.execTeleSnapClearPorts {s : State} (h : s.Canonical) : NextInv (execTeleSnapClearPorts s) :=
  (h.whenManaged (fun h => h.snapClearPorts)).ok

theorem State.Canonical.execTeleHcfgWrite {s : State} (h : s.Canonical) {hist value} :
    NextInv (execTeleHcfgWrite hist value s) :=
  (h.whenManaged (fun h => .ite h.writeHcfg h)).ok

theorem State.Canonical.sampleAll {s : State} (h : s.Canonical) : s.sampleAll.Canonical :=
  (h.foldl (fun h => h.sample)).sample.sample.sample

theorem State.Canonical.execTeleSampleTimer {s : State} (h : s.Canonical) : NextInv (execTeleSampleTimer s) :=
  (h.whenLive (fun h => h.sampleAll)).ok

theorem State.Canonical.streamHists {s : State} (h : s.Canonical) : s.streamHists.Canonical :=
  .ite h ((h.foldl (fun h => h.snapHist)).stream)

theorem State.Canonical.execTeleStreamInterval {s : State} (h : s.Canonical) : NextInv (execTeleStreamInterval s) :=
  (h.whenLive (fun h => h.streamHists)).ok

/-! ### The functions of Machine/Select.lean -/

theorem State.Canonical.latch {s : State} (h : s.Canonical) {path reg v} : (s.latch path reg v).Canonical := h.update

theorem State.Canonical.probePm {s : State} (h : s.Canonical) {path v} : (s.probePm path v).Canonical := h.latch.freshen

theorem State.Canonical.execXlatPmProbeWrite {s : State} (h : s.Canonical) {path value} :
    NextInv (execXlatPmProbeWrite path value s) :=
  (h.whenManaged (fun h => h.probePm)).ok

theorem State.Canonical.execConjGroupSelWrite {s : State} (h : s.Canonical) {path value} :
    NextInv (execConjGroupSelWrite path value s) :=
  (h.whenManaged (fun h => h.latch)).ok

theorem State.Canonical.execParserProbeWrite {s : State} (h : s.Canonical) {path value} :
    NextInv (execParserProbeWrite path value s) :=
  (h.whenManaged (fun h => h.latch)).ok

theorem State.Canonical.execSecVlogSelWrite {s : State} (h : s.Canonical) {path value} :
    NextInv (execSecVlogSelWrite path value s) :=
  (h.whenManaged (fun h => h.latch)).ok

theorem State.Canonical.execFaultReachSelWrite {s : State} (h : s.Canonical) {path value} :
    NextInv (execFaultReachSelWrite path value s) :=
  (h.whenManaged (fun h => h.latch)).ok

theorem State.Canonical.execFaultLogSelWrite {s : State} (h : s.Canonical) {path value} :
    NextInv (execFaultLogSelWrite path value s) :=
  (h.whenManaged (fun h => h.latch)).ok

/-! ### The functions of Machine/TileRows.lean -/

theorem State.Canonical.returnClause {s : State} (h : s.Canonical) {l c} : (s.returnClause l c).Canonical := by
  unfold State.returnClause
  split
  · exact h
  · split
    · exact h
    · refine .ite h ?_
      extract_lets _ s1 s2
      have h1 : s1.Canonical := h.endCtx
      have h2 : s2.Canonical := h1.modClause
      exact .ite h2.update h2

theorem State.Canonical.tileDown {s : State} (h : s.Canonical) {n} : (s.tileDown n).Canonical := by
  unfold State.tileDown
  split
  · exact h
  · exact .ite ((h.set.set.foldl (fun h => h.returnClause)).restTile) h.set

theorem State.Canonical.tileUp {s : State} (h : s.Canonical) {n} : (s.tileUp n).Canonical := by
  unfold State.tileUp
  split
  · exact h
  · exact .ite h.set.set h.set

theorem State.Canonical.enableTile {s : State} (h : s.Canonical) {n on} : (s.enableTile n on).Canonical :=
  .ite h.tileUp h.tileDown

theorem State.Canonical.execTileDisable {s : State} (h : s.Canonical) {phys} : NextInv (execTileDisable phys s) :=
  (h.whenLive (fun h => h.enableTile)).settled

theorem State.Canonical.execTileEnable {s : State} (h : s.Canonical) {phys} : NextInv (execTileEnable phys s) :=
  (h.whenLive (fun h => h.enableTile)).settled

theorem State.Canonical.tileExpired {s : State} (h : s.Canonical) {n} : (s.tileExpired n).Canonical := by
  unfold State.tileExpired
  split
  · exact h
  · exact .ite h (((h.foldl (fun h => h.abortClause)).foldl (fun h => h.endCtx)).restTile)

theorem State.Canonical.execTileDrainTimeout {s : State} (h : s.Canonical) {phys} : NextInv (execTileDrainTimeout phys s) :=
  (h.whenLive (fun h => h.tileExpired)).settled

theorem State.Canonical.quarantineFor {s : State} (h : s.Canonical) {id} : (s.quarantineFor id).Canonical := h.update

theorem State.Canonical.tagExpired {s : State} (h : s.Canonical) {tag} : (s.tagExpired tag).Canonical := by
  unfold State.tagExpired
  split
  · exact h
  · exact .ite h (.finish (.ite h.update h.update.count.logFault))

theorem State.Canonical.directExpired {s : State} (h : s.Canonical) {id} : (s.directExpired id).Canonical := by
  unfold State.directExpired
  split
  · exact h
  · exact h.quarantineFor.count.logFault.directDone

theorem State.Canonical.execTransactionTimeout {s : State} (h : s.Canonical) {tag} :
    NextInv (execTransactionTimeout tag s) :=
  (h.whenLive (fun h => .ite h.tagExpired h.directExpired)).settled

theorem State.Canonical.faultMark {s : State} (h : s.Canonical) {u back} : (s.faultMark u back).Canonical :=
  .ite h (.ite h.markBack h.markLost)

theorem State.Canonical.execFaultMarkLost {s : State} (h : s.Canonical) {chip} : NextInv (execFaultMarkLost chip s) :=
  (h.whenLive (fun h => h.faultMark)).settled

theorem State.Canonical.execFaultMarkReachable {s : State} (h : s.Canonical) {chip} :
    NextInv (execFaultMarkReachable chip s) :=
  (h.whenLive (fun h => h.faultMark)).settled

/-! ### The functions of Machine/Regs.lean -/

theorem State.Canonical.readReg {s : State} (h : s.Canonical) {path a} : (s.readReg path a).1.Canonical :=
  .pair (.ite h.reservedAccess (.ite h.freshen h))

theorem State.Canonical.readRegs {s : State} (h : s.Canonical) {path a n} : (s.readRegs path a n).1.Canonical := by
  induction n generalizing s a with
  | zero => exact h
  | succ n ih =>
    unfold State.readRegs
    exact (ih h.readReg).pair

theorem State.Canonical.regAction {s : State} (h : s.Canonical) {path reg i v} : (s.regAction path reg i v).Canonical :=
  .ite h.enableTile (.ite h.edgeEnable (.ite h.writeLink (.ite h.enablePtu (.ite h.writeDrain (.ite (.ite h.retire h.set)
    (.ite h.startCfg (.ite h.faultMark (.ite h.writeSnap (.ite h.emptyHist (.ite h.probePm
      (.ite h.latch (.ite h.latch (.ite h.latch (.ite h.latch (.ite h.latch h)))))))))))))))

theorem State.Canonical.writeReg {s : State} (h : s.Canonical) {path a v} : (s.writeReg path a v).Canonical := by
  unfold State.writeReg
  refine .ite h.reservedAccess ?_
  split
  · exact h.writeFields.regAction
  · exact h

theorem State.Canonical.writeRegs {s : State} (h : s.Canonical) {path a l} : (s.writeRegs path a l).Canonical := by
  induction l generalizing s a with
  | nil => exact h
  | cons a l ih =>
    unfold State.writeRegs
    exact ih h.writeReg

theorem State.Canonical.serveRead {s : State} (h : s.Canonical) {hd addr countM1 reserved} :
    (s.serveRead hd addr countM1 reserved).Canonical := by
  unfold State.serveRead
  split
  · exact .ite h.refuse h.readRegs.refuseWith
  · exact h.refuse

theorem State.Canonical.execRegRead {s : State} (h : s.Canonical) {hd addr countM1 reserved} :
    NextInv (execRegRead hd addr countM1 reserved s) :=
  (h.request (fun h => h.serveRead)).ok

theorem State.Canonical.execRegWrite {s : State} (h : s.Canonical) {hd addr countM1 values reserved} :
    NextInv (execRegWrite hd addr countM1 values reserved s) := by
  unfold Machine.execRegWrite
  refine (h.request (fun h => ?_)).settled
  split
  · exact h.writeRegs.refuse
  · exact h.refuse

theorem State.Canonical.execRegisterWrite {s : State} (h : s.Canonical) {path addr value} :
    NextInv (execRegisterWrite path addr value s) :=
  (h.whenManaged (fun h => .ite h.writeReg h)).settled

/-! ### The functions of Machine/Freeze.lean -/

theorem State.Canonical.execFreezeRead {s : State} (h : s.Canonical) {hd offset length reserved} :
    NextInv (execFreezeRead hd offset length reserved s) := by
  unfold Machine.execFreezeRead
  refine (h.request (fun h => ?_)).ok
  split
  · exact h.refuseWith
  · exact h.refuse

/-! ### The functions of Machine/HomeRows.lean -/

theorem State.Canonical.answerReq {s : State} (h : s.Canonical) {r op e payload} : (s.answerReq r op e payload).Canonical :=
  h.sendResponse

theorem State.Canonical.unitRequest {s : State} (h : s.Canonical) {r op} {f : State → State}
    (hf : ∀ {t}, State.Canonical t → (f t).Canonical) : (s.unitRequest r op f).Canonical := by
  unfold State.unitRequest
  refine h.whenLive (fun h => .ite h ?_)
  split
  · exact hf h
  · exact h.violate.answerReq
  · exact h.answerReq

theorem State.Canonical.dataRequest {s : State} (h : s.Canonical) {r op formOk ordered act} :
    (s.dataRequest r op formOk ordered act).Canonical :=
  h.unitRequest (fun h => .ite h.answerReq h.atHome)

theorem State.Canonical.execRd {s : State} (h : s.Canonical) {r len} : NextInv (execRd r len s) := h.dataRequest.settled

theorem State.Canonical.execWr {s : State} (h : s.Canonical) {r data ordered} : NextInv (execWr r data ordered s) :=
  h.dataRequest.settled

theorem State.Canonical.counterRequest {s : State} (h : s.Canonical) {r op aligned} {f : Nat → State → State × Nat}
    (hf : ∀ {a t}, State.Canonical t → (f a t).1.Canonical) : (s.counterRequest r op aligned f).Canonical :=
  .ite h.answerReq (.ite h.violate.answerReq ((hf h).answerReq))

theorem State.Canonical.execAtomic {s : State} (h : s.Canonical) {r op width operand compare} :
    NextInv (execAtomic r op width operand compare s) :=
  State.Canonical.settled
    (.ite (h.unitRequest (fun h => .ite h.answerReq (h.counterRequest (fun h => h.putCounter.pair)))) h.dataRequest)

theorem State.Canonical.execInval {s : State} (h : s.Canonical) {r writer} : NextInv (execInval r writer s) :=
  (h.unitRequest (fun h => h.snoopOut.spoilLines.answerReq)).settled

theorem State.Canonical.execCtr {s : State} (h : s.Canonical) {r op operand _compare} :
    NextInv (execCtr r op operand _compare s) :=
  (h.unitRequest (fun h => .ite h.answerReq (h.counterRequest (fun h => h.counterOp)))).settled

theorem State.Canonical.execClause {s : State} (h : s.Canonical) {r descriptor extents} :
    NextInv (execClause r descriptor extents s) :=
  (h.unitRequest (fun h => .ite h.answerReq (.ite h.answerReq h.update))).settled

theorem State.Canonical.response {s : State} (h : s.Canonical) {r op data} : (s.response r op data).Canonical := by
  unfold State.response
  refine h.whenLive (fun h => ?_)
  split
  · exact .ite h.respond.relayedLoss h.respond
  · exact h.respond

theorem State.Canonical.execRdResp {s : State} (h : s.Canonical) {r data once} : NextInv (execRdResp r data once s) :=
  State.Canonical.settled (.response (.ite h.onceFill h))

theorem State.Canonical.execWrResp {s : State} (h : s.Canonical) {r} : NextInv (execWrResp r s) := h.response.settled

theorem State.Canonical.execAtomicResp {s : State} (h : s.Canonical) {r old} : NextInv (execAtomicResp r old s) :=
  h.response.settled

theorem State.Canonical.execInvalAck {s : State} (h : s.Canonical) {r} : NextInv (execInvalAck r s) := h.response.settled

theorem State.Canonical.execCtrResp {s : State} (h : s.Canonical) {r old} : NextInv (execCtrResp r old s) :=
  h.response.settled

theorem State.Canonical.execClauseDone {s : State} (h : s.Canonical) {r chunks segment addr} :
    NextInv (execClauseDone r chunks segment addr s) :=
  h.response.settled

/-! ### The functions of Machine/Maps.lean -/

theorem State.Canonical.execMapInstall {s : State} (h : s.Canonical) {hd b} : NextInv (execMapInstall hd b s) :=
  (h.request (fun h => .ite h.answerInstall h.tryInstall)).settled

theorem State.Canonical.execZeroFillDone {s : State} (h : s.Canonical) {frameFpa} : NextInv (execZeroFillDone frameFpa s) :=
  (h.whenLive (fun h => h.filled)).settled

theorem State.Canonical.answerWithdraw {s : State} (h : s.Canonical) {hd code e tense mapped} :
    (s.answerWithdraw hd code e tense mapped).Canonical :=
  h.refuseWith.freshen

theorem State.Canonical.acceptWithdrawal {s : State} (h : s.Canonical) {hd code p window abort entries hold} :
    (s.acceptWithdrawal hd code p window abort entries hold).Canonical :=
  h.wrap.wrap.answerWithdraw.openWithdrawal

theorem State.Canonical.refuseBusy {s : State} (h : s.Canonical) {hd code} : (s.refuseBusy hd code).Canonical :=
  h.count.answerWithdraw

theorem State.Canonical.withdrawRange {s : State} (h : s.Canonical) {p first n} :
    (s.withdrawRange p first n).1.Canonical := by
  induction n with
  | zero => exact h
  | succ n ih =>
    unfold State.withdrawRange
    split
    rename_i e
    have h := ih.of_eq e
    split
    rename_i e
    exact h.withdrawPage.of_eq e

theorem State.Canonical.mapWithdraw {s : State} (h : s.Canonical) {hd b} : (s.mapWithdraw hd b).Canonical :=
  h.withdrawRange.acceptWithdrawal

theorem State.Canonical.execMapWithdraw {s : State} (h : s.Canonical) {hd b} : NextInv (execMapWithdraw hd b s) :=
  (h.request (fun h => .ite h.answerWithdraw (.ite h.answerWithdraw (.ite h.refuseBusy h.mapWithdraw)))).settled

theorem State.Canonical.execWithdrawalAcked {s : State} (h : s.Canonical) {withdrawId} :
    NextInv (execWithdrawalAcked withdrawId s) := by
  unfold Machine.execWithdrawalAcked
  refine (h.whenLive (fun h => ?_)).settled
  split
  · exact .ite h h.ackWithdrawal
  · exact h

theorem State.Canonical.rejectFault {s : State} (h : s.Canonical) {hd p page} : (s.rejectFault hd p page).Canonical := by
  unfold State.rejectFault
  extract_lets _ s1
  have h1 : s1.Canonical := by
    refine h.foldl (fun h => ?_)
    split
    · exact h.endClause
    · exact h
  exact h1.resolveFault.freshen.refuseWith

theorem State.Canonical.execFaultReject {s : State} (h : s.Canonical) {hd partition page reserved} :
    NextInv (execFaultReject hd partition page reserved s) :=
  (h.request (fun h => .ite h.refuseWith (.ite h.refuseWith h.rejectFault))).settled

theorem State.Canonical.execWinInstall {s : State} (h : s.Canonical) {hd partition slot abort entry reserved} :
    NextInv (execWinInstall hd partition slot abort entry reserved s) := by
  unfold Machine.execWinInstall
  refine (h.request (fun h => .refuse ?_)).settled
  exact .ite h.update h

theorem State.Canonical.winRemove {s : State} (h : s.Canonical) {hd p slot abort} :
    (s.winRemove hd p slot abort).Canonical := by
  unfold State.winRemove
  extract_lets
  split
  · exact h.acceptWithdrawal
  · exact (h.foldl (fun h => h.dropReplicas)).update.acceptWithdrawal

theorem State.Canonical.execWinRemove {s : State} (h : s.Canonical) {hd partition slot abort reserved} :
    NextInv (execWinRemove hd partition slot abort reserved s) :=
  (h.request (fun h => .ite h.answerWithdraw
    (.ite h.answerWithdraw (.ite h.answerWithdraw (.ite h.refuseBusy h.winRemove))))).settled

/-! ### The functions of Machine/Mgmt.lean -/

theorem State.Canonical.dropDatagram {s : State} (h : s.Canonical) {p} : (s.dropDatagram p).Canonical := h.count

theorem State.Canonical.setRequester {s : State} (h : s.Canonical) {p src} : (s.setRequester p src).Canonical := h.update

theorem State.Canonical.takeDatagram {s : State} (h : s.Canonical) {p srcIp srcPort payload} :
    (s.takeDatagram p srcIp srcPort payload).Canonical := by
  unfold State.takeDatagram
  refine .ite h.dropDatagram ?_
  extract_lets _ s1
  have h1 : s1.Canonical := h.setRequester.takeMessage
  exact .ite h1 h1.setRequester

theorem State.Canonical.eraseReassembly {s : State} (h : s.Canonical) {port srcIp ident} :
    (s.eraseReassembly port srcIp ident).Canonical :=
  h.update

theorem State.Canonical.takeFragment {s : State} (h : s.Canonical) {p srcIp srcPort dstPort payload ident off more} :
    (s.takeFragment p srcIp srcPort dstPort payload ident off more).Canonical := by
  unfold State.takeFragment
  refine .ite h.dropDatagram ?_
  extract_lets _ _ _ s1
  have h1 : s1.Canonical := h.eraseReassembly
  exact .ite h1.dropDatagram (.ite h1.takeDatagram h1.update)

theorem State.Canonical.takeUdp {s : State} (h : s.Canonical) {p srcIp srcPort dstIp dstPort payload fragment} :
    (s.takeUdp p srcIp srcPort dstIp dstPort payload fragment).Canonical := by
  unfold State.takeUdp
  refine .ite h ?_
  split
  · exact h.takeDatagram
  · exact h.takeFragment

theorem State.Canonical.execUdpDatagram {s : State} (h : s.Canonical) {port srcIp srcPort dstIp dstPort payload fragment} :
    NextInv (execUdpDatagram port srcIp srcPort dstIp dstPort payload fragment s) :=
  State.Canonical.ok (.ite h.takeUdp h)

theorem State.Canonical.execArpRequest {s : State} (h : s.Canonical) {port targetIp senderIp senderMac} :
    NextInv (execArpRequest port targetIp senderIp senderMac s) :=
  State.Canonical.ok (.ite h.emit h)

theorem State.Canonical.execReassemblyTimeout {s : State} (h : s.Canonical) {port srcIp ident} :
    NextInv (execReassemblyTimeout port srcIp ident s) :=
  State.Canonical.ok (.ite h.eraseReassembly.dropDatagram h)

theorem State.Canonical.execSmbusRegisterWrite {s : State} (h : s.Canonical) {address pecOk addr value} :
    NextInv (execSmbusRegisterWrite address pecOk addr value s) :=
  State.Canonical.settled (.ite h (.ite h.emit h.writeReg))

theorem State.Canonical.execSmbusRegisterRead {s : State} (h : s.Canonical) {address pecOk addr} :
    NextInv (execSmbusRegisterRead address pecOk addr s) :=
  State.Canonical.ok (.ite h (.ite h.emit h.readReg.emit))

theorem State.Canonical.loadIr {s : State} (h : s.Canonical) {code} : (s.loadIr code).Canonical := h.update

theorem State.Canonical.tap {s : State} (h : s.Canonical) {f : State → State}
    (hf : ∀ {t}, State.Canonical t → (f t).Canonical) : (s.tap f).Canonical :=
  .ite (hf h) h

theorem State.Canonical.bypassBit {s : State} (h : s.Canonical) {tdi} : (s.bypassBit tdi).Canonical := h.loadIr.emit

theorem State.Canonical.execExtest {s : State} (h : s.Canonical) {cells} : NextInv (execExtest cells s) :=
  (h.tap (fun h => .ite h.loadIr.update h.bypassBit)).ok

theorem State.Canonical.execSample {s : State} (h : s.Canonical) {pins} : NextInv (execSample pins s) :=
  (h.tap (fun h => h.loadIr.update.emit)).ok

theorem State.Canonical.execIdcode {s : State} (h : s.Canonical) : NextInv (execIdcode s) :=
  (h.tap (fun h => h.loadIr.emit)).ok

theorem State.Canonical.execRegrd {s : State} (h : s.Canonical) {addr} : NextInv (execRegrd addr s) :=
  (h.tap (fun h => .ite h.loadIr.emit.freshen h.loadIr.readReg.emit)).ok

theorem State.Canonical.execRegwr {s : State} (h : s.Canonical) {addr value} : NextInv (execRegwr addr value s) :=
  (h.tap (fun h => .ite h.loadIr.emit h.loadIr.writeReg.emit)).settled

theorem State.Canonical.execFrzaddr {s : State} (h : s.Canonical) {offset} : NextInv (execFrzaddr offset s) :=
  (h.tap (fun h => h.loadIr.freshen.update.emit)).ok

theorem State.Canonical.execFrzdata {s : State} (h : s.Canonical) : NextInv (execFrzdata s) :=
  (h.tap (fun h => h.loadIr.update.emit)).ok

theorem State.Canonical.execBypass {s : State} (h : s.Canonical) {tdi} : NextInv (execBypass tdi s) :=
  (h.tap (fun h => h.bypassBit)).ok

/-! ### The functions of Machine/Modes.lean -/

theorem State.Canonical.modeCause {s : State} (h : s.Canonical) {cause} : (s.modeCause cause).Canonical := .ite h h.set

theorem State.Canonical.selectMode {s : State} (h : s.Canonical) {hd b} : (s.selectMode hd b).Canonical := by
  unfold State.selectMode
  split
  · exact h.modeCause.answer
  · exact .ite h.set.answer h.update.set

theorem State.Canonical.execModeSelect {s : State} (h : s.Canonical) {hd b} : NextInv (execModeSelect hd b s) :=
  (h.request (fun h => h.selectMode)).ok

theorem State.Canonical.restoreStem {s : State} (h : s.Canonical) {es} : (s.restoreStem es).Canonical := by
  unfold State.restoreStem
  split
  · exact h
  · refine h.foldl (fun h => ?_)
    split
    · exact h.set
    · exact h

theorem State.Canonical.emptyNamed {s : State} (h : s.Canonical) {es} : (s.emptyNamed es).Canonical :=
  h.foldl (fun h => .ite h.emptyHist h)

theorem State.Canonical.applyMode {s : State} (h : s.Canonical) {m} : (s.applyMode m).Canonical :=
  h.restoreStem.applyEntries.emptyNamed.set

theorem State.Canonical.endChange {s : State} (h : s.Canonical) : s.endChange.Canonical :=
  (h.update.set.foldl (fun h => h.readyOut)).pumpMoves

theorem State.Canonical.execDrainedPoint {s : State} (h : s.Canonical) : NextInv (execDrainedPoint s) := by
  unfold Machine.execDrainedPoint
  refine (h.whenLive (fun h => ?_)).settled
  split
  · exact h
  · exact .ite h h.closeBatch.applyMode.set.endChange.answer

theorem State.Canonical.execModeChangeTimeout {s : State} (h : s.Canonical) : NextInv (execModeChangeTimeout s) := by
  unfold Machine.execModeChangeTimeout
  refine (h.whenLive (fun h => ?_)).settled
  split
  · exact h
  · exact h.modeCause.endChange.answer

/-! ### The functions of Machine/Queues.lean -/

theorem State.Canonical.createQueue {s : State} (h : s.Canonical) {b} : (s.createQueue b).Canonical :=
  h.set.set.set.set.set.setFlag.set.set.update

theorem State.Canonical.execQueueCreate {s : State} (h : s.Canonical) {hd b} : NextInv (execQueueCreate hd b s) := by
  unfold Machine.execQueueCreate
  refine (h.request (fun h => ?_)).ok
  split
  · exact h.createQueue.refuse
  · exact h.refuse

theorem State.Canonical.askDrain {s : State} (h : s.Canonical) {hd q} : (s.askDrain hd q).Canonical :=
  .ite h.refuse h.drainQueue.modQueue

theorem State.Canonical.execQueueDrain {s : State} (h : s.Canonical) {hd queue reserved} :
    NextInv (execQueueDrain hd queue reserved s) :=
  (h.request (fun h => .ite h.refuse h.askDrain)).settled

theorem State.Canonical.execQueueDisabled {s : State} (h : s.Canonical) {queue} : NextInv (execQueueDisabled queue s) :=
  (h.whenLive (fun h => h.disableQueue)).settled

theorem State.Canonical.execQueueDrainTimeout {s : State} (h : s.Canonical) {queue} :
    NextInv (execQueueDrainTimeout queue s) :=
  (h.whenLive (fun h => h.queueDrainExpired)).settled

theorem State.Canonical.createGroup {s : State} (h : s.Canonical) {b} : (s.createGroup b).Canonical := by
  unfold State.createGroup
  split
  · exact h
  · exact h.setGroup

theorem State.Canonical.execGroupCreate {s : State} (h : s.Canonical) {hd b} : NextInv (execGroupCreate hd b s) := by
  unfold Machine.execGroupCreate
  refine (h.request (fun h => ?_)).ok
  split
  · exact h.createGroup.refuse
  · exact h.refuse

theorem State.Canonical.resetGroup {s : State} (h : s.Canonical) {n g} : (s.resetGroup n g).Canonical := h.setGroup

theorem State.Canonical.freeGroup {s : State} (h : s.Canonical) {n g} : (s.freeGroup n g).Canonical := h.update

theorem State.Canonical.execGroupReset {s : State} (h : s.Canonical) {hd group partition reserved} :
    NextInv (execGroupReset hd group partition reserved s) := by
  unfold Machine.execGroupReset
  refine (h.request (fun h => .ite h.refuse ?_)).ok
  split
  · exact h.refuse
  · split
    · exact h.resetGroup.refuse
    · exact h.refuse

theorem State.Canonical.execGroupDestroy {s : State} (h : s.Canonical) {hd group partition reserved} :
    NextInv (execGroupDestroy hd group partition reserved s) := by
  unfold Machine.execGroupDestroy
  refine (h.request (fun h => .ite h.refuse ?_)).ok
  split
  · exact h.refuse
  · split
    · exact h.freeGroup.refuse
    · exact h.refuse

/-! ### The functions of Machine/Parts.lean -/

theorem State.Canonical.setRanges {s : State} (h : s.Canonical) {b} : (s.setRanges b).Canonical :=
  h.set.set.set.set.set.set.set.set.set.set.set.set

theorem State.Canonical.zeroCounters {s : State} (h : s.Canonical) {first n} : (s.zeroCounters first n).Canonical := h.update

theorem State.Canonical.createPart {s : State} (h : s.Canonical) {b} : (s.createPart b).Canonical :=
  h.update.wrap.setRanges.set.zeroCounters.set.update.set.set.set

theorem State.Canonical.answerCreate {s : State} (h : s.Canonical) {hd p e} : (s.answerCreate hd p e).Canonical :=
  h.refuseWith.freshen

theorem State.Canonical.execPartCreate {s : State} (h : s.Canonical) {hd b} : NextInv (execPartCreate hd b s) := by
  unfold Machine.execPartCreate
  refine (h.request (fun h => ?_)).ok
  split
  · exact h.createPart.answerCreate
  · exact h.answerCreate

theorem State.Canonical.modPart {s : State} (h : s.Canonical) {p f} : (s.modPart p f).Canonical := h.update

theorem State.Canonical.drainPart {s : State} (h : s.Canonical) {p} : (s.drainPart p).Canonical :=
  ((h.set.foldl (fun h => h.drainQueue)).foldl (fun h => h.dropHeld)).foldl (fun h => h.dropReplicas)

theorem State.Canonical.askPartDrain {s : State} (h : s.Canonical) {hd p} : (s.askPartDrain hd p).Canonical := by
  unfold State.askPartDrain
  refine .ite h.refuse (.modPart ?_)
  exact .ite h.drainPart h

theorem State.Canonical.execPartDrain {s : State} (h : s.Canonical) {hd partition reserved} :
    NextInv (execPartDrain hd partition reserved s) :=
  (h.request (fun h => .ite h.refuse h.askPartDrain)).settled

theorem State.Canonical.keepWaiting {s : State} (h : s.Canonical) {f} : (s.keepWaiting f).Canonical := h.update

theorem State.Canonical.clearMaps {s : State} (h : s.Canonical) {p} : (s.clearMaps p).Canonical :=
  h.update.foldl (fun h => .ite h h.sendDir)

theorem State.Canonical.clearFrames {s : State} (h : s.Canonical) {p} : (s.clearFrames p).Canonical :=
  h.update.foldl (fun h => h.freeFrame)

theorem State.Canonical.clearRecords {s : State} (h : s.Canonical) {p} : (s.clearRecords p).Canonical :=
  (h.foldl (fun h => h.freeGroup)).update.makeWaiting

theorem State.Canonical.clearPasids {s : State} (h : s.Canonical) {p} : (s.clearPasids p).Canonical :=
  h.foldl (fun h => .ite h.set h)

theorem State.Canonical.clearQuotas {s : State} (h : s.Canonical) {p} : (s.clearQuotas p).Canonical := h.set.set.set.set.set

theorem State.Canonical.disablePart {s : State} (h : s.Canonical) {p} : (s.disablePart p).Canonical :=
  h.clearMaps.clearFrames.clearRecords.clearPasids.clearQuotas.zeroCounters.set.modPart.foldl (fun h => h.answer)

theorem State.Canonical.execPartitionDisabled {s : State} (h : s.Canonical) {partition} :
    NextInv (execPartitionDisabled partition s) :=
  (h.whenLive (fun h => .ite h.disablePart h)).settled

theorem State.Canonical.logAbort {s : State} (h : s.Canonical) {addr p} : (s.logAbort addr p).Canonical := h.logFault.count

theorem State.Canonical.abortDirects {s : State} (h : s.Canonical) {p} : (s.abortDirects p).Canonical :=
  h.foldl (fun h => h.logAbort.directDone)

theorem State.Canonical.abortClauses {s : State} (h : s.Canonical) {p} : (s.abortClauses p).Canonical := by
  unfold State.abortClauses
  refine h.foldl (fun h => ?_)
  extract_lets s1
  have h1 : s1.Canonical := h.abortClause
  split
  · exact h1.memberFailed
  · exact h1

theorem State.Canonical.abortInstalls {s : State} (h : s.Canonical) {p} : (s.abortInstalls p).Canonical := by
  unfold State.abortInstalls
  extract_lets s1
  have h1 : s1.Canonical := by
    refine h.foldl (fun h => .endInstall ?_)
    exact .ite h.logAbort h.logAbort.freeFrame
  exact h1.foldl (fun h => h.update.logAbort.dirAnswer.unregister)

theorem State.Canonical.dropOp {s : State} (h : s.Canonical) {id o} : (s.dropOp id o).Canonical := by
  unfold State.dropOp
  split
  · exact h.modOp
  · exact h.update.foldl (fun h => h.releaseLine)

theorem State.Canonical.abortAccess {s : State} (h : s.Canonical) {p a} : (s.abortAccess p a).Canonical := by
  unfold State.abortAccess
  extract_lets s1
  have h1 : s1.Canonical := by
    unfold s1
    split
    · exact h.logAbort
    · exact h
  exact h1.reply

theorem State.Canonical.abortHome {s : State} (h : s.Canonical) {p} : (s.abortHome p).Canonical :=
  (((h.foldl (fun h => h.logAbort.endLoad)).foldl (fun h => h.dropOp.abortAccess)).keepWaiting.foldl
    (fun h => h.abortAccess)).failSlots.pumpOrder

theorem State.Canonical.abortMoves {s : State} (h : s.Canonical) {p} : (s.abortMoves p).Canonical :=
  h.foldl (fun h => h.abandon)

theorem State.Canonical.execPartitionDrainTimeout {s : State} (h : s.Canonical) {partition} :
    NextInv (execPartitionDrainTimeout partition s) :=
  (h.whenLive (fun h => .ite h.abortDirects.abortClauses.abortInstalls.abortHome.abortMoves.abortTags.endWaitTags h)).settled

theorem State.Canonical.execWeightLoad {s : State} (h : s.Canonical) {hd b} : NextInv (execWeightLoad hd b s) := by
  unfold Machine.execWeightLoad
  refine (h.request (fun h => ?_)).settled
  split
  · exact h.startLoad
  · exact h.refuseWith

theorem State.Canonical.execAttestReq {s : State} (h : s.Canonical) {hd nonce partition partEn reserved} :
    NextInv (execAttestReq hd nonce partition partEn reserved s) :=
  (h.request (fun h => .ite h.refuse h.refuseWith)).ok

/-! ### The functions of Machine/Power.lean -/

theorem State.Canonical.brake {s : State} (h : s.Canonical) {cause} : (s.brake cause).Canonical :=
  .ite h.update h.update.set.set.count.set.update

theorem State.Canonical.unbrake {s : State} (h : s.Canonical) {cause} : (s.unbrake cause).Canonical := h.update

theorem State.Canonical.readJunction {s : State} (h : s.Canonical) {celsius} : (s.readJunction celsius).Canonical :=
  .ite h.set.emergencyOff (.ite h.set.brake h.set.unbrake)

theorem State.Canonical.execPwrbrakeNAssert {s : State} (h : s.Canonical) : NextInv (execPwrbrakeNAssert s) :=
  (h.update.whenLive (fun h => h.brake)).ok

theorem State.Canonical.execCoolOkAssert {s : State} (h : s.Canonical) : NextInv (execCoolOkAssert s) :=
  (h.update.whenLive (fun h => h.unbrake.light)).ok

theorem State.Canonical.execCoolOkDeassert {s : State} (h : s.Canonical) : NextInv (execCoolOkDeassert s) :=
  (h.update.whenLive (fun h => (h.foldl (fun h => .ite h.set h)).brake)).ok

theorem State.Canonical.execJunctionBrakeTemperature {s : State} (h : s.Canonical) {celsius} :
    NextInv (execJunctionBrakeTemperature celsius s) :=
  (h.whenLive (fun h => h.readJunction)).ok

theorem State.Canonical.execJunctionLimitTemperature {s : State} (h : s.Canonical) {celsius} :
    NextInv (execJunctionLimitTemperature celsius s) :=
  State.Canonical.ok (.ite h.emergencyOff (h.whenLive (fun h => h.readJunction)))

theorem State.Canonical.meter {s : State} (h : s.Canonical) {watts} : (s.meter watts).Canonical := h.wrap.set.update

theorem State.Canonical.tallySample {s : State} (h : s.Canonical) {watts} : (s.tallySample watts).Canonical := by
  unfold State.tallySample
  refine .update ?_
  exact .ite h.count h

theorem State.Canonical.sampleCauses {s : State} (h : s.Canonical) {watts pinLow} :
    (s.sampleCauses watts pinLow).Canonical := by
  unfold State.sampleCauses
  extract_lets _ s1 s2 s3
  have h1 : s1.Canonical := h.update
  have h2 : s2.Canonical := .ite h1.brake h1.unbrake
  have h3 : s3.Canonical := .ite h2.unbrake h2
  exact .ite h3.brake (.ite h3.unbrake h3)

theorem State.Canonical.levelStep {s : State} (h : s.Canonical) {up} : (s.levelStep up).Canonical := by
  unfold State.levelStep
  refine .update ?_
  exact .ite h h.set

theorem State.Canonical.govern {s : State} (h : s.Canonical) {watts} : (s.govern watts).Canonical :=
  .ite (.ite h.update.levelStep h.update) (.ite (.ite h.levelStep h) h.update)

theorem State.Canonical.governBrake {s : State} (h : s.Canonical) {watts} : (s.governBrake watts).Canonical :=
  .ite h.set.update h

theorem State.Canonical.execPowerSample {s : State} (h : s.Canonical) {watts celsius pwrbrakeLow} :
    NextInv (execPowerSample watts celsius pwrbrakeLow s) := by
  unfold Machine.execPowerSample
  refine (h.whenLive (fun h => ?_)).ok
  extract_lets _ s1 s2
  have h1 : s1.Canonical := h.set.meter.tallySample
  have h2 : s2.Canonical := h1.sampleCauses.readJunction
  exact .ite h2 (.ite h2.governBrake (.ite h2 h2.govern))

theorem State.Canonical.execOverCapSamples {s : State} (h : s.Canonical) : NextInv (execOverCapSamples s) :=
  (h.whenLive (fun h => h.update.brake)).ok

theorem State.Canonical.execBrakeExit {s : State} (h : s.Canonical) : NextInv (execBrakeExit s) :=
  (h.whenLive (fun h => .ite h.set.update h)).ok

theorem State.Canonical.setCap {s : State} (h : s.Canonical) {capW} : (s.setCap capW).Canonical := .ite h.set.brake h.set

theorem State.Canonical.execCapSet {s : State} (h : s.Canonical) {hd capW seq reserved} :
    NextInv (execCapSet hd capW seq reserved s) := by
  unfold Machine.execCapSet
  refine (h.request (fun h => .answer ?_)).ok
  exact .ite h.set.setCap h

/-! ### The functions of Machine/Ring.lean -/

theorem State.Canonical.onLine {s : State} (h : s.Canonical) {l} {f : RingLine → RingReq → State → State}
    (hf : ∀ {a a2 t}, State.Canonical t → (f a a2 t).Canonical) : (s.onLine l f).Canonical := by
  unfold State.onLine
  refine h.whenLive (fun h => ?_)
  split
  · split
    · exact hf h
    · exact h
  · exact h

theorem State.Canonical.execReq {s : State} (h : s.Canonical) {lineAddr stop ownership} :
    NextInv (execReq lineAddr stop ownership s) := by
  unfold Machine.execReq
  refine (h.whenLive (fun h => .ite h ?_)).ok
  split
  · exact h.modOp.arbitrate
  · exact h.openOp.arbitrate

theorem State.Canonical.snoopTile {s : State} (h : s.Canonical) {line tile stop q} :
    (s.snoopTile line tile stop q).1.Canonical :=
  .ite_fst h.pair (.ite_fst h.setTile.emit.pair h.setTile.pair)

theorem State.Canonical.snoopStop {s : State} (h : s.Canonical) {line stop q owned} :
    (s.snoopStop line stop q owned).1.Canonical := by
  unfold State.snoopStop
  refine .ite_fst h.pair (.ite_fst h.pair ?_)
  split
  · split
    rename_i e
    exact h.snoopTile.of_eq e
  · exact h

theorem State.Canonical.execSnp {s : State} (h : s.Canonical) {lineAddr stop} : NextInv (execSnp lineAddr stop s) := by
  unfold Machine.execSnp
  refine (h.onLine (fun h => .ite h (.ite ?_ (.ite ?_ h)))).ok
  · split
    rename_i e
    have h := h.snoopStop.of_eq e
    exact .ite h.setLine.ringMsg h.setLine
  · split
    rename_i e
    have h := h.snoopStop.of_eq e
    exact .ite h.setLine.ringMsg h.setLine

theorem State.Canonical.execHalf {s : State} (h : s.Canonical) {lineAddr ringA} : NextInv (execHalf lineAddr ringA s) :=
  (h.onLine (fun h => .ite h
    (.ite h.setLine (.ite h.setLine.ringMsg (.ite h.setLine.askCopies.opReady h.setLine.grantLine))))).settled

theorem State.Canonical.winLine {s : State} (h : s.Canonical) {line tile grant own} :
    (s.winLine line tile grant own).Canonical :=
  h.setTile

theorem State.Canonical.execDone {s : State} (h : s.Canonical) {lineAddr} : NextInv (execDone lineAddr s) := by
  unfold Machine.execDone
  refine (h.onLine (fun h => .ite h ?_)).settled
  extract_lets _ s1 s2 _ s3
  have h1 : s1.Canonical := by
    unfold s1
    split
    · exact h.winLine
    · exact h
  have h2 : s2.Canonical := h1.setLine.ringMsg
  have h3 : s3.Canonical := h2.update
  split
  · exact h3.performOp.pumpReqs.pumpOrder
  · exact h2

theorem State.Canonical.execFin {s : State} (h : s.Canonical) {lineAddr} : NextInv (execFin lineAddr s) := by
  unfold Machine.execFin
  refine (h.onLine (fun h => .ite h ?_)).ok
  extract_lets s1
  have h1 : s1.Canonical := h.releaseLine
  split
  · exact h1.restTile
  · exact h1

theorem State.Canonical.execRetry {s : State} (h : s.Canonical) {lineAddr} : NextInv (execRetry lineAddr s) :=
  (h.onLine (fun h => .ite h.setLine h)).ok

theorem State.Canonical.execSnoopReissue {s : State} (h : s.Canonical) {lineAddr} : NextInv (execSnoopReissue lineAddr s) :=
  (h.onLine (fun h => .ite h.modTiles.setLine.issueSnoop h)).ok

theorem State.Canonical.execHoldExpiry {s : State} (h : s.Canonical) {tile lineAddr} :
    NextInv (execHoldExpiry tile lineAddr s) :=
  (h.whenLive (fun h => h.setTile)).ok

/-! ### The functions of Machine/TileAccess.lean -/

theorem State.Canonical.afterTile {s : State} (h : s.Canonical) {c} : (s.afterTile c).Canonical := by
  unfold State.afterTile
  split
  · exact h
  · split
    · exact h
    · extract_lets s1
      have h1 : s1.Canonical := .ite h.modClause.park h
      exact .ite h1.cancel h1

theorem State.Canonical.tiled {s : State} (h : s.Canonical) {c} : NextInv (tiled c s) := h.settle.afterTile.ok

theorem State.Canonical.execLd {s : State} (h : s.Canonical) {c f ecc} : NextInv (execLd c f ecc s) := h.runLd.tiled

theorem State.Canonical.execLds {s : State} (h : s.Canonical) {c f ecc} : NextInv (execLds c f ecc s) := h.runLds.tiled

theorem State.Canonical.execSt {s : State} (h : s.Canonical) {c f} : NextInv (execSt c f s) := h.runSt.tiled

theorem State.Canonical.execFence {s : State} (h : s.Canonical) {c f} : NextInv (execFence c f s) := h.runFence.tiled

theorem State.Canonical.execVld {s : State} (h : s.Canonical) {c f ecc} : NextInv (execVld c f ecc s) := h.runVld.tiled

theorem State.Canonical.execVst {s : State} (h : s.Canonical) {c f} : NextInv (execVst c f s) := h.runVst.tiled

theorem State.Canonical.execAmo {s : State} (h : s.Canonical) {c f} : NextInv (execAmo c f s) := h.runAmo.tiled

theorem State.Canonical.execSpop {s : State} (h : s.Canonical) {c f ecc} : NextInv (execSpop c f ecc s) := h.runSpop.tiled

theorem State.Canonical.execSpops {s : State} (h : s.Canonical) {c f ecc} : NextInv (execSpops c f ecc s) := h.runSpops.tiled

theorem State.Canonical.execSskip {s : State} (h : s.Canonical) {c f} : NextInv (execSskip c f s) := h.runSskip.tiled

theorem State.Canonical.execRunaheadIssue {s : State} (h : s.Canonical) {c strm} : NextInv (execRunaheadIssue c strm s) :=
  h.runRunaheadIssue.tiled

theorem State.Canonical.execCtrld {s : State} (h : s.Canonical) {c f} : NextInv (execCtrld c f s) := h.runCtrld.tiled

theorem State.Canonical.execCtradd {s : State} (h : s.Canonical) {c f} : NextInv (execCtradd c f s) := h.runCtradd.tiled

theorem State.Canonical.execCtrwait {s : State} (h : s.Canonical) {c f} : NextInv (execCtrwait c f s) := h.runCtrwait.tiled

theorem State.Canonical.execCtrset {s : State} (h : s.Canonical) {c f} : NextInv (execCtrset c f s) := h.runCtrset.tiled

theorem State.Canonical.execCtrwaitWake {s : State} (h : s.Canonical) {c} : NextInv (execCtrwaitWake c s) :=
  h.runCtrwaitWake.tiled

theorem State.Canonical.execSubmit {s : State} (h : s.Canonical) {c f ecc} : NextInv (execSubmit c f ecc s) :=
  h.runSubmit.tiled

/-! ### The functions of Machine/TileMat.lean -/

theorem State.Canonical.execMma {s : State} (h : s.Canonical) {c f ecc} : NextInv (execMma c f ecc s) := by
  unfold Machine.execMma
  refine (h.inCtx (fun h => .ite h (.ite h.setCtx.freshen ?_))).ok
  split
  · exact h.exception
  · exact h.exception
  · exact h.tsGuard (fun h => h.charge.setCtx)

theorem State.Canonical.execMzero {s : State} (h : s.Canonical) {c f} : NextInv (execMzero c f s) := h.regs1.ok

theorem State.Canonical.execMld {s : State} (h : s.Canonical) {c f ecc} : NextInv (execMld c f ecc s) := by
  unfold Machine.execMld
  refine (h.inCtx (fun h => ?_)).ok
  extract_lets
  split
  · exact h.exception
  · exact h.tsGuard (fun h => h.setCtx)

theorem State.Canonical.execMst {s : State} (h : s.Canonical) {c f} : NextInv (execMst c f s) := by
  unfold Machine.execMst
  refine (h.inCtx (fun h => .ite h.exception ?_)).ok
  split
  · exact h.exception
  · exact h.tsWrite.setCtx

/-! ### The functions of Machine/TileScalar.lean -/

theorem State.Canonical.execAdd {s : State} (h : s.Canonical) {c f} : NextInv (execAdd c f s) := h.scalar.ok

theorem State.Canonical.execSub {s : State} (h : s.Canonical) {c f} : NextInv (execSub c f s) := h.scalar.ok

theorem State.Canonical.execAnd {s : State} (h : s.Canonical) {c f} : NextInv (execAnd c f s) := h.scalar.ok

theorem State.Canonical.execOr {s : State} (h : s.Canonical) {c f} : NextInv (execOr c f s) := h.scalar.ok

theorem State.Canonical.execXor {s : State} (h : s.Canonical) {c f} : NextInv (execXor c f s) := h.scalar.ok

theorem State.Canonical.execShl {s : State} (h : s.Canonical) {c f} : NextInv (execShl c f s) := h.scalar.ok

theorem State.Canonical.execShr {s : State} (h : s.Canonical) {c f} : NextInv (execShr c f s) := h.scalar.ok

theorem State.Canonical.execSra {s : State} (h : s.Canonical) {c f} : NextInv (execSra c f s) := h.scalar.ok

theorem State.Canonical.execMul {s : State} (h : s.Canonical) {c f} : NextInv (execMul c f s) := h.scalar.ok

theorem State.Canonical.execMulhu {s : State} (h : s.Canonical) {c f} : NextInv (execMulhu c f s) := h.scalar.ok

theorem State.Canonical.execDivu {s : State} (h : s.Canonical) {c f} : NextInv (execDivu c f s) := h.scalar.ok

theorem State.Canonical.execDiv {s : State} (h : s.Canonical) {c f} : NextInv (execDiv c f s) := h.scalar.ok

theorem State.Canonical.execMin {s : State} (h : s.Canonical) {c f} : NextInv (execMin c f s) := h.scalar.ok

theorem State.Canonical.execMax {s : State} (h : s.Canonical) {c f} : NextInv (execMax c f s) := h.scalar.ok

theorem State.Canonical.execMinu {s : State} (h : s.Canonical) {c f} : NextInv (execMinu c f s) := h.scalar.ok

theorem State.Canonical.execMaxu {s : State} (h : s.Canonical) {c f} : NextInv (execMaxu c f s) := h.scalar.ok

theorem State.Canonical.execSlt {s : State} (h : s.Canonical) {c f} : NextInv (execSlt c f s) := h.scalar.ok

theorem State.Canonical.execSltu {s : State} (h : s.Canonical) {c f} : NextInv (execSltu c f s) := h.scalar.ok

theorem State.Canonical.execPopc {s : State} (h : s.Canonical) {c f} : NextInv (execPopc c f s) := h.regs1.ok

theorem State.Canonical.execAddi {s : State} (h : s.Canonical) {c f} : NextInv (execAddi c f s) := h.regs1.ok

theorem State.Canonical.execAndi {s : State} (h : s.Canonical) {c f} : NextInv (execAndi c f s) := h.regs1.ok

theorem State.Canonical.execOri {s : State} (h : s.Canonical) {c f} : NextInv (execOri c f s) := h.regs1.ok

theorem State.Canonical.execXori {s : State} (h : s.Canonical) {c f} : NextInv (execXori c f s) := h.regs1.ok

theorem State.Canonical.execShli {s : State} (h : s.Canonical) {c f} : NextInv (execShli c f s) := h.regs1.ok

theorem State.Canonical.execShri {s : State} (h : s.Canonical) {c f} : NextInv (execShri c f s) := h.regs1.ok

theorem State.Canonical.execSrai {s : State} (h : s.Canonical) {c f} : NextInv (execSrai c f s) := h.regs1.ok

theorem State.Canonical.execSlti {s : State} (h : s.Canonical) {c f} : NextInv (execSlti c f s) := h.regs1.ok

theorem State.Canonical.execLui {s : State} (h : s.Canonical) {c f} : NextInv (execLui c f s) := h.regs1.ok

theorem State.Canonical.execSeth {s : State} (h : s.Canonical) {c f} : NextInv (execSeth c f s) := h.regs1.ok

theorem State.Canonical.execBeq {s : State} (h : s.Canonical) {c f} : NextInv (execBeq c f s) := h.branch.ok

theorem State.Canonical.execBne {s : State} (h : s.Canonical) {c f} : NextInv (execBne c f s) := h.branch.ok

theorem State.Canonical.execBlt {s : State} (h : s.Canonical) {c f} : NextInv (execBlt c f s) := h.branch.ok

theorem State.Canonical.execBge {s : State} (h : s.Canonical) {c f} : NextInv (execBge c f s) := h.branch.ok

theorem State.Canonical.execBltu {s : State} (h : s.Canonical) {c f} : NextInv (execBltu c f s) := h.branch.ok

theorem State.Canonical.execBgeu {s : State} (h : s.Canonical) {c f} : NextInv (execBgeu c f s) := h.branch.ok

theorem State.Canonical.execJ {s : State} (h : s.Canonical) {c off} : NextInv (execJ c off s) :=
  (h.inCtx (fun h => h.jumpTo)).ok

theorem State.Canonical.execJal {s : State} (h : s.Canonical) {c off} : NextInv (execJal c off s) :=
  (h.inCtx (fun h => .ite h.jumpTo h.exception)).ok

theorem State.Canonical.execJr {s : State} (h : s.Canonical) {c f} : NextInv (execJr c f s) :=
  (h.inCtx (fun h => h.jumpTo)).ok

/-! ### The functions of Machine/TileVec.lean -/

theorem State.Canonical.vecArith {s : State} (h : s.Canonical) {c f int flt} : (s.vecArith c f int flt).Canonical := h.vector

theorem State.Canonical.vecPlain {s : State} (h : s.Canonical) {c f legal g} : (s.vecPlain c f legal g).Canonical := h.vector

theorem State.Canonical.execVadd {s : State} (h : s.Canonical) {c f} : NextInv (execVadd c f s) := h.vecArith.ok

theorem State.Canonical.execVsub {s : State} (h : s.Canonical) {c f} : NextInv (execVsub c f s) := h.vecArith.ok

theorem State.Canonical.execVmul {s : State} (h : s.Canonical) {c f} : NextInv (execVmul c f s) := h.vecArith.ok

theorem State.Canonical.execVfma {s : State} (h : s.Canonical) {c f} : NextInv (execVfma c f s) := h.vecArith.ok

theorem State.Canonical.vecMinMax {s : State} (h : s.Canonical) {c f lo} : (s.vecMinMax c f lo).Canonical := h.vector

theorem State.Canonical.execVmin {s : State} (h : s.Canonical) {c f} : NextInv (execVmin c f s) := h.vecMinMax.ok

theorem State.Canonical.execVmax {s : State} (h : s.Canonical) {c f} : NextInv (execVmax c f s) := h.vecMinMax.ok

theorem State.Canonical.execVabs {s : State} (h : s.Canonical) {c f} : NextInv (execVabs c f s) := h.vecPlain.ok

theorem State.Canonical.execVfmaw {s : State} (h : s.Canonical) {c f} : NextInv (execVfmaw c f s) :=
  (h.inCtx (fun h => h.setCtx)).ok

theorem State.Canonical.execVand {s : State} (h : s.Canonical) {c f} : NextInv (execVand c f s) := h.vecPlain.ok

theorem State.Canonical.execVor {s : State} (h : s.Canonical) {c f} : NextInv (execVor c f s) := h.vecPlain.ok

theorem State.Canonical.execVxor {s : State} (h : s.Canonical) {c f} : NextInv (execVxor c f s) := h.vecPlain.ok

theorem State.Canonical.execVshl {s : State} (h : s.Canonical) {c f} : NextInv (execVshl c f s) := h.vecPlain.ok

theorem State.Canonical.execVshr {s : State} (h : s.Canonical) {c f} : NextInv (execVshr c f s) := h.vecPlain.ok

theorem State.Canonical.execVsra {s : State} (h : s.Canonical) {c f} : NextInv (execVsra c f s) := h.vecPlain.ok

theorem State.Canonical.execVsel {s : State} (h : s.Canonical) {c f} : NextInv (execVsel c f s) := h.regs1.ok

theorem State.Canonical.execVmov {s : State} (h : s.Canonical) {c f} : NextInv (execVmov c f s) := h.regs1.ok

theorem State.Canonical.execVcmp {s : State} (h : s.Canonical) {c f cond} : NextInv (execVcmp c f cond s) := h.regs1.ok

theorem State.Canonical.execVcvt {s : State} (h : s.Canonical) {c f part} : NextInv (execVcvt c f part s) := h.regs1.ok

theorem State.Canonical.execVbcast {s : State} (h : s.Canonical) {c f} : NextInv (execVbcast c f s) := h.regs1.ok

theorem State.Canonical.execVins {s : State} (h : s.Canonical) {c f} : NextInv (execVins c f s) := h.regs1.ok

theorem State.Canonical.execVext {s : State} (h : s.Canonical) {c f} : NextInv (execVext c f s) := h.regs1.ok

theorem State.Canonical.execVrsum {s : State} (h : s.Canonical) {c f} : NextInv (execVrsum c f s) := h.regs1.ok

theorem State.Canonical.vecReduce {s : State} (h : s.Canonical) {c f lo} : (s.vecReduce c f lo).Canonical :=
  h.inCtx (fun h => h.setCtx.freshen)

theorem State.Canonical.execVrmax {s : State} (h : s.Canonical) {c f} : NextInv (execVrmax c f s) := h.vecReduce.ok

theorem State.Canonical.execVrmin {s : State} (h : s.Canonical) {c f} : NextInv (execVrmin c f s) := h.vecReduce.ok

theorem State.Canonical.vecIndex {s : State} (h : s.Canonical) {c f lo} : (s.vecIndex c f lo).Canonical := h.regs1

theorem State.Canonical.execVrmaxi {s : State} (h : s.Canonical) {c f} : NextInv (execVrmaxi c f s) := h.vecIndex.ok

theorem State.Canonical.execVrmini {s : State} (h : s.Canonical) {c f} : NextInv (execVrmini c f s) := h.vecIndex.ok

theorem State.Canonical.predOp {s : State} (h : s.Canonical) {c f g} : (s.predOp c f g).Canonical := h.regs1

theorem State.Canonical.execPand {s : State} (h : s.Canonical) {c f} : NextInv (execPand c f s) := h.predOp.ok

theorem State.Canonical.execPor {s : State} (h : s.Canonical) {c f} : NextInv (execPor c f s) := h.predOp.ok

theorem State.Canonical.execPxor {s : State} (h : s.Canonical) {c f} : NextInv (execPxor c f s) := h.predOp.ok

theorem State.Canonical.execPnot {s : State} (h : s.Canonical) {c f} : NextInv (execPnot c f s) := h.predOp.ok

theorem State.Canonical.execPall {s : State} (h : s.Canonical) {c f} : NextInv (execPall c f s) := h.predOp.ok

theorem State.Canonical.execPnone {s : State} (h : s.Canonical) {c f} : NextInv (execPnone c f s) := h.predOp.ok

theorem State.Canonical.execPlen {s : State} (h : s.Canonical) {c f} : NextInv (execPlen c f s) := h.regs1.ok

theorem State.Canonical.execPcnt {s : State} (h : s.Canonical) {c f} : NextInv (execPcnt c f s) := h.regs1.ok

/-! ### The table and the step -/

/-- Every command keeps the invariant: one case for each row of the table, by the rule of what the row runs. -/
theorem State.Canonical.exec {s : State} (h : s.Canonical) (c : Instr) : NextInv (Machine.exec c s) := by
  cases c with
  | porNRelease _ _ _ => exact h.execPorNRelease
  | configurationLock => exact h.execConfigurationLock
  | wrstNAssert _ => exact h.execWrstNAssert
  | coolOkAssert => exact h.execCoolOkAssert
  | coolOkDeassert => exact h.execCoolOkDeassert
  | coolOkLossTimeout => exact h.execCoolOkLossTimeout
  | junctionBrakeTemperature _ => exact h.execJunctionBrakeTemperature
  | junctionLimitTemperature _ => exact h.execJunctionLimitTemperature
  | railOutOfLimits _ _ => exact h.execRailOutOfLimits
  | epoNAssert => exact h.execEpoNAssert
  | freezeNAssert _ => exact h.execFreezeNAssert
  | pwrbrakeNAssert => exact h.execPwrbrakeNAssert
  | powerSample _ _ _ => exact h.execPowerSample
  | overCapSamples => exact h.execOverCapSamples
  | brakeExit => exact h.execBrakeExit
  | fatalError _ => exact h.execFatalError
  | lsmReady _ => exact h.execLsmReady
  | lsmFault _ => exact h.execLsmFault
  | lsmRegisterAccessFail _ => exact h.execLsmRegisterAccessFail
  | biasEvaluation _ => exact h.execBiasEvaluation
  | lsmRetireWrite _ => exact h.execLsmRetireWrite
  | coldSearchDone _ _ _ => exact h.execColdSearchDone
  | fabricReadyAssert => exact h.execFabricReadyAssert
  | ringLockLoss _ => exact h.execRingLockLoss
  | relockDone _ _ => exact h.execRelockDone
  | lockSupervisorCheck _ => exact h.execLockSupervisorCheck
  | signalDetect _ _ => exact h.execSignalDetect
  | lockMiss _ _ => exact h.execLockMiss
  | burstReceive _ _ _ => exact h.execBurstReceive
  | burstOpen _ _ => exact h.execBurstOpen
  | keepaliveTimer _ _ => exact h.execKeepaliveTimer
  | powerReportTimer _ _ _ => exact h.execPowerReportTimer
  | hopLost _ _ _ => exact h.execHopLost
  | hopUpTimer _ _ => exact h.execHopUpTimer
  | ack _ => exact h.execAck
  | nack _ => exact h.execNack
  | credit _ => exact h.execCredit
  | creditReq _ => exact h.execCreditReq
  | creditReturn _ => exact h.execCreditReturn
  | lendIdleTimeout _ _ _ => exact h.execLendIdleTimeout
  | power _ => exact h.execPower
  | lineAlarm _ => exact h.execLineAlarm
  | seqQuery _ => exact h.execSeqQuery
  | seqReply _ => exact h.execSeqReply
  | hopDrain _ => exact h.execHopDrain
  | hopDrainDone _ => exact h.execHopDrainDone
  | hopDown _ => exact h.execHopDown
  | hopUp _ => exact h.execHopUp
  | hopUpAck _ => exact h.execHopUpAck
  | keepalive _ => exact h.execKeepalive
  | retryTimeout _ _ => exact h.execRetryTimeout
  | hopRetryExhausted _ _ => exact h.execHopRetryExhausted
  | optDrainStart _ => exact h.execOptDrainStart
  | optDrainReturn _ => exact h.execOptDrainReturn
  | fibreDrainTimeout _ => exact h.execFibreDrainTimeout
  | frameReceive _ _ => exact h.execFrameReceive
  | bufferEccError _ => exact h.execBufferEccError
  | frameForward _ => exact h.execFrameForward
  | escapeTimeout _ => exact h.execEscapeTimeout
  | rd _ _ => exact h.execRd
  | wr _ _ _ => exact h.execWr
  | atomic _ _ _ _ _ => exact h.execAtomic
  | inval _ _ => exact h.execInval
  | ctr _ _ _ compare => exact h.execCtr (_compare := compare)
  | clause _ _ _ => exact h.execClause
  | rdResp _ _ _ => exact h.execRdResp
  | wrResp _ => exact h.execWrResp
  | atomicResp _ _ => exact h.execAtomicResp
  | invalAck _ => exact h.execInvalAck
  | ctrResp _ _ => exact h.execCtrResp
  | clauseDone _ _ _ _ => exact h.execClauseDone
  | dirRegister _ => exact h.execDirRegister
  | dirUnregister _ => exact h.execDirUnregister
  | pmPrepare _ => exact h.execPmPrepare
  | pmUpdate _ => exact h.execPmUpdate
  | pmRelease _ => exact h.execPmRelease
  | replPlace _ => exact h.execReplPlace
  | replInval _ => exact h.execReplInval
  | replDrop _ => exact h.execReplDrop
  | rehomeOffer _ => exact h.execRehomeOffer
  | dirResp op _ _ => exact h.execDirResp (_op := op)
  | req _ _ _ => exact h.execReq
  | snp _ _ => exact h.execSnp
  | half _ _ => exact h.execHalf
  | done _ => exact h.execDone
  | fin _ => exact h.execFin
  | retry _ => exact h.execRetry
  | snoopReissue _ => exact h.execSnoopReissue
  | holdExpiry _ _ => exact h.execHoldExpiry
  | apertureRead _ => exact h.execApertureRead
  | apertureWrite _ _ => exact h.execApertureWrite
  | apertureAtomic _ _ _ _ => exact h.execApertureAtomic
  | doorbell _ _ => exact h.execDoorbell
  | cqHeadWrite _ _ => exact h.execCqHeadWrite
  | controlRegionRead _ => exact h.execControlRegionRead
  | controlCounterWrite _ _ => exact h.execControlCounterWrite
  | controlRegionAtomic _ _ _ _ => exact h.execControlRegionAtomic
  | edgeDeviceEnumeration _ _ _ _ _ _ => exact h.execEdgeDeviceEnumeration
  | edgeLinkLoss _ => exact h.execEdgeLinkLoss
  | ideMacFailure _ => exact h.execIdeMacFailure
  | ideKeyRefresh _ => exact h.execIdeKeyRefresh
  | bisnp _ _ => exact h.execBisnp
  | cxlMemCompletion _ _ _ _ => exact h.execCxlMemCompletion
  | edgeDisable _ => exact h.execEdgeDisable
  | edgeEnable _ => exact h.execEdgeEnable
  | edgeDrainTimeout _ => exact h.execEdgeDrainTimeout
  | edgeCfgAccess _ _ => exact h.execEdgeCfgAccess
  | edgeCfgDone _ _ => exact h.execEdgeCfgDone
  | expanderLinkDown _ => exact h.execExpanderLinkDown
  | expanderReturnTimeout _ => exact h.execExpanderReturnTimeout
  | gddrTrainingDone _ _ _ _ _ => exact h.execGddrTrainingDone
  | gddrRetrain _ _ => exact h.execGddrRetrain
  | nelarLinkActive _ _ _ _ _ => exact h.execNelarLinkActive
  | nelarLinkDown _ => exact h.execNelarLinkDown
  | flitReceive _ _ => exact h.execFlitReceive
  | nackFlit _ _ => exact h.execNackFlit
  | replayTimeout _ => exact h.execReplayTimeout
  | nelarReplayExhausted _ => exact h.execNelarReplayExhausted
  | nelarDisable _ => exact h.execNelarDisable
  | nelarEnable _ => exact h.execNelarEnable
  | nelarDrainTimeout _ => exact h.execNelarDrainTimeout
  | regRead _ _ _ _ => exact h.execRegRead
  | regWrite _ _ _ _ _ => exact h.execRegWrite
  | registerWrite _ _ _ => exact h.execRegisterWrite
  | partCreate _ _ => exact h.execPartCreate
  | partDrain _ _ _ => exact h.execPartDrain
  | partitionDisabled _ => exact h.execPartitionDisabled
  | partitionDrainTimeout _ => exact h.execPartitionDrainTimeout
  | weightLoad _ _ => exact h.execWeightLoad
  | attestReq _ _ _ _ _ => exact h.execAttestReq
  | mapInstall _ _ => exact h.execMapInstall
  | zeroFillDone _ => exact h.execZeroFillDone
  | mapWithdraw _ _ => exact h.execMapWithdraw
  | withdrawalAcked _ => exact h.execWithdrawalAcked
  | faultReject _ _ _ _ => exact h.execFaultReject
  | winInstall _ _ _ _ _ _ => exact h.execWinInstall
  | winRemove _ _ _ _ _ => exact h.execWinRemove
  | queueCreate _ _ => exact h.execQueueCreate
  | queueDrain _ _ _ => exact h.execQueueDrain
  | queueDisabled _ => exact h.execQueueDisabled
  | queueDrainTimeout _ => exact h.execQueueDrainTimeout
  | groupCreate _ _ => exact h.execGroupCreate
  | groupReset _ _ _ _ => exact h.execGroupReset
  | groupDestroy _ _ _ _ => exact h.execGroupDestroy
  | modeSelect _ _ => exact h.execModeSelect
  | drainedPoint => exact h.execDrainedPoint
  | modeChangeTimeout => exact h.execModeChangeTimeout
  | capSet _ _ _ _ => exact h.execCapSet
  | freezeRead _ _ _ _ => exact h.execFreezeRead
  | udpDatagram _ _ _ _ _ _ _ => exact h.execUdpDatagram
  | arpRequest _ _ _ _ => exact h.execArpRequest
  | reassemblyTimeout _ _ _ => exact h.execReassemblyTimeout
  | smbusRegisterWrite _ _ _ _ => exact h.execSmbusRegisterWrite
  | smbusRegisterRead _ _ _ => exact h.execSmbusRegisterRead
  | extest _ => exact h.execExtest
  | sample _ => exact h.execSample
  | idcode => exact h.execIdcode
  | regrd _ => exact h.execRegrd
  | regwr _ _ => exact h.execRegwr
  | frzaddr _ => exact h.execFrzaddr
  | frzdata => exact h.execFrzdata
  | bypass _ => exact h.execBypass
  | descriptorFetch _ => exact h.execDescriptorFetch
  | clauseAccept _ => exact h.execClauseAccept
  | pendingTriggerFree _ => exact h.execPendingTriggerFree
  | triggerRelease _ => exact h.execTriggerRelease
  | queueTimeout _ => exact h.execQueueTimeout
  | clausePlace _ => exact h.execClausePlace
  | segmentStart _ => exact h.execSegmentStart
  | clauseResume _ => exact h.execClauseResume
  | parkTimeout _ => exact h.execParkTimeout
  | batchTimeout => exact h.execBatchTimeout
  | batchFull => exact h.execBatchFull
  | chunkComplete _ _ => exact h.execChunkComplete
  | clauseComplete _ => exact h.execClauseComplete
  | copy _ => exact h.execCopy
  | copy2d _ => exact h.execCopy2d
  | fill _ => exact h.execFill
  | gather _ => exact h.execGather
  | scatter _ _ => exact h.execScatter
  | atomicBatch _ => exact h.execAtomicBatch
  | reduce _ _ => exact h.execReduce
  | allreduce _ _ => exact h.execAllreduce
  | reduceScatter _ _ => exact h.execReduceScatter
  | allgather _ _ => exact h.execAllgather
  | broadcast _ _ => exact h.execBroadcast
  | alltoall _ _ => exact h.execAlltoall
  | alltoallv _ _ => exact h.execAlltoallv
  | transform _ => exact h.execTransform
  | kernel _ => exact h.execKernel
  | fenceClause _ => exact h.execFenceClause
  | counterOp _ => exact h.execCounterOp
  | wait _ => exact h.execWait
  | waitSatisfied _ => exact h.execWaitSatisfied
  | waitTimeout _ => exact h.execWaitTimeout
  | slotReservationGrant _ => exact h.execSlotReservationGrant
  | collReadySend _ => exact h.execCollReadySend
  | collData _ _ => exact h.execCollData
  | collCheck _ _ => exact h.execCollCheck
  | collCounts _ _ => exact h.execCollCounts
  | collReady _ _ => exact h.execCollReady
  | collCheckResult _ _ => exact h.execCollCheckResult
  | collCheckExhausted _ _ _ _ => exact h.execCollCheckExhausted
  | collAbort _ _ _ => exact h.execCollAbort
  | stallTimeout _ => exact h.execStallTimeout
  | epochEnd _ => exact h.execEpochEnd
  | migrationCopyDone _ _ => exact h.execMigrationCopyDone
  | migrationQuiesce _ _ => exact h.execMigrationQuiesce
  | quiesceTimeout _ _ => exact h.execQuiesceTimeout
  | migrationRetry _ _ => exact h.execMigrationRetry
  | migrationFinish _ _ => exact h.execMigrationFinish
  | transformStart _ => exact h.execTransformStart
  | pilotCheck _ _ => exact h.execPilotCheck
  | warmCalibration _ => exact h.execWarmCalibration
  | coldCalibrationDone _ => exact h.execColdCalibrationDone
  | carrierLoss _ => exact h.execCarrierLoss
  | carrierReturn _ => exact h.execCarrierReturn
  | carrierLossTimeout _ => exact h.execCarrierLossTimeout
  | ptuDisable _ => exact h.execPtuDisable
  | ptuEnable _ => exact h.execPtuEnable
  | ptuDrainTimeout _ => exact h.execPtuDrainTimeout
  | tileDisable _ => exact h.execTileDisable
  | tileEnable _ => exact h.execTileEnable
  | tileDrainTimeout _ => exact h.execTileDrainTimeout
  | runaheadIssue _ _ => exact h.execRunaheadIssue
  | transactionTimeout _ => exact h.execTransactionTimeout
  | faultMarkLost _ => exact h.execFaultMarkLost
  | faultMarkReachable _ => exact h.execFaultMarkReachable
  | xlatPmProbeWrite _ _ => exact h.execXlatPmProbeWrite
  | conjGroupSelWrite _ _ => exact h.execConjGroupSelWrite
  | parserProbeWrite _ _ => exact h.execParserProbeWrite
  | secVlogSelWrite _ _ => exact h.execSecVlogSelWrite
  | faultReachSelWrite _ _ => exact h.execFaultReachSelWrite
  | faultLogSelWrite _ _ => exact h.execFaultLogSelWrite
  | teleSnapHist _ => exact h.execTeleSnapHist
  | teleSnapPorts => exact h.execTeleSnapPorts
  | teleSnapClearPorts => exact h.execTeleSnapClearPorts
  | teleHcfgWrite _ _ => exact h.execTeleHcfgWrite
  | teleSampleTimer => exact h.execTeleSampleTimer
  | teleStreamInterval => exact h.execTeleStreamInterval
  | add _ _ => exact h.execAdd
  | sub _ _ => exact h.execSub
  | and _ _ => exact h.execAnd
  | or _ _ => exact h.execOr
  | xor _ _ => exact h.execXor
  | shl _ _ => exact h.execShl
  | shr _ _ => exact h.execShr
  | sra _ _ => exact h.execSra
  | mul _ _ => exact h.execMul
  | mulhu _ _ => exact h.execMulhu
  | divu _ _ => exact h.execDivu
  | div _ _ => exact h.execDiv
  | min _ _ => exact h.execMin
  | max _ _ => exact h.execMax
  | minu _ _ => exact h.execMinu
  | maxu _ _ => exact h.execMaxu
  | slt _ _ => exact h.execSlt
  | sltu _ _ => exact h.execSltu
  | popc _ _ => exact h.execPopc
  | addi _ _ => exact h.execAddi
  | andi _ _ => exact h.execAndi
  | ori _ _ => exact h.execOri
  | xori _ _ => exact h.execXori
  | shli _ _ => exact h.execShli
  | shri _ _ => exact h.execShri
  | srai _ _ => exact h.execSrai
  | slti _ _ => exact h.execSlti
  | lui _ _ => exact h.execLui
  | seth _ _ => exact h.execSeth
  | beq _ _ => exact h.execBeq
  | bne _ _ => exact h.execBne
  | blt _ _ => exact h.execBlt
  | bge _ _ => exact h.execBge
  | bltu _ _ => exact h.execBltu
  | bgeu _ _ => exact h.execBgeu
  | j _ _ => exact h.execJ
  | jal _ _ => exact h.execJal
  | jr _ _ => exact h.execJr
  | ld _ _ _ => exact h.execLd
  | lds _ _ _ => exact h.execLds
  | st _ _ => exact h.execSt
  | fence _ _ => exact h.execFence
  | vld _ _ _ => exact h.execVld
  | vst _ _ => exact h.execVst
  | vadd _ _ => exact h.execVadd
  | vsub _ _ => exact h.execVsub
  | vmul _ _ => exact h.execVmul
  | vfma _ _ => exact h.execVfma
  | vmin _ _ => exact h.execVmin
  | vmax _ _ => exact h.execVmax
  | vabs _ _ => exact h.execVabs
  | vfmaw _ _ => exact h.execVfmaw
  | vand _ _ => exact h.execVand
  | vor _ _ => exact h.execVor
  | vxor _ _ => exact h.execVxor
  | vshl _ _ => exact h.execVshl
  | vshr _ _ => exact h.execVshr
  | vsra _ _ => exact h.execVsra
  | vsel _ _ => exact h.execVsel
  | vmov _ _ => exact h.execVmov
  | vcmp _ _ _ => exact h.execVcmp
  | vcvt _ _ _ => exact h.execVcvt
  | vbcast _ _ => exact h.execVbcast
  | vins _ _ => exact h.execVins
  | vext _ _ => exact h.execVext
  | vrsum _ _ => exact h.execVrsum
  | vrmax _ _ => exact h.execVrmax
  | vrmin _ _ => exact h.execVrmin
  | vrmaxi _ _ => exact h.execVrmaxi
  | vrmini _ _ => exact h.execVrmini
  | pand _ _ => exact h.execPand
  | por _ _ => exact h.execPor
  | pxor _ _ => exact h.execPxor
  | pnot _ _ => exact h.execPnot
  | pall _ _ => exact h.execPall
  | pnone _ _ => exact h.execPnone
  | plen _ _ => exact h.execPlen
  | pcnt _ _ => exact h.execPcnt
  | mma _ _ _ => exact h.execMma
  | mzero _ _ => exact h.execMzero
  | mld _ _ _ => exact h.execMld
  | mst _ _ => exact h.execMst
  | amo _ _ => exact h.execAmo
  | scfg _ _ _ => exact h.execScfg
  | spop _ _ _ => exact h.execSpop
  | spops _ _ _ => exact h.execSpops
  | sskip _ _ => exact h.execSskip
  | scan _ _ => exact h.execScan
  | srem _ _ => exact h.execSrem
  | ctrld _ _ => exact h.execCtrld
  | ctradd _ _ => exact h.execCtradd
  | ctrwait _ _ => exact h.execCtrwait
  | ctrwaitWake _ => exact h.execCtrwaitWake
  | waitLimitExpiry _ => exact h.execWaitLimitExpiry
  | ctrset _ _ => exact h.execCtrset
  | submit _ _ _ => exact h.execSubmit
  | lex _ _ => exact h.execLex
  | csrr _ _ => exact h.execCsrr
  | csrw _ _ => exact h.execCsrw
  | exit _ _ => exact h.execExit
  | budgetExpiry _ => exact h.execBudgetExpiry
  | porNAssert => exact h.execPorNAssert
  | expanderLinkReturn _ _ => exact h.execExpanderLinkReturn
  | lsmPresNChange _ _ => exact h.execLsmPresNChange
  | heldDescriptorTimeout _ => exact h.execHeldDescriptorTimeout
  | warmCalibrationDone _ => exact h.execWarmCalibrationDone
  | gddr7TransferCompletion _ _ _ _ _ _ => exact h.execGddr7TransferCompletion
  | gddr7DeviceFatalError _ => exact h.execGddr7DeviceFatalError

/-- Settles O53: a tick counts one register up, and a command runs in a state that differs only in its queue. -/
theorem everyStepKeepsTheInvariant : Obligations.EveryStepKeepsTheInvariant := by
  unfold Obligations.EveryStepKeepsTheInvariant
  intro s t h hstep
  rw [← State.canonical_iff] at h ⊢
  unfold step at hstep
  split at hstep
  · cases hstep
    exact h.aonTick
  next c _ _ => exact h.update.exec c t hstep

end Sys2Proof.Machine
end

section
namespace Sys2Proof.Machine

/-! ### Commands that complete, and the register fields that they leave alone -/

theorem Completes.of_next {c : Instr} {s t : State} {P : State → Prop} (hexec : exec c s = .next t) (ht : P t) :
    Completes c s P :=
  ⟨t, hexec, ht⟩

theorem State.settleLoop_of_finished_nil {s : State} (h : s.home.finished = []) (n : Nat) : State.settleLoop n s = s := by
  cases n with
  | zero => rfl
  | succ n => rw [State.settleLoop, if_pos h]

/-- With no completed access, settling changes nothing. -/
theorem settled_of_finished_nil {s : State} (h : s.home.finished = []) : settled s = .next s := by
  rw [settled, State.settle, State.settleLoop_of_finished_nil h]

theorem OnlyFields.refl (fs : List Fld) (s : State) : OnlyFields fs s s := fun _ _ => rfl

theorem OnlyFields.trans {fs : List Fld} {s t u : State} (h : OnlyFields fs s t) (h' : OnlyFields fs t u) :
    OnlyFields fs s u :=
  fun f hf => (h' f hf).trans (h f hf)

theorem OnlyFields.mono {fs gs : List Fld} {s t : State} (h : OnlyFields fs s t) (hsub : ∀ f ∈ fs, f ∈ gs) :
    OnlyFields gs s t :=
  fun f hf => h f (fun g hg => hf g (hsub g hg))

theorem OnlyFields.set {fs : List Fld} {s t : State} (h : OnlyFields fs s t) {f : Fld} (hf : f ∈ fs) {v : Nat} :
    OnlyFields fs s (t.set f v) :=
  fun g hg => (State.get_set_ne t v (hg f hf)).trans (h g hg)

theorem OnlyFields.ite {fs : List Fld} {c : Prop} {_ : Decidable c} {s t u : State} (ht : OnlyFields fs s t)
    (hu : OnlyFields fs s u) : OnlyFields fs s (if c then t else u) := by
  split
  · exact ht
  · exact hu

/-! ### What the geometry of the fabric depends on (R10 to R13) -/

theorem State.planeDim_congr {s t : State} (h : t.boot = s.boot) (f : Nat) : t.planeDim f = s.planeDim f := by
  simp only [State.planeDim, h]

theorem State.usedLines_congr {s t : State} (h : t.boot = s.boot) (f : Nat) : t.usedLines f = s.usedLines f := by
  simp only [State.usedLines, State.planeDim_congr h]

theorem State.backLine_congr {s t : State} (h : t.boot = s.boot) (f l : Nat) : t.backLine f l = s.backLine f l := by
  simp only [State.backLine, State.planeDim_congr h]

theorem State.lt_of_mem_usedLines {s : State} {f l : Nat} (h : l ∈ s.usedLines f) : l < 64 := by
  unfold State.usedLines at h
  split at h <;> simp at h <;> omega

theorem State.length_usedLines_lt (s : State) (f : Nat) : (s.usedLines f).length < 2 ^ 8 := by
  unfold State.usedLines
  split <;> simp

end Sys2Proof.Machine
end

section
namespace Sys2Proof.Machine

/-! ### Cold searches take their turn (R327) -/

/-- What a search that takes its turn does to a fibre: OFF becomes SEARCHING. -/
def State.startSearch (s : State) (f : Nat) : State := if s.fibre f = 0 then s.set (R.OPT_STAT_STATE f) 1 else s

/-- The waiting list with some fibres at its end. -/
def State.joinSearch (s : State) (fs : List Nat) : State :=
  { s with fabric := { s.fabric with searching := s.fabric.searching ++ fs.filter (fun f => !s.fabric.searching.contains f) } }

theorem State.search_eq (s : State) (fs : List Nat) :
    s.search fs = (s.joinSearch fs).searchNow.foldl State.startSearch (s.joinSearch fs) := rfl

theorem State.foldl_startSearch (s : State) (fs : List Nat) :
    fs.foldl State.startSearch s = { s with regs := (fs.foldl State.startSearch s).regs } := by
  induction fs generalizing s with
  | nil => rfl
  | cons f fs ih =>
    rw [List.foldl_cons, ih]
    unfold State.startSearch
    split <;> rfl

/-- Cold searches change the list of fibres and the fibres' states alone. -/
theorem State.search_frame (s : State) (fs : List Nat) :
    s.search fs = { s with regs := (s.search fs).regs, fabric := { s.fabric with
      searching := s.fabric.searching ++ fs.filter (fun f => !s.fabric.searching.contains f) } } := by
  conv_lhs => rw [State.search_eq, State.foldl_startSearch]
  rfl

theorem State.foldl_startSearch_onlyFields (s : State) (fs : List Nat) :
    OnlyFields (fs.map R.OPT_STAT_STATE) s (fs.foldl State.startSearch s) := by
  induction fs generalizing s with
  | nil => exact .refl _ _
  | cons f fs ih =>
    have hstep : OnlyFields ((f :: fs).map R.OPT_STAT_STATE) s (s.startSearch f) :=
      .ite (.set (.refl _ _) (by simp)) (.refl _ _)
    exact hstep.trans ((ih _).mono fun _ => List.mem_cons_of_mem _)

theorem State.searchNow_search (s : State) (fs : List Nat) : (s.search fs).searchNow = (s.joinSearch fs).searchNow := by
  rw [State.search_frame]
  rfl

theorem State.search_onlyFields (s : State) (fs : List Nat) :
    OnlyFields ((s.search fs).searchNow.map R.OPT_STAT_STATE) s (s.search fs) := by
  rw [State.searchNow_search, State.search_eq]
  exact (State.joinSearch s fs).foldl_startSearch_onlyFields _

/-- A field of three bits that reset to 0 keeps a value other than 0: a search changes a fibre from OFF alone. -/
theorem State.get_search_of_ne_zero {s : State} {f : Fld} (hw : f.width = 3) (hr : f.reset = 0) (h : s.get f ≠ 0)
    (fs : List Nat) : (s.search fs).get f = s.get f := by
  have hfold : ∀ (gs : List Nat) (t : State), t.get f ≠ 0 → (gs.foldl State.startSearch t).get f = t.get f := by
    intro gs
    induction gs with
    | nil => intro t _; rfl
    | cons g gs ih =>
      intro t ht
      have hstep : (t.startSearch g).get f = t.get f := by
        unfold State.startSearch
        split
        case isFalse => rfl
        case isTrue hoff =>
          refine State.get_set_ne t 1 fun hkey => ht ?_
          have hfld : f = R.OPT_STAT_STATE g := by
            obtain ⟨k, w, r⟩ := f
            subst hw hr
            exact congrArg (fun k => Fld.mk k 3 0) hkey
          rw [hfld]
          exact hoff
      rw [List.foldl_cons, ih _ (hstep ▸ ht), hstep]
  exact hfold _ _ h

theorem State.get_search_of_key_ne {s : State} {f : Fld} (h : ∀ g, f.key ≠ (R.OPT_STAT_STATE g).key) (fs : List Nat) :
    (s.search fs).get f = s.get f :=
  s.search_onlyFields fs f (by simp [h])

/-! ### The rings of a line after a cold search (R327) -/

theorem OnlyFields.calibrate {fs : List Fld} {s t : State} (h : OnlyFields fs s t) {key code : Nat} :
    OnlyFields fs s (t.calibrate key code) := h

/-- What a cold search does to one ring, given by its state field and heater field: a ring that it leaves out keeps its state,
one that it found is locked and calibrated. -/
def State.searchedRing (s : State) (keep : Prop) [Decidable keep] (st heater : Fld) (found : Bool) (key code : Nat) : State :=
  if keep then s
  else
    let s := (s.set st (if found then 4 else 1)).set heater code
    if found then s.calibrate key (s.get heater) else s

/-- The transmit ring of a line and then its drop ring. -/
theorem State.searched_eq (s : State) (f tx rx l : Nat) :
    s.searched f tx rx l =
      let s := s.searchedRing (s.txLocked f l ∨ s.get (R.OPT_TXLINE_STATE f l) = 5) (R.OPT_TXLINE_STATE f l)
        (R.OPT_TXLINE_HEATER f l) (bit tx l) (hopKey f l * 2) (s.free (2 * l))
      s.searchedRing (s.rxLocked f l) (R.OPT_RXLINE_STATE f l) (R.OPT_RXLINE_HEATER f l) (bit rx l) (hopKey f l * 2 + 1)
        (s.free (2 * l + 1)) := rfl

section
variable {s : State} {keep : Prop} [Decidable keep] {st heater : Fld} {found : Bool} {key code : Nat}

theorem State.searchedRing_frame :
    s.searchedRing keep st heater found key code =
      { s with regs := (s.searchedRing keep st heater found key code).regs,
               fabric := { s.fabric with
                  calibration := (s.searchedRing keep st heater found key code).fabric.calibration } } := by
  unfold State.searchedRing
  dsimp only
  split
  · rfl
  · split <;> rfl

theorem State.searchedRing_onlyFields : OnlyFields [st, heater] s (s.searchedRing keep st heater found key code) :=
  have hset : OnlyFields [st, heater] s ((s.set st (if found then 4 else 1)).set heater code) :=
    ((OnlyFields.refl _ s).set (by simp)).set (by simp)
  .ite (.refl _ _) (.ite hset.calibrate hset)

theorem State.get_searchedRing (hw : st.width = 3) (hkey : st.key ≠ heater.key) :
    (s.searchedRing keep st heater found key code).get st = if keep then s.get st else if found then 4 else 1 := by
  have hset : ((s.set st (if found then 4 else 1)).set heater code).get st = if found then 4 else 1 := by
    rw [State.get_set_ne _ _ hkey, State.get_set_self, hw]
    cases found <;> rfl
  unfold State.searchedRing
  split
  · rfl
  · cases found <;> exact hset

end

/-- The register fields of a line that a cold search may change. -/
def lineFields (f l : Nat) : List Fld :=
  [R.OPT_TXLINE_STATE f l, R.OPT_TXLINE_HEATER f l, R.OPT_RXLINE_STATE f l, R.OPT_RXLINE_HEATER f l]

/-- A field at another address than the two registers of a line is none of its fields. -/
theorem lineFields_key_ne {g : Fld} {f l : Nat} (htx : g.key / 64 ≠ 6819840 + f * 65536 + l * 8)
    (hrx : g.key / 64 ≠ 6820352 + f * 65536 + l * 8) : ∀ x ∈ lineFields f l, g.key ≠ x.key := by
  simp only [lineFields, List.forall_mem_cons, R.OPT_TXLINE_STATE, R.OPT_TXLINE_HEATER, R.OPT_RXLINE_STATE, R.OPT_RXLINE_HEATER]
  refine ⟨by omega, by omega, by omega, by omega, by simp⟩

theorem State.searched_frame (s : State) (f tx rx l : Nat) :
    s.searched f tx rx l = { s with regs := (s.searched f tx rx l).regs,
                                    fabric := { s.fabric with calibration := (s.searched f tx rx l).fabric.calibration } } := by
  rw [State.searched_eq]
  dsimp only
  rw [State.searchedRing_frame, State.searchedRing_frame (s := s)]

theorem State.searched_onlyFields (s : State) (f tx rx l : Nat) : OnlyFields (lineFields f l) s (s.searched f tx rx l) := by
  rw [State.searched_eq]
  exact (State.searchedRing_onlyFields.mono (by simp [lineFields])).trans
    (State.searchedRing_onlyFields.mono (by simp [lineFields]))

/-- The transmit ring of each line after the search of one of them. -/
theorem State.get_txLine_searched (s : State) (f tx rx : Nat) {l m : Nat} (hl : l < 64) (hm : m < 64) :
    (s.searched f tx rx l).get (R.OPT_TXLINE_STATE f m) =
      if m = l ∧ ¬(s.txLocked f l ∨ s.get (R.OPT_TXLINE_STATE f l) = 5) then (if bit tx l then 4 else 1)
      else s.get (R.OPT_TXLINE_STATE f m) := by
  by_cases hml : m = l
  · subst hml
    rw [State.searched_eq]
    dsimp only
    rw [State.searchedRing_onlyFields _ (by simp [R.OPT_TXLINE_STATE, R.OPT_RXLINE_STATE, R.OPT_RXLINE_HEATER]; omega),
      State.get_searchedRing rfl (by simp [R.OPT_TXLINE_STATE, R.OPT_TXLINE_HEATER])]
    split <;> simp_all

  · rw [if_neg fun h => hml h.1]
    exact s.searched_onlyFields f tx rx l _ (lineFields_key_ne (by simp [R.OPT_TXLINE_STATE]; omega)
      (by simp [R.OPT_TXLINE_STATE]; omega))

/-- The drop ring of each line after the search of one of them. -/
theorem State.get_rxLine_searched (s : State) (f tx rx : Nat) {l m : Nat} (hl : l < 64) (hm : m < 64) :
    (s.searched f tx rx l).get (R.OPT_RXLINE_STATE f m) =
      if m = l ∧ s.rxLocked f l = false then (if bit rx l then 4 else 1) else s.get (R.OPT_RXLINE_STATE f m) := by
  by_cases hml : m = l
  · subst hml
    rw [State.searched_eq]
    dsimp only
    generalize hs' : s.searchedRing (s.txLocked f m ∨ s.get (R.OPT_TXLINE_STATE f m) = 5) (R.OPT_TXLINE_STATE f m)
      (R.OPT_TXLINE_HEATER f m) (bit tx m) (hopKey f m * 2) (s.free (2 * m)) = s'
    have hget : s'.get (R.OPT_RXLINE_STATE f m) = s.get (R.OPT_RXLINE_STATE f m) := by
      rw [← hs']
      exact State.searchedRing_onlyFields _ (by simp [R.OPT_TXLINE_STATE, R.OPT_RXLINE_STATE, R.OPT_TXLINE_HEATER]; omega)
    have hlock : s'.rxLocked f m = s.rxLocked f m := by rw [State.rxLocked, hget, State.rxLocked]
    rw [State.get_searchedRing rfl (by simp [R.OPT_RXLINE_STATE, R.OPT_RXLINE_HEATER]), hlock, hget]
    cases s.rxLocked f m <;> simp
  · rw [if_neg fun h => hml h.1]
    exact s.searched_onlyFields f tx rx l _ (lineFields_key_ne (by simp [R.OPT_RXLINE_STATE]; omega)
      (by simp [R.OPT_RXLINE_STATE]; omega))

/-- A locked ring keeps its lock while other rings are searched. -/
theorem State.txLocked_searched_of_txLocked {s : State} {f tx rx l m : Nat} (hl : l < 64) (hm : m < 64)
    (h : s.txLocked f m = true) : (s.searched f tx rx l).txLocked f m = true := by
  rw [State.txLocked, s.get_txLine_searched f tx rx hl hm, if_neg]
  · exact h
  · rintro ⟨rfl, hkeep⟩
    exact hkeep (.inl h)

theorem State.rxLocked_searched_of_rxLocked {s : State} {f tx rx l m : Nat} (hl : l < 64) (hm : m < 64)
    (h : s.rxLocked f m = true) : (s.searched f tx rx l).rxLocked f m = true := by
  rw [State.rxLocked, s.get_rxLine_searched f tx rx hl hm, if_neg]
  · exact h
  · rintro ⟨rfl, hkeep⟩
    exact Bool.noConfusion (h.symm.trans hkeep)

/-- A ring that the search finds is locked. -/
theorem State.txLocked_searched_self {s : State} {f tx rx l : Nat} (hl : l < 64) (hfound : bit tx l = true)
    (hst : s.get (R.OPT_TXLINE_STATE f l) ≠ 5) : (s.searched f tx rx l).txLocked f l = true := by
  by_cases hlock : s.txLocked f l = true
  · exact State.txLocked_searched_of_txLocked hl hl hlock
  · rw [State.txLocked, s.get_txLine_searched f tx rx hl hl, if_pos ⟨rfl, fun h => h.elim hlock hst⟩, if_pos hfound]
    rfl

theorem State.rxLocked_searched_self {s : State} {f tx rx l : Nat} (hl : l < 64) (hfound : bit rx l = true) :
    (s.searched f tx rx l).rxLocked f l = true := by
  cases hlock : s.rxLocked f l with
  | true => exact State.rxLocked_searched_of_rxLocked hl hl hlock
  | false =>
    rw [State.rxLocked, s.get_rxLine_searched f tx rx hl hl, if_pos ⟨rfl, hlock⟩, if_pos hfound]
    rfl

/-- A ring that the search misses stays without lock. -/
theorem State.txLocked_searched_of_missed {s : State} {f tx rx l m : Nat} (hl : l < 64) (hm : m < 64)
    (hmiss : bit tx m = false) (h : s.txLocked f m = false) : (s.searched f tx rx l).txLocked f m = false := by
  rw [State.txLocked, s.get_txLine_searched f tx rx hl hm]
  split
  next hml => rw [← hml.1, hmiss]; rfl
  next => exact h

/-- No search makes a line DEGRADED. -/
theorem State.txLine_searched_ne_five {s : State} {f tx rx l m : Nat} (hl : l < 64) (hm : m < 64)
    (h : s.get (R.OPT_TXLINE_STATE f m) ≠ 5) : (s.searched f tx rx l).get (R.OPT_TXLINE_STATE f m) ≠ 5 := by
  rw [s.get_txLine_searched f tx rx hl hm]
  split
  · split <;> decide
  · exact h

/-! ### The rings of a fibre after a cold search -/

def State.searchedLines (s : State) (f tx rx : Nat) (ls : List Nat) : State := ls.foldl (fun s l => s.searched f tx rx l) s

theorem State.searchedLines_frame (s : State) (f tx rx : Nat) (ls : List Nat) :
    s.searchedLines f tx rx ls =
      { s with regs := (s.searchedLines f tx rx ls).regs,
               fabric := { s.fabric with calibration := (s.searchedLines f tx rx ls).fabric.calibration } } := by
  induction ls generalizing s with
  | nil => rfl
  | cons l ls ih =>
    have hcons : s.searchedLines f tx rx (l :: ls) = (s.searched f tx rx l).searchedLines f tx rx ls := rfl
    rw [hcons, ih, State.searched_frame]

/-- Every ring that a search finds is locked, and none that was locked loses its lock. -/
theorem State.locked_searchedLines {s : State} {f tx rx : Nat} {ls : List Nat}
    (h : ∀ l ∈ ls, l < 64 ∧ bit tx l = true ∧ bit rx l = true ∧ s.get (R.OPT_TXLINE_STATE f l) ≠ 5) :
    ∀ l ∈ ls, (s.searchedLines f tx rx ls).txLocked f l = true ∧ (s.searchedLines f tx rx ls).rxLocked f l = true := by
  induction ls generalizing s with
  | nil => simp
  | cons l ls ih =>
    obtain ⟨hl, htx, hrx, hst⟩ := h l (List.mem_cons_self ..)
    have hrest : ∀ m ∈ ls, m < 64 := fun m hm => (h m (List.mem_cons_of_mem _ hm)).1
    intro m hm
    rcases List.mem_cons.1 hm with rfl | hm
    · refine List.foldlRecOn ls _ (motive := fun t : State => t.txLocked f m = true ∧ t.rxLocked f m = true)
        ⟨State.txLocked_searched_self hl htx hst, State.rxLocked_searched_self hl hrx⟩ ?_
      rintro t ⟨ht, hr⟩ j hj
      exact ⟨State.txLocked_searched_of_txLocked (hrest j hj) hl ht, State.rxLocked_searched_of_rxLocked (hrest j hj) hl hr⟩
    · refine ih (s := s.searched f tx rx l) (fun j hj => ?_) m hm
      obtain ⟨hj64, htxj, hrxj, hstj⟩ := h j (List.mem_cons_of_mem _ hj)
      exact ⟨hj64, htxj, hrxj, State.txLine_searched_ne_five hl hj64 hstj⟩

theorem State.not_txLocked_searchedLines {s : State} {f tx rx m : Nat} {ls : List Nat} (hls : ∀ l ∈ ls, l < 64) (hm : m < 64)
    (hmiss : bit tx m = false) (h : s.txLocked f m = false) : (s.searchedLines f tx rx ls).txLocked f m = false :=
  List.foldlRecOn ls _ (motive := fun t : State => t.txLocked f m = false) h
    fun _ ht l hl => State.txLocked_searched_of_missed (hls l hl) hm hmiss ht

/-- A search of rings leaves the registers of other addresses alone. -/
theorem State.get_searchedLines {s : State} {f tx rx : Nat} {ls : List Nat} {g : Fld}
    (h : ∀ l ∈ ls, g.key / 64 ≠ 6819840 + f * 65536 + l * 8 ∧ g.key / 64 ≠ 6820352 + f * 65536 + l * 8) :
    (s.searchedLines f tx rx ls).get g = s.get g :=
  List.foldlRecOn ls _ (motive := fun t : State => t.get g = s.get g) rfl
    fun t ht l hl => (t.searched_onlyFields f tx rx l g (lineFields_key_ne (h l hl).1 (h l hl).2)).trans ht

theorem State.fibre_searchedLines {s : State} {f tx rx : Nat} {ls : List Nat} (hls : ∀ l ∈ ls, l < 64) (g : Nat) :
    (s.searchedLines f tx rx ls).fibre g = s.fibre g :=
  State.get_searchedLines fun l hl => by
    have := hls l hl
    simp only [R.OPT_STAT_STATE]
    omega

end Sys2Proof.Machine
end

section
namespace Sys2Proof.Machine

/-! ### An event in the fault log (R457) -/

/-- What sending a message of the chip's own may change: the links, what goes out, and the fields that tell of the stream. -/
structure State.Notifies (s t : State) : Prop where
  frame : t = { s with regs := t.regs, nelar := t.nelar, out := t.out }
  fields : OnlyFields [R.TELE_STAT_SEQ, R.FAULT_STAT_EVENTS_LOST] s t

theorem State.Notifies.refl (s : State) : s.Notifies s := ⟨rfl, .refl _ _⟩

theorem State.Notifies.ite {c : Prop} {_ : Decidable c} {s t u : State} (ht : s.Notifies t) (hu : s.Notifies u) :
    s.Notifies (if c then t else u) := by
  split
  · exact ht
  · exact hu

theorem State.Notifies.set {s t : State} (h : s.Notifies t) {f : Fld}
    (hf : f ∈ [R.TELE_STAT_SEQ, R.FAULT_STAT_EVENTS_LOST]) {v : Nat} : s.Notifies (t.set f v) :=
  ⟨by rw [h.frame]; rfl, h.fields.set hf⟩

/-- A change of the links and of what goes out. -/
theorem State.Notifies.update {s t : State} (h : s.Notifies t) {nelar out} :
    s.Notifies { t with nelar := nelar, out := out } :=
  ⟨by rw [h.frame], h.fields⟩

theorem State.Notifies.emit {s t : State} (h : s.Notifies t) {o} : s.Notifies (t.emit o) := h.update

theorem State.Notifies.setLink {s t : State} (h : s.Notifies t) {l k} : s.Notifies (t.setLink l k) := h.update

theorem State.Notifies.sendFlit {s t : State} (h : s.Notifies t) {l f} : s.Notifies (t.sendFlit l f) := h.setLink.emit.emit

theorem State.Notifies.pump {s t : State} (h : s.Notifies t) {l n} : s.Notifies (t.pump l n) := by
  induction n generalizing t with
  | zero => exact h
  | succ n ih =>
    unfold State.pump
    split
    · exact h
    · exact .ite h (ih h.setLink.sendFlit)

theorem State.Notifies.sendOn {s t : State} (h : s.Notifies t) {l m} : s.Notifies (t.sendOn l m) := h.setLink.pump

theorem State.Notifies.teleLost {s t : State} (h : s.Notifies t) {body} : s.Notifies (t.teleLost body) :=
  .ite (h.set (by simp)) h

theorem State.Notifies.keepNotice {s t : State} (h : s.Notifies t) {m} : s.Notifies (t.keepNotice m) := .ite h.teleLost h.update

theorem State.Notifies.sendVia {s t : State} (h : s.Notifies t) {l m} : s.Notifies (t.sendVia l m) :=
  .ite h.sendOn (.ite h.sendOn (.ite h.sendOn h.keepNotice))

theorem State.Notifies.sendPort {s t : State} (h : s.Notifies t) {p dst m} : s.Notifies (t.sendPort p dst m) := by
  unfold State.sendPort
  split
  · exact h.emit
  · exact h

theorem State.Notifies.bumpOwn {s t : State} (h : s.Notifies t) : s.Notifies t.bumpOwn := h.update

theorem State.Notifies.sendOwn {s t : State} (h : s.Notifies t) {code body} : s.Notifies (t.sendOwn code body) :=
  .ite h.update h.bumpOwn.sendVia

theorem State.Notifies.sendTele {s t : State} (h : s.Notifies t) {body} : s.Notifies (t.sendTele body) :=
  .ite (.ite h.teleLost h.bumpOwn.sendPort) h.sendOwn

theorem State.Notifies.stream {s t : State} (h : s.Notifies t) {records} : s.Notifies (t.stream records) :=
  (h.set (by simp)).sendTele

/-- Beyond its record in the log, an event is at most streamed. -/
theorem State.logFault_notifies (s : State) (event addr partition code : Nat) :
    (s.recordFault (s.faultEvent event addr partition code)).Notifies (s.logFault event addr partition code) :=
  .ite (State.Notifies.refl _).stream (.refl _)

theorem State.logFault_frame (s : State) (event addr partition code : Nat) :
    s.logFault event addr partition code =
      { s with regs := (s.logFault event addr partition code).regs, tele := (s.logFault event addr partition code).tele,
               nelar := (s.logFault event addr partition code).nelar, out := (s.logFault event addr partition code).out } := by
  rw [(s.logFault_notifies event addr partition code).frame]
  rfl

theorem State.logFault_onlyFields (s : State) (event addr partition code : Nat) :
    OnlyFields [R.FAULT_STAT_LOG_ENTRIES, R.TELE_STAT_SEQ, R.FAULT_STAT_EVENTS_LOST] s
      (s.logFault event addr partition code) := by
  have hrec : OnlyFields [R.FAULT_STAT_LOG_ENTRIES, R.TELE_STAT_SEQ, R.FAULT_STAT_EVENTS_LOST] s
      (s.recordFault (s.faultEvent event addr partition code)) :=
    (OnlyFields.refl _ s).set (by simp)
  exact hrec.trans ((s.logFault_notifies event addr partition code).fields.mono (by simp))

/-- The event is the newest of the log. -/
theorem State.logFault_head (s : State) (event addr partition code : Nat) :
    (s.logFault event addr partition code).tele.log.head? = some (s.faultEvent event addr partition code) := by
  rw [(s.logFault_notifies event addr partition code).frame]
  rfl

end Sys2Proof.Machine
end

section
namespace Sys2Proof.Machine

/-! ### The end of a cold search (R327, R328) -/

theorem bit_eq_testBit (n i : Nat) : bit n i = n.testBit i := by
  rw [bit, Nat.testBit_eq_decide_div_mod_eq]
  rfl

theorem bit_setBit_mod (n : Nat) {i w : Nat} (hi : i < w) : bit (setBit n i % 2 ^ w) i = true := by
  rw [bit_eq_testBit, Nat.testBit_mod_two_pow, setBit, bit_eq_testBit]
  cases h : n.testBit i <;> simp [h, hi, Nat.add_comm n, Nat.testBit_two_pow_add_eq]

/-- The locked rings of a fibre, counted in OPT_STAT. -/
def State.countLocked (s : State) (f : Nat) : State :=
  (s.set (R.OPT_STAT_TX_LOCKED f) ((s.usedLines f).countP (s.txLocked f))).set
    (R.OPT_STAT_RX_LOCKED f) ((s.usedLines f).countP (s.rxLocked f))

theorem State.get_countLocked {s : State} {f : Nat} {g : Fld} (htx : g.key % 64 ≠ 24) (hrx : g.key % 64 ≠ 16) :
    (s.countLocked f).get g = s.get g := by
  unfold State.countLocked
  rw [State.get_set_ne _ _ (by simp only [R.OPT_STAT_RX_LOCKED]; omega),
    State.get_set_ne _ _ (by simp only [R.OPT_STAT_TX_LOCKED]; omega)]

theorem State.get_fieldZero_countLocked {s : State} {f : Nat} {g : Fld} (h : g.key % 64 = 0) :
    (s.countLocked f).get g = s.get g :=
  State.get_countLocked (by omega) (by omega)

theorem State.fibre_countLocked (s : State) (f g : Nat) : (s.countLocked f).fibre g = s.fibre g :=
  State.get_fieldZero_countLocked (by simp [R.OPT_STAT_STATE])

theorem State.txLocked_countLocked (s : State) (f g l : Nat) : (s.countLocked f).txLocked g l = s.txLocked g l := by
  rw [State.txLocked, State.get_fieldZero_countLocked (by simp [R.OPT_TXLINE_STATE]), State.txLocked]

theorem State.rxLocked_countLocked (s : State) (f g l : Nat) : (s.countLocked f).rxLocked g l = s.rxLocked g l := by
  rw [State.rxLocked, State.get_fieldZero_countLocked (by simp [R.OPT_RXLINE_STATE]), State.rxLocked]

/-- Whether all rings of a fibre are locked, counted or not. -/
theorem State.all_locked_countLocked (s : State) (f : Nat) :
    ((s.countLocked f).usedLines f).all (fun l => (s.countLocked f).txLocked f l && (s.countLocked f).rxLocked f l) =
      (s.usedLines f).all (fun l => s.txLocked f l && s.rxLocked f l) := by
  rw [State.usedLines_congr (s := s) (t := s.countLocked f) rfl]
  simp only [State.txLocked_countLocked, State.rxLocked_countLocked]

/-- A fibre that has become ACTIVE, a bulk plane. -/
def State.activated (s : State) (f : Nat) : State :=
  let s := (s.countLocked f).set (R.OPT_STAT_STATE f) 2
  s.set R.PARSER_PLANES_BULK (setBit (s.get R.PARSER_PLANES_BULK) f)

theorem State.fibre_activated (s : State) (f : Nat) : (s.activated f).fibre f = 2 := by
  unfold State.activated State.fibre
  dsimp only
  rw [State.get_set_ne _ _ (by simp only [R.PARSER_PLANES_BULK, R.OPT_STAT_STATE]; omega), State.get_set_self]
  rfl

theorem State.bulk_activated {s : State} {f : Nat} (hf : f < 32) : bit ((s.activated f).get R.PARSER_PLANES_BULK) f = true := by
  unfold State.activated
  dsimp only
  rw [State.get_set_self]
  exact bit_setBit_mod _ hf

/-- Fields of OPT_STAT other than STATE, and those of the lines, are as they were counted. -/
theorem State.get_activated {s : State} {f : Nat} {g : Fld} (h0 : g.key ≠ (R.OPT_STAT_STATE f).key)
    (hbulk : 6815752 * 64 ≤ g.key) : (s.activated f).get g = (s.countLocked f).get g := by
  unfold State.activated
  dsimp only
  rw [State.get_set_ne _ _ (by simp only [R.PARSER_PLANES_BULK]; omega), State.get_set_ne _ _ h0]

theorem State.txLocked_activated {s : State} {f l : Nat} (hl : l < 64) : (s.activated f).txLocked f l = s.txLocked f l := by
  rw [State.txLocked, State.get_activated (by simp only [R.OPT_TXLINE_STATE, R.OPT_STAT_STATE]; omega)
    (by simp only [R.OPT_TXLINE_STATE]; omega)]
  exact s.txLocked_countLocked f f l

theorem State.rxLocked_activated {s : State} {f l : Nat} (hl : l < 64) : (s.activated f).rxLocked f l = s.rxLocked f l := by
  rw [State.rxLocked, State.get_activated (by simp only [R.OPT_RXLINE_STATE, R.OPT_STAT_STATE]; omega)
    (by simp only [R.OPT_RXLINE_STATE]; omega)]
  exact s.rxLocked_countLocked f f l

/-- The counts of locked rings of a fibre whose rings are all locked. -/
theorem State.counts_activated {s : State} {f : Nat}
    (hall : ∀ l ∈ s.usedLines f, s.txLocked f l = true ∧ s.rxLocked f l = true) :
    (s.activated f).get (R.OPT_STAT_TX_LOCKED f) = (s.usedLines f).length ∧
      (s.activated f).get (R.OPT_STAT_RX_LOCKED f) = (s.usedLines f).length := by
  have htx : (s.usedLines f).countP (s.txLocked f) = (s.usedLines f).length := List.countP_eq_length.2 fun l hl => (hall l hl).1
  have hrx : (s.usedLines f).countP (s.rxLocked f) = (s.usedLines f).length := List.countP_eq_length.2 fun l hl => (hall l hl).2
  have hmod : (s.usedLines f).length % 2 ^ 8 = (s.usedLines f).length := Nat.mod_eq_of_lt (s.length_usedLines_lt f)
  constructor
  · rw [State.get_activated (by simp [R.OPT_STAT_TX_LOCKED, R.OPT_STAT_STATE]) (by simp only [R.OPT_STAT_TX_LOCKED]; omega),
      State.countLocked, State.get_set_ne _ _ (by simp [R.OPT_STAT_TX_LOCKED, R.OPT_STAT_RX_LOCKED]), State.get_set_self, htx]
    exact hmod
  · rw [State.get_activated (by simp [R.OPT_STAT_RX_LOCKED, R.OPT_STAT_STATE]) (by simp only [R.OPT_STAT_RX_LOCKED]; omega),
      State.countLocked, State.get_set_self, hrx]
    exact hmod

/-- A searched fibre whose rings are all locked becomes ACTIVE and, unless it is excluded, a bulk plane. -/
theorem State.endSearch_of_found {s : State} {f : Nat} (h1 : s.fibre f = 1)
    (hall : ∀ l ∈ s.usedLines f, s.txLocked f l = true ∧ s.rxLocked f l = true)
    (hx : bit (s.get R.PARSER_PLANES_EXCLUDE) f = false) :
    s.endSearch f = s.activated f := by
  have hlocked : (s.countLocked f).fibre f = 1 ∧
      ((s.countLocked f).usedLines f).all (fun l => (s.countLocked f).txLocked f l && (s.countLocked f).rxLocked f l) = true := by
    rw [State.fibre_countLocked, State.all_locked_countLocked, List.all_eq_true]
    exact ⟨h1, fun l hl => by rw [(hall l hl).1, (hall l hl).2]; rfl⟩
  have hexcl : bit (((s.countLocked f).set (R.OPT_STAT_STATE f) 2).get R.PARSER_PLANES_EXCLUDE) f = false := by
    rw [State.get_set_ne _ _ (by simp only [R.PARSER_PLANES_EXCLUDE, R.OPT_STAT_STATE]; omega),
      State.get_countLocked (by decide) (by decide)]
    exact hx
  exact (if_pos hlocked).trans (if_neg (Bool.eq_false_iff.1 hexcl))

/-- A fibre that has become FAILED, which the log says. -/
def State.failedSearch (s : State) (f : Nat) : State := ((s.countLocked f).set (R.OPT_STAT_STATE f) 5).logFault 5 f 0 0

theorem State.fibre_failedSearch (s : State) (f : Nat) : (s.failedSearch f).fibre f = 5 := by
  rw [State.failedSearch, State.fibre, State.logFault_onlyFields _ _ _ _ _ _ ?_, State.get_set_self]
  · rfl
  · simp only [List.forall_mem_cons, R.OPT_STAT_STATE, R.FAULT_STAT_LOG_ENTRIES, R.TELE_STAT_SEQ, R.FAULT_STAT_EVENTS_LOST]
    exact ⟨by omega, by omega, by omega, by simp⟩

theorem State.head_failedSearch (s : State) (f : Nat) :
    (s.failedSearch f).tele.log.head?.map (fun e => (e.event, e.addr)) = some (5, f) := by
  rw [State.failedSearch, State.logFault_head]
  rfl

theorem State.failedSearch_frame (s : State) (f : Nat) : s.failedSearch f =
    { s with regs := (s.failedSearch f).regs, tele := (s.failedSearch f).tele, nelar := (s.failedSearch f).nelar,
             out := (s.failedSearch f).out } := by
  rw [State.failedSearch, State.logFault_frame]
  rfl

/-- A searched fibre with a ring that has no lock becomes FAILED. -/
theorem State.endSearch_of_missed {s : State} {f l : Nat} (h1 : s.fibre f = 1) (hl : l ∈ s.usedLines f)
    (hmiss : s.txLocked f l = false) :
    s.endSearch f = s.failedSearch f := by
  have hfib : (s.countLocked f).fibre f = 1 := (s.fibre_countLocked f f).trans h1
  have hall : ¬((s.countLocked f).fibre f = 1 ∧
      ((s.countLocked f).usedLines f).all (fun l =>
        (s.countLocked f).txLocked f l && (s.countLocked f).rxLocked f l) = true) := by
    rw [State.all_locked_countLocked, List.all_eq_true]
    rintro ⟨-, hall⟩
    have := hall l hl
    rw [hmiss] at this
    cases this
  exact (if_neg hall).trans (if_pos hfib)

end Sys2Proof.Machine
end

section
namespace Sys2Proof.Machine

/-! ### COLD_SEARCH_DONE of a fibre in SEARCHING (R327, R328) -/

/-- A fibre leaves the list of cold searches. -/
def State.leaveSearch (s : State) (f : Nat) : State :=
  { s with fabric := { s.fabric with searching := s.fabric.searching.filter (· != f) } }

/-- The fibre's search is over: it leaves the list and its rings are as the search found them. -/
def State.afterSearch (s : State) (f tx rx : Nat) : State :=
  ((s.leaveSearch f).searchedLines f tx rx ((s.leaveSearch f).usedLines f)).freshen

/-- The searches that take their turn, and whether the lasers are lit, when a fibre's own search has ended. -/
def State.goOn (s : State) : State := (s.search []).lightCheck

theorem State.goOn_frame (s : State) :
    s.goOn = { s with regs := s.goOn.regs, fabric := { s.fabric with lsmLit := s.goOn.fabric.lsmLit } } := by
  have hsearch : s.search [] = { s with regs := (s.search []).regs } := by
    conv_lhs => rw [State.search_frame]
    simp
  rw [State.goOn, hsearch]
  rfl

theorem State.get_goOn_of_ne_zero {s : State} {f : Fld} (hw : f.width = 3) (hr : f.reset = 0) (h : s.get f ≠ 0) :
    s.goOn.get f = s.get f :=
  State.get_search_of_ne_zero hw hr h []

theorem State.get_goOn_of_key_ne {s : State} {f : Fld} (h : ∀ g, f.key ≠ (R.OPT_STAT_STATE g).key) :
    s.goOn.get f = s.get f :=
  State.get_search_of_key_ne h []

theorem State.txLocked_goOn {s : State} {f l : Nat} (h : s.txLocked f l = true) : s.goOn.txLocked f l = true := by
  have hne : s.get (R.OPT_TXLINE_STATE f l) ≠ 0 := fun h0 => by simp [State.txLocked, h0] at h
  rw [State.txLocked, State.get_goOn_of_ne_zero rfl rfl hne]
  exact h

theorem State.rxLocked_goOn {s : State} {f l : Nat} (h : s.rxLocked f l = true) : s.goOn.rxLocked f l = true := by
  have hne : s.get (R.OPT_RXLINE_STATE f l) ≠ 0 := fun h0 => by simp [State.rxLocked, h0] at h
  rw [State.rxLocked, State.get_goOn_of_ne_zero rfl rfl hne]
  exact h

/-- COLD_SEARCH_DONE of any fibre in its turn. -/
theorem exec_coldSearchDone_eq {s : State} {f : Nat} (hlive : s.live = true) (tx rx : Nat) :
    exec (.coldSearchDone f tx rx) s = .next (if !s.searchNow.contains f then s
      else (((s.afterSearch f tx rx).endSearch f).search
        (if !(s.fibre f == 1) && ((s.afterSearch f tx rx).endSearch f).stillSearching f then [f] else [])).lightCheck) :=
  congrArg ok (State.whenLive_live hlive _)

theorem exec_coldSearchDone {s : State} {f : Nat} (hlive : s.live = true) (hnow : s.searchNow.contains f = true)
    (h1 : s.fibre f = 1) (tx rx : Nat) :
    exec (.coldSearchDone f tx rx) s = .next ((s.afterSearch f tx rx).endSearch f).goOn := by
  have hfirst : (s.fibre f == 1) = true := by rw [h1]; rfl
  rw [exec_coldSearchDone_eq hlive, hnow, hfirst, Bool.not_true, Bool.false_and, if_neg Bool.false_ne_true,
    if_neg Bool.false_ne_true, State.goOn]

theorem State.afterSearch_frame (s : State) (f tx rx : Nat) : s.afterSearch f tx rx =
    { s with regs := (s.afterSearch f tx rx).regs, fresh := s.fresh + 1,
             fabric := { s.fabric with searching := s.fabric.searching.filter (· != f),
                                       calibration := (s.afterSearch f tx rx).fabric.calibration } } := by
  conv_lhs => rw [State.afterSearch, State.searchedLines_frame]
  rfl

end Sys2Proof.Machine
end

section
namespace Sys2Proof.Machine

/-- A search that finds every ring of a fibre makes it an ACTIVE bulk plane (first clause of O8). -/
theorem coldSearchDone_found {s : State} {f tx rx : Nat} (hlive : s.live = true) (hf : f < 32)
    (hnow : s.searchNow.contains f = true) (h1 : s.fibre f = 1)
    (hfound : ∀ l ∈ s.usedLines f, bit tx l = true ∧ bit rx l = true ∧ s.get (R.OPT_TXLINE_STATE f l) ≠ 5)
    (hx : bit (s.get R.PARSER_PLANES_EXCLUDE) f = false) :
    Completes (.coldSearchDone f tx rx) s (fun t => t.fibre f = 2 ∧ bit (t.get R.PARSER_PLANES_BULK) f = true ∧
      t.get (R.OPT_STAT_TX_LOCKED f) = (s.usedLines f).length ∧ t.get (R.OPT_STAT_RX_LOCKED f) = (s.usedLines f).length ∧
      (∀ l ∈ s.usedLines f, t.txLocked f l = true ∧ t.rxLocked f l = true) ∧
      t = { s with regs := t.regs, fresh := s.fresh + 1, fabric := { s.fabric with
        searching := s.fabric.searching.filter (· != f), calibration := t.fabric.calibration,
        lsmLit := t.fabric.lsmLit } }) := by
  have hlines : ∀ l ∈ s.usedLines f, l < 64 := fun l hl => State.lt_of_mem_usedLines hl
  generalize hs1 : s.afterSearch f tx rx = s1
  have hused : s1.usedLines f = s.usedLines f := State.usedLines_congr (by rw [← hs1, State.afterSearch_frame]) f
  have hlocked : ∀ l ∈ s.usedLines f, s1.txLocked f l = true ∧ s1.rxLocked f l = true := by
    rw [← hs1]
    exact State.locked_searchedLines fun l hl => ⟨hlines l hl, hfound l hl⟩
  have hfib : s1.fibre f = 1 := by
    rw [← hs1]
    exact (State.fibre_searchedLines hlines f).trans h1
  have hexcl : bit (s1.get R.PARSER_PLANES_EXCLUDE) f = false := by
    have hget : s1.get R.PARSER_PLANES_EXCLUDE = s.get R.PARSER_PLANES_EXCLUDE := by
      rw [← hs1]
      exact State.get_searchedLines fun l _ => by simp only [R.PARSER_PLANES_EXCLUDE]; omega
    rw [hget]
    exact hx
  refine .of_next (exec_coldSearchDone hlive hnow h1 tx rx) ?_
  rw [hs1, State.endSearch_of_found hfib (hused ▸ hlocked) hexcl]
  refine ⟨?_, ?_, ?_, ?_, ?_, ?_⟩
  · have h2 := s1.fibre_activated f
    exact (State.get_goOn_of_ne_zero rfl rfl (by rw [State.fibre] at h2; omega)).trans h2
  · rw [State.get_goOn_of_key_ne fun g => by simp only [R.PARSER_PLANES_BULK, R.OPT_STAT_STATE]; omega]
    exact State.bulk_activated hf
  · rw [State.get_goOn_of_key_ne fun g => by simp only [R.OPT_STAT_TX_LOCKED, R.OPT_STAT_STATE]; omega, ← hused]
    exact (State.counts_activated (hused ▸ hlocked)).1
  · rw [State.get_goOn_of_key_ne fun g => by simp only [R.OPT_STAT_RX_LOCKED, R.OPT_STAT_STATE]; omega, ← hused]
    exact (State.counts_activated (hused ▸ hlocked)).2
  · intro l hl
    exact ⟨State.txLocked_goOn ((State.txLocked_activated (hlines l hl)).trans (hlocked l hl).1),
      State.rxLocked_goOn ((State.rxLocked_activated (hlines l hl)).trans (hlocked l hl).2)⟩
  · rw [State.goOn_frame, ← hs1, State.afterSearch_frame]
    rfl

/-- A search that misses a ring of a fibre makes it FAILED (second clause of O8). -/
theorem coldSearchDone_missed {s : State} {f tx rx l : Nat} (hlive : s.live = true) 
    (hnow : s.searchNow.contains f = true) (h1 : s.fibre f = 1) (hl : l ∈ s.usedLines f)
    (hmiss : bit tx l = false) (hunlocked : s.txLocked f l = false) :
    Completes (.coldSearchDone f tx rx) s (fun t => t.fibre f = 5 ∧
      (t.tele.log.head?.map (fun e => (e.event, e.addr))) = some (5, f) ∧
      t = { s with regs := t.regs, fresh := s.fresh + 1, tele := t.tele, nelar := t.nelar, out := t.out, fabric := { s.fabric with
        searching := s.fabric.searching.filter (· != f), calibration := t.fabric.calibration,
        lsmLit := t.fabric.lsmLit } }) := by
  have hlines : ∀ l ∈ s.usedLines f, l < 64 := fun l hl => State.lt_of_mem_usedLines hl
  generalize hs1 : s.afterSearch f tx rx = s1
  have hused : s1.usedLines f = s.usedLines f := State.usedLines_congr (by rw [← hs1, State.afterSearch_frame]) f
  have hstill : s1.txLocked f l = false := by
    rw [← hs1]
    exact State.not_txLocked_searchedLines hlines (hlines l hl) hmiss hunlocked
  have hfib : s1.fibre f = 1 := by
    rw [← hs1]
    exact (State.fibre_searchedLines hlines f).trans h1
  refine .of_next (exec_coldSearchDone hlive hnow h1 tx rx) ?_
  rw [hs1, State.endSearch_of_missed hfib (hused ▸ hl) hstill]
  have h5 := s1.fibre_failedSearch f
  refine ⟨(State.get_goOn_of_ne_zero rfl rfl (by rw [State.fibre] at h5; omega)).trans h5, ?_, ?_⟩
  · rw [State.goOn_frame]
    exact s1.head_failedSearch f
  · rw [State.goOn_frame, State.failedSearch_frame, ← hs1, State.afterSearch_frame]

/-! ### FABRIC_READY (R15) -/

/-- The first time that FABRIC_READY is asserted BOOT_STAT reads READY and BOOT_TIME keeps the tick. A FAILED fibre keeps
nothing waiting (third clause of O8; log entries 75, 141). -/
theorem fabricReadyAssert_completes {s : State} {t0 : Stem} (hlive : s.live = true) (hstem : s.boot.stem = some t0)
    (hlit : s.fabric.lsmLit = true) (hdone : ∀ f < 32, bit t0.fibreEn f = true → s.fibre f ≠ 0 ∧ s.fibre f ≠ 1)
    (hplanes : t0.minPlanes ≤ s.lockedCount) (hready : s.fabric.fabricReady = false) (hboot : s.bootState = 2) :
    Completes (.fabricReadyAssert) s (fun t => t.bootState = 3 ∧ t.get R.BOOT_TIME_READY_TICK = s.tick % 2 ^ 32 ∧
      t.fabric = { s.fabric with fabricReady := true } ∧ t = { s with regs := t.regs, fabric := t.fabric } ∧
      OnlyFields [R.BOOT_STAT_STATE, R.BOOT_TIME_READY_TICK] s t) := by
  have hall : (List.range 32).all (fun f => !bit t0.fibreEn f || (s.fibre f != 0 && s.fibre f != 1)) = true := by
    rw [List.all_eq_true]
    intro f hf
    have := hdone f (List.mem_range.1 hf)
    cases hen : bit t0.fibreEn f <;> simp_all
  have hexec : exec .fabricReadyAssert s = .next (({ s with fabric := { s.fabric with fabricReady := true } }.set
      R.BOOT_STAT_STATE 3).set R.BOOT_TIME_READY_TICK s.tick) := by
    show ok (s.whenLive _) = _
    rw [State.whenLive_live hlive]
    dsimp only
    rw [hstem]
    dsimp only
    rw [if_pos ⟨hlit, hall, hplanes, by rw [hready]; rfl⟩]
    exact congrArg Host.Outcome.next (if_pos hboot)
  refine .of_next hexec ⟨?_, State.get_set_self .., rfl, rfl, .set (.set (.refl _ _) (by simp)) (by simp)⟩
  rw [State.bootState, State.get_set_ne _ _ (by decide), State.get_set_self]
  rfl

/-! ### A hop goes down with its ring (R324, R328) -/

theorem State.hop_modHop_self (s : State) (k : Nat) (f : Hop → Hop) : (s.modHop k f).hop k = f (s.hop k) := by
  rw [State.modHop, State.setHop, State.hop, tget_tset_self]
  rfl

/-- What the query for a down hop may change: the table of hops, where the hop itself stays down. -/
structure State.AsksFor (k : Nat) (s t : State) : Prop where
  frame : t = { s with fabric := { s.fabric with hops := t.fabric.hops } }
  up : (t.hop k).up = (s.hop k).up

theorem State.AsksFor.get {k : Nat} {s t : State} (h : State.AsksFor k s t) (g : Fld) : t.get g = s.get g := by
  rw [h.frame]
  rfl

theorem State.AsksFor.refl (k : Nat) (s : State) : State.AsksFor k s s := ⟨rfl, rfl⟩

theorem State.AsksFor.modHop {k : Nat} {s t : State} (h : State.AsksFor k s t) {f : Hop → Hop} (hf : ∀ x, (f x).up = x.up) :
    State.AsksFor k s (t.modHop k f) :=
  ⟨by rw [h.frame]; rfl, by rw [State.hop_modHop_self, hf, h.up]⟩

theorem State.AsksFor.sendCtl {k : Nat} {s t : State} (h : State.AsksFor k s t) {ty kind line vc v0 v1 v2 : Nat} :
    State.AsksFor k s (t.sendCtl k ty kind line vc v0 v1 v2) :=
  h.modHop fun _ => rfl

theorem State.AsksFor.queryHop {k : Nat} {s t : State} (h : State.AsksFor k s t) : State.AsksFor k s (t.queryHop k) := by
  have hask : ∀ {u : State} {kind : Nat}, State.AsksFor k s u →
      State.AsksFor k s ((u.modHop k (fun h => { h with query := true })).sendCtl k 8 kind 0 0 0 0 0) :=
    fun hu => .sendCtl (.modHop hu (f := fun h => { h with query := true }) fun _ => rfl)
  unfold State.queryHop
  extract_lets m ask s1
  have h1 : State.AsksFor k s s1 := by
    unfold s1
    split
    · exact hask h
    · exact h
  split
  · exact h
  · split
    · exact hask h1
    · exact h1

/-- A hop went down: it is not counted any more, and lines of both directions may be locked and down. -/
structure HopWentDown (k f l : Nat) (s t : State) : Prop where
  frame : t = { s with regs := t.regs, fabric := t.fabric }
  down : (t.hop k).up = false
  count : t.get (R.OPT_STAT_HOPS_UP f) = (s.get (R.OPT_STAT_HOPS_UP f) - 1) % 2 ^ 8
  fields : OnlyFields [R.OPT_TXLINE_STATE f l, R.OPT_RXLINE_STATE f (s.backLine f l), R.OPT_STAT_HOPS_UP f] s t

theorem HopWentDown.backLine {k f l : Nat} {s t : State} (h : HopWentDown k f l s t) : t.backLine f l = s.backLine f l :=
  State.backLine_congr (congrArg State.boot h.frame) f l

theorem HopWentDown.setLine {k f l : Nat} {s t : State} (h : HopWentDown k f l s t) {g : Fld}
    (hg : g ∈ [R.OPT_TXLINE_STATE f l, R.OPT_RXLINE_STATE f (s.backLine f l)]) {v : Nat} : HopWentDown k f l s (t.set g v) where
  frame := by
    rw [h.frame]
    rfl
  down := h.down
  count := by
    rw [State.get_set_ne, h.count]
    simp only [List.mem_cons, List.not_mem_nil, or_false] at hg
    rcases hg with rfl | rfl <;> simp only [R.OPT_STAT_HOPS_UP, R.OPT_TXLINE_STATE, R.OPT_RXLINE_STATE] <;> omega
  fields := h.fields.set (List.mem_append_left [R.OPT_STAT_HOPS_UP f] hg)

theorem HopWentDown.ite {k f l : Nat} {c : Prop} {_ : Decidable c} {s t u : State} (ht : HopWentDown k f l s t)
    (hu : HopWentDown k f l s u) : HopWentDown k f l s (if c then t else u) := by
  split
  · exact ht
  · exact hu

theorem HopWentDown.asks {k f l : Nat} {s t u : State} (h : HopWentDown k f l s t) (hasks : State.AsksFor k t u) :
    HopWentDown k f l s u where
  frame := by rw [hasks.frame, h.frame]
  down := hasks.up.trans h.down
  count := (hasks.get _).trans h.count
  fields := h.fields.trans fun g _ => hasks.get g

/-- A hop's own record once it is down. -/
def Hop.fallen (h : Hop) : Hop := { h with up := false, answered := none, resends := 0, peerDrains := false }

theorem State.modHop_fallen_wentDown (s : State) (k f l : Nat) :
    HopWentDown k f l s ((s.modHop k Hop.fallen).less (R.OPT_STAT_HOPS_UP f)) where
  frame := rfl
  down := congrArg Hop.up (s.hop_modHop_self k Hop.fallen)
  count := State.get_set_self ..
  fields := OnlyFields.set (fun _ _ => rfl) (by simp)

theorem State.hopDown_wentDown {s : State} {k : Nat} (hup : (s.hop k).up = true) :
    HopWentDown k (k / 64) (k % 64) s (s.hopDown k) := by
  unfold State.hopDown
  rw [if_neg (by rw [hup]; decide)]
  extract_lets f l s1 s2 b s3
  have h1 : HopWentDown k f l s s1 := s.modHop_fallen_wentDown k f l
  have h2 : HopWentDown k f l s s2 := .ite (h1.setLine (by simp)) h1
  have h3 : HopWentDown k f l s s3 := .ite (h2.setLine (by simp [b, h2.backLine])) h2
  split
  · exact h3.asks (State.AsksFor.refl _ _).sendCtl.queryHop
  · exact h3

theorem State.hopDown_of_up {s : State} {f l : Nat} (hl : l < 64) (hup : (s.hop (hopKey f l)).up = true) :
    HopWentDown (hopKey f l) f l s (s.hopDown (hopKey f l)) := by
  have hdiv : hopKey f l / 64 = f := by rw [hopKey]; omega
  have hmod : hopKey f l % 64 = l := by rw [hopKey]; omega
  have h := State.hopDown_wentDown hup
  rwa [hdiv, hmod] at h

theorem State.hopDown_of_down {s : State} {k : Nat} (h : (s.hop k).up = false) : s.hopDown k = s :=
  if_pos (by rw [h]; rfl)

/-! ### Ring lock: loss, relock, the lock supervisor (R17, R328, R329) -/

/-- FABRIC_READY may fall; nothing else changes. -/
theorem State.readyCheck_frame (s : State) :
    s.readyCheck = { s with fabric := { s.fabric with fabricReady := s.readyCheck.fabric.fabricReady } } := by
  unfold State.readyCheck
  split
  · split <;> rfl
  · rfl

theorem State.get_readyCheck (s : State) (g : Fld) : s.readyCheck.get g = s.get g := by
  rw [State.readyCheck_frame]
  rfl

theorem State.hop_readyCheck (s : State) (k : Nat) : s.readyCheck.hop k = s.hop k := by
  rw [State.readyCheck_frame]
  rfl

/-- What changed registers alone changes at most FABRIC_READY beside them once the planes are counted. -/
theorem State.readyCheck_frame_of_regs {s t : State} (h : t = { s with regs := t.regs }) :
    t.readyCheck = { s with regs := t.readyCheck.regs,
                            fabric := { s.fabric with fabricReady := t.readyCheck.fabric.fabricReady } } := by
  obtain ⟨b, hb⟩ : ∃ b, t.readyCheck = { t with fabric := { t.fabric with fabricReady := b } } := ⟨_, t.readyCheck_frame⟩
  rw [hb, h]

theorem OnlyFields.readyCheck {fs : List Fld} {s t : State} (h : OnlyFields fs s t) : OnlyFields fs s t.readyCheck :=
  fun f hf => (t.get_readyCheck f).trans (h f hf)

theorem exec_ringLockLoss {s : State} (hlive : s.live = true) (r : Ring) :
    exec (.ringLockLoss r) s = .next (s.unlockRing r).readyCheck :=
  congrArg ok (State.whenLive_live hlive _)

/-- A transmit ring that has its lock loses it. -/
theorem State.unlockRing_tx {s : State} {f l : Nat} (h : s.txLocked f l = true) :
    s.unlockRing { fibre := f, line := l, tx := true } =
      ((s.hopDown (hopKey f l)).set (R.OPT_TXLINE_STATE f l) 3).less (R.OPT_STAT_TX_LOCKED f) :=
  if_pos h

/-- A drop ring that has its lock loses it. -/
theorem State.unlockRing_rx {s : State} {f l : Nat} (h : s.rxLocked f l = true) :
    s.unlockRing { fibre := f, line := l, tx := false } =
      ((s.hopDown (s.rxHop f l)).set (R.OPT_RXLINE_STATE f l) 3).less (R.OPT_STAT_RX_LOCKED f) :=
  if_pos h

/-- A ring in relock is not counted as locked: what a read of its two fields returns. -/
theorem State.get_unlocked {s : State} {st count : Fld} (hst : st.width = 3) (hcount : count.width = 8)
    (hne : st.key ≠ count.key) :
    ((s.set st 3).less count).get st = 3 ∧ ((s.set st 3).less count).get count = (s.get count - 1) % 2 ^ 8 := by
  constructor
  · rw [State.less, State.get_set_ne _ _ hne, State.get_set_self, hst]
    rfl
  · rw [State.less, State.get_set_self, State.get_set_ne _ _ hne.symm, hcount]

/-- A transmit ring of a hop in service that loses its lock (fourth clause of O8). -/
theorem ringLockLoss_tx {s : State} {fibre line : Nat} (hlive : s.live = true) (hline : line < 64)
    (hst : s.get (R.OPT_TXLINE_STATE fibre line) = 2) (hup : (s.hop (hopKey fibre line)).up = true) :
    Completes (.ringLockLoss { fibre := fibre, line := line, tx := true }) s (fun t =>
      t.get (R.OPT_TXLINE_STATE fibre line) = 3 ∧ (t.hop (hopKey fibre line)).up = false ∧
      t.get (R.OPT_STAT_TX_LOCKED fibre) = (s.get (R.OPT_STAT_TX_LOCKED fibre) - 1) % 2 ^ 8 ∧
      t.get (R.OPT_STAT_HOPS_UP fibre) = (s.get (R.OPT_STAT_HOPS_UP fibre) - 1) % 2 ^ 8 ∧
      t = { s with regs := t.regs, fabric := t.fabric } ∧
      OnlyFields [R.OPT_TXLINE_STATE fibre line, R.OPT_RXLINE_STATE fibre (s.backLine fibre line), R.OPT_STAT_TX_LOCKED fibre,
        R.OPT_STAT_HOPS_UP fibre] s t) := by
  have hlocked : s.txLocked fibre line = true := by rw [State.txLocked, hst]; rfl
  obtain ⟨hframe, hdown, hcount, hfields⟩ := State.hopDown_of_up hline hup
  generalize hu : s.hopDown (hopKey fibre line) = u at *
  obtain ⟨hst3, htx⟩ := State.get_unlocked (s := u) (st := R.OPT_TXLINE_STATE fibre line) (count := R.OPT_STAT_TX_LOCKED fibre)
    rfl rfl (by simp only [R.OPT_TXLINE_STATE, R.OPT_STAT_TX_LOCKED]; omega)
  refine .of_next (exec_ringLockLoss hlive _) ?_
  rw [State.unlockRing_tx hlocked, hu]
  simp only [State.get_readyCheck, State.hop_readyCheck]
  refine ⟨hst3, hdown, htx.trans ?_, ?_, ?_, .readyCheck (.set (.set (hfields.mono (by simp)) (by simp)) (by simp))⟩
  · rw [hfields _ ?_]
    simp only [List.forall_mem_cons, R.OPT_STAT_TX_LOCKED, R.OPT_TXLINE_STATE, R.OPT_RXLINE_STATE, R.OPT_STAT_HOPS_UP]
    exact ⟨by omega, by omega, by omega, by simp⟩
  · rw [State.less, State.get_set_ne _ _ ?_, State.get_set_ne _ _ ?_, hcount]
    · simp only [R.OPT_TXLINE_STATE, R.OPT_STAT_HOPS_UP]; omega
    · simp only [R.OPT_STAT_TX_LOCKED, R.OPT_STAT_HOPS_UP]; omega
  · rw [State.readyCheck_frame, hframe]
    rfl

/-- A drop ring whose hop is down and that loses its lock (fifth clause of O8). -/
theorem ringLockLoss_rx {s : State} {fibre line : Nat} (hlive : s.live = true)
    (hst : s.get (R.OPT_RXLINE_STATE fibre line) = 4) (hup : (s.hop (s.rxHop fibre line)).up = false) :
    Completes (.ringLockLoss { fibre := fibre, line := line, tx := false }) s (fun t =>
      t.get (R.OPT_RXLINE_STATE fibre line) = 3 ∧
        t.get (R.OPT_STAT_RX_LOCKED fibre) = (s.get (R.OPT_STAT_RX_LOCKED fibre) - 1) % 2 ^ 8 ∧
      t = { s with regs := t.regs, fabric := { s.fabric with fabricReady := t.fabric.fabricReady } } ∧
      OnlyFields [R.OPT_RXLINE_STATE fibre line, R.OPT_STAT_RX_LOCKED fibre] s t) := by
  have hlocked : s.rxLocked fibre line = true := by rw [State.rxLocked, hst]; rfl
  obtain ⟨hst3, hrx⟩ := State.get_unlocked (s := s) (st := R.OPT_RXLINE_STATE fibre line) (count := R.OPT_STAT_RX_LOCKED fibre)
    rfl rfl (by simp only [R.OPT_RXLINE_STATE, R.OPT_STAT_RX_LOCKED]; omega)
  refine .of_next (exec_ringLockLoss hlive _) ?_
  rw [State.unlockRing_rx hlocked, State.hopDown_of_down hup]
  simp only [State.get_readyCheck]
  exact ⟨hst3, hrx, State.readyCheck_frame_of_regs rfl, .readyCheck (.set (.set (.refl _ _) (by simp)) (by simp))⟩

theorem exec_relockDone {s : State} (hlive : s.live = true) (r : Ring) (found : Bool) {st count : Fld}
    (hst : (if r.tx then R.OPT_TXLINE_STATE r.fibre r.line else R.OPT_RXLINE_STATE r.fibre r.line) = st)
    (hcount : (if r.tx then R.OPT_STAT_TX_LOCKED r.fibre else R.OPT_STAT_RX_LOCKED r.fibre) = count) (h3 : s.get st = 3) :
    exec (.relockDone r found) s = .next
      (if found then ((s.set st 4).wrap count).relocked r.fibre else (s.set st 1).search [r.fibre]) := by
  subst hst hcount
  refine (congrArg ok (State.whenLive_live hlive _)).trans (congrArg ok ?_)
  dsimp only
  rw [if_neg (not_not.2 h3)]
  cases found <;> rfl

theorem State.movingFibre_congr {s t : State} (hrep : t.fabric.replacements = s.fabric.replacements)
    (hget : ∀ n, t.get (R.LSM_STAT_GROUP n) = s.get (R.LSM_STAT_GROUP n)) (f : Nat) : t.movingFibre f = s.movingFibre f := by
  simp only [State.movingFibre, hrep, hget]

theorem State.relocked_of_not_moving {s : State} {f : Nat} (h : s.movingFibre f = none) : s.relocked f = s := by
  rw [State.relocked, h]

/-- A relock that finds its line restores the lock (sixth clause of O8). -/
theorem relockDone_found {s : State} {fibre line : Nat} (hlive : s.live = true)
    (hst : s.get (R.OPT_TXLINE_STATE fibre line) = 3) (hmove : s.movingFibre fibre = none) :
    Completes (.relockDone { fibre := fibre, line := line, tx := true } true) s (fun t =>
      t.get (R.OPT_TXLINE_STATE fibre line) = 4 ∧
        t.get (R.OPT_STAT_TX_LOCKED fibre) = (s.get (R.OPT_STAT_TX_LOCKED fibre) + 1) % 2 ^ 8 ∧
      t = { s with regs := t.regs } ∧ OnlyFields [R.OPT_TXLINE_STATE fibre line, R.OPT_STAT_TX_LOCKED fibre] s t) := by
  have hne : (R.OPT_TXLINE_STATE fibre line).key ≠ (R.OPT_STAT_TX_LOCKED fibre).key := by
    simp only [R.OPT_TXLINE_STATE, R.OPT_STAT_TX_LOCKED]; omega
  refine .of_next (exec_relockDone (st := R.OPT_TXLINE_STATE fibre line) (count := R.OPT_STAT_TX_LOCKED fibre) hlive _ true
    rfl rfl hst) ?_
  rw [if_pos rfl, State.relocked_of_not_moving]
  · refine ⟨?_, ?_, rfl, .set (.set (.refl _ _) (by simp)) (by simp)⟩
    · rw [State.wrap, State.get_set_ne _ _ hne, State.get_set_self]
      rfl
    · rw [State.wrap, State.get_set_self, State.get_set_ne _ _ hne.symm]
      rfl
  · refine (State.movingFibre_congr (s := s)
      (t := (s.set (R.OPT_TXLINE_STATE fibre line) 4).wrap (R.OPT_STAT_TX_LOCKED fibre)) rfl (fun n => ?_) _).trans hmove
    rw [State.wrap, State.get_set_ne _ _ ?_, State.get_set_ne _ _ ?_]
    · simp only [R.OPT_TXLINE_STATE, R.LSM_STAT_GROUP]; omega
    · simp only [R.OPT_STAT_TX_LOCKED, R.LSM_STAT_GROUP]; omega

/-- A relock that fails sends the ring to cold search (seventh clause of O8). -/
theorem relockDone_lost {s : State} {fibre line : Nat} (hlive : s.live = true)
    (hst : s.get (R.OPT_RXLINE_STATE fibre line) = 3) :
    Completes (.relockDone { fibre := fibre, line := line, tx := false } false) s (fun t =>
      t.get (R.OPT_RXLINE_STATE fibre line) = 1 ∧ t.fabric.searching.contains fibre = true ∧
      t = { s with regs := t.regs, fabric := { s.fabric with searching := t.fabric.searching } } ∧
      OnlyFields (R.OPT_RXLINE_STATE fibre line :: t.searchNow.map R.OPT_STAT_STATE) s t) := by
  have h1 : (s.set (R.OPT_RXLINE_STATE fibre line) 1).get (R.OPT_RXLINE_STATE fibre line) = 1 := State.get_set_self ..
  refine .of_next (exec_relockDone (st := R.OPT_RXLINE_STATE fibre line) (count := R.OPT_STAT_RX_LOCKED fibre) hlive _ false
    rfl rfl hst) ?_
  rw [if_neg (by decide)]
  refine ⟨(State.get_search_of_ne_zero rfl rfl (by omega) _).trans h1, ?_, ?_, ?_⟩
  · rw [State.search_frame]
    by_cases h : fibre ∈ s.fabric.searching <;> simp [h]
  · rw [State.search_frame]
    rfl
  · exact OnlyFields.trans (.set (.refl _ _) (by simp)) ((State.search_onlyFields _ _).mono fun _ => List.mem_cons_of_mem _)

theorem exec_lockSupervisorCheck_tx {s : State} {f l : Nat} (hlive : s.live = true) (h : s.txLocked f l = true) :
    exec (.lockSupervisorCheck [{ fibre := f, line := l, tx := true }]) s =
      .next (s.wrongRing { fibre := f, line := l, tx := true }).readyCheck :=
  (congrArg ok (State.whenLive_live hlive _)).trans (congrArg (fun t => ok (State.readyCheck t)) (if_pos h))

/-- A ring found on another line is counted and relocked (eighth clause of O8). -/
theorem lockSupervisorCheck_wrong {s : State} {fibre line : Nat} (hlive : s.live = true)
    (hst : s.get (R.OPT_TXLINE_STATE fibre line) = 4) (hup : (s.hop (hopKey fibre line)).up = false) :
    Completes (.lockSupervisorCheck [{ fibre := fibre, line := line, tx := true }]) s (fun t =>
      t.get (R.OPT_COUNT_WRONG_LINE fibre) = min (s.get (R.OPT_COUNT_WRONG_LINE fibre) + 1) (2 ^ 16 - 1) ∧
        t.get (R.OPT_TXLINE_STATE fibre line) = 3 ∧
      t.get (R.OPT_STAT_TX_LOCKED fibre) = (s.get (R.OPT_STAT_TX_LOCKED fibre) - 1) % 2 ^ 8 ∧
      t = { s with regs := t.regs, fabric := { s.fabric with fabricReady := t.fabric.fabricReady } } ∧
      OnlyFields [R.OPT_COUNT_WRONG_LINE fibre, R.OPT_TXLINE_STATE fibre line, R.OPT_STAT_TX_LOCKED fibre] s t) := by
  generalize hu : s.count (R.OPT_COUNT_WRONG_LINE fibre) = u
  have hget : ∀ {g : Fld}, g.key ≠ (R.OPT_COUNT_WRONG_LINE fibre).key → u.get g = s.get g := fun hg => by
    rw [← hu, State.count, State.get_set_ne _ _ hg]
  have hst4 : u.get (R.OPT_TXLINE_STATE fibre line) = 4 :=
    (hget (by simp only [R.OPT_TXLINE_STATE, R.OPT_COUNT_WRONG_LINE]; omega)).trans hst
  have hlocked : s.txLocked fibre line = true := by rw [State.txLocked, hst]; rfl
  have hulocked : u.txLocked fibre line = true := by rw [State.txLocked, hst4]; rfl
  have hdown : (u.hop (hopKey fibre line)).up = false := by rw [← hu]; exact hup
  obtain ⟨hst3, htx⟩ := State.get_unlocked (s := u) (st := R.OPT_TXLINE_STATE fibre line) (count := R.OPT_STAT_TX_LOCKED fibre)
    rfl rfl (by simp only [R.OPT_TXLINE_STATE, R.OPT_STAT_TX_LOCKED]; omega)
  refine .of_next (exec_lockSupervisorCheck_tx hlive hlocked) ?_
  rw [State.wrongRing, hu, State.unlockRing_tx hulocked, State.hopDown_of_down hdown]
  simp only [State.get_readyCheck]
  refine ⟨?_, hst3, htx.trans ?_, State.readyCheck_frame_of_regs (by rw [← hu]; rfl),
    .readyCheck (.set (.set ?_ (by simp)) (by simp))⟩
  · rw [State.less, State.get_set_ne _ _ ?_, State.get_set_ne _ _ ?_, ← hu, State.count, State.get_set_self]
    · simp only [R.OPT_COUNT_WRONG_LINE]; omega
    · simp only [R.OPT_TXLINE_STATE, R.OPT_COUNT_WRONG_LINE]; omega
    · simp only [R.OPT_STAT_TX_LOCKED, R.OPT_COUNT_WRONG_LINE]; omega
  · rw [hget (by simp only [R.OPT_STAT_TX_LOCKED, R.OPT_COUNT_WRONG_LINE]; omega)]
  · rw [← hu]
    exact OnlyFields.set (.refl _ _) (by simp)

/-! ### Slices of a drop ring (R313) -/

/-- Signal detect wakes a slice (ninth clause of O8). -/
theorem exec_signalDetect {s : State} {fibre line : Nat} (hlive : s.live = true)
    (hasleep : s.fabric.awake.contains (hopKey fibre line) = false) :
    exec (.signalDetect fibre line) s =
      .next { s with fabric := { s.fabric with awake := s.fabric.awake ++ [hopKey fibre line] } } :=
  (congrArg ok (State.whenLive_live hlive _)).trans (congrArg ok (if_neg (Bool.eq_false_iff.1 hasleep)))

/-- A lock miss counts the burst, and the slice sleeps (tenth clause of O8). -/
theorem lockMiss_completes {s : State} {fibre line : Nat} (hlive : s.live = true) :
    Completes (.lockMiss fibre line) s (fun t =>
      t.get (R.OPT_COUNT_LOCK_MISS fibre) = min (s.get (R.OPT_COUNT_LOCK_MISS fibre) + 1) (2 ^ 16 - 1) ∧
        hopKey fibre line ∉ t.fabric.awake ∧
      (∀ k ∈ s.fabric.awake, k ≠ hopKey fibre line → k ∈ t.fabric.awake) ∧
      t = { s with regs := t.regs, fabric := { s.fabric with awake := t.fabric.awake } } ∧
        OnlyFields [R.OPT_COUNT_LOCK_MISS fibre] s t) := by
  have hexec : exec (.lockMiss fibre line) s = .next ((s.sleep (hopKey fibre line)).count (R.OPT_COUNT_LOCK_MISS fibre)) :=
    congrArg ok (State.whenLive_live hlive _)
  refine .of_next hexec ⟨?_, ?_, ?_, rfl, ?_⟩
  · rw [State.count, State.get_set_self]
    exact Nat.mod_eq_of_lt (by simp only [R.OPT_COUNT_LOCK_MISS]; omega)
  · simp [State.sleep]
  · intro k hk hne
    simp [State.sleep, hk, hne]
  · exact OnlyFields.set (fun _ _ => rfl) (by simp)

/-- Settles O8, one command and case at a time: what the fold over a fibre's lines makes of each ring gives the cold search,
`HopWentDown` the loss of a ring whose hop is in service. -/
theorem ringsSearchLockAndRelock : Obligations.RingsSearchLockAndRelock := by
  unfold Obligations.RingsSearchLockAndRelock
  exact ⟨fun _ _ _ _ => coldSearchDone_found,
    fun _ _ _ _ _ hlive _ => coldSearchDone_missed hlive,
    fun _ _ => fabricReadyAssert_completes,
    fun _ _ _ hlive _ => ringLockLoss_tx hlive,
    fun _ _ _ hlive _ _ => ringLockLoss_rx hlive,
    fun _ _ _ hlive _ _ => relockDone_found hlive,
    fun _ _ _ => relockDone_lost,
    fun _ _ _ hlive _ _ => lockSupervisorCheck_wrong hlive,
    fun _ _ _ => exec_signalDetect,
    fun _ _ _ => lockMiss_completes⟩

end Sys2Proof.Machine
end

section
namespace Sys2Proof.Machine

/-! ### A frame enters the switch core (R297, R298) -/

/-- What taking a frame in may change: the switch core, its registers, what partitions are charged, and free values. -/
def State.SwitchOnly (s t : State) : Prop := t = { s with regs := t.regs, power := t.power, fabric := t.fabric, fresh := t.fresh }

theorem State.SwitchOnly.refl (s : State) : s.SwitchOnly s := rfl

theorem State.SwitchOnly.update {s t : State} (h : s.SwitchOnly t) {regs power fabric fresh} :
    s.SwitchOnly { t with regs := regs, power := power, fabric := fabric, fresh := fresh } := by
  unfold State.SwitchOnly at h ⊢
  rw [h]

theorem State.SwitchOnly.ite {c : Prop} {_ : Decidable c} {s t u : State} (ht : s.SwitchOnly t) (hu : s.SwitchOnly u) :
    s.SwitchOnly (if c then t else u) := by
  split
  · exact ht
  · exact hu

theorem State.SwitchOnly.set {s t : State} (h : s.SwitchOnly t) {f v} : s.SwitchOnly (t.set f v) := h.update

theorem State.SwitchOnly.charge {s t : State} (h : s.SwitchOnly t) {p event n} : s.SwitchOnly (t.charge p event n) := h.update

theorem State.SwitchOnly.freshen {s t : State} (h : s.SwitchOnly t) : s.SwitchOnly t.freshen := h.update

theorem State.SwitchOnly.storeFrame {s t : State} (h : s.SwitchOnly t) {x inPort out mlines} :
    s.SwitchOnly (t.storeFrame x inPort out mlines) := by
  unfold State.storeFrame
  extract_lets n shared slot src s1 s2 s3 sPool s4 s5 s6
  have h1 : s.SwitchOnly s1 := h.update
  have h2 : s.SwitchOnly s2 := .ite h1 h1.charge
  have h3 : s.SwitchOnly s3 := h2.set
  have hPool : s.SwitchOnly sPool := h3.set
  have h4 : s.SwitchOnly s4 := .ite hPool.set h3
  have h5 : s.SwitchOnly s5 := h4.set
  have h6 : s.SwitchOnly s6 := h5.set
  exact h6.set.set

theorem State.SwitchOnly.admitFrame {s t : State} (h : s.SwitchOnly t) {x} : s.SwitchOnly (t.admitFrame x) := by
  unfold State.admitFrame
  split
  · exact h.storeFrame.freshen
  · dsimp only
    split
    · exact h.storeFrame.freshen
    · exact h.storeFrame.freshen

theorem State.SwitchOnly.inject {s t : State} (h : s.SwitchOnly t) {port a payload xPlane} :
    s.SwitchOnly (t.inject port a payload xPlane) :=
  .ite h (.ite h.update h.admitFrame)

theorem State.SwitchOnly.sendResponse {s t : State} (h : s.SwitchOnly t) {dst tag p tense op e unit payload spec once} :
    s.SwitchOnly (t.sendResponse dst tag p tense op e unit payload spec once) :=
  h.inject

theorem State.storeFrame_stores (s : State) (x : Frame) (inPort : Nat) (out : Option (Nat × Nat)) (mlines : List Nat) :
    ∃ slot : FrameSlot, slot.frame = x ∧
      (s.storeFrame x inPort out mlines).fabric.frames = tset s.fabric.nextFrame slot s.fabric.frames := by
  unfold State.storeFrame
  extract_lets n shared slot src s1 s2 s3 sPool s4 s5 s6
  have h2 : s2.fabric = s1.fabric := by
    unfold s2
    split <;> rfl
  have h4 : s4.fabric = s3.fabric := by
    unfold s4
    split <;> rfl
  exact ⟨slot, rfl, congrArg Fabric.frames (h4.trans h2)⟩

theorem storeFrame_emits (s : State) (x : Frame) (inPort : Nat) (out : Option (Nat × Nat)) (mlines : List Nat) :
    Emits s (s.storeFrame x inPort out mlines) (frameSays x) := by
  obtain ⟨slot, hslot, hframes⟩ := s.storeFrame_stores x inPort out mlines
  refine .inl ?_
  rw [hframes, tget_tset_self, Option.map_some, hslot]

theorem Emits.freshen {s t : State} {what : Nat × Nat × Nat × Nat × List Byte} (h : Emits s t what) : Emits s t.freshen what := h

theorem frameSays_sealFrame (a : Article) (payload : List Byte) (stomp : Nat) :
    frameSays (sealFrame a payload stomp) = (fpaChip a.dest, a.tag, a.opcode, a.aux, payload) := by
  simp only [frameSays, sealFrame]

theorem admitFrame_emits (s : State) {x : Injection} (hx : x.fixed = none) : Emits s (s.admitFrame x) (frameSays x.frame) := by
  unfold State.admitFrame
  rw [hx]
  dsimp only
  split
  next p l nm _ =>
    exact (storeFrame_emits s (sealFrame _ x.frame.payload 0) x.port (some (p, l)) x.mlines).freshen
  next => exact (storeFrame_emits s x.frame x.port none x.mlines).freshen

/-- A frame that its unit offers without a route of its own is taken in or waits. -/
theorem offerFrame_emits (s : State) {x : Injection} (hx : x.fixed = none) : Emits s (s.offerFrame x) (frameSays x.frame) := by
  unfold State.offerFrame
  split
  · exact .inr (by rw [List.drop_left]; rfl)
  · exact admitFrame_emits s hx

theorem inject_emits {s : State} {a : Article} (hreach : s.unreachable (fpaChip a.dest) = false) (inPort : Nat)
    (payload : List Byte) (xPlane : Nat) :
    Emits s (s.inject inPort a payload xPlane) (fpaChip a.dest, a.tag, a.opcode, a.aux, payload) := by
  rw [State.inject, if_neg (Bool.eq_false_iff.1 hreach)]
  have h := offerFrame_emits s (x :=
    { port := inPort, frame := sealFrame a payload 0, xPlane := xPlane, fixed := none, mlines := [] }) rfl
  rw [frameSays_sealFrame] at h
  exact h

theorem fpaChip_mkFpa_zero {chip unit : Nat} (hc : chip < 2 ^ 15) (hu : unit < 2 ^ 6) : fpaChip (mkFpa chip unit 0) = chip := by
  simp only [fpaChip, mkFpa, bits]
  omega

/-- A response goes to the chip that asked, with its tag, status and payload (Table 12-4). -/
theorem sendResponse_emits {s : State} {dst : Nat} (hdst : dst < 2 ^ 15) (hreach : s.unreachable dst = false)
    (tag p tense op : Nat) (e : Err) (unit : Nat) (payload : List Byte) (spec once : Bool) :
    Emits s (s.sendResponse dst tag p tense op e unit payload spec once)
      (dst, tag, op, e.code + (if once then 256 else 0), payload) := by
  have hchip : fpaChip (mkFpa dst 50 0) = dst := fpaChip_mkFpa_zero hdst (by decide)
  have h := inject_emits (s := s) (a := s.article (mkFpa dst 50 0) op (if spec then 2 ^ flSpec else 0) p
    (if op = 8 ∧ 256 < payload.length then 2 else 1) tense unit tag (e.code + if once then 256 else 0) payload.length)
    (by rw [State.article, hchip]; exact hreach) ((s.unitPort unit).getD 136) payload 0
  rw [State.article, hchip] at h
  exact h

theorem State.coord_congr {s t : State} (h : t.boot = s.boot) (c d : Nat) : t.coord c d = s.coord c d := by
  unfold State.coord State.widths
  rw [h]

theorem State.directDim_congr {s t : State} (hboot : t.boot = s.boot) (hchip : t.chip = s.chip) (u : Nat) :
    t.directDim u = s.directDim u := by
  unfold State.directDim
  simp only [State.coord_congr hboot, State.planeDim_congr hboot, hchip]

/-- Whether a chip is marked unreachable depends on the marks, on the Stem and on the chip's own place. -/
theorem State.unreachable_congr {s t : State} (htele : t.tele = s.tele) (hboot : t.boot = s.boot) (hchip : t.chip = s.chip)
    (u : Nat) : t.unreachable u = s.unreachable u := by
  unfold State.unreachable
  rw [htele, State.directDim_congr hboot hchip, hchip]

theorem State.chip_congr {s t : State} (h : t.regs = s.regs) : t.chip = s.chip := by
  rw [State.chip, State.chip, State.get, State.get, h]

end Sys2Proof.Machine
end

section
namespace Sys2Proof.Machine

/-! ### A request frame at its unit (R20, R291) -/

/-- The answer to a request has gone when its command ends: no access is left to complete. -/
theorem Completes.of_answer {c : Instr} {s u t : State} {P : State → Prop} (hexec : exec c s = settled t)
    (hfin : u.home.finished = []) (hsw : u.SwitchOnly t) (ht : P t) : Completes c s P :=
  .of_next (hexec.trans (settled_of_finished_nil (by rw [congrArg State.home hsw]; exact hfin))) ht

theorem State.unitRequest_elsewhere {s : State} {r : HomeReq} (h : fpaChip r.dest ≠ s.chip) (op : Nat) (f : State → State) :
    s.unitRequest r op f = s := by
  unfold State.unitRequest State.whenLive
  split
  · exact if_pos h
  · rfl

theorem State.unitRequest_here {s : State} {r : HomeReq} (hlive : s.live = true) (hhere : fpaChip r.dest = s.chip)
    (hpart : s.partErr r.partition = .none) (op : Nat) (f : State → State) : s.unitRequest r op f = f s := by
  rw [State.unitRequest, State.whenLive_live hlive, if_neg (not_not.2 hhere), hpart]

theorem State.unitRequest_disabled {s : State} {r : HomeReq} (hlive : s.live = true) (hhere : fpaChip r.dest = s.chip)
    (hpart : s.get (R.PART_STATE_STATE r.partition) = 0) (op : Nat) (f : State → State) :
    s.unitRequest r op f = (s.violate 1 (some r.partition) r.dest .partition r.port).answerReq r op .partition [] := by
  have hdisabled : s.partErr r.partition = .partition := by
    rw [State.partErr, hpart]
    rfl
  rw [State.unitRequest, State.whenLive_live hlive, if_neg (not_not.2 hhere), hdisabled]

end Sys2Proof.Machine
end

section
namespace Sys2Proof.Machine

/-! ### What counting an access at its home leaves alone (R244, Table 18-6) -/

/-- What counting an access may change: its heat record, and what its partition is charged. -/
structure State.Counted (s t : State) (p : Nat) : Prop where
  frame : t = { s with regs := t.regs, power := t.power, parser := { s.parser with heat := t.parser.heat } }
  fields : OnlyFields [R.PWR_ENERGY_NJ p] s t

theorem State.Counted.heatOf (s : State) (fpa len : Nat) (write : Bool) (q p : Nat) : s.Counted (s.heatOf fpa len write q) p := by
  unfold State.heatOf
  extract_lets key
  split
  · exact ⟨rfl, .refl _ s⟩
  · exact ⟨rfl, .refl _ s⟩

theorem State.Counted.charge {s t : State} {p : Nat} (h : s.Counted t p) {event n : Nat} : s.Counted (t.charge p event n) p where
  frame := by
    have hcharge : t.charge p event n = { t with regs := (t.charge p event n).regs, power := (t.charge p event n).power } := rfl
    rw [hcharge, h.frame]
  fields := by
    have hset : OnlyFields [R.PWR_ENERGY_NJ p] s (t.set (R.PWR_ENERGY_NJ p) (t.get (R.PWR_ENERGY_NJ p) +
        ((tget p t.power.fractions).getD 0 + 8 * n * t.get (R.PWR_COEF_COEF event)) / 128000)) := h.fields.set (by simp)
    exact hset

theorem State.Counted.chargeHome {s t : State} {p : Nat} (h : s.Counted t p) {fpa n : Nat} :
    s.Counted (t.chargeHome fpa p n) p := by
  unfold State.chargeHome
  split
  · exact h.charge
  · split
    · exact h.charge
    · exact h.charge.charge

section
variable {s t : State} {p : Nat} (h : s.Counted t p)
include h

theorem State.Counted.chip : t.chip = s.chip :=
  h.fields _ (by simp only [List.mem_singleton, forall_eq, R.BOOT_POS_CHIP, R.PWR_ENERGY_NJ]; omega)

theorem State.Counted.get_role (i : Nat) : t.get (R.EDGE_STAT_ROLE i) = s.get (R.EDGE_STAT_ROLE i) :=
  h.fields _ (by simp only [List.mem_singleton, forall_eq, R.EDGE_STAT_ROLE, R.PWR_ENERGY_NJ]; omega)

theorem State.Counted.get_farUnit (i : Nat) : t.get (R.EDGE_STAT_FAR_UNIT i) = s.get (R.EDGE_STAT_FAR_UNIT i) :=
  h.fields _ (by simp only [List.mem_singleton, forall_eq, R.EDGE_STAT_FAR_UNIT, R.PWR_ENERGY_NJ]; omega)

theorem State.Counted.farPort (fpa : Nat) : t.farPort fpa = s.farPort fpa := by
  simp only [State.farPort, h.get_role, h.get_farUnit]

theorem State.Counted.home : t.home = s.home := by rw [h.frame]
theorem State.Counted.mem : t.mem = s.mem := by rw [h.frame]
theorem State.Counted.work : t.work = s.work := by rw [h.frame]
theorem State.Counted.xlat : t.xlat = s.xlat := by rw [h.frame]
theorem State.Counted.out : t.out = s.out := by rw [h.frame]
theorem State.Counted.edge : t.edge = s.edge := by rw [h.frame]
theorem State.Counted.fabric : t.fabric = s.fabric := by rw [h.frame]

theorem State.Counted.unreachable (u : Nat) : t.unreachable u = s.unreachable u :=
  State.unreachable_congr (by rw [h.frame]) (by rw [h.frame]) h.chip u

theorem State.Counted.dirOf (fpa : Nat) : t.dirOf fpa = s.dirOf fpa := by
  have hparser : t.parser.dir = s.parser.dir := by rw [h.frame]
  rw [State.dirOf, State.dirOf, hparser]

end

theorem State.lineClear_congr {s t : State} (h : t.home = s.home) (write : Bool) (l : Nat) :
    t.lineClear write l = s.lineClear write l := by
  simp only [State.lineClear, State.lineBusy, h]

theorem State.lineSharers_congr {s t : State} (h : t.home = s.home) (l : Nat) : t.lineSharers l = s.lineSharers l := by
  simp only [State.lineSharers, h]

theorem State.reclaimFor_congr {s t : State} (h : t.home = s.home) (l : Nat) : t.reclaimFor l = s.reclaimFor l := by
  simp only [State.reclaimFor, h]

theorem State.Counted.hasCopies {s t : State} {p : Nat} (h : s.Counted t p) (fpa len : Nat) :
    t.hasCopies fpa len = s.hasCopies fpa len := by
  unfold State.hasCopies State.sharersOf
  rw [h.dirOf]
  simp only [State.lineSharers_congr h.home]

/-! ### An access at a home agent that nothing holds up -/

/-- The access of a request frame at a home agent of its chip. -/
def frameAccess (r : HomeReq) (act : HomeAct) (ordered : Bool) : HeldAccess :=
  { fpa := r.dest, partition := r.partition, act := act, who := .frame r.src r.tag r.partition r.tense r.spec,
    asker := r.src, writer := none, order := if ordered then some (2 ^ 20 + r.src) else none, whole := false }

/-- Bytes of the near or far tier that a home agent can act on now: the link to them is up, and they are intact. -/
structure State.Intact (s : State) (fpa len : Nat) : Prop where
  tier : 16 ≤ fpaUnit fpa
  link : fpaUnit fpa < 32 ∨ s.edge.expanderDown.contains (s.farPort fpa) = false
  poison : s.anyPoison (lineKeys (fpaUnit fpa) (fpaOff fpa) len) = false
  tags : s.anyBadTag (lineKeys (fpaUnit fpa) (fpaOff fpa) len) = false

/-- A request frame at a home agent of the near or far tier that nothing refuses or holds up, with no copy of its lines to
take back first (R127, R128, R251, R351, R388). -/
structure State.Serves (s : State) (r : HomeReq) (act : HomeAct) (ordered : Bool) : Prop where
  live : s.live = true
  here : fpaChip r.dest = s.chip
  part : s.partErr r.partition = .none
  unit : fpaUnit r.dest < 36
  intact : s.Intact r.dest act.len
  quiet : s.inQuiet r.dest = false
  forward : s.forwardOf r.dest = none
  frame : s.frameErr r.dest r.partition = .none
  form : atomicForm r.dest act = .none
  order : act.isWrite = true → s.orderBusy (if ordered then some (2 ^ 20 + r.src) else none) (fpaUnit r.dest) = false
  clear : (linesOf r.dest act.len).all (s.lineClear act.isWrite) = true
  copies : act.isWrite = true → s.hasCopies r.dest act.len = false

theorem State.Intact.congr {s t : State} {fpa len : Nat} (h : s.Intact fpa len) (hedge : t.edge = s.edge)
    (hport : t.farPort fpa = s.farPort fpa) (hpoison : t.home.poisoned = s.home.poisoned)
    (htags : t.home.badTags = s.home.badTags) :
    t.Intact fpa len where
  tier := h.tier
  link := by rw [hedge, hport]; exact h.link
  poison := by rw [State.anyPoison, hpoison]; exact h.poison
  tags := by rw [State.anyBadTag, htags]; exact h.tags

theorem State.Intact.counted {s t : State} {fpa len p : Nat} (h : s.Intact fpa len) (hc : s.Counted t p) : t.Intact fpa len :=
  h.congr hc.edge (hc.farPort fpa) (by rw [hc.home]) (by rw [hc.home])

theorem linesOf_line {fpa : Nat} (h : fpa % 128 = 0) : linesOf fpa 128 = [fpa / 128] := by
  have hcount : (fpa + 128 - 1) / 128 + 1 - fpa / 128 = 1 := by omega
  rw [linesOf, if_neg (by decide), hcount]
  rfl

theorem atomicForm_none {fpa op width : Nat} (hwidth : atomicWidth op width = true) (haligned : fpa % width = 0)
    (operand compare : Nat) :
    atomicForm fpa (.atomic op width operand compare) = .none := by
  rw [atomicForm, if_neg (by simp [hwidth]), if_neg (not_not.2 haligned)]

theorem State.homeCheck_none {s : State} {a : HeldAccess} (htier : 16 ≤ fpaUnit a.fpa)
    (hframe : s.frameErr a.fpa a.partition = .none) (hform : atomicForm a.fpa a.act = .none) : s.homeCheck a = (s, .none) := by
  rw [State.homeCheck, if_neg (fun h => absurd h.1 (by omega)), if_neg (fun h => h.2 hframe), hform]

/-- What no copy and no other access holds up is served at once (R128, R133). -/
theorem State.takeAndServe_of_clear {s : State} {a : HeldAccess}
    (hclear : (linesOf a.fpa a.act.len).all (s.lineClear a.act.isWrite) = true)
    (hcopies : a.act.isWrite = true → s.hasCopies a.fpa a.act.len = false) : s.takeAndServe a = s.serve a := by
  have hnone : (!(a.act.isWrite && s.hasCopies a.fpa a.act.len)) = true := by
    cases hw : a.act.isWrite with
    | false => rfl
    | true => rw [hcopies hw]; rfl
  rw [State.takeAndServe]
  exact if_pos ⟨hclear, hnone⟩

theorem State.atHome_of_stays {s : State} {a : HeldAccess} (hquiet : s.inQuiet a.fpa = false)
    (hforward : s.forwardOf a.fpa = none) :
    s.atHome a = s.homeAct a := by
  rw [State.atHome, if_neg (Bool.eq_false_iff.1 hquiet), hforward]

theorem State.homeAct_of_ok {s : State} {a : HeldAccess} (hcheck : s.homeCheck a = (s, .none))
    (horder : a.act.isWrite = true → s.orderBusy a.order (fpaUnit a.fpa) = false) :
    s.homeAct a = ((s.heatOf a.fpa a.act.len a.act.isWrite a.asker).chargeHome a.fpa a.partition a.act.len).takeAndServe a := by
  rw [State.homeAct, hcheck]
  exact if_neg (fun h => Bool.eq_false_iff.1 (horder h.1) h.2)

/-- Such a request is counted and served at once. -/
theorem State.Serves.dataRequest {s : State} {r : HomeReq} {act : HomeAct} {ordered : Bool} (h : s.Serves r act ordered)
    (op : Nat) :
    ∃ u, s.Counted u r.partition ∧ s.dataRequest r op true ordered act = u.serve (frameAccess r act ordered) := by
  let u := (s.heatOf r.dest act.len act.isWrite r.src).chargeHome r.dest r.partition act.len
  have hu : s.Counted u r.partition := (State.Counted.heatOf s _ _ _ _ _).chargeHome
  have hclear : (linesOf r.dest act.len).all (u.lineClear act.isWrite) = true := by
    rw [funext (State.lineClear_congr hu.home act.isWrite)]
    exact h.clear
  have hcopies : act.isWrite = true → u.hasCopies r.dest act.len = false := fun hw => (hu.hasCopies _ _).trans (h.copies hw)
  refine ⟨u, hu, ?_⟩
  calc s.dataRequest r op true ordered act
      = s.atHome (frameAccess r act ordered) := by
        rw [State.dataRequest, State.unitRequest_here h.live h.here h.part]
        exact if_neg (fun hbad => hbad.elim (fun h36 => absurd h.unit (by omega)) (fun hform => absurd hform (by decide)))
    _ = s.homeAct (frameAccess r act ordered) := State.atHome_of_stays h.quiet h.forward
    _ = u.takeAndServe (frameAccess r act ordered) :=
        State.homeAct_of_ok (State.homeCheck_none h.intact.tier h.frame h.form) h.order
    _ = u.serve (frameAccess r act ordered) := State.takeAndServe_of_clear hclear hcopies

/-! ### A read at its home -/

theorem State.homeRead_of_intact {s : State} {fpa len : Nat} (h : s.Intact fpa len) (p : Nat) (spec : Bool) :
    s.homeRead fpa len p spec = (s, .none, memRead s.mem (memKey (fpaUnit fpa) (fpaOff fpa)) len) := by
  rw [State.homeRead]
  exact (if_neg (Bool.eq_false_iff.1 h.poison)).trans (if_neg (Bool.eq_false_iff.1 h.tags))

/-- An access whose link is up acts on its bytes and is answered. -/
theorem State.unitAct_of_intact {s v : State} {a : HeldAccess} {len : Nat} {e : Err} {data : List Byte} (h : s.Intact a.fpa len)
    (hdo : s.homeDo a.fpa a.partition a.act a.whole (s.isSpec a.who) = (v, e, data)) :
    s.unitAct a = v.reply a.fpa a.who a.act e data := by
  have hup : ¬ (32 ≤ fpaUnit a.fpa ∧ s.edge.expanderDown.contains (s.farPort a.fpa)) := fun hdown =>
    h.link.elim (fun hnear => absurd hdown.1 (by omega)) (fun hlink => Bool.eq_false_iff.1 hlink hdown.2)
  rw [State.unitAct, if_neg hup, hdo]

theorem State.perform_read {s : State} {r : HomeReq} {len : Nat} (h : s.Intact r.dest len) (ordered : Bool) :
    s.perform (frameAccess r (.read len) ordered) =
      s.sendResponse r.src r.tag r.partition r.tense 8 .none (fpaUnit r.dest)
        (memRead s.mem (memKey (fpaUnit r.dest) (fpaOff r.dest)) len) r.spec
        (lineFill r.dest (.read len) (.frame r.src r.tag r.partition r.tense r.spec) &&
          !(s.lineSharers (r.dest / 128)).contains r.src) := by
  have hread := State.homeRead_of_intact h r.partition r.spec
  calc s.perform (frameAccess r (.read len) ordered)
      = s.unitAct (frameAccess r (.read len) ordered) := if_neg (not_lt.2 h.tier)
    _ = s.reply r.dest (.frame r.src r.tag r.partition r.tense r.spec) (.read len) .none _ := State.unitAct_of_intact h hread
    _ = _ := rfl

theorem State.serve_of_not_fill {s : State} {r : HomeReq} {act : HomeAct} {ordered : Bool}
    (h : lineFill r.dest act (.frame r.src r.tag r.partition r.tense r.spec) = false) :
    s.serve (frameAccess r act ordered) = s.perform (frameAccess r act ordered) :=
  if_neg (Bool.eq_false_iff.1 h)

theorem lineFill_read_eq_false {fpa len : Nat} (h : len ≠ 128 ∨ fpa % 128 ≠ 0) (who : Who) :
    lineFill fpa (.read len) who = false := by
  unfold lineFill
  split
  · rename_i heq
    cases heq
    exact decide_eq_false (h.resolve_left (not_not.2 rfl))
  · rfl

end Sys2Proof.Machine
end

section
namespace Sys2Proof.Machine

/-! ### What the answer to a request leaves alone -/

section
variable {s t : State} (h : s.SwitchOnly t)
include h

theorem State.SwitchOnly.mem : t.mem = s.mem := by unfold State.SwitchOnly at h; rw [h]
theorem State.SwitchOnly.work : t.work = s.work := by unfold State.SwitchOnly at h; rw [h]
theorem State.SwitchOnly.xlat : t.xlat = s.xlat := by unfold State.SwitchOnly at h; rw [h]
theorem State.SwitchOnly.home : t.home = s.home := by unfold State.SwitchOnly at h; rw [h]
theorem State.SwitchOnly.out : t.out = s.out := by unfold State.SwitchOnly at h; rw [h]
theorem State.SwitchOnly.security : t.security = s.security := by unfold State.SwitchOnly at h; rw [h]

end

/-- The frames taken in and those that wait are counted from the same place. -/
theorem Emits.congr {s v t : State} {what : Nat × Nat × Nat × Nat × List Byte} (h : Emits v t what)
    (hnext : v.fabric.nextFrame = s.fabric.nextFrame) (hwait : v.fabric.waitIn = s.fabric.waitIn) : Emits s t what := by
  unfold Emits at h ⊢
  rw [← hnext, ← hwait]
  exact h

/-- What serving an access leaves alone, whatever it does to memory, to the tiles and to the records of its home agent. -/
structure State.Acted (s t : State) : Prop where
  work : t.work = s.work
  xlat : t.xlat = s.xlat
  out : t.out = s.out
  fabric : t.fabric = s.fabric
  finished : t.home.finished = s.home.finished
  unreachable : ∀ u, t.unreachable u = s.unreachable u

theorem State.Counted.acted {s t : State} {p : Nat} (h : s.Counted t p) : s.Acted t where
  work := h.work
  xlat := h.xlat
  out := h.out
  fabric := h.fabric
  finished := congrArg Home.finished h.home
  unreachable := h.unreachable

theorem State.Acted.update {s t : State} (h : s.Acted t) {mem home parser} (hfin : home.finished = t.home.finished) :
    s.Acted { t with mem := mem, home := home, parser := parser } where
  work := h.work
  xlat := h.xlat
  out := h.out
  fabric := h.fabric
  finished := hfin.trans h.finished
  unreachable := fun u => (State.unreachable_congr (s := t) rfl rfl (State.chip_congr rfl) u).trans (h.unreachable u)

theorem State.Intact.update {s : State} {fpa len : Nat} (h : s.Intact fpa len) {mem home parser}
    (hpoison : home.poisoned = s.home.poisoned) (htags : home.badTags = s.home.badTags) :
    State.Intact { s with mem := mem, home := home, parser := parser } fpa len :=
  h.congr rfl rfl hpoison htags

/-- A request that is served completes with its response, in the state it was served in but for the switch core. -/
theorem Completes.of_response {c : Instr} {s v : State} {r : HomeReq} {op : Nat} {e : Err} {payload : List Byte} {once : Bool}
    {P : State → Prop} (hexec : exec c s =
      settled (v.sendResponse r.src r.tag r.partition r.tense op e (fpaUnit r.dest) payload r.spec once))
    (hfin : v.home.finished = [])
    (hnext : v.fabric.nextFrame = s.fabric.nextFrame) (hwait : v.fabric.waitIn = s.fabric.waitIn)
    (hsrc : r.src < 2 ^ 15) (hreach : v.unreachable r.src = false)
    (hP : ∀ t, Emits s t (r.src, r.tag, op, e.code + (if once then 256 else 0), payload) → v.SwitchOnly t → P t) :
    Completes c s P :=
  have hsw := (State.SwitchOnly.refl v).sendResponse
  .of_answer hexec hfin hsw (hP _ ((sendResponse_emits hsrc hreach ..).congr hnext hwait) hsw)

/-- An access that was served is answered. -/
theorem Completes.of_acted {c : Instr} {s v : State} {r : HomeReq} {op : Nat} {e : Err} {payload : List Byte} {once : Bool}
    {P : State → Prop} (hv : s.Acted v)
    (hexec : exec c s =
      settled (v.sendResponse r.src r.tag r.partition r.tense op e (fpaUnit r.dest) payload r.spec once))
    (hfin : s.home.finished = []) (hsrc : r.src < 2 ^ 15) (hreach : s.unreachable r.src = false)
    (hP : ∀ t, Emits s t (r.src, r.tag, op, e.code + (if once then 256 else 0), payload) → v.SwitchOnly t → P t) :
    Completes c s P :=
  .of_response hexec (hv.finished.trans hfin) (by rw [hv.fabric]) (by rw [hv.fabric]) hsrc ((hv.unreachable _).trans hreach) hP

/-! ### The sharers of a line (R127) -/

/-- What a home agent records of a fill: its chip as sharer, while the line has room for it. -/
def State.grantSharer (s : State) (line chip : Nat) : State :=
  if (s.lineSharers line).contains chip ∨ (s.lineSharers line).length < 4 then s.addSharer line chip else s

theorem State.grantSharer_frame (s : State) (line chip : Nat) :
    s.grantSharer line chip = { s with home := { s.home with sharers := (s.grantSharer line chip).home.sharers,
                                                             sharerOrder := (s.grantSharer line chip).home.sharerOrder } } := by
  unfold State.grantSharer
  split
  · rfl
  · rfl

theorem State.lineSharers_addSharer (s : State) {line : Nat} (h : line < 2 ^ 42) (chip : Nat) :
    (s.addSharer line chip).lineSharers line =
      if (s.lineSharers line).contains chip then s.lineSharers line else s.lineSharers line ++ [chip] := by
  have htget := tget_tset_self line
    (if (s.lineSharers line).contains chip then s.lineSharers line else s.lineSharers line ++ [chip]) s.home.sharers
  rw [State.lineSharers, Nat.mod_eq_of_lt h]
  exact congrArg (Option.getD · []) htget

theorem State.lineSharers_grantSharer (s : State) {line : Nat} (h : line < 2 ^ 42) (chip : Nat) :
    (s.grantSharer line chip).lineSharers line =
      if chip ∉ s.lineSharers line ∧ (s.lineSharers line).length < 4 then s.lineSharers line ++ [chip]
      else s.lineSharers line := by
  unfold State.grantSharer
  by_cases hmem : chip ∈ s.lineSharers line
  · rw [if_pos (.inl (List.contains_iff_mem.2 hmem)), s.lineSharers_addSharer h, if_pos (List.contains_iff_mem.2 hmem),
      if_neg (fun hnew => hnew.1 hmem)]
  · have hcontains : ¬ (s.lineSharers line).contains chip = true := fun hc => hmem (List.contains_iff_mem.1 hc)
    by_cases hroom : (s.lineSharers line).length < 4
    · rw [if_pos (.inr hroom), s.lineSharers_addSharer h, if_neg hcontains, if_pos ⟨hmem, hroom⟩]
    · rw [if_neg (fun hc => hc.elim hcontains hroom), if_neg (fun hnew => hroom hnew.2)]

/-- A fill is recorded exactly when its chip shared the line before or there was room. -/
theorem State.mem_lineSharers_grantSharer (s : State) {line : Nat} (h : line < 2 ^ 42) (chip : Nat) :
    chip ∈ (s.grantSharer line chip).lineSharers line ↔ chip ∈ s.lineSharers line ∨ (s.lineSharers line).length < 4 := by
  rw [s.lineSharers_grantSharer h]
  split
  next hnew => simp [hnew.2]
  next hold =>
    rw [not_and', not_not] at hold
    exact ⟨.inl, fun hc => hc.elim id hold⟩

theorem lineOf_local_lt (fpa : Nat) : fpa % 2 ^ 49 / 128 < 2 ^ 42 := by omega

/-- Sharers are recorded by the line's place on its chip. -/
theorem State.lineSharers_local (s : State) (fpa : Nat) : s.lineSharers (fpa % 2 ^ 49 / 128) = s.lineSharers (fpa / 128) := by
  have hline : fpa % 2 ^ 49 / 128 % 2 ^ 42 = fpa / 128 % 2 ^ 42 := by omega
  rw [State.lineSharers, hline, State.lineSharers]

theorem State.serve_of_fill {s : State} {a : HeldAccess} {src tag p t : Nat} {spec : Bool}
    (hwho : a.who = .frame src tag p t spec)
    (h : lineFill a.fpa a.act (.frame src tag p t spec) = true) (hroom : s.reclaimFor (a.fpa % 2 ^ 49 / 128) = none) :
    s.serve a = (s.grantSharer (a.fpa % 2 ^ 49 / 128) src).perform a := by
  rw [State.serve, hwho]
  dsimp only
  rw [if_pos h, hroom]
  rfl

theorem lineFill_read {fpa : Nat} (h : fpa % 128 = 0) (src tag p t : Nat) (spec : Bool) :
    lineFill fpa (.read 128) (.frame src tag p t spec) = true :=
  decide_eq_true h

/-! ### Reads at a home agent -/

theorem State.Serves.rd {s : State} {r : HomeReq} {len : Nat} (h : s.Serves r (.read len) false)
    (hfin : s.home.finished = []) (hlen : len ≤ 4096) (hpart : len ≠ 128 ∨ r.dest % 128 ≠ 0)
    (hsrc : r.src < 2 ^ 15) (hreach : s.unreachable r.src = false) :
    Completes (.rd r len) s (fun t =>
      Answered s t r.src r.tag 8 .none (memRead s.mem (memKey (fpaUnit r.dest) (fpaOff r.dest)) len) ∧ t.mem = s.mem ∧
        t.work = s.work ∧ t.xlat = s.xlat ∧ t.home = s.home ∧ t.out = s.out) := by
  obtain ⟨u, hu, hserve⟩ := h.dataRequest 8
  have hnofill := lineFill_read_eq_false hpart (.frame r.src r.tag r.partition r.tense r.spec)
  have hread : s.dataRequest r 8 (decide (len ≤ 4096)) false (.read len) = u.sendResponse r.src r.tag r.partition r.tense 8 .none
      (fpaUnit r.dest) (memRead s.mem (memKey (fpaUnit r.dest) (fpaOff r.dest)) len) r.spec false := by
    rw [decide_eq_true hlen, hserve, State.serve_of_not_fill hnofill,
      State.perform_read (len := len) (h.intact.counted hu), hnofill, hu.mem, Bool.false_and]
  refine .of_acted hu.acted (congrArg settled hread) hfin hsrc hreach (fun t hans ht => ?_)
  exact ⟨hans, ht.mem.trans hu.mem, ht.work.trans hu.work, ht.xlat.trans hu.xlat, ht.home.trans hu.home, ht.out.trans hu.out⟩

/-- The state in which a fill of a whole line is answered: its chip is recorded as sharer if there was room (R127). -/
structure State.Granted (s v : State) (r : HomeReq) : Prop extends s.Acted v where
  mem : v.mem = s.mem
  tiles : v.home.tiles = s.home.tiles
  sharers : v.lineSharers (r.dest / 128) = if r.src ∉ s.lineSharers (r.dest / 128) ∧ (s.lineSharers (r.dest / 128)).length < 4
    then s.lineSharers (r.dest / 128) ++ [r.src] else s.lineSharers (r.dest / 128)
  recorded : r.src ∈ v.lineSharers (r.dest / 128) ↔
    r.src ∈ s.lineSharers (r.dest / 128) ∨ (s.lineSharers (r.dest / 128)).length < 4

theorem State.Counted.granted {s u : State} {r : HomeReq} (hu : s.Counted u r.partition) :
    s.Granted (u.grantSharer (r.dest % 2 ^ 49 / 128) r.src) r := by
  have hline := lineOf_local_lt r.dest
  have hold : u.lineSharers (r.dest % 2 ^ 49 / 128) = s.lineSharers (r.dest / 128) :=
    (u.lineSharers_local r.dest).trans (State.lineSharers_congr hu.home _)
  have hsharers := u.lineSharers_grantSharer hline r.src
  have hrecorded := u.mem_lineSharers_grantSharer hline r.src
  rw [hold, State.lineSharers_local] at hsharers hrecorded
  have hframe := u.grantSharer_frame (r.dest % 2 ^ 49 / 128) r.src
  refine { toActed := ?_, mem := ?_, tiles := ?_, sharers := hsharers, recorded := hrecorded }
  · rw [hframe]
    exact hu.acted.update rfl
  · rw [hframe]
    exact hu.mem
  · have htiles := congrArg Home.tiles hu.home
    rw [hframe]
    exact htiles

theorem State.Serves.dataRequest_line {s : State} {r : HomeReq} (h : s.Serves r (.read 128) false)
    (haligned : r.dest % 128 = 0) (hroom : s.reclaimFor (r.dest % 2 ^ 49 / 128) = none) :
    ∃ v, s.Granted v r ∧ s.dataRequest r 8 true false (.read 128) = v.sendResponse r.src r.tag r.partition r.tense 8 .none
      (fpaUnit r.dest) (memRead s.mem (memKey (fpaUnit r.dest) (fpaOff r.dest)) 128) r.spec
      (!(v.lineSharers (r.dest / 128)).contains r.src) := by
  obtain ⟨u, hu, hserve⟩ := h.dataRequest 8
  have hfill := lineFill_read haligned r.src r.tag r.partition r.tense r.spec
  have hintact : (u.grantSharer (r.dest % 2 ^ 49 / 128) r.src).Intact r.dest 128 := by
    rw [u.grantSharer_frame]
    exact (h.intact.counted hu).update rfl rfl
  refine ⟨_, hu.granted, ?_⟩
  rw [hserve, State.serve_of_fill (a := frameAccess r (.read 128) false) rfl hfill
    ((State.reclaimFor_congr hu.home _).trans hroom)]
  refine (State.perform_read hintact false).trans ?_
  rw [hfill, Bool.true_and, hu.granted.mem]

theorem State.Serves.rd_line {s : State} {r : HomeReq} (h : s.Serves r (.read 128) false) (hfin : s.home.finished = [])
    (haligned : r.dest % 128 = 0) (hroom : s.reclaimFor (r.dest % 2 ^ 49 / 128) = none)
    (hsrc : r.src < 2 ^ 15) (hreach : s.unreachable r.src = false) :
    Completes (.rd r 128) s (fun t => Emits s t (r.src, r.tag, 8,
          (if r.src ∈ s.lineSharers (r.dest / 128) ∨ (s.lineSharers (r.dest / 128)).length < 4 then 0 else 256),
          memRead s.mem (memKey (fpaUnit r.dest) (fpaOff r.dest)) 128) ∧
        t.lineSharers (r.dest / 128) = (if r.src ∉ s.lineSharers (r.dest / 128) ∧ (s.lineSharers (r.dest / 128)).length < 4
          then s.lineSharers (r.dest / 128) ++ [r.src] else s.lineSharers (r.dest / 128)) ∧
        t.mem = s.mem ∧ t.work = s.work ∧ t.xlat = s.xlat ∧ t.home.tiles = s.home.tiles ∧ t.out = s.out) := by
  obtain ⟨v, hv, hread⟩ := h.dataRequest_line haligned hroom
  have honce : Err.none.code + (if (!(v.lineSharers (r.dest / 128)).contains r.src) = true then 256 else 0) =
      if r.src ∈ s.lineSharers (r.dest / 128) ∨ (s.lineSharers (r.dest / 128)).length < 4 then 0 else 256 := by
    simp only [Bool.not_eq_true', List.contains_eq_mem, decide_eq_false_iff_not, hv.recorded, ite_not]
    exact Nat.zero_add _
  refine .of_acted hv.toActed (congrArg settled hread) hfin hsrc hreach (fun t hans ht => ?_)
  rw [honce] at hans
  exact ⟨hans, (State.lineSharers_congr ht.home _).trans hv.sharers, ht.mem.trans hv.mem, ht.work.trans hv.work,
    ht.xlat.trans hv.xlat, (congrArg Home.tiles ht.home).trans hv.tiles, ht.out.trans hv.out⟩

end Sys2Proof.Machine
end

section
namespace Sys2Proof.Machine

/-! ### A write or an atomic at its home (R128, R134, R355, R390) -/

/-- The copies of a write's lines leave the die and the records before it is performed. -/
def State.takeCopies (s : State) (a : HeldAccess) : State :=
  ((s.snoopOut (linesOf a.fpa a.act.len) a.writer).clearSharers (linesOf (a.fpa % 2 ^ 49) a.act.len)
    ((s.asking a.who).map Prod.fst)).trackDirty a.fpa a.act.len

theorem State.takeCopies_frame (s : State) (a : HeldAccess) :
    s.takeCopies a = { s with parser := (s.takeCopies a).parser, home := { s.home with
      tiles := (s.snoopOut (linesOf a.fpa a.act.len) a.writer).home.tiles, sharers := (s.takeCopies a).home.sharers,
      sharerOrder := (s.takeCopies a).home.sharerOrder } } := rfl

theorem State.perform_of_write {s : State} {a : HeldAccess} (hwrite : a.act.isWrite = true) (htier : 16 ≤ fpaUnit a.fpa) :
    s.perform a = (s.takeCopies a).unitAct a := by
  rw [State.perform, if_pos hwrite]
  exact if_neg (not_lt.2 htier)

/-- A state whose tiles hold no copy of some lines. -/
def State.NoCopies (s : State) (ls : List Nat) : Prop := ∀ l ∈ ls, ∀ e ∈ s.home.tiles, tget l e.2.l1 = none

theorem tget_drop_l1 {l : Nat} {ls : List Nat} (h : l ∈ ls) (t : Tile) : tget l (t.drop ls).l1 = none := by
  have hdropped : (!ls.contains l) = false := by simpa using h
  have hfilter := tget_filter (fun k => !ls.contains k) l t.l1
  rw [hdropped] at hfilter
  exact hfilter

theorem State.snoopOut_none_noCopies (s : State) (ls : List Nat) : (s.snoopOut ls none).NoCopies ls := by
  intro l hl e he
  obtain ⟨t, -, rfl⟩ := List.mem_map.1 he
  exact tget_drop_l1 hl t.2

/-- The state in which bytes were written at their home. -/
structure State.Written (s v : State) (fpa : Nat) (data : List Byte) : Prop extends s.Acted v where
  mem : v.mem = memWrite s.mem (memKey (fpaUnit fpa) (fpaOff fpa)) data
  noCopies : v.NoCopies (linesOf fpa data.length)

theorem State.homeWrite_of_intact {s : State} {fpa : Nat} {data : List Byte} (h : s.Intact fpa data.length) (p : Nat)
    (whole : Bool) :
    ∃ poisoned badTags, s.homeWrite fpa data p whole = ({ s with
      mem := memWrite s.mem (memKey (fpaUnit fpa) (fpaOff fpa)) data,
      home := { s.home with poisoned := poisoned, badTags := badTags } }, .none) := by
  unfold State.homeWrite
  extract_lets u off ks full part
  have hsub : ∀ k ∈ part, k ∈ ks := fun k hk => List.mem_of_mem_filter hk
  have hpoison : s.anyPoison part = false :=
    List.any_eq_false.2 (fun k hk => List.any_eq_false.1 h.poison k (hsub k hk))
  have htags : s.anyBadTag part = false := List.any_eq_false.2 (fun k hk => List.any_eq_false.1 h.tags k (hsub k hk))
  rw [if_neg (Bool.eq_false_iff.1 hpoison), if_neg (Bool.eq_false_iff.1 htags)]
  exact ⟨_, _, rfl⟩

theorem State.Intact.takeCopies {s : State} {fpa len : Nat} (h : s.Intact fpa len) (a : HeldAccess) :
    (s.takeCopies a).Intact fpa len :=
  h.update (parser := (s.takeCopies a).parser) (mem := s.mem) rfl rfl

/-- Once the copies are gone, the bytes are written. -/
theorem State.Counted.written {s u : State} {r : HomeReq} {act : HomeAct} {ordered : Bool} {data : List Byte}
    (hu : s.Counted u r.partition) (hs : s.Intact r.dest data.length) (hlen : data.length = act.len) :
    ∃ v, s.Written v r.dest data ∧
      (u.takeCopies (frameAccess r act ordered)).homeWrite r.dest data r.partition false = (v, .none) := by
  obtain ⟨w, hw⟩ : ∃ w, w = u.takeCopies (frameAccess r act ordered) := ⟨_, rfl⟩
  have hwi : w.Intact r.dest data.length := hw ▸ (hs.counted hu).takeCopies _
  have hact : s.Acted w := by
    rw [hw, State.takeCopies_frame]
    exact hu.acted.update rfl
  have hmem : w.mem = s.mem := by rw [hw]; exact hu.mem
  have hnone : w.NoCopies (linesOf r.dest data.length) := by
    rw [hw, hlen]
    exact u.snoopOut_none_noCopies _
  obtain ⟨poisoned, badTags, hwrite⟩ := State.homeWrite_of_intact hwi r.partition false
  rw [← hw]
  refine ⟨_, ?_, hwrite⟩
  exact { toActed := hact.update rfl, mem := congrArg (memWrite · _ data) hmem, noCopies := hnone }

theorem State.homeDo_write {s v : State} {fpa p : Nat} {data : List Byte} {whole : Bool}
    (h : s.homeWrite fpa data p whole = (v, .none)) (spec : Bool) : s.homeDo fpa p (.write data) whole spec = (v, .none, []) := by
  rw [State.homeDo, h]

theorem State.homeDo_atomic {s v : State} {fpa p op width operand compare : Nat} (hs : s.Intact fpa width)
    (h : s.homeWrite fpa (leBytes width (atomicNew op width operand compare
      (leNat (memRead s.mem (memKey (fpaUnit fpa) (fpaOff fpa)) width)))) p false = (v, .none)) (whole spec : Bool) :
    s.homeDo fpa p (.atomic op width operand compare) whole spec =
      (v, .none, memRead s.mem (memKey (fpaUnit fpa) (fpaOff fpa)) width) := by
  rw [State.homeDo, State.homeRead_of_intact hs]
  dsimp only
  rw [h]

theorem State.Serves.dataRequest_write {s : State} {r : HomeReq} {data : List Byte} {ordered : Bool}
    (h : s.Serves r (.write data) ordered) :
    ∃ v, s.Written v r.dest data ∧ s.dataRequest r 9 true ordered (.write data) = v.answerReq r 9 .none [] := by
  obtain ⟨u, hu, hserve⟩ := h.dataRequest 9
  obtain ⟨v, hv, hwrite⟩ := hu.written (act := .write data) (ordered := ordered) h.intact rfl
  have hintact := (h.intact.counted hu).takeCopies (frameAccess r (.write data) ordered)
  refine ⟨v, hv, ?_⟩
  calc s.dataRequest r 9 true ordered (.write data)
      = u.serve (frameAccess r (.write data) ordered) := hserve
    _ = u.perform (frameAccess r (.write data) ordered) := State.serve_of_not_fill rfl
    _ = (u.takeCopies (frameAccess r (.write data) ordered)).unitAct (frameAccess r (.write data) ordered) :=
        State.perform_of_write rfl h.intact.tier
    _ = v.reply r.dest (.frame r.src r.tag r.partition r.tense r.spec) (.write data) .none [] :=
        State.unitAct_of_intact hintact (State.homeDo_write hwrite _)
    _ = v.answerReq r 9 .none [] := rfl

theorem State.Serves.dataRequest_atomic {s : State} {r : HomeReq} {op width operand compare : Nat}
    (h : s.Serves r (.atomic op width operand compare) true) :
    ∃ v, s.Written v r.dest (leBytes width (atomicNew op width operand compare
        (leNat (memRead s.mem (memKey (fpaUnit r.dest) (fpaOff r.dest)) width)))) ∧
      s.dataRequest r 0xa true true (.atomic op width operand compare) =
        v.answerReq r 0xa .none (memRead s.mem (memKey (fpaUnit r.dest) (fpaOff r.dest)) width) := by
  obtain ⟨u, hu, hserve⟩ := h.dataRequest 0xa
  let a := frameAccess r (.atomic op width operand compare) true
  let new := leBytes width (atomicNew op width operand compare
    (leNat (memRead s.mem (memKey (fpaUnit r.dest) (fpaOff r.dest)) width)))
  have hlen : new.length = width := leBytes_length _ _
  obtain ⟨v, hv, hwrite⟩ := hu.written (act := .atomic op width operand compare) (ordered := true) (data := new)
    (by rw [hlen]; exact h.intact) hlen
  have hintact : (u.takeCopies a).Intact r.dest width := (h.intact.counted hu).takeCopies a
  have hmem : (u.takeCopies a).mem = s.mem := hu.mem
  have hdo : (u.takeCopies a).homeDo r.dest r.partition (.atomic op width operand compare) false r.spec =
      (v, .none, memRead s.mem (memKey (fpaUnit r.dest) (fpaOff r.dest)) width) := by
    rw [← hmem]
    exact State.homeDo_atomic hintact (by rw [hmem]; exact hwrite) _ _
  refine ⟨v, hv, ?_⟩
  calc s.dataRequest r 0xa true true (.atomic op width operand compare)
      = u.serve a := hserve
    _ = u.perform a := State.serve_of_not_fill rfl
    _ = (u.takeCopies a).unitAct a := State.perform_of_write rfl h.intact.tier
    _ = v.reply r.dest (.frame r.src r.tag r.partition r.tense r.spec) (.atomic op width operand compare) .none _ :=
        State.unitAct_of_intact hintact hdo
    _ = v.answerReq r 0xa .none _ := rfl

theorem State.Serves.wr {s : State} {r : HomeReq} {data : List Byte} {ordered : Bool} (h : s.Serves r (.write data) ordered)
    (hfin : s.home.finished = []) (hlen : data.length ≤ 4096) (hsrc : r.src < 2 ^ 15) (hreach : s.unreachable r.src = false) :
    Completes (.wr r data ordered) s (fun t => Answered s t r.src r.tag 9 .none [] ∧
      (∀ i : Nat, i < data.length → memGet t.mem (memKey (fpaUnit r.dest) (fpaOff r.dest) + i) = data.getD i 0#8) ∧
      (∀ a : Nat, a < memKey (fpaUnit r.dest) (fpaOff r.dest) ∨ memKey (fpaUnit r.dest) (fpaOff r.dest) + data.length ≤ a →
        memGet t.mem a = memGet s.mem a) ∧
      (∀ l ∈ linesOf r.dest data.length, ∀ e ∈ t.home.tiles, tget l e.2.l1 = none) ∧ t.work = s.work ∧ t.xlat = s.xlat ∧
      t.out = s.out) := by
  obtain ⟨v, hv, hwrite⟩ := h.dataRequest_write
  have hexec : exec (.wr r data ordered) s = settled (v.answerReq r 9 .none []) := by
    rw [← hwrite, ← decide_eq_true hlen]
    rfl
  refine .of_acted hv.toActed hexec hfin hsrc hreach (fun t hans ht => ?_)
  refine ⟨hans, fun i hi => ?_, fun a ha => ?_, ?_, ht.work.trans hv.work, ht.xlat.trans hv.xlat, ht.out.trans hv.out⟩
  · rw [ht.mem, hv.mem, memGet_memWrite, if_pos ⟨Nat.le_add_right _ _, by omega⟩, Nat.add_sub_cancel_left]
  · rw [ht.mem, hv.mem, memGet_memWrite, if_neg (by omega)]
  · rw [ht.home]
    exact hv.noCopies

theorem State.Serves.atomic {s : State} {r : HomeReq} {op width operand compare : Nat}
    (h : s.Serves r (.atomic op width operand compare) true) (hfin : s.home.finished = [])
    (hsrc : r.src < 2 ^ 15) (hreach : s.unreachable r.src = false) :
    Completes (.atomic r op width operand compare) s (fun t =>
      Answered s t r.src r.tag 0xa .none (memRead s.mem (memKey (fpaUnit r.dest) (fpaOff r.dest)) width) ∧
      t.mem = memWrite s.mem (memKey (fpaUnit r.dest) (fpaOff r.dest)) (leBytes width (atomicNew op width operand compare
        (leNat (memRead s.mem (memKey (fpaUnit r.dest) (fpaOff r.dest)) width)))) ∧
      t.work = s.work ∧ t.xlat = s.xlat ∧ t.out = s.out) := by
  obtain ⟨v, hv, hatomic⟩ := h.dataRequest_atomic
  have hmemory : fpaUnit r.dest ≠ 49 := by have := h.unit; omega
  refine .of_acted hv.toActed (congrArg settled ((if_neg hmemory).trans hatomic)) hfin hsrc hreach (fun t hans ht => ?_)
  exact ⟨hans, ht.mem.trans hv.mem, ht.work.trans hv.work, ht.xlat.trans hv.xlat, ht.out.trans hv.out⟩

end Sys2Proof.Machine
end

section
namespace Sys2Proof.Machine

/-! ### Requests at the counters (R136, R157, R183) -/

theorem State.counter_congr {s t : State} (h : t.work.counters = s.work.counters) (n : Nat) : t.counter n = s.counter n := by
  rw [State.counter, State.counter, h]

theorem State.counter_setCounter_self (s : State) (n v : Nat) : (s.setCounter n v).counter n = v % 2 ^ 64 := by
  unfold State.setCounter State.counter
  split
  next hzero => rw [tget_terase_self, hzero]; rfl
  next => rw [tget_tset_self]; rfl

theorem State.counter_setCounter_ne (s : State) {m n : Nat} (h : m ≠ n) (v : Nat) :
    (s.setCounter n v).counter m = s.counter m := by
  unfold State.setCounter State.counter
  split
  · rw [tget_terase_ne h]
  · rw [tget_tset_ne h]

theorem State.counter_putCounter_self (s : State) (n v : Nat) : (s.putCounter n v).counter n = v % 2 ^ 64 :=
  (State.counter_congr (s := s.setCounter n v) rfl n).trans (s.counter_setCounter_self n v)

theorem State.counter_putCounter_ne (s : State) {m n : Nat} (h : m ≠ n) (v : Nat) : (s.putCounter n v).counter m = s.counter m :=
  (State.counter_congr (s := s.setCounter n v) rfl m).trans (s.counter_setCounter_ne h v)

theorem State.unreachable_putCounter (s : State) (n v u : Nat) : (s.putCounter n v).unreachable u = s.unreachable u :=
  State.unreachable_congr rfl rfl (State.chip_congr rfl) u

/-- A request on a counter that its partition owns acts on it and is answered with the old value. -/
theorem State.counterRequest_of_owned {s : State} {r : HomeReq} (haligned : fpaOff r.dest % 8 = 0)
    (hown : s.ownsCounter r.partition (fpaOff r.dest / 8) = true) (op : Nat) (f : Nat → State → State × Nat) :
    s.counterRequest r op (decide (fpaOff r.dest % 8 = 0)) f =
      (f (fpaOff r.dest / 8) s).1.answerReq r op .none (leBytes 8 (f (fpaOff r.dest / 8) s).2) := by
  rw [State.counterRequest, if_neg (by simp [haligned]), if_neg (by simp [hown])]

/-- A request that puts a value in a counter, and answers the old one, completes. -/
theorem Completes.of_putCounter {c : Instr} {s : State} {r : HomeReq} {op n value : Nat}
    (hexec : exec c s = settled ((s.putCounter n value).answerReq r op .none (leBytes 8 (s.counter n))))
    (hfin : s.home.finished = []) (hsrc : r.src < 2 ^ 15) (hreach : s.unreachable r.src = false) :
    Completes c s (fun t => Answered s t r.src r.tag op .none (leBytes 8 (s.counter n)) ∧ t.counter n = value % 2 ^ 64 ∧
      (∀ m : Nat, m ≠ n → t.counter m = s.counter m) ∧ t.mem = s.mem ∧ t.xlat = s.xlat ∧ t.home = s.home ∧ t.out = s.out) := by
  refine .of_response hexec hfin rfl rfl hsrc ((s.unreachable_putCounter ..).trans hreach) (fun t hans ht => ?_)
  have hcounter : ∀ m, t.counter m = (s.putCounter n value).counter m := State.counter_congr (by rw [ht.work])
  exact ⟨hans, (hcounter n).trans (s.counter_putCounter_self n value),
    fun m hm => (hcounter m).trans (s.counter_putCounter_ne hm value),
    ht.mem, ht.xlat, ht.home, ht.out⟩

theorem exec_atomic_of_counter {s : State} {r : HomeReq} {op : Nat} (hlive : s.live = true) (hhere : fpaChip r.dest = s.chip)
    (hpart : s.partErr r.partition = .none) (hunit : fpaUnit r.dest = 49) (haligned : fpaOff r.dest % 8 = 0)
    (hown : s.ownsCounter r.partition (fpaOff r.dest / 8) = true) (hwidth : atomicWidth op 8 = true) (operand compare : Nat) :
    exec (.atomic r op 8 operand compare) s = settled ((s.putCounter (fpaOff r.dest / 8)
      (atomicNew op 8 operand compare (s.counter (fpaOff r.dest / 8)))).answerReq r 0xa .none
        (leBytes 8 (s.counter (fpaOff r.dest / 8)))) := by
  have hform : ¬ ((8 : Nat) ≠ 8 ∨ (!atomicWidth op 8) = true) := by simp [hwidth]
  refine congrArg settled ((if_pos hunit).trans ?_)
  rw [State.unitRequest_here hlive hhere hpart, if_neg hform, State.counterRequest_of_owned haligned hown]

theorem exec_ctr_add {s : State} {r : HomeReq} (hlive : s.live = true) (hhere : fpaChip r.dest = s.chip)
    (hpart : s.partErr r.partition = .none) (hunit : fpaUnit r.dest = 49) (haligned : fpaOff r.dest % 8 = 0)
    (hown : s.ownsCounter r.partition (fpaOff r.dest / 8) = true) (operand compare : Nat) :
    exec (.ctr r 1 operand compare) s = settled ((s.putCounter (fpaOff r.dest / 8)
      (s.counter (fpaOff r.dest / 8) + operand)).answerReq r 0xc .none (leBytes 8 (s.counter (fpaOff r.dest / 8)))) := by
  have hform : ¬ (fpaUnit r.dest ≠ 49 ∨ (!((1 : Nat) == 0 || (1 : Nat) == 1 || (1 : Nat) == 3)) = true) := by simp [hunit]
  refine congrArg settled ((State.unitRequest_here hlive hhere hpart ..).trans ((if_neg hform).trans ?_))
  exact State.counterRequest_of_owned haligned hown ..

/-! ### INVAL (R128) -/

/-- The line that an INVAL names: its home is the chip that sent it. -/
def invalLine (r : HomeReq) : Nat := (r.src * 2 ^ 49 + r.dest % 2 ^ 49) / 128

/-- The state without a line, but in the L1 of the tile that wrote it. -/
def State.withoutLine (s : State) (l : Nat) (writer : Option Nat) : State := (s.snoopOut [l] writer).spoilLines [l] none

theorem State.mem_tiles_snoopOut {s : State} {ls : List Nat} {writer : Option Nat} {e : Nat × Tile}
    (h : e ∈ (s.snoopOut ls writer).home.tiles) : ∃ t : Tile, e.2 = t.stale ls ∧ writer = some e.1 ∨ e.2 = t.drop ls := by
  obtain ⟨⟨n, t⟩, -, rfl⟩ := List.mem_map.1 h
  refine ⟨t, ?_⟩
  by_cases hw : writer = some n
  · exact .inl ⟨if_pos hw, hw⟩
  · exact .inr (if_neg hw)

theorem Tile.stale_entries {t : Tile} {l : Nat} : ∀ x ∈ (t.stale [l]).entries, x.2.line ≠ l ∨ x.2.stale = true := by
  intro x hx
  obtain ⟨⟨n, y⟩, -, rfl⟩ := List.mem_map.1 hx
  dsimp only
  split
  next => exact .inr rfl
  next hother => exact .inl (by simpa using hother)

theorem Tile.not_mem_held_drop (t : Tile) (l : Nat) : l ∉ (t.drop [l]).held := by
  intro hl
  have hkept := (List.mem_filter.1 hl).2
  simp at hkept

theorem exec_inval {s : State} {r : HomeReq} (hlive : s.live = true) (hhere : fpaChip r.dest = s.chip)
    (hpart : s.partErr r.partition = .none) (writer : Option Nat) :
    exec (.inval r writer) s = settled ((s.withoutLine (invalLine r) (writer.bind s.writerTile)).answerReq r 0xb .none []) :=
  congrArg settled (State.unitRequest_here hlive hhere hpart ..)

theorem State.withoutLine_tile {s : State} {l : Nat} {writer : Option Nat} {e : Nat × Tile}
    (h : e ∈ (s.withoutLine l writer).home.tiles) : writer = some e.1 ∨ (tget l e.2.l1 = none ∧ l ∉ e.2.held) := by
  obtain ⟨t, ht⟩ := State.mem_tiles_snoopOut (s := s) h
  rcases ht with ⟨-, hw⟩ | hdrop
  · exact .inl hw
  · rw [hdrop]
    exact .inr ⟨tget_drop_l1 (List.mem_singleton.2 rfl) t, t.not_mem_held_drop l⟩

theorem State.withoutLine_entries {s : State} {l : Nat} {writer : Option Nat} {e : Nat × Tile}
    (h : e ∈ (s.withoutLine l writer).home.tiles) : ∀ x ∈ e.2.entries, x.2.line ≠ l ∨ x.2.stale = true := by
  obtain ⟨t, ht⟩ := State.mem_tiles_snoopOut (s := s) h
  have hentries : e.2.entries = (t.stale [l]).entries :=
    ht.elim (fun hw => congrArg Tile.entries hw.1) (fun hd => (congrArg Tile.entries hd).trans rfl)
  rw [hentries]
  exact Tile.stale_entries

theorem State.withoutLine_unreachable (s : State) (l : Nat) (writer : Option Nat) (u : Nat) :
    (s.withoutLine l writer).unreachable u = s.unreachable u :=
  State.unreachable_congr rfl rfl (State.chip_congr rfl) u

theorem Completes.inval {s : State} {r : HomeReq} {writer : Option Nat} (hlive : s.live = true) (hfin : s.home.finished = [])
    (hhere : fpaChip r.dest = s.chip) (hpart : s.partErr r.partition = .none) (hsrc : r.src < 2 ^ 15)
    (hreach : s.unreachable r.src = false) :
    Completes (.inval r writer) s (fun t => Answered s t r.src r.tag 0xb .none [] ∧
      (∀ e ∈ t.home.tiles, writer.bind s.writerTile = some e.1 ∨ (tget (invalLine r) e.2.l1 = none ∧ invalLine r ∉ e.2.held)) ∧
      (∀ e ∈ t.home.tiles, ∀ x ∈ e.2.entries, x.2.line ≠ invalLine r ∨ x.2.stale = true) ∧
      t.mem = s.mem ∧ t.work = s.work ∧ t.out = s.out) := by
  refine .of_response (exec_inval hlive hhere hpart writer) hfin rfl rfl hsrc ((s.withoutLine_unreachable ..).trans hreach)
    (fun t hans ht => ?_)
  rw [ht.home]
  exact ⟨hans, fun e he => State.withoutLine_tile he, fun e he => State.withoutLine_entries he, ht.mem, ht.work, ht.out⟩

/-! ### A request of a DISABLED partition (R388, R400) -/

/-- A violation is logged; nothing but the logs and their registers changes. -/
structure State.Logged (s t : State) (v : Violation) (p : Nat) : Prop where
  frame : t = { s with regs := t.regs, security := t.security }
  newest : t.security.glog.head? = some v
  fields : OnlyFields [R.SEC_GLOG_ENTRIES, R.SEC_GLOG_COUNT, R.PART_VLOG_ENTRIES p, R.PART_VLOG_COUNT p] s t

theorem State.Logged.set {s t : State} {v : Violation} {p : Nat} (h : s.Logged t v p) {f : Fld}
    (hf : f ∈ [R.SEC_GLOG_ENTRIES, R.SEC_GLOG_COUNT, R.PART_VLOG_ENTRIES p, R.PART_VLOG_COUNT p]) {x : Nat} :
    s.Logged (t.set f x) v p where
  frame := by
    have hset : t.set f x = { t with regs := (t.set f x).regs } := rfl
    rw [hset, h.frame]
  newest := h.newest
  fields := h.fields.set hf

theorem State.Logged.vlogs {s t : State} {v : Violation} {p : Nat} (h : s.Logged t v p) {vlogs} :
    s.Logged { t with security := { t.security with vlogs := vlogs } } v p where
  frame := by rw [h.frame]
  newest := h.newest
  fields := h.fields

theorem State.Logged.ite {c : Prop} {_ : Decidable c} {s t u : State} {v : Violation} {p : Nat} (ht : s.Logged t v p)
    (hu : s.Logged u v p) : s.Logged (if c then t else u) v p := by
  split
  · exact ht
  · exact hu

theorem State.violate_logged (s : State) (cls p addr : Nat) (e : Err) (source : Nat) :
    s.Logged (s.violate cls (some p) addr e source)
      { addr := addr, tick := s.tick % 2 ^ 32, partition := p, code := e.code, cls := cls, source := source } p := by
  unfold State.violate
  extract_lets v g _ s1 s2
  have h1 : s.Logged s1 v p := ⟨rfl, rfl, .refl _ s⟩
  have h2 : s.Logged s2 v p := (h1.set (by simp)).set (by simp)
  exact .ite h2 ((h2.vlogs.set (by simp)).set (by simp))

theorem State.Logged.chip {s t : State} {v : Violation} {p : Nat} (h : s.Logged t v p) : t.chip = s.chip :=
  h.fields _ (by
    simp only [List.forall_mem_cons, R.BOOT_POS_CHIP, R.SEC_GLOG_ENTRIES, R.SEC_GLOG_COUNT, R.PART_VLOG_ENTRIES,
      R.PART_VLOG_COUNT, List.not_mem_nil, false_imp_iff, implies_true, and_true]
    omega)

theorem State.Logged.unreachable {s t : State} {v : Violation} {p : Nat} (h : s.Logged t v p) (u : Nat) :
    t.unreachable u = s.unreachable u :=
  State.unreachable_congr (by rw [h.frame]) (by rw [h.frame]) h.chip u

theorem Completes.rd_of_disabled {s : State} {r : HomeReq} {len : Nat} (hlive : s.live = true) (hfin : s.home.finished = [])
    (hhere : fpaChip r.dest = s.chip) (hdisabled : s.get (R.PART_STATE_STATE r.partition) = 0) (hsrc : r.src < 2 ^ 15)
    (hreach : s.unreachable r.src = false) :
    Completes (.rd r len) s (fun t => Answered s t r.src r.tag 8 .partition [] ∧
      (t.security.glog.head?.map (fun v => (v.cls, v.partition, v.addr, v.code, v.source))) =
        some (1, r.partition, r.dest, 3, r.port) ∧
      t.mem = s.mem ∧ t.work = s.work ∧ t.out = s.out) := by
  have hlogged := s.violate_logged 1 r.partition r.dest .partition r.port
  obtain ⟨u, hu⟩ : ∃ u, u = s.violate 1 (some r.partition) r.dest .partition r.port := ⟨_, rfl⟩
  have hexec : exec (.rd r len) s = settled (u.answerReq r 8 .partition []) := by
    rw [hu]
    exact congrArg settled (State.unitRequest_disabled hlive hhere hdisabled ..)
  rw [← hu] at hlogged
  refine .of_response hexec (by rw [hlogged.frame]; exact hfin) (by rw [hlogged.frame]) (by rw [hlogged.frame]) hsrc
    ((hlogged.unreachable _).trans hreach) (fun t hans ht => ?_)
  refine ⟨hans, ?_, ht.mem.trans (by rw [hlogged.frame]), ht.work.trans (by rw [hlogged.frame]),
    ht.out.trans (by rw [hlogged.frame])⟩
  rw [ht.security, hlogged.newest]
  rfl

/-! ### CLAUSE (R260) -/

/-- The clause that a CLAUSE frame brings waits for a tile, with the extents it came with. -/
def BroughtBy (r : HomeReq) (descriptor : List Byte) (extents : List (Nat × Nat × Nat)) (k : Clause) : Prop :=
  (k.partition, k.origin, k.tense, k.stage, k.desc, k.extents) =
    (r.partition, some (r.src, r.tag), r.tense, .waiting, descriptor.take (descLen descriptor),
      extents.map (fun e => { fva := e.1, len := e.2.1 % 2 ^ 63, fpa := e.2.2, side := decide (2 ^ 63 ≤ e.2.1) }))

/-- The state with one clause more, of the next number. -/
def State.addClause (s : State) (k : Clause) : State :=
  { s with work := { s.work with clauses := tset s.work.nextClause k s.work.clauses, nextClause := s.work.nextClause + 1 } }

theorem exec_clause {s : State} {r : HomeReq} (hlive : s.live = true) (hhere : fpaChip r.dest = s.chip)
    (hpart : s.partErr r.partition = .none) (hunit : fpaUnit r.dest = 50) (htile : s.anyTile = true)
    (descriptor : List Byte) (extents : List (Nat × Nat × Nat)) :
    ∃ k, BroughtBy r descriptor extents k ∧ exec (.clause r descriptor extents) s = settled (s.addClause k) := by
  have hclosed : ¬ (!s.anyTile) = true := by simp [htile]
  refine ⟨_, ?_, congrArg settled ((State.unitRequest_here hlive hhere hpart ..).trans
    ((if_neg (not_not.2 hunit)).trans ((if_neg hclosed).trans (Eq.refl (s.addClause _)))))⟩
  rfl

theorem Completes.clause {s : State} {r : HomeReq} {descriptor : List Byte} {extents : List (Nat × Nat × Nat)}
    (hlive : s.live = true) (hfin : s.home.finished = []) (hhere : fpaChip r.dest = s.chip)
    (hpart : s.partErr r.partition = .none) (hunit : fpaUnit r.dest = 50) (htile : s.anyTile = true) :
    Completes (.clause r descriptor extents) s (fun t =>
      ((tget s.work.nextClause t.work.clauses).map (fun k => (k.partition, k.origin, k.tense, k.stage, k.desc, k.extents))) =
        some (r.partition, some (r.src, r.tag), r.tense, .waiting, descriptor.take (descLen descriptor),
          extents.map (fun e => { fva := e.1, len := e.2.1 % 2 ^ 63, fpa := e.2.2, side := decide (2 ^ 63 ≤ e.2.1) })) ∧
      t.work.nextClause = s.work.nextClause + 1 ∧ t = { s with work := t.work }) := by
  obtain ⟨k, hk, hexec⟩ := exec_clause hlive hhere hpart hunit htile descriptor extents
  have hstored : tget s.work.nextClause (s.addClause k).work.clauses = some k := tget_tset_self ..
  refine .of_next (hexec.trans (settled_of_finished_nil hfin)) ⟨?_, rfl, rfl⟩
  rw [hstored]
  exact congrArg some hk

end Sys2Proof.Machine
end

section
namespace Sys2Proof.Machine

/-! ### A request that names another chip (R20) -/

section
variable {s : State} {r : HomeReq} (hfin : s.home.finished = []) (hother : fpaChip r.dest ≠ s.chip)
include hfin hother

theorem settled_unitRequest_elsewhere (op : Nat) (f : State → State) : settled (s.unitRequest r op f) = .next s := by
  rw [State.unitRequest_elsewhere hother, settled_of_finished_nil hfin]

theorem exec_rd_elsewhere (len : Nat) : exec (.rd r len) s = .next s :=
  settled_unitRequest_elsewhere hfin hother ..

theorem exec_wr_elsewhere (data : List Byte) (ordered : Bool) : exec (.wr r data ordered) s = .next s :=
  settled_unitRequest_elsewhere hfin hother ..

theorem exec_atomic_elsewhere (op width operand compare : Nat) : exec (.atomic r op width operand compare) s = .next s := by
  have hnone : ∀ op f, s.unitRequest r op f = s := State.unitRequest_elsewhere hother
  have hexec : exec (.atomic r op width operand compare) s = settled s :=
    congrArg settled ((ite_congr rfl (fun _ => hnone _ _) (fun _ => hnone _ _)).trans (ite_self s))
  rw [hexec, settled_of_finished_nil hfin]

theorem exec_inval_elsewhere (writer : Option Nat) : exec (.inval r writer) s = .next s :=
  settled_unitRequest_elsewhere hfin hother ..

theorem exec_ctr_elsewhere (op operand compare : Nat) : exec (.ctr r op operand compare) s = .next s :=
  settled_unitRequest_elsewhere hfin hother ..

theorem exec_clause_elsewhere (descriptor : List Byte) (extents : List (Nat × Nat × Nat)) :
    exec (.clause r descriptor extents) s = .next s :=
  settled_unitRequest_elsewhere hfin hother ..

end

/-! ### Requests at the home agents and units of a chip -/

/-- Settles O13: an access that nothing holds up is counted, served and performed, and its answer changes only the switch core;
counters, INVAL, CLAUSE, a DISABLED partition and another chip's address each take their own branch of the request. -/
theorem homeAgentsServeRequests : Obligations.HomeAgentsServeRequests := by
  unfold Obligations.HomeAgentsServeRequests
  refine ⟨?rd, ?line, ?wr, ?atomic, ?counterAtomic, ?inval, ?ctr, ?clause, ?disabled, ?rdElse, ?wrElse, ?atomicElse, ?invalElse,
    ?ctrElse, ?clauseElse⟩
  case rd =>
    intro s r len hlive hfin hhere hpart hunit hlink hquiet hforward hframe hlen hpoison htags hclear hpartial hsrc hreach
    have hserves : s.Serves r (.read len) false :=
      { live := hlive, here := hhere, part := hpart, unit := hunit.2, intact := ⟨hunit.1, hlink, hpoison, htags⟩, quiet := hquiet,
        forward := hforward, frame := hframe, form := rfl, order := nofun, clear := hclear, copies := nofun }
    exact hserves.rd hfin hlen hpartial hsrc hreach
  case line =>
    intro s r hlive hfin hhere hpart hunit hlink hquiet hforward hframe hpoison htags haligned hclear hroom hsrc hreach
    have hserves : s.Serves r (.read 128) false :=
      { live := hlive, here := hhere, part := hpart, unit := hunit.2, intact := ⟨hunit.1, hlink, hpoison, htags⟩, quiet := hquiet,
        forward := hforward, frame := hframe, form := rfl, order := nofun, clear := by
          simp only [HomeAct.len, HomeAct.isWrite, linesOf_line haligned, List.all_cons, List.all_nil, hclear, Bool.and_true]
        copies := nofun }
    exact hserves.rd_line hfin haligned hroom hsrc hreach
  case wr =>
    intro s r data ordered hlive hfin hhere hpart hunit hlink hquiet hforward hframe hlen hpoison htags horder hclear
      hcopies hsrc hreach
    have hserves : s.Serves r (.write data) ordered :=
      { live := hlive, here := hhere, part := hpart, unit := hunit.2, intact := ⟨hunit.1, hlink, hpoison, htags⟩, quiet := hquiet,
        forward := hforward, frame := hframe, form := rfl, order := fun _ => horder, clear := hclear, copies := fun _ => hcopies }
    exact hserves.wr hfin hlen hsrc hreach
  case atomic =>
    intro s r op width operand compare hlive hfin hhere hpart hunit hlink hquiet hforward hframe hwidth haligned hpoison
      htags horder hclear hcopies hsrc hreach
    have hserves : s.Serves r (.atomic op width operand compare) true :=
      { live := hlive, here := hhere, part := hpart, unit := hunit.2, intact := ⟨hunit.1, hlink, hpoison, htags⟩, quiet := hquiet,
        forward := hforward, frame := hframe, form := atomicForm_none hwidth haligned .., order := fun _ => horder,
        clear := hclear, copies := fun _ => hcopies }
    exact hserves.atomic hfin hsrc hreach
  case counterAtomic =>
    intro s r op operand compare hlive hfin hhere hpart hunit haligned hown hwidth hsrc hreach
    exact .of_putCounter (exec_atomic_of_counter hlive hhere hpart hunit haligned hown hwidth operand compare) hfin hsrc hreach
  case inval =>
    intro s r writer hlive hfin hhere hpart hsrc hreach
    exact .inval hlive hfin hhere hpart hsrc hreach
  case ctr =>
    intro s r operand compare hlive hfin hhere hpart hunit haligned hown hsrc hreach
    exact .of_putCounter (exec_ctr_add hlive hhere hpart hunit haligned hown operand compare) hfin hsrc hreach
  case clause =>
    intro s r descriptor extents hlive hfin hhere hpart hunit htile
    exact .clause hlive hfin hhere hpart hunit htile
  case disabled =>
    intro s r len hlive hfin hhere hdisabled hsrc hreach
    exact .rd_of_disabled hlive hfin hhere hdisabled hsrc hreach
  case rdElse => exact fun s r len _ _ _ _ _ _ _ hfin hother => exec_rd_elsewhere hfin hother len
  case wrElse => exact fun s r _ _ _ _ data ordered _ _ hfin hother => exec_wr_elsewhere hfin hother data ordered
  case atomicElse =>
    exact fun s r len op operand compare _ _ _ _ hfin hother => exec_atomic_elsewhere hfin hother op len operand compare
  case invalElse => exact fun s r _ _ _ _ _ _ writer _ hfin hother => exec_inval_elsewhere hfin hother writer
  case ctrElse => exact fun s r _ op operand compare _ _ _ _ hfin hother => exec_ctr_elsewhere hfin hother op operand compare
  case clauseElse => exact fun s r _ _ _ _ data _ _ extents hfin hother => exec_clause_elsewhere hfin hother data extents

end Sys2Proof.Machine
end

section
namespace Sys2Proof.Machine

/-! ### A request whose turn has come (R371, R372, R374) -/

/-- A request that waits in the inbox leaves it and goes straight to its own checks. -/
theorem State.request_of_taken {s : State} {h : Hdr} {code : Nat} {body : List Byte → Bool} (ht : Taken s h code body)
    (nelar mgmt lengthOk : Bool) (run : State → State) :
    s.request h code nelar mgmt lengthOk body run = run (s.leaveInbox h code body) := by
  obtain ⟨hup, hboot, hfrozen, hinbox, -, -⟩ := ht
  have hvet : s.vet h code nelar mgmt lengthOk body = (s.leaveInbox h code body, true) := by
    rw [State.vet, if_neg (by simp [hup]), if_neg (fun hfail => hboot hfail.1), if_pos hinbox]
  have hrunning : ¬ ((s.leaveInbox h code body).frozen.isSome ∧ code ≠ 1 ∧ code ≠ 0x52) := by
    rintro ⟨hsome, -⟩
    rw [show (s.leaveInbox h code body).frozen = none from hfrozen] at hsome
    cases hsome
  rw [State.request, hvet]
  exact if_neg hrunning

theorem State.leaveInbox_frame (s : State) (h : Hdr) (code : Nat) (body : List Byte → Bool) :
    s.leaveInbox h code body =
      { s with nelar := { s.nelar with inbox := (s.leaveInbox h code body).nelar.inbox } } := rfl

/-! ### The response to a request of the runtime (R372 to R375) -/

/-- What sending a message changes: the links and what goes out; the responses held for requests stay. -/
structure State.Sends (s t : State) : Prop where
  frame : t = { s with nelar := t.nelar, out := t.out }
  requests : t.nelar.requests = s.nelar.requests

theorem State.Sends.refl (s : State) : s.Sends s := ⟨rfl, rfl⟩

theorem State.Sends.ite {c : Prop} {_ : Decidable c} {s t u : State} (ht : s.Sends t) (hu : s.Sends u) :
    s.Sends (if c then t else u) := by
  split
  · exact ht
  · exact hu

/-- A change of the links and of what goes out. -/
theorem State.Sends.update {s t : State} (h : s.Sends t) {nelar out} (hreq : nelar.requests = t.nelar.requests) :
    s.Sends { t with nelar := nelar, out := out } :=
  ⟨by rw [h.frame], hreq.trans h.requests⟩

theorem State.Sends.emit {s t : State} (h : s.Sends t) {o} : s.Sends (t.emit o) := h.update rfl

theorem State.Sends.setLink {s t : State} (h : s.Sends t) {l k} : s.Sends (t.setLink l k) := by
  refine h.update (out := t.out) ?_
  split <;> rfl

theorem State.Sends.sendFlit {s t : State} (h : s.Sends t) {l f} : s.Sends (t.sendFlit l f) := h.setLink.emit.emit

theorem State.Sends.pump {s t : State} (h : s.Sends t) {l n} : s.Sends (t.pump l n) := by
  induction n generalizing t with
  | zero => exact h
  | succ n ih =>
    unfold State.pump
    split
    · exact h
    · exact .ite h (ih h.setLink.sendFlit)

theorem State.Sends.sendOn {s t : State} (h : s.Sends t) {l m} : s.Sends (t.sendOn l m) := h.setLink.pump

/-- A message other than TELE_STREAM is kept, never discarded (R377). -/
theorem State.Sends.keepNotice {s t : State} (h : s.Sends t) {m : Msg} (hm : m.code ≠ 0x51) : s.Sends (t.keepNotice m) := by
  rw [State.keepNotice, if_neg (fun hfull => hm hfull.1)]
  exact h.update rfl

theorem State.Sends.sendVia {s t : State} (h : s.Sends t) {l} {m : Msg} (hm : m.code ≠ 0x51) : s.Sends (t.sendVia l m) :=
  .ite h.sendOn (.ite h.sendOn (.ite h.sendOn (h.keepNotice hm)))

theorem State.Sends.sendPort {s t : State} (h : s.Sends t) {p dst m} : s.Sends (t.sendPort p dst m) := by
  unfold State.sendPort
  split
  · exact h.emit
  · exact h

theorem State.Sends.sendRespTo {s t : State} (h : s.Sends t) {path src} {m : Msg} (hm : m.code ≠ 0x51) :
    s.Sends (t.sendRespTo path src m) := by
  unfold State.sendRespTo
  split
  · exact h.sendVia hm
  · exact h.sendVia hm
  · exact h.sendPort
  · exact h.sendPort
  · exact h

/-- What answering a request changes: the links and what goes out; the answer is held with its ID (R374, R375). -/
structure State.Replies (s t : State) (reqId code : Nat) (body : List Byte) : Prop where
  frame : t = { s with nelar := t.nelar, out := t.out }
  held : (tget reqId t.nelar.requests).map (fun r => r.answer) = some (some (code, body))

theorem respCode_ne_stream {code : Nat} (hc : code ≠ 0x51) : respCode code ≠ 0x51 := by
  unfold respCode
  split
  · decide
  · exact hc

/-- A request that is held is answered under its own ID. -/
theorem State.answer_replies {s : State} {reqId code : Nat} (hreq : (tget reqId s.nelar.requests).isSome = true)
    (hc : code ≠ 0x51) (path : Path) (body : List Byte) : s.Replies (s.answer path reqId code body) reqId code body := by
  obtain ⟨r, hr⟩ := Option.isSome_iff_exists.1 hreq
  let u : State := { s with nelar := { s.nelar with
    requests := tset reqId { r with answer := some (code, body) } s.nelar.requests } }
  have hanswer : s.answer path reqId code body = u.sendRespTo r.path r.source
      { code := respCode code, resp := true, resent := false, reqId := reqId, body := body } := by
    rw [State.answer, hr]
  have hsends := (State.Sends.refl u).sendRespTo (path := r.path) (src := r.source)
    (m := { code := respCode code, resp := true, resent := false, reqId := reqId, body := body }) (respCode_ne_stream hc)
  rw [hanswer]
  refine ⟨hsends.frame.trans rfl, ?_⟩
  rw [hsends.requests, tget_tset_self]
  rfl

theorem State.Replies.freshen {s t : State} {reqId code : Nat} {body : List Byte} (h : s.Replies t reqId code body) :
    s.freshen.Replies t.freshen reqId code body :=
  ⟨by rw [h.frame]; rfl, h.held⟩

theorem statusBody_take (e : Err) (more : List Byte) : (statusBody e more).take 8 = statusBody e := by
  have hlen : (packBytes [(8, e.code), (56, 0)]).length = 8 := by
    rw [packBytes, leBytes_length]
    simp [packWidth]
  rw [statusBody, statusBody, List.append_nil, List.take_left' hlen]

/-- The status that is held for a request, whatever its response format adds. -/
theorem State.Replies.status {s t : State} {reqId code : Nat} {e : Err} {more : List Byte}
    (h : s.Replies t reqId code (statusBody e more)) :
    ((tget reqId t.nelar.requests).bind (fun r => r.answer)).map (fun a => (a.1, a.2.take 8)) = some (code, statusBody e) := by
  obtain ⟨r, hr, hanswer⟩ := Option.map_eq_some_iff.1 h.held
  rw [hr, Option.bind_some, hanswer, Option.map_some, statusBody_take]

end Sys2Proof.Machine
end

section
namespace Sys2Proof.Machine

/-! ### PART_CREATE that is refused (R36, R383) -/

/-- What a refusal leaves: the inbox without its request, the response, and one more free value drawn. -/
theorem State.Replies.frame_refused {s t : State} {h : Hdr} {code : Nat} {body : List Byte → Bool} {reqId : Nat}
    {bs : List Byte} (ht : (s.leaveInbox h code body).Replies t reqId code bs) :
    t.freshen = { s with nelar := t.nelar, out := t.out, fresh := t.freshen.fresh } := by
  rw [State.freshen, ht.frame]
  rfl

theorem exec_partCreate_refused {s : State} {h : Hdr} {b : PartCreate} (ht : Taken s h 0x10 (fun x => partCreateOf x == b))
    {e : Err} (he : s.partCreateErr b = e) (hne : e ≠ .none) :
    exec (.partCreate h b) s =
      .next ((s.leaveInbox h 0x10 (fun x => partCreateOf x == b)).answerCreate h b.partition e) := by
  have herr : (s.leaveInbox h 0x10 (fun x => partCreateOf x == b)).partCreateErr b = e := he
  refine (congrArg ok (State.request_of_taken ht ..)).trans (congrArg ok ?_)
  split
  next hnone => exact absurd (herr.symm.trans hnone) hne
  next => rw [herr]

/-- A PART_CREATE that fails a check of R383 is answered with the check's code and has no effect. -/
theorem Completes.partCreate_refused {s : State} {h : Hdr} {b : PartCreate}
    (ht : Taken s h 0x10 (fun x => partCreateOf x == b)) {e : Err} (he : s.partCreateErr b = e) (hne : e ≠ .none) :
    Completes (.partCreate h b) s (fun t =>
      ((tget h.reqId t.nelar.requests).bind (fun r => r.answer)).map (fun a => (a.1, a.2.take 8)) = some (0x10, statusBody e) ∧
        t = { s with nelar := t.nelar, out := t.out, fresh := t.fresh }) := by
  have hreq : (tget h.reqId (s.leaveInbox h 0x10 (fun x => partCreateOf x == b)).nelar.requests).isSome = true :=
    ht.2.2.2.2.1
  have hreply := State.answer_replies hreq (code := 0x10) (by decide) h.path
    (statusBody e (packBytes [(32, if e = .none then
      (s.leaveInbox h 0x10 (fun x => partCreateOf x == b)).get (R.PART_STATE_KEY_EPOCH b.partition)
      else (s.leaveInbox h 0x10 (fun x => partCreateOf x == b)).free 0), (32, 0)]))
  exact .of_next (exec_partCreate_refused ht he hne) ⟨hreply.status, hreply.frame_refused⟩

/-- A window of a request's range that lies past the table, or in the range of a live partition, is taken (R36). -/
theorem State.partTaken_of_window {s : State} {b : PartCreate} {w : Nat} (hlo : b.winFirst ≤ w)
    (hhi : w < b.winFirst + b.winCount) {p : Nat} (htaken : 65535 < w ∨
      s.get (R.PART_STATE_STATE p) ≠ 0 ∧ p ∈ tkeys s.security.parts ∧ s.get (R.PART_WINDOWS_WIN_FIRST p) ≤ w ∧
        w < s.get (R.PART_WINDOWS_WIN_FIRST p) + s.get (R.PART_WINDOWS_WIN_COUNT p)) :
    s.partTaken b = true := by
  simp only [State.partTaken, Bool.or_eq_true, Bool.and_eq_true, decide_eq_true_eq, List.any_eq_true]
  rcases htaken with hpast | ⟨hlive, hpart, hfirst, hlast⟩
  · exact .inl (.inl (.inr ⟨by omega, by omega⟩))
  · have hmem : p ∈ s.liveParts := List.mem_filter.2 ⟨hpart, by simpa using hlive⟩
    refine .inl (.inr ⟨p, hmem, .inr ?_⟩)
    simp only [overlaps, Bool.and_eq_true, decide_eq_true_eq]
    omega

/-- Settles O60: such a range fails the last check of R383. -/
theorem windowRangesDoNotOverlap : Obligations.WindowRangesDoNotOverlap := by
  unfold Obligations.WindowRangesDoNotOverlap
  intro s h b p w ht _ ⟨hformat, hbounds⟩ hdisabled ⟨hlo, hhi⟩ htaken
  refine .partCreate_refused ht ?_ (by decide)
  simp [State.partCreateErr, firstErr, hformat, hbounds, hdisabled, State.partTaken_of_window hlo hhi htaken]

end Sys2Proof.Machine
end

section
namespace Sys2Proof.Machine

/-! ### MAP_INSTALL that is answered at once (R43, R45, R79) -/

theorem State.Replies.get {s t : State} {reqId code : Nat} {bs : List Byte} (h : s.Replies t reqId code bs) (f : Fld) :
    t.get f = s.get f := by
  rw [h.frame]
  rfl

theorem exec_mapInstall {s : State} {h : Hdr} {b : MapInstall} (ht : Taken s h 0x20 (fun x => mapInstallOf x == b))
    (hformat : mapFormat b = false) :
    exec (.mapInstall h b) s =
      settled ((s.leaveInbox h 0x20 (fun x => mapInstallOf x == b)).tryInstall b h.path h.reqId) :=
  congrArg settled ((State.request_of_taken ht ..).trans (if_neg (by simp [hformat])))

theorem State.tryInstall_mapped {s : State} {b : MapInstall} (hpart : s.partErr b.partition = .none) {i : Nat} {e : PmEntry}
    (hfind : s.pmFind b.partition b.page = some (i, e)) (path : Path) (reqId : Nat) :
    s.tryInstall b path reqId =
      if e.sameAs b then s.answerInstall path reqId .none e.fpa else s.answerInstall path reqId .resource 0 := by
  rw [State.tryInstall, hpart]
  dsimp only
  rw [hfind]

/-- The state in which a full set was counted and named (R43). -/
def State.countFull (s : State) (set : Nat) : State :=
  (s.count R.XLAT_PM_FULL_COUNT).set R.XLAT_PM_FULL_LAST_SET set

theorem State.tryInstall_full {s : State} {b : MapInstall} (hpart : s.partErr b.partition = .none)
    (hfind : s.pmFind b.partition b.page = none)
    (hinstalls : s.xlat.installs.find? (fun i => i.body.partition == b.partition && i.body.page == b.page) = none)
    (hfull : 16 ≤ s.setLoad b.partition b.page) (path : Path) (reqId : Nat) :
    s.tryInstall b path reqId = (s.countFull (pmSet b.partition b.page)).answerInstall path reqId .resource 0 := by
  rw [State.tryInstall, hpart]
  dsimp only
  rw [hfind, hinstalls]
  exact if_pos hfull

theorem State.answerInstall_replies {s : State} {reqId : Nat} (hreq : (tget reqId s.nelar.requests).isSome = true) (path : Path)
    (e : Err) (fpa : Nat) : s.freshen.Replies (s.answerInstall path reqId e fpa) reqId 0x20
      (statusBody e (packBytes [(64, if e = .none then fpa else s.free 9)])) :=
  (State.answer_replies hreq (by decide) path _).freshen

/-- A MAP_INSTALL of a page that is mapped is answered by comparing it with the entry, and changes nothing (R45). -/
theorem Completes.mapInstall_mapped {s : State} {h : Hdr} {b : MapInstall}
    (ht : Taken s h 0x20 (fun x => mapInstallOf x == b)) (hformat : mapFormat b = false)
    (hpart : s.partErr b.partition = .none) {i : Nat} {e : PmEntry} (hfind : s.pmFind b.partition b.page = some (i, e)) :
    Completes (.mapInstall h b) s (fun t =>
      ((tget h.reqId t.nelar.requests).bind (fun r => r.answer)).map (fun a => (a.1, a.2.take 8)) =
        some (0x20, statusBody (if e.sameAs b then .none else .resource)) ∧
      t = { s with nelar := t.nelar, out := t.out, fresh := s.fresh + 1 }) := by
  have hreq : (tget h.reqId (s.leaveInbox h 0x20 (fun x => mapInstallOf x == b)).nelar.requests).isSome = true :=
    ht.2.2.2.2.1
  have hfin : s.home.finished = [] := ht.2.2.2.2.2
  have hexec := exec_mapInstall ht hformat
  rw [State.tryInstall_mapped (s := s.leaveInbox ..) hpart hfind] at hexec
  by_cases hsame : e.sameAs b = true
  · have hreply := State.answerInstall_replies hreq h.path .none e.fpa
    rw [if_pos hsame, settled_of_finished_nil (by rw [hreply.frame]; exact hfin)] at hexec
    rw [if_pos hsame]
    exact .of_next hexec ⟨hreply.status, hreply.frame⟩
  · have hreply := State.answerInstall_replies hreq h.path .resource 0
    rw [if_neg hsame, settled_of_finished_nil (by rw [hreply.frame]; exact hfin)] at hexec
    rw [if_neg hsame]
    exact .of_next hexec ⟨hreply.status, hreply.frame⟩

/-- The set of R42: for keys within their widths the exclusive or needs no reduction to 18 bits. -/
theorem pmSet_eq {p page : Nat} (hp : p < 4096) (hpage : page < 2 ^ 31) :
    pmSet p page = Nat.xor (Nat.xor (page % 2 ^ 18) (page / 2 ^ 18 * 2 ^ 5)) (p * 2 ^ 6) := by
  have hlow : bits page 17 0 = page % 2 ^ 18 := by simp [bits]
  have hhigh : bits page 30 18 = page / 2 ^ 18 := Nat.mod_eq_of_lt (by omega)
  have hlt : Nat.xor (Nat.xor (page % 2 ^ 18) (page / 2 ^ 18 * 2 ^ 5)) (p * 2 ^ 6) < 2 ^ 18 :=
    Nat.xor_lt_two_pow (Nat.xor_lt_two_pow (by omega) (by omega)) (by omega)
  rw [pmSet, hlow, hhigh]
  exact Nat.mod_eq_of_lt hlt

theorem State.setLoad_of_full {s : State} {p page : Nat}
    (h : ∀ w < 16, (tget (pmSet p page * 16 + w) s.xlat.pageMap).isSome = true) : 16 ≤ s.setLoad p page := by
  have hways : s.pmWays p page = 16 := List.countP_eq_length.2 (fun w hw => h w (List.mem_range.1 hw))
  rw [State.setLoad, hways]
  exact Nat.le_add_right _ _

theorem State.get_countFull_count (s : State) (set : Nat) :
    (s.countFull set).get R.XLAT_PM_FULL_COUNT = min (s.get R.XLAT_PM_FULL_COUNT + 1) (2 ^ 32 - 1) := by
  rw [State.countFull, State.get_set_ne _ _ (by decide), State.count, State.get_set_self]
  exact Nat.mod_eq_of_lt (Nat.lt_of_le_of_lt (Nat.min_le_right _ _) (by decide))

theorem State.get_countFull_lastSet (s : State) (set : Nat) :
    (s.countFull set).get R.XLAT_PM_FULL_LAST_SET = set % 2 ^ 18 :=
  State.get_set_self ..

theorem State.countFull_onlyFields (s : State) (set : Nat) :
    OnlyFields [R.XLAT_PM_FULL_COUNT, R.XLAT_PM_FULL_LAST_SET] s (s.countFull set) :=
  ((OnlyFields.refl _ s).set (by simp)).set (by simp)

/-- Settles O59: the set that R42 gives is full, so the install is refused and its set named. -/
theorem fullSetsRefuseInstalls : Obligations.FullSetsRefuseInstalls := by
  unfold Obligations.FullSetsRefuseInstalls
  intro s h b set ht _ hformat ⟨hp, hpage⟩ hpart hfind hinstalls hset hways
  rw [← pmSet_eq hp hpage] at hset
  subst hset
  have hreq : (tget h.reqId (s.leaveInbox h 0x20 (fun x => mapInstallOf x == b)).nelar.requests).isSome = true :=
    ht.2.2.2.2.1
  have hfin : s.home.finished = [] := ht.2.2.2.2.2
  have hfull := State.setLoad_of_full hways
  have hexec := exec_mapInstall ht hformat
  rw [State.tryInstall_full (s := s.leaveInbox ..) hpart hfind hinstalls hfull] at hexec
  have hreply := State.answerInstall_replies
    (s := (s.leaveInbox h 0x20 (fun x => mapInstallOf x == b)).countFull (pmSet b.partition b.page)) hreq h.path .resource 0
  refine .of_next (hexec.trans (settled_of_finished_nil ?_)) ⟨hreply.status, ?_, ?_, ?_, ?_⟩
  · exact (congrArg (fun t : State => t.home.finished) hreply.frame).trans hfin
  · exact (hreply.get _).trans (State.get_countFull_count _ _)
  · exact (hreply.get _).trans (State.get_countFull_lastSet _ _)
  · exact (State.countFull_onlyFields s _).trans (fun f _ => hreply.get f)
  · rw [hreply.frame]
    rfl

end Sys2Proof.Machine
end

section
namespace Sys2Proof.Machine

/-! ### Selectors and their results (R457) -/

theorem Path.code_injective {p q : Path} (h : p.code = q.code) : p = q := by
  cases p <;> cases q <;> simp_all [Path.code]

/-- The selector whose latch result register `reg` shows: the second word of a result goes with its first. -/
def selectorOf (reg : Nat) : Nat := if reg = 4 then 3 else if reg = 7 then 6 else reg

/-- What result register `reg` shows for the value `v` of its selector. -/
def State.resultFor (s : State) (reg v : Nat) : Nat :=
  (if reg = 0 then v else if reg = 1 then s.groupResult v else if reg = 2 then s.parserResult v
    else if reg = 3 then (s.vlogResult v).1 else if reg = 4 then (s.vlogResult v).2 else if reg = 5 then s.reachResult v
    else if reg = 6 then (s.logResult v).1 else (s.logResult v).2) % 2 ^ 64

theorem State.selected_eq (s : State) (path : Path) (reg : Nat) :
    s.selected path reg = (tget (path.code * 16 + selectorOf reg) s.nelar.selected).elim 0 (s.resultFor reg) := by
  unfold State.selected
  cases h : tget (path.code * 16 + selectorOf reg) s.nelar.selected with
  | none => rw [show tget (path.code * 16 + (if reg = 4 then 3 else if reg = 7 then 6 else reg)) s.nelar.selected = none from h]; rfl
  | some v => rw [show tget (path.code * 16 + (if reg = 4 then 3 else if reg = 7 then 6 else reg)) s.nelar.selected = some v from h]; rfl

/-- A path that wrote a selector reads the result for what it wrote. -/
theorem State.selected_latch (s : State) (path : Path) (reg v : Nat) :
    (s.latch path (selectorOf reg) v).selected path reg = s.resultFor reg (v % 2 ^ 64) := by
  rw [State.selected_eq, State.latch, tget_tset_self]
  rfl

/-- A path that did not write the selector reads what it read. -/
theorem State.selected_latch_ne (s : State) {path q : Path} (hq : q ≠ path) {reg sel : Nat} (hreg : selectorOf reg = sel)
    (hsel : sel < 16) (v : Nat) : (s.latch path sel v).selected q reg = s.selected q reg := by
  subst hreg
  have hkey : q.code * 16 + selectorOf reg ≠ path.code * 16 + selectorOf reg :=
    fun h => hq (Path.code_injective (by omega))
  rw [State.selected_eq, State.selected_eq, State.latch, tget_tset_ne hkey]
  rfl

/-- The probe's result is the latch itself, whatever the free values are. -/
theorem State.selected_probe_freshen (s : State) (path : Path) : s.freshen.selected path 0 = s.selected path 0 := by
  have hlatch (t : State) (v : Nat) : t.resultFor 0 v = v % 2 ^ 64 := congrArg (· % 2 ^ 64) (if_pos rfl)
  simp only [State.selected_eq, funext (hlatch _)]
  rfl

theorem State.whenManaged_of_manageable {s : State} (hm : s.manageable = true) (hf : s.frozen = none) (f : State → State) :
    s.whenManaged f = f s :=
  if_pos (by simp [hm, hf])

/-- The fields of a selector lie within the register's 64 bits. -/
theorem bits_mod_word (v : Nat) {hi lo : Nat} (hhi : hi < 64) : bits (v % 2 ^ 64) hi lo = bits v hi lo := by
  apply Nat.eq_of_testBit_eq
  intro i
  simp only [bits, ← Nat.shiftRight_eq_div_pow, Nat.testBit_mod_two_pow, Nat.testBit_shiftRight]
  by_cases hi' : i < hi + 1 - lo
  · simp [hi', show lo + i < 64 by omega]
  · simp [hi']

theorem bit_mod_word (v : Nat) {i : Nat} (hi : i < 64) : bit (v % 2 ^ 64) i = bit v i := by
  rw [bit_eq_testBit, bit_eq_testBit, Nat.testBit_mod_two_pow]
  simp [hi]

/-- A result whose fields fit the register is read whole. -/
theorem packNat_mod_word {fs : List (Nat × Nat)} (h : packWidth fs ≤ 64) : packNat fs % 2 ^ 64 = packNat fs :=
  Nat.mod_eq_of_lt (Nat.lt_of_lt_of_le (packNat_lt fs) (Nat.pow_le_pow_right (by decide) h))

/-! #### The result of each selector -/

/-- The probe's result is the latched value itself. -/
theorem State.probeResult_eq (s : State) {fs : List (Nat × Nat)} (h : packWidth fs ≤ 64) :
    s.resultFor 0 (packNat fs % 2 ^ 64) = packNat fs := by
  rw [packNat_mod_word h]
  exact packNat_mod_word h

theorem State.groupResult_of_some {s : State} {v : Nat} {g : Group} (hg : s.group (bits v 13 0) = some g) :
    s.resultFor 1 (v % 2 ^ 64) = packNat [(13, g.body.slots), (3, 0), (12, g.body.partition), (4, 0), (2, g.state), (2, 0),
      (4, g.generation), (8, if g.state = 2 then g.cause else 0),
      (16, (g.nextInst.map (fun (x : Nat × Nat) => x.2)).foldl Nat.max 0)] := by
  have hresult : s.resultFor 1 (v % 2 ^ 64) = s.groupResult (v % 2 ^ 64) % 2 ^ 64 := rfl
  rw [hresult, State.groupResult, bits_mod_word v (by decide), hg]
  exact packNat_mod_word (by simp [packWidth])

theorem State.parserResult_of_home {s : State} {v i : Nat} {e : PmEntry}
    (hfind : s.pmFind (bits v 42 31) (bits v 30 0) = some (i, e)) (hchip : e.chip = s.chip)
    (hdir : tget e.dirIndex s.parser.dir = none) (hmig : s.migration (bits v 42 31) (bits v 30 0) = none) :
    s.resultFor 2 (v % 2 ^ 64) = packNat [(8, 0), (1, 1), (1, 1), (1, 0), (2, 0),
      (4, ((tget (frameKey e.fpa) s.parser.heat).getD Heat.zero).hold),
      (15, ((tget (frameKey e.fpa) s.parser.heat).getD Heat.zero).topChip),
      (16, ((tget (frameKey e.fpa) s.parser.heat).getD Heat.zero).wheat),
      (16, ((tget (frameKey e.fpa) s.parser.heat).getD Heat.zero).heat)] := by
  have hresult : s.resultFor 2 (v % 2 ^ 64) = s.parserResult (v % 2 ^ 64) % 2 ^ 64 := rfl
  rw [hresult, State.parserResult, bits_mod_word v (by decide), bits_mod_word v (by decide), hfind]
  dsimp only
  rw [if_pos hchip, hdir, hmig]
  exact packNat_mod_word (by simp [packWidth])

theorem State.vlogResult_of_some {s : State} {v : Nat} {x : Violation}
    (hx : (if bit v 28 then s.security.glog else (tget (bits v 27 16) s.security.vlogs).getD [])[bits v 7 0]? = some x) :
    s.resultFor 3 (v % 2 ^ 64) = x.addr % 2 ^ 64 ∧
    s.resultFor 4 (v % 2 ^ 64) = packNat [(8, x.source), (4, x.cls), (8, x.code), (12, x.partition), (32, x.tick)] := by
  have hresult : s.vlogResult (v % 2 ^ 64) =
      (x.addr, packNat [(8, x.source), (4, x.cls), (8, x.code), (12, x.partition), (32, x.tick)]) := by
    rw [State.vlogResult, bit_mod_word v (by decide), bits_mod_word v (by decide), bits_mod_word v (by decide), hx]
  have hfirst : s.resultFor 3 (v % 2 ^ 64) = (s.vlogResult (v % 2 ^ 64)).1 % 2 ^ 64 := rfl
  have hsecond : s.resultFor 4 (v % 2 ^ 64) = (s.vlogResult (v % 2 ^ 64)).2 % 2 ^ 64 := rfl
  rw [hfirst, hsecond, hresult]
  exact ⟨rfl, packNat_mod_word (by simp [packWidth])⟩

theorem State.reachResult_of_some {s : State} {v : Nat} {r : Reach} (hr : tget (bits v 14 0) s.tele.reach = some r) :
    s.resultFor 5 (v % 2 ^ 64) = packNat [(2, r.state), (2, r.how), (28, 0), (32, r.tick)] := by
  have hresult : s.resultFor 5 (v % 2 ^ 64) = s.reachResult (v % 2 ^ 64) % 2 ^ 64 := rfl
  rw [hresult, State.reachResult, bits_mod_word v (by decide), hr]
  exact packNat_mod_word (by simp [packWidth])

theorem State.logResult_of_some {s : State} {v : Nat} {e : FaultEvent} (he : s.tele.log[bits v 9 0]? = some e) :
    s.resultFor 6 (v % 2 ^ 64) = e.addr % 2 ^ 64 ∧ s.resultFor 7 (v % 2 ^ 64) = e.res1 % 2 ^ 64 := by
  have hresult : s.logResult (v % 2 ^ 64) = (e.addr, e.res1) := by
    rw [State.logResult, bits_mod_word v (by decide), he]
  have hfirst : s.resultFor 6 (v % 2 ^ 64) = (s.logResult (v % 2 ^ 64)).1 % 2 ^ 64 := rfl
  have hsecond : s.resultFor 7 (v % 2 ^ 64) = (s.logResult (v % 2 ^ 64)).2 % 2 ^ 64 := rfl
  rw [hfirst, hsecond, hresult]
  exact ⟨rfl, rfl⟩

theorem State.probePm_of_hit {s : State} {v i : Nat} {e : PmEntry}
    (hfind : s.pmFind (bits v 42 31) (bits v 30 0) = some (i, e)) (path : Path) :
    s.probePm path v = (s.latch path 0 (packNat [(18, pmSet (bits v 42 31) (bits v 30 0)), (12, 0),
      (5, s.pmWays (bits v 42 31) (bits v 30 0)), (4, i % 16), (1, 1)])).freshen := by
  rw [State.probePm, hfind]
  rfl

/-- A managed write that latches a selector: what it shows, and that nothing else changed. -/
theorem Completes.of_latch {c : Instr} {s : State} (hm : s.manageable = true) (hf : s.frozen = none) {path : Path}
    {sel v : Nat} (hexec : exec c s = ok (s.whenManaged (fun s => s.latch path sel v))) {P : State → Prop}
    (hP : P (s.latch path sel v)) : Completes c s P :=
  .of_next (hexec.trans (congrArg ok (State.whenManaged_of_manageable hm hf _))) hP

/-- Settles O39: a selector is latched under its path's key, and a result is computed from that latch alone. -/
theorem selectorsChooseWhatResultsReturn : Obligations.SelectorsChooseWhatResultsReturn := by
  unfold Obligations.SelectorsChooseWhatResultsReturn
  refine ⟨?probe, ?group, ?parser, ?violation, ?reach, ?log⟩
  case probe =>
    intro s path q v i e hm hf hq hfind
    have hexec : exec (.xlatPmProbeWrite path v) s = ok (s.probePm path v) :=
      congrArg ok (State.whenManaged_of_manageable hm hf _)
    rw [State.probePm_of_hit hfind] at hexec
    refine .of_next hexec ⟨?_, ?_, rfl⟩
    · rw [State.selected_probe_freshen]
      exact (State.selected_latch s path 0 _).trans (State.probeResult_eq s (by simp [packWidth]))
    · rw [State.selected_probe_freshen]
      exact State.selected_latch_ne s hq rfl (by decide) _
  case group =>
    intro s path q v g hm hf hq hg
    exact .of_latch hm hf rfl ⟨(State.selected_latch s path 1 v).trans (State.groupResult_of_some hg),
      State.selected_latch_ne s hq rfl (by decide) v, rfl⟩
  case parser =>
    intro s path q v i e hm hf hq hfind hchip hdir hmig
    exact .of_latch hm hf rfl ⟨(State.selected_latch s path 2 v).trans (State.parserResult_of_home hfind hchip hdir hmig),
      State.selected_latch_ne s hq rfl (by decide) v, rfl⟩
  case violation =>
    intro s path q v x hm hf hq hx
    obtain ⟨haddr, hsays⟩ := State.vlogResult_of_some hx
    exact .of_latch hm hf rfl ⟨(State.selected_latch s path 3 v).trans haddr, (State.selected_latch s path 4 v).trans hsays,
      State.selected_latch_ne s hq rfl (by decide) v, rfl⟩
  case reach =>
    intro s path q v r hm hf hq hr
    exact .of_latch hm hf rfl ⟨(State.selected_latch s path 5 v).trans (State.reachResult_of_some hr),
      State.selected_latch_ne s hq rfl (by decide) v, rfl⟩
  case log =>
    intro s path q v e hm hf hq he
    obtain ⟨haddr, hres⟩ := State.logResult_of_some he
    exact .of_latch hm hf rfl ⟨(State.selected_latch s path 6 v).trans haddr, (State.selected_latch s path 7 v).trans hres,
      State.selected_latch_ne s hq rfl (by decide) v, rfl⟩

end Sys2Proof.Machine
end

section
namespace Sys2Proof.Machine

/-! ### A run of register writes -/

/-- Register fields written one after the other. -/
def State.writes (s : State) (ws : List (Fld × Nat)) : State := ws.foldl (fun s w => s.set w.1 w.2) s

theorem State.get_writes_ne (s : State) {ws : List (Fld × Nat)} {f : Fld} (h : f.key ∉ ws.map (fun w => w.1.key)) :
    (s.writes ws).get f = s.get f := by
  induction ws generalizing s with
  | nil => rfl
  | cons w ws ih =>
    rw [List.map_cons, List.mem_cons, not_or] at h
    exact (ih (s.set w.1 w.2) h.2).trans (State.get_set_ne s w.2 h.1)

/-- Fields of different keys that are written in a run each read back what was written to them. -/
theorem State.get_writes (s : State) {ws : List (Fld × Nat)} (hkeys : (ws.map (fun w => w.1.key)).Nodup) {f : Fld} {v : Nat}
    (hmem : (f, v) ∈ ws) : (s.writes ws).get f = v % 2 ^ f.width := by
  induction ws generalizing s with
  | nil => cases hmem
  | cons w ws ih =>
    obtain ⟨hnew, hkeys⟩ := List.nodup_cons.1 hkeys
    rcases List.mem_cons.1 hmem with rfl | hmem
    · exact (State.get_writes_ne (s.set f v) hnew).trans (State.get_set_self s f v)
    · exact ih (s.set w.1 w.2) hkeys hmem

theorem State.writes_onlyFields (s : State) {ws : List (Fld × Nat)} {fs : List Fld} (h : ∀ w ∈ ws, w.1 ∈ fs) :
    OnlyFields fs s (s.writes ws) := by
  intro f hf
  refine State.get_writes_ne s (fun hmem => ?_)
  obtain ⟨w, hw, hkey⟩ := List.mem_map.1 hmem
  exact hf w.1 (h w hw) hkey.symm

/-! ### PART_CREATE that is carried out (R383) -/

/-- What PART_CREATE writes to registers. -/
def State.createWrites (s : State) (b : PartCreate) : List (Fld × Nat) :=
  let p := b.partition
  [(R.PART_STATE_KEY_EPOCH p, s.get (R.PART_STATE_KEY_EPOCH p) + 1), (R.PART_STATE_TC p, b.tc),
    (R.PART_QUEUES_QUEUE_FIRST p, b.queueFirst), (R.PART_QUEUES_QUEUE_COUNT p, b.queueCount),
    (R.PART_COUNTERS_CTR_FIRST p, b.ctrFirst), (R.PART_COUNTERS_CTR_COUNT p, b.ctrCount),
    (R.PART_WINDOWS_WIN_FIRST p, b.winFirst), (R.PART_WINDOWS_WIN_COUNT p, b.winCount),
    (R.CONJ_PART_QUOTA p, b.slotQuota), (R.CONJ_PART_SPILL_QUOTA p, b.spillQuota),
    (R.PART_MEM_QUOTA_NEAR_QUOTA p, b.nearQuota), (R.PART_MEM_QUOTA_FAR_QUOTA p, b.farQuota),
    (R.PART_OUTSTANDING_QUOTA p, b.outstanding), (R.XLAT_TENSE_TENSE p, 0), (R.PWR_ENERGY_NJ p, 0),
    (R.PART_VLOG_ENTRIES p, 0), (R.PART_VLOG_COUNT p, 0), (R.PART_STATE_STATE p, 1)]

theorem State.createWrites_nodup (s : State) {b : PartCreate} (hp : b.partition < 4096) :
    ((s.createWrites b).map (fun w => w.1.key)).Nodup := by
  simp only [State.createWrites, List.map_cons, List.map_nil, R.PART_STATE_KEY_EPOCH, R.PART_STATE_TC,
    R.PART_QUEUES_QUEUE_FIRST, R.PART_QUEUES_QUEUE_COUNT, R.PART_COUNTERS_CTR_FIRST, R.PART_COUNTERS_CTR_COUNT,
    R.PART_WINDOWS_WIN_FIRST, R.PART_WINDOWS_WIN_COUNT, R.CONJ_PART_QUOTA, R.CONJ_PART_SPILL_QUOTA,
    R.PART_MEM_QUOTA_NEAR_QUOTA, R.PART_MEM_QUOTA_FAR_QUOTA, R.PART_OUTSTANDING_QUOTA, R.XLAT_TENSE_TENSE, R.PWR_ENERGY_NJ,
    R.PART_VLOG_ENTRIES, R.PART_VLOG_COUNT, R.PART_STATE_STATE, List.nodup_cons, List.mem_cons, List.not_mem_nil,
    or_false, not_or, not_false_eq_true, List.nodup_nil, and_true]
  omega

theorem State.set_frame (s : State) (f : Fld) (v : Nat) : s.set f v = { s with regs := rset s.regs f v } := rfl

theorem State.createPart_regs (s : State) (b : PartCreate) : (s.createPart b).regs = (s.writes (s.createWrites b)).regs := by
  simp only [State.createPart, State.setRanges, State.zeroCounters, State.wrap, State.writes, State.createWrites, List.foldl,
    State.set_regs, State.get_eq]

theorem State.createPart_frame (s : State) (b : PartCreate) :
    s.createPart b =
      { s with regs := (s.createPart b).regs,
               security := { s.security with
                 parts := tset b.partition { body := b, keys := PartKeys.derive (leBytes 32 (Config.partitionKey s.security.keysDrawn)),
                                             drainedOnce := false, drains := [], warmup := 0 } s.security.parts,
                 vlogs := terase b.partition s.security.vlogs, keysDrawn := s.security.keysDrawn + 1 },
               work := { s.work with
                 counters := s.work.counters.filter (fun c => !(decide (b.ctrFirst ≤ c.1) && decide (c.1 < b.ctrFirst + b.ctrCount))) },
               power := { s.power with fractions := terase b.partition s.power.fractions } } := by
  simp only [State.createPart, State.setRanges, State.zeroCounters, State.wrap, State.set_frame]

theorem State.get_createPart (s : State) (b : PartCreate) (f : Fld) :
    (s.createPart b).get f = (s.writes (s.createWrites b)).get f := by
  rw [State.get_eq, State.get_eq, State.createPart_regs]

theorem State.get_createPart_of_mem (s : State) {b : PartCreate} (hp : b.partition < 4096) {f : Fld} {v : Nat}
    (hmem : (f, v) ∈ s.createWrites b) : (s.createPart b).get f = v % 2 ^ f.width :=
  (s.get_createPart b f).trans (State.get_writes s (s.createWrites_nodup hp) hmem)

theorem State.createPart_onlyFields (s : State) (b : PartCreate) :
    OnlyFields [R.PWR_ENERGY_NJ b.partition, R.PART_STATE_STATE b.partition, R.PART_STATE_KEY_EPOCH b.partition,
      R.PART_STATE_TC b.partition, R.PART_QUEUES_QUEUE_FIRST b.partition, R.PART_QUEUES_QUEUE_COUNT b.partition,
      R.PART_COUNTERS_CTR_FIRST b.partition, R.PART_COUNTERS_CTR_COUNT b.partition, R.PART_WINDOWS_WIN_FIRST b.partition,
      R.PART_WINDOWS_WIN_COUNT b.partition, R.CONJ_PART_QUOTA b.partition, R.CONJ_PART_SPILL_QUOTA b.partition,
      R.PART_MEM_QUOTA_NEAR_QUOTA b.partition, R.PART_MEM_QUOTA_FAR_QUOTA b.partition, R.PART_OUTSTANDING_QUOTA b.partition,
      R.XLAT_TENSE_TENSE b.partition, R.PART_VLOG_ENTRIES b.partition, R.PART_VLOG_COUNT b.partition]
      s (s.createPart b) := by
  have hwrites : ∀ w ∈ s.createWrites b, w.1 ∈ [R.PWR_ENERGY_NJ b.partition, R.PART_STATE_STATE b.partition,
      R.PART_STATE_KEY_EPOCH b.partition, R.PART_STATE_TC b.partition, R.PART_QUEUES_QUEUE_FIRST b.partition,
      R.PART_QUEUES_QUEUE_COUNT b.partition, R.PART_COUNTERS_CTR_FIRST b.partition, R.PART_COUNTERS_CTR_COUNT b.partition,
      R.PART_WINDOWS_WIN_FIRST b.partition, R.PART_WINDOWS_WIN_COUNT b.partition, R.CONJ_PART_QUOTA b.partition,
      R.CONJ_PART_SPILL_QUOTA b.partition, R.PART_MEM_QUOTA_NEAR_QUOTA b.partition, R.PART_MEM_QUOTA_FAR_QUOTA b.partition,
      R.PART_OUTSTANDING_QUOTA b.partition, R.XLAT_TENSE_TENSE b.partition, R.PART_VLOG_ENTRIES b.partition,
      R.PART_VLOG_COUNT b.partition] := by
    simp [State.createWrites]
  exact fun f hf => (s.get_createPart b f).trans (State.writes_onlyFields s hwrites f hf)

/-- The counters of the new partition's range are 0; those of other ranges stay (R165). -/
theorem State.counter_createPart (s : State) (b : PartCreate) (n : Nat) :
    (s.createPart b).counter n = if b.ctrFirst ≤ n ∧ n < b.ctrFirst + b.ctrCount then 0 else s.counter n := by
  rw [State.counter, State.createPart_frame]
  dsimp only
  rw [tget_filter (fun n => !(decide (b.ctrFirst ≤ n) && decide (n < b.ctrFirst + b.ctrCount)))]
  by_cases hrange : b.ctrFirst ≤ n ∧ n < b.ctrFirst + b.ctrCount
  · rw [if_pos hrange, if_neg (by simpa using hrange)]
    rfl
  · rw [if_neg hrange, if_pos (by simp; omega)]
    rfl

theorem exec_partCreate {s : State} {h : Hdr} {b : PartCreate} (ht : Taken s h 0x10 (fun x => partCreateOf x == b))
    (he : s.partCreateErr b = .none) :
    exec (.partCreate h b) s =
      .next (((s.leaveInbox h 0x10 (fun x => partCreateOf x == b)).createPart b).answerCreate h b.partition .none) := by
  have herr : (s.leaveInbox h 0x10 (fun x => partCreateOf x == b)).partCreateErr b = .none := he
  refine (congrArg ok (State.request_of_taken ht ..)).trans (congrArg ok ?_)
  rw [herr]

/-- What answering the creation keeps: it draws a free value and sends, no more. -/
theorem State.answerCreate_replies {s : State} {h : Hdr} (hreq : (tget h.reqId s.nelar.requests).isSome = true) (p : Nat) :
    s.freshen.Replies (s.answerCreate h p .none) h.reqId 0x10
      (statusBody .none (packBytes [(32, s.get (R.PART_STATE_KEY_EPOCH p)), (32, 0)])) :=
  (State.answer_replies hreq (by decide) h.path _).freshen

/-- A PART_CREATE that passes its checks (R383). -/
theorem Completes.partCreate {s : State} {h : Hdr} {b : PartCreate} (ht : Taken s h 0x10 (fun x => partCreateOf x == b))
    (he : s.partCreateErr b = .none) {P : State → Prop}
    (hP : ∀ t : State, (∀ f, t.get f = (s.createPart b).get f) → 
      Replied t h 0x10 .none (packBytes [(32, t.get (R.PART_STATE_KEY_EPOCH b.partition)), (32, 0)]) →
      t = { s.createPart b with nelar := t.nelar, out := t.out, fresh := t.fresh } → P t) :
    Completes (.partCreate h b) s P := by
  let u := s.leaveInbox h 0x10 (fun x => partCreateOf x == b)
  have hreq : (tget h.reqId (u.createPart b).nelar.requests).isSome = true := by
    rw [State.createPart_frame]
    exact ht.2.2.2.2.1
  have hreply := State.answerCreate_replies hreq b.partition
  have hget : ∀ f, ((u.createPart b).answerCreate h b.partition .none).get f = (s.createPart b).get f := by
    intro f
    rw [hreply.get, State.get_freshen, State.get_createPart, State.get_createPart]
    rfl
  refine .of_next (exec_partCreate ht he) (hP _ hget ?_ ?_)
  · rw [Replied, hreply.held, hreply.get, State.get_freshen]
  · rw [hreply.frame, State.createPart_frame u, State.createPart_frame s]
    rfl

end Sys2Proof.Machine
end

section
namespace Sys2Proof.Machine

/-- A request that is taken is held under its ID. -/
theorem Taken.held {s : State} {h : Hdr} {code : Nat} {body : List Byte → Bool} (ht : Taken s h code body) :
    (tget h.reqId s.nelar.requests).isSome = true := by
  obtain ⟨-, -, -, -, hheld, -⟩ := ht
  exact hheld

theorem Taken.quiet {s : State} {h : Hdr} {code : Nat} {body : List Byte → Bool} (ht : Taken s h code body) :
    s.home.finished = [] := by
  obtain ⟨-, -, -, -, -, hquiet⟩ := ht
  exact hquiet

/-! ### PART_DRAIN (R385) -/

theorem State.drainPart_of_empty {s : State} {p : Nat} (hqueues : s.partQueues p = []) (hdir : s.parser.dir = [])
    (hreplicas : s.parser.replicas.filter (fun x => x.2.partition == p) = []) :
    s.drainPart p = s.set (R.PART_STATE_STATE p) 2 := by
  have hkept : (s.set (R.PART_STATE_STATE p) 2).partQueues p = [] := by
    rw [← hqueues]
    refine List.filter_congr (fun q _ => ?_)
    rw [State.ownsQueue, State.ownsQueue, State.get_set_ne _ _ (by simp only [R.PART_STATE_STATE, R.PART_QUEUES_QUEUE_FIRST]; omega),
      State.get_set_ne _ _ (by simp only [R.PART_STATE_STATE, R.PART_QUEUES_QUEUE_COUNT]; omega)]
  have hnone : (s.set (R.PART_STATE_STATE p) 2).parser.replicas.filter (fun x => x.2.partition == p) = [] := hreplicas
  have hdirs : (s.set (R.PART_STATE_STATE p) 2).parser.dir = [] := hdir
  simp only [State.drainPart, hkept, List.foldl_nil, hnone, hdirs, List.filter_nil, List.map_nil]

theorem tmod_of_tget {α : Type} {k : Nat} {v : α} {t : Tbl α} (h : tget k t = some v) (f : α → α) :
    tmod k f t = tset k (f v) t := by
  rw [tmod, h]

/-- A PART_DRAIN in its format asks for the partition's end. -/
theorem exec_partDrain {s : State} {h : Hdr} {p : Nat} (ht : Taken s h 0x11 (fun x => partDrainOf x == (p, false))) :
    exec (.partDrain h p false) s =
      settled ((s.leaveInbox h 0x11 (fun x => partDrainOf x == (p, false))).askPartDrain h p) :=
  congrArg settled ((State.request_of_taken ht ..).trans (if_neg (by decide)))

theorem Completes.partDrain_active {s : State} {h : Hdr} {p : Nat} {r : PartRec}
    (ht : Taken s h 0x11 (fun x => partDrainOf x == (p, false))) (hstate : s.get (R.PART_STATE_STATE p) = 1)
    (hr : tget p s.security.parts = some r) (hqueues : s.partQueues p = []) (hdir : s.parser.dir = [])
    (hreplicas : s.parser.replicas.filter (fun x => x.2.partition == p) = []) :
    Completes (.partDrain h p false) s (fun t => t.get (R.PART_STATE_STATE p) = 2 ∧
      tget p t.security.parts = some { r with drains := r.drains ++ [(h.path, h.reqId)] } ∧
      t.nelar.requests = s.nelar.requests ∧
      t = { s with regs := t.regs, security := { s.security with parts := t.security.parts },
                   nelar := { s.nelar with inbox := t.nelar.inbox } } ∧
      OnlyFields [R.PART_STATE_STATE p] s t) := by
  let u := s.leaveInbox h 0x11 (fun x => partDrainOf x == (p, false))
  have hask : u.askPartDrain h p = { u.set (R.PART_STATE_STATE p) 2 with security := { s.security with
      parts := tset p { r with drains := r.drains ++ [(h.path, h.reqId)] } s.security.parts } } := by
    have hu : u.get (R.PART_STATE_STATE p) = 1 := hstate
    have hrec : tget p (u.set (R.PART_STATE_STATE p) 2).security.parts = some r := hr
    rw [State.askPartDrain, if_neg (by simp [hu]), if_pos hu, State.drainPart_of_empty (s := u) hqueues hdir hreplicas]
    dsimp only
    rw [State.modPart, tmod_of_tget hrec]
    rfl
  have hexec := (exec_partDrain ht).trans ((congrArg settled hask).trans (settled_of_finished_nil ht.quiet))
  refine .of_next hexec ⟨State.get_set_self s (R.PART_STATE_STATE p) 2, tget_tset_self .., rfl, rfl, ?_⟩
  exact fun f hf => State.get_set_ne s 2 (hf _ (List.mem_singleton_self _))

theorem Completes.partDrain_disabled {s : State} {h : Hdr} {p : Nat} {r : PartRec}
    (ht : Taken s h 0x11 (fun x => partDrainOf x == (p, false))) (hstate : s.get (R.PART_STATE_STATE p) = 0)
    (hr : tget p s.security.parts = some r) :
    Completes (.partDrain h p false) s (fun t => Replied t h 0x11 (if r.drainedOnce then .none else .partition) [] ∧
      t = { s with nelar := t.nelar, out := t.out }) := by
  let u := s.leaveInbox h 0x11 (fun x => partDrainOf x == (p, false))
  have hask : u.askPartDrain h p = u.refuse h 0x11 (if r.drainedOnce then .none else .partition) := by
    have hu : u.get (R.PART_STATE_STATE p) = 0 := hstate
    have hrec : tget p u.security.parts = some r := hr
    rw [State.askPartDrain, if_pos hu, hrec]
    rfl
  have hreply := State.answer_replies (s := u) ht.held (code := 0x11) (by decide) h.path
    (statusBody (if r.drainedOnce then .none else .partition))
  have hfin : (u.refuse h 0x11 (if r.drainedOnce then .none else .partition)).home.finished = [] :=
    (congrArg (fun t : State => t.home.finished) hreply.frame).trans ht.quiet
  have hexec := exec_partDrain ht
  rw [hask, settled_of_finished_nil hfin] at hexec
  exact .of_next hexec ⟨hreply.held, hreply.frame⟩

/-! ### Requests that are answered at once -/

theorem Completes.weightLoad_refused {s : State} {h : Hdr} {b : WeightLoad}
    (ht : Taken s h 0x14 (fun x => weightLoadOf x == b)) {e : Err} (he : s.weightErr b = e) (hne : e ≠ .none) :
    Completes (.weightLoad h b) s (fun t => Replied t h 0x14 e (leBytes 8 0) ∧ t = { s with nelar := t.nelar, out := t.out }) := by
  let u := s.leaveInbox h 0x14 (fun x => weightLoadOf x == b)
  have herr : u.weightErr b = e := he
  have hreply := State.answer_replies (s := u) ht.held (code := 0x14) (by decide) h.path (statusBody e (leBytes 8 0))
  have hfin : (u.refuseWith h 0x14 e (leBytes 8 0)).home.finished = [] :=
    (congrArg (fun t : State => t.home.finished) hreply.frame).trans ht.quiet
  have hexec : exec (.weightLoad h b) s = settled (u.refuseWith h 0x14 e (leBytes 8 0)) := by
    refine (congrArg settled (State.request_of_taken ht ..)).trans (congrArg settled ?_)
    split
    next hnone => exact absurd (herr.symm.trans hnone) hne
    next => exact congrArg (fun x => u.refuseWith h 0x14 x (leBytes 8 0)) herr
  exact .of_next (hexec.trans (settled_of_finished_nil hfin)) ⟨hreply.held, hreply.frame⟩

theorem Completes.attestReq {s : State} {h : Hdr} {nonce : List Byte} {p : Nat} {partEn : Bool}
    (ht : Taken s h 0x18 (fun x => attestOf x == (nonce, p, partEn, false))) :
    Completes (.attestReq h nonce p partEn false) s (fun t =>
      Replied t h 0x18 .none (s.report nonce (if partEn then some p else none)) ∧
      t = { s with nelar := t.nelar, out := t.out }) := by
  let u := s.leaveInbox h 0x18 (fun x => attestOf x == (nonce, p, partEn, false))
  have hreply := State.answer_replies (s := u) ht.held (code := 0x18) (by decide) h.path
    (statusBody .none (u.report nonce (if partEn then some p else none)))
  exact .of_next (congrArg ok ((State.request_of_taken ht ..).trans (if_neg (by decide)))) ⟨hreply.held, hreply.frame⟩

end Sys2Proof.Machine
end

section
namespace Sys2Proof.Machine

/-! ### What folds over a state keep -/

theorem State.foldl_keeps {α : Type} {l : List α} {f : State → α → State} {Q : State → Prop} {s : State} (h : Q s)
    (hstep : ∀ t, Q t → ∀ x ∈ l, Q (f t x)) : Q (l.foldl f s) := by
  induction l generalizing s with
  | nil => exact h
  | cons x l ih =>
    exact ih (hstep s h x (List.mem_cons_self ..)) (fun t ht y hy => hstep t ht y (List.mem_cons_of_mem _ hy))

theorem State.foldl_eq_self {α : Type} {l : List α} {f : State → α → State} {s : State} (h : ∀ x ∈ l, f s x = s) :
    l.foldl f s = s :=
  State.foldl_keeps (Q := fun t => t = s) rfl (fun t ht x hx => by rw [ht]; exact h x hx)

/-! ### Frames that return to their free lists (R245, R386) -/

/-- What freeing frames changes: the frame table, the heat of the frames and two counts of frames in use. -/
structure State.Freed (s t : State) : Prop where
  frame : t = { s with regs := t.regs, xlat := { s.xlat with frames := t.xlat.frames },
                       parser := { s.parser with heat := t.parser.heat } }
  get : ∀ f : Fld, f.key % 64 ≠ 0 → f.key % 64 ≠ 32 → t.get f = s.get f

theorem State.Freed.refl (s : State) : s.Freed s := ⟨rfl, fun _ _ _ => rfl⟩

theorem State.Freed.freeFrame {s t : State} (h : s.Freed t) (k : Nat) : s.Freed (t.freeFrame k) := by
  rw [State.freeFrame]
  cases t.frameRec k with
  | none => exact h
  | some r =>
    have hframe := h.frame
    dsimp only
    split
    · refine ⟨by rw [hframe]; rfl, fun f hzero hhalf => ?_⟩
      refine (State.get_set_ne _ _ ?_).trans (h.get f hzero hhalf)
      simp only [R.PARSER_PART_NEAR_USED]
      omega
    · refine ⟨by rw [hframe]; rfl, fun f hzero hhalf => ?_⟩
      refine (State.get_set_ne _ _ ?_).trans (h.get f hzero hhalf)
      simp only [R.PART_FAR_USED_USED]
      omega

/-! ### PARTITION_DISABLED (R386) -/

theorem State.clearMaps_local {s : State} {p : Nat}
    (h : s.xlat.pageMap.all (fun e => decide (e.2.partition = p → e.2.chip = s.chip)) = true) :
    s.clearMaps p = { s with xlat := { s.xlat with
      pageMap := s.xlat.pageMap.filter (fun e => e.2.partition != p),
      windows := s.xlat.windows.filter (fun w => w.2.partition != p) } } := by
  refine State.foldl_eq_self (fun e he => if_pos ?_)
  obtain ⟨hmem, hpart⟩ := List.mem_filter.1 he
  exact of_decide_eq_true (List.all_eq_true.1 h e hmem) (eq_of_beq hpart)

theorem State.clearFrames_freed (s : State) (p : Nat) :
    State.Freed { s with parser := { s.parser with
      dir := s.parser.dir.filter (fun (d : Nat × DirRec) => d.2.partition != p),
      replicas := s.parser.replicas.filter (fun (r : Nat × Replica) => r.2.partition != p),
      holding := s.parser.holding.filter (fun x => x.1 != p),
      chosen := s.parser.chosen.filter (fun m => m.partition != p) } } (s.clearFrames p) :=
  State.foldl_keeps (.refl _) (fun _ ht k _ => ht.freeFrame k)

theorem State.makeWaiting_of_nil {s : State} (h : s.work.clauses = []) : s.makeWaiting = s := by
  rw [State.makeWaiting, h]
  rfl

theorem State.clearRecords_of_nil {s : State} (hgroups : s.coll.groups = []) (hclauses : s.work.clauses = []) (p : Nat) :
    s.clearRecords p = { s with xlat := { s.xlat with
      faults := s.xlat.faults.filter (fun f => f.partition != p),
      openBatch := s.xlat.openBatch.filter (fun f => f.partition != p) } } := by
  rw [State.clearRecords, hgroups]
  exact State.makeWaiting_of_nil hclauses

/-- One step of clearing PASID entries. -/
def State.clearPasid (s : State) (p k : Nat) : State :=
  if k % 8192 < 4096 ∧ s.get (R.EDGE_PASID_PARTITION (k / 8192) (k % 8192)) = p
  then s.set (R.EDGE_PASID_VALID (k / 8192) (k % 8192)) 0 else s

/-- The places among the PASID entries at which a bit is 1, in the order of the register table. -/
def State.pasidPlaces (s : State) : List Nat :=
  (s.regs.filter (fun r => decide ((R.EDGE_PASID_VALID 0 0).key ≤ r.1) && decide (r.1 ≤ (R.EDGE_PASID_VALID 31 4095).key) &&
    (r.1 - (R.EDGE_PASID_VALID 0 0).key) % 64 == 0 && r.2 == 1)).map (fun r => (r.1 - (R.EDGE_PASID_VALID 0 0).key) / 64 / 8)

theorem State.clearPasids_eq (s : State) (p : Nat) : s.clearPasids p = s.pasidPlaces.foldl (fun s k => s.clearPasid p k) s := rfl

/-- What clearing PASID entries changes: VALID bits, and those only to 0. -/
structure State.PasidsCleared (s t : State) : Prop where
  frame : t = { s with regs := t.regs }
  get : ∀ f : Fld, f.key % 64 ≠ 31 → t.get f = s.get f
  valid : ∀ i j, t.get (R.EDGE_PASID_VALID i j) = s.get (R.EDGE_PASID_VALID i j) ∨ t.get (R.EDGE_PASID_VALID i j) = 0

theorem State.PasidsCleared.clearPasid {s t : State} (h : s.PasidsCleared t) (p k : Nat) : s.PasidsCleared (t.clearPasid p k) := by
  unfold State.clearPasid
  split
  · refine ⟨by rw [h.frame]; rfl, fun f hf => ?_, fun i j => ?_⟩
    · refine (State.get_set_ne _ _ ?_).trans (h.get f hf)
      simp only [R.EDGE_PASID_VALID]
      omega
    · by_cases hkey : (R.EDGE_PASID_VALID i j).key = (R.EDGE_PASID_VALID (k / 8192) (k % 8192)).key
      · refine .inr ?_
        rw [show R.EDGE_PASID_VALID i j = R.EDGE_PASID_VALID (k / 8192) (k % 8192) from
          congrArg (fun key => (⟨key, 1, 0⟩ : Fld)) hkey]
        exact State.get_set_self ..
      · rw [State.get_set_ne _ _ hkey]
        exact h.valid i j
  · exact h

theorem State.clearPasids_cleared (s : State) (p : Nat) : s.PasidsCleared (s.clearPasids p) := by
  rw [State.clearPasids_eq]
  exact State.foldl_keeps ⟨rfl, fun _ _ => rfl, fun _ _ => .inl rfl⟩ (fun _ ht k _ => ht.clearPasid p k)

theorem State.mem_pasidPlaces {s : State} {i j : Nat} (hi : i < 32) (hj : j < 4096) (h : s.get (R.EDGE_PASID_VALID i j) = 1) :
    8192 * i + j ∈ s.pasidPlaces := by
  have hget : tget (R.EDGE_PASID_VALID i j).key s.regs = some 1 := by
    rw [State.get] at h
    cases hreg : tget (R.EDGE_PASID_VALID i j).key s.regs with
    | none => rw [hreg] at h; cases h
    | some v => rw [hreg] at h; exact congrArg some h
  refine List.mem_map.2 ⟨_, List.mem_filter.2 ⟨mem_of_tget hget, ?_⟩, ?_⟩
  · simp only [Bool.and_eq_true, decide_eq_true_eq, beq_iff_eq]
    simp only [R.EDGE_PASID_VALID, and_true]
    omega
  · simp only [R.EDGE_PASID_VALID]
    omega

/-- A PASID entry of the partition reads not valid once its place was visited. -/
theorem State.foldl_clearPasid_valid {s : State} {p i j : Nat} (hj : j < 4096) :
    ∀ {l : List Nat} {t : State}, s.PasidsCleared t → s.get (R.EDGE_PASID_PARTITION i j) = p → 8192 * i + j ∈ l →
      (l.foldl (fun t k => t.clearPasid p k) t).get (R.EDGE_PASID_VALID i j) = 0 := by
  intro l
  induction l with
  | nil => exact fun _ _ hmem => absurd hmem List.not_mem_nil
  | cons k l ih =>
    intro t ht hpart hmem
    have hnext := ht.clearPasid p k
    by_cases hrest : 8192 * i + j ∈ l
    · exact ih hnext hpart hrest
    · have hk : k = 8192 * i + j := ((List.mem_cons.1 hmem).resolve_right hrest).symm
      have hplace : k / 8192 = i ∧ k % 8192 = j := by omega
      have hzero : (t.clearPasid p k).get (R.EDGE_PASID_VALID i j) = 0 := by
        rw [State.clearPasid, hplace.1, hplace.2, if_pos ⟨hj, (ht.get _ (by simp only [R.EDGE_PASID_PARTITION]; omega)).trans hpart⟩]
        exact State.get_set_self ..
      refine State.foldl_keeps (s := t.clearPasid p k) (Q := fun u => u.get (R.EDGE_PASID_VALID i j) = 0) hzero (fun u hu m _ => ?_)
      have hclear : u.PasidsCleared (u.clearPasid p m) :=
        State.PasidsCleared.clearPasid ⟨rfl, fun _ _ => rfl, fun _ _ => .inl rfl⟩ p m
      rcases hclear.valid i j with hsame | hclr
      · exact hsame.trans hu
      · exact hclr

theorem State.clearPasids_valid {s : State} {p i j : Nat} (hi : i < 32) (hj : j < 4096)
    (hpart : s.get (R.EDGE_PASID_PARTITION i j) = p) : (s.clearPasids p).get (R.EDGE_PASID_VALID i j) ≠ 1 := by
  by_cases hvalid : s.get (R.EDGE_PASID_VALID i j) = 1
  · rw [State.clearPasids_eq, State.foldl_clearPasid_valid hj ⟨rfl, fun _ _ => rfl, fun _ _ => .inl rfl⟩ hpart
      (State.mem_pasidPlaces hi hj hvalid)]
    decide
  · rcases (s.clearPasids_cleared p).valid i j with hsame | hzero
    · rwa [hsame]
    · rw [hzero]; decide

end Sys2Proof.Machine
end

section
namespace Sys2Proof.Machine

/-! ### A partition that ends (R386) -/

/-- The state in which a partition's entries, frames, records and PASID entries are gone. -/
def State.partCleared (s : State) (p : Nat) : State := (((s.clearMaps p).clearFrames p).clearRecords p).clearPasids p

/-- What clearing a partition changes on a chip where no group and no clause is left. -/
theorem State.partCleared_frame {s : State} {p : Nat}
    (hlocal : s.xlat.pageMap.all (fun e => decide (e.2.partition = p → e.2.chip = s.chip)) = true)
    (hgroups : s.coll.groups = []) (hclauses : s.work.clauses = []) :
    s.partCleared p = { s with
      regs := (s.partCleared p).regs,
      xlat := { s.xlat with
        pageMap := s.xlat.pageMap.filter (fun e => e.2.partition != p),
        windows := s.xlat.windows.filter (fun w => w.2.partition != p),
        frames := (s.partCleared p).xlat.frames,
        faults := s.xlat.faults.filter (fun f => f.partition != p),
        openBatch := s.xlat.openBatch.filter (fun f => f.partition != p) },
      parser := { s.parser with
        dir := s.parser.dir.filter (fun d => d.2.partition != p),
        replicas := s.parser.replicas.filter (fun r => r.2.partition != p),
        holding := s.parser.holding.filter (fun x => x.1 != p),
        chosen := s.parser.chosen.filter (fun m => m.partition != p),
        heat := (s.partCleared p).parser.heat } } := by
  have hmaps := State.clearMaps_local hlocal
  have hfreed := State.clearFrames_freed (s.clearMaps p) p
  have hrecords : ((s.clearMaps p).clearFrames p).clearRecords p = _ :=
    State.clearRecords_of_nil (by rw [hfreed.frame, hmaps]; exact hgroups) (by rw [hfreed.frame, hmaps]; exact hclauses) p
  have hpasids := State.clearPasids_cleared (((s.clearMaps p).clearFrames p).clearRecords p) p
  rw [State.partCleared, hpasids.frame, hrecords, hfreed.frame, hmaps]

theorem State.partCleared_get {s : State} {p : Nat}
    (hlocal : s.xlat.pageMap.all (fun e => decide (e.2.partition = p → e.2.chip = s.chip)) = true)
    (hgroups : s.coll.groups = []) (hclauses : s.work.clauses = []) {f : Fld} (hzero : f.key % 64 ≠ 0) (hhalf : f.key % 64 ≠ 32) :
    (((s.clearMaps p).clearFrames p).clearRecords p).get f = s.get f := by
  have hmaps := State.clearMaps_local hlocal
  have hfreed := State.clearFrames_freed (s.clearMaps p) p
  rw [State.clearRecords_of_nil (by rw [hfreed.frame, hmaps]; exact hgroups) (by rw [hfreed.frame, hmaps]; exact hclauses) p]
  refine (hfreed.get f hzero hhalf).trans ?_
  rw [hmaps]
  rfl

theorem State.partCleared_valid {s : State} {p i j : Nat}
    (hlocal : s.xlat.pageMap.all (fun e => decide (e.2.partition = p → e.2.chip = s.chip)) = true)
    (hgroups : s.coll.groups = []) (hclauses : s.work.clauses = []) (hi : i < 32) (hj : j < 4096)
    (hpart : s.get (R.EDGE_PASID_PARTITION i j) = p) : (s.partCleared p).get (R.EDGE_PASID_VALID i j) ≠ 1 := by
  refine State.clearPasids_valid hi hj ?_
  rw [State.partCleared_get hlocal hgroups hclauses]
  · exact hpart
  all_goals simp only [R.EDGE_PASID_PARTITION]; omega

/-- What the end of a partition writes to registers of its own: its quotas, and DISABLED. -/
def disableWrites (p : Nat) : List (Fld × Nat) :=
  [(R.CONJ_PART_QUOTA p, 0), (R.CONJ_PART_SPILL_QUOTA p, 0), (R.PART_MEM_QUOTA_NEAR_QUOTA p, 0),
    (R.PART_MEM_QUOTA_FAR_QUOTA p, 0), (R.PART_OUTSTANDING_QUOTA p, 0), (R.PART_STATE_STATE p, 0)]

theorem disableWrites_nodup {p : Nat} (hp : p < 4096) : ((disableWrites p).map (fun w => w.1.key)).Nodup := by
  simp only [disableWrites, List.map_cons, List.map_nil, R.CONJ_PART_QUOTA, R.CONJ_PART_SPILL_QUOTA,
    R.PART_MEM_QUOTA_NEAR_QUOTA, R.PART_MEM_QUOTA_FAR_QUOTA, R.PART_OUTSTANDING_QUOTA, R.PART_STATE_STATE,
    List.nodup_cons, List.mem_cons, List.not_mem_nil, or_false, not_or, not_false_eq_true, List.nodup_nil, and_true]
  omega

theorem State.writes_frame (s : State) (ws : List (Fld × Nat)) : s.writes ws = { s with regs := (s.writes ws).regs } :=
  State.foldl_keeps (Q := fun t => t = { s with regs := t.regs }) rfl (fun t ht w _ => by rw [ht]; rfl)

/-- The state in which the partition reads DISABLED and its keys are gone, before its drains are answered. -/
def State.partEnded (s : State) (p : Nat) : State :=
  let u := (s.partCleared p).clearQuotas p
  ((u.zeroCounters (u.get (R.PART_COUNTERS_CTR_FIRST p)) (u.get (R.PART_COUNTERS_CTR_COUNT p))).set (R.PART_STATE_STATE p) 0).modPart p
    (fun r => { r with keys := PartKeys.none, drainedOnce := true, drains := [] })

theorem State.disablePart_eq {s : State} {p id : Nat} {path : Path} {r : PartRec}
    (hr : tget p s.security.parts = some { r with drains := [(path, id)] }) :
    s.disablePart p = (s.partEnded p).answer path id 0x11 (statusBody .none) := by
  simp only [State.disablePart, hr, Option.map_some, Option.getD_some, List.foldl, State.partEnded, State.partCleared]

theorem State.partEnded_regs (s : State) (p : Nat) :
    (s.partEnded p).regs = ((s.partCleared p).writes (disableWrites p)).regs := by
  simp only [State.partEnded, State.writes, disableWrites, List.foldl, State.clearQuotas, State.zeroCounters, State.modPart,
    State.set_regs]

theorem State.get_partEnded (s : State) (p : Nat) (f : Fld) :
    (s.partEnded p).get f = ((s.partCleared p).writes (disableWrites p)).get f := by
  rw [State.get_eq, State.get_eq, State.partEnded_regs]

theorem State.partEnded_frame (s : State) (p : Nat) :
    s.partEnded p = { (s.partCleared p) with
      regs := (s.partEnded p).regs,
      work := { (s.partCleared p).work with counters := (s.partEnded p).work.counters },
      security := { (s.partCleared p).security with
        parts := tmod p (fun r => { r with keys := PartKeys.none, drainedOnce := true, drains := [] }) (s.partCleared p).security.parts } } := by
  simp only [State.partEnded, State.clearQuotas, State.zeroCounters, State.modPart, State.set_frame]

/-- The partition's registers read 0 once it has ended. -/
theorem State.get_partEnded_of_mem (s : State) {p : Nat} (hp : p < 4096) {f : Fld} (hmem : (f, 0) ∈ disableWrites p) :
    (s.partEnded p).get f = 0 := by
  rw [State.get_partEnded, State.get_writes _ (disableWrites_nodup hp) hmem, Nat.zero_mod]

/-- A drained partition without transactions ends: what the final state says (R385, R386). -/
theorem Completes.partitionDisabled {s : State} {p id : Nat} {path : Path} {r : PartRec} (hlive : s.live = true)
    (hquiet : s.home.finished = []) (hp : p < 4096) (hstate : s.get (R.PART_STATE_STATE p) = 2) (hempty : s.partEmpty p = true)
    (hr : tget p s.security.parts = some { r with drains := [(path, id)] }) (hreq : (tget id s.nelar.requests).isSome = true)
    (hlocal : s.xlat.pageMap.all (fun e => decide (e.2.partition = p → e.2.chip = s.chip)) = true)
    (hgroups : s.coll.groups = []) (hclauses : s.work.clauses = []) :
    Completes (.partitionDisabled p) s (fun t =>
      t.get (R.PART_STATE_STATE p) = 0 ∧
      tget p t.security.parts = some { r with keys := PartKeys.none, drainedOnce := true, drains := [] } ∧
      (tget id t.nelar.requests).map (fun x => x.answer) = some (some (0x11, statusBody .none)) ∧
      t.xlat.pageMap = s.xlat.pageMap.filter (fun e => e.2.partition != p) ∧
      t.xlat.windows = s.xlat.windows.filter (fun e => e.2.partition != p) ∧
      t.xlat.faults = s.xlat.faults.filter (fun f => f.partition != p) ∧ t.get (R.CONJ_PART_QUOTA p) = 0 ∧
      t.get (R.PART_MEM_QUOTA_NEAR_QUOTA p) = 0 ∧ t.get (R.PART_MEM_QUOTA_FAR_QUOTA p) = 0 ∧
      t.get (R.PART_OUTSTANDING_QUOTA p) = 0 ∧
      (∀ i < 32, ∀ j < 4096, s.get (R.EDGE_PASID_PARTITION i j) = p → t.get (R.EDGE_PASID_VALID i j) ≠ 1) ∧
      t.parser.replicas = s.parser.replicas.filter (fun x => x.2.partition != p) ∧ t.mem = s.mem ∧
      t.work.clauses = s.work.clauses ∧ t.edge = s.edge ∧ t.fabric = s.fabric ∧ t.home = s.home) := by
  have hcleared := State.partCleared_frame hlocal hgroups hclauses
  have hended := s.partEnded_frame p
  have hreply := State.answer_replies (s := s.partEnded p) (by rw [hended, hcleared]; exact hreq) (code := 0x11) (by decide) path
    (statusBody .none)
  have hframe := hreply.frame
  have hexec : exec (.partitionDisabled p) s = .next ((s.partEnded p).answer path id 0x11 (statusBody .none)) := by
    refine (congrArg settled (State.whenLive_live hlive _)).trans ?_
    rw [if_pos ⟨hstate, hempty⟩, State.disablePart_eq hr, settled_of_finished_nil]
    rw [hframe, hended, hcleared]
    exact hquiet
  have hzero : ∀ f, (f, 0) ∈ disableWrites p → ((s.partEnded p).answer path id 0x11 (statusBody .none)).get f = 0 :=
    fun f hf => (hreply.get f).trans (s.get_partEnded_of_mem hp hf)
  have hparts : (s.partCleared p).security.parts = s.security.parts := by rw [hcleared]
  refine .of_next hexec ⟨hzero _ (by simp [disableWrites]), ?_, hreply.held, ?_, ?_, ?_, hzero _ (by simp [disableWrites]),
    hzero _ (by simp [disableWrites]), hzero _ (by simp [disableWrites]), hzero _ (by simp [disableWrites]), ?_, ?_, ?_, ?_, ?_,
    ?_, ?_⟩
  case refine_1 =>
    rw [hframe, hended]
    dsimp only
    rw [hparts, tmod_of_tget hr, tget_tset_self]
  case refine_5 =>
    intro i hi j hj hpart
    rw [hreply.get, State.get_partEnded, State.get_writes_ne]
    · exact State.partCleared_valid hlocal hgroups hclauses hi hj hpart
    · simp only [disableWrites, List.map_cons, List.map_nil, R.CONJ_PART_QUOTA, R.CONJ_PART_SPILL_QUOTA,
        R.PART_MEM_QUOTA_NEAR_QUOTA, R.PART_MEM_QUOTA_FAR_QUOTA, R.PART_OUTSTANDING_QUOTA, R.PART_STATE_STATE,
        R.EDGE_PASID_VALID, List.mem_cons, List.not_mem_nil, or_false, not_or]
      omega
  all_goals rw [hframe, hended, hcleared]

end Sys2Proof.Machine
end

section
namespace Sys2Proof.Machine

/-! ### The end of a direct request (R342, R446) -/

/-- Sampling a latency or a depth changes histograms, no more. -/
theorem State.sample_hists (s : State) (src v : Nat) (port partition : Option Nat) :
    ∃ hists, s.sample src v port partition = { s with tele := { s.tele with hists := hists } } := by
  unfold State.sample
  refine State.foldl_keeps (Q := fun t : State => ∃ hists, t = { s with tele := { s.tele with hists := hists } })
    ⟨s.tele.hists, rfl⟩ ?_
  rintro _ ⟨hists, rfl⟩ h _
  split
  · exact ⟨_, rfl⟩
  · exact ⟨_, rfl⟩

theorem State.edgeErr_frame (s : State) (port p addr : Nat) (e : Err) :
    s.edgeErr port p addr e = { s with regs := (s.edgeErr port p addr e).regs } := by
  simp only [State.edgeErr, State.count, State.set_frame]

theorem State.edgeErr_onlyFields (s : State) (port p addr : Nat) (e : Err) :
    OnlyFields [R.EDGE_ERR_COUNT port, R.EDGE_ERR_LAST_PART port, R.EDGE_ERR_LAST_CODE port, R.EDGE_ERR_ADDR_ADDR port]
      s (s.edgeErr port p addr e) :=
  ((((OnlyFields.refl _ s).set (by simp)).set (by simp)).set (by simp)).set (by simp)

theorem State.edgeUp_of_active {s : State} {port : Nat} (h : s.get (R.EDGE_STAT_STATE port) = 2) : s.edgeUp port = true := by
  rw [State.edgeUp, h]
  rfl

/-- A request whose port is up completes with Completer Abort when it was ended. -/
theorem State.completeDirect_aborted {s : State} {port : Nat} (hup : s.get (R.EDGE_STAT_STATE port) = 2)
    (tag p addr : Nat) (isRead : Bool) :
    s.completeDirect port tag p addr isRead .aborted [] =
      (s.edgeErr port p addr .aborted).emit (.completion port tag .abort .aborted []) := by
  have hcode : cplOf isRead .aborted = .abort := rfl
  have hstate : (s.edgeErr port p addr .aborted).get (R.EDGE_STAT_STATE port) = 2 := by
    rw [State.edgeErr_onlyFields s port p addr .aborted, hup]
    simp only [R.EDGE_STAT_STATE, R.EDGE_ERR_COUNT, R.EDGE_ERR_LAST_PART, R.EDGE_ERR_LAST_CODE, R.EDGE_ERR_ADDR_ADDR,
      List.forall_mem_cons, List.not_mem_nil, false_imp_iff, implies_true, and_true]
    omega
  simp only [State.completeDirect, hcode, reduceCtorEq, or_self, and_false, if_false, State.edgeUp_of_active hstate, Bool.not_true,
    Bool.false_eq_true]

theorem State.pumpDirects_of_nil {s : State} (h : s.edge.directs = []) : s.pumpDirects = s := by
  rw [State.pumpDirects, h]
  rfl

/-- The only direct request of the chip ends: its latency is sampled and its completion given. -/
theorem State.directDone_only {s : State} {id : Nat} {d : DirectRec} (h : s.edge.directs = [(id, d)]) (e : Err)
    (data : List Byte) : ∃ hists, s.directDone id e data =
      (({ s with edge := { s.edge with directs := [] }, tele := { s.tele with hists := hists } }).completeDirect d.port d.tag
        d.partition (s.directAddr d) d.isRead e (if e = Err.none then data else [])).pumpDirects := by
  have hget : tget id s.edge.directs = some d := by rw [h]; exact if_pos rfl
  have herase : terase id s.edge.directs = [] := by rw [h]; exact if_pos rfl
  obtain ⟨hists, hsample⟩ := State.sample_hists { s with edge := { s.edge with directs := [] } } (if d.isRead then 1 else 2)
    (s.since d.tick) (some d.port) (some d.partition)
  refine ⟨hists, ?_⟩
  have hsince : ({ s with edge := { s.edge with directs := [] } } : State).since d.tick = s.since d.tick := rfl
  simp only [State.directDone, hget, herase, hsince, hsample]
  rfl

/-! ### The drain timeout (R446) -/

/-- What is left of a partition when only one direct request is under way: nothing else of the chip waits or runs. -/
structure State.Idle (s : State) : Prop where
  clauses : s.work.clauses = []
  installs : s.xlat.installs = []
  homeFills : s.xlat.homeFills = []
  loads : s.security.loads = []
  ops : s.home.ops = []
  lockWait : s.home.lockWait = []
  farWait : s.home.farWait = []
  writeQueue : s.home.writeQueue = []
  orderWait : s.home.orderWait = []
  quietWait : s.home.quietWait = []
  writeTable : s.home.writeTable = []
  migrations : s.parser.migrations = []
  track : s.fabric.track = []
  waitTag : s.fabric.waitTag = []

/-- Nothing that a drain timeout ends stands in these lists. -/
theorem State.Idle.congr {s t : State} (h : s.Idle) (hwork : t.work = s.work) (hxlat : t.xlat = s.xlat)
    (hsecurity : t.security = s.security) (hhome : t.home = s.home) (hparser : t.parser = s.parser)
    (hfabric : t.fabric = s.fabric) : t.Idle := by
  obtain ⟨h1, h2, h3, h4, h5, h6, h7, h8, h9, h10, h11, h12, h13, h14⟩ := h
  constructor <;> simp only [hwork, hxlat, hsecurity, hhome, hparser, hfabric] <;> assumption

theorem State.Idle.abortClauses {s : State} (h : s.Idle) (p : Nat) : s.abortClauses p = s := by
  rw [State.abortClauses, h.clauses]
  rfl

theorem State.Idle.abortInstalls {s : State} (h : s.Idle) (p : Nat) : s.abortInstalls p = s := by
  simp only [State.abortInstalls, h.installs, h.homeFills, List.filter_nil, List.foldl_nil]

theorem State.Idle.waiting {s : State} (h : s.Idle) : s.home.waiting = [] := by
  simp only [Home.waiting, h.lockWait, h.farWait, h.writeQueue, h.orderWait, h.quietWait, List.append_nil]

theorem State.Idle.keepWaiting {s : State} (h : s.Idle) (f : HeldAccess → Bool) : s.keepWaiting f = s := by
  have hkept {l : List HeldAccess} (hl : l = []) : l.filter f = l := by rw [hl]; rfl
  simp only [State.keepWaiting, hkept h.lockWait, hkept h.farWait, hkept h.writeQueue, hkept h.orderWait, hkept h.quietWait]

theorem State.Idle.failSlots {s : State} (h : s.Idle) : s.failSlots = s := by
  have hstate : { s with home := { s.home with writeQueue := [] } } = s := by rw [← h.writeQueue]
  rw [State.failSlots, h.writeTable]
  exact (congrArg (fun l => l.foldl State.edgeAct { s with home := { s.home with writeQueue := [] } }) h.writeQueue).trans hstate

theorem State.Idle.pumpOrder {s : State} (h : s.Idle) : s.pumpOrder = s := by
  have hhome : { s.home with orderWait := [] } = s.home := by rw [← h.orderWait]
  simp only [State.pumpOrder, h.orderWait, List.foldl_nil, hhome]

theorem State.Idle.abortHome {s : State} (h : s.Idle) (p : Nat) : s.abortHome p = s := by
  simp only [State.abortHome, h.loads, h.ops, List.filter_nil, List.foldl_nil, h.waiting, h.keepWaiting, h.failSlots, h.pumpOrder]

theorem State.Idle.abortMoves {s : State} (h : s.Idle) (p : Nat) : s.abortMoves p = s := by
  rw [State.abortMoves, h.migrations]
  rfl

theorem State.Idle.abortTags {s : State} (h : s.Idle) (sel : Track → Bool) : s.abortTags sel = s := by
  rw [State.abortTags, h.track]
  rfl

theorem State.Idle.endWaitTags {s : State} (h : s.Idle) (p : Nat) : s.endWaitTags p = s := by
  have hfabric : { s.fabric with waitTag := [] } = s.fabric := by rw [← h.waitTag]
  simp only [State.endWaitTags, h.waitTag, List.filter_nil, List.foldl_nil, hfabric]

theorem State.logAbort_frame (s : State) (addr p : Nat) :
    s.logAbort addr p = { s with regs := (s.logAbort addr p).regs, tele := (s.logAbort addr p).tele,
                                 nelar := (s.logAbort addr p).nelar, out := (s.logAbort addr p).out } := by
  rw [State.logAbort, State.count, State.set_frame, State.logFault_frame]

theorem State.get_logAbort_aborts (s : State) (addr p : Nat) :
    (s.logAbort addr p).get R.FAULT_ECC_ABORTS = min (s.get R.FAULT_ECC_ABORTS + 1) (2 ^ R.FAULT_ECC_ABORTS.width - 1) := by
  rw [State.logAbort, State.count, State.get_set_self, State.logFault_onlyFields s _ _ _ _ R.FAULT_ECC_ABORTS (by decide)]
  exact Nat.mod_eq_of_lt (Nat.lt_of_le_of_lt (Nat.min_le_right _ _) (by decide))

theorem State.logAbort_onlyFields (s : State) (addr p : Nat) :
    OnlyFields [R.FAULT_STAT_LOG_ENTRIES, R.TELE_STAT_SEQ, R.FAULT_STAT_EVENTS_LOST, R.FAULT_ECC_ABORTS] s (s.logAbort addr p) :=
  ((State.logFault_onlyFields s 1 addr p (Err.code .aborted)).mono (by simp)).set (by simp)

theorem State.logAbort_head (s : State) (addr p : Nat) :
    (s.logAbort addr p).tele.log.head? = some (s.faultEvent 1 addr p (Err.code .aborted)) :=
  State.logFault_head s 1 addr p (Err.code .aborted)

/-- The only direct request of a draining partition is logged, counted, and completed with Completer Abort. -/
theorem State.abortDirects_only {s : State} {p id : Nat} {d : DirectRec} (h : s.edge.directs = [(id, d)]) (hp : d.partition = p)
    (hport : d.port < 32) (hup : s.get (R.EDGE_STAT_STATE d.port) = 2) :
    ∃ hists addr, s.abortDirects p =
      (State.edgeErr { s.logAbort d.addr p with
        edge := { s.edge with directs := [] }, tele := { (s.logAbort d.addr p).tele with hists := hists } }
        d.port p addr .aborted).emit (.completion d.port d.tag .abort .aborted []) := by
  have hframe := s.logAbort_frame d.addr p
  have hedge : (s.logAbort d.addr p).edge = s.edge := by rw [hframe]
  have hmine : s.edge.directs.filter (fun (x : Nat × DirectRec) => x.2.partition == p) = [(id, d)] := by
    rw [h]
    exact List.filter_cons_of_pos (beq_iff_eq.2 hp)
  obtain ⟨hists, hdone⟩ := State.directDone_only (s := s.logAbort d.addr p) (by rw [hedge]; exact h) .aborted []
  have hstate : (s.logAbort d.addr p).get (R.EDGE_STAT_STATE d.port) = 2 := by
    rw [State.logAbort_onlyFields s d.addr p, hup]
    simp only [R.EDGE_STAT_STATE, R.FAULT_STAT_LOG_ENTRIES, R.TELE_STAT_SEQ, R.FAULT_STAT_EVENTS_LOST, R.FAULT_ECC_ABORTS,
      List.forall_mem_cons, List.not_mem_nil, false_imp_iff, implies_true, and_true]
    omega
  refine ⟨hists, (s.logAbort d.addr p).directAddr d, ?_⟩
  rw [State.abortDirects, hmine, List.foldl_cons, List.foldl_nil, hdone, hedge, if_neg (by decide), hp,
    State.completeDirect_aborted]
  · refine State.pumpDirects_of_nil ?_
    rw [State.edgeErr_frame]
    rfl
  · exact hstate

theorem Completes.partitionDrainTimeout {s : State} {p id : Nat} {d : DirectRec} (hlive : s.live = true)
    (hquiet : s.home.finished = []) (hstate : s.get (R.PART_STATE_STATE p) = 2) (h : s.edge.directs = [(id, d)])
    (hp : d.partition = p) (hpart : p < 4096) (hport : d.port < 32) (hup : s.get (R.EDGE_STAT_STATE d.port) = 2) (hidle : s.Idle) :
    Completes (.partitionDrainTimeout p) s (fun t =>
      t.edge.directs = [] ∧ .completion d.port d.tag .abort .aborted [] ∈ t.out ∧
      t.get R.FAULT_ECC_ABORTS = min (s.get R.FAULT_ECC_ABORTS + 1) (2 ^ R.FAULT_ECC_ABORTS.width - 1) ∧
      t.tele.log.head?.map (fun e => (e.event, e.addr, e.partition, e.code)) = some (1, d.addr, p, 6) ∧
      t.get (R.PART_STATE_STATE p) = 2 ∧ t.mem = s.mem ∧ t.xlat = s.xlat ∧ t.security = s.security) := by
  obtain ⟨hists, addr, hdirects⟩ := State.abortDirects_only h hp hport hup
  have hlog := s.logAbort_frame d.addr p
  have herr := State.edgeErr_frame { s.logAbort d.addr p with
    edge := { s.edge with directs := [] }, tele := { (s.logAbort d.addr p).tele with hists := hists } } d.port p addr .aborted
  have hfields := State.edgeErr_onlyFields { s.logAbort d.addr p with
    edge := { s.edge with directs := [] }, tele := { (s.logAbort d.addr p).tele with hists := hists } } d.port p addr .aborted
  have hrest : (s.abortDirects p).Idle := by
    refine hidle.congr ?_ ?_ ?_ ?_ ?_ ?_ <;> rw [hdirects, State.emit, herr, hlog]
  have hexec : exec (.partitionDrainTimeout p) s = .next (s.abortDirects p) := by
    refine (congrArg settled (State.whenLive_live hlive _)).trans ?_
    simp only [if_pos hstate, hrest.abortClauses, hrest.abortInstalls, hrest.abortHome, hrest.abortMoves, hrest.abortTags,
      hrest.endWaitTags]
    refine settled_of_finished_nil ?_
    rw [hdirects, State.emit, herr, hlog]
    exact hquiet
  refine .of_next hexec ⟨?_, ?_, ?_, ?_, ?_, ?_, ?_, ?_⟩
  · rw [hdirects, State.emit, herr]
  · rw [hdirects]
    exact List.mem_append_right _ (List.mem_singleton_self _)
  · rw [hdirects, State.get_emit, hfields, ← State.get_logAbort_aborts s d.addr p]
    · rfl
    · simp only [R.FAULT_ECC_ABORTS, R.EDGE_ERR_COUNT, R.EDGE_ERR_LAST_PART, R.EDGE_ERR_LAST_CODE, R.EDGE_ERR_ADDR_ADDR,
        List.forall_mem_cons, List.not_mem_nil, false_imp_iff, implies_true, and_true]
      omega
  · have hhead : (s.abortDirects p).tele.log = (s.logAbort d.addr p).tele.log := by rw [hdirects, State.emit, herr]
    rw [hhead, State.logAbort_head]
    rfl
  · rw [hdirects, State.get_emit, hfields]
    · refine (State.logAbort_onlyFields s d.addr p _ ?_).trans hstate
      simp only [R.PART_STATE_STATE, R.FAULT_STAT_LOG_ENTRIES, R.TELE_STAT_SEQ, R.FAULT_STAT_EVENTS_LOST, R.FAULT_ECC_ABORTS,
        List.forall_mem_cons, List.not_mem_nil, false_imp_iff, implies_true, and_true]
      omega
    · simp only [R.PART_STATE_STATE, R.EDGE_ERR_COUNT, R.EDGE_ERR_LAST_PART, R.EDGE_ERR_LAST_CODE, R.EDGE_ERR_ADDR_ADDR,
        List.forall_mem_cons, List.not_mem_nil, false_imp_iff, implies_true, and_true]
      omega
  all_goals rw [hdirects, State.emit, herr, hlog]

end Sys2Proof.Machine
end

section
namespace Sys2Proof.Machine

/-! ### A request leaves for another chip (R301, R384) -/

theorem State.storeFrame_track (s : State) (x : Frame) (inPort : Nat) (out : Option (Nat × Nat)) (mlines : List Nat) :
    (s.storeFrame x inPort out mlines).fabric.track = s.fabric.track := by
  unfold State.storeFrame
  extract_lets n shared slot src s1 s2 s3 sPool s4 s5 s6
  have h2 : s2.fabric = s1.fabric := by
    unfold s2
    split <;> rfl
  have h4 : s4.fabric = s3.fabric := by
    unfold s4
    split <;> rfl
  have hcharged : s3.fabric.track = s1.fabric.track := congrArg Fabric.track h2
  have hstored : s1.fabric.track = s.fabric.track := rfl
  exact (congrArg Fabric.track h4).trans (hcharged.trans hstored)

theorem State.admitFrame_track (s : State) (x : Injection) : (s.admitFrame x).fabric.track = s.fabric.track := by
  unfold State.admitFrame
  split
  · dsimp only [State.freshen]
    exact State.storeFrame_track ..
  · dsimp only
    split <;> dsimp only [State.freshen] <;> exact State.storeFrame_track ..

/-- Putting a frame at its core port leaves the tracker alone. -/
theorem State.inject_track (s : State) (inPort : Nat) (a : Article) (payload : List Byte) (xPlane : Nat) :
    (s.inject inPort a payload xPlane).fabric.track = s.fabric.track := by
  unfold State.inject State.offerFrame
  split
  · rfl
  · split
    · rfl
    · exact State.admitFrame_track ..

theorem State.sendTagged_tracks (s : State) (f : Frame) (k : Cont) (port : Nat) :
    ∃ e : Track, e.dest = f.art.dest ∧ e.opcode = f.art.opcode ∧ e.cont = k ∧
      (s.sendTagged f k port).fabric.track = tset (firstGap 0 s.fabric.track) e s.fabric.track := by
  unfold State.sendTagged
  extract_lets a tag e src s1 s2 home
  refine ⟨e, rfl, rfl, rfl, ?_⟩
  split
  · exact State.inject_track ..
  · exact State.inject_track ..

theorem State.SwitchOnly.sendTagged (s : State) (f : Frame) (k : Cont) (port : Nat) : s.SwitchOnly (s.sendTagged f k port) := by
  unfold State.sendTagged
  extract_lets a tag e src s1 s2 home
  have h1 : s.SwitchOnly s1 := (State.SwitchOnly.refl s).update
  have h2 : s.SwitchOnly s2 := h1.set
  split
  · exact h2.update.inject
  · exact h2.inject

/-- A request that finds a tag goes out under the lowest that is free (R301). -/
theorem State.sendAct_sent {s : State} {p fpa : Nat} (h : MaySend s p fpa) (act : HomeAct) (k : Cont) (port : Nat)
    (ordered spec : Bool) :
    Sent s (s.sendAct fpa act p k port ordered spec) fpa act.request.1 k ∧
      s.SwitchOnly (s.sendAct fpa act p k port ordered spec) := by
  obtain ⟨-, hreach, hwait, hquota, htrack⟩ := h
  have hsend : ∃ f : Frame, f.art.dest = fpa ∧ f.art.opcode = act.request.1 ∧
      s.sendAct fpa act p k port ordered spec = s.sendTagged f k port := by
    refine ⟨_, ?_, ?_, (if_neg (Bool.eq_false_iff.1 hreach)).trans (if_neg ?_)⟩
    · rfl
    · rfl
    · simp [hwait, State.tagFree, State.article, hquota, htrack]
  obtain ⟨f, hdest, hop, hsend⟩ := hsend
  obtain ⟨e, hedest, heop, hcont, htracks⟩ := s.sendTagged_tracks f k port
  rw [hsend]
  refine ⟨?_, .sendTagged s f k port⟩
  rw [Sent, htracks, tget_tset_self, Option.map_some, hedest, heop, hcont, hdest, hop]

end Sys2Proof.Machine
end

section
namespace Sys2Proof.Machine

/-! ### WEIGHT_LOAD starts (R396) -/

/-- Translation does not look at the runtime's links. -/
theorem State.xlPieces_congr {s u : State} (hxlate : u.xlate = s.xlate) (hside : u.sideEffect = s.sideEffect) (p : Nat)
    (ops : List Nat) (fuel fva len : Nat) (x : Xres) : u.xlPieces p ops fuel fva len x = s.xlPieces p ops fuel fva len x := by
  induction fuel generalizing fva len x with
  | zero => rfl
  | succ fuel ih => simp only [State.xlPieces, hxlate, hside, ih]

theorem State.xlRanges_congr {s u : State} (hxlate : u.xlate = s.xlate) (hside : u.sideEffect = s.sideEffect) (p : Nat)
    (rs : List Range) : u.xlRanges p rs = s.xlRanges p rs := by
  simp only [State.xlRanges, State.xlPieces_congr hxlate hside]

/-- The first bytes of an extent are one run. -/
theorem fvaRuns_head {e : Extent} {n : Nat} (hn : n ≠ 0) (hlen : n ≤ e.len) : fvaRuns [e] 2 e.fva n = some [(e.fpa, n)] := by
  have hhere : [e].find? (fun x => decide (x.fva ≤ e.fva) && decide (e.fva < x.fva + x.len)) = some e := by
    rw [List.find?_cons_of_pos]
    simp
    omega
  have hmin : min n (e.fva + e.len - e.fva) = n := by omega
  rw [fvaRuns, if_neg hn, hhere]
  dsimp only
  rw [hmin, Nat.sub_self, Nat.sub_self]
  rfl

/-- A run within one block is one piece. -/
theorem cutRuns_block {a n : Nat} (hn : n ≠ 0) (hblock : a % 4096 + n ≤ 4096) : cutRuns [(a, n)] = [(a, n)] := by
  have hmin : min n (4096 - a % 4096) = n := by omega
  rw [cutRuns, List.flatMap_cons, List.flatMap_nil, List.append_nil]
  dsimp only
  rw [cut4k, if_neg hn]
  dsimp only
  rw [hmin, Nat.sub_self, cut4k, if_pos rfl]

/-- What a load is when it starts: nothing of its package read, no chunk written. -/
def State.newLoad (s : State) (h : Hdr) (b : WeightLoad) (es : List Extent) : Load :=
  { path := h.path, reqId := h.reqId, body := b, tense := s.tense b.partition, pkg := es, dst := [], header := [],
    key := [], base := 0, chunks := 0, cancelled := false }

theorem State.startLoad_eq {s : State} {h : Hdr} {b : WeightLoad} {es : List Extent}
    (htop : topErr [⟨b.pkgFva, b.pkgLen, [0]⟩] = none)
    (hxl : s.xlRanges b.partition [⟨b.pkgFva, b.pkgLen, [0]⟩] = { bad := none, extents := es, lacking := [] }) :
    s.startLoad h b =
      ({ s with security := { s.security with
          loads := tset (h.path.code * 2 ^ 64 + h.reqId) (s.newLoad h b es) s.security.loads } }).weightRead
        (h.path.code * 2 ^ 64 + h.reqId) 0 (s.newLoad h b es) 0 160 := by
  rw [State.startLoad, htop, hxl]
  rfl

/-- A part of a package that lies in one block of another chip is asked for by one RD. -/
theorem State.weightRead_remote {s : State} {b : WeightLoad} {e : Extent} {l : Load} (hbody : l.body = b) (hpkg : l.pkg = [e])
    (hfva : e.fva = b.pkgFva) (hlen : 160 ≤ e.len) (hblock : e.fpa % 4096 + 160 ≤ 4096)
    (hpoison : s.poisonedIn b.partition 0 b.pkgFva [(e.fpa, 160)] = false) (hreplica : s.replicaOf e.fpa = none)
    (hchip : fpaChip e.fpa ≠ s.chip) (id part : Nat) :
    s.weightRead id part l 0 160 = s.sendAct e.fpa (.read 160) b.partition (.weight id part) 137 false false := by
  have hruns : fvaRuns l.pkg (l.pkg.length + 1) (l.body.pkgFva + 0) 160 = some [(e.fpa, 160)] := by
    rw [hpkg, hbody, Nat.add_zero, ← hfva]
    exact fvaRuns_head (by decide) hlen
  rw [State.weightRead, hruns, hbody, Nat.add_zero]
  dsimp only
  rw [if_neg (Bool.eq_false_iff.1 hpoison), State.readRuns, cutRuns_block (by decide) hblock]
  dsimp only
  rw [State.issueRead, if_neg hchip, hreplica]

theorem Completes.weightLoad_started {s : State} {h : Hdr} {b : WeightLoad} {e : Extent}
    (ht : Taken s h 0x14 (fun x => weightLoadOf x == b)) (herr : s.weightErr b = .none)
    (htop : topErr [⟨b.pkgFva, b.pkgLen, [0]⟩] = none)
    (hxl : s.xlRanges b.partition [⟨b.pkgFva, b.pkgLen, [0]⟩] = { bad := none, extents := [e], lacking := [] })
    (hfva : e.fva = b.pkgFva) (hlen : 160 ≤ e.len) (hblock : e.fpa % 4096 + 160 ≤ 4096)
    (hpoison : s.poisonedIn b.partition 0 b.pkgFva [(e.fpa, 160)] = false) (hreplica : s.replicaOf e.fpa = none)
    (hsend : MaySend s b.partition e.fpa) :
    Completes (.weightLoad h b) s (fun t =>
      (tget (h.path.code * 2 ^ 64 + h.reqId) t.security.loads).map (fun l => (l.path, l.reqId, l.body, l.chunks)) =
        some (h.path, h.reqId, b, 0) ∧
      Sent s t e.fpa 1 (.weight (h.path.code * 2 ^ 64 + h.reqId) 0) ∧
      t.mem = s.mem ∧ t.xlat = s.xlat ∧ t.work = s.work ∧ t.nelar.requests = s.nelar.requests) := by
  let u := s.leaveInbox h 0x14 (fun x => weightLoadOf x == b)
  let v : State := { u with security := { s.security with
    loads := tset (h.path.code * 2 ^ 64 + h.reqId) (u.newLoad h b [e]) s.security.loads } }
  have hxlu : u.xlRanges b.partition [⟨b.pkgFva, b.pkgLen, [0]⟩] = { bad := none, extents := [e], lacking := [] } :=
    (State.xlRanges_congr (s := s) (u := u) rfl rfl _ _).trans hxl
  have hread := State.weightRead_remote (s := v) (l := u.newLoad h b [e]) rfl rfl hfva hlen hblock hpoison hreplica hsend.1
    (h.path.code * 2 ^ 64 + h.reqId) 0
  have hstart : u.startLoad h b = v.sendAct e.fpa (.read 160) b.partition (.weight (h.path.code * 2 ^ 64 + h.reqId) 0) 137
      false false := (State.startLoad_eq htop hxlu).trans hread
  have hexec : exec (.weightLoad h b) s = settled (u.startLoad h b) := by
    have hnone : u.weightErr b = .none := herr
    refine (congrArg settled (State.request_of_taken ht ..)).trans (congrArg settled ?_)
    rw [hnone]
  obtain ⟨hsent, honly⟩ := State.sendAct_sent (s := v) hsend (.read 160) (.weight (h.path.code * 2 ^ 64 + h.reqId) 0) 137 false false
  have hfin : (u.startLoad h b).home.finished = [] := by
    rw [hstart, honly.home]
    exact ht.quiet
  refine .of_next (hexec.trans (settled_of_finished_nil hfin)) ?_
  rw [hstart]
  refine ⟨?_, hsent, honly.mem, honly.xlat, honly.work, ?_⟩
  · rw [honly.security, tget_tset_self]
    rfl
  · rw [congrArg State.nelar honly]
    rfl

/-- Settles O25: a clause for each way a partition is created, drained, ended, loaded and measured. -/
theorem partitionsAreCreatedAndDisabled : Obligations.PartitionsAreCreatedAndDisabled := by
  unfold Obligations.PartitionsAreCreatedAndDisabled
  refine ⟨?create, ?refusedCreate, ?drain, ?drainDisabled, ?disabled, ?timeout, ?load, ?refusedLoad, ?attest⟩
  case create =>
    intro s h b ht _ hp herr
    refine .partCreate ht herr (fun t hget hreplied hframe => ?_)
    have hwritten {f : Fld} {v : Nat} (hmem : (f, v) ∈ s.createWrites b) : t.get f = v % 2 ^ f.width :=
      (hget f).trans (s.get_createPart_of_mem hp hmem)
    have hcounter (n : Nat) : t.counter n = (s.createPart b).counter n := by rw [hframe]; rfl
    refine ⟨hwritten (f := R.PART_STATE_STATE b.partition) (v := 1) (by simp [State.createWrites]),
      hwritten (by simp [State.createWrites]), hreplied, ?_, ?_, ?_,
      hwritten (by simp [State.createWrites]), hwritten (by simp [State.createWrites]),
      hwritten (by simp [State.createWrites]), hwritten (by simp [State.createWrites]),
      hwritten (by simp [State.createWrites]), hwritten (by simp [State.createWrites]),
      hwritten (by simp [State.createWrites]), hwritten (by simp [State.createWrites]),
      hwritten (by simp [State.createWrites]), hwritten (by simp [State.createWrites]),
      (hwritten (v := 0) (by simp [State.createWrites])).trans (Nat.zero_mod _),
      (hwritten (v := 0) (by simp [State.createWrites])).trans (Nat.zero_mod _),
      (hwritten (v := 0) (by simp [State.createWrites])).trans (Nat.zero_mod _),
      (hwritten (v := 0) (by simp [State.createWrites])).trans (Nat.zero_mod _), ?_, ?_, ?_, ?_, ?_⟩
    · rw [hframe, State.createPart_frame]
      exact tget_tset_self ..
    · rw [hframe, State.createPart_frame]
    · rw [hframe, State.createPart_frame]
      exact tget_terase_self ..
    · exact fun n hhi hlo => by rw [hcounter, State.counter_createPart, if_pos ⟨hlo, hhi⟩]
    · exact fun n hlo => by rw [hcounter, State.counter_createPart, if_neg (by omega)]
    · rw [hframe, State.createPart_frame]
    · rw [hframe, State.createPart_frame]
    · exact (s.createPart_onlyFields b).trans (fun f _ => hget f)
  case refusedCreate => exact fun s h b e ht _ he hne => .partCreate_refused ht he hne
  case drain =>
    exact fun s h p r ht _ _ hstate hr hqueues hdir hreplicas => .partDrain_active ht hstate hr hqueues hdir hreplicas
  case drainDisabled => exact fun s h p r ht _ hstate hr => .partDrain_disabled ht hstate hr
  case disabled =>
    exact fun s p id path r hlive hquiet hp hstate hempty hr hreq hlocal hgroups hclauses =>
      .partitionDisabled hlive hquiet hp hstate hempty hr hreq hlocal hgroups hclauses
  case timeout =>
    exact fun s p id d hlive hquiet hp hstate hdirects hpart hport hup hclauses hinstalls hfills hloads hops hlock hfar hwrite
      horder hquietWait htable hmoves htrack hwait =>
      .partitionDrainTimeout hlive hquiet hstate hdirects hpart hp hport hup
        { clauses := hclauses, installs := hinstalls, homeFills := hfills, loads := hloads, ops := hops, lockWait := hlock,
          farWait := hfar, writeQueue := hwrite, orderWait := horder, quietWait := hquietWait, writeTable := htable,
          migrations := hmoves, track := htrack, waitTag := hwait }
  case load =>
    exact fun s h b e ht _ herr htop hxl ⟨hfva, hlen⟩ hblock hchip hreach hpoison hreplica hwait hquota htrack =>
      .weightLoad_started ht herr htop hxl hfva hlen hblock hpoison hreplica ⟨hchip, hreach, hwait, hquota, htrack⟩
  case refusedLoad => exact fun s h b e ht _ he hne => .weightLoad_refused ht he hne
  case attest => exact fun s h nonce p partEn ht _ => .attestReq ht

end Sys2Proof.Machine
end

section
namespace Sys2Proof.Machine

/-! ### Settling: an access that completed has its effect, and nothing else was due -/

theorem State.giveParked_of_running {s : State} (h : ∀ c ∈ s.work.clauses, c.2.stage ≠ .parked) : s.giveParked = s := by
  refine State.foldl_eq_self (fun c _ => ?_)
  unfold State.giveQuiet
  split
  next k hk => exact if_neg (fun hparked => h _ (mem_of_tget hk) hparked.1)
  next => rfl

theorem State.cancelDue_of_none {s : State} (h : ∀ c ∈ s.work.clauses, c.2.cancelled = false ∨ c.2.ending.isSome = true) :
    s.cancelDue = s := by
  have hnone : s.work.clauses.filter (fun (c : Nat × Clause) => c.2.cancelled && c.2.ending.isNone) = [] := by
    refine List.filter_eq_nil_iff.2 (fun c hc => ?_)
    rcases h c hc with hlive | hended
    · simp [hlive]
    · simp [Option.isSome_iff_ne_none.1 hended]
  rw [State.cancelDue, hnone]
  rfl

theorem State.moveAll_of_none {s : State} (h : ∀ m ∈ s.parser.migrations, m.quiesce = false) : s.moveAll = s := by
  have hnone : s.parser.migrations.filter (fun m => m.quiesce) = [] :=
    List.filter_eq_nil_iff.2 (fun m hm => by simp [h m hm])
  rw [State.moveAll, hnone]
  rfl

theorem State.answerUpdates_of_nil {s : State} (h : s.parser.updates = []) : s.answerUpdates = s := by
  rw [State.answerUpdates, h]
  rfl

theorem State.settleEdges_of_none {s : State} (h : ∀ p < 32, s.get (R.EDGE_STAT_STATE p) ≠ 3) : s.settleEdges = s :=
  State.foldl_eq_self (fun p hp => if_neg (fun hdrain => h p (List.mem_range.1 hp) hdrain.1))

/-- A unit that neither drains nor is to take H, and whose clause, if it has one, runs on, stays as it is. -/
theorem State.restPtu_of_busy {s : State} {u : Nat} (hdrain : s.ptuState u ≠ 3)
    (hrun : ∀ id, (s.ptu u).running = some id → ∃ k, s.clauseAt id = some k ∧ k.ending = none)
    (hrot : s.ptuState u ≠ 2 ∨ bit (s.get R.CONJ_CTL_ROT_PTU) u = false ∨ (s.ptu u).rot = true) : s.restPtu u = s := by
  have htakesH : ¬ (s.ptuState u = 2 ∧ bit (s.get R.CONJ_CTL_ROT_PTU) u = true ∧ (!(s.ptu u).rot) = true) := by
    rintro ⟨hactive, hrotates, hnew⟩
    rcases hrot with hidle | hoff | hold
    · exact hidle hactive
    · rw [hoff] at hrotates; cases hrotates
    · rw [hold] at hnew; cases hnew
  unfold State.restPtu
  cases hr : (s.ptu u).running with
  | none => simp only [hr, Bool.false_eq_true, false_and, if_false, hdrain, htakesH, ite_self]
  | some id =>
    obtain ⟨k, hk, hopen⟩ := hrun id hr
    simp only [hr, hk, hopen, Option.isSome_none, Bool.false_eq_true, false_and, if_false, reduceCtorEq]

/-- On a calm chip nothing follows the accesses that completed. -/
theorem State.tidy_of_calm {s : State} (h : Calm s) : s.tidy = s := by
  obtain ⟨-, hclauses, hmoves, hupdates, hedges, hptus⟩ := h
  have hrest : s.restPtus = s := by
    refine State.foldl_eq_self (fun u hu => ?_)
    obtain ⟨hdrain, hrun, hrot⟩ := hptus u (List.mem_range.1 hu)
    refine State.restPtu_of_busy hdrain (fun id hid => ?_) hrot
    rw [hid] at hrun
    obtain ⟨k, hk, hopen⟩ := (Option.any_eq_true _ _).1 hrun
    exact ⟨k, hk, Option.isNone_iff_eq_none.1 hopen⟩
  rw [State.tidy, State.giveParked_of_running (fun c hc => (hclauses c hc).1),
    State.cancelDue_of_none (fun c hc => (hclauses c hc).2), State.moveAll_of_none hmoves, State.answerUpdates_of_nil hupdates,
    State.settleEdges_of_none hedges, hrest]

/-- What calm depends on: the clauses, moves, updates and PTUs, and three kinds of register fields. -/
theorem Calm.congr {s t : State} (h : Calm s) (hfin : t.home.finished = []) (hwork : t.work.clauses = s.work.clauses)
    (hmoves : t.parser.migrations = s.parser.migrations) (hupdates : t.parser.updates = s.parser.updates)
    (hptus : t.ptus = s.ptus) (hedge : ∀ p < 32, t.get (R.EDGE_STAT_STATE p) = s.get (R.EDGE_STAT_STATE p))
    (hptu : ∀ u < 4, t.get (R.PTU_STAT_STATE u) = s.get (R.PTU_STAT_STATE u))
    (hrot : t.get R.CONJ_CTL_ROT_PTU = s.get R.CONJ_CTL_ROT_PTU) : Calm t := by
  obtain ⟨-, hc, hm, hu, he, hp⟩ := h
  have hunit (u : Nat) : t.ptu u = s.ptu u := by rw [State.ptu, State.ptu, hptus]
  have hclause (id : Nat) : t.clauseAt id = s.clauseAt id := by rw [State.clauseAt, State.clauseAt, hwork]
  refine ⟨hfin, by rw [hwork]; exact hc, by rw [hmoves]; exact hm, by rw [hupdates]; exact hu, fun p hp => ?_, fun u hu => ?_⟩
  · rw [hedge p hp]
    exact he p hp
  · have hstate : t.ptuState u = s.ptuState u := hptu u hu
    have hs := hp u hu
    rw [hstate, hunit, hrot]
    simp only [hclause]
    exact hs

/-- The only completed access of a step has its effect; then the loop goes on with what that leaves. -/
theorem State.settle_single {s : State} {k : Cont} {e : Err} {data : List Byte} (h : s.home.finished = [(k, e, data)]) {t : State}
    (ht : ({ s with home := { s.home with finished := [] } }).continue k e data = t) (hfin : t.home.finished = [])
    (htidy : t.tidy.home.finished = []) : s.settle = t.tidy := by
  obtain ⟨n, hn⟩ : ∃ n, 2 ^ 20 = n + 2 := ⟨2 ^ 20 - 2, by norm_num⟩
  have hdrain : State.drain (2 ^ 20) s = t := by
    rw [hn, State.drain, h]
    dsimp only
    rw [ht, State.drain, hfin]
  rw [State.settle]
  conv_lhs => rw [hn]
  rw [State.settleLoop, if_neg (by rw [h]; exact List.cons_ne_nil _ _), hdrain, State.settleLoop_of_finished_nil htidy]

theorem settled_single_of_calm {s : State} {k : Cont} {e : Err} {data : List Byte} (h : s.home.finished = [(k, e, data)])
    {t : State} (ht : ({ s with home := { s.home with finished := [] } }).continue k e data = t) (hcalm : Calm t) :
    settled s = .next t := by
  have htidy := State.tidy_of_calm hcalm
  rw [settled, State.settle_single h ht hcalm.1 (by rw [htidy]; exact hcalm.1), htidy]

end Sys2Proof.Machine
end

section
namespace Sys2Proof.Machine

/-! ### The FPA of a frame of this chip -/

theorem fpaChip_keyFpa {chip k : Nat} (hc : chip < 2 ^ 15) (hk : k / 2 ^ 22 < 64) : fpaChip (keyFpa chip k) = chip := by
  simp only [fpaChip, keyFpa, bits]
  omega

theorem fpaUnit_keyFpa (chip : Nat) {k : Nat} (hk : k / 2 ^ 22 < 64) : fpaUnit (keyFpa chip k) = k / 2 ^ 22 := by
  simp only [fpaUnit, keyFpa, bits]
  omega

theorem frameBits_keyFpa (chip k : Nat) : bits (keyFpa chip k) 42 21 = k % 2 ^ 22 := by
  simp only [keyFpa, bits]
  omega

theorem frameKey_keyFpa (chip : Nat) {k : Nat} (hk : k / 2 ^ 22 < 64) : frameKey (keyFpa chip k) = k := by
  rw [frameKey, fpaUnit_keyFpa chip hk, frameBits_keyFpa]
  omega

theorem mkFpa_keyFpa {chip k : Nat} : mkFpa chip (k / 2 ^ 22) (k % 2 ^ 22 * 2 ^ 21) = keyFpa chip k := by
  simp only [mkFpa, keyFpa]
  omega

theorem packBytes_word {v : Nat} (h : v < 2 ^ 64) : packBytes [(64, v)] = leBytes 8 v := by
  rw [packBytes, packNat, packNat, Nat.mul_zero, Nat.add_zero, Nat.mod_eq_of_lt h]
  simp only [packWidth, Nat.add_zero, Nat.reduceDiv]

/-- A command after which no access is left to complete. -/
theorem Completes.of_settled {c : Instr} {s u : State} {P : State → Prop} (hexec : exec c s = settled u)
    (hfin : u.home.finished = []) (hP : P u) : Completes c s P :=
  .of_next (hexec.trans (settled_of_finished_nil hfin)) hP

/-! ### MAP_INSTALL that takes a frame (R45, R49, R79) -/

theorem State.resolveFault_of_none {s : State} {p page : Nat} (h : s.pendingFault p page = none) : s.resolveFault p page = s := by
  rw [State.resolveFault, h]

/-- What taking a frame changes: the frame table, and a count of its owner's frames. -/
theorem State.takeFrame_frame (s : State) (k : Nat) (r : FrameRec) :
    s.takeFrame k r = { s with regs := (s.takeFrame k r).regs, xlat := { s.xlat with frames := tset k r s.xlat.frames } } := by
  unfold State.takeFrame
  dsimp only
  split
  · rw [State.wrap, State.set_frame]
  · rw [State.wrap, State.set_frame]

theorem State.takeFrame_onlyFields (s : State) (k : Nat) (r : FrameRec) :
    OnlyFields [R.PARSER_PART_NEAR_USED r.owner, R.PART_FAR_USED_USED r.owner] s (s.takeFrame k r) :=
  .ite (.set (fun _ _ => rfl) (by simp)) (.set (fun _ _ => rfl) (by simp))

theorem State.takeFrame_chip (s : State) (k : Nat) {r : FrameRec} (hr : r.owner < 4096) : (s.takeFrame k r).chip = s.chip := by
  refine State.takeFrame_onlyFields s k r R.BOOT_POS_CHIP ?_
  simp only [R.BOOT_POS_CHIP, R.PARSER_PART_NEAR_USED, R.PART_FAR_USED_USED, List.forall_mem_cons, List.not_mem_nil,
    false_imp_iff, implies_true, and_true]
  omega

/-- The state in which an install has its frame and waits for the zero fill. -/
def State.installing (s : State) (k : Nat) (b : MapInstall) (path : Path) (reqId : Nat) : State :=
  let u := s.takeFrame k { owner := b.partition, page := b.page, use := .page }
  { u with xlat := { u.xlat with installs := u.xlat.installs ++ [newInstall b path reqId (keyFpa s.chip k) false none] } }

theorem State.tryInstall_home {s : State} {b : MapInstall} {k : Nat} {taken : Bool} (hp : b.partition < 4096)
    (hpart : s.partErr b.partition = .none)
    (hfind : s.pmFind b.partition b.page = none) (hinstalls : s.xlat.installs = []) (hload : s.setLoad b.partition b.page < 16)
    (hchip : fpaChip b.frameFpa = s.chip) (hframe : s.homeFrame b.partition b.page b.frameMode b.frameFpa false = (.none, k, taken))
    (hfault : s.pendingFault b.partition b.page = none) (path : Path) (reqId : Nat) :
    s.tryInstall b path reqId = (s.installing k b path reqId).freshen := by
  have hnone : s.xlat.installs.find? (fun i => i.body.partition == b.partition && i.body.page == b.page) = none := by
    rw [hinstalls]
    rfl
  have htaken := s.takeFrame_frame k { owner := b.partition, page := b.page, use := .page }
  have hpending : (s.takeFrame k { owner := b.partition, page := b.page, use := .page }).pendingFault b.partition b.page = none := by
    rw [State.pendingFault, htaken]
    exact hfault
  rw [State.tryInstall, hpart]
  dsimp only
  rw [hfind, hnone]
  dsimp only
  rw [if_neg (Nat.not_le.2 hload), if_pos hchip, hframe]
  dsimp only
  rw [hpending, State.takeFrame_chip s k hp]
  exact congrArg State.freshen (State.resolveFault_of_none hpending)

theorem Completes.mapInstall_home {s : State} {h : Hdr} {b : MapInstall} {k : Nat} {taken : Bool}
    (ht : Taken s h 0x20 (fun x => mapInstallOf x == b)) (hformat : mapFormat b = false) (hp : b.partition < 4096)
    (hpart : s.partErr b.partition = .none) (hfind : s.pmFind b.partition b.page = none) (hinstalls : s.xlat.installs = [])
    (hload : s.setLoad b.partition b.page < 16) (hchip : fpaChip b.frameFpa = s.chip)
    (hframe : s.homeFrame b.partition b.page b.frameMode b.frameFpa false = (.none, k, taken))
    (hfault : s.pendingFault b.partition b.page = none) :
    Completes (.mapInstall h b) s (fun t =>
      tget k t.xlat.frames = some { owner := b.partition, page := b.page, use := .page } ∧
      t.xlat.installs = [newInstall b h.path h.reqId (keyFpa s.chip k) false none] ∧ t.nelar.requests = s.nelar.requests ∧
      t.xlat.pageMap = s.xlat.pageMap ∧
      t = { s with regs := t.regs, xlat := { s.xlat with frames := t.xlat.frames, installs := t.xlat.installs },
                   nelar := { s.nelar with inbox := t.nelar.inbox }, fresh := s.fresh + 1 } ∧
      OnlyFields [R.PARSER_PART_NEAR_USED b.partition, R.PART_FAR_USED_USED b.partition] s t) := by
  let u := s.leaveInbox h 0x20 (fun x => mapInstallOf x == b)
  have htaken := u.takeFrame_frame k { owner := b.partition, page := b.page, use := .page }
  have hexec := (exec_mapInstall ht hformat).trans (congrArg settled
    (State.tryInstall_home (s := u) hp hpart hfind hinstalls hload hchip hframe hfault h.path h.reqId))
  have hframeEq : (u.installing k b h.path h.reqId).freshen =
      { s with regs := (u.takeFrame k { owner := b.partition, page := b.page, use := .page }).regs,
               xlat := { s.xlat with frames := tset k { owner := b.partition, page := b.page, use := .page } s.xlat.frames,
                                     installs := [newInstall b h.path h.reqId (keyFpa s.chip k) false none] },
               nelar := { s.nelar with inbox := u.nelar.inbox }, fresh := s.fresh + 1 } := by
    have hnil : u.xlat.installs = [] := hinstalls
    rw [State.installing, htaken]
    dsimp only
    rw [hnil]
    rfl
  rw [hframeEq] at hexec
  exact .of_settled hexec ht.quiet ⟨tget_tset_self .., rfl, rfl, rfl, rfl,
    State.takeFrame_onlyFields u k { owner := b.partition, page := b.page, use := .page }⟩

/-! ### ZERO_FILL_DONE (R357) -/

theorem State.finish_cleared {s : State} (h : s.home.finished = []) (k : Cont) (e : Err) (data : List Byte) :
    { s.finish k e data with home := { (s.finish k e data).home with finished := [] } } = s := by
  rw [← h]
  rfl

/-- An access that completes at once, on a chip that is calm after it. -/
theorem settled_finish_of_calm {s t : State} {k : Cont} {e : Err} {data : List Byte} (h : s.home.finished = [])
    (ht : s.continue k e data = t) (hcalm : Calm t) : settled (s.finish k e data) = .next t := by
  refine settled_single_of_calm (k := k) (e := e) (data := data) ?_ ?_ hcalm
  · rw [State.finish, h]
    rfl
  · rw [State.finish_cleared h]
    exact ht

theorem State.filled_of_noCopies {s : State} {fpa : Nat} {i : Install} (hinstalls : s.xlat.installs = [i])
    (hhere : i.atHome = false) (hframe : i.frameFpa = fpa) (hlines : s.tileLines (fpa / 128) 16384 = [])
    (hsharers : s.home.sharers = []) : s.filled fpa = s.finish (.zeroed fpa) .none [] := by
  have hwaiting : ¬ ((tget (frameKey fpa) s.xlat.homeFills).isNone ∧
      s.xlat.installs.all (fun i => i.atHome || i.frameFpa != fpa) = true) := by
    simp [hinstalls, hhere, hframe]
  simp only [State.filled, if_neg hwaiting, hlines, hsharers, tkeys, List.map_nil, List.filter_nil, List.append_nil,
    List.dedup_nil, State.removeLines]

/-- The entry that a completed install writes. -/
def State.entryOf (s : State) (b : MapInstall) (fpa : Nat) : PmEntry :=
  { partition := b.partition, page := b.page, chip := fpaChip fpa, unit := fpaUnit fpa, frame := bits fpa 42 21, perm := b.perm,
    pinNear := b.pinNear, pinFar := b.pinFar, pinHome := b.pinHome, noReplica := b.noReplica, staleOk := b.staleOk,
    prefer := b.prefer, installTense := s.tense b.partition,
    dirIndex := if fpaChip fpa = s.chip then (s.parser.dir.find? (fun d => d.2.frame == frameKey fpa)).elim noDir Prod.fst else 0,
    replicated := false, migrating := false, poison := false }

theorem State.writeEntry_of_way {s : State} {b : MapInstall} {w : Nat} (h : s.freeWay b.partition b.page = some w) (fpa : Nat) :
    s.writeEntry b fpa = s.setPm w (s.entryOf b fpa) := by
  rw [State.writeEntry, h]
  rfl

theorem PmEntry.fpa_entryOf {s : State} {k : Nat} (hc : s.chip < 2 ^ 15) (hk : k / 2 ^ 22 < 64) (b : MapInstall) :
    (s.entryOf b (keyFpa s.chip k)).fpa = keyFpa s.chip k := by
  rw [PmEntry.fpa, State.entryOf]
  dsimp only
  rw [fpaChip_keyFpa hc hk, fpaUnit_keyFpa _ hk, frameBits_keyFpa, mkFpa_keyFpa]

/-- The install that waited for the frame completes. -/
theorem State.frameZeroed_install {s : State} {b : MapInstall} {path : Path} {id k w : Nat}
    (hk : k / 2 ^ 22 < 64) (hfills : tget k s.xlat.homeFills = none)
    (hinstalls : s.xlat.installs = [newInstall b path id (keyFpa s.chip k) false none])
    (hway : s.freeWay b.partition b.page = some w) (hfault : s.pendingFault b.partition b.page = none) :
    s.frameZeroed (keyFpa s.chip k) =
      State.answerInstall { s.zeroFrame k with xlat := { s.xlat with
        pageMap := tset w (s.entryOf b (keyFpa s.chip k)) s.xlat.pageMap, installs := [] } } path id .none (keyFpa s.chip k) := by
  have hwaits : s.xlat.installs.find? (fun i => !i.atHome && i.frameFpa == keyFpa s.chip k) =
      some (newInstall b path id (keyFpa s.chip k) false none) := by
    rw [hinstalls]
    exact List.find?_cons_of_pos (by simp [newInstall])
  have hmine : (s.zeroFrame k).xlat.installs.find? (fun i => i.body.partition == b.partition && i.body.page == b.page) =
      some (newInstall b path id (keyFpa s.chip k) false none) := by
    refine (congrArg _ hinstalls).trans ?_
    exact List.find?_cons_of_pos (by simp [newInstall])
  have hrest : (s.zeroFrame k).xlat.installs.filter (fun i => !(i.body.partition == b.partition && i.body.page == b.page)) = [] := by
    refine (congrArg _ hinstalls).trans ?_
    exact List.filter_cons_of_neg (by simp [newInstall])
  let u : State := { s.zeroFrame k with xlat := { s.xlat with installs := [] } }
  have hwrite : u.writeEntry b (keyFpa s.chip k) = u.setPm w (u.entryOf b (keyFpa s.chip k)) :=
    State.writeEntry_of_way (s := u) hway _
  have hresolve : (u.setPm w (u.entryOf b (keyFpa s.chip k))).resolveFault b.partition b.page =
      u.setPm w (u.entryOf b (keyFpa s.chip k)) :=
    State.resolveFault_of_none (s := u.setPm w (u.entryOf b (keyFpa s.chip k))) hfault
  rw [State.frameZeroed, frameKey_keyFpa _ hk, hfills, hwaits]
  dsimp only
  rw [show (newInstall b path id (keyFpa s.chip k) false none).body = b from rfl, State.endInstall, hmine]
  dsimp only
  rw [hrest, if_pos rfl]
  exact congrArg (fun t : State => t.answerInstall path id .none (keyFpa s.chip k))
    ((congrArg (fun t : State => t.resolveFault b.partition b.page) hwrite).trans hresolve)

theorem Completes.zeroFillDone {s : State} {b : MapInstall} {path : Path} {id k w : Nat} (hlive : s.live = true) (hcalm : Calm s)
    (hlines : s.tileLines (keyFpa s.chip k / 128) 16384 = []) (hsharers : s.home.sharers = []) (hc : s.chip < 2 ^ 15)
    (hfills : tget k s.xlat.homeFills = none)
    (hinstalls : s.xlat.installs = [newInstall b path id (keyFpa s.chip k) false none]) (hk : k / 2 ^ 22 < 64)
    (hreq : (tget id s.nelar.requests).isSome = true) (hway : s.freeWay b.partition b.page = some w)
    (hfault : s.pendingFault b.partition b.page = none) :
    Completes (.zeroFillDone (keyFpa s.chip k)) s (fun t =>
      (tget w t.xlat.pageMap).map (fun e => (e.partition, e.page, e.fpa, e.perm, e.installTense, e.poison)) =
        some (b.partition, b.page, keyFpa s.chip k, b.perm, s.tense b.partition, false) ∧
      (∀ off < 2097152, memGet t.mem (k * 2 ^ 21 + off) = 0#8) ∧ (∀ a : Nat, a / 2 ^ 21 ≠ k → memGet t.mem a = memGet s.mem a) ∧
      (tget id t.nelar.requests).map (fun r => r.answer) = some (some (0x20, statusBody .none (leBytes 8 (keyFpa s.chip k)))) ∧
      t.xlat.installs = [] ∧
      t = { s with mem := t.mem, xlat := { s.xlat with pageMap := t.xlat.pageMap, installs := [] },
                   home := { s.home with poisoned := t.home.poisoned, badTags := t.home.badTags }, nelar := t.nelar, out := t.out,
                   fresh := s.fresh + 1 }) := by
  let v : State := { s.zeroFrame k with xlat := { s.xlat with
    pageMap := tset w (s.entryOf b (keyFpa s.chip k)) s.xlat.pageMap, installs := [] } }
  have hreply := State.answerInstall_replies (s := v) hreq path .none (keyFpa s.chip k)
  have hcalm' : Calm (v.answerInstall path id .none (keyFpa s.chip k)) := by
    rw [hreply.frame]
    exact hcalm.congr hcalm.1 rfl rfl rfl rfl (fun _ _ => rfl) (fun _ _ => rfl) rfl
  have hexec : exec (.zeroFillDone (keyFpa s.chip k)) s = .next (v.answerInstall path id .none (keyFpa s.chip k)) := by
    refine (congrArg settled (State.whenLive_live hlive _)).trans ?_
    rw [State.filled_of_noCopies (fpa := keyFpa s.chip k) hinstalls rfl rfl hlines hsharers]
    exact settled_finish_of_calm hcalm.1 (State.frameZeroed_install hk hfills hinstalls hway hfault) hcalm'
  have hmem (a : Nat) : memGet v.mem a = if k * 2 ^ 21 ≤ a ∧ a < k * 2 ^ 21 + 2 ^ 21 then 0#8 else memGet s.mem a := by
    have hbase : memKey (k / 2 ^ 22) (k % 2 ^ 22 * 2 ^ 21) = k * 2 ^ 21 := by
      rw [memKey]
      omega
    rw [← hbase]
    exact memGet_memClear ..
  have hword : keyFpa s.chip k < 2 ^ 64 := by
    rw [keyFpa]
    omega
  refine .of_next hexec ⟨?_, fun off hoff => ?_, fun a ha => ?_, ?_, ?_, ?_⟩
  · rw [hreply.frame]
    refine (congrArg _ (tget_tset_self w (s.entryOf b (keyFpa s.chip k)) s.xlat.pageMap)).trans ?_
    rw [Option.map_some, PmEntry.fpa_entryOf hc hk]
    rfl
  · rw [hreply.frame]
    exact (hmem _).trans (if_pos (by omega))
  · rw [hreply.frame]
    exact (hmem _).trans (if_neg (by omega))
  · rw [hreply.held, if_pos rfl, packBytes_word hword]
  · rw [hreply.frame]
    rfl
  · rw [hreply.frame]
    rfl

end Sys2Proof.Machine
end

section
namespace Sys2Proof.Machine

/-! ### The page map without some pages (R42, R65) -/

theorem State.pmFind_some {s : State} {p page i : Nat} {e : PmEntry} (h : s.pmFind p page = some (i, e)) :
    tget i s.xlat.pageMap = some e ∧ e.partition = p ∧ e.page = page := by
  obtain ⟨w, -, hw⟩ := List.exists_of_findSome?_eq_some h
  cases hentry : tget (pmSet p page * 16 + w) s.xlat.pageMap with
  | none => rw [hentry] at hw; cases hw
  | some x =>
    rw [hentry] at hw
    dsimp only at hw
    split at hw
    next hkey => cases hw; exact ⟨hentry, hkey⟩
    next => cases hw

/-- Clearing the entry of one page leaves the entries of the others. -/
theorem State.pmFind_clear {s : State} {p page q i : Nat} {e : PmEntry} (h : s.pmFind p q = some (i, e)) (hne : page ≠ q)
    (frames : Tbl FrameRec) :
    State.pmFind { s with xlat := { s.xlat with pageMap := terase i s.xlat.pageMap, frames := frames } } p page =
      s.pmFind p page := by
  obtain ⟨hentry, -, hpage⟩ := State.pmFind_some h
  unfold State.pmFind
  refine congrArg (fun f => (List.range 16).findSome? f) (funext (fun w => ?_))
  dsimp only
  by_cases hkey : pmSet p page * 16 + w = i
  · rw [hkey, tget_terase_self, hentry]
    dsimp only
    rw [if_neg (fun hmatch => hne (hmatch.2.symm.trans hpage))]
  · rw [tget_terase_ne hkey]

/-- A page without an entry. -/
def WdEntry.unmapped (page : Nat) : WdEntry := { page := page, mapped := false, frameFpa := 0, poisoned := false, dirIndex := 0 }

/-- A page with its entry as it stood. -/
def WdEntry.ofEntry (page : Nat) (e : PmEntry) : WdEntry :=
  { page := page, mapped := true, frameFpa := e.fpa, poisoned := e.poison, dirIndex := e.dirIndex }

theorem State.withdrawPage_unmapped {s : State} {p page : Nat} (h : s.pmFind p page = none) :
    s.withdrawPage p page = (s, WdEntry.unmapped page, []) := by
  rw [State.withdrawPage, h]
  rfl

theorem State.abandon_of_nil {s : State} (h : s.parser.migrations = []) (p page : Nat) : s.abandon p page = s := by
  have hnone : s.migration p page = none := by
    rw [State.migration, h]
    rfl
  rw [State.abandon, hnone]

theorem State.dropReplicas_of_nil {s : State} (h : s.parser.dir = []) (frame : Nat) : s.dropReplicas frame = s := by
  rw [State.dropReplicas, h]
  rfl

/-- A mapped page that no move and no directory record holds back leaves translation at once. -/
theorem State.withdrawPage_mapped {s : State} {p page i : Nat} {e : PmEntry} (h : s.pmFind p page = some (i, e))
    (hmoves : s.parser.migrations = []) (hdir : s.parser.dir = []) :
    ∃ frames, s.withdrawPage p page =
      ({ s with xlat := { s.xlat with pageMap := terase i s.xlat.pageMap, frames := frames } },
        WdEntry.ofEntry page e, []) := by
  by_cases hchip : e.chip = s.chip
  · refine ⟨tmod (frameKey e.fpa) (fun r => { r with use := .withheld }) s.xlat.frames, ?_⟩
    let v : State := { s with xlat := { s.xlat with
      pageMap := terase i s.xlat.pageMap,
      frames := tmod (frameKey e.fpa) (fun r => { r with use := .withheld }) s.xlat.frames } }
    have hdrop : v.dropReplicas (frameKey e.fpa) = v := State.dropReplicas_of_nil (s := v) hdir _
    have hclear : (s.clearPm i).chip = s.chip := rfl
    rw [State.withdrawPage, h]
    dsimp only
    rw [State.abandon_of_nil hmoves, hmoves, hdir, hclear, if_pos hchip, if_pos hchip]
    exact congrArg (fun t : State => (t, WdEntry.ofEntry page e, ([] : List Holder))) hdrop
  · refine ⟨s.xlat.frames, ?_⟩
    have hclear : (s.clearPm i).chip = s.chip := rfl
    rw [State.withdrawPage, h]
    dsimp only
    rw [State.abandon_of_nil hmoves, hmoves, hclear, if_neg hchip, if_neg hchip]
    rfl

/-- What withdrawing a run of pages leaves: none of them is mapped, every other page of the partition as before; the entries of
the withdrawal, one for each page, and no replica or move to wait for. -/
structure State.Withdrawn (s : State) (p first n : Nat) (r : State × List WdEntry × List Holder) : Prop where
  frame : r.1 = { s with xlat := { s.xlat with pageMap := r.1.xlat.pageMap, frames := r.1.xlat.frames } }
  gone : ∀ m < n, ((s.pmFind p (first + m)).bind (fun x => tget x.1 r.1.xlat.pageMap)) = none
  rest : ∀ page, (∀ m < n, page ≠ first + m) → r.1.pmFind p page = s.pmFind p page
  length : r.2.1.length = n
  mapped : r.2.1.countP (fun e => e.mapped) = (List.range n).countP (fun m => (s.pmFind p (first + m)).isSome)
  waits : r.2.2 = []

theorem State.withdrawRange_succ (s : State) (p first n : Nat) :
    s.withdrawRange p first (n + 1) =
      (((s.withdrawRange p first n).1.withdrawPage p (first + n)).1,
        (s.withdrawRange p first n).2.1 ++ [((s.withdrawRange p first n).1.withdrawPage p (first + n)).2.1],
        (s.withdrawRange p first n).2.2 ++ ((s.withdrawRange p first n).1.withdrawPage p (first + n)).2.2) := rfl

theorem State.withdrawRange_withdrawn {s : State} (hmoves : s.parser.migrations = []) (hdir : s.parser.dir = []) (p first n : Nat) :
    s.Withdrawn p first n (s.withdrawRange p first n) := by
  induction n with
  | zero => exact ⟨rfl, fun m hm => absurd hm (Nat.not_lt_zero m), fun _ _ => rfl, rfl, rfl, rfl⟩
  | succ n ih =>
    obtain ⟨hframe, hgone, hrest, hlength, hmapped, hwaits⟩ := ih
    have hparser : (s.withdrawRange p first n).1.parser = s.parser := by rw [hframe]
    have hlast := hrest (first + n) (fun m hm => by omega)
    rw [State.withdrawRange_succ]
    cases hfind : s.pmFind p (first + n) with
    | none =>
      rw [hfind] at hlast
      rw [State.withdrawPage_unmapped hlast, hwaits]
      refine ⟨hframe, fun m hm => ?_, fun page hpage => hrest page (fun m hm => hpage m (by omega)), ?_, ?_, rfl⟩
      · rcases Nat.lt_succ_iff_lt_or_eq.1 hm with hlt | rfl
        · exact hgone m hlt
        · rw [hfind]; rfl
      · rw [List.length_append, hlength]; rfl
      · rw [List.countP_append, hmapped, List.range_succ, List.countP_append]
        simp [hfind, WdEntry.unmapped]
    | some x =>
      obtain ⟨i, e⟩ := x
      rw [hfind] at hlast
      obtain ⟨frames, hpage⟩ := State.withdrawPage_mapped hlast (by rw [hparser]; exact hmoves) (by rw [hparser]; exact hdir)
      rw [hpage, hwaits]
      refine ⟨by dsimp only; rw [hframe], fun m hm => ?_, fun page hpages => ?_, ?_, ?_, rfl⟩
      · rcases Nat.lt_succ_iff_lt_or_eq.1 hm with hlt | rfl
        · cases hm' : s.pmFind p (first + m) with
          | none => rfl
          | some y =>
            have hy := hgone m hlt
            rw [hm'] at hy
            dsimp only [Option.bind_some] at hy ⊢
            by_cases hkey : y.1 = i
            · rw [hkey, tget_terase_self]
            · rw [tget_terase_ne hkey, hy]
        · rw [hfind]
          exact tget_terase_self ..
      · refine (State.pmFind_clear hlast (hpages n (Nat.lt_succ_self n)) frames).trans ?_
        exact hrest page (fun m hm => hpages m (by omega))
      · rw [List.length_append, hlength]; rfl
      · rw [List.countP_append, hmapped, List.range_succ, List.countP_append]
        simp [hfind, WdEntry.ofEntry]

/-! ### A withdrawal that is accepted (R63, R65, R66) -/

/-- A hold set of direct requests alone cancels nothing. -/
theorem State.openWithdrawal_of_directs (s : State) {w : Withdrawal} (h : ∀ x ∈ w.hold, ∃ id, x = Holder.direct id) :
    s.openWithdrawal w = { s with xlat := { s.xlat with withdrawals := s.xlat.withdrawals ++ [w] } } := by
  rw [State.openWithdrawal]
  refine ite_eq_right_iff.2 (fun _ => State.foldl_eq_self (fun x hx => ?_))
  obtain ⟨id, rfl⟩ := h x hx
  rfl

theorem State.holders_directs {s : State} (hclauses : s.work.clauses = []) (hloads : s.security.loads = []) (p lo hi : Nat) :
    ∀ x ∈ s.holders p lo hi, ∃ id, x = Holder.direct id := by
  intro x hx
  rw [State.holders, hclauses, hloads, List.filterMap_nil, List.filterMap_nil, List.nil_append, List.append_nil] at hx
  obtain ⟨d, -, hd⟩ := List.mem_filterMap.1 hx
  split at hd
  next => exact ⟨d.1, (Option.some.inj hd).symm⟩
  next => cases hd

/-- The state in which the tense of a partition has advanced and one more withdrawal is pending. -/
def State.tensed (s : State) (p : Nat) : State := (s.wrap (R.XLAT_TENSE_TENSE p)).wrap (R.XLAT_TENSE_PENDING_WD p)

theorem State.tensed_frame (s : State) (p : Nat) : s.tensed p = { s with regs := (s.tensed p).regs } := by
  simp only [State.tensed, State.wrap, State.set_frame]

theorem State.tensed_onlyFields (s : State) (p : Nat) :
    OnlyFields [R.XLAT_TENSE_TENSE p, R.XLAT_TENSE_PENDING_WD p] s (s.tensed p) :=
  ((OnlyFields.refl _ s).set (by simp)).set (by simp)

theorem State.get_tensed_tense (s : State) (p : Nat) :
    (s.tensed p).get (R.XLAT_TENSE_TENSE p) = (s.get (R.XLAT_TENSE_TENSE p) + 1) % 2 ^ 8 := by
  rw [State.tensed, State.wrap, State.get_set_ne]
  · exact State.get_set_self ..
  · simp only [R.XLAT_TENSE_TENSE, R.XLAT_TENSE_PENDING_WD]
    omega

theorem State.get_tensed_pending (s : State) (p : Nat) :
    (s.tensed p).get (R.XLAT_TENSE_PENDING_WD p) =
      (s.get (R.XLAT_TENSE_PENDING_WD p) + 1) % 2 ^ (R.XLAT_TENSE_PENDING_WD p).width := by
  rw [State.tensed, State.wrap, State.get_set_self, State.wrap, State.get_set_ne]
  simp only [R.XLAT_TENSE_TENSE, R.XLAT_TENSE_PENDING_WD]
  omega

/-- What accepting a withdrawal does: the tense advances, the response tells it with the count of mapped entries, and the
withdrawal opens. -/
structure State.Accepts (s t : State) (h : Hdr) (code p : Nat) (window : Option Nat) (abort : Bool) (entries : List WdEntry) :
    Prop where
  tense : t.get (R.XLAT_TENSE_TENSE p) = (s.get (R.XLAT_TENSE_TENSE p) + 1) % 2 ^ 8
  pending : t.get (R.XLAT_TENSE_PENDING_WD p) = (s.get (R.XLAT_TENSE_PENDING_WD p) + 1) % 2 ^ (R.XLAT_TENSE_PENDING_WD p).width
  replied : Replied t h code .none (packBytes [(8, t.tense p), (16, entries.countP (fun e => e.mapped)), (40, 0)])
  opened : t.xlat.withdrawals.getLast?.map (fun w => (w.id, w.partition, w.window, w.tense, w.entries, w.abort)) =
    some (h.reqId, p, window, t.tense p, entries, abort)
  frame : t = { s with regs := t.regs, xlat := { s.xlat with withdrawals := t.xlat.withdrawals }, nelar := t.nelar, out := t.out,
                       fresh := t.fresh }
  fields : OnlyFields [R.XLAT_TENSE_TENSE p, R.XLAT_TENSE_PENDING_WD p] s t

theorem State.acceptWithdrawal_accepts {s : State} {h : Hdr} {code : Nat} (hreq : (tget h.reqId s.nelar.requests).isSome = true)
    (hcode : code ≠ 0x51) (p : Nat) (window : Option Nat) (abort : Bool) (entries : List WdEntry) {hold : List Holder}
    (hhold : ∀ x ∈ hold, ∃ id, x = Holder.direct id) :
    s.Accepts (s.acceptWithdrawal h code p window abort entries hold) h code p window abort entries := by
  let u := s.tensed p
  have hu : u = { s with regs := u.regs } := s.tensed_frame p
  let body := statusBody .none (packBytes [(8, u.tense p), (16, entries.countP (fun e => e.mapped)), (40, 0)])
  have hreply := (State.answer_replies (s := u) (by rw [hu]; exact hreq) hcode h.path body).freshen
  let v := (u.answer h.path h.reqId code body).freshen
  let w : Withdrawal := { id := h.reqId, partition := p, window := window, tense := v.tense p, entries := entries, hold := hold,
                          abort := abort, aborted := 0, tick := v.tick }
  have hopen : s.acceptWithdrawal h code p window abort entries hold =
      { v with xlat := { v.xlat with withdrawals := v.xlat.withdrawals ++ [w] } } := by
    exact State.openWithdrawal_of_directs v (w := w) hhold
  have hget (f : Fld) : v.get f = u.get f := hreply.get f
  have htense : v.tense p = u.tense p := hget _
  rw [hopen]
  refine ⟨(hget _).trans (s.get_tensed_tense p), (hget _).trans (s.get_tensed_pending p), ?_, ?_, ?_, ?_⟩
  · exact hreply.held.trans (congrArg (fun x => some (some (code, statusBody .none
      (packBytes [(8, x), (16, entries.countP (fun e => e.mapped)), (40, 0)])))) htense.symm)
  · rw [List.getLast?_append_of_ne_nil _ (List.cons_ne_nil _ _)]
    rfl
  · have hv : v = { u with nelar := v.nelar, out := v.out, fresh := u.fresh + 1 } := hreply.frame
    rw [hv, hu]
  · exact (s.tensed_onlyFields p).trans (fun f _ => hget f)

theorem Completes.mapWithdraw {s : State} {h : Hdr} {b : MapWithdraw} (ht : Taken s h 0x21 (fun x => mapWithdrawOf x == b))
    (hformat : withdrawFormat b = false) (hpart : s.partErr b.partition ≠ .partition) (hbusy : s.withdrawBusy b.partition = false)
    (hmoves : s.parser.migrations = []) (hdir : s.parser.dir = []) (hclauses : s.work.clauses = [])
    (hloads : s.security.loads = []) :
    Completes (.mapWithdraw h b) s (fun t =>
      (∀ n < b.countM1 + 1, ((s.pmFind b.partition (b.firstPage + n)).bind (fun x => tget x.1 t.xlat.pageMap)) = none) ∧
      t.get (R.XLAT_TENSE_TENSE b.partition) = (s.get (R.XLAT_TENSE_TENSE b.partition) + 1) % 2 ^ 8 ∧
      t.get (R.XLAT_TENSE_PENDING_WD b.partition) =
        (s.get (R.XLAT_TENSE_PENDING_WD b.partition) + 1) % 2 ^ (R.XLAT_TENSE_PENDING_WD b.partition).width ∧
      Replied t h 0x21 .none (packBytes [(8, t.tense b.partition), (16, (List.range (b.countM1 + 1)).countP
        (fun n => (s.pmFind b.partition (b.firstPage + n)).isSome)), (40, 0)]) ∧
      (t.xlat.withdrawals.getLast?.map (fun w => (w.id, w.partition, w.tense, w.entries.length, w.abort))) =
        some (h.reqId, b.partition, t.tense b.partition, b.countM1 + 1, b.abort) ∧
      t.mem = s.mem ∧
      t = { s with regs := t.regs, xlat := { s.xlat with pageMap := t.xlat.pageMap, frames := t.xlat.frames,
                                                         withdrawals := t.xlat.withdrawals },
                   nelar := t.nelar, out := t.out, fresh := t.fresh } ∧
      OnlyFields [R.XLAT_TENSE_TENSE b.partition, R.XLAT_TENSE_PENDING_WD b.partition] s t) := by
  let u := s.leaveInbox h 0x21 (fun x => mapWithdrawOf x == b)
  let r := u.withdrawRange b.partition b.firstPage (b.countM1 + 1)
  have hr : u.Withdrawn b.partition b.firstPage (b.countM1 + 1) r :=
    State.withdrawRange_withdrawn (s := u) hmoves hdir _ _ _
  have hhold : ∀ x ∈ r.1.holders b.partition (b.firstPage * 2 ^ 21) (b.firstPage * 2 ^ 21 + (b.countM1 + 1) * 2 ^ 21) ++ r.2.2,
      ∃ id, x = Holder.direct id := by
    rw [hr.waits, List.append_nil]
    exact State.holders_directs (by rw [hr.frame]; exact hclauses) (by rw [hr.frame]; exact hloads) _ _ _
  have hreq : (tget h.reqId r.1.nelar.requests).isSome = true := by
    rw [hr.frame]
    exact ht.held
  have haccepts := State.acceptWithdrawal_accepts (s := r.1) hreq (code := 0x21) (by decide) b.partition none b.abort r.2.1 hhold
  have hget (f : Fld) : r.1.get f = s.get f := by
    rw [hr.frame]
    rfl
  have hexec : exec (.mapWithdraw h b) s = settled (r.1.acceptWithdrawal h 0x21 b.partition none b.abort r.2.1
      (r.1.holders b.partition (b.firstPage * 2 ^ 21) (b.firstPage * 2 ^ 21 + (b.countM1 + 1) * 2 ^ 21) ++ r.2.2)) := by
    refine (congrArg settled (State.request_of_taken ht ..)).trans ?_
    have hholders (lo hi : Nat) : r.1.holders b.partition lo hi = u.holders b.partition lo hi := by
      rw [hr.frame]
      rfl
    have hpartu : u.partErr b.partition ≠ .partition := hpart
    have hbusyu : ¬ u.withdrawBusy b.partition = true := Bool.eq_false_iff.1 hbusy
    rw [hformat, if_neg (by decide), if_neg hpartu, if_neg hbusyu, hholders]
    rfl
  refine .of_settled hexec ?_ ⟨fun n hn => ?_, ?_, ?_, ?_, ?_, ?_, ?_, ?_⟩
  · rw [haccepts.frame, hr.frame]
    exact ht.quiet
  · rw [haccepts.frame]
    exact hr.gone n hn
  · rw [haccepts.tense, hget]
  · rw [haccepts.pending, hget]
  · have hmapped : r.2.1.countP (fun e => e.mapped) =
        (List.range (b.countM1 + 1)).countP (fun n => (s.pmFind b.partition (b.firstPage + n)).isSome) := hr.mapped
    rw [← hmapped]
    exact haccepts.replied
  · have hopened := congrArg (Option.map (fun x : Nat × Nat × Option Nat × Nat × List WdEntry × Bool =>
      (x.1, x.2.1, x.2.2.2.1, x.2.2.2.2.1.length, x.2.2.2.2.2))) haccepts.opened
    rw [Option.map_map, Option.map_some] at hopened
    refine hopened.trans ?_
    dsimp only
    rw [hr.length]
  · rw [haccepts.frame, hr.frame]
    rfl
  · rw [haccepts.frame, hr.frame]
    rfl
  · exact fun f hf => (haccepts.fields f hf).trans (hget f)

end Sys2Proof.Machine
end

section
namespace Sys2Proof.Machine

/-! ### FAULT_REJECT (R75, R82) -/

/-- A record is resolved on a chip without clauses: it leaves the pending records. -/
theorem State.resolveFault_hists {s : State} (hclauses : s.work.clauses = []) (p page : Nat) :
    ∃ hists, s.resolveFault p page = { s with
      xlat := { s.xlat with faults := s.xlat.faults.filter (fun f => !f.is p page) },
      tele := { s.tele with hists := hists } } := by
  cases hf : s.pendingFault p page with
  | none =>
    have hkept : s.xlat.faults.filter (fun f => !f.is p page) = s.xlat.faults :=
      List.filter_eq_self.2 (fun f hmem => by simpa using List.find?_eq_none.1 hf f hmem)
    refine ⟨s.tele.hists, ?_⟩
    rw [State.resolveFault_of_none hf, hkept]
  | some f =>
    let v : State := { s with xlat := { s.xlat with faults := s.xlat.faults.filter (fun g => !g.is p page) } }
    obtain ⟨hists, hsample⟩ := v.sample_hists 6 (v.since f.tick) none (some p)
    refine ⟨hists, ?_⟩
    have hresolve : s.resolveFault p page = (v.sample 6 (v.since f.tick) none (some p)).makeWaiting := by
      rw [State.resolveFault, hf]
    rw [hresolve, hsample]
    exact State.makeWaiting_of_nil (s := { v with tele := { v.tele with hists := hists } }) hclauses

theorem State.rejectFault_of_noClauses {s : State} (hclauses : s.work.clauses = []) (h : Hdr) (p page : Nat) :
    s.rejectFault h p page = (s.resolveFault p page).freshen.refuseWith h 0x22 .none (leBytes 8 0) := by
  have hzero : packBytes [(14, 0), (50, 0)] = leBytes 8 0 := by
    simp [packBytes, packNat, packWidth]
  rw [State.rejectFault, hclauses]
  cases s.pendingFault p page with
  | none => rw [← hzero]; rfl
  | some f => rw [← hzero]; rfl

theorem Completes.faultReject {s : State} {h : Hdr} {p page : Nat}
    (ht : Taken s h 0x22 (fun x => faultRejectOf x == (p, page, false))) (hpart : s.partErr p ≠ .partition)
    (hclauses : s.work.clauses = []) :
    Completes (.faultReject h p page false) s (fun t =>
      t.xlat.faults = s.xlat.faults.filter (fun f => !f.is p page) ∧ Replied t h 0x22 .none (leBytes 8 0) ∧ t.mem = s.mem ∧
      t = { s with xlat := { s.xlat with faults := t.xlat.faults }, tele := { s.tele with hists := t.tele.hists },
                   nelar := t.nelar, out := t.out, fresh := s.fresh + 1 }) := by
  let u := s.leaveInbox h 0x22 (fun x => faultRejectOf x == (p, page, false))
  have hpartu : u.partErr p ≠ .partition := hpart
  obtain ⟨hists, hresolve⟩ := State.resolveFault_hists (s := u) hclauses p page
  have hexec : exec (.faultReject h p page false) s =
      settled ((u.resolveFault p page).freshen.refuseWith h 0x22 .none (leBytes 8 0)) := by
    refine (congrArg settled (State.request_of_taken ht ..)).trans (congrArg settled ?_)
    dsimp only
    rw [if_neg (by decide), if_neg hpartu]
    exact State.rejectFault_of_noClauses (s := u) hclauses h p page
  have hreply := State.answer_replies (s := (u.resolveFault p page).freshen) (by rw [hresolve]; exact ht.held) (code := 0x22)
    (by decide) h.path (statusBody .none (leBytes 8 0))
  have hframe : (u.resolveFault p page).freshen.refuseWith h 0x22 .none (leBytes 8 0) = { s with
      xlat := { s.xlat with faults := s.xlat.faults.filter (fun f => !f.is p page) }, tele := { s.tele with hists := hists },
      nelar := ((u.resolveFault p page).freshen.refuseWith h 0x22 .none (leBytes 8 0)).nelar,
      out := ((u.resolveFault p page).freshen.refuseWith h 0x22 .none (leBytes 8 0)).out, fresh := s.fresh + 1 } := by
    refine hreply.frame.trans ?_
    rw [hresolve]
    rfl
  refine .of_settled hexec ((congrArg (fun t : State => t.home.finished) hframe).trans ht.quiet) ⟨?_, hreply.held, ?_, ?_⟩
  all_goals rw [hframe]

/-! ### WIN_INSTALL and WIN_REMOVE (R38, R39) -/

theorem Completes.winInstall {s : State} {h : Hdr} {p slot : Nat} {abort reserved : Bool} {w : WinEntry}
    (ht : Taken s h 0x23 (fun x => winBody x == (p, slot, abort, reserved) && winEntryOf (x.drop 8) == w)) {e : Err}
    (he : s.winInstallErr p slot abort w reserved = e) :
    Completes (.winInstall h p slot abort w reserved) s (fun t => Replied t h 0x23 e [] ∧
      tget (s.winIndex p slot) t.xlat.windows = (if e = .none then some w else tget (s.winIndex p slot) s.xlat.windows) ∧
      (∀ n : Nat, n ≠ s.winIndex p slot → tget n t.xlat.windows = tget n s.xlat.windows) ∧
      t = { s with xlat := { s.xlat with windows := t.xlat.windows }, nelar := t.nelar, out := t.out }) := by
  let u := s.leaveInbox h 0x23 (fun x => winBody x == (p, slot, abort, reserved) && winEntryOf (x.drop 8) == w)
  have heu : u.winInstallErr p slot abort w reserved = e := he
  have hexec (v : State) (hv : (if e = .none then
      { u with xlat := { u.xlat with windows := tset (s.winIndex p slot) w u.xlat.windows } } else u) = v) :
      exec (.winInstall h p slot abort w reserved) s = settled (v.refuse h 0x23 e) := by
    refine (congrArg settled (State.request_of_taken ht ..)).trans (congrArg settled ?_)
    dsimp only
    rw [heu]
    exact congrArg (fun t : State => t.refuse h 0x23 e) hv
  by_cases hnone : e = .none
  · let v : State := { u with xlat := { u.xlat with windows := tset (s.winIndex p slot) w u.xlat.windows } }
    have hreply := State.answer_replies (s := v) ht.held (code := 0x23) (by decide) h.path (statusBody e)
    have hframe := hreply.frame
    refine .of_settled (hexec v (if_pos hnone)) ((congrArg (fun t : State => t.home.finished) hframe).trans ht.quiet)
      ⟨hreply.held, ?_, fun n hn => ?_, ?_⟩
    · rw [if_pos hnone, State.refuse, hframe]
      exact tget_tset_self ..
    · rw [State.refuse, hframe]
      exact tget_tset_ne hn ..
    · rw [State.refuse, hframe]
      rfl
  · have hreply := State.answer_replies (s := u) ht.held (code := 0x23) (by decide) h.path (statusBody e)
    have hframe := hreply.frame
    refine .of_settled (hexec u (if_neg hnone)) ((congrArg (fun t : State => t.home.finished) hframe).trans ht.quiet)
      ⟨hreply.held, ?_, fun n hn => ?_, ?_⟩
    · rw [if_neg hnone, State.refuse, hframe]
      rfl
    · rw [State.refuse, hframe]
      rfl
    · rw [State.refuse, hframe]
      rfl

/-- The state in which a window's entry is gone and its removal waits for the acknowledgement. -/
def State.windowless (s : State) (i : Nat) : State :=
  { s with xlat := { s.xlat with windows := terase i s.xlat.windows, winWithdrawing := i :: s.xlat.winWithdrawing } }

/-- What a removed window's withdrawal lists. -/
def WdEntry.ofWindow : WdEntry := { page := 0, mapped := true, frameFpa := 0, poisoned := false, dirIndex := 0 }

theorem State.winRemove_eq {s : State} {p slot : Nat} {w : WinEntry} (hw : tget (s.winIndex p slot) s.xlat.windows = some w)
    (hrep : w.replicable = false) (h : Hdr) (abort : Bool) :
    s.winRemove h p slot abort = (s.windowless (s.winIndex p slot)).acceptWithdrawal h 0x24 p (some (s.winIndex p slot)) abort
      [WdEntry.ofWindow] (s.holders p (2 ^ 51 + slot * 2 ^ 44) (2 ^ 51 + slot * 2 ^ 44 + 2 ^ 44)) := by
  rw [State.winRemove, hw]
  dsimp only
  rw [hrep, if_neg (by decide), List.flatMap_nil, List.append_nil, List.foldl_nil]
  rfl

theorem Completes.winRemove {s : State} {h : Hdr} {p slot : Nat} {abort : Bool} {w : WinEntry}
    (ht : Taken s h 0x24 (fun x => winBody x == (p, slot, abort, false))) (hpart : s.partErr p ≠ .partition)
    (hslot : slot < s.get (R.PART_WINDOWS_WIN_COUNT p)) (hbusy : s.withdrawBusy p = false)
    (hw : tget (s.winIndex p slot) s.xlat.windows = some w) (hrep : w.replicable = false) (hclauses : s.work.clauses = [])
    (hloads : s.security.loads = []) :
    Completes (.winRemove h p slot abort false) s (fun t =>
      tget (s.winIndex p slot) t.xlat.windows = none ∧
      (∀ n : Nat, n ≠ s.winIndex p slot → tget n t.xlat.windows = tget n s.xlat.windows) ∧
      t.xlat.winWithdrawing = s.winIndex p slot :: s.xlat.winWithdrawing ∧
      t.get (R.XLAT_TENSE_TENSE p) = (s.get (R.XLAT_TENSE_TENSE p) + 1) % 2 ^ 8 ∧
      Replied t h 0x24 .none (packBytes [(8, t.tense p), (16, 1), (40, 0)]) ∧
      (t.xlat.withdrawals.getLast?.map (fun w => (w.id, w.partition, w.window))) = some (h.reqId, p, some (s.winIndex p slot)) ∧
      t = { s with regs := t.regs, xlat := { s.xlat with windows := t.xlat.windows, winWithdrawing := t.xlat.winWithdrawing,
                                                         withdrawals := t.xlat.withdrawals },
                   nelar := t.nelar, out := t.out, fresh := t.fresh } ∧
      OnlyFields [R.XLAT_TENSE_TENSE p, R.XLAT_TENSE_PENDING_WD p] s t) := by
  let u := s.leaveInbox h 0x24 (fun x => winBody x == (p, slot, abort, false))
  let v := u.windowless (s.winIndex p slot)
  have hpartu : u.partErr p ≠ .partition := hpart
  have hslotu : ¬ u.get (R.PART_WINDOWS_WIN_COUNT p) ≤ slot := Nat.not_le.2 hslot
  have hbusyu : ¬ u.withdrawBusy p = true := Bool.eq_false_iff.1 hbusy
  have hwu : tget (u.winIndex p slot) u.xlat.windows = some w := hw
  have hexec : exec (.winRemove h p slot abort false) s = settled (v.acceptWithdrawal h 0x24 p (some (s.winIndex p slot)) abort
      [WdEntry.ofWindow] (u.holders p (2 ^ 51 + slot * 2 ^ 44) (2 ^ 51 + slot * 2 ^ 44 + 2 ^ 44))) := by
    refine (congrArg settled (State.request_of_taken ht ..)).trans (congrArg settled ?_)
    rw [if_neg (by decide), if_neg hpartu, if_neg hslotu, if_neg hbusyu]
    exact State.winRemove_eq hwu hrep h abort
  have haccepts := State.acceptWithdrawal_accepts (s := v) ht.held (code := 0x24) (by decide) p (some (s.winIndex p slot)) abort
    [WdEntry.ofWindow] (State.holders_directs (s := u) hclauses hloads p (2 ^ 51 + slot * 2 ^ 44) (2 ^ 51 + slot * 2 ^ 44 + 2 ^ 44))
  have hframe := haccepts.frame
  refine .of_settled hexec ((congrArg (fun t : State => t.home.finished) hframe).trans ht.quiet)
    ⟨?_, fun n hn => ?_, ?_, haccepts.tense, haccepts.replied, ?_, ?_, haccepts.fields⟩
  · rw [hframe]
    exact tget_terase_self ..
  · rw [hframe]
    exact tget_terase_ne hn ..
  · rw [hframe]
    rfl
  · have hopened := congrArg (Option.map (fun x : Nat × Nat × Option Nat × Nat × List WdEntry × Bool => (x.1, x.2.1, x.2.2.1)))
      haccepts.opened
    rwa [Option.map_map, Option.map_some] at hopened
  · rw [hframe]
    rfl

end Sys2Proof.Machine
end

section
namespace Sys2Proof.Machine

/-! ### A message stands on its link (R369, R373) -/

theorem State.link_setLink (s : State) (l : Nat) (k : Link) : (s.setLink l k).link l = k := by
  unfold State.setLink State.link
  dsimp only
  split <;> rfl

theorem dealBlocks_msgs (link : Nat) (k : Link) (bs : List (Nat × Nat)) : (dealBlocks link k bs).1.msgs = k.msgs := by
  induction bs generalizing k with
  | nil => rfl
  | cons b bs ih => exact ih _

theorem State.sendFlit_msgs (s : State) (l : Nat) (f : Flit) : ((s.sendFlit l f).link l).msgs = (s.link l).msgs := by
  have hlink : (s.sendFlit l f).link l = (dealBlocks l (s.link l) (flitBlocks f)).1 := State.link_setLink ..
  rw [hlink, dealBlocks_msgs]

/-- Flits that leave take no message off its link's list. -/
theorem State.pump_msgs (s : State) (l n : Nat) : ((s.pump l n).link l).msgs = (s.link l).msgs := by
  induction n generalizing s with
  | zero => rfl
  | succ n ih =>
    unfold State.pump
    split
    · rfl
    · split
      · rfl
      · rw [ih, State.sendFlit_msgs, State.link_setLink]

theorem State.sendOn_msgs (s : State) (l : Nat) (m : Msg) :
    ∃ n, ((s.sendOn l m).link l).msgs = (s.link l).msgs ++ [(m, n)] :=
  ⟨_, (State.pump_msgs ..).trans (congrArg Link.msgs (State.link_setLink ..))⟩

/-- A message of the chip's own leaves on the notify link while that is ACTIVE. -/
theorem State.sendOwn_active {s : State} {l : Nat} (hl : s.get R.NELAR_CHIP_NOTIFY = l) (hup : s.linkState l = 4) (hl2 : l < 2)
    (code : Nat) (body : List Byte) : s.sendOwn code body =
      s.bumpOwn.sendOn l { code := code, resp := false, resent := false, reqId := s.ownId, body := body } := by
  have hopen : ¬ (code ≠ 0x51 ∧ s.linkState 0 ≠ 4 ∧ s.linkState 1 ≠ 4 ∧ s.storeFull = true) := by
    rintro ⟨-, h0, h1, -⟩
    rcases Nat.lt_succ_iff_lt_or_eq.1 hl2 with hzero | rfl
    · rw [Nat.lt_one_iff.1 hzero] at hup
      exact h0 hup
    · exact h1 hup
  have hbump : s.bumpOwn.linkState l = 4 := hup
  rw [State.sendOwn, hl, State.sendOwnOn, if_neg hopen, State.sendVia, if_pos hbump]

/-! ### WITHDRAWAL_ACKED (R50, R66) -/

/-- A frame that is withheld, that no entry names and no chip has registered, is free (R50). -/
theorem State.maybeFree_withheld {s : State} {k : Nat} {r : FrameRec} (hr : s.frameRec k = some r) (huse : r.use = .withheld)
    (hfind : s.pmFind r.owner r.page = none) (hdir : s.parser.dir = []) (hwithdrawals : s.xlat.withdrawals = [])
    (hlost : s.xlat.lostParts = []) : s.maybeFree k = s.freeFrame k := by
  have hwithheld : s.withheld k = false := by
    rw [State.withheld, hwithdrawals]
    rfl
  have hwhole : s.isLost (k / 2 ^ 22) (k % 2 ^ 22) = false := by
    rw [State.isLost, hlost]
    rfl
  rw [State.maybeFree, hr]
  dsimp only
  rw [hfind, hdir, hwithheld, hwhole, huse]
  simp

theorem State.frameRec_freeFrame (s : State) (k : Nat) : (s.freeFrame k).frameRec k = none := by
  rw [State.freeFrame]
  cases hr : s.frameRec k with
  | none => exact hr
  | some r =>
    dsimp only
    split
    · exact tget_terase_self ..
    · exact tget_terase_self ..

theorem State.freeFrame_onlyFields {s : State} {k : Nat} {r : FrameRec} (hr : s.frameRec k = some r) :
    OnlyFields [R.PARSER_PART_NEAR_USED r.owner, R.PART_FAR_USED_USED r.owner] s (s.freeFrame k) := by
  rw [State.freeFrame, hr]
  exact .ite (.set (fun _ _ => rfl) (by simp)) (.set (fun _ _ => rfl) (by simp))

/-- WITHDRAW_ACK's entry for a frame of this chip that was freed (Table 3-7). -/
def freedEntry (e : WdEntry) : List Byte := packBytes [(1, 1), (1, 1), (1, b2n e.poisoned), (18, 0), (43, e.frameFpa / 2 ^ 21)]

/-- WITHDRAW_ACK's body before its entries (Table 3-7). -/
def ackHead (w : Withdrawal) : List Byte :=
  packBytes [(32, w.id), (12, w.partition), (4, 0), (8, w.tense), (8, w.entries.length - 1), (32, w.aborted), (32, 0)]

theorem ackHead_length (w : Withdrawal) : (ackHead w).length = 16 := by
  rw [ackHead, packBytes, leBytes_length]
  simp [packWidth]

/-- The state in which a withdrawal of one frame of this chip is acknowledged, before WITHDRAW_ACK is sent. -/
def State.acknowledged (s : State) (w : Withdrawal) (e : WdEntry) (hists : Tbl Hist) : State :=
  let b := State.freeFrame { s with xlat := { s.xlat with withdrawals := [] } } (frameKey e.frameFpa)
  { b with regs := (b.less (R.XLAT_TENSE_PENDING_WD w.partition)).regs,
           tele := { b.tele with hists := hists },
           xlat := { b.xlat with acked := tset w.id (leBytes 4 b.ownId ++ (ackHead w ++ freedEntry e)) b.xlat.acked } }

theorem State.ackWithdrawal_page {s : State} {w : Withdrawal} {e : WdEntry} {r : FrameRec} (hwithdrawals : s.xlat.withdrawals = [w])
    (hwindow : w.window = none) (hentries : w.entries = [e]) (hmapped : e.mapped = true) (hchip : fpaChip e.frameFpa = s.chip)
    (hr : s.frameRec (frameKey e.frameFpa) = some r) (huse : r.use = .withheld) (hfind : s.pmFind r.owner r.page = none)
    (hdir : s.parser.dir = []) (hlost : s.xlat.lostParts = []) :
    ∃ hists, s.ackWithdrawal w = (s.acknowledged w e hists).sendOwn 0x29 (ackHead w ++ freedEntry e) := by
  let a : State := { s with xlat := { s.xlat with withdrawals := [] } }
  have hnone : s.xlat.withdrawals.filter (fun v => v.id != w.id) = [] := by
    rw [hwithdrawals]
    exact List.filter_cons_of_neg (by simp)
  have hfree : a.maybeFree (frameKey e.frameFpa) = a.freeFrame (frameKey e.frameFpa) :=
    State.maybeFree_withheld (s := a) hr huse hfind hdir rfl hlost
  have hchipa : fpaChip e.frameFpa = a.chip := hchip
  obtain ⟨hists, hsample⟩ := (a.freeFrame (frameKey e.frameFpa)).sample_hists 7
    ((a.freeFrame (frameKey e.frameFpa)).since w.tick) none (some w.partition)
  refine ⟨hists, ?_⟩
  have hfreed : b2n ((a.freeFrame (frameKey e.frameFpa)).frameRec (frameKey e.frameFpa)).isNone = 1 := by
    rw [State.frameRec_freeFrame]
    rfl
  rw [State.ackWithdrawal, hnone, hentries]
  simp only [List.foldl_cons, List.foldl_nil, hwindow, Option.isSome_none, Bool.false_eq_true, if_false, hmapped, Bool.not_true,
    List.nil_append]
  rw [if_pos hchipa, hfree]
  simp only [hfreed, hsample, State.less, State.set_frame, List.flatten_cons, List.flatten_nil, List.append_nil]
  rw [State.acknowledged, ackHead, freedEntry, hentries]
  rfl

/-- What an acknowledgement changes: the withdrawal, its frame, the histograms, and the message kept for a repeat. -/
theorem State.acknowledged_frame (s : State) (w : Withdrawal) (e : WdEntry) (hists : Tbl Hist) :
    s.acknowledged w e hists = { s with
      regs := (s.acknowledged w e hists).regs,
      xlat := { s.xlat with withdrawals := [], frames := (s.acknowledged w e hists).xlat.frames,
                            acked := (s.acknowledged w e hists).xlat.acked },
      parser := { s.parser with heat := (s.acknowledged w e hists).parser.heat },
      tele := { s.tele with hists := hists } } := by
  have hfreed := (State.Freed.refl { s with xlat := { s.xlat with withdrawals := [] } }).freeFrame (frameKey e.frameFpa)
  rw [State.acknowledged, hfreed.frame]

theorem State.acknowledged_onlyFields {s : State} {e : WdEntry} {r : FrameRec} (hr : s.frameRec (frameKey e.frameFpa) = some r)
    (w : Withdrawal) (hists : Tbl Hist) :
    OnlyFields [R.XLAT_TENSE_PENDING_WD w.partition, R.PARSER_PART_NEAR_USED r.owner, R.PART_FAR_USED_USED r.owner]
      s (s.acknowledged w e hists) := by
  have hfree : OnlyFields [R.XLAT_TENSE_PENDING_WD w.partition, R.PARSER_PART_NEAR_USED r.owner, R.PART_FAR_USED_USED r.owner]
      s (State.freeFrame { s with xlat := { s.xlat with withdrawals := [] } } (frameKey e.frameFpa)) :=
    (State.freeFrame_onlyFields (s := { s with xlat := { s.xlat with withdrawals := [] } }) hr).mono (by simp)
  exact hfree.set (v := State.get _ (R.XLAT_TENSE_PENDING_WD w.partition) - 1) (by simp)

theorem State.get_acknowledged_pending {s : State} (w : Withdrawal) (e : WdEntry) (hists : Tbl Hist) :
    (s.acknowledged w e hists).get (R.XLAT_TENSE_PENDING_WD w.partition) =
      (s.get (R.XLAT_TENSE_PENDING_WD w.partition) - 1) % 2 ^ (R.XLAT_TENSE_PENDING_WD w.partition).width := by
  have hfreed := (State.Freed.refl { s with xlat := { s.xlat with withdrawals := [] } }).freeFrame (frameKey e.frameFpa)
  have hkept := hfreed.get (R.XLAT_TENSE_PENDING_WD w.partition) (by simp only [R.XLAT_TENSE_PENDING_WD]; omega)
    (by simp only [R.XLAT_TENSE_PENDING_WD]; omega)
  refine (State.get_set_self _ (R.XLAT_TENSE_PENDING_WD w.partition) _).trans ?_
  rw [hkept]
  rfl

/-- The links' states and the notify choice are none of the fields that an acknowledgement writes. -/
theorem State.get_acknowledged_link {s : State} {w : Withdrawal} {e : WdEntry} {r : FrameRec}
    (hr : s.frameRec (frameKey e.frameFpa) = some r) (howner : r.owner < 4096) (hists : Tbl Hist)
    {f : Fld} (hf : f = R.NELAR_CHIP_NOTIFY ∨ ∃ l < 2, f = R.NELAR_STAT_STATE l) :
    (s.acknowledged w e hists).get f = s.get f := by
  refine State.acknowledged_onlyFields hr w hists f ?_
  have hkey : f.key = 459008 * 64 + 32 ∨ ∃ l < 2, f.key = (458760 + l * 32768) * 64 := by
    rcases hf with rfl | ⟨l, hl, rfl⟩
    · exact .inl rfl
    · exact .inr ⟨l, hl, rfl⟩
  simp only [R.XLAT_TENSE_PENDING_WD, R.PARSER_PART_NEAR_USED, R.PART_FAR_USED_USED, List.forall_mem_cons, List.not_mem_nil,
    false_imp_iff, implies_true, and_true]
  rcases hkey with hkey | ⟨l, hl, hkey⟩
  · omega
  · omega

theorem Completes.withdrawalAcked {s : State} {w : Withdrawal} {e : WdEntry} {r : FrameRec} (hlive : s.live = true)
    (hquiet : s.home.finished = []) (hnotify : s.get R.NELAR_CHIP_NOTIFY < 2)
    (hup : s.linkState (s.get R.NELAR_CHIP_NOTIFY) = 4) (hwithdrawals : s.xlat.withdrawals = [w]) (hhold : w.hold = [])
    (hwindow : w.window = none) (hentries : w.entries = [e]) (hmapped : e.mapped = true) (hchip : fpaChip e.frameFpa = s.chip)
    (hr : s.frameRec (frameKey e.frameFpa) = some r) (huse : r.use = .withheld) (howner : r.owner < 4096)
    (hfind : s.pmFind r.owner r.page = none) (hdir : s.parser.dir = []) (hlost : s.xlat.lostParts = []) :
    Completes (.withdrawalAcked w.id) s (fun t =>
      t.xlat.withdrawals = [] ∧ t.frameRec (frameKey e.frameFpa) = none ∧ (tget w.id t.xlat.acked).isSome = true ∧
      ((t.link (s.get R.NELAR_CHIP_NOTIFY)).msgs.getLast?.map (fun m => (m.1.code, m.1.resp, m.1.reqId, m.1.body.drop 16))) =
        some (0x29, false, s.nelar.nextOwn,
          packBytes [(1, 1), (1, 1), (1, b2n e.poisoned), (18, 0), (43, e.frameFpa / 2 ^ 21)]) ∧
      t.get (R.XLAT_TENSE_PENDING_WD w.partition) =
        (s.get (R.XLAT_TENSE_PENDING_WD w.partition) - 1) % 2 ^ (R.XLAT_TENSE_PENDING_WD w.partition).width ∧
      t.mem = s.mem ∧ t.xlat.pageMap = s.xlat.pageMap ∧ t.work = s.work ∧ t.security = s.security ∧
      OnlyFields [R.XLAT_TENSE_PENDING_WD w.partition, R.PARSER_PART_NEAR_USED r.owner, R.PART_FAR_USED_USED r.owner] s t) := by
  obtain ⟨hists, hack⟩ := State.ackWithdrawal_page hwithdrawals hwindow hentries hmapped hchip hr huse hfind hdir hlost
  let u := s.acknowledged w e hists
  have hu := s.acknowledged_frame w e hists
  let m : Msg := { code := 0x29, resp := false, resent := false, reqId := u.ownId, body := ackHead w ++ freedEntry e }
  have hsendOwn : u.sendOwn 0x29 (ackHead w ++ freedEntry e) = u.bumpOwn.sendOn (s.get R.NELAR_CHIP_NOTIFY) m :=
    State.sendOwn_active (State.get_acknowledged_link hr howner hists (.inl rfl))
      ((State.get_acknowledged_link hr howner hists (.inr ⟨_, hnotify, rfl⟩)).trans hup) hnotify 0x29 _
  have hcan : s.canSend = true := by
    rw [State.canSend]
    rcases Nat.lt_succ_iff_lt_or_eq.1 hnotify with hzero | hone
    · rw [Nat.lt_one_iff.1 hzero] at hup
      simp [hup]
    · rw [hone] at hup
      simp [hup]
  have hfound : s.xlat.withdrawals.find? (fun v => v.id == w.id) = some w := by
    rw [hwithdrawals]
    exact List.find?_cons_of_pos (by simp)
  have hsends := (State.Sends.refl u.bumpOwn).sendOn (l := s.get R.NELAR_CHIP_NOTIFY) (m := m)
  have hframe := hsends.frame
  have hexec : exec (.withdrawalAcked w.id) s = settled (u.bumpOwn.sendOn (s.get R.NELAR_CHIP_NOTIFY) m) := by
    refine (congrArg settled (State.whenLive_live hlive _)).trans (congrArg settled ?_)
    rw [hfound]
    dsimp only
    rw [hhold, hcan, if_neg (by simp), hack, hsendOwn]
  have hget (f : Fld) : (u.bumpOwn.sendOn (s.get R.NELAR_CHIP_NOTIFY) m).get f = u.get f := by
    rw [hframe]
    rfl
  obtain ⟨n, hmsgs⟩ := u.bumpOwn.sendOn_msgs (s.get R.NELAR_CHIP_NOTIFY) m
  refine .of_settled hexec ?_ ⟨?_, ?_, ?_, ?_, ?_, ?_, ?_, ?_, ?_, ?_⟩
  · rw [hframe, State.bumpOwn, show u = _ from hu]
    exact hquiet
  · rw [hframe, State.bumpOwn, show u = _ from hu]
  · rw [hframe]
    exact State.frameRec_freeFrame ..
  · rw [hframe]
    exact Option.isSome_iff_exists.2 ⟨_, tget_tset_self ..⟩
  · rw [hmsgs, List.getLast?_append_of_ne_nil _ (List.cons_ne_nil _ _)]
    have hid : u.ownId = s.nelar.nextOwn := by rw [show u = _ from hu]; rfl
    have hbody : (ackHead w ++ freedEntry e).drop 16 = freedEntry e := by
      rw [← ackHead_length w, List.drop_left]
    exact congrArg₂ (fun i x => some (0x29, false, i, x)) hid hbody
  · rw [hget]
    exact State.get_acknowledged_pending w e hists
  · rw [hframe, State.bumpOwn, show u = _ from hu]
  · rw [hframe, State.bumpOwn, show u = _ from hu]
  · rw [hframe, State.bumpOwn, show u = _ from hu]
  · rw [hframe, State.bumpOwn, show u = _ from hu]
  · exact (State.acknowledged_onlyFields hr w hists).trans (fun f _ => hget f)

/-- Settles O26: a clause for each way a page or a window comes, goes and is acknowledged. -/
theorem pagesAndWindowsComeAndGo : Obligations.PagesAndWindowsComeAndGo := by
  unfold Obligations.PagesAndWindowsComeAndGo
  exact ⟨fun _ _ _ _ _ ht _ hformat hp hpart hfind hinstalls hload hchip hframe hfault =>
      .mapInstall_home ht hformat hp hpart hfind hinstalls hload hchip hframe hfault,
    fun _ _ _ _ _ ht _ hformat hpart hfind => .mapInstall_mapped ht hformat hpart hfind,
    fun _ _ _ _ _ _ hlive hcalm hlines hsharers hc hfills hinstalls hk hreq _ hway hfault =>
      .zeroFillDone hlive hcalm hlines hsharers hc hfills hinstalls hk hreq hway hfault,
    fun _ _ _ ht _ hformat _ hpart hbusy hmoves hdir hclauses hloads =>
      .mapWithdraw ht hformat hpart hbusy hmoves hdir hclauses hloads,
    fun _ _ _ _ hlive hquiet _ hnotify hup hwithdrawals hhold hwindow hentries hmapped hchip hr huse howner hfind hdir hlost =>
      .withdrawalAcked hlive hquiet hnotify hup hwithdrawals hhold hwindow hentries hmapped hchip hr huse howner hfind hdir hlost,
    fun _ _ _ _ ht _ hpart hclauses => .faultReject ht hpart hclauses,
    fun _ _ _ _ _ _ _ _ ht _ he => .winInstall ht he,
    fun _ _ _ _ _ _ ht _ _ hpart hslot hbusy hw hrep hclauses hloads =>
      .winRemove ht hpart hslot hbusy hw hrep hclauses hloads⟩

end Sys2Proof.Machine
end

section
namespace Sys2Proof.Machine

/-! ### An admitted direct request (R34, R84, R342) -/

/-- The record of a direct request of a partition to an FPA. -/
def State.directRecord (s : State) (d : Direct) (act : HomeAct) (p fpa : Nat) (issued : Bool) : DirectRec :=
  { port := d.port, slot := s.get (R.EDGE_STAT_SLOT d.port), tag := d.tag, partition := p, addr := bits d.addr 51 0, fpa := fpa,
    act := act, view := bits d.addr 53 52, tense := s.tense p, issued := issued, tick := s.tick }

/-- The state with a direct request recorded, and charged to its partition. -/
def State.admitted (s : State) (d : Direct) (act : HomeAct) (p fpa : Nat) (issued : Bool) : State :=
  { s.charge p 0 act.len with
    edge := { s.edge with directs := [(s.edge.nextDirect, s.directRecord d act p fpa issued)],
                          nextDirect := s.edge.nextDirect + 1 } }

theorem State.sourceFrame_of_nil {s : State} (h : s.edge.directs = []) (slot fpa : Nat) : s.sourceFrame slot fpa = fpa := by
  have hnone : s.parser.updates.find? (fun u => u.2.2 == frameOf fpa && s.edge.directs.any (fun (d : Nat × DirectRec) =>
      d.2.slot == slot && frameOf d.2.fpa == u.2.1)) = none :=
    List.find?_eq_none.2 (fun u _ => by simp [h])
  rw [State.sourceFrame, hnone]

theorem State.aperture_of_admits {s : State} {d : Direct} {op p fpa : Nat} (h : Admits s d op p fpa) {act : HomeAct}
    (hop : act.op = op) (hform : atomicForm (bits d.addr 51 0) act = .none) :
    s.aperture d act = (s.admitted d act p fpa false).pumpDirects := by
  subst hop
  obtain ⟨-, -, hdirects, -, hrole, hstate, hbase, huio, henabled, hpos, hmax, hblock, hpasid, rfl, -, hperr, hview, hviewEn,
    hmay, hxlate, rfl, hpoison⟩ := h
  have hchecked : s.aperture d act = s.checkDirect d act := by
    unfold State.aperture
    extract_lets isRead posted state
    clear_value isRead posted
    simp [state, hrole, hstate, hdirects, hbase, huio, henabled, Nat.pos_iff_ne_zero.1 hpos, Nat.not_lt.2 hmax, Nat.not_lt.2 hblock]
  rw [hchecked]
  unfold State.checkDirect
  extract_lets n isRead no q view fva x slot r id charged
  clear_value isRead no
  simp only [n, q, view, fva, x, hpasid, hperr, hview, hviewEn, hmay, hxlate, hform, hpoison,
    Bool.not_true, Bool.false_eq_true, or_self, ne_eq, not_true_eq_false, if_false]
  have hrecord : r = s.directRecord d act q x.fpa false := by
    simp only [r, State.sourceFrame_of_nil hdirects]
    rfl
  have hset : tset id r charged.edge.directs = [(id, s.directRecord d act q x.fpa false)] := by
    rw [hrecord]
    exact (congrArg (tset id (s.directRecord d act q x.fpa false)) hdirects).trans rfl
  rw [hset]
  rfl

/-- A request that is alone on the chip goes at once. -/
theorem State.pumpDirects_single {s : State} {id : Nat} {d : DirectRec} (h : s.edge.directs = [(id, d)])
    (hissued : d.issued = false) : s.pumpDirects = s.issueDirect id d := by
  have hget : tget id s.edge.directs = some d := by rw [h]; exact if_pos rfl
  have hmay : s.mayIssue id d = true := by
    rw [State.mayIssue, h, hissued]
    simp
  rw [State.pumpDirects, h, List.foldl_cons, List.foldl_nil]
  dsimp only
  rw [hget]
  exact if_pos hmay

theorem State.pumpDirects_admitted (s : State) (d : Direct) (act : HomeAct) (p fpa : Nat) :
    (s.admitted d act p fpa false).pumpDirects =
      (s.admitted d act p fpa false).issueDirect s.edge.nextDirect (s.directRecord d act p fpa false) :=
  State.pumpDirects_single rfl rfl

theorem tset_single {α : Type} (k : Nat) (v w : α) : tset k w [(k, v)] = [(k, w)] := by
  simp [tset]

/-- What the issue of a direct request does with its action. -/
def State.issueAct (s : State) (act : HomeAct) (fpa p : Nat) (k : Cont) (port : Nat) : State :=
  match act with
  | .read n => s.issueRead fpa n p k port false
  | .write bs => s.issueWrite fpa bs p k port true none
  | .atomic op w x c => s.issueAtomic fpa op w x c p k port true

theorem State.issueDirect_admitted (s : State) (d : Direct) (act : HomeAct) (p fpa : Nat) :
    (s.admitted d act p fpa false).issueDirect s.edge.nextDirect (s.directRecord d act p fpa false) =
      (s.admitted d act p fpa true).issueAct act fpa p (.direct s.edge.nextDirect) d.port := by
  have hissued : ({ s.admitted d act p fpa false with edge := { (s.admitted d act p fpa false).edge with
      directs := tset s.edge.nextDirect (s.directRecord d act p fpa true) (s.admitted d act p fpa false).edge.directs } }) =
      s.admitted d act p fpa true := by
    simp only [State.admitted, tset_single]
  exact congrArg (fun t : State => t.issueAct act fpa p (.direct s.edge.nextDirect) d.port) hissued

/-- A request for another chip leaves as a request frame; its order is kept but for a read (R301, R305). -/
theorem State.issueAct_remote {s : State} {act : HomeAct} {fpa : Nat} (hfar : fpaChip fpa ≠ s.chip)
    (hreplica : act.isWrite = false → s.replicaOf fpa = none) (p : Nat) (k : Cont) (port : Nat) :
    s.issueAct act fpa p k port = s.sendAct fpa act p k port act.isWrite false := by
  cases act with
  | read n =>
    refine (if_neg hfar).trans ?_
    rw [hreplica rfl]
    rfl
  | write bs => exact if_neg hfar
  | atomic op w x c => exact if_neg hfar

/-- The access that an admitted request is at its home on this chip; a write or atomic keeps its order among its slot's. -/
def State.directAccess (s : State) (d : Direct) (act : HomeAct) (p fpa : Nat) : HeldAccess :=
  (s.admitted d act p fpa true).hereAccess fpa p act (.direct s.edge.nextDirect) none
    (if act.isWrite then some (s.get (R.EDGE_STAT_SLOT d.port)) else none)

theorem State.issueAct_home {s : State} {d : Direct} {act : HomeAct} {p fpa : Nat}
    (hhere : fpaChip fpa = (s.admitted d act p fpa true).chip) :
    (s.admitted d act p fpa true).issueAct act fpa p (.direct s.edge.nextDirect) d.port =
      (s.admitted d act p fpa true).atHome (s.directAccess d act p fpa) := by
  have hsource : (s.admitted d act p fpa true).sourceOf (.direct s.edge.nextDirect) = some (s.get (R.EDGE_STAT_SLOT d.port)) := by
    have hget : tget s.edge.nextDirect (s.admitted d act p fpa true).edge.directs = some (s.directRecord d act p fpa true) :=
      if_pos rfl
    exact congrArg (Option.map DirectRec.slot) hget
  cases act with
  | read n => exact if_pos hhere
  | write bs =>
    refine (if_pos hhere).trans ?_
    rw [if_pos rfl, hsource]
    rfl
  | atomic op w x c =>
    refine (if_pos hhere).trans ?_
    rw [if_pos rfl, hsource]
    rfl

end Sys2Proof.Machine
end

section
namespace Sys2Proof.Machine

/-! ### A direct request for another chip (R35, R301) -/

theorem State.charge_counted (s : State) (p event n : Nat) : s.Counted (s.charge p event n) p :=
  State.Counted.charge (s := s) (t := s) ⟨rfl, .refl _ s⟩

theorem State.admitted_frame (s : State) (d : Direct) (act : HomeAct) (p fpa : Nat) (issued : Bool) :
    s.admitted d act p fpa issued = { s with
      regs := (s.charge p 0 act.len).regs, power := (s.charge p 0 act.len).power,
      edge := { s.edge with directs := [(s.edge.nextDirect, s.directRecord d act p fpa issued)],
                            nextDirect := s.edge.nextDirect + 1 } } := rfl

theorem State.admitted_chip (s : State) (d : Direct) (act : HomeAct) (p fpa : Nat) (issued : Bool) :
    (s.admitted d act p fpa issued).chip = s.chip :=
  (s.charge_counted p 0 act.len).chip

theorem State.admitted_onlyFields (s : State) (d : Direct) (act : HomeAct) (p fpa : Nat) (issued : Bool) :
    OnlyFields [R.PWR_ENERGY_NJ p] s (s.admitted d act p fpa issued) :=
  (s.charge_counted p 0 act.len).fields

theorem MaySend.admitted {s : State} {p fpa : Nat} (h : MaySend s p fpa) (d : Direct) (act : HomeAct) :
    MaySend (s.admitted d act p fpa true) p fpa := by
  obtain ⟨hfar, hreach, hwait, hquota, htrack⟩ := h
  have hfields := s.admitted_onlyFields d act p fpa true
  have hused : (s.admitted d act p fpa true).get (R.PART_OUTSTANDING_USED p) = s.get (R.PART_OUTSTANDING_USED p) :=
    hfields _ (by simp only [List.mem_singleton, forall_eq, R.PART_OUTSTANDING_USED, R.PWR_ENERGY_NJ]; omega)
  have hroom : (s.admitted d act p fpa true).get (R.PART_OUTSTANDING_QUOTA p) = s.get (R.PART_OUTSTANDING_QUOTA p) :=
    hfields _ (by simp only [List.mem_singleton, forall_eq, R.PART_OUTSTANDING_QUOTA, R.PWR_ENERGY_NJ]; omega)
  refine ⟨?_, ?_, hwait, ?_, htrack⟩
  · rw [State.admitted_chip]
    exact hfar
  · rw [State.unreachable_congr (s := s) (t := s.admitted d act p fpa true) rfl rfl (State.admitted_chip ..)]
    exact hreach
  · rw [hused, hroom]
    exact hquota

theorem Admits.issued {s : State} {d : Direct} {op p fpa : Nat} (h : Admits s d op p fpa) {act : HomeAct}
    (hop : act.op = op) (hform : atomicForm (bits d.addr 51 0) act = .none) :
    s.aperture d act = (s.admitted d act p fpa true).issueAct act fpa p (.direct s.edge.nextDirect) d.port := by
  rw [State.aperture_of_admits h hop hform, State.pumpDirects_admitted, State.issueDirect_admitted]

theorem edgeRow_live {s : State} (h : s.live = true) (f : State → State) : edgeRow s f = settled (f s) :=
  congrArg settled (State.whenLive_live h f)

theorem Admits.exec_read {s : State} {d : Direct} {op p fpa : Nat} (h : Admits s d op p fpa) :
    exec (.apertureRead d) s = settled (s.aperture d (.read d.len)) := by
  obtain ⟨hlive, -, -, hcontrol, -⟩ := h
  refine (edgeRow_live hlive _).trans ?_
  rw [hcontrol]

theorem Admits.exec_write {s : State} {d : Direct} {op p fpa : Nat} (h : Admits s d op p fpa) (data : List Byte) :
    exec (.apertureWrite d data) s = settled (s.aperture d (.write data)) := by
  obtain ⟨hlive, -, -, hcontrol, -⟩ := h
  refine (edgeRow_live hlive _).trans ?_
  rw [hcontrol]

theorem Admits.exec_atomic {s : State} {d : Direct} {op p fpa : Nat} (h : Admits s d op p fpa) (o : PcieAtomic)
    (operand compare : Nat) :
    exec (.apertureAtomic d o operand compare) s = settled (s.aperture d (.atomic (pcieCode o) d.len operand compare)) := by
  obtain ⟨hlive, -, -, hcontrol, -⟩ := h
  refine (edgeRow_live hlive _).trans ?_
  rw [hcontrol]

theorem Completes.direct_remote {c : Instr} {s : State} {d : Direct} {op p fpa : Nat} (h : Admits s d op p fpa) {act : HomeAct}
    (hexec : exec c s = settled (s.aperture d act)) (hop : act.op = op) (hform : atomicForm (bits d.addr 51 0) act = .none)
    (hsend : MaySend s p fpa) (hreplica : act.isWrite = false → s.replicaOf fpa = none) :
    Completes c s (fun t =>
      ((tget s.edge.nextDirect t.edge.directs).map (fun x => (x.fpa, x.partition, x.act, x.issued))) = some (fpa, p, act, true) ∧
      Sent s t fpa act.request.1 (.direct s.edge.nextDirect) ∧ t.mem = s.mem ∧ t.work = s.work ∧ t.xlat = s.xlat ∧
      t.out = s.out) := by
  have hfin : s.home.finished = [] := by
    obtain ⟨-, hfin, -⟩ := h
    exact hfin
  have hsend' := hsend.admitted d act
  obtain ⟨hsent, hsw⟩ := State.sendAct_sent hsend' act (.direct s.edge.nextDirect) d.port act.isWrite false
  have haperture := (Admits.issued h hop hform).trans (State.issueAct_remote hsend'.1 hreplica p _ d.port)
  have hdirects := congrArg (fun t : State => t.edge.directs) hsw
  refine .of_answer (u := s.admitted d act p fpa true) (hexec.trans (congrArg settled haperture)) hfin hsw
    ⟨?_, hsent, hsw.mem, hsw.work, hsw.xlat, hsw.out⟩
  have hget : tget s.edge.nextDirect (s.admitted d act p fpa true).edge.directs = some (s.directRecord d act p fpa true) :=
    if_pos rfl
  rw [hdirects]
  exact congrArg (Option.map _) hget

end Sys2Proof.Machine
end

section
namespace Sys2Proof.Machine

/-! ### An access of this chip at a home agent that nothing holds up -/

theorem State.Counted.unitRanges {s t : State} {p : Nat} (h : s.Counted t p) (hp : p < 4096) {u : Nat} (hu : u < 36) :
    t.unitRanges u = s.unitRanges u := by
  have hgddr : u < 32 → t.get (R.GDDR_STAT_FRAMES (u - 16)) = s.get (R.GDDR_STAT_FRAMES (u - 16)) := fun _ =>
    h.fields _ (by simp only [List.mem_singleton, forall_eq, R.GDDR_STAT_FRAMES, R.PWR_ENERGY_NJ]; omega)
  have hmemp : t.get (R.MEMP_STAT_FRAMES (u - 32)) = s.get (R.MEMP_STAT_FRAMES (u - 32)) :=
    h.fields _ (by simp only [List.mem_singleton, forall_eq, R.MEMP_STAT_FRAMES, R.PWR_ENERGY_NJ]; omega)
  have hedge (i : Nat) : t.get (R.EDGE_STAT_FRAMES i) = s.get (R.EDGE_STAT_FRAMES i) :=
    h.fields _ (by simp only [List.mem_singleton, forall_eq, R.EDGE_STAT_FRAMES, R.PWR_ENERGY_NJ]; omega)
  unfold State.unitRanges
  split
  next hnear => rw [hgddr hnear]
  next => simp only [hmemp, hedge, h.get_role, h.get_farUnit]

/-- Counting an access changes nothing of whose frame its bytes are in. -/
theorem State.Counted.frameErr {s t : State} {p : Nat} (h : s.Counted t p) (hp : p < 4096) {fpa : Nat} (hu : fpaUnit fpa < 36)
    (q : Nat) : t.frameErr fpa q = s.frameErr fpa q := by
  unfold State.frameErr State.populated State.isLost State.frameRec
  rw [h.unitRanges hp hu, h.xlat]

/-- An access of this chip to bytes of the near or far tier that nothing refuses or holds up, with no copy of its lines to take
back first (R127, R128, R251, R351, R388). -/
structure State.ServesHere (s : State) (a : HeldAccess) (k : Cont) : Prop where
  who : a.who = .here k
  intact : s.Intact a.fpa a.act.len
  quiet : s.inQuiet a.fpa = false
  forward : s.forwardOf a.fpa = none
  frame : s.frameErr a.fpa a.partition = .none
  form : atomicForm a.fpa a.act = .none
  order : a.act.isWrite = true → s.orderBusy a.order (fpaUnit a.fpa) = false
  clear : (linesOf a.fpa a.act.len).all (s.lineClear a.act.isWrite) = true
  copies : a.act.isWrite = true → s.hasCopies a.fpa a.act.len = false

/-- Such an access is counted and performed at once. -/
theorem State.ServesHere.atHome {s : State} {a : HeldAccess} {k : Cont} (h : s.ServesHere a k) :
    ∃ u, s.Counted u a.partition ∧ s.atHome a = u.perform a := by
  let u := (s.heatOf a.fpa a.act.len a.act.isWrite a.asker).chargeHome a.fpa a.partition a.act.len
  have hu : s.Counted u a.partition := (State.Counted.heatOf s _ _ _ _ _).chargeHome
  have hclear : (linesOf a.fpa a.act.len).all (u.lineClear a.act.isWrite) = true := by
    rw [funext (State.lineClear_congr hu.home a.act.isWrite)]
    exact h.clear
  have hcopies : a.act.isWrite = true → u.hasCopies a.fpa a.act.len = false := fun hw => (hu.hasCopies _ _).trans (h.copies hw)
  have hserve : u.serve a = u.perform a := by rw [State.serve, h.who]
  refine ⟨u, hu, ?_⟩
  calc s.atHome a = s.homeAct a := State.atHome_of_stays h.quiet h.forward
    _ = u.takeAndServe a := State.homeAct_of_ok (State.homeCheck_none h.intact.tier h.frame h.form) h.order
    _ = u.serve a := State.takeAndServe_of_clear hclear hcopies
    _ = u.perform a := hserve

/-- A read gives the bytes of its range. -/
theorem State.perform_read_here {s : State} {a : HeldAccess} {k : Cont} {len : Nat} (hwho : a.who = .here k)
    (hact : a.act = .read len) (h : s.Intact a.fpa len) :
    s.perform a = s.finish k .none (memRead s.mem (memKey (fpaUnit a.fpa) (fpaOff a.fpa)) len) := by
  have hdo : s.homeDo a.fpa a.partition a.act a.whole (s.isSpec a.who) =
      (s, .none, memRead s.mem (memKey (fpaUnit a.fpa) (fpaOff a.fpa)) len) := by
    rw [hact]
    exact State.homeRead_of_intact h a.partition _
  have hread : ¬ a.act.isWrite = true := by rw [hact]; exact Bool.false_ne_true
  rw [State.perform, if_neg hread]
  refine (if_neg (not_lt.2 h.tier)).trans ((State.unitAct_of_intact h hdo).trans ?_)
  rw [hwho]
  rfl

/-- A write whose lines have no copies writes its bytes. -/
theorem State.perform_write_here {s : State} {a : HeldAccess} {k : Cont} {data : List Byte} (hwho : a.who = .here k)
    (hact : a.act = .write data) (h : s.Intact a.fpa data.length) :
    ∃ poisoned badTags, s.perform a = ({ s.takeCopies a with
      mem := memWrite s.mem (memKey (fpaUnit a.fpa) (fpaOff a.fpa)) data,
      home := { (s.takeCopies a).home with poisoned := poisoned, badTags := badTags } } : State).finish k .none [] := by
  obtain ⟨poisoned, badTags, hwrite⟩ := State.homeWrite_of_intact (h.takeCopies a) a.partition a.whole
  have hdo : (s.takeCopies a).homeDo a.fpa a.partition a.act a.whole ((s.takeCopies a).isSpec a.who) =
      ({ s.takeCopies a with
        mem := memWrite s.mem (memKey (fpaUnit a.fpa) (fpaOff a.fpa)) data,
        home := { (s.takeCopies a).home with poisoned := poisoned, badTags := badTags } }, .none, []) := by
    rw [hact]
    exact State.homeDo_write hwrite _
  refine ⟨poisoned, badTags, (State.perform_of_write (by rw [hact]; rfl) h.tier).trans ?_⟩
  refine (State.unitAct_of_intact (h.takeCopies a) hdo).trans ?_
  rw [hwho]
  rfl

end Sys2Proof.Machine
end

section
namespace Sys2Proof.Machine

/-! ### A direct request completes (R342) -/

theorem State.foldl_emit {α : Type} (s : State) (f : α → Out) (l : List α) :
    l.foldl (fun s i => s.emit (f i)) s = { s with out := s.out ++ l.map f } := by
  induction l generalizing s with
  | nil => rw [List.foldl_nil, List.map_nil, List.append_nil]
  | cons a l ih =>
    rw [List.foldl_cons, ih, List.map_cons, ← List.singleton_append, ← List.append_assoc]
    rfl

/-- The completions of a direct request that succeeded: read data in pieces, in address order. -/
def completionsOf (port tag : Nat) (isRead : Bool) (data : List Byte) : List Out :=
  if isRead then (List.range (ceilDiv data.length 256)).map (fun i =>
    .completion port tag .successful .none ((data.drop (256 * i)).take 256))
  else [.completion port tag .successful .none data]

theorem State.completeDirect_successful {s : State} {port : Nat} (hup : s.get (R.EDGE_STAT_STATE port) = 2) (tag p addr : Nat)
    {isRead : Bool} {data : List Byte} (hdata : isRead = true → 0 < data.length) :
    s.completeDirect port tag p addr isRead .none data = { s with out := s.out ++ completionsOf port tag isRead data } := by
  have hcode : cplOf isRead .none = .successful := rfl
  simp only [State.completeDirect, hcode, true_or, if_true, State.edgeUp_of_active hup, Bool.not_true, Bool.false_eq_true, if_false,
    and_true]
  cases isRead with
  | false => rfl
  | true =>
    have hpos : 1 ≤ ceilDiv data.length 256 := by
      have hlen := hdata rfl
      unfold ceilDiv
      omega
    rw [if_pos rfl, Nat.max_eq_right hpos, State.foldl_emit]
    rfl

/-! ### A direct request at its home on this chip (R35, R84, R98) -/

/-- The state in which the access of an admitted direct request is performed, before its completion. -/
structure State.DirectServed (s v : State) (d : Direct) (act : HomeAct) (p fpa : Nat) : Prop where
  edge : v.edge = (s.admitted d act p fpa true).edge
  fields : OnlyFields [R.PWR_ENERGY_NJ p] s v
  work : v.work = s.work
  xlat : v.xlat = s.xlat
  out : v.out = s.out
  ptus : v.ptus = s.ptus
  finished : v.home.finished = s.home.finished
  updates : v.parser.updates = s.parser.updates
  moves : (∀ m ∈ s.parser.migrations, m.quiesce = false) → ∀ m ∈ v.parser.migrations, m.quiesce = false

theorem State.DirectServed.get_edge {s v : State} {d : Direct} {act : HomeAct} {p fpa : Nat} (h : s.DirectServed v d act p fpa)
    (hp : p < 4096) (i : Nat) : v.get (R.EDGE_STAT_STATE i) = s.get (R.EDGE_STAT_STATE i) :=
  h.fields _ (by simp only [List.mem_singleton, forall_eq, R.EDGE_STAT_STATE, R.PWR_ENERGY_NJ]; omega)

theorem State.DirectServed.calm {s v : State} {d : Direct} {act : HomeAct} {p fpa : Nat} (h : s.DirectServed v d act p fpa)
    (hp : p < 4096) (hcalm : Calm s) : Calm v := by
  let w : State := { s with parser := v.parser }
  have hw : Calm w := by
    obtain ⟨hfin, hclauses, hmoves, hupdates, hedges, hptus⟩ := hcalm
    exact ⟨hfin, hclauses, h.moves hmoves, h.updates.trans hupdates, hedges, hptus⟩
  refine hw.congr (h.finished.trans hcalm.1) (congrArg Work.clauses h.work) rfl rfl h.ptus (fun i _ => h.get_edge hp i)
    (fun u _ => h.fields _ ?_) (h.fields _ ?_)
  · simp only [List.mem_singleton, forall_eq, R.PTU_STAT_STATE, R.PWR_ENERGY_NJ]
    omega
  · simp only [List.mem_singleton, forall_eq, R.CONJ_CTL_ROT_PTU, R.PWR_ENERGY_NJ]
    omega

/-- A direct request whose access was performed is completed. -/
theorem Completes.direct_served {c : Instr} {s v : State} {d : Direct} {op p fpa : Nat} (h : Admits s d op p fpa) (hcalm : Calm s)
    {act : HomeAct} {data : List Byte} (hv : s.DirectServed v d act p fpa)
    (hexec : exec c s = settled (v.finish (.direct s.edge.nextDirect) .none data))
    (hdata : (s.directRecord d act p fpa true).isRead = true → 0 < data.length) :
    Completes c s (fun t =>
      t.out = s.out ++ completionsOf d.port d.tag (s.directRecord d act p fpa true).isRead data ∧ t.mem = v.mem ∧
        t.edge.directs = [] ∧ t.xlat = s.xlat ∧ t.work = s.work) := by
  obtain ⟨-, hfin, -, -, -, hstate, -, -, -, -, -, -, -, -, hp, -⟩ := h
  obtain ⟨hists, hdone⟩ := State.directDone_only (s := v) (d := s.directRecord d act p fpa true)
    (congrArg Edge.directs hv.edge) .none data
  let w : State := { v with edge := { v.edge with directs := [] }, tele := { v.tele with hists := hists } }
  let t : State := { w with out := w.out ++ completionsOf d.port d.tag (s.directRecord d act p fpa true).isRead data }
  have hup : w.get (R.EDGE_STAT_STATE d.port) = 2 := (hv.get_edge hp d.port).trans hstate
  have hcont : v.continue (.direct s.edge.nextDirect) .none data = t := by
    refine hdone.trans ?_
    rw [if_pos rfl]
    refine (congrArg State.pumpDirects (State.completeDirect_successful (s := w) hup d.tag p _ hdata)).trans ?_
    exact State.pumpDirects_of_nil rfl
  have hcalmt : Calm t := (hv.calm hp hcalm).congr (hv.finished.trans hfin) rfl rfl rfl rfl (fun _ _ => rfl) (fun _ _ => rfl) rfl
  refine .of_next (hexec.trans (settled_finish_of_calm (hv.finished.trans hfin) hcont hcalmt)) ⟨?_, rfl, rfl, hv.xlat, hv.work⟩
  exact congrArg (· ++ completionsOf d.port d.tag (s.directRecord d act p fpa true).isRead data) hv.out

theorem State.Counted.directServed {s u : State} {d : Direct} {act : HomeAct} {p fpa : Nat}
    (h : (s.admitted d act p fpa true).Counted u p) : s.DirectServed u d act p fpa where
  edge := h.edge
  fields := (s.admitted_onlyFields d act p fpa true).trans h.fields
  work := h.work
  xlat := h.xlat
  out := h.out
  ptus := by rw [h.frame]; rfl
  finished := congrArg Home.finished h.home
  updates := by rw [h.frame]; rfl
  moves hmoves := by rw [h.frame]; exact hmoves

theorem State.DirectServed.written {s v : State} {d : Direct} {act : HomeAct} {p fpa : Nat} (h : s.DirectServed v d act p fpa)
    (a : HeldAccess) {mem poisoned badTags} :
    s.DirectServed { v.takeCopies a with mem := mem, home := { (v.takeCopies a).home with poisoned := poisoned, badTags := badTags } }
      d act p fpa where
  edge := h.edge
  fields := h.fields
  work := h.work
  xlat := h.xlat
  out := h.out
  ptus := h.ptus
  finished := h.finished
  updates := h.updates
  moves hmoves m hm := by
    obtain ⟨m₀, hm₀, rfl⟩ := List.mem_map.1 hm
    have hquiet := h.moves hmoves m₀ hm₀
    dsimp only
    split
    · exact hquiet
    · exact hquiet

end Sys2Proof.Machine
end

section
namespace Sys2Proof.Machine

/-- Bytes of this chip that a direct request reaches at once (R20, R22, R128, R351, R388). -/
structure State.DirectHere (s : State) (act : HomeAct) (p fpa : Nat) : Prop where
  here : fpaChip fpa = s.chip
  unit : fpaUnit fpa < 36
  intact : s.Intact fpa act.len
  quiet : s.inQuiet fpa = false
  forward : s.forwardOf fpa = none
  frame : s.frameErr fpa p = .none
  clear : (linesOf fpa act.len).all (s.lineClear act.isWrite) = true
  copies : act.isWrite = true → s.hasCopies fpa act.len = false
  idle : act.isWrite = true → s.home.ops = [] ∧ s.home.farWait = [] ∧ s.home.lockWait = [] ∧ s.home.writeQueue = [] ∧
    s.home.orderWait = [] ∧ s.home.memReqs = []

theorem State.orderBusy_of_nil {s : State} (h : s.home.ops = [] ∧ s.home.farWait = [] ∧ s.home.lockWait = [] ∧
    s.home.writeQueue = [] ∧ s.home.orderWait = [] ∧ s.home.memReqs = []) (order : Option Nat) (unit : Nat) :
    s.orderBusy order unit = false := by
  obtain ⟨hops, hfar, hlock, hqueue, horder, hmem⟩ := h
  cases order with
  | none => rfl
  | some k =>
    rw [State.orderBusy, hops, hfar, hlock, hqueue, horder, hmem]
    rfl

theorem State.Intact.admitted {s : State} {fpa len : Nat} (h : s.Intact fpa len) (d : Direct) (act : HomeAct) (p : Nat) :
    (s.admitted d act p fpa true).Intact fpa len := by
  have hport : (s.admitted d act p fpa true).farPort fpa = s.farPort fpa := (s.charge_counted p 0 act.len).farPort fpa
  obtain ⟨htier, hlink, hpoison, htags⟩ := h
  refine ⟨htier, ?_, hpoison, htags⟩
  rw [hport]
  exact hlink

theorem State.DirectHere.serves {s : State} {d : Direct} {act : HomeAct} {p fpa : Nat} (h : s.DirectHere act p fpa)
    (hp : p < 4096) (hform : atomicForm fpa act = .none) :
    (s.admitted d act p fpa true).ServesHere (s.directAccess d act p fpa) (.direct s.edge.nextDirect) := by
  have hframe : (s.admitted d act p fpa true).frameErr fpa p = .none :=
    ((s.charge_counted p 0 act.len).frameErr hp h.unit p).trans h.frame
  have hclear : (linesOf fpa act.len).all ((s.admitted d act p fpa true).lineClear act.isWrite) = true := by
    rw [funext (State.lineClear_congr (t := s.admitted d act p fpa true) (s := s) rfl act.isWrite)]
    exact h.clear
  have hcopies (hwrite : act.isWrite = true) : (s.admitted d act p fpa true).hasCopies fpa act.len = false :=
    ((s.charge_counted p 0 act.len).hasCopies fpa act.len).trans (h.copies hwrite)
  exact ⟨rfl, h.intact.admitted d act p, h.quiet, h.forward, hframe, hform,
    fun hwrite => State.orderBusy_of_nil (s := s.admitted d act p fpa true) (h.idle hwrite) _ _, hclear, hcopies⟩

/-- An admitted request whose home is this chip is an access there. -/
theorem State.DirectHere.performed {s : State} {d : Direct} {op p fpa : Nat} (h : Admits s d op p fpa) {act : HomeAct}
    (hop : act.op = op) (hform : ∀ a, atomicForm a act = .none) (hhere : s.DirectHere act p fpa) :
    ∃ u, s.DirectServed u d act p fpa ∧ u.Intact fpa act.len ∧ u.mem = s.mem ∧
      s.aperture d act = u.perform (s.directAccess d act p fpa) := by
  have hp : p < 4096 := by
    obtain ⟨-, -, -, -, -, -, -, -, -, -, -, -, -, -, hp, -⟩ := h
    exact hp
  have hserves := hhere.serves (d := d) hp (hform fpa)
  obtain ⟨u, hu, hperform⟩ := hserves.atHome
  refine ⟨u, hu.directServed, hserves.intact.counted hu, hu.mem, ?_⟩
  rw [Admits.issued h hop (hform _), State.issueAct_home (hhere.here.trans (State.admitted_chip ..).symm), hperform]

theorem Completes.direct_read {s : State} {d : Direct} {p fpa : Nat} (h : Admits s d 0 p fpa) (hcalm : Calm s)
    (hhere : s.DirectHere (.read d.len) p fpa) :
    Completes (.apertureRead d) s (fun t => t.out = s.out ++ (List.range (ceilDiv d.len 256)).map (fun i => .completion d.port d.tag
          .successful .none (((memRead s.mem (memKey (fpaUnit fpa) (fpaOff fpa)) d.len).drop (256 * i)).take 256)) ∧
        t.edge.directs = [] ∧ t.mem = s.mem ∧ t.xlat = s.xlat ∧ t.work = s.work) := by
  obtain ⟨u, hu, hintact, hmem, haperture⟩ := State.DirectHere.performed h (act := .read d.len) rfl (fun _ => rfl) hhere
  have hexec := h.exec_read.trans (congrArg settled (haperture.trans (State.perform_read_here (s := u) rfl rfl hintact)))
  rw [hmem] at hexec
  have hlen := memRead_length s.mem (memKey (fpaUnit fpa) (fpaOff fpa)) d.len
  have hpos : 0 < d.len := by
    obtain ⟨-, -, -, -, -, -, -, -, -, hpos, -⟩ := h
    exact hpos
  obtain ⟨t, hstep, hout, htmem, hdirects, hxlat, hwork⟩ := Completes.direct_served h hcalm hu hexec (fun _ => hlen.symm ▸ hpos)
  refine ⟨t, hstep, hout.trans ?_, hdirects, htmem.trans hmem, hxlat, hwork⟩
  have hpieces : completionsOf d.port d.tag true (memRead s.mem (memKey (fpaUnit fpa) (fpaOff fpa)) d.len) = _ := if_pos rfl
  rw [hlen] at hpieces
  exact congrArg (s.out ++ ·) hpieces

theorem Completes.direct_write {s : State} {d : Direct} {data : List Byte} {p fpa : Nat} (h : Admits s d 1 p fpa) (hcalm : Calm s)
    (hhere : s.DirectHere (.write data) p fpa) :
    Completes (.apertureWrite d data) s (fun t => t.out = s.out ++ [.completion d.port d.tag .successful .none []] ∧
        t.mem = memWrite s.mem (memKey (fpaUnit fpa) (fpaOff fpa)) data ∧ t.edge.directs = [] ∧ t.xlat = s.xlat ∧
        t.work = s.work) := by
  obtain ⟨u, hu, hintact, hmem, haperture⟩ := State.DirectHere.performed h (act := .write data) rfl (fun _ => rfl) hhere
  obtain ⟨poisoned, badTags, hperform⟩ := State.perform_write_here (s := u) (a := s.directAccess d (.write data) p fpa) rfl rfl
    hintact
  have hexec := (h.exec_write data).trans (congrArg settled (haperture.trans hperform))
  obtain ⟨t, hstep, hout, htmem, hdirects, hxlat, hwork⟩ :=
    Completes.direct_served h hcalm (hu.written _) hexec (fun hread => absurd hread Bool.false_ne_true)
  exact ⟨t, hstep, hout, htmem.trans (congrArg (memWrite · _ data) hmem), hdirects, hxlat, hwork⟩

/-- Settles O18: a request for another chip leaves under the lowest free tag; one for this chip is performed at its home agent
and completed. -/
theorem directRequestsReachTheirHome : Obligations.DirectRequestsReachTheirHome := by
  refine ⟨?_, ?_, ?_, ?_, ?_⟩
  · intro s d p fpa h hfar hreplica hreach hwait hquota htrack
    exact .direct_remote h h.exec_read rfl rfl ⟨hfar, hreach, hwait, hquota, htrack⟩ (fun _ => hreplica)
  · intro s d data p fpa h hfar hreach hwait hquota htrack
    exact .direct_remote h (h.exec_write data) rfl rfl ⟨hfar, hreach, hwait, hquota, htrack⟩
      (fun hread => absurd hread Bool.noConfusion)
  · intro s d op operand compare p fpa h hwidth haligned hfar hreach hwait hquota htrack
    exact .direct_remote h (h.exec_atomic op operand compare) rfl (atomicForm_none hwidth haligned operand compare)
      ⟨hfar, hreach, hwait, hquota, htrack⟩ (fun hread => absurd hread Bool.noConfusion)
  · intro s d p fpa h hcalm hhere hunit hlink hquiet hforward hframe hpoison htags hclear
    exact .direct_read h hcalm ⟨hhere, hunit.2, ⟨hunit.1, hlink, hpoison, htags⟩, hquiet, hforward, hframe, hclear,
      fun hwrite => absurd hwrite Bool.false_ne_true, fun hwrite => absurd hwrite Bool.false_ne_true⟩
  · intro s d data p fpa h hcalm hhere hunit hlink hquiet hforward hframe hpoison htags hclear hcopies hidle
    exact .direct_write h hcalm ⟨hhere, hunit.2, ⟨hunit.1, hlink, hpoison, htags⟩, hquiet, hforward, hframe, hclear,
      fun _ => hcopies, fun _ => hidle⟩

end Sys2Proof.Machine
end

section
namespace Sys2Proof.Machine

/-! ### A request of the directory exchange and its answer (R253) -/

theorem State.dirServe_of_active {s : State} {m : DirMsg} (hlive : s.live = true)
    (hactive : s.get (R.PART_STATE_STATE m.partition) = 1) (op : Nat) (f : State → State) : s.dirServe m op f = settled (f s) := by
  have herr : s.dirErr m op = .none := by
    rw [State.dirErr, hactive]
    rfl
  refine congrArg settled ((State.whenLive_live hlive _).trans ?_)
  rw [State.dirRequest, herr]

/-- A state whose switch core has taken in the same frames, and that reaches the same chips. -/
structure State.SameLinks (s v : State) : Prop where
  nextFrame : v.fabric.nextFrame = s.fabric.nextFrame
  waitIn : v.fabric.waitIn = s.fabric.waitIn
  unreachable : ∀ u, v.unreachable u = s.unreachable u

theorem State.SameLinks.of_regs {s v : State} (hfabric : v.fabric = s.fabric) (htele : v.tele = s.tele) (hboot : v.boot = s.boot)
    (hregs : v.regs = s.regs) : s.SameLinks v where
  nextFrame := congrArg Fabric.nextFrame hfabric
  waitIn := congrArg Fabric.waitIn hfabric
  unreachable := State.unreachable_congr htele hboot (State.chip_congr hregs)

theorem State.SwitchOnly.dirAnswer (v : State) (m : DirMsg) (op : Nat) (e : Err) (old new : Nat) :
    v.SwitchOnly (v.dirAnswer m op e old new) :=
  (State.SwitchOnly.refl v).sendResponse

theorem State.SwitchOnly.parser {s t : State} (h : s.SwitchOnly t) : t.parser = s.parser := by
  unfold State.SwitchOnly at h
  rw [h]

/-- The answer names its request's tag and bears its status (R253, Table 10-5). -/
theorem State.SameLinks.answered {s v : State} {m : DirMsg} (h : s.SameLinks v) (hsrc : m.src < 2 ^ 15)
    (hreach : s.unreachable m.src = false) (op : Nat) (e : Err) (old new : Nat) :
    Answered s (v.dirAnswer m op e old new) m.src m.tag 0xd .none
      (dirBytes (op + 128) e { m with oldFrame := old, newFrame := new }) :=
  (sendResponse_emits hsrc ((h.unreachable _).trans hreach) ..).congr h.nextFrame h.waitIn

theorem Completes.of_dirAnswer {c : Instr} {s v : State} {m : DirMsg} {op : Nat} {e : Err} {old new : Nat} {P : State → Prop}
    (hexec : exec c s = settled (v.dirAnswer m op e old new)) (hfin : v.home.finished = []) (hlinks : s.SameLinks v)
    (hsrc : m.src < 2 ^ 15) (hreach : s.unreachable m.src = false)
    (hP : ∀ t, Answered s t m.src m.tag 0xd .none (dirBytes (op + 128) e { m with oldFrame := old, newFrame := new }) →
      v.SwitchOnly t → P t) : Completes c s P :=
  have hsw := State.SwitchOnly.dirAnswer v m op e old new
  .of_answer hexec hfin hsw (hP _ (hlinks.answered hsrc hreach op e old new) hsw)

/-! ### PM_PREPARE and PM_RELEASE (R251) -/

/-- The state in which a page's clauses and copies of its entry are held back. -/
def State.holdPage (s : State) (p page : Nat) : State :=
  { s with parser := { s.parser with
    holding := if s.parser.holding.contains (p, page) then s.parser.holding else s.parser.holding ++ [(p, page)] } }

theorem State.mem_holdPage (s : State) (p page : Nat) : (p, page) ∈ (s.holdPage p page).parser.holding := by
  by_cases h : (p, page) ∈ s.parser.holding
  · simp [State.holdPage, h]
  · simp [State.holdPage, h]

/-- The state in which a page is held back no more. -/
def State.releasePage (s : State) (p page : Nat) : State :=
  { s with parser := { s.parser with holding := s.parser.holding.filter (· != (p, page)) } }

theorem State.mem_releasePage {s : State} {p page : Nat} {x : Nat × Nat} :
    x ∈ (s.releasePage p page).parser.holding ↔ x ∈ s.parser.holding ∧ x ≠ (p, page) := by
  simp [State.releasePage]

/-! ### PM_UPDATE (R251) -/

/-- The state in which a page's entry names its new frame, and the page is held back no more. -/
def State.switched (s : State) (m : DirMsg) (i : Nat) (e : PmEntry) : State :=
  (s.setPm i { e with chip := fpaChip m.newFrame, unit := fpaUnit m.newFrame, frame := bits m.newFrame 42 21 }).releasePage
    m.partition m.page

theorem State.takeUpdate_elsewhere {s : State} {m : DirMsg} {i : Nat} {e : PmEntry}
    (hfind : s.pmFind m.partition m.page = some (i, e))
    (hfar : fpaChip m.newFrame ≠ s.chip) (hreplica : tget (m.oldFrame / 2 ^ 21) s.parser.replicas = none) :
    s.takeUpdate m = s.switched m i e := by
  have hmod (f : PmEntry → PmEntry) : s.modPm m.partition m.page f = s.setPm i (f e) := by
    rw [State.modPm, hfind]
  unfold State.takeUpdate
  extract_lets s1 p1 s2 p2 s3
  have h1 : s1 = s.setPm i { e with chip := fpaChip m.newFrame, unit := fpaUnit m.newFrame, frame := bits m.newFrame 42 21 } :=
    hmod _
  have h2 : s2 = s1 := by
    have hnone : tget (m.oldFrame / 2 ^ 21) s1.parser.replicas = none := by
      rw [h1]
      exact hreplica
    unfold s2
    rw [hnone]
  have h3 : s3 = s.switched m i e := by
    unfold s3 p2
    rw [h2, h1]
    rfl
  rw [h3]
  exact if_neg hfar

theorem frameOf_frameOf (fpa : Nat) : frameOf (frameOf fpa) = frameOf fpa := by
  simp only [frameOf]
  omega

theorem State.inFlightTo_frameOf (s : State) (fpa : Nat) : s.inFlightTo (frameOf fpa) = s.inFlightTo fpa := by
  rw [State.inFlightTo, frameOf_frameOf, State.inFlightTo]

/-- An update whose old frame no access reaches is answered at once. -/
theorem State.answerUpdates_single {v : State} {u : DirMsg × Nat × Nat} (hupdates : v.parser.updates = [u])
    (hquiet : v.inFlightTo u.2.1 = false) :
    v.answerUpdates = ({ v with parser := { v.parser with updates := [] } } : State).dirAnswer u.1 4 .none u.2.1 u.2.2 := by
  have hleft : v.parser.updates.filter (fun w => w != u) = [] := by simp [hupdates]
  rw [State.answerUpdates, hupdates, List.foldl_cons, List.foldl_nil]
  refine (if_neg (Bool.eq_false_iff.1 hquiet)).trans ?_
  dsimp only
  rw [hleft]

section
variable {s : State} {m : DirMsg} (hlive : s.live = true) (hfin : s.home.finished = [])
  (hactive : s.get (R.PART_STATE_STATE m.partition) = 1) (hsrc : m.src < 2 ^ 15) (hreach : s.unreachable m.src = false)
include hlive hfin hactive hsrc hreach

theorem Completes.pmPrepare_held (hfree : s.noExtent m.oldFrame = true) :
    Completes (.pmPrepare m) s (fun t => (m.partition, m.page) ∈ t.parser.holding ∧
      Answered s t m.src m.tag 0xd .none (dirBytes 131 .none { m with newFrame := 0 }) ∧
      t.parser = { s.parser with holding := t.parser.holding } ∧ t.mem = s.mem ∧ t.work = s.work ∧ t.xlat = s.xlat ∧
      t.out = s.out) := by
  have hexec : exec (.pmPrepare m) s = settled ((s.holdPage m.partition m.page).dirAnswer m 3 .none m.oldFrame 0) :=
    (State.dirServe_of_active hlive hactive 3 _).trans (congrArg settled (if_pos hfree))
  refine .of_dirAnswer hexec hfin (.of_regs rfl rfl rfl rfl) hsrc hreach (fun t hans hsw => ?_)
  have hparser := hsw.parser
  refine ⟨?_, hans, ?_, hsw.mem, hsw.work, hsw.xlat, hsw.out⟩
  · rw [hparser]
    exact s.mem_holdPage m.partition m.page
  · rw [hparser]
    rfl

theorem Completes.pmPrepare_refused (hextent : s.noExtent m.oldFrame = false) :
    Completes (.pmPrepare m) s (fun t =>
      Answered s t m.src m.tag 0xd .none (dirBytes 131 .resource { m with newFrame := 0 }) ∧ t.parser = s.parser ∧
      t.mem = s.mem ∧ t.work = s.work ∧ t.xlat = s.xlat ∧ t.out = s.out) := by
  have hexec : exec (.pmPrepare m) s = settled (s.dirAnswer m 3 .resource m.oldFrame 0) :=
    (State.dirServe_of_active hlive hactive 3 _).trans (congrArg settled (if_neg (Bool.eq_false_iff.1 hextent)))
  exact .of_dirAnswer hexec hfin (.of_regs rfl rfl rfl rfl) hsrc hreach (fun t hans hsw =>
    ⟨hans, hsw.parser, hsw.mem, hsw.work, hsw.xlat, hsw.out⟩)

theorem Completes.pmRelease :
    Completes (.pmRelease m) s (fun t => (m.partition, m.page) ∉ t.parser.holding ∧
      (∀ x ∈ s.parser.holding, x ≠ (m.partition, m.page) → x ∈ t.parser.holding) ∧
      Answered s t m.src m.tag 0xd .none (dirBytes 133 .none { m with newFrame := 0 }) ∧ t.xlat = s.xlat ∧ t.mem = s.mem ∧
      t.work = s.work ∧ t.out = s.out) := by
  have hexec : exec (.pmRelease m) s = settled ((s.releasePage m.partition m.page).dirAnswer m 5 .none m.oldFrame 0) :=
    State.dirServe_of_active hlive hactive 5 _
  refine .of_dirAnswer hexec hfin (.of_regs rfl rfl rfl rfl) hsrc hreach (fun t hans hsw => ?_)
  have hparser := hsw.parser
  refine ⟨?_, fun x hx hne => ?_, hans, hsw.xlat, hsw.mem, hsw.work, hsw.out⟩
  · rw [hparser, State.mem_releasePage]
    exact fun h => h.2 rfl
  · rw [hparser, State.mem_releasePage]
    exact ⟨hx, hne⟩

theorem Completes.pmUpdate {i : Nat} {e : PmEntry} (hfind : s.pmFind m.partition m.page = some (i, e))
    (hfar : fpaChip m.newFrame ≠ s.chip) (hquiet : s.inFlightTo m.oldFrame = false) (hupdates : s.parser.updates = [])
    (hreplica : tget (m.oldFrame / 2 ^ 21) s.parser.replicas = none) :
    Completes (.pmUpdate m) s (fun t =>
      tget i t.xlat.pageMap = some { e with chip := fpaChip m.newFrame, unit := fpaUnit m.newFrame,
                                            frame := bits m.newFrame 42 21 } ∧
      (m.partition, m.page) ∉ t.parser.holding ∧ t.parser.updates = [] ∧
      Answered s t m.src m.tag 0xd .none
        (dirBytes 132 .none { m with oldFrame := frameOf m.oldFrame, newFrame := frameOf m.newFrame }) ∧
      t.mem = s.mem ∧ t.work = s.work ∧ t.out = s.out) := by
  let w := s.switched m i e
  let v : State := { w with parser := { w.parser with updates := [(m, frameOf m.oldFrame, frameOf m.newFrame)] } }
  let a : State := { w with parser := { w.parser with updates := [] } }
  have hlist : w.parser.updates ++ [(m, frameOf m.oldFrame, frameOf m.newFrame)] =
      [(m, frameOf m.oldFrame, frameOf m.newFrame)] :=
    congrArg (· ++ [(m, frameOf m.oldFrame, frameOf m.newFrame)]) hupdates
  have hunreached : v.inFlightTo (frameOf m.oldFrame) = false := (s.inFlightTo_frameOf m.oldFrame).trans hquiet
  have hanswer : v.answerUpdates = a.dirAnswer m 4 .none (frameOf m.oldFrame) (frameOf m.newFrame) :=
    State.answerUpdates_single (v := v) (u := (m, frameOf m.oldFrame, frameOf m.newFrame)) rfl hunreached
  have hexec : exec (.pmUpdate m) s = settled (a.dirAnswer m 4 .none (frameOf m.oldFrame) (frameOf m.newFrame)) := by
    refine (State.dirServe_of_active hlive hactive 4 _).trans (congrArg settled (Eq.trans ?_ hanswer))
    dsimp only
    rw [State.takeUpdate_elsewhere hfind hfar hreplica, hlist]
  refine .of_dirAnswer hexec hfin (.of_regs rfl rfl rfl rfl) hsrc hreach (fun t hans hsw => ?_)
  have hparser := hsw.parser
  refine ⟨?_, ?_, ?_, hans, hsw.mem, hsw.work, hsw.out⟩
  · rw [hsw.xlat]
    exact tget_tset_self ..
  · rw [hparser]
    exact fun h => (State.mem_releasePage.1 h).2 rfl
  · rw [hparser]

end

end Sys2Proof.Machine
end

section
namespace Sys2Proof.Machine

/-! ### DIR_REGISTER (R49, R50) -/

/-- Taking a frame changes one count of its partition, which is no field of the chip's position. -/
theorem State.chip_takeFrame (s : State) (k : Nat) (r : FrameRec) : (s.takeFrame k r).chip = s.chip := by
  refine State.takeFrame_onlyFields s k r R.BOOT_POS_CHIP ?_
  simp only [R.BOOT_POS_CHIP, R.PARSER_PART_NEAR_USED, R.PART_FAR_USED_USED, List.forall_mem_cons, List.not_mem_nil,
    false_imp_iff, implies_true, and_true]
  omega

theorem State.unreachable_takeFrame (s : State) (k : Nat) (r : FrameRec) (u : Nat) :
    (s.takeFrame k r).unreachable u = s.unreachable u := by
  refine State.unreachable_congr ?_ ?_ (s.chip_takeFrame k r) u
  · rw [s.takeFrame_frame]
  · rw [s.takeFrame_frame]

theorem State.frameRec_takeFrame (s : State) (k : Nat) (r : FrameRec) : (s.takeFrame k r).frameRec k = some r := by
  rw [s.takeFrame_frame]
  exact tget_tset_self ..

/-- Changing an entry of the page map changes nothing else. -/
theorem State.modPm_frame (s : State) (p page : Nat) (f : PmEntry → PmEntry) :
    s.modPm p page f = { s with xlat := { s.xlat with pageMap := (s.modPm p page f).xlat.pageMap } } := by
  unfold State.modPm
  split
  · rfl
  · rfl

theorem State.modHome_frame (s : State) (p page frame : Nat) (f : PmEntry → PmEntry) :
    s.modHome p page frame f = { s with xlat := { s.xlat with pageMap := (s.modHome p page frame f).xlat.pageMap } } :=
  s.modPm_frame ..

/-- The record of a frame that no chip has registered yet. -/
def DirRec.empty (p page frame : Nat) : DirRec :=
  { partition := p, page := page, frame := frame, registered := [], replicas := [], placing := [], placed := [] }

/-- A chip's registration takes the first record of an empty directory (R50). -/
theorem State.register_first {s : State} (h : s.parser.dir = []) (p page frame c : Nat) :
    ∃ pageMap, s.register p page frame c = some { s with
      xlat := { s.xlat with pageMap := pageMap },
      parser := { s.parser with dir := [(0, { DirRec.empty p page frame with registered := [c] })] } } := by
  let v := s.setDirRec 0 (DirRec.empty p page frame)
  let u := v.modHome p page frame (fun e => { e with dirIndex := 0 })
  have hframe : u = { v with xlat := { v.xlat with pageMap := u.xlat.pageMap } } := v.modHome_frame ..
  have htake : s.takeDir p page frame = some (u, 0, DirRec.empty p page frame) := by
    have hused : ¬ 65535 ≤ s.dirUsed := by
      rw [State.dirUsed, h]
      exact Nat.not_succ_le_zero _
    have hnone : s.parser.dir.find? (fun d => d.2.frame == frame) = none := by rw [h]; rfl
    have hgap : firstGap 0 s.parser.dir = 0 := by rw [h]; rfl
    rw [State.takeDir, hnone]
    refine (if_neg hused).trans ?_
    rw [hgap]
    rfl
  have hdir : u.parser.dir = [(0, DirRec.empty p page frame)] := by
    rw [hframe]
    exact congrArg (tset 0 (DirRec.empty p page frame)) h
  have hset (d : DirRec) : (u.setDirRec 0 d).parser.dir = [(0, d)] := by
    have hone := tset_single 0 (DirRec.empty p page frame) d
    rw [← hdir] at hone
    exact hone
  have hroom : ¬ 65535 < (u.setDirRec 0 { DirRec.empty p page frame with registered := [c] }).dirUsed := by
    rw [State.dirUsed, hset]
    simp [DirRec.records, ceilDiv]
  refine ⟨u.xlat.pageMap, ?_⟩
  rw [State.register, htake]
  refine (if_neg Bool.false_ne_true).trans ((if_neg hroom).trans (congrArg some ?_))
  rw [← hset { DirRec.empty p page frame with registered := [c] }, State.setDirRec, hframe]
  rfl

theorem State.active_of_partErr {s : State} {p : Nat} (h : s.partErr p = .none) : s.get (R.PART_STATE_STATE p) = 1 := by
  unfold State.partErr at h
  split at h
  · cases h
  · assumption
  · cases h

theorem Completes.dirRegister {s : State} {m : DirMsg} {k : Nat} (hlive : s.live = true) (hfin : s.home.finished = [])
    (hpart : s.partErr m.partition = .none) (hmode : m.oldFrame % 2 ^ 21 = 0)
    (hframe : s.homeFrame m.partition m.page 0 m.oldFrame true = (.none, k, true)) (hdir : s.parser.dir = []) :
    Completes (.dirRegister m) s (fun t => t.frameRec k = some { owner := m.partition, page := m.page, use := .page } ∧
      t.parser.dir = [(0, { DirRec.empty m.partition m.page k with registered := [m.src] })] ∧
      tget k t.xlat.homeFills = some (m.src, m.tag, m.partition, m.page) ∧ t.mem = s.mem ∧ t.work = s.work ∧ t.out = s.out) := by
  let r : FrameRec := { owner := m.partition, page := m.page, use := .page }
  let u := (s.takeFrame k r).freshen
  have hu : u = { s with regs := u.regs, fresh := u.fresh, xlat := { s.xlat with frames := tset k r s.xlat.frames } } := by
    unfold u State.freshen
    rw [s.takeFrame_frame]
  have hdiru : u.parser.dir = [] := by
    rw [hu]
    exact hdir
  obtain ⟨pageMap, hregister⟩ := State.register_first hdiru m.partition m.page k m.src
  have hactive : s.get (R.PART_STATE_STATE m.partition) = 1 := State.active_of_partErr hpart
  have hexec : ∃ v : State, exec (.dirRegister m) s = settled v ∧ v = { u with
      xlat := { u.xlat with pageMap := pageMap, homeFills := tset k (m.src, m.tag, m.partition, m.page) u.xlat.homeFills },
      parser := { u.parser with dir := [(0, { DirRec.empty m.partition m.page k with registered := [m.src] })] } } := by
    refine ⟨_, (State.dirServe_of_active hlive hactive 1 _).trans (congrArg settled ?_), rfl⟩
    rw [State.registerAtHome, hpart, hmode, hframe]
    dsimp only
    rw [if_pos rfl, hregister]
    rfl
  obtain ⟨v, hexec, hv⟩ := hexec
  rw [hu] at hv
  refine .of_settled hexec ?_ ⟨?_, ?_, ?_, ?_, ?_, ?_⟩
  · rw [hv]
    exact hfin
  · rw [hv]
    exact tget_tset_self ..
  · rw [hv]
  · rw [hv]
    exact tget_tset_self ..
  all_goals rw [hv]

end Sys2Proof.Machine
end

section
namespace Sys2Proof.Machine

/-! ### DIR_UNREGISTER (R50) -/

/-- Freeing a frame changes one count of its owner, which is no field of the chip's position. -/
theorem State.chip_freeFrame (s : State) (k : Nat) : (s.freeFrame k).chip = s.chip := by
  cases hr : s.frameRec k with
  | none => rw [State.freeFrame, hr]
  | some r =>
    refine State.freeFrame_onlyFields hr R.BOOT_POS_CHIP ?_
    simp only [R.BOOT_POS_CHIP, R.PARSER_PART_NEAR_USED, R.PART_FAR_USED_USED, List.forall_mem_cons, List.not_mem_nil,
      false_imp_iff, implies_true, and_true]
    omega

/-- Frames returned, on a chip whose position stays. -/
structure State.Released (s t : State) : Prop extends s.Freed t where
  chip : t.chip = s.chip

theorem State.Released.refl (s : State) : s.Released s := ⟨.refl s, rfl⟩

theorem State.Released.freeFrame {s t : State} (h : s.Released t) (k : Nat) : s.Released (t.freeFrame k) :=
  ⟨h.toFreed.freeFrame k, (t.chip_freeFrame k).trans h.chip⟩

theorem State.Released.maybeFree {s t : State} (h : s.Released t) (k : Nat) : s.Released (t.maybeFree k) := by
  unfold State.maybeFree
  cases t.frameRec k with
  | none => exact h
  | some r =>
    dsimp -zeta only
    extract_lets mine regd
    clear_value mine regd
    split
    · exact h
    · split
      · exact h
      · exact h.freeFrame k

theorem State.Released.dropOffer {s t : State} (h : s.Released t) (k : Nat) : s.Released (t.dropOffer k) := by
  unfold State.dropOffer
  cases t.frameRec k with
  | none => exact h
  | some r =>
    dsimp only
    split
    · exact h.freeFrame k
    · exact h

theorem State.Released.unreachable {s t : State} (h : s.Released t) (u : Nat) : t.unreachable u = s.unreachable u :=
  State.unreachable_congr (by rw [h.frame]) (by rw [h.frame]) h.chip u

/-- A record that lists no chip any more gives itself up. -/
theorem State.pruneDir_setDirRec (s : State) (i : Nat) (d : DirRec) :
    ∃ pageMap, (s.setDirRec i d).pruneDir i = { s with
      xlat := { s.xlat with pageMap := pageMap },
      parser := { s.parser with dir := if d.registered = [] ∧ d.replicas = [] ∧ d.placing = [] then terase i (tset i d s.parser.dir)
                                       else tset i d s.parser.dir } } := by
  have hget : tget i (s.setDirRec i d).parser.dir = some d := tget_tset_self ..
  rw [State.pruneDir, hget]
  dsimp only
  split
  · rw [State.modHome_frame]
    exact ⟨_, rfl⟩
  · exact ⟨s.xlat.pageMap, rfl⟩

/-- The record of a chip's frame without the chip. -/
def DirRec.without (d : DirRec) (c : Nat) : DirRec := { d with registered := d.registered.filter (· != c) }

theorem Completes.dirUnregister {s : State} {m : DirMsg} {i : Nat} {d : DirRec} (hlive : s.live = true)
    (hfin : s.home.finished = []) (hactive : s.get (R.PART_STATE_STATE m.partition) = 1) (howner : s.notOwner m = false)
    (hfind : s.parser.dir.find? (fun d => d.2.frame == frameKey m.oldFrame) = some (i, d)) (hsrc : m.src < 2 ^ 15)
    (hreach : s.unreachable m.src = false) :
    Completes (.dirUnregister m) s (fun t =>
      tget i t.parser.dir = (if (d.without m.src).registered = [] ∧ d.replicas = [] ∧ d.placing = [] then none
        else some (d.without m.src)) ∧
      Answered s t m.src m.tag 0xd .none (dirBytes 130 .none { m with newFrame := 0 }) ∧ t.mem = s.mem ∧ t.work = s.work ∧
      t.out = s.out) := by
  obtain ⟨pageMap, hprune⟩ := s.pruneDir_setDirRec i (d.without m.src)
  obtain ⟨w, hw⟩ : ∃ w, w = (s.setDirRec i (d.without m.src)).pruneDir i := ⟨_, rfl⟩
  rw [← hw] at hprune
  let v := (w.maybeFree (frameKey m.oldFrame)).dropOffer (frameKey m.oldFrame)
  have hreleased : w.Released v := ((State.Released.refl w).maybeFree _).dropOffer _
  have hv := hreleased.frame
  rw [hprune] at hv
  have hexec : exec (.dirUnregister m) s = settled (v.dirAnswer m 2 .none m.oldFrame 0) := by
    refine (State.dirServe_of_active hlive hactive 2 _).trans (congrArg settled ((if_neg (Bool.eq_false_iff.1 howner)).trans ?_))
    dsimp only
    rw [State.unregister, hfind]
    dsimp only
    rw [← DirRec.without, ← hw]
  have hreachw (u : Nat) : w.unreachable u = s.unreachable u := by
    rw [hprune]
    exact State.unreachable_congr rfl rfl (State.chip_congr rfl) u
  have hlinks : s.SameLinks v := ⟨by rw [hv], by rw [hv], fun u => (hreleased.unreachable u).trans (hreachw u)⟩
  refine .of_dirAnswer hexec (by rw [hv]; exact hfin) hlinks hsrc hreach (fun t hans hsw => ?_)
  refine ⟨?_, hans, ?_, ?_, ?_⟩
  · rw [hsw.parser, hv]
    by_cases hempty : (d.without m.src).registered = [] ∧ d.replicas = [] ∧ d.placing = []
    · rw [if_pos hempty]
      exact (congrArg (tget i) (if_pos hempty)).trans (tget_terase_self ..)
    · rw [if_neg hempty]
      exact (congrArg (tget i) (if_neg hempty)).trans (tget_tset_self ..)
  · rw [hsw.mem, hv]
  · rw [hsw.work, hv]
  · rw [hsw.out, hv]

/-! ### REPL_PLACE and REHOME_OFFER (R252, R254) -/

/-- What depends on neither the registers nor the tables of translation stays when a frame is taken. -/
theorem State.takeFrame_keeps {α : Type} (s : State) (k : Nat) (r : FrameRec) (f : State → α)
    (hf : ∀ regs xlat, f { s with regs := regs, xlat := xlat } = f s) : f (s.takeFrame k r) = f s := by
  rw [s.takeFrame_frame]
  exact hf _ _

section
variable {s : State} {m : DirMsg} {k : Nat} (hlive : s.live = true) (hfin : s.home.finished = [])
  (hactive : s.get (R.PART_STATE_STATE m.partition) = 1) (hquota : s.quotaFull m.partition 16 = false)
  (hpick : s.nearPick = some k) (hsrc : m.src < 2 ^ 15) (hreach : s.unreachable m.src = false)
include hlive hfin hactive hquota hpick hsrc hreach

/-- The entry of a replica without valid blocks, of a page or of a region of edge memory, in a frame of this chip. -/
def Replica.empty (s : State) (m : DirMsg) (k : Nat) : Replica :=
  { frameFpa := keyFpa s.chip k, partition := m.partition, page := if fpaUnit m.oldFrame < 16 then 2 ^ 31 else m.page, valid := [],
    served := 0, heat := 0, epoch := s.parser.epochs }

theorem Completes.replPlace (hnew : tget (m.oldFrame / 2 ^ 21) s.parser.replicas = none)
    (hroom : s.parser.replicas.length < 16384) :
    Completes (.replPlace m) s (fun t => tget (m.oldFrame / 2 ^ 21) t.parser.replicas = some (.empty s m k) ∧
      t.frameRec k = some { owner := m.partition, page := (Replica.empty s m k).page, use := .replica } ∧
      Answered s t m.src m.tag 0xd .none (dirBytes 134 .none { m with newFrame := 0 }) ∧ t.mem = s.mem ∧ t.work = s.work ∧
      t.out = s.out) := by
  let u := s.takeFrame k { owner := m.partition, page := (Replica.empty s m k).page, use := .replica }
  have hu {α : Type} (f : State → α) (hf : ∀ regs xlat, f { s with regs := regs, xlat := xlat } = f s) : f u = f s :=
    s.takeFrame_keeps k _ f hf
  have hchip : u.chip = s.chip := s.chip_takeFrame ..
  have hparser : u.parser = s.parser := hu State.parser (fun _ _ => rfl)
  have hempty : Replica.empty u m k = Replica.empty s m k := by
    rw [Replica.empty, hchip, hparser, Replica.empty]
  let w : State := State.freshen { u with parser := { u.parser with
    replicas := tset (m.oldFrame / 2 ^ 21) (.empty u m k) u.parser.replicas } }
  have hexec : ∃ v : State, exec (.replPlace m) s = settled (v.dirAnswer m 6 .none m.oldFrame 0) ∧
      v = { w with xlat := { w.xlat with pageMap := v.xlat.pageMap } } := by
    refine ⟨_, (State.dirServe_of_active hlive hactive 6 _).trans (congrArg settled ?_), w.modPm_frame m.partition
      (Replica.empty s m k).page (fun e => if e.fpa / 2 ^ 21 = m.oldFrame / 2 ^ 21 then { e with replicated := true } else e)⟩
    have hserved : ¬ ((tget (m.oldFrame / 2 ^ 21) s.parser.replicas).isSome = true ∨ 16384 ≤ s.parser.replicas.length ∨
        s.quotaFull m.partition 16 = true) := by
      rw [hnew]
      simp [hroom, hquota]
    dsimp only
    rw [if_neg hserved, hpick]
    rfl
  obtain ⟨v, hexec, hv⟩ := hexec
  have hlinks : s.SameLinks v := by
    refine ⟨?_, ?_, fun x => ?_⟩
    · rw [hv]
      exact hu (fun t : State => t.fabric.nextFrame) (fun _ _ => rfl)
    · rw [hv]
      exact hu (fun t : State => t.fabric.waitIn) (fun _ _ => rfl)
    · rw [hv]
      exact (State.unreachable_congr (s := u) rfl rfl (State.chip_congr rfl) x).trans (s.unreachable_takeFrame ..)
  refine .of_dirAnswer hexec ?_ hlinks hsrc hreach (fun t hans hsw => ⟨?_, ?_, hans, ?_, ?_, ?_⟩)
  · rw [hv]
    exact (hu (fun t : State => t.home.finished) (fun _ _ => rfl)).trans hfin
  · rw [hsw.parser, hv, ← hempty]
    exact tget_tset_self ..
  · rw [State.frameRec, hsw.xlat, hv]
    exact s.frameRec_takeFrame ..
  · rw [hsw.mem, hv]
    exact hu State.mem (fun _ _ => rfl)
  · rw [hsw.work, hv]
    exact hu State.work (fun _ _ => rfl)
  · rw [hsw.out, hv]
    exact hu State.out (fun _ _ => rfl)

theorem Completes.rehomeOffer (hnear : fpaUnit m.oldFrame < 32) (hroom : s.dirUsed < 65535) :
    Completes (.rehomeOffer m) s (fun t =>
      t.frameRec k = some { owner := m.partition, page := m.page, use := .target } ∧
      tget (firstGap 0 s.parser.dir) t.parser.dir = some { DirRec.empty m.partition m.page k with registered := [m.src] } ∧
      Answered s t m.src m.tag 0xd .none (dirBytes 137 .none { m with newFrame := keyFpa s.chip k }) ∧ t.mem = s.mem ∧
      t.work = s.work ∧ t.out = s.out) := by
  let u := s.takeFrame k { owner := m.partition, page := m.page, use := .target }
  have hu {α : Type} (f : State → α) (hf : ∀ regs xlat, f { s with regs := regs, xlat := xlat } = f s) : f u = f s :=
    s.takeFrame_keeps k _ f hf
  have hchip : u.chip = s.chip := s.chip_takeFrame ..
  have hparser : u.parser = s.parser := hu State.parser (fun _ _ => rfl)
  let v : State := (u.setDirRec (firstGap 0 u.parser.dir) { DirRec.empty m.partition m.page k with registered := [m.src] }).freshen
  have hexec : exec (.rehomeOffer m) s = settled (v.dirAnswer m 9 .none m.oldFrame (keyFpa s.chip k)) := by
    refine (State.dirServe_of_active hlive hactive 9 _).trans (congrArg settled ?_)
    have hfar : decide (32 ≤ fpaUnit m.oldFrame) = false := decide_eq_false (Nat.not_le.2 hnear)
    have hserved : ¬ (65535 ≤ s.dirUsed ∨ s.quotaFull m.partition 16 = true) := by
      simp [hroom, hquota]
    dsimp only
    rw [hfar, if_neg Bool.false_ne_true, if_neg Bool.false_ne_true, if_neg hserved, hpick, ← hchip]
    rfl
  have hlinks : s.SameLinks v := by
    refine ⟨?_, ?_, fun x => ?_⟩
    · exact hu (fun t : State => t.fabric.nextFrame) (fun _ _ => rfl)
    · exact hu (fun t : State => t.fabric.waitIn) (fun _ _ => rfl)
    · exact (State.unreachable_congr (s := u) (t := v) rfl rfl (State.chip_congr rfl) x).trans (s.unreachable_takeFrame ..)
  refine .of_dirAnswer hexec ?_ hlinks hsrc hreach (fun t hans hsw => ⟨?_, ?_, hans, ?_, ?_, ?_⟩)
  · exact (hu (fun t : State => t.home.finished) (fun _ _ => rfl)).trans hfin
  · rw [State.frameRec, hsw.xlat]
    exact s.frameRec_takeFrame ..
  · rw [hsw.parser, ← hparser]
    exact tget_tset_self ..
  · exact hsw.mem.trans (hu State.mem (fun _ _ => rfl))
  · exact hsw.work.trans (hu State.work (fun _ _ => rfl))
  · exact hsw.out.trans (hu State.out (fun _ _ => rfl))

end

end Sys2Proof.Machine
end

section
namespace Sys2Proof.Machine

/-! ### What follows a completed access, whatever the registers hold -/

/-- No clause is parked or cancelled, no page in quiescence, and no PM_UPDATE unanswered: nothing but edge ports and PTUs may go
on once the completed accesses have had their effect. -/
structure State.Still (s : State) : Prop where
  finished : s.home.finished = []
  clauses : ∀ c ∈ s.work.clauses, c.2.stage ≠ .parked ∧ (c.2.cancelled = false ∨ c.2.ending.isSome = true)
  moves : ∀ m ∈ s.parser.migrations, m.quiesce = false
  updates : s.parser.updates = []

theorem State.still_of_calm {s : State} (h : Calm s) : s.Still := by
  obtain ⟨hfin, hclauses, hmoves, hupdates, -, -⟩ := h
  exact ⟨hfin, hclauses, hmoves, hupdates⟩

theorem State.Still.congr {s t : State} (h : s.Still) (hfin : t.home.finished = s.home.finished) (hwork : t.work = s.work)
    (hmoves : t.parser.migrations = s.parser.migrations) (hupdates : t.parser.updates = s.parser.updates) : t.Still where
  finished := hfin.trans h.finished
  clauses := by rw [hwork]; exact h.clauses
  moves := by rw [hmoves]; exact h.moves
  updates := hupdates.trans h.updates

/-- Edge ports and PTUs went on: register fields and the PTUs' own state changed, nothing else. -/
def State.Tidied (s t : State) : Prop := t = { s with regs := t.regs, ptus := t.ptus }

theorem State.Tidied.refl (s : State) : s.Tidied s := rfl

theorem State.Tidied.set {s t : State} (h : s.Tidied t) {f v} : s.Tidied (t.set f v) := by
  unfold State.Tidied at h ⊢
  rw [State.set_frame, h]

theorem State.Tidied.modPtu {s t : State} (h : s.Tidied t) {u f} : s.Tidied (t.modPtu u f) := by
  have hframe : t.modPtu u f = { t with ptus := (t.modPtu u f).ptus } := rfl
  unfold State.Tidied at h ⊢
  rw [hframe, h]

theorem State.Tidied.restPtu {s t : State} (h : s.Tidied t) (u : Nat) : s.Tidied (t.restPtu u) := by
  unfold State.restPtu
  extract_lets p gone v q
  have hv : s.Tidied v := by
    unfold v
    split
    · exact h.modPtu
    · exact h
  clear_value v
  split
  · split
    · exact hv.set
    · split
      · exact hv.set.set.modPtu
      · exact hv
  · exact hv

theorem State.Tidied.settleEdges (s : State) : s.Tidied s.settleEdges :=
  State.foldl_keeps (Q := s.Tidied) (.refl s) (fun t ht p _ => by
    split
    · exact ht.set
    · exact ht)

theorem State.Still.tidy {s : State} (h : s.Still) : s.Tidied s.tidy := by
  rw [State.tidy, State.giveParked_of_running (fun c hc => (h.clauses c hc).1),
    State.cancelDue_of_none (fun c hc => (h.clauses c hc).2), State.moveAll_of_none h.moves, State.answerUpdates_of_nil h.updates]
  exact State.foldl_keeps (Q := s.Tidied) (.settleEdges s) (fun t ht u _ => ht.restPtu u)

/-- An access that completes at once has its effect; then edge ports and PTUs go on. -/
theorem State.Still.settled_finish {s t : State} {k : Cont} {e : Err} {data : List Byte} (hfin : s.home.finished = [])
    (ht : s.continue k e data = t) (hstill : t.Still) : ∃ v, settled (s.finish k e data) = .next v ∧ t.Tidied v := by
  have htidy := hstill.tidy
  have hsingle : (s.finish k e data).home.finished = [(k, e, data)] := by
    rw [State.finish, hfin]
    rfl
  have hleft : t.tidy.home.finished = [] := (congrArg (fun t : State => t.home.finished) htidy).trans hstill.finished
  refine ⟨t.tidy, ?_, htidy⟩
  rw [settled, State.settle_single hsingle (by rw [State.finish_cleared hfin]; exact ht) hstill.finished hleft]

/-! ### REPL_INVAL and REPL_DROP (R255, R256) -/

/-- The request that removed a replica's copies is answered at once when no tile had one. -/
theorem Completes.of_dirReply {c : Instr} {s v w : State} {m n : DirMsg} {op : Nat} {P : State → Prop}
    (hexec : exec c s = settled (v.finish (.dirReply op n) .none []))
    (hreplied : v.dirReplied op n = w.dirAnswer m op .none m.oldFrame 0) (hfin : v.home.finished = []) (hstill : w.Still)
    (hlinks : s.SameLinks w) (hsrc : m.src < 2 ^ 15) (hreach : s.unreachable m.src = false)
    (hP : ∀ t, Answered s t m.src m.tag 0xd .none (dirBytes (op + 128) .none { m with newFrame := 0 }) →
      t.parser = w.parser → t.xlat = w.xlat → t.mem = w.mem → t.work = w.work → t.out = w.out → P t) : Completes c s P := by
  have hsw := State.SwitchOnly.dirAnswer w m op .none m.oldFrame 0
  have hans := hlinks.answered hsrc hreach op .none m.oldFrame 0
  have hstill' : (w.dirAnswer m op .none m.oldFrame 0).Still :=
    hstill.congr (congrArg Home.finished hsw.home) hsw.work (congrArg Parser.migrations hsw.parser)
      (congrArg Parser.updates hsw.parser)
  obtain ⟨t, hstep, ht⟩ := hstill'.settled_finish (k := .dirReply op n) (e := .none) (data := []) hfin hreplied
  have hkept {α : Type} (f : State → α) (hf : ∀ regs ptus,
      f { w.dirAnswer m op .none m.oldFrame 0 with regs := regs, ptus := ptus } = f (w.dirAnswer m op .none m.oldFrame 0)) : f t = f (w.dirAnswer m op .none m.oldFrame 0) := by
    unfold State.Tidied at ht
    rw [ht]
    exact hf _ _
  have hfabric := hkept State.fabric (fun _ _ => rfl)
  refine .of_next (hexec.trans hstep) (hP t ?_ ?_ ?_ ?_ ?_ ?_)
  · unfold Answered Emits at hans ⊢
    rw [hfabric]
    exact hans
  · exact (hkept State.parser (fun _ _ => rfl)).trans hsw.parser
  · exact (hkept State.xlat (fun _ _ => rfl)).trans hsw.xlat
  · exact (hkept State.mem (fun _ _ => rfl)).trans hsw.mem
  · exact (hkept State.work (fun _ _ => rfl)).trans hsw.work
  · exact (hkept State.out (fun _ _ => rfl)).trans hsw.out

/-- The blocks of a replica that a removal leaves valid. -/
def Replica.cleared (r : Replica) (first last : Nat) : Replica :=
  { r with valid := r.valid.filter (fun b => !(decide (first ≤ b) && decide (b ≤ last))) }

/-- The state in which a range of a replica's blocks serves no read any more. -/
def State.blocksCleared (s : State) (m : DirMsg) (r : Replica) : State :=
  (s.setReplica (m.oldFrame / 2 ^ 21) (r.cleared m.firstBlock m.lastBlock)).spoilFills (m.oldFrame / 2 ^ 21) m.firstBlock m.lastBlock

theorem State.replInval_exec {s : State} {m : DirMsg} {r : Replica} (hlive : s.live = true)
    (hactive : s.get (R.PART_STATE_STATE m.partition) = 1)
    (hreplica : tget (m.oldFrame / 2 ^ 21) s.parser.replicas = some r) :
    exec (.replInval m) s = settled ((s.blocksCleared m r).removeLines
      (s.tileLines (r.frameFpa / 128 + m.firstBlock * 32) ((m.lastBlock + 1 - m.firstBlock) * 32)) r.partition (.dirReply 7 m)) := by
  refine (State.dirServe_of_active hlive hactive 7 _).trans (congrArg settled ?_)
  dsimp only
  rw [hreplica]
  rfl

theorem Completes.replInval_empty {s : State} {m : DirMsg} {r : Replica} (hlive : s.live = true) (hcalm : Calm s)
    (hactive : s.get (R.PART_STATE_STATE m.partition) = 1)
    (hreplica : tget (m.oldFrame / 2 ^ 21) s.parser.replicas = some r)
    (hnone : s.tileLines (r.frameFpa / 128 + m.firstBlock * 32) ((m.lastBlock + 1 - m.firstBlock) * 32) = [])
    (hsrc : m.src < 2 ^ 15) (hreach : s.unreachable m.src = false) :
    Completes (.replInval m) s (fun t =>
      tget (m.oldFrame / 2 ^ 21) t.parser.replicas = some (r.cleared m.firstBlock m.lastBlock) ∧
      Answered s t m.src m.tag 0xd .none (dirBytes 135 .none { m with newFrame := 0 }) ∧ t.xlat = s.xlat ∧ t.mem = s.mem ∧
      t.work = s.work ∧ t.out = s.out) := by
  have hexec := State.replInval_exec hlive hactive hreplica
  rw [hnone] at hexec
  have hstill := State.still_of_calm hcalm
  have hlinks : s.SameLinks (s.blocksCleared m r) := ⟨rfl, rfl, State.unreachable_congr rfl rfl (State.chip_congr rfl)⟩
  have hcleared : (s.blocksCleared m r).Still := hstill.congr rfl rfl rfl rfl
  refine .of_dirReply hexec rfl hstill.finished hcleared hlinks hsrc hreach
    (fun t hans hparser hxlat hmem hwork hout => ⟨?_, hans, hxlat, hmem, hwork, hout⟩)
  rw [hparser]
  exact tget_tset_self ..

/-- Forgetting a replica changes its entry, and the entry of its page. -/
theorem State.forgetReplica_frame (s : State) (key : Nat) (r : Replica) :
    s.forgetReplica key r = { s with
      xlat := { s.xlat with pageMap := (s.forgetReplica key r).xlat.pageMap },
      parser := { s.parser with replicas := terase key s.parser.replicas } } := by
  unfold State.forgetReplica
  rw [State.modPm_frame]

theorem State.forgetReplica_keeps {α : Type} (s : State) (key : Nat) (r : Replica) (f : State → α)
    (hf : ∀ pageMap replicas, f { s with xlat := { s.xlat with pageMap := pageMap },
                                         parser := { s.parser with replicas := replicas } } = f s) :
    f (s.forgetReplica key r) = f s := by
  rw [s.forgetReplica_frame]
  exact hf _ _

theorem Completes.replDrop {s : State} {m : DirMsg} {r : Replica} (hlive : s.live = true) (hcalm : Calm s)
    (hactive : s.get (R.PART_STATE_STATE m.partition) = 1) (hfar : fpaChip m.oldFrame ≠ s.chip)
    (hreplica : tget (m.oldFrame / 2 ^ 21) s.parser.replicas = some r) (hnone : s.tileLines (r.frameFpa / 128) 16384 = [])
    (hsrc : m.src < 2 ^ 15) (hreach : s.unreachable m.src = false) :
    Completes (.replDrop m) s (fun t => tget (m.oldFrame / 2 ^ 21) t.parser.replicas = none ∧
      t.frameRec (frameKey r.frameFpa) = none ∧
      Answered s t m.src m.tag 0xd .none (dirBytes 136 .none { m with newFrame := 0 }) ∧ t.mem = s.mem ∧ t.work = s.work ∧
      t.out = s.out) := by
  let u := s.forgetReplica (m.oldFrame / 2 ^ 21) r
  let v := u.spoilFills (m.oldFrame / 2 ^ 21) 0 511
  let w := v.freeFrame (frameKey r.frameFpa)
  have hlines : v.tileLines (r.frameFpa / 128 + 0 * 32) ((511 + 1 - 0) * 32) = [] := by
    refine Eq.trans ?_ hnone
    have hhome : v.home = s.home := s.forgetReplica_keeps _ r State.home (fun _ _ => rfl)
    rw [State.tileLines, hhome]
    rfl
  have hexec : exec (.replDrop m) s = settled (v.finish (.dirReply 8 { m with newFrame := r.frameFpa }) .none []) := by
    refine (State.dirServe_of_active hlive hactive 8 _).trans (congrArg settled ((if_neg hfar).trans ?_))
    dsimp only
    rw [hreplica]
    refine Eq.trans (b := v.emptyReplica r 0 511 8 { m with newFrame := r.frameFpa }) rfl ?_
    rw [State.emptyReplica, hlines]
    rfl
  have hreleased : v.Released w := (State.Released.refl v).freeFrame _
  have hw := hreleased.frame
  have hstill := State.still_of_calm hcalm
  have hv : v.Still := by
    refine hstill.congr ?_ ?_ ?_ ?_
    · exact s.forgetReplica_keeps _ r (fun t : State => t.home.finished) (fun _ _ => rfl)
    · exact s.forgetReplica_keeps _ r State.work (fun _ _ => rfl)
    · exact s.forgetReplica_keeps _ r (fun t : State => t.parser.migrations) (fun _ _ => rfl)
    · exact s.forgetReplica_keeps _ r (fun t : State => t.parser.updates) (fun _ _ => rfl)
  have hlinks : s.SameLinks w := by
    refine ⟨?_, ?_, fun x => (hreleased.unreachable x).trans ?_⟩
    · rw [hw]
      exact s.forgetReplica_keeps _ r (fun t : State => t.fabric.nextFrame) (fun _ _ => rfl)
    · rw [hw]
      exact s.forgetReplica_keeps _ r (fun t : State => t.fabric.waitIn) (fun _ _ => rfl)
    · refine State.unreachable_congr ?_ ?_ (State.chip_congr ?_) x
      · exact s.forgetReplica_keeps _ r State.tele (fun _ _ => rfl)
      · exact s.forgetReplica_keeps _ r State.boot (fun _ _ => rfl)
      · exact s.forgetReplica_keeps _ r State.regs (fun _ _ => rfl)
  refine .of_dirReply (w := w) hexec rfl hv.finished ?_ hlinks hsrc hreach
    (fun t hans hparser hxlat hmem hwork hout => ⟨?_, ?_, hans, ?_, ?_, ?_⟩)
  · refine hv.congr ?_ ?_ ?_ ?_ <;> rw [hw]
  · rw [hparser, hw]
    exact (congrArg (fun t : State => tget (m.oldFrame / 2 ^ 21) t.parser.replicas)
      (s.forgetReplica_frame (m.oldFrame / 2 ^ 21) r)).trans (tget_terase_self ..)
  · rw [State.frameRec, hxlat]
    exact v.frameRec_freeFrame (frameKey r.frameFpa)
  · rw [hmem, hw]
    exact s.forgetReplica_keeps _ r State.mem (fun _ _ => rfl)
  · rw [hwork, hw]
    exact s.forgetReplica_keeps _ r State.work (fun _ _ => rfl)
  · rw [hout, hw]
    exact s.forgetReplica_keeps _ r State.out (fun _ _ => rfl)

end Sys2Proof.Machine
end

section
namespace Sys2Proof.Machine

/-! ### Copies of a replica's lines that tiles have (R128, R256) -/

theorem tget_isSome_of_mem_tkeys {α : Type} {k : Nat} {t : Tbl α} (h : k ∈ tkeys t) : (tget k t).isSome = true := by
  induction t with
  | nil => cases h
  | cons e t ih =>
    rw [tget]
    split
    next => rfl
    next hne => exact ih ((List.mem_cons.1 h).resolve_left (fun heq => hne heq.symm))

/-- A line that a tile may have a copy of is not free to be written at once. -/
theorem State.lineClear_of_mem_tileLines {s : State} {first n l : Nat} (h : l ∈ s.tileLines first n) :
    s.lineClear true l = false := by
  have hheld := (List.mem_filter.1 (List.mem_dedup.1 h)).1
  rcases List.mem_append.1 hheld with htile | hline
  · obtain ⟨t, ht, hl⟩ := List.mem_flatMap.1 htile
    have hhas : t.2.has l = true := by
      rw [Tile.has, Bool.or_eq_true]
      rcases List.mem_append.1 hl with hcopy | hentry
      · exact .inl (tget_isSome_of_mem_tkeys hcopy)
      · obtain ⟨e, he, rfl⟩ := List.mem_map.1 hentry
        obtain ⟨hmem, hfresh⟩ := List.mem_filter.1 he
        exact .inr (List.any_eq_true.2 ⟨e, hmem, by rw [beq_self_eq_true, hfresh]; rfl⟩)
    have hall : s.home.tiles.all (fun (t : Nat × Tile) => if true then !t.2.has l else !t.2.owns l) = false :=
      List.all_eq_false.2 ⟨t, ht, by simp [hhas]⟩
    rw [State.lineClear, hall, Bool.and_false]
  · rw [State.lineClear, State.lineBusy, tget_isSome_of_mem_tkeys hline]
    rfl

/-- Requests for lines went to the rings: the accesses that wait for them were opened, nothing else changed. -/
def State.Asked (s t : State) : Prop :=
  t = { s with home := { s.home with ops := t.home.ops, nextOp := t.home.nextOp, gathers := t.home.gathers,
                                     nextGather := t.home.nextGather },
               out := t.out }

theorem State.Asked.refl (s : State) : s.Asked s := rfl

theorem State.Asked.update {s t : State} (h : s.Asked t) {ops nextOp gathers nextGather out} :
    s.Asked { t with home := { t.home with ops := ops, nextOp := nextOp, gathers := gathers, nextGather := nextGather },
                     out := out } := by
  unfold State.Asked at h ⊢
  rw [h]

theorem foldl_fst_keeps {α : Type} {Q : State → Prop} {f : State × Bool → α → State × Bool}
    (hstep : ∀ a x, Q a.1 → Q (f a x).1) (l : List α) {a : State × Bool} (h : Q a.1) : Q (l.foldl f a).1 := by
  induction l generalizing a with
  | nil => exact h
  | cons x l ih => exact ih (hstep a x h)

theorem State.Asked.pumpReqs {s t : State} (h : s.Asked t) (stop : Nat) : s.Asked (t.pumpReqs stop) := by
  refine foldl_fst_keeps (Q := s.Asked) (fun a x ha => ?_) _ h
  dsimp only
  split
  · split
    · split
      · exact ha.update
      · exact ha
    · exact ha
  · exact ha

theorem State.Asked.askLine {s t : State} (h : s.Asked t) (o : HomeOp) : s.Asked (t.askLine o) :=
  State.Asked.pumpReqs (t := t.openOp o) h.update o.stop

theorem State.Asked.tileLines {s t : State} (h : s.Asked t) (first n : Nat) : t.tileLines first n = s.tileLines first n := by
  unfold State.Asked at h
  rw [h]
  rfl

/-- The removal of a line that a tile may have a copy of asks the rings for it. -/
theorem State.Asked.removeLine {s t : State} (h : s.Asked t) {first n l : Nat} (hl : l ∈ s.tileLines first n) (p : Nat)
    (k : Cont) : s.Asked (t.removeLine (l * 128) p k) := by
  have hline : l * 128 / 128 = l := Nat.mul_div_cancel l (by decide)
  have hclear : ¬ t.lineClear true l = true :=
    Bool.eq_false_iff.1 (State.lineClear_of_mem_tileLines (by rw [h.tileLines]; exact hl))
  unfold State.removeLine
  dsimp only
  rw [hline, if_neg (fun hboth => hclear hboth.1), if_neg (fun hboth => hclear hboth.1)]
  exact h.askLine _

theorem State.Asked.removeLines {s : State} {ls : List Nat} (hne : ls ≠ []) {first n : Nat}
    (hls : ∀ l ∈ ls, l ∈ s.tileLines first n) (p : Nat) (k : Cont) : s.Asked (s.removeLines ls p k) := by
  cases ls with
  | nil => exact absurd rfl hne
  | cons l ls =>
    refine State.foldl_keeps (Q := s.Asked) (State.Asked.refl s).update (fun t ht x hx => ?_)
    exact ht.removeLine (hls _ (List.fst_mem_of_mem_zipIdx hx)) p _

theorem Completes.replInval_asked {s : State} {m : DirMsg} {r : Replica} (hlive : s.live = true) (hfin : s.home.finished = [])
    (hactive : s.get (R.PART_STATE_STATE m.partition) = 1)
    (hreplica : tget (m.oldFrame / 2 ^ 21) s.parser.replicas = some r)
    (hsome : s.tileLines (r.frameFpa / 128 + m.firstBlock * 32) ((m.lastBlock + 1 - m.firstBlock) * 32) ≠ []) :
    Completes (.replInval m) s (fun t =>
      tget (m.oldFrame / 2 ^ 21) t.parser.replicas = some (r.cleared m.firstBlock m.lastBlock) ∧
      t.fabric.frames = s.fabric.frames ∧ t.fabric.waitIn = s.fabric.waitIn ∧ t.xlat = s.xlat ∧ t.mem = s.mem ∧
      t.work = s.work ∧ t.home.tiles = s.home.tiles) := by
  have hasked := State.Asked.removeLines (s := s.blocksCleared m r) hsome (fun _ h => h) r.partition (.dirReply 7 m)
  unfold State.Asked at hasked
  refine .of_settled (State.replInval_exec hlive hactive hreplica) ?_ ⟨?_, ?_, ?_, ?_, ?_, ?_, ?_⟩
  · rw [hasked]
    exact hfin
  · rw [hasked]
    exact tget_tset_self ..
  all_goals
    rw [hasked]
    rfl

/-- Settles O15: each request of the exchange has its effect, and its answer leaves for the chip that asked. -/
theorem directoryRequestsAreServed : Obligations.DirectoryRequestsAreServed := by
  refine ⟨?_, ?_, ?_, ?_, ?_, ?_, ?_, ?_, ?_, ?_, ?_⟩
  · intro s m k hlive hfin hpart hmode hframe hdir
    exact .dirRegister hlive hfin hpart hmode hframe hdir
  · intro s m i d hlive hfin hactive howner hfind hsrc hreach
    exact .dirUnregister hlive hfin hactive howner hfind hsrc hreach
  · intro s m hlive hfin hactive hfree hsrc hreach
    exact .pmPrepare_held hlive hfin hactive hsrc hreach hfree
  · intro s m hlive hfin hactive hextent hsrc hreach
    exact .pmPrepare_refused hlive hfin hactive hsrc hreach hextent
  · intro s m i e hlive hfin hactive hfind hfar hquiet hupdates hreplica hsrc hreach
    exact .pmUpdate hlive hfin hactive hsrc hreach hfind hfar hquiet hupdates hreplica
  · intro s m hlive hfin hactive hsrc hreach
    exact .pmRelease hlive hfin hactive hsrc hreach
  · intro s m k hlive hfin hactive hnew hroom hquota hpick hsrc hreach
    exact .replPlace hlive hfin hactive hquota hpick hsrc hreach hnew hroom
  · intro s m r hlive hcalm hactive hreplica hnone hsrc hreach
    exact .replInval_empty hlive hcalm hactive hreplica hnone hsrc hreach
  · intro s m r hlive hfin hactive hreplica hsome
    exact .replInval_asked hlive hfin hactive hreplica hsome
  · intro s m r hlive hcalm hactive hfar hreplica hnone hsrc hreach
    exact .replDrop hlive hcalm hactive hfar hreplica hnone hsrc hreach
  · intro s m k hlive hfin hactive hnear hroom hquota hpick hsrc hreach
    exact .rehomeOffer hlive hfin hactive hquota hpick hsrc hreach hnear hroom

end Sys2Proof.Machine
end

section
namespace Sys2Proof.Machine

/-! ### The record of a clause -/

/-- The last entry set at a key is the one that stands. -/
theorem tset_tset {α : Type} (k : Nat) (v w : α) (t : Tbl α) : tset k v (tset k w t) = tset k v t := by
  induction t with
  | nil => simp [tset]
  | cons e t ih =>
    obtain ⟨k', v'⟩ := e
    rcases Nat.lt_trichotomy k k' with hlt | rfl | hgt
    · simp [tset, hlt]
    · simp [tset]
    · simp [tset, Nat.lt_asymm hgt, Nat.ne_of_gt hgt, ih]

@[simp] theorem State.clauseAt_setClause_self (s : State) (id : Nat) (k : Clause) : (s.setClause id k).clauseAt id = some k :=
  tget_tset_self ..

theorem State.clauseAt_setClause_ne (s : State) {id m : Nat} (h : m ≠ id) (k : Clause) :
    (s.setClause id k).clauseAt m = s.clauseAt m :=
  tget_tset_ne h ..

@[simp] theorem State.setClause_setClause (s : State) (id : Nat) (k k' : Clause) :
    (s.setClause id k).setClause id k' = s.setClause id k' := by
  simp only [State.setClause, tset_tset]

theorem State.modClause_of_clauseAt {s : State} {id : Nat} {k : Clause} (h : s.clauseAt id = some k) (f : Clause → Clause) :
    s.modClause id f = s.setClause id (f k) := by
  rw [State.modClause, tmod_of_tget h]
  rfl

@[simp] theorem State.modClause_setClause (s : State) (id : Nat) (k : Clause) (f : Clause → Clause) :
    (s.setClause id k).modClause id f = s.setClause id (f k) := by
  rw [State.modClause_of_clauseAt (State.clauseAt_setClause_self ..), State.setClause_setClause]

theorem State.pieceOut_setClause (s : State) (id : Nat) (k : Clause) (c : Nat) :
    (s.setClause id k).pieceOut id c =
      s.setClause id { k with flying := tset c ((tget c k.flying).getD 0 + 1) k.flying } :=
  State.modClause_setClause ..

theorem worked_live {s : State} (h : s.live = true) (f : State → State) : worked s f = settled (f s) :=
  congrArg settled (State.whenLive_live h f)

end Sys2Proof.Machine
end

section
namespace Sys2Proof.Machine

/-! ### A piece of a clause's data (R58, R301) -/

section
variable {s : State} {k : Clause} {fva fpa n op : Nat}

/-- One run of bytes of a clause, none of them poisoned, within one block . -/
structure State.OnePiece (s : State) (k : Clause) (op fva fpa n : Nat) : Prop where
  runs : k.runs fva n = some [(fpa, n)]
  sound : s.poisonedIn k.partition op fva [(fpa, n)] = false
  block : fpa % 4096 + n ≤ 4096
  pos : 0 < n

/-- Such a piece is read by one RD. -/
theorem State.OnePiece.clauseFetch (h : s.OnePiece k 0 fva fpa n) (hfar : fpaChip fpa ≠ s.chip) (hreplica : s.replicaOf fpa = none)
    (c : Cont) : s.clauseFetch k fva n c = s.sendAct fpa (.read n) k.partition c k.port false false := by
  rw [State.clauseFetch, h.runs]
  dsimp only
  rw [if_neg (Bool.eq_false_iff.1 h.sound), State.readRuns, cutRuns_block (Nat.ne_of_gt h.pos) h.block]
  dsimp only
  rw [State.issueRead, if_neg hfar, hreplica]

/-- Bytes of a clause that form one run within one block are one write. -/
theorem State.OnePiece.clauseStore {data : List Byte} (h : s.OnePiece k 1 fva fpa data.length) (c : Cont) :
    s.clauseStore k fva data c = s.issueWrite fpa data k.partition c k.port false none := by
  rw [State.clauseStore, h.runs]
  dsimp only
  rw [if_neg (Bool.eq_false_iff.1 h.sound), State.writeRuns, cutRuns_block (Nat.ne_of_gt h.pos) h.block]

end
end Sys2Proof.Machine
end

section
namespace Sys2Proof.Machine

/-! ### A data step issues the pieces of its new segments (R56, R58, R174) -/

/-- A running clause of an opcode with started segments whose data has not been issued. -/
def Clause.HasNewData (k : Clause) (op : Nat) : Prop :=
  descOp k.desc = op ∧ k.ending = none ∧ k.issued < k.segment ∧ k.stage = .running

/-- The clause with its segments issued, and one piece of a chunk more under way. -/
def Clause.withPiece (k : Clause) (c : Nat) : Clause :=
  { k with issued := k.segment, flying := tset c ((tget c k.flying).getD 0 + 1) k.flying }

/-- The clause with its segments issued. -/
def Clause.withIssued (k : Clause) : Clause := { k with issued := k.segment }

section
variable {s : State} {id : Nat} {k : Clause}

theorem State.dataStep_of_new (hk : s.clauseAt id = some k) {op : Nat} (h : k.HasNewData op) (f : Clause → State → State) :
    s.dataStep id op f = f k (s.setClause id k.withIssued) := by
  obtain ⟨hop, hopen, hnew, hrunning⟩ := h
  rw [State.dataStep, hk]
  dsimp only
  rw [if_pos ⟨hop, by rw [hopen]; rfl, hnew, .inl hrunning⟩, State.modClause_of_clauseAt hk]
  rfl

theorem State.pieceOut_withIssued (s : State) (id : Nat) (k : Clause) (c : Nat) :
    (s.setClause id k.withIssued).pieceOut id c = s.setClause id (k.withPiece c) :=
  State.pieceOut_setClause ..

/-- A step that leaves a clause with a request on its way to another chip. -/
theorem Completes.piece_sent {c : Instr} {k' : Clause} {p fpa : Nat} {act : HomeAct} {cont : Cont} {port : Nat}
    (hfin : s.home.finished = []) (hsend : MaySend s p fpa)
    (hexec : exec c s = settled ((s.setClause id k').sendAct fpa act p cont port false false)) :
    Completes c s (fun t => Sent s t fpa act.request.1 cont ∧ t.clauseAt id = some k' ∧
      (∀ m : Nat, m ≠ id → t.clauseAt m = s.clauseAt m) ∧ t.mem = s.mem ∧ t.xlat = s.xlat ∧ t.out = s.out) := by
  obtain ⟨hsent, hsw⟩ := State.sendAct_sent (s := s.setClause id k') hsend act cont port false false
  have hclause (m : Nat) : ((s.setClause id k').sendAct fpa act p cont port false false).clauseAt m =
      (s.setClause id k').clauseAt m := by
    rw [State.clauseAt, hsw.work]
    rfl
  refine .of_answer (u := s.setClause id k') hexec hfin hsw ⟨hsent, ?_, fun m hm => ?_, hsw.mem, hsw.xlat, hsw.out⟩
  · rw [hclause, State.clauseAt_setClause_self]
  · rw [hclause, State.clauseAt_setClause_ne s hm]

/-- A data step whose one piece goes to another chip. -/
theorem Completes.data_sent {c : Instr} {op : Nat} {f : Clause → State → State} {k' : Clause} {fpa : Nat} {act : HomeAct}
    {cont : Cont} (hexec : exec c s = worked s (fun s => s.dataStep id op f)) (hlive : s.live = true)
    (hfin : s.home.finished = []) (hk : s.clauseAt id = some k) (hnew : k.HasNewData op) (hsend : MaySend s k.partition fpa)
    (hf : f k (s.setClause id k.withIssued) = (s.setClause id k').sendAct fpa act k.partition cont k.port false false) :
    Completes c s (fun t => Sent s t fpa act.request.1 cont ∧ t.clauseAt id = some k' ∧
      (∀ m : Nat, m ≠ id → t.clauseAt m = s.clauseAt m) ∧ t.mem = s.mem ∧ t.xlat = s.xlat ∧ t.out = s.out) := by
  have hstep : s.dataStep id op f = (s.setClause id k').sendAct fpa act k.partition cont k.port false false :=
    (State.dataStep_of_new hk hnew f).trans hf
  exact .piece_sent hfin hsend (hexec.trans ((worked_live hlive _).trans (congrArg settled hstep)))

/-- COPY and COPY2D: their one move reads its source. -/
theorem State.copyData_remote {c src dst n fpa : Nat} (hmoves : k.newSegs.flatMap (copyMoves k.desc) = [(c, src, dst, n)])
    (hpiece : s.OnePiece k 0 src fpa n) (hfar : fpaChip fpa ≠ s.chip) (hreplica : s.replicaOf fpa = none) :
    (s.setClause id k.withIssued).copyData id k =
      (s.setClause id (k.withPiece c)).sendAct fpa (.read n) k.partition (.clauseRead id c dst src) k.port false false := by
  have hthere : (s.setClause id (k.withPiece c)).OnePiece k 0 src fpa n := ⟨hpiece.runs, hpiece.sound, hpiece.block, hpiece.pos⟩
  rw [State.copyData, hmoves, List.foldl_cons, List.foldl_nil]
  dsimp only
  rw [State.pieceOut_withIssued]
  exact hthere.clauseFetch hfar hreplica _

/-- GATHER and SCATTER: one element in one chunk reads its index word. -/
theorem State.indexData_remote {e fpa : Nat}
    (hparts : chunkParts (e * fieldAt k.desc 60 4) (fieldAt k.desc 60 4) = [(0, 0, 4)])
    (hpiece : s.OnePiece k 0 (fieldAt k.desc 48 8 + 4 * e) fpa 4) (hfar : fpaChip fpa ≠ s.chip)
    (hreplica : s.replicaOf fpa = none) :
    (s.setClause id k.withIssued).indexData id k [e] =
      (s.setClause id (k.withPiece 0)).sendAct fpa (.read 4) k.partition (.clauseIndex id e) k.port false false := by
  have hthere : (s.setClause id (k.withPiece 0)).OnePiece k 0 (fieldAt k.desc 48 8 + 4 * e) fpa 4 :=
    ⟨hpiece.runs, hpiece.sound, hpiece.block, hpiece.pos⟩
  rw [State.indexData, List.foldl_cons, List.foldl_nil, hparts, List.foldl_cons, List.foldl_nil]
  dsimp only
  rw [State.pieceOut_withIssued]
  exact hthere.clauseFetch hfar hreplica _

end

/-! #### FILL -/

/-- The bytes that FILL writes over a chunk: its pattern, repeated. -/
def fillBytes (d : List Byte) (n : Nat) : List Byte := ((List.replicate 512 ((d.drop 48).take 8)).flatten).take n

theorem fillBytes_length {d : List Byte} (hd : d.length = 64) {n : Nat} (hn : n ≤ 4096) : (fillBytes d n).length = n := by
  have hpattern : ((d.drop 48).take 8).length = 8 := by simp [hd]
  rw [fillBytes, List.length_take, List.length_flatten, List.map_replicate, List.sum_replicate, hpattern]
  simp
  omega

/-- A FILL of at most 4 KiB has one chunk. -/
theorem fillChunks_zero {n : Nat} (hpos : 0 < n) (hn : n ≤ 4096) :
    ([0].flatMap (fun g => ((List.range 512).map (g * 512 + ·)).filter (fun c => decide (4096 * c < n)))) = [0] := by
  have hrest : ((List.range 511).map ((0 * 512 + ·) ∘ Nat.succ)).filter (fun c => decide (4096 * c < n)) = [] := by
    refine List.filter_eq_nil_iff.2 (fun c hc => ?_)
    obtain ⟨i, -, rfl⟩ := List.mem_map.1 hc
    simp only [Function.comp_apply, decide_eq_true_eq]
    omega
  rw [List.flatMap_cons, List.flatMap_nil, List.append_nil, List.range_succ_eq_map, List.map_cons, List.map_map,
    List.filter_cons_of_pos (by simpa using hpos), hrest]

section
variable {s : State} {id : Nat} {k : Clause} {n fpa : Nat}

/-- A FILL of one chunk writes it. -/
theorem State.fillData_one (hsegs : k.newSegs = [0]) (hlen : fieldAt k.desc 40 8 = n) (hpos : 0 < n) (hn : n ≤ 4096)
    (hd : k.desc.length = 64) (hpiece : s.OnePiece k 1 (fieldAt k.desc 32 8) fpa n) :
    (s.setClause id k.withIssued).fillData id k = (s.setClause id (k.withPiece 0)).issueWrite fpa (fillBytes k.desc n) k.partition
      (.clauseWrite id 0 (fieldAt k.desc 32 8)) k.port false none := by
  have hbytes := fillBytes_length hd hn
  have hthere : (s.setClause id (k.withPiece 0)).OnePiece k 1 (fieldAt k.desc 32 8) fpa (fillBytes k.desc n).length := by
    rw [hbytes]
    exact ⟨hpiece.runs, hpiece.sound, hpiece.block, hpiece.pos⟩
  have hmin : min 4096 (n - 4096 * 0) = n := by omega
  rw [State.fillData, hsegs, hlen]
  dsimp only
  rw [fillChunks_zero hpos hn, List.foldl_cons, List.foldl_nil, hmin, State.pieceOut_withIssued]
  exact hthere.clauseStore _

end
end Sys2Proof.Machine
end

section
namespace Sys2Proof.Machine

/-! #### FILL of a frame here (R58) -/

section
variable {s : State} {id : Nat} {k : Clause} {fpa : Nat} {data : List Byte}

theorem memRead_memWrite (m : Tbl Byte) (a : Nat) (bs : List Byte) : memRead (memWrite m a bs) a bs.length = bs := by
  refine List.ext_getElem (memRead_length ..) (fun i hi hi' => ?_)
  have hread := memRead_getD (m := memWrite m a bs) (a := a) hi'
  rw [memGet_memWrite, if_pos ⟨Nat.le_add_right .., Nat.add_lt_add_left hi' a⟩, Nat.add_sub_cancel_left] at hread
  rwa [List.getD_eq_getElem _ _ hi, List.getD_eq_getElem _ _ hi'] at hread

/-- Bytes of a near unit of this chip that a write of a partition reaches at once (R20, R22, R128, R351, R388). -/
structure State.WritesHere (s : State) (p fpa n : Nat) : Prop where
  here : fpaChip fpa = s.chip
  near : 16 ≤ fpaUnit fpa ∧ fpaUnit fpa < 32
  quiet : s.inQuiet fpa = false
  forward : s.forwardOf fpa = none
  frame : s.frameErr fpa p = .none
  poison : s.anyPoison (lineKeys (fpaUnit fpa) (fpaOff fpa) n) = false
  tags : s.anyBadTag (lineKeys (fpaUnit fpa) (fpaOff fpa) n) = false
  clear : (linesOf fpa n).all (s.lineClear true) = true
  copies : s.hasCopies fpa n = false

/-- A write of a clause at its home here is performed at once, and completes. -/
theorem State.WritesHere.issueWrite {p : Nat} (h : s.WritesHere p fpa data.length) (c : Cont) (port : Nat) :
    ∃ v : State, s.issueWrite fpa data p c port false none = v.finish c .none [] ∧
      v.mem = memWrite s.mem (memKey (fpaUnit fpa) (fpaOff fpa)) data ∧ v.work = s.work ∧
      v.home.finished = s.home.finished ∧ v.parser.updates = s.parser.updates ∧
      ((∀ m ∈ s.parser.migrations, m.quiesce = false) → ∀ m ∈ v.parser.migrations, m.quiesce = false) := by
  let a := s.hereAccess fpa p (.write data) c none none
  have hserves : s.ServesHere a c :=
    { who := rfl, intact := ⟨h.near.1, .inl h.near.2, h.poison, h.tags⟩, quiet := h.quiet, forward := h.forward, frame := h.frame,
      form := rfl, order := fun _ => rfl, clear := h.clear, copies := fun _ => h.copies }
  obtain ⟨u, hu, hperform⟩ := hserves.atHome
  obtain ⟨poisoned, badTags, hwritten⟩ := State.perform_write_here (s := u) (a := a) rfl rfl (hserves.intact.counted hu)
  have hfinished : u.home.finished = s.home.finished := by rw [hu.home]
  have hupdates : u.parser.updates = s.parser.updates := by rw [hu.frame]
  have hmigrations : u.parser.migrations = s.parser.migrations := by rw [hu.frame]
  refine ⟨_, (if_pos h.here).trans (hperform.trans hwritten), congrArg (memWrite · _ data) hu.mem, hu.work, hfinished, hupdates,
    fun hmoves m hm => ?_⟩
  obtain ⟨m₀, hm₀, rfl⟩ := List.mem_map.1 hm
  have hquiet := hmoves m₀ (hmigrations ▸ hm₀)
  dsimp only
  split
  · exact hquiet
  · exact hquiet

/-- The last piece of a chunk ends well. -/
theorem State.continue_clauseWrite (hk : s.clauseAt id = some k) (hlast : k.flying = [(0, 1)]) (a : Nat) :
    s.continue (.clauseWrite id 0 a) .none [] = s.setClause id { k with flying := [] } := by
  have hdone : s.continue (.clauseWrite id 0 a) .none [] = s.pieceIn id 0 .none (k.segOf 0) a := by
    rw [State.continue, State.clauseWriteDone, hk]
  rw [hdone, State.pieceIn, if_pos rfl, State.modClause_of_clauseAt hk, hlast]
  rfl

end
end Sys2Proof.Machine
end

section
namespace Sys2Proof.Machine

/-! ### COPY, COPY2D, FILL, GATHER, SCATTER and ATOMIC_BATCH (Table 7-10) -/

section
variable {s : State} {id : Nat} {k : Clause} {n fpa : Nat}

/-- On a calm chip a FILL of one piece here writes its bytes, and its chunk has no piece under way any more. -/
theorem Completes.fill_here (hlive : s.live = true) (hcalm : Calm s) (hnew : k.HasNewData 3)
    (hpos : 0 < n) (hn : n ≤ 256) (hsegs : k.newSegs = [0]) (hlen : fieldAt k.desc 40 8 = n) (hd : k.desc.length = 64)
    (hblock : fpa % 256 + n ≤ 256) (hruns : k.runs (fieldAt k.desc 32 8) n = some [(fpa, n)])
    (hsound : s.poisonedIn k.partition 1 (fieldAt k.desc 32 8) [(fpa, n)] = false) (hhere : s.WritesHere k.partition fpa n)
    (hflying : k.flying = []) (hcancelled : k.cancelled = false) (honly : s.work.clauses = [(id, k)]) :
    Completes (.fill id) s (fun t =>
      memRead t.mem (memKey (fpaUnit fpa) (fpaOff fpa)) n = fillBytes k.desc n ∧
      t.clauseAt id = some { k with issued := k.segment, flying := [] }) := by
  have hk : s.clauseAt id = some k := by
    rw [State.clauseAt, honly]
    exact if_pos rfl
  have hbytes := fillBytes_length hd (show n ≤ 4096 by omega)
  have hwritesHere : (s.setClause id (k.withPiece 0)).WritesHere k.partition fpa (fillBytes k.desc n).length := by
    rw [hbytes]
    exact ⟨hhere.here, hhere.near, hhere.quiet, hhere.forward, hhere.frame, hhere.poison, hhere.tags, hhere.clear, hhere.copies⟩
  obtain ⟨v, hwrite, hmem, hwork, hvfin, hupdates, hmoves⟩ :=
    hwritesHere.issueWrite (.clauseWrite id 0 (fieldAt k.desc 32 8)) k.port
  have hvk : v.clauseAt id = some (k.withPiece 0) := by
    rw [State.clauseAt, hwork]
    exact State.clauseAt_setClause_self ..
  have hone : (k.withPiece 0).flying = [(0, 1)] := by
    rw [Clause.withPiece, hflying]
    rfl
  have hexec : exec (.fill id) s = settled (v.finish (.clauseWrite id 0 (fieldAt k.desc 32 8)) .none []) := by
    refine (worked_live hlive _).trans (congrArg settled ?_)
    rw [State.dataStep_of_new hk hnew, State.fillData_one hsegs hlen hpos (by omega) hd ⟨hruns, hsound, by omega, hpos⟩, hwrite]
  have hclauses : (v.setClause id { k.withPiece 0 with flying := [] }).work.clauses = [(id, { k.withPiece 0 with flying := [] })] := by
    rw [State.setClause, hwork]
    dsimp only [State.setClause]
    rw [honly, tset_single, tset_single]
  have hstill : (v.setClause id { k.withPiece 0 with flying := [] }).Still := by
    obtain ⟨hfin, -, hquiet, hnone, -⟩ := hcalm
    obtain ⟨-, -, -, hrunning⟩ := hnew
    refine ⟨hvfin.trans hfin, fun c hc => ?_, hmoves hquiet, hupdates.trans hnone⟩
    rw [hclauses] at hc
    obtain rfl := List.mem_singleton.1 hc
    exact ⟨fun hparked => Stage.noConfusion (hrunning.symm.trans hparked), .inl hcancelled⟩
  obtain ⟨t, hstep, htidied⟩ := State.Still.settled_finish (hvfin.trans hcalm.1) (State.continue_clauseWrite hvk hone _) hstill
  refine .of_next (hexec.trans hstep) ⟨?_, ?_⟩
  · have hread := memRead_memWrite s.mem (memKey (fpaUnit fpa) (fpaOff fpa)) (fillBytes k.desc n)
    rw [hbytes] at hread
    rw [htidied]
    exact (congrArg (memRead · _ n) hmem).trans hread
  · rw [htidied]
    exact State.clauseAt_setClause_self ..

/-- The clause of an ATOMIC_BATCH while its next entry is read. -/
def Clause.atEntry (k : Clause) : Clause :=
  { k.withPiece (k.batchPos / 64) with indices := tset (2 ^ 45) 1 (tset batchNext (k.batchPos + 1) k.indices) }

theorem Clause.batchPos_atEntry (k : Clause) : k.atEntry.batchPos = k.batchPos + 1 := by
  have hnext : tget batchNext k.atEntry.indices = some (k.batchPos + 1) := by
    rw [Clause.atEntry, tget_tset_ne (by decide), tget_tset_self]
  rw [Clause.batchPos, hnext]
  rfl

/-- ATOMIC_BATCH reads its next entry, and nothing else until that has ended. -/
theorem State.batchStep_remote (hopen : k.ending = none) (hmore : k.batchPos < min (fieldAt k.desc 40 4) (k.segment * 32768))
    (hidle : tget (2 ^ 45) k.indices = none)
    (hpiece : s.OnePiece k 0 (fieldAt k.desc 32 8 + 64 * k.batchPos) fpa 64) (hfar : fpaChip fpa ≠ s.chip)
    (hreplica : s.replicaOf fpa = none) :
    (s.setClause id k.withIssued).batchStep id =
      (s.setClause id k.atEntry).sendAct fpa (.read 64) k.partition (.batchEntry id k.batchPos) k.port false false := by
  have hgoes : ¬ (k.withIssued.ending.isSome ∨ k.withIssued.batchEnd ≤ k.withIssued.batchPos ∨
      (tget (2 ^ 45) k.withIssued.indices).isSome) := by
    rintro (hended | hdone | hbusy)
    · rw [Clause.withIssued, hopen] at hended
      cases hended
    · exact absurd hmore (Nat.not_lt.2 hdone)
    · rw [Clause.withIssued, hidle] at hbusy
      cases hbusy
  have hthere : (s.setClause id k.atEntry).OnePiece k.withIssued 0 (fieldAt k.desc 32 8 + 64 * k.batchPos) fpa 64 :=
    ⟨hpiece.runs, hpiece.sound, hpiece.block, hpiece.pos⟩
  rw [State.batchStep, State.clauseAt_setClause_self]
  dsimp only
  rw [if_neg hgoes, State.modClause_setClause, State.pieceOut_setClause]
  exact hthere.clauseFetch hfar hreplica _

end

/-- Settles O33: each data step sends the access of its one piece to another chip; a FILL here writes at once. -/
theorem dataStepsIssueTheirAccesses : Obligations.DataStepsIssueTheirAccesses := by
  unfold Obligations.DataStepsIssueTheirAccesses
  refine ⟨?copy, ?copy2d, ?fill, ?fillHere, ?gather, ?scatter, ?batch⟩
  case copy =>
    intro s id c src dst n fpa k hlive hfin hk hnew hmoves hruns hsound hreplica hsend ⟨hblock, hpos⟩
    exact .data_sent (f := fun k s => s.copyData id k) rfl hlive hfin hk hnew hsend
      (State.copyData_remote hmoves ⟨hruns, hsound, hblock, hpos⟩ hsend.1 hreplica)
  case copy2d =>
    intro s id c src dst n fpa k hlive hfin hk hnew hmoves hruns hsound hreplica hsend ⟨hblock, hpos⟩
    exact .data_sent (f := fun k s => s.copyData id k) rfl hlive hfin hk hnew hsend
      (State.copyData_remote hmoves ⟨hruns, hsound, hblock, hpos⟩ hsend.1 hreplica)
  case fill =>
    intro s id c n fpa k hlive hfin hk hnew hn hsegs hlen hd hruns hc hsound hsend ⟨hblock, hpos⟩
    subst hc
    have hwrite := State.fillData_one hsegs hlen hpos hn hd ⟨hruns, hsound, hblock, hpos⟩ (id := id)
    exact .data_sent (f := fun k s => s.fillData id k) rfl hlive hfin hk hnew hsend (hwrite.trans (if_neg hsend.1))
  case fillHere =>
    intro s id n fpa k hlive hk hnew ⟨hpos, hn⟩ hsegs hlen hd hruns hblock hchip hnear hsound ⟨hquiet, hforward⟩ hframe
      ⟨hpoison, htags⟩ hclear hcopies hcalm ⟨hflying, hcancelled⟩ honly
    obtain ⟨t, hstep, hmem, hclause⟩ := Completes.fill_here hlive hcalm hnew hpos hn hsegs hlen hd hblock hruns hsound
      ⟨hchip, hnear, hquiet, hforward, hframe, hpoison, htags, hclear, hcopies⟩ hflying hcancelled honly
    obtain ⟨-, hopen, -⟩ := hnew
    refine ⟨t, hstep, hmem, ?_⟩
    rw [hclause, Option.map_some, hopen]
  case gather =>
    intro s id e fpa k hlive hfin hk hnew helems hparts hruns hsound hreplica hsend ⟨hblock, hpos⟩
    have hread := State.indexData_remote (id := id) hparts ⟨hruns, hsound, hblock, hpos⟩ hsend.1 hreplica
    rw [← helems] at hread
    exact .data_sent (f := fun k s => s.indexData id k (k.newSegs.flatMap (segElems k.desc))) rfl hlive hfin hk hnew hsend hread
  case scatter =>
    intro s id e fpa k order hlive hfin hk hnew helems hparts hruns hsound hreplica hsend ⟨hblock, hpos⟩
    have hread := State.indexData_remote (id := id) hparts ⟨hruns, hsound, hblock, hpos⟩ hsend.1 hreplica
    rw [← helems] at hread
    exact .data_sent
      (f := fun k s => s.indexData id k (scatterOrder order (k.newSegs.flatMap (segElems k.desc)))) rfl hlive hfin hk hnew hsend hread
  case batch =>
    intro s id fpa k hlive hfin hk hnew hmore hidle hruns hsound hreplica hsend ⟨hblock, hpos⟩
    obtain ⟨hop, hopen, hrest⟩ := hnew
    obtain ⟨t, hstep, hsent, hclause, hframe⟩ := Completes.data_sent (c := .atomicBatch id) rfl hlive hfin hk ⟨hop, hopen, hrest⟩
      hsend (State.batchStep_remote hopen hmore hidle ⟨hruns, hsound, hblock, hpos⟩ hsend.1 hreplica)
    refine ⟨t, hstep, hsent, ?_, hframe⟩
    rw [hclause, Option.map_some, k.batchPos_atEntry, ← hopen]
    rfl

end Sys2Proof.Machine
end

section
namespace Sys2Proof.Machine

/-! ### Rows of clause work that complete no access -/

theorem Completes.of_worked {c : Instr} {s u : State} {f : State → State} {P : State → Prop} (hexec : exec c s = worked s f)
    (hlive : s.live = true) (hu : f s = u) (hfin : u.home.finished = []) (hP : P u) : Completes c s P :=
  .of_settled (hexec.trans ((worked_live hlive f).trans (congrArg settled hu))) hfin hP

/-! ### Placement on a tile (R261) -/

section
variable {s : State} {id : Nat} {k : Clause}

/-- A clause that waits for a tile. -/
def Clause.AwaitsTile (k : Clause) : Prop :=
  k.stage = .waiting ∧ k.untriggered = false ∧ k.ending = none ∧ k.ptu = none

theorem Clause.AwaitsTile.not_skipped (h : k.AwaitsTile) (hneeds : needsTile (descOp k.desc) = true) :
    ¬ (k.stage ≠ .waiting ∨ k.untriggered ∨ k.ending.isSome ∨ k.ptu.isSome ∨ !needsTile (descOp k.desc)) := by
  obtain ⟨hstage, htriggered, hopen, hptu⟩ := h
  simp [hstage, htriggered, hopen, hptu, hneeds]

/-- The tiles that take a clause, each with a free context and a range of its store. -/
def State.takers (s : State) (k : Clause) : List (Nat × Nat × Nat) :=
  (List.range 48).filterMap (fun l => (s.takes l k.tsBytes).map (fun cb => (l, cb)))

/-- The clause as it runs on a context. -/
def Clause.onTile (k : Clause) (l c : Nat) : Clause := { k with placed := k.placed ++ [⟨l, c⟩], stage := .running }

/-- The tile with a fresh context of the clause, and the clause's range of its store at 0. -/
def Tile.seat (t : Tile) (id : Nat) (k : Clause) (c b : Nat) : Tile :=
  { t with store := memClear t.store b k.tsBytes, ctxs := tset c (newCtx id k b) t.ctxs }

theorem State.putCtx_eq (hk : s.clauseAt id = some k) (l c b : Nat) :
    s.putCtx id k l c b = (s.setTile l ((s.tile l).seat id k c b)).setClause id (k.onTile l c) :=
  State.modClause_of_clauseAt (s := s.setTile l _) hk _

@[simp] theorem State.tile_setTile_self (s : State) (l : Nat) (t : Tile) : (s.setTile l t).tile l = t :=
  congrArg (Option.getD · Tile.empty) (tget_tset_self l t s.home.tiles)

theorem State.tile_setTile_ne (s : State) {l n : Nat} (h : n ≠ l) (t : Tile) : (s.setTile l t).tile n = s.tile n :=
  congrArg (Option.getD · Tile.empty) (tget_tset_ne h t s.home.tiles)

theorem State.place_of_taker (hk : s.clauseAt id = some k) (hawaits : k.AwaitsTile) (hneeds : needsTile (descOp k.desc) = true)
    (hspread : spreads (descOp k.desc) = false) {l c b : Nat} (htaker : s.takers k = [(l, c, b)])
    (hturn : s.work.waitTile = [] ∨ s.work.waitTile = [id]) :
    s.place id = State.putCtx { s with work := { s.work with waitTile := [] } } id k l c b := by
  have hone : (List.range 48).filterMap (fun l => (s.takes l k.tsBytes).map (fun cb => (l, cb))) = [(l, c, b)] := htaker
  obtain ⟨hfirst, hleft⟩ : s.work.waitTile.headD id = id ∧ s.work.waitTile.filter (· != id) = [] := by
    rcases hturn with hnone | hmine
    · simp [hnone]
    · simp [hmine]
  rw [State.place, hk]
  dsimp only
  rw [if_neg (hawaits.not_skipped hneeds), hone, hfirst, hleft, hspread]
  exact (if_neg (by simp)).trans (if_neg Bool.false_ne_true)

theorem State.place_of_no_taker (hk : s.clauseAt id = some k) (hawaits : k.AwaitsTile)
    (hneeds : needsTile (descOp k.desc) = true) (hnone : s.takers k = []) (hnew : s.work.waitTile.contains id = false) :
    s.place id = { s with work := { s.work with waitTile := s.work.waitTile ++ [id] } } := by
  rw [State.place, hk]
  dsimp only
  rw [if_neg (hawaits.not_skipped hneeds)]
  exact (if_pos (.inl hnone)).trans (if_neg (Bool.eq_false_iff.1 hnew))

theorem Completes.clausePlace (hlive : s.live = true) (hfin : s.home.finished = []) (hk : s.clauseAt id = some k)
    (hawaits : k.AwaitsTile) (hneeds : needsTile (descOp k.desc) = true) (hspread : spreads (descOp k.desc) = false)
    {l c b : Nat} (htaker : s.takers k = [(l, c, b)]) (hturn : s.work.waitTile = [] ∨ s.work.waitTile = [id]) :
    Completes (.clausePlace id) s (fun t => t.clauseAt id = some { k with placed := k.placed ++ [⟨l, c⟩], stage := .running } ∧
      t.ctx ⟨l, c⟩ = some (newCtx id k b) ∧ t.work.waitTile = [] ∧ (∀ n : Nat, n ≠ id → t.clauseAt n = s.clauseAt n) ∧
      (∀ n : Nat, n ≠ l → t.tile n = s.tile n) ∧
      t = { s with work := { s.work with clauses := t.work.clauses, waitTile := [] }, home := { s.home with tiles := t.home.tiles } }) := by
  let v : State := { s with work := { s.work with waitTile := [] } }
  have hplaced : s.place id = (v.setTile l ((s.tile l).seat id k c b)).setClause id (k.onTile l c) :=
    (State.place_of_taker hk hawaits hneeds hspread htaker hturn).trans (State.putCtx_eq (s := v) hk l c b)
  refine .of_worked rfl hlive hplaced hfin ⟨State.clauseAt_setClause_self .., ?_, rfl,
    fun n hn => State.clauseAt_setClause_ne _ hn _, fun n hn => State.tile_setTile_ne v hn _, rfl⟩
  have htile := State.tile_setTile_self v l ((s.tile l).seat id k c b)
  exact (congrArg (fun t : Tile => tget c t.ctxs) htile).trans (tget_tset_self ..)

end
end Sys2Proof.Machine
end


section
namespace Sys2Proof.Machine

/-! ### A segment starts, or its clause parks (R56, R59, R60, R72) -/

section
variable {s : State} {id : Nat} {k : Clause}

/-- A clause on tiles whose next segment may start. -/
def Clause.AtSegment (k : Clause) : Prop :=
  k.ending = none ∧ k.untriggered = false ∧ k.stage = .running ∧ k.segment < k.segs ∧ k.cancelled = false ∧ k.ptu = none ∧
    k.placed ≠ []

theorem Clause.AtSegment.not_skipped (h : k.AtSegment) (hkernel : descOp k.desc ≠ 0x30) (hcoll : isColl (descOp k.desc) = false) :
    ¬ (k.ending.isSome ∨ k.untriggered ∨ (k.stage ≠ .running ∧ k.stage ≠ .waiting) ∨ k.segs ≤ k.segment ∨
      descOp k.desc = 0x30 ∨ !s.seated id k ∨ lacksArrays k.desc k.extra (s.role k).members) := by
  obtain ⟨hopen, htriggered, hrunning, hmore, -, hptu, hplaced⟩ := h
  have hseated : s.seated id k = true := by
    simp [State.seated, hptu, hplaced, hrunning, hcoll]
  simp [hopen, htriggered, hrunning, Nat.not_le.2 hmore, hkernel, hseated, lacksArrays, hcoll]

theorem State.startSegment_of_covered (hk : s.clauseAt id = some k) (h : k.AtSegment) (hkernel : descOp k.desc ≠ 0x30)
    (htransform : descOp k.desc ≠ 0x20) (hcoll : isColl (descOp k.desc) = false)
    (hcovers : k.covers (s.segTouch k k.segment) = true) :
    s.startSegment id = s.setClause id { k with segment := k.segment + 1, timed := true } := by
  have hskip := h.not_skipped (s := s) (id := id) hkernel hcoll
  obtain ⟨-, -, hrunning, -, hlive, hptu, -⟩ := h
  have hstarted : s.modClause id (fun k => { k with segment := k.segment + 1, timed := true, stage := .running }) =
      s.setClause id { k with segment := k.segment + 1, timed := true } := by
    rw [State.modClause_of_clauseAt hk, hrunning]
  rw [State.startSegment, hk]
  dsimp only
  rw [if_neg hskip, if_neg (Bool.eq_false_iff.1 hlive), if_pos hcovers, hstarted]
  simp only [hptu]
  rw [if_neg htransform, if_neg (Bool.eq_false_iff.1 hcoll)]

theorem State.startSegment_of_uncovered (hk : s.clauseAt id = some k) (h : k.AtSegment) (hkernel : descOp k.desc ≠ 0x30)
    (hcoll : isColl (descOp k.desc) = false) (hcovers : k.covers (s.segTouch k k.segment) = false) :
    s.startSegment id = s.park id := by
  have hskip := h.not_skipped (s := s) (id := id) hkernel hcoll
  obtain ⟨-, -, -, -, hlive, -, -⟩ := h
  rw [State.startSegment, hk]
  dsimp only
  rw [if_neg hskip, hlive, if_neg Bool.false_ne_true, hcovers, if_neg Bool.false_ne_true]

/-- A fold over a table that ignores both the old and the new entry of a key does not see the key set. -/
theorem foldl_tset_of_ignored {α β : Type} {f : β → Nat × α → β} {k : Nat} {v w : α} (hold : ∀ b, f b (k, w) = b)
    (hnew : ∀ b, f b (k, v) = b) {t : Tbl α} (hget : tget k t = some w) (b : β) : (tset k v t).foldl f b = t.foldl f b := by
  induction t generalizing b with
  | nil => cases hget
  | cons e t ih =>
    obtain ⟨k', v'⟩ := e
    rw [tget] at hget
    rw [tset]
    split
    · rw [List.foldl_cons, hnew]
    · split at hget
      next hkey =>
        cases hget
        rw [if_pos hkey.symm, List.foldl_cons, List.foldl_cons, hnew, hkey, hold]
      next hkey => rw [if_neg (Ne.symm hkey), List.foldl_cons, List.foldl_cons, ih hget]

/-- A clause that just parked, and waits on nothing yet, is no earlier waiter of a page. -/
theorem State.firstParked_setClause (hk : s.clauseAt id = some k) (hstage : k.stage ≠ .parked) {k' : Clause}
    (hlacking : k'.lacking = []) (p page tick : Nat) : (s.setClause id k').firstParked p page tick = s.firstParked p page tick := by
  refine foldl_tset_of_ignored (fun b => if_neg ?_) (fun b => if_neg ?_) hk tick
  · rintro ⟨hparked, -⟩
    exact hstage hparked
  · rintro ⟨-, -, hwaits⟩
    simp [hlacking] at hwaits

/-- The clause as it parks: the parts of its extents in earlier segments alone stay. -/
def State.parkedClause (s : State) (k : Clause) : Clause :=
  { k with
    stage := .parked, clear := k.segment, lacking := [], waitsOn := [], parkTick := s.tick,
    extents := keepExtents ((List.range k.segment).flatMap (s.segTouch k)) k.extents ++
      (if k.atTarget then k.extents.getLast?.toList else []) }

/-- The translation of what a parking clause wants: its next segment and the seven after it. -/
def State.wanted (s : State) (k : Clause) : Xres :=
  s.xlRanges k.partition ((List.range (min 8 (k.segs - k.segment))).flatMap (fun i => s.segTouch k (k.segment + i)))

theorem State.park_of_room (hk : s.clauseAt id = some k) (hroom : s.parkedCount < 8192) :
    s.park id = ((s.wanted k).lacking.foldl (fun s (w : Nat × Nat) => s.waitOn id k.partition w.1 w.2 k.queue)
      (s.setClause id (s.parkedClause k))).giveQuiet id := by
  rw [State.park, hk]
  dsimp only
  rw [if_neg (Nat.not_le.2 hroom), State.modClause_of_clauseAt hk, State.wanted, State.parkedClause]

/-- The record that a clause opens for a page that it wants first. -/
def State.newFault (s : State) (k : Clause) (page kinds firstTick : Nat) : FaultRec :=
  { page := page, partition := k.partition, access := kinds, serial := s.xlat.nextFault, queue := k.queue,
    tense := s.tense k.partition, firstTick := firstTick % 2 ^ 32, tick := s.tick }

/-- The state with one more fault record, pending and in the open batch. -/
def State.addFault (s : State) (f : FaultRec) : State :=
  { s with xlat := { s.xlat with faults := s.xlat.faults ++ [f], openBatch := s.xlat.openBatch ++ [f],
                                 nextFault := s.xlat.nextFault + 1 } }

/-- A clause that just parked opens a record for a page that nothing waits on yet. -/
theorem State.waitOn_first {page kinds : Nat} {k' : Clause} (hk : s.clauseAt id = some k) (hstage : k.stage ≠ .parked)
    (hlacking : k'.lacking = []) (hpending : s.pendingFault k.partition page = none) (hroom : s.xlat.faults.length < 16384) :
    (s.setClause id k').waitOn id k.partition page kinds k.queue =
      (s.addFault (s.newFault k page kinds (s.firstParked k.partition page k'.parkTick))).setClause id
        { k' with waitsOn := s.xlat.nextFault :: k'.waitsOn } := by
  have hnone : (s.setClause id k').pendingFault k.partition page = none := hpending
  have hfits : ¬ 16384 ≤ (s.setClause id k').xlat.faults.length := Nat.not_le.2 hroom
  rw [State.waitOn, hnone]
  dsimp only
  rw [if_neg hfits, State.clauseAt_setClause_self, Option.map_some, Option.getD_some,
    State.firstParked_setClause hk hstage hlacking]
  exact State.modClause_setClause (s.addFault _) id k' _

/-- A parked clause with a piece under way keeps its tiles. -/
theorem State.giveQuiet_of_flying (hk : s.clauseAt id = some k) (hflying : k.flying ≠ []) : s.giveQuiet id = s := by
  have hbusy : s.segsQuiet k = false := by
    rw [State.segsQuiet, List.isEmpty_eq_false_iff.2 hflying, Bool.false_and]
  rw [State.giveQuiet, hk]
  dsimp only
  rw [hbusy]
  simp

/-- A clause with a piece under way that lacks one page, of which there is no record, parks on a new one. -/
theorem State.park_on_new {page kinds : Nat} (hk : s.clauseAt id = some k) (hstage : k.stage ≠ .parked) (hflying : k.flying ≠ [])
    (hparked : s.parkedCount < 8192) (hwanted : (s.wanted k).lacking = [(page, kinds)])
    (hpending : s.pendingFault k.partition page = none) (hroom : s.xlat.faults.length < 16384) :
    s.park id = (s.addFault (s.newFault k page kinds (s.firstParked k.partition page s.tick))).setClause id
      { s.parkedClause k with waitsOn := [s.xlat.nextFault] } := by
  have hwaits : (s.setClause id (s.parkedClause k)).waitOn id k.partition page kinds k.queue = _ :=
    State.waitOn_first (kinds := kinds) hk hstage rfl hpending hroom
  rw [State.park_of_room hk hparked, hwanted, List.foldl_cons, List.foldl_nil, hwaits]
  exact State.giveQuiet_of_flying (State.clauseAt_setClause_self ..) hflying

end
end Sys2Proof.Machine
end

section
namespace Sys2Proof.Machine

/-! ### A parked clause resumes (R61) -/

section
variable {s : State} {id : Nat} {k : Clause}

/-- The clause as it goes on with the extents of a new translation. -/
def State.resumedClause (s : State) (k : Clause) (es : List Extent) : Clause :=
  { k with extents := es ++ k.extents, tense := s.tense k.partition, waitsOn := [], lacking := [], clear := 0, stage := .waiting }

theorem State.maybeRemote_of_disabled (h : s.get R.PARSER_CTL_REMOTE_EXEC_EN = 0) (id : Nat) : s.maybeRemote id = s := by
  unfold State.maybeRemote
  split
  · rfl
  · exact if_pos (by simp [h])

/-- What is done with a clause, when there is one: this rule keeps the rest of a definition closed. -/
theorem State.match_clauseAt (hk : s.clauseAt id = some k) (t : State) (f : Clause → State) :
    (match s.clauseAt id with
    | none => t
    | some k => f k) = f k := by
  rw [hk]

theorem State.retranslate_of_covered (hk : s.clauseAt id = some k) (hplaced : k.placed = []) (hkernel : descOp k.desc ≠ 0x30)
    {x : Xres} (hx : s.xlRanges k.partition (s.fromSeg k k.segment) = x) (hgood : x.bad = none)
    (hcovers : ({ k with extents := x.extents ++ k.extents } : Clause).covers (s.segTouch k k.segment) = true) :
    s.retranslate id = s.setClause id (s.resumedClause k x.extents) := by
  have hclear : s.clearSegs { k with extents := x.extents ++ k.extents, tense := s.tense k.partition, waitsOn := [], lacking := [] } = 0 :=
    if_neg hkernel
  have hstage : ¬ (descOp k.desc = 0x30 ∧ k.placed ≠ []) := fun h => hkernel h.1
  have hthere : (s.resumedClause k x.extents).covers ((s.setClause id (s.resumedClause k x.extents)).segTouch k k.segment) = true :=
    hcovers
  have hresumes (f : State → At → State) (t : State) : k.placed.foldl f t = t := by
    rw [hplaced, List.foldl_nil]
  refine (State.match_clauseAt hk s _).trans ?_
  rw [hx]
  dsimp only
  rw [hgood]
  dsimp only
  rw [hclear, if_neg hstage]
  exact (if_pos hthere).trans (hresumes _ _)

theorem State.resume_of_covered (hk : s.clauseAt id = some k) (hparked : k.stage = .parked) (hopen : k.ending = none)
    (hplaced : k.placed = []) (hkernel : descOp k.desc ≠ 0x30) (hcoll : isColl (descOp k.desc) = false)
    (hmapped : (s.xlRanges k.partition (s.segTouch k k.segment)).lacking = [])
    {x : Xres} (hx : s.xlRanges k.partition (s.fromSeg k k.segment) = x) (hgood : x.bad = none)
    (hcovers : ({ k with extents := x.extents ++ k.extents } : Clause).covers (s.segTouch k k.segment) = true)
    (hhome : s.get R.PARSER_CTL_REMOTE_EXEC_EN = 0) :
    s.resume id = s.setClause id (s.resumedClause k x.extents) := by
  have harrays : ¬ lacksArrays k.desc k.extra (s.role k).members = true := by simp [lacksArrays, hcoll]
  have hstays : (s.setClause id (s.resumedClause k x.extents)).maybeRemote id = s.setClause id (s.resumedClause k x.extents) :=
    State.maybeRemote_of_disabled (s := s.setClause id (s.resumedClause k x.extents)) hhome id
  have hrunsOn : ¬ (s.resumedClause k x.extents).ending.isSome = true := by
    rw [State.resumedClause, hopen]
    exact Bool.false_ne_true
  rw [State.resume, hk]
  dsimp only
  rw [if_pos ⟨hparked, by rw [hopen]; rfl, hmapped⟩, if_neg harrays, State.resumeNow,
    State.retranslate_of_covered hk hplaced hkernel hx hgood hcovers,
    State.clauseAt_setClause_self]
  dsimp only
  rw [if_neg hrunsOn, hstays, ite_self]

end
end Sys2Proof.Machine
end

section
namespace Sys2Proof.Machine

/-! ### A clause on no tile ends with a code (R58, R62, R486) -/

section
variable {s : State} {id : Nat} {k : Clause}

/-- The clause with an ending: it waits for nothing, and holds no tile. -/
def Clause.ended (k : Clause) (e : Ending) : Clause :=
  { k with waitsOn := [], lacking := [], untriggered := false, stage := if k.stage = .parked then .running else k.stage,
           ending := some e, placed := [] }

/-- The state in which a clause has left every list of waiters. -/
def State.unlisted (s : State) (id : Nat) : State :=
  { s with work := { s.work with waitTile := s.work.waitTile.filter (· != id) },
           ptus := s.ptus.map (fun (u : Nat × Ptu) => (u.1, { u.2 with waiting := u.2.waiting.filter (· != id) })) }

theorem State.endClause_of_unplaced (hk : s.clauseAt id = some k) (hopen : k.ending = none) (hstage : k.stage ≠ .done)
    (hplaced : k.placed = []) (e : Ending) : s.endClause id e = (s.unlisted id).setClause id (k.ended e) := by
  have hgoes : ¬ (k.ending.isSome ∨ k.stage = .done) := by simp [hopen, hstage]
  have hunwait : s.unwait id = (s.unlisted id).setClause id { k with
      waitsOn := [], lacking := [], untriggered := false, stage := if k.stage = Stage.parked then Stage.running else k.stage } :=
    State.modClause_of_clauseAt (s := s.unlisted id) hk _
  rw [State.endClause, hk]
  dsimp only
  rw [if_neg hgoes, State.giveTiles, hplaced, List.foldl_nil, hunwait, State.modClause_setClause, Clause.endWith]
  dsimp only
  rw [hopen]
  rfl

theorem State.memberFailed_of_not_coll (hcoll : isColl (descOp k.desc) = false) : s.memberFailed k = s := by
  rw [State.memberFailed, hcoll]
  rfl

theorem State.endWithCode_of_unplaced (hk : s.clauseAt id = some k) (hopen : k.ending = none) (hstage : k.stage ≠ .done)
    (hplaced : k.placed = []) (hcoll : isColl (descOp k.desc) = false) (e : Err) (seg addr : Nat) :
    s.endWithCode id e seg addr = (s.unlisted id).setClause id (k.ended (ending e seg addr)) := by
  rw [State.endWithCode, State.endClause_of_unplaced hk hopen hstage hplaced, State.clauseAt_setClause_self]
  exact State.memberFailed_of_not_coll hcoll

/-- A counter that saturates reads the greater count, or its top. -/
theorem State.get_count_self (s : State) (f : Fld) (n : Nat) :
    (s.count f n).get f = min (s.get f + n) (2 ^ f.width - 1) := by
  have hpos := Nat.two_pow_pos f.width
  refine (State.get_set_self ..).trans (Nat.mod_eq_of_lt ?_)
  omega

theorem State.count_onlyFields (s : State) (f : Fld) (n : Nat) : OnlyFields [f] s (s.count f n) :=
  (OnlyFields.refl [f] s).set (by simp)

/-- The only clause of the chip, parked off the tiles, ends at its park timeout. -/
theorem State.parkExpired_of_only (honly : s.work.clauses = [(id, k)]) (hparked : k.stage = .parked) (hopen : k.ending = none)
    (hplaced : k.placed = []) (hcoll : isColl (descOp k.desc) = false) :
    s.parkExpired id = ((s.count R.XLAT_FB_COUNT_TIMEOUTS).unlisted id).setClause id (k.ended (ending .timeout k.seg? 0)) := by
  have hk : s.clauseAt id = some k := by
    rw [State.clauseAt, honly]
    exact if_pos rfl
  have hgoes : ¬ (k.stage ≠ .parked ∨ k.ending.isSome) := by simp [hparked, hopen]
  have hkcount : (s.count R.XLAT_FB_COUNT_TIMEOUTS).clauseAt id = some k := hk
  rw [State.parkExpired, hk]
  dsimp only
  rw [if_neg hgoes, honly, List.filterMap_cons_none (by simp), List.filterMap_nil, List.foldl_cons, List.foldl_nil, hk]
  exact State.endWithCode_of_unplaced hkcount hopen (by simp [hparked]) hplaced hcoll ..

end
end Sys2Proof.Machine
end

section
namespace Sys2Proof.Machine

/-! ### A batch leaves (R73, R74) -/

section
variable {s : State}

theorem State.batchLink_lt (s : State) : s.batchLink < 2 := by
  unfold State.batchLink
  split <;> decide

/-- A message of the chip's own leaves on a link that is ACTIVE. -/
theorem State.sendOwnOn_active {l : Nat} (hl : l < 2) (hup : s.linkState l = 4) (code : Nat) (body : List Byte) :
    s.sendOwnOn l code body = s.bumpOwn.sendOn l { code := code, resp := false, resent := false, reqId := s.ownId, body := body } := by
  have hopen : ¬ (code ≠ 0x51 ∧ s.linkState 0 ≠ 4 ∧ s.linkState 1 ≠ 4 ∧ s.storeFull = true) := by
    rintro ⟨-, hdown0, hdown1, -⟩
    rcases (show l = 0 ∨ l = 1 by omega) with rfl | rfl
    · exact hdown0 hup
    · exact hdown1 hup
  exact (if_neg hopen).trans (if_pos hup)

/-- FAULT_BATCH with all the records of the open batch (Table 3-3). -/
def State.batchMsg (s : State) (cause : Nat) : Msg :=
  { code := 0x28, resp := false, resent := false, reqId := s.ownId,
    body := packBytes [(9, s.xlat.openBatch.length), (7, 0), (8, cause), (8, 0), (32, s.xlat.batchSeq), (15, s.chip), (1, 0), (48, 0)] ++
      s.xlat.openBatch.flatMap s.faultBytes }

/-- The state with the open batch taken out, and the batch and message numbers used. -/
def State.batchTaken (s : State) : State :=
  State.bumpOwn { s with xlat := { s.xlat with openBatch := [], batchSeq := (s.xlat.batchSeq + 1) % 2 ^ 32 } }

theorem State.closeBatch_of_whole (hsome : s.xlat.openBatch ≠ []) (hfits : s.xlat.openBatch.length ≤ s.get R.XLAT_FB_CTL_BATCH_MAX)
    (hup : s.linkState s.batchLink = 4) (cause : Nat) :
    s.closeBatch cause = ((s.batchTaken.sendOn s.batchLink (s.batchMsg cause)).count R.XLAT_FB_COUNT_BATCHES).sample 12
      s.xlat.openBatch.length none none := by
  let v : State := { s with xlat := { s.xlat with openBatch := [], batchSeq := (s.xlat.batchSeq + 1) % 2 ^ 32 } }
  have hlink : s.linkState 0 = 4 ∨ s.linkState 1 = 4 := by
    have hlt := s.batchLink_lt
    generalize s.batchLink = l at hup hlt
    rcases (show l = 0 ∨ l = 1 by omega) with rfl | rfl
    · exact .inl hup
    · exact .inr hup
  have hsent : v.sendOwnOn s.batchLink 0x28 (s.batchMsg cause).body = s.batchTaken.sendOn s.batchLink (s.batchMsg cause) :=
    State.sendOwnOn_active (s := v) s.batchLink_lt hup ..
  rw [State.closeBatch, List.take_of_length_le hfits, List.drop_of_length_le hfits]
  refine (if_neg hsome).trans ((if_pos hlink).trans ?_)
  rw [← hsent]
  rfl

theorem State.closeBatch_spec (hsome : s.xlat.openBatch ≠ []) (hfits : s.xlat.openBatch.length ≤ s.get R.XLAT_FB_CTL_BATCH_MAX)
    (hup : s.linkState s.batchLink = 4) (cause : Nat) {t : State} (ht : s.closeBatch cause = t) :
    t.xlat.openBatch = [] ∧ t.xlat.batchSeq = (s.xlat.batchSeq + 1) % 2 ^ 32 ∧
      t.get R.XLAT_FB_COUNT_BATCHES = min (s.get R.XLAT_FB_COUNT_BATCHES + 1) (2 ^ R.XLAT_FB_COUNT_BATCHES.width - 1) ∧
      ((t.link s.batchLink).msgs.getLast?.map (fun m => (m.1.code, m.1.reqId, m.1.body))) =
        some (0x28, s.nelar.nextOwn, (s.batchMsg cause).body) ∧
      t = { s with
        regs := t.regs, xlat := { s.xlat with openBatch := [], batchSeq := t.xlat.batchSeq },
        tele := { s.tele with hists := t.tele.hists }, nelar := t.nelar, out := t.out } ∧
      OnlyFields [R.XLAT_FB_COUNT_BATCHES] s t := by
  obtain ⟨n, hmsgs⟩ := s.batchTaken.sendOn_msgs s.batchLink (s.batchMsg cause)
  obtain ⟨nelar, out, hsent⟩ : ∃ nelar out,
      s.batchTaken.sendOn s.batchLink (s.batchMsg cause) = { s.batchTaken with nelar := nelar, out := out } :=
    ⟨_, _, (State.Sends.refl s.batchTaken).sendOn.frame⟩
  let w : State := { s.batchTaken with nelar := nelar, out := out }
  obtain ⟨hists, hsample⟩ := (w.count R.XLAT_FB_COUNT_BATCHES).sample_hists 12 s.xlat.openBatch.length none none
  rw [State.closeBatch_of_whole hsome hfits hup, hsent, hsample] at ht
  rw [hsent] at hmsgs
  have hlast : (w.link s.batchLink).msgs.getLast? = some (s.batchMsg cause, n) := by
    rw [hmsgs, List.getLast?_concat]
  subst ht
  exact ⟨rfl, rfl, State.get_count_self w .., congrArg (Option.map _) hlast, rfl,
    State.count_onlyFields w R.XLAT_FB_COUNT_BATCHES 1⟩

theorem Completes.batchTimeout (hlive : s.live = true) {P : State → Prop} (hP : P (s.closeBatch 1)) :
    Completes .batchTimeout s P :=
  .of_next (congrArg ok (State.whenLive_live hlive _)) hP

theorem Completes.batchFull (hlive : s.live = true) (hfull : s.xlat.openBatch.length = s.get R.XLAT_FB_CTL_BATCH_MAX)
    {P : State → Prop} (hP : P (s.closeBatch 0)) : Completes .batchFull s P :=
  .of_next (congrArg ok ((State.whenLive_live hlive _).trans (if_pos hfull.ge))) hP

end
end Sys2Proof.Machine
end

section
namespace Sys2Proof.Machine

/-- Settles O32: each clause is the equation of its operation on such a state, and the operation completes no access. -/
theorem clausesArePlacedStartedAndParked : Obligations.ClausesArePlacedStartedAndParked := by
  unfold Obligations.ClausesArePlacedStartedAndParked
  refine ⟨?placed, ?waits, ?starts, ?parks, ?resumes, ?expires, ?timeout, ?full⟩
  case placed =>
    intro s id l c b k hlive hfin hk hawaits ⟨hneeds, hspread⟩ htaker hturn
    exact .clausePlace hlive hfin hk hawaits hneeds hspread htaker hturn
  case waits =>
    intro s id k hlive hfin hk hawaits hneeds hnone hnew
    exact (worked_live hlive _).trans ((congrArg settled (State.place_of_no_taker hk hawaits hneeds hnone hnew)).trans
      (settled_of_finished_nil hfin))
  case starts =>
    intro s id k hlive hfin hk hready ⟨hkernel, htransform, hcoll⟩ hcovers
    exact .of_worked rfl hlive (State.startSegment_of_covered hk hready hkernel htransform hcoll hcovers) hfin
      ⟨State.clauseAt_setClause_self .., fun n hn => State.clauseAt_setClause_ne _ hn _, rfl⟩
  case parks =>
    intro s id page kinds k hlive hfin hk ⟨hopen, htriggered, hrunning, hmore, hnot, hptu, hplaced, hflying⟩ ⟨hkernel, hcoll⟩
      hlacks hparked hwanted hpending hroom hfirst
    have hready : k.AtSegment := ⟨hopen, htriggered, hrunning, hmore, hnot, hptu, hplaced⟩
    have hpark := (State.startSegment_of_uncovered hk hready hkernel hcoll hlacks).trans
      (State.park_on_new hk (by simp [hrunning]) hflying hparked hwanted hpending hroom)
    rw [hfirst] at hpark
    refine .of_worked rfl hlive hpark hfin ⟨?_, rfl, rfl, fun n hn => State.clauseAt_setClause_ne _ hn _, rfl⟩
    rw [State.clauseAt_setClause_self]
    rfl
  case resumes =>
    intro s id k x hlive hfin hk ⟨hparked, hopen, hplaced, hkernel, hcoll⟩ hmapped hx hgood hcovers hhome
    exact .of_worked rfl hlive (State.resume_of_covered hk hparked hopen hplaced hkernel hcoll hmapped hx hgood hcovers hhome) hfin
      ⟨State.clauseAt_setClause_self .., fun n hn => State.clauseAt_setClause_ne _ hn _, rfl⟩
  case expires =>
    intro s id k hlive hfin honly ⟨hparked, hopen, hplaced, hcoll⟩
    refine .of_worked rfl hlive (State.parkExpired_of_only honly hparked hopen hplaced hcoll) hfin
      ⟨?_, State.get_count_self s .., rfl, State.count_onlyFields s R.XLAT_FB_COUNT_TIMEOUTS 1⟩
    rw [State.clauseAt_setClause_self, Option.map_some, Clause.ended, if_pos hparked]
    rfl
  case timeout =>
    intro s hlive hsome hfits hup
    exact .batchTimeout hlive (State.closeBatch_spec hsome hfits hup 1 rfl)
  case full =>
    intro s hlive hsome hfull hup
    exact .batchFull hlive hfull (State.closeBatch_spec hsome hfull.le hup 0 rfl)

end Sys2Proof.Machine
end

section
namespace Sys2Proof.Machine

/-! ### A descriptor becomes a clause (R175) -/

section
variable {s : State} {q idx : Nat} {r : Queue} {d : List Byte}

/-- A queue whose fetched descriptor waits for no bytes and for no entry. -/
def Queue.Holds (r : Queue) (d : List Byte) (idx : Nat) : Prop :=
  r.fetched = some (d, idx) ∧ r.asking = false ∧ r.fetching = false ∧ r.held = false ∧ r.extra = none ∧ d.length = descLen d

theorem State.accept_of_plain (hq : s.queue q = some r) (hr : r.Holds d idx) (hstate : s.get (R.QPAGE_STATUS_STATE q) = 1)
    (hearly : s.earlyErr d q (s.get (R.QPAGE_STATUS_PARTITION q)) = .none) (hreads : extraReads d (s.membersOf d) = [])
    (htouches : s.touchesHeld d [] q (s.get (R.QPAGE_STATUS_PARTITION q)) = false) (hroom : s.pendingTriggers < 16384) :
    s.accept q = s.acceptNow q d [] idx := by
  obtain ⟨hfetched, hasking, hfetching, hheld, hextra, hlen⟩ := hr
  have hgoes : ¬ (r.asking = true ∨ r.fetching = true ∨ r.held = true ∨ d.length ≠ descLen d) := by
    simp [hasking, hfetching, hheld, hlen]
  have hopen : ¬ (s.get (R.QPAGE_STATUS_STATE q) = 2) := by omega
  have hnoBytes : ¬ (extraReads d (s.membersOf d) ≠ [] ∧ ((extraReads d (s.membersOf d)).map Prod.snd).sum ≠ 0) := by
    simp [hreads]
  have hentry : ¬ (descTrigEn d = true ∧ s.counter (nameIndex (descTrigger d)) < descThreshold d ∧ 16384 ≤ s.pendingTriggers) := by
    omega
  rw [State.accept, hq]
  dsimp only
  rw [hfetched]
  dsimp only
  rw [if_neg hgoes, if_neg hopen, hearly, hextra]
  dsimp only
  rw [if_neg hnoBytes, State.acceptHeld, htouches, if_neg Bool.false_ne_true, if_neg hentry]

/-- The clause that an accepted descriptor becomes, with the extents of its translation. -/
def State.newClause (s : State) (q : Nat) (d : List Byte) (idx : Nat) (x : Xres) : Clause :=
  let k : Clause :=
    { queue := q, partition := s.get (R.QPAGE_STATUS_PARTITION q), origin := none, seq := idx, desc := d, extra := [],
      tense := s.tense (s.get (R.QPAGE_STATUS_PARTITION q)), extents := x.extents, leadLen := leadLen d [] (s.roleFor d q),
      stage := .waiting, untriggered := descTrigEn d && decide (s.counter (nameIndex (descTrigger d)) < descThreshold d),
      met := false, lacking := [], waitsOn := [], parkTick := 0, segment := 0, clear := 0, issued := 0, timed := false,
      placed := [], ptu := none, flying := [], failed := [], counted := [], chunks := 0, arriving := 0, arriveErr := .none,
      indices := [], ending := none, cancelled := false, inst := 0, tick := s.tick }
  { k with clear := s.clearSegs k }

/-- The state with a new clause, whose queue goes on unless the descriptor stops it. -/
def State.withClause (s : State) (q : Nat) (d : List Byte) (k : Clause) : State :=
  State.modQueue
    { s with work := { s.work with clauses := tset s.work.nextClause k s.work.clauses, nextClause := s.work.nextClause + 1 } } q
    (fun r => { r with fetched := none, extra := none, asking := false, held := false,
                       blocked := if descOp d = 0x40 ∨ descOp d = 0x42 then some s.work.nextClause else r.blocked })

theorem State.clauseAt_withClause (s : State) (q : Nat) (d : List Byte) (k : Clause) :
    (s.withClause q d k).clauseAt s.work.nextClause = some k :=
  tget_tset_self ..

theorem State.clauses_withClause (s : State) (q : Nat) (d : List Byte) (k : Clause) :
    (s.withClause q d k).work.clauses = tset s.work.nextClause k s.work.clauses := rfl

/-- What is done when there is no first error: this rule keeps the rest of a definition closed. -/
theorem State.match_topErr_none (o : Option Nat) (f : Nat → State) (b : State) : o = none →
    (match o with
    | some a => f a
    | none => b) = b := by
  rintro rfl
  rfl

/-- A descriptor whose ranges translate is a clause; it parks when its first segment is not covered. -/
theorem State.acceptNow_of_uncovered (hcoll : isColl (descOp d) = false) (hplain : descOp d ≠ 0x16)
    (htop : topErr (operands d [] (s.roleFor d q)) = none) {x : Xres}
    (hx : s.xlRanges (s.get (R.QPAGE_STATUS_PARTITION q)) (s.clauseRanges d [] q) = x) (hgood : x.bad = none)
    (htile : s.anyTile = true)
    (hcovers : (s.newClause q d idx x).covers
      ((s.withClause q d (s.newClause q d idx x)).segTouch (s.newClause q d idx x) 0) = false) :
    s.acceptNow q d [] idx = (s.withClause q d (s.newClause q d idx x)).park s.work.nextClause := by
  have hheld (m : Nat) : heldExtra d [] m = [] := if_neg (by simp [hplain])
  have hslot (p : Nat) : s.slotOf d q p = none := by
    rw [State.slotOf, hcoll]
    rfl
  rw [State.acceptNow, hheld]
  refine (State.match_topErr_none _ _ _ htop).trans ?_
  rw [hx]
  dsimp only
  rw [hgood, htile, hslot]
  dsimp only
  refine (if_neg Bool.false_ne_true).trans ?_
  exact if_neg (Bool.eq_false_iff.1 hcovers)

end
end Sys2Proof.Machine
end

section
namespace Sys2Proof.Machine

/-! ### A clause that finds the parked clauses at their limit (R62) -/

theorem State.park_of_full {s : State} {id : Nat} {k : Clause} (hk : s.clauseAt id = some k) (hfull : 8192 ≤ s.parkedCount) :
    s.park id = s.endClause id (ending .resource (if k.timed then k.segment else noSeg) 0) := by
  rw [State.park, hk]
  exact if_pos hfull

/-- A key above all of a table goes to its end. -/
theorem tset_of_forall_lt {α : Type} {k : Nat} {t : Tbl α} (h : ∀ e ∈ t, e.1 < k) (v : α) : tset k v t = t ++ [(k, v)] := by
  induction t with
  | nil => rfl
  | cons e t ih =>
    have hlt := h e List.mem_cons_self
    rw [tset, if_neg (by omega), if_neg (by omega), ih fun e' he' => h e' (List.mem_cons_of_mem _ he'), List.cons_append]

/-- A FILL of 64 B with TRIG_EN and a THRESHOLD of 1, which counter 0 has not met. -/
def fillDesc : List Byte :=
  leBytes 8 0x803 ++ List.replicate 16 0#8 ++ leBytes 8 1 ++ leBytes 8 (2 ^ 51) ++ leBytes 8 64 ++ List.replicate 16 0#8

/-- A clause of queue 1 that is parked. -/
def parkedFill : Clause :=
  { queue := 1, partition := 0, origin := none, seq := 0, desc := fillDesc, extra := [], tense := 0, extents := [], leadLen := 64,
    stage := .parked, untriggered := false, met := false, lacking := [], waitsOn := [], parkTick := 0, segment := 0, clear := 0,
    issued := 0, timed := false, placed := [], ptu := none, flying := [], failed := [], counted := [], chunks := 0, arriving := 0,
    arriveErr := .none, indices := [], ending := none, cancelled := false, inst := 0, tick := 0 }

/-- A queue that has fetched `fillDesc`. -/
def fillQueue : Queue :=
  { sqLog2 := 4, cqLog2 := 4, timeoutUs := 0, sqFva := 0, cqFva := 0, fetched := some (fillDesc, 0), fetching := false,
    extra := none, asking := false, held := false, noFetch := false, blocked := none, records := [], writing := false,
    expired := false, drains := [] }

theorem fillQueue_holds : fillQueue.Holds fillDesc 0 := ⟨rfl, rfl, rfl, rfl, rfl, by decide⟩

/-- A window of 64 B in stripe units of 1 B. -/
def narrowWindow : WinEntry :=
  { valid := true, perm := 2, replicable := false, sideEffect := false, altSide := false, partition := 0, suLog2 := 0,
    length := 64, devBase := 0, members := [(0, 0)], reserved := false }

/-- The parked clauses, as many as the chip allows (R62). -/
def parkedFills : Tbl Clause := (List.range 8192).map (fun i => (i, parkedFill))

theorem parkedFills_forall : ∀ e ∈ parkedFills, e.1 < 8192 ∧ e.2 = parkedFill := by
  intro e he
  obtain ⟨i, hi, rfl⟩ := List.mem_map.1 he
  exact ⟨List.mem_range.1 hi, rfl⟩

theorem parkedFills_length : parkedFills.length = 8192 := by
  rw [parkedFills, List.length_map, List.length_range]

/-- A chip with one queue, that holds `fillDesc`, and with 8,192 parked clauses. -/
def jammed : State :=
  { State.reset with
    boot := { Boot.reset with porN := true }
    regs := [(R.BOOT_STAT_STATE, 2), (R.QPAGE_STATUS_STATE 0, 1), (R.PART_COUNTERS_CTR_COUNT 0, 1), (R.PART_WINDOWS_WIN_COUNT 0, 1),
      (R.TILE_CTL_ENABLE 0, 1), (R.PARSER_CTL_REMOTE_EXEC_EN, 0)].foldl (fun t w => rset t w.1 w.2) []
    xlat := { Xlat.reset with windows := [(0, narrowWindow)] }
    work := { Work.reset with queues := [(0, fillQueue)], clauses := parkedFills, nextClause := 8192 } }

theorem jammed_clauses : jammed.work.clauses = parkedFills := by rw [jammed]

theorem jammed_nextClause : jammed.work.nextClause = 8192 := rfl

theorem jammed_pendingTriggers : jammed.pendingTriggers < 16384 := by
  have hle : parkedFills.countP (fun c => c.2.untriggered) ≤ parkedFills.length := List.countP_le_length
  rw [State.pendingTriggers, jammed_clauses]
  rw [parkedFills_length] at hle
  omega

/-- The translation of `fillDesc` on the jammed chip. -/
def jammedFill : Xres := jammed.xlRanges (jammed.get (R.QPAGE_STATUS_PARTITION 0)) (jammed.clauseRanges fillDesc [] 0)

/-- The clause of `fillDesc` on the jammed chip. -/
def jammedClause : Clause := jammed.newClause 0 fillDesc 0 jammedFill

def jammedNext : State := jammed.withClause 0 fillDesc jammedClause

theorem jammedNext_clauseAt : jammedNext.clauseAt jammed.work.nextClause = some jammedClause := State.clauseAt_withClause ..

theorem jammedNext_parkedCount : 8192 ≤ jammedNext.parkedCount := by
  have hclauses : jammedNext.work.clauses = parkedFills ++ [(8192, jammedClause)] := by
    rw [jammedNext, State.clauses_withClause, jammed_clauses, jammed_nextClause]
    exact tset_of_forall_lt (fun e he => (parkedFills_forall e he).1) _
  have hparked : parkedFills.countP (fun c => c.2.stage == .parked) = parkedFills.length :=
    List.countP_eq_length.2 fun e he => by rw [(parkedFills_forall e he).2]; rfl
  rw [State.parkedCount, hclauses, List.countP_append, hparked, parkedFills_length]
  exact Nat.le_add_right ..

/-- The state in which the clause of `fillDesc` has ended with ERR_RESOURCE. -/
def jammedEnd : State :=
  (jammedNext.unlisted jammed.work.nextClause).setClause jammed.work.nextClause (jammedClause.ended (ending .resource noSeg 0))

theorem jammedEnd_clauseAt : jammedEnd.clauseAt jammed.work.nextClause = some (jammedClause.ended (ending .resource noSeg 0)) :=
  State.clauseAt_setClause_self ..

theorem jammed_accept : jammed.accept 0 = jammedEnd := by
  have haccept : jammed.accept 0 = jammed.acceptNow 0 fillDesc [] 0 :=
    State.accept_of_plain (r := fillQueue) rfl fillQueue_holds (by decide +kernel) (by decide +kernel) (by decide +kernel)
      (by decide +kernel) jammed_pendingTriggers
  have hpark : jammed.acceptNow 0 fillDesc [] 0 = jammedNext.park jammed.work.nextClause :=
    State.acceptNow_of_uncovered (x := jammedFill) (by decide +kernel) (by decide +kernel) (by decide +kernel) rfl
      (by decide +kernel) (by decide +kernel) (by decide +kernel)
  rw [haccept, hpark, State.park_of_full jammedNext_clauseAt jammedNext_parkedCount]
  exact State.endClause_of_unplaced jammedNext_clauseAt rfl Stage.noConfusion rfl _

/-- Refutes O31: the second clause fails where the chip has 8,192 parked clauses and a window has stripe units below 4 KiB. There
translation stops before the end of the range with neither an error nor a page that it lacks (`State.xlPieces` is bounded by the
4 KiB pieces of a range), so that the first segment is not covered, and the new clause has to park: it ends with ERR_RESOURCE, and
no longer waits for its trigger. WIN_INSTALL refuses such a window, so no chip comes to such a state from reset; the statement speaks
of every state. -/
theorem not_descriptorsBecomeClauses : ¬ Obligations.DescriptorsBecomeClauses := by
  unfold Obligations.DescriptorsBecomeClauses
  rintro ⟨-, hbecomes, -⟩
  obtain ⟨t, hexec, hclause, -⟩ := hbecomes jammed 0 0 fillQueue fillDesc (by decide +kernel) rfl rfl rfl ⟨rfl, rfl, rfl, rfl⟩
    (by decide +kernel) (by decide +kernel) (by decide +kernel) (by decide +kernel) (by decide +kernel) (by decide +kernel)
    jammed_pendingTriggers (by decide +kernel) (by decide +kernel) (by decide +kernel) (by decide +kernel) (by decide +kernel)
  have hends : exec (.clauseAccept 0) jammed = .next jammedEnd :=
    (worked_live (by decide +kernel) _).trans ((congrArg settled jammed_accept).trans (settled_of_finished_nil rfl))
  obtain rfl := Host.Outcome.next.inj (hexec.symm.trans hends)
  rw [jammedEnd_clauseAt, Option.map_some, Option.some.injEq] at hclause
  have hreleased : false = (descTrigEn fillDesc && decide (jammed.counter (nameIndex (descTrigger fillDesc)) < descThreshold fillDesc)) :=
    congrArg (fun w : Nat × Nat × Nat × List Byte × Bool => w.2.2.2.2) hclause
  have hwaits : (descTrigEn fillDesc && decide (jammed.counter (nameIndex (descTrigger fillDesc)) < descThreshold fillDesc)) = true := by
    decide +kernel
  exact Bool.false_ne_true (hreleased.trans hwaits)

end Sys2Proof.Machine
end

section
namespace Sys2Proof

/-! ### Little-endian numbers of joined byte strings (R4) -/

theorem leNat_append (xs ys : List Byte) : leNat (xs ++ ys) = leNat xs + 256 ^ xs.length * leNat ys := by
  induction xs with
  | nil => simp [leNat]
  | cons b xs ih =>
    simp only [List.cons_append, List.length_cons, leNat, ih, Nat.pow_succ']
    ring

theorem leNat_replicate_zero (n : Nat) : leNat (List.replicate n 0#8) = 0 := by
  induction n with
  | zero => rfl
  | succ n ih => simp [List.replicate_succ, leNat, ih]

/-- Bytes of 0 at the end add nothing. -/
theorem leNat_append_zeros (bs : List Byte) (n : Nat) : leNat (bs ++ List.replicate n 0#8) = leNat bs := by
  rw [leNat_append, leNat_replicate_zero, Nat.mul_zero, Nat.add_zero]

end Sys2Proof

namespace Sys2Proof.Machine

theorem memRead_add (m : Tbl Byte) (a j k : Nat) : memRead m a (j + k) = memRead m a j ++ memRead m (a + j) k := by
  simp only [memRead_eq, List.range_add, List.map_append, List.map_map, Function.comp_def, Nat.add_assoc]

/-- A 32-bit element of bytes read from memory is the number of its four bytes. -/
theorem elem_memRead {n i : Nat} (hi : i < n) (m : Tbl Byte) (a : Nat) :
    elem 32 (leNat (memRead m a (4 * n))) i = leNat (memRead m (a + 4 * i) 4) := by
  have hsplit : 4 * n = 4 * i + (4 + (4 * n - 4 * i - 4)) := by omega
  have hlow := leNat_lt (memRead m a (4 * i))
  have hmid := leNat_lt (memRead m (a + 4 * i) 4)
  have hpow : 2 ^ (32 * i) = 256 ^ (4 * i) := by
    rw [show 256 = 2 ^ 8 from rfl, ← Nat.pow_mul]
    congr 1
    omega
  rw [memRead_length] at hlow hmid
  rw [elem, hsplit, memRead_add, memRead_add, leNat_append, leNat_append, memRead_length, memRead_length, hpow,
    Nat.add_mul_div_left _ _ (by positivity), Nat.div_eq_of_lt hlow, Nat.zero_add]
  omega

theorem elems_memRead (n : Nat) (m : Tbl Byte) (a : Nat) :
    elems 32 n (memRead m a (4 * n)) = (List.range n).map (fun i => leNat (memRead m (a + 4 * i) 4)) :=
  List.map_congr_left (fun _ hi => elem_memRead (List.mem_range.1 hi) m a)

/-! ### The context of an instruction, and what follows the instruction (R116, R145) -/

section
variable {s : State} {c : At} {x y : Ctx}

theorem State.running_of_ready (h : s.ready c = some x) : s.running c = some x ∧ x.reserved = false := by
  unfold State.ready at h
  split at h
  next y hy =>
    split at h
    next => cases h
    next hword =>
      obtain rfl := Option.some.inj h
      exact ⟨hy, Bool.eq_false_iff.2 hword⟩
  next => cases h

/-- A context that may run an instruction stands and runs. -/
theorem State.ctx_of_ready (h : s.ready c = some x) : s.ctx c = some x ∧ x.mode = .running := by
  obtain ⟨hruns, -⟩ := State.running_of_ready h
  unfold State.running at hruns
  split at hruns
  next =>
    split at hruns
    next y hy =>
      split at hruns
      next hmode =>
        obtain rfl := Option.some.inj hruns
        exact ⟨hy, hmode⟩
      next => cases hruns
    next => cases hruns
  next => cases hruns

theorem State.ctx_setCtx_self (s : State) (c : At) (x : Ctx) : (s.setCtx c x).ctx c = some x := by
  rw [State.ctx, State.setCtx, State.tile_setTile_self]
  exact tget_tset_self ..

theorem State.tile_setCtx_ne (s : State) {c : At} {l : Nat} (h : l ≠ c.tile) (x : Ctx) : (s.setCtx c x).tile l = s.tile l :=
  State.tile_setTile_ne s h _

theorem State.inCtx_of_ready (h : s.ready c = some x) (legal : Bool) (f : Ctx → State → State) :
    s.inCtx c legal f = if legal then f x s else s.exception c x 1 0 .format := by
  obtain ⟨hruns, hword⟩ := State.running_of_ready h
  rw [State.inCtx, hruns]
  dsimp only
  rw [hword, Bool.not_false, Bool.and_true]
  rfl

theorem State.settle_of_finished_nil (h : s.home.finished = []) : s.settle = s :=
  State.settleLoop_of_finished_nil h _

/-- A context that is not stalled, of a clause that is not cancelled, goes on. -/
theorem State.afterTile_of_ctx (hx : s.ctx c = some x) (hmode : x.mode ≠ .parked)
    (hlive : (s.clauseAt x.clause).map Clause.cancelled ≠ some true) : s.afterTile c = s := by
  unfold State.afterTile
  rw [hx]
  dsimp only
  split
  next => rfl
  next k hk =>
    have hcancelled : k.cancelled ≠ true := by
      intro h
      rw [hk, Option.map_some, h] at hlive
      exact hlive rfl
    rw [if_neg hcancelled, if_neg (fun h => hmode h.1)]

theorem State.not_cancelled {id : Nat} {k : Clause} (hk : s.clauseAt id = some k) (hlive : k.cancelled = false) :
    (s.clauseAt id).map Clause.cancelled ≠ some true := by
  rw [hk, Option.map_some, hlive]
  exact fun h => Bool.false_ne_true (Option.some.inj h)

theorem State.afterTile_of_ended (hx : s.ctx c = none) : s.afterTile c = s := by
  rw [State.afterTile, hx]

/-- The outcome of an instruction that completes no access, and after which its context goes on. -/
theorem tiled_of_ctx (hfin : s.home.finished = []) (hx : s.ctx c = some x) (hmode : x.mode ≠ .parked)
    (hlive : (s.clauseAt x.clause).map Clause.cancelled ≠ some true) : tiled c s = .next s := by
  rw [tiled, State.settle_of_finished_nil hfin, State.afterTile_of_ctx hx hmode hlive]

/-! ### Exceptions (R162) -/

theorem State.ctx_restTile (s : State) (c : At) (l : Nat) (h : s.ctx c = none) : (s.restTile l).ctx c = none := by
  have hkept : ((s.restTile l).tile c.tile).ctxs = (s.tile c.tile).ctxs := by
    unfold State.restTile
    dsimp only
    split
    · by_cases hl : c.tile = l
      · subst hl
        exact (congrArg Tile.ctxs (State.tile_setTile_self s c.tile _)).trans rfl
      · exact congrArg Tile.ctxs (State.tile_setTile_ne s hl _)
    · rfl
  rw [State.ctx, hkept]
  exact h

theorem State.ctx_exception (s : State) (c : At) (x : Ctx) (code a : Nat) (e : Err) :
    (s.exception c x code a e).ctx c = none := by
  refine State.ctx_restTile _ c c.tile ?_
  rw [State.ctx, State.tile_setTile_self]
  exact tget_terase_self ..

theorem State.finished_exception (s : State) (c : At) (x : Ctx) (code a : Nat) (e : Err) :
    (s.exception c x code a e).home.finished = s.home.finished := by
  unfold State.exception State.endCtx State.restTile
  dsimp only
  split
  · rfl
  · rfl

theorem tiled_exception (hfin : s.home.finished = []) (code a : Nat) (e : Err) :
    tiled c (s.exception c x code a e) = .next (s.exception c x code a e) := by
  rw [tiled, State.settle_of_finished_nil ((s.finished_exception c x code a e).trans hfin),
    State.afterTile_of_ended (s.ctx_exception c x code a e)]

end
end Sys2Proof.Machine
end

section
namespace Sys2Proof.Machine

/-! ### Stream entries freed, and the context as an instruction leaves it (R121, R123) -/

theorem State.setTile_setTile (s : State) (l : Nat) (t u : Tile) : (s.setTile l t).setTile l u = s.setTile l u := by
  simp only [State.setTile, tset_tset]

/-- The state in which a context stands as given, and its tile has the stream entries that pass a test alone. -/
def State.keeping (s : State) (c : At) (keep : Nat × StreamEntry → Bool) (y : Ctx) : State :=
  s.setTile c.tile { s.tile c.tile with entries := (s.tile c.tile).entries.filter keep,
                                        ctxs := tset c.ctx y (s.tile c.tile).ctxs }

section
variable (s : State) (c : At) (keep : Nat × StreamEntry → Bool) (y : Ctx)

/-- Freeing entries and then setting the context. -/
theorem State.setCtx_setTile_filter :
    (s.setTile c.tile { s.tile c.tile with entries := (s.tile c.tile).entries.filter keep }).setCtx c y = s.keeping c keep y := by
  rw [State.setCtx, State.tile_setTile_self, State.setTile_setTile, State.keeping]

/-- Setting the context and then freeing entries. -/
theorem State.setTile_filter_setCtx :
    (s.setCtx c y).setTile c.tile { (s.setCtx c y).tile c.tile with
      entries := ((s.setCtx c y).tile c.tile).entries.filter keep } = s.keeping c keep y := by
  rw [State.setCtx, State.tile_setTile_self, State.setTile_setTile, State.keeping]

theorem State.cancelPattern_setCtx (pat : Nat) :
    (s.cancelPattern c pat).setCtx c y = s.keeping c (fun e => !(e.2.ctx == c.ctx && e.2.pat == pat)) y :=
  s.setCtx_setTile_filter c _ y

@[simp] theorem State.ctx_keeping : (s.keeping c keep y).ctx c = some y := by
  rw [State.ctx, State.keeping, State.tile_setTile_self]
  exact tget_tset_self ..

@[simp] theorem State.entries_keeping :
    ((s.keeping c keep y).tile c.tile).entries = (s.tile c.tile).entries.filter keep := by
  rw [State.keeping, State.tile_setTile_self]

@[simp] theorem State.store_keeping : ((s.keeping c keep y).tile c.tile).store = (s.tile c.tile).store := by
  rw [State.keeping, State.tile_setTile_self]

theorem State.tile_keeping_ne {m : Nat} (h : m ≠ c.tile) : (s.keeping c keep y).tile m = s.tile m :=
  s.tile_setTile_ne h _

end

/-! ### Stream instructions (R146, R153) -/

section
variable {s : State} {c : At} {f : FmtT} {x : Ctx} {legal : Bool} {q : Pattern}

theorem State.inCtx_of_legal (h : s.ready c = some x) (hlegal : legal = true) (g : Ctx → State → State) :
    s.inCtx c legal g = g x s := by
  rw [State.inCtx_of_ready h, if_pos hlegal]

theorem State.streamOp_of_pattern (h : s.ready c = some x) (hres : f.reserved = 0) (hlegal : legal = true)
    (hq : tget f.strm.toNat x.patterns = some q) (g : Ctx → Pattern → State → State) : s.streamOp c f legal g = g x q s := by
  have hword : (legal && f.reserved == 0) = true := by rw [hlegal, hres]; rfl
  rw [State.streamOp, State.inCtx_of_legal h hword, hq]

theorem State.streamOp_of_none (h : s.ready c = some x) (hres : f.reserved = 0) (hlegal : legal = true)
    (hq : tget f.strm.toNat x.patterns = none) (g : Ctx → Pattern → State → State) :
    s.streamOp c f legal g = s.exception c x 7 0 .bounds := by
  have hword : (legal && f.reserved == 0) = true := by rw [hlegal, hres]; rfl
  rw [State.streamOp, State.inCtx_of_legal h hword, hq, eStream]

theorem State.streamOp_of_reserved (h : s.ready c = some x) (hres : f.reserved ≠ 0) (g : Ctx → Pattern → State → State) :
    s.streamOp c f legal g = s.exception c x 1 0 .format := by
  have hword : ¬ (legal && f.reserved == 0) = true := by
    rw [beq_false_of_ne hres, Bool.and_false]
    exact Bool.false_ne_true
  rw [State.streamOp, State.inCtx_of_ready h, if_neg hword]

end

/-! ### Operand addresses within reach (R142) -/

section
variable {s : State} {c : At} {x : Ctx} {a n p : Nat} {rs : List (Nat × Nat)}

theorem Ctx.reaches_store (h : oaHandle a = 16) : x.reaches a n = decide (oaOffset a + n ≤ x.tsSize) := by
  rw [Ctx.reaches, if_pos h]

theorem State.reaches_of_runs (h : s.reach x a n = .runs p rs) : x.reaches a n = true := by
  by_contra hreach
  rw [State.reach, if_pos (by simpa using hreach)] at h
  cases h

@[simp] theorem State.tsGuard_none (f : State → State) : s.tsGuard c x a .none f = f s := rfl

@[simp] theorem State.tsGuard_storeUncorrectable (f : State → State) :
    s.tsGuard c x a .storeUncorrectable f = (s.count (R.TILE_ECC_STORE_UE (s.phys c.tile))).exception c x 10 a .poison := rfl

end

/-! ### SCFG (R119, Table 6-4) -/

/-- The index array that SCFG reads at once: that of an indexed pattern, in the tile store. -/
def State.storedIndices (s : State) (c : At) (x : Ctx) (d : List Byte) : Option (List Nat) :=
  if patKind d = 3 ∧ oaHandle (patIndex d) = 16 ∧ x.reaches (patIndex d) (4 * patCount0 d) then
    some (elems 32 (patCount0 d) (s.tsRead c x (oaOffset (patIndex d)) (4 * patCount0 d)))
  else none

/-- The context with a fresh pattern of a descriptor, past SCFG. -/
def State.configured (s : State) (c : At) (x : Ctx) (pat : Nat) (d : List Byte) : Ctx :=
  { x with patterns := tset pat { desc := d, indices := s.storedIndices c x d, asked := none, pos := 0, issued := 0 } x.patterns,
           pc := x.pc + 1 }

/-- What SCFG makes of a descriptor. -/
def State.configure (s : State) (c : At) (x : Ctx) (pat : Nat) (d : List Byte) : State :=
  if patOk d then s.keeping c (fun e => !(e.2.ctx == c.ctx && e.2.pat == pat)) (s.configured c x pat d)
  else s.exception c x 1 0 .format

section
variable {s : State} {c : At} {x : Ctx} {d : List Byte}

theorem State.storedIndices_of_affine (h : patKind d ≠ 3) : s.storedIndices c x d = none :=
  if_neg (fun hix => h hix.1)

theorem State.storedIndices_of_memory (h : oaHandle (patIndex d) ≠ 16) : s.storedIndices c x d = none :=
  if_neg (fun hix => h hix.2.1)

theorem State.storedIndices_of_store (hkind : patKind d = 3) (hstore : oaHandle (patIndex d) = 16)
    (hin : oaOffset (patIndex d) + 4 * patCount0 d ≤ x.tsSize) :
    s.storedIndices c x d = some ((List.range (patCount0 d)).map (fun i =>
      leNat (memRead (s.tile c.tile).store (x.tsBase + oaOffset (patIndex d) + 4 * i) 4))) := by
  rw [State.storedIndices, if_pos ⟨hkind, hstore, by rw [Ctx.reaches_store hstore]; exact decide_eq_true hin⟩, State.tsRead,
    elems_memRead]

end

section
variable {s : State} {c : At} {f : FmtT} {x : Ctx} {a : Nat} {d : List Byte} (h : s.ready c = some x) (hres : f.reserved = 0)
  (ha : a = (x.sreg f.reg).toNat)
include h hres ha

theorem exec_scfg_misaligned (hmis : a % 64 ≠ 0) (ecc : Ecc) : exec (.scfg c f ecc) s = .next (s.exception c x 3 a .align) := by
  subst ha
  refine congrArg Host.Outcome.next ((State.inCtx_of_legal h (by rw [hres]; rfl) _).trans ?_)
  exact if_pos hmis

theorem exec_scfg_unreached (halign : a % 64 = 0) (hout : oaHandle a ≠ 16 ∨ x.tsSize < oaOffset a + 64) (ecc : Ecc) :
    exec (.scfg c f ecc) s = .next (s.exception c x 2 a .bounds) := by
  have hunreached : oaHandle a ≠ 16 ∨ (!x.reaches a 64) = true := by
    by_cases hstore : oaHandle a = 16
    · refine .inr ?_
      rw [Ctx.reaches_store hstore]
      simpa [hstore] using hout
    · exact .inl hstore
  subst ha
  refine congrArg Host.Outcome.next ((State.inCtx_of_legal h (by rw [hres]; rfl) _).trans ?_)
  exact (if_neg (not_not.2 halign)).trans (if_pos hunreached)

theorem exec_scfg_reached (halign : a % 64 = 0) (hstore : oaHandle a = 16) (hin : oaOffset a + 64 ≤ x.tsSize) (ecc : Ecc) :
    exec (.scfg c f ecc) s =
      .next (s.tsGuard c x a ecc (fun s => s.configure c x f.strm.toNat (s.tsRead c x (oaOffset a) 64))) := by
  have hreached : ¬ (oaHandle a ≠ 16 ∨ (!x.reaches a 64) = true) := by
    rw [Ctx.reaches_store hstore]
    simp [hstore, hin]
  subst ha
  refine congrArg Host.Outcome.next ((State.inCtx_of_legal h (by rw [hres]; rfl) _).trans ?_)
  refine (if_neg (not_not.2 halign)).trans ((if_neg hreached).trans (congrArg _ (funext fun s => ?_)))
  dsimp only
  rw [State.configure, State.cancelPattern_setCtx]
  cases patOk (s.tsRead c x (oaOffset (x.sreg f.reg).toNat) 64)
  · rfl
  · rfl

/-- SCFG with a good descriptor configures the pattern and frees its entries. -/
theorem Completes.scfg {ix : Option (List Nat)} (halign : a % 64 = 0) (hstore : oaHandle a = 16) (hin : oaOffset a + 64 ≤ x.tsSize)
    (hd : d = memRead (s.tile c.tile).store (x.tsBase + oaOffset a) 64) (hok : patOk d = true)
    (hix : s.storedIndices c x d = ix) :
    Completes (.scfg c f .none) s (fun t =>
      t.ctx c = some { x with patterns := tset f.strm.toNat { desc := d, indices := ix, asked := none, pos := 0, issued := 0 } x.patterns, pc := x.pc + 1 } ∧
      (∀ e ∈ (t.tile c.tile).entries, e ∈ (s.tile c.tile).entries ∧ ¬ (e.2.ctx = c.ctx ∧ e.2.pat = f.strm.toNat)) ∧
      (t.tile c.tile).store = (s.tile c.tile).store ∧ (∀ m : Nat, m ≠ c.tile → t.tile m = s.tile m) ∧
      t = { s with home := { s.home with tiles := t.home.tiles } }) := by
  subst hix
  have hconfigure : s.configure c x f.strm.toNat d =
      s.keeping c (fun e => !(e.2.ctx == c.ctx && e.2.pat == f.strm.toNat)) (s.configured c x f.strm.toNat d) := if_pos hok
  have hexec := exec_scfg_reached h hres ha halign hstore hin .none
  rw [State.tsGuard_none, State.tsRead, ← hd, hconfigure] at hexec
  refine .of_next hexec
    ⟨State.ctx_keeping .., fun e he => ?_, State.store_keeping .., fun m hm => State.tile_keeping_ne _ _ _ _ hm, rfl⟩
  rw [State.entries_keeping, List.mem_filter] at he
  simpa [imp_iff_not_or] using he

end
end Sys2Proof.Machine
end

section
namespace Sys2Proof.Machine

/-! ### SSKIP, SCAN and SREM (R153) -/

section
variable {s : State} {c : At} {f : FmtT} {x : Ctx} {q : Pattern} (h : s.ready c = some x) (hres : f.reserved = 0)
  (hq : tget f.strm.toNat x.patterns = some q)
include h hres hq

theorem Completes.scan (hreg : f.reg = 0) :
    Completes (.scan c f) s (fun t =>
      t.ctx c = some { x with patterns := terase f.strm.toNat x.patterns, pc := x.pc + 1 } ∧
      (∀ e ∈ (t.tile c.tile).entries, e ∈ (s.tile c.tile).entries ∧ ¬ (e.2.ctx = c.ctx ∧ e.2.pat = f.strm.toNat)) ∧
      (t.tile c.tile).store = (s.tile c.tile).store ∧ (∀ m : Nat, m ≠ c.tile → t.tile m = s.tile m) ∧
      t = { s with home := { s.home with tiles := t.home.tiles } }) := by
  have hexec : exec (.scan c f) s = .next (s.keeping c (fun e => !(e.2.ctx == c.ctx && e.2.pat == f.strm.toNat))
      { x with patterns := terase f.strm.toNat x.patterns, pc := x.pc + 1 }) := by
    refine congrArg Host.Outcome.next ((State.streamOp_of_pattern h hres (by rw [hreg]; rfl) hq _).trans ?_)
    exact s.cancelPattern_setCtx c _ _
  refine .of_next hexec
    ⟨State.ctx_keeping .., fun e he => ?_, State.store_keeping .., fun m hm => State.tile_keeping_ne _ _ _ _ hm, rfl⟩
  rw [State.entries_keeping, List.mem_filter] at he
  simpa [imp_iff_not_or] using he

theorem exec_srem : exec (.srem c f) s = .next (s.setCtx c { x.setS f.reg (BitVec.ofNat 64 q.left) with pc := x.pc + 1 }) := by
  refine congrArg Host.Outcome.next ((State.streamOp_of_pattern h hres rfl hq _).trans ?_)
  rw [Ctx.advance, Ctx.setS]
  split
  · rfl
  · rfl

variable (hleft : q.left ≠ 0) (hidx : q.needsIndices = false)
include hleft hidx

theorem State.runSskip_unreached {m : Nat} (hm : m = min (x.sreg f.reg).toNat q.left) {a k : Nat}
    (hfind : (q.pieces (m + 1) q.pos m).find? (fun o => !x.reaches o.1 o.2) = some (a, k)) :
    runSskip c f s = s.exception c x 2 a .bounds := by
  subst hm
  refine (State.streamOp_of_pattern h hres rfl hq _).trans ?_
  rw [if_neg hleft, if_neg (Bool.eq_false_iff.1 hidx)]
  dsimp only
  rw [hfind, eAddress]

theorem State.runSskip_reached {m : Nat} (hm : m = min (x.sreg f.reg).toNat q.left)
    (hfind : (q.pieces (m + 1) q.pos m).find? (fun o => !x.reaches o.1 o.2) = none) :
    runSskip c f s = s.keeping c (fun e => !(e.2.ctx == c.ctx && e.2.pat == f.strm.toNat && decide (e.2.upto ≤ q.pos + m)))
      { x with patterns := tset f.strm.toNat { q with pos := q.pos + m, issued := max q.issued (q.pos + m) } x.patterns,
               pc := x.pc + 1 } := by
  subst hm
  refine (State.streamOp_of_pattern h hres rfl hq _).trans ?_
  rw [if_neg hleft, if_neg (Bool.eq_false_iff.1 hidx)]
  dsimp only
  rw [hfind]
  exact s.setCtx_setTile_filter c _ _

theorem Completes.sskip (hfin : s.home.finished = []) (hlive : (s.clauseAt x.clause).map Clause.cancelled ≠ some true)
    {m : Nat} (hm : m = min (x.sreg f.reg).toNat q.left)
    (hreach : (q.pieces (m + 1) q.pos m).all (fun o => x.reaches o.1 o.2) = true) :
    Completes (.sskip c f) s (fun t =>
      t.ctx c = some { x with patterns := tset f.strm.toNat { q with pos := q.pos + m, issued := max q.issued (q.pos + m) } x.patterns, pc := x.pc + 1 } ∧
      (∀ e ∈ (t.tile c.tile).entries, e ∈ (s.tile c.tile).entries ∧
        (e.2.ctx = c.ctx ∧ e.2.pat = f.strm.toNat → q.pos + m < e.2.upto)) ∧
      (t.tile c.tile).store = (s.tile c.tile).store ∧ (∀ m : Nat, m ≠ c.tile → t.tile m = s.tile m) ∧
      t = { s with home := { s.home with tiles := t.home.tiles } }) := by
  have hfind : (q.pieces (m + 1) q.pos m).find? (fun o => !x.reaches o.1 o.2) = none := by
    refine List.find?_eq_none.2 (fun o ho => ?_)
    simp [List.all_eq_true.1 hreach o ho]
  obtain ⟨-, hmode⟩ := State.ctx_of_ready h
  have hrun := State.runSskip_reached h hres hq hleft hidx hm hfind
  have hexec : exec (.sskip c f) s = _ := (congrArg (tiled c) hrun).trans
    (tiled_of_ctx hfin (State.ctx_keeping ..) (fun hparked => CtxMode.noConfusion (hmode.symm.trans hparked)) hlive)
  refine .of_next hexec
    ⟨State.ctx_keeping .., fun e he => ?_, State.store_keeping .., fun m hm => State.tile_keeping_ne _ _ _ _ hm, rfl⟩
  rw [State.entries_keeping, List.mem_filter] at he
  obtain ⟨hmem, hkept⟩ := he
  refine ⟨hmem, fun ⟨hctx, hpat⟩ => Nat.lt_of_not_le fun hserved => ?_⟩
  simp [hctx, hpat, hserved] at hkept

end
end Sys2Proof.Machine
end

section
namespace Sys2Proof.Machine

/-! ### SPOP and SPOPS: which way a commit goes (R152 to R154) -/

section
variable {s : State} {c : At} {f : FmtT} {x : Ctx} {q : Pattern} {n m a : Nat} {vector : Bool} {ecc : Ecc}

theorem State.pop_of_empty (hleft : q.left = 0) : s.pop c f x q n vector ecc = s.exception c x 7 0 .bounds :=
  if_pos hleft

/-- A pattern whose next bytes, at most n, are one piece. -/
structure Pattern.NextPiece (q : Pattern) (n m a : Nat) : Prop where
  left : q.left ≠ 0
  indices : q.needsIndices = false
  length : m = min n q.left
  pieces : q.pieces (n + 1) q.pos m = [(a, m)]

theorem State.pop_unreached (h : q.NextPiece n m a) (hreach : x.reaches a m = false) :
    s.pop c f x q n vector ecc = s.exception c x 2 a .bounds := by
  rw [State.pop, if_neg h.left, if_neg (Bool.eq_false_iff.1 h.indices)]
  dsimp only
  rw [← h.length, h.pieces, List.find?_cons_of_pos (by simp [hreach])]
  rfl

/-- The access that a commit of m of n bytes at an operand address is. -/
def popCont (f : FmtT) (vector : Bool) (n m a : Nat) : TileCont := .pop f.strm.toNat f.reg vector (n - m) a

/-- Bytes in the tile store are committed at once. -/
theorem State.pop_of_store (h : q.NextPiece n m a) (hstore : oaHandle a = 16) (hreach : x.reaches a m = true) :
    s.pop c f x q n vector ecc = s.tsGuard c x a ecc (fun s =>
      s.commitPieces c x f.strm.toNat q [(a, m)] (popCont f vector n m a)) := by
  rw [State.pop, if_neg h.left, if_neg (Bool.eq_false_iff.1 h.indices)]
  dsimp only
  rw [← h.length, h.pieces, List.find?_cons_of_neg (by simp [hreach]), List.find?_nil]
  simp [hstore, State.pieceStored, popCont]

/-- Bytes in memory wait for the context's own stores to them, and are committed otherwise. -/
theorem State.pop_of_memory {p : Nat} {rs : List (Nat × Nat)} (h : q.NextPiece n m a) (hmem : oaHandle a ≠ 16)
    (hreach : s.reach x a m = .runs p rs) :
    s.pop c f x q n vector .none = if s.storesTo c x.clause rs then s.setCtx c { x with mode := .stores }
      else s.commitPieces c x f.strm.toNat q [(a, m)] (popCont f vector n m a) := by
  rw [State.pop, if_neg h.left, if_neg (Bool.eq_false_iff.1 h.indices)]
  dsimp only
  rw [← h.length, h.pieces, List.find?_cons_of_neg (by simp [State.reaches_of_runs hreach]), List.find?_nil]
  simp [hmem, State.pieceStored, hreach, popCont, State.tileEcc]

end
end Sys2Proof.Machine
end

section
namespace Sys2Proof.Machine

/-! ### A completed commit (R153) -/

/-- The context with committed bytes in its register. -/
def Ctx.popped (x : Ctx) (reg : BitVec 6) (vector : Bool) (bs : List Byte) : Ctx :=
  if vector then x.setV (reg.truncate 5) (BitVec.ofNat 2048 (leNat bs)) else x.setS reg (BitVec.ofNat 64 (leNat bs))

/-- The context past a commit of bytes of a pattern. -/
def Ctx.committed (x : Ctx) (f : FmtT) (vector : Bool) (q : Pattern) (bs : List Byte) : Ctx :=
  { x.popped f.reg vector bs with
    patterns := tset f.strm.toNat { q with pos := q.pos + bs.length } x.patterns, mode := .running, ordering := false, pc := x.pc + 1 }

section
variable {s : State} {c : At} {f : FmtT} {x : Ctx} {q : Pattern} {n m a : Nat} {vector : Bool} {data : List Byte}

theorem Ctx.popped_append_zeros (x : Ctx) (reg : BitVec 6) (vector : Bool) (bs : List Byte) (k : Nat) :
    x.popped reg vector (bs ++ List.replicate k 0#8) = x.popped reg vector bs := by
  rw [Ctx.popped, leNat_append_zeros, Ctx.popped]

/-- A register write does not look at the mode of the context, nor at what it waits for. -/
theorem Ctx.popped_waiting (x : Ctx) (reg : BitVec 6) (vector : Bool) (bs : List Byte) :
    (x.waiting false).popped reg vector bs = (x.popped reg vector bs).waiting false := by
  unfold Ctx.popped
  split
  · rfl
  · unfold Ctx.setS
    split
    · rfl
    · rfl

theorem Ctx.patterns_popped (x : Ctx) (reg : BitVec 6) (vector : Bool) (bs : List Byte) :
    (x.popped reg vector bs).patterns = x.patterns := by
  unfold Ctx.popped Ctx.setS
  split
  · rfl
  · split
    · rfl
    · rfl

theorem Ctx.pc_popped (x : Ctx) (reg : BitVec 6) (vector : Bool) (bs : List Byte) : (x.popped reg vector bs).pc = x.pc := by
  unfold Ctx.popped Ctx.setS
  split
  · rfl
  · split
    · rfl
    · rfl

theorem Ctx.clause_popped (x : Ctx) (reg : BitVec 6) (vector : Bool) (bs : List Byte) :
    (x.popped reg vector bs).clause = x.clause := by
  unfold Ctx.popped Ctx.setS
  split
  · rfl
  · split
    · rfl
    · rfl

theorem State.tileDone_pop (hx : s.ctx c = some (x.waiting false)) (hq : tget f.strm.toNat x.patterns = some q) :
    s.tileDone c x.clause (popCont f vector n m a) .none data =
      s.keeping c (fun e => !(e.2.ctx == c.ctx && e.2.pat == f.strm.toNat && decide (e.2.upto ≤ q.pos + data.length)))
        (x.committed f vector q data) := by
  rw [popCont, State.tileDone, State.withCtx, hx]
  refine (if_pos rfl).trans ((if_neg (not_not.2 rfl)).trans ?_)
  extract_lets bs y pos u
  have hy : y = (x.popped f.reg vector data).waiting false :=
    (x.popped_waiting f.reg vector bs).trans (congrArg (Ctx.waiting · false) (x.popped_append_zeros f.reg vector data (n - m)))
  have hpos : pos = q.pos + data.length := by
    unfold pos
    rw [hy, Ctx.waiting, Ctx.patterns_popped, hq]
    rfl
  have hu : u = s.setCtx c (x.committed f vector q data) := by
    refine congrArg (s.setCtx c) ?_
    rw [hpos, hy]
    simp only [Ctx.resume, Ctx.advance, Ctx.waiting, Ctx.committed, Ctx.patterns_popped, Ctx.pc_popped, tmod_of_tget hq]
  rw [← State.setTile_filter_setCtx, ← hu, ← hpos]

end

/-! ### A piece that is the whole of its gather, and settling what it leaves -/

/-- The state without a gather. -/
def State.closeGather (s : State) (g : Nat) : State :=
  { s with home := { s.home with gathers := terase g s.home.gathers } }

/-- The last piece of an access completes it. -/
theorem State.partDone_only {s : State} {g : Nat} {k : Cont} {data : List Byte}
    (hg : tget g s.home.gathers = some { left := 1, parts := [], err := .none, cont := k }) :
    s.partDone g 0 .none data = (s.closeGather g).finish k .none data := by
  rw [State.partDone, hg]
  have hjoin : (tset 0 data ([] : Tbl (List Byte))).flatMap Prod.snd = data := by
    simp [tset]
  refine (if_pos rfl).trans ?_
  dsimp only
  rw [hjoin]
  rfl

theorem State.drain_of_finished_nil {s : State} (h : s.home.finished = []) (n : Nat) : State.drain n s = s := by
  cases n with
  | zero => rfl
  | succ n => rw [State.drain, h]

theorem State.drain_finish {s : State} (h : s.home.finished = []) (n : Nat) (k : Cont) (e : Err) (data : List Byte) :
    State.drain (n + 1) (s.finish k e data) = State.drain n (s.continue k e data) := by
  have hone : (s.finish k e data).home.finished = [(k, e, data)] := congrArg (· ++ [(k, e, data)]) h
  rw [State.drain, hone]
  dsimp only
  rw [State.finish_cleared h]

/-- The one piece of an access completes, and with it the access, on a chip that is calm after it. -/
theorem State.settle_part_of_calm {s t : State} {g : Nat} {k : Cont} {data : List Byte} (hfin : s.home.finished = [])
    (hg : tget g s.home.gathers = some { left := 1, parts := [], err := .none, cont := k })
    (ht : (s.closeGather g).continue k .none data = t) (hcalm : Calm t) : (s.finish (.part g 0) .none data).settle = t := by
  obtain ⟨n, hn⟩ : ∃ n, 2 ^ 20 = n + 1 + 1 := ⟨2 ^ 20 - 2, by norm_num⟩
  have hdrain : State.drain (2 ^ 20) (s.finish (.part g 0) .none data) = t := by
    rw [hn, State.drain_finish hfin]
    refine (congrArg (State.drain (n + 1)) (State.partDone_only hg)).trans ?_
    rw [State.drain_finish (s := s.closeGather g) hfin, ht, State.drain_of_finished_nil hcalm.1]
  have hpending : (s.finish (.part g 0) .none data).home.finished ≠ [] := by
    rw [State.finish]
    exact List.append_ne_nil_of_right_ne_nil _ (List.cons_ne_nil _ _)
  rw [State.settle]
  conv_lhs => rw [hn]
  rw [State.settleLoop, if_neg hpending, hdrain, State.tidy_of_calm hcalm, State.settleLoop_of_finished_nil hcalm.1]

end Sys2Proof.Machine
end

section
namespace Sys2Proof.Machine

/-! ### A commit of one piece (R153) -/

/-- The state in which a context waits for a commit of one piece. -/
def State.committing (s : State) (c : At) (x : Ctx) (k : TileCont) : State :=
  (s.setCtx c (x.waiting false)).openGather 1 (.tile c x.clause k)

section
variable (s : State) (c : At) (x : Ctx) (k : TileCont)

theorem State.tile_setCtx_self : (s.setCtx c x).tile c.tile = { s.tile c.tile with ctxs := tset c.ctx x (s.tile c.tile).ctxs } :=
  s.tile_setTile_self _ _

theorem State.tile_committing_self : (s.committing c x k).tile c.tile =
    { s.tile c.tile with ctxs := tset c.ctx (x.waiting false) (s.tile c.tile).ctxs } :=
  s.tile_setCtx_self c _

theorem State.tile_committing_ne {l : Nat} (h : l ≠ c.tile) : (s.committing c x k).tile l = s.tile l :=
  s.tile_setCtx_ne h _

theorem State.ctx_committing : (s.committing c x k).ctx c = some (x.waiting false) :=
  s.ctx_setCtx_self c _

theorem State.gather_committing : tget s.home.nextGather (s.committing c x k).home.gathers =
    some { left := 1, parts := [], err := .none, cont := .tile c x.clause k } :=
  tget_tset_self ..

end

section
variable {s : State} {c : At} {f : FmtT} {x : Ctx} {q : Pattern} {n m a : Nat} {vector : Bool} {k : Clause}

/-- A piece in the tile store is read at once. -/
theorem State.commitPieces_store (hstore : oaHandle a = 16) (pat : Nat) (k : TileCont) :
    s.commitPieces c x pat q [(a, m)] k = (s.committing c x k).finish (.part s.home.nextGather 0) .none
      (memRead (s.tile c.tile).store (x.tsBase + oaOffset a) m) := by
  refine (if_pos hstore).trans ?_
  have hread : (s.committing c x k).tsRead c x (oaOffset a) m = memRead (s.tile c.tile).store (x.tsBase + oaOffset a) m := by
    rw [State.tsRead, State.tile_committing_self]
  rw [← hread]
  rfl

/-- On a calm chip a commit of bytes in the tile store is done with its instruction. -/
theorem Completes.pop_store {i : Instr} (hexec : exec i s = tiled c (s.pop c f x q n vector .none))
    (hq : tget f.strm.toNat x.patterns = some q) (h : q.NextPiece n m a) (hstore : oaHandle a = 16)
    (hin : oaOffset a + m ≤ x.tsSize) (hcalm : Calm s) (hk : s.clauseAt x.clause = some k) (hlive : k.cancelled = false) :
    Completes i s (fun t =>
      t.ctx c = some (x.committed f vector q (memRead (s.tile c.tile).store (x.tsBase + oaOffset a) m)) ∧
      (t.tile c.tile).store = (s.tile c.tile).store ∧ (∀ e ∈ (t.tile c.tile).entries, e ∈ (s.tile c.tile).entries) ∧
      (∀ m : Nat, m ≠ c.tile → t.tile m = s.tile m) ∧ t.mem = s.mem ∧ t.xlat = s.xlat ∧ t.out = s.out) := by
  let data := memRead (s.tile c.tile).store (x.tsBase + oaOffset a) m
  let u := s.committing c x (popCont f vector n m a)
  let v := u.closeGather s.home.nextGather
  let t := v.keeping c (fun e => !(e.2.ctx == c.ctx && e.2.pat == f.strm.toNat && decide (e.2.upto ≤ q.pos + data.length)))
    (x.committed f vector q data)
  have hpop : s.pop c f x q n vector .none = u.finish (.part s.home.nextGather 0) .none data :=
    (State.pop_of_store h hstore (by rw [Ctx.reaches_store hstore]; exact decide_eq_true hin)).trans
      (State.commitPieces_store hstore _ _)
  have hcalmAfter : Calm t := hcalm.congr hcalm.1 rfl rfl rfl rfl (fun _ _ => rfl) (fun _ _ => rfl) rfl
  have hsettle : (s.pop c f x q n vector .none).settle = t := by
    rw [hpop]
    exact State.settle_part_of_calm hcalm.1 (s.gather_committing c x (popCont f vector n m a))
      (State.tileDone_pop (s := v) (s.ctx_committing c x (popCont f vector n m a)) hq) hcalmAfter
  have hafter : t.afterTile c = t := by
    refine State.afterTile_of_ctx (State.ctx_keeping ..) CtxMode.noConfusion ?_
    rw [show (x.committed f vector q data).clause = x.clause from x.clause_popped f.reg vector data]
    exact State.not_cancelled (s := t) hk hlive
  have htile : v.tile c.tile = u.tile c.tile := rfl
  refine .of_next (t := t) (hexec.trans (congrArg Host.Outcome.next ?_))
    ⟨State.ctx_keeping .., ?_, fun e he => ?_, fun l hl => ?_, rfl, rfl, rfl⟩
  · rw [hsettle, hafter]
  · rw [State.store_keeping, htile, State.tile_committing_self]
  · rw [State.entries_keeping, htile, State.tile_committing_self] at he
    exact List.mem_of_mem_filter he
  · exact (v.tile_keeping_ne c _ _ hl).trans (s.tile_committing_ne c x (popCont f vector n m a) hl)

end
end Sys2Proof.Machine
end

section
namespace Sys2Proof.Machine

/-! ### A tile's request to another chip (R124, R301) -/

theorem fpaChip_line (fpa : Nat) : fpaChip (fpa / 128 * 128) = fpaChip fpa := by
  simp only [fpaChip, bits]
  omega

/-- What keeps no request for a byte back keeps none for its line back. -/
theorem MaySend.line {s : State} {p fpa : Nat} (h : MaySend s p fpa) : MaySend s p (fpa / 128 * 128) := by
  unfold MaySend
  rw [fpaChip_line]
  exact h

/-- Bytes within a line are one piece. -/
theorem linePieces_line {fpa n : Nat} (hpos : 0 < n) (hline : fpa % 128 + n ≤ 128) : linePieces fpa n = [(fpa, n)] := by
  have hcount : (fpa + n - 1) / 128 + 1 - fpa / 128 = 1 := by omega
  have hlo : max fpa (fpa / 128 * 128) = fpa := by omega
  have hhi : min (fpa + n) (fpa / 128 * 128 + 128) - fpa = n := by omega
  rw [linePieces, linesOf, if_neg (Nat.ne_of_gt hpos), hcount]
  simp [List.range_succ, hlo, hhi]

section
variable {s : State} {c : At} {x y : Ctx} {p fpa n a : Nat}

/-- A line of another chip that the L1 lacks is asked for whole (R124). -/
theorem State.tileRead_remote (hlocal : s.localFpa fpa = none) (hcopy : tget (fpa / 128) (s.tile c.tile).copies = none)
    (k : Cont) (spec bulk : Bool) : s.tileRead c p fpa n k spec bulk =
      s.sendAct (fpa / 128 * 128) (.read 128) p
        (.lineFill (if bulk then none else some c.tile) (fpa / 128) (fpa % 128) n k) (tilePort c) false spec := by
  rw [State.tileRead, hlocal]
  dsimp only
  rw [hcopy]

theorem State.tileReads_line (hpos : 0 < n) (hline : fpa % 128 + n ≤ 128) (k : Cont) (spec bulk : Bool) :
    s.tileReads c p [(fpa, n)] k spec bulk = s.tileRead c p fpa n k spec bulk := by
  rw [State.tileReads, List.flatMap_cons, List.flatMap_nil, List.append_nil]
  dsimp only
  rw [linePieces_line hpos hline]

@[simp] theorem State.tile_touchSegment (s : State) (x : Ctx) (a n l : Nat) : (s.touchSegment x a n).tile l = s.tile l := rfl

theorem State.touchSegment_not_cancelled {k : Clause} (hk : s.clauseAt x.clause = some k) (hlive : k.cancelled = false) :
    ((s.touchSegment x a n).clauseAt x.clause).map Clause.cancelled ≠ some true := by
  rw [State.touchSegment, State.modClause_of_clauseAt hk]
  exact State.not_cancelled (State.clauseAt_setClause_self ..) hlive

theorem State.ctx_congr {t : State} (h : t.home = s.home) (c : At) : t.ctx c = s.ctx c := by
  rw [State.ctx, State.tile, h, State.ctx, State.tile]

/-- A step of a context that ends with a request on its way to another chip. -/
theorem Completes.tile_sent {i : Instr} {v : State} {act : HomeAct} {cont : Cont} {port : Nat} {ordered spec : Bool}
    (hexec : exec i s = tiled c (v.sendAct fpa act p cont port ordered spec)) (hfin : v.home.finished = [])
    (hsend : MaySend v p fpa) (hy : v.ctx c = some y) (hmode : y.mode ≠ .parked)
    (hlive : (v.clauseAt y.clause).map Clause.cancelled ≠ some true) :
    Completes i s (fun t => Sent v t fpa act.request.1 cont ∧ v.SwitchOnly t) := by
  obtain ⟨hsent, hsw⟩ := State.sendAct_sent hsend act cont port ordered spec
  refine .of_next (hexec.trans (tiled_of_ctx (x := y) ?_ ?_ hmode ?_)) ⟨hsent, hsw⟩
  · rw [hsw.home]
    exact hfin
  · rw [State.ctx_congr hsw.home]
    exact hy
  · rw [State.clauseAt, hsw.work]
    exact hlive

end

/-! ### A commit that reads a line of another chip (R119, R121, R153) -/

section
variable {s : State} {c : At} {f : FmtT} {x : Ctx} {q : Pattern} {n m a p fpa : Nat} {vector : Bool} {k : Clause}

/-- What the stream entries hold depends on the entries and on where the bytes lie. -/
theorem State.entryBytes_congr {t : State} (hentries : (t.tile c.tile).entries = (s.tile c.tile).entries)
    (hline : ∀ a, t.cacheLine a = s.cacheLine a) (pat fpa n : Nat) : t.entryBytes c pat fpa n = s.entryBytes c pat fpa n := by
  simp only [State.entryBytes, hentries, hline]

/-- A piece in memory that no entry holds is read. -/
theorem State.commitPieces_memory (hmem : oaHandle a ≠ 16) (hreach : s.reach x a m = .runs p [(fpa, m)]) {pat : Nat}
    (hentry : s.entryBytes c pat fpa m = none) (hsound : s.poisonedIn p 0 (x.fva a) [(fpa, m)] = false) (k : TileCont) :
    s.commitPieces c x pat q [(a, m)] k =
      ((s.committing c x k).touchSegment x a m).tileReads c p [(fpa, m)] (.part s.home.nextGather 0) false (patBulk q.desc) := by
  have hreach' : (s.committing c x k).reach x a m = .runs p [(fpa, m)] := hreach
  have hsound' : (s.committing c x k).poisonedIn p 0 (x.fva a) [(fpa, m)] = false := hsound
  have hentries : ((s.committing c x k).tile c.tile).entries = (s.tile c.tile).entries := by
    rw [State.tile_committing_self]
  have hentry' : (s.committing c x k).entryBytes c pat fpa m = none :=
    (State.entryBytes_congr hentries (fun _ => rfl) pat fpa m).trans hentry
  have hmapM : [(fpa, m)].mapM (fun r => (s.committing c x k).entryBytes c pat r.1 r.2) = none := by
    rw [List.mapM_cons, hentry']
    rfl
  have hopen : (s.setCtx c (x.waiting false)).openGather [(a, m)].length (.tile c x.clause k) = s.committing c x k := rfl
  rw [State.commitPieces, hopen, List.zipIdx_cons, List.zipIdx_nil, List.foldl_cons, List.foldl_nil]
  dsimp only
  rw [if_neg hmem, hreach']
  dsimp only
  rw [hmapM]
  exact if_neg (Bool.eq_false_iff.1 hsound')

/-- A commit of bytes in a line of another chip waits for a read of that line. -/
theorem Completes.pop_remote {i : Instr} (hexec : exec i s = tiled c (s.pop c f x q n vector .none))
    (hfin : s.home.finished = []) (h : q.NextPiece n m a) (hmem : oaHandle a < 16)
    (hreach : s.reach x a m = .runs p [(fpa, m)]) (hentry : s.entryBytes c f.strm.toNat fpa m = none)
    (hsound : s.poisonedIn p 0 (x.fva a) [(fpa, m)] = false) (hlocal : s.localFpa fpa = none)
    (hcopy : tget (fpa / 128) (s.tile c.tile).copies = none) (hstores : s.storesTo c x.clause [(fpa, m)] = false)
    (hsend : MaySend s p fpa) (hpos : 0 < n) (hline : fpa % 128 + m ≤ 128) (hk : s.clauseAt x.clause = some k)
    (hlive : k.cancelled = false) :
    Completes i s (fun t =>
      Sent s t (fpa / 128 * 128) 1 (.lineFill (if patBulk q.desc then none else some c.tile) (fpa / 128) (fpa % 128) m
        (.part s.home.nextGather 0)) ∧
      (tget s.home.nextGather t.home.gathers).map (fun g => (g.left, g.cont)) =
        some (1, .tile c x.clause (popCont f vector n m a)) ∧
      t.ctx c = some (x.waiting false) ∧ t.mem = s.mem ∧ t.xlat = s.xlat ∧ t.out = s.out) := by
  let u := s.committing c x (popCont f vector n m a)
  let v := u.touchSegment x a m
  have hmpos : 0 < m := by
    rw [h.length]
    exact Nat.lt_min.2 ⟨hpos, Nat.pos_of_ne_zero h.left⟩
  have hpop : s.pop c f x q n vector .none = v.tileReads c p [(fpa, m)] (.part s.home.nextGather 0) false (patBulk q.desc) := by
    rw [State.pop_of_memory h (Nat.ne_of_lt hmem) hreach, if_neg (Bool.eq_false_iff.1 hstores)]
    exact State.commitPieces_memory (Nat.ne_of_lt hmem) hreach hentry hsound _
  have hcopies : tget (fpa / 128) (v.tile c.tile).copies = none := by
    rw [State.tile_touchSegment, State.tile_committing_self]
    exact hcopy
  have hread := (State.tileReads_line hmpos hline (.part s.home.nextGather 0) false (patBulk q.desc)).trans
    (State.tileRead_remote (s := v) (p := p) hlocal hcopies (.part s.home.nextGather 0) false (patBulk q.desc))
  have hmode : (x.waiting false).mode ≠ .parked := CtxMode.noConfusion
  have hctx : v.ctx c = some (x.waiting false) := s.ctx_committing c x _
  obtain ⟨t, hstep, hsent, hsw⟩ := Completes.tile_sent (hexec.trans (congrArg (tiled c) (hpop.trans hread))) hfin
    (MaySend.line (s := v) hsend) hctx hmode
    (State.touchSegment_not_cancelled (s := u) (x := x) hk hlive)
  refine .of_next hstep ⟨hsent, ?_, ?_, hsw.mem, hsw.xlat, hsw.out⟩
  · rw [hsw.home, show v.home.gathers = u.home.gathers from rfl, State.gather_committing]
    rfl
  · rw [State.ctx_congr hsw.home, hctx]

end
end Sys2Proof.Machine
end

section
namespace Sys2Proof.Machine

/-! ### The access engine (R109, R119, R120) -/

section
variable {s : State} {c : At} {x : Ctx} {q : Pattern} {st a n p fpa : Nat} {k : Clause}

theorem State.mayRunAhead_iff : s.mayRunAhead c x st q = true ↔
    x.ordering = false ∧ max q.issued q.pos < patBytes q.desc ∧ s.entryCount c (some st) < patDepth q.desc ∧
      s.entryCount c none < 256 ∧ (s.tile c.tile).entries.length < 512 := by
  simp only [State.mayRunAhead, Bool.and_eq_true, Bool.not_eq_true', decide_eq_true_eq, and_assoc]

/-- A stop of R109 or R120 keeps the engine from issuing. -/
theorem State.mayRunAhead_of_stop (h : x.ordering = true ∨ patBytes q.desc ≤ max q.issued q.pos ∨
    patDepth q.desc ≤ s.entryCount c (some st) ∨ 256 ≤ s.entryCount c none ∨ 512 ≤ (s.tile c.tile).entries.length) :
    s.mayRunAhead c x st q = false := by
  refine Bool.eq_false_iff.2 (fun hmay => ?_)
  obtain ⟨hordering, hbytes, hdepth, hshare, htile⟩ := State.mayRunAhead_iff.1 hmay
  rcases h with hstop | hstop | hstop | hstop | hstop
  · rw [hordering] at hstop
    cases hstop
  · exact absurd hbytes (Nat.not_lt.2 hstop)
  · exact absurd hdepth (Nat.not_lt.2 hstop)
  · exact absurd hshare (Nat.not_lt.2 hstop)
  · exact absurd htile (Nat.not_lt.2 hstop)

theorem runRunaheadIssue_of_pattern (hlive : s.live = true) (hx : s.ctx c = some x) (hq : tget st x.patterns = some q) :
    runRunaheadIssue c st s = if !s.mayRunAhead c x st q then s
      else if q.needsIndices then (if q.asked.isSome then s else s.fetchIndices c x st q true)
      else s.issueLine c x st q := by
  rw [runRunaheadIssue, State.whenLive_live hlive, hx]
  dsimp only
  rw [hq]

/-- An engine that does nothing leaves a context that goes on as it was. -/
theorem exec_runaheadIssue_idle (hfin : s.home.finished = []) (hx : s.ctx c = some x) (hmode : x.mode ≠ .parked)
    (hlive : (s.clauseAt x.clause).map Clause.cancelled ≠ some true) (hidle : runRunaheadIssue c st s = s) :
    exec (.runaheadIssue c st) s = .next s :=
  (congrArg (tiled c) hidle).trans (tiled_of_ctx hfin hx hmode hlive)

/-! #### The next line of a pattern (R119) -/

/-- The entry that the next line of a pattern gets: it serves the bytes up to the end of that line. -/
def Pattern.nextEntry (q : Pattern) (c : At) (x : Ctx) (st line a : Nat) : StreamEntry :=
  { ctx := c.ctx, pat := st, line := line, first := max q.issued q.pos,
    upto := q.lineEnd x (oaHandle a) (x.fva a / 128) 128 (max q.issued q.pos), filled := false, stale := false, once := false,
    failed := false, data := [] }

/-- The context once its pattern's bytes up to a position are issued. -/
def Ctx.withIssued (x : Ctx) (st : Nat) (q : Pattern) (upto : Nat) : Ctx :=
  { x with patterns := tset st { q with issued := upto } x.patterns }

/-- The state in which an entry is open and the context's pattern counts its bytes as issued. -/
def State.opened (s : State) (c : At) (x : Ctx) (st : Nat) (q : Pattern) (e : StreamEntry) : State :=
  (s.setTile c.tile { s.tile c.tile with entries := tset (s.tile c.tile).nextEntry e (s.tile c.tile).entries,
                                         nextEntry := (s.tile c.tile).nextEntry + 1 }).setCtx c (x.withIssued st q e.upto)

theorem State.tile_opened_self (e : StreamEntry) : (s.opened c x st q e).tile c.tile =
    { s.tile c.tile with entries := tset (s.tile c.tile).nextEntry e (s.tile c.tile).entries,
                         nextEntry := (s.tile c.tile).nextEntry + 1,
                         ctxs := tset c.ctx (x.withIssued st q e.upto) (s.tile c.tile).ctxs } := by
  rw [State.opened, State.tile_setCtx_self, State.tile_setTile_self]

theorem State.issueLine_of_side (hstep : q.lineStep x (max q.issued q.pos) = (a, n)) (hk : s.clauseAt x.clause = some k)
    (hmem : oaHandle a ≠ 16) (hreach : s.reach x a n = .runs p [(fpa, n)]) (hside : k.plain (x.fva a) n = false) :
    s.issueLine c x st q = s := by
  rw [State.issueLine, hstep, hk]
  dsimp only
  rw [if_neg hmem, hreach]
  dsimp only
  rw [hside]
  rfl

theorem State.issueLine_of_plain (hstep : q.lineStep x (max q.issued q.pos) = (a, n)) (hk : s.clauseAt x.clause = some k)
    (hmem : oaHandle a ≠ 16) (hreach : s.reach x a n = .runs p [(fpa, n)]) (hplain : k.plain (x.fva a) n = true)
    (hsound : s.poisonedIn p 0 (x.fva a) [(fpa, n)] = false) :
    s.issueLine c x st q =
      ((s.opened c x st q (q.nextEntry c x st (s.cacheLine fpa) a)).touchSegment x a n).tileRead c p (fpa / 128 * 128) 128
        (.stream c x.clause (s.tile c.tile).nextEntry) true (patBulk q.desc) := by
  rw [State.issueLine, hstep, hk]
  dsimp only
  rw [if_neg hmem, hreach]
  dsimp only
  rw [hplain]
  exact if_neg (Bool.eq_false_iff.1 hsound)

/-- Bytes that an extent in a window with SIDE_EFFECT overlaps are not plain (R41). -/
theorem Clause.plain_of_side {fva : Nat} (h : k.extents.any (fun e =>
    e.side && decide (e.fva < fva + n) && decide (fva < e.fva + e.len)) = true) : k.plain fva n = false := by
  obtain ⟨e, he, hover⟩ := List.any_eq_true.1 h
  simp only [Bool.and_eq_true, decide_eq_true_eq] at hover
  obtain ⟨⟨hside, hlo⟩, hhi⟩ := hover
  refine List.all_eq_false.2 ⟨e, he, ?_⟩
  simp [hside, hlo, hhi]

/-- The engine asks for the next line of a pattern, and gives it an entry of its own. -/
theorem Completes.runahead_line (hlive : s.live = true) (hfin : s.home.finished = []) (hx : s.ctx c = some x)
    (hmay : s.mayRunAhead c x st q = true) (hq : tget st x.patterns = some q) (hidx : q.needsIndices = false)
    (hstep : q.lineStep x (max q.issued q.pos) = (a, n)) (hmem : oaHandle a < 16) (hreach : s.reach x a n = .runs p [(fpa, n)])
    (hplain : k.plain (x.fva a) n = true) (hsound : s.poisonedIn p 0 (x.fva a) [(fpa, n)] = false)
    (hlocal : s.localFpa fpa = none) (hline : s.localFpa (fpa / 128 * 128) = none)
    (hcopy : tget (fpa / 128) (s.tile c.tile).copies = none) (hsend : MaySend s p (fpa / 128 * 128))
    (hk : s.clauseAt x.clause = some k) (hrun : k.cancelled = false) (hmode : x.mode ≠ .parked) :
    Completes (.runaheadIssue c st) s (fun t =>
      Sent s t (fpa / 128 * 128) 1 (.lineFill (if patBulk q.desc then none else some c.tile) (fpa / 128) 0 128
        (.stream c x.clause (s.tile c.tile).nextEntry)) ∧
      tget (s.tile c.tile).nextEntry (t.tile c.tile).entries = some (q.nextEntry c x st (fpa / 128) a) ∧
      (t.tile c.tile).nextEntry = (s.tile c.tile).nextEntry + 1 ∧
      t.ctx c = some (x.withIssued st q (q.lineEnd x (oaHandle a) (x.fva a / 128) 128 (max q.issued q.pos))) ∧
      t.mem = s.mem ∧ t.xlat = s.xlat ∧ t.out = s.out) := by
  let e := q.nextEntry c x st (fpa / 128) a
  let u := s.opened c x st q e
  let v := u.touchSegment x a n
  have hcached : s.cacheLine fpa = fpa / 128 := by rw [State.cacheLine, hlocal]; rfl
  have hquot : fpa / 128 * 128 / 128 = fpa / 128 := Nat.mul_div_cancel _ (by decide)
  have hissue : runRunaheadIssue c st s = v.tileRead c p (fpa / 128 * 128) 128 (.stream c x.clause (s.tile c.tile).nextEntry) true
      (patBulk q.desc) := by
    rw [runRunaheadIssue_of_pattern hlive hx hq, hmay, hidx]
    refine (State.issueLine_of_plain hstep hk (Nat.ne_of_lt hmem) hreach hplain hsound).trans ?_
    rw [hcached]
  have hcopies : tget (fpa / 128 * 128 / 128) (v.tile c.tile).copies = none := by
    rw [hquot, State.tile_touchSegment, State.tile_opened_self]
    exact hcopy
  have hread := State.tileRead_remote (s := v) (p := p) (n := 128) hline hcopies
    (.stream c x.clause (s.tile c.tile).nextEntry) true (patBulk q.desc)
  rw [hquot, Nat.mul_mod_left] at hread
  have hctx : v.ctx c = some (x.withIssued st q e.upto) := State.ctx_setCtx_self ..
  obtain ⟨t, hexec, hsent, hsw⟩ := Completes.tile_sent (i := .runaheadIssue c st) (s := s)
    (congrArg (tiled c) (hissue.trans hread)) hfin (show MaySend v p _ from hsend) hctx hmode
    (State.touchSegment_not_cancelled (s := u) (x := x) hk hrun)
  have hkept : t.tile c.tile = u.tile c.tile := by rw [State.tile, hsw.home]; rfl
  refine .of_next hexec ⟨hsent, ?_, ?_, ?_, hsw.mem, hsw.xlat, hsw.out⟩
  · rw [hkept, State.tile_opened_self]
    exact tget_tset_self ..
  · rw [hkept, State.tile_opened_self]
  · rw [State.ctx_congr hsw.home, hctx]
    rfl

/-! #### The index array of a pattern (R119) -/

/-- The state in which a context's pattern waits for its index array, read ahead of its first commit. -/
def State.indexing (s : State) (c : At) (x : Ctx) (st : Nat) (q : Pattern) : State :=
  ((s.setTile c.tile { s.tile c.tile with nextEntry := (s.tile c.tile).nextEntry + 1 }).touchSegment x (patIndex q.desc)
    (4 * patCount0 q.desc)).setCtx c
      { x with patterns := tset st { q with asked := some (s.tile c.tile).nextEntry } x.patterns }

theorem State.fetchIndices_ahead (ha : a = patIndex q.desc) (hn : n = 4 * patCount0 q.desc) (hmem : oaHandle a ≠ 16)
    (hreach : s.reach x a n = .runs p [(fpa, n)]) (hk : s.clauseAt x.clause = some k) (hplain : k.plain (x.fva a) n = true)
    (hsound : s.poisonedIn p 0 (x.fva a) [(fpa, n)] = false) :
    s.fetchIndices c x st q true = (s.indexing c x st q).readRuns [(fpa, n)] p
      (.tile c x.clause (.indices st (s.tile c.tile).nextEntry true)) (tilePort c) true := by
  subst ha hn
  rw [State.fetchIndices]
  dsimp only
  rw [if_neg (fun h => hmem h.1), hreach]
  dsimp only
  rw [hk]
  dsimp only
  have hgoes : ¬ (true = true ∧ ((!k.plain (x.fva (patIndex q.desc)) (4 * patCount0 q.desc)) = true ∨
      s.poisonedIn p 0 (x.fva (patIndex q.desc)) [(fpa, 4 * patCount0 q.desc)] = true)) := by
    simp [hplain, hsound]
  exact (if_neg hgoes).trans ((if_neg (Bool.eq_false_iff.1 hsound)).trans (if_neg (fun h => Bool.false_ne_true h.1)))

/-- The engine asks for an index array in one block of another chip by one RD. -/
theorem Completes.runahead_indices (hlive : s.live = true) (hfin : s.home.finished = []) (hx : s.ctx c = some x)
    (hmay : s.mayRunAhead c x st q = true) (hq : tget st x.patterns = some q) (hidx : q.needsIndices = true)
    (hasked : q.asked = none) (ha : a = patIndex q.desc) (hmem : oaHandle a < 16) (hn : n = 4 * patCount0 q.desc)
    (hreach : s.reach x a n = .runs p [(fpa, n)]) (hplain : k.plain (x.fva a) n = true)
    (hsound : s.poisonedIn p 0 (x.fva a) [(fpa, n)] = false) (hreplica : s.replicaOf fpa = none) (hsend : MaySend s p fpa)
    (hpos : 0 < n) (hblock : fpa % 4096 + n ≤ 4096) (hk : s.clauseAt x.clause = some k) (hrun : k.cancelled = false)
    (hmode : x.mode ≠ .parked) :
    Completes (.runaheadIssue c st) s (fun t =>
      Sent s t fpa 1 (.tile c x.clause (.indices st (s.tile c.tile).nextEntry true)) ∧
      t.ctx c = some { x with patterns := tset st { q with asked := some (s.tile c.tile).nextEntry } x.patterns } ∧
      (t.tile c.tile).entries = (s.tile c.tile).entries ∧ t.mem = s.mem ∧ t.xlat = s.xlat ∧ t.out = s.out) := by
  let v := s.indexing c x st q
  have hissue : runRunaheadIssue c st s =
      v.sendAct fpa (.read n) p (.tile c x.clause (.indices st (s.tile c.tile).nextEntry true)) (tilePort c) false true := by
    rw [runRunaheadIssue_of_pattern hlive hx hq, hmay, hidx, hasked]
    refine (State.fetchIndices_ahead ha hn (Nat.ne_of_lt hmem) hreach hk hplain hsound).trans ?_
    rw [State.readRuns, cutRuns_block (Nat.ne_of_gt hpos) hblock]
    dsimp only
    rw [State.issueRead, if_neg (show fpaChip fpa ≠ v.chip from hsend.1), show v.replicaOf fpa = none from hreplica]
  have hctx : v.ctx c = some _ := State.ctx_setCtx_self ..
  obtain ⟨t, hexec, hsent, hsw⟩ := Completes.tile_sent (i := .runaheadIssue c st) (s := s)
    (congrArg (tiled c) hissue) hfin (show MaySend v p _ from hsend) hctx hmode
    (State.touchSegment_not_cancelled (s := s) (x := x) hk hrun)
  have hkept : (v.tile c.tile).entries = (s.tile c.tile).entries := by
    unfold v State.indexing
    rw [State.tile_setCtx_self, State.tile_touchSegment, State.tile_setTile_self]
  refine .of_next hexec ⟨hsent, ?_, ?_, hsw.mem, hsw.xlat, hsw.out⟩
  · rw [State.ctx_congr hsw.home, hctx]
  · rw [← hkept, State.tile, hsw.home]
    rfl

end
end Sys2Proof.Machine
end

section
namespace Sys2Proof.Machine

/-! ### The stream instructions, statement by statement (R153) -/

section
variable {s : State} {c : At} {f : FmtT} {x : Ctx} {q : Pattern} {n m a : Nat} {ecc : Ecc}

theorem exec_spop_of_pattern (h : s.ready c = some x) (hres : f.reserved = 0) (hreg : f.reg.toNat < 32)
    (hq : tget f.strm.toNat x.patterns = some q) : exec (.spop c f ecc) s = tiled c (s.pop c f x q 256 true ecc) :=
  congrArg (tiled c) (State.streamOp_of_pattern h hres (decide_eq_true hreg) hq _)

theorem exec_spops_of_pattern (h : s.ready c = some x) (hres : f.reserved = 0)
    (hq : tget f.strm.toNat x.patterns = some q) : exec (.spops c f ecc) s = tiled c (s.pop c f x q 8 false ecc) :=
  congrArg (tiled c) (State.streamOp_of_pattern h hres rfl hq _)

/-- An instruction that ends in an exception. -/
theorem tiled_of_exception {u : State} {code : Nat} {e : Err} (hfin : s.home.finished = [])
    (hu : u = s.exception c x code a e) : tiled c u = .next (s.exception c x code a e) := by
  rw [hu, tiled_exception hfin]

theorem Ctx.committed_memRead (x : Ctx) (f : FmtT) (vector : Bool) (q : Pattern) (t : Tbl Byte) (b m : Nat) :
    x.committed f vector q (memRead t b m) = { x.popped f.reg vector (memRead t b m) with
      patterns := tset f.strm.toNat { q with pos := q.pos + m } x.patterns, mode := .running, ordering := false, pc := x.pc + 1 } := by
  rw [Ctx.committed, memRead_length]

end

/-- Settles O48: each stream instruction is a configuration, a commit of one piece, or an exception; the engine asks for the next
line or the index array of a pattern, or does nothing. -/
theorem streamPatternsAndRunAhead : Obligations.StreamPatternsAndRunAhead := by
  unfold Obligations.StreamPatternsAndRunAhead
  refine ⟨?affine, ?indexedInStore, ?indexedInMemory, ?badDescriptor, ?misaligned, ?spopsStore, ?spopsRemote, ?spopsEmpty,
    ?spopStore, ?spopRemote, ?spopEmpty, ?sskip, ?scan, ?srem, ?spopNone, ?spopsNone, ?sskipNone, ?scanNone, ?sremNone,
    ?scfgReserved, ?spopReserved, ?spopsReserved, ?sskipReserved, ?scanReserved, ?sremReserved, ?sskipOut, ?spopsOut, ?spopOut,
    ?spopsUncorrectable, ?scfgUncorrectable, ?scfgOut, ?spopsStored, ?line, ?indices, ?stop, ?side⟩
  case affine =>
    exact fun s c f x a h hres ⟨ha, halign, hstore, hin⟩ ⟨hok, hkind⟩ =>
      .scfg h hres ha halign hstore hin rfl hok (State.storedIndices_of_affine hkind)
  case indexedInStore =>
    intro s c f x a h hres ⟨ha, halign, hstore, hin⟩ ⟨hok, hkind⟩ ⟨hix, hixin⟩
    obtain ⟨t, hexec, hctx, -, hkept, -, hframe⟩ :=
      Completes.scfg h hres ha halign hstore hin rfl hok (State.storedIndices_of_store hkind hix hixin)
    exact ⟨t, hexec, hctx, hkept, hframe⟩
  case indexedInMemory =>
    intro s c f x a h hres ⟨ha, halign, hstore, hin⟩ ⟨hok, hkind⟩ hix
    obtain ⟨t, hexec, hctx, -, hkept, -, hframe⟩ :=
      Completes.scfg h hres ha halign hstore hin rfl hok (State.storedIndices_of_memory hix)
    exact ⟨t, hexec, hctx, hkept, hframe⟩
  case badDescriptor =>
    intro s c f x a h hres ⟨ha, halign, hstore, hin⟩ hbad
    exact (exec_scfg_reached h hres ha halign hstore hin .none).trans
      (congrArg Host.Outcome.next (if_neg (Bool.eq_false_iff.1 hbad)))
  case misaligned => exact fun s c f x h hres hmis => exec_scfg_misaligned h hres rfl hmis .none
  case scfgUncorrectable =>
    intro s c f x a h hres ⟨ha, halign, hstore, hin⟩
    exact exec_scfg_reached h hres ha halign hstore hin .storeUncorrectable
  case scfgOut => exact fun s c f x a h hres ⟨ha, halign⟩ hout => exec_scfg_unreached h hres ha halign hout .none
  case spopsStore =>
    intro s c f x q a n k h hfin hres hq ⟨hleft, hidx⟩ ⟨hn, hpieces⟩ ⟨hstore, hin⟩ hcalm ⟨hk, hlive⟩
    obtain ⟨t, hexec, hctx, hrest⟩ := Completes.pop_store (exec_spops_of_pattern h hres hq) hq ⟨hleft, hidx, hn, hpieces⟩ hstore hin
      hcalm hk hlive
    refine ⟨t, hexec, ?_, hrest⟩
    rw [hctx, Ctx.committed_memRead]
    rfl
  case spopStore =>
    intro s c f x q a n k h hfin hres hq ⟨hleft, hidx⟩ ⟨hn, hpieces⟩ hreg ⟨hstore, hin⟩ hcalm ⟨hk, hlive⟩
    obtain ⟨t, hexec, hctx, hrest⟩ := Completes.pop_store (exec_spop_of_pattern h hres hreg hq) hq ⟨hleft, hidx, hn, hpieces⟩ hstore
      hin hcalm hk hlive
    refine ⟨t, hexec, ?_, hrest⟩
    rw [hctx, Ctx.committed_memRead]
    rfl
  case spopsRemote =>
    intro s c f x q a n p fpa k h hfin hres hq ⟨hleft, hidx⟩ ⟨hn, hpieces⟩ hmem hreach hentry hsound ⟨hlocal, hcopy, _⟩ hstores hsend
      hline ⟨hk, hlive⟩
    exact .pop_remote (exec_spops_of_pattern h hres hq) hfin ⟨hleft, hidx, hn, hpieces⟩ hmem hreach hentry hsound hlocal hcopy
      hstores hsend (by decide) hline hk hlive
  case spopRemote =>
    intro s c f x q a n p fpa k h hfin hres hq ⟨hleft, hidx⟩ ⟨hn, hpieces⟩ hreg hmem hreach hentry hsound ⟨hlocal, hcopy, _⟩ hstores
      hsend hline ⟨hk, hlive⟩
    exact .pop_remote (exec_spop_of_pattern h hres hreg hq) hfin ⟨hleft, hidx, hn, hpieces⟩ hmem hreach hentry hsound hlocal hcopy
      hstores hsend (by decide) hline hk hlive
  case spopsEmpty =>
    exact fun s c f x q h hfin _ hres hq hleft =>
      (exec_spops_of_pattern h hres hq).trans (tiled_of_exception hfin (State.pop_of_empty hleft))
  case spopEmpty =>
    exact fun s c f x q h hfin _ hres hq hleft hreg =>
      (exec_spop_of_pattern h hres hreg hq).trans (tiled_of_exception hfin (State.pop_of_empty hleft))
  case spopsOut =>
    exact fun s c f x q a n h hfin _ hres hq ⟨hleft, hidx⟩ ⟨hn, hpieces⟩ hout =>
      (exec_spops_of_pattern h hres hq).trans (tiled_of_exception hfin (State.pop_unreached ⟨hleft, hidx, hn, hpieces⟩ hout))
  case spopOut =>
    exact fun s c f x q a n h hfin _ hres hq ⟨hleft, hidx⟩ ⟨hn, hpieces⟩ hreg hout =>
      (exec_spop_of_pattern h hres hreg hq).trans (tiled_of_exception hfin (State.pop_unreached ⟨hleft, hidx, hn, hpieces⟩ hout))
  case spopsUncorrectable =>
    intro s c f x q a n h hfin _ hres hq ⟨hleft, hidx⟩ ⟨hn, hpieces⟩ ⟨hstore, hin⟩
    have hreach : x.reaches a n = true := by
      rw [Ctx.reaches_store hstore]
      exact decide_eq_true hin
    rw [exec_spops_of_pattern h hres hq, State.pop_of_store ⟨hleft, hidx, hn, hpieces⟩ hstore hreach,
      State.tsGuard_storeUncorrectable, tiled_exception (s := s.count _) hfin]
  case spopsStored =>
    intro s c f x q a n p fpa h hfin hlive hres hq ⟨hleft, hidx⟩ ⟨hn, hpieces⟩ hmem hreach hstores
    have hpop : s.pop c f x q 8 false .none = s.setCtx c { x with mode := .stores } :=
      (State.pop_of_memory ⟨hleft, hidx, hn, hpieces⟩ (Nat.ne_of_lt hmem) hreach).trans (if_pos hstores)
    refine (exec_spops_of_pattern h hres hq).trans ((congrArg (tiled c) hpop).trans ?_)
    exact tiled_of_ctx hfin (State.ctx_setCtx_self ..) CtxMode.noConfusion hlive
  case sskip =>
    exact fun s c f x q h hres hq ⟨hleft, hidx⟩ hfin hlive hreach => .sskip h hres hq hleft hidx hfin hlive rfl hreach
  case sskipOut =>
    intro s c f x q a n h hfin _ hres hq ⟨hleft, hidx⟩ ⟨hn, _, hpieces⟩ hout
    have hfind : (q.pieces (n + 1) q.pos n).find? (fun o => !x.reaches o.1 o.2) = some (a, n) := by
      rw [hpieces, List.find?_cons_of_pos (by simp [hout])]
    exact tiled_of_exception hfin (State.runSskip_unreached h hres hq hleft hidx hn hfind)
  case scan => exact fun s c f x q h hres hq hreg => .scan h hres hq hreg
  case srem => exact fun s c f x q h hres hq => exec_srem h hres hq
  case spopNone =>
    exact fun s c f x h hfin _ hres hq hreg =>
      tiled_of_exception hfin (State.streamOp_of_none h hres (by rw [hreg]; rfl) hq _)
  case spopsNone => exact fun s c f x h hfin _ hres hq _ => tiled_of_exception hfin (State.streamOp_of_none h hres rfl hq _)
  case sskipNone => exact fun s c f x h hfin _ hres hq _ => tiled_of_exception hfin (State.streamOp_of_none h hres rfl hq _)
  case scanNone =>
    exact fun s c f x h _ _ hres hq hreg =>
      congrArg Host.Outcome.next (State.streamOp_of_none h hres (by rw [hreg]; rfl) hq _)
  case sremNone => exact fun s c f x h _ _ hres hq _ => congrArg Host.Outcome.next (State.streamOp_of_none h hres rfl hq _)
  case scfgReserved =>
    exact fun s c f x h _ _ hres =>
      congrArg Host.Outcome.next ((State.inCtx_of_ready h _ _).trans (if_neg (by simpa using hres)))
  case spopReserved => exact fun s c f x h hfin _ hres => tiled_of_exception hfin (State.streamOp_of_reserved h hres _)
  case spopsReserved => exact fun s c f x h hfin _ hres => tiled_of_exception hfin (State.streamOp_of_reserved h hres _)
  case sskipReserved => exact fun s c f x h hfin _ hres => tiled_of_exception hfin (State.streamOp_of_reserved h hres _)
  case scanReserved => exact fun s c f x h _ _ hres => congrArg Host.Outcome.next (State.streamOp_of_reserved h hres _)
  case sremReserved => exact fun s c f x h _ _ hres => congrArg Host.Outcome.next (State.streamOp_of_reserved h hres _)
  case line =>
    intro s c st a n p fpa x q k hlive hfin hx hordering ⟨hq, hidx⟩ hbytes ⟨hdepth, hshare, htile⟩ ⟨ha, hmem⟩ hn hreach hplain hsound
      ⟨hlocal, hline, hcopy, _⟩ hsend ⟨hk, hrun⟩ hmode
    subst ha hn
    exact .runahead_line hlive hfin hx (State.mayRunAhead_iff.2 ⟨hordering, hbytes, hdepth, hshare, htile⟩) hq hidx rfl hmem hreach
      hplain hsound hlocal hline hcopy hsend hk hrun hmode
  case indices =>
    intro s c st a n p fpa x q k hlive hfin hx hmay ⟨hq, hidx, hasked⟩ ⟨ha, hmem, hn⟩ hreach hplain hsound hreplica hsend
      ⟨hpos, hblock⟩ ⟨hk, hrun⟩ hmode
    exact .runahead_indices hlive hfin hx hmay hq hidx hasked ha hmem hn hreach hplain hsound hreplica hsend hpos hblock hk hrun hmode
  case stop =>
    intro s c st x q hlive hfin hx hmode hrun hq hstop
    refine exec_runaheadIssue_idle hfin hx hmode hrun ?_
    rw [runRunaheadIssue_of_pattern hlive hx hq, State.mayRunAhead_of_stop hstop]
    rfl
  case side =>
    intro s c st a n p fpa x q k hlive hfin hx hmode ⟨hq, hidx⟩ ⟨ha, hmem⟩ hn hreach ⟨hk, hrun⟩ hside
    subst ha hn
    refine exec_runaheadIssue_idle hfin hx hmode (State.not_cancelled hk hrun) ?_
    rw [runRunaheadIssue_of_pattern hlive hx hq, hidx,
      State.issueLine_of_side rfl hk (Nat.ne_of_lt hmem) hreach (Clause.plain_of_side hside)]
    simp only [Bool.false_eq_true, if_false, ite_self]

end Sys2Proof.Machine
end

section
namespace Sys2Proof.Machine

/-! ### A vector load whose bytes run from the last near memory unit into an expander unit (R122, 14_edge_and_memory_ports.md) -/

/-- A frame 128 B below the end of unit 31. -/
def lastLine : Nat := 32 * 2 ^ 43 - 128

/-- A KERNEL clause whose operand 0 begins at `lastLine`. -/
def crossingClause : Clause :=
  { kernA with extents := [{ fva := fva5, len := 2 ^ 21, fpa := lastLine, side := false }] }

/-- A context in which s0 is the address of operand 0, and p0 enables every byte. -/
def crossingCtx : Ctx := { ctxS with s := [] }

/-- A chip whose tile 0 shares the last line of unit 31 and the first line of unit 32, and whose expander link is down. -/
def crossing : State :=
  { memL crossingCtx [(2 ^ 41 - 1, 1), (2 ^ 41, 1)] [] [] [] with
    work := (flight crossingClause).work
    edge := { Edge.reset with expanderDown := [32] } }

/-- VLD of v3 from operand 0, under p0. -/
def crossingForm : FmtVM := ⟨3, 0, 0, 0⟩

/-- The mode of the context after a command, where the command completes. -/
def modeAfter (o : Host.Outcome State Fault Refusal) (c : At) : Option CtxMode :=
  match o with
  | .next t => (t.ctx c).map (fun x => x.mode)
  | _ => none

theorem crossing_ready : crossing.ready ⟨0, 0⟩ = some crossingCtx := by decide +kernel

/-- The part of the bytes in unit 32 waits for the link, so the context waits for its access. -/
theorem crossing_mode : modeAfter (execVld ⟨0, 0⟩ crossingForm .none crossing) ⟨0, 0⟩ = some .access := by decide +kernel

/-- Refutes O43: a VLD of memory whose lines the L1 holds takes its bytes at once only where they lie in one memory unit. The clause
for it bounds the unit of the first byte alone: 256 bytes from the last line of unit 31 end in unit 32, an expander unit, whose
accesses are held while the link is down, and the context is left waiting and not running. -/
theorem not_tileMemoryAccesses : ¬ Obligations.TileMemoryAccesses := by
  unfold Obligations.TileMemoryAccesses
  rintro ⟨-, -, -, -, -, -, -, -, -, -, -, -, -, -, -, -, -, -, -, -, -, -, -, -, -, -, -, -, hshared, -⟩
  obtain ⟨t, hexec, -, hctx, -⟩ := hshared crossing ⟨0, 0⟩ crossingForm crossingCtx 0 0 256 1 lastLine crossingClause crossing_ready
    (by decide +kernel) (by decide +kernel) (by decide) (by decide +kernel) (by decide +kernel) (by decide +kernel) (by decide +kernel)
    (by decide +kernel) (by decide +kernel) (by decide +kernel) (by decide +kernel) (by decide +kernel) (by decide +kernel)
  have hmode := crossing_mode
  rw [show execVld ⟨0, 0⟩ crossingForm .none crossing = .next t from hexec, modeAfter, hctx] at hmode
  exact CtxMode.noConfusion (Option.some.inj hmode)

end Sys2Proof.Machine
end

section
namespace Sys2Proof.Machine

/-! ### Branches and jumps (R147) -/

section
variable {s : State} {c : At} {x : Ctx} {f : FmtB} {taken : Word → Word → Bool} {i : Instr}

theorem State.jumpTo_inside {target : Int} (h : 0 ≤ target ∧ target < x.progLen) :
    s.jumpTo c x target = s.setCtx c { x with pc := target.toNat } :=
  if_pos h

theorem State.jumpTo_outside {target : Int} (h : target < 0 ∨ (x.progLen : Int) ≤ target) :
    s.jumpTo c x target = s.exception c x 1 0 .format :=
  if_neg (by omega)

theorem State.branch_of_taken (h : s.ready c = some x) (ht : taken (x.sreg f.ra) (x.sreg f.rb) = true) :
    s.branch c f taken = s.jumpTo c x (x.pc + f.off.toInt) :=
  (State.inCtx_of_legal h rfl _).trans (if_pos ht)

theorem exec_branch_inside (hexec : exec i s = .next (s.branch c f taken)) (h : s.ready c = some x)
    (ht : taken (x.sreg f.ra) (x.sreg f.rb) = true) (hin : 0 ≤ (x.pc : Int) + f.off.toInt ∧ (x.pc : Int) + f.off.toInt < x.progLen) :
    exec i s = .next (s.setCtx c { x with pc := ((x.pc : Int) + f.off.toInt).toNat }) := by
  rw [hexec, State.branch_of_taken h ht, State.jumpTo_inside hin]

theorem exec_branch_outside (hexec : exec i s = .next (s.branch c f taken)) (h : s.ready c = some x)
    (ht : taken (x.sreg f.ra) (x.sreg f.rb) = true)
    (hout : (x.pc : Int) + f.off.toInt < 0 ∨ (x.progLen : Int) ≤ (x.pc : Int) + f.off.toInt) :
    exec i s = .next (s.exception c x 1 0 .format) := by
  rw [hexec, State.branch_of_taken h ht, State.jumpTo_outside hout]

theorem exec_branch_onward (hexec : exec i s = .next (s.branch c f taken)) (h : s.ready c = some x)
    (ht : taken (x.sreg f.ra) (x.sreg f.rb) = false) : exec i s = .next (s.setCtx c { x with pc := x.pc + 1 }) := by
  rw [hexec, State.branch, State.inCtx_of_legal h rfl, if_neg (Bool.eq_false_iff.1 ht)]
  rfl

theorem exec_jal_of_ready (off : BitVec 26) (h : s.ready c = some x) :
    exec (.jal c off) s = .next (if 0 ≤ (x.pc : Int) + off.toInt ∧ (x.pc : Int) + off.toInt < x.progLen
      then s.jumpTo c (x.setS 62 (BitVec.ofNat 64 (x.pc + 1))) (x.pc + off.toInt) else s.exception c x 1 0 .format) :=
  congrArg Host.Outcome.next (State.inCtx_of_legal h rfl _)

end

/-! ### What an exception leaves (R162) -/

section
variable {s : State} {c : At} {x : Ctx} {k : Clause}

/-- A tile that drains comes to rest when nothing is left on it (R446); otherwise nothing happens. -/
theorem State.restTile_cases (s : State) (l : Nat) :
    s.restTile l = s ∨ s.restTile l =
      (s.setTile l { s.tile l with l1 := [], copies := [], held := [] }).set (R.TILE_STAT_STATE (s.phys l)) 2 :=
  (ite_eq_or_eq ..).symm

theorem State.restTile_frame (s : State) (l : Nat) :
    s.restTile l = { s with regs := (s.restTile l).regs, home := { s.home with tiles := (s.restTile l).home.tiles } } := by
  obtain h | h := s.restTile_cases l
  · rw [h]
  · rw [h]
    rfl

theorem State.get_restTile {l : Nat} {f : Fld} (h : f.key ≠ (R.TILE_STAT_STATE (s.phys l)).key) :
    (s.restTile l).get f = s.get f := by
  obtain hrest | hrest := s.restTile_cases l
  · rw [hrest]
  · rw [hrest, State.get_set_ne _ _ h]
    rfl

theorem State.tile_restTile_ne {l n : Nat} (h : n ≠ l) : (s.restTile l).tile n = s.tile n := by
  obtain hrest | hrest := s.restTile_cases l
  · rw [hrest]
  · rw [hrest]
    exact State.tile_setTile_ne s h _

/-- A tile at rest keeps its contexts, stream entries and stores, of which it has none. -/
theorem State.tile_restTile_self (s : State) (l : Nat) :
    ((s.restTile l).tile l).ctxs = (s.tile l).ctxs ∧ ((s.restTile l).tile l).entries = (s.tile l).entries ∧
      ((s.restTile l).tile l).stores = (s.tile l).stores := by
  obtain hrest | hrest := s.restTile_cases l
  · rw [hrest]
    exact ⟨rfl, rfl, rfl⟩
  · have htile : (s.restTile l).tile l = { s.tile l with l1 := [], copies := [], held := [] } := by
      rw [hrest]
      exact State.tile_setTile_self s l _
    rw [htile]
    exact ⟨rfl, rfl, rfl⟩

theorem State.endCtx_frame (s : State) (c : At) :
    s.endCtx c = { s with regs := (s.endCtx c).regs, home := { s.home with tiles := (s.endCtx c).home.tiles } } :=
  State.restTile_frame ..

theorem State.ctx_endCtx_self (s : State) (c : At) : (s.endCtx c).ctx c = none := by
  refine State.ctx_restTile _ c c.tile ?_
  rw [State.ctx, State.tile_setTile_self]
  exact tget_terase_self ..

theorem State.ctx_endCtx_ne {n : Nat} (h : n ≠ c.ctx) : (s.endCtx c).ctx ⟨c.tile, n⟩ = s.ctx ⟨c.tile, n⟩ := by
  rw [State.ctx, State.endCtx, (State.tile_restTile_self _ c.tile).1, State.tile_setTile_self]
  exact tget_terase_ne h _

theorem State.tile_endCtx_ne {l : Nat} (h : l ≠ c.tile) : (s.endCtx c).tile l = s.tile l :=
  (State.tile_restTile_ne h).trans (State.tile_setTile_ne s h _)

theorem State.entries_endCtx (s : State) (c : At) :
    ((s.endCtx c).tile c.tile).entries = (s.tile c.tile).entries.filter (fun e => e.2.ctx != c.ctx) := by
  rw [State.endCtx, (State.tile_restTile_self _ c.tile).2.1, State.tile_setTile_self]

theorem State.get_endCtx {f : Fld} (h : f.key ≠ (R.TILE_STAT_STATE (s.phys c.tile)).key) : (s.endCtx c).get f = s.get f :=
  State.get_restTile h

/-- TILE_EXC after an exception of a tile, before the context ends (R164). -/
def State.excRecorded (s : State) (n part ctx code : Nat) : State :=
  (((s.count (R.TILE_EXC_COUNT n)).set (R.TILE_EXC_LAST_PART n) part).set (R.TILE_EXC_LAST_CTX n) ctx).set (R.TILE_EXC_LAST_CODE n) code

theorem State.exception_of_clause (hk : s.clauseAt x.clause = some k) (code a : Nat) (e : Err) :
    s.exception c x code a e =
      ((s.excRecorded (s.phys c.tile) k.partition c.ctx code).setClause x.clause
        (k.endWith { status := e, exc := code, segment := 2 ^ 32 - 1, detail := x.pc, addr := a })).endCtx c := by
  have hstay : (s.excRecorded (s.phys c.tile) k.partition c.ctx code).clauseAt x.clause = some k := hk
  have hmod := State.modClause_of_clauseAt hstay fun k =>
    k.endWith { status := e, exc := code, segment := 2 ^ 32 - 1, detail := x.pc, addr := a }
  rw [← hmod, State.exception, hk]
  rfl

/-- The fields of TILE_EXC and TILE_STAT of a tile are apart. -/
theorem excFields_nodup (n : Nat) :
    [(R.TILE_EXC_COUNT n).key, (R.TILE_EXC_LAST_PART n).key, (R.TILE_EXC_LAST_CTX n).key, (R.TILE_EXC_LAST_CODE n).key,
      (R.TILE_STAT_STATE n).key].Nodup := by
  simp [R.TILE_EXC_COUNT, R.TILE_EXC_LAST_PART, R.TILE_EXC_LAST_CTX, R.TILE_EXC_LAST_CODE, R.TILE_STAT_STATE]
  omega

theorem State.get_excRecorded (s : State) (n part ctx code : Nat) :
    (s.excRecorded n part ctx code).get (R.TILE_EXC_COUNT n) = min (s.get (R.TILE_EXC_COUNT n) + 1) (2 ^ 32 - 1) ∧
      (s.excRecorded n part ctx code).get (R.TILE_EXC_LAST_PART n) = part % 2 ^ 12 ∧
      (s.excRecorded n part ctx code).get (R.TILE_EXC_LAST_CTX n) = ctx % 2 ^ 2 ∧
      (s.excRecorded n part ctx code).get (R.TILE_EXC_LAST_CODE n) = code % 2 ^ 8 := by
  have hdistinct := excFields_nodup n
  simp only [List.nodup_cons, List.mem_cons, List.not_mem_nil, or_false, not_or] at hdistinct
  obtain ⟨⟨hpart, hctx, hcode, -⟩, ⟨hctx', hcode', -⟩, ⟨hcode'', -⟩, -⟩ := hdistinct
  unfold State.excRecorded
  refine ⟨?_, ?_, ?_, State.get_set_self ..⟩
  · rw [State.get_set_ne _ _ hcode, State.get_set_ne _ _ hctx, State.get_set_ne _ _ hpart]
    exact State.get_count_self ..
  · rw [State.get_set_ne _ _ hcode', State.get_set_ne _ _ hctx']
    exact State.get_set_self ..
  · rw [State.get_set_ne _ _ hcode'']
    exact State.get_set_self ..

theorem State.excRecorded_onlyFields (s : State) (n part ctx code : Nat) :
    OnlyFields [R.TILE_EXC_COUNT n, R.TILE_EXC_LAST_PART n, R.TILE_EXC_LAST_CTX n, R.TILE_EXC_LAST_CODE n, R.TILE_STAT_STATE n] s
      (s.excRecorded n part ctx code) :=
  ((((s.count_onlyFields _ _).mono (by simp)).set (by simp)).set (by simp)).set (by simp)

theorem State.endCtx_onlyFields {fs : List Fld} {t : State} (h : OnlyFields fs s t) {c : At}
    (hf : R.TILE_STAT_STATE (t.phys c.tile) ∈ fs) : OnlyFields fs s (t.endCtx c) :=
  fun g hg => (State.get_endCtx (hg _ hf)).trans (h g hg)

/-- An exception of a clause that has no ending yet, on the tile n. -/
theorem State.exception_spec {n : Nat} (hk : s.clauseAt x.clause = some k) (hopen : k.ending = none) (hn : s.phys c.tile = n)
    {code a : Nat} {e : Err} {t : State} (ht : t = s.exception c x code a e) :
    t.clauseAt x.clause = some { k with ending := some { status := e, exc := code, segment := 2 ^ 32 - 1, detail := x.pc, addr := a } } ∧
      (∀ m : Nat, m ≠ x.clause → t.clauseAt m = s.clauseAt m) ∧
      t.ctx c = none ∧ (∀ m : Nat, m ≠ c.ctx → t.ctx ⟨c.tile, m⟩ = s.ctx ⟨c.tile, m⟩) ∧ (∀ m : Nat, m ≠ c.tile → t.tile m = s.tile m) ∧
      (∀ e ∈ (t.tile c.tile).entries, e.2.ctx ≠ c.ctx) ∧
      t.get (R.TILE_EXC_COUNT n) = min (s.get (R.TILE_EXC_COUNT n) + 1) (2 ^ 32 - 1) ∧
      t.get (R.TILE_EXC_LAST_PART n) = k.partition % 2 ^ 12 ∧ t.get (R.TILE_EXC_LAST_CTX n) = c.ctx % 2 ^ 2 ∧
      t.get (R.TILE_EXC_LAST_CODE n) = code % 2 ^ 8 ∧
      t = { s with regs := t.regs, work := { s.work with clauses := t.work.clauses }, home := { s.home with tiles := t.home.tiles } } ∧
      OnlyFields [R.TILE_EXC_COUNT n, R.TILE_EXC_LAST_PART n, R.TILE_EXC_LAST_CTX n, R.TILE_EXC_LAST_CODE n, R.TILE_STAT_STATE n] s t := by
  subst hn
  have hends : k.endWith { status := e, exc := code, segment := 2 ^ 32 - 1, detail := x.pc, addr := a } =
      { k with ending := some { status := e, exc := code, segment := 2 ^ 32 - 1, detail := x.pc, addr := a } } := by
    rw [Clause.endWith, hopen]
  rw [State.exception_of_clause hk, hends] at ht
  generalize hu : ((s.excRecorded (s.phys c.tile) k.partition c.ctx code).setClause x.clause _) = u at ht
  have hctxs (m : At) : u.ctx m = s.ctx m := by rw [← hu]; rfl
  have htiles (m : Nat) : u.tile m = s.tile m := by rw [← hu]; rfl
  have hphys : u.phys c.tile = s.phys c.tile := by rw [← hu]; rfl
  have hget (f : Fld) : u.get f = (s.excRecorded (s.phys c.tile) k.partition c.ctx code).get f := by rw [← hu]; rfl
  have hframe : u = { s with regs := u.regs, work := { s.work with clauses := u.work.clauses } } := by rw [← hu]; rfl
  have hself := State.clauseAt_setClause_self (s.excRecorded (s.phys c.tile) k.partition c.ctx code) x.clause
    { k with ending := some { status := e, exc := code, segment := 2 ^ 32 - 1, detail := x.pc, addr := a } }
  have hne (m : Nat) (hm : m ≠ x.clause) := State.clauseAt_setClause_ne (s.excRecorded (s.phys c.tile) k.partition c.ctx code) hm
    { k with ending := some { status := e, exc := code, segment := 2 ^ 32 - 1, detail := x.pc, addr := a } }
  rw [hu] at hself
  simp only [hu] at hne
  have hclauses (m : Nat) : t.clauseAt m = u.clauseAt m := by
    rw [ht, State.endCtx_frame]
    rfl
  have hends (f : Fld) (hf : f.key ≠ (R.TILE_STAT_STATE (s.phys c.tile)).key) : t.get f = u.get f := by
    rw [ht, State.get_endCtx (hphys ▸ hf)]
  have hdistinct := excFields_nodup (s.phys c.tile)
  simp only [List.nodup_cons, List.mem_cons, List.not_mem_nil, or_false, not_or] at hdistinct
  obtain ⟨⟨-, -, -, hcount⟩, ⟨-, -, hpart⟩, ⟨-, hctx⟩, hcode, -⟩ := hdistinct
  obtain ⟨hgetCount, hgetPart, hgetCtx, hgetCode⟩ := s.get_excRecorded (s.phys c.tile) k.partition c.ctx code
  refine ⟨(hclauses _).trans hself, fun m hm => (hclauses m).trans (hne m hm), ?ctx, ?ctxs, ?tiles, ?entries,
    (hends _ hcount).trans ((hget _).trans hgetCount), (hends _ hpart).trans ((hget _).trans hgetPart),
    (hends _ hctx).trans ((hget _).trans hgetCtx), (hends _ hcode).trans ((hget _).trans hgetCode), ?frame, ?fields⟩
  case ctx =>
    rw [ht]
    exact State.ctx_endCtx_self u c
  case ctxs =>
    intro m hm
    rw [ht, State.ctx_endCtx_ne hm, hctxs]
  case tiles =>
    intro m hm
    rw [ht, State.tile_endCtx_ne hm, htiles]
  case entries =>
    intro e he
    rw [ht, State.entries_endCtx] at he
    simpa using (List.mem_filter.1 he).2
  case frame =>
    rw [ht, State.endCtx_frame, hframe]
  case fields =>
    intro g hg
    rw [hends g (hg _ (by simp)), hget]
    exact s.excRecorded_onlyFields (s.phys c.tile) k.partition c.ctx code g hg

end

/-- Settles O42: a branch or jump is `State.jumpTo`, inside or outside the program, or goes on; an exception is `State.exception_spec`. -/
theorem controlFlowAndExceptions : Obligations.ControlFlowAndExceptions := by
  unfold Obligations.ControlFlowAndExceptions
  refine ⟨?beqIn, ?beqOut, ?beqOn, ?bneIn, ?bneOut, ?bneOn, ?bltIn, ?bltOut, ?bltOn, ?bgeIn, ?bgeOut, ?bgeOn, ?bltuIn, ?bltuOut,
    ?bltuOn, ?bgeuIn, ?bgeuOut, ?bgeuOn, ?jIn, ?jOut, ?jalIn, ?jalOut, ?jrIn, ?jrOut, ?exception⟩
  case beqIn => exact fun s c f x h ht hin => exec_branch_inside rfl h (beq_iff_eq.2 ht) hin
  case beqOut => exact fun s c f x h ht hout => exec_branch_outside rfl h (beq_iff_eq.2 ht) hout
  case beqOn => exact fun s c f x h ht => exec_branch_onward rfl h (beq_eq_false_iff_ne.2 ht)
  case bneIn => exact fun s c f x h ht hin => exec_branch_inside rfl h (bne_iff_ne.2 ht) hin
  case bneOut => exact fun s c f x h ht hout => exec_branch_outside rfl h (bne_iff_ne.2 ht) hout
  case bneOn => exact fun s c f x h ht => exec_branch_onward rfl h (bne_eq_false_iff_eq.2 ht)
  case bltIn => exact fun s c f x h ht hin => exec_branch_inside rfl h (decide_eq_true ht) hin
  case bltOut => exact fun s c f x h ht hout => exec_branch_outside rfl h (decide_eq_true ht) hout
  case bltOn => exact fun s c f x h ht => exec_branch_onward rfl h (decide_eq_false (not_lt.2 ht))
  case bgeIn =>
    exact fun s c f x h ht hin => exec_branch_inside rfl h (congrArg not (decide_eq_false (not_lt.2 ht))) hin
  case bgeOut =>
    exact fun s c f x h ht hout => exec_branch_outside rfl h (congrArg not (decide_eq_false (not_lt.2 ht))) hout
  case bgeOn => exact fun s c f x h ht => exec_branch_onward rfl h (congrArg not (decide_eq_true ht))
  case bltuIn => exact fun s c f x h ht hin => exec_branch_inside rfl h (decide_eq_true ht) hin
  case bltuOut => exact fun s c f x h ht hout => exec_branch_outside rfl h (decide_eq_true ht) hout
  case bltuOn => exact fun s c f x h ht => exec_branch_onward rfl h (decide_eq_false (not_lt.2 ht))
  case bgeuIn =>
    exact fun s c f x h ht hin => exec_branch_inside rfl h (congrArg not (decide_eq_false (not_lt.2 ht))) hin
  case bgeuOut =>
    exact fun s c f x h ht hout => exec_branch_outside rfl h (congrArg not (decide_eq_false (not_lt.2 ht))) hout
  case bgeuOn => exact fun s c f x h ht => exec_branch_onward rfl h (congrArg not (decide_eq_true ht))
  case jIn =>
    exact fun s c off x h hin => congrArg Host.Outcome.next ((State.inCtx_of_legal h rfl _).trans (State.jumpTo_inside hin))
  case jOut =>
    exact fun s c off x h hout => congrArg Host.Outcome.next ((State.inCtx_of_legal h rfl _).trans (State.jumpTo_outside hout))
  case jalIn =>
    intro s c off x h hin
    have hlen : (x.setS 62 (BitVec.ofNat 64 (x.pc + 1))).progLen = x.progLen := rfl
    rw [exec_jal_of_ready off h, if_pos hin, State.jumpTo_inside (by rwa [hlen])]
  case jalOut =>
    intro s c off x h hout
    rw [exec_jal_of_ready off h, if_neg (by omega)]
  case jrIn =>
    intro s c f x h ⟨hrd, hrb⟩ hin
    refine congrArg Host.Outcome.next ((State.inCtx_of_legal h (by rw [hrd, hrb]; rfl) _).trans ?_)
    exact State.jumpTo_inside (by omega)
  case jrOut =>
    intro s c f x h hbad
    refine congrArg Host.Outcome.next ((State.inCtx_of_ready h _ _).trans ?_)
    split
    next hlegal =>
      obtain ⟨hrd, hrb⟩ : f.rd = 0 ∧ f.rb = 0 := by simpa using hlegal
      exact State.jumpTo_outside (by simp only [hrd, hrb, ne_eq, not_true_eq_false, false_or] at hbad; omega)
    next => rfl
  case exception =>
    intro s c f x k h hk hopen hrb _
    have hexec : exec (.popc c f) s = .next (s.exception c x 1 0 .format) :=
      congrArg Host.Outcome.next ((State.inCtx_of_ready h _ _).trans (if_neg (by simpa using hrb)))
    exact ⟨_, hexec, State.exception_spec hk hopen rfl rfl⟩

end Sys2Proof.Machine
end

section
namespace Sys2Proof.Machine

/-! ### The line table of the ring arbiter (R130) -/

section
variable {s : State} {line : Nat} {q : RingReq} {rest : List RingReq} {r : RingLine}

theorem State.onLine_of_head (hlive : s.live = true) (hline : tget line s.home.lines = some r) (hqueue : r.queue = q :: rest)
    (f : RingLine → RingReq → State → State) : s.onLine line f = f r q s := by
  rw [State.onLine, State.whenLive_live hlive, hline]
  dsimp only
  rw [hqueue]

theorem State.tget_setLine_self (s : State) (line : Nat) (r : RingLine) : tget line (s.setLine line r).home.lines = some r :=
  tget_tset_self ..

theorem State.tget_setLine_ne (s : State) {line l : Nat} (h : l ≠ line) (r : RingLine) :
    tget l (s.setLine line r).home.lines = tget l s.home.lines :=
  tget_tset_ne h ..

theorem State.setLine_setLine (s : State) (line : Nat) (r r' : RingLine) : (s.setLine line r).setLine line r' = s.setLine line r' := by
  unfold State.setLine
  dsimp only
  rw [tset_tset]

/-- The snoop of a line for a requester, on ring A or ring B (R131). -/
def snoopMsg (line stop : Nat) (ringA : Bool) : Out :=
  .ring { code := 1, ringA := ringA, line := line, src := 0, dst := stop, owned := false, held := false, grant := 0 }

/-- A line whose snoop for the head of a queue has just gone out. -/
def RingLine.snooped (queue : List RingReq) : RingLine := { RingLine.fresh with queue := queue, phase := .snooping }

/-- A state after the snoop of a line for the head of its queue has gone out on both rings. -/
def State.snoopSent (s : State) (line : Nat) (q : RingReq) (rest : List RingReq) : State :=
  { s.setLine line (.snooped (q :: rest)) with out := s.out ++ [snoopMsg line q.stop true, snoopMsg line q.stop false] }

theorem State.issueSnoop_setLine (s : State) (line : Nat) (hqueue : r.queue = q :: rest) (hphase : r.phase = .waiting) :
    (s.setLine line r).issueSnoop line = s.snoopSent line q rest := by
  rw [State.issueSnoop, State.tget_setLine_self]
  dsimp only
  rw [hqueue]
  dsimp only
  rw [if_pos hphase, State.setLine_setLine, State.emit, State.emit, State.snoopSent]
  exact congrArg (fun o => { s.setLine line (.snooped (q :: rest)) with out := o }) (List.append_assoc ..)

/-- A request for an untracked line is snooped at once, where nothing waits for a place in the table. -/
theorem State.arbitrate_of_untracked (hnone : tget line s.home.lines = none) (hroom : s.home.lines.length < 256)
    (hin : s.home.ringIn = []) (hheld : s.home.ringHeld = []) : s.arbitrate line q = s.snoopSent line q [] := by
  have hfirst : ¬ (s.home.ringHeld ≠ [] ∨ (64 ≤ s.home.ringIn.length ∧
      (((tget line s.home.lines).isNone && decide (256 ≤ s.home.lines.length)) = true ∨ s.home.ringIn ≠ []))) := by
    simp [hin, hheld]
  rw [State.arbitrate]
  dsimp only
  rw [if_neg hfirst, if_neg (not_not.2 hin), State.enterLine, hnone]
  dsimp only
  rw [if_pos hroom, Option.getD_some]
  exact State.issueSnoop_setLine s line rfl rfl

theorem State.admitRing_of_empty (h : s.home.ringIn = []) (n : Nat) : s.admitRing n = s := by
  cases n with
  | zero => rfl
  | succ n => rw [State.admitRing, h]

/-- A line with no further request leaves the table. -/
theorem State.releaseLine_of_single (hline : tget line s.home.lines = some r) (hqueue : r.queue = [q]) (hin : s.home.ringIn = []) :
    s.releaseLine line = { s with home := { s.home with lines := terase line s.home.lines } } := by
  rw [State.releaseLine, hline]
  dsimp only
  rw [hqueue]
  dsimp only [List.drop]
  refine State.admitRing_of_empty ?_ _
  exact hin

theorem State.releaseLine_of_queued {q2 : RingReq} (hline : tget line s.home.lines = some r) (hqueue : r.queue = q :: q2 :: rest)
    (hin : s.home.ringIn = []) : s.releaseLine line = s.snoopSent line q2 rest := by
  rw [State.releaseLine, hline]
  dsimp only
  rw [hqueue]
  dsimp only [List.drop]
  rw [State.issueSnoop_setLine s line rfl rfl]
  refine State.admitRing_of_empty ?_ _
  exact hin

/-! ### A snoop at a stop (R131) -/

/-- A tile after a snoop of a line that it does not hold (Table 5-2). -/
def Tile.snooped (t : Tile) (own : Bool) (line : Nat) : Tile :=
  if own then t.drop [line] else { t.stale [line] with l1 := tmod line (fun st => if st = 4 then 4 else 1) t.l1 }

/-- An ownership snoop takes a line of state M, and another one leaves it in S. -/
theorem Tile.l1_snooped {t : Tile} (h : tget line t.l1 = some 3) (own : Bool) :
    tget line (t.snooped own line).l1 = if own then none else some 1 := by
  cases own with
  | true =>
    refine (tget_filter (fun l => !List.contains [line] l) line t.l1).trans (if_neg ?_)
    simp
  | false =>
    refine (congrArg (tget line) (tmod_of_tget h _)).trans ?_
    exact tget_tset_self ..

theorem State.snoopStop_of_tile {stop n l : Nat} (hreq : stop ≠ q.stop) (hhome : stop ≠ lineStop line) (hstop : stopTile stop = some n)
    (hlogical : s.logical n = some l) (owned : Bool) :
    s.snoopStop line stop q owned =
      ((s.snoopTile line l stop q).1, (s.snoopTile line l stop q).2.1, (s.snoopTile line l stop q).2.2, false) := by
  rw [State.snoopStop, if_neg hreq, if_neg hhome, hstop, Option.bind_some, hlogical]

theorem State.snoopTile_of_held {stop l : Nat} (h : line ∈ (s.tile l).held) : s.snoopTile line l stop q = (s, false, true) :=
  if_pos (List.contains_iff_mem.2 h)

theorem State.snoopTile_of_owner {stop l : Nat} (h : line ∉ (s.tile l).held) (howns : tget line (s.tile l).l1 = some 3) :
    s.snoopTile line l stop q = ((s.setTile l ((s.tile l).snooped q.own line)).emit (.lineData line stop q.stop), true, false) := by
  have hmodified : (s.tile l).owns line = true := by rw [Tile.owns, howns]; rfl
  rw [State.snoopTile]
  dsimp only
  rw [if_neg (mt List.contains_iff_mem.1 h), if_pos hmodified]
  rfl

theorem State.snoopStop_of_noTile {stop : Nat} (h : stopTile stop = none) (hhome : stop ≠ lineStop line) (owned : Bool) :
    s.snoopStop line stop q owned = (s, false, false, false) := by
  unfold State.snoopStop
  rw [if_neg hhome, h]
  exact ite_self _

/-- The state after a snoop of an owned line took the data from its tile. -/
def State.supplied (s : State) (line l stop : Nat) (q : RingReq) (r : RingLine) : State :=
  ((s.setTile l ((s.tile l).snooped q.own line)).emit (.lineData line stop q.stop)).setLine line r

theorem State.supplied_spec {l : Nat} (howns : tget line (s.tile l).l1 = some 3) (stop : Nat) (q : RingReq) (r : RingLine) :
    tget line ((s.supplied line l stop q r).tile l).l1 = (if q.own then none else some 1) := by
  have htile : (s.supplied line l stop q r).tile l = (s.tile l).snooped q.own line := State.tile_setTile_self ..
  rw [htile, Tile.l1_snooped howns]

/-! ### Both halves in, DONE, and the hold (R125, R126, R132) -/

/-- A state after the home granted a line: the data unless a tile sent it, then DONE. -/
def State.lineGranted (s : State) (line : Nat) (q : RingReq) (r : RingLine) : State :=
  { s.setLine line { r with spec := false, phase := .done } with
    out := s.out ++ (if r.ownedA || r.ownedB then [] else [.lineData line (lineStop line) q.stop]) ++
      [.ring { code := 3, ringA := onRingA (lineStop line) q.stop, line := line, src := lineStop line, dst := q.stop,
               owned := r.ownedA || r.ownedB, held := false, grant := s.grantOf line q.stop q.own }] }

theorem State.grantLine_setLine (s : State) (line : Nat) (hqueue : r.queue = q :: rest) :
    (s.setLine line r).grantLine line = s.lineGranted line q r := by
  cases r
  cases hqueue
  rw [State.grantLine, State.tget_setLine_self]
  dsimp only
  rw [State.setLine_setLine, State.lineGranted]
  dsimp only
  split
  · rw [List.append_nil]
    rfl
  · rfl

/-- The state in which an access waits for no copies. -/
def State.unasked (s : State) (id : Nat) (o : HomeOp) : State :=
  { s with home := { s.home with ops := tset id { o with waitInval := [], waitRepl := [] } s.home.ops } }

/-- Where no chip has a copy of an access's lines, none is asked for it (R128). -/
theorem State.askCopies_of_noCopies {id : Nat} {o : HomeOp} (ho : tget id s.home.ops = some o)
    (hnone : s.hasCopies o.acc.fpa (max 1 o.acc.act.len) = false) : s.askCopies id = s.unasked id o := by
  obtain ⟨hsharers, hdir⟩ := Bool.or_eq_false_iff.1 hnone
  have hinvals : s.sharersOf o.acc.fpa (max 1 o.acc.act.len) = [] := by simpa using hsharers
  have hrepls : ((s.dirOf o.acc.fpa).map (fun d => d.2.replicas ++ d.2.placing)).getD [] = [] := by
    cases hd : s.dirOf o.acc.fpa with
    | none => rfl
    | some d =>
      rw [hd] at hdir
      obtain ⟨hreplicas, hplacing⟩ : d.2.replicas = [] ∧ d.2.placing = [] := by simpa using hdir
      rw [Option.map_some, Option.getD_some, hreplicas, hplacing, List.append_nil]
  rw [State.askCopies, ho]
  dsimp only
  rw [hinvals, hrepls, State.modOp, tmod_of_tget ho]
  split
  all_goals rfl

/-- A ring request for ownership with no copies to wait for is granted. -/
theorem State.opReady_of_unasked {id : Nat} {o : HomeOp} (hline : o.line = some line) :
    (s.unasked id o).opReady id = (s.unasked id o).grantLine line := by
  have ho : tget id (s.unasked id o).home.ops = some { o with waitInval := [], waitRepl := [] } := tget_tset_self ..
  rw [State.opReady, ho]
  dsimp only
  rw [if_pos ⟨rfl, rfl⟩, hline]

/-- A ring request with no copies to remove is granted once both halves are in (R128). -/
theorem State.opReady_askCopies {o : HomeOp} (hqueue : r.queue = q :: rest) (ho : tget q.op s.home.ops = some o)
    (hline : o.line = some line) (hnone : s.hasCopies o.acc.fpa (max 1 o.acc.act.len) = false) :
    ((s.setLine line r).askCopies q.op).opReady q.op = (s.unasked q.op o).lineGranted line q r := by
  have hplain : (s.setLine line r).askCopies q.op = (s.unasked q.op o).setLine line r := State.askCopies_of_noCopies ho hnone
  have hready : ((s.unasked q.op o).setLine line r).opReady q.op = ((s.unasked q.op o).setLine line r).grantLine line :=
    State.opReady_of_unasked (s := s.setLine line r) hline
  rw [hplain, hready, State.grantLine_setLine _ line hqueue]

/-- HALF of one half, when the other is in. -/
theorem exec_half_second {ringA : Bool} {rb : RingLine} (hlive : s.live = true) (hline : tget line s.home.lines = some r)
    (hqueue : r.queue = q :: rest) (hphase : r.phase = .snooping) (hlast : (if ringA then r.posA = 43 else r.posB = 44))
    (hrb : rb = if ringA then { r with halfA := true } else { r with halfB := true }) (hboth : (rb.halfA && rb.halfB) = true) :
    exec (.half line ringA) s = settled
      (if rb.heldA || rb.heldB then
        (s.setLine line { rb with phase := .retry, spec := false }).ringMsg 5 line (lineStop line) 0 false true 0
      else if q.own = true ∧ (tget q.op s.home.ops).isSome = true then
        ((s.setLine line { rb with phase := .acks }).askCopies q.op).opReady q.op
      else (s.setLine line rb).grantLine line) := by
  have hin : ¬ (r.phase ≠ .snooping ∨ (if ringA then r.posA ≠ 43 else r.posB ≠ 44)) := by
    cases ringA <;> simp_all
  have hrest : (!(rb.halfA && rb.halfB)) ≠ true := by simp [hboth]
  refine congrArg settled ((State.onLine_of_head hlive hline hqueue _).trans ((if_neg hin).trans ?_))
  subst hrb
  exact if_neg hrest

/-- DONE at the requester's tile, for a request that no access waits for. -/
def State.won (s : State) (line l : Nat) (q : RingReq) (r : RingLine) : State :=
  ((s.winLine line l (s.grantOf line q.stop q.own) q.own).setLine line { r with phase := .fin }).ringMsg 4 line q.stop 0 false false 0

theorem exec_done_of_asked {n l : Nat} (hlive : s.live = true) (hline : tget line s.home.lines = some r) (hqueue : r.queue = q :: rest)
    (hphase : r.phase = .done) (hop : tget q.op s.home.ops = none) (hstop : stopTile q.stop = some n)
    (hlogical : s.logical n = some l) : exec (.done line) s = settled (s.won line l q r) := by
  have hnone : tget q.op (s.won line l q r).home.ops = none := hop
  refine congrArg settled ((State.onLine_of_head hlive hline hqueue _).trans ((if_neg (not_not.2 hphase)).trans ?_))
  rw [hstop, Option.bind_some, hlogical]
  dsimp only
  rw [← State.won, hnone]

/-- FIN: the arbiter releases the line, and the requester's tile may come to rest. -/
theorem exec_fin_cases (hlive : s.live = true) (hline : tget line s.home.lines = some r) (hqueue : r.queue = q :: rest)
    (hphase : r.phase = .fin) : exec (.fin line) s = .next (s.releaseLine line) ∨
      ∃ l, exec (.fin line) s = .next ((s.releaseLine line).restTile l) := by
  have hexec : exec (.fin line) s = .next (match (stopTile q.stop).bind (s.releaseLine line).logical with
      | some l => (s.releaseLine line).restTile l
      | none => s.releaseLine line) :=
    congrArg Host.Outcome.next ((State.onLine_of_head hlive hline hqueue _).trans (if_neg (not_not.2 hphase) :))
  rw [hexec]
  cases (stopTile q.stop).bind (s.releaseLine line).logical with
  | none => exact .inl rfl
  | some l => exact .inr ⟨l, rfl⟩

/-- What holds of every state that agrees with that of the released line, save for its registers and tiles, holds after FIN. -/
theorem Completes.fin {P : State → Prop} {u : State} (hlive : s.live = true) (hline : tget line s.home.lines = some r)
    (hqueue : r.queue = q :: rest) (hphase : r.phase = .fin) (hu : s.releaseLine line = u)
    (hP : ∀ regs tiles, P { u with regs := regs, home := { u.home with tiles := tiles } }) : Completes (.fin line) s P := by
  subst hu
  obtain hexec | ⟨l, hexec⟩ := exec_fin_cases hlive hline hqueue hphase
  · exact .of_next hexec (hP _ _)
  · refine .of_next hexec ?_
    rw [State.restTile_frame]
    exact hP _ _

/-- SNP at the next stop of ring A, short of its last. -/
theorem exec_snp_ringA {stop : Nat} (hlive : s.live = true) (hline : tget line s.home.lines = some r) (hqueue : r.queue = q :: rest)
    (hphase : r.phase = .snooping) (hstop : stop ≤ 42 ∧ stop = r.posA + 1) {u : State} {o h sp : Bool}
    (hsnoop : s.snoopStop line stop q r.ownedA = (u, o, h, sp)) :
    exec (.snp line stop) s =
      .next (u.setLine line { r with posA := stop, ownedA := r.ownedA || o, heldA := r.heldA || h, spec := r.spec || sp }) := by
  refine congrArg Host.Outcome.next ((State.onLine_of_head hlive hline hqueue _).trans ((if_neg (not_not.2 hphase)).trans ?_))
  rw [if_pos ⟨by omega, hstop.2⟩, hsnoop]
  exact if_neg (by omega)

/-- SNP at the last stop of ring A: HALF goes to the home. -/
theorem exec_snp_lastA (hlive : s.live = true) (hline : tget line s.home.lines = some r) (hqueue : r.queue = q :: rest)
    (hphase : r.phase = .snooping) (hstop : 43 = r.posA + 1) {u : State} {o h sp : Bool}
    (hsnoop : s.snoopStop line 43 q r.ownedA = (u, o, h, sp)) :
    exec (.snp line 43) s =
      .next ((u.setLine line { r with posA := 43, ownedA := r.ownedA || o, heldA := r.heldA || h, spec := r.spec || sp }).ringMsg
        2 line 43 (lineStop line) (r.ownedA || o) (r.heldA || h) 0) := by
  refine congrArg Host.Outcome.next ((State.onLine_of_head hlive hline hqueue _).trans ((if_neg (not_not.2 hphase)).trans ?_))
  rw [if_pos ⟨by omega, hstop⟩, hsnoop]
  exact if_pos rfl

/-- SNP at the next stop of ring B, short of its last. -/
theorem exec_snp_ringB {stop : Nat} (hlive : s.live = true) (hline : tget line s.home.lines = some r) (hqueue : r.queue = q :: rest)
    (hphase : r.phase = .snooping) (hstop : 45 ≤ stop ∧ stop + 1 = r.posB) {u : State} {o h sp : Bool}
    (hsnoop : s.snoopStop line stop q r.ownedB = (u, o, h, sp)) :
    exec (.snp line stop) s =
      .next (u.setLine line { r with posB := stop, ownedB := r.ownedB || o, heldB := r.heldB || h, spec := r.spec || sp }) := by
  refine congrArg Host.Outcome.next ((State.onLine_of_head hlive hline hqueue _).trans ((if_neg (not_not.2 hphase)).trans ?_))
  rw [if_neg (by omega), if_pos ⟨by omega, hstop.2⟩, hsnoop]
  exact if_neg (by omega)

/-- A REQ that no access sent opens one that asks for the line alone. -/
theorem exec_req_untracked {stop : Nat} {own : Bool} (hlive : s.live = true) (hstop : 1 ≤ stop ∧ stop ≤ 86)
    (hfused : (stopTile stop).any (bit s.boot.fuses.fused) = false) (hops : ∀ o ∈ s.home.ops, o.2.line ≠ some line)
    (hnone : tget line s.home.lines = none) (hroom : s.home.lines.length < 256) (hin : s.home.ringIn = [])
    (hheld : s.home.ringHeld = []) :
    ∃ o, exec (.req line stop own) s = .next ((s.openOp o).snoopSent line ⟨stop, own, s.home.nextOp⟩ []) := by
  have hplace : ¬ (stop = 0 ∨ 87 ≤ stop ∨ (stopTile stop).any (bit s.boot.fuses.fused) = true) := by
    rw [hfused]
    simp
    omega
  have hfind : s.home.ops.find? (fun (o : Nat × HomeOp) => o.2.line == some line && o.2.stop == stop && o.2.own == own &&
      o.2.sent && !o.2.queued) = none := by
    refine List.find?_eq_none.2 fun o ho => ?_
    simp [hops o ho]
  refine ⟨{ (s.hereAccess (line * 128) 0 (.write []) .drop none none).op stop 137 with
    tile := (stopTile stop).bind s.logical, own := own, line := some line, sent := true, queued := true }, ?_⟩
  refine congrArg Host.Outcome.next ((State.whenLive_live hlive _).trans ((if_neg hplace).trans ?_))
  rw [hfind]
  exact State.arbitrate_of_untracked hnone hroom hin hheld

end

/-- Settles O17: each message of the arbiter acts on the head of its line, as the equations of its row above say. -/
theorem ringArbiterSerialisesLines : Obligations.RingArbiterSerialisesLines := by
  unfold Obligations.RingArbiterSerialisesLines
  refine ⟨?req, ?snpA, ?snpB, ?snpHeld, ?snpLast, ?halfRead, ?halfOwn, ?halfRetry, ?done, ?finAlone, ?finNext, ?retry, ?reissue, ?expiry⟩
  case req =>
    intro s line stop own hlive hstop hfused hops hnone hroom hin hheld
    obtain ⟨o, hexec⟩ := exec_req_untracked hlive hstop hfused hops hnone hroom hin hheld (own := own)
    exact .of_next hexec ⟨State.tget_setLine_self .., rfl, fun l hl => State.tget_setLine_ne _ hl _, rfl⟩
  case snpA =>
    intro s line stop n l q rest r hlive hline hqueue hphase hstop hreq hhome hn hl hheld howns
    have hsnoop := State.snoopStop_of_tile hreq hhome hn hl r.ownedA
    rw [State.snoopTile_of_owner hheld howns] at hsnoop
    have hexec := exec_snp_ringA hlive hline hqueue hphase hstop hsnoop
    rw [Bool.or_true, Bool.or_false, Bool.or_false] at hexec
    exact .of_next hexec ⟨State.tget_setLine_self .., State.supplied_spec howns stop q _, rfl, rfl, rfl, rfl⟩
  case snpB =>
    intro s line stop n l q rest r hlive hline hqueue hphase hstop hreq hhome hn hl hheld howns
    have hsnoop := State.snoopStop_of_tile hreq hhome hn hl r.ownedB
    rw [State.snoopTile_of_owner hheld howns] at hsnoop
    have hexec := exec_snp_ringB hlive hline hqueue hphase hstop hsnoop
    rw [Bool.or_true, Bool.or_false, Bool.or_false] at hexec
    exact .of_next hexec ⟨State.tget_setLine_self .., State.supplied_spec howns stop q _, rfl, rfl, rfl, rfl⟩
  case snpHeld =>
    intro s line stop n l q rest r hlive hline hqueue hphase hstop hreq hhome hn hl hheld
    have hsnoop := State.snoopStop_of_tile hreq hhome hn hl r.ownedA
    rw [State.snoopTile_of_held hheld] at hsnoop
    have hexec := exec_snp_ringA hlive hline hqueue hphase hstop hsnoop
    rw [Bool.or_true, Bool.or_false, Bool.or_false] at hexec
    exact .of_next hexec ⟨State.tget_setLine_self .., rfl⟩
  case snpLast =>
    intro s line q rest r hlive hline hqueue hphase hpos hhome
    have hsnoop : s.snoopStop line 43 q r.ownedA = _ := State.snoopStop_of_noTile rfl hhome.symm _
    have hexec := exec_snp_lastA hlive hline hqueue hphase (by omega) hsnoop
    rw [Bool.or_false, Bool.or_false, Bool.or_false] at hexec
    exact .of_next hexec ⟨State.tget_setLine_self .., rfl, rfl⟩
  case halfRead =>
    intro s line q rest r hlive hfin hline hqueue hphase hpos hhalf hheldA hheldB hown
    have hexec := exec_half_second (ringA := false) hlive hline hqueue hphase hpos rfl (by simp [hhalf])
    rw [if_neg Bool.false_ne_true, if_neg (by simp [hheldA, hheldB]), if_neg (by simp [hown]),
      State.grantLine_setLine s line (rest := rest) (by exact hqueue), State.lineGranted, hown] at hexec
    exact .of_settled hexec hfin ⟨State.tget_setLine_self .., rfl, rfl⟩
  case halfOwn =>
    intro s line q rest r o hlive hfin hline hqueue hphase hpos hhalf hheldA hheldB hown hop hopLine hcopies
    have hexec := exec_half_second (ringA := false) hlive hline hqueue hphase hpos rfl (by simp [hhalf])
    rw [if_neg Bool.false_ne_true, if_neg (by simp [hheldA, hheldB]), if_pos ⟨hown, by rw [hop]; rfl⟩,
      State.opReady_askCopies (rest := rest) (by exact hqueue) hop hopLine hcopies, State.lineGranted, hown] at hexec
    exact .of_settled hexec hfin ⟨State.tget_setLine_self .., rfl, rfl⟩
  case halfRetry =>
    intro s line q rest r hlive hfin hline hqueue hphase hpos hhalf hheld
    have hexec := exec_half_second (ringA := true) hlive hline hqueue hphase hpos rfl (by simp [hhalf])
    rw [if_pos rfl, if_pos (by simpa using hheld)] at hexec
    exact .of_settled hexec hfin ⟨State.tget_setLine_self .., rfl, rfl⟩
  case done =>
    intro s line n l q rest r hlive hfin hline hqueue hphase hop hn hl
    have hexec := exec_done_of_asked hlive hline hqueue hphase hop hn hl
    have htile : (s.won line l q r).tile l = { s.tile l with
        l1 := tset line (s.grantOf line q.stop q.own) (s.tile l).l1
        held := if q.own && !(s.tile l).owns line then line :: (s.tile l).held.filter (· != line) else (s.tile l).held } :=
      State.tile_setTile_self ..
    refine .of_settled hexec hfin ⟨?_, ?_, State.tget_setLine_self .., rfl, rfl⟩
    · rw [htile]
      exact tget_tset_self ..
    · rw [htile]
  case finAlone =>
    intro s line q r hlive hline hqueue hphase hin
    exact .fin hlive hline hqueue hphase (State.releaseLine_of_single hline hqueue hin) fun _ _ =>
      ⟨tget_terase_self .., fun l hl => tget_terase_ne hl _, rfl, rfl⟩
  case finNext =>
    intro s line q q2 rest r hlive hline hqueue hphase hin
    exact .fin hlive hline hqueue hphase (State.releaseLine_of_queued hline hqueue hin) fun _ _ =>
      ⟨State.tget_setLine_self .., fun l hl => State.tget_setLine_ne _ hl _, rfl, rfl⟩
  case retry =>
    intro s line q rest r hlive hline hqueue hphase
    have hexec : exec (.retry line) s = .next (s.setLine line { r with phase := .retried }) :=
      congrArg Host.Outcome.next ((State.onLine_of_head hlive hline hqueue _).trans (if_pos hphase))
    exact .of_next hexec ⟨State.tget_setLine_self .., rfl⟩
  case reissue =>
    intro s line q rest r hlive hline hqueue hphase
    have hexec : exec (.snoopReissue line) s =
        .next ((s.modTiles (fun _ t => { t with held := t.held.filter (· != line) })).snoopSent line q rest) :=
      congrArg Host.Outcome.next ((State.onLine_of_head hlive hline hqueue _).trans ((if_pos hphase).trans
        (State.issueSnoop_setLine _ line hqueue rfl)))
    refine .of_next hexec ⟨State.tget_setLine_self .., ?_, rfl, rfl⟩
    intro e he
    obtain ⟨t, -, rfl⟩ := List.mem_map.1 he
    simp
  case expiry =>
    intro s tile line hlive
    have hexec : exec (.holdExpiry tile line) s =
        .next (s.setTile tile { s.tile tile with held := (s.tile tile).held.filter (· != line) }) :=
      congrArg Host.Outcome.next (State.whenLive_live hlive _)
    refine .of_next hexec ?_
    rw [State.tile_setTile_self]
    refine ⟨by simp, fun l hl => ?_, rfl, rfl⟩
    by_cases h : l = line
    · exact .inl h
    · exact .inr (List.mem_filter.2 ⟨hl, by simpa using h⟩)

end Sys2Proof.Machine
end

section
namespace Sys2Proof.Machine

/-! ### A tile leaves service and returns (R137, R446) -/

section
variable {s : State} {c : At} {n l : Nat} {x : Ctx} {k : Clause}

theorem State.restTile_of_idle (hstate : s.get (R.TILE_STAT_STATE (s.phys l)) = 1) (hctxs : (s.tile l).ctxs = [])
    (hentries : (s.tile l).entries = []) (hstores : (s.tile l).stores = []) (hasks : s.tileAsks l = false) :
    s.restTile l = (s.setTile l { s.tile l with l1 := [], copies := [], held := [] }).set (R.TILE_STAT_STATE (s.phys l)) 2 :=
  if_pos ⟨hstate, hctxs, hentries, hstores, by rw [hasks]; rfl⟩

theorem State.restTile_of_ctxs (h : (s.tile l).ctxs ≠ []) : s.restTile l = s :=
  if_neg (fun hidle => h hidle.2.1)

theorem State.restTile_of_state (h : s.get (R.TILE_STAT_STATE (s.phys l)) ≠ 1) : s.restTile l = s :=
  if_neg (fun hidle => h hidle.1)

theorem State.logical_lt (h : s.logical n = some l) : n < 50 := by
  unfold State.logical at h
  split at h
  next hn => exact hn.1
  next => cases h

theorem tileEnable_key_ne_state (n : Nat) : (R.TILE_CTL_ENABLE n).key ≠ (R.TILE_STAT_STATE n).key := by
  simp only [R.TILE_CTL_ENABLE, R.TILE_STAT_STATE]
  omega

/-- A tile whose ENABLE has just been cleared drains. -/
def State.draining (s : State) (n : Nat) : State := (s.set (R.TILE_CTL_ENABLE n) 0).set (R.TILE_STAT_STATE n) 1

theorem State.get_draining (s : State) (n : Nat) :
    (s.draining n).get (R.TILE_CTL_ENABLE n) = 0 ∧ (s.draining n).get (R.TILE_STAT_STATE n) = 1 := by
  refine ⟨?_, State.get_set_self ..⟩
  rw [State.draining, State.get_set_ne _ _ (tileEnable_key_ne_state n)]
  exact State.get_set_self ..

theorem State.draining_onlyFields (s : State) (n : Nat) :
    OnlyFields [R.TILE_CTL_ENABLE n, R.TILE_STAT_STATE n] s (s.draining n) :=
  ((OnlyFields.refl _ s).set (by simp)).set (by simp)

theorem State.tileDown_of_active (hl : s.logical n = some l) (hstate : s.get (R.TILE_STAT_STATE n) = 0) :
    s.tileDown n = ((s.ctxsOf l).foldl (fun s c => s.returnClause l c) (s.draining n)).restTile l := by
  have hactive : (s.set (R.TILE_CTL_ENABLE n) 0).get (R.TILE_STAT_STATE n) = 0 := by
    rw [State.get_set_ne _ _ (tileEnable_key_ne_state n).symm, hstate]
  rw [State.tileDown, hl]
  exact if_pos hactive

theorem State.enableTile_of_fused (hl : s.logical n = none) (on : Bool) : s.enableTile n on = s := by
  cases on with
  | true => rw [State.enableTile, if_pos rfl, State.tileUp, hl]
  | false => rw [State.enableTile, if_neg Bool.false_ne_true, State.tileDown, hl]

/-- A write of TILE_CTL.ENABLE of a fused tile does nothing, whether the chip runs or not. -/
theorem exec_enableTile_fused (hl : s.logical n = none) (hfin : s.home.finished = []) (on : Bool) :
    settled (s.whenLive (fun s => s.enableTile n on)) = .next s := by
  have hsame : s.whenLive (fun s => s.enableTile n on) = s := by
    rw [State.whenLive, State.enableTile_of_fused hl]
    exact ite_self _
  rw [hsame, settled_of_finished_nil hfin]

/-- A clause that has started keeps its context. -/
theorem State.returnClause_of_timed (hx : s.ctx c = some x) (hk : s.clauseAt x.clause = some k) (htimed : k.timed = true) :
    s.returnClause l c = s := by
  rw [State.returnClause, hx]
  dsimp only
  rw [hk]
  exact if_pos (.inl htimed)

theorem State.ctxsOf_single (h : (s.tile c.tile).ctxs = [(c.ctx, x)]) : s.ctxsOf c.tile = [c] := by
  rw [State.ctxsOf, h]
  rfl

theorem State.ctx_of_single (h : (s.tile c.tile).ctxs = [(c.ctx, x)]) : s.ctx c = some x := by
  rw [State.ctx, h]
  exact if_pos rfl

/-- A tile without contexts, entries, stores and requests reads DISABLED at once. -/
theorem State.tileDown_of_idle (hl : s.logical n = some l) (hn : s.phys l = n) (hstate : s.get (R.TILE_STAT_STATE n) = 0)
    (hctxs : (s.tile l).ctxs = []) (hentries : (s.tile l).entries = []) (hstores : (s.tile l).stores = [])
    (hasks : s.tileAsks l = false) :
    s.tileDown n = ((s.draining n).setTile l { s.tile l with l1 := [], copies := [], held := [] }).set (R.TILE_STAT_STATE n) 2 := by
  have hnone : s.ctxsOf l = [] := by rw [State.ctxsOf, hctxs]; rfl
  subst hn
  rw [State.tileDown_of_active hl hstate, hnone]
  exact State.restTile_of_idle (s.get_draining _).2 hctxs hentries hstores hasks

/-- A tile that runs a started clause stays DRAINING. -/
theorem State.tileDown_of_timed (hl : s.logical n = some c.tile) (hstate : s.get (R.TILE_STAT_STATE n) = 0)
    (hctxs : (s.tile c.tile).ctxs = [(c.ctx, x)]) (hk : s.clauseAt x.clause = some k) (htimed : k.timed = true) :
    s.tileDown n = s.draining n := by
  have hkept : (s.draining n).returnClause c.tile c = s.draining n :=
    State.returnClause_of_timed (State.ctx_of_single (s := s.draining n) hctxs) hk htimed
  have hbusy : ((s.draining n).tile c.tile).ctxs ≠ [] := by
    have hsame : ((s.draining n).tile c.tile).ctxs = [(c.ctx, x)] := hctxs
    rw [hsame]
    exact List.cons_ne_nil _ _
  rw [State.tileDown_of_active hl hstate, State.ctxsOf_single hctxs, List.foldl_cons, List.foldl_nil, hkept]
  exact State.restTile_of_ctxs hbusy

theorem State.tileUp_of_disabled (hl : s.logical n = some l) (hstate : s.get (R.TILE_STAT_STATE n) = 2) :
    s.tileUp n = (s.set (R.TILE_CTL_ENABLE n) 1).set (R.TILE_STAT_STATE n) 0 := by
  rw [State.tileUp, hl]
  exact if_pos hstate

theorem State.tileUp_of_other (hl : s.logical n = some l) (hstate : s.get (R.TILE_STAT_STATE n) ≠ 2) :
    s.tileUp n = s.set (R.TILE_STAT_REFUSED n) 1 := by
  rw [State.tileUp, hl]
  exact if_neg hstate

/-! ### The drain timeout of a tile (R137, R162) -/

/-- A tile that drains, with at most one context on it, and nothing else that outlives that context. -/
structure State.Draining (s : State) (c : At) (n : Nat) (x : Ctx) : Prop where
  phys : s.phys c.tile = n
  state : s.get (R.TILE_STAT_STATE n) = 1 ∨ s.get (R.TILE_STAT_STATE n) = 2
  ctxs : (s.tile c.tile).ctxs = [(c.ctx, x)] ∨ (s.tile c.tile).ctxs = [] ∧ (s.tile c.tile).entries = []
  entries : ∀ e ∈ (s.tile c.tile).entries, e.2.ctx = c.ctx
  stores : (s.tile c.tile).stores = []
  asks : s.tileAsks c.tile = false

/-- What keeps a tile draining: the tile, its STATE, and what asks the rings for it. -/
theorem State.Draining.congr {t : State} (h : s.Draining c n x) (hboot : t.boot = s.boot)
    (hstate : t.get (R.TILE_STAT_STATE n) = s.get (R.TILE_STAT_STATE n)) (htile : t.tile c.tile = s.tile c.tile)
    (hasks : t.tileAsks c.tile = s.tileAsks c.tile) : t.Draining c n x where
  phys := by rw [State.phys, hboot]; exact h.phys
  state := by rw [hstate]; exact h.state
  ctxs := by rw [htile]; exact h.ctxs
  entries := by rw [htile]; exact h.entries
  stores := by rw [htile]; exact h.stores
  asks := by rw [hasks]; exact h.asks

/-- No context that ends, of this tile or another, makes a draining tile ACTIVE. -/
theorem State.get_endCtx_state (s : State) (c' : At) (n : Nat) :
    (s.endCtx c').get (R.TILE_STAT_STATE n) = s.get (R.TILE_STAT_STATE n) ∨ (s.endCtx c').get (R.TILE_STAT_STATE n) = 2 := by
  obtain h | h := State.restTile_cases (s.setTile c'.tile { s.tile c'.tile with
    ctxs := terase c'.ctx (s.tile c'.tile).ctxs, entries := (s.tile c'.tile).entries.filter (fun e => e.2.ctx != c'.ctx) }) c'.tile
  · exact .inl (by rw [State.endCtx, h]; rfl)
  · by_cases hkey : (R.TILE_STAT_STATE n).key = (R.TILE_STAT_STATE (s.phys c'.tile)).key
    · have hn : s.phys c'.tile = n := by
        simp only [R.TILE_STAT_STATE] at hkey
        omega
      refine .inr ?_
      rw [State.endCtx, h, ← hn]
      exact State.get_set_self ..
    · exact .inl (State.get_endCtx hkey)

theorem State.ctxs_endCtx (s : State) (c : At) : ((s.endCtx c).tile c.tile).ctxs = terase c.ctx (s.tile c.tile).ctxs := by
  rw [State.endCtx, (State.tile_restTile_self _ c.tile).1, State.tile_setTile_self]

theorem State.stores_endCtx (s : State) (c : At) : ((s.endCtx c).tile c.tile).stores = (s.tile c.tile).stores := by
  rw [State.endCtx, (State.tile_restTile_self _ c.tile).2.2, State.tile_setTile_self]

theorem State.tileAsks_endCtx (s : State) (c : At) (l : Nat) : (s.endCtx c).tileAsks l = s.tileAsks l := by
  rw [State.endCtx_frame]
  rfl

theorem State.phys_endCtx (s : State) (c : At) (l : Nat) : (s.endCtx c).phys l = s.phys l := by
  rw [State.endCtx_frame]
  rfl

/-- After the context of the tile ended, nothing is left on it. -/
theorem State.Draining.endCtx_self (h : s.Draining c n x) :
    ((s.endCtx c).tile c.tile).ctxs = [] ∧ ((s.endCtx c).tile c.tile).entries = [] := by
  have hnone : (s.tile c.tile).entries.filter (fun e => e.2.ctx != c.ctx) = [] :=
    List.filter_eq_nil_iff.2 (fun e he => by simp [h.entries e he])
  rw [State.ctxs_endCtx, State.entries_endCtx, hnone]
  refine ⟨?_, rfl⟩
  obtain hone | ⟨hempty, -⟩ := h.ctxs
  · rw [hone]
    exact if_pos rfl
  · rw [hempty]
    rfl

theorem State.Draining.endCtx (h : s.Draining c n x) (c' : At) : (s.endCtx c').Draining c n x where
  phys := (s.phys_endCtx ..).trans h.phys
  state := by
    obtain hsame | hrest := s.get_endCtx_state c' n
    · rw [hsame]
      exact h.state
    · exact .inr hrest
  ctxs := by
    by_cases htile : c.tile = c'.tile
    · by_cases hctx : c.ctx = c'.ctx
      · have hc : c' = c := by cases c; cases c'; simp_all
        subst hc
        exact .inr h.endCtx_self
      · obtain hone | ⟨hempty, hentries⟩ := h.ctxs
        · refine .inl ?_
          rw [htile, State.ctxs_endCtx, ← htile, hone]
          exact if_neg hctx
        · refine .inr ⟨?_, ?_⟩
          · rw [htile, State.ctxs_endCtx, ← htile, hempty]
            rfl
          · rw [htile, State.entries_endCtx, ← htile, hentries]
            rfl
    · rw [State.tile_endCtx_ne htile]
      exact h.ctxs
  entries := by
    by_cases htile : c.tile = c'.tile
    · rw [htile, State.entries_endCtx, ← htile]
      exact fun e he => h.entries e (List.mem_filter.1 he).1
    · rw [State.tile_endCtx_ne htile]
      exact h.entries
  stores := by
    by_cases htile : c.tile = c'.tile
    · rw [htile, State.stores_endCtx, ← htile]
      exact h.stores
    · rw [State.tile_endCtx_ne htile]
      exact h.stores
  asks := (s.tileAsks_endCtx ..).trans h.asks

/-- A draining tile on which nothing is left reads DISABLED. -/
theorem State.Draining.rest (h : s.Draining c n x) (hctxs : (s.tile c.tile).ctxs = []) (hentries : (s.tile c.tile).entries = []) :
    (s.restTile c.tile).get (R.TILE_STAT_STATE n) = 2 ∧ ((s.restTile c.tile).tile c.tile).ctxs = [] := by
  refine ⟨?_, (State.tile_restTile_self s c.tile).1.trans hctxs⟩
  obtain hone | htwo := h.state
  · rw [State.restTile_of_idle (by rw [h.phys]; exact hone) hctxs hentries h.stores h.asks, h.phys]
    exact State.get_set_self ..
  · rw [State.restTile_of_state (by rw [h.phys, htwo]; decide)]
    exact htwo

/-- The last context of a draining tile ends: the tile reads DISABLED at once. -/
theorem State.endCtx_of_last (hn : s.phys c.tile = n) (hstate : s.get (R.TILE_STAT_STATE n) = 1)
    (hctxs : (s.tile c.tile).ctxs = [(c.ctx, x)]) (hentries : ∀ e ∈ (s.tile c.tile).entries, e.2.ctx = c.ctx)
    (hstores : (s.tile c.tile).stores = []) (hasks : s.tileAsks c.tile = false) :
    ∃ y : Tile, y.l1 = [] ∧ y.ctxs = [] ∧ y.entries = [] ∧ s.endCtx c = (s.setTile c.tile y).set (R.TILE_STAT_STATE n) 2 := by
  have hgone : terase c.ctx (s.tile c.tile).ctxs = [] := by
    rw [hctxs]
    exact if_pos rfl
  have hnone : (s.tile c.tile).entries.filter (fun e => e.2.ctx != c.ctx) = [] :=
    List.filter_eq_nil_iff.2 (fun e he => by simp [hentries e he])
  subst hn
  have hrest : s.endCtx c = _ := State.restTile_of_idle hstate (by rw [State.tile_setTile_self]; exact hgone)
    (by rw [State.tile_setTile_self]; exact hnone) (by rw [State.tile_setTile_self]; exact hstores) hasks
  rw [State.setTile_setTile] at hrest
  refine ⟨_, rfl, ?_, ?_, hrest⟩
  · rw [State.tile_setTile_self]
    exact hgone
  · rw [State.tile_setTile_self]
    exact hnone

/-- What events in the fault log and a count of aborted clauses leave alone. -/
structure State.EventsLogged (s t : State) : Prop where
  frame : t = { s with regs := t.regs, tele := t.tele, nelar := t.nelar, out := t.out }
  fields : OnlyFields [R.FAULT_STAT_LOG_ENTRIES, R.TELE_STAT_SEQ, R.FAULT_STAT_EVENTS_LOST, R.FAULT_ECC_ABORTS] s t

theorem State.EventsLogged.refl (s : State) : s.EventsLogged s := ⟨rfl, .refl _ _⟩

theorem State.EventsLogged.logFault {t : State} (h : s.EventsLogged t) (event addr partition code : Nat) :
    s.EventsLogged (t.logFault event addr partition code) where
  frame := by rw [State.logFault_frame, h.frame]
  fields := h.fields.trans ((t.logFault_onlyFields event addr partition code).mono (by simp))

theorem State.EventsLogged.aborts {t : State} (h : s.EventsLogged t) : s.EventsLogged (t.count R.FAULT_ECC_ABORTS) where
  frame := by rw [h.frame]; rfl
  fields := h.fields.set (by simp)

theorem State.Draining.logged {t : State} (h : s.Draining c n x) (ht : s.EventsLogged t) : t.Draining c n x := by
  refine h.congr (by rw [ht.frame]) (ht.fields _ ?_) (by rw [ht.frame]; rfl) (by rw [ht.frame]; rfl)
  simp only [List.mem_cons, List.not_mem_nil, or_false, forall_eq_or_imp, forall_eq, R.TILE_STAT_STATE, R.FAULT_STAT_LOG_ENTRIES,
    R.TELE_STAT_SEQ, R.FAULT_STAT_EVENTS_LOST, R.FAULT_ECC_ABORTS]
  omega

/-- Giving up tiles changes tiles and their STATE fields alone. -/
theorem State.giveTiles_frame (s : State) (k : Clause) :
    s.giveTiles k = { s with regs := (s.giveTiles k).regs, home := { s.home with tiles := (s.giveTiles k).home.tiles } } :=
  State.foldl_keeps (Q := fun t => t = { s with regs := t.regs, home := { s.home with tiles := t.home.tiles } }) rfl
    fun t ht c _ => by rw [State.endCtx_frame, ht]

theorem State.Draining.giveTiles (h : s.Draining c n x) (k : Clause) : (s.giveTiles k).Draining c n x :=
  State.foldl_keeps (Q := fun t => t.Draining c n x) h fun _ ht c' _ => ht.endCtx c'

/-- A clause without an ending gives up its tiles, leaves every list of waiters, and takes the ending. -/
theorem State.endClause_of_open {id : Nat} (hk : s.clauseAt id = some k) (hopen : k.ending = none) (hstage : k.stage ≠ .done)
    (e : Ending) : s.endClause id e = ((s.giveTiles k).unlisted id).setClause id (k.ended e) := by
  have hgoes : ¬ (k.ending.isSome ∨ k.stage = .done) := by simp [hopen, hstage]
  have hkept : ((s.giveTiles k).unlisted id).clauseAt id = some k := by
    rw [State.giveTiles_frame]
    exact hk
  have hunwait : (s.giveTiles k).unwait id = ((s.giveTiles k).unlisted id).setClause id { k with
      waitsOn := [], lacking := [], untriggered := false, stage := if k.stage = Stage.parked then Stage.running else k.stage } :=
    State.modClause_of_clauseAt hkept _
  rw [State.endClause, hk]
  dsimp only
  rw [if_neg hgoes, hunwait, State.modClause_setClause, Clause.endWith]
  dsimp only
  rw [hopen]
  rfl

/-- A clause of a draining tile ends with ERR_ABORTED, and leaves the tile draining or at rest. -/
theorem State.Draining.abortClause (h : s.Draining c n x) {id : Nat} (hk : s.clauseAt id = some k) (hopen : k.ending = none)
    (hstage : k.stage ≠ .done) :
    (s.abortClause id).Draining c n x ∧ (s.abortClause id).mem = s.mem ∧ (s.abortClause id).home.finished = s.home.finished ∧
      (s.abortClause id).work.clauses =
        tset id (k.ended (ending .aborted (if k.timed then k.segment - 1 else noSeg) 0)) s.work.clauses := by
  let u := s.endClause id (ending .aborted (if k.timed then k.segment - 1 else noSeg) 0)
  have hu : u = ((s.giveTiles k).unlisted id).setClause id _ := State.endClause_of_open hk hopen hstage _
  have hlogged : u.EventsLogged (s.abortClause id) := by
    have hgoes : ¬ (k.ending.isSome ∨ k.stage = .done) := by simp [hopen, hstage]
    rw [State.abortClause, hk]
    dsimp only
    rw [if_neg hgoes]
    exact (State.foldl_keeps (Q := fun t => u.EventsLogged t) (.refl u) fun _ ht a _ => ht.logFault 1 a _ 6).aborts
  have hdraining : u.Draining c n x := by
    rw [hu]
    exact (h.giveTiles k).congr rfl rfl rfl rfl
  refine ⟨hdraining.logged hlogged, ?_, ?_, ?_⟩
  all_goals
    rw [hlogged.frame, hu, State.giveTiles_frame]
    rfl

theorem State.tileExpired_of_single (hl : s.logical n = some c.tile) (hstate : s.get (R.TILE_STAT_STATE n) = 1)
    (hctxs : (s.tile c.tile).ctxs = [(c.ctx, x)]) :
    s.tileExpired n = (((s.abortClause x.clause).ctxsOf c.tile).foldl (fun s c => s.endCtx c) (s.abortClause x.clause)).restTile c.tile := by
  rw [State.tileExpired, hl]
  dsimp only
  rw [if_neg (not_not.2 hstate), hctxs]
  rfl

/-- The contexts left on a draining tile end, and the tile reads DISABLED. -/
theorem State.Draining.endCtxs (h : s.Draining c n x) {t : State}
    (ht : t = ((s.ctxsOf c.tile).foldl (fun s c => s.endCtx c) s).restTile c.tile) :
    t.get (R.TILE_STAT_STATE n) = 2 ∧ (t.tile c.tile).ctxs = [] ∧
      t = { s with regs := t.regs, home := { s.home with tiles := t.home.tiles } } := by
  obtain hone | ⟨hctxs, hentries⟩ := h.ctxs
  · rw [State.ctxsOf_single hone, List.foldl_cons, List.foldl_nil] at ht
    obtain ⟨hctxs, hentries⟩ := h.endCtx_self
    obtain ⟨hstate, hnone⟩ := (h.endCtx c).rest hctxs hentries
    rw [← ht] at hstate hnone
    refine ⟨hstate, hnone, ?_⟩
    rw [ht, State.restTile_frame, State.endCtx_frame]
  · have hnone : s.ctxsOf c.tile = [] := by rw [State.ctxsOf, hctxs]; rfl
    rw [hnone, List.foldl_nil] at ht
    obtain ⟨hstate, hempty⟩ := h.rest hctxs hentries
    rw [← ht] at hstate hempty
    exact ⟨hstate, hempty, ht ▸ State.restTile_frame ..⟩

end
end Sys2Proof.Machine
end

section
namespace Sys2Proof.Machine

/-! ### The transaction timeout (R445), and the marks of FAULT_MARK (R447, R452) -/

section
variable {s : State} {u : Nat}

theorem State.faultEvent_congr {t : State} (h : t.get R.CLK_LOCALTICK_TICK = s.get R.CLK_LOCALTICK_TICK)
    (event addr partition code : Nat) : t.faultEvent event addr partition code = s.faultEvent event addr partition code := by
  rw [State.faultEvent, State.faultEvent, State.tick, State.tick, h]

theorem State.logFault_log (s : State) (event addr partition code : Nat) :
    (s.logFault event addr partition code).tele.log = (s.faultEvent event addr partition code :: s.tele.log).take 1024 := by
  rw [(s.logFault_notifies event addr partition code).frame]
  rfl

theorem State.logFault_reach (s : State) (event addr partition code : Nat) :
    (s.logFault event addr partition code).tele.reach = s.tele.reach := by
  rw [(s.logFault_notifies event addr partition code).frame]
  rfl

/-- With EVENTS_EN 0 an event is recorded, and no more. -/
theorem State.logFault_of_silent (h : s.flag R.TELE_CTL_EVENTS_EN = false) (event addr partition code : Nat) :
    s.logFault event addr partition code = s.recordFault (s.faultEvent event addr partition code) := by
  have hsilent : (s.recordFault (s.faultEvent event addr partition code)).flag R.TELE_CTL_EVENTS_EN = false := by
    rw [← h, State.flag, State.flag, State.recordFault, State.get_set_ne _ _ (by decide)]
    rfl
  exact if_neg (Bool.eq_false_iff.1 hsilent)

/-- A tag whose request may still be answered is quarantined at its timeout. -/
def State.quarantined (s : State) (tag : Nat) (r : Track) : State :=
  { s with fabric := { s.fabric with track := tset tag { r with quarantined := true } s.fabric.track } }

theorem State.tagExpired_of_open {tag : Nat} {r : Track} (hr : tget tag s.fabric.track = some r) (hopen : r.quarantined = false) :
    s.tagExpired tag =
      (if r.spec then s.quarantined tag r
       else ((s.quarantined tag r).count R.FAULT_COUNT_TIMEOUTS).logFault 4 r.dest r.partition (Err.code .timeout)).finish r.cont
        .timeout [] := by
  rw [State.tagExpired, hr]
  exact if_neg (by rw [hopen]; exact Bool.false_ne_true)

theorem State.tagExpired_of_quarantined {tag : Nat} {r : Track} (hr : tget tag s.fabric.track = some r)
    (hdone : r.quarantined = true) : s.tagExpired tag = s := by
  rw [State.tagExpired, hr]
  exact if_pos hdone

theorem exec_transactionTimeout_tag {tag : Nat} (hlive : s.live = true) (htag : tag < 131072) :
    exec (.transactionTimeout tag) s = settled (s.tagExpired tag) :=
  congrArg settled ((State.whenLive_live hlive _).trans (if_pos htag))

/-- A chip of whose state the event and the count of a timeout are all that changes stays calm. -/
theorem State.calm_logFault {t : State} (h : Calm s) (hfin : t.home = s.home) (hwork : t.work = s.work) (hparser : t.parser = s.parser)
    (hptus : t.ptus = s.ptus)
    (hfields : OnlyFields [R.FAULT_COUNT_TIMEOUTS, R.FAULT_STAT_LOG_ENTRIES, R.TELE_STAT_SEQ, R.FAULT_STAT_EVENTS_LOST] s t) :
    Calm t := by
  refine h.congr (by rw [hfin]; exact h.1) (by rw [hwork]) (by rw [hparser]) (by rw [hparser]) hptus
    (fun p _ => hfields _ ?_) (fun u _ => hfields _ ?_) (hfields _ ?_)
  all_goals
    simp only [List.mem_cons, List.not_mem_nil, or_false, forall_eq_or_imp, forall_eq, R.FAULT_COUNT_TIMEOUTS,
      R.FAULT_STAT_LOG_ENTRIES, R.TELE_STAT_SEQ, R.FAULT_STAT_EVENTS_LOST, R.EDGE_STAT_STATE, R.PTU_STAT_STATE, R.CONJ_CTL_ROT_PTU]
    omega

theorem State.reachState_setReach_self (s : State) (u st how : Nat) : (s.setReach u st how).reachState u = st := by
  unfold State.reachState State.setReach
  dsimp only
  rw [tget_tset_self]
  rfl

theorem State.reachState_setReach_ne (s : State) {u m : Nat} (h : m ≠ u) (st how : Nat) :
    (s.setReach u st how).reachState m = s.reachState m := by
  unfold State.reachState State.setReach
  dsimp only
  rw [tget_tset_ne h]

theorem State.reachState_congr {t : State} (h : t.tele.reach = s.tele.reach) (m : Nat) : t.reachState m = s.reachState m := by
  rw [State.reachState, State.reachState, h]

theorem exec_faultMarkReachable_live (hlive : s.live = true) (u : Nat) :
    exec (.faultMarkReachable u) s = settled (s.faultMark (u % 2 ^ 15) true) :=
  congrArg settled (State.whenLive_live hlive _)

theorem exec_faultMarkLost_live (hlive : s.live = true) (u : Nat) :
    exec (.faultMarkLost u) s = settled (s.faultMark (u % 2 ^ 15) false) :=
  congrArg settled (State.whenLive_live hlive _)

/-- A LOST chip that becomes REACHABLE, before the event of it is logged. -/
def State.reachable (s : State) (u : Nat) : State :=
  (s.setReach u 1 (((tget u s.tele.reach).map Reach.how).getD 0)).less R.FAULT_STAT_LOST_CHIPS

theorem State.faultMark_back_of_lost (hother : u ≠ s.chip) (hlost : s.reachState u = 2) :
    s.faultMark u true = (s.reachable u).logFault 3 u 0 0 :=
  (if_neg hother).trans ((if_pos rfl).trans (if_pos hlost))

theorem State.faultMark_back_of_other (h : u = s.chip ∨ s.reachState u ≠ 2) : s.faultMark u true = s := by
  by_cases hchip : u = s.chip
  · exact if_pos hchip
  · exact (if_neg hchip).trans ((if_pos rfl).trans (if_neg (h.resolve_left hchip)))

theorem State.faultMark_lost_of_lost (h : u = s.chip ∨ s.reachState u = 2) : s.faultMark u false = s := by
  by_cases hchip : u = s.chip
  · exact if_pos hchip
  · exact (if_neg hchip).trans ((if_neg Bool.false_ne_true).trans (if_pos (.inr (.inl (h.resolve_left hchip)))))

/-! ### A chip is marked LOST (R450, R451) -/

/-- What the loss of a chip changes beyond its mark, where nothing on this chip or on its way concerns that chip. -/
structure State.Severs (s t : State) : Prop where
  frame : t = { s with home := t.home, fabric := t.fabric }
  finished : t.home.finished = s.home.finished
  track : t.fabric.track = []
  waitTag : t.fabric.waitTag = []
  frames : t.fabric.frames = []

theorem State.Severs.keepStale {t : State} (h : s.Severs t) (hreplicas : s.parser.replicas = []) : s.Severs (t.keepStale u) := by
  have hnone : t.parser.replicas = [] := by rw [h.frame]; exact hreplicas
  rwa [State.keepStale, hnone]

theorem State.Severs.dropHomedOn {t : State} (h : s.Severs t) : s.Severs (t.dropHomedOn u) where
  frame := by rw [h.frame]; rfl
  finished := h.finished
  track := h.track
  waitTag := h.waitTag
  frames := h.frames

theorem State.Severs.endTags {t : State} (h : s.Severs t) : s.Severs (t.endTags u) := by
  rw [State.endTags, h.track]
  dsimp only [List.filter, List.foldl]
  rw [h.waitTag]
  exact ⟨by rw [h.frame]; rfl, h.finished, h.track, rfl, h.frames⟩

theorem State.Severs.endRecords {t : State} (h : s.Severs t) (hmoves : s.parser.migrations = []) (hdir : s.parser.dir = []) :
    s.Severs (t.endRecords u) := by
  have hnoMoves : t.parser.migrations = [] := by rw [h.frame]; exact hmoves
  have hnoDir : t.parser.dir = [] := by rw [h.frame]; exact hdir
  rw [State.endRecords, hnoMoves]
  dsimp only [List.filter, List.foldl]
  rwa [hnoDir]

theorem State.Severs.freeFramesTo {t : State} (h : s.Severs t) : s.Severs (t.freeFramesTo u) := by
  rw [State.freeFramesTo]
  dsimp only
  rw [h.frames]
  exact ⟨by rw [h.frame]; rfl, h.finished, h.track, h.waitTag, rfl⟩

theorem State.Severs.abortGroupsWith {t : State} (h : s.Severs t) (hgroups : s.coll.groups = []) : s.Severs (t.abortGroupsWith u) := by
  have hnone : t.coll.groups = [] := by rw [h.frame]; exact hgroups
  rwa [State.abortGroupsWith, hnone]

theorem State.Severs.requeue {t : State} (h : s.Severs t) (k : Nat) (ids : List Nat) : s.Severs (t.requeue k ids) := by
  have hsame : t.requeue k ids = t := State.foldl_eq_self fun id _ => by rw [h.frames]; rfl
  rwa [hsame]

theorem State.Severs.strand {t : State} (h : s.Severs t) (k : Nat) : s.Severs (t.strand k) :=
  State.Severs.requeue (t := t.modHop k (fun h => { h with granted := [], held := [], sentAt := [] }))
    ⟨by rw [h.frame]; rfl, h.finished, h.track, h.waitTag, h.frames⟩ k _

/-- Every hop to a chip that is not up gives up what it holds. -/
def State.strandHops (s : State) (u : Nat) : State :=
  (s.hopsTo u).foldl (fun s h => if (s.hop (hopKey h.1 h.2)).up then s else s.strand (hopKey h.1 h.2)) s

theorem State.Severs.strandHops {t : State} (h : s.Severs t) : s.Severs (t.strandHops u) :=
  State.foldl_keeps h fun t ht h _ => by
    split
    · exact ht
    · exact ht.strand _

/-- A chip with its mark of loss and the count of it, and with the pages homed there poisoned. -/
def State.lossMarked (s : State) (u how : Nat) : State :=
  let s := (s.setReach u 2 how).wrap R.FAULT_STAT_LOST_CHIPS
  { s with xlat := { s.xlat with pageMap := s.xlat.pageMap.map (fun (e : Nat × PmEntry) =>
      (e.1, if e.2.chip == u && !e.2.poison then { e.2 with poison := true } else e.2)) } }

/-- FAULT_MARK of a chip that nothing here concerns: the mark, its event, and at most a notice to the runtime. -/
theorem State.faultMark_lost_of_quiet (hother : u ≠ s.chip) (hnew : s.reachState u ≠ 2)
    (hquiet : s.fabric.track = [] ∧ s.fabric.waitTag = [] ∧ s.fabric.frames = [] ∧ s.parser.dir = [] ∧ s.parser.replicas = [] ∧
      s.parser.migrations = [] ∧ s.coll.groups = []) :
    ∃ v, (s.lossMarked u 2).Severs v ∧ (v.logFault 2 (u + 2 * 2 ^ 16) 0 0).Notifies (s.faultMark u false) := by
  obtain ⟨htrack, hwait, hframes, hdir, hreplicas, hmoves, hgroups⟩ := hquiet
  have hmark : ¬ (u = s.chip ∨ s.reachState u = 2 ∨ (s.reachState u = 0 ∧ 2 ≠ 2)) := by simp [hother, hnew]
  have hstart : (s.lossMarked u 2).Severs (s.lossMarked u 2) := ⟨rfl, rfl, htrack, hwait, hframes⟩
  refine ⟨_, ((((((hstart.keepStale (u := u) hreplicas).dropHomedOn (u := u)).endTags (u := u)).endRecords (u := u) hmoves
    hdir).freeFramesTo (u := u)).abortGroupsWith (u := u) hgroups).strandHops (u := u), ?_⟩
  rw [State.faultMark, if_neg hother, if_neg Bool.false_ne_true, State.markLost, if_neg hmark]
  exact .ite (State.foldl_keeps (Q := fun t => State.Notifies _ t) (.refl _) fun _ ht _ _ => ht.sendOwn) (.refl _)

theorem State.lossMarked_pageMap (s : State) (u how : Nat) :
    (s.lossMarked u how).xlat.pageMap =
      s.xlat.pageMap.map (fun e => (e.1, if e.2.chip = u then { e.2 with poison := true } else e.2)) := by
  refine List.map_congr_left fun e _ => ?_
  congr 1
  cases hpoison : e.2.poison with
  | true =>
    have hsame : { e.2 with poison := true } = e.2 := by rw [← hpoison]
    simp [hsame]
  | false => simp

end

/-- Settles O38: a tile that loses its ENABLE is `State.tileDown`, and at the drain timeout `State.Draining` is what the endings
keep; a timeout is `State.tagExpired`, and the marks of FAULT_MARK change no more than `State.Severs` and `State.Notifies` allow. -/
theorem tilesTimeoutsAndMarks : Obligations.TilesTimeoutsAndMarks := by
  unfold Obligations.TilesTimeoutsAndMarks
  refine ⟨?idle, ?busy, ?enable, ?refused, ?fusedOff, ?fusedOn, ?drainedBare, ?drained, ?timeout, ?timeoutSpec, ?timeoutAgain,
    ?lost, ?reachable, ?reachableNot, ?lostNot⟩
  case idle =>
    intro s n l hlive hfin ⟨hl, hn⟩ hstate ⟨hctxs, hentries, hstores, hasks⟩
    have hexec : exec (.tileDisable n) s = settled (s.tileDown n) := congrArg settled (State.whenLive_live hlive _)
    rw [State.tileDown_of_idle hl hn hstate hctxs hentries hstores hasks] at hexec
    refine .of_settled hexec hfin ⟨?_, State.get_set_self .., State.tile_setTile_self .., fun m hm => State.tile_setTile_ne _ hm _,
      ?_, rfl⟩
    · rw [State.get_set_ne _ _ (tileEnable_key_ne_state n)]
      exact (s.get_draining n).1
    · exact OnlyFields.set (t := (s.draining n).setTile l _) (s.draining_onlyFields n) (by simp)
  case busy =>
    intro s c n x k hlive hfin ⟨hl, hn⟩ hstate ⟨hctxs, hk, htimed⟩
    have hexec : exec (.tileDisable n) s = settled (s.tileDown n) := congrArg settled (State.whenLive_live hlive _)
    rw [State.tileDown_of_timed hl hstate hctxs hk htimed] at hexec
    exact .of_settled hexec hfin ⟨(s.get_draining n).1, (s.get_draining n).2, rfl, s.draining_onlyFields n⟩
  case enable =>
    intro s n l hlive hfin hl hstate
    have hexec : exec (.tileEnable n) s = settled (s.tileUp n) := congrArg settled (State.whenLive_live hlive _)
    rw [State.tileUp_of_disabled hl hstate] at hexec
    refine .of_settled hexec hfin ⟨?_, State.get_set_self .., rfl, ((OnlyFields.refl _ s).set (by simp)).set (by simp)⟩
    rw [State.get_set_ne _ _ (tileEnable_key_ne_state n)]
    exact State.get_set_self ..
  case refused =>
    intro s n l hlive hfin hl hstate
    have hexec : exec (.tileEnable n) s = settled (s.tileUp n) := congrArg settled (State.whenLive_live hlive _)
    rw [State.tileUp_of_other hl hstate] at hexec
    exact .of_settled hexec hfin ⟨State.get_set_self .., rfl, (OnlyFields.refl _ s).set (by simp)⟩
  case fusedOff => exact fun s n hl hfin => exec_enableTile_fused hl hfin false
  case fusedOn => exact fun s n hl hfin => exec_enableTile_fused hl hfin true
  case drainedBare =>
    intro s c n x hlive hfin ⟨hl, hn⟩ hstate ⟨hctxs, hnone⟩ ⟨hentries, hstores, hasks⟩
    have hexec : exec (.tileDrainTimeout n) s = settled (s.tileExpired n) := congrArg settled (State.whenLive_live hlive _)
    have hkept : s.abortClause x.clause = s := by rw [State.abortClause, hnone]
    obtain ⟨y, hl1, hyctxs, hyentries, hends⟩ := State.endCtx_of_last hn hstate hctxs hentries hstores hasks
    have hrested : (((s.setTile c.tile y).set (R.TILE_STAT_STATE n) 2).restTile c.tile) =
        (s.setTile c.tile y).set (R.TILE_STAT_STATE n) 2 := by
      refine State.restTile_of_state ?_
      have hphys : ((s.setTile c.tile y).set (R.TILE_STAT_STATE n) 2).phys c.tile = n := hn
      rw [hphys, State.get_set_self]
      exact OfNat.ofNat_ne_one 2
    rw [State.tileExpired_of_single hl hstate hctxs, hkept, State.ctxsOf_single hctxs, List.foldl_cons, List.foldl_nil, hends,
      hrested] at hexec
    have htile : ((s.setTile c.tile y).set (R.TILE_STAT_STATE n) 2).tile c.tile = y := State.tile_setTile_self ..
    refine .of_settled hexec hfin ⟨State.get_set_self .., ?_, ?_, ?_, fun m hm => State.tile_setTile_ne _ hm _,
      OnlyFields.set (t := s.setTile c.tile y) (OnlyFields.refl _ s) (by simp), rfl⟩
    · rw [htile, hyctxs]
    · rw [htile, hyentries]
    · rw [htile, hl1]
  case drained =>
    intro s c n x k hlive hfin ⟨hl, hn⟩ hstate ⟨hctxs, hk, hopen, hstage, htimed⟩ ⟨hentries, hstores, hasks⟩
    have hexec : exec (.tileDrainTimeout n) s = settled (s.tileExpired n) := congrArg settled (State.whenLive_live hlive _)
    have hstart : s.Draining c n x := ⟨hn, .inl hstate, .inl hctxs, hentries, hstores, hasks⟩
    obtain ⟨hdraining, hmem, hfinished, hclauses⟩ := hstart.abortClause hk hopen (by rw [hstage]; exact Stage.noConfusion)
    obtain ⟨hrest, hempty, hframe⟩ := hdraining.endCtxs rfl
    rw [State.tileExpired_of_single hl hstate hctxs] at hexec
    have hlook (m : Nat) : (((s.abortClause x.clause).ctxsOf c.tile).foldl (fun s c => s.endCtx c) (s.abortClause x.clause)
        |>.restTile c.tile).clauseAt m = tget m (s.abortClause x.clause).work.clauses := by
      rw [hframe]
      rfl
    refine .of_settled hexec ?_ ⟨hrest, hempty, ?_, ?_, fun m hm => ?_⟩
    · rw [hframe]
      exact hfinished.trans hfin
    · rw [hlook, hclauses, tget_tset_self, htimed]
      rfl
    · rw [hframe]
      exact hmem
    · rw [hlook, hclauses, tget_tset_ne hm]
      rfl
  case timeout =>
    intro s tag r hlive hfin ⟨htag, hr, hopen, hdrop, hspec⟩ hcalm
    have hexec := exec_transactionTimeout_tag hlive htag
    rw [State.tagExpired_of_open hr hopen, hdrop, hspec, if_neg Bool.false_ne_true] at hexec
    generalize ht : ((s.quarantined tag r).count R.FAULT_COUNT_TIMEOUTS).logFault 4 r.dest r.partition (Err.code .timeout) = t at hexec
    have hframe : t = { s.quarantined tag r with regs := t.regs, tele := t.tele, nelar := t.nelar, out := t.out } := by
      rw [← ht, State.logFault_frame]
      rfl
    have hcount : OnlyFields [R.FAULT_COUNT_TIMEOUTS, R.FAULT_STAT_LOG_ENTRIES, R.TELE_STAT_SEQ, R.FAULT_STAT_EVENTS_LOST] s
        ((s.quarantined tag r).count R.FAULT_COUNT_TIMEOUTS) := OnlyFields.set (t := s.quarantined tag r) (.refl _ s) (by simp)
    have hfields : OnlyFields [R.FAULT_COUNT_TIMEOUTS, R.FAULT_STAT_LOG_ENTRIES, R.TELE_STAT_SEQ, R.FAULT_STAT_EVENTS_LOST] s t :=
      hcount.trans (ht ▸ OnlyFields.mono (State.logFault_onlyFields _ _ _ _ _) (by simp))
    have hcalm' : Calm t := State.calm_logFault hcalm (by rw [hframe]; rfl) (by rw [hframe]; rfl) (by rw [hframe]; rfl)
      (by rw [hframe]; rfl) hfields
    have hdone : settled (t.finish .drop .timeout []) = .next t := settled_finish_of_calm hcalm'.1 rfl hcalm'
    refine .of_next (hexec.trans hdone) ⟨?_, fun m hm => ?_, ?_, ?_, ?_, ?_⟩
    · rw [hframe]
      exact tget_tset_self ..
    · rw [hframe]
      exact tget_tset_ne hm ..
    · rw [← ht, State.logFault_onlyFields _ 4 r.dest r.partition (Err.code .timeout) R.FAULT_COUNT_TIMEOUTS (by decide)]
      exact State.get_count_self ..
    · rw [← ht, State.logFault_log]
      refine congrArg (fun e => List.take 1024 (e :: s.tele.log)) (State.faultEvent_congr (hcount _ (by decide)) ..)
    · rw [hframe]
      rfl
    · rw [hframe]
      rfl
  case timeoutSpec =>
    intro s tag r hlive ⟨htag, hr, hopen, hdrop, hspec⟩ hcalm
    have hexec := exec_transactionTimeout_tag hlive htag
    rw [State.tagExpired_of_open hr hopen, hdrop, hspec, if_pos rfl] at hexec
    have hcalm' : Calm (s.quarantined tag r) := State.calm_logFault hcalm rfl rfl rfl rfl (.refl _ s)
    exact .of_next (hexec.trans (settled_finish_of_calm (s := s.quarantined tag r) hcalm.1 rfl hcalm'))
      ⟨tget_tset_self .., fun m hm => tget_tset_ne hm .., rfl, rfl, rfl, rfl, rfl⟩
  case timeoutAgain =>
    intro s tag r hlive hfin ⟨htag, hr, hdone⟩
    rw [exec_transactionTimeout_tag hlive htag, State.tagExpired_of_quarantined hr hdone, settled_of_finished_nil hfin]
  case lost =>
    intro s u hlive hfin ⟨hother, hnew⟩ hquiet
    obtain ⟨v, hcut, hnotice⟩ := State.faultMark_lost_of_quiet hother hnew hquiet
    have hexec := exec_faultMarkLost_live hlive u
    generalize s.faultMark (u % 2 ^ 15) false = t at hexec hnotice
    have htele : t.tele = (v.logFault 2 (u % 2 ^ 15 + 2 * 2 ^ 16) 0 0).tele := by rw [hnotice.frame]
    have hvtele : v.tele = (s.lossMarked (u % 2 ^ 15) 2).tele := by rw [hcut.frame]
    have hvreg (f : Fld) : v.get f = (s.lossMarked (u % 2 ^ 15) 2).get f := by rw [hcut.frame]; rfl
    have hreach : t.tele.reach = (s.setReach (u % 2 ^ 15) 2 2).tele.reach := by
      rw [htele, State.logFault_reach, hvtele]
      rfl
    have hlogged := v.logFault_frame 2 (u % 2 ^ 15 + 2 * 2 ^ 16) 0 0
    refine .of_settled hexec ?_ ⟨?_, fun m hm => ?_, ?_, ?_, ?_, ?_⟩
    · rw [hnotice.frame, hlogged]
      exact hcut.finished.trans hfin
    · rw [State.reachState_congr hreach]
      exact State.reachState_setReach_self ..
    · rw [State.reachState_congr hreach]
      exact State.reachState_setReach_ne s hm ..
    · rw [hnotice.fields _ (by decide), v.logFault_onlyFields 2 (u % 2 ^ 15 + 2 * 2 ^ 16) 0 0 _ (by decide), hvreg]
      exact State.get_set_self ..
    · have htick : v.get R.CLK_LOCALTICK_TICK = s.get R.CLK_LOCALTICK_TICK := (hvreg _).trans (State.get_set_ne _ _ (by decide))
      rw [htele, State.logFault_log, State.faultEvent_congr htick, hvtele]
      rfl
    · rw [hnotice.frame, hlogged, hcut.frame]
      exact s.lossMarked_pageMap ..
    · rw [hnotice.frame, hlogged, hcut.frame]
      rfl
  case reachable =>
    intro s u hlive hfin ⟨hother, hlost⟩
    have hexec := exec_faultMarkReachable_live hlive u
    rw [State.faultMark_back_of_lost hother hlost] at hexec
    have hframe := (s.reachable (u % 2 ^ 15)).logFault_frame 3 (u % 2 ^ 15) 0 0
    have hreach := (s.reachable (u % 2 ^ 15)).logFault_reach 3 (u % 2 ^ 15) 0 0
    refine .of_settled hexec ?_ ⟨?_, fun m hm => ?_, ?_, ?_, ?_, ?_, fun hsilent => ?_⟩
    · rw [hframe]
      exact hfin
    · rw [State.reachState_congr hreach]
      exact State.reachState_setReach_self ..
    · rw [State.reachState_congr hreach]
      exact State.reachState_setReach_ne s hm ..
    · rw [State.logFault_onlyFields _ 3 (u % 2 ^ 15) 0 0 _ (by decide)]
      exact State.get_set_self ..
    · rw [State.logFault_log]
      exact congrArg (fun e => List.take 1024 (e :: s.tele.log)) (State.faultEvent_congr (State.get_set_ne _ _ (by decide)) ..)
    · rw [hframe]
      rfl
    · rw [hframe]
      rfl
    · have hstill : (s.reachable (u % 2 ^ 15)).flag R.TELE_CTL_EVENTS_EN = false := by
        rw [← hsilent, State.flag, State.flag, State.reachable, State.less, State.get_set_ne _ _ (by decide)]
        rfl
      rw [State.logFault_of_silent hstill]
      have hless : OnlyFields [R.FAULT_STAT_LOST_CHIPS, R.FAULT_STAT_LOG_ENTRIES] s (s.reachable (u % 2 ^ 15)) :=
        OnlyFields.set (t := s.setReach (u % 2 ^ 15) 1 _) (.refl _ s) (by simp)
      exact OnlyFields.set (t := { s.reachable (u % 2 ^ 15) with tele := _ }) hless (by simp)
  case reachableNot =>
    intro s u hlive hfin hstay
    rw [exec_faultMarkReachable_live hlive, State.faultMark_back_of_other hstay, settled_of_finished_nil hfin]
  case lostNot =>
    intro s u hlive hfin hstay
    rw [exec_faultMarkLost_live hlive, State.faultMark_lost_of_lost hstay, settled_of_finished_nil hfin]

end Sys2Proof.Machine
end

section
namespace Sys2Proof.Machine

/-! ### A clause completes (R177, R182) -/

section
variable {s : State} {id : Nat} {k : Clause} {r : Queue} {e : Ending}

theorem State.queue_modQueue_self {q : Nat} (h : s.queue q = some r) (f : Queue → Queue) :
    s.modQueue q f = { s with work := { s.work with queues := tset q (f r) s.work.queues } } := by
  rw [State.modQueue, tmod_of_tget h]

/-- Records wait while one is being written. -/
theorem State.pumpRecords_of_writing {q : Nat} (h : s.queue q = some r) (hwriting : r.writing = true) (n : Nat) :
    s.pumpRecords q n = s := by
  cases n with
  | zero => rfl
  | succ n =>
    rw [State.pumpRecords, h]
    dsimp only
    split
    · rfl
    · exact if_pos hwriting

theorem State.addRecord_of_writing {q : Nat} (h : s.queue q = some r) (hwriting : r.writing = true) (bs : List Byte) :
    s.addRecord q id bs =
      { s with work := { s.work with queues := tset q { r with records := r.records ++ [(id, bs)] } s.work.queues } } := by
  rw [State.addRecord, State.queue_modQueue_self h]
  refine State.pumpRecords_of_writing (r := { r with records := r.records ++ [(id, bs)] }) ?_ hwriting _
  exact tget_tset_self ..

/-- A clause that has completed: it holds nothing, and its ending stands. -/
def Clause.completed (k : Clause) (e : Ending) : Clause :=
  { k with waitsOn := [], lacking := [], untriggered := false, stage := .done, extents := [], placed := [], ending := some e }

/-- The completion record of a clause with an ending (Table 7-14); none where only errors are recorded. -/
def Clause.record (k : Clause) (e : Ending) : List Byte :=
  if e.status = .none ∧ descCmplErr k.desc then []
  else recordBytes (descTag k.desc) e.status (descOp k.desc) e.exc k.seq e.segment k.chunks e.detail e.addr

/-- A queue in which a clause has completed: its record waits, and it blocks the queue no more. -/
def Queue.completed (r : Queue) (id : Nat) (bs : List Byte) : Queue :=
  { r with records := r.records ++ [(id, bs)], blocked := if r.blocked = some id then none else r.blocked }

theorem State.addRecord_of_completed {q : Nat} (h : s.queue q = some r) (hwriting : r.writing = true) (bs : List Byte) :
    (s.modQueue q (fun r => { r with blocked := if r.blocked = some id then none else r.blocked })).addRecord q id bs =
      { s with work := { s.work with queues := tset q (r.completed id bs) s.work.queues } } := by
  let r' : Queue := { r with blocked := if r.blocked = some id then none else r.blocked }
  have hmod : (s.modQueue q (fun r => { r with blocked := if r.blocked = some id then none else r.blocked })).queue q = some r' := by
    rw [State.queue_modQueue_self h]
    exact tget_tset_self ..
  rw [State.addRecord_of_writing hmod hwriting, State.queue_modQueue_self h]
  dsimp only
  rw [tset_tset]
  rfl

/-- What completion does, on a queue that is writing a record: the clause and its queue change, lists of waiters, and histograms. -/
structure State.Completed (s t : State) (id : Nat) (k : Clause) (r : Queue) (e : Ending) : Prop where
  clauses : t.work.clauses = tset id (k.completed e) s.work.clauses
  queues : t.work.queues = tset k.queue (r.completed id (k.record e)) s.work.queues
  frame : t = { s with work := { s.work with clauses := t.work.clauses, queues := t.work.queues, waitTile := t.work.waitTile },
                       ptus := t.ptus, tele := { s.tele with hists := t.tele.hists } }

theorem State.Completed.clauseAt_self {t : State} (h : s.Completed t id k r e) : t.clauseAt id = some (k.completed e) := by
  rw [State.clauseAt, h.clauses, tget_tset_self]

theorem State.Completed.clauseAt_ne {t : State} (h : s.Completed t id k r e) {m : Nat} (hm : m ≠ id) : t.clauseAt m = s.clauseAt m := by
  rw [State.clauseAt, h.clauses, tget_tset_ne hm]
  rfl

theorem State.Completed.queue_self {t : State} (h : s.Completed t id k r e) :
    t.queue k.queue = some (r.completed id (k.record e)) := by
  rw [State.queue, h.queues, tget_tset_self]

theorem State.Completed.queue_ne {t : State} (h : s.Completed t id k r e) {m : Nat} (hm : m ≠ k.queue) : t.queue m = s.queue m := by
  rw [State.queue, h.queues, tget_tset_ne hm]
  rfl

theorem State.Completed.finished {t : State} (h : s.Completed t id k r e) : t.home.finished = s.home.finished := by
  rw [h.frame]

theorem State.unwait_of_clauseAt (hk : s.clauseAt id = some k) :
    s.unwait id = (s.unlisted id).setClause id
      { k with waitsOn := [], lacking := [], untriggered := false, stage := if k.stage = .parked then .running else k.stage } :=
  State.modClause_of_clauseAt (s := s.unlisted id) hk _

/-- A clause of this chip with an ending, and with nothing under way, completes. -/
theorem State.complete_of_ending (hk : s.clauseAt id = some k) (hr : s.queue k.queue = some r) (hwriting : r.writing = true)
    (horigin : k.origin = none) (hstage : k.stage ≠ .done) (hflying : k.flying = []) (harriving : k.arriving = 0)
    (hplaced : k.placed = []) (hcoll : isColl (descOp k.desc) = false) (hend : s.finalEnding k = some e) :
    s.Completed (s.complete id) id k r e := by
  have hgoes : ¬ (k.stage = .done ∨ k.flying ≠ [] ∨ k.arriving ≠ 0) := by simp [hstage, hflying, harriving]
  have hnotColl : ¬ isColl (descOp k.desc) = true := Bool.eq_false_iff.1 hcoll
  have hnone : s.giveTiles k = s := by rw [State.giveTiles, hplaced, List.foldl_nil]
  let y : Clause := { k with
    waitsOn := [], lacking := [], untriggered := false, stage := if k.stage = .parked then .running else k.stage }
  let v := (s.unlisted id).setClause id y
  obtain ⟨hists, hsample⟩ := v.sample_hists 4 (v.since k.tick) none (some k.partition)
  let w : State := { v with tele := { v.tele with hists := hists } }
  have hwk : w.clauseAt id = some y := State.clauseAt_setClause_self (s.unlisted id) id y
  have hqueue : (w.setClause id (k.completed e)).queue k.queue = some r := hr
  rw [State.complete, hk]
  dsimp only
  rw [if_neg hgoes, hend]
  dsimp only
  rw [hnone, State.unwait_of_clauseAt hk, hsample, horigin]
  dsimp only
  rw [if_neg hnotColl, State.modClause_of_clauseAt (s := w) hwk]
  change s.Completed (State.addRecord ((w.setClause id (k.completed e)).modQueue k.queue _) k.queue id (k.record e)) id k r e
  rw [State.addRecord_of_completed hqueue hwriting]
  exact ⟨tset_tset .., rfl, rfl⟩

/-- A clause that ended with an error has no other ending (R177). -/
theorem State.finalEnding_of_error (hend : k.ending = some e) (herror : e.status ≠ .none) : s.finalEnding k = some e := by
  rw [State.finalEnding, hend]
  dsimp only
  rw [if_neg (fun h => herror h.1), if_neg herror]

theorem Clause.record_of_error (k : Clause) (herror : e.status ≠ .none) :
    k.record e = recordBytes (descTag k.desc) e.status (descOp k.desc) e.exc k.seq e.segment k.chunks e.detail e.addr :=
  if_neg (fun h => herror h.1)

/-! ### FENCE and WAIT (R178, R180) -/

/-- FENCE, COUNTER_OP and WAIT that have not done their work. -/
theorem State.once_of_open {op : Nat} (hk : s.clauseAt id = some k) (hop : descOp k.desc = op) (hopen : k.ending = none)
    (hissued : k.issued = 0) (htriggered : k.untriggered = false) (hstage : k.stage = .waiting) (f : Clause → State → State) :
    s.once id op f = f k s := by
  rw [State.once, hk]
  exact if_pos ⟨hop, by rw [hopen]; rfl, hissued, by rw [htriggered]; rfl, by rw [hstage]; exact Stage.noConfusion⟩

/-- A clause without operands has chunk 0 alone. -/
theorem chunkExists_of_noOperands {d : List Byte} (hop : descOp d = 0x40 ∨ descOp d = 0x42) (extra : List Byte) (r : Role) (c : Nat) :
    chunkExists d extra r c = (c == 0) :=
  if_pos (by omega)

theorem chunkSegs_of_noOperands {d : List Byte} (hop : descOp d = 0x40 ∨ descOp d = 0x42) : chunkSegs d 0 = [0] := by
  rw [chunkSegs, if_neg (by omega), if_neg (by omega), if_neg (by omega)]

theorem isColl_of_noOperands {d : List Byte} (hop : descOp d = 0x40 ∨ descOp d = 0x42) : isColl (descOp d) = false := by
  rcases hop with hop | hop
  all_goals rw [hop]; rfl

/-- A clause without operands on which nothing has been done, and that tells no counter of its end. -/
structure Clause.Untouched (k : Clause) : Prop where
  op : descOp k.desc = 0x40 ∨ descOp k.desc = 0x42
  opens : k.ending = none
  flying : k.flying = []
  failed : k.failed = []
  counted : k.counted = []
  chunks : k.chunks = 0
  arriving : k.arriving = 0
  arriveErr : k.arriveErr = .none
  placed : k.placed = []
  silent : descArriveEn k.desc = false

/-- Its clause with its one chunk counted. -/
def Clause.once (k : Clause) : Clause := { k.worked with chunks := k.chunks + 1, counted := 0 :: k.counted }

theorem State.completeChunk_worked (h : k.Untouched) (hk : s.clauseAt id = some k) :
    (s.modClause id Clause.worked).completeChunk id 0 = s.setClause id k.once := by
  have hexists : chunkExists k.worked.desc k.worked.extra ((s.setClause id k.worked).role k.worked) 0 = true :=
    chunkExists_of_noOperands h.op ..
  have hready : k.worked.chunkReady 0 = true := by
    have hop : descOp k.worked.desc ≠ 0x30 := by
      rcases h.op with hop | hop
      all_goals exact fun h30 => absurd (hop.symm.trans h30) (by decide)
    have hsegs : chunkSegs k.worked.desc 0 = [0] := chunkSegs_of_noOperands h.op
    rw [Clause.chunkReady, if_neg hop, hsegs]
    simp [Clause.worked, h.failed, h.counted, h.flying]
  have hdone : (s.setClause id k.worked).chunkDone k.worked 0 = true := by
    have hcoll : ¬ isColl (descOp k.worked.desc) = true := Bool.eq_false_iff.1 (isColl_of_noOperands h.op)
    have hop : descOp k.worked.desc ≠ 0x20 := by
      rcases h.op with hop | hop
      all_goals exact fun h20 => absurd (hop.symm.trans h20) (by decide)
    rw [State.chunkDone, if_neg hcoll, if_neg hop, hready]
  have hgoes : ¬ (k.worked.stage = .done ∨ k.worked.stage = .away ∨
      (!chunkExists k.worked.desc k.worked.extra ((s.setClause id k.worked).role k.worked) 0) = true ∨
      (!(s.setClause id k.worked).chunkDone k.worked 0) = true) := by
    rw [hexists, hdone]
    simp [Clause.worked]
  have hsilent : ¬ (descArriveEn k.worked.desc = true ∧ k.worked.arriveErr = .none) := fun hboth =>
    Bool.false_ne_true (h.silent.symm.trans hboth.1)
  rw [State.modClause_of_clauseAt hk, State.completeChunk, State.clauseAt_setClause_self]
  dsimp only
  rw [if_neg hgoes, State.countChunk, State.clauseAt_setClause_self]
  dsimp only
  rw [if_neg hsilent, State.modClause_setClause]
  rfl

/-- Its ending: no error, and no operand (Table 7-14). -/
def doneEnding : Ending := { status := .none, exc := 0, segment := noSeg, detail := 0, addr := 0 }

theorem State.finalEnding_once (h : k.Untouched) : s.finalEnding k.once = some doneEnding := by
  have hcoll : isColl (descOp k.once.desc) = false := isColl_of_noOperands h.op
  have hcounted : s.allCounted k.once = true := by
    rw [State.allCounted, hcoll, Bool.not_false, Bool.true_or, Bool.and_true]
    refine List.all_eq_true.2 fun c hc => ?_
    have hzero : (c == 0) = true := (chunkExists_of_noOperands h.op ..).symm.trans (List.mem_filter.1 hc).2
    rw [beq_iff_eq.1 hzero]
    exact List.contains_iff_mem.2 List.mem_cons_self
  have hgiven : s.given k.once = true := by rw [State.given, hcoll]; rfl
  have hopen : k.once.ending = none := h.opens
  rw [State.finalEnding, hopen]
  dsimp only
  rw [if_pos ⟨hcounted, hgiven⟩]
  exact congrArg (fun e => some { doneEnding with status := e }) h.arriveErr

theorem State.finishOnce_spec (h : k.Untouched) (hfin : s.home.finished = []) (hk : s.clauseAt id = some k)
    (hr : s.queue k.queue = some r) (hwriting : r.writing = true) (horigin : k.origin = none) :
    (s.setClause id k.once).Completed (s.finishOnce id) id k.once r doneEnding := by
  have hfin' : (s.setClause id k.once).home.finished = [] := hfin
  rw [State.finishOnce, State.completeChunk_worked h hk, State.settle_of_finished_nil hfin']
  exact State.complete_of_ending (State.clauseAt_setClause_self ..) hr hwriting horigin Stage.noConfusion h.flying h.arriving h.placed
    (isColl_of_noOperands h.op) (State.finalEnding_once h)

/-- A step that does the work of such a clause leaves its record, and unblocks its queue. -/
theorem Completes.finishOnce {c : Instr} (hexec : exec c s = settled (s.finishOnce id)) (h : k.Untouched)
    (hfin : s.home.finished = []) (hk : s.clauseAt id = some k) (hr : s.queue k.queue = some r) (hwriting : r.writing = true)
    (horigin : k.origin = none) (herrors : descCmplErr k.desc = false) :
    Completes c s (fun t => t.queue k.queue = some { r with
        records := r.records ++ [(id, recordBytes (descTag k.desc) .none (descOp k.desc) 0 k.seq noSeg 1 0 0)],
        blocked := if r.blocked = some id then none else r.blocked } ∧
      (t.clauseAt id).map (fun x => (x.stage, x.chunks, x.counted, x.extents)) = some (.done, 1, [0], []) ∧
      (∀ n : Nat, n ≠ id → t.clauseAt n = s.clauseAt n) ∧ (∀ n : Nat, n ≠ k.queue → t.queue n = s.queue n) ∧
      t = { s with work := { s.work with clauses := t.work.clauses, queues := t.work.queues, waitTile := t.work.waitTile },
                   ptus := t.ptus, tele := { s.tele with hists := t.tele.hists } }) := by
  have hdone := State.finishOnce_spec h hfin hk hr hwriting horigin
  have hrecord : k.once.record doneEnding = recordBytes (descTag k.desc) .none (descOp k.desc) 0 k.seq noSeg 1 0 0 := by
    have hone : k.once.chunks = 1 := congrArg (· + 1) h.chunks
    have hall : ¬ (doneEnding.status = .none ∧ descCmplErr k.once.desc = true) := fun hboth =>
      Bool.false_ne_true (herrors.symm.trans hboth.2)
    rw [Clause.record, if_neg hall, hone]
    rfl
  refine .of_settled hexec (hdone.finished.trans hfin) ⟨?_, ?_, fun n hn => ?_, fun n hn => ?_, ?_⟩
  · rw [← hrecord]
    exact hdone.queue_self
  · have hcounts : (k.once.completed doneEnding).chunks = 1 ∧ (k.once.completed doneEnding).counted = [0] :=
      ⟨congrArg (· + 1) h.chunks, congrArg (0 :: ·) h.counted⟩
    rw [hdone.clauseAt_self, Option.map_some, hcounts.1, hcounts.2]
    rfl
  · rw [hdone.clauseAt_ne hn, State.clauseAt_setClause_ne s hn]
  · exact hdone.queue_ne hn
  · rw [hdone.frame]
    rfl

/-- FENCE, WAIT and its release do such a clause's work where its condition holds. -/
theorem Completes.once {c : Instr} {op : Nat} {met : Clause → State → Bool}
    (hexec : exec c s = worked s (fun s => s.once id op (fun k s => if met k s then s.finishOnce id else s)))
    (hplain : op = 0x40 ∨ op = 0x42) (hlive : s.live = true) (hfin : s.home.finished = []) (hk : s.clauseAt id = some k)
    (hr : s.queue k.queue = some r) (hwriting : r.writing = true)
    (hwaits : descOp k.desc = op ∧ k.ending = none ∧ k.issued = 0 ∧ k.untriggered = false ∧ k.stage = .waiting ∧ k.origin = none)
    (hfresh : k.flying = [] ∧ k.failed = [] ∧ k.counted = [] ∧ k.chunks = 0 ∧ k.arriving = 0 ∧ k.arriveErr = .none ∧ k.placed = [])
    (hflags : descArriveEn k.desc = false ∧ descCmplErr k.desc = false) (hmet : met k s = true) :
    Completes c s (fun t => t.queue k.queue = some { r with
        records := r.records ++ [(id, recordBytes (descTag k.desc) .none op 0 k.seq noSeg 1 0 0)],
        blocked := if r.blocked = some id then none else r.blocked } ∧
      (t.clauseAt id).map (fun x => (x.stage, x.chunks, x.counted, x.extents)) = some (.done, 1, [0], []) ∧
      (∀ n : Nat, n ≠ id → t.clauseAt n = s.clauseAt n) ∧ (∀ n : Nat, n ≠ k.queue → t.queue n = s.queue n) ∧
      t = { s with work := { s.work with clauses := t.work.clauses, queues := t.work.queues, waitTile := t.work.waitTile },
                   ptus := t.ptus, tele := { s.tele with hists := t.tele.hists } }) := by
  obtain ⟨hop, hopen, hissued, htriggered, hstage, horigin⟩ := hwaits
  obtain ⟨hflying, hfailed, hcounted, hchunks, harriving, harrived, hplaced⟩ := hfresh
  obtain ⟨hsilent, herrors⟩ := hflags
  have hworks : exec c s = settled (s.finishOnce id) := by
    rw [hexec, worked_live hlive, State.once_of_open hk hop hopen hissued htriggered hstage, if_pos hmet]
  subst hop
  exact .finishOnce hworks ⟨hplain, hopen, hflying, hfailed, hcounted, hchunks, harriving, harrived, hplaced, hsilent⟩ hfin hk hr
    hwriting horigin herrors

/-- A queue that is enabled drains, with a code (R186). -/
theorem State.drainQueue_of_enabled {q : Nat} (hstate : s.get (R.QPAGE_STATUS_STATE q) = 1) (hr : s.queue q = some r)
    (hheld : r.held = false) (e : Err) :
    s.drainQueue q e = (s.set (R.QPAGE_STATUS_STATE q) 2).set (R.QPAGE_STATUS_ERR q) e.code := by
  have hqueue : ((s.set (R.QPAGE_STATUS_STATE q) 2).set (R.QPAGE_STATUS_ERR q) e.code).queue q = some r := hr
  rw [State.drainQueue, if_pos hstate]
  dsimp only
  rw [hqueue]
  dsimp only
  rw [hheld]

theorem Completes.waitTimeout (hlive : s.live = true) (hfin : s.home.finished = []) (hk : s.clauseAt id = some k)
    (hr : s.queue k.queue = some r) (hwriting : r.writing = true) (hop : descOp k.desc = 0x42) (hopen : k.ending = none)
    (hissued : k.issued = 0) (htriggered : k.untriggered = false) (hstage : k.stage = .waiting) (horigin : k.origin = none)
    (hflying : k.flying = []) (harriving : k.arriving = 0) (hplaced : k.placed = []) (hmet : k.met = false)
    (hstate : s.get (R.QPAGE_STATUS_STATE k.queue) = 1) (hheld : r.held = false) :
    Completes (.waitTimeout id) s (fun t => t.get (R.QPAGE_STATUS_STATE k.queue) = 2 ∧
      t.get (R.QPAGE_STATUS_ERR k.queue) = Err.code .timeout ∧
      (t.queue k.queue).map (fun x => x.records) =
        some (r.records ++ [(id, recordBytes (descTag k.desc) .timeout 0x42 0 k.seq noSeg k.chunks 0 0)]) ∧
      (t.clauseAt id).map (fun x => x.stage) = some .done ∧ (∀ n : Nat, n ≠ id → t.clauseAt n = s.clauseAt n) ∧
      (∀ n : Nat, n ≠ k.queue → t.queue n = s.queue n) ∧ t.mem = s.mem ∧
      OnlyFields [R.QPAGE_STATUS_STATE k.queue, R.QPAGE_STATUS_ERR k.queue] s t) := by
  let e : Ending := ending .timeout noSeg 0
  have hcoll : isColl (descOp k.desc) = false := isColl_of_noOperands (.inr hop)
  let v := (s.unlisted id).setClause id (k.ended e)
  let w := (v.set (R.QPAGE_STATUS_STATE k.queue) 2).set (R.QPAGE_STATUS_ERR k.queue) (Err.code .timeout)
  have hends : s.endWithCode id .timeout noSeg 0 = v :=
    State.endWithCode_of_unplaced hk hopen (by rw [hstage]; exact Stage.noConfusion) hplaced hcoll _ _ _
  have hdrains : v.drainQueue k.queue .timeout = w :=
    State.drainQueue_of_enabled (s := v) hstate hr hheld .timeout
  have hkept : (k.ended e).stage ≠ .done := by
    rw [Clause.ended]
    dsimp only
    rw [hstage]
    exact Stage.noConfusion
  have hexec : exec (.waitTimeout id) s = settled (w.complete id) := by
    refine (worked_live hlive _).trans (congrArg settled ?_)
    rw [State.once_of_open hk hop hopen hissued htriggered hstage, if_neg (by rw [hmet]; exact Bool.false_ne_true), hends, hdrains]
  have hdone : w.Completed (w.complete id) id (k.ended e) r e :=
    State.complete_of_ending (State.clauseAt_setClause_self ..) hr hwriting horigin hkept hflying harriving rfl hcoll
      (State.finalEnding_of_error rfl Err.noConfusion)
  have hget (f : Fld) : (w.complete id).get f = w.get f := by rw [hdone.frame]; rfl
  refine .of_settled hexec (hdone.finished.trans hfin) ⟨?_, ?_, ?_, ?_, fun n hn => ?_, fun n hn => ?_, ?_, fun f hf => ?_⟩
  · have hne : (R.QPAGE_STATUS_STATE k.queue).key ≠ (R.QPAGE_STATUS_ERR k.queue).key := by
      simp only [R.QPAGE_STATUS_STATE, R.QPAGE_STATUS_ERR]
      omega
    rw [hget, State.get_set_ne _ _ hne]
    exact State.get_set_self ..
  · rw [hget]
    exact State.get_set_self ..
  · have hrecord : (k.ended e).record e = recordBytes (descTag k.desc) .timeout 0x42 0 k.seq noSeg k.chunks 0 0 :=
      ((k.ended e).record_of_error Err.noConfusion).trans (hop ▸ rfl)
    rw [← hrecord]
    exact congrArg (Option.map fun x => x.records) hdone.queue_self
  · rw [hdone.clauseAt_self]
    rfl
  · exact (hdone.clauseAt_ne hn).trans (State.clauseAt_setClause_ne (s.unlisted id) hn _)
  · exact hdone.queue_ne hn
  · rw [hdone.frame]
    rfl
  · rw [hget]
    exact ((OnlyFields.refl _ v).set (by simp)).set (by simp) f hf

/-! ### COUNTER_OP (R184) -/

/-- A step after which only clauses that run, or wait, are left is as calm as before it. -/
theorem Calm.setClause_only {t : State} {k' : Clause} (h : Calm s) (honly : s.work.clauses = [(id, k)])
    (ht : t.work.clauses = [(id, k')]) (hstage : k'.stage ≠ .parked) (hcancelled : k'.cancelled = false) (hopen : k'.ending = none)
    (hfin : t.home.finished = []) (hparser : t.parser = s.parser) (hptus : t.ptus = s.ptus) (hregs : t.regs = s.regs) : Calm t := by
  obtain ⟨-, -, hmoves, hupdates, hedges, hunits⟩ := h
  have hget (f : Fld) : t.get f = s.get f := by rw [State.get, State.get, hregs]
  refine ⟨hfin, fun c hc => ?_, by rw [hparser]; exact hmoves, by rw [hparser]; exact hupdates, fun p hp => by
    rw [hget]; exact hedges p hp, fun u hu => ?_⟩
  · rw [ht] at hc
    obtain rfl := List.mem_singleton.1 hc
    exact ⟨hstage, .inl hcancelled⟩
  · obtain ⟨hdrain, hrun, hrot⟩ := hunits u hu
    have hunit : t.ptu u = s.ptu u := by rw [State.ptu, State.ptu, hptus]
    have hstate : t.ptuState u = s.ptuState u := hget _
    rw [hunit, hstate, hget]
    refine ⟨hdrain, ?_, hrot⟩
    split
    next m hm =>
      rw [hm] at hrun
      dsimp only at hrun
      rw [State.clauseAt, honly] at hrun
      rw [State.clauseAt, ht]
      by_cases hid : id = m
      · subst hid
        rw [tget, if_pos rfl, Option.any_some, hopen]
        rfl
      · rw [tget, if_neg hid] at hrun
        cases hrun
    next => rfl

/-- A counter that takes a value may meet what the only clause waits for. -/
theorem State.putCounter_clauses (honly : s.work.clauses = [(id, k)]) (n v : Nat) :
    ∃ met, (s.putCounter n v).work.clauses = [(id, { k with met := met })] := by
  refine ⟨if k.metBy s.chip n (v % 2 ^ 64) then true else k.met, ?_⟩
  have hmap : (s.putCounter n v).work.clauses = [(id, k)].map (fun c =>
      (c.1, if c.2.metBy s.chip n (v % 2 ^ 64) then { c.2 with met := true } else c.2)) := by rw [← honly]; rfl
  rw [hmap, List.map_cons, List.map_nil]
  split
  · rfl
  · rfl

/-- The value that COUNTER_OP gives a counter: SET or ADD. -/
def counterValue (d : List Byte) (old : Nat) : Nat := if bit (fieldAt d 48 1) 0 then fieldAt d 40 8 else old + fieldAt d 40 8

theorem fieldAt_lt (bs : List Byte) (off n : Nat) : fieldAt bs off n < 256 ^ n :=
  (leNat_lt _).trans_le (Nat.pow_le_pow_right (by decide) (List.length_take_le ..))

theorem counterValue_mod (d : List Byte) (old : Nat) :
    counterValue d old % 2 ^ 64 = if bit (fieldAt d 48 1) 0 then fieldAt d 40 8 else (old + fieldAt d 40 8) % 2 ^ 64 := by
  rw [counterValue]
  split
  · exact Nat.mod_eq_of_lt (fieldAt_lt d 40 8)
  · rfl

theorem State.issueCounter_here {name p port : Nat} {c : Cont} (hchip : nameChip name = s.chip)
    (howns : s.ownsCounter p (nameIndex name) = true) (d : List Byte) :
    s.issueCounter name (if bit (fieldAt d 48 1) 0 then 3 else 1) (fieldAt d 40 8) p c port =
      (s.putCounter (nameIndex name) (counterValue d (s.counter (nameIndex name)))).finish c .none
        (leBytes 8 (s.counter (nameIndex name))) := by
  have hacts : s.counterOp (nameIndex name) (if bit (fieldAt d 48 1) 0 then 3 else 1) (fieldAt d 40 8) =
      (s.putCounter (nameIndex name) (counterValue d (s.counter (nameIndex name))), s.counter (nameIndex name)) := by
    rw [counterValue]
    cases bit (fieldAt d 48 1) 0 with
    | true => rfl
    | false => rfl
  rw [State.issueCounter, if_pos hchip, if_pos howns, hacts]

/-- A clause whose one piece, which was all that was under way, has ended well. -/
theorem State.pieceIn_last {c : Nat} (hk : s.clauseAt id = some k) (hlast : k.flying = [(c, 1)]) (n a : Nat) :
    s.pieceIn id c .none n a = s.setClause id { k with flying := [] } := by
  have hone : tget c [(c, 1)] = some 1 := if_pos rfl
  have hgone : terase c [(c, 1)] = [] := if_pos rfl
  rw [State.pieceIn, if_pos rfl, State.modClause_of_clauseAt hk, hlast, hone]
  dsimp only
  rw [hgone]
  rfl

theorem Completes.counterOp_here (hlive : s.live = true) (hk : s.clauseAt id = some k) (hop : descOp k.desc = 0x41)
    (hopen : k.ending = none) (hissued : k.issued = 0) (htriggered : k.untriggered = false) (hstage : k.stage = .waiting)
    (hcancelled : k.cancelled = false) (hflying : k.flying = []) (hchip : nameChip (fieldAt k.desc 32 8) = s.chip)
    (howns : s.ownsCounter k.partition (nameIndex (fieldAt k.desc 32 8)) = true) (honly : s.work.clauses = [(id, k)]) (hcalm : Calm s) :
    Completes (.counterOp id) s (fun t =>
      t.counter (nameIndex (fieldAt k.desc 32 8)) = (if bit (fieldAt k.desc 48 1) 0 then fieldAt k.desc 40 8
        else (s.counter (nameIndex (fieldAt k.desc 32 8)) + fieldAt k.desc 40 8) % 2 ^ 64) ∧
      (∀ n : Nat, n ≠ nameIndex (fieldAt k.desc 32 8) → t.counter n = s.counter n) ∧
      (t.clauseAt id).map (fun x => (x.issued, x.timed, x.flying, x.failed, x.ending)) = some (1, true, [], k.failed, none) ∧
      t.mem = s.mem) := by
  let n := nameIndex (fieldAt k.desc 32 8)
  let k₁ : Clause := { k.worked with flying := [(0, 1)] }
  let u := s.setClause id k₁
  let v := u.putCounter n (counterValue k.desc (s.counter n))
  have hissues : ((s.modClause id Clause.worked).pieceOut id 0) = u := by
    rw [State.modClause_of_clauseAt hk, State.pieceOut_setClause]
    refine congrArg (fun w => s.setClause id { k.worked with flying := w }) ?_
    have hnone : k.worked.flying = [] := hflying
    rw [hnone]
    rfl
  have hexec : exec (.counterOp id) s = settled (v.finish (.counterOp id) .none (leBytes 8 (s.counter n))) := by
    refine (worked_live hlive _).trans (congrArg settled ?_)
    rw [State.once_of_open hk hop hopen hissued htriggered hstage, hissues]
    exact State.issueCounter_here (s := u) hchip howns k.desc
  have huOnly : u.work.clauses = [(id, k₁)] := by
    have htable : u.work.clauses = tset id k₁ s.work.clauses := rfl
    rw [htable, honly, tset_single]
  obtain ⟨met, hvOnly⟩ := State.putCounter_clauses huOnly n (counterValue k.desc (s.counter n))
  let k₂ : Clause := { k₁ with met := met, flying := [] }
  have hvk : v.clauseAt id = some { k₁ with met := met } := by
    rw [State.clauseAt, hvOnly]
    exact if_pos rfl
  have hdone : v.continue (.counterOp id) .none (leBytes 8 (s.counter n)) = v.setClause id k₂ := State.pieceIn_last hvk rfl 0 0
  have htOnly : (v.setClause id k₂).work.clauses = [(id, k₂)] := by
    have htable : (v.setClause id k₂).work.clauses = tset id k₂ v.work.clauses := rfl
    rw [htable, hvOnly, tset_single]
  have hcalm' : Calm (v.setClause id k₂) := hcalm.setClause_only honly htOnly Stage.noConfusion hcancelled hopen hcalm.1 rfl rfl rfl
  refine .of_next (hexec.trans (settled_finish_of_calm (s := v) hcalm.1 hdone hcalm')) ⟨?_, fun m hm => ?_, ?_, rfl⟩
  · exact (u.counter_putCounter_self n _).trans (counterValue_mod ..)
  · exact u.counter_putCounter_ne hm _
  · rw [State.clauseAt_setClause_self, Option.map_some]
    exact congrArg (fun e => some (1, true, [], k.failed, e)) hopen

/-! ### KERNEL (R117, R141, R145) -/

/-- The clause of a KERNEL whose program image is on its way. -/
def Clause.loading (k : Clause) : Clause :=
  { k with issued := 1, timed := true, flying := tset (2 ^ 41) ((tget (2 ^ 41) k.flying).getD 0 + 1) k.flying }

theorem exec_kernel (hlive : s.live = true) (hk : s.clauseAt id = some k) (hop : descOp k.desc = 0x30) (hopen : k.ending = none)
    (hissued : k.issued = 0) (hstage : k.stage = .running) (hplaced : k.placed ≠ []) {n : Nat} (hn : fieldAt k.desc 40 2 = n) :
    exec (.kernel id) s =
      settled ((s.setClause id k.loading).clauseFetch k (fieldAt k.desc 32 8) (4 * n) (.program id)) := by
  have hruns : descOp k.desc = 0x30 ∧ k.ending.isNone = true ∧ k.issued = 0 ∧ k.stage = .running ∧ k.placed ≠ [] :=
    ⟨hop, by rw [hopen]; rfl, hissued, hstage, hplaced⟩
  refine (worked_live hlive _).trans (congrArg settled ?_)
  rw [hk]
  dsimp only
  rw [if_pos hruns, State.loadProgram, State.modClause_of_clauseAt hk, State.pieceOut_setClause, hn]
  rfl

theorem Completes.kernel_sent {fpa n : Nat} (hlive : s.live = true) (hfin : s.home.finished = []) (hk : s.clauseAt id = some k)
    (hop : descOp k.desc = 0x30) (hopen : k.ending = none) (hissued : k.issued = 0) (hstage : k.stage = .running)
    (hplaced : k.placed ≠ []) (hn : fieldAt k.desc 40 2 = n) (hpiece : s.OnePiece k 0 (fieldAt k.desc 32 8) fpa (4 * n))
    (hreplica : s.replicaOf fpa = none) (hsend : MaySend s k.partition fpa) :
    Completes (.kernel id) s (fun t => Sent s t fpa 1 (.program id) ∧ t.clauseAt id = some k.loading ∧
      (∀ m : Nat, m ≠ id → t.clauseAt m = s.clauseAt m) ∧ t.mem = s.mem ∧ t.xlat = s.xlat ∧ t.home = s.home ∧ t.out = s.out) := by
  have hthere : (s.setClause id k.loading).OnePiece k 0 (fieldAt k.desc 32 8) fpa (4 * n) :=
    ⟨hpiece.runs, hpiece.sound, hpiece.block, hpiece.pos⟩
  have hexec := exec_kernel hlive hk hop hopen hissued hstage hplaced hn
  rw [hthere.clauseFetch hsend.1 hreplica] at hexec
  obtain ⟨hsent, hsw⟩ := State.sendAct_sent (s := s.setClause id k.loading) hsend (.read (4 * n)) (.program id) k.port false false
  have hclause (m : Nat) : ((s.setClause id k.loading).sendAct fpa (.read (4 * n)) k.partition (.program id) k.port false
      false).clauseAt m = (s.setClause id k.loading).clauseAt m := by
    rw [State.clauseAt, hsw.work]
    rfl
  refine .of_answer (u := s.setClause id k.loading) hexec hfin hsw ⟨hsent, ?_, fun m hm => ?_, hsw.mem, hsw.xlat, hsw.home, hsw.out⟩
  · rw [hclause, State.clauseAt_setClause_self]
  · rw [hclause, State.clauseAt_setClause_ne s hm]

/-- Bytes of a clause in a unit of this chip that nothing holds up are read at once. -/
theorem State.OnePiece.clauseFetch_here {fva fpa n : Nat} (h : s.OnePiece k 0 fva fpa n) (hhere : Reached s k.partition fpa)
    (hintact : s.Intact fpa n) (hclear : (linesOf fpa n).all (s.lineClear false) = true) (c : Cont) :
    ∃ u, s.Counted u k.partition ∧ s.clauseFetch k fva n c = u.finish c .none (memRead s.mem (memKey (fpaUnit fpa) (fpaOff fpa)) n) := by
  obtain ⟨hchip, -, -, hquiet, hforward, hframe⟩ := hhere
  let a := s.hereAccess fpa k.partition (.read n) c none none
  have hserves : s.ServesHere a c :=
    { who := rfl, intact := hintact, quiet := hquiet, forward := hforward, frame := hframe,
      form := rfl, order := fun hw => absurd hw Bool.false_ne_true, clear := hclear, copies := fun hw => absurd hw Bool.false_ne_true }
  obtain ⟨u, hu, hperform⟩ := hserves.atHome
  refine ⟨u, hu, ?_⟩
  have hread : u.perform a = u.finish c .none (memRead s.mem (memKey (fpaUnit fpa) (fpaOff fpa)) n) := by
    rw [← hu.mem]
    exact State.perform_read_here rfl rfl (hserves.intact.counted hu)
  rw [State.clauseFetch, h.runs]
  dsimp only
  rw [if_neg (Bool.eq_false_iff.1 h.sound), State.readRuns, cutRuns_block (Nat.ne_of_gt h.pos) h.block]
  dsimp only
  rw [State.issueRead, if_pos hchip]
  exact hperform.trans hread

/-- The image of a KERNEL with one context, which then runs it. -/
theorem State.programDone_single {c : At} {x : Ctx} (hk : s.clauseAt id = some k) (hlast : k.flying = [(2 ^ 41, 1)])
    (hplaced : k.placed = [c]) (hx : s.ctx c = some x) (hclause : x.clause = id) (data : List Byte) :
    s.continue (.program id) .none data =
      (s.setClause id { k with flying := [] }).setCtx c { x with prog := words32 data, mode := .running } := by
  have hsame : (s.setClause id { k with flying := [] }).ctx c = some x := hx
  have hdone : s.continue (.program id) .none data = s.programDone id .none data := rfl
  rw [hdone, State.programDone, hk]
  dsimp only
  rw [if_neg (not_not.2 rfl), State.pieceIn_last hk hlast]
  generalize s.setClause id { k with flying := [] } = v at hsame ⊢
  rw [hplaced, List.foldl_cons, List.foldl_nil, hsame]
  exact if_pos hclause

theorem Completes.kernel_here {fpa n : Nat} {c : At} {x : Ctx} (hlive : s.live = true) (hcalm : Calm s) (hk : s.clauseAt id = some k)
    (hop : descOp k.desc = 0x30) (hopen : k.ending = none) (hissued : k.issued = 0) (hstage : k.stage = .running)
    (hplaced : k.placed = [c]) (hx : s.ctx c = some x) (hclause : x.clause = id) (hn : fieldAt k.desc 40 2 = n)
    (hpiece : s.OnePiece k 0 (fieldAt k.desc 32 8) fpa (4 * n)) (hhere : Reached s k.partition fpa) (hintact : Intact s fpa (4 * n))
    (hclear : (linesOf fpa (4 * n)).all (s.lineClear false) = true) (hflying : k.flying = []) :
    Completes (.kernel id) s (fun t =>
      t.ctx c = some { x with prog := words32 (memRead s.mem (memKey (fpaUnit fpa) (fpaOff fpa)) (4 * n)), mode := .running } ∧
      t.clauseAt id = some { k with issued := 1, timed := true } ∧ (∀ m : Nat, m ≠ id → t.clauseAt m = s.clauseAt m) ∧
      (∀ m : Nat, m ≠ c.tile → t.tile m = s.tile m) ∧ t.mem = s.mem ∧ t.xlat = s.xlat ∧ t.fabric = s.fabric ∧ t.out = s.out) := by
  have hthere : (s.setClause id k.loading).OnePiece k 0 (fieldAt k.desc 32 8) fpa (4 * n) :=
    ⟨hpiece.runs, hpiece.sound, hpiece.block, hpiece.pos⟩
  have hunit : 16 ≤ fpaUnit fpa ∧ fpaUnit fpa < 32 := by
    obtain ⟨-, hnear, hbelow, -⟩ := hhere
    exact ⟨hnear, hbelow⟩
  obtain ⟨hpoison, htags⟩ := hintact
  obtain ⟨u, hu, hread⟩ := hthere.clauseFetch_here hhere ⟨hunit.1, .inl hunit.2, hpoison, htags⟩ hclear (.program id)
  have hexec := (exec_kernel hlive hk hop hopen hissued hstage (by rw [hplaced]; exact List.cons_ne_nil _ _) hn).trans
    (congrArg settled hread)
  let data := memRead s.mem (memKey (fpaUnit fpa) (fpaOff fpa)) (4 * n)
  let k' : Clause := { k.loading with flying := [] }
  let w := (u.setClause id k').setCtx c { x with prog := words32 data, mode := .running }
  have huk : u.clauseAt id = some k.loading := by
    rw [State.clauseAt, hu.work]
    exact State.clauseAt_setClause_self ..
  have hux : u.ctx c = some x := by
    rw [State.ctx, State.tile, hu.home]
    exact hx
  have hlast : k.loading.flying = [(2 ^ 41, 1)] := by
    rw [Clause.loading, hflying]
    rfl
  have hdone : u.continue (.program id) .none data = w := State.programDone_single huk hlast hplaced hux hclause data
  have hclauses : w.work.clauses = tset id k' s.work.clauses := by
    have htable : w.work.clauses = tset id k' u.work.clauses := rfl
    rw [htable, hu.work]
    exact tset_tset ..
  have hstill : w.Still := by
    obtain ⟨hfin, hall, hmoves, hupdates, -⟩ := hcalm
    refine ⟨?_, fun e he => ?_, ?_, ?_⟩
    · exact (congrArg Home.finished hu.home).trans hfin
    · rw [hclauses] at he
      obtain rfl | hold := mem_tset he
      · exact ⟨fun hparked => Stage.noConfusion (hstage.symm.trans hparked), (hall _ (mem_of_tget hk)).2⟩
      · exact hall _ hold
    · have hsame : w.parser.migrations = s.parser.migrations := (congrArg (fun t : State => t.parser.migrations) hu.frame).trans rfl
      rw [hsame]
      exact hmoves
    · exact (congrArg (fun t : State => t.parser.updates) hu.frame).trans hupdates
  have hufin : u.home.finished = [] := (congrArg Home.finished hu.home).trans hcalm.1
  obtain ⟨t, hstep, htidied⟩ := State.Still.settled_finish hufin hdone hstill
  have hlook (m : Nat) : t.clauseAt m = tget m (tset id k' s.work.clauses) := by
    rw [htidied, ← hclauses]
    rfl
  refine .of_next (hexec.trans hstep) ⟨?_, ?_, fun m hm => ?_, fun m hm => ?_, ?_, ?_, ?_, ?_⟩
  · rw [htidied]
    exact State.ctx_setCtx_self ..
  · rw [hlook, tget_tset_self]
    exact congrArg (fun w => some { k with issued := 1, timed := true, flying := w }) hflying.symm
  · rw [hlook, tget_tset_ne hm]
    rfl
  · rw [htidied]
    exact (State.tile_setCtx_ne _ hm _).trans (congrArg (fun h : Home => (tget m h.tiles).getD Tile.empty) hu.home)
  · rw [htidied]
    exact hu.mem
  · rw [htidied]
    exact hu.xlat
  · rw [htidied]
    exact hu.fabric
  · rw [htidied]
    exact hu.out

/-! ### TRANSFORM, and chunks (R182, R183, R278) -/

theorem State.ptu_setPtu_self (s : State) (u : Nat) (p : Ptu) : (s.setPtu u p).ptu u = p :=
  congrArg (Option.getD · Ptu.reset) (tget_tset_self u p s.ptus)

theorem State.ptu_setPtu_ne (s : State) {u m : Nat} (h : m ≠ u) (p : Ptu) : (s.setPtu u p).ptu m = s.ptu m :=
  congrArg (Option.getD · Ptu.reset) (tget_tset_ne h p s.ptus)

/-- A TRANSFORM that waits, and that a unit may run, joins the unit's list. -/
theorem State.schedule_of_unit {u : Nat} (hk : s.clauseAt id = some k) (hstage : k.stage = .waiting)
    (htriggered : k.untriggered = false) (hptu : k.ptu = none) (hextra : k.extra = []) (hflying : k.flying = [])
    (hunit : s.chooseUnit k = some u) :
    s.schedule id k = (s.setClause id { k with ptu := some u }).setPtu u { s.ptu u with waiting := (s.ptu u).waiting ++ [id] } := by
  have hjoins : ¬ (k.stage ≠ .waiting ∨ k.untriggered = true ∨ k.ptu.isSome = true ∨ k.extra ≠ [] ∨ (!k.flying.isEmpty) = true) := by
    simp [hstage, htriggered, hptu, hextra, hflying]
  rw [State.schedule, if_neg hjoins, hunit]
  dsimp only
  rw [State.modClause_of_clauseAt hk]
  rfl

/-- A chunk whose writes are performed counts, where the clause tells no counter of it. -/
theorem State.completeChunk_of_done {c : Nat} (hk : s.clauseAt id = some k) (hstage : k.stage ≠ .done ∧ k.stage ≠ .away)
    (hexists : chunkExists k.desc k.extra (s.role k) c = true) (hdone : s.chunkDone k c = true)
    (hsilent : descArriveEn k.desc = false) :
    s.completeChunk id c = s.setClause id { k with chunks := k.chunks + 1, counted := c :: k.counted } := by
  have hgoes : ¬ (k.stage = .done ∨ k.stage = .away ∨ (!chunkExists k.desc k.extra (s.role k) c) = true ∨
      (!s.chunkDone k c) = true) := by
    simp [hstage.1, hstage.2, hexists, hdone]
  have hnone : ¬ (descArriveEn k.desc = true ∧ k.arriveErr = .none) := by simp [hsilent]
  rw [State.completeChunk, hk]
  dsimp only
  rw [if_neg hgoes, State.countChunk, hk]
  dsimp only
  rw [if_neg hnone, State.modClause_of_clauseAt hk]

end

/-- Settles O34: a clause without operands does its work once and completes as `State.Completed` says; COUNTER_OP, KERNEL and
TRANSFORM leave the state that their rules name. -/
theorem clausesWithoutOperandsAndCompletion : Obligations.ClausesWithoutOperandsAndCompletion := by
  unfold Obligations.ClausesWithoutOperandsAndCompletion
  refine ⟨?fence, ?wait, ?satisfied, ?timeout, ?counter, ?kernelSent, ?kernelHere, ?transform, ?chunk, ?complete⟩
  case fence =>
    exact fun s id k r hlive hfin hk hr hwriting hwaits hfresh hflags hmet =>
      .once (met := fun k s => s.fenceMet id k) rfl (.inl rfl) hlive hfin hk hr hwriting hwaits hfresh hflags hmet
  case wait =>
    exact fun s id k r hlive hfin hk hr hwriting hwaits hfresh hflags hmet =>
      .once (met := fun k s => s.waitMet k) rfl (.inr rfl) hlive hfin hk hr hwriting hwaits hfresh hflags hmet
  case satisfied =>
    exact fun s id k r hlive hfin hk hr hwriting hwaits hfresh hflags hmet =>
      .once (met := fun k s => s.waitMet k) rfl (.inr rfl) hlive hfin hk hr hwriting hwaits hfresh hflags hmet
  case timeout =>
    intro s id k r hlive hfin hk hr hwriting ⟨hop, hopen, hissued, htriggered, hstage, horigin⟩ ⟨hflying, harriving, hplaced, hmet⟩
      ⟨hstate, hheld⟩ _
    exact .waitTimeout hlive hfin hk hr hwriting hop hopen hissued htriggered hstage horigin hflying harriving hplaced hmet hstate hheld
  case counter =>
    intro s id k hlive _ hk ⟨hop, hopen, hissued, htriggered, hstage, hcancelled, hflying⟩ ⟨hchip, howns⟩ honly _ hcalm
    exact .counterOp_here hlive hk hop hopen hissued htriggered hstage hcancelled hflying hchip howns honly hcalm
  case kernelSent =>
    intro s id fpa n k hlive hfin hk ⟨hop, hopen, hissued, hstage, hplaced⟩ hn hpos hruns hsound hreplica hsend hblock
    exact .kernel_sent hlive hfin hk hop hopen hissued hstage hplaced hn ⟨hruns, hsound, hblock, by omega⟩ hreplica hsend
  case kernelHere =>
    intro s id fpa n k c x hlive hcalm hk ⟨hop, hopen, hissued, hstage⟩ hplaced hx hclause hn hpos hruns hsound hblock hhere hintact
      hclear hflying
    exact .kernel_here hlive hcalm hk hop hopen hissued hstage hplaced hx hclause hn ⟨hruns, hsound, hblock, by omega⟩ hhere hintact
      hclear hflying
  case transform =>
    intro s id u k hlive hfin hk ⟨hop, hopen, hstage, htriggered, hptu, hextra, hflying⟩ hunit
    have hexec : exec (.transform id) s = settled (s.schedule id k) := by
      refine (worked_live hlive _).trans (congrArg settled ?_)
      rw [hk]
      exact if_pos ⟨hop, by rw [hopen]; rfl⟩
    rw [State.schedule_of_unit hk hstage htriggered hptu hextra hflying hunit] at hexec
    exact .of_settled hexec hfin ⟨State.clauseAt_setClause_self .., State.ptu_setPtu_self .., fun n hn =>
      State.clauseAt_setClause_ne s hn _, fun n hn => State.ptu_setPtu_ne (s.setClause id _) hn _, rfl⟩
  case chunk =>
    intro s id c k hlive hfin hk hstage hexists hdone hsilent
    have hexec : exec (.chunkComplete id c) s = settled (s.completeChunk id c) := worked_live hlive _
    rw [State.completeChunk_of_done hk hstage hexists hdone hsilent] at hexec
    exact .of_settled hexec hfin ⟨State.clauseAt_setClause_self .., fun n hn => State.clauseAt_setClause_ne s hn _, rfl⟩
  case complete =>
    intro s id k r e hlive hfin hk hr hwriting ⟨horigin, hstage, hflying, harriving, hplaced⟩ hcoll ⟨hend, herror⟩
    have hdone := State.complete_of_ending hk hr hwriting horigin (by rw [hstage]; exact Stage.noConfusion) hflying harriving hplaced
      hcoll (State.finalEnding_of_error hend herror)
    refine .of_settled (worked_live hlive _) (hdone.finished.trans hfin) ⟨?_, ?_, fun n hn => hdone.clauseAt_ne hn,
      fun n hn => hdone.queue_ne hn, hdone.frame⟩
    · rw [← k.record_of_error herror]
      exact congrArg (Option.map fun x => x.records) hdone.queue_self
    · rw [hdone.clauseAt_self]
      rfl

end Sys2Proof.Machine
end
